-- ==== Sys2Proof/Word.lean ====
section
/-!
DEFINITION. The word types of the KX-4896: bytes, halves, words and double words, all little-endian in memory (R7).
-/
namespace Sys2Proof

/-- One byte. -/
abbrev Byte := BitVec 8

/-- A 16-bit field. -/
abbrev Half := BitVec 16

/-- A 32-bit register, PARAM word or handle. -/
abbrev Word := BitVec 32

/-- A 64-bit register or packet field. -/
abbrev DWord := BitVec 64

/-- A handle: bits 31:28 give the type (R4). -/
abbrev Handle := BitVec 32

/-- Increment of a 32-bit counter that stops at its largest value. -/
def Word.satInc (w : Word) : Word := if w = BitVec.allOnes 32 then w else w + 1

end Sys2Proof
end

