-- ==== Sys2Proof/Syntax.lean ====
section
/-!
DEFINITION. The commands and events of the part as data: the 64-byte command packet (Table 02-7), the opcodes (Table 02-10),
and one constructor per row of the table of operations. The part is a block: it has no instruction memory and no instruction
words; each constructor carries the operands that come from outside (a value written, a cell received, what a host read
returned, how a measurement ended).
-/
namespace Sys2Proof

/-- What a host read of a command's structure returned (R466): the bytes, or a failed read
(Completer Abort, Unsupported Request, poisoned data or no completion). -/
inductive HostRead where
  | bytes (data : List Byte)
  | failed
deriving DecidableEq, Repr, Inhabited

/-- The fields of a command packet after OPCODE (Table 02-7). -/
structure Packet where
  flags    : Byte
  rsvd03   : Byte
  cid      : Half
  rsvd06   : Half
  handle   : Handle
  aux      : Handle
  ptr      : DWord
  ptrLen   : Word
  ptrSpace : BitVec 2
  rsvd1C   : BitVec 30
  param    : Vector Word 8
deriving DecidableEq, Repr

/-- A command in execution: the queue it came from, its packet, and what a host read of its structure returns. -/
structure Cmd extends Packet where
  qid  : Fin 64
  host : HostRead
deriving DecidableEq, Repr

/-- One submission queue entry as read in a fetch (R36, R63): its 64 bytes, or a failed read. -/
inductive EntryRead where
  | entry (opcode : Half) (pkt : Packet)
  | failed
deriving DecidableEq, Repr

/-- A write to a register without a row of its own: a BAR0 access (offset, 64-bit or 32-bit, value), a change of the
Resizable BAR size (log2), or an SMBus write (command code, value). -/
inductive RegTarget where
  | bar0 (off : Nat) (wide : Bool) (val : Nat)
  | bar2Size (log2 : Nat)
  | smbus (code val : Nat)
deriving DecidableEq, Repr

/-- Where a prediction unit's vector comes from (R202): an H.265 merge or AMVP candidate, the zero vector, or the field vector of the co-located block
(0) or of its left, upper, right or lower neighbour (1 to 4). -/
inductive PuSource where
  | merge | amvp | zero
  | field (k : Nat)
deriving DecidableEq, Repr

/-- A prediction unit: its place and size in luma samples of the picture, the FN of the picture it refers to, its vector in quarter samples, and where
the vector comes from. -/
structure EncPu where
  x      : Nat
  y      : Nat
  w      : Nat
  h      : Nat
  ref    : Nat
  vec    : Int × Int
  source : PuSource
deriving DecidableEq, Repr

/-- How a coding tree unit is coded, as the statistics count it. -/
inductive CtuMode where
  | inter | skip | intra
deriving DecidableEq, Repr

/-- What an encoder core reports of a coding tree unit, in coding order: the bits that coding it takes, the bits that it took, starved or not, its mode,
and its prediction units. -/
structure EncCtu where
  tried : Nat
  bits  : Nat
  mode  : CtuMode
  pus   : List EncPu
deriving DecidableEq, Repr

/-- The report of an encoder core with a picture: the epoch of the role under which it was coded (R24, R216) and its coding tree units. -/
structure EncReport where
  epoch : Nat
  ctus  : List EncCtu
deriving DecidableEq, Repr

/-- What the parameter sets and slice headers of a picture say (H.265): its POC, whether it is an IRAP picture, begins a new coded video
sequence, or is a RASL picture; its reference picture set and the part of it that the picture itself needs; its size, conformance window,
bit depth, ENC and RANGE; and what governs its output. -/
structure DecPicInfo where
  poc     : Int
  irap    : Bool
  newSeq  : Bool
  rasl    : Bool
  rps     : List Int
  needs   : List Int
  width   : Nat
  height  : Nat
  cropX   : Nat
  cropY   : Nat
  cropW   : Nat
  cropH   : Nat
  depth   : Nat
  ctu     : Nat
  attr    : Nat
  reorder : Nat
  latency : Option Nat
  dpb     : Nat
  output  : Bool
  noPrior : Bool
deriving DecidableEq, Repr

/-- The kinds of parameter sets (H.265). -/
inductive DecSetKind where
  | vps | sps | pps
deriving DecidableEq, Repr, Inhabited

/-- What a sequence parameter set says that a session may not take (Table 08-4, class 4): the bit of PROFILES of its profile, its general_level_idc, its
picture size, its bit depth, sps_max_dec_pic_buffering, and its chroma format. -/
structure DecSps where
  profile : Nat
  level   : Nat
  width   : Nat
  height  : Nat
  depth   : Nat
  dpb     : Nat
  chroma  : Nat
deriving DecidableEq, Repr

/-- What the parser of a decode session finds in a chunk (R226, R227), with the place of its byte in the chunk: a detection of class 2 or 3 in a slice; a
parameter set, damaged (class 2) or not; the first slice segment of a picture with the parameter sets it refers to; or the first slice segment of a
picture of which none is decoded. -/
inductive DecItem where
  | detect (at_ cls : Nat)
  | set (at_ : Nat) (kind : DecSetKind) (id : Nat) (damaged : Bool) (sps : DecSps)
  | begin_ (at_ : Nat) (sps pps : Nat) (p : DecPicInfo)
  | lost (at_ : Nat)
deriving DecidableEq, Repr

/-- A lost CTU: its place, and for each decoded inter-coded neighbour its vector in quarter samples and the POC distance of its own
reference (R228). -/
structure LostCtu where
  x  : Nat
  y  : Nat
  near : List (Int × Int × Int)
deriving DecidableEq, Repr

/-- What a decoder core reports of a picture: the decoded samples of each component, the lost CTUs, whether the picture's hash message
agrees, none without a message, and the POCs of the references of which it read a marked line. -/
structure DecReport where
  recon : List (List Nat)
  lost  : List LostCtu
  hash  : Option Bool
  hit   : List Int
deriving DecidableEq, Repr

/-- An error found in an SRAM word: the macro's number, the word address, its content, and whether it is uncorrectable. -/
structure SramError where
  number  : Nat
  addr    : Nat
  content : Nat
  uncorr  : Bool
deriving DecidableEq, Repr

/-- The causes of a host-interface reset (Table 02-21). -/
inductive HostResetCause where
  | perst | hotReset | linkDown | flr | enCleared
deriving DecidableEq, Repr, Inhabited

/-- The data of an Announce message that the best master clock algorithm compares (IEEE 1588-2019). -/
structure Announce where
  gmId         : Nat
  priority1    : Nat
  priority2    : Nat
  clockClass   : Nat
  clockAcc     : Nat
  variance     : Nat
  stepsRemoved : Nat
  senderId     : Nat
deriving DecidableEq, Repr, Inhabited

/-- The kinds of replaceable physical unit that share the unit table (Table 16-4). Lanes and pseudo-channels stand in
their own chapters' state. -/
inductive UnitKind where
  | sliceU | siteU | encU | decU | cmpU | motionU
deriving DecidableEq, Repr, Inhabited

/-- The payload of a pixel cell: its prefix (Table 03-7) and its line data. -/
structure PixCell where
  exp    : Nat
  sof    : Bool
  eof    : Bool
  sol    : Bool
  eol    : Bool
  hubFc  : Nat
  line   : Nat
  offset : Nat
  cseq   : Nat
  data   : List Byte
deriving DecidableEq, Repr

/-- The reduction operations of a TILE kernel (R306). -/
inductive JmRed where
  | add | max | min
deriving DecidableEq, Repr, Inhabited

/-- How an invocation of a kernel ends (R303, R306, R313, R314): a tile with the samples of its hook planes and its reduction operations
(operation, word, value); a policy with VALID, its request and its state; a rate with VALID, B_PIC, QP_BASE and its state; a trap; or an
uncorrectable error in the site's tile buffers or register file. -/
inductive JmResult where
  | tile (planes : List (List Nat)) (reds : List (JmRed × Nat × Nat))
  | policy (valid : Nat) (request state : List Byte)
  | rate (valid bits qp : Nat) (state : List Byte)
  | trap (code : Nat)
  | fault
deriving DecidableEq, Repr

/-- The trigger plan of a mirrored context (R434): its first time and period in ns, the index past its last trigger, its alignment, its pin and
pulse width, and the difference between the FN and the index of a trigger. -/
structure MirrorPlan where
  first  : Nat
  period : Nat
  stop   : Option Nat
  align  : Bool
  pin    : Option Nat
  pulse  : Nat
  fnBase : Int
deriving DecidableEq, Repr

/-- The mirrored state of a context (R434): profile, RUN, trigger plan, the raw stages with their enables, the tables, the colour blocks, the
statistics block, the limits, the newest apply as an apply block, the images of its POLICY kernels with the roles that they hold and their number of
engine roles, and the output blocks. -/
structure Mirror where
  profile  : List Byte
  run      : Nat
  plan     : Option MirrorPlan
  stages   : List (Bool × List Byte)
  tables   : List (Nat × List Byte)
  matrix   : List Byte
  look     : Option (List Byte)
  curves   : List (Nat × List Byte)
  spectral : List Byte
  stats    : Option (List Byte)
  limits   : List Byte
  apply    : Option (List Byte)
  kernels  : List (Nat × Nat × List Byte)
  outs     : List (Nat × List Byte)
deriving DecidableEq, Repr

/-- What heads a change of mirrored state on the pair link (R24, R434): the sender's instance epoch, and its context. -/
structure ShadowCell where
  epoch : Nat
  cam   : Nat
deriving DecidableEq, Repr

/-- The opcodes of Table 02-10 (R44). -/
inductive Op where
  | identify
  | getLogPage
  | setFeature
  | getFeature
  | queueCreate
  | queueDelete
  | queueFlush
  | queueReset
  | asyncEventRequest
  | bufAlloc
  | bufFree
  | bufCopy
  | bufFill
  | bufCheck
  | camConfigure
  | camStart
  | camStop
  | camSensorWrite
  | camTriggerPlan
  | rawSetStage
  | rawLoadTable
  | rawTap
  | clrSetMatrix
  | clrLoadLut3d
  | clrLoadCurve
  | clrSetOutput
  | clrSetSpectral
  | expApply
  | expSetLimits
  | statConfigure
  | expPolicyBind
  | encSessionOpen
  | encSessionClose
  | encSetRate
  | encForceIdr
  | encRefMark
  | decSessionOpen
  | decSubmit
  | decSessionClose
  | cmpJob
  | recSessionOpen
  | recSessionClose
  | recMarkEvent
  | cmpExpand
  | dispSetTiming
  | dispLayerSet
  | dispCommit
  | dispLoadCoef
  | dispCrcSet
  | dispClone
  | jmLoadKernel
  | jmBindStage
  | jmUnload
  | laneConfigure
  | laneTrain
  | laneBitslip
  | laneCalSave
  | laneCalRestore
  | ethPortConfigure
  | timeSetMode
  | timeStep
  | timeAdjustRate
  | timeWriteIncrement
  | evtOutputSet
  | evtCaptureSet
  | audPortConfigure
  | audStart
  | audStop
  | audSetSlots
  | fwDownload
  | fwCommit
  | fwActivate
  | healthQuery
  | monConfigure
  | unitRejoin
  | pairConfigure
  | errPolicySet
  | pwrSetState
  | pwrSetIdleTimers
  | memSetSpeed
deriving DecidableEq, Repr, Inhabited

/-- The 16-bit value of an opcode (Table 02-10): the high byte is the class, the low byte the command (R43). -/
def Op.code : Op → Nat
  | .identify => 0x0001
  | .getLogPage => 0x0002
  | .setFeature => 0x0003
  | .getFeature => 0x0004
  | .queueCreate => 0x0010
  | .queueDelete => 0x0011
  | .queueFlush => 0x0012
  | .queueReset => 0x0013
  | .asyncEventRequest => 0x0020
  | .bufAlloc => 0x0101
  | .bufFree => 0x0102
  | .bufCopy => 0x0103
  | .bufFill => 0x0104
  | .bufCheck => 0x0105
  | .camConfigure => 0x0201
  | .camStart => 0x0202
  | .camStop => 0x0203
  | .camSensorWrite => 0x0204
  | .camTriggerPlan => 0x0205
  | .rawSetStage => 0x0301
  | .rawLoadTable => 0x0302
  | .rawTap => 0x0303
  | .clrSetMatrix => 0x0401
  | .clrLoadLut3d => 0x0402
  | .clrLoadCurve => 0x0403
  | .clrSetOutput => 0x0404
  | .clrSetSpectral => 0x0405
  | .expApply => 0x0501
  | .expSetLimits => 0x0502
  | .statConfigure => 0x0503
  | .expPolicyBind => 0x0504
  | .encSessionOpen => 0x0601
  | .encSessionClose => 0x0602
  | .encSetRate => 0x0603
  | .encForceIdr => 0x0604
  | .encRefMark => 0x0605
  | .decSessionOpen => 0x0701
  | .decSubmit => 0x0702
  | .decSessionClose => 0x0703
  | .cmpJob => 0x0801
  | .recSessionOpen => 0x0802
  | .recSessionClose => 0x0803
  | .recMarkEvent => 0x0804
  | .cmpExpand => 0x0805
  | .dispSetTiming => 0x0901
  | .dispLayerSet => 0x0902
  | .dispCommit => 0x0903
  | .dispLoadCoef => 0x0904
  | .dispCrcSet => 0x0905
  | .dispClone => 0x0906
  | .jmLoadKernel => 0x0A01
  | .jmBindStage => 0x0A02
  | .jmUnload => 0x0A03
  | .laneConfigure => 0x0B01
  | .laneTrain => 0x0B02
  | .laneBitslip => 0x0B03
  | .laneCalSave => 0x0B04
  | .laneCalRestore => 0x0B05
  | .ethPortConfigure => 0x0B06
  | .timeSetMode => 0x0C01
  | .timeStep => 0x0C02
  | .timeAdjustRate => 0x0C03
  | .timeWriteIncrement => 0x0C04
  | .evtOutputSet => 0x0C05
  | .evtCaptureSet => 0x0C06
  | .audPortConfigure => 0x0D01
  | .audStart => 0x0D02
  | .audStop => 0x0D03
  | .audSetSlots => 0x0D04
  | .fwDownload => 0x0E01
  | .fwCommit => 0x0E02
  | .fwActivate => 0x0E03
  | .healthQuery => 0x0E04
  | .monConfigure => 0x0E05
  | .unitRejoin => 0x0E06
  | .pairConfigure => 0x0E07
  | .errPolicySet => 0x0E08
  | .pwrSetState => 0x0F01
  | .pwrSetIdleTimers => 0x0F02
  | .memSetSpeed => 0x0F03

/-- Every opcode of Table 02-10, in its order. -/
def Op.all : List Op :=
  [.identify, .getLogPage, .setFeature, .getFeature, .queueCreate, .queueDelete,
   .queueFlush, .queueReset, .asyncEventRequest, .bufAlloc, .bufFree, .bufCopy,
   .bufFill, .bufCheck, .camConfigure, .camStart, .camStop, .camSensorWrite,
   .camTriggerPlan, .rawSetStage, .rawLoadTable, .rawTap, .clrSetMatrix, .clrLoadLut3d,
   .clrLoadCurve, .clrSetOutput, .clrSetSpectral, .expApply, .expSetLimits, .statConfigure,
   .expPolicyBind, .encSessionOpen, .encSessionClose, .encSetRate, .encForceIdr, .encRefMark,
   .decSessionOpen, .decSubmit, .decSessionClose, .cmpJob, .recSessionOpen, .recSessionClose,
   .recMarkEvent, .cmpExpand, .dispSetTiming, .dispLayerSet, .dispCommit, .dispLoadCoef,
   .dispCrcSet, .dispClone, .jmLoadKernel, .jmBindStage, .jmUnload, .laneConfigure,
   .laneTrain, .laneBitslip, .laneCalSave, .laneCalRestore, .ethPortConfigure, .timeSetMode,
   .timeStep, .timeAdjustRate, .timeWriteIncrement, .evtOutputSet, .evtCaptureSet, .audPortConfigure,
   .audStart, .audStop, .audSetSlots, .fwDownload, .fwCommit, .fwActivate,
   .healthQuery, .monConfigure, .unitRejoin, .pairConfigure, .errPolicySet, .pwrSetState,
   .pwrSetIdleTimers, .memSetSpeed]

/-- The opcode of a 16-bit value, none where Table 02-10 lists none. -/
def Op.ofCode (v : Nat) : Option Op := Op.all.find? (fun o => o.code == v)

/-- The commands and events of the part, one constructor per row of the table of operations. -/
inductive Instr where
  /-- HOST_ENABLE (R464): Host sets KX_HOST_CTRL.EN from 0 to 1. The device checks the admin queue registers and either sets up the admin queue pair or refuses the write and sets PARAM_ERR. -/
  | hostEnable
  /-- HOST_DISABLE (R67): Host clears KX_HOST_CTRL.EN, which acts as a host-interface reset with cause EN cleared. -/
  | hostDisable
  /-- ADMIN_RESET (R56): Host writes 1 to KX_HOST_CTRL.ADMIN_RESET. The admin queue pair is reset, its commands are aborted, and RDY returns to 1. -/
  | adminReset
  /-- SQ_DOORBELL (R32): Host writes a submission queue tail. The value is checked, the new entries become outstanding, and a device in a low-power state returns to the operational state. -/
  | sqDoorbell (q : Fin 64) (v : Word)
  /-- CQ_DOORBELL (R41): Host writes a completion queue head, which frees completion space and releases completions held under R41. -/
  | cqDoorbell (q : Fin 64) (v : Word) (writesOk : Bool)
  /-- REGISTER_WRITE (R9): A write to a register that has no row of its own, including RW1C flags, BAR2_BASE, SMBus RW registers and reserved offsets. It has its stated effect, or it is ignored or refused. -/
  | registerWrite (t : RegTarget)
  /-- BAR0_BAD_ACCESS (R28): A BAR0 access that is not aligned or not of 32 or 64 bits completes without effect, and a read of that kind returns all ones. -/
  | bar0BadAccess (isRead : Bool)
  /-- BAR2_READ (R31): Host read through the BAR2 window. It returns data, a poisoned completion, or Unsupported Request beyond the device range, in a retired range, or in PS2 or PS3. -/
  | bar2Read (off len : Nat)
  /-- BAR2_WRITE (R318): Host write through the BAR2 window. It is discarded and counted in the reserved region, and completes with Unsupported Request where the read would. -/
  | bar2Write (off : Nat) (data : List Byte)
  /-- TIME_NOW_READ (R371): A read that covers the low half of KX_TIME_NOW takes a snapshot of the counter and latches its seconds and fraction. -/
  | timeNowRead (wide : Bool)
  /-- TIME_ASYM_WRITE (R372): Write of KX_TIME_ASYM of an Ethernet port. It applies from the next stamp, or it is refused with PARAM_ERR when its magnitude exceeds 1,000 ns. -/
  | timeAsymWrite (p : Fin 4) (v : Word)
  /-- TIME_LINK_ASYM_WRITE (R372): Write of KX_TIME_LINK_ASYM of a physical lane. It applies from the next stamp, or it is refused with PARAM_ERR when its magnitude exceeds 1,000 ns. -/
  | timeLinkAsymWrite (n : Fin 32) (v : Word)
  /-- LIVE_ADDR_WRITE (R282): Write of KX_DISP_HEADn_LIVE_ADDR. It is accepted for the next line fetch of the bound DIRECT layer, or refused with PARAM_ERR. -/
  | liveAddrWrite (head : Fin 4) (k : Fin 8) (half : Option Bool) (v : DWord)
  /-- FRAME_COUNT_READ (R281): A read of KX_DISP_HEADn_FRAME_COUNT captures the frame start time into FRAME_TS. -/
  | frameCountRead (head : Fin 4)
  /-- CAL_VAL_WRITE (R361): Host writes KX_LANE_CAL_VAL words, which stage a calibration record for the lane. -/
  | calValWrite (n : Fin 32) (word : Fin 128) (wide : Bool) (v : DWord)
  /-- LANE_APPLY (R361): Host writes APPLY in KX_LANE_CTRL. The staged record is loaded into the lane, and a spare retrains from it; the write is refused with PARAM_ERR in the cases R361 lists. -/
  | laneApply (n : Fin 32)
  /-- FEC_CORR_READ (R360): A read of KX_LANE_FEC_CORR returns the count of corrected symbols and clears it. -/
  | fecCorrRead (n : Fin 32)
  /-- FEC_UNCORR_READ (R360): A read of KX_LANE_FEC_UNCORR returns the count of uncorrectable codewords and clears it. -/
  | fecUncorrRead (n : Fin 32)
  /-- ALERT_RESPONSE (R429): SMBus read of the Alert Response Address, which the device answers with its own address while it asserts SMB_ALERT_N. -/
  | alertResponse
  /-- SET_ENDPOINT_ID (R430): MCTP control message Set Endpoint ID received and answered. -/
  | setEndpointId (eid : Byte)
  /-- GET_ENDPOINT_ID (R430): MCTP control message Get Endpoint ID received and answered. -/
  | getEndpointId
  /-- GET_MCTP_VERSION_SUPPORT (R430): MCTP control message Get MCTP Version Support received and answered. -/
  | getMctpVersionSupport
  /-- GET_MESSAGE_TYPE_SUPPORT (R430): MCTP control message Get Message Type Support received and answered. -/
  | getMessageTypeSupport
  /-- MCTP_HEALTH_REQUEST (R430): MCTP vendor-defined request 0x01, which returns the health summary. -/
  | mctpHealthRequest
  /-- MCTP_MONITOR_REQUEST (R430): MCTP vendor-defined request 0x02, which returns the entry of monitor n. -/
  | mctpMonitorRequest (n : Nat)
  /-- MCTP_LOG_REQUEST (R430): MCTP vendor-defined request 0x03, which returns the error log entry of a sequence number. -/
  | mctpLogRequest (seq : Nat)
  /-- COMMAND_FETCH (R36): In an arbitration turn, Chandler fetches up to 8 entries from one submission queue. The queue halts when an entry read fails. -/
  | commandFetch (reads : List EntryRead)
  /-- COMMAND_DISPATCH (R51): A fetched command is checked and dispatched once its range locks can all be taken, and stalls otherwise. -/
  | commandDispatch (q : Fin 64) (host : HostRead)
  /-- COMMAND_COMPLETE (R41): A command finishes its work, its completion entry is written, and its range locks are released. -/
  | commandComplete (q : Fin 64) (writeOk : Bool)
  /-- COALESCING_TIMEOUT (R61): The coalescing time since the first unsignalled eligible completion of a queue expires, and the queue's MSI-X vector is signalled. -/
  | coalescingTimeout (q : Fin 64)
  /-- IDENTIFY (R45): Copies the 4 KiB IDENTIFY structure into the PTR range. -/
  | identify (c : Cmd)
  /-- GET_LOG_PAGE (R47): Copies a snapshot of a log page into the PTR range. -/
  | getLogPage (c : Cmd)
  /-- SET_FEATURE (R48): Sets the value of a device or camera feature. -/
  | setFeature (c : Cmd)
  /-- GET_FEATURE (R48): Returns the value of a feature in force. -/
  | getFeature (c : Cmd)
  /-- QUEUE_CREATE (R33): Creates a submission and completion queue pair and returns its handle and ID. -/
  | queueCreate (c : Cmd)
  /-- QUEUE_DELETE (R34): Deletes a queue pair that has no outstanding command. -/
  | queueDelete (c : Cmd)
  /-- QUEUE_FLUSH (R54): Completes the not-started commands of a queue with FLUSHED and lets the commands in flight finish. -/
  | queueFlush (c : Cmd)
  /-- QUEUE_RESET (R56): Aborts every command of a queue at its safe point and returns the queue to its initial state. -/
  | queueReset (c : Cmd)
  /-- ASYNC_EVENT_REQUEST (R59): Leaves a request outstanding, which completes when an asynchronous event occurs. -/
  | asyncEventRequest (c : Cmd)
  /-- BUF_ALLOC (R320): Allocates a buffer in the heap, filling it with zeros if ZERO is set. -/
  | bufAlloc (c : Cmd)
  /-- BUF_FREE (R321): Frees a buffer that is not pinned or in use. -/
  | bufFree (c : Cmd)
  /-- BUF_COPY (R323): Copies a range between buffers and carries poison marks with the data. -/
  | bufCopy (c : Cmd)
  /-- BUF_FILL (R322): Fills a range with a 32-bit pattern and clears the marks of lines written whole. -/
  | bufFill (c : Cmd)
  /-- BUF_CHECK (R322): Computes the CRC-32C of a range and optionally compares it with an expected value. -/
  | bufCheck (c : Cmd)
  /-- MEM_SET_SPEED (R328): Sets the HBM speed used in PS0, changing the stacks one at a time. -/
  | memSetSpeed (c : Cmd)
  /-- PWR_SET_STATE (R64): Sets the operational power state after the entry checks. -/
  | pwrSetState (c : Cmd)
  /-- PWR_SET_IDLE_TIMERS (R65): Sets the permitted idle states and their timers. -/
  | pwrSetIdleTimers (c : Cmd)
  /-- IDLE_TIMER_EXPIRY (R65): An idle timer expires, and the device enters the deepest permitted state whose check holds. -/
  | idleTimerExpiry (n : Fin 3)
  /-- HOST_INTERFACE_RESET (R67): PERST_N, a hot reset, a link-down or an FLR resets only the host interface, deletes the queues and keeps orphan completions. -/
  | hostInterfaceReset (cause : HostResetCause)
  /-- PCIE_LINK_TRAINING (R454): Once PERST_N and RESET_N are high and the reference clock is stable, the endpoint trains its link. -/
  | pcieLinkTraining (rate width : Nat)
  /-- POWER_UP (R442): The rails ramp in sequence with RESET_N low, and the time counter starts at zero. -/
  | powerUp
  /-- DEVICE_RESET (R448): RESET_N goes low. Outputs go to high impedance, HBM refresh stops and the PCIe link goes down. -/
  | deviceReset
  /-- BOOT (R452): RESET_N rises and the boot flow runs to command-ready, or to recovery. -/
  | boot (flashOk : Bool) (checkA checkB : Nat) (units : List (UnitKind × Nat)) (pcs : List Nat) (remaps : List (Nat × Nat)) (answered : List (Nat × Nat))
  /-- TAP_RESET (R448): JTAG_TRST_N resets only the test access port. -/
  | tapReset
  /-- VDD_CORE_FAILURE (R405): VDD_CORE fails while VDD_MGMT holds. Chandler sets CORE_DOWN, alerts and drives its pair-sense pin low. -/
  | vddCoreFailure
  /-- THERMAL_THROTTLE (R461): A sensor reaches 108 °C. The slices are capped, the HBM slows and THERMAL is posted. -/
  | thermalThrottle (sensor : Fin 24)
  /-- THROTTLE_END (R461): Every sensor has read 103 °C or less for 100 ms. The throttle ends and deferred state or speed requests take effect. -/
  | throttleEnd
  /-- THERMAL_TRIP (R462): A sensor reaches 125 °C. THERM_TRIP_N is driven low and the core domain is stopped. -/
  | thermalTrip (sensor : Fin 24)
  /-- CAM_CONFIGURE (R73): Claims a context or replaces its profile, after checking the profile and admission. -/
  | camConfigure (c : Cmd)
  /-- CAM_START (R71): Binds the hub, runs admission and moves the context to RUNNING with a new RUN. -/
  | camStart (c : Cmd)
  /-- BIND_TIMEOUT (R71): No BIND acknowledgement within 10 ms. CAM_START or CAM_SENSOR_WRITE fails with state code 0x03. -/
  | bindTimeout (cam : Fin 48)
  /-- CAM_STOP (R72): Stops accepting frames and drains the context to CONFIGURED or IDLE. -/
  | camStop (c : Cmd)
  /-- CAM_SENSOR_WRITE (R82): Sends sensor register entries to the hub in SENSOR_ACCESS cells. -/
  | camSensorWrite (c : Cmd)
  /-- CAM_TRIGGER_PLAN (R103): Sets or cancels a timed trigger plan of a context. -/
  | camTriggerPlan (c : Cmd)
  /-- TRIGGER_SEND (R103): Ostler sends a trigger to the hub as a TRIGGER_SET cell, between 100 ms and 1 ms before it fires. -/
  | triggerSend (cam : Fin 48)
  /-- TRIGGER_MISSING (R86): No frame matched a trigger by its time plus READOUT plus one period. The FN's record closes DROPPED with cause MISSING. -/
  | triggerMissing (cam : Fin 48)
  /-- PIXEL_CELL (R74): A pixel cell of a context arrives. It is reordered and stored, and its line is repaired if needed. -/
  | pixelCell (chan : Fin 32) (epoch : Nat) (cam : Nat) (x : PixCell)
  /-- TIMING_CELL (R77): A hub timing cell arrives and supplies the exposure start time of a frame. -/
  | timingCell (chan : Fin 32) (epoch cam exp hubFc stamp : Nat)
  /-- PCP_START_OF_FRAME (R79): On a parallel capture port, the first DE after VSYNC starts a frame. -/
  | pcpStartOfFrame (port : Fin 2)
  /-- PCP_LINE (R79): A line on a parallel port ends, and it is truncated or padded to ACTIVE_W. -/
  | pcpLine (port : Fin 2) (exp : Nat) (pixels : List Nat)
  /-- ACK (R81): A hub ACK of a control cell arrives, which acknowledges its entries and ends a run of failed cells. -/
  | ack (cam : Fin 48) (seq hubFc : Nat)
  /-- NAK (R83): A hub NAK arrives, which fails the command that sent the cell or fences the instance. -/
  | nak (cam : Fin 48) (seq reason executed : Nat)
  /-- READ_DATA (R82): A hub returns the data of read entries. -/
  | readData (cam : Fin 48) (seq hubFc : Nat) (entries : List Byte)
  /-- CONTROL_CELL_RESEND (R81): A control cell has no answer within 2 ms and is resent with the same SEQ, or it fails after three resends. -/
  | controlCellResend (cam : Fin 48) (seq : Nat)
  /-- SLICE_DISPATCH (R99): A free slice takes the eligible stripe with the earliest frame deadline. -/
  | sliceDispatch (role : Fin 16)
  /-- STRIPE_DONE (R107): A slice finishes a stripe and writes its output lines, taps and statistics. -/
  | stripeDone (role : Fin 16) (errors : List SramError) (poisoned : List (Nat × Nat))
  /-- SLICE_WATCHDOG (R408): A slice holds a stripe with no output for SLICE_WD and is declared dead. -/
  | sliceWatchdog (role : Fin 16)
  /-- MOTION_BAND (R189): The motion engine searches a band and writes its field. -/
  | motionBand (errors : List SramError)
  /-- MOTION_WATCHDOG (R408): The motion engine holds a band with no field row for MOTION_WD. Its role becomes vacant. -/
  | motionWatchdog
  /-- RAW_SET_STAGE (R110): Stages the parameter block of a raw stage for the next start of frame. -/
  | rawSetStage (c : Cmd)
  /-- RAW_LOAD_TABLE (R113): Checks a raw table and pins it for the frames that use it. -/
  | rawLoadTable (c : Cmd)
  /-- RAW_TAP (R134): Configures, releases or disables a raw tap ring. -/
  | rawTap (c : Cmd)
  /-- CLR_SET_MATRIX (R148): Stages the input matrix block. -/
  | clrSetMatrix (c : Cmd)
  /-- CLR_LOAD_LUT3D (R151): Loads or unloads an Amieth look file. -/
  | clrLoadLut3d (c : Cmd)
  /-- CLR_LOAD_CURVE (R151): Loads or unloads a transfer or NIR plane curve. -/
  | clrLoadCurve (c : Cmd)
  /-- CLR_SET_OUTPUT (R155): Configures, releases or disables a camera output ring. -/
  | clrSetOutput (c : Cmd)
  /-- CLR_SET_SPECTRAL (R158): Stages the spectral block. -/
  | clrSetSpectral (c : Cmd)
  /-- EXP_APPLY (R170): Schedules sensor and pipeline settings to land on one FN. -/
  | expApply (c : Cmd)
  /-- EXP_SET_LIMITS (R176): Sets the hardware limits on applies. -/
  | expSetLimits (c : Cmd)
  /-- STAT_CONFIGURE (R175): Configures, releases or disables the statistics ring. -/
  | statConfigure (c : Cmd)
  /-- EXP_POLICY_BIND (R178): Binds or unbinds a POLICY kernel to an exposure or white-balance role. -/
  | expPolicyBind (c : Cmd)
  /-- JM_INVOCATION_START (R304): A free Journeyman thread takes the pending invocation with the earliest deadline. -/
  | jmInvocationStart (role : Fin 128) (statePoisoned : Bool)
  /-- JM_INVOCATION_END (R303): An invocation ends. Its state is written back and a POLICY request is issued as an apply. -/
  | jmInvocationEnd (role : Fin 128) (thread : Fin 4) (result : JmResult)
  /-- OVERRUN (R307): A TILE invocation reaches CPT issue cycles and is stopped. -/
  | overrun (role : Fin 128) (thread : Fin 4)
  /-- WATCHDOG (R313): A POLICY invocation runs 100 ms and traps. -/
  | watchdog (role : Fin 128) (thread : Fin 4)
  /-- RATE_KERNEL_TIMEOUT (R313): A RATE invocation still runs 100 µs after its picture became codable, so it is stopped and R208 is used. -/
  | rateKernelTimeout (h : Handle)
  /-- TILE_DEADLINE (R307): A frame deadline passes and its unfinished tile invocations are abandoned. -/
  | tileDeadline (cam : Fin 48) (fn : Nat)
  /-- SITE_STALL (R314): A thread issues nothing for 1 ms while it holds an invocation, so the site's role is declared dead. -/
  | siteStall (role : Fin 128)
  /-- JM_LOAD_KERNEL (R297): Checks a kernel image and loads it onto free roles. -/
  | jmLoadKernel (c : Cmd) (keyOk sigOk : Bool)
  /-- JM_BIND_STAGE (R310): Binds, releases, unbinds or sets the parameters of a TILE or RATE kernel binding. -/
  | jmBindStage (c : Cmd)
  /-- JM_UNLOAD (R312): Unloads a kernel once its bindings have been replaced and its invocations have ended. -/
  | jmUnload (c : Cmd)
  /-- ENC_SESSION_OPEN (R194): Opens an encode session bound to a camera output. -/
  | encSessionOpen (c : Cmd)
  /-- ENC_SESSION_CLOSE (R217): Closes an encode session after its pictures are coded or discarded. -/
  | encSessionClose (c : Cmd)
  /-- ENC_SET_RATE (R212): Replaces the rate block from the next picture. -/
  | encSetRate (c : Cmd)
  /-- ENC_FORCE_IDR (R200): Codes the picture of a target FN as IDR. -/
  | encForceIdr (c : Cmd)
  /-- ENC_REF_MARK (R205): Marks a reference picture LONG, SHORT or EXCLUDED. -/
  | encRefMark (c : Cmd)
  /-- ENC_PICTURE_START (R201): A free encoder role takes the codable picture with the earliest deadline. -/
  | encPictureStart (role : Fin 8)
  /-- ENC_PICTURE_COMMIT (R213): An encoder commits an access unit record and its picture statistics record. -/
  | encPictureCommit (role : Fin 8) (payload : List Byte) (report : EncReport) (recon : List (List Nat))
  /-- ENC_RING_POLL (R214): Every 20 µs the device reads RD_OFF again to check ring reservations. -/
  | encRingPoll
  /-- ENC_PICTURE_DROP (R214): A reservation still does not fit at the picture deadline, so the picture is dropped and a GAP is recorded. -/
  | encPictureDrop (h : Handle)
  /-- ENC_WATCHDOG (R216): An encoder core holds a picture with no CTU committed for ENC_WD, is declared dead, and the picture is recoded. -/
  | encWatchdog (role : Fin 8)
  /-- DEC_SESSION_OPEN (R219): Opens a decode session. -/
  | decSessionOpen (c : Cmd)
  /-- DEC_SUBMIT (R221): Parses a stream chunk, releases output slots, or drains the session. -/
  | decSubmit (c : Cmd) (items : List DecItem)
  /-- DEC_SESSION_CLOSE (R237): Closes a decode session after its held pictures are output or discarded. -/
  | decSessionClose (c : Cmd)
  /-- DEC_PICTURE_START (R224): A free decoder core takes the decodable picture of earliest deadline. -/
  | decPictureStart (core : Fin 2)
  /-- DEC_PICTURE_OUTPUT (R233): A decoded picture is written into the next output slot. -/
  | decPictureOutput (h : Handle) (done : Option (Fin 2 × DecReport))
  /-- DEC_CLOSE_SLOT_TIMEOUT (R237): A picture has waited 1 s for a free slot during a close and is discarded. -/
  | decCloseSlotTimeout (h : Handle)
  /-- DEC_CORE_FAULT (R225): A decoder core fails, is held in reset and retired, and its picture restarts on the other core. -/
  | decCoreFault (core : Fin 2)
  /-- CMP_JOB (R239): Compresses a source range into framed Cooper blocks. -/
  | cmpJob (c : Cmd)
  /-- CMP_EXPAND (R247): Checks and expands framed Cooper blocks. -/
  | cmpExpand (c : Cmd)
  /-- CMP_ENGINE_DISPATCH (R240): A free Cooper engine takes the next session job or queue job. -/
  | cmpEngineDispatch (engine : Fin 4) (done : Bool)
  /-- CMP_ENGINE_FAULT (R241): A Cooper engine fails. Its job restarts on another engine and the failed engine is retired. -/
  | cmpEngineFault (engine : Fin 4)
  /-- REC_SESSION_OPEN (R248): Opens a recording session, or re-arms its HOST sink. -/
  | recSessionOpen (c : Cmd)
  /-- REC_SESSION_CLOSE (R263): Stops a recording session, drains its staging ring and frees it. -/
  | recSessionClose (c : Cmd)
  /-- REC_MARK_EVENT (R260): Opens an event window and copies its pre-roll. -/
  | recMarkEvent (c : Cmd)
  /-- REC_SOURCE_RECORD (R249): A recording session takes a record from a source ring into its staging ring. -/
  | recSourceRecord (h : Handle) (k : Nat)
  /-- ALIGN_WAIT_EXPIRY (R255): A source is silent past ALIGN_WAIT, so a GAP or FILLED record is written for it. -/
  | alignWaitExpiry (h : Handle) (k : Nat)
  /-- STREAM_DESCRIPTION_REFRESH (R251): SESSION and STREAM records, or an initialisation segment, are rewritten at least once per second. -/
  | streamDescriptionRefresh (h : Handle)
  /-- HOST_RING_POLL (R256): Every 50 µs the device reads RD_OFF of the HOST sink ring and copies committed records. -/
  | hostRingPoll (h : Handle) (rdOff rdWraps : Nat)
  /-- SENDER_REPORT (R258): An RTP sender report is sent for each source every second. -/
  | senderReport (h : Handle)
  /-- EVENT_WINDOW_CLOSE (R260): An event window ends, and records again go only to the pre-roll store. -/
  | eventWindowClose (h : Handle)
  /-- REC_CLOSE_DRAIN_TIMEOUT (R263): The 10 s drain of REC_SESSION_CLOSE expires, and the rest is discarded. -/
  | recCloseDrainTimeout (h : Handle)
  /-- DISP_SET_TIMING (R290): Claims a head, changes its mode, sets its attributes, stops or releases it, or releases writeback slots. -/
  | dispSetTiming (c : Cmd)
  /-- DISP_LAYER_SET (R269): Creates a layer or stages its block. -/
  | dispLayerSet (c : Cmd)
  /-- DISP_COMMIT (R279): Arms the staged set of a head for a target frame. -/
  | dispCommit (c : Cmd)
  /-- DISP_LOAD_COEF (R274): Loads a scaler coefficient bank. -/
  | dispLoadCoef (c : Cmd)
  /-- DISP_CRC_SET (R293): Sets a CRC rectangle of a head. -/
  | dispCrcSet (c : Cmd)
  /-- DISP_CLONE (R292): Makes a head clone another head's raster, or ends a clone. -/
  | dispClone (c : Cmd)
  /-- HEAD_FRAME_START (R279): A frame start: armed sets latch, a flip time-stamp is taken, the PTP steering acts and the live-path mode is chosen. -/
  | headFrameStart (head : Fin 4)
  /-- HEAD_LINE_SEND (R268): A head sends one active line from its composed-line FIFO as pixel cells. -/
  | headLineSend (head : Fin 4) (ready behind : Bool)
  /-- DISPLAY_MODE (R268): A head sends a DISPLAY_MODE control cell at each mode change and once per second. -/
  | displayMode (head : Fin 4)
  /-- LANE_CONFIGURE (R347): Configures a lane or quad, or opens or closes an egress stream. -/
  | laneConfigure (c : Cmd)
  /-- LANE_TRAIN (R355): Brings up, calibrates or takes down a lane. -/
  | laneTrain (c : Cmd)
  /-- LANE_BITSLIP (R354): Moves the receive boundary of a DIAG lane and counts valid headers. -/
  | laneBitslip (c : Cmd) (good cw : Nat)
  /-- LANE_CAL_SAVE (R362): Saves lane calibration records to a buffer. -/
  | laneCalSave (c : Cmd)
  /-- LANE_CAL_RESTORE (R362): Restores and applies saved lane calibration records. -/
  | laneCalRestore (c : Cmd)
  /-- ETH_PORT_CONFIGURE (R365): Configures an Ethernet port's mode and bridge membership. -/
  | ethPortConfigure (c : Cmd)
  /-- CAPABILITY (R352): A peer CAPABILITY training cell arrives and the target rate is chosen. -/
  | capability (n : Fin 32) (rates role : Nat)
  /-- CAPABILITY_INTERVAL (R352): Every 1 µs during bring-up, a lane sends a CAPABILITY cell. -/
  | capabilityInterval (n : Fin 32)
  /-- RATE_REQUEST (R352): A RATE_REQUEST training cell arrives and is answered with RATE_ACK and a relock. -/
  | rateRequest (n : Fin 32) (rate : Nat)
  /-- RATE_ACK (R352): A RATE_ACK training cell arrives and the lane relocks and adapts at the new rate. -/
  | rateAck (n : Fin 32) (rate : Nat)
  /-- RATE_STEP_VERIFIED (R352): The 0.5 ms verification of a rate step ends, and the lane passes or falls back. -/
  | rateStepVerified (n : Fin 32) (ber : Word) (uncorr snr eye : Nat) (values : List Byte)
  /-- ROTATE (R356): A ROTATE training cell arrives and is answered with ROTATE_ACK. -/
  | rotate (n : Fin 32) (chan toLane : Nat)
  /-- ROTATE_ACK (R356): A ROTATE_ACK arrives and the 64-cell overlap begins. -/
  | rotateAck (n : Fin 32) (chan : Nat)
  /-- CALIBRATION_DUE (R355): A lane becomes due through temperature or SNR and calibrates in place, by rotation, or is deferred. -/
  | calibrationDue (n : Fin 32)
  /-- CALIBRATION_DONE (R356): A lane calibration ends and the lane is verified, becoming the spare. -/
  | calibrationDone (n : Fin 32) (ber : Word) (uncorr snr eye : Nat) (values : List Byte)
  /-- INPLACE_DEFERRAL_EXPIRY (R357): A calibration deferred for 1 s runs in place where INPLACE_OK is set. -/
  | inplaceDeferralExpiry (n : Fin 32)
  /-- LANE_QUALITY_UPDATE (R360): Every 1 ms the lane quality figures update, and LANE_MARGIN may be posted. -/
  | laneQualityUpdate (n : Fin 32) (snr eye : Nat) (ber : Word) (corr uncorr : Nat)
  /-- CODEWORD_LOCK_LOSS (R348): A receiver sees 8 consecutive uncorrectable codewords and loses lock. -/
  | codewordLockLoss (n : Fin 32) (cells : Nat)
  /-- CELL_LOCK_LOSS (R348): A receiver sees 4 consecutive header failures and loses cell lock. -/
  | cellLockLoss (n : Fin 32) (cells : Nat)
  /-- LANE_DEATH (R359): A lane's lock has been lost for 10 ms, or its error rate or calibrations fail. The lane is declared dead and its channel moves to the spare. -/
  | laneDeath (n : Fin 32)
  /-- LT_SYNC (R384): Every 1 ms the device sends a one-step LT_SYNC on every channel in service. -/
  | ltSync (frac : Half)
  /-- LT_DELAY_REQ (R384): A peer LT_DELAY_REQ arrives and is answered with LT_DELAY_RESP. -/
  | ltDelayReq (chan : Fin 32) (epoch : Nat) (seq frac : Half)
  /-- EGRESS_STREAM_SEND (R364): An egress stream sends a frame's timing cell, LEDGER cells and lines. -/
  | egressStreamSend (chan : Fin 32)
  /-- STREAM_DESC (R364): A STREAM_DESC control cell is sent at open and once per second. -/
  | streamDesc (h : Handle)
  /-- BRIDGE_FRAME (R366): An Ethernet frame arrives at the bridge and is forwarded, delivered to Tallyman or discarded. -/
  | bridgeFrame (p : Fin 4) (data : List Byte) (frac : Half)
  /-- ADDRESS_AGEING (R366): A learned bridge address ages out after 300 s. -/
  | addressAgeing (mac vid : Nat)
  /-- ETH_LINK_UP (R365): An Ethernet port's link comes up, and ETH_PORT_CONFIGURE completes. -/
  | ethLinkUp (p : Fin 4)
  /-- ETH_LINK_TIMEOUT (R365): No link within 100 ms, so the command completes with HARDWARE_FAULT and the port keeps trying. -/
  | ethLinkTimeout (p : Fin 4)
  /-- TIME_SET_MODE (R374): Sets the PTP role, profile and correction mode. -/
  | timeSetMode (c : Cmd)
  /-- TIME_STEP (R377): Steps the counter by a relative or absolute amount. -/
  | timeStep (c : Cmd)
  /-- TIME_ADJUST_RATE (R376): Replaces RATE, optionally for a duration. -/
  | timeAdjustRate (c : Cmd)
  /-- TIME_WRITE_INCREMENT (R376): Sets INCR. -/
  | timeWriteIncrement (c : Cmd)
  /-- RATE_RESTORE (R376): The DURATION of a TIME_ADJUST_RATE expires and the previous RATE is restored. -/
  | rateRestore
  /-- SYNC (R375): A PTP Sync message arrives. An offset is measured and the servo steps or steers the counter. -/
  | sync (p : Fin 4) (domain seq : Nat) (twoStep : Bool) (t1 corr : Int) (frac : Half)
  /-- FOLLOW_UP (R380): A PTP Follow_Up message arrives and completes a two-step measurement. -/
  | followUp (p : Fin 4) (domain seq : Nat) (t1 corr : Int)
  /-- DELAY_REQ (R380): A PTP Delay_Req message arrives and is answered in a master role. -/
  | delayReq (p : Fin 4) (domain seq : Nat) (corr : Int) (frac : Half)
  /-- DELAY_RESP (R380): A PTP Delay_Resp message arrives and updates the mean path delay. -/
  | delayResp (p : Fin 4) (domain seq : Nat) (t4 corr : Int)
  /-- PDELAY_REQ (R380): A PTP Pdelay_Req message arrives and is answered. -/
  | pdelayReq (p : Fin 4) (domain seq : Nat) (corr : Int) (frac : Half)
  /-- PDELAY_RESP (R380): A PTP Pdelay_Resp message arrives and updates meanLinkDelay. -/
  | pdelayResp (p : Fin 4) (domain seq : Nat) (twoStep : Bool) (rxPeer corr : Int) (frac : Half)
  /-- PDELAY_RESP_FOLLOW_UP (R380): A PTP Pdelay_Resp_Follow_Up message arrives. -/
  | pdelayRespFollowUp (p : Fin 4) (domain seq : Nat) (txPeer corr : Int)
  /-- ANNOUNCE (R380): A PTP Announce message arrives and feeds the best master clock algorithm. -/
  | announce (p : Fin 4) (domain : Nat) (a : Announce)
  /-- PTP_MESSAGE_INTERVAL (R380): A log interval expires, and Tallyman sends its next Sync, Announce or delay request. -/
  | ptpMessageInterval (p : Fin 4) (kind : Nat) (frac : Half)
  /-- ANNOUNCE_TIMEOUT (R373): No Sync within ANNOUNCE_TIMEOUT intervals, so lock is lost and HOLDOVER is set. -/
  | announceTimeout (p : Fin 4)
  /-- TC_HOLD_TIMEOUT (R383): A forwarded event message held more than 1 ms is discarded and counted. -/
  | tcHoldTimeout (port domain seq : Nat)
  /-- EVT_OUTPUT_SET (R386): Claims, replaces or releases a compare unit and its pin. -/
  | evtOutputSet (c : Cmd)
  /-- EVT_CAPTURE_SET (R388): Claims, replaces or releases a capture unit and its pin. -/
  | evtCaptureSet (c : Cmd)
  /-- COMPARE_EVENT (R387): The counter reaches a compare unit's event time, and its pulse begins on the pin. -/
  | compareEvent (u : Fin 32)
  /-- PULSE_END (R387): PULSE_NS elapses and the pin returns to its inactive level. -/
  | pulseEnd (u : Fin 32)
  /-- CAPTURE_EDGE (R388): A selected edge on a claimed event pin is stamped and recorded in the capture ring. -/
  | captureEdge (n : Fin 32) (rising : Bool)
  /-- AUD_PORT_CONFIGURE (R392): Configures or releases an audio port or a media clock. -/
  | audPortConfigure (c : Cmd)
  /-- AUD_START (R400): Starts the capture or playback of a port. -/
  | audStart (c : Cmd)
  /-- AUD_STOP (R400): Stops the capture or playback of a port with a fade. -/
  | audStop (c : Cmd)
  /-- AUD_SET_SLOTS (R401): Changes the receive and transmit slot masks at the next frame. -/
  | audSetSlots (c : Cmd)
  /-- AUDIO_FRAME (R391): An audio frame sync: the port captures and plays one frame and closes blocks at grid boundaries. -/
  | audioFrame (p : Fin 8) (rx : List Int) (ppm : Int)
  /-- AUDIO_CLOCK_LOSS (R394): A FOLLOW port sees no frame sync for 4 periods, or its rate leaves range. Its clock is lost. -/
  | audioClockLoss (p : Fin 8)
  /-- FILLED_BLOCK (R402): A grid interval passes while a grouped port has lost its clock, so a zero block with FILLED is written. -/
  | filledBlock (p : Fin 8)
  /-- MEDIA_CLOCK_UPDATE (R396): Every 10 ms a BUFFER media clock is steered toward its fill target. -/
  | mediaClockUpdate (k : Fin 2)
  /-- PLAYBACK_POLL (R399): The device reads WR_OFF of a playback ring at least every 100 µs. -/
  | playbackPoll (p : Fin 8)
  /-- FW_DOWNLOAD (R420): Copies an image chunk into the firmware staging area. -/
  | fwDownload (c : Cmd)
  /-- FW_COMMIT (R421): Commits the staged image to the inactive bank, ratchets the rollback counter, or fuses the owner key hash. -/
  | fwCommit (c : Cmd) (sigOk verified : Bool)
  /-- FW_ACTIVATE (R424): Records the activation barriers and starts the drain for switching firmware banks. -/
  | fwActivate (c : Cmd)
  /-- ACTIVATION_DRAINED (R424): The commands before the barriers have drained, and the new image takes over and resumes dispatch. -/
  | activationDrained (accepts : Bool)
  /-- ACTIVATION_DRAIN_TIMEOUT (R57): The drain limit expires, so FW_ACTIVATE fails with state code 0x0D and the old firmware stays. -/
  | activationDrainTimeout
  /-- TRIAL_END (R425): The 60 s trial ends without a restart, and the bank becomes the boot bank. -/
  | trialEnd
  /-- CHANDLER_RESTART (R406): A lockstep mismatch, an image-half error or the 100 ms watchdog reloads Chandler's image. -/
  | chandlerRestart
  /-- HEALTH_QUERY (R427): Copies the health summary to PTR. -/
  | healthQuery (c : Cmd)
  /-- MON_CONFIGURE (R415): Replaces or clears a monitor's block. -/
  | monConfigure (c : Cmd)
  /-- UNIT_REJOIN (R411): Self-tests and rejoins a fenced unit, or fences a unit that holds a role. -/
  | unitRejoin (c : Cmd)
  /-- SELF_TEST_DONE (R411): A rejoining unit's self-test ends, and the unit becomes a spare, fills a role or stays fenced. -/
  | selfTestDone (h : Handle) (ok : Bool)
  /-- PAIR_CONFIGURE (R431): Configures pair operation, hands a camera group over, or queries the shadow size. -/
  | pairConfigure (c : Cmd) (peers : List (Nat × Nat × Nat))
  /-- ERR_POLICY_SET (R426): Replaces the error policy. -/
  | errPolicySet (c : Cmd)
  /-- MONITOR_SAMPLE (R414): Every 1 ms each monitor is sampled, updating its values, bins and WARN and CRIT flags. -/
  | monitorSample (values : List Int)
  /-- HIST_PERIOD_EXPIRY (R414): HIST_PERIOD elapses and a monitor's bins are cleared. -/
  | histPeriodExpiry (n : Fin 72)
  /-- HEALTH_RECORD_UPDATE (R427): Every 100 ms Chandler rewrites the SMBus health record. -/
  | healthRecordUpdate (powerDw : Nat)
  /-- HEARTBEAT_SEND (R432): Every 1 ms the pair-link hardware sends a heartbeat to the twin. -/
  | heartbeatSend
  /-- HEARTBEAT (R432): A twin heartbeat arrives and clears the miss count. -/
  | heartbeat (payload : List Byte)
  /-- HEARTBEAT_MISS (R433): 1.1 ms passes with no heartbeat. A miss is counted, and at 5 misses the twin is declared dead or LINK_FAULT is set. -/
  | heartbeatMiss (toggles chandler : Bool)
  /-- OWNER_ACK (R435): A hub accepts ownership, and the group's contexts are configured from the shadow and started. -/
  | ownerAck (hub epoch hubFc lost : Nat)
  /-- REFRESH_DUE (R325): At each tREFI a pseudo-channel refreshes, postpones or forces a refresh. -/
  | refreshDue (stack : Fin 4) (n : Fin 32)
  /-- MAKE_UP_BURST (R326): Postponed refreshes are issued back to back once R18 allows. -/
  | makeUpBurst (stack : Fin 4) (n : Fin 32)
  /-- RETRAINING_SLOT (R327): A pseudo-channel's retraining slot retrains it, or repairs a candidate row instead. -/
  | retrainingSlot (stack : Fin 4) (n : Fin 32) (eyeOk : Bool)
  /-- RETRAIN_RETRY (R327): A deferred retraining is retried after 10 µs. -/
  | retrainRetry (stack : Fin 4) (n : Fin 32) (eyeOk : Bool)
  /-- STACK_SPEED_CHANGE (R329): One stack is moved to a new speed under Table 12-6 once R18 allows. -/
  | stackSpeedChange (stack : Fin 4)
  /-- SCRUB_READ (R336): A patrol scrub read corrects, rewrites or marks a line and counts it in its tally. -/
  | scrubRead (line row bank region result : Nat) (last : Bool)
  /-- TALLY_LEAK (R335): A tally leaks one count each leak period. -/
  | tallyLeak (p : Fin 128) (region : Nat)
  /-- ON_DIE_ECC_POLL (R330): Once per second Chandler reads the stacks' on-die ECC reports into the tallies. -/
  | onDieEccPoll (reports : List (Fin 128 × Nat × Nat))
  /-- PC_RETIREMENT (R343): A dead pseudo-channel's granules are copied to the retired range and remapped. -/
  | pcRetirement (p : Fin 128)
  /-- RETIREMENT_COPY_DONE (R343): The retirement copy ends, and the pseudo-channel is held quiescent. -/
  | retirementCopyDone (p : Fin 128) (lost : List Nat)
  /-- CODEWORD_LOCK (R348): A receiver finds codeword lock after 16 consecutive correctable codewords. -/
  | codewordLock (n : Fin 32)
  /-- CELL_LOCK (R348): A receiver finds cell lock after 8 consecutive headers pass HCRC. -/
  | cellLock (n : Fin 32)
  /-- ETH_LINK_DOWN (R365): An Ethernet port's link goes down, and its PTP port is no longer MASTER. -/
  | ethLinkDown (p : Fin 4)
  /-- POWER_DOWN (R443): The rails fall, in sequence or by an uncontrolled loss of input power, and the device loses all state except what is in flash. -/
  | powerDown
  /-- SHADOW_UPDATE (R434): A mirrored-state change from the twin arrives over the pair link and is stored in the shadow buffer, advancing the twin's SHADOW_GEN. -/
  | shadowUpdate (cell : ShadowCell) (m : Option Mirror) (used : Nat) (full : Bool)
  /-- ROTATION_OVERLAP_END (R356): The 64-cell overlap of a rotation ends: the channel runs on the new lane only, the old lane's calibration begins, and an LT_SYNC with ROTATED follows within 5 µs. -/
  | rotationOverlapEnd (q : Fin 8) (frac : Half)
  /-- DEC_OUTPUT_SKIP (R234): A paced decode session's next slot is still held at the picture's presentation time plus one PERIOD, so the picture is not output and OUT_SKIPS advances. -/
  | decOutputSkip (h : Handle)
deriving DecidableEq, Repr

end Sys2Proof
end

