-- ==== Sys2Proof/Config.lean ====
section
/-!
DEFINITION. The constants of the part (Table 02-18 and the tables of the chapters) and the free values: constants without a
body, each applied to the counter of free values in State (or to the operands it depends on), for results that the manual
leaves open. Nothing can prove a value of them.
-/
namespace Sys2Proof.Config

/-- The largest device address (R10). -/
def addrMax : Nat := 0x23FFFFFFFF
/-- The start of the buffer heap (Table 12-1). -/
def heapBase : Nat := 0x0280000000
/-- The end of the buffer heap, one past its last byte (Table 12-1). -/
def heapEnd : Nat := 0x22E0000000
/-- The size of a retired range (R343). -/
def retiredSize : Nat := 0x48000000
/-- Range-lock entries (R51). -/
def rangeLocks : Nat := 256
/-- Outstanding ASYNC_EVENT_REQUEST commands (R59). -/
def asyncMax : Nat := 16
/-- Held events (R59). -/
def heldMax : Nat := 256
/-- Orphan page entries (R68). -/
def orphanMax : Nat := 1024
/-- Error log entries (R417). -/
def errorLogMax : Nat := 4096
/-- Event log entries (R417). -/
def eventLogMax : Nat := 16384
/-- Nominal INCR (Table 14-1). -/
def incrNominal : Nat := 0x280000000

/-- A free byte: contents that the manual leaves undefined. -/
opaque freeByte : Nat → Nat → Byte
/-- A free number: a value that the manual leaves open. -/
opaque freeNat : Nat → Nat
/-- A free integer: a value that the manual leaves open. -/
opaque freeInt : Nat → Int

/-- A free error of a result that the manual bounds, by what it belongs to: the stage, the context, the frame and the place. -/
opaque freeError : List Nat → Int
/-- A free value of a pixel of a frame whose table was changed in place (R114), by stage and place. -/
opaque freePixel : List Nat → Int
/-- The coded payload of a block in a Cooper engine, by MODE, LEVEL, BLOCK_LOG2 and the block's bytes: the manual fixes its tokens and that it is
the same on every run, but not how they are divided into Huffman blocks nor how the code lengths are built. -/
opaque cooper : Nat → Nat → Nat → List Byte → List Byte
/-- The hash of the next 3 or 4 bytes in a Cooper engine, whose 65,536 chain heads are the values modulo 65,536 (R242). -/
opaque cooperHash : List Byte → Nat
/-- The bits that a list of tokens takes in a DEFLATE block with dynamic codes; how they are built the manual leaves open. A token is (0, byte) or (length,
distance). -/
opaque dynamicBits : List (Nat × Nat) → Nat
/-- An ISO BMFF initialisation segment of a session's header bytes. -/
opaque bmffInit : List Byte → List Byte
/-- An ISO BMFF fragment, by the session's header bytes, the marks before it, and its samples: source, time, access unit, ledger record. -/
opaque bmffFragment : List Byte → List Nat → List (Nat × Nat × List Byte × List Byte) → List Byte
/-- A free ratio of two exposures where the manual's quotient has no value. -/
opaque freeRatio : Nat → Nat → Nat → Nat → Nat

/-- The size of the shadow of pair operation in bytes (R431). -/
opaque shadowNeed : Word
/-- Where the shadow of pair operation holds a part of a peer context: the mirror format is the two instances' own (R434). -/
opaque shadowPlace : Nat → Nat → Nat

/-- The SRAM macros of the part: number, KIND and index of the owning unit, and words (Table 02-18). The manual gives only their greatest count. -/
opaque macros : List (Nat × Nat × Nat × Nat)

/-- The banks of a pseudo-channel, whose number the manual does not give. -/
opaque banks : Nat

/-- The built-in coefficient bank 0 of the layer pipes: axis, phase and tap. The manual names the filters and not their coefficients. -/
opaque sinc : Nat → Nat → Nat → Int

end Sys2Proof.Config
end

