-- ==== Sys2Proof/Machine/Operands.lean ====
section
/-!
DEFINITION. The operand forms: bit fields, sign extension, byte order (R7), and the fields of byte structures.
-/
namespace Sys2Proof.Machine

/-- Bits hi down to lo of a number. -/
def bitsOf (x hi lo : Nat) : Nat := x / 2 ^ lo % 2 ^ (hi + 1 - lo)

/-- Bit n of a number. -/
def bitOf (x n : Nat) : Bool := x / 2 ^ n % 2 == 1

/-- One bit as a number. -/
def bit01 (b : Bool) : Nat := if b then 1 else 0

/-- The two's complement value of the low w bits of a number. -/
def sext (w x : Nat) : Int :=
  let y := x % 2 ^ w
  if y < 2 ^ (w - 1) then (y : Int) else (y : Int) - 2 ^ w

/-- The low w bits of the two's complement form of an integer. -/
def wrapInt (w : Nat) (v : Int) : Nat := (v % ((2 : Int) ^ w)).toNat

/-- The value of a list of bytes, the first byte least significant (R7). -/
def leNat : List Byte → Nat
  | [] => 0
  | b :: rest => b.toNat + 256 * leNat rest

/-- The n bytes of a value, least significant first (R7). -/
def leBytes : Nat → Nat → List Byte
  | 0, _ => []
  | n + 1, v => BitVec.ofNat 8 v :: leBytes n (v / 256)

/-- The little-endian field of n bytes at an offset of a structure; bytes beyond its end read as zero. -/
def fld (bs : List Byte) (off n : Nat) : Nat := leNat ((bs.drop off).take n)

/-- A one-byte field. -/
def f8 (bs : List Byte) (off : Nat) : Nat := fld bs off 1
/-- A two-byte field. -/
def f16 (bs : List Byte) (off : Nat) : Nat := fld bs off 2
/-- A four-byte field. -/
def f32 (bs : List Byte) (off : Nat) : Nat := fld bs off 4
/-- An eight-byte field. -/
def f64 (bs : List Byte) (off : Nat) : Nat := fld bs off 8
/-- A signed two-byte field. -/
def fs16 (bs : List Byte) (off : Nat) : Int := sext 16 (f16 bs off)
/-- A signed four-byte field. -/
def fs32 (bs : List Byte) (off : Nat) : Int := sext 32 (f32 bs off)

/-- The bytes off to off+n-1 of a structure. -/
def slice (bs : List Byte) (off n : Nat) : List Byte := (bs.drop off).take n

/-- Whether the bytes lo to hi (both included) of a structure are all zero. -/
def zeroRange (bs : List Byte) (lo hi : Nat) : Bool := (slice bs lo (hi + 1 - lo)).all (· == 0)

/-- The first offset of a list of field checks that fails: the byte offset that INVALID_PARAM reports (R50). -/
def firstBad : List (Nat × Bool) → Option Nat
  | [] => none
  | (off, ok) :: rest => if ok then firstBad rest else some off

/-- n zero bytes. -/
def zeros (n : Nat) : List Byte := List.replicate n 0

/-- A structure padded with zeros, or cut, to n bytes. -/
def padTo (n : Nat) (bs : List Byte) : List Byte := (bs ++ zeros n).take n

/-- One field of a layout under construction: offset, size in bytes, value. -/
abbrev Field := Nat × Nat × Nat

/-- Overwrites the bytes of a structure from an offset. -/
def patch (bs : List Byte) (off : Nat) (new : List Byte) : List Byte :=
  bs.take off ++ new ++ bs.drop (off + new.length)

/-- A structure of n bytes with the fields of a layout table, and zero where the table reserves. -/
def layout (n : Nat) (fs : List Field) : List Byte :=
  fs.foldl (fun bs f => patch bs f.1 (leBytes f.2.1 f.2.2)) (zeros n)

/-- The smallest multiple of m that is not below x. -/
def roundUp (x m : Nat) : Nat := (x + m - 1) / m * m

/-- The quotient rounded up. -/
def ceilDiv (x m : Nat) : Nat := (x + m - 1) / m

/-- Exclusive or of two lists of bits held as numbers. -/
def xorNat (a b : Nat) : Nat := Nat.xor a b

/-- Limits an integer to a range. -/
def clampInt (lo hi v : Int) : Int := if v < lo then lo else if hi < v then hi else v

/-- Limits a number to a range. -/
def clampNat (lo hi v : Nat) : Nat := if v < lo then lo else if hi < v then hi else v

/-- The quotient rounded to the nearest integer, halves away from zero. -/
def roundDiv (a : Int) (b : Nat) : Int :=
  if 0 ≤ a then (2 * a + b) / (2 * b) else -((2 * (-a) + b) / (2 * b))

/-- The element of a vector at a number, or a default. -/
def vget {α : Type} {n : Nat} (v : Vector α n) (d : α) (i : Nat) : α := if h : i < n then v[i] else d

/-- A vector with the element at a number replaced through a function; unchanged beyond the end. -/
def vmod {α : Type} {n : Nat} (v : Vector α n) (i : Nat) (f : α → α) : Vector α n :=
  if h : i < n then v.set i (f v[i]) else v

/-- A vector with a function applied to every element and its index. -/
def vmapIdx {α β : Type} {n : Nat} (v : Vector α n) (f : Nat → α → β) : Vector β n :=
  Vector.ofFn (fun i : Fin n => f i.val v[i])

/-- The indices below n that satisfy a test, rising. -/
def idxWhere (n : Nat) (p : Nat → Bool) : List Nat := (List.range n).filter p

/-- Sum of a list of numbers. -/
def sumNat (l : List Nat) : Nat := l.foldl (· + ·) 0

/-- The largest of a list of numbers, 0 for none. -/
def maxNat (l : List Nat) : Nat := l.foldl Nat.max 0

/-- The first element with the least key. -/
def minBy {α : Type} (key : α → Nat) : List α → Option α
  | [] => none
  | x :: rest =>
    match minBy key rest with
    | none => some x
    | some y => if key y < key x then some y else some x

/-- Replaces the elements of a list that satisfy a test. -/
def updWhere {α : Type} (p : α → Bool) (f : α → α) (l : List α) : List α :=
  l.map (fun x => if p x then f x else x)

/-- Removes the first element that satisfies a test. -/
def dropFirst {α : Type} (p : α → Bool) : List α → List α
  | [] => []
  | x :: rest => if p x then rest else x :: dropFirst p rest

/-- A 32-bit counter advanced by a number; it stops at its largest value. -/
def satAdd (w : Word) (n : Nat) : Word := BitVec.ofNat 32 (Nat.min (2 ^ 32 - 1) (w.toNat + n))

/-! ## CRC-32C -/

/-- One bit of the reflected Castagnoli CRC, polynomial 0x1EDC6F41 (chapter 09). -/
def crcBit (r : Word) : Word := if r.getLsbD 0 then (r >>> 1) ^^^ 0x82F63B78#32 else r >>> 1

/-- One byte of the CRC. -/
def crcByte (r : Word) (b : Byte) : Word :=
  crcBit (crcBit (crcBit (crcBit (crcBit (crcBit (crcBit (crcBit (r ^^^ b.setWidth 32))))))))

/-- CRC-32C: preset to all ones, inverted at the end. -/
def crc32c (bs : List Byte) : Nat := (~~~(bs.foldl crcByte (BitVec.allOnes 32))).toNat

/-! ## Network byte order -/

/-- A big-endian field of a frame. -/
def be (f : List Byte) (off n : Nat) : Nat := leNat (slice f off n).reverse
/-- The n bytes of a value, most significant first. -/
def beBytes (n v : Nat) : List Byte := (leBytes n v).reverse

/-- The ones' complement sum of a list of bytes as 16-bit big-endian words. -/
def sum16 : List Byte → Nat
  | [] => 0
  | [a] => a.toNat * 256
  | a :: b :: rest => a.toNat * 256 + b.toNat + sum16 rest

/-- Folds a sum into 16 bits. -/
def fold16 (n : Nat) : Nat :=
  let a := n % 65536 + n / 65536
  let b := a % 65536 + a / 65536
  b % 65536 + b / 65536

end Sys2Proof.Machine
end

