-- ==== Sys2Proof/Machine/StateHost.lean ====
section
/-!
DEFINITION. The state of the host interface and of the command processor (chapter 02): BAR0 host registers, queues,
range locks, asynchronous events, MSI-X, features of device scope, the orphan page and the activation drain.
-/
namespace Sys2Proof.Machine

/-- The status codes of Table 02-11. -/
inductive Status where
  | ok | okAdjusted | invalidOpcode | invalidParam | invalidHandle | conflict | budgetExceeded | notReady
  | accessViolation | tooLate | aborted | flushed | outputFull | dataPoisoned | checkMismatch
  | hardwareFault | unitFenced | firmwareRejected
deriving DecidableEq, Repr, Inhabited

/-- Where a queue lies (R33): host memory at a bus address, or device memory at a device address. -/
inductive Place where
  | hostMem (addr : Nat)
  | devMem (addr : Nat)
deriving DecidableEq, Repr, Inhabited

/-- The priority classes of R36. -/
inductive Prio where
  | urgent | high | medium | low
deriving DecidableEq, Repr, Inhabited

/-- A command in execution named by its queue, CID and opcode. -/
structure CmdRef where
  qid   : Fin 64
  cid   : Half
  op    : Op
  flags : Byte
deriving DecidableEq, Repr, Inhabited

/-- A command fetched but not started (R465); ent counts the entries of the queue since its creation. -/
structure Fetched where
  ent  : Nat
  op   : Half
  pkt  : Packet
deriving DecidableEq, Repr

/-- A command in flight (R465); stop says that a reset of its queue has reached it, and that it ends with ABORTED at its next safe point (R55). -/
structure Flying where
  ent  : Nat
  ref  : CmdRef
  stop : Bool := false
deriving DecidableEq, Repr

/-- A completion ready to be written (Table 02-8); held while its queue is full (R41). -/
structure Ready where
  ent    : Nat
  op     : Half
  cid    : Half
  flags  : Byte
  status : Status
  r0     : Word
  r1     : Word
  logged : Bool
  held   : Bool
deriving DecidableEq, Repr

/-- A QUEUE_FLUSH in progress on a queue (R54): the commands before limit are flushed. -/
structure FlushOp where
  by_   : CmdRef
  limit : Nat
  count : Nat
deriving DecidableEq, Repr

/-- A QUEUE_RESET (by_ some) or ADMIN_RESET (none) in progress on a queue (R54, R56); done says that only its own completion is still to be
written. -/
structure ResetOp where
  by_     : Option CmdRef
  count   : Nat
  lostLog : Bool
  done    : Bool := false
deriving DecidableEq, Repr

/-- One queue pair (R33). Indices are entry indices; submitted and fetchedN count entries since the last reset. -/
structure Queue where
  live      : Bool
  handle    : Handle
  entries   : Nat
  cqEntries : Nat
  sq        : Place
  cq        : Place
  prio      : Prio
  vector    : Nat
  cqCount   : Nat
  cqTime    : Nat
  sqHead    : Nat
  sqTail    : Nat
  cqHead    : Nat
  cqTail    : Nat
  phase     : Bool
  submitted : Nat
  fetchedN  : Nat
  fetched   : List Fetched
  inFlight  : List Flying
  ready     : List Ready
  flush     : Option FlushOp
  reset     : Option ResetOp
  halted    : Bool
  unsig     : Nat
  unsigElig : Bool
  barrier   : Option Nat
deriving DecidableEq, Repr

/-- One entry of the range-lock table (R51). -/
structure RangeLock where
  start : Nat
  len   : Nat
  write : Bool
  qid   : Fin 64
  cid   : Half
deriving DecidableEq, Repr

/-- The asynchronous event types of Table 02-14B. -/
inductive EvType where
  | errorLogged | tallyOverflow | unitReplaced | unitFenced | livePathFallback | livePathRestored | frameDone
  | frameDropped | thermal | laneMargin | fwActivated | pairFailover | powerState | doorbellInvalid | queueHalted
deriving DecidableEq, Repr, Inhabited

/-- An event held in the event queue (R59, R60); merged counts the events of the entry, the first among them (R49). -/
structure HeldEvent where
  type   : EvType
  detail : Word
  merged : Nat
deriving DecidableEq, Repr

/-- One MSI-X table entry. -/
structure MsixEntry where
  addr : DWord
  data : Word
  ctrl : Word
deriving DecidableEq, Repr

/-- One entry of the orphan log page (Table 02-21, layout of Table 02-8 with PHASE 0). -/
structure Orphan where
  r0     : Word
  r1     : Word
  sqHead : Half
  qid    : Fin 64
  logged : Bool
  cid    : Half
  status : Status
deriving DecidableEq, Repr

/-- The orphan log page (R68). -/
structure OrphanPage where
  overflow : Nat
  resetS   : Nat
  resetNs  : Nat
  cause    : HostResetCause
  entries  : List Orphan
deriving DecidableEq, Repr

/-- The features of device scope (Table 02-20); those of camera scope stand in the camera context. -/
structure Features where
  wHigh       : Nat
  wMedium     : Nat
  wLow        : Nat
  drainLimit  : Nat
  shed3       : Nat
  shed2       : Nat
  shed1       : Nat
  guard       : Nat
  retrainMs   : Nat
  scrubH      : Nat
deriving DecidableEq, Repr

/-- The arbitration state of R36: the round robin pointers of the four classes and the weighted credits. -/
structure Arbiter where
  ptrUrgent : Nat
  ptrHigh   : Nat
  ptrMedium : Nat
  ptrLow    : Nat
  crHigh    : Nat
  crMedium  : Nat
  crLow     : Nat
deriving DecidableEq, Repr

/-- A firmware activation in its drain (R57) or after it. -/
structure Activation where
  by_  : CmdRef
  bank : Nat
deriving DecidableEq, Repr

/-- The host interface. expired holds the idle timers that have expired in the idle period (R65); ended names the completions that are ready and not written, by queue and CID, in the order in which their commands ended
(R68). PS, RDY and ACT of KX_HOST_STATUS are derived (Flags); the other flags stand here. -/
structure HostSt where
  en          : Bool
  adminHalted : Bool
  orphansFlag : Bool
  paramErr    : Bool
  fatal       : Bool
  asqs        : Nat
  acqs        : Nat
  asqBase     : DWord
  acqBase     : DWord
  bar2Base    : Nat
  bar2Log2    : Nat
  msix        : Vector MsixEntry 256
  pba         : Vector Bool 256
  queues      : Vector Queue 64
  ended       : List (Fin 64 × Half)
  locks       : List RangeLock
  async       : List CmdRef
  held        : List HeldEvent
  heldLost    : Bool
  arb         : Arbiter
  feat        : Features
  orphanRun   : List Flying
  orphans     : OrphanPage
  activation  : Option Activation
  linkUp      : Bool
  expired     : Vector Bool 3
deriving DecidableEq, Repr

/-- A queue pair that does not exist. -/
def Queue.absent : Queue :=
  { live := false, handle := 0, entries := 0, cqEntries := 0, sq := .hostMem 0, cq := .hostMem 0, prio := .urgent, vector := 0,
    cqCount := 1, cqTime := 0, sqHead := 0, sqTail := 0, cqHead := 0, cqTail := 0, phase := true, submitted := 0,
    fetchedN := 0, fetched := [], inFlight := [], ready := [], flush := Option.none, reset := Option.none,
    halted := false, unsig := 0, unsigElig := false, barrier := Option.none }

/-- The defaults of Table 02-20. -/
def Features.reset : Features :=
  { wHigh := 8, wMedium := 4, wLow := 1, drainLimit := 200, shed3 := 2000, shed2 := 4000, shed1 := 8000,
    guard := 200, retrainMs := 50, scrubH := 24 }

/-- The arbiter with full credits. -/
def Arbiter.reset : Arbiter :=
  { ptrUrgent := 0, ptrHigh := 0, ptrMedium := 0, ptrLow := 0, crHigh := 8, crMedium := 4, crLow := 1 }

/-- An orphan page with nothing in it. -/
def OrphanPage.empty : OrphanPage :=
  { overflow := 0, resetS := 0, resetNs := 0, cause := .perst, entries := [] }

/-- No idle timer has expired. -/
def noneExpired : Vector Bool 3 := Vector.replicate 3 false

/-- The host interface at its reset values (Tables 02-2 to 02-6). DESIGN CHOICE: MSI-X entries are masked (log 6). -/
def HostSt.reset : HostSt :=
  { en := false, adminHalted := false, orphansFlag := false, paramErr := false, fatal := false, asqs := 0, acqs := 0,
    asqBase := 0, acqBase := 0, bar2Base := 0, bar2Log2 := 28,
    msix := Vector.replicate 256 { addr := 0, data := 0, ctrl := 1 }, pba := Vector.replicate 256 false,
    queues := Vector.replicate 64 Queue.absent, ended := [], locks := [], async := [], held := [], heldLost := false,
    arb := Arbiter.reset, feat := Features.reset, orphanRun := [], orphans := OrphanPage.empty,
    activation := Option.none, linkUp := false, expired := noneExpired }

end Sys2Proof.Machine
end

