-- ==== Sys2Proof/Machine/StateCam.lean ====
section
/-!
DEFINITION. The state of the camera contexts (chapters 03 to 07): profiles, staged and latched parameter sets, rings, frames in
processing with their ledger records, the hub control channel, trigger plans, applies and the motion fields; and what the slices hold. Profiles and parameter blocks stand as the bytes that the host gave.
-/
namespace Sys2Proof.Machine

/-- The states of Table 03-1. -/
inductive CamState where
  | idle | configured | running | stopping | suspended
deriving DecidableEq, Repr, Inhabited

/-- One raw stage: ENABLE and its block (Table 04-5). -/
structure StageSet where
  on  : Bool
  blk : List Byte
deriving DecidableEq, Repr

/-- A table, look or curve where it lies in the host's buffer (R113, R151). -/
structure Loaded where
  addr : Nat
  len  : Nat
deriving DecidableEq, Repr

/-- A raw tap as configured (Table 04-16). id tells one configure from the next. -/
structure TapCfg where
  id       : Nat
  point    : Nat
  format   : Nat
  slots    : Nat
  every    : Nat
  base     : Nat
  slotSize : Nat
deriving DecidableEq, Repr

/-- An output as configured: its block of Table 05-8 or 05-14. -/
structure OutCfg where
  id       : Nat
  blk      : List Byte
  slots    : Nat
  every    : Nat
  hostRead : Bool
  base     : Nat
  slotSize : Nat
deriving DecidableEq, Repr

/-- The statistics ring as configured (Table 06-6). -/
structure StatCfg where
  id       : Nat
  blk      : List Byte
  slots    : Nat
  hostRead : Bool
  base     : Nat
  slotSize : Nat
deriving DecidableEq, Repr

/-- The set of parameters that latches at a start of frame (R110, R144). tnrReset acts at one latch. -/
structure ParamSet where
  stages   : Vector StageSet 9
  tnrBuf   : Nat
  tnrReset : Bool
  tables   : Vector (Option Loaded) 6
  taps     : Vector (Option TapCfg) 2
  matrix   : List Byte
  look     : Option Loaded
  curves   : Vector (Option Loaded) 4
  outs     : Vector (Option OutCfg) 4
  spectral : List Byte
  stats    : Option StatCfg
  lambda   : Nat
  tpred    : Bool
deriving DecidableEq, Repr

/-- One slot of a ring: the FN it holds, whether the frame's record is CLOSED, and who holds it; the host's hold is handle 0. -/
structure RingSlot where
  used    : Bool
  fn      : Nat
  run     : Nat
  done    : Bool
  holders : List Handle
deriving DecidableEq, Repr

/-- A ring in force: the configure it came from, its place, and the slot that the next frame takes. -/
structure Ring where
  id       : Nat
  base     : Nat
  slotSize : Nat
  next     : Nat
  slots    : List RingSlot
deriving DecidableEq, Repr

/-- The pipeline settings in force: T, G, WB and MIX (Table 06-1). -/
structure PipeSet where
  t   : Vector Nat 3
  g   : Vector Nat 3
  wb  : Vector Nat 4
  mix : Nat
deriving DecidableEq, Repr

/-- A ledger record (Table 06-1). Times are in 2^-16 ns. noise holds 24 binary32 words. -/
structure LedgerRec where
  fn          : Nat
  run         : Nat
  cam         : Nat
  closed      : Bool
  cause       : Nat
  flags       : Word
  tnrRef      : Nat
  exp         : Nat
  trigger     : Nat
  sof         : Nat
  motionRef   : Nat
  sensorApply : Nat
  pipeApply   : Nat
  paramGen    : Nat
  hubFc       : Nat
  poisonTiles : Nat
  pipe        : PipeSet
  known       : Nat
  limited     : Nat
  statSlot    : Nat
  statAddr    : Nat
  noise       : List Nat
  values      : List Byte
deriving DecidableEq, Repr

/-- Sums of one statistics zone per channel: sum and count of sites in L24, clipped sites, and the sharpness sums. -/
structure ZoneAcc where
  sum  : Vector Int 4
  num  : Vector Nat 4
  clip : Vector Nat 4
  hi   : Nat
  lo   : Nat
deriving DecidableEq, Repr

/-- A site that has been measured: its tile, channel, histogram bin, zone, value in L24, clip, and its contributions to the sharpness sums. It counts
once its tile is known to be free of poison (R138, R175). -/
structure StatSite where
  tile : Nat × Nat
  ch   : Nat
  bin  : Nat
  zone : Nat
  v    : Int
  clip : Bool
  hi   : Nat
  lo   : Nat
deriving DecidableEq, Repr

/-- A tile that has been flagged (R138), and the band at whose pass it was. -/
structure BadTile where
  tx   : Nat
  ty   : Nat
  band : Nat
deriving DecidableEq, Repr

/-- The statistics of a frame (Tables 06-7 to 06-9). -/
structure StatAcc where
  hist  : List Nat
  zones : List ZoneAcc
  count : Vector Nat 4
deriving DecidableEq, Repr

/-- A frame in processing: its place in the ingest queue, the set latched for it, its record, which lines and bands have arrived,
which fields and stripes are done, and the slots it writes. lost names the outputs, each with a band, whose tiles R161 flags. sums are the row sums of its field once complete, oldSums says that they
are those of its reference (R190). -/
structure CamFrame where
  fn        : Nat
  slot      : Nat
  set       : ParamSet
  rcd       : LedgerRec
  deadline  : Nat
  stored    : Vector Nat 3
  arrived   : Bool
  short     : Bool
  fields    : Nat
  fieldBad  : List Nat
  fieldPlace : Option Nat
  stripes   : List (Nat × Nat)
  released  : Nat
  tnrReset  : Bool
  tapSlots  : Vector (Option Nat) 2
  outSlots  : Vector (Option Nat) 4
  stats     : List StatSite
  defects   : Nat
  ghosts    : Nat
  clips     : Nat
  ndviBad   : Nat
  badTiles  : List BadTile
  lost      : List (Nat × Nat)
  bypassed  : List Nat
  lookOff   : Bool
  tapPoison : Vector Bool 2
  outPoison : Vector Bool 4
  predFn    : Option Nat
  predTg    : Nat
  tnrWrite  : Nat
  proxy     : Nat
  predProxy : Nat
  motionEpoch : Nat
  sums      : List (Nat × Nat)
  oldSums   : Bool
  bandTimes : List (Nat × Nat)
deriving DecidableEq, Repr

/-- A frame of the run that was accepted and not dropped, as the frames after it need it (R93): T[0] × G[0] of its record, whether temporal noise
reduction ran on it, the plane of the reference buffer that it writes, and its proxy. -/
structure PastFrame where
  fn    : Nat
  tg    : Nat
  tnr   : Bool
  plane : Nat
  proxy : Nat
deriving DecidableEq, Repr

/-- A pixel cell that waits for its place (R75): when it arrived, and whether its data found no room in the line store (R92). -/
structure HeldCell where
  cell : PixCell
  at_  : Nat
  cut  : Bool
deriving DecidableEq, Repr

/-- What a start of frame latches: the settings, and the marks of the record: PIPE_APPLY, LIMITED, ADJUSTED and HUB_LATE. -/
structure Latched where
  pipe      : PipeSet
  pipeApply : Nat
  limited   : Nat
  adjusted  : Bool
  hubLate   : Bool
deriving DecidableEq, Repr

/-- A line in assembly. -/
structure LineAsm where
  exp  : Nat
  line : Nat
  data : List Byte
  bad  : Bool
deriving DecidableEq, Repr

/-- What a control cell was sent for: CAM_START's BIND, CAM_SENSOR_WRITE's BIND or entries, an apply, a trigger, a cancel, or an ownership cell. -/
inductive CtrlWhy where
  | bindStart
  | bindWrite
  | entries (by_ : CmdRef) (first count : Nat)
  | apply (id : Nat) (groups : List Nat)
  | trigger (index : Nat)
  | cancel
  | owner (hub : Nat)
deriving DecidableEq, Repr

/-- A control cell sent and not yet answered (R81). -/
structure CtrlCell where
  seq     : Nat
  op      : Nat
  payload : List Byte
  why     : CtrlWhy
  resends : Nat
deriving DecidableEq, Repr

/-- A CAM_SENSOR_WRITE in progress: its entry list, how many entries have been sent and acknowledged, and whether one of its cells has failed. -/
structure SensorJob where
  by_     : CmdRef
  ptr     : Nat
  inDev   : Bool
  list    : List Byte
  sent    : Nat
  acked   : Nat
  broken  : Bool
deriving DecidableEq, Repr

/-- A trigger plan (Table 03-16). first is in ns, sent the index of the next trigger to send, start the first index of the plan,
and stop one past its last. -/
structure TrigPlan where
  first  : Nat
  period : Nat
  stop   : Option Nat
  pin    : Option Nat
  unit   : Option Nat
  pulse  : Nat
  held   : Bool
  start  : Nat
  sent   : Nat
  align  : Bool
deriving DecidableEq, Repr

/-- A trigger that has been sent and whose FN is not settled (R86), with the period of its plan. -/
structure Trigger where
  index : Nat
  time  : Nat
  period : Nat
  fn    : Option Nat
  sent  : Bool
deriving DecidableEq, Repr

/-- A write of a ledgered group: its scheduled effect frame, its value, whether its ACK has come and failed, and the frame of effect. -/
structure GroupWrite where
  group  : Nat
  applyId : Nat
  sched  : Nat
  effect : Nat
  value  : List Byte
  acked  : Bool
  failed : Bool
deriving DecidableEq, Repr

/-- An apply that is pending (R168): the target it is scheduled for, its block, its cells, whether one of them has failed, and the entries that
were executed of failed ones (R83). -/
structure Apply where
  id      : Nat
  by_     : Option CmdRef
  target  : Nat
  blk     : List Byte
  limited : Nat
  asked   : Nat
  atStart : Bool
  sentAll : Bool
  failed  : Bool
  partial_ : Nat
  late    : Bool
deriving DecidableEq, Repr

/-- A motion field in the ring of R193: its FN and who still holds it. -/
structure FieldSlot where
  used    : Bool
  fn      : Nat
  partial_ : Bool
  noRef   : Bool
  holders : List Handle
  asRef   : Bool
  tnr     : Bool
deriving DecidableEq, Repr

/-- The counters of Tables 03-17, 04-20, 05-16 and 06-12, saturating. -/
structure CamCounters where
  (accepted dropQueue dropShed dropMissing late short long cellsLost linesRepaired resends fails : Word)
  slotsMax : Nat
  lastSof  : Nat
  (frames poisonTiles defects ghosts tnrResets tap0 tap1 bypass : Word)
  outSkips : Vector Word 4
  (lookBypass clips ndviInvalid : Word)
  (applies adjusted tooLate hubLate limitHits policyMissed statsSkipped uncertain : Word)
deriving DecidableEq, Repr

/-- A CAM_STOP that has taken effect (R72): the command while it waits, RELEASE, and the frames it discarded. -/
structure StopReq where
  by_       : List CmdRef
  release   : Bool
  discarded : Nat
deriving DecidableEq, Repr

/-- A camera context. trail holds the frames whose record is CLOSED and whose field is not complete yet; early what FNs have latched whose triggers
have fired and whose frames have not come, while a later frame has (R172); statOld the statistics rings that frames in processing still use. starting is a start in progress, with its command where it has one; takeFn the FN from which a run that takes a camera over
continues, and the index of its trigger (R435). -/
structure CamCtx where
  state     : CamState
  handle    : Handle
  profile   : List Byte
  queueBase : Nat
  queueLen  : Nat
  queueBuf  : Handle
  span      : Nat
  degrade   : Nat
  run       : Nat
  fnNext    : Nat
  lastFn    : Option Nat
  next      : ParamSet
  last      : ParamSet
  paramGen  : Nat
  cfgCount  : Nat
  taps      : Vector Ring 2
  outs      : Vector Ring 4
  statRing  : Ring
  statOld   : List Ring
  consumers : Vector (List Handle) 4
  tapOwner  : Vector Handle 2
  frames    : List CamFrame
  trail     : List CamFrame
  held      : List HeldCell
  nextSeq   : Option Nat
  gap       : Bool
  dropping  : Bool
  asm       : Option LineAsm
  timing    : List (Nat × Nat)
  expTimes  : List (Nat × Nat)
  sofOff    : Option Int
  fcMap     : List (Nat × Nat)
  bound     : Bool
  failed    : Bool
  failRun   : Nat
  seq       : Nat
  unacked   : List CtrlCell
  waiting   : List CtrlCell
  starting  : Option (Option CmdRef)
  startNs   : Nat
  sensor    : List SensorJob
  otherWrites : List (Nat × List Byte)
  plan      : Option TrigPlan
  triggers  : List Trigger
  sofOffs   : List Int
  stop      : Option StopReq
  limits    : List Byte
  applyNext : Nat
  applies   : List Apply
  writes    : List GroupWrite
  known     : Nat
  values    : List Byte
  sensorApply : Nat
  pipe      : PipeSet
  pipeApply : Nat
  newestTg  : Nat
  policies  : Vector (Option Handle) 2
  bindNext  : Vector (Option (Option Handle)) 2
  past      : List PastFrame
  early     : List (Nat × Latched)
  lastDone  : Option Nat
  proxyNext : Nat
  fieldRing : Vector FieldSlot 16
  fieldNext : Nat
  frameDone : Bool
  doneEvery : Nat
  takeFn    : Option (Nat × Nat)
  cnt       : CamCounters
deriving DecidableEq, Repr

/-- A stripe in a slice: context, FN, band and stripe (R99), and the epoch of the role when it was taken. -/
structure SliceJob where
  cam    : Nat
  fn     : Nat
  band   : Nat
  stripe : Nat
  epoch  : Nat
deriving DecidableEq, Repr

/-- The camera contexts, the stripe that each slice role holds, the bytes that came into the line store in the last 10 µs with the ticks at which they
came, and the measured slacks of the last second in ns with theirs (R324). -/
structure CamsSt where
  ctx    : Vector CamCtx 48
  slices : Vector (Option SliceJob) 16
  ingest : List (Nat × Nat)
  slackLog : List (Nat × Nat)
deriving DecidableEq, Repr

/-- A ring that is not configured. -/
def Ring.absent : Ring := { id := 0, base := 0, slotSize := 0, next := 0, slots := [] }

/-- Stage blocks of zeros, all disabled: a context without profile. -/
def ParamSet.empty : ParamSet :=
  { stages := Vector.replicate 9 { on := false, blk := [] }, tnrBuf := 0, tnrReset := false, tables := Vector.replicate 6 none,
    taps := Vector.replicate 2 none, matrix := [], look := none, curves := Vector.replicate 4 none, outs := Vector.replicate 4 none,
    spectral := [], stats := none, lambda := 0x20, tpred := true }

/-- The settings before any apply: prescale gains 1.0 (R132), sensor gains 1.0, times and mix zero. -/
def PipeSet.reset : PipeSet :=
  { t := Vector.replicate 3 0, g := Vector.replicate 3 0x1000000, wb := Vector.replicate 4 0x10000, mix := 0 }

/-- Counters of zero. -/
def CamCounters.zero : CamCounters :=
  { accepted := 0, dropQueue := 0, dropShed := 0, dropMissing := 0, late := 0, short := 0, long := 0, cellsLost := 0,
    linesRepaired := 0, resends := 0, fails := 0, slotsMax := 0, lastSof := 0, frames := 0, poisonTiles := 0, defects := 0,
    ghosts := 0, tnrResets := 0, tap0 := 0, tap1 := 0, bypass := 0, outSkips := Vector.replicate 4 0, lookBypass := 0, clips := 0,
    ndviInvalid := 0, applies := 0, adjusted := 0, tooLate := 0, hubLate := 0, limitHits := 0, policyMissed := 0,
    statsSkipped := 0, uncertain := 0 }

/-- An empty entry of a field ring. -/
def FieldSlot.empty : FieldSlot :=
  { used := false, fn := 0, partial_ := false, noRef := false, holders := [], asRef := false, tnr := false }

/-- A context that is IDLE, with its RUN number (R71). -/
def CamCtx.idle (run : Nat) : CamCtx :=
  { state := .idle, handle := 0, profile := [], queueBase := 0, queueLen := 0, queueBuf := 0, span := 0, degrade := 1, run := run, fnNext := 0,
    lastFn := none, next := ParamSet.empty, last := ParamSet.empty, paramGen := 0, cfgCount := 0,
    taps := Vector.replicate 2 Ring.absent, outs := Vector.replicate 4 Ring.absent, statRing := Ring.absent, statOld := [],
    consumers := Vector.replicate 4 [], tapOwner := Vector.replicate 2 0, frames := [], trail := [], held := [], nextSeq := none, gap := false,
    dropping := false, asm := none, timing := [], expTimes := [], sofOff := none, fcMap := [], bound := false, failed := false, failRun := 0,
    seq := 0, unacked := [], waiting := [], starting := none, startNs := 0, sensor := [], otherWrites := [], plan := none, triggers := [], sofOffs := [],
    stop := none, limits := [], applyNext := 1, applies := [], writes := [], known := 0, values := [], sensorApply := 0,
    pipe := PipeSet.reset, pipeApply := 0, newestTg := 0, policies := Vector.replicate 2 none, bindNext := Vector.replicate 2 none,
    past := [], early := [], lastDone := none, proxyNext := 0,
    fieldRing := Vector.replicate 16 FieldSlot.empty, fieldNext := 0, frameDone := false, doneEvery := 1,
    takeFn := none, cnt := CamCounters.zero }

/-- Every context IDLE with RUN 0, the slices free. -/
def CamsSt.reset : CamsSt :=
  { ctx := Vector.replicate 48 (CamCtx.idle 0), slices := Vector.replicate 16 none, ingest := [], slackLog := [] }

end Sys2Proof.Machine
end

