-- ==== Sys2Proof/Machine/StateEnc.lean ====
section
/-!
DEFINITION. The state of the encode sessions (chapter 07): each session's frames, mini-GOP, reference pool, rate control, ring and
counters.
-/
namespace Sys2Proof.Machine

/-- A frame of a camera as an encode session sees it. present is none until the frame's record closes or the frame is known absent
(R199), dropped says that it is as absent because its picture was dropped (R214); out says that the output has a slot for it. addr is that slot, deadline
the frame deadline in ns, exposure the start in 2^-16 ns. field says that its field is complete, place is the field's place in the ring, refFn the frame it
was searched against; costs and acts are the row sums by block row. -/
structure EncFrame where
  fn       : Nat
  present  : Option Bool
  dropped  : Bool
  out      : Bool
  addr     : Nat
  deadline : Nat
  exposure : Nat
  field    : Bool
  place    : Option Nat
  refFn    : Option Nat
  costs    : List Nat
  acts     : List Nat
  zeroSeed : Bool
  oldSums  : Bool
deriving DecidableEq, Repr

/-- A picture in the reference pool (R203); long is its long-term index, slot its place. -/
structure RefPic where
  fn       : Nat
  layer    : Nat
  long     : Option Nat
  slot     : Nat
  deadline : Nat
deriving DecidableEq, Repr

/-- The types of pictures (Table 07-14). -/
inductive PicType where
  | idr | p | b
deriving DecidableEq, Repr, Inhabited

/-- A picture that a core codes, or that waits for another core after its own died (R216): role none. mini is the first FN after its mini-GOP, rate the rate
block that it is coded under (R212). nominal is b of R208 before the carry, space its reservation. slot is the pool slot of its reconstruction. -/
structure EncPic where
  fn       : Nat
  mini     : Nat
  rate     : List Byte
  seq      : Nat
  type     : PicType
  layer    : Nat
  qpBase   : Nat
  budget   : Nat
  nominal  : Nat
  cPic     : Nat
  startNs  : Nat
  deadline : Nat
  space    : Nat
  refs     : List RefPic
  slot     : Option Nat
  role     : Option Nat
  epoch    : Nat
  redone   : Bool
  missed   : Bool
deriving DecidableEq, Repr

/-- A forced IDR (R200): the FN it goes for, the command, and whether its target has been moved. -/
structure IdrTarget where
  fn       : Nat
  by_      : CmdRef
  adjusted : Bool
deriving DecidableEq, Repr

/-- A position in a ring: offset and wraps. -/
structure RingPos where
  off   : Nat
  wraps : Nat
deriving DecidableEq, Repr, Inhabited

/-- What a rate kernel has answered for the next picture (R211): nothing yet, b_pic and QP_base, no request, or nothing in time. -/
inductive RateAnswer where
  | none
  | given (b qp : Nat)
  | declined
  | missed
deriving DecidableEq, Repr, Inhabited

/-- The counters of page 0x26 (R218). -/
structure EncCounters where
  (pictures starved late ringDrops refLost concealed fieldSkips : Word)
deriving DecidableEq, Repr

/-- An encode session. gop holds the frames of the mini-GOP that are not coded yet, coded those that are, with their layers; anchor is the
last anchor before it, anchorDue says that its own anchor is still to be started. pics are the pictures in progress, in SEQ order. rateNext is a rate block
for the next picture started (R212). filled says that the CPB has been filled for a picture. answer is the rate kernel's for the frame answerFn. alphas hold bits, complexity and average QP of the last
picture of each type; devs the last eight deviations, newest first; overs the overshoot of the last picture; cpb the fullness in bits.
gaps lists frames to be written as GAP records with their kind bits; rateBound says that a RATE kernel is bound to the session. -/
structure EncSession where
  handle    : Handle
  cam       : Nat
  run       : Nat
  blk       : List Byte
  rate      : List Byte
  rateNext  : Option (List Byte)
  src       : OutCfg
  buf       : Handle
  base      : Nat
  period    : Nat
  profile   : List Byte
  charge    : Nat
  first     : Nat
  gopNext   : Nat
  frames    : List EncFrame
  gop       : List Nat
  coded     : List (Nat × Nat)
  anchor    : Nat
  anchorDue : Bool
  idrDue    : Bool
  idrNext   : Bool
  targets   : List IdrTarget
  lastIdr   : Nat
  refs      : List RefPic
  pics      : List EncPic
  seqNext   : Nat
  alphas    : Vector (Option (Nat × Nat × Nat)) 3
  qpLast    : Vector (Option Nat) 4
  devs      : List Int
  overs      : Nat
  pool      : Int
  cpb       : Rat
  filled    : Bool
  elapsed   : Nat
  wr        : RingPos
  rd        : RingPos
  gaps      : List (Nat × Nat)
  answer    : RateAnswer
  answerFn  : Nat
  rateBound : Bool
  discarded : Nat
  closing   : Bool
  closeBy   : Option CmdRef
  ended     : Bool
  released  : Bool
  faulted   : Bool
  cnt       : EncCounters
deriving DecidableEq, Repr

/-- Counters of zero. -/
def EncCounters.zero : EncCounters :=
  { pictures := 0, starved := 0, late := 0, ringDrops := 0, refLost := 0, concealed := 0, fieldSkips := 0 }

end Sys2Proof.Machine
end

