-- ==== Sys2Proof/Machine/StateAud.lean ====
section
/-!
DEFINITION. The state of the audio ports and of the media clocks (chapter 15): configuration, directions, the capture block that is open, the positions of
both rings, and the counters.
-/
namespace Sys2Proof.Machine

/-- A start that waits for its frame (R400): the least time of that frame in ns, and the command that its first frame completes, with whether it is adjusted. -/
structure AudWait where
  due : Nat
  cmd : Option (CmdRef × Bool)
deriving DecidableEq, Repr

/-- The capture direction: stopped, waiting for its first frame, or running. -/
inductive AudRx where
  | off
  | wait (w : AudWait)
  | on
deriving DecidableEq, Repr

/-- The playback direction: stopped, waiting, running with the frames sent so far, or fading out with the frames faded and the commands that end with it. -/
inductive AudTx where
  | off
  | wait (w : AudWait)
  | on (sent : Nat)
  | fade (sent : Nat) (refs : List CmdRef)
deriving DecidableEq, Repr

/-- A stop that waits for the next frame sync (R400): its command and directions. -/
structure AudStop where
  ref : CmdRef
  rx  : Bool
  tx  : Bool
deriving DecidableEq, Repr

/-- The capture block that is open: grid interval, mask, time of its first frame sync in 2^-16 ns, FRAME_NO, frames and payload so far, and its flags. -/
structure AudBlock where
  k       : Nat
  mask    : Nat
  stamp   : Nat
  frameNo : Nat
  frames  : Nat
  data    : List Byte
  change  : Bool
  start   : Bool
deriving DecidableEq, Repr

/-- The fill of a grouped port whose clock is lost (R402): the next interval to fill, the frames written in it, and the interval at which capture
resumes once the clock is back. -/
structure AudFill where
  k       : Nat
  written : Nat
  resume  : Option Nat
deriving DecidableEq, Repr

/-- The counters of page 0x2E (R404). -/
structure AudCounters where
  (blocks filled lost dropped underrun clockLosses : Word)
deriving DecidableEq, Repr

/-- A configured port. newRx and newTx are masks that take effect at the next frame sync, with the commands that complete there. okRun counts the frames
in range since the clock was lost; lost are the frames that the next block reports in LOST; grid is the last interval captured and the frames of it; lastNs
the time of the last frame captured; tail the frames that a stopped MASTER port still clocks. -/
structure AudPort where
  handle  : Handle
  blk     : List Byte
  buf     : Handle
  base    : Nat
  rxMask  : Nat
  txMask  : Nat
  newRx   : Option Nat
  newTx   : Option Nat
  slotRefs : List CmdRef
  counts  : Bool
  frameNo : Nat
  clock   : Bool
  okRun   : Nat
  ppm     : Int
  rx      : AudRx
  tx      : AudTx
  stops   : List AudStop
  block   : Option AudBlock
  fill    : Option AudFill
  firstBlock : Bool
  changed : Bool
  lost    : Nat
  grid    : Nat × Nat
  lastNs  : Nat
  seq     : Nat
  capWr   : RingPos
  playRd  : RingPos
  playWr  : RingPos
  under   : Bool
  tail    : Nat
  cnt     : AudCounters
deriving DecidableEq, Repr

/-- A media clock: its block in force, the block that the next update takes, and the state of its loop in ppm and ms·s (R396). -/
structure MediaClk where
  handle : Handle
  blk    : List Byte
  next   : Option (List Byte)
  ppm    : Rat
  acc    : Rat
deriving DecidableEq, Repr

/-- The eight ports and the two media clocks; none is not configured. -/
structure AudSt where
  ports  : Vector (Option AudPort) 8
  clocks : Vector (Option MediaClk) 2
deriving DecidableEq, Repr

/-- Nothing is configured at reset. -/
def AudSt.reset : AudSt := { ports := Vector.replicate 8 none, clocks := Vector.replicate 2 none }

/-- Counters of zero. -/
def AudCounters.zero : AudCounters := { blocks := 0, filled := 0, lost := 0, dropped := 0, underrun := 0, clockLosses := 0 }

end Sys2Proof.Machine
end

