-- ==== Sys2Proof/Machine/StateDec.lean ====
section
/-!
DEFINITION. The state of the decode sessions (chapter 08): the parser, the pictures that wait, the decoded picture buffer, the output
ring and the counters.
-/
namespace Sys2Proof.Machine

/-- What waits in decoding order: a parsed picture with the number of its arrival, whole once its end has been found; or the end of a
stream (R222), with the command that drains and the pictures output before it. -/
inductive DecWait where
  | pic (p : DecPicInfo) (arrival : Nat) (whole : Bool)
  | flush (by_ : Option (CmdRef × Nat))
deriving DecidableEq, Repr

/-- A picture of the pool: alias names the POC it stands for beyond its own; seqNo counts coded video sequences; needed says that it is
still to be output, usedRef that a reference picture set keeps it, queued that it waits in the output queue. -/
structure DecHeld where
  poc     : Int
  seqNo   : Nat
  slot    : Nat
  info    : DecPicInfo
  decSeq  : Nat
  flags   : Nat
  ctus    : Nat
  needed  : Bool
  usedRef : Bool
  latency : Nat
  decodedAt : Nat
deriving DecidableEq, Repr

/-- A parameter set of a session under its kind and ID: whether a valid one is stored, and of an SPS what it says; fits is false for one beyond the
session's capacity (R226). -/
structure DecSet where
  kind  : DecSetKind
  id    : Nat
  valid : Bool
  fits  : Bool
  sps   : DecSps
deriving DecidableEq, Repr

/-- The first detection of a picture, as entered in the session's log page (R226): the number of pictures begun before it, its class and the place of its
byte in the stream. -/
structure DecFound where
  pic    : Nat
  cls    : Nat
  offset : Nat
deriving DecidableEq, Repr

/-- A picture due for output: its pool slot, its header values and its presentation time in ns. -/
structure DecOut where
  pic : DecHeld
  pts : Nat
deriving DecidableEq, Repr

/-- A picture in decoding: the core that decodes it, none for one that waits for a core after a failure; or, once decoded, how it enters the buffer when
the pictures before it have: none for a lost one. -/
structure DecCur where
  info   : DecPicInfo
  decSeq : Nat
  seqNo  : Nat
  slot   : Nat
  core   : Option Nat
  flags  : Nat
  refs   : List Int
  ended  : Option (Option DecHeld)
deriving DecidableEq, Repr

/-- The counters of Table 08-6. -/
structure DecCounters where
  (out lost concealed substituted grey nals discarded hash skips late : Word)
  detect : Vector Word 6
deriving DecidableEq, Repr

/-- A drain (R222): its command, the pictures written before it, and the number of the last picture it waits for in output order. -/
structure DecDrain where
  by_  : CmdRef
  from_ : Nat
  last : Nat
deriving DecidableEq, Repr

/-- A decode session. zeros, inHeader and open_ are the parser's place in the byte stream: zeros seen, the header byte awaited, and whether a
NAL unit is open; offset counts the bytes parsed, begun the pictures begun, and discont says that a chunk was left before its end (R223). rasl says what
becomes of RASL pictures: 0 decoded, 1 discarded, 2 decoded without output. curs are the pictures in decoding, in decoding order. alias_ maps a missing
POC to the POC used for it, none once that has gone (R229); pushed counts the pictures that joined the output queue, headSince names, while the session closes, its first
one and since when it waits; attrs gives ENC and RANGE of the pictures in the ring by OUT_SEQ. -/
structure DecSession where
  handle   : Handle
  blk      : List Byte
  buf      : Handle
  base     : Nat
  charge   : Nat
  zeros    : Nat
  inHeader : Option (Option Nat)
  open_    : Bool
  offset   : Nat
  begun    : Nat
  found    : List DecFound
  discont  : Bool
  sets     : List DecSet
  started  : Bool
  waitIrap : Bool
  rasl     : Nat
  waiting  : List DecWait
  curs     : List DecCur
  pool     : List DecHeld
  alias_   : List (Int × Option Int)
  seqNo    : Nat
  decSeq   : Nat
  outs     : List DecOut
  pushed   : Nat
  headSince : Option (Nat × Nat)
  lastOut  : Option (Int × Nat × Nat)
  outSeq   : Nat
  ring     : Ring
  consumers : List Handle
  attrs    : List (Nat × Nat)
  drains   : List DecDrain
  closing  : Option (Option CmdRef)
  discarded : Nat
  written  : Nat
  faulted  : Bool
  cnt      : DecCounters
deriving DecidableEq, Repr

/-- The decode sessions and the number of the next arrival. -/
structure DecSt where
  sessions : List DecSession
  arrivals : Nat
deriving DecidableEq, Repr

/-- Counters of zero. -/
def DecCounters.zero : DecCounters :=
  { out := 0, lost := 0, concealed := 0, substituted := 0, grey := 0, nals := 0, discarded := 0, hash := 0, skips := 0, late := 0,
    detect := Vector.replicate 6 0 }

/-- No session. -/
def DecSt.reset : DecSt := { sessions := [], arrivals := 0 }

end Sys2Proof.Machine
end

