-- ==== Sys2Proof/Machine/StateDisp.lean ====
section
/-!
DEFINITION. The state of the display heads, layer pipes, coefficient banks and live-flip registers (chapter 10). Timing, attribute and layer blocks
stand as the bytes that the host gave.
-/
namespace Sys2Proof.Machine

/-- A surface that a pipe reads: the frame it holds (run and fn), a KCS surface or planes (address and stride of each), its format, and the
address it must end below. lost says that its header could not be read. -/
structure Surface where
  run    : Nat
  fn     : Nat
  kcs    : Bool
  base   : Nat
  limit  : Nat
  format : Nat
  depth  : Nat
  full   : Bool
  enc    : Nat
  w      : Nat
  h      : Nat
  planes : List (Nat × Nat)
  lost   : Bool
deriving DecidableEq, Repr

/-- A source that a layer is bound to (Table 10-7): SRC_KIND, its handle and SRC_INDEX. -/
structure SrcRef where
  kind   : Nat
  handle : Handle
  index  : Nat
deriving DecidableEq, Repr

/-- A layer (R265, R270). next is the staged block, blk the latched one; binds the sources that see it as a consumer. segs says from which source row on which
surface is read in the frame in progress, and fetched the rows fetched. live, offPath, lateNow, lateRun and goodRun are the live path (R284 to R287); fresh says
that the layer has not had its first frame, hidden that it is transparent under R290. -/
structure DispLayer where
  handle  : Handle
  head    : Nat
  pipe    : Nat
  next    : Option (List Byte)
  blk     : Option (List Byte)
  binds   : List SrcRef
  shown   : Option Surface
  prev    : Option Surface
  segs    : List (Nat × Option Surface)
  fetched : Nat
  live    : Bool
  offPath : Bool
  lateNow : Bool
  lateRun : Nat
  goodRun : Nat
  fresh   : Bool
  hidden  : Bool
deriving DecidableEq, Repr

/-- A head's attributes (Table 10-15), with the writeback ring's buffer. -/
structure AttrSet where
  blk  : List Byte
  buf  : Handle
  base : Nat
  len  : Nat
deriving DecidableEq, Repr

/-- An armed set (R279). -/
structure ArmedSet where
  target : Nat
  by_    : CmdRef
  late   : Bool
  attr   : AttrSet
  layers : List (Handle × List Byte)
deriving DecidableEq, Repr

/-- A CRC rectangle (Table 10-17). -/
structure CrcRect where
  en     : Bool
  check  : Bool
  x      : Nat
  y      : Nat
  w      : Nat
  h      : Nat
  expect : Nat
deriving DecidableEq, Repr

/-- A rectangle's results: the sum of the frame in progress, the CRC of the last completed frame, whether it was computed and differed, and whether the last
comparison matched. -/
structure CrcState where
  acc      : Word
  value    : Nat
  valid    : Bool
  mismatch : Bool
  matched  : Bool
deriving DecidableEq, Repr

/-- Whether a head is OFF, waits for its first frame start, or runs. -/
inductive HeadRun where
  | off | waiting | running
deriving DecidableEq, Repr, Inhabited

/-- The counters of Table 10-18, saturating. -/
structure HeadCounters where
  (aborts repeated liveLate fallbacks concealed wbSkips wbTrunc crcMism lockLosses refused : Word)
deriving DecidableEq, Repr

/-- A head. next is the timing of a mode change to come with the commands that wait for it (a claim or not); hold the time in ns before which no frame starts; count the
frames started; start the last frame start in 2^-16 ns; div the divider D with 24 fraction bits. wb is the writeback ring, wbSlot the slot being written. cloneOf is the
source of a clone, cloneNext a DISP_CLONE that waits (R292). -/
structure DispHead where
  handle    : Handle
  blk       : List Byte
  next      : Option (List Byte)
  modeRefs  : List (CmdRef × Bool)
  run       : HeadRun
  hold      : Option Nat
  stops     : List CmdRef
  blankLeft : Nat
  blankNow  : Bool
  count     : Nat
  start     : Nat
  div       : Nat
  locked    : Bool
  lockRun   : Nat
  attr      : AttrSet
  attrNext  : AttrSet
  armed     : List ArmedSet
  flipCount : Nat
  flipStamp : Nat
  banks     : Vector (List Byte) 16
  line      : Nat
  aborted   : Bool
  cseq      : Nat
  ctrlSeq   : Nat
  rectNext  : Vector CrcRect 16
  rects     : Vector CrcRect 16
  crc       : Vector CrcState 16
  crcFrame  : Nat
  wb        : Ring
  wbSlot    : Option Nat
  wbLines   : Nat
  wbTrunc   : Bool
  prevLine  : List (Nat × Nat × Nat)
  repeated  : Nat
  concealed : Nat
  live      : Nat
  late      : Nat
  cloneOf   : Option Nat
  cloneNext : Option (CmdRef × Option Nat)
  cloneRef  : Option CmdRef
  cnt       : HeadCounters
deriving DecidableEq, Repr

/-- The live-flip registers of a head that hold values of their own (Tables 10-10 to 10-12): LIVE_ADDR, ABORTED, PARAM_ERR, and the read copy of FRAME_TS in ns. -/
structure HeadRegs where
  addr     : Vector DWord 8
  aborted  : Bool
  paramErr : Bool
  tsCopy   : Nat
deriving DecidableEq, Repr

/-- A DISP_LOAD_COEF that waits for heads to latch the bank (R274). -/
structure BankLoad where
  by_   : CmdRef
  heads : List Nat
deriving DecidableEq, Repr

/-- The display. banks holds the newest content of each coefficient bank; [] is a bank not loaded since reset. -/
structure DispSt where
  heads  : Vector (Option DispHead) 4
  regs   : Vector HeadRegs 4
  layers : List DispLayer
  banks  : Vector (List Byte) 16
  loads  : List BankLoad
deriving DecidableEq, Repr

/-- Attributes of zero: a black background and no writeback (Table 10-15). -/
def AttrSet.reset : AttrSet := { blk := List.replicate 32 0, buf := 0, base := 0, len := 0 }
/-- A rectangle that is disabled. -/
def CrcRect.off : CrcRect := { en := false, check := false, x := 0, y := 0, w := 0, h := 0, expect := 0 }
/-- No results. -/
def CrcState.zero : CrcState := { acc := BitVec.allOnes 32, value := 0, valid := false, mismatch := false, matched := false }
/-- Counters of zero. -/
def HeadCounters.zero : HeadCounters :=
  { aborts := 0, repeated := 0, liveLate := 0, fallbacks := 0, concealed := 0, wbSkips := 0, wbTrunc := 0, crcMism := 0, lockLosses := 0, refused := 0 }
/-- Registers at reset (Tables 10-11, 10-12). -/
def HeadRegs.reset : HeadRegs := { addr := Vector.replicate 8 0, aborted := false, paramErr := false, tsCopy := 0 }

/-- No head claimed, no layer, no bank loaded. -/
def DispSt.reset : DispSt :=
  { heads := Vector.replicate 4 none, regs := Vector.replicate 4 HeadRegs.reset, layers := [], banks := Vector.replicate 16 [], loads := [] }

end Sys2Proof.Machine
end

