-- ==== Sys2Proof/Machine/StateFab.lean ====
section
/-!
DEFINITION. The state of the fabric (chapter 01): the accesses that wait at their requesters for a tag, and the transactions that hold one.
-/
namespace Sys2Proof.Machine

/-- The sources of fabric transactions (Table 01-5). -/
inductive FabSrc where
  | bandWrite | livePath | scanOut | audio | ledger | egress
  | slice | motion | encoder | statistics | layer
  | cooper | recording | bufCmd | bar2 | decoder | journeyman | writeback
  | patrol | rowRepair | retireCopy
deriving DecidableEq, Repr, Inhabited

/-- The deadline classes, highest first (Table 01-3). -/
inductive FabClass where
  | live | frame | bulk | scrub
deriving DecidableEq, Repr, Inhabited

/-- The logical roles that issue transactions (Table 01-3, ROLE); the numbers that the field gives them are the device's own. -/
inductive FabRole where
  | ostler | motion | recording | host | queueEngine | chandler | egress
  | slice (n : Nat)
  | encoder (n : Nat)
  | decoder (n : Nat)
  | cooper (n : Nat)
  | site (n : Nat)
  | head (n : Nat)
  | audio (n : Nat)
  | channel (n : Nat)
deriving DecidableEq, Repr, Inhabited

/-- An access of a requester, not issued yet or in part: it is split at granules of 256 bytes (R319). due is the deadline of a frame whose slice traffic
may be promoted (R16); pc names the pseudo-channel of an access whose address is the device's own. -/
structure FabReq where
  src   : FabSrc
  role  : FabRole
  epoch : Nat
  cam   : Nat
  addr  : Nat
  len   : Nat
  write : Bool
  due   : Option Nat := none
  pc    : Option Nat := none
deriving DecidableEq, Repr

/-- A transaction from its issue until its completion returns (R13): the fields of its tag (Table 01-3), and the source, the pseudo-channel, the bytes and
the direction of the access. -/
structure FabTxn where
  tag   : Nat
  age   : Nat
  cam   : Nat
  cls   : FabClass
  role  : FabRole
  epoch : Nat
  src   : FabSrc
  pc    : Nat
  bytes : Nat
  write : Bool
deriving DecidableEq, Repr

/-- A transaction that has been served: when, for which source, its direction and bytes (R345). -/
structure FabDone where
  at_   : Nat
  src   : FabSrc
  write : Bool
  bytes : Nat
deriving DecidableEq, Repr

/-- The fabric: the accesses that wait, the transactions in the order of their issue, and what was served in the last second. -/
structure FabSt where
  waiting : List FabReq
  txns    : List FabTxn
  served  : List FabDone
deriving DecidableEq, Repr

/-- A fabric with nothing on it: every tag is free. -/
def FabSt.reset : FabSt := { waiting := [], txns := [], served := [] }

end Sys2Proof.Machine
end

