-- ==== Sys2Proof/Machine/StateJm.lean ====
section
/-!
DEFINITION. The state of the Journeyman engines (chapter 11): the kernels loaded, their bindings, the frames that are hooked, and the
invocations that wait or run.
-/
namespace Sys2Proof.Machine

/-- The counters of Table 11-13, saturating. -/
structure KernelCounters where
  (invocations traps abandoned skips timeouts resets takeovers : Word)
deriving DecidableEq, Repr

/-- A loaded kernel: its image header, the image section with the initial state after it, its roles, its run of trapped invocations, and
JM_UNLOAD while it waits. -/
structure Kernel where
  handle   : Handle
  head     : List Byte
  body     : List Byte
  roles    : List Nat
  faulted  : Bool
  unload   : Option CmdRef
  consec   : Nat
  lastTrap : Nat
  cnt      : KernelCounters
deriving DecidableEq, Repr

/-- A binding of a kernel in one of its slots, to a camera or an encode session. blk is the block of a TILE binding, ring its ring.
params are the parameters in use and nextParams those that wait for the next start of frame; mem is the state block. by_ is the command
while the binding is staged, fromSeq the first SEQ it may serve, live says that it is in force, and leaving that it goes at its next boundary.
readySince is when the picture that a RATE kernel decides became codable. -/
structure KBind where
  kernel     : Handle
  slot       : Nat
  target     : Handle
  hook       : Nat
  blk        : List Byte
  ring       : Ring
  params     : List Byte
  nextParams : Option (List Byte)
  mem        : List Byte
  charge     : Nat
  by_        : Option CmdRef
  fromSeq    : Nat
  live       : Bool
  leaving    : Bool
  readySince : Option Nat
deriving DecidableEq, Repr

/-- A word of a reduction area: its value, and which of adds and maximums it has been given (R306). -/
structure RedWord where
  value : Nat
  added : Bool
  maxed : Bool
deriving DecidableEq, Repr

/-- A hooked frame: its binding as latched, its slot, its tiles queued, valid and invalid, and its reduction words. ringSlot is none once
its ring has been replaced. shape holds ACTIVE_W and ACTIVE_H. -/
structure HookFrame where
  kernel      : Handle
  slot        : Nat
  cam         : Nat
  hook        : Nat
  run         : Nat
  fn          : Nat
  shape       : Nat × Nat
  base        : Nat
  ringSlot    : Option Nat
  deadline    : Nat
  params      : List Byte
  queued      : List (Nat × Nat)
  started     : List (Nat × Nat)
  good        : List (Nat × Nat)
  bad         : List (Nat × Nat)
  reds        : List RedWord
  poisoned    : Bool
  reprocessed : Bool
  closed      : Bool
deriving DecidableEq, Repr

/-- A POLICY invocation from the close of its statistics slot to its end: the slot of its binding, the field it holds and its hook slots. -/
structure PolJob where
  kernel   : Handle
  slot     : Nat
  cam      : Nat
  run      : Nat
  fn       : Nat
  deadline : Nat
  field    : Option Nat
  roles    : Nat
  started  : Bool
  lost     : Bool
deriving DecidableEq, Repr

/-- The requests of a slot's invocations, merged (R180): the fields given so far, and whether any was. -/
structure PolRound where
  cam   : Nat
  run   : Nat
  fn    : Nat
  blk   : List Byte
  asked : Bool
deriving DecidableEq, Repr

/-- What an invocation does: a tile of a hooked frame, a policy for a frame, or the rate of a session's next picture. -/
inductive JobKind where
  | tile (cam hook run fn tx ty : Nat)
  | policy (cam run fn : Nat)
  | rate (session : Handle) (seq fn : Nat)
deriving DecidableEq, Repr

/-- A running invocation: its kernel and binding, where it runs, the epoch of the role, and its argument STATE_RESET. -/
structure Invoc where
  kernel : Handle
  slot   : Nat
  kind   : JobKind
  role   : Nat
  thread : Nat
  epoch  : Nat
  startNs : Nat
  wasReset : Bool
deriving DecidableEq, Repr

/-- The Journeyman engines. polBy are the EXP_POLICY_BIND commands that wait, with their camera; fetches the FETCH traps of the last second
by site and time in ns. -/
structure JmSt where
  kernels : List Kernel
  binds   : List KBind
  hooks   : List HookFrame
  jobs    : List PolJob
  rounds  : List PolRound
  running : List Invoc
  polBy   : List (Nat × CmdRef)
  fetches : List (Nat × Nat)
deriving DecidableEq, Repr

/-- No kernel loaded. -/
def JmSt.reset : JmSt := { kernels := [], binds := [], hooks := [], jobs := [], rounds := [], running := [], polBy := [], fetches := [] }

/-- Counters of zero. -/
def KernelCounters.zero : KernelCounters := { invocations := 0, traps := 0, abandoned := 0, skips := 0, timeouts := 0, resets := 0, takeovers := 0 }

end Sys2Proof.Machine
end

