-- ==== Sys2Proof/Machine/StateLanes.lean ====
section
/-!
DEFINITION. The state of the serial lanes, channels, quads, egress streams, Ethernet ports and the bridge (chapter 13).
-/
namespace Sys2Proof.Machine

/-- The states of KX_LANE_STATUS.STATE (Table 13-9). -/
inductive LaneState where
  | off | training | active | spare | calibrating | fenced | diag | eth
deriving DecidableEq, Repr, Inhabited

/-- Where a bring-up stands (R352): no step, a RATE_REQUEST sent, relocked and adapting to a rate, or a first step failed, so that the lane stays
at 10G. -/
inductive BringUp where
  | idle
  | failed
  | requested (rate : Nat)
  | adapting (rate : Nat)
deriving DecidableEq, Repr, Inhabited

/-- One physical lane (Tables 13-8, 13-9, 13-16). snr and calSnr are u8.8 dB, temperatures s8.8 °C, ber the bits of a binary32. -/
structure Lane where
  state    : LaneState
  chan     : Option Nat
  rate     : Nat
  target   : Nat
  step     : BringUp
  snr      : Nat
  eye      : Nat
  ber      : Word
  fecCorr  : Word
  fecUncorr : Word
  paramErr : Bool
  margin   : Bool
  low      : Bool
  cwLock   : Bool
  cellLock : Bool
  maxRate  : Nat
  inplaceOk : Bool
  calDelta : Nat
  calVal   : List Byte
  staged   : List Byte
  restored : Bool
  inPlace  : Bool
  deferredNow : Bool
  calFails : Nat
  cellsLost : Word
  cwUncorr : Word
  calibrations : Word
  rotations : Word
  deferred : Word
  inplaceN : Word
  lastEpoch : Nat
  deaths   : Nat
  trainBy  : Option CmdRef
  rejoinBy : Option CmdRef
  slip     : Nat
deriving DecidableEq, Repr

/-- One channel (R346, R350): its epoch, the lane that carries it, whether it is vacant (R359), and its cell sequence. -/
structure Channel where
  epoch  : Nat
  lane   : Option Nat
  vacant : Bool
  lseq   : Word
deriving DecidableEq, Repr

/-- A rotation of a channel from a lane to the spare (R356): step 0 ROTATE sent, 1 overlap, 2 calibration of the old lane; dead
says that the old lane was declared dead (R359). -/
structure Rotation where
  chan : Nat
  src  : Nat
  dst  : Nat
  step : Nat
  dead : Bool
deriving DecidableEq, Repr

/-- The role of a quad (Table 13-1). -/
inductive QuadRole where
  | ingest | egress | ethernet | off | pair
deriving DecidableEq, Repr, Inhabited

/-- One quad: role, reference, spare lane, and the rotation that claims the spare. -/
structure Quad where
  role     : QuadRole
  qref     : Bool
  spare    : Option Nat
  rotation : Option Rotation
deriving DecidableEq, Repr

/-- The frame that a stream is sending: its FN, the slot of the output's ring, the rows sent of it, the end of the range being sent, and the plane and line that come next. -/
structure StreamFrame where
  fn    : Nat
  slot  : Nat
  first : Nat
  upTo  : Nat
  plane : Nat
  row   : Nat
deriving DecidableEq, Repr

/-- An egress stream (R363, R364): the run and FN of the next frame, the frame in progress, its cell sequences, whether its channel has become vacant under it, and
whether it closes with the frame being sent. -/
structure Stream where
  handle  : Handle
  chan    : Nat
  idx     : Nat
  cam     : Handle
  output  : Nat
  run     : Nat
  nextFn  : Nat
  cur     : Option StreamFrame
  sseq    : Nat
  cseq    : Nat
  stopped : Bool
  closing : Bool
deriving DecidableEq, Repr

/-- A frame in an egress queue of a port (R366, R383): its bytes, the port it came in by, its ingress stamp in 2^-16 ns, and the sum of
the steps at that stamp. -/
structure EgressFrame where
  data  : List Byte
  inp   : Nat
  stamp : Int
  steps : Int
deriving DecidableEq, Repr

/-- One Ethernet port (Table 13-15). -/
structure EthPort where
  mode   : Nat
  fec    : Nat
  mtu    : Nat
  mac    : Nat
  fwd    : Nat
  pcp    : Nat
  pvid   : Nat
  vids   : Vector Nat 8
  link   : Bool
  by_    : List CmdRef
  queues : Vector (List EgressFrame) 8
deriving DecidableEq, Repr

/-- A learned address of the bridge (R366). -/
structure Learned where
  mac  : Nat
  vid  : Nat
  port : Nat
deriving DecidableEq, Repr

/-- The lanes and Ethernet ports. -/
structure LanesSt where
  lanes    : Vector Lane 32
  channels : Vector Channel 32
  quads    : Vector Quad 8
  streams  : List Stream
  ports    : Vector EthPort 4
  learned  : List Learned
  internalDiscarded : Word
  flashCal : Vector (List Byte) 32
deriving DecidableEq, Repr

/-- A calibration record of zeros. -/
def emptyCal : List Byte := List.replicate 512 0

/-- A lane with its defaults: MAX_RATE 3, CAL_DELTA 8 °C (Table 13-12, R355). -/
def Lane.reset (st : LaneState) : Lane :=
  { state := st, chan := none, rate := 0, target := 0, step := .idle, snr := 0, eye := 0, ber := 0, fecCorr := 0, fecUncorr := 0,
    paramErr := false, margin := false, low := false, cwLock := false, cellLock := false, maxRate := 3, inplaceOk := false,
    calDelta := 8, calVal := emptyCal, staged := emptyCal, restored := false, inPlace := false, deferredNow := false, calFails := 0,
    cellsLost := 0, cwUncorr := 0, calibrations := 0, rotations := 0, deferred := 0, inplaceN := 0, lastEpoch := 0, deaths := 0,
    trainBy := none, rejoinBy := none, slip := 0 }

/-- The role of a quad at power-up (Table 13-1). -/
def quadRole (isD : Bool) (q : Nat) : QuadRole :=
  if q < 3 then .ingest else if q < 6 then .egress else if q = 6 then .ethernet else if isD then .pair else .off

/-- An Ethernet port that is off. The fields that a port block sets have no reset value in the manual: DESIGN CHOICE (log 21). -/
def EthPort.reset : EthPort :=
  { mode := 0, fec := 0, mtu := 1518, mac := 0, fwd := 0, pcp := 0, pvid := 1, vids := Vector.replicate 8 0, link := false,
    by_ := [], queues := Vector.replicate 8 [] }

/-- Lanes at command-ready with no peer answering (Table 13-1, R352): the lanes of quads in use train at 10G. -/
def LanesSt.reset (isD : Bool) : LanesSt :=
  { lanes := Vector.ofFn (fun i =>
      Lane.reset (match quadRole isD (i.val / 4) with | .off => .off | .ethernet => .off | _ => .training)),
    channels := Vector.replicate 32 { epoch := 1, lane := none, vacant := false, lseq := 0 },
    quads := Vector.ofFn (fun i => { role := quadRole isD i.val, qref := false,
                                     spare := if i.val = 6 then none else some (4 * i.val + 3), rotation := none }),
    streams := [], ports := Vector.replicate 4 EthPort.reset, learned := [], internalDiscarded := 0,
    flashCal := Vector.replicate 32 emptyCal }

/-- Lanes after a power-up or device reset, before boot: only the records of the boot flash stay (R362). -/
def LanesSt.cold (l : LanesSt) : LanesSt :=
  { LanesSt.reset false with
    lanes := Vector.replicate 32 (Lane.reset .off), flashCal := l.flashCal }

end Sys2Proof.Machine
end

