-- ==== Sys2Proof/Machine/StateMem.lean ====
section
/-!
DEFINITION. The state of the HBM3E memory (chapter 12): the bytes and poison marks, the buffers, the pseudo-channels with
their tallies, watch lists and spare rows, the stacks' speeds, and the SRAM macros' remap tables.
-/
namespace Sys2Proof.Machine

/-- The bytes of the device memory in canonical form, and the marked 64-byte lines (R332) as rising line numbers. -/
structure Memory where
  cells : List Host.Cell
  marks : List Nat
deriving DecidableEq, Repr

/-- A buffer object (R320). -/
structure Buffer where
  handle : Handle
  base   : Nat
  size   : Nat
deriving DecidableEq, Repr

/-- The states of a pseudo-channel (Table 12-11). -/
inductive PcState where
  | active | retiring | retired | retirePending | usable
deriving DecidableEq, Repr, Inhabited

/-- A row on a watch list (R339): its row number, bank, count of errors, the ticks of the first and the last, and of the last one that its
region's tally counted (R335). -/
structure WatchRow where
  row    : Nat
  bank   : Nat
  count  : Nat
  first  : Nat
  last   : Nat
  tallied : Nat
deriving DecidableEq, Repr

/-- A row that waits for repair (R340). -/
structure Candidate where
  row  : Nat
  bank : Nat
deriving DecidableEq, Repr

/-- One tally (R335): its count and whether its overflow has been posted and not yet leaked to half. -/
structure Tally where
  count  : Nat
  posted : Bool
deriving DecidableEq, Repr

/-- One pseudo-channel. banksUsed lists (bank, spare rows used); a bank not listed has used none. -/
structure PseudoChannel where
  state      : PcState
  epoch      : Nat
  postponed  : Nat
  tallies    : Vector Tally 64
  overflowAt : List (Nat × Nat)
  watch      : List WatchRow
  candidates : List Candidate
  banksUsed  : List (Nat × Nat)
  repairs    : Nat
  repairedLast : Bool
  retrainDue : Bool
  skips      : Nat
  failures   : Nat
  corrAt     : List Nat
deriving DecidableEq, Repr

/-- One SRAM macro's remap table and tally (R337). -/
structure Macro where
  number : Nat
  kind   : Nat
  unit   : Nat
  words  : Nat
  remap  : List (Nat × Nat)
  watch  : List (Nat × Nat)
  tally  : Tally
deriving DecidableEq, Repr

/-- A retired range and the pseudo-channel whose granules it now holds (R343); copied while the copy runs. -/
structure Retired where
  pc      : Nat
  base    : Nat
  copying : Bool
deriving DecidableEq, Repr

/-- A speed change in progress (R329): the target, the next stack to move, whether R18's slack condition is waived, and the commands
that complete with it. -/
structure SpeedChange where
  target : Nat
  next   : Nat
  waived : Bool
  by_    : List CmdRef
deriving DecidableEq, Repr

/-- The counters of Table 12-10. -/
structure MemCounters where
  (corrected uncorrectable overflows postponed forced bursts deferred skipped pprDone : Word)
deriving DecidableEq, Repr

/-- The memory system. speeds holds the code in force per stack, setSpeed the speed of MEM_SET_SPEED. -/
structure MemSt where
  mem       : Memory
  buffers   : List Buffer
  pcs       : Vector PseudoChannel 128
  macros    : List Macro
  retired   : List Retired
  pendingRet : List Nat
  deadPcs    : List Nat
  speeds    : Vector Nat 4
  setSpeed  : Nat
  change    : Option SpeedChange
  corrLogAt : List Nat
  cnt       : MemCounters
  scrubPass : Nat
  scrubStart : Nat
  bar2Discarded : Word
  bar2LogTick : Option Nat
deriving DecidableEq, Repr

/-- An empty tally. -/
def Tally.zero : Tally := { count := 0, posted := false }

/-- A pseudo-channel at power-up: active, epoch 1 (R409), no postponed refresh, empty tallies and lists. -/
def PseudoChannel.reset : PseudoChannel :=
  { state := .active, epoch := 1, postponed := 0, tallies := Vector.replicate 64 Tally.zero, overflowAt := [],
    watch := [], candidates := [], banksUsed := [], repairs := 0, repairedLast := false, retrainDue := false,
    skips := 0, failures := 0, corrAt := [] }

/-- The SRAM macros that the part lists, at most 384 (Table 02-18); which they are is each part's own (Config.macros). -/
def Macro.ofPart : List Macro :=
  (Config.macros.take 384).map (fun x => { number := x.1, kind := x.2.1, unit := x.2.2.1, words := x.2.2.2, remap := [], watch := [], tally := Tally.zero })

/-- The memory system at power-up. Nothing is listed: HBM contents are undefined at power-up (R447), log 3. -/
def MemSt.reset : MemSt :=
  { mem := { cells := [], marks := [] }, buffers := [], pcs := Vector.replicate 128 PseudoChannel.reset,
    macros := Macro.ofPart, retired := [], pendingRet := [], deadPcs := [], speeds := Vector.replicate 4 0, setSpeed := 0, change := none,
    corrLogAt := [],
    cnt := { corrected := 0, uncorrectable := 0, overflows := 0, postponed := 0, forced := 0, bursts := 0, deferred := 0,
             skipped := 0, pprDone := 0 },
    scrubPass := 0, scrubStart := 0, bar2Discarded := 0, bar2LogTick := none }

end Sys2Proof.Machine
end

