-- ==== Sys2Proof/Machine/StateMgmt.lean ====
section
/-!
DEFINITION. The state of Chandler (chapter 16): the unit and epoch tables, monitors, logs, firmware banks, error policy, SMBus
registers and pair operation; and the power and boot state (chapters 02, 17, 18).
-/
namespace Sys2Proof.Machine

/-- The states of Table 16-6. -/
inductive UnitState where
  | active | spare | fenced | testing | off
deriving DecidableEq, Repr, Inhabited

/-- One physical unit (Table 16-6). epoch is that of the role held or last held, 0 for none (R413). -/
structure PhysUnit where
  state  : UnitState
  role   : Option Nat
  epoch  : Nat
  deaths : Nat
  test   : Option CmdRef
deriving DecidableEq, Repr

/-- One role: the physical unit that fills it, none when retired or vacant, and its epoch (R23, R409). -/
structure Role where
  unit  : Option Nat
  epoch : Nat
deriving DecidableEq, Repr

/-- The units and roles of every kind of UnitKind. Decoder cores and Cooper engines are their own roles. -/
structure UnitTable where
  slices   : Vector PhysUnit 17
  sliceR   : Vector Role 16
  sites    : Vector PhysUnit 136
  siteR    : Vector Role 128
  encs     : Vector PhysUnit 9
  encR     : Vector Role 8
  decs     : Vector PhysUnit 2
  decR     : Vector Role 2
  cmps     : Vector PhysUnit 4
  cmpR     : Vector Role 4
  motion   : Vector PhysUnit 1
  motionR  : Vector Role 1
deriving DecidableEq, Repr

/-- One log entry (Table 16-10). at_ is the tick of the entry, which ERR_24H counts from. -/
structure LogEntry where
  seq     : Word
  tsS     : Nat
  stepGen : Nat
  source  : Nat
  tsNs    : Nat
  code    : Nat
  epoch   : Nat
  unit    : Handle
  sqId    : Nat
  reason  : Nat
  cid     : Half
  opcode  : Half
  addr    : Nat
  detail  : List Nat
  at_     : Nat
deriving DecidableEq, Repr

/-- A log ring: the next sequence number and the entries held, oldest first (R417). -/
structure LogRing where
  next    : Nat
  entries : List LogEntry
deriving DecidableEq, Repr

/-- A monitor: its block (Table 16-8) and its readings (Table 16-9). -/
structure Monitor where
  histEn     : Bool
  warnHi     : Int
  critHi     : Int
  warnLo     : Int
  histLo     : Int
  histHi     : Int
  histPeriod : Nat
  cur        : Int
  min_       : Int
  max_       : Int
  samples    : Word
  bins       : Vector Word 16
  warn       : Bool
  crit       : Bool
deriving DecidableEq, Repr

/-- The error policy (Table 16-13). -/
structure Policy where
  tallyCap      : Nat
  tallyLeak     : Nat
  pprEn         : Bool
  retireEn      : Bool
  logCorrected  : Bool
  retireRegions : Nat
  retireWindow  : Nat
  sliceWd       : Nat
  encWd         : Nat
  motionWd      : Nat
  degradeKmax   : Nat
deriving DecidableEq, Repr

/-- A firmware bank as the boot record and its image header describe it (Tables 16-11, 17-6). -/
structure Bank where
  empty   : Bool
  failed  : Bool
  version : Nat
  svn     : Nat
  handoff : Nat
  length  : Nat
deriving DecidableEq, Repr

/-- Firmware: staging, banks, the boot record's choice, the trial, the fuses, and a commit in progress. -/
structure Firmware where
  staged     : List (Nat × Nat)
  stagedTop  : Nat
  bankA      : Bank
  bankB      : Bank
  active     : Nat
  bootBank   : Nat
  trial      : Bool
  trialBank  : Nat
  gen        : Nat
  rollback   : Nat
  ownerKey   : Option (List Byte)
  restarts   : Word
deriving DecidableEq, Repr

/-- The SMBus registers that hold values of their own (Tables 16-15, 16-16), and the health record last written. -/
structure SmbSt where
  pairDegraded : Bool
  fwRestarted  : Bool
  coreDown     : Bool
  throttle     : Bool
  tallyOvf     : Bool
  unitLost     : Bool
  err          : Bool
  ready        : Bool
  alertMask    : Nat
  monSel       : Nat
  logSel       : Nat
  eid          : Nat
  record       : List Byte
deriving DecidableEq, Repr

/-- PAIR_STATE (R431). -/
inductive PairState where
  | off | paired | linkFault | solo | fenced
deriving DecidableEq, Repr, Inhabited

/-- A hand-over in progress (R438): the command, the hub, and whether its OWNER_SET has been sent. -/
structure HandOver where
  by_  : CmdRef
  hub  : Nat
  sent : Bool
deriving DecidableEq, Repr

/-- Pair operation (R431 to R439). mapped holds, per peer context, the local takeover context of MAP; shadow the peer's mirrored state and
sent the state last mirrored to it; peerFn the FN_NEXT of its heartbeats; takeover the handles of the contexts taken over; awaiting the hubs that have not
accepted a new owner yet; hubEpochs the ownership epochs of hubs whose owner has changed, suspended the peer contexts that do not fit. -/
structure PairSt where
  state       : PairState
  shadowBuf   : Handle
  shadowOff   : Nat
  shadowLen   : Nat
  mapped      : Vector (Option Nat) 48
  misses      : Nat
  gen         : Word
  twinGen     : Word
  twinState   : Nat
  twinEpoch   : Nat
  twinFenced  : Bool
  ownEpoch    : Nat
  seq         : Nat
  peerFn      : Vector Nat 48
  peerRate    : Nat
  k           : Nat
  lastNs      : Nat
  failovers   : Word
  linkFaults  : Word
  takeover    : Vector Handle 48
  awaiting    : List Nat
  hubEpochs   : List (Nat × Nat)
  suspended   : List Nat
  shadow      : List (Nat × Mirror)
  sent        : List (Nat × Mirror)
  configBy    : List CmdRef
  hands       : List HandOver
deriving DecidableEq, Repr

/-- The power states (Table 02-15). -/
inductive PowerState where
  | ps0 | ps1 | ps2 | ps3
deriving DecidableEq, Repr, Inhabited

/-- What the device as a whole is doing: rails off, held in RESET_N, running commands, in recovery (R453), or with its
core domain down (R405, R462). -/
inductive Phase where
  | off | inReset | running | recovery | coreDown
deriving DecidableEq, Repr, Inhabited

/-- Power and boot. oper is the operational state, cur the current one; deferred requests wait for the end of a throttle. -/
structure PowerSt where
  phase       : Phase
  oper        : PowerState
  cur         : PowerState
  permitted   : Vector Bool 3
  timers      : Vector Nat 3
  throttled   : Bool
  tripped     : Bool
  throttles   : Word
  hotSensor   : Nat
  defState    : Option PowerState
  defSpeed    : Option Nat
  moving      : Option CmdRef
  waking      : Option (PowerState × Nat)
  perstHigh   : Bool
  resetHigh   : Bool
  linkTrained : Bool
  linkRate    : Nat
  linkWidth   : Nat
  upTick      : Nat
  powerDw     : Nat
deriving DecidableEq, Repr

/-- Chandler's state. -/
structure MgmtSt where
  units    : UnitTable
  errors   : LogRing
  events   : LogRing
  monitors : Vector Monitor 72
  policy   : Policy
  fw       : Firmware
  smb      : SmbSt
  pair     : PairSt
  replaced : Word
  avsRun   : Nat
deriving DecidableEq, Repr

/-- A physical unit that holds role n with epoch 1. -/
def PhysUnit.inRole (n : Nat) : PhysUnit :=
  { state := .active, role := some n, epoch := 1, deaths := 0, test := none }

/-- A spare that has never held a role (R413: epoch 0). -/
def PhysUnit.spareNew : PhysUnit := { state := .spare, role := none, epoch := 0, deaths := 0, test := none }

/-- The units at power-up: unit n holds role n with epoch 1, the rest are spares (Table 16-4, R409). -/
def UnitTable.reset : UnitTable :=
  let mk (k n : Nat) : PhysUnit := if n < k then PhysUnit.inRole n else PhysUnit.spareNew
  let ro (n : Nat) : Role := { unit := some n, epoch := 1 }
  { slices := Vector.ofFn (fun i => mk 16 i.val), sliceR := Vector.ofFn (fun i => ro i.val),
    sites := Vector.ofFn (fun i => mk 128 i.val), siteR := Vector.ofFn (fun i => ro i.val),
    encs := Vector.ofFn (fun i => mk 8 i.val), encR := Vector.ofFn (fun i => ro i.val),
    decs := Vector.ofFn (fun i => mk 2 i.val), decR := Vector.ofFn (fun i => ro i.val),
    cmps := Vector.ofFn (fun i => mk 4 i.val), cmpR := Vector.ofFn (fun i => ro i.val),
    motion := Vector.ofFn (fun i => mk 1 i.val), motionR := Vector.ofFn (fun i => ro i.val) }

/-- The nominal value of the rail of voltage monitors 24 + 4r to 27 + 4r in 0.1 mV (Table 17-1), VDD_CORE by AVS code (R441). -/
def railNominal (avs r : Nat) : Int :=
  match r with
  | 0 => 7000 + 50 * avs
  | 1 => 8500
  | 2 => 7500
  | 3 => 18000
  | 4 => 9000
  | 5 => 12000
  | 6 => 9000
  | 7 => 11000
  | 8 => 4000
  | _ => 18000

/-- The rated (maximum) current in mA of current monitor 64 + r (Tables 16-7, 17-1). -/
def railCurrent (r : Nat) : Int :=
  match r with
  | 0 => 230000
  | 1 => 30000
  | 2 => 28000
  | 3 => 34000
  | 4 => 18000
  | 5 => 5000
  | 6 => 2000
  | _ => 2500

/-- The default block of a monitor (Table 16-8), temperatures in 1/256 °C. Readings start at 0: DESIGN CHOICE (log 7). -/
def Monitor.reset (avs n : Nat) : Monitor :=
  let base : Monitor :=
    { histEn := true, warnHi := 100 * 256, critHi := 105 * 256, warnLo := -40 * 256, histLo := -40 * 256,
      histHi := 120 * 256, histPeriod := 0, cur := 0, min_ := 0, max_ := 0, samples := 0,
      bins := Vector.replicate 16 0, warn := false, crit := false }
  if n < 24 then base
  else if n < 64 then
    let v := railNominal avs ((n - 24) / 4)
    { base with warnHi := v + v * 5 / 100, critHi := v + v * 8 / 100, warnLo := v - v * 5 / 100,
                histLo := v - v * 10 / 100, histHi := v + v * 10 / 100 }
  else
    let i := railCurrent (n - 64)
    { base with warnHi := i, critHi := i * 11 / 10, warnLo := 0, histLo := 0, histHi := i * 12 / 10 }

/-- The default policy (Table 16-13). -/
def Policy.reset : Policy :=
  { tallyCap := 64, tallyLeak := 10, pprEn := true, retireEn := true, logCorrected := false, retireRegions := 8,
    retireWindow := 1, sliceWd := 500, encWd := 1000, motionWd := 500, degradeKmax := 4 }

/-- Firmware at reset: bank A holds a committed image and is active, bank B is empty. DESIGN CHOICE (log 8). -/
def Firmware.reset : Firmware :=
  { staged := [], stagedTop := 0,
    bankA := { empty := false, failed := false, version := 0x10000, svn := 0, handoff := 0, length := 256 },
    bankB := { empty := true, failed := false, version := 0, svn := 0, handoff := 0, length := 0 },
    active := 0, bootBank := 0, trial := false, trialBank := 0, gen := 0, rollback := 0, ownerKey := none, restarts := 0 }

/-- The SMBus registers at reset (Tables 16-15, 16-16), READY set by the end of boot (R452). -/
def SmbSt.reset : SmbSt :=
  { pairDegraded := false, fwRestarted := false, coreDown := false, throttle := false, tallyOvf := false,
    unitLost := false, err := false, ready := true, alertMask := 0x01FE, monSel := 0, logSel := 0, eid := 0, record := [] }

/-- Pair operation off. -/
def PairSt.reset : PairSt :=
  { state := .off, shadowBuf := 0, shadowOff := 0, shadowLen := 0, mapped := Vector.replicate 48 none, misses := 0, gen := 0, twinGen := 0,
    twinState := 0, twinEpoch := 1, twinFenced := false, ownEpoch := 1, seq := 0, peerFn := Vector.replicate 48 0, peerRate := 0, k := 1,
    lastNs := 0, failovers := 0, linkFaults := 0, takeover := Vector.replicate 48 0, awaiting := [], hubEpochs := [], suspended := [], shadow := [],
    sent := [], configBy := [], hands := [] }

/-- Power state PS0 at command-ready, no idle state permitted, the timers of R65. -/
def PowerSt.reset : PowerSt :=
  { phase := .running, oper := .ps0, cur := .ps0, permitted := Vector.replicate 3 false,
    timers := Vector.ofFn (fun i => if i.val = 0 then 1000 else if i.val = 1 then 60000 else 600000),
    throttled := false, tripped := false, throttles := 0, hotSensor := 0, defState := none,
    defSpeed := none, moving := none, waking := none, perstHigh := true, resetHigh := true, linkTrained := true, linkRate := 64,
    linkWidth := 8, upTick := 0, powerDw := 0 }

/-- Empty logs: sequence numbers start at 1 (R417). -/
def LogRing.reset : LogRing := { next := 1, entries := [] }

/-- Chandler at command-ready. -/
def MgmtSt.reset (avs : Nat) : MgmtSt :=
  { units := UnitTable.reset, errors := LogRing.reset, events := LogRing.reset,
    monitors := Vector.ofFn (fun i => Monitor.reset avs i.val), policy := Policy.reset, fw := Firmware.reset,
    smb := SmbSt.reset, pair := PairSt.reset, replaced := 0, avsRun := 0 }

end Sys2Proof.Machine
end

