-- ==== Sys2Proof/Machine/StateOut.lean ====
section
/-!
DEFINITION. What leaves the device: writes to host memory, interrupts, read data, cells on lanes, pins, messages and flash
writes. State keeps them newest first in one list; it is the model's own record of the device's outputs (log 2).
-/
namespace Sys2Proof.Machine

/-- A control or timing cell sent on a lane or channel: the kind of its payload and its fields. -/
inductive Out where
  | hostWrite (addr : Nat) (data : List Byte)
  | msix (vector : Nat)
  | readData (value : Nat)
  | readBytes (data : List Byte)
  | unsupportedRequest
  | poisonedCompletion (data : List Byte)
  | aer (correctable : Bool)
  | hubCell (cam : Nat) (op seq : Nat) (payload : List Byte)
  | peerCell (chan : Nat) (kind : Nat) (payload : List Byte)
  | egressCell (chan stream kind : Nat) (payload : List Byte)
  | trainCell (lane : Nat) (kind : Nat) (payload : List Byte)
  | pin (n : Nat) (level : Bool)
  | pinInput (n : Nat)
  | alertLow (low : Bool)
  | thermTrip
  | smbus (data : List Byte)
  | mctp (data : List Byte)
  | ptp (port : Nat) (kind : Nat) (seq : Nat) (time corr : Int)
  | ethFrame (port : Nat) (data : List Byte)
  | flashWrite (region : Nat) (data : List Byte)
  | audioOut (port : Nat) (samples : List (Option Int))
  | mirror (cam : Nat) (m : Option Mirror)
  | allHighZ
deriving DecidableEq, Repr

end Sys2Proof.Machine
end

