-- ==== Sys2Proof/Machine/StateRec.lean ====
section
/-!
DEFINITION. The state of the Cooper engines and of the recording sessions (chapter 09): jobs and what each engine holds; and per session
its sources, the records not yet staged, the staging ring, the sinks, the pre-roll store and the counters.
-/
namespace Sys2Proof.Machine

/-- What a Cooper job is for: a command, or the slot of a tap source of a recording session and its attempt (R253). -/
inductive CmpWhy where
  | command (by_ : CmdRef) (expand : Bool)
  | tap (session : Handle) (source fn : Nat) (attempt : Nat)
deriving DecidableEq, Repr

/-- A Cooper job (Table 09-2): addresses and lengths of source and destination, MODE, LEVEL and BLOCK_LOG2. -/
structure CmpJob where
  why    : CmpWhy
  src    : Nat
  srcLen : Nat
  dst    : Nat
  dstLen : Nat
  mode   : Nat
  level  : Nat
  log2   : Nat
deriving DecidableEq, Repr

/-- The Cooper engines: the queue jobs in dispatch order, those whose engine has failed first, and the job that each engine holds. -/
structure CmpSt where
  queue   : List CmpJob
  engines : Vector (Option CmpJob) 4
deriving DecidableEq, Repr

/-- A record before it is framed: TYPE, STREAM, header flags, RUN, FN, time in 2^-16 ns, and payload. idrs lists the sources that decode from it: that of
an IDR AU, or those whose first sample in a fragment is an IDR. -/
structure RecOut where
  type    : Nat
  stream  : Nat
  flags   : Nat
  run     : Nat
  fn      : Nat
  time    : Nat
  payload : List Byte
  idrs    : List Nat
deriving DecidableEq, Repr

/-- What waits at a source other than ENCODE: a ledger record by camera and FN, a tap slot by its address and size with what its Cooper job has produced, a
gap with its cause, or an audio block. -/
inductive RecPend where
  | ledger (cam fn run time : Nat)
  | tap (fn run addr size time deadline : Nat) (data : Option (List Byte)) (attempt : Nat)
  | gap (first last cause run time : Nat)
  | audio (addr len time : Nat)
deriving DecidableEq, Repr

/-- A source of a session (Table 09-5). reached is the time up to which its records are written, lastFn the last FN written, filledTo the time up to which
GAP or FILLED records stand for it. -/
structure RecSrc where
  entry    : List Byte
  pend     : List RecPend
  head     : List Byte
  reached  : Nat
  lastFn   : Option Nat
  filledTo : Nat
  gone     : Bool
  rtpSeq   : Nat
  packets  : Word
  octets   : Word
deriving DecidableEq, Repr

/-- A record in the pre-roll store: its place, the record, and whether it has gone to the staging ring. -/
structure StoreRec where
  off : Nat
  len : Nat
  rec_ : RecOut
  sent : Bool
deriving DecidableEq, Repr

/-- A record in the staging ring that its sink has not taken: the position after it, its bytes, and the record. -/
structure Staged where
  stop  : RingPos
  bytes : List Byte
  rec_  : RecOut
deriving DecidableEq, Repr

/-- A sample of a fragment in assembly (R259): source, exposure time in 2^-16 ns, whether it is an IDR, the access unit and its ledger record. -/
structure FragSample where
  source : Nat
  time   : Nat
  idr    : Bool
  au     : List Byte
  ledger : List Byte
deriving DecidableEq, Repr

/-- An event window (R260), in ns; opened once its start has come and its pre-roll is copied. -/
structure EventWin where
  start  : Nat
  stop   : Nat
  opened : Bool
deriving DecidableEq, Repr

/-- The counters of page 0x28 (R264), without the store's span. -/
structure RecCounters where
  (records gaps filled late fullRetry fullRaw rawStored poisoned : Word)
  (events prerollShort datagrams discarded : Word)
  bytes  : Nat
  waitMs : Nat
deriving DecidableEq, Repr

/-- A recording session. backlog holds records formed by the session itself and not yet staged. -/
structure RecSession where
  handle   : Handle
  blk      : List Byte
  buf      : Handle
  base     : Nat
  openNs   : Nat
  sources  : List RecSrc
  backlog  : List RecOut
  wr       : RingPos
  rd       : RingPos
  staged   : List Staged
  seq      : Nat
  armed    : Bool
  sinkWr   : RingPos
  sinkRd   : RingPos
  ethSeq   : Nat
  storeOff : Nat
  store    : List StoreRec
  windows  : List EventWin
  events   : Nat
  frag     : List FragSample
  fragFrom : Nat
  marks    : List Nat
  lastInit : Nat
  waitFrom : Option Nat
  closing  : Option (Option CmdRef)
  cnt      : RecCounters
deriving DecidableEq, Repr

/-- Counters of zero. -/
def RecCounters.zero : RecCounters :=
  { records := 0, gaps := 0, filled := 0, late := 0, fullRetry := 0, fullRaw := 0, rawStored := 0, poisoned := 0, events := 0,
    prerollShort := 0, datagrams := 0, discarded := 0, bytes := 0, waitMs := 0 }

/-- The engines idle. -/
def CmpSt.reset : CmpSt := { queue := [], engines := Vector.replicate 4 none }

end Sys2Proof.Machine
end

