-- ==== Sys2Proof/Machine/StateTime.lean ====
section
/-!
DEFINITION. The state of the time base (chapter 14): the counter, its increment and rate, the servo, the mode block, the PTP
ports, the compare and capture units, and the event pins.
-/
namespace Sys2Proof.Machine

/-- The port states of IEEE 1588-2019 (R379, R390). The numbers of the log page are those of that standard: PRESUMED (log 12). -/
inductive PortState where
  | notPtp | listening | master | passive | uncalibrated | slave | disabled
deriving DecidableEq, Repr, Inhabited

/-- The mode block in force (Table 14-5), 0 fields replaced by the values they select. -/
structure TimeMode where
  role       : Nat
  profile    : Nat
  oneStep    : Bool
  tcEn       : Bool
  stepLocked : Bool
  corr       : Nat
  transport  : Nat
  ports      : Nat
  domain     : Nat
  priority1  : Nat
  priority2  : Nat
  clockClass : Nat
  clockAcc   : Nat
  logSync    : Int
  logDelay   : Int
  logAnn     : Int
  annTimeout : Nat
  stepThresh : Nat
  maxRate    : Nat
  kp         : Nat
  ki         : Nat
  srcIp      : Word
deriving DecidableEq, Repr

/-- A two-step measurement that waits for its follow-up: sequence, arrival stamp (2^-16 ns), correction of the event message. -/
structure AwaitFollow where
  seq  : Nat
  t2   : Int
  corr : Int
deriving DecidableEq, Repr

/-- A delay or peer delay request that this device sent: sequence, t1 or t3 (2^-16 ns), and for a peer delay the responder's
receipt stamp and our arrival stamp once known. -/
structure AwaitDelay where
  seq     : Nat
  tx      : Int
  rxPeer  : Option Int
  arrival : Int
  corr    : Int
deriving DecidableEq, Repr

/-- One PTP port (Table 14-13). -/
structure PtpPort where
  state      : PortState
  linkDelay  : Word
  syncRx     : Word
  syncTx     : Word
  delayRx    : Word
  announceRx : Word
  discarded  : Word
  seqSync    : Half
  seqDelay   : Half
  follow     : Option AwaitFollow
  delay      : Option AwaitDelay
  lastSync   : Option (Int × Int)
  best       : Option Announce
  eventsThisSecond : Nat
  secondStart : Nat
deriving DecidableEq, Repr

/-- A pulse on a pin: the tick at which it ends, and the pin it is on. -/
structure Pulse where
  endTick : Nat
  pin     : Nat
deriving DecidableEq, Repr

/-- A compare unit TC0 to TC31 (Table 14-8). first is the first event time in ns, next the index of the next event. -/
structure CompareUnit where
  handle   : Handle
  periodic : Bool
  pol      : Bool
  pin      : Nat
  pulseNs  : Nat
  first    : Nat
  period   : Nat
  count    : Nat
  next     : Nat
  outputs  : Nat
  done     : Bool
  pulse    : Option Pulse
  plan     : Option Nat
deriving DecidableEq, Repr

/-- A capture unit TX0 to TX31 (Table 14-9). -/
structure CaptureUnit where
  handle  : Handle
  edge    : Nat
  pin     : Nat
  buf     : Handle
  ringOff : Nat
  records : Nat
  seq     : Word
  last    : Option Nat
  overrun : Bool
deriving DecidableEq, Repr

/-- The owner of an event pin (R388). -/
inductive PinOwner where
  | free
  | compare (unit : Nat)
  | capture (unit : Nat)
  | plan (cam : Nat)
deriving DecidableEq, Repr, Inhabited

/-- An event pin: owner, level driven, and whether it is released at the end of the pulse in progress (R386). -/
structure EvtPin where
  owner   : PinOwner
  level   : Bool
  release : Bool
deriving DecidableEq, Repr

/-- The correction of a two-step event message that has left by a port and whose follow-up has not (R383): egress port, source port
identity, domain, sequence, kind, and the correction in 2^-16 ns. -/
structure TcHeld where
  port   : Nat
  src    : Nat
  domain : Nat
  seq    : Nat
  kind   : Nat
  corr   : Int
deriving DecidableEq, Repr

/-- The rate ratio of a domain's grandmaster to the counter, num over den (R383), and the Sync it was last measured at: sequence,
its origin time once known, its ingress stamp and the sum of the steps there, in 2^-16 ns. -/
structure TcRatio where
  domain : Nat
  num    : Int
  den    : Int
  seq    : Nat
  origin : Option Int
  ingress : Int
  prev   : Option (Int × Int)
deriving DecidableEq, Repr

/-- The saved RATE of a TIME_ADJUST_RATE with a DURATION (R376). -/
structure RateRestore where
  rate : Int
  due  : Nat
deriving DecidableEq, Repr

/-- The time base. ticks counts TCLK cycles since power-up; now is the counter in 2^-32 ns and sub its rest in 10^-12 of
that; offset is in 2^-16 ns and meanDelay in 2^-16 ns; acc and rate are in 10^-12. -/
structure TimeSt where
  ticks      : Nat
  now        : Nat
  sub        : Nat
  incr       : Nat
  rate       : Int
  stepGen    : Nat
  stepped    : Bool
  holdover   : Bool
  locked     : Bool
  lockRun    : Nat
  paramErr   : Bool
  offset     : Int
  meanDelay  : Nat
  measSeq    : Word
  asym       : Vector Word 4
  linkAsym   : Vector Word 32
  latchSec   : Nat
  latchHi    : Nat
  mode       : TimeMode
  acc        : Int
  restore    : Option RateRestore
  ports      : Vector PtpPort 4
  gm         : Option Announce
  ratio      : List TcRatio
  stepSum    : Int
  compare    : Vector (Option CompareUnit) 32
  capture    : Vector (Option CaptureUnit) 32
  pins       : Vector EvtPin 32
  held       : List TcHeld
  ltStep     : Vector Bool 32
  ltRotated  : Vector Bool 32
  ltSeq      : Vector Half 32
  steps      : Word
  lockLosses : Word
  skipped    : Word
  late       : Word
  tcForwarded : Word
  tcDiscarded : Word
deriving DecidableEq, Repr

/-- A port that is no PTP port. -/
def PtpPort.reset : PtpPort :=
  { state := .notPtp, linkDelay := 0, syncRx := 0, syncTx := 0, delayRx := 0, announceRx := 0, discarded := 0,
    seqSync := 0, seqDelay := 0, follow := none, delay := none, lastSync := none, best := none,
    eventsThisSecond := 0, secondStart := 0 }

/-- No mode: ROLE OFF, SOFTWARE correction, and the values that zero fields select (Table 14-5). The interval and data set
fields have no reset value in the manual: DESIGN CHOICE 0 (log 9). -/
def TimeMode.reset : TimeMode :=
  { role := 0, profile := 0, oneStep := false, tcEn := false, stepLocked := false, corr := 0, transport := 0, ports := 0,
    domain := 0, priority1 := 0, priority2 := 0, clockClass := 0, clockAcc := 0, logSync := 0, logDelay := 0, logAnn := 0,
    annTimeout := 2, stepThresh := 100000, maxRate := 200000000, kp := 0x0B33, ki := 0x04CD, srcIp := 0 }

/-- The time base at reset: the counter starts at zero (R370), INCR nominal (Table 14-1). -/
def TimeSt.reset : TimeSt :=
  { ticks := 0, now := 0, sub := 0, incr := 0x280000000, rate := 0, stepGen := 0, stepped := false, holdover := false,
    locked := false, lockRun := 0, paramErr := false, offset := 0, meanDelay := 0, measSeq := 0,
    asym := Vector.replicate 4 0, linkAsym := Vector.replicate 32 0, latchSec := 0, latchHi := 0,
    mode := TimeMode.reset, acc := 0, restore := none, ports := Vector.replicate 4 PtpPort.reset, gm := none,
    ratio := [], stepSum := 0, compare := Vector.replicate 32 none, capture := Vector.replicate 32 none,
    pins := Vector.replicate 32 { owner := .free, level := false, release := false }, held := [],
    ltStep := Vector.replicate 32 false, ltRotated := Vector.replicate 32 false, ltSeq := Vector.replicate 32 0,
    steps := 0, lockLosses := 0, skipped := 0, late := 0, tcForwarded := 0, tcDiscarded := 0 }

end Sys2Proof.Machine
end

