-- ==== Sys2Proof/Machine/State.lean ====
section
/-!
DEFINITION. The state of the machine: every subsystem's state, the queue of waiting commands, and the model's own fields
(the outputs, the counter of free values). Plain data throughout.
-/
namespace Sys2Proof.Machine

/-- Why the machine stops with a fault. No rule of the manual stops the part as a whole, so nothing raises one; the one
constructor keeps the type inhabited. Safe. -/
inductive Fault where
  /-- Raised by nothing: the manual gives every command and event an effect. Safe. -/
  | none
deriving DecidableEq, Repr

/-- Why the machine refuses a command or event. -/
inductive Refusal where
  /-- Raised by an arm of the dispatch whose command has no meaning yet. Safe. -/
  | notModelled (mnemonic : String)
deriving DecidableEq, Repr

/-- The identity of the part (Tables 00-1, 02-18): variant, place in a KX-4896D, and the fused values. -/
structure Device where
  isD     : Bool
  inst    : Nat
  serial  : List Byte
  macBase : Nat
  avs     : Nat
deriving DecidableEq, Repr

/-- The numbering of the handles of one type (R4, R6): the place of the next number, and the numbers that the numbering passes over because their
object was still live when they came near. -/
structure HandleNo where
  next : Nat
  held : List Nat
deriving DecidableEq, Repr, Inhabited

/-- A numbering that has issued nothing. -/
def HandleNo.fresh : HandleNo := { next := 0, held := [] }

/-- The state of the machine. -/
structure State where
  pending : List Instr
  fresh   : Nat
  out     : List Out
  issued  : Vector HandleNo 16
  dev     : Device
  host    : HostSt
  mem     : MemSt
  mgmt    : MgmtSt
  power   : PowerSt
  time    : TimeSt
  lanes   : LanesSt
  cams    : CamsSt
  encs    : List EncSession
  dec     : DecSt
  cmp     : CmpSt
  recs    : List RecSession
  aud     : AudSt
  disp    : DispSt
  jm      : JmSt
  fab     : FabSt
deriving DecidableEq, Repr

/-- The identity at reset: a KX-4896. The fused values are DESIGN CHOICE 0 (log 10). -/
def Device.reset : Device :=
  { isD := false, inst := 0, serial := List.replicate 10 0, macBase := 0, avs := 0 }

/-- The machine right after reset: power-up and boot have run to command-ready (R447, R452), nothing exists, EN is 0. -/
def State.reset : State :=
  { pending := [], fresh := 0, out := [], issued := Vector.replicate 16 HandleNo.fresh, dev := Device.reset,
    host := HostSt.reset, mem := MemSt.reset, mgmt := MgmtSt.reset 0, power := PowerSt.reset, time := TimeSt.reset,
    lanes := LanesSt.reset false, cams := CamsSt.reset, encs := [], dec := DecSt.reset, cmp := CmpSt.reset, recs := [], aud := AudSt.reset, disp := DispSt.reset, jm := JmSt.reset, fab := FabSt.reset }

end Sys2Proof.Machine
end

