-- ==== Sys2Proof/Machine/Ops.lean ====
section
/-!
DEFINITION. The named operations over memory, logs, events, handles, queues and units that the meanings share.
-/
namespace Sys2Proof.Machine

/-- Applies a function to the host interface. -/
def State.mapHost (f : HostSt → HostSt) (s : State) : State := { s with host := f s.host }
/-- Applies a function to the memory system. -/
def State.mapMem (f : MemSt → MemSt) (s : State) : State := { s with mem := f s.mem }
/-- Applies a function to Chandler's state. -/
def State.mapMgmt (f : MgmtSt → MgmtSt) (s : State) : State := { s with mgmt := f s.mgmt }
/-- Applies a function to the power and boot state. -/
def State.mapPower (f : PowerSt → PowerSt) (s : State) : State := { s with power := f s.power }
/-- Applies a function to the time base. -/
def State.mapTime (f : TimeSt → TimeSt) (s : State) : State := { s with time := f s.time }
/-- Adds an output, newest first. -/
def State.emit (o : Out) (s : State) : State := { s with out := o :: s.out }
/-- Advances the counter of free values. -/
def State.tickFresh (s : State) : State := { s with fresh := s.fresh + 1 }

/-! ## Memory -/

/-- Writes one byte into the canonical list of cells: rising addresses, no byte equal to the byte of an unlisted address (0, log 3). -/
def setCell : List Host.Cell → Nat → Byte → List Host.Cell
  | [], a, b => if b = 0 then [] else [(a, b)]
  | (x, y) :: rest, a, b =>
    if x < a then (x, y) :: setCell rest a b
    else if x = a then (if b = 0 then rest else (a, b) :: rest)
    else if b = 0 then (x, y) :: rest
    else (a, b) :: (x, y) :: rest

/-- Reads one byte of the cells; an unlisted address reads 0 (log 3). -/
def getCell : List Host.Cell → Nat → Byte
  | [], _ => 0
  | (x, y) :: rest, a => if x = a then y else getCell rest a

/-- Writes a list of bytes from an address. -/
def setCells : List Host.Cell → Nat → List Byte → List Host.Cell
  | cs, _, [] => cs
  | cs, a, b :: bs => setCells (setCell cs a b) (a + 1) bs

/-- Clears a range of bytes. -/
def clearCells (cs : List Host.Cell) (a n : Nat) : List Host.Cell := cs.filter (fun c => c.1 < a || a + n ≤ c.1)

/-- Adds a line number to the rising list of marked lines. -/
def addMark : List Nat → Nat → List Nat
  | [], l => [l]
  | x :: rest, l => if x < l then x :: addMark rest l else if x = l then x :: rest else l :: x :: rest

/-- Whether the canonical form holds: cells rising with no zero byte, marks rising. -/
def risingCells : List Host.Cell → Bool
  | [] => true
  | [c] => c.2 != 0
  | c :: d :: rest => c.2 != 0 && c.1 < d.1 && risingCells (d :: rest)

/-- Whether a list of line numbers is strictly rising. -/
def risingNats : List Nat → Bool
  | [] => true
  | [_] => true
  | a :: b :: rest => a < b && risingNats (b :: rest)

/-- The canonical form of the memory. -/
def Memory.wf (m : Memory) : Bool := risingCells m.cells && risingNats m.marks

/-- Reads one byte. -/
def Memory.byte (m : Memory) (a : Nat) : Byte := getCell m.cells a

/-- Reads n bytes from an address. -/
def Memory.read (m : Memory) (a : Nat) : Nat → List Byte
  | 0 => []
  | n + 1 => m.byte a :: m.read (a + 1) n

/-- Whether the 64-byte line of an address carries a poison mark (R332). -/
def Memory.marked (m : Memory) (a : Nat) : Bool := m.marks.contains (a / 64)

/-- The marked lines that a range touches, rising. -/
def Memory.marksIn (m : Memory) (a n : Nat) : List Nat :=
  if n = 0 then [] else m.marks.filter (fun l => a / 64 ≤ l && l ≤ (a + n - 1) / 64)

/-- The first marked line that a range touches, as an address (R50, R466). -/
def Memory.poisonIn (m : Memory) (a n : Nat) : Option Nat := (m.marksIn a n).head?.map (· * 64)

/-- Whether a range covers a whole line. -/
def coversLine (a n l : Nat) : Bool := a ≤ l * 64 && l * 64 + 64 ≤ a + n

/-- A write of bytes: whole lines lose their marks, lines written in part keep them (R332). -/
def Memory.write (m : Memory) (a : Nat) (bs : List Byte) : Memory :=
  { cells := setCells m.cells a bs, marks := m.marks.filter (fun l => !coversLine a bs.length l) }

/-- A write of n zero bytes from an address. -/
def Memory.zero (m : Memory) (a n : Nat) : Memory :=
  { cells := clearCells m.cells a n, marks := m.marks.filter (fun l => !coversLine a n l) }

/-- Marks a line (R332). -/
def Memory.mark (m : Memory) (l : Nat) : Memory := { m with marks := addMark m.marks l }

/-- Marks every line of a list. -/
def Memory.markAll (m : Memory) (ls : List Nat) : Memory := ls.foldl Memory.mark m

/-- Removes the mark of a line. -/
def Memory.unmark (m : Memory) (l : Nat) : Memory := { m with marks := m.marks.filter (· != l) }

/-- Reads n bytes of device memory. -/
def State.readMem (s : State) (a n : Nat) : List Byte := s.mem.mem.read a n
/-- Writes bytes to device memory. -/
def State.writeMem (s : State) (a : Nat) (bs : List Byte) : State := s.mapMem (fun m => { m with mem := m.mem.write a bs })
/-- A range whose contents the manual leaves undefined: every byte is free. -/
def State.undefine (a n : Nat) (s : State) : State :=
  (s.writeMem a ((List.range n).map (fun i => Config.freeByte s.fresh i))).tickFresh

/-- Marks the lines of a range of device memory. -/
def State.markMem (s : State) (a n : Nat) : State :=
  if n = 0 then s
  else s.mapMem (fun m => { m with mem := m.mem.markAll ((List.range ((a + n - 1) / 64 + 1 - a / 64)).map (· + a / 64)) })

/-! ## Time -/

/-- The counter in nanoseconds (R370). -/
def TimeSt.ns (t : TimeSt) : Nat := t.now / 2 ^ 32
/-- The counter in nanoseconds. -/
def State.ns (s : State) : Nat := s.time.ns
/-- The seconds field of a time in nanoseconds, 48 bits. -/
def secOf (ns : Nat) : Nat := ns / 1000000000 % 2 ^ 48
/-- The nanoseconds field of a time in nanoseconds. -/
def nsOf (ns : Nat) : Nat := ns % 1000000000
/-- The 16-bit fraction of the counter, in 2^-16 ns (R370). -/
def TimeSt.frac (t : TimeSt) : Nat := t.now % 2 ^ 32 / 2 ^ 16
/-- The counter in 2^-16 ns. -/
def TimeSt.stamp (t : TimeSt) : Nat := t.now / 2 ^ 16
/-- TCLK ticks of a number of microseconds: 400 per microsecond (Table 01-2). -/
def ticksOfUs (us : Nat) : Nat := us * 400

/-! ## Logs -/

/-- The numbers of the status codes (Table 02-11). -/
def Status.code : Status → Nat
  | .ok => 0x0000
  | .okAdjusted => 0x0001
  | .invalidOpcode => 0x0100
  | .invalidParam => 0x0101
  | .invalidHandle => 0x0102
  | .conflict => 0x0103
  | .budgetExceeded => 0x0104
  | .notReady => 0x0105
  | .accessViolation => 0x0106
  | .tooLate => 0x0107
  | .aborted => 0x0200
  | .flushed => 0x0201
  | .outputFull => 0x0300
  | .dataPoisoned => 0x0301
  | .checkMismatch => 0x0302
  | .hardwareFault => 0x0400
  | .unitFenced => 0x0401
  | .firmwareRejected => 0x0500

/-- What an entry of a log says besides its sequence number and time stamp (Table 16-10). -/
structure LogInfo where
  source : Nat := 0
  code   : Nat := 0
  epoch  : Nat := 0
  unit   : Handle := 0
  sqId   : Nat := 0x3F
  reason : Nat := 0
  cid    : Half := 0
  opcode : Half := 0
  addr   : Nat := 0
  detail : List Nat := []
deriving DecidableEq, Repr

/-- A log entry about a command, where there is one: its queue, CID and opcode (Table 16-10). -/
def LogInfo.about (r : Option CmdRef) (i : LogInfo) : LogInfo :=
  match r with
  | some r => { i with sqId := r.qid.val, cid := r.cid, opcode := BitVec.ofNat 16 r.op.code }
  | none => i

/-- The entry of a log with its sequence number and the time of now. -/
def mkEntry (seq : Nat) (t : TimeSt) (i : LogInfo) : LogEntry :=
  { seq := BitVec.ofNat 32 seq, tsS := secOf t.ns, stepGen := t.stepGen, source := i.source, tsNs := nsOf t.ns,
    code := i.code, epoch := i.epoch, unit := i.unit, sqId := i.sqId, reason := i.reason, cid := i.cid,
    opcode := i.opcode, addr := i.addr, detail := i.detail, at_ := t.ticks }

/-- Adds an entry to a ring of n entries; the oldest is overwritten (R417). -/
def LogRing.add (r : LogRing) (n : Nat) (e : LogEntry) : LogRing :=
  { next := (r.next + 1) % 2 ^ 32, entries := (if r.entries.length < n then r.entries else r.entries.drop 1) ++ [e] }

/-- Makes an error log entry (R417) and sets ERR in KX_MGMT_SMB_STATUS (Table 16-16). -/
def State.logError (i : LogInfo) (s : State) : State :=
  s.mapMgmt (fun m => { m with errors := m.errors.add Config.errorLogMax (mkEntry m.errors.next s.time i),
                               smb := { m.smb with err := true } })

/-- Makes an event log entry (R417). -/
def State.logEvent (i : LogInfo) (s : State) : State :=
  s.mapMgmt (fun m => { m with events := m.events.add Config.eventLogMax (mkEntry m.events.next s.time i) })

/-- The sequence number of the last error log entry. -/
def State.errSeq (s : State) : Nat := s.mgmt.errors.next - 1

/-! ## Completions and asynchronous events -/

/-- The queue of a command. -/
def State.queue (s : State) (q : Fin 64) : Queue := s.host.queues[q]

/-- Applies a function to one queue. -/
def State.mapQueue (q : Fin 64) (f : Queue → Queue) (s : State) : State :=
  s.mapHost (fun h => { h with queues := h.queues.set q (f h.queues[q]) })

/-- The type numbers of Table 02-14B. -/
def EvType.code : EvType → Nat
  | .errorLogged => 0x01
  | .tallyOverflow => 0x02
  | .unitReplaced => 0x03
  | .unitFenced => 0x04
  | .livePathFallback => 0x05
  | .livePathRestored => 0x06
  | .frameDone => 0x07
  | .frameDropped => 0x08
  | .thermal => 0x09
  | .laneMargin => 0x0A
  | .fwActivated => 0x0B
  | .pairFailover => 0x0C
  | .powerState => 0x0D
  | .doorbellInvalid => 0x0E
  | .queueHalted => 0x0F

/-- Whether a command in flight is the one named. -/
def Flying.is (r : CmdRef) (f : Flying) : Bool := f.ref.cid == r.cid && f.ref.op == r.op

/-- A command is no longer in flight on its queue. -/
def Queue.landed (r : CmdRef) (q : Queue) : Queue := { q with inFlight := dropFirst (Flying.is r) q.inFlight }

/-- Whether a command in flight has been told to stop at its next safe point (R55). -/
def State.stopping (s : State) (r : CmdRef) : Bool := (s.queue r.qid).inFlight.any (fun f => Flying.is r f && f.stop)

/-- Adds an entry to the orphan page, or counts it beyond the last and logs it (R68). -/
def State.addOrphan (q : Fin 64) (op : Half) (cid : Half) (st : Status) (r0 r1 : Word) (logged : Bool) (s : State) : State :=
  let o := s.host.orphans
  if o.entries.length < Config.orphanMax then
    s.mapHost (fun h => { h with orphans := { o with entries := o.entries ++
      [{ r0 := r0, r1 := r1, sqHead := 0, qid := q, logged := logged, cid := cid, status := st }] } })
  else
    (s.mapHost (fun h => { h with orphans := { o with overflow := min (o.overflow + 1) (2 ^ 32 - 1) } })).logError
      { code := st.code, sqId := q.val, cid := cid, opcode := op }

/-- A completion becomes ready on its queue, in the order of completion (R41, R68). -/
def State.pushReady (q : Fin 64) (r : Ready) (s : State) : State :=
  (s.mapQueue q (fun x => { x with ready := x.ready ++ [r] })).mapHost (fun h => { h with ended := h.ended ++ [(q, r.cid)] })

/-- Whether a queue is being reset to the point where commands on it end (R54). -/
def Queue.resetting (q : Queue) : Bool := (q.reset.map (fun r => !r.done)).getD false

/-- Counts an ABORTED command in RESULT0 of the reset of its queue (R56). -/
def Queue.countAborted (n : Nat) (q : Queue) : Queue := { q with reset := q.reset.map (fun r => { r with count := r.count + n }) }

/-- A command finishes: its range locks are released (R52), and its completion is ready to be written on its queue, or joins the orphan page when the queue was
deleted by a host-interface reset (R68, R465). A command that is no longer in flight, its completion written or lost before, adds none. -/
def State.finish (r : CmdRef) (st : Status) (r0 r1 : Nat) (logged : Bool) (s : State) : State :=
  let w0 := BitVec.ofNat 32 r0
  let w1 := BitVec.ofNat 32 r1
  let code := BitVec.ofNat 16 r.op.code
  if s.host.orphanRun.any (fun f => f.ref == r) then
    (s.mapHost (fun h => { h with
      orphanRun := dropFirst (fun f => f.ref == r) h.orphanRun, orphansFlag := true,
      locks := h.locks.filter (fun l => !(l.qid == r.qid && l.cid == r.cid)) })).addOrphan r.qid code r.cid st w0 w1 logged
  else
    match (s.queue r.qid).inFlight.find? (Flying.is r) with
    | none => s
    | some f =>
      let t := s.mapQueue r.qid (fun q =>
        Queue.landed r (if st = .aborted then q.countAborted 1 else q))
      let t := t.mapHost (fun h => { h with locks := h.locks.filter (fun l => !(l.qid == r.qid && l.cid == r.cid)) })
      t.pushReady r.qid { ent := f.ent, op := code, cid := r.cid, flags := r.flags, status := st, r0 := w0, r1 := w1, logged := logged, held := false }

/-- A command, where there is one, finishes. -/
def State.finishOpt (r : Option CmdRef) (st : Status) (r0 r1 : Nat) (logged : Bool) (s : State) : State :=
  match r with
  | some r => s.finish r st r0 r1 logged
  | none => s

/-- Keeps a command in flight on its queue (R465); one that outlives a host-interface reset is among the orphans already (R68). -/
def State.keepInFlight (r : CmdRef) (s : State) : State :=
  if s.host.orphanRun.any (fun f => f.ref == r) then s
  else s.mapQueue r.qid (fun q =>
    if q.inFlight.any (Flying.is r) then q else { q with inFlight := q.inFlight ++ [{ ent := q.submitted, ref := r }] })

/-- A command that has run ends at once: it is in flight, and finishes. -/
def State.complete (r : CmdRef) (st : Status) (r0 r1 : Nat) (logged : Bool) (s : State) : State :=
  (s.keepInFlight r).finish r st r0 r1 logged

/-- RESULT0 of an ASYNC_EVENT_REQUEST completion (R60). The count holds every event of the entry, the first among them (DESIGN CHOICE, log 60), as
R49 has it of FRAME_DONE, where it is the number of frames closed since the last delivery. -/
def asyncResult (ty : EvType) (lost : Bool) (merged : Nat) : Nat := ty.code + 2 ^ 15 * bit01 lost + 2 ^ 16 * merged

/-- Posts an asynchronous event: it merges into a waiting entry, completes a request, which ends an idle period (R65), waits in the queue,
or is discarded (R59, R60). -/
def State.post (ty : EvType) (detail : Word) (s : State) : State :=
  if s.host.held.any (fun e => e.type == ty && e.detail == detail) then
    s.mapHost (fun h =>
      let more (e : HeldEvent) : HeldEvent := { e with merged := min (e.merged + 1) 0xFFFF }
      { h with held := updWhere (fun e => e.type == ty && e.detail == detail) more h.held })
  else
    match s.host.async with
    | r :: rest =>
      (s.mapHost (fun h => { h with async := rest, heldLost := false, expired := noneExpired })).finish r .ok
        (asyncResult ty s.host.heldLost 1) detail.toNat false
    | [] =>
      if s.host.held.length < Config.heldMax then
        s.mapHost (fun h => { h with held := h.held ++ [{ type := ty, detail := detail, merged := 1 }] })
      else s.mapHost (fun h => { h with heldLost := true })

/-- Makes an error log entry and posts ERROR_LOGGED with its sequence number (Table 02-14B). -/
def State.logErrorPost (i : LogInfo) (s : State) : State :=
  let t := s.logError i
  t.post .errorLogged (BitVec.ofNat 32 t.errSeq)

/-- Signals an MSI-X vector: the interrupt leaves, or is pending while the vector is masked (R61). -/
def State.signal (v : Nat) (s : State) : State :=
  if (vget s.host.msix { addr := 0, data := 0, ctrl := 1 } v).ctrl.getLsbD 0 then
    s.mapHost (fun h => { h with pba := vmod h.pba v (fun _ => true) })
  else s.emit (.msix v)

/-! ## Handles -/

/-- The type of a handle (R4). -/
def typeOf (h : Handle) : Nat := h.toNat / 2 ^ 28

/-- The numbers of one type: bits 25:0 of a handle, 0 left out. -/
def handleSpan : Nat := 2 ^ 26 - 1

/-- The handle of a type, an instance and a place in the numbering: bits 27:0 are assigned by the device (R4). Bit 27 is set for a claimed unit (R407),
bit 26 is the instance, so that a handle of the other instance never names an object here (R5), and bits 25:0 count from 1 (log 5). -/
def mkHandle (ty inst n : Nat) : Handle :=
  BitVec.ofNat 32 (ty * 2 ^ 28 + (if ty = 0xA then 2 ^ 27 else 0) + inst % 2 * 2 ^ 26 + (1 + n % handleSpan))

/-- The next handle of a type. -/
def State.nextHandle (s : State) (ty : Nat) : Handle := mkHandle ty s.dev.inst (vget s.issued HandleNo.fresh ty).next

/-- How far ahead the numbering looks for objects that are still live: 2^20 handles of R6, and room for as many numbers passed over. -/
def handleAhead : Nat := 2 ^ 21

/-- The numbering moves on by one place; a number that comes near and is still live is passed over in this round, so that no value is issued until
2^20 further handles have been since it was freed (R6). -/
def HandleNo.step (live : Nat → Bool) (x : HandleNo) : HandleNo :=
  let near := (x.next + handleAhead) % handleSpan
  { next := (x.next + 1) % handleSpan, held := x.held.filter (· != x.next) ++ (if live near then [near] else []) }

/-- The numbering moves past the numbers that are held. -/
def HandleNo.pass (live : Nat → Bool) : Nat → HandleNo → HandleNo
  | 0, x => x
  | n + 1, x => if x.held.contains x.next then HandleNo.pass live n (x.step live) else x

/-- Permanent unit handle: bits 26:20 KIND, bits 15:0 index (R407). -/
def unitHandle (kind idx : Nat) : Handle := BitVec.ofNat 32 (0xA0000000 + kind * 2 ^ 20 + idx)

/-! ## Units -/

/-- The KIND of the physical units (Table 16-4). -/
def physKind : UnitKind → Nat
  | .sliceU => 0x02
  | .siteU => 0x04
  | .encU => 0x06
  | .decU => 0x07
  | .cmpU => 0x08
  | .motionU => 0x0A

/-- The KIND of the roles (Table 16-4); decoder cores and Cooper engines have none and stand for themselves. -/
def roleKind : UnitKind → Nat
  | .sliceU => 0x01
  | .siteU => 0x03
  | .encU => 0x05
  | .decU => 0x07
  | .cmpU => 0x08
  | .motionU => 0x09

/-- The physical units of a kind. -/
def UnitTable.phys (u : UnitTable) : UnitKind → List PhysUnit
  | .sliceU => u.slices.toList
  | .siteU => u.sites.toList
  | .encU => u.encs.toList
  | .decU => u.decs.toList
  | .cmpU => u.cmps.toList
  | .motionU => u.motion.toList

/-- The roles of a kind. -/
def UnitTable.roles (u : UnitTable) : UnitKind → List Role
  | .sliceU => u.sliceR.toList
  | .siteU => u.siteR.toList
  | .encU => u.encR.toList
  | .decU => u.decR.toList
  | .cmpU => u.cmpR.toList
  | .motionU => u.motionR.toList

/-- Applies a function to one physical unit. -/
def UnitTable.mapPhys (u : UnitTable) (k : UnitKind) (i : Nat) (f : PhysUnit → PhysUnit) : UnitTable :=
  match k with
  | .sliceU => { u with slices := vmod u.slices i f }
  | .siteU => { u with sites := vmod u.sites i f }
  | .encU => { u with encs := vmod u.encs i f }
  | .decU => { u with decs := vmod u.decs i f }
  | .cmpU => { u with cmps := vmod u.cmps i f }
  | .motionU => { u with motion := vmod u.motion i f }

/-- Applies a function to one role. -/
def UnitTable.mapRole (u : UnitTable) (k : UnitKind) (i : Nat) (f : Role → Role) : UnitTable :=
  match k with
  | .sliceU => { u with sliceR := vmod u.sliceR i f }
  | .siteU => { u with siteR := vmod u.siteR i f }
  | .encU => { u with encR := vmod u.encR i f }
  | .decU => { u with decR := vmod u.decR i f }
  | .cmpU => { u with cmpR := vmod u.cmpR i f }
  | .motionU => { u with motionR := vmod u.motionR i f }

/-- The next epoch: 0xFFFF is followed by 1, never by 0 (R23, R409). -/
def nextEpoch (e : Nat) : Nat := if e ≥ 0xFFFF then 1 else e + 1

/-- The unit that fills a role. -/
def UnitTable.unitOf (u : UnitTable) (k : UnitKind) (r : Nat) : Option Nat := ((u.roles k)[r]?).bind Role.unit

/-- The role that a unit holds. -/
def UnitTable.roleOf (u : UnitTable) (k : UnitKind) (p : Nat) : Option Nat := ((u.phys k)[p]?).bind PhysUnit.role

/-- The epoch of a role. -/
def UnitTable.epochOf (u : UnitTable) (k : UnitKind) (r : Nat) : Nat := (((u.roles k)[r]?).map Role.epoch).getD 0

/-- The first index of a list whose element satisfies a test. -/
def firstIdx {α : Type} (p : α → Bool) (l : List α) : Option Nat := (l.zipIdx.find? (fun x => p x.1)).map (·.2)

/-- Roles of a kind that a unit fills. -/
def UnitTable.filled (u : UnitTable) (k : UnitKind) : Nat := ((u.roles k).filter (fun r => r.unit.isSome)).length

/-- Spares of a kind. -/
def UnitTable.spares (u : UnitTable) (k : UnitKind) : Nat := ((u.phys k).filter (fun p => p.state == .spare)).length

/-- The unit of a role is declared dead (R408, R410): the role's epoch advances, the unit is fenced, and a spare takes the role
(UNIT_REPLACED), or the role is retired (ERROR_LOGGED and UNIT_LOST). -/
def State.replaceUnit (k : UnitKind) (r : Nat) (code : Nat) (s : State) : State :=
  match s.mgmt.units.unitOf k r with
  | none => s
  | some p =>
    let e := nextEpoch (s.mgmt.units.epochOf k r)
    let u1 := (s.mgmt.units.mapRole k r (fun x => { x with epoch := e, unit := none })).mapPhys k p
      (fun x => { x with state := .fenced, role := none, deaths := min (x.deaths + 1) 255 })
    let rh := unitHandle (roleKind k) r
    match firstIdx (fun x => x.state == .spare) (u1.phys k) with
    | some n =>
      let u2 := (u1.mapRole k r (fun x => { x with unit := some n })).mapPhys k n
        (fun x => { x with state := .active, role := some r, epoch := e })
      let t := (s.mapMgmt (fun m => { m with units := u2, replaced := m.replaced.satInc })).logError
        { source := 0x0E, code := code, epoch := e, unit := unitHandle (physKind k) p }
      t.post .unitReplaced rh
    | none =>
      (s.mapMgmt (fun m => { m with units := u1, smb := { m.smb with unitLost := true } })).logErrorPost
        { source := 0x0E, code := code, epoch := e, unit := unitHandle (physKind k) p }

/-- Retires a unit that stands for its own role and has no spare and no epoch (R225, R241): it is fenced, the role is empty, and ERROR_LOGGED is
posted. -/
def State.retireUnit (k : UnitKind) (i : Nat) (s : State) : State :=
  let u := (s.mgmt.units.mapRole k i (fun x => { x with unit := none })).mapPhys k i
    (fun x => { x with state := .fenced, role := none, deaths := min (x.deaths + 1) 255 })
  (s.mapMgmt (fun m => { m with units := u, smb := { m.smb with unitLost := true } })).logErrorPost
    { source := 0x0E, code := Status.hardwareFault.code, unit := unitHandle (physKind k) i }

/-- Traffic or a cell with a stale epoch is dropped without effect and logged with UNIT_FENCED (R24). -/
def State.dropStale (unit : Handle) (epoch : Nat) (s : State) : State :=
  s.logError { source := 0x0E, code := Status.unitFenced.code, unit := unit, epoch := epoch }

end Sys2Proof.Machine
end

