-- ==== Sys2Proof/Machine/Fabric.lean ====
section
/-!
DEFINITION. Fabric transactions (chapter 01): the class of a source and its promotion, the division of the tags, and how a requester's access is issued
granule by granule.
-/
namespace Sys2Proof.Machine

/-- The class that the issuing block sets from the source (R15, Table 01-5); pipe reads of layers off the live path are frame class (R271). -/
def FabSrc.cls : FabSrc → FabClass
  | .bandWrite | .livePath | .scanOut | .audio | .ledger | .egress => .live
  | .slice | .motion | .encoder | .statistics | .layer => .frame
  | .cooper | .recording | .bufCmd | .bar2 | .decoder | .journeyman | .writeback => .bulk
  | .patrol | .rowRepair | .retireCopy => .scrub

/-- The place of a source in TRAFFIC (R345): Ostler, slices, motion engine, encoders, decoders, Cooper and recording, composition, Journeyman, host, and
scrub and repair. Table 01-9 gives the ledger, the statistics and audio no group of their own: they count with Ostler and the slices, and audio with
recording (DESIGN CHOICE, log 20). -/
def FabSrc.group : FabSrc → Nat
  | .bandWrite | .ledger => 0
  | .slice | .livePath | .egress | .statistics => 1
  | .motion => 2
  | .encoder => 3
  | .decoder => 4
  | .cooper | .recording | .audio => 5
  | .scanOut | .layer | .writeback => 6
  | .journeyman => 7
  | .bufCmd | .bar2 => 8
  | .patrol | .rowRepair | .retireCopy => 9

/-- The code of a class in its tag (Table 01-3): lower is served first. -/
def FabClass.code : FabClass → Nat
  | .live => 0
  | .frame => 1
  | .bulk => 2
  | .scrub => 3

/-- Whether a class carries deadline traffic that postpones a refresh (Table 12-5). -/
def FabClass.deadline (c : FabClass) : Bool := c == .live || c == .frame

/-- The reserve of a class: its first tag and its tags (Table 01-4). Which indices the pools take is the device's own (log 20). -/
def FabClass.reserve : FabClass → Nat × Nat
  | .live => (0, 4096)
  | .frame => (4096, 16384)
  | .bulk => (20480, 8192)
  | .scrub => (28672, 256)

/-- The shared pool (Table 01-4). -/
def sharedPool : Nat × Nat := (28928, 20224)

/-- The lowest tag of a pool that is free. -/
def firstFree (used : List Nat) : Nat → Nat → Option Nat
  | _, 0 => none
  | i, n + 1 => if used.contains i then firstFree used (i + 1) n else some i

/-- The tag that a class takes: from its own reserve, else from the shared pool, and never from another class's reserve (R14). -/
def takeTag (used : List Nat) (c : FabClass) : Option Nat :=
  match firstFree used c.reserve.1 c.reserve.2 with
  | some i => some i
  | none => firstFree used sharedPool.1 sharedPool.2

/-- The class of an access at its issue: slice traffic of a frame with less than 200 µs to its deadline is promoted to live (R16). -/
def FabReq.cls (r : FabReq) (ns : Nat) : FabClass :=
  match r.due with
  | some d => if r.src.cls = .frame ∧ d < ns + 200000 then .live else r.src.cls
  | none => r.src.cls

/-- Bytes of the next granule of an access (R319). -/
def FabReq.piece (r : FabReq) : Nat := Nat.min r.len (256 - r.addr % 256)

/-- AGE: the time of issue in units of 64 FCLK cycles, modulo 4096; three FCLK cycles pass in one of TCLK (Tables 01-2, 01-3). -/
def fabAge (ticks : Nat) : Nat := ticks * 3 / 64 % 4096

/-- A requester issues the next granule of its access where a tag is free, else the access waits (R13). The second component is what is left of it. -/
def FabSt.issueOne (f : FabSt) (home : Nat → Nat) (ticks ns : Nat) (r : FabReq) : FabSt × Option FabReq :=
  let c := r.cls ns
  match takeTag (f.txns.map FabTxn.tag) c with
  | none => (f, some r)
  | some i =>
    let n := r.piece
    let t : FabTxn := { tag := i, age := fabAge ticks, cam := r.cam, cls := c, role := r.role, epoch := r.epoch, src := r.src,
                        pc := r.pc.getD (home r.addr), bytes := n, write := r.write }
    ({ f with txns := f.txns ++ [t] }, if n < r.len then some { r with addr := r.addr + n, len := r.len - n } else none)

/-- Every requester issues one granule, in the order of the accesses. -/
def FabSt.issueAll (f : FabSt) (home : Nat → Nat) (ticks ns : Nat) : FabSt :=
  let step (a : FabSt × List FabReq) (r : FabReq) : FabSt × List FabReq :=
    let x := a.1.issueOne home ticks ns r
    (x.1, a.2 ++ x.2.toList)
  let x := f.waiting.foldl step ({ f with waiting := [] }, [])
  { x.1 with waiting := x.2 }

/-- The transactions in the order in which a controller serves them: the highest class first, the oldest first within a class (R17). -/
def FabSt.inOrder (f : FabSt) : List FabTxn :=
  [FabClass.live, .frame, .bulk, .scrub].flatMap (fun c => f.txns.filter (fun t => t.cls == c))

/-- The first transaction of each pseudo-channel in a list. -/
def firstPerPc : List Nat → List FabTxn → List FabTxn
  | _, [] => []
  | seen, t :: ts => if seen.contains t.pc then firstPerPc seen ts else t :: firstPerPc (t.pc :: seen) ts

/-- What the controllers serve next, one transaction on each pseudo-channel. -/
def FabSt.nextServed (f : FabSt) : List FabTxn := firstPerPc [] f.inOrder

/-- Whether a live or frame transaction is pending on a pseudo-channel (R325). -/
def FabSt.busy (f : FabSt) (pc : Nat) : Bool := f.txns.any (fun t => t.pc == pc && t.cls.deadline)

/-- The epoch that a role has now (R23); the requesters that are no replaceable role keep 1. -/
def State.fabEpoch (s : State) : FabRole → Nat
  | .slice n => s.mgmt.units.epochOf .sliceU n
  | .encoder n => s.mgmt.units.epochOf .encU n
  | .site n => s.mgmt.units.epochOf .siteU n
  | .motion => s.mgmt.units.epochOf .motionU 0
  | .channel n => (vget s.mem.pcs PseudoChannel.reset n).epoch
  | _ => 1

/-- The unit handle of a role for a UNIT_FENCED entry. -/
def FabRole.unit : FabRole → Handle
  | .slice n => unitHandle (roleKind .sliceU) n
  | .encoder n => unitHandle (roleKind .encU) n
  | .site n => unitHandle (roleKind .siteU) n
  | .motion => unitHandle (roleKind .motionU) 0
  | .channel n => unitHandle 0x0D n
  | _ => 0

/-- Applies a function to the fabric. -/
def State.mapFab (f : FabSt → FabSt) (s : State) : State := { s with fab := f s.fab }

/-- Requesters make accesses: they wait to be issued. Empty ones make none. -/
def State.requests (rs : List FabReq) (s : State) : State :=
  s.mapFab (fun f => { f with waiting := f.waiting ++ rs.filter (fun r => r.len != 0) })

/-- An access of a source to a range of device memory, under the epoch of its role. -/
def State.access (s : State) (src : FabSrc) (role : FabRole) (cam addr len : Nat) (write : Bool) : FabReq :=
  { src := src, role := role, epoch := s.fabEpoch role, cam := cam, addr := addr, len := len, write := write }

/-- A source reads a range of device memory. -/
def State.reads (src : FabSrc) (role : FabRole) (cam addr len : Nat) (s : State) : State := s.requests [s.access src role cam addr len false]

/-- A source writes a range of device memory. -/
def State.writes (src : FabSrc) (role : FabRole) (cam addr len : Nat) (s : State) : State := s.requests [s.access src role cam addr len true]

/-- The accesses of a role under its present epoch have all completed: the unit has reported its work done. -/
def State.settleTraffic (role : FabRole) (s : State) : State :=
  let e := s.fabEpoch role
  let mineR (r : FabReq) : Bool := r.role == role && r.epoch == e
  let mineT (t : FabTxn) : Bool := t.role == role && t.epoch == e
  s.mapFab (fun f => { waiting := f.waiting.filter (fun r => !mineR r), txns := f.txns.filter (fun t => !mineT t),
                       served := f.served ++ (f.txns.filter mineT).map (fun t => { at_ := s.time.ticks, src := t.src, write := t.write, bytes := t.bytes })
                         ++ (f.waiting.filter mineR).map (fun r => { at_ := s.time.ticks, src := r.src, write := r.write, bytes := r.len }) })

/-- The CAM of a transaction that serves no frame (Table 01-3). -/
def noCam : Nat := 0xFF

/-- A controller serves a transaction: one with a stale epoch is dropped without effect and logged (R24). -/
def State.serveOne (t : FabTxn) (s : State) : State :=
  let u := s.mapFab (fun f => { f with txns := f.txns.filter (fun x => x.tag != t.tag) })
  if t.epoch = s.fabEpoch t.role then
    u.mapFab (fun f => { f with served := f.served ++ [{ at_ := s.time.ticks, src := t.src, write := t.write, bytes := t.bytes }] })
  else u.dropStale t.role.unit t.epoch

/-- One tick of the fabric: the controllers serve, then the requesters issue. In self-refresh nothing is served. home gives the pseudo-channel of an
address. The pace, one transaction of each pseudo-channel and one granule of each requester's access in a tick, is DESIGN CHOICE (log 20). -/
def State.fabTick (home : Nat → Nat) (s : State) : State :=
  if s.fab = FabSt.reset ∨ s.power.cur = .ps2 ∨ s.power.cur = .ps3 then s
  else
    let old := s.mapFab (fun f => { f with served := f.served.filter (fun d => s.time.ticks < d.at_ + 400000000) })
    let t := old.fab.nextServed.foldl (fun u x => u.serveOne x) old
    t.mapFab (fun f => f.issueAll home s.time.ticks s.ns)

/-- MB/s of a group in the last second (R345). -/
def FabSt.traffic (f : FabSt) (group : Nat) (write : Bool) (now : Nat) : Nat :=
  sumNat ((f.served.filter (fun d => d.src.group == group && d.write == write && Nat.blt now (d.at_ + 400000000))).map FabDone.bytes) / 1000000

end Sys2Proof.Machine
end

