-- ==== Sys2Proof/Machine/Units.lean ====
section
/-!
DEFINITION. The death of a unit (R408, R410) with what becomes of the work that it held: an encoder core's picture (R216) and a Journeyman
site's invocations (R315). A slice's stripe (R101) and a band of the motion engine (R190) are taken over where they are next dispatched.
-/
namespace Sys2Proof.Machine

/-- Applies a function to the Journeyman state. -/
def State.mapJm (f : JmSt → JmSt) (s : State) : State := { s with jm := f s.jm }
/-- Applies a function to the kernel of a handle. -/
def State.mapKernel (h : Handle) (f : Kernel → Kernel) (s : State) : State :=
  s.mapJm (fun j => { j with kernels := updWhere (fun k => k.handle == h) f j.kernels })
/-- Applies a function to the counters of a kernel. -/
def State.countKernel (h : Handle) (f : KernelCounters → KernelCounters) (s : State) : State :=
  s.mapKernel h (fun k => { k with cnt := f k.cnt })
/-- Whether a hooked frame is the one of a camera, hook, run and FN. -/
def HookFrame.is (f : HookFrame) (cam hook run fn : Nat) : Bool := f.cam == cam && f.hook == hook && f.run == run && f.fn == fn
/-- A running invocation is over: its thread is free. -/
def State.freeThread (i : Invoc) (s : State) : State := s.mapJm (fun j => { j with running := j.running.filter (fun x => x != i) })

/-- The picture of an encoder role whose core is dead is coded again from its start, by the spare in the role or by another role (R216). -/
def State.recode (role : Nat) (s : State) : State :=
  let again : Option Nat := if (s.mgmt.units.unitOf .encU role).isSome then some role else none
  let move (q : EncPic) : EncPic := if q.role == some role then { q with role := again, epoch := s.mgmt.units.epochOf .encU role, redone := true } else q
  { s with encs := s.encs.map (fun (e : EncSession) => { e with pics := e.pics.map move }) }

/-- The invocations of a role whose site is dead run again from their start (R315): on the new site, or, with the role retired, on another
role once they are taken (log 45). -/
def State.rerunRole (role : Nat) (s : State) : State :=
  let here := s.jm.running.filter (fun i => i.role == role)
  let mark := here.foldl (fun (t : State) (i : Invoc) => match i.kind with
    | .tile cam hook run fn _ _ => t.mapJm (fun j => { j with hooks := updWhere (fun f => f.is cam hook run fn) (fun f => { f with reprocessed := true }) j.hooks })
    | _ => t) s
  let owner := (s.jm.kernels.find? (fun k => k.roles.contains role)).map Kernel.handle
  match s.mgmt.units.unitOf .siteU role with
  | some _ =>
    let e := s.mgmt.units.epochOf .siteU role
    let t := mark.mapJm (fun j => { j with running := updWhere (fun i => i.role == role) (fun i => { i with epoch := e, startNs := s.ns }) j.running })
    match owner with
    | some h => t.countKernel h (fun n => { n with takeovers := n.takeovers.satInc })
    | none => t
  | none =>
    here.foldl (fun (t : State) (i : Invoc) =>
      let t := t.freeThread i
      match i.kind with
      | .tile cam hook run fn tx ty =>
        let back (f : HookFrame) : HookFrame := { f with queued := f.queued ++ [(tx, ty)], started := f.started.filter (· != (tx, ty)) }
        t.mapJm (fun j => { j with hooks := updWhere (fun f => f.is cam hook run fn && f.started.contains (tx, ty)) back j.hooks })
      | .policy cam run fn =>
        let wait (q : PolJob) : PolJob := { q with started := false }
        t.mapJm (fun j => { j with jobs := updWhere (fun q => q.kernel == i.kernel && q.cam == cam && q.run == run && q.fn == fn) wait j.jobs })
      | .rate _ _ _ => t) mark

/-- Declares the unit of a role dead (R408): the role is taken over or retired, and the work that the unit held is done again. -/
def State.declareDead (k : UnitKind) (r : Nat) (code : Nat) (s : State) : State :=
  let t := s.replaceUnit k r code
  match k with
  | .encU => t.recode r
  | .siteU => t.rerunRole r
  | .sliceU => t
  | .decU => t
  | .cmpU => t
  | .motionU => t

/-- A Journeyman role is declared dead (R314, R315). -/
def State.siteDead (role : Nat) (s : State) : State := s.declareDead .siteU role Status.hardwareFault.code

end Sys2Proof.Machine
end

