-- ==== Sys2Proof/Machine/LaneOps.lean ====
section
/-!
DEFINITION. The operations on lanes, channels and quads that other subsystems share: which channels are in service, cells sent on
channels, the end of a bring-up, and what power states and boot do to lanes (chapter 13).
-/
namespace Sys2Proof.Machine

/-- Applies a function to the lanes. -/
def State.mapLanes (f : LanesSt → LanesSt) (s : State) : State := { s with lanes := f s.lanes }
/-- Applies a function to one physical lane. -/
def State.mapLane (l : Nat) (f : Lane → Lane) (s : State) : State := s.mapLanes (fun x => { x with lanes := vmod x.lanes l f })
/-- Applies a function to one channel. -/
def State.mapChan (c : Nat) (f : Channel → Channel) (s : State) : State :=
  s.mapLanes (fun x => { x with channels := vmod x.channels c f })
/-- Applies a function to one quad. -/
def State.mapQuad (q : Nat) (f : Quad → Quad) (s : State) : State := s.mapLanes (fun x => { x with quads := vmod x.quads q f })

/-- Applies a function to an Ethernet port. -/
def State.mapEth (p : Nat) (f : EthPort → EthPort) (s : State) : State := s.mapLanes (fun x => { x with ports := vmod x.ports p f })
/-- An Ethernet port. -/
def State.eth (s : State) (p : Nat) : EthPort := vget s.lanes.ports EthPort.reset p

/-- A frame of the device's own joins an egress queue of a port, by priority (R366). -/
def State.ethQueue (p prio : Nat) (data : List Byte) (s : State) : State :=
  s.mapEth p (fun x => { x with queues := vmod x.queues prio (· ++ [{ data := data, inp := 4, stamp := (s.time.stamp : Nat), steps := s.time.stepSum }]) })

/-- A physical lane. -/
def LanesSt.lane (x : LanesSt) (l : Nat) : Lane := vget x.lanes (Lane.reset .off) l
/-- A channel. -/
def LanesSt.chan (x : LanesSt) (c : Nat) : Channel := vget x.channels { epoch := 1, lane := none, vacant := false, lseq := 0 } c
/-- A quad. -/
def LanesSt.quad (x : LanesSt) (q : Nat) : Quad := vget x.quads { role := .off, qref := false, spare := none, rotation := none } q

/-- Whether a channel is in service (R352, R359). -/
def State.inService (s : State) (c : Nat) : Bool := ((s.lanes.chan c).lane).isSome

/-- Whether the lane of a channel calibrates in place, so that the channel carries nothing (R357). -/
def State.silent (s : State) (c : Nat) : Bool :=
  match (s.lanes.chan c).lane with
  | some l => (s.lanes.lane l).state == .calibrating
  | none => false

/-- What a channel sends leaves the device, or is lost while its lane calibrates in place (R357). -/
def State.emitOn (c : Nat) (o : Out) (s : State) : State := if s.silent c then s else s.emit o

/-- Whether a channel number can name a channel of a quad: three per Ozoth quad (R346). -/
def isChannel (c : Nat) : Bool := c % 4 != 3 && c < 32

/-- The number of a lane state in KX_LANE_STATUS (Table 13-9). -/
def laneStateCode : LaneState → Nat
  | .off => 0
  | .training => 1
  | .active => 2
  | .spare => 3
  | .calibrating => 4
  | .fenced => 5
  | .diag => 6
  | .eth => 7

/-- KX_LANE_STATUS (Table 13-9). -/
def Lane.status (x : Lane) : Nat :=
  2 ^ 16 * x.chan.getD 0xFF + 2 ^ 8 * x.rate + 2 ^ 7 * bit01 x.paramErr + 2 ^ 6 * bit01 x.margin + 2 ^ 5 * bit01 x.cwLock
  + 2 ^ 4 * bit01 x.cellLock + laneStateCode x.state

/-- A control or timing cell is sent on a channel, whose LSEQ counts it (Table 13-3). -/
def State.sendCell (c kind : Nat) (payload : List Byte) (s : State) : State :=
  (s.mapChan c (fun x => { x with lseq := x.lseq + 1 })).emitOn c (.peerCell c kind payload)

/-- A training cell payload (Table 13-5). -/
def trainPayload (kind rates role lane chan toLane epoch lseq : Nat) : List Byte :=
  layout 240 [(0x00, 1, kind), (0x01, 1, rates), (0x02, 1, role), (0x03, 1, lane), (0x04, 4, 0x4896), (0x08, 1, chan),
              (0x09, 1, toLane), (0x0A, 2, epoch), (0x0C, 4, lseq)]

/-- The ROLE of a quad in a CAPABILITY cell (Table 13-5). -/
def roleCode : QuadRole → Nat
  | .ingest => 0
  | .egress => 1
  | .pair => 2
  | _ => 3

/-- A lane sends a training cell. -/
def State.train (l kind rates chan toLane epoch lseq : Nat) (s : State) : State :=
  s.emit (.trainCell l kind (trainPayload kind rates (roleCode (s.lanes.quad (l / 4)).role) l chan toLane epoch lseq))

/-- The quad temperature of a lane in s23.8 °C: monitors 0 to 7 (Table 16-7). -/
def State.quadTemp (s : State) (l : Nat) : Int := (vget s.mgmt.monitors (Monitor.reset 0 0) (l / 4)).cur

/-- How far the quad temperature stands from a record's TEMP, in 1/256 °C. -/
def State.tempMoved (s : State) (l : Nat) (record : List Byte) : Nat := (s.quadTemp l - fs16 record 0x004).natAbs

/-- The SNR floor of a rate in u8.8 dB (Table 13-7). -/
def snrFloor : Nat → Nat
  | 1 => 2816
  | 2 => 4096
  | 3 => 4352
  | _ => 0

/-- The channel that a lane takes when its bring-up ends, none when it becomes its quad's spare (R346, R352, R411): a vacant
channel first; then, unless the lane is the quad's spare, the channel of its own number, or one whose home lane carries another. -/
def LanesSt.landing (x : LanesSt) (l : Nat) : Option Nat :=
  let q := l / 4
  let own := [4 * q, 4 * q + 1, 4 * q + 2].filter (fun c => (x.chan c).lane.isNone)
  let qd := x.quad q
  match own.find? (fun c => (x.chan c).vacant) with
  | some c => some c
  | none =>
    if qd.spare = some l then none
    else if own.contains l then some l
    else own.find? (fun c => qd.spare = some c || (x.lane c).chan.isSome || (x.lane c).state == .fenced)

/-- Clears what a bring-up left on a lane and completes the commands that wait for it: LANE_TRAIN with the rate and the SNR, and
UNIT_REJOIN with what the lane became (Tables 13-11, 16-2). -/
def State.laneVerified (l : Nat) (s : State) : State :=
  let x := s.lanes.lane l
  let t := s.mapLane l (fun y => { y with trainBy := none, rejoinBy := none })
  let t := match x.trainBy with
    | some r => t.finish r .ok x.rate x.snr false
    | none => t
  match x.rejoinBy with
  | none => t
  | some r =>
    match (s.lanes.lane l).chan with
    | some c => t.finish r .ok 1 (s.lanes.chan c).epoch false
    | none => t.finish r .ok 0 0 false

/-- A lane is down: what waits for its bring-up completes (Table 13-11). -/
def State.laneDown (l : Nat) (s : State) : State := s.laneVerified l

/-- A lane's bring-up ends at its target rate: its channel comes into service on it, or it becomes the spare (R352). -/
def State.laneUp (l : Nat) (s : State) : State :=
  let t := match s.lanes.landing l with
    | some c =>
      (s.mapLane l (fun y => { y with state := .active, chan := some c, step := .idle, cwLock := true, cellLock := true,
                                      lastEpoch := (s.lanes.chan c).epoch })).mapChan c
        (fun y => { y with lane := some l, vacant := false })
    | none =>
      (s.mapLane l (fun y => { y with state := .spare, chan := none, step := .idle, cwLock := true, cellLock := true })).mapQuad (l / 4)
        (fun y => { y with spare := some l })
  t.laneVerified l

/-- Whether a calibration record is one: VERSION 1 and the lane's own number (Table 13-10A). -/
def recordFor (l : Nat) (record : List Byte) : Bool := f16 record 0x000 == 1 && f8 record 0x002 == l

/-- A lane of a quad in use begins its bring-up at 10G from a record, which R353 starts from only where it was restored (R352, R353). -/
def State.bringUp (l : Nat) (record : List Byte) (restored : Bool) (s : State) : State :=
  (s.mapLane l (fun y => { y with
    state := .training, chan := none, rate := 0, target := 0, step := .idle, cwLock := false, cellLock := false,
    calVal := record, restored := restored && recordFor l record })).train l 0 0xF 0xFF 0 0 0

/-- Every lane is turned off and its record saved (R362, R368): PS3. Fenced lanes stay fenced. -/
def LanesSt.off (x : LanesSt) : LanesSt :=
  let down (y : Lane) : Lane := if y.state == .fenced then y else
    { y with state := .off, chan := none, rate := 0, step := .idle, cwLock := false, cellLock := false, inPlace := false }
  { x with
    flashCal := vmapIdx x.flashCal (fun l _ => (x.lane l).calVal),
    lanes := vmapIdx x.lanes (fun _ y => down y),
    channels := vmapIdx x.channels (fun _ y => { y with lane := none }),
    quads := vmapIdx x.quads (fun _ y => { y with rotation := none }),
    ports := vmapIdx x.ports (fun _ p => { p with link := false }) }

/-- PS3 entry (R362, R368): records are saved to the repair record area and the lanes turned off. -/
def State.lanesOff (s : State) : State :=
  let t := s.mapLanes LanesSt.off
  t.emit (.flashWrite 1 (t.lanes.flashCal.toList.flatten))

/-- Whether a quad is in use for Ozoth Link. -/
def QuadRole.ozoth : QuadRole → Bool
  | .ingest => true
  | .egress => true
  | .pair => true
  | _ => false

/-- The lanes that are off come up from the saved records (R353, R368): PS3 exit, and power-up (R362). -/
def State.lanesOn (s : State) : State :=
  (List.range 32).foldl (fun (t : State) (l : Nat) =>
    if (t.lanes.lane l).state != .off then t
    else
      let record := vget t.lanes.flashCal emptyCal l
      if (t.lanes.quad (l / 4)).role.ozoth then t.bringUp l record true
      else if l / 4 = 6 then
        let mode := (vget t.lanes.ports EthPort.reset (l - 24)).mode
        t.mapLane l (fun y => { y with
          state := (if mode = 0 then .off else .eth), rate := mode, calVal := record, restored := recordFor l record })
      else t) s

/-- Lanes at boot (R352, R362, R452): records restored from the flash, every lane of a quad in use starts its bring-up, and the
lanes whose peers answered are in service at the rate they reached. -/
def State.bootLanes (answered : List (Nat × Nat)) (s : State) : State :=
  let t := (s.mapLanes (fun x => { LanesSt.reset s.dev.isD with
    lanes := Vector.replicate 32 (Lane.reset .off), flashCal := x.flashCal })).lanesOn
  answered.foldl (fun (t : State) (a : Nat × Nat) =>
    if (t.lanes.lane a.1).state == .training && 1 ≤ a.2 && a.2 ≤ 3 then
      (t.mapLane a.1 (fun y => { y with rate := a.2, target := a.2 })).laneUp a.1
    else t) t

/-- The spare lane of a quad where it is free to take a channel. -/
def LanesSt.freeSpare (x : LanesSt) (q : Nat) : Option Nat :=
  match (x.quad q).spare with
  | some l => if (x.lane l).state == .spare && (x.quad q).rotation.isNone then some l else none
  | none => none

/-- Bit q: quad q has a spare lane that is free to take a channel. -/
def LanesSt.spareMask (x : LanesSt) : Nat := sumNat ((List.range 8).map (fun q => 2 ^ q * bit01 (x.freeSpare q).isSome))

/-- Lanes that are fenced. -/
def LanesSt.fenced (x : LanesSt) : Nat := (x.lanes.toList.filter (fun y => y.state == .fenced)).length

/-! ## Link time (R384, R385) -/

/-- Whether the overlap of a rotation is in progress on a channel. -/
def LanesSt.overlapping (x : LanesSt) (c : Nat) : Bool :=
  match (x.quad (c / 4)).rotation with
  | some r => r.chan == c && r.step == 1
  | none => false

/-- The payload of a link time cell (Table 14-7). -/
def linkTime (kind seq stamp stepGen flags asym : Nat) : List Byte :=
  layout 240 ([(0x00, 1, 0xFF), (0x01, 1, kind), (0x02, 2, seq), (0x0C, 4, nsOf (stamp / 65536)), (0x04, 6, secOf (stamp / 65536)),
               (0x0A, 2, stamp % 65536), (0x10, 1, stepGen), (0x11, 1, flags), (0x14, 4, asym)])

/-- A channel that carries link time cells: an ingress or egress channel in service, not in an overlap (R384, R385). -/
def State.timedChan (s : State) (c : Nat) : Bool :=
  isChannel c && s.inService c && !s.lanes.overlapping c
    && ((s.lanes.quad (c / 4)).role == .ingest || (s.lanes.quad (c / 4)).role == .egress)

/-- Sends an LT_SYNC on a channel, its stamp completed by the 16-bit fraction that the port interpolates (R370, R384). -/
def State.sendLtSync (frac : Nat) (c : Nat) (s : State) : State :=
  if !s.timedChan c then s
  else
    let t := s.time
    let lane := ((s.lanes.chan c).lane).getD 0
    let flags := bit01 (vget t.ltStep false c) + 2 * bit01 (vget t.ltRotated false c) + 4 * bit01 t.locked
    (s.mapTime (fun t => { t with ltStep := vmod t.ltStep c (fun _ => false), ltRotated := vmod t.ltRotated c (fun _ => false),
                                  ltSeq := vmod t.ltSeq c (· + 1) })).sendCell c 3
      (linkTime 1 (vget t.ltSeq 0 c).toNat (t.ns * 65536 + frac) t.stepGen flags (vget t.linkAsym 0 lane).toNat)

/-- Sends an LT_SYNC on every channel that carries them. -/
def State.sendLtSyncs (frac : Nat) (s : State) : State := (List.range 32).foldl (fun t c => t.sendLtSync frac c) s

end Sys2Proof.Machine
end

