-- ==== Sys2Proof/Machine/CamOps.lean ====
section
/-!
DEFINITION. The operations on camera contexts that the camera families share: the fields of the profile (Tables 03-4 to 03-6), the
ingest queue, admission (R95), the ledger record (Table 06-1), and the hub control channel (R80 to R84).
-/
namespace Sys2Proof.Machine

/-! ## The context -/

/-- Applies a function to the camera contexts. -/
def State.mapCams (f : CamsSt → CamsSt) (s : State) : State := { s with cams := f s.cams }
/-- Applies a function to one context. -/
def State.mapCam (cam : Nat) (f : CamCtx → CamCtx) (s : State) : State := s.mapCams (fun x => { x with ctx := vmod x.ctx cam f })
/-- A context. -/
def State.cam (s : State) (cam : Nat) : CamCtx := vget s.cams.ctx (CamCtx.idle 0) cam
/-- Applies a function to the frame in processing of an FN. -/
def State.mapFrame (cam fn : Nat) (f : CamFrame → CamFrame) (s : State) : State :=
  s.mapCam cam (fun c => { c with frames := updWhere (fun x => x.fn == fn) f c.frames })
/-- Applies a function to the counters of a context. -/
def State.countCam (cam : Nat) (f : CamCounters → CamCounters) (s : State) : State := s.mapCam cam (fun c => { c with cnt := f c.cnt })
/-- The frame in processing of an FN. -/
def CamCtx.frame (c : CamCtx) (fn : Nat) : Option CamFrame := c.frames.find? (fun x => x.fn == fn)
/-- The context of a camera handle. -/
def CamsSt.find (x : CamsSt) (h : Handle) : Option Nat := firstIdx (fun c => c.state != .idle && c.handle == h) x.ctx.toList

/-! ## The profile -/

/-- SOURCE. -/
def pfSource (p : List Byte) : Nat := f8 p 0x002
/-- Whether the context is on Ozoth Link. -/
def pfOzoth (p : List Byte) : Bool := pfSource p == 0
/-- HUB_PORT. -/
def pfHubPort (p : List Byte) : Nat := f8 p 0x003
/-- LANE_MASK. -/
def pfLaneMask (p : List Byte) : Nat := f16 p 0x004 % 4096
/-- HUB_ID. -/
def pfHubId (p : List Byte) : Nat := f16 p 0x006
/-- ACTIVE_W. -/
def pfW (p : List Byte) : Nat := f16 p 0x008
/-- ACTIVE_H. -/
def pfH (p : List Byte) : Nat := f16 p 0x00A
/-- BIT_DEPTH. -/
def pfDepth (p : List Byte) : Nat := f8 p 0x00C
/-- PACK. -/
def pfPack (p : List Byte) : Nat := f8 p 0x00D
/-- NEXP. -/
def pfNexp (p : List Byte) : Nat := f8 p 0x00E % 16
/-- D. -/
def pfD (p : List Byte) : Nat := f8 p 0x00F
/-- PERIOD_MIN in ns. -/
def pfPeriod (p : List Byte) : Nat := f32 p 0x010
/-- READOUT in ns. -/
def pfReadout (p : List Byte) : Nat := f32 p 0x014
/-- ALLOW in sixteenths of a period; 0 selects 24. -/
def pfAllow (p : List Byte) : Nat := if f16 p 0x018 = 0 then 24 else f16 p 0x018
/-- QDEPTH; 0 selects 3. -/
def pfQdepth (p : List Byte) : Nat := if f8 p 0x01A = 0 then 3 else f8 p 0x01A
/-- DROP_CLASS. -/
def pfDropClass (p : List Byte) : Nat := f8 p 0x01B % 4
/-- DEGRADABLE. -/
def pfDegradable (p : List Byte) : Bool := bitOf (f8 p 0x01B) 7
/-- STAGGER. -/
def pfStagger (p : List Byte) : Nat := f16 p 0x01C
/-- SPAN_REQ. -/
def pfSpanReq (p : List Byte) : Nat := f8 p 0x01E
/-- CFA. -/
def pfCfa (p : List Byte) : Nat := f64 p 0x020
/-- EXP_TO_SOF in ns. -/
def pfExpToSof (p : List Byte) : Nat := f32 p 0x02C
/-- I2C_ADDR. -/
def pfI2cAddr (p : List Byte) : Nat := f8 p 0x030 % 128
/-- I2C_SPEED. -/
def pfI2cSpeed (p : List Byte) : Nat := bitsOf (f32 p 0x030) 9 8
/-- PPC of PCP_CFG. -/
def pfPpc (p : List Byte) : Nat := bitsOf (f32 p 0x028) 7 6

/-- The channel code of a CFA position (R115). -/
def cfaAt (p : List Byte) (i : Nat) : Nat := pfCfa p / 16 ^ (i % 16) % 16
/-- The channel code of a pixel (R115). -/
def cfaOf (p : List Byte) (x y : Nat) : Nat := cfaAt p (4 * (y % 4) + x % 4)
/-- The sites of a channel in the 4 × 4 mosaic. -/
def cfaCount (p : List Byte) (ch : Nat) : Nat := ((List.range 16).filter (fun i => cfaAt p i == ch)).length
/-- Whether every CFA position holds the same code (R116). -/
def pfMono (p : List Byte) : Bool := (List.range 16).all (fun i => cfaAt p i == cfaAt p 0)
/-- Whether a CFA is valid (R116). -/
def cfaValid (p : List Byte) : Bool :=
  (List.range 16).all (fun i => cfaAt p i < 4) && (pfMono p || [0, 1, 2].all (fun ch => cfaCount p ch != 0))
/-- The channels that a CFA carries, in the order R, G, B, NIR; G for a monochrome one (R116). -/
def pfChannels (p : List Byte) : List Nat := if pfMono p then [1] else [0, 1, 2, 3].filter (fun ch => cfaCount p ch != 0)
/-- The channels of a CFA by their own codes: one for a monochrome context. -/
def pfOwn (p : List Byte) : List Nat := if pfMono p then [cfaAt p 0] else pfChannels p
/-- Whether the CFA carries NIR. -/
def pfNir (p : List Byte) : Bool := !pfMono p && cfaCount p 3 != 0

/-- The entry of register group g (Table 03-6). -/
def pfGroup (p : List Byte) (g : Nat) : List Byte := slice p (0x040 + 32 * g) 32
/-- VALID. -/
def grpValid (g : List Byte) : Bool := bitOf (f8 g 0) 0
/-- VALID and LEDGERED. -/
def grpLedgered (g : List Byte) : Bool := grpValid g && bitOf (f8 g 0) 1
/-- HOLD. -/
def grpHold (g : List Byte) : Bool := bitOf (f8 g 0) 2
/-- NREG. -/
def grpNreg (g : List Byte) : Nat := f8 g 1
/-- WIDTH. -/
def grpWidth (g : List Byte) : Nat := f8 g 6
/-- Bytes of a group in the packed layout (R166). -/
def grpBytes (g : List Byte) : Nat := if grpLedgered g then grpNreg g * grpWidth g else 0
/-- REG[i]. -/
def grpReg (g : List Byte) (i : Nat) : Nat := f16 g (8 + 2 * i)
/-- D_g: the group's DELAY, or the profile's D (R167). -/
def grpDelay (p g : List Byte) : Nat := if f8 g 7 = 0xFF then pfD p else f8 g 7
/-- The offset of a group's values in the packed layout (R166). -/
def grpOffset (p : List Byte) (g : Nat) : Nat := sumNat ((List.range g).map (fun i => grpBytes (pfGroup p i)))
/-- The ledgered groups of a profile, rising. -/
def pfLedgered (p : List Byte) : List Nat := (List.range 8).filter (fun g => grpLedgered (pfGroup p g))

/-- Bytes of one line as received (R74, R117). -/
def pfLineBytes (p : List Byte) : Nat :=
  match pfPack p with
  | 0 => ceilDiv (pfW p * pfDepth p) 8
  | 1 => pfW p * 2
  | _ => pfW p * 4
/-- STRIDE of the ingest queue (R89). -/
def pfStride (p : List Byte) : Nat := roundUp (pfLineBytes p) 64
/-- Bands of a frame. -/
def pfBands (p : List Byte) : Nat := ceilDiv (pfH p) 64
/-- Bytes of a frame slot (R89). -/
def pfSlotBytes (p : List Byte) : Nat := pfBands p * 64 * pfStride p * pfNexp p
/-- Bytes of the ingest queue (R89). -/
def pfQueueBytes (p : List Byte) : Nat := pfQdepth p * pfSlotBytes p
/-- The declared rate in Mpixel/s (R95). -/
def pfRate (p : List Byte) : Nat := ceilDiv (pfW p * pfH p * pfNexp p * 1000) (pfPeriod p)

/-- The device address of a line in the ingest queue: slots, then bands, then exposures, then lines. The order inside a band is
DESIGN CHOICE (log 22). -/
def CamCtx.lineAddr (c : CamCtx) (slot exp line : Nat) : Nat :=
  let p := c.profile
  c.queueBase + slot * pfSlotBytes p + line / 64 * (64 * pfStride p * pfNexp p) + exp * (64 * pfStride p) + line % 64 * pfStride p

/-- The checks on one register group at its offset (Table 03-6). -/
def groupFields (p : List Byte) (g : Nat) : List (Nat × Bool) :=
  let e := pfGroup p g
  let o := 0x040 + 32 * g
  [(o, f8 e 0 < 8), (o + 1, !grpValid e || (1 ≤ grpNreg e && grpNreg e ≤ 10)),
   (o + 6, !grpValid e || grpWidth e == 1 || grpWidth e == 2 || grpWidth e == 4),
   (o + 7, !grpValid e || f8 e 7 ≤ 4 || f8 e 7 == 0xFF), (o + 0x1C, f32 e 0x1C == 0)]

/-- The fields of the profile in ascending offset order (R73, Table 03-4). -/
def profileFields (p : List Byte) : List (Nat × Bool) :=
  [(0x000, f16 p 0x000 == 1), (0x002, pfSource p ≤ 2), (0x003, !pfOzoth p || pfHubPort p ≤ 15), (0x004, Nat.blt (f16 p 0x004) 4096),
   (0x008, 64 ≤ pfW p && pfW p ≤ 12288 && pfW p % 4 == 0), (0x00A, 64 ≤ pfH p && pfH p ≤ 8192),
   (0x00C, 8 ≤ pfDepth p && pfDepth p ≤ 20), (0x00D, pfPack p ≤ 2 && (pfPack p != 1 || pfDepth p ≤ 16)),
   (0x00E, 1 ≤ pfNexp p && pfNexp p ≤ 3 && Nat.blt (f8 p 0x00E) 16), (0x00F, pfD p ≤ 4),
   (0x018, f16 p 0x018 == 0 || (8 ≤ f16 p 0x018 && f16 p 0x018 ≤ 64)), (0x01A, f8 p 0x01A ≤ 8),
   (0x01B, bitsOf (f8 p 0x01B) 6 2 == 0), (0x01C, pfStagger p ≤ 128), (0x01E, pfSpanReq p ≤ 4), (0x01F, f8 p 0x01F == 0),
   (0x020, cfaValid p), (0x028, f32 p 0x028 / 256 == 0 && f32 p 0x028 % 4 == 0 && pfPpc p ≤ 1 && (pfPpc p == 0 || pfDepth p ≤ 10)),
   (0x030, bitsOf (f32 p 0x030) 7 7 == 0 && pfI2cSpeed p ≤ 2 && f32 p 0x030 / 1024 == 0), (0x034, zeroRange p 0x034 0x03F)]
  ++ (List.range 8).flatMap (groupFields p) ++ [(0x140, zeroRange p 0x140 0x1FF)]

/-- The relations of Table 03-5 in table order, each at its offset. -/
def profileRelations (p : List Byte) : List (Nat × Bool) :=
  [(0x004, if pfOzoth p then pfLaneMask p != 0 else pfLaneMask p == 0), (0x014, Nat.blt (pfReadout p) (pfPeriod p)),
   (0x010, pfPeriod p ≤ 4000000000), (0x00E, 64 * pfNexp p ≤ pfH p), (0x01C, pfStagger p * (pfNexp p - 1) ≤ 256),
   (0x01C, pfNexp p != 1 || pfStagger p == 0), (0x008, pfLineBytes p ≤ 49152),
   (0x00D, pfOzoth p || (pfDepth p ≤ 20 && (pfPack p == 1 || pfPack p == 2)))]

/-- The limit of R166: at most 40 bytes of ledgered values, reported at the first group that passes it. -/
def profileLimit (p : List Byte) : List (Nat × Bool) :=
  (List.range 8).map (fun g => (0x040 + 32 * g, grpOffset p g + grpBytes (pfGroup p g) ≤ 40))

/-! ## Admission -/

/-- Whether admission counts a context (Table 03-1). -/
def CamState.counted : CamState → Bool
  | .configured => true
  | .running => true
  | .stopping => true
  | _ => false

/-- The rates admitted, without one context (R95). -/
def CamsSt.admitted (x : CamsSt) (without : Option Nat) : Nat :=
  sumNat ((x.ctx.toList.zipIdx.filter (fun c => c.1.state.counted && some c.2 != without)).map (fun c => ceilDiv (pfRate c.1.profile) c.1.degrade))

/-- Slice roles in service (R95). -/
def State.sliceRoles (s : State) : Nat := s.mgmt.units.filled .sliceU

/-- The per-slice limit P in Mpixel/s (R64, R95). -/
def State.sliceLimit (s : State) : Nat := if s.power.oper = .ps1 ∨ s.power.cur = .ps1 then 2400 else 4000

/-- The admission limit per slice in the operational state, as IDENTIFY gives it (Table 02-18). -/
def State.operLimit (s : State) : Nat := if s.power.oper = .ps1 then 2400 else 4000

/-- Admission of a profile under a divisor (R95, R436): the span, or the budget left for BUDGET_EXCEEDED. -/
def State.admitRate (s : State) (p : List Byte) (own : Option Nat) (k : Nat) : Nat ⊕ Nat :=
  let rate := pfRate p
  let lim := s.sliceLimit
  let n := s.sliceRoles
  let span := Nat.max (pfSpanReq p) (ceilDiv rate lim)
  let others := s.cams.admitted own
  if 4 < span ∨ n < span then .inr (Nat.min 4 n * lim)
  else if n * lim < others + ceilDiv rate (Nat.max 1 k) then .inr (n * lim - others)
  else .inl span

/-! ## Stripes -/

/-- Width of stripes 0 to span − 2. -/
def stripeWidth (w span : Nat) : Nat := ceilDiv (ceilDiv w span) 64 * 64
/-- The columns of a stripe: first and one past the last. -/
def stripeCols (w span j : Nat) : Nat × Nat :=
  let sw := stripeWidth w span
  (Nat.min w (j * sw), if j + 1 = span then w else Nat.min w ((j + 1) * sw))

/-- The output lines of the pass over a band: first and one past the last (R107). -/
def bandLines (h bands k : Nat) : Nat × Nat := (if k = 0 then 0 else 64 * k - 16, if k + 1 = bands then h else 64 * k + 48)

/-- Whether band k of a frame is complete in the ingest queue (R88). -/
def CamCtx.bandIn (c : CamCtx) (f : CamFrame) (k : Nat) : Bool :=
  Nat.min (pfH c.profile) (64 * k + 64) ≤ vget f.stored 0 (pfNexp c.profile - 1)

/-- Whether every stripe of a band is done. -/
def CamCtx.bandDone (c : CamCtx) (f : CamFrame) (k : Nat) : Bool := (List.range c.span).all (fun j => f.stripes.contains (k, j))

/-- Whether every stripe of a frame is done. -/
def CamCtx.frameDoneAll (c : CamCtx) (f : CamFrame) : Bool := (List.range (pfBands c.profile)).all (c.bandDone f)

/-- The pixels of a frame not yet processed. -/
def CamCtx.pixelsLeft (c : CamCtx) (f : CamFrame) : Nat :=
  let p := c.profile
  sumNat ((List.range (pfBands p)).map (fun k =>
    let lines := Nat.min (pfH p) (64 * k + 64) - 64 * k
    sumNat ((List.range c.span).map (fun j =>
      let cols := stripeCols (pfW p) c.span j
      if f.stripes.contains (k, j) then 0 else lines * (cols.2 - cols.1) * pfNexp p))))

/-- The backlog in µs: pixels accepted but not processed over 4.0 Gpixel/s per slice in service (R94). -/
def State.backlog (s : State) : Nat :=
  let left := sumNat (s.cams.ctx.toList.map (fun c => sumNat (c.frames.map c.pixelsLeft)))
  if s.sliceRoles = 0 then (if left = 0 then 0 else 2 ^ 32) else left / (4000 * s.sliceRoles)

/-! ## The ledger -/

/-- The address of a record (Table 12-2, R163). -/
def ledgerAddr (cam fn : Nat) : Nat := 0x04000000 + 0x40000 * cam + 256 * (fn % 1024)

/-- Seconds, nanoseconds and 16-bit fraction of a time in 2^-16 ns, as fields at three offsets. -/
def timeFields (stamp sOff nsOff_ fracOff : Nat) : List Field :=
  [(sOff, 6, secOf (stamp / 65536)), (nsOff_, 4, nsOf (stamp / 65536)), (fracOff, 2, stamp % 65536)]

/-- The 256 bytes of a record (Table 06-1). -/
def LedgerRec.bytes (r : LedgerRec) : List Byte :=
  let v (xs : List Nat) (off size : Nat) : List Field := xs.zipIdx.map (fun x => (off + size * x.2, size, x.1))
  patch (layout 256 ([(0x00, 4, r.fn), (0x04, 2, r.run), (0x06, 1, r.cam + 64 * bit01 r.closed), (0x07, 1, r.cause), (0x08, 4, r.flags.toNat),
    (0x0C, 4, r.tnrRef), (0x1C, 4, r.trigger), (0x2C, 4, r.motionRef), (0x30, 4, r.sensorApply), (0x34, 4, r.pipeApply),
    (0x38, 4, r.paramGen), (0x3C, 2, r.hubFc), (0x3E, 2, Nat.min 0xFFFF r.poisonTiles), (0x68, 2, r.pipe.mix), (0x6A, 1, r.known),
    (0x6B, 1, r.limited), (0x6C, 2, r.statSlot), (0x70, 8, r.statAddr)]
    ++ timeFields r.exp 0x10 0x18 0x16 ++ timeFields r.sof 0x20 0x28 0x26
    ++ v r.pipe.t.toList 0x40 4 ++ v r.pipe.g.toList 0x4C 4 ++ v r.pipe.wb.toList 0x58 4 ++ v r.noise 0x78 4))
    0xD8 (padTo 40 r.values)

/-- Sets a flag of a record (Table 06-2). -/
def LedgerRec.flag (r : LedgerRec) (n : Nat) : LedgerRec := { r with flags := r.flags ||| (1#32 <<< n) }
/-- Whether a flag of a record is set. -/
def LedgerRec.has (r : LedgerRec) (n : Nat) : Bool := r.flags.getLsbD n

/-- Writes a record into the ledger ring, as live traffic (Table 01-5). -/
def State.putRecord (r : LedgerRec) (s : State) : State :=
  (s.writeMem (ledgerAddr r.cam r.fn) r.bytes).writes .ledger .ostler r.cam (ledgerAddr r.cam r.fn) 256

/-- Changes the record of a frame in processing, in the context and in the ring. -/
def State.mapRecord (cam fn : Nat) (f : LedgerRec → LedgerRec) (s : State) : State :=
  let t := s.mapFrame cam fn (fun x => { x with rcd := f x.rcd })
  match (t.cam cam).frame fn with
  | some x => t.putRecord x.rcd
  | none => t

/-- Sets a flag on the record of a frame in processing. -/
def State.flagFrame (cam fn n : Nat) (s : State) : State := s.mapRecord cam fn (fun r => r.flag n)

/-! ## The hub control channel -/

/-- The instance epoch (R84). -/
def State.ownEpoch (s : State) : Nat := s.mgmt.pair.ownEpoch
/-- The ownership epoch that a context's control cells carry: the instance epoch, or that of the hub's last change of owner (R84, R435). -/
def State.hubEpoch (s : State) (cam : Nat) : Nat :=
  ((s.mgmt.pair.hubEpochs.find? (fun x => x.1 == pfHubId (s.cam cam).profile)).map (·.2)).getD s.ownEpoch

/-- The channel of a context's control cells: the lowest of its LANE_MASK in service (R80). -/
def State.ctrlChan (s : State) (cam : Nat) : Option Nat :=
  (List.range 12).find? (fun l => bitOf (pfLaneMask (s.cam cam).profile) l && s.inService l)

/-- The unit handle of the lane of a context's control channel (R83). A lane named for traffic is the channel: DEDUCED (log 23). -/
def State.ctrlLane (s : State) (cam : Nat) : Handle := unitHandle 0x0B ((s.ctrlChan cam).getD 0)

/-- The epoch of that lane's channel. -/
def State.ctrlEpoch (s : State) (cam : Nat) : Nat := (s.lanes.chan ((s.ctrlChan cam).getD 0)).epoch

/-- A control cell payload (Table 03-10). -/
def ctrlPayload (op flags seq epoch cam when_ arg : Nat) (entries : List Byte) : List Byte :=
  patch (layout 240 [(0x00, 1, op), (0x01, 1, flags), (0x02, 2, seq), (0x04, 2, epoch), (0x06, 1, cam),
    (0x07, 1, entries.length / 8), (0x08, 8, when_), (0x10, 8, arg)]) 0x18 (entries.take 216)

/-- WHEN of a time in ns: seconds in bits 63:32, nanoseconds in bits 31:0. -/
def whenOf (ns : Nat) : Nat := secOf ns % 2 ^ 32 * 2 ^ 32 + nsOf ns

/-- A cell of a context leaves on its control channel; with no channel in service it waits for its resend. -/
def State.emitCtrl (cam : Nat) (x : CtrlCell) (s : State) : State :=
  match s.ctrlChan cam with
  | some ch => (s.mapChan ch (fun y => { y with lseq := y.lseq + 1 })).emit (.hubCell cam x.op x.seq x.payload)
  | none => match x.why with
    | .owner _ => s.emit (.hubCell cam x.op x.seq x.payload)
    | _ => s

/-- A control cell takes the next SEQ of its context and is sent; with 32 cells unacknowledged, or cells of lower SEQ waiting, it waits (R81). -/
def State.queueCtrl (cam : Nat) (x : CtrlCell) (s : State) : State :=
  let c := s.cam cam
  if c.unacked.length < 32 && c.waiting.isEmpty then
    (s.mapCam cam (fun c => { c with seq := (c.seq + 1) % 65536, unacked := c.unacked ++ [x] })).emitCtrl cam x
  else s.mapCam cam (fun c => { c with seq := (c.seq + 1) % 65536, waiting := c.waiting ++ [x] })

/-- Sends a control cell of a context under the next SEQ (R81). -/
def State.sendCtrl (cam op flags when_ arg : Nat) (entries : List Byte) (why : CtrlWhy) (s : State) : State :=
  let n := (s.cam cam).seq
  s.queueCtrl cam { seq := n, op := op, payload := ctrlPayload op flags n (s.hubEpoch cam) cam when_ arg entries, why := why, resends := 0 }

/-- A cell has its answer: it leaves the list, and the oldest waiting cell is sent. -/
def State.dropCtrl (cam seq : Nat) (s : State) : State :=
  let t := s.mapCam cam (fun c => { c with unacked := c.unacked.filter (fun x => x.seq != seq) })
  match (t.cam cam).waiting with
  | [] => t
  | x :: rest =>
    if (t.cam cam).unacked.length < 32 then
      (t.mapCam cam (fun c => { c with waiting := rest, unacked := c.unacked ++ [x] })).emitCtrl cam x
    else t

/-- The BIND cell of a context (Table 03-11). -/
def State.sendBind (cam : Nat) (why : CtrlWhy) (s : State) : State :=
  let p := (s.cam cam).profile
  s.sendCtrl cam 0x05 0 0 (pfHubPort p + 256 * cam) (layout 8 [(1, 1, pfI2cAddr p), (4, 4, pfI2cSpeed p)]) why

/-- A cell of pair operation goes to a hub on behalf of a context (Table 16-17), under a given ownership epoch. -/
def State.sendHub (cam op arg epoch hub : Nat) (entries : List Byte) (s : State) : State :=
  let n := (s.cam cam).seq
  s.queueCtrl cam { seq := n, op := op, payload := ctrlPayload op 0 n epoch cam 0 arg entries, why := .owner hub, resends := 0 }

/-- The contexts of a camera group: those on Ozoth Link whose profile names a hub (chapter 16). -/
def State.group (s : State) (hub : Nat) : List Nat :=
  (List.range 48).filter (fun i => (s.cam i).state != .idle && pfOzoth (s.cam i).profile && pfHubId (s.cam i).profile == hub)

/-- Applies a function to pair operation. -/
def State.mapPair (f : PairSt → PairSt) (s : State) : State := s.mapMgmt (fun m => { m with pair := f m.pair })

/-- A control cell is sent again with its SEQ unchanged, and counted (R81). -/
def State.resendCell (cam : Nat) (x : CtrlCell) (s : State) : State :=
  let t := (s.mapCam cam (fun c => { c with unacked := updWhere (fun y => y.seq == x.seq) (fun y => { y with resends := y.resends + 1 }) c.unacked })).countCam
    cam (fun n => { n with resends := n.resends.satInc })
  t.emitCtrl cam x

/-- The unacknowledged cells of a context are resent on the channel it now uses (R80). A cell that has been resent three times is not sent again
(R81; DEDUCED, log 23). -/
def State.resendAll (cam : Nat) (s : State) : State :=
  ((s.cam cam).unacked.filter (fun x => x.resends < 3)).foldl (fun t x => t.resendCell cam x) s

/-- Cells of a purpose leave the waiting list: no further cell of a failed command is sent (R83). -/
def State.dropWaiting (cam : Nat) (p : CtrlWhy → Bool) (s : State) : State :=
  s.mapCam cam (fun c => { c with waiting := c.waiting.filter (fun x => !p x.why) })

end Sys2Proof.Machine
end

