-- ==== Sys2Proof/Machine/PixelNum.lean ====
section
/-!
DEFINITION. The numeric formats of the pixel pipelines: L24 (R109), F16, binary32, PF24 (R142), logarithms and roots, and results
that the manual gives up to a stated error: any value inside the bound, chosen by a free constant.
-/
namespace Sys2Proof.Machine

/-- The quotient rounded to the nearest integer, halves up. -/
def roundRat (q : Rat) : Int := (q + 1 / 2).floor

/-- The nearest integer, halves to even. -/
def roundEven (q : Rat) : Int :=
  let f := q.floor
  let d := q - f
  if d < 1 / 2 then f else if 1 / 2 < d then f + 1 else if f % 2 = 0 then f else f + 1

/-- An integer within k of an exact value; which one is free (the error of the manual's tolerance). -/
def within (k : Nat) (key : List Nat) (q : Rat) : Int :=
  clampInt ((q - k).ceil) ((q + k).floor) (roundRat q + Config.freeError key)

/-- The mean of two integers: exact where it is one, else the integer below or above, which one is free (R120, log 25). -/
def meanInt (key : List Nat) (a b : Int) : Int :=
  (a + b) / 2 + (if (a + b) % 2 = 0 ∨ Config.freeError key % 2 = 0 then 0 else 1)

/-- Two to an integer power. -/
def pow2 (e : Int) : Rat := if 0 ≤ e then (2 ^ e.toNat : Nat) else 1 / (2 ^ (-e).toNat : Nat)

/-- Absolute value. -/
def absRat (q : Rat) : Rat := if q < 0 then -q else q

/-- The larger of two. -/
def maxRat (a b : Rat) : Rat := if a < b then b else a
/-- The smaller of two. -/
def minRat (a b : Rat) : Rat := if a < b then a else b
/-- Limits a value to a range. -/
def clampRat (lo hi q : Rat) : Rat := maxRat lo (minRat hi q)

/-- The sum of a list. -/
def sumRat (l : List Rat) : Rat := l.foldl (fun a b => a + b) 0

/-- The floor of log2 of a positive value; 0 for others. -/
def floorLog2 (q : Rat) : Int :=
  if q ≤ 0 then 0
  else
    let n : Int := (Nat.log2 q.num.toNat : Int) - (Nat.log2 q.den : Int)
    if pow2 n ≤ q then n else n - 1

/-- The floor of K × log2 of a positive value. -/
def floorLog2K (k : Nat) (q : Rat) : Int := floorLog2 (q ^ k)

/-- K × log2 of a positive value, rounded to nearest. -/
def roundLog2K (k : Nat) (q : Rat) : Int := (floorLog2 (q ^ (2 * k) * 2)) / 2

/-- Fraction bits of a logarithm by squaring: y is a value from 1 to 2 in units of 2^-96, and acc the bits found before. -/
def log2Bits : Nat → Nat → Nat → Nat
  | 0, _, acc => acc
  | n + 1, y, acc =>
    let z := y * y / 2 ^ 96
    if 2 ^ 97 ≤ z then log2Bits n (z / 2) (2 * acc + 1) else log2Bits n z (2 * acc)

/-- log2 of a positive value to 64 fraction bits (log 25). -/
def log2Rat (q : Rat) : Rat :=
  let e := floorLog2 q
  (e : Rat) + (log2Bits 64 ((q / pow2 e) * (2 ^ 96 : Nat)).floor.toNat 0 : Rat) / (2 ^ 64 : Nat)

/-- Integer root by bits: the largest r with r^n not above x, from a number of bits downward. -/
def rootBits (n x : Nat) : Nat → Nat → Nat
  | 0, r => r
  | k + 1, r => rootBits n x k (if (r + 2 ^ k) ^ n ≤ x then r + 2 ^ k else r)

/-- The integer n-th root, rounded down. -/
def nthRoot (n x : Nat) : Nat := if n = 0 then 0 else rootBits n x (Nat.log2 x / n + 1) 0

/-- A non-negative value to the power a/b, to 40 fraction bits, rounded down. -/
def powRat (q : Rat) (a b : Nat) : Rat :=
  if q ≤ 0 then 0 else (nthRoot b ((q ^ a * (2 ^ (40 * b) : Nat)).floor.toNat) : Rat) / (2 ^ 40 : Nat)

/-- The square root, to 40 fraction bits, rounded down. -/
def sqrtRat (q : Rat) : Rat := powRat q 1 2

/-! ## L24 -/

/-- An exact value as L24 with an error of at most k LSB, saturated (R109). -/
def toL24 (k : Nat) (key : List Nat) (q : Rat) : Int := clampInt (-(2 ^ 23)) (2 ^ 23 - 1) (within k key (q * 32768))

/-- The value of an L24 number. -/
def ofL24 (v : Int) : Rat := (v : Rat) / 32768

/-! ## Floating formats -/

/-- Rounds a value to a significand of m fraction bits, nearest even. -/
def roundSig (m : Nat) (q : Rat) : Rat :=
  if q = 0 then 0
  else
    let unit := pow2 (floorLog2 (absRat q) - m)
    (roundEven (q / unit) : Rat) * unit

/-- The bits of a value in a binary interchange format with ew exponent and mw significand bits; overflow gives infinity. -/
def toFloat (ew mw : Nat) (q : Rat) : Nat :=
  let bias : Int := 2 ^ (ew - 1) - 1
  let sign := if q < 0 then 2 ^ (ew + mw) else 0
  let a := absRat q
  if a = 0 then sign
  else
    let e := floorLog2 a
    let e := if e < 1 - bias then 1 - bias else e
    let n := (roundEven (a / pow2 (e - mw))).toNat
    let e2 := if 2 ^ (mw + 1) ≤ n then e + 1 else e
    let n2 := if 2 ^ (mw + 1) ≤ n then n / 2 else n
    if bias < e2 then sign + (2 ^ ew - 1) * 2 ^ mw
    else if n2 < 2 ^ mw then sign + n2
    else sign + (e2 + bias).toNat * 2 ^ mw + (n2 - 2 ^ mw)

/-- The value of the bits of a binary interchange format; infinities and NaNs read as 0. -/
def ofFloat (ew mw bits : Nat) : Rat :=
  let bias : Int := 2 ^ (ew - 1) - 1
  let m := bits % 2 ^ mw
  let e := bits / 2 ^ mw % 2 ^ ew
  let a : Rat := if e = 2 ^ ew - 1 then 0
    else if e = 0 then (m : Rat) * pow2 (1 - bias - mw)
    else ((2 ^ mw + m : Nat) : Rat) * pow2 ((e : Int) - bias - mw)
  if bits / 2 ^ (ew + mw) % 2 = 1 then -a else a

/-- Whether the bits of a binary interchange format are finite. -/
def finiteFloat (ew mw bits : Nat) : Bool := bits / 2 ^ mw % 2 ^ ew != 2 ^ ew - 1

/-- IEEE binary16 bits of a value. -/
def toF16 (q : Rat) : Nat := toFloat 5 10 q
/-- The value of binary16 bits. -/
def ofF16 (b : Nat) : Rat := ofFloat 5 10 b
/-- IEEE binary32 bits of a value. -/
def toF32 (q : Rat) : Nat := toFloat 8 23 q
/-- The value of binary32 bits. -/
def ofF32 (b : Nat) : Rat := ofFloat 8 23 b

/-- The binary32 bits of an interpolated value: those nearest to it or a neighbour of them, which one is free (R122, log 25). -/
def nearF32 (key : List Nat) (q : Rat) : Nat := ((toF32 q : Nat) + clampInt (-1) 1 (Config.freeError key)).toNat

/-- A value rounded to PF24 (R142): nearest even with 16 fraction bits, zero below 2^−62, saturated at the largest value. -/
def pf (q : Rat) : Rat :=
  let r := roundSig 16 q
  let top : Rat := pow2 63 * (2 - 1 / 65536)
  if absRat r < pow2 (-62) then 0 else if top < r then top else if r < -top then -top else r

/-- A number of the colour pipeline: its value, and its sign, which a zero keeps too (R142). -/
structure Pf where
  q   : Rat
  neg : Bool
deriving DecidableEq, Repr

/-- The result of an operation, rounded to PF24, or kept exact for the evaluation that R143 compares with. A result that rounds to zero keeps its sign;
z is the sign of one that is exactly zero. -/
def Pf.of (ex : Bool) (q : Rat) (z : Bool := false) : Pf := { q := if ex then q else pf q, neg := if q = 0 then z else decide (q < 0) }
/-- A product. -/
def Pf.mul (ex : Bool) (a b : Pf) : Pf := Pf.of ex (a.q * b.q) (a.neg != b.neg)
/-- A sum; that of a number and its opposite is +0 (DESIGN CHOICE, log 25). -/
def Pf.add (ex : Bool) (a b : Pf) : Pf := Pf.of ex (a.q + b.q) (a.neg && b.neg)
/-- A difference. -/
def Pf.sub (ex : Bool) (a b : Pf) : Pf := Pf.add ex a { q := -b.q, neg := !b.neg }
/-- Limits a number to a range. -/
def Pf.clamp (lo hi : Rat) (a : Pf) : Pf := if a.q < lo then Pf.of true lo else if hi < a.q then Pf.of true hi else a
/-- Its IEEE binary16 bits. -/
def Pf.toF16 (a : Pf) : Nat := if a.q = 0 then (if a.neg then 0x8000 else 0) else Machine.toF16 a.q

/-! ## Lists -/

/-- Inserts by a key, after equal keys. -/
def insertBy {α : Type} (key : α → Int) (x : α) : List α → List α
  | [] => [x]
  | y :: rest => if key x < key y then x :: y :: rest else y :: insertBy key x rest

/-- Sorts by a key; equal keys keep their order. -/
def sortBy {α : Type} (key : α → Int) (l : List α) : List α := l.foldl (fun acc x => insertBy key x acc) []

/-- The lower middle value of a list. -/
def median (l : List Int) : Int := ((sortBy id l)[(l.length - 1) / 2]?).getD 0

/-- Offsets −n to n. -/
def spanInt (n : Nat) : List Int := (List.range (2 * n + 1)).map (fun (i : Nat) => (i : Int) - (n : Int))

/-- The offsets of a window in scan order, as (dx, dy). -/
def window (n : Nat) : List (Int × Int) := (spanInt n).flatMap (fun dy => (spanInt n).map (fun dx => (dx, dy)))

end Sys2Proof.Machine
end

