-- ==== Sys2Proof/Machine/RawPipe.lean ====
section
/-!
DEFINITION. The raw pipeline (chapter 04) as functions of a frame: each stage gives the value of a pixel from the stages before it.
Results that the manual bounds by an error are any value inside the bound (log 25); rounding that it leaves open has the bound of
2 LSB that Table 04-2 gives its neighbours (log 25).
-/
namespace Sys2Proof.Machine

/-- What the pipeline reads: the memory, the context and the frame; and, for an output pixel, its place: the stages read no site further from it than
the support of R107. -/
structure Env where
  mem : Memory
  c   : CamCtx
  f   : CamFrame
  cam : Nat
  ctr : Option (Nat × Nat) := none
deriving DecidableEq, Repr

/-- The environment of an output pixel. -/
def Env.around (v : Env) (x y : Nat) : Env := { v with ctr := some (x, y) }
/-- A coordinate within 16 of a centre: a further one is replaced by the nearest within that has the same CFA position, as outside the active area
(R107; DESIGN CHOICE, log 31). -/
def within16 (c x : Nat) : Nat :=
  if c + 16 < x then x - roundUp (x - (c + 16)) 4 else if x + 16 < c then x + roundUp (c - (x + 16)) 4 else x
/-- The site that a stage reads for a site (R107). -/
def Env.inSupport (v : Env) (x y : Nat) : Nat × Nat := match v.ctr with
  | some c => (within16 c.1 x, within16 c.2 y)
  | none => (x, y)
/-- The profile of a frame's context. -/
def Env.p (v : Env) : List Byte := v.c.profile
/-- The block of a raw stage in the frame's set. -/
def Env.blk (v : Env) (n : Nat) : List Byte := (vget v.f.set.stages { on := false, blk := [] } n).blk
/-- Whether a raw stage is enabled in the frame's set. -/
def Env.on (v : Env) (n : Nat) : Bool := (vget v.f.set.stages { on := false, blk := [] } n).on
/-- The key of a free error: a stage, the frame and a place. R108: it does not depend on the slice or the span. -/
def Env.key (v : Env) (stage ch : Nat) (x y : Nat) : List Nat := [stage, v.cam, v.f.rcd.run, v.f.fn, ch, x, y]

/-- The nearest active coordinate with the same CFA position (R107): n is ACTIVE_W or ACTIVE_H. -/
def nearSite (n : Nat) (x : Int) : Nat :=
  let r := (x % 4).toNat
  if x < 0 then (if r < n then r else 0)
  else if x.toNat < n then x.toNat
  else (n - 1) - ((n - 1) + 4 - r) % 4

/-- The column of a place. -/
def Env.x (v : Env) (x : Int) : Nat := nearSite (pfW v.p) x
/-- The line of a place. -/
def Env.y (v : Env) (y : Int) : Nat := nearSite (pfH v.p) y
/-- The channel of a place. -/
def Env.ch (v : Env) (x y : Int) : Nat := cfaOf v.p (v.x x) (v.y y)
/-- The channel whose coefficients a site takes: G in a monochrome context (R116). -/
def Env.coef (v : Env) (x y : Int) : Nat := if pfMono v.p then 1 else v.ch x y

/-! ## Tables -/

/-- The payload of a table in use, after its header (Table 04-7). -/
def Env.table (v : Env) (kind : Nat) : Option (List Byte) :=
  (vget v.f.set.tables none kind).map (fun t => v.mem.read t.addr t.len)
/-- Whether the bytes of a table touched by a range carry a poison mark. -/
def Env.tablePoison (v : Env) (kind off n : Nat) : Bool :=
  match vget v.f.set.tables none kind with
  | some t => (v.mem.poisonIn (t.addr + off) n).isSome
  | none => false
/-- Whether a table has been changed in place since it was loaded: its CRC is no longer that of its header (R113, R114). crc is the
CRC-32C. -/
def Env.tableIntact (v : Env) (crc : List Byte → Nat) (kind : Nat) : Bool :=
  match v.table kind with
  | some t => crc (t.drop 32) == f32 t 0x0C
  | none => true

/-! ## Unpack (R117, R118) -/

/-- The code of a pixel as received. -/
def Env.rawCode (v : Env) (e : Nat) (x y : Nat) : Nat :=
  let d := pfDepth v.p
  let a := v.c.lineAddr v.f.slot e y
  let high := bitOf (f8 (v.blk 0) 0) 0
  match pfPack v.p with
  | 0 => leNat (v.mem.read (a + x * d / 8) 4) / 2 ^ (x * d % 8) % 2 ^ d
  | 1 => let n := leNat (v.mem.read (a + 2 * x) 2); if high then n / 2 ^ (16 - d) else n % 2 ^ d
  | _ => let n := leNat (v.mem.read (a + 4 * x) 4); if high then n / 2 ^ (32 - d) else n % 2 ^ d

/-- The points of a decompanding curve. -/
def curvePoints (t : List Byte) : List (Nat × Nat) :=
  (List.range (f16 t 4)).map (fun i => (f32 t (32 + 8 * i), f32 t (36 + 8 * i)))

/-- Linear interpolation between the points of a decompanding curve, rounded to nearest (R118). -/
def decompand (pts : List (Nat × Nat)) (code : Nat) : Nat :=
  match pts.find? (fun a => code ≤ a.1), (pts.filter (fun a => a.1 < code)).getLast? with
  | some b, none => b.2
  | none, some a => a.2
  | some b, some a => (roundRat ((a.2 : Rat) + ((code - a.1 : Nat) : Rat) * ((b.2 : Rat) - a.2) / ((b.1 - a.1 : Nat) : Rat))).toNat
  | none, none => code

/-- Whether DECOMPAND acts on the frame: a poisoned curve is skipped (R139). -/
def Env.decompanding (v : Env) : Bool := bitOf (f8 (v.blk 0) 0) 1 && !v.f.bypassed.contains 5

/-- The u24 code of a pixel after decompanding. -/
def Env.code (v : Env) (e x y : Nat) : Nat :=
  let n := v.rawCode e x y
  if v.decompanding then match v.table 5 with
    | some t => decompand (curvePoints t) n
    | none => n
  else n

/-! ## Black and white level (R119) -/

/-- BLACK[e][i]. -/
def Env.black (v : Env) (e i : Nat) : Nat := f32 (v.blk 1) (0x40 * e + 4 * i) % 2 ^ 24
/-- WHITE[e]. -/
def Env.white (v : Env) (e : Nat) : Nat := f32 (v.blk 1) (0xC0 + 4 * e) % 2 ^ 24

/-- The normalised value of a code. -/
def Env.norm (v : Env) (e x y : Nat) : Rat :=
  let b := v.black e (4 * (y % 4) + x % 4)
  ((v.code e x y : Rat) - b) / ((v.white e : Rat) - b)

/-- L24 after the black and white level stage. -/
def Env.level (v : Env) (e : Nat) (x y : Int) : Int :=
  let q := v.inSupport (v.x x) (v.y y)
  toL24 1 (v.key 1 e q.1 q.2) (v.norm e q.1 q.2)

/-! ## Noise (R122, R123) -/

/-- A and B of a channel of an exposure, as the record keeps them. -/
def Env.coefA (v : Env) (e ch : Nat) : Rat := ofF32 ((v.f.rcd.noise[2 * (4 * e + ch)]?).getD 0)
/-- The read coefficient. -/
def Env.coefB (v : Env) (e ch : Nat) : Rat := ofF32 ((v.f.rcd.noise[2 * (4 * e + ch) + 1]?).getD 0)
/-- σ² of a value of a channel in an exposure. -/
def Env.sigma2 (v : Env) (e ch : Nat) (q : Rat) : Rat := v.coefA e ch * maxRat q 0 + v.coefB e ch
/-- Whether the noise model acts on the frame: loaded, and not poisoned at the start of frame (R139). -/
def Env.noiseOk (v : Env) : Bool := (vget v.f.set.tables none 4).isSome && !v.f.bypassed.contains 4

/-! ## Defect correction (R120, R121) -/

/-- The entries of a defect list. -/
def defectEntries (t : List Byte) : List (Nat × Nat × Nat × Nat) :=
  let n := if f16 t 4 = 0 then 65536 else f16 t 4
  (List.range n).map (fun i => (f16 t (32 + 8 * i), f16 t (34 + 8 * i), f16 t (36 + 8 * i) % 16, f16 t (36 + 8 * i) / 16))

/-- The type of the entry that lists a pixel. -/
def listedIn (es : List (Nat × Nat × Nat × Nat)) (x y : Nat) : Option Nat :=
  (es.find? (fun e => match e.2.2.1 with
    | 0 => e.1 == x && e.2.1 == y
    | 1 => e.1 == x && e.2.1 ≤ y && y < e.2.1 + e.2.2.2
    | _ => e.2.1 == y && e.1 ≤ x && x < e.1 + e.2.2.2)).map (fun e => e.2.2.1)

/-- The type of the defect list entry of a pixel, none where STATIC does not act. -/
def Env.listed (v : Env) (x y : Nat) : Option Nat :=
  if v.on 2 && bitOf (f16 (v.blk 2) 0) 0 && !v.f.bypassed.contains 1 then
    match v.table 1 with
    | some t => listedIn (defectEntries t) x y
    | none => none
  else none

/-- The neighbours of a pixel: the eight unlisted sites of its channel nearest within ±4, ties in scan order. -/
def Env.neighbours (v : Env) (x y : Nat) : List (Int × Int) :=
  let near := (window 4).filter (fun d => (d.1 != 0 || d.2 != 0)
    && v.ch (x + d.1) (y + d.2) == v.ch x y && (v.listed (v.x (x + d.1)) (v.y (y + d.2))).isNone)
  ((sortBy (fun d => d.1 * d.1 + d.2 * d.2) near).take 8).map (fun d => ((x : Int) + d.1, (y : Int) + d.2))

/-- The nearest unlisted site of the pixel's channel in a direction, within the ±4 lines and columns of its neighbours (DESIGN CHOICE, log 31). -/
def Env.along (v : Env) (x y : Nat) (dx dy : Int) : Option (Int × Int) :=
  ((List.range 4).map (fun (i : Nat) => ((x : Int) + dx * (i + 1), (y : Int) + dy * (i + 1)))).find? (fun q =>
    v.ch q.1 q.2 == v.ch x y && (v.listed (v.x q.1) (v.y q.2)).isNone)

/-- L24 after defect correction, and whether dynamic detection replaced the pixel. A poisoned list disables the stage (R139). -/
def Env.defect (v : Env) (e : Nat) (x y : Int) : Int × Bool :=
  let px := v.x x
  let py := v.y y
  let own := v.level e x y
  let at_ (q : Int × Int) : Int := v.level e q.1 q.2
  let pair (a b : Option (Int × Int)) : Int := match a, b with
    | some a, some b => meanInt (v.key 2 e px py) (at_ a) (at_ b)
    | some a, none => at_ a
    | none, some b => at_ b
    | none, none => own
  if !v.on 2 || v.f.bypassed.contains 1 then (own, false)
  else match v.listed px py with
    | some 0 => let ns := v.neighbours px py; (if ns.isEmpty then own else median (ns.map at_), false)
    | some 1 => (pair (v.along px py (-1) 0) (v.along px py 1 0), false)
    | some _ => (pair (v.along px py 0 (-1)) (v.along px py 0 1), false)
    | none =>
      if bitOf (f16 (v.blk 2) 0) 1 && v.noiseOk then
        let vals := (v.neighbours px py).map at_
        match sortBy id vals with
        | [] => (own, false)
        | lo :: rest =>
          let hi := (rest.getLast?).getD lo
          let med := median vals
          let s2 := v.sigma2 e (v.coef x y) (ofL24 med)
          let overs (t : Nat) (d : Rat) : Bool := 0 < d && ((t : Rat) / 4096) ^ 2 * s2 < d ^ 2
          if overs (f16 (v.blk 2) 2) (ofL24 own - ofL24 hi) || overs (f16 (v.blk 2) 4) (ofL24 lo - ofL24 own) then (med, true)
          else (own, false)
      else (own, false)

/-! ## HDR merge (R124, R125) -/

/-- The ratio of an exposure to exposure 0, u8.16, clamped to 1.0 to 255.99. Where a time or gain is zero the quotient has no value
and the ratio is free. -/
def Env.ratio (v : Env) (e : Nat) : Rat :=
  let b := v.blk 3
  let lim (q : Rat) : Rat := clampRat 1 (((255 * 65536 + 64881 : Nat) : Rat) / 65536) ((roundRat (q * 65536) : Rat) / 65536)
  if e = 0 then 1
  else if bitOf (f16 b 0) 0 then lim ((f32 b (4 * e) : Rat) / 65536)
  else
    let n := vget v.f.rcd.pipe.t 0 0 * vget v.f.rcd.pipe.g 0 0
    let d := vget v.f.rcd.pipe.t 0 e * vget v.f.rcd.pipe.g 0 e
    let trim := (f16 b (0x12 + 2 * e) : Rat) / 16384
    if n = 0 ∨ d = 0 then lim ((Config.freeRatio v.cam v.f.rcd.run v.f.fn e : Rat) / 65536)
    else lim ((n : Rat) / d * trim)

/-- A merge in progress: its value, the weight of each exposure merged so far, whether deghosting forced a weight to 0, and whether every weight was. -/
structure Merged where
  val     : Rat
  weights : List (Nat × Rat)
  ghost   : Bool
  zero    : Bool
deriving DecidableEq, Repr

/-- The source exposure: the one with the larger weight, ties going to the shorter exposure (R123). -/
def Merged.src (m : Merged) : Nat := (m.weights.foldl (fun b w => if b.2 < w.2 then w else b) (0, -1)).1

/-- σ² of a merged value with its source exposure (R123). -/
def Env.merged2 (v : Env) (src ch : Nat) (q : Rat) : Rat :=
  let r := v.ratio src
  v.coefA src ch * r * maxRat q 0 + v.coefB src ch * r ^ 2

/-- One step of the merge loop of R125 for exposure e. -/
def Env.mergeStep (v : Env) (x y : Int) (m : Merged) (e : Nat) : Merged :=
  let b := v.blk 3
  let val := ofL24 (v.defect e x y).1
  let s := val * v.ratio e
  let lo := (f16 b (0x0C + 4 * e) : Rat) / 32768
  let hi := (f16 b (0x0E + 4 * e) : Rat) / 32768
  let w0 : Rat := if hi ≤ val then 0 else if val ≤ lo then 1 else (hi - val) / (hi - lo)
  let gk := (f16 b 0x18 : Rat) / 4096
  let ghost := bitOf (f16 b 0) 1 && v.noiseOk && gk ^ 2 * v.merged2 m.src (v.coef x y) m.val < (s - m.val) ^ 2
  let w := if ghost then 0 else w0
  { val := w * s + (1 - w) * m.val, weights := m.weights.map (fun p => (p.1, (1 - w) * p.2)) ++ [(e, w)],
    ghost := m.ghost || ghost, zero := m.zero && w == 0 }

/-- The merge of a pixel: L24, its source exposure, its clip flag, and whether deghosting forced a weight of it to 0. -/
def Env.merge (v : Env) (x y : Int) : Int × Nat × Bool × Bool :=
  let n := pfNexp v.p
  if n ≤ 1 then ((v.defect 0 x y).1, 0, false, false)
  else if !v.on 3 then ((v.defect 0 x y).1, 0, false, false)
  else
    let vs := ofL24 (v.defect (n - 1) x y).1
    let m0 : Merged := { val := vs * v.ratio (n - 1), weights := [(n - 1, 1)], ghost := false, zero := true }
    let m := ((List.range (n - 1)).reverse).foldl (v.mergeStep x y) m0
    let clip := (f16 (v.blk 3) 2 : Rat) / 32768 ≤ vs && m.zero
    (toL24 2 (v.key 3 0 (v.x x) (v.y y)) m.val, m.src, clip, m.ghost)

/-- σ² of a merged pixel. -/
def Env.pixel2 (v : Env) (x y : Int) : Rat := let m := v.merge x y; v.merged2 m.2.1 (v.coef x y) (ofL24 m.1)

/-! ## Poison in tiles (R138) -/

/-- Whether stored bytes of a line of an exposure between two columns carry a mark. -/
def Env.lineMarked (v : Env) (e y x0 x1 : Nat) : Bool :=
  let bits := match pfPack v.p with | 0 => pfDepth v.p | 1 => 16 | _ => 32
  let a := v.c.lineAddr v.f.slot e y
  (v.mem.poisonIn (a + x0 * bits / 8) ((x1 * bits + 7) / 8 - x0 * bits / 8)).isSome

/-- Whether a 64 × 64 output tile is flagged by marks of the ingest queue within 16 lines and columns, as far as the pass over
band k can see: the lines of bands up to k (DEDUCED, log 31). -/
def Env.tileBad (v : Env) (k tx ty : Nat) : Bool :=
  let x0 := 64 * tx - 16
  let x1 := Nat.min (pfW v.p) (64 * tx + 80)
  let y0 := 64 * ty - 16
  let y1 := Nat.min (Nat.min (pfH v.p) (64 * k + 64)) (64 * ty + 80)
  (List.range (y1 - y0)).any (fun i => (List.range (pfNexp v.p)).any (fun e => v.lineMarked e (y0 + i) x0 x1))

/-- Whether the tile of a pixel is flagged. -/
def Env.bad (v : Env) (x y : Nat) : Bool := v.f.badTiles.any (fun t => t.tx == x / 64 && t.ty == y / 64)

/-! ## Spatial noise reduction (R126) -/

/-- L24 after spatial noise reduction. -/
def Env.spatial (v : Env) (x y : Int) : Int :=
  let own := (v.merge x y).1
  if !(v.on 4 && v.noiseOk) then own
  else
    let b := v.blk 4
    let s2 := ((f16 b 2 : Rat) / 4096) ^ 2 * v.pixel2 x y
    let px := v.x x
    let py := v.y y
    let one (d : Int × Int) : Rat × Rat :=
      let d2 := (d.1 * d.1 + d.2 * d.2).toNat
      let q := (v.merge (px + d.1) (py + d.2)).1
      let diff := (ofL24 q - ofL24 own) ^ 2
      let w : Rat := if s2 = 0 then (if diff = 0 then 1 else 0) else maxRat 0 (1 - diff / s2)
      let w := (f8 b (8 + Nat.min 15 (d2 / 2)) : Rat) / 256 * w
      (w, w * ofL24 q)
    let ws := ((window 4).filter (fun d => v.ch (px + d.1) (py + d.2) == v.ch x y
      && !v.bad (v.x (px + d.1)) (v.y (py + d.2)))).map one
    let tot := sumRat (ws.map (·.1))
    let mean := if tot = 0 then ofL24 own else sumRat (ws.map (·.2)) / tot
    toL24 2 (v.key 4 0 px py) (ofL24 own + (1 - (f16 b 4 : Rat) / 65536) * (mean - ofL24 own))

/-! ## Temporal noise reduction (R127 to R130) -/

/-- STRIDE16 of the temporal reference. -/
def stride16 (p : List Byte) : Nat := roundUp (pfW p * 2) 64
/-- The address of a sample of a reference plane. -/
def Env.refAddr (v : Env) (plane x y : Nat) : Nat :=
  v.f.set.tnrBuf + plane * (pfH v.p * stride16 v.p) + y * stride16 v.p + 2 * x
/-- A sample of the reference that the frame reads. -/
def Env.refAt (v : Env) (x y : Int) : Rat := ofF16 (leNat (v.mem.read (v.refAddr (1 - v.f.tnrWrite) (v.x x) (v.y y)) 2))

/-- The pitches of the rectangular lattice that a channel's sites form, along lines and along columns, each 1, 2 or 4; none otherwise (R128). -/
def latticePitch (p : List Byte) (ch : Nat) : Option (Nat × Nat) :=
  let site (i : Nat) : Bool := cfaAt p i == ch
  [(1, 1), (1, 2), (1, 4), (2, 1), (2, 2), (2, 4), (4, 1), (4, 2), (4, 4)].find? (fun k =>
    match (List.range 16).find? site with
    | none => false
    | some o => (List.range 16).all (fun i => site i == (i % 4 % k.1 == o % 4 % k.1 && i / 4 % k.2 == o / 4 % k.2)))

/-- The interpolation of R128 at a place given in quarter pixels, from the sites of one channel: val gives a site's value. -/
def Env.interp (v : Env) (ch : Nat) (val : Int → Int → Rat) (qx qy : Int) : Rat :=
  match latticePitch v.p ch, (List.range 16).find? (fun i => cfaAt v.p i == ch) with
  | some k, some o =>
    let ox : Int := (o % 4 % k.1 : Nat)
    let oy : Int := (o / 4 % k.2 : Nat)
    let kx : Int := 4 * (k.1 : Int)
    let ky : Int := 4 * (k.2 : Int)
    let ix := (qx - 4 * ox) / kx
    let iy := (qy - 4 * oy) / ky
    let fx : Rat := ((qx - 4 * ox - ix * kx : Int) : Rat) / (kx : Rat)
    let fy : Rat := ((qy - 4 * oy - iy * ky : Int) : Rat) / (ky : Rat)
    let x0 := ox + ix * k.1
    let y0 := oy + iy * k.2
    (1 - fy) * ((1 - fx) * val x0 y0 + fx * val (x0 + k.1) y0) + fy * ((1 - fx) * val x0 (y0 + k.2) + fx * val (x0 + k.1) (y0 + k.2))
  | _, _ =>
    let cx := qx / 4
    let cy := qy / 4
    let d2 (d : Int × Int) : Int := (4 * (cx + d.1) - qx) ^ 2 + (4 * (cy + d.2) - qy) ^ 2
    let near := (sortBy d2 ((window 5).filter (fun d => v.ch (cx + d.1) (cy + d.2) == ch))).take 4
    match near.find? (fun d => d2 d == 0) with
    | some d => val (cx + d.1) (cy + d.2)
    | none =>
      let ws := near.map (fun d => (1 / sqrtRat ((d2 d : Rat)), val (cx + d.1) (cy + d.2)))
      let tot := sumRat (ws.map (·.1))
      if tot = 0 then 0 else sumRat (ws.map (fun w => w.1 * w.2)) / tot

/-- The address of a motion field of a context's ring (Table 12-2, R193). -/
def fieldAddr (cam i : Nat) : Nat := 0x10000000 + 0x3400000 * cam + 0x340000 * i
/-- BX of a field. -/
def fieldBx (p : List Byte) : Nat := ceilDiv (pfW p) 16
/-- BY of a field. -/
def fieldBy (p : List Byte) : Nat := ceilDiv (pfH p) 16
/-- REC_STRIDE of a field (R192). -/
def recStride (p : List Byte) : Nat := roundUp (8 * fieldBx p) 64
/-- The size of a field in bytes (R192). -/
def fieldBytes (p : List Byte) : Nat := 64 + fieldBy p * recStride p + 8 * fieldBy p

/-- The offset of the row sums of a field. -/
def sumsOff (p : List Byte) : Nat := 64 + fieldBy p * recStride p

/-- The vector in quarter pixels, the cost and INVALID of the block of a pixel; a poisoned record is as missing (R138, R20). -/
def Env.vector (v : Env) (x y : Nat) : Int × Int × Nat × Bool :=
  match v.f.fieldPlace with
  | none => (0, 0, 0xFFFF, true)
  | some i =>
    let a := fieldAddr v.cam i + 64 + y / 16 * recStride v.p + x / 16 * 8
    let w := leNat (v.mem.read a 4)
    let cost := leNat (v.mem.read (a + 6) 2)
    (sext 12 (w % 4096), sext 11 (bitsOf w 22 12), cost, bitOf w 26 || (v.mem.poisonIn a 8).isSome)

/-- The exposure ratio k of R128 of two products T0 × G0; where one is zero the manual's quotient has no value, and it is free. -/
def tnrRatio (cam run fn now before : Nat) : Rat :=
  if now = 0 ∨ before = 0 then (Config.freeRatio cam run fn 0 : Rat) / 65536 else (now : Rat) / before

/-- The exposure ratio of a frame to its reference. -/
def CamFrame.kRatio (f : CamFrame) : Rat :=
  tnrRatio f.rcd.cam f.rcd.run f.fn (vget f.rcd.pipe.t 0 0 * vget f.rcd.pipe.g 0 0) f.predTg

/-- Whether a line of the reference that a tile's support touches is marked (R130): what the blocks of the tile reach along their vectors, with the
sites around that R128 interpolates from. -/
def Env.refMarked (v : Env) (x y : Nat) : Bool :=
  let w := pfW v.p
  let h := pfH v.p
  (List.range 16).any (fun b =>
    let bx := x / 64 * 64 + b % 4 * 16
    let by_ := y / 64 * 64 + b / 4 * 16
    let mv := v.vector bx by_
    let vx : Int := if mv.2.2.2 then 0 else mv.1 / 4
    let vy : Int := if mv.2.2.2 then 0 else mv.2.1 / 4
    let x0 := (clampInt 0 (w - 4) (bx + vx - 5)).toNat
    let x1 := (clampInt 3 (w - 1) (bx + vx + 21)).toNat
    let y0 := (clampInt 0 (h - 4) (by_ + vy - 5)).toNat
    let y1 := (clampInt 3 (h - 1) (by_ + vy + 21)).toNat
    bx < w && by_ < h && (List.range (y1 + 1 - y0)).any (fun i =>
      (v.mem.poisonIn (v.refAddr (1 - v.f.tnrWrite) x0 (y0 + i)) (2 * (x1 + 1 - x0))).isSome))

/-- L24 after temporal noise reduction. -/
def Env.temporal (v : Env) (x y : Int) : Int :=
  let own := v.spatial x y
  let px := v.x x
  let py := v.y y
  if !(v.on 5 && v.noiseOk) || v.f.tnrReset || v.refMarked px py then own
  else
    let k := v.f.kRatio
    let b := v.blk 5
    let mv := v.vector px py
    let vx := if mv.2.2.2 then 0 else mv.1
    let vy := if mv.2.2.2 then 0 else mv.2.1
    let r := k * v.interp (v.ch x y) (fun a c => v.refAt a c) (4 * (px : Int) + vx) (4 * (py : Int) + vy)
    let d := r - ofL24 own
    let s2 := ((f16 b 2 : Rat) / 4096) ^ 2 * v.pixel2 x y
    let w : Rat := if s2 = 0 then (if d = 0 then 1 else 0) else maxRat 0 (1 - d ^ 2 / s2)
    let alpha := if f16 b 4 < mv.2.2.1 then 0 else (f16 b 0 : Rat) / 65536 * w
    if alpha = 0 then own else toL24 2 (v.key 5 0 px py) (ofL24 own + alpha * d)

/-! ## Shading and flat field (R131) -/

/-- Catmull-Rom weights of the four nodes around a fraction. -/
def catmull (t : Rat) : List Rat :=
  [(-t + 2 * t ^ 2 - t ^ 3) / 2, (2 - 5 * t ^ 2 + 3 * t ^ 3) / 2, (t + 4 * t ^ 2 - 3 * t ^ 3) / 2, (-(t ^ 2) + t ^ 3) / 2]

/-- The shading gain of a channel at a pixel, by bicubic interpolation with edge nodes replicated. -/
def gridGain (p t : List Byte) (ch x y : Nat) : Rat :=
  let nx := f16 t 4
  let ny := f16 t 6
  let chans := pfChannels p
  let k := (chans.idxOf? ch).getD 0
  let node (i j : Int) : Rat :=
    let a := (clampInt 0 (nx - 1) i).toNat
    let b := (clampInt 0 (ny - 1) j).toNat
    (f16 t (32 + 2 * ((b * nx + a) * chans.length + k)) : Rat) / 8192
  let ux : Rat := (x : Rat) * ((nx : Rat) - 1) / ((pfW p : Rat) - 1)
  let uy : Rat := (y : Rat) * ((ny : Rat) - 1) / ((pfH p : Rat) - 1)
  let ix := ux.floor
  let iy := uy.floor
  let wx := catmull (ux - ix)
  let wy := catmull (uy - iy)
  sumRat ((wy.zipIdx).map (fun b => b.1 * sumRat ((wx.zipIdx).map (fun a => a.1 * node (ix + a.2 - 1) (iy + b.2 - 1)))))

/-- L24 after shading and flat field. -/
def Env.shade (v : Env) (x y : Int) : Int :=
  let own := v.temporal x y
  let px := v.x x
  let py := v.y y
  let b := f8 (v.blk 6) 0
  let grid : Rat := if bitOf b 0 && !v.f.bypassed.contains 2 then
    match v.table 2 with | some t => gridGain v.p t (v.coef x y) px py | none => 1
    else 1
  let flat : Rat := if bitOf b 1 && !v.f.bypassed.contains 3 then
    match v.table 3 with
    | some t => 1 + (sext 8 (f8 t (32 + py * roundUp (pfW v.p) 64 + px)) : Rat) / 1024
    | none => 1
    else 1
  if !v.on 6 || (grid == 1 && flat == 1) then own else toL24 2 (v.key 6 0 px py) (ofL24 own * grid * flat)

/-! ## NIR crosstalk (R147) -/

/-- XT[c][j] in s2.13. -/
def xtCoef (b : List Byte) (c j : Nat) : Rat := (sext 16 (f16 b (8 + 2 * (4 * c + j))) : Rat) / 8192

/-- L24 after NIR crosstalk removal. -/
def Env.crosstalk (v : Env) (x y : Int) : Int :=
  let own := v.shade x y
  let b := v.f.set.spectral
  if !(bitOf (f16 b 0) 0 && pfNir v.p) then own
  else
    let c := v.ch x y
    let est (j : Nat) : Rat := if j = c then ofL24 own
      else v.interp j (fun a d => ofL24 (v.shade a d)) (4 * (v.x x : Int)) (4 * (v.y y : Int))
    toL24 2 (v.key 7 0 (v.x x) (v.y y)) (sumRat ((pfChannels v.p).map (fun j => xtCoef b c j * est j)))

/-! ## White-balance prescale (R132) -/

/-- The prescale gain of a channel, u4.16. -/
def Env.gain (v : Env) (ch : Nat) : Rat := ((vget v.f.rcd.pipe.wb 0x10000 ch : Nat) : Rat) / 65536

/-- The limit of a clipped highlight. -/
def Env.clipLimit (v : Env) : Rat :=
  let sat := (f16 (v.blk 3) 2 : Rat) / 32768 * v.ratio (pfNexp v.p - 1)
  match (pfOwn v.p).map (fun ch => sat * v.gain ch) with
  | [] => sat
  | a :: rest => rest.foldl minRat a

/-- L24 after white-balance prescale, and its clip flag. -/
def Env.balanced (v : Env) (x y : Int) : Int × Bool :=
  let clip := (v.merge x y).2.2.1
  let q := ofL24 (v.crosstalk x y) * v.gain (v.ch x y)
  let q := if clip && f8 (v.blk 7) 0 % 4 == 0 then minRat q v.clipLimit else q
  (toL24 1 (v.key 8 0 (v.x x) (v.y y)) q, clip)

/-! ## Demosaic (R133) -/

/-- The guide channel: the one with the most sites, ties to G, R, B, NIR, unless GUIDE names one. -/
def Env.guide (v : Env) : Nat :=
  let g := f8 (v.blk 8) 4
  if g < 4 then g
  else ([1, 0, 2, 3].foldl (fun best ch => if cfaCount v.p best < cfaCount v.p ch then ch else best) 1)

/-- The mosaic after prescale. -/
def Env.mosaic (v : Env) (x y : Int) : Rat := ofL24 (v.balanced x y).1

/-- E_d: the sum of absolute differences along a direction of the pairs that lie in the 5 × 5 window. -/
def Env.edge (v : Env) (x y dx dy : Int) : Rat :=
  sumRat (((window 2).filter (fun d => (d.1 + dx).natAbs ≤ 2 && (d.2 + dy).natAbs ≤ 2)).map (fun d => absRat (v.mosaic (x + d.1) (y + d.2) - v.mosaic (x + d.1 + dx) (y + d.2 + dy))))

/-- The four directions 0°, 45°, 90° and 135°. -/
def directions : List (Int × Int) := [(1, 0), (1, 1), (0, 1), (-1, 1)]

/-- The weight of a direction: 1 / (σ + E_d)². -/
def Env.dirWeight (v : Env) (x y : Int) (d : Int × Int) : Rat :=
  let q := sqrtRat (v.pixel2 x y) + v.edge x y d.1 d.2
  if q = 0 then 1 else 1 / q ^ 2

/-- The estimate of a channel along a direction: the mean of its nearest samples on both sides plus half the second difference of the site's own
channel, 2v − v_e − v_f. -/
def Env.dirEstimate (v : Env) (ch : Nat) (x y : Int) (d : Int × Int) : Option Rat :=
  let find (s : Int) (c : Nat) : Option (Int × Int) := ((List.range 4).map (fun (i : Nat) =>
    (x + s * d.1 * (i + 1), y + s * d.2 * (i + 1)))).find? (fun q => v.ch q.1 q.2 == c)
  let own := v.ch x y
  match find 1 ch, find (-1) ch with
  | some a, some b =>
    let second : Rat := match find 1 own, find (-1) own with
      | some e, some f => 2 * v.mosaic x y - v.mosaic e.1 e.2 - v.mosaic f.1 f.2
      | _, _ => 0
    some ((v.mosaic a.1 a.2 + v.mosaic b.1 b.2) / 2 + second / 2)
  | _, _ => none

/-- The guide value of a site: its sample, or the weighted directional estimates. -/
def Env.guideAt (v : Env) (x y : Int) : Rat :=
  let g := v.guide
  if v.ch x y = g then v.mosaic x y
  else
    let es := directions.filterMap (fun d => (v.dirEstimate g x y d).map (fun e => (v.dirWeight x y d, e)))
    let tot := sumRat (es.map (·.1))
    if tot = 0 then v.interp g (fun a b => v.mosaic a b) (4 * x) (4 * y) else sumRat (es.map (fun w => w.1 * w.2)) / tot

/-- The colour difference of a channel to the guide at a site, interpolated from the channel's nearest sites with the directional weights. -/
def Env.diffAt (v : Env) (ch : Nat) (x y : Int) : Rat :=
  let at_ (q : Int × Int) : Rat := v.mosaic q.1 q.2 - v.guideAt q.1 q.2
  if v.ch x y = ch then at_ (x, y)
  else
    let side (d : Int × Int) (s : Int) : List (Rat × Rat) :=
      match ((List.range 4).map (fun (i : Nat) => (x + s * d.1 * (i + 1), y + s * d.2 * (i + 1)))).find?
        (fun q => v.ch q.1 q.2 == ch) with
      | some q => [(v.dirWeight x y d, at_ q)]
      | none => []
    let es := directions.flatMap (fun d => side d 1 ++ side d (-1))
    let tot := sumRat (es.map (·.1))
    if tot = 0 then v.interp ch (fun a b => at_ (a, b)) (4 * x) (4 * y) else sumRat (es.map (fun w => w.1 * w.2)) / tot

/-- The median of nine rational values. -/
def medianRat (l : List Rat) : Rat :=
  ((l.foldl (fun acc x => acc.filter (fun y => y ≤ x) ++ [x] ++ acc.filter (fun y => !(y ≤ x))) [])[(l.length - 1) / 2]?).getD 0

/-- The demosaiced plane of a channel at a pixel, L24. -/
def Env.plane (v : Env) (ch : Nat) (x y : Int) : Int :=
  let px := v.x x
  let py := v.y y
  let b := v.blk 8
  if pfMono v.p then (v.balanced x y).1
  else if v.ch x y = ch then (v.balanced x y).1
  else
    let q : Rat :=
      if f16 b 0 % 4 = 1 then v.interp ch (fun a c => v.mosaic a c) (4 * (px : Int)) (4 * (py : Int))
      else
        let guide := v.guideAt px py
        if ch = v.guide then guide
        else
          let d := v.diffAt ch px py
          let m := medianRat ((window 1).map (fun o => v.diffAt ch (px + o.1) (py + o.2)))
          let fcs := (f16 b 2 : Rat) / 65536
          guide + (1 - fcs) * d + fcs * m
    toL24 2 (v.key 9 ch px py) q

end Sys2Proof.Machine
end

