-- ==== Sys2Proof/Machine/ColourPipe.lean ====
section
/-!
DEFINITION. The colour and spectral pipeline (chapter 05) as functions of a frame: input matrix, look, output transfer and encoding,
chroma subsampling, and the spectral indices. Output codes lie within the error of R143 of the exact evaluation; past a function whose evaluation is the
device's own, which code inside it is free (log 25).
-/
namespace Sys2Proof.Machine

/-! ## Input matrix (R148)

Every step is given twice: in PF24 (ex false), where each conversion, product and sum is rounded (R142), and exact (ex true), the evaluation that R143
compares the output codes with. -/

/-- A binary32 coefficient of a block (R142). -/
def pfCoef (ex : Bool) (b : List Byte) (off : Nat) : Pf := Pf.of ex (ofF32 (f32 b off)) (bitOf (f32 b off) 31)

/-- A plane of a channel: the demosaiced plane converted (C2). -/
def Env.pfPlane (v : Env) (ex : Bool) (ch : Nat) (x y : Nat) : Pf := Pf.of ex (ofL24 ((v.around x y).plane ch x y))

/-- M[k][j] of a frame: M_A, or the blend of M_A and M_B by the matrix mix. -/
def Env.matrixAt (v : Env) (ex : Bool) (k j : Nat) : Pf :=
  let b := v.f.set.matrix
  let a := pfCoef ex b (4 + 4 * (4 * k + j))
  if bitOf (f32 b 0) 0 then
    let mix := Pf.of ex ((v.f.rcd.pipe.mix : Rat) / 65536)
    Pf.add ex (Pf.mul ex (Pf.sub ex (Pf.of ex 1) mix) a) (Pf.mul ex mix (pfCoef ex b (0x34 + 4 * (4 * k + j))))
  else a

/-- A sum of products in order. -/
def Pf.dot (ex : Bool) (l : List (Pf × Pf)) : Pf := match l with
  | [] => Pf.of ex 0
  | a :: rest => rest.foldl (fun acc x => Pf.add ex acc (Pf.mul ex x.1 x.2)) (Pf.mul ex a.1 a.2)

/-- AP1 linear R, G or B of a pixel (C3): products and sums rounded to PF24, channels in order. -/
def Env.ap1 (v : Env) (ex : Bool) (x y k : Nat) : Pf :=
  let chans := if pfNir v.p then [0, 1, 2, 3] else [0, 1, 2]
  Pf.add ex (Pf.dot ex (chans.map (fun j => (v.matrixAt ex k j, v.pfPlane ex j x y)))) (pfCoef ex v.f.set.matrix (0x64 + 4 * k))

/-! ## Curves (R150) and the look (R149) -/

/-- An F16 entry of a curve record. -/
def curveEntry (t : List Byte) (ch i : Nat) : Rat := ofF16 (f16 t (0x10 + 8192 * (if f8 t 1 = 1 then 0 else ch) + 2 * i))

/-- The index of a curve for an input (Table 05-5), and its fraction. -/
def curveIndex (domain : Nat) (x : Rat) : Rat :=
  if domain = 0 then
    if x ≤ pow2 (-24) then 0 else minRat 4095 (128 * (log2Rat x + 24))
  else clampRat 0 4095 (4095 * x)

/-- A curve applied to a value (R150); the result is rounded to PF24. -/
def curveApply (ex : Bool) (t : List Byte) (ch : Nat) (x : Pf) : Pf :=
  let u := curveIndex (f8 t 0) x.q
  let i := u.floor.toNat
  if 4095 ≤ i then Pf.of ex (curveEntry t ch 4095)
  else Pf.of ex (curveEntry t ch i + (u - i) * (curveEntry t ch (i + 1) - curveEntry t ch i))

/-- The look file in use. -/
def Env.lookFile (v : Env) : Option (List Byte) := v.f.set.look.map (fun l => v.mem.read l.addr l.len)

/-- An entry of the LUT body (Table 05-7). -/
def lutEntry (t : List Byte) (r g b k : Nat) : Pf :=
  let n := f16 t (f32 t 0x0C + 8 * (r + 65 * g + 4225 * b) + 2 * k)
  Pf.of true (ofF16 n) (bitOf n 15)

/-- Tetrahedral interpolation of the 3D LUT (R149). -/
def lutApply (ex : Bool) (t : List Byte) (c : Nat → Rat) (k : Nat) : Pf :=
  let p (a : Nat) : Rat := c a * 64
  let i (a : Nat) : Nat := Nat.min (p a).floor.toNat 63
  let f (a : Nat) : Rat := p a - i a
  let ge (a b : Nat) : Bool := f b ≤ f a
  let order : List Nat :=
    if ge 0 1 && ge 1 2 then [0, 1, 2] else if ge 0 2 && ge 0 1 then [0, 2, 1] else if ge 0 2 && ge 1 0 then [1, 0, 2]
    else if ge 1 2 && ge 2 0 then [1, 2, 0] else if ge 2 0 && ge 0 1 then [2, 0, 1] else [2, 1, 0]
  let at_ (n : Nat) : Pf :=
    let up (a : Nat) : Nat := i a + (if (order.take n).contains a then 1 else 0)
    lutEntry t (up 0) (up 1) (up 2) k
  let term (n : Nat) : Pf := Pf.mul ex (Pf.of ex (f ((order[n - 1]?).getD 0))) (Pf.sub ex (at_ n) (at_ (n - 1)))
  [1, 2, 3].foldl (fun acc n => Pf.add ex acc (term n)) (at_ 0)

/-- The look applied to a pixel (C4). -/
def Env.look (v : Env) (ex : Bool) (t : List Byte) (x y k : Nat) : Pf :=
  let shaped (a : Nat) : Rat :=
    let q := v.ap1 ex x y a
    let s := f32 t 0x14
    clampRat 0 1 (if bitOf (f8 t 8) 0 then curveApply ex (t.drop s) a q else q).q
  let out := lutApply ex t shaped k
  if bitOf (f8 t 8) 1 then curveApply ex (t.drop (f32 t 0x18)) k out else out

/-! ## Output (R152, R153) -/

/-- FORMAT of an output block. -/
def obFormat (b : List Byte) : Nat := f8 b 0 % 16
/-- DEPTH. -/
def obDepth (b : List Byte) : Nat := bitsOf (f8 b 0) 5 4
/-- PRIMARIES. -/
def obPrimaries (b : List Byte) : Nat := f8 b 1 % 8
/-- RANGE full. -/
def obFull (b : List Byte) : Bool := bitOf (f8 b 1) 3
/-- LOOK. -/
def obLook (b : List Byte) : Bool := bitOf (f8 b 1) 4
/-- TRANSFER. -/
def obTransfer (b : List Byte) : Nat := f8 b 2 % 16
/-- ENC. -/
def obEnc (b : List Byte) : Nat := bitsOf (f8 b 2) 5 4
/-- PQ_NITS; 0 selects 203. -/
def obPq (b : List Byte) : Nat := if f16 b 4 = 0 then 203 else f16 b 4
/-- HLG_GAIN; 0 selects 0x43D7. -/
def obHlg (b : List Byte) : Nat := if f16 b 6 = 0 then 0x43D7 else f16 b 6
/-- Bits of a depth code. -/
def depthBits : Nat → Nat
  | 0 => 8
  | 1 => 10
  | 2 => 12
  | _ => 16

/-- The matrices of Table 05-9 in millionths, row-major. -/
def primaryMatrix (n : Nat) : List Int :=
  match n with
  | 1 => [1705050, -621790, -83260, -130260, 1140800, -10550, -24000, -128970, 1152970]
  | 2 => [1025820, -20050, -5770, -2230, 1004580, -2350, -5010, -25290, 1030300]
  | 3 => [695452, 140679, 163869, 44795, 859671, 95534, -5526, 4025, 1001501]
  | _ => [1000000, 0, 0, 0, 1000000, 0, 0, 0, 1000000]

/-- A row of a primaries matrix applied to three values. -/
def primaryRow (ex : Bool) (n k : Nat) (c : Nat → Pf) : Pf :=
  if n = 0 then c k
  else Pf.dot ex ((List.range 3).map (fun j => (Pf.of ex ((((primaryMatrix n)[3 * k + j]?).getD 0 : Rat) / 1000000), c j)))

/-- BT.2100 PQ inverse EOTF of a normalised luminance. -/
def pqEncode (y : Rat) : Rat :=
  let p := powRat (clampRat 0 1 y) 1305 8192
  powRat ((3424 / 4096 + 2413 / 128 * p) / (1 + 2392 / 128 * p)) 2523 32

/-- BT.2100 HLG OETF. -/
def hlgEncode (e : Rat) : Rat :=
  let e := clampRat 0 1 e
  if e ≤ 1 / 12 then sqrtRat (3 * e)
  else 17883277 / 100000000 * (log2Rat (12 * e - 28466892 / 100000000) * (693147180559945 / 1000000000000000)) + 55991073 / 100000000

/-- The identity on a curve's domain, in place of a bypassed curve (R161): 0 to 1, and up to 2^8 for the LOG domain. -/
def domainIdentity (domain : Nat) (x : Pf) : Pf := Pf.clamp 0 (if domain = 0 then 256 else 1) x

/-- A curve applied to channel ch of a value, or the identity on its domain where the curve is bypassed. -/
def Curve.apply (ex : Bool) (curve : Nat × Option (List Byte)) (ch : Nat) (x : Pf) : Pf :=
  match curve.2 with
  | some t => curveApply ex t ch x
  | none => domainIdentity curve.1 x

/-- Whether a transfer function is more than products and sums: how it is evaluated is the device's own, within the error of R143. -/
def transcendental (b : List Byte) : Bool := 1 ≤ obTransfer b && obTransfer b ≤ 4

/-- A transfer function of Table 05-10; curve is the output's transfer curve: its domain, and its record unless bypassed. -/
def transferFn (ex : Bool) (b : List Byte) (curve : Nat × Option (List Byte)) (ch : Nat) (x : Pf) : Pf :=
  let l := x.q
  match obTransfer b with
  | 0 => x
  | 1 => let l := minRat 1 l; Pf.of ex (if l < 18 / 1000 then 45 / 10 * l else 1099 / 1000 * powRat l 9 20 - 99 / 1000)
  | 2 => let l := minRat 1 l; Pf.of ex (if l < 181 / 10000 then 45 / 10 * l else 10993 / 10000 * powRat l 9 20 - 993 / 10000)
  | 3 => Pf.of ex (pqEncode (l * obPq b / 10000))
  | 4 => Pf.of ex (hlgEncode (l * obHlg b / 65536))
  | 5 => Curve.apply ex curve ch x
  | _ => x

/-- The curve of a target in use: its domain, and its record unless it is bypassed for poison (R161). -/
def Env.curve (v : Env) (target : Nat) : Nat × Option (List Byte) :=
  match vget v.f.set.curves none target with
  | none => (1, none)
  | some l => (f8 (v.mem.read l.addr 1) 0, if v.f.bypassed.contains (0x10 + target) then none else some (v.mem.read l.addr l.len))

/-- R′, G′ or B′ of an output before encoding (steps 1 to 3 of R152); and, for output 0, whether the clamp of step 2 acted. -/
def Env.primed (v : Env) (ex : Bool) (n : Nat) (b : List Byte) (x y k : Nat) : Pf × Bool :=
  let lookOn := obLook b && !v.f.lookOff
  let curve := v.curve n
  if pfMono v.p then (transferFn ex b curve k (v.pfPlane ex 1 x y), false)
  else
    let file := if lookOn then v.lookFile else none
    let base (a : Nat) : Pf := match file with
      | some t => v.look ex t x y a
      | none => v.ap1 ex x y a
    if obTransfer b = 6 then (base k, false)
    else
      let lin := primaryRow ex (obPrimaries b) k base
      let clamp := obTransfer b != 0 && lin.q < 0
      (transferFn ex b curve k (if clamp then Pf.of ex 0 else lin), clamp)

/-- Kr, Kg and Kb in ten-thousandths. -/
def lumaCoef (enc : Nat) : Rat × Rat × Rat :=
  if enc = 1 then (2126 / 10000, 7152 / 10000, 722 / 10000) else (2627 / 10000, 6780 / 10000, 593 / 10000)

/-- The encoded component of an output: R′G′B′, or Y′, Cb, Cr (R153). The divisors 2 − 2K enter as coefficients 1 / (2 − 2K) (DESIGN CHOICE, log 25). -/
def Env.encoded (v : Env) (ex : Bool) (n : Nat) (b : List Byte) (x y k : Nat) : Pf :=
  let e (a : Nat) : Pf := (v.primed ex n b x y a).1
  if pfMono v.p then e 1
  else if obEnc b = 0 then e k
  else
    let c := lumaCoef (obEnc b)
    let luma := Pf.dot ex [(Pf.of ex c.1, e 0), (Pf.of ex c.2.1, e 1), (Pf.of ex c.2.2, e 2)]
    if k = 0 then luma
    else if k = 1 then Pf.mul ex (Pf.sub ex (e 2) luma) (Pf.of ex (1 / (2 - 2 * c.2.2)))
    else Pf.mul ex (Pf.sub ex (e 0) luma) (Pf.of ex (1 / (2 - 2 * c.1)))

/-- Whether component k of an output is a colour difference. -/
def isChroma (b : List Byte) (mono : Bool) (k : Nat) : Bool := !mono && obEnc b != 0 && k != 0

/-- The exact code of a component before its limits (R153). -/
def quantExact (b : List Byte) (chroma : Bool) (q : Rat) : Rat :=
  let n := depthBits (obDepth b)
  if obFull b then
    (if chroma then ((2 ^ n - 1 : Nat) : Rat) * q + (2 ^ (n - 1) : Nat) else ((2 ^ n - 1 : Nat) : Rat) * q)
  else ((2 ^ (n - 8) : Nat) : Rat) * (if chroma then 128 + 224 * q else 16 + 219 * q)

/-- A code of the device: the one that its arithmetic gives, or, past a function whose evaluation is its own, any; within k of the code of the exact
evaluation (R143). -/
def nearCode (k : Nat) (key : List Nat) (free : Bool) (own exact : Int) : Int :=
  clampInt (exact - k) (exact + k) (own + (if free then Config.freeError key else 0))

/-- The integer code of a component of an output, within one code of the exact value (R143), limited to its depth. -/
def Env.code2 (v : Env) (n : Nat) (b : List Byte) (x y k : Nat) : Nat :=
  let d := depthBits (obDepth b)
  let code (ex : Bool) : Int := roundRat (quantExact b (isChroma b (pfMono v.p) k) (v.encoded ex n b x y k).q)
  (clampInt 0 (2 ^ d - 1) (nearCode 1 (v.key (0x20 + n) k x y) (transcendental b) (code false) (code true))).toNat

/-- The order of F16 bits by value, with which units in the last place are counted. -/
def halfRank (bits : Nat) : Int := if bitOf bits 15 then -((bits % 32768 : Nat) : Int) else (bits % 32768 : Nat)

/-- The F16 bits of a number, within two units in the last place of those of the exact evaluation (R143). -/
def halfNear (own exact : Pf) : Nat :=
  let a := halfRank own.toF16
  let b := halfRank exact.toF16
  let c := clampInt (b - 2) (b + 2) a
  if c = a then own.toF16 else if c < 0 then 0x8000 + c.natAbs else c.toNat

/-- The F16 bits of a component of an output. -/
def Env.half (v : Env) (n : Nat) (b : List Byte) (x y k : Nat) : Nat := halfNear (v.encoded false n b x y k) (v.encoded true n b x y k)

/-- Horizontal chroma filtering [1 2 1] / 4 at an even column, edges repeated, half up (R154). -/
def chromaH (w : Nat) (code : Nat → Nat) (x : Nat) : Nat :=
  (code (x - 1) + 2 * code x + code (Nat.min (w - 1) (x + 1)) + 2) / 4

/-- A subsampled chroma code: half width at chroma column cx; half height too when two is set (R154). -/
def Env.chroma (v : Env) (n : Nat) (b : List Byte) (two : Bool) (cx cy k : Nat) : Nat :=
  let row (y : Nat) : Nat := chromaH (pfW v.p) (fun x => v.code2 n b x y k) (2 * cx)
  if two then
    (if 2 * cy + 1 < pfH v.p then (row (2 * cy) + row (2 * cy + 1) + 1) / 2 else row (2 * cy))
  else row cy

/-- The bytes of one stored code: one byte at 8 bits, a 16-bit container aligned to its most significant bits above. -/
def codeBytes (b : List Byte) (code : Nat) : List Byte :=
  match obDepth b with
  | 0 => leBytes 1 code
  | 1 => leBytes 2 (code * 64)
  | 2 => leBytes 2 (code * 16)
  | _ => leBytes 2 code

/-- The planes of a colour output: samples per line, lines, and bytes per sample (Table 05-11). -/
def outPlanes (w h : Nat) (b : List Byte) : List (Nat × Nat × Nat) :=
  let s := if obDepth b = 0 then 1 else 2
  let cw := ceilDiv w 2
  let ch := ceilDiv h 2
  match obFormat b with
  | 0 => [(w, h, s), (cw, ch, 2 * s)]
  | 1 => [(w, h, s), (cw, ch, s), (cw, ch, s)]
  | 2 => [(w, h, s), (cw, h, 2 * s)]
  | 3 => [(w, h, s), (cw, h, s), (cw, h, s)]
  | 4 => [(w, h, s), (w, h, s), (w, h, s)]
  | 5 => [(w, h, 4)]
  | 6 => [(w, h, 8)]
  | _ => [(w, h, s)]

/-- The bytes of one sample of a plane of a colour output. -/
def Env.outSample (v : Env) (n : Nat) (b : List Byte) (plane x y : Nat) : List Byte :=
  let fp := obDepth b = 3
  let one (k : Nat) : List Byte := if fp then leBytes 2 (v.half n b x y k) else codeBytes b (v.code2 n b x y k)
  match obFormat b, plane with
  | 0, 1 => codeBytes b (v.chroma n b true x y 1) ++ codeBytes b (v.chroma n b true x y 2)
  | 2, 1 => codeBytes b (v.chroma n b false x y 1) ++ codeBytes b (v.chroma n b false x y 2)
  | 1, k + 1 => codeBytes b (v.chroma n b true x y (k + 1))
  | 3, k + 1 => codeBytes b (v.chroma n b false x y (k + 1))
  | 5, _ =>
    if obDepth b = 0 then leBytes 1 (v.code2 n b x y 0) ++ leBytes 1 (v.code2 n b x y 1) ++ leBytes 1 (v.code2 n b x y 2) ++ [0xFF]
    else leBytes 4 (v.code2 n b x y 0 + 2 ^ 10 * v.code2 n b x y 1 + 2 ^ 20 * v.code2 n b x y 2 + 3 * 2 ^ 30)
  | 6, _ => leBytes 2 (v.half n b x y 0) ++ leBytes 2 (v.half n b x y 1) ++ leBytes 2 (v.half n b x y 2) ++ leBytes 2 0x3C00
  | _, k => one k

/-! ## Spectral planes (R158 to R160)

Products, sums and the division in fixed point (ex false), and exact (ex true) for R143. -/

/-- A result in 40-bit fixed point with 23 fraction bits (R158): the manual gives neither the rounding, which is free, nor what becomes of a result
beyond the range, which is free too (log 25). -/
def spec40 (ex : Bool) (key : List Nat) (q : Rat) : Rat :=
  if ex then q
  else
    let n := q * 2 ^ 23
    let r := if Config.freeError key % 2 = 0 then n.floor else n.ceil
    let r := if r < -(2 ^ 39) ∨ 2 ^ 39 ≤ r then wrapInt40 (Config.freePixel key) else r
    (r : Rat) / (2 ^ 23 : Nat)
where
  /-- Any integer of 40 bits. -/
  wrapInt40 (n : Int) : Int := (n + 2 ^ 39) % 2 ^ 40 - 2 ^ 39

/-- S_c: the spectral input of a channel. -/
def Env.spectral (v : Env) (ex : Bool) (ch : Nat) (x y : Nat) : Rat :=
  let b := v.f.set.spectral
  let g : Rat := if bitOf (f16 b 0) 4 then v.gain ch else 1
  let key := v.key 0x31 ch x y
  let p := spec40 ex (0 :: key) (ofL24 ((v.around x y).plane ch x y) * ((f16 b (0x28 + 2 * ch) : Rat) / 4096))
  spec40 ex (1 :: key) (p / (if g = 0 then 1 else g))

/-- A coefficient of a ratio unit in s3.12: set 0 for A, 1 for B. -/
def ratioCoef (b : List Byte) (u set i : Nat) : Rat := (sext 16 (f16 b (0x30 + 0x14 * u + 10 * set + 2 * i)) : Rat) / 4096

/-- Index u of a pixel: 0 NDVI, 1 and 2 the ratio units; none where invalid (R159, R160). -/
def Env.index (v : Env) (ex : Bool) (u x y : Nat) : Option Rat :=
  let b := v.f.set.spectral
  let s (ch : Nat) : Rat := v.spectral ex ch x y
  let sat := (f16 b 4 : Rat) / 256
  let high (chs : List Nat) : Bool := f16 b 4 != 0 && chs.any (fun ch => sat ≤ ofL24 ((v.around x y).plane ch x y))
  let key (n : Nat) : List Nat := n :: v.key 0x32 u x y
  let part (set : Nat) : Rat :=
    (pfChannels v.p).foldl (fun acc ch => spec40 ex (key (8 * set + ch)) (acc + spec40 ex (key (16 + 8 * set + ch)) (ratioCoef b (u - 1) set ch * s ch)))
      (ratioCoef b (u - 1) set 4)
  let den : Rat := if u = 0 then spec40 ex (key 40) (s 3 + s 0) else part 1
  let num : Rat := if u = 0 then spec40 ex (key 41) (s 3 - s 0) else part 0
  let used : List Nat := if u = 0 then [0, 3] else (pfChannels v.p).filter (fun ch =>
    ratioCoef b (u - 1) 0 ch != 0 || ratioCoef b (u - 1) 1 ch != 0)
  if !(bitOf (f16 b 0) (u + 1)) || den ≤ (f16 b 2 : Rat) / 65536 || high used then none else some (spec40 ex (key 42) (num / den))

/-- The code of an index: that of the fixed-point value, within one of that of the exact one where it has one (R143). -/
def Env.indexCode (v : Env) (u x y : Nat) (code : Rat → Int) : Option Int :=
  (v.index false u x y).map (fun q => match v.index true u x y with
    | some e => nearCode 1 [] false (code q) (code e)
    | none => code q)

/-- The bytes of one sample of an output 3 plane (Table 05-14). -/
def Env.indexSample (v : Env) (b : List Byte) (plane x y : Nat) : List Byte :=
  if plane < 3 then
    if f8 b 0 % 4 = 0 then
      match v.indexCode plane x y (fun q => clampInt (-32767) 32767 (roundRat (q * (if plane = 0 then 32768 else 2048)))) with
      | none => leBytes 2 0x8000
      | some n => leBytes 2 (wrapInt 16 n)
    else
      let sc := if f16 b (4 + 2 * plane) = 0 then 0x7F00 else f16 b (4 + 2 * plane)
      match v.indexCode plane x y (fun q => clampInt 1 255 (roundRat ((f8 b (0x0A + plane) : Rat) + (sc : Rat) / 256 * q))) with
      | none => leBytes 1 0
      | some n => leBytes 1 n.toNat
  else
    let s (ex : Bool) : Pf := Pf.of ex (v.spectral ex 3 x y)
    match bitsOf (f8 b 0) 3 2 with
    | 3 => leBytes 2 (halfNear (Pf.of true (v.spectral false 3 x y)) (s true))
    | k =>
      let n := if k = 1 then 8 else 16
      let code (ex : Bool) : Int := roundRat (((2 ^ n - 1 : Nat) : Rat) * (Curve.apply ex (v.curve 3) 0 (s ex)).q)
      leBytes (n / 8) (clampInt 0 (2 ^ n - 1) (if k = 1 then nearCode 1 [] false (code false) (code true) else code false)).toNat

/-- The planes of output 3: samples per line, lines, and bytes per sample. -/
def indexPlanes (w h : Nat) (b : List Byte) : List (Nat × Nat × Nat) :=
  let s := if f8 b 0 % 4 = 0 then 2 else 1
  let nir := match bitsOf (f8 b 0) 3 2 with | 0 => [] | 1 => [(w, h, 1)] | _ => [(w, h, 2)]
  [(w, h, s), (w, h, s), (w, h, s)] ++ nir

/-- The planes of an output of a context. -/
def ringPlanes (p : List Byte) (n : Nat) (b : List Byte) : List (Nat × Nat × Nat) :=
  if n = 3 then indexPlanes (pfW p) (pfH p) b else outPlanes (pfW p) (pfH p) b
/-- STRIDE of a plane (R155). -/
def planeStride (q : Nat × Nat × Nat) : Nat := roundUp (q.1 * q.2.2) 64
/-- The offset of plane i from the slot's start (R155). -/
def planeOffset (qs : List (Nat × Nat × Nat)) (i : Nat) : Nat := 64 + sumNat ((qs.take i).map (fun q => q.2.1 * planeStride q))
/-- The slot size of an output (R155). -/
def outSlotSize (p : List Byte) (n : Nat) (b : List Byte) : Nat := let qs := ringPlanes p n b; planeOffset qs qs.length

end Sys2Proof.Machine
end

