-- ==== Sys2Proof/Machine/DispBlk.lean ====
section
/-!
DEFINITION. The blocks of the display chapter: the timing block (Table 10-4), the layer block (Table 10-6) and the attribute block (Table 10-15); and
the heads and layers by handle.
-/
namespace Sys2Proof.Machine

/-- Applies a function to the display. -/
def State.mapDisp (f : DispSt → DispSt) (s : State) : State := { s with disp := f s.disp }
/-- A head, none when it is not claimed. -/
def State.head (s : State) (i : Nat) : Option DispHead := vget s.disp.heads none i
/-- Applies a function to a claimed head. -/
def State.mapHead (i : Nat) (f : DispHead → DispHead) (s : State) : State :=
  s.mapDisp (fun d => { d with heads := vmod d.heads i (fun o => o.map f) })
/-- Counts in a head. -/
def State.countHead (i : Nat) (f : HeadCounters → HeadCounters) (s : State) : State := s.mapHead i (fun h => { h with cnt := f h.cnt })
/-- Applies a function to the registers of a head. -/
def State.mapRegs (i : Nat) (f : HeadRegs → HeadRegs) (s : State) : State := s.mapDisp (fun d => { d with regs := vmod d.regs i f })
/-- The layer of a handle. -/
def State.layer (s : State) (h : Handle) : Option DispLayer := s.disp.layers.find? (fun l => l.handle == h)
/-- Applies a function to the layer of a handle. -/
def State.mapLayer (h : Handle) (f : DispLayer → DispLayer) (s : State) : State :=
  s.mapDisp (fun d => { d with layers := updWhere (fun l => l.handle == h) f d.layers })
/-- The layers of a head. -/
def State.layersOf (s : State) (i : Nat) : List DispLayer := s.disp.layers.filter (fun l => l.head == i)
/-- The head of a handle. -/
def DispSt.headOf (d : DispSt) (h : Handle) : Option Nat :=
  firstIdx (fun (o : Option DispHead) => (o.map (fun x => x.handle == h)).getD false) d.heads.toList
/-- The heads that clone a head (R292), those that wait to included. -/
def State.cloneTargets (s : State) (i : Nat) : List Nat :=
  (List.range 4).filter (fun t => ((s.head t).map (fun h => h.cloneOf == some i || (h.cloneNext.bind (·.2)) == some i)).getD false)

/-! ## The timing block -/

/-- H_ACTIVE. -/
def tbW (b : List Byte) : Nat := f16 b 0x00
/-- V_ACTIVE. -/
def tbH (b : List Byte) : Nat := f16 b 0x08
/-- H_TOTAL. -/
def tbHt (b : List Byte) : Nat := tbW b + f16 b 0x02 + f16 b 0x04 + f16 b 0x06
/-- V_TOTAL. -/
def tbVt (b : List Byte) : Nat := tbH b + f16 b 0x0A + f16 b 0x0C + f16 b 0x0E
/-- SOURCE is PTP. -/
def tbPtp (b : List Byte) : Bool := bitOf (f8 b 0x10) 0
/-- WIRE. -/
def tbWire (b : List Byte) : Nat := f8 b 0x11 % 4
/-- WIRE_ENC. -/
def tbEnc (b : List Byte) : Nat := bitsOf (f8 b 0x11) 3 2
/-- WIRE_RANGE is full. -/
def tbFull (b : List Byte) : Bool := bitOf (f8 b 0x11) 4
/-- LANE. -/
def tbLane (b : List Byte) : Nat := f8 b 0x12
/-- PIXEL_KHZ. -/
def tbKhz (b : List Byte) : Nat := f32 b 0x14
/-- PERIOD in ns. -/
def tbPeriod (b : List Byte) : Nat := f32 b 0x18
/-- PHASE in ns. -/
def tbPhase (b : List Byte) : Nat := f32 b 0x1C

/-- The raster rate in Hz as a ratio (R266). -/
def tbRate (b : List Byte) : Rat :=
  if tbPtp b then (tbHt b * tbVt b * 1000000000 : Nat) / (tbPeriod b : Nat) else ((tbKhz b * 1000 : Nat) : Rat)
/-- The frame rate in Hz. -/
def tbFrameRate (b : List Byte) : Rat := tbRate b / (tbHt b * tbVt b : Nat)
/-- The nominal divider D with 24 fraction bits: the value nearest the request (R267). -/
def tbDiv (b : List Byte) : Nat := ((4800000000 * 2 ^ 24 : Nat) / tbRate b + 1 / 2).floor.toNat
/-- The achieved raster rate of a divider, in whole kHz (R267). -/
def divKhz (d : Nat) : Nat := (4800000 * 2 ^ 24 + d / 2) / Nat.max 1 d
/-- The frame period in 2^-16 ns under a divider. -/
def tbSpan (b : List Byte) (d : Nat) : Nat :=
  if tbPtp b then tbPeriod b * 65536 else tbHt b * tbVt b * d * 65536 * 10 / (48 * 2 ^ 24)

/-! ## The layer block -/

/-- SRC_KIND. -/
def lbKind (b : List Byte) : Nat := f8 b 0 % 8
/-- LIVE. -/
def lbLive (b : List Byte) : Bool := bitOf (f8 b 0) 3
/-- VISIBLE. -/
def lbVisible (b : List Byte) : Bool := bitOf (f8 b 0) 4
/-- DELETE. -/
def lbDelete (b : List Byte) : Bool := bitOf (f8 b 0) 5
/-- ALPHA. -/
def lbAlpha (b : List Byte) : Nat := bitsOf (f8 b 0) 7 6
/-- SRC_INDEX. -/
def lbIndex (b : List Byte) : Nat := f8 b 1
/-- Z. -/
def lbZ (b : List Byte) : Nat := f8 b 2
/-- GALPHA. -/
def lbGalpha (b : List Byte) : Nat := f8 b 3
/-- SRC_HANDLE. -/
def lbSrc (b : List Byte) : Handle := BitVec.ofNat 32 (f32 b 4)
/-- FORMAT. -/
def lbFormat (b : List Byte) : Nat := f8 b 8 % 16
/-- DEPTH. -/
def lbDepth (b : List Byte) : Nat := bitsOf (f8 b 8) 5 4
/-- KCS. -/
def lbKcs (b : List Byte) : Bool := bitOf (f8 b 8) 6
/-- ENC. -/
def lbEnc (b : List Byte) : Nat := f8 b 9 % 4
/-- RANGE is full. -/
def lbFull (b : List Byte) : Bool := bitOf (f8 b 9) 2
/-- HBANK. -/
def lbHbank (b : List Byte) : Nat := f8 b 0xA % 16
/-- VBANK. -/
def lbVbank (b : List Byte) : Nat := f8 b 0xA / 16
/-- SRC_X, SRC_Y, SRC_W, SRC_H. -/
def lbSx (b : List Byte) : Nat := f16 b 0x20
/-- SRC_Y. -/
def lbSy (b : List Byte) : Nat := f16 b 0x22
/-- SRC_W. -/
def lbSw (b : List Byte) : Nat := f16 b 0x24
/-- SRC_H. -/
def lbSh (b : List Byte) : Nat := f16 b 0x26
/-- DST_X. -/
def lbDx (b : List Byte) : Nat := f16 b 0x28
/-- DST_Y. -/
def lbDy (b : List Byte) : Nat := f16 b 0x2A
/-- DST_W. -/
def lbDw (b : List Byte) : Nat := f16 b 0x2C
/-- DST_H. -/
def lbDh (b : List Byte) : Nat := f16 b 0x2E
/-- The source that a block binds its layer to: a camera output, a decode session or a head's writeback ring (R270). -/
def lbBind (b : List Byte) : Option SrcRef :=
  if lbKind b = 2 ∨ lbKind b = 3 ∨ lbKind b = 5 then some { kind := lbKind b, handle := lbSrc b, index := lbIndex b } else none

/-! ## The attribute block -/

/-- WB_EN. -/
def abEn (b : List Byte) : Bool := bitOf (f8 b 6) 0
/-- WB_HOST_READ. -/
def abHost (b : List Byte) : Bool := bitOf (f8 b 6) 1
/-- WB_FORMAT. -/
def abFormat (b : List Byte) : Nat := f8 b 7 % 16
/-- WB_DEPTH. -/
def abDepth (b : List Byte) : Nat := bitsOf (f8 b 7) 5 4
/-- WB_SLOTS. -/
def abSlots (b : List Byte) : Nat := f8 b 8
/-- WB_EVERY. -/
def abEvery (b : List Byte) : Nat := f8 b 9
/-- WB_ENC. -/
def abEnc (b : List Byte) : Nat := f8 b 0xA % 4
/-- WB_RANGE is full. -/
def abFull (b : List Byte) : Bool := bitOf (f8 b 0xA) 2
/-- A component of the background. -/
def abBg (b : List Byte) (k : Nat) : Nat := f16 b (2 * k) % 4096

/-! ## What the display pins (R114, Tables 10-3 and 10-7) -/

/-- The buffers that layers read as surfaces or directly, and the writeback rings in force. -/
def State.dispPins (s : State) (buffer : Handle → Option Buffer) : List (Handle × Nat × Nat × Nat) :=
  s.disp.layers.flatMap (fun l =>
    let one (b : List Byte) : List (Handle × Nat × Nat × Nat) :=
      match buffer (lbSrc b) with
      | some y => [(l.handle, 0x960 + l.pipe, y.base, y.size)]
      | none => []
    (match l.blk with | some b => if lbKind b = 1 ∨ lbKind b = 4 then one b else [] | none => [])
      ++ (match l.next with | some b => if lbKind b = 4 then one b else [] | none => []))
  ++ s.disp.heads.toList.zipIdx.filterMap (fun (o : Option DispHead × Nat) => o.1.bind (fun h =>
    if abEn h.attr.blk then some (h.handle, 0x950 + o.2, h.wb.base, h.wb.slots.length * h.wb.slotSize) else none))

end Sys2Proof.Machine
end

