-- ==== Sys2Proof/Machine/Objects.lean ====
section
/-!
DEFINITION. The questions that one subsystem asks of the others: which handles are live (R5), which buffers are in use (R321),
which ranges are pinned (R114), and what runs (R64).
-/
namespace Sys2Proof.Machine

/-- A pinned range (R114): its owner and resource identifier for CONFLICT. -/
structure PinRange where
  owner : Handle
  id    : Nat
  base  : Nat
  len   : Nat
deriving DecidableEq, Repr

/-- The peer instance whose mapped contexts reserve a local context (R432). -/
def State.reservedBy (s : State) (cam : Nat) : Option Handle :=
  if s.mgmt.pair.mapped.toList.any (· == some cam) then some (unitHandle 0x0E (1 - s.dev.inst)) else none

/-- The buffer of a handle. -/
def State.buffer (s : State) (h : Handle) : Option Buffer := s.mem.buffers.find? (fun b => b.handle == h)

/-- The buffer that holds an address. -/
def State.bufferAt (s : State) (a : Nat) : Option Buffer := s.mem.buffers.find? (fun b => b.base ≤ a && a < b.base + b.size)

/-- Whether a permanent unit handle names a unit that exists (Table 16-4): kind, index and zero bits. -/
def permanentUnit (isD : Bool) (h : Handle) : Bool :=
  let n := h.toNat
  let kind := bitsOf n 26 20
  let idx := bitsOf n 15 0
  let lim := match kind with
    | 0x01 => 16 | 0x02 => 17 | 0x03 => 128 | 0x04 => 136 | 0x05 => 8 | 0x06 => 9 | 0x07 => 2 | 0x08 => 4
    | 0x09 => 1 | 0x0A => 1 | 0x0B => 32 | 0x0C => 32 | 0x0D => 128 | 0x0E => (if isD then 2 else 0) | 0x0F => 1
    | _ => 0
  typeOf h == 0xA && !bitOf n 27 && bitsOf n 19 16 == 0 && idx < lim

/-- The compare unit of a handle. -/
def TimeSt.compareOf (t : TimeSt) (h : Handle) : Option Nat :=
  firstIdx (fun u => (u.map (fun x => x.handle == h && x.plan.isNone)).getD false) t.compare.toList

/-- The capture unit of a handle. -/
def TimeSt.captureOf (t : TimeSt) (h : Handle) : Option Nat :=
  firstIdx (fun u => (u.map (fun x => x.handle == h)).getD false) t.capture.toList

/-- Whether a handle of type 0xA with bit 27 set names a claimed unit. -/
def State.claimedUnit (s : State) (h : Handle) : Bool :=
  (s.time.compareOf h).isSome || (s.time.captureOf h).isSome
  || s.aud.ports.toList.any (fun (o : Option AudPort) => (o.map (fun x => x.handle == h)).getD false)
  || s.aud.clocks.toList.any (fun (o : Option MediaClk) => (o.map (fun x => x.handle == h)).getD false)
  || s.lanes.streams.any (fun x => x.handle == h && !x.closing)

/-- Whether a handle names a live object of its type (R5). -/
def State.liveHandle (s : State) (h : Handle) : Bool :=
  match typeOf h with
  | 0x1 => (s.buffer h).isSome
  | 0x2 => (s.cams.find h).isSome
  | 0x3 => s.encs.any (fun e => e.handle == h)
  | 0x4 => s.dec.sessions.any (fun e => e.handle == h)
  | 0x5 => s.recs.any (fun e => e.handle == h)
  | 0x6 => (s.disp.headOf h).isSome
  | 0x7 => (s.layer h).isSome
  | 0x8 => s.jm.kernels.any (fun k => k.handle == h)
  | 0x9 => s.host.queues.toList.any (fun q => q.live && q.handle == h)
  | 0xA => permanentUnit s.dev.isD h || s.claimedUnit h
  | _ => false

/-- A handle of a type is issued: the numbering moves on to the next number that may be (R6). -/
def State.issue (ty : Nat) (s : State) : State :=
  let live (n : Nat) : Bool := s.liveHandle (mkHandle ty s.dev.inst n)
  { s with issued := vmod s.issued ty (fun x => HandleNo.pass live (x.held.length + 1) (x.step live)) }

/-- The capture rings pinned under R388. -/
def State.capturePins (s : State) : List PinRange :=
  (s.time.capture.toList.zipIdx).filterMap (fun x =>
    x.1.bind (fun u => (s.buffer u.buf).map (fun b =>
      { owner := u.handle, id := 0xC20 + x.2, base := b.base + u.ringOff, len := u.records * 16 })))

/-- The tables, looks, curves and temporal references that a set names (R114, R127, R151). -/
def ParamSet.pins (x : ParamSet) (p : List Byte) (owner : Handle) : List PinRange :=
  let one (id : Nat) (l : Option Loaded) : List PinRange := match l with
    | some t => [{ owner := owner, id := id, base := t.addr, len := t.len }]
    | none => []
  x.tables.toList.zipIdx.flatMap (fun t => one (0x400 + t.2) t.1) ++ one 0x500 x.look
    ++ x.curves.toList.zipIdx.flatMap (fun t => one (0x510 + t.2) t.1)
    ++ (if (vget x.stages { on := false, blk := [] } 5).on then
          [{ owner := owner, id := 0x420, base := x.tnrBuf, len := 2 * (pfH p * roundUp (pfW p * 2) 64) }] else [])

/-- The rings that a set configures (R134, R155, R174). -/
def ParamSet.ringPins (x : ParamSet) (owner : Handle) : List PinRange :=
  x.taps.toList.zipIdx.filterMap (fun t => t.1.map (fun c => { owner := owner, id := 0x410 + t.2, base := c.base, len := c.slots * c.slotSize }))
    ++ x.outs.toList.zipIdx.filterMap (fun t => t.1.map (fun c => { owner := owner, id := 0x520 + t.2, base := c.base, len := c.slots * c.slotSize }))
    ++ (match x.stats with | some c => [{ owner := owner, id := 0x530, base := c.base, len := c.slots * c.slotSize }] | none => [])

/-- A ring in force as a pinned range. -/
def Ring.pin (r : Ring) (owner : Handle) (id : Nat) : PinRange :=
  { owner := owner, id := id, base := r.base, len := r.slots.length * r.slotSize }

/-- The ranges that a camera context pins: what its staged set and the sets of its frames in processing name, and its rings in force. -/
def CamCtx.pins (c : CamCtx) : List PinRange :=
  if c.state == .idle then []
  else
    c.next.pins c.profile c.handle ++ c.next.ringPins c.handle ++ c.frames.flatMap (fun f => f.set.pins c.profile c.handle)
      ++ c.taps.toList.zipIdx.map (fun r => r.1.pin c.handle (0x410 + r.2))
      ++ c.outs.toList.zipIdx.map (fun r => r.1.pin c.handle (0x520 + r.2)) ++ [c.statRing.pin c.handle 0x530]

/-- The buffers of encode sessions (R197). -/
def State.encPins (s : State) : List PinRange :=
  (s.encs.filter (fun e => !e.released)).filterMap (fun e =>
    (s.buffer e.buf).map (fun b => { owner := e.handle, id := 0x600, base := b.base, len := b.size }))

/-- The buffers of decode sessions (R219). -/
def State.decPins (s : State) : List PinRange :=
  s.dec.sessions.filterMap (fun e => (s.buffer e.buf).map (fun b => { owner := e.handle, id := 0x700, base := b.base, len := b.size }))

/-- The ring buffers of audio ports (R393). -/
def State.audPins (s : State) : List PinRange :=
  s.aud.ports.toList.zipIdx.filterMap (fun (o : Option AudPort × Nat) => o.1.bind (fun x =>
    (s.buffer x.buf).map (fun b => { owner := x.handle, id := 0xD20 + o.2, base := b.base, len := b.size })))

/-- The buffers of recording sessions (R248). -/
def State.recPins (s : State) : List PinRange :=
  s.recs.filterMap (fun e => (s.buffer e.buf).map (fun b => { owner := e.handle, id := 0x800, base := b.base, len := b.size }))

/-- The hook rings of TILE bindings (R309). -/
def State.hookPins (s : State) : List PinRange :=
  (s.jm.binds.filter (fun b => b.hook < 2)).map (fun b => b.ring.pin b.target (0xA20 + b.hook))

/-- The shadow buffer of pair operation (R431). -/
def State.pairPins (s : State) : List PinRange :=
  let p := s.mgmt.pair
  if p.state == .off then []
  else ((s.buffer p.shadowBuf).map (fun (b : Buffer) =>
    ({ owner := unitHandle 0x0E s.dev.inst, id := 0xE40, base := b.base + p.shadowOff, len := p.shadowLen } : PinRange))).toList

/-- Every pinned range. -/
def State.pinned (s : State) : List PinRange :=
  s.capturePins ++ s.cams.ctx.toList.flatMap CamCtx.pins ++ s.encPins ++ s.decPins ++ s.recPins ++ s.audPins ++ s.hookPins ++ s.pairPins
    ++ (s.dispPins s.buffer).map (fun p => { owner := p.1, id := p.2.1, base := p.2.2.1, len := p.2.2.2 })

/-- Whether a buffer is pinned, holds a queue, or is named by an object that exists (R321). -/
def State.bufferInUse (s : State) (b : Buffer) : Bool :=
  s.pinned.any (fun p => p.base < b.base + b.size && b.base < p.base + p.len)
  || s.cams.ctx.toList.any (fun c => c.state != .idle && c.queueBuf == b.handle)
  || s.host.queues.toList.any (fun q => q.live &&
      (match q.sq with | .devMem a => b.base ≤ a && a < b.base + b.size | .hostMem _ => false))
  || s.host.queues.toList.any (fun q => q.live &&
      (match q.cq with | .devMem a => b.base ≤ a && a < b.base + b.size | .hostMem _ => false))

/-- Whether a camera context is RUNNING or STOPPING, or a session, head or audio port runs (R64). -/
def State.anythingRunning (s : State) : Bool :=
  s.cams.ctx.toList.any (fun c => c.state == .running || c.state == .stopping)
  || s.encs.any (fun e => !e.released) || !s.dec.sessions.isEmpty || !s.recs.isEmpty
  || s.aud.ports.toList.any (fun (o : Option AudPort) => (o.map (fun x => x.rx != .off || x.tx != .off)).getD false)
  || s.disp.heads.toList.any (fun (o : Option DispHead) => (o.map (fun x => x.run != .off)).getD false)

/-- Whether a camera is running: the measured slack of R324 is 100 µs when none is. -/
def State.cameraRunning (s : State) : Bool := s.cams.ctx.toList.any (fun c => c.state == .running || c.state == .stopping)

/-- Bytes that Ostler's line store holds (R92). -/
def lineStoreSize : Nat := 6291456

/-- Bytes in Ostler's line store (R92): the data of held cells and of lines in assembly, and the lines whose HBM writes have not completed. -/
def State.lineStore (s : State) : Nat :=
  sumNat (s.cams.ctx.toList.map (fun c =>
    sumNat (c.held.map (fun h => if h.cut then 0 else h.cell.data.length)) + ((c.asm.map (fun a => a.data.length)).getD 0)))
  + sumNat ((s.fab.waiting.filter (fun r => r.src == .bandWrite)).map FabReq.len)
  + sumNat ((s.fab.txns.filter (fun t => t.src == .bandWrite)).map FabTxn.bytes)

/-- The measured slack in ns, rounded down (R324): the free space of the line store over the ingest rate of the last 10 µs, 100 µs at most, and
100 µs with no camera running. -/
def State.slack (s : State) : Nat :=
  let got := sumNat ((s.cams.ingest.filter (fun x => s.time.ticks ≤ x.1 + 4000)).map (·.2))
  if !s.cameraRunning || got = 0 then 100000 else Nat.min 100000 ((lineStoreSize - s.lineStore) * 10000 / got)

/-- Bytes come into the line store: they count in the ingest rate, and the slack after them is kept for SLACK_MIN (R324, Table 12-10). -/
def State.noteIngest (n : Nat) (s : State) : State :=
  let now := s.time.ticks
  let t := s.mapCams (fun c => { c with ingest := c.ingest.filter (fun x => now ≤ x.1 + 4000) ++ [(now, n)] })
  t.mapCams (fun c => { c with
    slackLog := c.slackLog.filter (fun (x : Nat × Nat) => now ≤ x.1 + 400000000 && Nat.blt x.2 t.slack) ++ [(now, t.slack)] })

/-- The admitted pixel rate in Mpixel/s: the declared rates of the contexts CONFIGURED, RUNNING or STOPPING (R64, R95). -/
def State.admittedRate (s : State) : Nat := s.cams.admitted none

/-- The handle of a camera context, 0 for none. -/
def State.camHandle (s : State) (cam : Nat) : Handle := (s.cam cam).handle

/-- The largest admitted share in Mpixel/s, rounded up: the declared rate over the span in force, or over the
span that a start in PS1 would give (R64). -/
def State.maxShare (s : State) : Nat :=
  maxNat ((s.cams.ctx.toList.filter (fun c => c.state.counted)).map (fun c =>
    let rate := pfRate c.profile
    let start := Nat.min (Nat.max (pfSpanReq c.profile) (ceilDiv rate 2400)) (Nat.min 4 s.sliceRoles)
    ceilDiv rate (Nat.max 1 (if c.state == .configured then start else c.span))))

/-- Bit q: quad q has a spare lane. -/
def State.laneSpares (s : State) : Nat := s.lanes.spareMask

/-- Lanes that are fenced. -/
def State.fencedLanes (s : State) : Nat := s.lanes.fenced

/-- The layer that names a decode session as its source (R237). -/
def State.layerOn (s : State) (h : Handle) : Option Handle :=
  (s.disp.layers.find? (fun l => l.binds.any (fun x => x.kind == 3 && x.handle == h))).map DispLayer.handle

/-! ## Stopping a command in flight (R55) -/

/-- What a reset of its queue does to a command in flight: it stops, with RESULT0 of its ABORTED completion; it stops at its next safe point, where
its own row finds it told to (R55); it goes on and its completion is lost (R58); or it has no safe point and runs to its own end. -/
inductive Abort where
  | stops (t : State) (r0 : Nat)
  | atSafePoint
  | lost
  | runsOn

/-- The context that a test picks. -/
def State.camWhere (s : State) (p : CamCtx → Bool) : Option Nat := firstIdx p s.cams.ctx.toList

/-- A CAM_SENSOR_WRITE stops after an acknowledged entry; RESULT0 counts those acknowledged (R82). -/
def State.abortWrite (r : CmdRef) (s : State) : Abort :=
  match s.camWhere (fun c => c.sensor.any (fun j => j.by_ == r)) with
  | none => .stops s 0
  | some cam =>
    let n := (((s.cam cam).sensor.find? (fun j => j.by_ == r)).map SensorJob.acked).getD 0
    let t := s.mapCam cam (fun c => { c with sensor := c.sensor.filter (fun j => j.by_ != r) })
    .stops (t.dropWaiting cam (fun w => match w with | .entries b _ _ => b == r | _ => false)) n

/-- An EXP_APPLY stops without effect before its first cell is sent; once one has been, it goes on without its command and RESULT0 holds its
APPLY_ID (chapter 06). -/
def State.abortApply (r : CmdRef) (s : State) : Abort :=
  match s.camWhere (fun c => c.applies.any (fun a => a.by_ == some r)) with
  | none => .stops s 0
  | some cam =>
    match (s.cam cam).applies.find? (fun a => a.by_ == some r) with
    | none => .stops s 0
    | some a =>
      let mine (w : CtrlWhy) : Bool := match w with | .apply i _ => i == a.id | _ => false
      let c := s.cam cam
      let sent : Bool := c.writes.any (fun w => w.applyId == a.id && !(c.waiting.any (fun x => match x.why with
        | .apply i gs => i == a.id && gs.contains w.group
        | _ => false)))
      if sent then .stops (s.mapCam cam (fun c => { c with applies := updWhere (fun x => x.id == a.id) (fun x => { x with by_ := none }) c.applies })) a.id
      else
        let t := s.mapCam cam (fun c => { c with
          applies := c.applies.filter (fun x => x.id != a.id), writes := c.writes.filter (fun w => w.applyId != a.id) })
        .stops (t.dropWaiting cam mine) 0

/-- A DEC_SUBMIT stops (R223): a drain leaves its session at once, its end of stream staying; one that hands over data stops at the end of a NAL unit. -/
def State.abortSubmit (r : CmdRef) (s : State) : Abort :=
  let mine (w : DecWait) : Bool := match w with | .flush (some x) => x.1 == r | _ => false
  let holds (e : DecSession) : Bool := e.waiting.any mine || e.drains.any (fun x => x.by_ == r)
  let f (e : DecSession) : DecSession := { e with
    waiting := e.waiting.map (fun w => if mine w then .flush none else w), drains := e.drains.filter (fun x => x.by_ != r) }
  if s.dec.sessions.any holds then .stops { s with dec := { s.dec with sessions := s.dec.sessions.map f } } 0 else .atSafePoint

/-- A Cooper job of a command is for it. -/
def CmpJob.isFor (r : CmdRef) (j : CmpJob) : Bool := match j.why with | .command b _ => b == r | .tap _ _ _ _ => false

/-- A command in flight whose queue is reset (R55, and the safe points of the chapters). What a closing session or a stopping camera still has to do
goes on without its command (R72); a job that waits for an engine has written no block, and one in an engine stops at the end of one (R246). -/
def State.abort (r : CmdRef) (s : State) : Abort :=
  match r.op with
  | .asyncEventRequest => .stops s 0
  | .fwActivate => .stops s 0
  | .bufAlloc | .bufCopy | .bufFill | .bufCheck => .atSafePoint
  | .queueFlush => .lost
  | .queueReset => .lost
  | .camStop =>
    let f (c : CamCtx) : CamCtx := { c with stop := c.stop.map (fun q => { q with by_ := q.by_.filter (· != r) }) }
    .stops (s.mapCams (fun x => { x with ctx := x.ctx.map f })) 0
  | .camSensorWrite => s.abortWrite r
  | .expApply => s.abortApply r
  | .encSessionClose =>
    let f (e : EncSession) : EncSession := { e with closeBy := if e.closeBy == some r then none else e.closeBy }
    .stops { s with encs := s.encs.map f } 0
  | .decSubmit => s.abortSubmit r
  | .decSessionClose =>
    let f (e : DecSession) : DecSession := { e with closing := if e.closing == some (some r) then some none else e.closing }
    .stops { s with dec := { s.dec with sessions := s.dec.sessions.map f } } 0
  | .cmpJob | .cmpExpand =>
    if s.cmp.queue.any (fun j => j.isFor r) then .stops { s with cmp := { s.cmp with queue := s.cmp.queue.filter (fun j => !j.isFor r) } } 0
    else .atSafePoint
  | .recSessionClose =>
    let f (e : RecSession) : RecSession := { e with closing := if e.closing == some (some r) then some none else e.closing }
    .stops { s with recs := s.recs.map f } 0
  | .jmBindStage => .stops { s with jm := { s.jm with binds := s.jm.binds.filter (fun b => b.by_ != some r) } } 0
  | .jmUnload =>
    let f (k : Kernel) : Kernel := { k with unload := if k.unload == some r then none else k.unload }
    .stops { s with jm := { s.jm with kernels := s.jm.kernels.map f } } 0
  | .pairConfigure =>
    let p := s.mgmt.pair
    if p.hands.any (fun h => h.by_ == r && !h.sent) then
      .stops (s.mapMgmt (fun m => { m with pair := { m.pair with hands := m.pair.hands.filter (fun h => h.by_ != r) } })) 0
    else .runsOn
  | _ => .runsOn

/-- What a host-interface reset does outside the host block: HOST sinks of recording sessions are no longer armed (R68). -/
def State.disarmSinks (s : State) : State :=
  let off (e : RecSession) : RecSession := if f8 e.blk 3 % 4 = 1 then { e with armed := false } else e
  { s with recs := s.recs.map off }

end Sys2Proof.Machine
end

