-- ==== Sys2Proof/Machine/Preflight.lean ====
section
/-!
DEFINITION. What every command goes through before its own rules: recovery (R453), the queue it came on (R35), reserved fields
(R39), PTR and its length (R467), handles (R5), addresses (R62, R318, R344), pinned ranges (R114), and the read of its
structure (R466); and what ends a command (R50).
-/
namespace Sys2Proof.Machine

/-- A failure of a command: its status, its two detail words, and what the error log entry of an ACCESS_VIOLATION holds. -/
structure Fail where
  status : Status
  r0     : Nat
  r1     : Nat
  addr   : Nat := 0
  reason : Nat := 0
  detail : List Nat := []
deriving DecidableEq, Repr

/-- A check of a command: it goes on, or fails. -/
abbrev Chk (α : Type) := Except Fail α

/-- INVALID_PARAM at an offset of the packet. -/
def badPacket (off : Nat) : Fail := { status := .invalidParam, r0 := off, r1 := 0 }
/-- INVALID_PARAM at an offset of the structure. -/
def badStruct (off : Nat) : Fail := { status := .invalidParam, r0 := off, r1 := 1 }
/-- INVALID_PARAM at a PARAM word. -/
def badParam (i : Nat) : Fail := badPacket (0x20 + 4 * i)
/-- NOT_READY with a state code. -/
def notReady (code : Nat) : Fail := { status := .notReady, r0 := code, r1 := 0 }
/-- INVALID_HANDLE: where is 0 for HANDLE, 1 for AUX_HANDLE, 2 for the structure. -/
def badHandle (h : Handle) (place : Nat) : Fail := { status := .invalidHandle, r0 := h.toNat, r1 := place }
/-- CONFLICT with the owner's handle and the resource identifier. -/
def conflict (owner : Handle) (id : Nat) : Fail := { status := .conflict, r0 := owner.toNat, r1 := id }
/-- BUDGET_EXCEEDED with the rates of Table 02-11. -/
def overBudget (asked left : Nat) : Fail := { status := .budgetExceeded, r0 := asked, r1 := left }
/-- TOO_LATE with the earliest achievable target. -/
def tooLate (target : Nat) : Fail := { status := .tooLate, r0 := target, r1 := 0 }
/-- DATA_POISONED at an address. -/
def poisonedAt (a : Nat) : Fail := { status := .dataPoisoned, r0 := a % 2 ^ 32, r1 := a / 2 ^ 32 }
/-- ACCESS_VIOLATION at an address for a reason of Table 02-14. -/
def violation (reason a : Nat) : Fail :=
  { status := .accessViolation, r0 := a % 2 ^ 32, r1 := bitsOf a 39 32 + 256 * reason, addr := a % 2 ^ 40, reason := reason }

/-- Goes on when a condition holds, fails otherwise. -/
def need (b : Bool) (f : Fail) : Chk Unit := if b then .ok () else .error f

/-- Fails at the first field of a structure whose check does not hold. -/
def needFields (l : List (Nat × Bool)) : Chk Unit :=
  match firstBad l with
  | none => .ok ()
  | some off => .error (badStruct off)

/-- A value that must be there. -/
def needSome {α : Type} (o : Option α) (f : Fail) : Chk α :=
  match o with
  | some x => .ok x
  | none => .error f

/-- A check on PARAM0. -/
def needPar0 (b : Bool) : Chk Unit := need b (badParam 0)

/-- What a handle field takes. -/
inductive HReq where
  | zero
  | must (ty : Nat)
  | opt (ty : Nat)
  | any
deriving DecidableEq, Repr

/-- What the PTR fields take (R467): no structure, one of an exact length that is read, one of any length that is read, one of at
least a length that is written, or whatever the command's own rules say. -/
inductive PReq where
  | none
  | read (n : Nat)
  | readAny
  | write (n : Nat)
  | custom
deriving DecidableEq, Repr

/-- The packet fields of a command: HANDLE, AUX_HANDLE, PTR, and the bits of each PARAM word that the command defines. -/
structure CmdSpec where
  h     : HReq
  a     : HReq
  p     : PReq
  masks : List Nat
deriving DecidableEq, Repr

/-- The packet fields of each command, from the command tables of the chapters. -/
def opSpec : Op → CmdSpec
  | .identify => ⟨.zero, .zero, .write 4096, []⟩
  | .getLogPage => ⟨.any, .zero, .write 0, [0xff, 0xffffffff, 0xffffffff, 0xffffffff]⟩
  | .setFeature => ⟨.any, .zero, .none, [0xff, 0xffffffff, 0xffffffff, 0xffffffff, 0xffffffff, 0xffffffff, 0xffffffff, 0xffffffff]⟩
  | .getFeature => ⟨.any, .zero, .write 32, [0xff]⟩
  | .queueCreate => ⟨.zero, .opt 1, .none, [0xff331fff, 0x3ff00ff, 0xffffffff, 0xffffffff, 0xffffffff, 0xffffffff]⟩
  | .queueDelete => ⟨.must 9, .zero, .none, []⟩
  | .queueFlush => ⟨.must 9, .zero, .none, []⟩
  | .queueReset => ⟨.must 9, .zero, .none, []⟩
  | .asyncEventRequest => ⟨.zero, .zero, .none, []⟩
  | .bufAlloc => ⟨.zero, .zero, .none, [0xffffffff, 0xffffffff, 0x11f]⟩
  | .bufFree => ⟨.must 1, .zero, .none, []⟩
  | .bufCopy => ⟨.must 1, .must 1, .none, [0xffffffff, 0xffffffff, 0xffffffff, 0xffffffff, 0xffffffff, 0xffffffff]⟩
  | .bufFill => ⟨.must 1, .zero, .none, [0xffffffff, 0xffffffff, 0xffffffff, 0xffffffff, 0xffffffff]⟩
  | .bufCheck => ⟨.must 1, .zero, .none, [0xffffffff, 0xffffffff, 0xffffffff, 0xffffffff, 0xffffffff, 0x1]⟩
  | .camConfigure => ⟨.opt 2, .must 1, .read 512, [0x3f]⟩
  | .camStart => ⟨.must 2, .zero, .none, []⟩
  | .camStop => ⟨.must 2, .zero, .none, [0x3]⟩
  | .camSensorWrite => ⟨.must 2, .zero, .readAny, []⟩
  | .camTriggerPlan => ⟨.must 2, .zero, .read 32, []⟩
  | .rawSetStage => ⟨.must 2, .opt 1, .custom, [0x30f]⟩
  | .rawLoadTable => ⟨.must 2, .must 1, .custom, [0xf]⟩
  | .rawTap => ⟨.must 2, .opt 1, .none, [0xf713, 0xff, 0xff, 0xffffffff]⟩
  | .clrSetMatrix => ⟨.must 2, .zero, .read 112, []⟩
  | .clrLoadLut3d => ⟨.must 2, .opt 1, .custom, []⟩
  | .clrLoadCurve => ⟨.must 2, .opt 1, .custom, [0x3]⟩
  | .clrSetOutput => ⟨.must 2, .opt 1, .custom, [0x303, 0xffffffff]⟩
  | .clrSetSpectral => ⟨.must 2, .zero, .read 96, []⟩
  | .expApply => ⟨.must 2, .zero, .read 96, [0xffffffff, 0x1]⟩
  | .expSetLimits => ⟨.must 2, .zero, .read 128, []⟩
  | .statConfigure => ⟨.must 2, .opt 1, .custom, [0x3, 0xffffffff]⟩
  | .expPolicyBind => ⟨.must 2, .opt 8, .none, [0x3]⟩
  | .encSessionOpen => ⟨.must 2, .opt 1, .read 96, []⟩
  | .encSessionClose => ⟨.must 3, .zero, .none, [0x1]⟩
  | .encSetRate => ⟨.must 3, .zero, .read 32, []⟩
  | .encForceIdr => ⟨.must 3, .zero, .none, [0xffffffff, 0x1]⟩
  | .encRefMark => ⟨.must 3, .zero, .none, [0xffffffff, 0x33]⟩
  | .decSessionOpen => ⟨.zero, .must 1, .read 64, []⟩
  | .decSubmit => ⟨.must 4, .opt 1, .custom, [0x303, 0xffffffff]⟩
  | .decSessionClose => ⟨.must 4, .zero, .none, [0x1]⟩
  | .cmpJob => ⟨.must 1, .must 1, .read 32, []⟩
  | .recSessionOpen => ⟨.opt 5, .opt 1, .readAny, []⟩
  | .recSessionClose => ⟨.must 5, .zero, .none, [0x1]⟩
  | .recMarkEvent => ⟨.must 5, .zero, .none, [0xffffffff, 0xffffffff, 0xffffffff, 0xffffffff, 0x1]⟩
  | .cmpExpand => ⟨.must 1, .must 1, .read 32, []⟩
  | .dispSetTiming => ⟨.opt 6, .opt 1, .custom, [0x307, 0xffffffff]⟩
  | .dispLayerSet => ⟨.opt 7, .opt 6, .read 64, [0x1f]⟩
  | .dispCommit => ⟨.must 6, .zero, .none, [0xffffffff, 0x1]⟩
  | .dispLoadCoef => ⟨.zero, .zero, .read 1792, [0xf]⟩
  | .dispCrcSet => ⟨.must 6, .zero, .none, [0x30f, 0xffffffff, 0xffffffff, 0xffffffff]⟩
  | .dispClone => ⟨.must 6, .opt 6, .none, []⟩
  | .jmLoadKernel => ⟨.zero, .must 1, .custom, [0xff]⟩
  | .jmBindStage => ⟨.must 8, .any, .custom, [0x13, 0xffffffff]⟩
  | .jmUnload => ⟨.must 8, .zero, .none, []⟩
  | .laneConfigure => ⟨.any, .zero, .none, [0x7, 0xffffffff]⟩
  | .laneTrain => ⟨.zero, .zero, .none, [0x131f]⟩
  | .laneBitslip => ⟨.zero, .zero, .none, [0x1f, 0xffffffff]⟩
  | .laneCalSave => ⟨.zero, .must 1, .custom, [0x0, 0xffffffff]⟩
  | .laneCalRestore => ⟨.zero, .must 1, .custom, [0x0, 0xffffffff]⟩
  | .ethPortConfigure => ⟨.zero, .zero, .read 32, []⟩
  | .timeSetMode => ⟨.zero, .zero, .read 64, []⟩
  | .timeStep => ⟨.zero, .zero, .none, [0x3, 0xffffffff, 0xffff, 0xffffffff, 0xffff]⟩
  | .timeAdjustRate => ⟨.zero, .zero, .none, [0x0, 0xffffffff, 0xffffffff]⟩
  | .timeWriteIncrement => ⟨.zero, .zero, .none, [0x0, 0xffffffff, 0xff]⟩
  | .evtOutputSet => ⟨.opt 10, .zero, .read 32, []⟩
  | .evtCaptureSet => ⟨.opt 10, .opt 1, .read 16, []⟩
  | .audPortConfigure => ⟨.opt 10, .opt 1, .custom, [0x703]⟩
  | .audStart => ⟨.must 10, .zero, .none, [0x7, 0xffffffff, 0xffffffff]⟩
  | .audStop => ⟨.must 10, .zero, .none, [0x3]⟩
  | .audSetSlots => ⟨.must 10, .zero, .none, [0xffffffff, 0x3]⟩
  | .fwDownload => ⟨.zero, .must 1, .readAny, [0xffffffff, 0x1]⟩
  | .fwCommit => ⟨.zero, .zero, .custom, [0x3]⟩
  | .fwActivate => ⟨.zero, .zero, .none, [0x1]⟩
  | .healthQuery => ⟨.zero, .opt 1, .custom, []⟩
  | .monConfigure => ⟨.zero, .zero, .custom, [0x37f]⟩
  | .unitRejoin => ⟨.must 10, .zero, .none, [0x3]⟩
  | .pairConfigure => ⟨.zero, .opt 1, .custom, [0x3, 0xffffffff]⟩
  | .errPolicySet => ⟨.zero, .zero, .read 32, []⟩
  | .pwrSetState => ⟨.zero, .zero, .none, [0x3]⟩
  | .pwrSetIdleTimers => ⟨.zero, .zero, .none, [0xe, 0xffffffff, 0xffffffff, 0xffffffff]⟩
  | .memSetSpeed => ⟨.zero, .zero, .none, [0x3]⟩

/-- A PARAM word. -/
def par (c : Cmd) (i : Nat) : Nat := (vget c.param 0 i).toNat
/-- A 64-bit value in two PARAM words, the low word first (Table 12-3). -/
def par64 (c : Cmd) (i : Nat) : Nat := par c i + 2 ^ 32 * par c (i + 1)
/-- STRICT (R40). -/
def strict (c : Cmd) : Bool := c.flags.getLsbD 0
/-- The reference to a command. -/
def ref (op : Op) (c : Cmd) : CmdRef := { qid := c.qid, cid := c.cid, op := op, flags := c.flags }

/-- Whether the PTR fields agree with what a command takes, by offset. -/
def ptrFields (p : PReq) (c : Cmd) : List (Nat × Bool) :=
  let sp := c.ptrSpace.toNat
  match p with
  | .none => [(0x10, c.ptr == 0), (0x18, c.ptrLen == 0), (0x1C, sp == 0)]
  | .read n => [(0x18, c.ptrLen.toNat == n), (0x1C, sp == 1 || sp == 2)]
  | .readAny => [(0x1C, sp == 1 || sp == 2)]
  | .write n => [(0x18, n ≤ c.ptrLen.toNat), (0x1C, sp == 1 || sp == 2)]
  | .custom => [(0x1C, sp != 3)]

/-- Whether a handle field that must be zero is. -/
def zeroOk (q : HReq) (h : Handle) : Bool := match q with | .zero => h == 0 | _ => true

/-- The reserved fields of a packet and the PTR fields, by rising offset (R39, R467). -/
def packetFields (op : Op) (c : Cmd) : List (Nat × Bool) :=
  let sp := (opSpec op)
  [(0x02, Nat.blt c.flags.toNat 8), (0x03, c.rsvd03 == 0), (0x06, c.rsvd06 == 0), (0x08, zeroOk sp.h c.handle),
   (0x0C, zeroOk sp.a c.aux)] ++ ptrFields sp.p c ++ [(0x1C, c.rsvd1C == 0)] ++
  (List.range 8).map (fun i => (0x20 + 4 * i, Nat.land (par c i) (0xFFFFFFFF - (sp.masks[i]?).getD 0) == 0))

/-- Whether a handle is what its field takes: the type, live (R5). -/
def handleOk (s : State) (q : HReq) (h : Handle) : Bool :=
  match q with
  | .zero => true
  | .any => true
  | .must ty => typeOf h == ty && s.liveHandle h
  | .opt ty => h == 0 || (typeOf h == ty && s.liveHandle h)

/-- The first byte of a range that lies in a retired range (R344). -/
def retiredByte (s : State) (a n : Nat) : Option Nat :=
  minBy id (s.mem.retired.filterMap (fun r =>
    if a < r.base + Config.retiredSize && r.base < a + n then some (Nat.max a r.base) else none))

/-- The check of a range of device addresses against an object (R62, R318): none, or the reason and the byte it names. Where several checks fail, the
order of the reasons is DESIGN CHOICE: 0x01, 0x04, 0x02; so is it that an empty range is never checked. No rule
names an object that a command may only read, so reason 0x03 has no case (log 11). -/
def rangeFault (s : State) (a n : Nat) (obj : Option (Nat × Nat)) : Option (Nat × Nat) :=
  if n = 0 then none
  else if Config.addrMax < a + n - 1 then some (0x01, Nat.max a (Config.addrMax + 1))
  else match retiredByte s a n with
    | some b => some (0x04, b)
    | none =>
      match obj with
      | none => some (0x02, a)
      | some (base, size) =>
        if a < base || base + size ≤ a then some (0x02, a)
        else if base + size < a + n then some (0x02, base + size)
        else none

/-- The check of a range against an object as a check of the command. -/
def needRange (s : State) (a n : Nat) (obj : Option (Nat × Nat)) : Chk Unit :=
  match rangeFault s a n obj with
  | none => .ok ()
  | some (r, b) => .error (violation r b)

/-- The buffer of a live handle, else INVALID_HANDLE. -/
def needBuffer (s : State) (h : Handle) (place : Nat) : Chk Buffer :=
  if typeOf h = 1 then needSome (s.buffer h) (badHandle h place) else .error (badHandle h place)

/-- The check that a range of a buffer lies inside it, and its device address; an empty range may lie at the buffer's end (R322). -/
def needInBuffer (s : State) (b : Buffer) (off n : Nat) : Chk Nat := do
  need (n != 0 || off ≤ b.size) (violation 0x02 (b.base + off))
  needRange s (b.base + off) n (some (b.base, b.size))
  return b.base + off

/-- A write range must not meet a pinned range (R114). -/
def needUnpinned (s : State) (a n : Nat) : Chk Unit :=
  match s.pinned.find? (fun p => n != 0 && p.base < a + n && a < p.base + p.len) with
  | none => .ok ()
  | some p => .error (conflict p.owner p.id)

/-- The check of the PTR range of a command in device memory, and its buffer's limits. -/
def needPtr (s : State) (c : Cmd) : Chk Unit :=
  if c.ptrSpace = 1 then
    needRange s c.ptr.toNat c.ptrLen.toNat ((s.bufferAt c.ptr.toNat).map (fun b => (b.base, b.size)))
  else .ok ()

/-- The structure of a command: read from device memory (a poison mark fails it) or from host memory (a failed read fails it) (R466). The failed read is
taken to be the one at PTR: DESIGN CHOICE (log 11). -/
def structBytes (s : State) (c : Cmd) : Chk (List Byte) :=
  if c.ptrSpace = 1 then
    match s.mem.mem.poisonIn c.ptr.toNat c.ptrLen.toNat with
    | some a => .error (poisonedAt a)
    | none => .ok (s.readMem c.ptr.toNat c.ptrLen.toNat)
  else if c.ptrSpace = 2 then
    match c.host with
    | .bytes d => .ok (padTo c.ptrLen.toNat d)
    | .failed => .error
        { status := .accessViolation, r0 := c.ptr.toNat % 2 ^ 32, r1 := bitsOf c.ptr.toNat 39 32 + 256 * 0x05,
          addr := c.ptr.toNat % 2 ^ 40, reason := 0x05, detail := [c.ptr.toNat % 2 ^ 32, c.ptr.toNat / 2 ^ 32] }
  else .ok []

/-- The structure of a command whose PTR fields depend on its operation: the fields, the range and the read. -/
def structFor (s : State) (c : Cmd) (p : PReq) : Chk (List Byte) :=
  match firstBad (ptrFields p c) with
  | some off => .error (badPacket off)
  | none => do
    needPtr s c
    structBytes s c

/-- Writes bytes to the PTR range of a command, in device or host memory. -/
def State.writePtr (s : State) (c : Cmd) (bs : List Byte) : State :=
  if c.ptrSpace = 1 then s.writeMem c.ptr.toNat bs else s.emit (.hostWrite c.ptr.toNat bs)

/-- Whether a command is accepted in recovery (R453). -/
def acceptedInRecovery (op : Op) (c : Cmd) : Bool :=
  match op with
  | .identify => true
  | .getLogPage => par c 0 == 0x10 || par c 0 == 0x11
  | .fwDownload => true
  | .fwCommit => bitsOf (par c 0) 1 0 == 0
  | .fwActivate => true
  | _ => false

/-- Whether a command is accepted on queue 0 only (R35). -/
def adminOnly (op : Op) : Bool := op.code / 256 == 0 || op == .fwCommit || op == .fwActivate

/-- The checks before a command's own rules. The order among statuses is DESIGN CHOICE (log 11). -/
def preflight (s : State) (op : Op) (c : Cmd) : Chk Unit := do
  need (!(adminOnly op && c.qid != 0)) { status := .invalidOpcode, r0 := op.code, r1 := 0 }
  need (s.power.phase != .recovery || acceptedInRecovery op c) (notReady 0xF2)
  match firstBad (packetFields op c) with
  | some off => .error (badPacket off)
  | none => .ok ()
  need (handleOk s (opSpec op).h c.handle) (badHandle c.handle 0)
  need (handleOk s (opSpec op).a c.aux) (badHandle c.aux 1)
  match (opSpec op).p with
  | .none => .ok ()
  | .custom => .ok ()
  | .write _ => do
    needPtr s c
    if c.ptrSpace = 1 then needUnpinned s c.ptr.toNat c.ptrLen.toNat else .ok ()
  | _ => needPtr s c

/-- How a command's own rules end: it completes with a status and results, or stays in flight. -/
inductive Done where
  | done (st : Status) (r0 r1 : Nat) (s : State)
  | waits (s : State)

/-- A command completes with OK. -/
def okDone (r0 r1 : Nat) (s : State) : Chk Done := .ok (.done .ok r0 r1 s)

/-- A command stays in flight until a later event completes it. -/
def waitDone (op : Op) (c : Cmd) (s : State) : Chk Done := .ok (.waits (s.keepInFlight (ref op c)))

/-- Every queue's barrier becomes its current tail, where none is recorded yet (R57). -/
def State.setBarriers (s : State) : State :=
  s.mapHost (fun h => { h with queues := vmapIdx h.queues (fun _ q => if q.live then { q with barrier := some (q.barrier.getD q.submitted) } else q) })

/-- The barriers are lifted. -/
def State.clearBarriers (s : State) : State :=
  s.mapHost (fun h => { h with activation := none, queues := vmapIdx h.queues (fun _ q => { q with barrier := none }) })

/-- An FW_ACTIVATE that failed lifts the barriers that its fetch recorded, unless another's drain needs them (R57). -/
def State.liftBarriers (s : State) : State := if s.host.activation.isSome then s else s.clearBarriers

/-- A command fails: an ACCESS_VIOLATION makes an error log entry (R62); nothing else changes but the barriers of an FW_ACTIVATE (R57). -/
def failCmd (op : Op) (c : Cmd) (f : Fail) (s0 : State) : State :=
  let s := if op = .fwActivate then s0.liftBarriers else s0
  if f.status = .accessViolation then
    (s.logError { source := op.code / 256, code := f.status.code, sqId := c.qid.val, reason := f.reason, cid := c.cid,
                  opcode := BitVec.ofNat 16 op.code, addr := f.addr, detail := f.detail }).complete (ref op c) f.status f.r0 f.r1 true
  else s.complete (ref op c) f.status f.r0 f.r1 false

/-- A command runs: the common checks, its own rules, and its end. With the core domain down or in reset nothing runs. -/
def runCmd (op : Op) (c : Cmd) (s : State) (body : Chk Done) : Host.Outcome State Fault Refusal :=
  if s.power.phase = .running ∨ s.power.phase = .recovery then
    match preflight s op c with
    | .error f => .next (failCmd op c f s)
    | .ok () =>
      match body with
      | .error f => .next (failCmd op c f s)
      | .ok (.done st r0 r1 t) => .next (t.complete (ref op c) st r0 r1 false)
      | .ok (.waits t) => .next t
  else .next s

end Sys2Proof.Machine
end

