-- ==== Sys2Proof/Machine/ExpOps.lean ====
section
/-!
DEFINITION. Applies of settings (R168 to R173): predicted exposure starts, write windows, the cells of the sensor part, the values in
force of the ledgered groups (R167), and what latches at a start of frame.
-/
namespace Sys2Proof.Machine

/-! ## Predictions -/

/-- The period of a context in ns: that of the active trigger plan, or PERIOD_MIN (R99). -/
def CamCtx.period (c : CamCtx) : Nat :=
  match c.plan with
  | some p => if p.held then pfPeriod c.profile else p.period
  | none => pfPeriod c.profile

/-- The period measured between the last two exposure starts, or PERIOD_MIN (R169). -/
def CamCtx.measured (c : CamCtx) : Nat :=
  match c.expTimes with
  | a :: b :: _ => if b.1 < a.1 ∧ b.2 < a.2 then (a.2 - b.2) / (a.1 - b.1) else pfPeriod c.profile
  | _ => pfPeriod c.profile

/-- FN_NEXT at a time: the FN that the next start of frame or trigger takes (Table 03-17); each trigger that has fired has taken one (R86). -/
def CamCtx.fnNextAt (c : CamCtx) (now : Nat) : Nat := c.fnNext + (c.triggers.filter (fun t => t.fn.isNone && t.time ≤ now)).length

/-- The predicted exposure start of an FN in ns (R169): a measured one as measured, under a plan its trigger's time, otherwise counted on
from the last measured one. With none measured, FN_NEXT is taken to expose now: DEDUCED (log 24). -/
def CamCtx.expectExp (c : CamCtx) (now : Nat) (f : Int) : Int :=
  match c.expTimes.find? (fun x => (x.1 : Int) == f) with
  | some x => x.2
  | none =>
    let ahead : Int := f - c.fnNext
    let open_ := c.triggers.filter (fun t => t.fn.isNone)
    let on : Int := match c.expTimes with
      | x :: _ => x.2 + (f - x.1) * c.measured
      | [] => now + ahead * c.measured
    if ahead < 0 then
      match c.triggers.find? (fun t => t.fn.map Int.ofNat == some f) with
      | some t => t.time
      | none => on
    else match open_[ahead.toNat]?, c.plan with
      | some t, _ => t.time
      | none, some p => if p.held then on else p.first + (p.sent + (ahead - open_.length)) * p.period
      | none, none => on

/-- The predicted start of frame of an FN: its exposure start and the time last measured between the two, EXP_TO_SOF where none is (Table 03-4). -/
def CamCtx.expectSof (c : CamCtx) (now : Nat) (f : Nat) : Int := c.expectExp now f + c.sofOff.getD (pfExpToSof c.profile)

/-! ## The apply block (Table 06-4) -/

/-- GROUP_MASK. -/
def apMask (b : List Byte) : Nat := f8 b 0
/-- EXP. -/
def apExp (b : List Byte) : Bool := bitOf (f32 b 0) 8
/-- WB. -/
def apWb (b : List Byte) : Bool := bitOf (f32 b 0) 9
/-- MIXP. -/
def apMix (b : List Byte) : Bool := bitOf (f32 b 0) 10
/-- The groups of a block, rising. -/
def apGroups (b : List Byte) : List Nat := (List.range 8).filter (bitOf (apMask b))
/-- The value of a group in a packed layout that starts at an offset of a block (R166). -/
def packedValue (p : List Byte) (b : List Byte) (base g : Nat) : List Byte := slice b (base + grpOffset p g) (grpBytes (pfGroup p g))
/-- The number of a register in a packed layout. -/
def packedReg (p : List Byte) (b : List Byte) (base g i : Nat) : Nat :=
  fld b (base + grpOffset p g + i * grpWidth (pfGroup p g)) (grpWidth (pfGroup p g))

/-- Registers of the ledgered groups: their offset in the packed layout and their width (R166). -/
def packedRegs (p : List Byte) (g : Nat) : List (Nat × Nat) :=
  let e := pfGroup p g
  if grpLedgered e then (List.range (grpNreg e)).map (fun i => (grpOffset p g + i * grpWidth e, grpWidth e)) else []

/-- The fields of an apply block against the profile and the limits in force (R168, R177, Table 06-4). -/
def applyFields (p lim b : List Byte) : List (Nat × Bool) :=
  let n := pfNexp p
  let gs := apGroups b
  let inRange (lo hi x : Nat) : Bool := lo ≤ x && x ≤ hi
  [(0, gs.all (fun g => grpLedgered (pfGroup p g)) && (pfOzoth p || gs == []) && (gs != [] || apExp b || apWb b || apMix b))]
  ++ (if apExp b then
        (List.range 3).map (fun e => (4 + 4 * e, if e < n then inRange (f32 lim (4 * e)) (f32 lim (0xC + 4 * e)) (f32 b (4 + 4 * e)) else f32 b (4 + 4 * e) == 0))
        ++ (List.range n).map (fun e => (0x10 + 4 * e, 0x1000000 ≤ f32 b (0x10 + 4 * e) && inRange (f32 lim 0x18) (f32 lim 0x1C) (f32 b (0x10 + 4 * e))))
      else [])
  ++ (if apWb b then (List.range 4).map (fun i =>
        (0x20 + 4 * i, inRange 0x1000 0xFFFFF (f32 b (0x20 + 4 * i)) && inRange (f32 lim 0x20) (f32 lim 0x24) (f32 b (0x20 + 4 * i)))) else [])
  ++ (if apMix b then [(0x30, decide (f16 b 0x30 ≤ f16 lim 0x28))] else [])
  ++ gs.flatMap (fun g => (packedRegs p g).map (fun r =>
        (0x38 + r.1, inRange (fld lim (0x30 + r.1) r.2) (fld lim (0x58 + r.1) r.2) (fld b (0x38 + r.1) r.2))))

/-! ## Cells of the sensor part -/

/-- An 8-byte control entry (Table 03-10). -/
def ctrlEntry (kind addr reg data : Nat) : List Byte := layout 8 [(0, 1, kind), (1, 1, addr), (2, 2, reg), (4, 4, data)]

/-- The register writes of a group with its values. -/
def groupEntries (p value : List Byte) (g : Nat) : List Byte :=
  let e := pfGroup p g
  (List.range (grpNreg e)).flatMap (fun i => ctrlEntry 0 (pfI2cAddr p) (grpReg e i) (fld value (i * grpWidth e) (grpWidth e)))

/-- The entries of a cell: the groups' writes. FLAGS HOLD tells the hub to wrap them in the group hold (Table 03-10, R169). -/
def cellEntries (p : List Byte) (gs : List (Nat × List Byte)) : List Byte := gs.flatMap (fun g => groupEntries p g.2 g.1)

/-- Nanoseconds per bit of the sensor bus. -/
def i2cBit (p : List Byte) : Nat := match pfI2cSpeed p with | 0 => 10000 | 1 => 2500 | _ => 1000

/-- W_g: the bus time of a cell in ns (R169). -/
def busTime (p : List Byte) (gs : List Nat) : Nat :=
  let regs := sumNat (gs.map (fun g => grpNreg (pfGroup p g) * (9 * (3 + grpWidth (pfGroup p g)) + 2)))
  let hold := if gs.any (fun g => grpHold (pfGroup p g)) then 2 * (9 * 4 + 2) else 0
  (regs + hold) * i2cBit p

/-- Groups of one delay are split into cells of at most 27 entries, whole groups to a cell. -/
def splitGroups (p : List Byte) : List Nat → List Nat → List (List Nat)
  | [], cur => if cur.isEmpty then [] else [cur]
  | g :: rest, cur =>
    let n := sumNat ((cur ++ [g]).map (fun x => grpNreg (pfGroup p x)))
    if cur.isEmpty || n ≤ 27 then splitGroups p rest (cur ++ [g]) else cur :: splitGroups p rest [g]

/-- The cells of a sensor part: settings delay and groups of each, by rising delay. -/
def applyCells (p : List Byte) (groups : List Nat) : List (Nat × List Nat) :=
  (List.range 5).flatMap (fun d =>
    (splitGroups p (groups.filter (fun g => grpDelay p (pfGroup p g) == d)) []).map (fun gs => (d, gs)))

/-- WHEN of a cell for a target in ns, not before its window opens (R169). -/
def CamCtx.cellWhen (c : CamCtx) (now guard t d : Nat) (gs : List Nat) : Int :=
  let w := c.expectExp now ((t : Int) - d) - guard * 1000 - busTime c.profile gs
  let opens := c.expectExp now ((t : Int) - d - 1)
  if w < opens then opens else w

/-- Whether a target is achievable for a block at a time (R170). -/
def CamCtx.achievable (c : CamCtx) (now guard : Nat) (blk : List Byte) (t : Nat) : Bool :=
  let cells := applyCells c.profile (apGroups blk)
  if cells.isEmpty then (now : Int) < c.expectSof now t
  else cells.all (fun x => (now : Int) + 100000 ≤ c.cellWhen now guard t x.1 x.2)

/-- The smallest achievable target (R170). -/
def CamCtx.firstTarget (c : CamCtx) (now guard : Nat) (blk : List Byte) : Nat :=
  ((List.range 65536).map (c.fnNext + ·)).find? (c.achievable now guard blk) |>.getD (c.fnNext + 65536)

/-! ## Issue -/

/-- T[0] × G[0] of a block. -/
def apTg (b : List Byte) : Nat := f32 b 0x04 * f32 b 0x10

/-- The cells of an apply are sent: one TIMED_ACCESS for each set of groups that share a delay (R169), with WHEN 0 at CAM_START (R173). -/
def State.sendApply (cam : Nat) (a : Apply) (s : State) : State :=
  let c := s.cam cam
  (applyCells c.profile (apGroups a.blk)).foldl (fun (t : State) (x : Nat × List Nat) =>
    let vals := x.2.map (fun g => (g, packedValue c.profile a.blk 0x38 g))
    let w := c.cellWhen s.ns s.host.feat.guard a.target x.1 x.2
    let hold := if x.2.any (fun g => grpHold (pfGroup c.profile g)) then 1 else 0
    let new := vals.map (fun v => ({ group := v.1, applyId := a.id, sched := a.target, effect := a.target, value := v.2,
                                     acked := false, failed := false } : GroupWrite))
    (t.mapCam cam (fun y => { y with writes := y.writes ++ new })).sendCtrl cam 0x02 hold
      (if a.atStart then 0 else whenOf w.toNat) 0 (cellEntries c.profile vals) (.apply a.id x.2)) s

/-- An apply is accepted: it takes the next APPLY_ID and, unless it waits for CAM_START, its cells are sent (R168, R169). -/
def State.issueApply (cam : Nat) (by_ : Option CmdRef) (blk : List Byte) (target limited : Nat) (late atStart : Bool) (s : State) : State :=
  let c := s.cam cam
  let a : Apply := { id := c.applyNext, by_ := by_, target := target, blk := blk, limited := limited, asked := target,
                     atStart := atStart, sentAll := !atStart, failed := false, partial_ := 0, late := late }
  let t := s.mapCam cam (fun y => { y with
    applyNext := y.applyNext + 1, applies := y.applies ++ [a], newestTg := if apExp blk then apTg blk else y.newestTg })
  if atStart then t else t.sendApply cam a

/-- A pending apply ends: its completion, and the counters of Table 06-12. An apply whose command was aborted has none. -/
def State.endApply (cam : Nat) (a : Apply) (st : Status) (r0 r1 : Nat) (logged : Bool) (s : State) : State :=
  let t := s.mapCam cam (fun c => { c with applies := c.applies.filter (fun x => x.id != a.id) })
  let t := t.countCam cam (fun n => { n with applies := n.applies.satInc })
  match a.by_ with
  | some r => t.finish r st r0 r1 logged
  | none => t

/-! ## Values in force (R167) -/

/-- The writes of a group that are acknowledged and in force at an FN, in order. -/
def CamCtx.inForce (c : CamCtx) (g f : Nat) : List GroupWrite :=
  c.writes.filter (fun w => w.group == g && w.acked && !w.failed && w.effect ≤ f)

/-- The newest of them: the one of the latest effect frame, and of those of one frame the last sent, which the hub executes last (R167, R173). -/
def CamCtx.newest (c : CamCtx) (g f : Nat) : Option GroupWrite :=
  let ws := c.inForce g f
  (ws.filter (fun w => w.effect == maxNat (ws.map GroupWrite.effect))).getLast?

/-- Whether the value of a group is known at an FN: it has an acknowledged write in force; no write sent for the FN or one before is without its ACK;
and none of them failed that no later write has made good (R167, R172). -/
def CamCtx.groupKnown (c : CamCtx) (g f : Nat) : Bool :=
  match c.newest g f with
  | none => false
  | some _ =>
    let mine := c.writes.filter (fun x => x.group == g && x.sched ≤ f)
    let since := ((mine.reverse).takeWhile (fun x => !(x.acked && !x.failed && x.effect ≤ f)))
    !(mine.any (fun x => !x.acked && !x.failed)) && !(since.any GroupWrite.failed)

/-- SENSOR_VALUES and GROUP_KNOWN at an FN (R166, R167). -/
def CamCtx.valuesAt (c : CamCtx) (f : Nat) : List Byte × Nat :=
  let gs := pfLedgered c.profile
  let one (g : Nat) : List Byte := match c.newest g f with
    | some w => w.value
    | none => zeros (grpBytes (pfGroup c.profile g))
  (gs.flatMap one, sumNat (gs.map (fun g => 2 ^ g * bit01 (c.groupKnown g f))))

/-- SENSOR_APPLY at an FN: the newest apply whose sensor part is wholly in force (Table 06-1). -/
def CamCtx.sensorApplyAt (c : CamCtx) (f : Nat) : Nat :=
  maxNat ((c.writes.filter (fun w => c.writes.all (fun x => x.applyId != w.applyId || (x.acked && !x.failed && x.effect ≤ f)))).map
    GroupWrite.applyId)

/-! ## Latching (R171 to R173) -/

/-- Whether an apply lands at a start of frame: with a sensor part, when every group is acknowledged and in force, not before its
target unless a group executed outside its window. -/
def CamCtx.lands (c : CamCtx) (f : Nat) (a : Apply) : Bool :=
  let ws := c.writes.filter (fun w => w.applyId == a.id)
  let ready := ws.all (fun w => w.acked && !w.failed && w.effect ≤ f)
  let off := ws.any (fun w => w.acked && w.effect != w.sched)
  a.sentAll && !a.failed && ready && (a.target ≤ f || off) && (apGroups a.blk == [] || ws != [])

/-- The pipeline part of a block over the settings in force: absent fields keep their values (R173, Table 06-4). -/
def PipeSet.merge (x : PipeSet) (n : Nat) (b : List Byte) : PipeSet :=
  { t := if apExp b then Vector.ofFn (fun i => if i.val < n then f32 b (0x04 + 4 * i.val) else 0) else x.t,
    g := if apExp b then Vector.ofFn (fun i => if i.val < n then f32 b (0x10 + 4 * i.val) else 0) else x.g,
    wb := if apWb b then Vector.ofFn (fun i => f32 b (0x20 + 4 * i.val)) else x.wb,
    mix := if apMix b then f16 b 0x30 else x.mix }

/-- The latch at the start of frame of an FN, in dispatch order (R173). -/
def CamCtx.latch (c : CamCtx) (f : Nat) : Latched :=
  let ls := c.applies.filter (c.lands f)
  { pipe := ls.foldl (fun x a => x.merge (pfNexp c.profile) a.blk) c.pipe,
    pipeApply := match ls.getLast? with | some a => a.id | none => c.pipeApply,
    limited := ls.foldl (fun x a => Nat.lor x a.limited) 0,
    adjusted := ls.any (fun a => a.target != f),
    hubLate := c.writes.any (fun w => w.acked && w.effect != w.sched && w.effect == f) }

/-- The applies that land at a start of frame complete (R172); aborted ones have no command left. -/
def State.landApplies (cam f : Nat) (s : State) : State :=
  let c := s.cam cam
  (c.applies.filter (c.lands f)).foldl (fun (t : State) (a : Apply) =>
    let adj := a.late || a.target != f
    let t := t.countCam cam (fun n => { n with adjusted := if adj then n.adjusted.satInc else n.adjusted })
    t.endApply cam a (if adj then .okAdjusted else .ok) (f % 2 ^ 32) (a.id % 2 ^ 32) false) s

/-- What an FN latches at its start of frame; the applies that land there complete. An FN that a later frame has passed has latched then. -/
def State.latchAt (cam fn : Nat) (s : State) : State × Latched :=
  let c := s.cam cam
  match c.early.find? (fun x => x.1 == fn) with
  | some x => (s.mapCam cam (fun y => { y with early := y.early.filter (fun z => z.1 != fn) }), x.2)
  | none =>
    let l := c.latch fn
    ((s.landApplies cam fn).mapCam cam (fun y => { y with pipe := l.pipe, pipeApply := l.pipeApply }), l)

/-- The FNs before a frame's whose triggers have fired and whose frames have not come latch before it: an apply that targets one of them lands there,
though its frame may never come (R172). -/
def State.latchBefore (cam fn : Nat) (s : State) : State :=
  let c := s.cam cam
  ((c.triggers.filterMap Trigger.fn).filter (fun m => m < fn && c.early.all (fun x => x.1 != m))).foldl (fun (t : State) (m : Nat) =>
    let x := t.latchAt cam m
    x.1.mapCam cam (fun y => { y with early := y.early ++ [(m, x.2)] })) s

/-- A hub frame count names the FN exposing when it executed; an unknown count is counted on from the newest known pair (log 24). -/
def CamCtx.fnOfHub (c : CamCtx) (hubFc : Nat) : Option Nat :=
  match c.fcMap.find? (fun x => x.1 == hubFc) with
  | some x => some x.2
  | none => match c.fcMap with
    | (h, f) :: _ => let d := (hubFc + 65536 - h) % 65536; if d < 32768 then some (f + d) else none
    | [] => none

/-- An acknowledged cell of an apply: its groups take effect at the frame of the last exposure start before it executed, plus one,
plus D_g (R167); an execution outside the window counts in HUB_LATE and marks the frame at which it takes effect (R171). -/
def State.ackApply (cam id : Nat) (groups : List Nat) (hubFc : Nat) (s : State) : State :=
  let c := s.cam cam
  let atStart := c.applies.any (fun a => a.id == id && a.atStart) || c.starting.isSome
  let eff (w : GroupWrite) : Nat :=
    if atStart then w.sched
    else match c.fnOfHub hubFc with
      | some f => f + 1 + grpDelay c.profile (pfGroup c.profile w.group)
      | none => w.sched
  let mine (w : GroupWrite) : Bool := w.applyId == id && groups.contains w.group
  let late := c.writes.filter (fun w => mine w && eff w != w.sched)
  let t := (s.mapCam cam (fun c => { c with writes := updWhere mine (fun w => { w with acked := true, effect := eff w }) c.writes })).countCam cam
    (fun n => { n with hubLate := late.foldl (fun w _ => w.satInc) n.hubLate })
  late.foldl (fun (u : State) (w : GroupWrite) => u.flagFrame cam (eff w) 18) t

/-- A failed cell of an apply: its groups are unknown from the frame it would have affected, executed entries of it count, no further
cell of the apply is sent, and it will not land (R172, R83). -/
def State.breakApply (cam id executed : Nat) (groups : List Nat) (s : State) : State :=
  (s.mapCam cam (fun c => { c with
    writes := updWhere (fun w => w.applyId == id && groups.contains w.group) (fun w => { w with failed := true }) c.writes,
    applies := updWhere (fun a => a.id == id) (fun a => { a with failed := true, partial_ := a.partial_ + executed }) c.applies })).dropWaiting cam
      (fun w => match w with | .apply i _ => i == id | _ => false)

/-- A cell of an apply draws NAK reason 2: the apply ends with a status (R83). -/
def State.failApply (cam id : Nat) (groups : List Nat) (st : Status) (r0 r1 : Nat) (s : State) : State :=
  let t := s.breakApply cam id 0 groups
  match (t.cam cam).applies.find? (fun a => a.id == id) with
  | some a => t.endApply cam a st r0 r1 true
  | none => t

/-- The entries of an apply that are acknowledged: those of its cells whose groups all are (R83). -/
def CamCtx.applyEntries (c : CamCtx) (a : Apply) : Nat :=
  sumNat ((applyCells c.profile (apGroups a.blk)).map (fun x =>
    if x.2.all (fun g => c.writes.any (fun w => w.applyId == a.id && w.group == g && w.acked)) then
      (cellEntries c.profile (x.2.map (fun g => (g, packedValue c.profile a.blk 0x38 g)))).length / 8
    else 0))

/-- An apply with a failed cell ends with HARDWARE_FAULT once no cell of it is left without an answer: the entries acknowledged count those of the
cells sent after the failed one (R83; DEDUCED, log 23). -/
def State.applySettles (cam id : Nat) (s : State) : State :=
  let c := s.cam cam
  match c.applies.find? (fun a => a.id == id) with
  | none => s
  | some a =>
    if !a.failed || c.unacked.any (fun x => match x.why with | .apply i _ => i == id | _ => false) then s
    else
      let lane := s.ctrlLane cam
      let entry : LogInfo := { source := 0x05, code := Status.hardwareFault.code, unit := lane, epoch := s.ctrlEpoch cam,
                               detail := [c.applyEntries a + a.partial_] }
      let t := s.logError (entry.about a.by_)
      t.endApply cam a .hardwareFault lane.toNat t.errSeq true

/-! ## The end of a context -/

/-- A pending apply ends without landing, as the manual leaves open (log 30): its camera was stopped before its target. -/
def State.dropApplies (cam : Nat) (p : Apply → Bool) (s : State) : State :=
  ((s.cam cam).applies.filter p).foldl (fun (t : State) (a : Apply) => t.endApply cam a .notReady 0x02 0 false) s

/-- A CAM_SENSOR_WRITE ends. -/
def State.endJob (cam : Nat) (r : CmdRef) (st : Status) (r0 r1 : Nat) (logged : Bool) (s : State) : State :=
  let t := s.mapCam cam (fun c => { c with sensor := c.sensor.filter (fun j => j.by_ != r) })
  (t.dropWaiting cam (fun w => match w with | .entries b _ _ => b == r | _ => false)).finish r st r0 r1 logged

/-- A context is released: what still waits in it ends (log 30), and the context is IDLE, keeping its RUN number
(R71, R72) and its control sequence, of which a hub executes each number once (R81). -/
def State.releaseCtx (cam : Nat) (s : State) : State :=
  let t := s.dropApplies cam (fun _ => true)
  let t := ((s.cam cam).sensor).foldl (fun (u : State) (j : SensorJob) => u.endJob cam j.by_ .notReady 0x01 0 false) t
  t.mapCam cam (fun c => { CamCtx.idle c.run with seq := c.seq })

end Sys2Proof.Machine
end

