-- ==== Sys2Proof/Machine/Kcs.lean ====
section
/-!
DEFINITION. KCS compressed surfaces (chapter 10, R276 to R278): the header, the places of blocks, and the coding and decoding of a
block.
-/
namespace Sys2Proof.Machine

/-- What the header of a KCS surface says (Table 10-8). -/
structure KcsInfo where
  chroma : Nat
  depth  : Nat
  q      : Nat
  width  : Nat
  height : Nat
  attr   : Nat
deriving DecidableEq, Repr

/-- Components and their sizes in a block: samples per row and rows (Table 10-9). -/
def kcsComps (chroma : Nat) : List (Nat × Nat) :=
  match chroma with
  | 0 => [(32, 8), (16, 4), (16, 4)]
  | 1 => [(32, 8), (16, 8), (16, 8)]
  | 4 => [(32, 8)]
  | _ => [(32, 8), (32, 8), (32, 8)]

/-- Samples per block. -/
def kcsSamples (chroma : Nat) : Nat := sumNat ((kcsComps chroma).map (fun c => c.1 * c.2))
/-- SLOT (Table 10-9). -/
def kcsSlot (chroma depth : Nat) : Nat := roundUp (ceilDiv (kcsSamples chroma * depth) 8) 64
/-- BCOLS. -/
def KcsInfo.bcols (k : KcsInfo) : Nat := ceilDiv k.width 32
/-- BROWS. -/
def KcsInfo.brows (k : KcsInfo) : Nat := ceilDiv k.height 8
/-- DATA_OFF. -/
def KcsInfo.dataOff (k : KcsInfo) : Nat := 64 + ceilDiv (k.bcols * k.brows) 64 * 64
/-- SLOT of a surface. -/
def KcsInfo.slot (k : KcsInfo) : Nat := kcsSlot k.chroma k.depth
/-- The size bound K of a surface (R276). -/
def KcsInfo.bound (k : KcsInfo) : Nat := k.dataOff + k.bcols * k.brows * k.slot
/-- The 64 bytes of the header. -/
def KcsInfo.header (k : KcsInfo) : List Byte :=
  layout 64 [(0x00, 4, 0x3153434B), (0x04, 1, k.chroma), (0x05, 1, k.depth), (0x06, 1, k.q), (0x08, 2, k.width), (0x0A, 2, k.height),
    (0x0C, 2, k.bcols), (0x0E, 2, k.brows), (0x10, 4, 64), (0x14, 4, k.dataOff), (0x18, 4, k.slot), (0x1C, 4, k.attr)]
/-- The header read from 64 bytes. -/
def kcsOf (h : List Byte) : KcsInfo :=
  { chroma := f8 h 4 % 8, depth := f8 h 5, q := f8 h 6, width := f16 h 8, height := f16 h 0xA, attr := f32 h 0x1C % 8 }
/-- Whether 64 bytes are the header of a KCS surface whose fields agree. -/
def kcsValid (h : List Byte) : Bool :=
  let k := kcsOf h
  k.chroma ≤ 4 && (k.depth == 8 || k.depth == 10 || k.depth == 12) && k.q ≤ 4 && h == k.header

/-- The middle of three. -/
def middle (a b c : Int) : Int := max (min a b) (min (max a b) c)

/-- The prediction of sample n of a component w samples wide from the samples before it (R277). -/
def kcsPred (w d : Nat) (xs : Array Nat) (n : Nat) : Int :=
  let at_ (k : Nat) : Int := ((xs[k]?).getD 0 : Nat)
  let i := n % w
  let j := n / w
  if 0 < i && 0 < j then middle (at_ (n - 1)) (at_ (n - w)) (at_ (n - 1) + at_ (n - w) - at_ (n - w - 1))
  else if 0 < i then at_ (n - 1)
  else if 0 < j then at_ (n - w)
  else 2 ^ (d - 1)

/-- The unsigned code of a difference. -/
def kcsFold (r : Int) : Nat := if 0 ≤ r then (2 * r).toNat else (-2 * r - 1).toNat
/-- The difference of an unsigned code. -/
def kcsUnfold (u : Nat) : Int := if u % 2 = 0 then (u / 2 : Nat) else -((u / 2 : Nat) : Int) - 1

/-- Bit length of a number. -/
def bitLen (n : Nat) : Nat := if n = 0 then 0 else Nat.log2 n + 1

/-- Values of fixed width packed least significant first, as (bits, length). -/
def packBits (w : Nat) (vs : List Nat) : Nat × Nat := vs.foldl (fun (a : Nat × Nat) v => (a.1 + v * 2 ^ a.2, a.2 + w)) (0, 0)

/-- The bits of the groups of a component's codes. -/
def kcsGroups : Nat → List Nat → Nat × Nat
  | 0, _ => (0, 0)
  | n + 1, us =>
    let g := us.take 16
    let w := bitLen (maxNat g)
    let p := packBits w g
    let rest := kcsGroups n (us.drop 16)
    (w + 16 * p.1 + 2 ^ (4 + p.2) * rest.1, 4 + p.2 + rest.2)

/-- The bytes of a component's samples. -/
def kcsComp (w d : Nat) (xs : List Nat) : List Byte :=
  let a := xs.toArray
  let us := (List.range xs.length).map (fun n => kcsFold (((xs[n]?).getD 0 : Nat) - kcsPred w d a n))
  let b := kcsGroups (xs.length / 16) us
  leBytes (ceilDiv b.2 8) b.1

/-- A coded block of a surface: its index byte and its bytes (R277). comps are the samples of each component in raster order. -/
def kcsBlock (k : KcsInfo) (comps : List (List Nat)) : Nat × List Byte :=
  let d := k.depth - k.q
  let low := comps.map (fun c => c.map (· / 2 ^ k.q))
  let coded := ((kcsComps k.chroma).zip low).flatMap (fun c => kcsComp c.1.1 d c.2)
  if coded.length < k.slot then (ceilDiv coded.length 64, coded)
  else
    let raw := packBits d low.flatten
    let bs := leBytes (ceilDiv raw.2 8) raw.1
    (ceilDiv bs.length 64 + 128, bs)

/-- The codes of the groups of a component from a bit position, and the position after them. -/
def kcsUngroup (bits : Nat) : Nat → Nat → List Nat × Nat
  | 0, pos => ([], pos)
  | n + 1, pos =>
    let w := bits / 2 ^ pos % 16
    let g := (List.range 16).map (fun i => bits / 2 ^ (pos + 4 + i * w) % 2 ^ w)
    let r := kcsUngroup bits n (pos + 4 + 16 * w)
    (g ++ r.1, r.2)

/-- The samples of a component from its codes. -/
def kcsUncode (w d : Nat) (us : List Nat) : List Nat :=
  (us.zipIdx.foldl (fun (a : Array Nat) (u : Nat × Nat) => a.push ((kcsPred w d a u.2 + kcsUnfold u.1) % 2 ^ d).toNat) #[]).toList

/-- The components of a coded block. -/
def kcsUncodeAll (d bits : Nat) : List (Nat × Nat) → Nat → List (List Nat)
  | [], _ => []
  | c :: rest, pos =>
    let u := kcsUngroup bits (c.1 * c.2 / 16) pos
    kcsUncode c.1 d u.1 :: kcsUncodeAll d bits rest (roundUp u.2 8)

/-- The components of a raw block. -/
def kcsRawAll (d bits : Nat) : List (Nat × Nat) → Nat → List (List Nat)
  | [], _ => []
  | c :: rest, pos =>
    (List.range (c.1 * c.2)).map (fun i => bits / 2 ^ (pos + d * i) % 2 ^ d) :: kcsRawAll d bits rest (pos + d * c.1 * c.2)

/-- The samples of a block read from its index byte and its bytes (R277). -/
def kcsDecode (k : KcsInfo) (index : Nat) (data : List Byte) : List (List Nat) :=
  let d := k.depth - k.q
  let cs := kcsComps k.chroma
  let low := if bitOf index 7 then kcsRawAll d (leNat data) cs 0 else kcsUncodeAll d (leNat data) cs 0
  low.map (fun c => c.map (fun v => if k.q = 0 then v else v * 2 ^ k.q + 2 ^ (k.q - 1)))

/-- Chroma subsampling of a surface across and down. -/
def kcsSub (chroma : Nat) : Nat × Nat :=
  match chroma with
  | 0 => (2, 2)
  | 1 => (2, 1)
  | _ => (1, 1)

/-- The samples of a component of block (bx, by) from a picture; beyond the picture the nearest sample repeats. -/
def kcsGather (k : KcsInfo) (pic : Nat → Nat → Nat → Nat) (bx by_ comp : Nat) : List Nat :=
  let c := ((kcsComps k.chroma)[comp]?).getD (32, 8)
  let sub := if comp = 0 then (1, 1) else kcsSub k.chroma
  let w := ceilDiv k.width sub.1
  let h := ceilDiv k.height sub.2
  (List.range c.2).flatMap (fun j => (List.range c.1).map (fun i =>
    pic comp (Nat.min (w - 1) (bx * c.1 + i)) (Nat.min (h - 1) (by_ * c.2 + j))))

/-- Writes a picture as a KCS surface at an address: header, index and blocks. Bytes of a block's last unit beyond its code are left as
they are. -/
def State.writeKcs (k : KcsInfo) (a : Nat) (pic : Nat → Nat → Nat → Nat) (s : State) : State :=
  let blocks := (List.range (k.bcols * k.brows)).map (fun n =>
    kcsBlock k ((List.range (kcsComps k.chroma).length).map (kcsGather k pic (n % k.bcols) (n / k.bcols))))
  let t := (s.writeMem a k.header).writeMem (a + 64) (blocks.map (fun b => BitVec.ofNat 8 b.1))
  blocks.zipIdx.foldl (fun (t : State) (b : (Nat × List Byte) × Nat) => t.writeMem (a + k.dataOff + b.2 * k.slot) b.1.2) t

/-- Whether block n of a surface at an address is unreadable (R278). -/
def kcsLost (m : Memory) (k : KcsInfo) (a n : Nat) : Bool :=
  m.marked (a + 64 + n) ||
  (m.poisonIn (a + k.dataOff + n * k.slot) (64 * ((m.byte (a + 64 + n)).toNat % 64))).isSome

/-- A sample of a surface at an address: component, column, line. -/
def kcsSample (m : Memory) (k : KcsInfo) (a comp x y : Nat) : Nat :=
  let c := ((kcsComps k.chroma)[comp]?).getD (32, 8)
  let n := y / c.2 * k.bcols + x / c.1
  let index := (m.byte (a + 64 + n)).toNat
  let block := kcsDecode k index (m.read (a + k.dataOff + n * k.slot) (64 * (index % 64)))
  (((block[comp]?).getD [])[(y % c.2) * c.1 + x % c.1]?).getD 0

end Sys2Proof.Machine
end

