-- ==== Sys2Proof/Machine/RecHooks.lean ====
section
/-!
DEFINITION. What the ends of frames, sessions and audio blocks do to the recording sessions bound to them (R249, R250, R263).
-/
namespace Sys2Proof.Machine

/-- KIND of a source entry (Table 09-5). -/
def RecSrc.kind (x : RecSrc) : Nat := f8 x.entry 0
/-- INDEX. -/
def RecSrc.index (x : RecSrc) : Nat := f8 x.entry 1
/-- HANDLE. -/
def RecSrc.handle (x : RecSrc) : Handle := BitVec.ofNat 32 (f32 x.entry 4)

/-- Applies a function to the recording session of a handle. -/
def State.mapRec (h : Handle) (f : RecSession → RecSession) (s : State) : State :=
  { s with recs := updWhere (fun e => e.handle == h) f s.recs }
/-- The session of a handle. -/
def State.rec_ (s : State) (h : Handle) : Option RecSession := s.recs.find? (fun e => e.handle == h)

/-- Whether a source is the one of a kind, handle and index. -/
def RecSrc.is (k : Nat) (h : Handle) (i : Nat) (x : RecSrc) : Bool := x.kind == k && x.handle == h && x.index == i

/-- What waits at the sources of a kind, handle and index grows by an entry; a session that closes takes nothing more (R263). -/
def State.recOffer (k : Nat) (h : Handle) (i : Nat) (p : RecPend) (s : State) : State :=
  let add (x : RecSrc) : RecSrc := if x.is k h i && !x.gone then { x with pend := x.pend ++ [p] } else x
  { s with recs := s.recs.map (fun (e : RecSession) => if e.closing.isSome then e else { e with sources := e.sources.map add }) }

/-- A source ends without a close: its session goes on, and ERROR_LOGGED is posted (R263). -/
def State.recGone (k : Nat) (h : Handle) (i : Nat) (s : State) : State :=
  let mine (x : RecSrc) : Bool := x.is k h i && !x.gone
  let hit := s.recs.filter (fun (e : RecSession) => e.closing.isNone && e.sources.any mine)
  let off (x : RecSrc) : RecSrc := if x.is k h i then { x with gone := true } else x
  let t : State := { s with recs := s.recs.map (fun (e : RecSession) => { e with sources := e.sources.map off }) }
  hit.foldl (fun (u : State) (e : RecSession) => u.logErrorPost { source := 0x08, code := Status.notReady.code, unit := e.handle }) t

/-- Exposure start of a ledger record in 2^-16 ns, from its bytes (Table 06-1). -/
def recordTime (b : List Byte) : Nat := (fld b 0x10 6 * 1000000000 + f32 b 0x18) * 65536 + f16 b 0x16

/-- A frame's record has become CLOSED: ledger sources of the camera get it, and tap sources their slot or a gap (R249, Table 09-9). -/
def State.recClosed (cam : Nat) (f : CamFrame) (r : LedgerRec) (s : State) : State :=
  let h := (s.cam cam).handle
  let t := s.recOffer 3 h 0 (.ledger cam f.fn r.run r.exp)
  (List.range 2).foldl (fun (t : State) (i : Nat) =>
    match vget f.set.taps none i, vget f.tapSlots none i with
    | some _, some n =>
      let ring := vget (s.cam cam).taps Ring.absent i
      t.recOffer 2 h i (.tap f.fn r.run (ring.base + n * ring.slotSize) ring.slotSize r.exp f.deadline none 0)
    | some q, none => if f.fn % Nat.max 1 q.every = 0 then t.recOffer 2 h i (.gap f.fn f.fn 3 r.run r.exp) else t
    | none, _ => t) t

/-- A frame has been dropped: ledger sources get its record, tap sources a gap. -/
def State.recDropped (cam fn : Nat) (s : State) : State :=
  let c := s.cam cam
  let time := recordTime (s.readMem (ledgerAddr cam fn) 256)
  let t := s.recOffer 3 c.handle 0 (.ledger cam fn c.run time)
  (List.range 2).foldl (fun (t : State) (i : Nat) =>
    match vget c.last.taps none i with
    | some q => if fn % Nat.max 1 q.every = 0 then t.recOffer 2 c.handle i (.gap fn fn 6 c.run time) else t
    | none => t) t

/-- A camera's run has ended: its tap and ledger sources end. What waits at them is still taken (R249). -/
def State.recRunEnded (cam : Nat) (s : State) : State :=
  let h := (s.cam cam).handle
  ((s.recGone 3 h 0).recGone 2 h 0).recGone 2 h 1

end Sys2Proof.Machine
end

