-- ==== Sys2Proof/Machine/Rings.lean ====
section
/-!
DEFINITION. The slots of output, tap and statistics rings: taking one for a frame, completing it, and letting it go (R136, R156, R174).
-/
namespace Sys2Proof.Machine

/-- Releases of a ring slot: a holder lets go, and a slot that is complete and has no holder is free (R136, R156). -/
def Ring.release (r : Ring) (h : Handle) (p : RingSlot → Bool) : Ring :=
  { r with slots := r.slots.map (fun x =>
      if x.used && p x then
        let y := { x with holders := x.holders.filter (· != h) }
        if y.done && y.holders.isEmpty then { y with used := false } else y
      else x) }

/-- A ring slot whose frame is complete; without holders it is free at once. -/
def Ring.complete (r : Ring) (i : Nat) : Ring :=
  { r with slots := r.slots.zipIdx.map (fun x => if x.2 = i then
      { x.1 with done := true, used := !x.1.holders.isEmpty } else x.1) }

/-- A slot of a ring whose frame is given up is free. -/
def Ring.abandon (r : Ring) (i : Option Nat) : Ring :=
  { r with slots := r.slots.zipIdx.map (fun x => if some x.2 = i then { x.1 with used := false, holders := [] } else x.1) }

/-- Takes the next slot of a ring for a frame, none when it is not free. -/
def Ring.take (r : Ring) (fn run : Nat) (holders : List Handle) : Ring × Option Nat :=
  match r.slots[r.next]? with
  | none => (r, none)
  | some x =>
    if x.used then (r, none)
    else ({ r with next := (r.next + 1) % r.slots.length,
                   slots := r.slots.zipIdx.map (fun y => if y.2 = r.next then
                     { used := true, fn := fn, run := run, done := false, holders := holders } else y.1) }, some r.next)

/-- A ring just configured: every slot free. -/
def Ring.fresh (id base slotSize slots : Nat) : Ring :=
  { id := id, base := base, slotSize := slotSize, next := 0,
    slots := List.replicate slots { used := false, fn := 0, run := 0, done := false, holders := [] } }

end Sys2Proof.Machine
end

