-- ==== Sys2Proof/Machine/EncOps.lean ====
section
/-!
DEFINITION. Encode sessions (chapter 07): what the end of a camera's frames does to them, the order of pictures (R198 to R200), the
reference pool (R203), the picture level of rate control (R208), and the bitstream ring (R213, R214).
-/
namespace Sys2Proof.Machine

/-- Applies a function to the encode sessions that satisfy a test. -/
def State.mapEncs (p : EncSession → Bool) (f : EncSession → EncSession) (s : State) : State :=
  { s with encs := updWhere p f s.encs }
/-- Applies a function to the session of a handle. -/
def State.mapEnc (h : Handle) (f : EncSession → EncSession) (s : State) : State := s.mapEncs (fun e => e.handle == h) f
/-- The session of a handle. -/
def State.enc (s : State) (h : Handle) : Option EncSession := s.encs.find? (fun e => e.handle == h)

/-! ## The session block (Table 07-6) and the rate block (Table 07-11) -/

/-- SRC_OUT. -/
def sbSrc (b : List Byte) : Nat := f8 b 0 % 4
/-- PROFILE. -/
def sbProfile (b : List Byte) : Nat := f8 b 1
/-- LEVEL. -/
def sbLevel (b : List Byte) : Nat := f8 b 2
/-- High tier. -/
def sbHigh (b : List Byte) : Bool := bitOf (f8 b 3) 0
/-- Side of a CTU. -/
def sbCtu (b : List Byte) : Nat := if bitOf (f8 b 3) 2 then 32 else 64
/-- The crop: CROP_X, CROP_Y, CROP_W, CROP_H; 0 selects the active area. -/
def sbCrop (p b : List Byte) : Nat × Nat × Nat × Nat :=
  (f16 b 4, f16 b 6, if f16 b 8 = 0 then pfW p else f16 b 8, if f16 b 0xA = 0 then pfH p else f16 b 0xA)
/-- G. -/
def sbG (b : List Byte) : Nat := f8 b 0xC
/-- NREF. -/
def sbNref (b : List Byte) : Nat := f8 b 0xD
/-- LTR. -/
def sbLtr (b : List Byte) : Nat := f8 b 0xE
/-- IDR_PERIOD. -/
def sbIdrPeriod (b : List Byte) : Nat := f32 b 0x10
/-- PIC_ALLOW in sixteenths. -/
def sbAllow (b : List Byte) : Nat := if f16 b 0x14 = 0 then 16 else f16 b 0x14
/-- RING_OFF. -/
def sbRingOff (b : List Byte) : Nat := f32 b 0x18
/-- RING_LEN. -/
def sbRingLen (b : List Byte) : Nat := f32 b 0x1C
/-- STAT_OFF. -/
def sbStatOff (b : List Byte) : Nat := f32 b 0x20
/-- STAT_SLOTS. -/
def sbStatSlots (b : List Byte) : Nat := f32 b 0x24
/-- POOL_OFF. -/
def sbPoolOff (b : List Byte) : Nat := f32 b 0x28
/-- POOL_LEN. -/
def sbPoolLen (b : List Byte) : Nat := f32 b 0x2C
/-- Slots of the pool (R197). -/
def sbSlots (b : List Byte) : Nat := sbNref b + sbLtr b + Nat.log2 (sbG b) + 1

/-- MODE: 0 CQP, 1 CBR, 2 VBR. -/
def rbMode (r : List Byte) : Nat := f8 r 0 % 4
/-- QP_MIN. -/
def rbQpMin (r : List Byte) : Nat := f8 r 1
/-- QP_MAX. -/
def rbQpMax (r : List Byte) : Nat := f8 r 2
/-- TARGET in bit/s. -/
def rbTarget (r : List Byte) : Nat := f32 r 4 * 1000
/-- PEAK in bit/s. -/
def rbPeak (r : List Byte) : Nat := f32 r 8 * 1000
/-- CPB in bits. -/
def rbCpb (r : List Byte) : Nat := f32 r 0xC * 1000
/-- CPB_INIT percent of CPB. -/
def rbFill (r : List Byte) : Rat := (rbCpb r : Rat) * (f8 r 0x10 : Nat) / 100
/-- QP_I, QP_P or QP_B. -/
def rbQp (r : List Byte) (t : PicType) : Nat := match t with | .idr => f8 r 0x11 | .p => f8 r 0x12 | .b => f8 r 0x13
/-- The weight of a picture: W_I or W_L. -/
def rbWeight (r : List Byte) (t : PicType) (layer : Nat) : Nat := match t with | .idr => f8 r 0x14 | _ => f8 r (0x15 + Nat.min layer 3)
/-- MAX_AU in bytes for a crop. -/
def rbMaxAu (r : List Byte) (w h : Nat) : Nat := if f32 r 0x1C = 0 then w * h / 2 else f32 r 0x1C

/-- The width and height that a session codes. -/
def EncSession.size (e : EncSession) : Nat × Nat := let c := sbCrop e.profile e.blk; (c.2.2.1, c.2.2.2)
/-- EVERY of the source output. -/
def EncSession.every (e : EncSession) : Nat := Nat.max 1 e.src.every
/-- CTU rows of a picture. -/
def ctuRows (b : List Byte) (h : Nat) : Nat := ceilDiv h (sbCtu b)
/-- R_min of a type of picture (R208). -/
def rowMin (b : List Byte) (w : Nat) (t : PicType) : Nat := ceilDiv w (sbCtu b) * (match t with | .idr => 96 | _ => 32)
/-- The reservation of a picture of a budget (R214). -/
def reservation (budget rows rmin : Nat) : Nat := roundUp (128 + ceilDiv (budget + rows * rmin) 8) 64
/-- The largest reservation that a session can need (R197). -/
def largestReservation (b r : List Byte) (w h : Nat) : Nat :=
  let rows := ctuRows b h
  let rmin := rowMin b w .idr
  reservation (Nat.max (rbMaxAu r w h * 8) (rows * rmin)) rows rmin

/-- CHROMA and DEPTH of a profile for KCS (Table 07-7, R197). -/
def encChroma (profile : Nat) : Nat := match profile with | 2 => 1 | 3 => 4 | _ => 0
/-- The KCS surface of a session's references, with the depth of its source. -/
def encKcs (profile depth w h : Nat) : KcsInfo := { chroma := encChroma profile, depth := depth, q := 0, width := w, height := h, attr := 0 }
/-- Bits of a source output (Table 05-8). -/
def outBits (b : List Byte) : Nat := match obDepth b with | 0 => 8 | 1 => 10 | _ => 12
/-- The depth of a profile's pictures: 8 for Main, 10, or 12 (Table 07-7). -/
def profileDepth (profile : Nat) : Nat := match profile with | 0 => 8 | 3 => 12 | _ => 10
/-- The surface of a session's references. -/
def EncSession.kcs (e : EncSession) : KcsInfo := let z := e.size; encKcs (sbProfile e.blk) (profileDepth (sbProfile e.blk)) z.1 z.2
/-- The address of a pool slot (R197). -/
def EncSession.slotAddr (e : EncSession) (i : Nat) : Nat := e.base + sbPoolOff e.blk + 4096 + i * e.kcs.bound

/-! ## Complexity (R208) -/

/-- c_r of a CTU row: the row sums of the block rows that it overlaps within the crop, plus 1. -/
def EncSession.rowCost (e : EncSession) (sums : List Nat) (r : Nat) : Nat :=
  let c := sbCrop e.profile e.blk
  let n := sbCtu e.blk
  let y0 := c.2.1 + r * n
  let y1 := c.2.1 + Nat.min c.2.2.2 ((r + 1) * n)
  sumNat ((sums.drop (y0 / 16)).take (ceilDiv y1 16 - y0 / 16)) + 1

/-- c_pic of a frame for a type of picture: activity for IDR pictures, cost for the others. -/
def EncSession.cPic (e : EncSession) (f : EncFrame) (t : PicType) : Nat :=
  let sums := match t with | .idr => f.acts | _ => f.costs
  sumNat ((List.range (ctuRows e.blk e.size.2)).map (e.rowCost sums))

/-! ## Frames -/

/-- Lets a frame's output slot and field go (R202). -/
def State.releaseEncFrame (e : EncSession) (fn : Nat) (s : State) : State :=
  s.mapCam e.cam (fun c => { c with
    outs := vmod c.outs (sbSrc e.blk) (fun r => r.release e.handle (fun x => x.fn == fn && x.run == e.run)),
    fieldRing := vmapIdx c.fieldRing (fun _ x => if x.used && x.fn == fn && c.run == e.run then
      { x with holders := x.holders.filter (· != e.handle) } else x) })

/-- Whether a session takes frames of a camera. -/
def EncSession.takes (e : EncSession) (cam : Nat) : Bool := e.cam == cam && !e.closing && !e.ended

/-- A frame that is known absent. -/
def EncFrame.gone (fn : Nat) : EncFrame :=
  { fn := fn, present := some false, dropped := false, out := false, addr := 0, deadline := 0, exposure := 0, field := false, place := none, refFn := none,
    costs := [], acts := [], zeroSeed := false, oldSums := false }

/-- A frame has been accepted (R199): it joins the frames of the camera's sessions, and its field is held for those whose output has a slot for it; one
without a place in the field ring counts (R193). -/
def State.encAccepted (cam : Nat) (f : CamFrame) (s : State) : State :=
  let has (e : EncSession) : Bool := (vget f.outSlots none (sbSrc e.blk)).isSome
  let new (e : EncSession) : EncFrame :=
    { EncFrame.gone f.fn with present := none, out := has e, deadline := f.deadline, place := f.fieldPlace, refFn := f.predFn }
  let mine (e : EncSession) : Bool := e.takes cam && e.first ≤ f.fn
  let holders := (s.encs.filter (fun e => mine e && has e)).map EncSession.handle
  let t := s.mapEncs mine (fun e => { e with
    run := f.rcd.run, frames := sortBy (fun x => (x.fn : Int)) (e.frames ++ [new e]) })
  match f.fieldPlace with
  | some i => t.mapCam cam (fun c => { c with fieldRing := vmod c.fieldRing i (fun x => { x with holders := x.holders ++ holders }) })
  | none => t.mapEncs (fun e => e.cam == cam && !e.released) (fun e => { e with cnt := { e.cnt with fieldSkips := e.cnt.fieldSkips.satInc } })

/-- A frame has been dropped: it is absent (R199). -/
def State.encDropped (cam fn : Nat) (s : State) : State :=
  s.mapEncs (fun e => e.takes cam && e.first ≤ fn) (fun e =>
    if e.frames.any (fun f => f.fn == fn) then { e with frames := updWhere (fun f => f.fn == fn) (fun _ => EncFrame.gone fn) e.frames }
    else { e with frames := sortBy (fun x => (x.fn : Int)) (e.frames ++ [EncFrame.gone fn]) })

/-- A frame's record has become CLOSED: it is present, with its exposure time and its deadline, or absent where the output took no slot (R199, R201). -/
def State.encClosed (cam : Nat) (f : CamFrame) (r : LedgerRec) (s : State) : State :=
  let c := s.cam cam
  s.mapEncs (fun e => e.cam == cam) (fun e => { e with frames := updWhere (fun x => x.fn == f.fn && x.present.isNone) (fun x =>
    { x with present := some x.out, deadline := f.deadline, exposure := r.exp,
             addr := (vget c.outs Ring.absent (sbSrc e.blk)).base
               + ((vget f.outSlots none (sbSrc e.blk)).getD 0) * (vget c.outs Ring.absent (sbSrc e.blk)).slotSize }) e.frames })

/-- A frame's field is complete (R189, R201): the sessions have its row sums. -/
def State.encField (cam : Nat) (f : CamFrame) (s : State) : State :=
  s.mapEncs (fun e => e.cam == cam && e.run == f.rcd.run) (fun e => { e with frames := updWhere (fun x => x.fn == f.fn) (fun x =>
    { x with field := true, costs := f.sums.map (·.1), acts := f.sums.map (·.2), zeroSeed := !f.fieldBad.isEmpty, oldSums := f.oldSums }) e.frames })

/-- The row sums of the field of an FN that a context's ring still holds. -/
def State.heldSums (s : State) (cam fn : Nat) : Option (List (Nat × Nat)) :=
  let c := s.cam cam
  (firstIdx (fun x => x.used && x.fn == fn) c.fieldRing.toList).map (fun j =>
    let b := fieldAddr cam j + sumsOff c.profile
    (List.range (fieldBy c.profile)).map (fun y => (leNat (s.readMem (b + 8 * y) 4), leNat (s.readMem (b + 8 * y + 4) 4))))

/-- A frame as an encoder reads it: a marked line of its field makes a band missing, and the row sums are replaced by those of the motion reference's
field, or by the activity sums (R190, R206). -/
def State.encRead (s : State) (e : EncSession) (f : EncFrame) : EncFrame :=
  match f.place with
  | none => f
  | some i =>
    if f.field && !f.zeroSeed && (s.mem.mem.poisonIn (fieldAddr e.cam i) (fieldBytes e.profile)).isSome then
      match f.refFn.bind (s.heldSums e.cam) with
      | some old => { f with zeroSeed := true, oldSums := true, costs := old.map (·.1), acts := old.map (·.2) }
      | none => { f with zeroSeed := true, costs := f.acts }
    else f

/-- A session as its next picture finds it: the period of the active trigger plan (R208), the rate block staged for it (R212), and its frames' fields as they
read now. A new CPB starts at CPB_INIT. -/
def State.encView (s : State) (e : EncSession) : EncSession :=
  let fresh := (e.rateNext.map (fun r => rbCpb r != rbCpb e.rate)).getD false
  { e with
    period := if e.ended then e.period else (s.cam e.cam).period,
    rate := e.rateNext.getD e.rate, rateNext := none,
    cpb := if fresh then rbFill (e.rateNext.getD e.rate) else e.cpb, filled := e.filled && !fresh,
    frames := e.frames.map (s.encRead e) }

/-! ## Order of pictures -/

/-- Whether an IDR begins at an FN: one is due by IDR_PERIOD or by a target (R200). -/
def EncSession.idrPoint (e : EncSession) (fn : Nat) : Bool :=
  let n := sbIdrPeriod e.blk
  (n != 0 && (fn - e.first) % n == 0) || e.targets.any (fun t => t.fn == fn)

/-- The last FN of the mini-GOP that begins at an FN: its G-th output frame, or the frame before an IDR (R198, R200). -/
def EncSession.gopEnd (e : EncSession) : Nat :=
  let k := e.every
  let full := (ceilDiv e.gopNext k + sbG e.blk - 1) * k
  match (List.range (full + 1 - e.gopNext)).find? (fun i => 0 < i && e.idrPoint (e.gopNext + i)) with
  | some i => e.gopNext + i - 1
  | none => full

/-- What the next frames of a session make: an IDR, a mini-GOP, only absent frames, or nothing yet. -/
inductive GopStep where
  | wait
  | absent (upTo : Nat) (fns : List Nat)
  | idr (fn : Nat) (absent : List Nat)
  | gop (fns absent : List Nat) (upTo : Nat)
deriving DecidableEq, Repr

/-- The frames from one FN to another, and whether all of them are closed. -/
def EncSession.window (e : EncSession) (lo hi : Nat) : List EncFrame × Bool :=
  let fs := e.frames.filter (fun f => lo ≤ f.fn && f.fn ≤ hi)
  (fs, fs.length == hi + 1 - lo && fs.all (fun f => f.present.isSome))

/-- The next step of a session's order (R199, R200): an IDR goes to the first present frame once those before it are known absent; a
mini-GOP waits for all its frames. A session that closes takes what it has. -/
def EncSession.nextGop (e : EncSession) : GopStep :=
  let overs := e.closing || e.ended
  if e.idrDue || e.idrPoint e.gopNext then
    let from_ := e.frames.filter (fun f => e.gopNext ≤ f.fn)
    let known := (from_.zipIdx.takeWhile (fun f => f.1.present.isSome && (overs || f.1.fn == e.gopNext + f.2))).map (·.1)
    match known.find? (fun f => f.present == some true) with
    | some f => .idr f.fn ((known.takeWhile (fun g => g.present == some false)).map EncFrame.fn)
    | none => .wait
  else
    let hi := e.gopEnd
    let lastFn := maxNat (e.frames.map EncFrame.fn)
    let hi2 := if overs then Nat.min hi lastFn else hi
    let w := e.window e.gopNext hi2
    if w.1.isEmpty || !(w.2 || (overs && w.1.all (fun f => f.present.isSome))) then .wait
    else
      let here := (w.1.filter (fun f => f.present == some true)).map EncFrame.fn
      let gone := (w.1.filter (fun f => f.present == some false)).map EncFrame.fn
      if here.isEmpty then .absent hi2 gone else .gop here gone hi2

/-- Absent frames leave the session's frames and are to be listed in a GAP record, as absent or as dropped; the time of output frames passes (R213). -/
def EncSession.skipAbsent (e : EncSession) (fns : List Nat) : EncSession :=
  let kind (n : Nat) : Nat := if e.frames.any (fun f => f.fn == n && f.dropped) then 2 else 1
  { e with frames := e.frames.filter (fun f => !fns.contains f.fn), gaps := e.gaps ++ fns.map (fun n => (n, kind n)),
           elapsed := e.elapsed + (fns.filter (fun n => n % e.every == 0)).length }

/-- FNs of the pictures in progress. -/
def EncSession.busy (e : EncSession) : List Nat := e.pics.map EncPic.fn
/-- Frames of the mini-GOP whose pictures have not been started. -/
def EncSession.left (e : EncSession) : List Nat := e.gop.filter (fun n => !e.busy.contains n)
/-- The pictures of the mini-GOP that are coded or in progress, with their layers. -/
def EncSession.placed (e : EncSession) : List (Nat × Nat) :=
  e.coded ++ (e.pics.filter (fun q => q.mini == e.gopNext)).map (fun q => (q.fn, q.layer))

/-- The last picture of layer 0: the anchor before the next mini-GOP. -/
def EncSession.lastAnchor (e : EncSession) : Nat :=
  ((e.placed.filter (fun c => c.2 == 0)).map (·.1)).foldl Nat.max e.anchor

/-- Fixes the next mini-GOP when every picture of the one before is started, past mini-GOPs with no present frame. The fuel bounds the number of those. -/
def EncSession.form : Nat → EncSession → EncSession
  | 0, e => e
  | n + 1, e =>
    if !e.left.isEmpty then e
    else match e.nextGop with
      | .wait => e
      | .absent hi gone => EncSession.form n { e.skipAbsent gone with gopNext := hi + 1 }
      | .idr fn gone =>
        { e.skipAbsent gone with gopNext := fn + 1, gop := [fn], coded := [], anchor := e.lastAnchor, anchorDue := true, idrDue := false,
                                 idrNext := true }
      | .gop here gone hi =>
        { e.skipAbsent gone with gopNext := hi + 1, gop := here, coded := [], anchor := e.lastAnchor, anchorDue := true }

/-- The layer of a frame of a list coded by recursive halving from a layer on (R198). The fuel is the length of the list. -/
def layerIn : Nat → List Nat → Nat → Nat → Nat
  | 0, _, l, _ => l
  | k + 1, list, l, n =>
    match list[(list.length - 1) / 2]? with
    | none => l
    | some m => if n = m then l else layerIn k (list.filter (fun x => if n < m then Nat.blt x m else Nat.blt m x)) (l + 1) n

/-- The pictures placed that bound a frame of the mini-GOP: the nearest before it and the nearest after it, with their layers. -/
def EncSession.bounds (e : EncSession) (placed : List (Nat × Nat)) (n : Nat) : (Nat × Nat) × Option (Nat × Nat) :=
  let before := placed.filter (fun c => Nat.blt c.1 n)
  ((before.foldl (fun (a : Option (Nat × Nat)) c => match a with | some x => some (if x.1 < c.1 then c else x) | none => some c) none).getD (e.anchor, 0),
   minBy (·.1) (placed.filter (fun c => Nat.blt n c.1)))

/-- The frames of a list that lie with a frame between the same placed pictures. -/
def EncSession.part (e : EncSession) (placed : List (Nat × Nat)) (left : List Nat) (n : Nat) : List Nat :=
  let b := e.bounds placed n
  left.filter (fun x => Nat.blt b.1.1 x && (match b.2 with | some a => Nat.blt x a.1 | none => true))

/-- The layer that a frame not started has when it is coded. -/
def EncSession.layerAt (e : EncSession) (placed : List (Nat × Nat)) (left : List Nat) (n : Nat) : Nat :=
  let b := e.bounds placed n
  layerIn left.length (e.part placed left n) (1 + Nat.max b.1.2 ((b.2.map (·.2)).getD 0)) n

/-- The layer that a frame of the mini-GOP has. -/
def EncSession.layerOf (e : EncSession) (n : Nat) : Nat :=
  match e.placed.find? (fun c => c.1 == n) with
  | some c => c.2
  | none =>
    if e.anchorDue then (if e.left.getLast? = some n then 0 else layerIn e.left.length e.left.dropLast 1 n)
    else e.layerAt e.placed e.left n

/-- The pictures of the mini-GOP not started, in coding order from given placed ones: FN, layer, and the placed pictures that bound each (R198). The fuel is
the number of frames. -/
def EncSession.order (e : EncSession) : Nat → List (Nat × Nat) → List Nat → Bool → List (Nat × Nat × List (Nat × Nat))
  | 0, _, _, _ => []
  | k + 1, placed, left, due =>
    match left.getLast?, left.head? with
    | some last, some lo =>
      if due then (last, 0, []) :: EncSession.order e k (placed ++ [(last, 0)]) (left.filter (· != last)) false
      else
        let part := e.part placed left lo
        let m := (part[(part.length - 1) / 2]?).getD lo
        let b := e.bounds placed m
        let l := e.layerAt placed left m
        (m, l, b.1 :: b.2.toList) :: EncSession.order e k (placed ++ [(m, l)]) (left.filter (· != m)) false
    | _, _ => []

/-- The positions not started yet, in coding order. -/
def EncSession.positions (e : EncSession) : List (Nat × Nat × List (Nat × Nat)) := e.order e.left.length e.placed e.left e.anchorDue

/-- Whether every picture that a position refers to has been coded (R201): earlier anchors for layer 0, the bounds of a B picture. -/
def EncSession.refsCoded (e : EncSession) (layer : Nat) (bounds : List (Nat × Nat)) : Bool :=
  if layer = 0 then e.pics.all (fun q => q.layer != 0)
  else bounds.all (fun b => e.coded.any (fun c => c.1 == b.1) || (b.1 == e.anchor && !e.busy.contains b.1))

/-- The references that a picture of a position may use: short-term pictures of layer 0, or the bounds of a B picture, and the long-term
ones (R198, R203). -/
def EncSession.refsFor (e : EncSession) (layer : Nat) (bounds : List (Nat × Nat)) : List RefPic :=
  let long := e.refs.filter (fun r => r.long.isSome)
  let short := e.refs.filter (fun r => r.long.isNone)
  if layer = 0 then
    let l0 := short.filter (fun r => r.layer == 0)
    l0.drop (l0.length - sbNref e.blk) ++ long
  else short.filter (fun r => bounds.any (fun b => b.1 == r.fn)) ++ long

/-- The type of the next picture of a position: IDR where one is due, or no reference remains (R198, R205). -/
def EncSession.typeFor (e : EncSession) (layer : Nat) (refs : List RefPic) : PicType :=
  if e.idrNext || refs.isEmpty then .idr else if layer = 0 then .p else .b

/-- Short-term pictures outside the sliding window of NREF leave the pool, and higher layers once no remaining frame lies next to them
(R203). -/
def EncSession.trim (e : EncSession) : EncSession :=
  let base := (e.refs.filter (fun r => r.long.isNone && r.layer == 0)).map RefPic.fn
  let kept := base.drop (base.length - sbNref e.blk)
  let near (m n : Nat) : Bool := !(e.coded.any (fun c => (Nat.blt m c.1 && Nat.blt c.1 n) || (Nat.blt n c.1 && Nat.blt c.1 m)))
  let stays (r : RefPic) : Bool := r.long.isSome || (if r.layer = 0 then kept.contains r.fn else e.gop.any (fun n => near r.fn n))
  { e with refs := e.refs.filter stays }

/-- A pool slot that no picture holds: neither a reference, nor one in progress, nor one that such a picture refers to. -/
def EncSession.freeSlot (e : EncSession) : Option Nat :=
  (List.range (sbSlots e.blk)).find? (fun i => e.refs.all (fun r => r.slot != i)
    && e.pics.all (fun q => q.slot != some i && q.refs.all (fun r => r.slot != i)))

/-! ## Rate control (R208) -/

/-- A value that the manual leaves unrounded becomes the integer below or above it; which one is free (log 25). -/
def roundFree (key : List Nat) (q : Rat) : Int := if Config.freeError key % 2 = 0 then q.floor else q.ceil

/-- Bits of one output frame at TARGET: target × period × EVERY. -/
def EncSession.frameBits (e : EncSession) : Rat := (rbTarget e.rate : Rat) * (e.period * e.every : Nat) / 1000000000

/-- The fullness of the CPB before the removal of the next picture: CPB_INIT for the first one, then filled at TARGET or PEAK for the output frames since the
last one. -/
def EncSession.fullness (e : EncSession) : Rat :=
  let rate := if rbMode e.rate = 2 then rbPeak e.rate else rbTarget e.rate
  let t : Rat := if e.filled then (e.period * e.every * (e.elapsed + 1) : Nat) else 0
  minRat (rbCpb e.rate : Nat) (e.cpb + (rate : Rat) * t / 1000000000)

/-- The carry: the overshoot charge of the picture before, and an eighth of each of the last eight deviations. -/
def EncSession.carry (e : EncSession) : Rat := -(e.overs : Rat) + (e.devs.foldl (· + ·) 0 : Int) / 8

/-- The weighted complexity of the pictures of the mini-GOP not coded yet, each with the type and layer of its place. -/
def EncSession.weightLeft (e : EncSession) (fn : Nat) (t : PicType) (layer : Nat) : Nat :=
  sumNat (e.gop.map (fun n =>
    match e.frames.find? (fun f => f.fn == n) with
    | none => 0
    | some f => if n = fn then rbWeight e.rate t layer * e.cPic f t else rbWeight e.rate .b (e.layerOf n) * e.cPic f .b))

/-- The nominal bits of a picture before the carry; an IDR picture on its own has the bits of one frame (R200, log 36). -/
def EncSession.nominalBits (e : EncSession) (f : EncFrame) (t : PicType) (layer : Nat) : Rat :=
  let w := rbWeight e.rate t layer
  if sbG e.blk = 1 || (e.idrNext && e.anchorDue && e.gop.length == 1) then e.frameBits * w / (Nat.max 1 (rbWeight e.rate .p 0) : Nat)
  else
    let pool : Rat := if e.anchorDue then e.frameBits * sbG e.blk else e.pool
    pool * (w * e.cPic f t : Nat) / (Nat.max 1 (e.weightLeft f.fn t layer) : Nat)

/-- b_pic of a picture from the bits asked for, with rows × R_min and b_cap as limits. The CPB counts the budgets of the pictures in progress as their bits
(DESIGN CHOICE, log 36). -/
def EncSession.limitBits (e : EncSession) (t : PicType) (b : Rat) : Rat :=
  let z := e.size
  let low : Rat := (ctuRows e.blk z.2 * rowMin e.blk z.1 t : Nat)
  let cap := minRat (e.fullness - (sumNat (e.pics.map EncPic.budget) : Nat) - low) (rbMaxAu e.rate z.1 z.2 * 8 : Nat)
  clampRat low (maxRat cap low) b

/-- The number of a type in the alphas. -/
def PicType.idx : PicType → Nat
  | .idr => 0
  | .p => 1
  | .b => 2

/-- QP_base of R208. alpha is held as the bits, complexity and average QP (in quarters) it was measured from; its first value gives QP_I
for an IDR picture, and none is given for the other types: the result is free inside its limits (log 36). -/
def EncSession.qpBase (e : EncSession) (t : PicType) (layer c budget : Nat) : Nat :=
  let raw : Int := match vget e.alphas none t.idx with
    | some (bits, c0, avg) =>
      let x : Rat := (bits * c : Nat) / (Nat.max 1 (c0 * budget) : Nat)
      (floorLog2K 24 x + (avg : Int) + 2) / 4
    | none => match t with
      | .idr => (rbQp e.rate .idr : Int)
      | _ => Config.freeError [0x70, e.handle.toNat, e.seqNext]
  let step : Int := (f8 e.rate 0x19 : Nat)
  let near := match vget e.qpLast none (Nat.min layer 3) with
    | some q => clampInt ((q : Int) - step) ((q : Int) + step) raw
    | none => raw
  (clampInt (rbQpMin e.rate : Nat) (rbQpMax e.rate : Nat) near).toNat

/-- The budget, nominal bits and base QP of the next picture (R208, R211). -/
def EncSession.plan (e : EncSession) (f : EncFrame) (t : PicType) (layer : Nat) : Nat × Nat × Nat :=
  let z := e.size
  let key := [0x71, e.handle.toNat, e.seqNext]
  if rbMode e.rate = 0 then (rbMaxAu e.rate z.1 z.2 * 8, 0, rbQp e.rate t)
  else
    let nominal := (roundFree (0 :: key) (e.nominalBits f t layer)).toNat
    match (if e.answerFn = f.fn then e.answer else .none) with
    | .given b qp =>
      ((roundFree (1 :: key) (e.limitBits t (b : Nat))).toNat, nominal, clampNat (rbQpMin e.rate) (rbQpMax e.rate) qp)
    | _ =>
      let b := (roundFree (1 :: key) (e.limitBits t ((nominal : Rat) + e.carry))).toNat
      (b, nominal, e.qpBase t layer (e.cPic f t) b)

/-! ## The bitstream ring (R213, R214) -/

/-- The record area's length. -/
def EncSession.area (e : EncSession) : Nat := sbRingLen e.blk - 64
/-- The address of the ring's control block. -/
def EncSession.ringAddr (e : EncSession) : Nat := e.base + sbRingOff e.blk
/-- Free space of a ring: the area minus what lies between the read and the write position. -/
def ringFree (area : Nat) (wr rd : RingPos) : Nat := area - ((wr.wraps * area + wr.off) - (rd.wraps * area + rd.off))
/-- The bytes that a record of a length takes from a position: a record never wraps, so the rest of the area goes with it when it does not
fit before the area's end. -/
def ringNeeds (area : Nat) (wr : RingPos) (n : Nat) : Nat := if wr.off + n ≤ area then n else area - wr.off + n
/-- Whether a reservation fits in the free space, beside those of the pictures in progress (R214). -/
def EncSession.fits (e : EncSession) (n : Nat) : Bool := sumNat (e.pics.map EncPic.space) + n ≤ ringFree e.area e.wr e.rd
/-- The read position in a ring's control block. -/
def State.readPos (s : State) (ring : Nat) : RingPos := { off := leNat (s.readMem (ring + 8) 4), wraps := leNat (s.readMem (ring + 0xC) 4) }

/-! ## The next picture of a session (R201) -/

/-- A picture that a session could start: its frame, type, layer, references, plan and reservation. -/
structure EncNext where
  frame  : EncFrame
  type   : PicType
  layer  : Nat
  refs   : List RefPic
  plan   : Nat × Nat × Nat
  space  : Nat
  deadline : Nat
deriving DecidableEq, Repr

/-- The picture of a position, none while its frame's field is not complete, a picture that it refers to is not coded, or the pool has no slot for it
(R201). -/
def EncSession.candidate (e : EncSession) (x : Nat × Nat × List (Nat × Nat)) : Option EncNext :=
  match e.frames.find? (fun f => f.fn == x.1) with
  | none => none
  | some f =>
    let refs := e.refsFor x.2.1 x.2.2
    let idr := (e.typeFor x.2.1 refs) matches .idr
    if !f.field || e.freeSlot.isNone || !(e.idrNext || e.refsCoded x.2.1 x.2.2) then none
    else
      let t := e.typeFor x.2.1 refs
      let used := if idr then [] else refs
      let pl := e.plan f t x.2.1
      let z := e.size
      let late := (used.foldl (fun (a : Nat × Nat) (r : RefPic) => if a.1 < r.fn then (r.fn, r.deadline) else a) (f.fn, f.deadline)).2
      some { frame := f, type := t, layer := x.2.1, refs := used, plan := pl,
             space := reservation pl.1 (ctuRows e.blk z.2) (rowMin e.blk z.1 t), deadline := late + sbAllow e.blk * e.period / 16 }

/-- The next picture of a session whose order is fixed: the first in coding order that is codable but for its reservation; an IDR that is due goes to the
first. -/
def EncSession.next (e : EncSession) : Option EncNext := (if e.idrNext then e.positions.take 1 else e.positions).findSome? e.candidate

/-- A session with its next mini-GOP fixed, where its frames are there. -/
def EncSession.formed (e : EncSession) : EncSession := e.form (e.frames.length + 1)

/-! ## Closing (R217) -/

/-- A session whose pictures are done lets go its binding, and its command completes. -/
def State.encFinishClose (h : Handle) (s : State) : State :=
  match s.enc h with
  | none => s
  | some e =>
    if !(e.closing || e.ended) || !e.pics.isEmpty then s
    else
      let left := e.frames.filter (fun f => f.present == some true)
      if !left.isEmpty && !e.faulted then s
      else
        let t := s.mapCam e.cam (fun c => { c with
          consumers := vmod c.consumers (sbSrc e.blk) (fun l => l.filter (· != h)),
          outs := vmod c.outs (sbSrc e.blk) (fun r => r.release h (fun _ => true)),
          fieldRing := vmapIdx c.fieldRing (fun _ x => { x with holders := x.holders.filter (· != h) }) })
        let t := e.targets.foldl (fun (u : State) (x : IdrTarget) => u.finish x.by_ .notReady 0x61 0 false) t
        let t := if e.released then t else t.recGone 1 h 0
        let t := t.mapEnc h (fun x => { x with released := true, frames := [], gop := [], targets := [] })
        if e.closing then
          ({ t with encs := t.encs.filter (fun x => x.handle != h) }).finishOpt e.closeBy .ok e.cnt.pictures.toNat (e.discarded + left.length) false
        else t

/-- Writes a statistics record at its SEQ (R215). -/
def State.putEncStat (e : EncSession) (seq : Nat) (bytes : List Byte) (s : State) : State :=
  s.writeMem (e.base + sbStatOff e.blk + 64 * (seq % Nat.max 1 (sbStatSlots e.blk))) bytes

/-- POC of a frame (R199). -/
def EncSession.poc (e : EncSession) (fn : Nat) (t : PicType) : Int :=
  match t with
  | .idr => 0
  | _ => ((fn : Int) - (e.lastIdr : Int)) / (e.every : Int)

/-- The statistics record of a picture that is dropped (R214, R215, R217): its SEQ, FN, layer, POC and complexity. -/
def dropStat (seq fn run layer poc c now : Nat) : List Byte :=
  layout 64 [(0x00, 4, seq), (0x04, 4, fn), (0x08, 2, run), (0x0A, 1, 7 + 8 * layer), (0x0C, 2, 8), (0x1C, 4, poc), (0x26, 2, 0xFFFF), (0x28, 4, c),
    (0x30, 4, nsOf now), (0x34, 4, nsOf now)]

/-- A session takes no more frames: those whose record is not CLOSED are let go, and with DISCARD the pictures not started are dropped, each with its
statistics record (R215, R217). -/
def State.encStopFrames (h : Handle) (discard : Bool) (s : State) : State :=
  match s.enc h with
  | none => s
  | some e =>
    let out := e.frames.filter (fun f => !e.busy.contains f.fn && f.present != some false && (discard || f.present.isNone))
    let t := out.foldl (fun (u : State) (f : EncFrame) => u.releaseEncFrame e f.fn) s
    let gone := out.filter (fun f => f.present == some true)
    let t := gone.zipIdx.foldl (fun (u : State) (f : EncFrame × Nat) =>
      u.putEncStat e (e.seqNext + f.2) (dropStat (e.seqNext + f.2) f.1.fn e.run (e.layerOf f.1.fn) (wrapInt 32 (e.poc f.1.fn .p)) (e.cPic f.1 .p) s.ns)) t
    t.mapEnc h (fun x => { x with
      frames := x.frames.filter (fun f => !(out.any (fun g => g.fn == f.fn))), gop := if discard then x.gop.filter x.busy.contains else x.gop,
      seqNext := x.seqNext + gone.length, discarded := x.discarded + gone.length })

/-- A camera's run has ended: its sessions close, with their handles kept (R217). -/
def State.encRunEnded (cam : Nat) (s : State) : State :=
  (s.encs.filter (fun e => e.takes cam)).foldl (fun (t : State) (e : EncSession) =>
    ((t.encStopFrames e.handle false).mapEnc e.handle (fun x => { x with ended := true })).encFinishClose e.handle) s

end Sys2Proof.Machine
end

