-- ==== Sys2Proof/Machine/EncSyntax.lean ====
section
/-!
DEFINITION. What the encoder writes before the slices of an access unit (R194): the access unit delimiter, and the parameter sets of an IRAP picture. The
syntax is that of H.265 (PRESUMED, log 58); a field that the manual leaves to the encoder is free, the same for a session's every picture.
-/
namespace Sys2Proof.Machine

/-! ## Bits (H.265, 7.2 to 7.4 and 9.2) -/

/-- u(n): n bits of a number, the most significant first. -/
def bitsU (n v : Nat) : List Bool := (List.range n).map (fun i => v.testBit (n - 1 - i))
/-- ue(v): an Exp-Golomb code. -/
def bitsUe (v : Nat) : List Bool := let n := Nat.log2 (v + 1); List.replicate n false ++ bitsU (n + 1) (v + 1)
/-- The trailing bits, and zeros to the next byte. -/
def bitsEnd (l : List Bool) : List Bool := l ++ [true] ++ List.replicate ((8 - (l.length + 1) % 8) % 8) false

/-- Eight bits at a time. The fuel bounds the bytes. -/
def bitBytes : Nat → List Bool → List Byte
  | 0, _ => []
  | n + 1, l => if l.isEmpty then [] else BitVec.ofNat 8 ((l.take 8).foldl (fun a b => 2 * a + bit01 b) 0) :: bitBytes n (l.drop 8)

/-- Emulation prevention: after two zero bytes a byte of 0 to 3 is led by 3. z counts the zero bytes before. -/
def emulate : Nat → List Byte → List Byte
  | _, [] => []
  | z, b :: rest =>
    let next := if b == 0 then z + 1 else 0
    if 2 ≤ z && b.toNat ≤ 3 then 3 :: b :: emulate (if b == 0 then 1 else 0) rest else b :: emulate next rest

/-- A NAL unit of a type and temporal layer in byte-stream format. -/
def nalUnit (type layer : Nat) (bits : List Bool) : List Byte :=
  let l := bitsEnd bits
  beBytes 4 1 ++ beBytes 2 (512 * type + layer + 1) ++ emulate 0 (bitBytes l.length l)

/-- The NAL units of an access unit in byte-stream format, without start codes and trailing zeros. The accumulator holds the unit in hand, newest byte
first, none before the first start code. -/
def nalSplit : List Byte → Option (List Byte) → List (List Byte)
  | [], none => []
  | [], some u => [(u.dropWhile (· == 0)).reverse]
  | a :: rest, acc =>
    if a == 1 && (match acc with | some u => u.take 2 == [0, 0] | none => true) then
      (match acc with
      | some u => (u.dropWhile (· == 0)).reverse :: nalSplit rest (some [])
      | none => nalSplit rest (some []))
    else nalSplit rest (acc.map (fun u => a :: u))

/-- nal_unit_type of a NAL unit. -/
def nalType (u : List Byte) : Nat := (u.getD 0 0).toNat / 2 % 64
/-- The temporal layer of a NAL unit. -/
def nalLayer (u : List Byte) : Nat := (u.getD 1 0).toNat % 8 - 1

/-! ## Parameter sets -/

/-- A choice that the manual leaves to the encoder: one of n, fixed for a session. -/
def EncSession.choice (e : EncSession) (field n : Nat) : Nat := (Config.freePixel [0x76, e.handle.toNat, field]).natAbs % n
/-- Such a choice in some bits. -/
def EncSession.choiceU (e : EncSession) (field n : Nat) : List Bool := bitsU n (e.choice field (2 ^ n))

/-- Temporal layers of a session, less one. -/
def EncSession.topLayer (e : EncSession) : Nat := Nat.log2 (sbG e.blk)

/-- profile_tier_level: Main, Main 10, or the format range extensions for 4:2:2 10 and Monochrome 12 (Table 07-7). -/
def EncSession.profileBits (e : EncSession) : List Bool :=
  let p := sbProfile e.blk
  let idc := if p ≤ 1 then p + 1 else 4
  let ext : List Bool := match p with
    | 2 => [true, true, false, true, false, false, false, false, true]
    | 3 => [true, false, false, true, true, true, false, false, true]
    | _ => List.replicate 9 false
  bitsU 2 0 ++ [sbHigh e.blk] ++ bitsU 5 idc ++ (List.range 32).map (fun i => i == idc || (idc == 1 && i == 2))
  ++ [true, false, false, true] ++ ext ++ bitsU 34 0 ++ [false] ++ bitsU 8 (sbLevel e.blk)
  ++ (List.range e.topLayer).flatMap (fun _ => [false, false])
  ++ (if e.topLayer = 0 then [] else (List.range (8 - e.topLayer)).flatMap (fun _ => [false, false]))

/-- The sizes of the decoded picture buffer for the highest layer: the pool's pictures, and those that reordering holds back. -/
def EncSession.bufferBits (e : EncSession) : List Bool :=
  [false] ++ bitsUe (sbSlots e.blk - 1) ++ bitsUe e.topLayer ++ bitsUe 0

/-- The video parameter set. -/
def EncSession.vps (e : EncSession) : List Byte :=
  nalUnit 32 0 (bitsU 4 0 ++ [true, true] ++ bitsU 6 0 ++ bitsU 3 e.topLayer ++ e.choiceU 1 1 ++ bitsU 16 0xFFFF ++ e.profileBits ++ e.bufferBits
    ++ bitsU 6 0 ++ bitsUe 0 ++ [false, false])

/-- transfer_characteristics of a TRANSFER (R194); of one that R194 does not list, and of BT2020 at 8 bits, free. -/
def EncSession.transferCode (e : EncSession) : Nat :=
  match obTransfer e.src.blk with
  | 1 => 1
  | 2 => match obDepth e.src.blk with | 1 => 14 | 2 => 15 | _ => 14 + e.choice 2 2
  | 3 => 16
  | 4 => 18
  | 5 => 2
  | 6 => 2
  | _ => e.choice 3 256

/-- video_usability_information (R194). -/
def EncSession.vui (e : EncSession) : List Bool :=
  let o := e.src.blk
  let listed (n : Nat) (k : Nat) : Nat := match n with | 1 => 1 | 2 => 9 | _ => e.choice k 256
  [false, false] ++ [true] ++ bitsU 3 5 ++ [obFull o, true] ++ bitsU 8 (listed (obPrimaries o) 4) ++ bitsU 8 e.transferCode ++ bitsU 8 (listed (obEnc o) 5)
  ++ [true] ++ bitsUe 0 ++ bitsUe 0 ++ [false, false, false, false]
  ++ [true] ++ bitsU 32 e.period ++ bitsU 32 1000000000 ++ [true] ++ bitsUe 0 ++ [false, false]

/-- The sequence parameter set: the picture is coded in blocks of 8, with a conformance window where the crop is not a multiple of 8. -/
def EncSession.sps (e : EncSession) : List Byte :=
  let z := e.size
  let chroma := match sbProfile e.blk with | 2 => 2 | 3 => 0 | _ => 1
  let pw := roundUp z.1 8
  let ph := roundUp z.2 8
  let window : List Bool := if pw = z.1 && ph = z.2 then [false]
    else [true] ++ bitsUe 0 ++ bitsUe ((pw - z.1) / (if chroma = 0 then 1 else 2)) ++ bitsUe 0 ++ bitsUe ((ph - z.2) / (if chroma = 1 then 2 else 1))
  let depth := profileDepth (sbProfile e.blk) - 8
  let ctb := if sbCtu e.blk = 32 then 5 else 6
  nalUnit 33 0 (bitsU 4 0 ++ bitsU 3 e.topLayer ++ e.choiceU 1 1 ++ e.profileBits ++ bitsUe 0 ++ bitsUe chroma ++ bitsUe pw ++ bitsUe ph ++ window
    ++ bitsUe depth ++ bitsUe depth ++ bitsUe (4 + e.choice 6 9) ++ e.bufferBits ++ bitsUe 0 ++ bitsUe (ctb - 3) ++ bitsUe 0 ++ bitsUe (e.choice 7 4)
    ++ bitsUe (e.choice 8 (ctb - 1)) ++ bitsUe (e.choice 9 (ctb - 1)) ++ [false] ++ e.choiceU 10 1 ++ [true, false] ++ bitsUe 0
    ++ [sbLtr e.blk != 0] ++ (if sbLtr e.blk = 0 then [] else bitsUe 0) ++ e.choiceU 11 1 ++ e.choiceU 12 1 ++ [true] ++ e.vui ++ [false])

/-- The picture parameter set: quantiser changes per coding tree unit, no tiles and no wavefronts. -/
def EncSession.pps (e : EncSession) : List Byte :=
  nalUnit 34 0 (bitsUe 0 ++ bitsUe 0 ++ [false, false] ++ bitsU 3 0 ++ e.choiceU 13 1 ++ e.choiceU 14 1 ++ bitsUe (e.choice 15 4) ++ bitsUe (e.choice 16 4)
    ++ bitsUe 0 ++ e.choiceU 17 1 ++ e.choiceU 18 1 ++ [true] ++ bitsUe 0 ++ bitsUe 0 ++ bitsUe 0 ++ [false, false, false, false, false, false]
    ++ e.choiceU 19 1 ++ [false, false, false] ++ bitsUe (e.choice 20 4) ++ [false, false])

/-- What the encoder writes before the slices of a picture: the delimiter, and before an IRAP picture the parameter sets (R194). -/
def EncSession.auHead (e : EncSession) (t : PicType) (layer : Nat) : List Byte :=
  nalUnit 35 layer (bitsU 3 (match t with | .idr => 0 | .p => 1 | .b => 2))
  ++ (match t with | .idr => e.vps ++ e.sps ++ e.pps | _ => [])

/-- Slices of a picture: a new one every SLICE_ROWS rows of coding tree units (R194). -/
def EncSession.slices (e : EncSession) : Nat :=
  let n := f8 e.blk 0xF
  if n = 0 then 1 else ceilDiv (ctuRows e.blk e.size.2) n

/-- Whether bytes are the slices of a picture: one NAL unit each, IDR_N_LP for an IDR picture, of its temporal layer. -/
def EncSession.slicesOk (e : EncSession) (t : PicType) (layer : Nat) (bs : List Byte) : Bool :=
  let us := nalSplit bs none
  us.length == e.slices && us.all (fun u => nalLayer u == layer && (match t with | .idr => nalType u == 20 | _ => Nat.blt (nalType u) 6))

end Sys2Proof.Machine
end

