-- ==== Sys2Proof/Machine/DispOps.lean ====
section
/-!
DEFINITION. What layers show (chapter 10): surfaces and their samples, the polyphase scaler (R272 to R274), the conversion to composed values, blending
(R275), the sources that layers are bound to (R270), and the timing of the live path (R283).
-/
namespace Sys2Proof.Machine

/-! ## Surfaces -/

/-- The header of a KCS surface where it can be read and lies, with its blocks, below the limit. -/
def Surface.kcsInfo (f : Surface) (m : Memory) : Option KcsInfo :=
  let hd := m.read f.base 64
  let k := kcsOf hd
  if (m.poisonIn f.base 64).isSome || !kcsValid hd || Nat.blt f.limit (f.base + k.bound) then none else some k

/-- Chroma subsampling of a planar format. -/
def formatSub (format : Nat) : Nat × Nat :=
  match format with
  | 0 => (2, 2) | 1 => (2, 2) | 2 => (2, 1) | 3 => (2, 1)
  | _ => (1, 1)

/-- The stored code of a component of a planar surface, none where its line carries a poison mark (R289). Component 3 is alpha. -/
def Surface.planar (f : Surface) (m : Memory) (comp x y : Nat) : Option Nat :=
  let s := if f.depth = 0 then 1 else 2
  let plane := if f.format = 5 ∨ comp = 0 then 0 else if f.format = 0 ∨ f.format = 2 then 1 else comp
  let p := (f.planes[plane]?).getD (f.base, 0)
  let line := p.1 + y * p.2
  let a := if f.format = 5 then line + 4 * x
    else if comp != 0 ∧ (f.format = 0 ∨ f.format = 2) then line + (2 * x + (comp - 1)) * s else line + x * s
  let n := if f.format = 5 then 4 else s
  if f.lost || m.marked a || Nat.blt f.limit (a + n) then none
  else
    let v := leNat (m.read a n)
    some (if f.format = 5 then (if f.depth = 0 then bitsOf v (8 * comp + 7) (8 * comp) else if comp = 3 then bitsOf v 31 30 else bitsOf v (10 * comp + 9) (10 * comp))
      else match f.depth with | 0 => v | 1 => v / 64 | _ => v / 16)

/-- What a surface's samples are: bits, ENC, full range, chroma subsampling, width and height, one component only. -/
structure SurfaceForm where
  bits : Nat
  enc  : Nat
  full : Bool
  sub  : Nat × Nat
  w    : Nat
  h    : Nat
  mono : Bool
deriving DecidableEq, Repr

/-- The form of a surface: a KCS surface takes it from its own header. -/
def Surface.form (f : Surface) (m : Memory) : Option SurfaceForm :=
  if f.kcs then
    (f.kcsInfo m).map (fun k => { bits := k.depth, enc := k.attr % 4, full := bitOf k.attr 2, sub := kcsSub k.chroma, w := k.width, h := k.height,
                                  mono := k.chroma == 4 })
  else some { bits := depthBits f.depth, enc := f.enc, full := f.full, sub := formatSub f.format, w := f.w, h := f.h, mono := f.format == 7 }

/-- A stored sample of a component at its own resolution, none where it is unreadable (R278, R289). -/
def Surface.code (f : Surface) (m : Memory) (comp x y : Nat) : Option Nat :=
  if f.kcs then
    match f.kcsInfo m with
    | none => none
    | some k =>
      let c := ((kcsComps k.chroma)[comp]?).getD (32, 8)
      if kcsLost m k f.base (y / c.2 * k.bcols + x / c.1) then none else some (kcsSample m k f.base comp x y)
  else f.planar m comp x y

/-- The mean of two samples, rounded half up. -/
def meanUp (a b : Option Nat) : Option Nat :=
  match a, b with
  | some x, some y => some ((x + y + 1) / 2)
  | _, _ => none

/-- A chroma sample at full resolution (R273): first down, then across; a line lies between two chroma lines, an odd column between two chroma columns. -/
def Surface.chroma (f : Surface) (m : Memory) (z : SurfaceForm) (comp x y : Nat) : Option Nat :=
  let cw := ceilDiv z.w z.sub.1
  let ch := ceilDiv z.h z.sub.2
  let down (cx : Nat) : Option Nat :=
    if z.sub.2 = 1 then f.code m comp cx y
    else
      let a := y / 2
      let b := if y % 2 = 0 then a - 1 else Nat.min (ch - 1) (a + 1)
      meanUp (f.code m comp cx a) (f.code m comp cx b)
  if z.sub.1 = 1 then down x
  else if x % 2 = 0 then down (x / 2)
  else meanUp (down (x / 2)) (down (Nat.min (cw - 1) (x / 2 + 1)))

/-- The value of a code: luma and R′G′B′, or a colour difference, by the inverse of R153. -/
def dequant (z : SurfaceForm) (chroma : Bool) (c : Nat) : Rat :=
  let n := z.bits
  if z.full then
    (if chroma then ((c : Rat) - (2 ^ (n - 1) : Nat)) / (2 ^ n - 1 : Nat) else (c : Rat) / (2 ^ n - 1 : Nat))
  else if chroma then ((c : Rat) / (2 ^ (n - 8) : Nat) - 128) / 224 else ((c : Rat) / (2 ^ (n - 8) : Nat) - 16) / 219

/-- A value between 0 and 1 as a composed value of 12 bits. Its rounding is left open (log 43). -/
def to12 (key : List Nat) (q : Rat) : Nat := (clampInt 0 4095 (roundFree key (4095 * q))).toNat

/-- A pixel of a layer: R′, G′, B′ in 12 bits and the stored alpha. -/
abbrev Pix := Nat × Nat × Nat × Nat

/-- A pixel of a surface converted to the head's encoding, none where a sample of it is unreadable. -/
def Surface.pixel (f : Surface) (m : Memory) (x y : Nat) : Option Pix :=
  match f.form m with
  | none => none
  | some z =>
    let x := Nat.min x (z.w - 1)
    let y := Nat.min y (z.h - 1)
    match f.code m 0 x y with
    | none => none
    | some c0 =>
      if z.mono then
        let v := to12 [0x90, z.bits, bit01 z.full, c0] (dequant z false c0)
        some (v, v, v, 255)
      else
        match f.chroma m z 1 x y, f.chroma m z 2 x y with
        | some c1, some c2 =>
          let alpha := if !f.kcs && f.format == 5 then (f.planar m 3 x y).getD 0 else 255
          let key (k : Nat) : List Nat := [0x91, k, z.enc, z.bits, bit01 z.full, c0, c1, c2]
          if z.enc = 0 then
            some (to12 (key 0) (dequant z false c0), to12 (key 1) (dequant z false c1), to12 (key 2) (dequant z false c2), alpha)
          else
            let k := lumaCoef z.enc
            let l := dequant z false c0
            let b := l + (2 - 2 * k.2.2) * dequant z true c1
            let r := l + (2 - 2 * k.1) * dequant z true c2
            let g := (l - k.1 * r - k.2.2 * b) / k.2.1
            some (to12 (key 0) r, to12 (key 1) g, to12 (key 2) b, alpha)
        | _, _ => none

/-! ## The scaler (R272, R273) -/

/-- The group m of a ratio (R272). -/
def groupOf (src dst : Nat) : Nat := if src ≤ 2 * dst then 1 else ceilDiv src dst

/-- The position of output sample i on the grid of groups: its integer part and its phase. -/
def scalePos (src dst i : Nat) : Int × Nat :=
  let m := groupOf src dst
  let p : Rat := (((2 * i + 1) * src : Nat) : Rat) / ((2 * dst * m : Nat) : Rat) - 1 / 2
  (p.floor, (64 * (p - p.floor)).floor.toNat)

/-- The source samples of group k, relative to the rectangle; samples outside repeat its edge. -/
def groupRows (src m : Nat) (k : Int) : List Nat :=
  (List.range m).map (fun (j : Nat) => (clampInt 0 ((src : Int) - 1) (k * m + j)).toNat)

/-- The highest source line, relative to the rectangle, that output line i reads: s_max (R283). -/
def rowMax (src dst i : Nat) : Nat := maxNat (groupRows src (groupOf src dst) ((scalePos src dst i).1 + 3))

/-- A coefficient of a bank (R274): axis 0 horizontal with 8 coefficients a phase, axis 1 vertical with 6. Bank 0 is built in, a bank not loaded holds zeros. -/
def bankCoef (bank : Nat) (content : List Byte) (axis phase j : Nat) : Int :=
  if bank = 0 then Config.sinc axis phase j
  else if axis = 0 then fs16 content (16 * phase + 2 * j) else fs16 content (1024 + 12 * phase + 2 * j)

/-- The components of pixels, one list each. -/
def pixPart (k : Nat) (p : Pix) : Nat := match k with | 0 => p.1 | 1 => p.2.1 | 2 => p.2.2.1 | _ => p.2.2.2

/-- The mean of a group of samples, rounded half up. -/
def groupMean (vs : List Nat) : Nat := (2 * sumNat vs + vs.length) / Nat.max 1 (2 * vs.length)

/-- All the values of a list, none when one is missing. -/
def allSome {α : Type} : List (Option α) → Option (List α)
  | [] => some []
  | none :: _ => none
  | some x :: rest => (allSome rest).map (x :: ·)

/-- A filter over groups of pixels: Σ C × b in each component, kept to its range. The rounding is left open (log 43). -/
def filterPix (coef : Nat → Int) (top : Nat) (taps : List (List Pix)) : Pix :=
  let part (k : Nat) : Nat :=
    let sum : Int := taps.zipIdx.foldl (fun acc t => acc + coef t.2 * (groupMean (t.1.map (pixPart k)) : Nat)) 0
    (clampInt 0 (if k = 3 then (top : Int) else 4095) (roundFree [0x92, wrapInt 40 sum] ((sum : Rat) / 8192))).toNat
  (part 0, part 1, part 2, part 3)

/-- One output pixel of a layer at column i and line h of its destination: horizontally, then vertically (R273); none where a pixel that it reads is lost. px gives the
source pixels. -/
def scalePixel (b : List Byte) (banks : Nat → List Byte) (px : Nat → Nat → Option Pix) (top i h : Nat) : Option Pix :=
  let mh := groupOf (lbSw b) (lbDw b)
  let mv := groupOf (lbSh b) (lbDh b)
  let ph := scalePos (lbSw b) (lbDw b) i
  let pv := scalePos (lbSh b) (lbDh b) h
  let across (row : Nat) : Option Pix :=
    (allSome ((List.range 8).map (fun (j : Nat) =>
      allSome ((groupRows (lbSw b) mh (ph.1 + j - 3)).map (fun x => px (lbSx b + x) (lbSy b + row)))))).map
      (filterPix (bankCoef (lbHbank b) (banks (lbHbank b)) 0 ph.2) top)
  (allSome ((List.range 6).map (fun (j : Nat) => allSome ((groupRows (lbSh b) mv (pv.1 + j - 2)).map across)))).map
    (filterPix (bankCoef (lbVbank b) (banks (lbVbank b)) 1 pv.2) top)

/-! ## Layers -/

/-- The surface that a row of the source is read from in the frame in progress. -/
def DispLayer.rowSurface (l : DispLayer) (row : Nat) : Option Surface :=
  ((l.segs.filter (fun g => g.1 ≤ row)).getLast?).bind (·.2)

/-- A source pixel of a layer; a lost one comes from the surface shown before, or is transparent (R289). -/
def DispLayer.pixel (l : DispLayer) (m : Memory) (x y : Nat) : Option Pix :=
  match l.rowSurface y with
  | none => none
  | some f =>
    match f.pixel m x y with
    | some p => some p
    | none => l.prev.bind (fun g => g.pixel m x y)

/-- The largest stored alpha of a layer's surface: 255, or 3 in 10-bit RGBA. -/
def DispLayer.alphaTop (l : DispLayer) : Nat :=
  match l.shown with
  | some f => if !f.kcs && f.format == 5 && f.depth == 1 then 3 else 255
  | none => 255

/-- Whether a layer covers head line y, and the line of its destination. -/
def DispLayer.lineOf (l : DispLayer) (y : Nat) : Option (List Byte × Nat) :=
  l.blk.bind (fun b => if lbVisible b && !l.hidden && lbKind b != 0 && lbDy b ≤ y && Nat.blt y (lbDy b + lbDh b) then some (b, y - lbDy b) else none)

/-- Whether the source rows that a line of a layer reads hold a pixel that cannot be read. -/
def DispLayer.conceals (l : DispLayer) (m : Memory) (b : List Byte) (h : Nat) : Bool :=
  let mv := groupOf (lbSh b) (lbDh b)
  let pv := scalePos (lbSh b) (lbDh b) h
  ((List.range 6).flatMap (fun (j : Nat) => groupRows (lbSh b) mv (pv.1 + j - 2))).any (fun row =>
    (List.range (lbSw b)).any (fun x =>
      match l.rowSurface (lbSy b + row) with
      | some f => (f.pixel m (lbSx b + x) (lbSy b + row)).isNone
      | none => false))

/-- Blends a component of a layer over a composed value (R275). -/
def blendOver (alpha galpha : Nat) (aPix : Rat) (overs under : Nat) : Nat :=
  let g : Rat := (galpha : Rat) / 255
  let a := aPix * g
  let v : Rat := match alpha with
    | 0 => (overs : Rat) * g + (under : Rat) * (1 - g)
    | 1 => a * overs + (1 - a) * under
    | _ => (overs : Rat) * g + (1 - a) * under
  (clampInt 0 4095 (roundRat v)).toNat

/-- One pixel of the raster: the background, then the layers in order (R275). -/
def composePixel (m : Memory) (banks : Nat → List Byte) (bg : Nat × Nat × Nat) (ls : List DispLayer) (x y : Nat) : Nat × Nat × Nat :=
  ls.foldl (fun c l =>
    match l.lineOf y with
    | none => c
    | some (b, h) =>
      if x < lbDx b ∨ lbDx b + lbDw b ≤ x then c
      else match scalePixel b banks (l.pixel m) l.alphaTop (x - lbDx b) h with
        | none => c
        | some p =>
          let a : Rat := ((p.2.2.2 : Nat) : Rat) / ((l.alphaTop : Nat) : Rat)
          let f (overs under : Nat) : Nat := blendOver (lbAlpha b) (lbGalpha b) a overs under
          (f p.1 c.1, f p.2.1 c.2.1, f p.2.2.1 c.2.2)) bg

/-- The visible layers of a head in blending order: ascending Z, the lower pipe first (R275). -/
def blendOrder (ls : List DispLayer) : List DispLayer :=
  sortBy (fun l => ((l.blk.map lbZ).getD 0 * 32 + l.pipe : Nat)) ls

/-- An active line of a head's composed raster. -/
def State.composeLine (s : State) (i : Nat) (h : DispHead) (y : Nat) : List (Nat × Nat × Nat) :=
  let ls := blendOrder (s.layersOf i)
  let bg := (abBg h.attr.blk 0, abBg h.attr.blk 1, abBg h.attr.blk 2)
  (List.range (tbW h.blk)).map (fun x => composePixel s.mem.mem (fun k => vget h.banks [] k) bg ls x y)

/-! ## Encoding (R153, R154) -/

/-- An output block with DEPTH, RANGE and ENC, as R153 takes them. -/
def encBlk (format depth enc : Nat) (full : Bool) : List Byte :=
  [BitVec.ofNat 8 (format + 16 * depth), BitVec.ofNat 8 (8 * bit01 full), BitVec.ofNat 8 (16 * enc)]

/-- The code of a component of a composed pixel. -/
def rasterCode (b : List Byte) (c : Nat × Nat × Nat) (k : Nat) : Nat :=
  let r : Rat := (c.1 : Rat) / 4095
  let g : Rat := (c.2.1 : Rat) / 4095
  let bl : Rat := (c.2.2 : Rat) / 4095
  let q : Rat :=
    if obEnc b = 0 then (match k with | 0 => r | 1 => g | _ => bl)
    else
      let e := lumaCoef (obEnc b)
      let luma := e.1 * r + e.2.1 * g + e.2.2 * bl
      match k with | 0 => luma | 1 => (bl - luma) / (2 - 2 * e.2.2) | _ => (r - luma) / (2 - 2 * e.1)
  (clampInt 0 (2 ^ depthBits (obDepth b) - 1) (roundRat (quantExact b (obEnc b != 0 && k != 0) q))).toNat

/-- A component of a pixel of a line. -/
def lineCode (b : List Byte) (pix : List (Nat × Nat × Nat)) (k x : Nat) : Nat := rasterCode b ((pix[x]?).getD (0, 0, 0)) k

/-- The bytes of an active line in the WIRE format (R268): a tight little-endian bitstream. -/
def wireBytes (t : List Byte) (pix : List (Nat × Nat × Nat)) : List Byte :=
  let w := pix.length
  let b := encBlk 4 (if tbWire t = 0 then 0 else 1) (tbEnc t) (tbFull t)
  let vs : List Nat :=
    if tbWire t = 2 then
      (List.range (w / 2)).flatMap (fun i =>
        [chromaH w (lineCode b pix 1) (2 * i), lineCode b pix 0 (2 * i), chromaH w (lineCode b pix 2) (2 * i), lineCode b pix 0 (2 * i + 1)])
    else (List.range w).flatMap (fun x => [lineCode b pix 0 x, lineCode b pix 1 x, lineCode b pix 2 x])
  let p := packBits (if tbWire t = 0 then 8 else 10) vs
  leBytes (ceilDiv p.2 8) p.1

/-! ## CRC-32 of R293 -/

/-- One bit of the reflected CRC of IEEE 802.3. -/
def crc32Bit (r : Word) : Word := if r.getLsbD 0 then (r >>> 1) ^^^ 0xEDB88320#32 else r >>> 1
/-- One byte of the CRC. -/
def crc32Byte (r : Word) (b : Byte) : Word :=
  crc32Bit (crc32Bit (crc32Bit (crc32Bit (crc32Bit (crc32Bit (crc32Bit (crc32Bit (r ^^^ b.setWidth 32))))))))
/-- The pixels of a line that a rectangle covers, added to its sum: three 16-bit words each. -/
def crcLine (r : CrcRect) (y : Nat) (pix : List (Nat × Nat × Nat)) (acc : Word) : Word :=
  if r.en && r.y ≤ y && Nat.blt y (r.y + r.h) then
    (((pix.drop r.x).take r.w).flatMap (fun c => leBytes 2 c.1 ++ leBytes 2 c.2.1 ++ leBytes 2 c.2.2)).foldl crc32Byte acc
  else acc

/-! ## Sources (R269, R270) -/

/-- The camera context of a source. -/
def State.srcCam (s : State) (r : SrcRef) : Option Nat := s.cams.find r.handle

/-- Whether a source is ready (state code 0x94). -/
def State.srcReady (s : State) (r : SrcRef) : Bool :=
  match r.kind with
  | 2 => match s.srcCam r with
    | some cam => ((vget (s.cam cam).next.outs none r.index).map (fun o => obFormat o.blk != 6)).getD false
    | none => false
  | 3 => match s.dec.sessions.find? (fun e => e.handle == r.handle) with
    | some e => e.closing.isNone && !e.faulted
    | none => false
  | 5 => match (s.disp.headOf r.handle).bind s.head with
    | some h => abEn h.attr.blk
    | none => false
  | _ => true

/-- Applies a function to the ring of a source. -/
def State.mapSrcRing (r : SrcRef) (f : Ring → Ring) (s : State) : State :=
  match r.kind with
  | 2 => match s.srcCam r with
    | some cam => s.mapCam cam (fun c => { c with outs := vmod c.outs r.index f })
    | none => s
  | 3 => { s with dec := { s.dec with sessions := updWhere (fun e => e.handle == r.handle) (fun e => { e with ring := f e.ring }) s.dec.sessions } }
  | 5 => match s.disp.headOf r.handle with
    | some i => s.mapHead i (fun h => { h with wb := f h.wb })
    | none => s
  | _ => s

/-- Applies a function to the list of consumers of a source; a writeback ring takes its consumers from the layers. -/
def State.mapConsumers (r : SrcRef) (f : List Handle → List Handle) (s : State) : State :=
  match r.kind with
  | 2 => match s.srcCam r with
    | some cam => s.mapCam cam (fun c => { c with consumers := vmod c.consumers r.index f })
    | none => s
  | 3 => { s with dec := { s.dec with sessions := updWhere (fun e => e.handle == r.handle) (fun e => { e with consumers := f e.consumers }) s.dec.sessions } }
  | _ => s

/-- A layer binds to a source (R270). -/
def State.bindLayer (lh : Handle) (r : SrcRef) (s : State) : State :=
  if ((s.layer lh).map (fun l => l.binds.contains r)).getD false then s
  else (s.mapConsumers r (fun l => l ++ [lh])).mapLayer lh (fun l => { l with binds := l.binds ++ [r] })

/-- A binding ends: the layer's holds on the source's slots go with it. -/
def State.unbindLayer (lh : Handle) (r : SrcRef) (s : State) : State :=
  let t := (s.mapConsumers r (fun l => l.filter (· != lh))).mapSrcRing r (fun q => q.release lh (fun _ => true))
  t.mapLayer lh (fun l => { l with binds := l.binds.filter (· != r) })

/-- The surface of a complete slot of a camera output, from its header (Table 05-15). -/
def slotSurface (m : Memory) (a size fn run : Nat) : Surface :=
  let b := m.read a 64
  { run := run, fn := fn, kcs := false, base := a, limit := a + size, format := f8 b 2 % 16, depth := bitsOf (f8 b 2) 5 4, full := bitOf (f8 b 0x30) 3,
    enc := bitsOf (f8 b 0x31) 5 4, w := f16 b 0xC, h := f16 b 0xE,
    planes := (List.range 3).map (fun i => (a + f32 b (0x20 + 4 * i), f32 b (0x10 + 4 * i))), lost := (m.poisonIn a 64).isSome }

/-- The surface of a slot that a frame is being written into, from the output's block. -/
def liveSurface (p : List Byte) (q : OutCfg) (a fn run : Nat) : Surface :=
  let qs := outPlanes (pfW p) (pfH p) q.blk
  { run := run, fn := fn, kcs := false, base := a, limit := a + q.slotSize, format := obFormat q.blk, depth := obDepth q.blk, full := obFull q.blk,
    enc := obEnc q.blk, w := pfW p, h := pfH p, planes := qs.zipIdx.map (fun x => (a + planeOffset qs x.2, planeStride x.1)), lost := false }

/-- The surface of a slot of a decode session (Table 08-5); ENC and RANGE of planes are those of the picture (log 43). -/
def decSurface (m : Memory) (e : DecSession) (a fn : Nat) : Surface :=
  let b := m.read a 64
  let attr := ((e.attrs.find? (fun x => x.1 == fn)).map (·.2)).getD 0
  { run := 0, fn := fn, kcs := bitOf (f16 b 0xE) 7, base := if bitOf (f16 b 0xE) 7 then a + 64 else a, limit := a + e.ring.slotSize, format := f8 b 0x18 % 16,
    depth := bitsOf (f8 b 0x18) 5 4, full := bitOf attr 2, enc := attr % 4, w := f16 b 0x14, h := f16 b 0x16,
    planes := (List.range 3).map (fun i => (a + f32 b (0x2C + 4 * i), f32 b (0x20 + 4 * i))), lost := (m.poisonIn a 64).isSome }

/-- The surface of a writeback slot (Table 10-16), with DEPTH, ENC and RANGE of the attributes in force. -/
def wbSurface (m : Memory) (h : DispHead) (a fn : Nat) : Surface :=
  let b := m.read a 64
  { run := 0, fn := fn, kcs := false, base := a, limit := a + h.wb.slotSize, format := f8 b 1 % 16, depth := abDepth h.attr.blk, full := abFull h.attr.blk,
    enc := abEnc h.attr.blk, w := f16 b 0x10, h := f16 b 0x12,
    planes := (List.range 3).map (fun i => (a + f32 b (0x24 + 4 * i), f32 b (0x18 + 4 * i))), lost := (m.poisonIn a 64).isSome }

/-- The planes of a committed or direct surface at an address (R269). -/
def blkSurface (b : List Byte) (a limit : Nat) : Surface :=
  { run := 0, fn := 0, kcs := lbKcs b, base := a, limit := limit, format := lbFormat b, depth := lbDepth b, full := lbFull b, enc := lbEnc b,
    w := lbSx b + lbSw b, h := lbSy b + lbSh b,
    planes := [(a, f32 b 0x10), (a + f32 b 0x18, f32 b 0x14), (a + f32 b 0x1C, f32 b 0x14)], lost := false }

/-- The complete slots of a source that a layer holds, as surfaces with a presentation time in ns (0 where there is none). -/
def State.srcSurfaces (s : State) (lh : Handle) (r : SrcRef) : List (Nat × Surface) :=
  let m := s.mem.mem
  let ours (q : Ring) : List (Nat × RingSlot) := (q.slots.zipIdx.filter (fun x => x.1.used && x.1.done && x.1.holders.contains lh)).map (fun x => (q.base + x.2 * q.slotSize, x.1))
  match r.kind with
  | 2 => match s.srcCam r with
    | some cam =>
      let q := vget (s.cam cam).outs Ring.absent r.index
      (ours q).map (fun x => (0, slotSurface m x.1 q.slotSize x.2.fn x.2.run))
    | none => []
  | 3 => match s.dec.sessions.find? (fun e => e.handle == r.handle) with
    | some e => (ours e.ring).map (fun x =>
        let b := m.read x.1 64
        (if bitOf (f8 e.blk 7) 0 then fld b 8 6 * 1000000000 + f32 b 0x10 else 0, decSurface m e x.1 x.2.fn))
    | none => []
  | 5 => match (s.disp.headOf r.handle).bind s.head with
    | some h => (ours h.wb).map (fun x => (0, wbSurface m h x.1 x.2.fn))
    | none => []
  | _ => []

/-- Whether a surface comes after another of the same source. -/
def Surface.after (a b : Surface) : Bool := Nat.blt b.run a.run || (a.run == b.run && Nat.blt b.fn a.fn)

/-- The newest of a list of surfaces. -/
def newest (l : List Surface) : Option Surface :=
  l.foldl (fun best x => match best with | none => some x | some y => if x.after y then some x else some y) none

/-- The newest complete surface of a source for a frame start at a time in ns (Table 10-7, R286). -/
def State.newestOf (s : State) (lh : Handle) (r : SrcRef) (ns : Nat) : Option Surface :=
  newest (((s.srcSurfaces lh r).filter (fun x => x.1 ≤ ns)).map (·.2))

/-- A layer lets go of the slots of a source older than the newest that it could show, but for those it shows and showed before (R270, log 43). -/
def State.trimLayer (lh : Handle) (r : SrcRef) (ns : Nat) (s : State) : State :=
  match s.layer lh, s.newestOf lh r ns with
  | some l, some top =>
    let is (o : Option Surface) (x : RingSlot) : Bool := (o.map (fun f => f.run == x.run && f.fn == x.fn)).getD false
    s.mapSrcRing r (fun q => q.release lh (fun x =>
      x.done && (Nat.blt x.run top.run || (x.run == top.run && Nat.blt x.fn top.fn)) && !is l.shown x && !is l.prev x))
  | _, _ => s

/-- A slot of a source has become complete: the layers bound to it let go of older ones. -/
def State.trimSource (r : SrcRef) (s : State) : State :=
  (s.disp.layers.filter (fun l => l.binds.contains r)).foldl (fun (t : State) (l : DispLayer) => t.trimLayer l.handle r s.ns) s

/-! ## The live path (R283, R284) -/

/-- The camera's line time in ns (R283). -/
def lineTime (p : List Byte) : Rat := (pfReadout p : Rat) / ((pfH p + pfStagger p * (pfNexp p - 1) : Nat) : Rat)

/-- How long after the start of frame output line s is due, in ns (R283). -/
def dueAfter (p : List Byte) (row : Nat) : Rat := ((row + pfStagger p * (pfNexp p - 1) + 128 : Nat) : Rat) * lineTime p + 150000

/-- The SOF offset to the trigger, in 2^-16 ns: the average of the last 8 frames, or EXP_TO_SOF until 8 exist (R283). -/
def CamCtx.sofOffset (c : CamCtx) : Rat :=
  if c.sofOffs.length < 8 then ((pfExpToSof c.profile * 65536 : Nat) : Rat)
  else ((c.sofOffs.foldl (· + ·) 0 : Int) : Rat) / ((c.sofOffs.length : Nat) : Rat)

/-- The lead condition of R283 for a plan and a head: every head line of the layer is scanned no earlier than the last source line it reads is due. -/
def leadHolds (c : CamCtx) (q : TrigPlan) (t b : List Byte) : Bool :=
  let sof : Rat := ((q.first : Nat) : Rat) + c.sofOffset / 65536
  let p : Rat := ((tbPeriod t : Nat) : Rat)
  let f : Rat := ((tbPhase t : Nat) : Rat) + ((((sof - (tbPhase t : Nat)) / p).ceil : Int) : Rat) * p
  let line : Rat := ((tbHt t * 1000000000 : Nat) : Rat) / tbRate t
  (List.range (lbDh b)).all (fun h =>
    decide (sof + dueAfter c.profile (lbSy b + rowMax (lbSh b) (lbDh b) h) ≤ f + ((lbDy b + h : Nat) : Rat) * line))

/-- The conditions of R284 but for R287: head running, locked, in PTP mode; camera under an aligned plan of N times the head's PERIOD; lead. -/
def State.liveAllowed (s : State) (h : DispHead) (b : List Byte) : Bool :=
  match s.cams.find (lbSrc b) with
  | none => false
  | some cam =>
    let c := s.cam cam
    h.run == .running && h.locked && tbPtp h.blk && c.state == .running &&
    (match c.plan with
      | some q => !q.held && q.align && (List.range 4).any (fun n => q.period == (n + 1) * tbPeriod h.blk) && leadHolds c q h.blk b
      | none => false)

/-- The written output lines of a frame of a camera's output (R285): none where no slot holds it. -/
def CamCtx.linesWritten (c : CamCtx) (out fn run : Nat) : Nat :=
  let p := c.profile
  if (vget c.outs Ring.absent out).slots.any (fun x => x.used && x.done && x.fn == fn && x.run == run) then pfH p
  else match c.frame fn with
    | none => 0
    | some f =>
      let n := ((List.range (pfBands p)).takeWhile (c.bandDone f)).length
      if n = 0 then 0 else (bandLines (pfH p) (pfBands p) (n - 1)).2

/-- Whether every line of a frame that a layer would have fetched was written by its due time (R287). -/
def CamCtx.inTime (c : CamCtx) (f : CamFrame) (b : List Byte) : Bool :=
  let p := c.profile
  (List.range (pfBands p)).all (fun k =>
    let r := bandLines (pfH p) (pfBands p) k
    let last := Nat.min (lbSy b + lbSh b) r.2
    !(Nat.blt r.1 last && Nat.blt (lbSy b) r.2) ||
      (match f.bandTimes.find? (fun x => x.1 == k) with
        | some t => decide (((t.2 : Nat) : Rat) ≤ ((f.rcd.sof : Nat) : Rat) / 65536 + dueAfter p (Nat.max r.1 (lbSy b)))
        | none => false))

/-- A frame of a camera has closed, or has been dropped: the run of R287 goes on or starts again, and older slots are let go. -/
def State.dispClosed (cam : Nat) (f : Option CamFrame) (s : State) : State :=
  let c := s.cam cam
  let upd (l : DispLayer) : DispLayer :=
    match l.blk with
    | none => l
    | some b =>
      if lbKind b = 2 ∧ lbLive b ∧ lbSrc b = c.handle then
        match f with
        | some x => if c.inTime x b && (vget x.outSlots none (lbIndex b)).isSome then { l with goodRun := l.goodRun + 1 } else { l with goodRun := 0 }
        | none => { l with goodRun := 0 }
      else l
  let t := s.mapDisp (fun d => { d with layers := d.layers.map upd })
  (List.range 3).foldl (fun (t : State) (i : Nat) => t.trimSource { kind := 2, handle := c.handle, index := i }) t

end Sys2Proof.Machine
end

