-- ==== Sys2Proof/Machine/JmOps.lean ====
section
/-!
DEFINITION. What the Journeyman engines do beside the commands (chapter 11): kernels and their capacity (R299), hook slots and their tiles
(R305 to R309), the latching of bindings (R310), policies and their requests (R177, R180 to R183), rates (R211), traps and faults (R313,
R314), and the takeover of a role (R315).
-/
namespace Sys2Proof.Machine

/-! ## The image header (Table 11-3) -/

/-- CLASS. -/
def khClass (h : List Byte) : Nat := f8 h 6
/-- SIGNER. -/
def khSigner (h : List Byte) : Nat := f8 h 7
/-- IMAGE_LEN. -/
def khLen (h : List Byte) : Nat := f32 h 8
/-- STATE_LEN. -/
def khState (h : List Byte) : Nat := f32 h 0x10
/-- PARAM_LEN. -/
def khParam (h : List Byte) : Nat := f32 h 0x14
/-- CPT. -/
def khCpt (h : List Byte) : Nat := f32 h 0x18
/-- HALO. -/
def khHalo (h : List Byte) : Nat := f8 h 0x1C
/-- The format of hook plane i: PLANE_FMT. -/
def khPlane (h : List Byte) (i : Nat) : Nat := f16 h 0x1E / 16 ^ i % 16
/-- RED_WORDS. -/
def khReds (h : List Byte) : Nat := f16 h 0x20
/-- RED_MIN. -/
def khRedMin (h : List Byte) : Nat := f16 h 0x22
/-- The planes that a kernel writes, rising. -/
def khPlanes (h : List Byte) : List Nat := [0, 1, 2, 3].filter (fun i => khPlane h i != 0)

/-- The initial state of a kernel. -/
def Kernel.initial (k : Kernel) : List Byte := slice k.body (khLen k.head) (khState k.head)

/-! ## Kernels -/

/-- The kernel of a handle. -/
def State.kernel (s : State) (h : Handle) : Option Kernel := s.jm.kernels.find? (fun k => k.handle == h)
/-- The image header of a kernel; none loaded reads as zeros. -/
def State.khead (s : State) (h : Handle) : List Byte := ((s.kernel h).map Kernel.head).getD []
/-- Applies a function to the bindings that satisfy a test. -/
def State.mapBinds (p : KBind → Bool) (f : KBind → KBind) (s : State) : State := s.mapJm (fun j => { j with binds := updWhere p f j.binds })
/-- Whether a kernel takes invocations: it is loaded and not FAULTED. -/
def State.kernelRuns (s : State) (h : Handle) : Bool := ((s.kernel h).map (fun k => !k.faulted)).getD false
/-- The roles of a kernel that a site fills. -/
def State.rolesOf (s : State) (k : Kernel) : List Nat := k.roles.filter (fun r => (s.mgmt.units.unitOf .siteU r).isSome)
/-- Capacity in Mpixel/s for a number of roles and CPT (R299). -/
def tileCapacity (roles cpt : Nat) : Nat := roles * 1200 * 4096 / Nat.max 1 cpt
/-- The capacity of a kernel: 0 unless TILE. -/
def State.capacity (s : State) (k : Kernel) : Nat := if khClass k.head = 0 then tileCapacity (s.rolesOf k).length (khCpt k.head) else 0
/-- The charge of a TILE binding in Mpixel/s (R299). -/
def tileCharge (p : List Byte) (every : Nat) : Nat :=
  ceilDiv (ceilDiv (pfW p) 64 * ceilDiv (pfH p) 64 * 4096 * 1000) (Nat.max 1 (pfPeriod p * every))
/-- The charges of a kernel's bindings. -/
def State.charged (s : State) (h : Handle) : Nat := sumNat ((s.jm.binds.filter (fun b => b.kernel == h)).map KBind.charge)
/-- The lowest binding slot of a kernel that no binding and no hooked frame uses (Table 11-6); with none the lowest that no binding uses. -/
def State.bindSlot (s : State) (h : Handle) : Nat :=
  let used (i : Nat) : Bool := s.jm.binds.any (fun b => b.kernel == h && b.slot == i)
  let busy (i : Nat) : Bool := s.jm.hooks.any (fun f => f.kernel == h && f.slot == i)
  ((List.range 8).find? (fun i => !used i && !busy i)).getD (((List.range 8).find? (fun i => !used i)).getD 0)

/-! ## Hook slots (R309) -/

/-- Width, lines, bytes a sample and stride of a hook plane of a format. -/
def hookPlane (w h fmt : Nat) : Nat × Nat × Nat × Nat :=
  let size := if fmt % 2 = 1 then 1 else 2
  let pw := if fmt < 3 then w else ceilDiv w 8
  (pw, if fmt < 3 then h else ceilDiv h 8, size, roundUp (pw * size) 64)
/-- Bytes of a hook plane; none for an absent one. -/
def hookPlaneBytes (w h fmt : Nat) : Nat := if fmt = 0 then 0 else let d := hookPlane w h fmt; d.2.1 * d.2.2.2
/-- Columns of tiles. -/
def tileCols (w : Nat) : Nat := ceilDiv w 64
/-- Bytes of the tile-valid bitmap. -/
def hookMapBytes (w h : Nat) : Nat := roundUp (ceilDiv (tileCols w * tileCols h) 8) 64
/-- The offset of hook plane i; of i = 4 the reduction area. -/
def hookOffset (hd : List Byte) (w h i : Nat) : Nat :=
  64 + hookMapBytes w h + sumNat ((List.range i).map (fun j => hookPlaneBytes w h (khPlane hd j)))
/-- Bytes of a hook slot. -/
def hookSlotSize (hd : List Byte) (w h : Nat) : Nat := hookOffset hd w h 4 + roundUp (4 * khReds hd) 64

/-- Writes bytes of a hook plane, which never carries poison marks (R308). -/
def State.putClean (role : FabRole) (a : Nat) (bs : List Byte) (s : State) : State :=
  let t := (s.writeMem a bs).writes .journeyman role noCam a bs.length
  t.mapMem (fun m => { m with mem := (m.mem.marksIn a bs.length).foldl Memory.unmark m.mem })

/-- Writes a tile of the hook planes; without samples zeros (R307). -/
def State.putTile (role : FabRole) (hd : List Byte) (f : HookFrame) (tx ty : Nat) (planes : List (List Nat)) (s : State) : State :=
  (khPlanes hd).zipIdx.foldl (fun (t : State) (q : Nat × Nat) =>
    let fmt := khPlane hd q.1
    let d := hookPlane f.shape.1 f.shape.2 fmt
    let side := if fmt < 3 then 64 else 8
    let data := (planes[q.2]?).getD []
    let x0 := side * tx
    let at_ := f.base + hookOffset hd f.shape.1 f.shape.2 q.1
    (List.range (Nat.min side (d.2.1 - side * ty))).foldl (fun (t : State) (j : Nat) =>
      t.putClean role (at_ + (side * ty + j) * d.2.2.2 + x0 * d.2.2.1)
        ((List.range (Nat.min side (d.1 - x0))).flatMap (fun i => leBytes d.2.2.1 ((data[j * side + i]?).getD 0)))) t) s

/-- Applies a function to a hooked frame. -/
def State.mapHook (f : HookFrame) (g : HookFrame → HookFrame) (s : State) : State :=
  s.mapJm (fun j => { j with hooks := updWhere (fun x => x.is f.cam f.hook f.run f.fn) g j.hooks })
/-- A hooked frame leaves. -/
def State.dropHook (f : HookFrame) (s : State) : State := s.mapJm (fun j => { j with hooks := j.hooks.filter (fun x => !x.is f.cam f.hook f.run f.fn) })
/-- Tiles of a hooked frame. -/
def HookFrame.tiles (f : HookFrame) : List (Nat × Nat) :=
  (List.range (tileCols f.shape.2)).flatMap (fun ty => (List.range (tileCols f.shape.1)).map (fun tx => (tx, ty)))
/-- Tiles that are neither valid nor invalid yet. -/
def HookFrame.left (f : HookFrame) : List (Nat × Nat) := f.tiles.filter (fun t => !f.good.contains t && !f.bad.contains t)

/-- The word of a reduction area; a word given adds and maximums is undefined (R306). -/
def redBytes (key : Nat) (w : RedWord × Nat) : List Byte :=
  leBytes 4 (if w.1.added && w.1.maxed then Config.freeNat (key + w.2) else w.1.value)

/-- The tile-valid bitmap. -/
def HookFrame.bitmap (f : HookFrame) : List Byte :=
  let n := tileCols f.shape.1
  padTo (hookMapBytes f.shape.1 f.shape.2) (leBytes (hookMapBytes f.shape.1 f.shape.2) (sumNat (f.good.map (fun t => 2 ^ (t.2 * n + t.1)))))

/-- The header of a hook slot (Table 11-11). -/
def HookFrame.header (f : HookFrame) (hd : List Byte) : List Byte :=
  let w := f.shape.1
  let h := f.shape.2
  layout 64 ([(0x00, 1, f.cam), (0x01, 1, f.hook), (0x02, 1, (khPlanes hd).length),
    (0x03, 1, bit01 (!f.bad.isEmpty) + 2 * bit01 f.poisoned + 4 * bit01 f.reprocessed), (0x04, 2, f.run), (0x06, 2, f16 hd 0x1E), (0x08, 4, f.fn),
    (0x0C, 2, w), (0x0E, 2, h), (0x10, 2, tileCols w), (0x12, 2, tileCols h), (0x14, 4, f.good.length), (0x18, 4, hookOffset hd w h 4),
    (0x1C, 4, f.kernel.toNat)]
    ++ (khPlanes hd).flatMap (fun i => [(0x20 + 4 * i, 4, hookOffset hd w h i), (0x30 + 4 * i, 4, (hookPlane w h (khPlane hd i)).2.2.2)]))

/-- The binding in force whose ring a hooked frame's slot belongs to. -/
def HookFrame.owner (f : HookFrame) (b : KBind) : Bool := b.live && b.kernel == f.kernel && b.slot == f.slot && b.hook == f.hook

/-- A hooked frame that is CLOSED and whose tiles are all resolved gets its bitmap, its reduction words and last its header (R309). -/
def State.finishHook (f0 : HookFrame) (s : State) : State :=
  match s.jm.hooks.find? (fun x => x.is f0.cam f0.hook f0.run f0.fn) with
  | none => s
  | some f =>
    if !f.closed || !f.left.isEmpty then s
    else
      let hd := s.khead f.kernel
      let red := f.base + hookOffset hd f.shape.1 f.shape.2 4
      let t := s.putClean .queueEngine (f.base + 64) f.bitmap
      let t := t.putClean .queueEngine red (padTo (roundUp (4 * khReds hd) 64) (f.reds.zipIdx.flatMap (redBytes (s.fresh * 256))))
      let t := (t.tickFresh).putClean .queueEngine f.base (f.header hd)
      let t := match f.ringSlot with
        | some i => t.mapBinds f.owner (fun b => { b with ring := b.ring.complete i })
        | none => t
      t.dropHook f

/-- Tiles of a hooked frame become invalid (R307): their samples are zero and their reductions discarded. -/
def State.voidTiles (f : HookFrame) (ts : List (Nat × Nat)) (s : State) : State :=
  let t := ts.foldl (fun (t : State) (q : Nat × Nat) => t.putTile .queueEngine (s.khead f.kernel) f q.1 q.2 []) s
  t.mapHook f (fun x => { x with
    bad := x.bad ++ ts, queued := x.queued.filter (fun q => !ts.contains q), started := x.started.filter (fun q => !ts.contains q) })

/-- A hooked frame is given up: its slot is free, and nothing more is written (R313). -/
def State.abandonHook (f : HookFrame) (s : State) : State :=
  (s.mapBinds f.owner (fun b => { b with ring := b.ring.abandon f.ringSlot })).dropHook f

/-! ## Latching at a start of frame (R310, R311) -/

/-- Whether a binding is a TILE binding on a hook of a camera. -/
def KBind.on (b : KBind) (h : Handle) (hook : Nat) : Bool := b.target == h && b.hook == hook

/-- The TILE bindings of a hook at an accepted start of frame: the last one staged replaces what was in force, one that is unbound goes, and
new parameters are taken. -/
def State.latchHook (cam fn hook : Nat) (s : State) : State :=
  let h := s.camHandle cam
  let mine (b : KBind) : Bool := b.on h hook
  let staged := s.jm.binds.filter (fun b => mine b && !b.live)
  let last := staged.getLast?
  let gone (b : KBind) : Bool := mine b && (if b.live then b.leaving || last.isSome else some b != last)
  let out := s.jm.binds.filter gone
  let fresh (b : KBind) : KBind := if mine b then { b with live := true, by_ := none, params := b.nextParams.getD b.params, nextParams := none } else b
  let cut (f : HookFrame) : HookFrame := if out.any (fun b => f.owner b && f.cam == cam) then { f with ringSlot := none } else f
  let t := s.mapJm (fun j => { j with hooks := j.hooks.map cut, binds := (j.binds.filter (fun b => !gone b)).map fresh })
  staged.foldl (fun (u : State) (b : KBind) => match b.by_ with
    | some r => u.finish r .ok (fn % 2 ^ 32) b.ring.slotSize false
    | none => u) t

/-- A frame is hooked by the binding in force of a hook (R309): it takes the next slot, or HOOK_SKIPS advances. -/
def State.hookFrame (cam hook : Nat) (f : CamFrame) (s : State) : State :=
  let c := s.cam cam
  match s.jm.binds.find? (fun b => b.live && b.on c.handle hook) with
  | none => s
  | some b =>
    let hd := s.khead b.kernel
    let w := pfW c.profile
    let h := pfH c.profile
    if !s.kernelRuns b.kernel || f.fn % Nat.max 1 (f8 b.blk 2) != 0 then s
    else
      let skip := s.countKernel b.kernel (fun n => { n with skips := n.skips.satInc })
      if hookSlotSize hd w h != b.ring.slotSize then skip
      else
        let r := b.ring.take f.fn c.run (if bitOf (f8 b.blk 0) 2 then [0] else [])
        match r.2 with
        | none => skip
        | some i =>
          let x : HookFrame :=
            { kernel := b.kernel, slot := b.slot, cam := cam, hook := hook, run := c.run, fn := f.fn, shape := (w, h),
              base := b.ring.base + i * b.ring.slotSize, ringSlot := some i, deadline := f.deadline, params := b.params, queued := [], started := [],
              good := [], bad := [], poisoned := false, reprocessed := false, closed := false,
              reds := (List.range (khReds hd)).map (fun j => { value := if j < khRedMin hd then 0 else 0xFFFFFFFF, added := false, maxed := false }) }
          (s.mapBinds (fun y => y.live && y.on c.handle hook) (fun y => { y with ring := r.1 })).mapJm (fun j => { j with hooks := j.hooks ++ [x] })

/-- A frame has been accepted: the hooks latch and take it. -/
def State.jmAccepted (cam : Nat) (f : CamFrame) (s : State) : State :=
  [0, 1].foldl (fun (t : State) (i : Nat) => (t.latchHook cam f.fn i).hookFrame cam i f) s

/-! ## Tiles (R305, R307, R308) -/

/-- The tile with its halo inside the active area: columns x0 to x1, lines y0 to y1, the ends excluded. -/
def tileReach (w h halo tx ty : Nat) : Nat × Nat × Nat × Nat :=
  (64 * tx - halo, Nat.min w (64 * tx + 64 + halo), 64 * ty - halo, Nat.min h (64 * ty + 64 + halo))

/-- Whether the stripes that have been written hold every pixel of a rectangle. -/
def CamCtx.covered (c : CamCtx) (f : CamFrame) (r : Nat × Nat × Nat × Nat) : Bool :=
  let w := pfW c.profile
  let bands := pfBands c.profile
  (List.range bands).all (fun k =>
    let ls := bandLines (pfH c.profile) bands k
    !(Nat.blt ls.1 r.2.2.2 && Nat.blt r.2.2.1 ls.2) ||
    (List.range c.span).all (fun j =>
      let cs := stripeCols w c.span j
      !(Nat.blt cs.1 r.2.1 && Nat.blt r.1 cs.2) || f.stripes.contains (k, j)))

/-- Whether a rectangle reaches a flagged tile (R308). -/
def CamFrame.reachesBad (f : CamFrame) (r : Nat × Nat × Nat × Nat) : Bool :=
  f.badTiles.any (fun t => Nat.blt (64 * t.tx) r.2.1 && Nat.blt r.1 (64 * t.tx + 64) && Nat.blt (64 * t.ty) r.2.2.2 && Nat.blt r.2.2.1 (64 * t.ty + 64))

/-- The tiles of a hooked frame that a stripe has made ready are queued, or are invalid where their pixels are flagged. -/
def State.queueTiles (x : HookFrame) (s : State) : State :=
  let c := s.cam x.cam
  match c.frame x.fn with
  | none => s
  | some f =>
    if c.run != x.run then s
    else
      let reach (t : Nat × Nat) : Nat × Nat × Nat × Nat := tileReach x.shape.1 x.shape.2 (khHalo (s.khead x.kernel)) t.1 t.2
      let new := x.left.filter (fun t => !x.queued.contains t && !x.started.contains t && c.covered f (reach t))
      let flagged := new.filter (fun t => f.reachesBad (reach t))
      let ok := new.filter (fun t => !f.reachesBad (reach t))
      let t := s.mapHook x (fun y => { y with queued := y.queued ++ ok, poisoned := y.poisoned || !flagged.isEmpty })
      (t.voidTiles x flagged).finishHook x

/-- A stripe of a frame has been written. -/
def State.jmStripe (cam fn : Nat) (s : State) : State :=
  (s.jm.hooks.filter (fun x => x.cam == cam && x.fn == fn)).foldl (fun (t : State) (x : HookFrame) => t.queueTiles x) s

/-- A frame's record is CLOSED: its hook slots may get their headers. -/
def State.jmClosed (cam : Nat) (r : LedgerRec) (s : State) : State :=
  (s.jm.hooks.filter (fun x => x.cam == cam && x.fn == r.fn && x.run == r.run)).foldl (fun (t : State) (x : HookFrame) =>
    (t.mapHook x (fun y => { y with closed := true })).finishHook x) s

/-- A frame has been dropped: it takes no hook slot (R309). -/
def State.jmDropped (cam fn : Nat) (s : State) : State :=
  (s.jm.hooks.filter (fun x => x.cam == cam && x.fn == fn && x.run == (s.cam cam).run)).foldl (fun (t : State) (x : HookFrame) => t.abandonHook x) s

/-! ## Policies -/

/-- The kernels that the roles of a camera name, in force or at the next statistics close. -/
def CamCtx.policyKernels (c : CamCtx) : List Handle :=
  (c.policies.toList ++ c.bindNext.toList.map (fun x => x.getD none)).filterMap id

/-- The kernels invoked at a statistics close, each once. -/
def CamCtx.invoked (c : CamCtx) : List Handle :=
  match c.policies.toList.filterMap id with
  | [a, b] => if a = b then [a] else [a, b]
  | l => l

/-- The roles of a camera that a kernel holds: bit 0 exposure, bit 1 white balance. -/
def CamCtx.rolesHeld (c : CamCtx) (h : Handle) : Nat := bit01 (vget c.policies none 0 == some h) + 2 * bit01 (vget c.policies none 1 == some h)

/-- The policy roles of a camera latch (R178): commands that wait for them complete with the FN. -/
def State.latchPolicies (cam r0 : Nat) (s : State) : State :=
  let next (c : CamCtx) : CamCtx :=
    { c with policies := vmapIdx c.policies (fun i x => (vget c.bindNext none i).getD x), bindNext := Vector.replicate 2 none }
  let t := s.mapCam cam next
  let t := (t.jm.polBy.filter (fun x => x.1 == cam)).foldl (fun (u : State) (x : Nat × CmdRef) => u.finish x.2 .ok r0 0 false) t
  let named := (t.cam cam).policyKernels
  let h := t.camHandle cam
  t.mapJm (fun j => { j with
    polBy := j.polBy.filter (fun x => x.1 != cam),
    binds := (j.binds.filter (fun b => !(b.target == h && b.hook == 2 && !named.contains b.kernel))).map
      (fun b => if b.target == h && b.hook == 2 then { b with live := true } else b) })

/-- The part of a request that a kernel's roles own (R178); the rest is discarded. -/
def requestPart (roles : Nat) (req into : List Byte) : List Byte :=
  let q := padTo 96 req
  let a := if bitOf roles 0 then
      patch (patch (patch into 0x04 (slice q 0x04 24)) 0x38 (slice q 0x38 40)) 0
        (leBytes 2 (f8 q 0 + 256 * bit01 (bitOf (f16 q 0) 8) + 512 * bit01 (bitOf (f16 into 0) 9) + 1024 * bit01 (bitOf (f16 into 0) 10)))
    else into
  if bitOf roles 1 then
    patch (patch a 0x20 (slice q 0x20 18)) 0
      (leBytes 2 (f8 a 0 + 256 * bit01 (bitOf (f16 a 0) 8) + 512 * bit01 (bitOf (f16 q 0) 9) + 1024 * bit01 (bitOf (f16 q 0) 10)))
  else a

/-- Whether T[0] × G[0] keeps within STEP_MAX of the newest accepted apply (R177). Without an accepted apply nothing is compared (log 45). -/
def CamCtx.stepOk (c : CamCtx) (b : List Byte) : Bool :=
  let m := f16 c.limits 0x2A
  m == 0 || c.newestTg == 0 || !apExp b || (apTg b * 4096 ≤ c.newestTg * m && c.newestTg * 4096 ≤ apTg b * m)

/-- A policy request under the limits (R177): what remains of it, and LIMITED. -/
def CamCtx.limitRequest (c : CamCtx) (b : List Byte) : List Byte × Nat :=
  let exposure := apExp b || apGroups b != []
  let bad := exposure && ((applyFields c.profile c.limits b).any (fun x => !x.2 && (x.1 < 0x20 || 0x38 ≤ x.1)) || !c.stepOk b)
  let a := if bad then patch b 0 (leBytes 2 (f16 b 0 / 512 * 512)) else b
  let wb (i : Nat) : Nat := f32 a (0x20 + 4 * i)
  let fix (i : Nat) : Nat := clampNat (f32 c.limits 0x20) (f32 c.limits 0x24) (wb i)
  let wbBad := apWb a && (List.range 4).any (fun i => fix i != wb i)
  let a := if wbBad then (List.range 4).foldl (fun (x : List Byte) (i : Nat) => patch x (0x20 + 4 * i) (leBytes 4 (fix i))) a else a
  let mixBad := apMix a && Nat.blt (f16 c.limits 0x28) (f16 a 0x30)
  let a := if mixBad then patch a 0x30 (leBytes 2 (f16 c.limits 0x28)) else a
  (a, bit01 bad + 2 * bit01 wbBad + 4 * bit01 mixBad)

/-- The merged request of a slot is issued as one apply with NEXT (R180), checked against the limits. -/
def State.issueRound (r : PolRound) (s : State) : State :=
  let c := s.cam r.cam
  let t := s.mapJm (fun j => { j with rounds := j.rounds.filter (fun x => x != r) })
  if !r.asked || c.state != .running || c.run != r.run then t
  else
    let x := c.limitRequest r.blk
    let t := if x.2 = 0 then t else t.countCam r.cam (fun n => { n with limitHits := n.limitHits.satInc })
    t.issueApply r.cam none x.1 (c.firstTarget s.ns s.host.feat.guard x.1) x.2 false false

/-- Issues the rounds of a camera whose invocations that may still ask have all ended. -/
def State.settleRounds (cam : Nat) (s : State) : State :=
  (s.jm.rounds.filter (fun r => r.cam == cam && !s.jm.jobs.any (fun q => q.cam == r.cam && q.run == r.run && q.fn == r.fn && !q.lost))).foldl
    (fun (t : State) (r : PolRound) => t.issueRound r) s

/-- Who holds the slots that a policy invocation reads lets them go (R193, R309). -/
def State.releaseJob (q : PolJob) (s : State) : State :=
  let mine (x : RingSlot) : Bool := x.fn == q.fn && x.run == q.run
  let h := s.camHandle q.cam
  let t := if (s.cam q.cam).run != q.run then s else s.mapCam q.cam (fun c => { c with
    statRing := c.statRing.release q.kernel mine,
    fieldRing := match q.field with
      | some i => vmod c.fieldRing i (fun x => if x.fn == q.fn then { x with holders := x.holders.filter (· != q.kernel) } else x)
      | none => c.fieldRing })
  t.mapBinds (fun b => b.target == h && b.hook < 2) (fun b => { b with ring := b.ring.release q.kernel mine })

/-- A policy invocation is over. -/
def State.endJobOf (q : PolJob) (s : State) : State :=
  ((s.releaseJob q).mapJm (fun j => { j with jobs := j.jobs.filter (fun x => x != q) })).settleRounds q.cam

/-- A kernel holds a slot of a ring (R309). -/
def Ring.hold (r : Ring) (h : Handle) (p : RingSlot → Bool) : Ring :=
  { r with slots := r.slots.map (fun x => if x.done && p x then { x with used := true, holders := x.holders ++ [h] } else x) }

/-- A statistics slot has closed (R178, R180 to R182): the roles latch, and every bound kernel is invoked once, unless its previous
invocation has not ended. -/
def State.jmStats (cam : Nat) (f : CamFrame) (r : LedgerRec) (s : State) : State :=
  let late (q : PolJob) : PolJob := if q.cam == cam then { q with lost := true } else q
  let t := ((s.latchPolicies cam (r.fn % 2 ^ 32)).mapJm (fun j => { j with jobs := j.jobs.map late })).settleRounds cam
  let c := t.cam cam
  let size := (f.set.stats.map StatCfg.slotSize).getD 0
  if (t.mem.mem.poisonIn r.statAddr size).isSome then t
  else
    let ks := c.invoked.filter t.kernelRuns
    let busy (h : Handle) : Bool := t.jm.jobs.any (fun q => q.kernel == h && q.cam == cam)
    let missed := ks.filter busy
    let new := ks.filter (fun h => !busy h)
    let field := f.fieldPlace.bind (fun i => if (vget c.fieldRing FieldSlot.empty i).used && (vget c.fieldRing FieldSlot.empty i).fn == r.fn then some i else none)
    let slotOf (h : Handle) : Nat := ((t.jm.binds.find? (fun b => b.kernel == h && b.target == c.handle && b.hook == 2)).map KBind.slot).getD 0
    let jobs := new.map (fun h => ({ kernel := h, slot := slotOf h, cam := cam, run := r.run, fn := r.fn, deadline := f.deadline + c.period,
                                     field := field, roles := c.rolesHeld h, started := false, lost := false } : PolJob))
    let t := jobs.foldl (fun (u : State) (q : PolJob) => u.mapCam cam (fun y => { y with
      statRing := y.statRing.hold q.kernel (fun x => x.fn == r.fn && x.run == r.run),
      fieldRing := match field with | some i => vmod y.fieldRing i (fun x => { x with holders := x.holders ++ [q.kernel] }) | none => y.fieldRing })) t
    let t := t.mapJm (fun j => { j with
      jobs := j.jobs ++ jobs,
      rounds := if jobs.isEmpty then j.rounds else j.rounds ++ [{ cam := cam, run := r.run, fn := r.fn, blk := zeros 96, asked := false }] })
    if missed.isEmpty then t
    else
      let q := r.flag 17
      ((t.putRecord q).writeMem r.statAddr q.bytes).countCam cam (fun n => { n with policyMissed := satAdd n.policyMissed missed.length })

/-- A camera's run has ended: the commands that wait for a statistics close complete as on a context that is not RUNNING, and their bindings wait for
the first close of the next run (R178). -/
def State.jmRunEnded (cam : Nat) (s : State) : State :=
  (s.jm.polBy.filter (fun x => x.1 == cam)).foldl (fun (t : State) (x : Nat × CmdRef) => t.finish x.2 .ok 0 0 false)
    (s.mapJm (fun j => { j with polBy := j.polBy.filter (fun x => x.1 != cam) }))

/-! ## Rates (R211, R310) -/

/-- The next picture of a session that is codable but for its rate kernel (R201, R211). -/
def State.readyPic (s : State) (e : EncSession) : Option EncNext :=
  let f := (s.encView e).formed
  if e.faulted || e.released then none else f.next.filter (fun n => f.fits n.space)

/-- Whether a session's next picture is codable but for its rate kernel (R201). -/
def State.picReady (s : State) (e : EncSession) : Bool := (s.readyPic e).isSome

/-- Whether a session's next picture waits for its rate kernel: it has no answer for its frame. -/
def State.rateWaits (s : State) (e : EncSession) : Bool :=
  match s.readyPic e with
  | some n => (e.answer == .none || e.answerFn != n.frame.fn) && rbMode (s.encView e).rate != 0
  | none => false

/-- The first SEQ of a session whose picture becomes codable from now on. -/
def State.seqFrom (s : State) (e : EncSession) : Nat := e.seqNext + bit01 (s.picReady e)

/-- Brings the RATE bindings of a session up to date: at a codable picture staged ones latch and unbound ones go, and the kernel in force is
pending from then on. -/
def State.rateOf (e : EncSession) (s : State) : State :=
  let mine (b : KBind) : Bool := b.target == e.handle && b.hook == 3
  let ready := s.picReady e
  let due (b : KBind) : Bool := ready && b.fromSeq ≤ e.seqNext
  let staged := s.jm.binds.filter (fun b => mine b && !b.live && due b)
  let last := staged.getLast?
  let gone (b : KBind) : Bool := mine b && (if b.live then (b.leaving && due b) || last.isSome else due b && some b != last)
  let t := s.mapJm (fun j => { j with binds := (j.binds.filter (fun b => !gone b)).map (fun b =>
    if mine b && (b.live || some b == last) then
      { b with live := true, by_ := none, readySince := if s.rateWaits e then some (b.readySince.getD s.ns) else none }
    else b) })
  let t := staged.foldl (fun (u : State) (b : KBind) => match b.by_ with
    | some r => u.finish r .ok (e.seqNext % 2 ^ 32) 0 false
    | none => u) t
  let on := t.jm.binds.any (fun b => mine b && b.live && t.kernelRuns b.kernel)
  t.mapEnc e.handle (fun x => { x with rateBound := on })

/-- Brings the RATE bindings of every session that has one up to date. -/
def State.jmRates (s : State) : State :=
  (s.encs.filter (fun e => e.rateBound || s.jm.binds.any (fun b => b.target == e.handle && b.hook == 3))).foldl (fun (t : State) (e : EncSession) => t.rateOf e) s

/-! ## Settling -/

/-- Bindings whose camera or session is gone end, with the commands that wait for them; an unload whose kernel has nothing left completes
(R312). -/
def State.jmSettle (s : State) : State :=
  let dead (b : KBind) : Bool := if b.hook = 3 then s.encs.all (fun e => e.handle != b.target || e.released) else (s.cams.find b.target).isNone
  let out := s.jm.binds.filter dead
  let t := s.mapJm (fun j => { j with binds := j.binds.filter (fun b => !dead b) })
  let t := out.foldl (fun (u : State) (b : KBind) => match b.by_ with
    | some r => u.finish r .notReady 0xA4 0 false
    | none => u) t
  let idle (k : Kernel) : Bool := k.unload.isSome && t.jm.binds.all (fun b => b.kernel != k.handle) && t.jm.hooks.all (fun f => f.kernel != k.handle)
    && t.jm.jobs.all (fun q => q.kernel != k.handle) && t.jm.running.all (fun i => i.kernel != k.handle)
  let u := t.mapJm (fun j => { j with kernels := j.kernels.filter (fun k => !idle k) })
  (t.jm.kernels.filter idle).foldl (fun (v : State) (k : Kernel) => match k.unload with
    | some r => v.finish r .ok k.cnt.invocations.toNat 0 false
    | none => v) u

/-! ## Traps, faults and takeover (R313 to R315) -/

/-- The FN of an invocation. -/
def JobKind.fn : JobKind → Nat
  | .tile _ _ _ fn _ _ => fn
  | .policy _ _ fn => fn
  | .rate _ _ fn => fn

/-- The hooked frame of a tile invocation. -/
def State.hookOf (s : State) (cam hook run fn : Nat) : Option HookFrame := s.jm.hooks.find? (fun x => x.is cam hook run fn)

/-- The invocation of a policy job. -/
def State.jobOf (s : State) (h : Handle) (cam run fn : Nat) : Option PolJob :=
  s.jm.jobs.find? (fun q => q.kernel == h && q.cam == cam && q.run == run && q.fn == fn)

/-- A rate invocation's answer for its picture, while that is the next one. -/
def State.answerRate (h : Handle) (seq fn : Nat) (a : RateAnswer) (s : State) : State :=
  s.mapEnc h (fun e => if e.seqNext == seq && e.rateBound && s.rateWaits e && ((s.readyPic e).map (fun n => n.frame.fn)) == some fn then
    { e with answer := a, answerFn := fn } else e)

/-- An invocation ends with nothing (R307, R313): its tile is invalid, its request is not made, or R208 is used and the record gets
POLICY_MISSED. -/
def State.endsEmpty (i : Invoc) (s : State) : State :=
  match i.kind with
  | .tile cam hook run fn tx ty =>
    match s.hookOf cam hook run fn with
    | some f => (s.voidTiles f [(tx, ty)]).finishHook f
    | none => s
  | .policy cam run fn =>
    match s.jobOf i.kernel cam run fn with
    | some q => s.endJobOf q
    | none => s
  | .rate h seq fn => s.answerRate h seq fn .missed

/-- A kernel becomes FAULTED (R313): it is not invoked, its hooks write no slots, and its sessions use R208. -/
def State.faultKernel (h : Handle) (s : State) : State :=
  let t := s.mapKernel h (fun k => { k with faulted := true })
  let t := (s.jm.hooks.filter (fun f => f.kernel == h)).foldl (fun (u : State) (f : HookFrame) => u.abandonHook f) t
  let t := (t.jm.jobs.filter (fun q => q.kernel == h && !q.started)).foldl (fun (u : State) (q : PolJob) => u.endJobOf q) t
  let lost (q : PolJob) : PolJob := if q.kernel == h then { q with lost := true } else q
  let t := t.mapJm (fun j => { j with jobs := j.jobs.map lost })
  let t := (t.jm.rounds).foldl (fun (u : State) (r : PolRound) => u.settleRounds r.cam) t
  t.jmRates

/-- A trap ends an invocation (R313, R314): it is logged, 16 in a row make the kernel FAULTED, and three FETCH traps on one site within a
second make its role dead. -/
def State.jmTrap (i : Invoc) (code : Nat) (s : State) : State :=
  let t := (s.freeThread i).mapKernel i.kernel (fun k => { k with
    consec := Nat.min 255 (k.consec + 1), lastTrap := code,
    cnt := { k.cnt with invocations := k.cnt.invocations.satInc, traps := k.cnt.traps.satInc } })
  let entry : LogInfo := { source := 0x0A, code := code, epoch := i.epoch, unit := i.kernel,
                           detail := [i.kernel.toNat, i.slot, i.role, i.kind.fn % 2 ^ 32] }
  let fault := ((t.kernel i.kernel).map (fun k => 16 ≤ k.consec && !k.faulted)).getD false
  let t := if fault then t.logErrorPost entry else t.logError entry
  let t := t.endsEmpty i
  let t := if fault then t.faultKernel i.kernel else t
  let t := match code, s.mgmt.units.unitOf .siteU i.role with
    | 2, some site =>
      let recent := (t.jm.fetches.filter (fun (x : Nat × Nat) => s.ns < x.2 + 1000000000)) ++ [(site, s.ns)]
      let u := t.mapJm (fun j => { j with fetches := recent })
      if 3 ≤ (recent.filter (fun (x : Nat × Nat) => x.1 == site)).length then u.siteDead i.role else u
    | _, _ => t
  t.jmSettle

end Sys2Proof.Machine
end

