-- ==== Sys2Proof/Machine/Hooks.lean ====
section
/-!
DEFINITION. What the end of a camera frame does in the other subsystems: the encode sessions, the egress streams and the kernels that
are bound to the camera.
-/
namespace Sys2Proof.Machine

/-- A frame has been accepted: staged kernel bindings latch, encode sessions see it, and a frame without a place in the field ring counts
for each session of the camera (R193). -/
def State.frameAccepted (cam : Nat) (f : CamFrame) (s : State) : State := ((s.encAccepted cam f).jmAccepted cam f).jmRates

/-- The field of a frame is complete (R189): encode sessions have its sums, and a picture may be codable. -/
def State.fieldComplete (cam : Nat) (f : CamFrame) (s : State) : State := (s.encField cam f).jmRates

/-- A frame's record has become CLOSED: encode sessions, heads and kernels bound to the camera see it. -/
def State.frameClosed (cam : Nat) (f : CamFrame) (r : LedgerRec) (s : State) : State :=
  ((((s.encClosed cam f r).recClosed cam f r).dispClosed cam (some f)).jmClosed cam r).jmRates

/-- A frame has been dropped (R91): encode sessions and egress streams bound to the camera see its FN. -/
def State.frameDropped (cam fn : Nat) (s : State) : State :=
  ((((s.encDropped cam fn).recDropped cam fn).dispClosed cam none).jmDropped cam fn).jmRates

/-- The statistics of a frame have closed in a slot (R180). -/
def State.statsClosed (cam : Nat) (f : CamFrame) (r : LedgerRec) (s : State) : State := s.jmStats cam f r

/-- A stripe of a band has been written: tile invocations whose pixels are all there are queued (R305). -/
def State.stripeWritten (cam fn : Nat) (s : State) : State := s.jmStripe cam fn

/-- A camera's run has ended (R217, R149): its encode sessions close; a policy binding that waits for a statistics close stays
staged (R178). -/
def State.runEnded (cam : Nat) (s : State) : State := (((s.encRunEnded cam).recRunEnded cam).jmRunEnded cam).jmSettle

/-- A group that is handed over leaves once none of its contexts runs: its hub gets the new owner (R438). -/
def State.handOn (s : State) : State :=
  s.mgmt.pair.hands.foldl (fun (t : State) (h : HandOver) =>
    let g := t.group h.hub
    if h.sent || g.any (fun i => (t.cam i).state == .running || (t.cam i).state == .stopping) then t
    else match g with
      | [] => t
      | i :: _ =>
        let mark (x : HandOver) : HandOver := if x.hub == h.hub then { x with sent := true } else x
        let e := nextEpoch (t.hubEpoch i)
        (t.mapPair (fun p => { p with hands := p.hands.map mark })).sendHub i 0x20 (e + 65536 * (1 - t.dev.inst)) e h.hub []) s

end Sys2Proof.Machine
end

