-- ==== Sys2Proof/Machine/Flags.lean ====
section
/-!
DEFINITION. The status words that the device composes from its state: KX_HOST_STATUS, KX_HOST_CTRL, KX_MGMT_SMB_STATUS,
KX_TIME_STATUS, and the alert line.
-/
namespace Sys2Proof.Machine

/-- The number of a power state (Table 02-4). -/
def PowerState.code : PowerState → Nat
  | .ps0 => 0
  | .ps1 => 1
  | .ps2 => 2
  | .ps3 => 3

/-- The power state of a number. -/
def psOf : Nat → PowerState
  | 0 => .ps0
  | 1 => .ps1
  | 2 => .ps2
  | _ => .ps3

/-- Whether the device is command-ready (R452) or in recovery (R453). -/
def State.ready (s : State) : Bool := s.power.phase == .running || s.power.phase == .recovery

/-- Whether BAR0 takes writes: from link-up on, before command-ready too (R452, R454). -/
def State.bar0Up (s : State) : Bool := s.ready || (s.power.phase == .inReset && s.power.linkTrained)

/-- RDY: the admin queue accepts doorbells (Table 02-4). -/
def State.rdy (s : State) : Bool := s.ready && s.host.en && (s.queue 0).live && (s.queue 0).reset.isNone

/-- KX_HOST_STATUS (Table 02-4). -/
def State.hostStatus (s : State) : Nat :=
  2 ^ 11 * bit01 s.host.orphansFlag + 2 ^ 10 * bit01 s.host.adminHalted + 2 ^ 9 * bit01 s.host.activation.isSome
  + 2 ^ 8 * bit01 s.host.paramErr + 2 ^ 4 * s.power.cur.code + 2 * bit01 s.host.fatal + bit01 s.rdy

/-- KX_HOST_CTRL as read: ADMIN_RESET reads zero (Table 00-7). -/
def State.hostCtrl (s : State) : Nat := bit01 s.host.en

/-- Whether any monitor is in WARN or CRIT. -/
def MgmtSt.anyWarn (m : MgmtSt) : Bool := m.monitors.toList.any (fun x => x.warn || x.crit)

/-- KX_MGMT_SMB_STATUS (Table 16-16). -/
def State.smbStatus (s : State) : Nat :=
  let b := s.mgmt.smb
  2 ^ 8 * bit01 b.pairDegraded + 2 ^ 7 * bit01 b.fwRestarted + 2 ^ 6 * bit01 b.coreDown + 2 ^ 5 * bit01 b.throttle
  + 2 ^ 4 * bit01 b.tallyOvf + 2 ^ 3 * bit01 b.unitLost + 2 ^ 2 * bit01 b.err + 2 * bit01 s.mgmt.anyWarn + bit01 b.ready

/-- Whether SMB_ALERT_N is low (R429). -/
def State.alertLow (s : State) : Bool := Nat.land s.smbStatus s.mgmt.smb.alertMask != 0

/-- MASTER of KX_TIME_STATUS (Table 14-2): every enabled port is in portState MASTER, under ROLE 2 or 3 only. -/
def TimeSt.master (t : TimeSt) : Bool :=
  (t.mode.role == 2 || t.mode.role == 3)
    && (List.range 4).all (fun p => !bitOf t.mode.ports p || (vget t.ports PtpPort.reset p).state == .master)

/-- KX_TIME_STATUS (Table 14-2). -/
def TimeSt.status (t : TimeSt) : Nat :=
  2 ^ 24 * (t.stepGen % 256) + 2 ^ 8 * t.mode.role + 2 ^ 7 * bit01 t.paramErr + 2 ^ 6 * bit01 t.stepped
  + 2 ^ 5 * bit01 t.holdover + 2 ^ 4 * bit01 t.locked + 2 ^ 3 * bit01 t.master + t.mode.corr

end Sys2Proof.Machine
end

