-- ==== Sys2Proof/Machine/HostQueues.lean ====
section
/-!
DEFINITION. Queues (chapter 02): enabling the host interface, doorbells, fetch, dispatch and range locks, completions and
interrupts, flush and reset of queues, and the host-interface reset.
-/
namespace Sys2Proof.Machine

/-! ## Packets -/

/-- The packet in 64 bytes of a submission queue entry (Table 02-7), with its opcode. -/
def parsePacket (bs : List Byte) : Half × Packet :=
  (BitVec.ofNat 16 (f16 bs 0x00),
   { flags := BitVec.ofNat 8 (f8 bs 0x02), rsvd03 := BitVec.ofNat 8 (f8 bs 0x03), cid := BitVec.ofNat 16 (f16 bs 0x04),
     rsvd06 := BitVec.ofNat 16 (f16 bs 0x06), handle := BitVec.ofNat 32 (f32 bs 0x08), aux := BitVec.ofNat 32 (f32 bs 0x0C),
     ptr := BitVec.ofNat 64 (f64 bs 0x10), ptrLen := BitVec.ofNat 32 (f32 bs 0x18),
     ptrSpace := BitVec.ofNat 2 (f32 bs 0x1C), rsvd1C := BitVec.ofNat 30 (f32 bs 0x1C / 4),
     param := Vector.ofFn (fun i => BitVec.ofNat 32 (f32 bs (0x20 + 4 * i.val))) })

/-- The command of a packet on a queue. -/
def toCmd (q : Fin 64) (p : Packet) (h : HostRead) : Cmd := { toPacket := p, qid := q, host := h }

/-! ## Power states of the device -/

/-- The memory speed of a power state: PS1 runs at 6.4 Gbit/s, or at 3.2 where that is set (R328). -/
def speedFor (p : PowerState) (set : Nat) : Nat := if p = .ps0 then set else Nat.max 1 set

/-- Starts a speed change of the stacks toward a speed, none where every stack runs at it (R328, R329). The commands that wait for a change that it
replaces wait for it. -/
def State.startSpeed (target : Nat) (waived : Bool) (by_ : List CmdRef) (s : State) : State :=
  if s.mem.speeds.toList.all (· == target) && s.mem.change.isNone then s
  else
    let waiting := (s.mem.change.map SpeedChange.by_).getD []
    s.mapMem (fun m => { m with change := some { target := target, next := 0, waived := waived, by_ := waiting ++ by_ } })

/-- Self-refresh in PS2 and PS3 sets every postponed count to 0 (R326). -/
def MemSt.selfRefresh (m : MemSt) : MemSt := { m with pcs := vmapIdx m.pcs (fun _ p => { p with postponed := 0 }) }

/-- The current power state changes (R64): POWER_STATE is posted and the memory speed follows. -/
def State.setPower (p : PowerState) (s : State) : State :=
  if s.power.cur = p then s
  else
    let leavingPs1 := s.power.cur == .ps1
    let t := s.mapPower (fun w => { w with cur := p })
    let t := if p = .ps3 then t.lanesOff else if s.power.cur = .ps3 then t.lanesOn else t
    let t := if p = .ps2 ∨ p = .ps3 then t.mapMem MemSt.selfRefresh
             else if s.power.throttled then t
             else t.startSpeed (speedFor p s.mem.setSpeed) leavingPs1 []
    t.post .powerState (BitVec.ofNat 32 p.code)

/-- The exit latencies of Table 02-15, in ticks. -/
def exitTicks : PowerState → Nat
  | .ps0 => 0
  | .ps1 => ticksOfUs 50
  | .ps2 => ticksOfUs 2000
  | .ps3 => ticksOfUs 60000

/-- A valid doorbell ends an idle period, and returns a device below its operational state to it, within the exit latency of the state left (R65,
R66). -/
def State.wake (s : State) : State :=
  let t := s.mapHost (fun h => { h with expired := noneExpired })
  let t := if s.power.cur = s.power.oper then t
           else t.mapPower (fun w => { w with waking := some (s.power.cur, s.time.ticks + exitTicks s.power.cur) })
  t.setPower t.power.oper

/-- Whether a return to the operational state is in progress (R66): the memory changes its speed, or after PS3 a lane that came back is in training, and
the exit latency has not passed. -/
def State.returning (s : State) : Bool :=
  match s.power.waking with
  | none => false
  | some (left, until_) => Nat.blt s.time.ticks until_
      && (s.mem.change.isSome || (left == .ps3 && s.lanes.lanes.toList.any (fun y => y.state == .training && y.restored)))

/-! ## Entry counts -/

/-- Entries between head and tail that have not been fetched. -/
def Queue.unfetched (q : Queue) : Nat := if q.entries = 0 then 0 else (q.sqTail + q.entries - q.sqHead) % q.entries

/-- Whether the completion queue is full (R41). -/
def Queue.cqFull (q : Queue) : Bool := q.cqEntries == 0 || (q.cqTail + 1) % q.cqEntries == q.cqHead

/-- Outstanding commands of a queue (R465). -/
def Queue.outstanding (q : Queue) : Nat := q.unfetched + q.fetched.length + q.inFlight.length + q.ready.length

/-- Outstanding commands on all queues except ASYNC_EVENT_REQUEST commands that wait for an event (R64, R65). -/
def State.outstandingAll (s : State) : Nat :=
  sumNat (s.host.queues.toList.map Queue.outstanding) - s.host.async.length

/-! ## Completions and interrupts -/

/-- The 16 bytes of a completion entry (Table 02-8). -/
def entryBytes (r0 r1 : Word) (sqHead : Nat) (qid : Nat) (logged phase : Bool) (cid : Half) (st : Status) : List Byte :=
  layout 16 [(0x00, 4, r0.toNat), (0x04, 4, r1.toNat), (0x08, 2, sqHead),
             (0x0A, 1, qid + 64 * bit01 logged + 128 * bit01 phase), (0x0C, 2, cid.toNat), (0x0E, 2, st.code)]

/-- Whether a completion may trigger a signal (R61). -/
def Ready.eligible (r : Ready) : Bool := !(r.status == .ok && r.flags.getLsbD 1)

/-- Whether a completion signals at once (R61). -/
def Ready.atOnce (r : Ready) : Bool :=
  (r.status != .ok && r.status != .okAdjusted) || r.op.toNat == Op.asyncEventRequest.code

/-- Counts a written completion and signals when R61 says so. -/
def State.signalFor (q : Fin 64) (r : Ready) (s : State) : State :=
  let k := s.queue q
  let n := k.unsig + 1
  if r.atOnce || (r.eligible && (k.cqCount ≤ n || k.cqTime == 0)) then
    (s.mapQueue q (fun x => { x with unsig := 0, unsigElig := false })).signal k.vector
  else s.mapQueue q (fun x => { x with unsig := n, unsigElig := x.unsigElig || r.eligible })

/-- Releases the range locks of a command (R52). -/
def State.releaseLocks (q : Fin 64) (cid : Half) (s : State) : State :=
  s.mapHost (fun h => { h with locks := h.locks.filter (fun l => !(l.qid == q && l.cid == cid)) })

/-- Halts a queue (R63): QUEUE_HALTED is posted, and ADMIN_HALTED set for queue 0. -/
def State.haltQueue (q : Fin 64) (s : State) : State :=
  let t := s.mapQueue q (fun x => { x with halted := true })
  let t := if q = 0 then t.mapHost (fun h => { h with adminHalted := true }) else t
  t.post .queueHalted (BitVec.ofNat 32 q.val)

/-- The error log entry of a completion that is not written (R56, R63). -/
def lostInfo (q : Fin 64) (r : Ready) : LogInfo :=
  { code := r.status.code, sqId := q.val, cid := r.cid, opcode := r.op }

/-- Writes a completion entry at the tail of its completion queue (R41, R42). -/
def State.writeEntry (q : Fin 64) (r : Ready) (s : State) : State :=
  let k := s.queue q
  let bytes := entryBytes r.r0 r.r1 k.sqHead q.val r.logged k.phase r.cid r.status
  let t := match k.cq with
    | .devMem a => s.writeMem (a + 16 * k.cqTail) bytes
    | .hostMem a => s.emit (.hostWrite (a + 16 * k.cqTail) bytes)
  let tail := k.cqTail + 1
  let wrap := tail ≥ k.cqEntries
  t.mapQueue q (fun x => { x with cqTail := if wrap then 0 else tail, phase := if wrap then !x.phase else x.phase })

/-- A completion leaves the ready completions of its queue, written or discarded; a reset of another queue whose own completion it is ends with it:
that queue takes doorbells again (R56). -/
def State.popReady (q : Fin 64) (r : Ready) (s : State) : State :=
  let mine (x : ResetOp) : Bool := x.done && (x.by_.map (fun b => b.qid == q && b.cid == r.cid && r.op.toNat == b.op.code)).getD false
  (s.mapQueue q (fun x => { x with ready := x.ready.drop 1 })).mapHost (fun h => { h with
    ended := dropFirst (· == (q, r.cid)) h.ended,
    queues := vmapIdx h.queues (fun _ x => if (x.reset.map mine).getD false then { x with reset := none } else x) })

/-! ## Flush and reset -/

/-- Whether a flush has nothing left to wait for (R54). -/
def Queue.flushDone (q : Queue) (f : FlushOp) : Bool :=
  f.limit ≤ q.fetchedN && q.inFlight.all (fun x => f.limit ≤ x.ent) && q.ready.all (fun x => f.limit ≤ x.ent)
    && q.fetched.all (fun x => f.limit ≤ x.ent)

/-- A queue at its state after a reset (R56): indices 0, phase 1, nothing outstanding, a barrier at 0 (R58). What is left of the reset is given:
none, or that its own completion is still to be written. -/
def Queue.cleared (left : Option ResetOp) (q : Queue) : Queue :=
  { q with sqHead := 0, sqTail := 0, cqHead := 0, cqTail := 0, phase := true, submitted := 0, fetchedN := 0, fetched := [],
           inFlight := [], ready := [], flush := Option.none, reset := left, halted := false, unsig := 0,
           unsigElig := false, barrier := q.barrier.map (fun _ => 0) }

/-- Completes the flush or the reset of a queue once nothing is left (R54, R56). A QUEUE_RESET keeps the queue in reset until its own completion has been
written, unless that has been lost with the admin queue (R58). -/
def State.progress (q : Fin 64) (s : State) : State :=
  let k := s.queue q
  match k.reset with
  | some r =>
    if r.done = false ∧ k.unfetched = 0 ∧ k.fetched.isEmpty ∧ k.inFlight.isEmpty ∧ k.ready.isEmpty then
      match r.by_ with
      | some c =>
        let waits : Bool := (s.queue c.qid).inFlight.any (Flying.is c)
        (s.mapQueue q (Queue.cleared (if waits then some { r with done := true } else none))).finish c .ok r.count 0 false
      | none =>
        let t := s.mapQueue q (Queue.cleared none)
        if q = 0 then t.mapHost (fun h => { h with adminHalted := false }) else t
    else s
  | none =>
    match k.flush with
    | some f =>
      if k.flushDone f then (s.mapQueue q (fun x => { x with flush := none })).finish f.by_ .ok f.count 0 false else s
    | none => s

/-- A completion for a command that never started or was stopped. -/
def endedAs (st : Status) (ent : Nat) (op : Half) (cid : Half) (flags : Byte) : Ready :=
  { ent := ent, op := op, cid := cid, flags := flags, status := st, r0 := 0, r1 := 0, logged := false, held := false }

/-- The ABORTED completion of a fetched command. -/
def Fetched.ended (st : Status) (f : Fetched) : Ready := endedAs st f.ent f.op f.pkt.cid f.pkt.flags
/-- The ABORTED completion of a command in flight, with its progress. -/
def Flying.ended (r0 : Nat) (f : Flying) : Ready :=
  { endedAs .aborted f.ent (BitVec.ofNat 16 f.ref.op.code) f.ref.cid f.ref.flags with r0 := BitVec.ofNat 32 r0 }

/-- A list of completions becomes ready on a queue, in order. -/
def State.pushAll (q : Fin 64) (rs : List Ready) (s : State) : State := rs.foldl (fun t r => t.pushReady q r) s

/-- A command in flight on a queue that is reset: stopped with ABORTED, told to stop at its next safe point, lost, or left to run on. -/
def State.stopFlying (q : Fin 64) (f : Flying) (s : State) : State :=
  let drop (x : Queue) : Queue := { x with inFlight := x.inFlight.filter (fun y => y.ref != f.ref) }
  match s.abort f.ref with
  | .runsOn => s
  | .atSafePoint => s.mapQueue q (fun x => { x with inFlight := updWhere (fun y => y.ref == f.ref) (fun y => { y with stop := true }) x.inFlight })
  | .lost => s.mapQueue q drop
  | .stops t r0 => (t.mapQueue q (fun x => (drop x).countAborted 1)).pushReady q (f.ended r0)

/-- Starts the reset of a queue (Table 02-13): a flush in progress completes with ABORTED, commands in flight stop at their
safe points, and everything fetched completes with ABORTED; entries not fetched do so when they are fetched. A command without a safe point runs to its
own end first (R55). -/
def State.startReset (q : Fin 64) (by_ : Option CmdRef) (s : State) : State :=
  let k := s.queue q
  let s0 := match k.flush with
    | some f => s.finish f.by_ .aborted 0 0 false
    | none => s
  let s1 := s0.mapQueue q (fun x => { x with
    flush := none, halted := false, barrier := x.barrier.map (fun _ => 0), fetched := [], reset := some { by_ := by_, count := 0, lostLog := false } })
  let s2 := ((s1.queue q).inFlight.filter (fun f => some f.ref != by_)).foldl (fun t f => t.stopFlying q f) s1
  let kept : List Half := ((s2.queue q).inFlight.filter (fun f => some f.ref != by_)).map (fun f => f.ref.cid)
  let s3 := s2.mapHost (fun h => { h with
    async := h.async.filter (fun r => r.qid != q),
    locks := h.locks.filter (fun l => l.qid != q || kept.contains l.cid),
    activation := if q = 0 then none else h.activation,
    queues := if q = 0 then vmapIdx h.queues (fun _ x => { x with barrier := none }) else h.queues })
  let s4 := (s3.mapQueue q (Queue.countAborted k.fetched.length)).pushAll q (k.fetched.map (Fetched.ended .aborted))
  s4.progress q

/-! ## The host-interface reset -/

/-- The completions that are ready, with their queues, in the order in which their commands ended. -/
def State.readyInOrder (s : State) : List (Fin 64 × Ready) :=
  let take (acc : List (Fin 64 × Ready) × List (Fin 64 × Ready)) (e : Fin 64 × Half) : List (Fin 64 × Ready) × List (Fin 64 × Ready) :=
    match acc.1.find? (fun x => x.1 == e.1 && x.2.cid == e.2) with
    | some x => (dropFirst (fun y => y == x) acc.1, acc.2 ++ [x])
    | none => acc
  let all := s.host.queues.toList.zipIdx.flatMap (fun x => x.1.ready.map (fun r => (Fin.ofNat 64 x.2, r)))
  let r := s.host.ended.foldl take (all, [])
  r.2 ++ r.1

/-- A host-interface reset (R67, R68): started commands run on and end in the orphan page, fetched commands are discarded into
it with ABORTED, entries not fetched are lost; queues, events and requests go, and the registers take their reset values. The page lists the
completions in the order in which the commands ended, then what is discarded. DESIGN CHOICE (log 59): what is discarded is listed by queue, and
entries not fetched and waiting ASYNC_EVENT_REQUESTs alone do not set ORPHANS. -/
def State.hostReset (cause : HostResetCause) (s : State) : State :=
  let qs := s.host.queues.toList.zipIdx
  let isAsync (r : CmdRef) : Bool := r.op == .asyncEventRequest
  let running := qs.flatMap (fun x => x.1.inFlight.filter (fun f => !isAsync f.ref))
  let flushers := qs.filterMap (fun x => x.1.flush.map (fun f => (f.by_, f.count)))
  let resetters := qs.filterMap (fun x => x.1.reset.bind (fun r => r.by_.map (fun b => (b, r.count))))
  let done (x : Fin 64 × Ready) : Half × Orphan :=
    (x.2.op, { r0 := x.2.r0, r1 := x.2.r1, sqHead := BitVec.ofNat 16 (s.queue x.1).sqHead, qid := x.1, logged := x.2.logged, cid := x.2.cid,
               status := x.2.status })
  let dropped (x : Queue × Nat) : List (Half × Orphan) :=
    x.1.fetched.map (fun f => (f.op, { r0 := 0, r1 := 0, sqHead := BitVec.ofNat 16 x.1.sqHead, qid := Fin.ofNat 64 x.2,
                                       logged := false, cid := f.pkt.cid, status := .aborted }))
  let all := s.readyInOrder.map done ++ qs.flatMap dropped
  let page : OrphanPage :=
    { overflow := all.length - Config.orphanMax, resetS := secOf s.ns, resetNs := nsOf s.ns, cause := cause,
      entries := (all.take Config.orphanMax).map Prod.snd }
  let t := s.mapHost (fun h => { HostSt.reset with
    orphansFlag := h.orphansFlag || !all.isEmpty || !running.isEmpty, feat := h.feat, orphans := page,
    orphanRun := h.orphanRun ++ running, locks := h.locks, activation := h.activation, linkUp := h.linkUp, expired := h.expired })
  let t := (all.drop Config.orphanMax).foldl (fun u o =>
    u.logError { code := o.2.status.code, sqId := o.2.qid.val, cid := o.2.cid, opcode := o.1 }) t
  let t := (flushers ++ resetters).foldl (fun u x => u.finish x.1 .ok x.2 0 false) t
  t.disarmSinks

/-! ## Commands of the host interface -/

/-- HOST_ENABLE (R464, R69, R452): EN changes from 0 to 1, the admin registers are checked, and the admin queue pair is set up; before
command-ready RDY stays 0 until the part is ready. -/
def execHostEnable (s : State) : Host.Outcome State Fault Refusal :=
  if s.host.en then .next s
  else if !s.bar0Up then .next s
  else
    let h := s.host
    let ok := 1 ≤ h.asqs && h.asqs ≤ 4095 && 1 ≤ h.acqs && h.acqs ≤ 4095
      && bitsOf h.asqBase.toNat 11 0 == 0 && bitsOf h.acqBase.toNat 11 0 == 0
    if !ok then .next (s.mapHost (fun h => { h with paramErr := true }))
    else
      let q : Queue := { Queue.absent with
        live := true, handle := s.nextHandle 0x9, entries := h.asqs + 1, cqEntries := h.acqs + 1,
        sq := .hostMem h.asqBase.toNat, cq := .hostMem h.acqBase.toNat, vector := 0, cqCount := 1, cqTime := 0 }
      .next (((s.mapHost (fun h => { h with en := true })).mapQueue 0 (fun _ => q)).issue 0x9)

/-- HOST_DISABLE (R67, Table 02-3): clearing EN acts as a host-interface reset. -/
def execHostDisable (s : State) : Host.Outcome State Fault Refusal :=
  if s.host.en then .next (s.hostReset .enCleared) else .next s

/-- HOST_INTERFACE_RESET (R67, R68): PERST_N, a hot reset, a link-down or an FLR. -/
def execHostInterfaceReset (cause : HostResetCause) (s : State) : Host.Outcome State Fault Refusal :=
  let t := s.hostReset cause
  .next (if cause = .perst ∨ cause = .hotReset ∨ cause = .linkDown then
           t.mapPower (fun w => { w with linkTrained := false, perstHigh := cause != .perst }) else t)

/-- ADMIN_RESET (Tables 02-3, 02-13, R56): resets the admin queue pair as QUEUE_RESET resets any other. -/
def execAdminReset (s : State) : Host.Outcome State Fault Refusal :=
  let k := s.queue 0
  if s.host.en && k.live && k.reset.isNone then .next (s.startReset 0 none) else .next s

/-- A doorbell that R32 ignores: PARAM_ERR is set and DOORBELL_INVALID posted. -/
def State.badDoorbell (q : Fin 64) (isCq : Bool) (s : State) : State :=
  (s.mapHost (fun h => { h with paramErr := true })).post .doorbellInvalid (BitVec.ofNat 32 (q.val + 256 * bit01 isCq))

/-- Whether a tail is accepted (R32): below the entry count, and not past the head. -/
def Queue.tailOk (q : Queue) (v : Nat) : Bool :=
  q.live && q.reset.isNone && v < q.entries && (v + q.entries - q.sqTail) % q.entries + q.unfetched < q.entries

/-- Whether a completion head is accepted (R32): below the entry count, and not past the tail. -/
def Queue.headOk (q : Queue) (v : Nat) : Bool :=
  q.live && q.reset.isNone && v < q.cqEntries
    && (v + q.cqEntries - q.cqHead) % q.cqEntries ≤ (q.cqTail + q.cqEntries - q.cqHead) % q.cqEntries

/-- SQ_DOORBELL (R32, R66, R465): TAIL is bits 11:0; the entries up to it become outstanding. -/
def execSqDoorbell (q : Fin 64) (v : Word) (s : State) : Host.Outcome State Fault Refusal :=
  if !s.ready then .next s
  else
    let k := s.queue q
    let tail := bitsOf v.toNat 11 0
    if k.tailOk tail then
      .next ((s.mapQueue q (fun x => { x with
        sqTail := tail, submitted := x.submitted + (tail + x.entries - x.sqTail) % x.entries })).wake)
    else .next (s.badDoorbell q false)

/-- Writes one ready completion, or discards or holds it (R41, R56, R63). -/
def State.completeOne (q : Fin 64) (writeOk : Bool) (s : State) : State :=
  let k := s.queue q
  match k.ready with
  | [] => s
  | r :: rest =>
    let s1 := s.releaseLocks q r.cid
    let isHost := match k.cq with | .hostMem _ => true | .devMem _ => false
    if k.halted then (s1.popReady q r).logError (lostInfo q r)
    else if k.cqFull then
      match k.reset with
      | some op =>
        let t := ((s1.popReady q r).mapQueue q (fun x => { x with reset := x.reset.map (fun o => { o with lostLog := true }) })).logError (lostInfo q r)
        let t := if op.lostLog then t else t.post .errorLogged (BitVec.ofNat 32 t.errSeq)
        t.progress q
      | none => s1.mapQueue q (fun x => { x with ready := { r with held := true } :: rest })
    else if isHost && !writeOk then ((s1.popReady q r).logError (lostInfo q r)).haltQueue q
    else (((s1.writeEntry q r).popReady q r).signalFor q r).progress q

/-- COMMAND_COMPLETE (R41, R42, R50, R52, R61, R63): the next ready completion of a queue is written. -/
def execCommandComplete (q : Fin 64) (writeOk : Bool) (s : State) : Host.Outcome State Fault Refusal :=
  .next (s.completeOne q writeOk)

/-- Writes the completions held under R41 while there is room. -/
def State.releaseHeld (q : Fin 64) (writeOk : Bool) : Nat → State → State
  | 0, s => s
  | n + 1, s =>
    let k := s.queue q
    match k.ready with
    | r :: _ => if r.held && !k.cqFull && !k.halted then State.releaseHeld q writeOk n (s.completeOne q writeOk) else s
    | [] => s

/-- CQ_DOORBELL (R32, R41, R66): HEAD is bits 11:0; freed space releases held completions. -/
def execCqDoorbell (q : Fin 64) (v : Word) (writesOk : Bool) (s : State) : Host.Outcome State Fault Refusal :=
  if !s.ready then .next s
  else
    let k := s.queue q
    let head := bitsOf v.toNat 11 0
    if k.headOk head then
      let t := (s.mapQueue q (fun x => { x with cqHead := head })).wake
      .next (t.releaseHeld q writesOk (t.queue q).ready.length)
    else .next (s.badDoorbell q true)

/-- COALESCING_TIMEOUT (R61): a signal covers every unsignalled completion of the queue. -/
def execCoalescingTimeout (q : Fin 64) (s : State) : Host.Outcome State Fault Refusal :=
  let k := s.queue q
  if k.unsigElig then .next ((s.mapQueue q (fun x => { x with unsig := 0, unsigElig := false })).signal k.vector) else .next s

/-! ## Fetch -/

/-- Whether a queue has entries that may be fetched (R36, R54, R63). -/
def Queue.fetchable (q : Queue) : Bool :=
  q.live && !q.halted && q.unfetched != 0 && (match q.flush with | some f => q.fetchedN < f.limit | none => true)

/-- The first queue of a class at or after a pointer in cyclic order that may be fetched; queue 0 has its own tier. -/
def pickFrom (qs : List (Queue × Nat)) (p : Prio) (ptr : Nat) : Option Nat :=
  let c := qs.filter (fun x => x.2 != 0 && x.1.prio == p && x.1.fetchable)
  match c.find? (fun x => ptr ≤ x.2) with
  | some x => some x.2
  | none => (c.head?).map (·.2)

/-- The queue of the next arbitration turn and the arbiter after it (R36). The order in which the weighted round robin spends
its weights is DESIGN CHOICE (log 14): high, then medium, then low while they have credit, refilled together. -/
def Arbiter.pick (a : Arbiter) (f : Features) (qs : List (Queue × Nat)) : Option (Nat × Arbiter) :=
  let zero := (qs.head?.map (fun x => x.1.fetchable)).getD false
  if zero then some (0, a)
  else match pickFrom qs .urgent a.ptrUrgent with
    | some n => some (n, { a with ptrUrgent := n + 1 })
    | none =>
      let h := pickFrom qs .high a.ptrHigh
      let m := pickFrom qs .medium a.ptrMedium
      let l := pickFrom qs .low a.ptrLow
      let spend (b : Arbiter) : Option (Nat × Arbiter) :=
        match h, m, l with
        | some n, _, _ => if 0 < b.crHigh then some (n, { b with ptrHigh := n + 1, crHigh := b.crHigh - 1 })
                          else match m, l with
                            | some n, _ => if 0 < b.crMedium then some (n, { b with ptrMedium := n + 1, crMedium := b.crMedium - 1 })
                                           else l.bind (fun n => if 0 < b.crLow then some (n, { b with ptrLow := n + 1, crLow := b.crLow - 1 }) else none)
                            | none, some n => if 0 < b.crLow then some (n, { b with ptrLow := n + 1, crLow := b.crLow - 1 }) else none
                            | none, none => none
        | none, some n, _ => if 0 < b.crMedium then some (n, { b with ptrMedium := n + 1, crMedium := b.crMedium - 1 })
                             else l.bind (fun n => if 0 < b.crLow then some (n, { b with ptrLow := n + 1, crLow := b.crLow - 1 }) else none)
        | none, none, some n => if 0 < b.crLow then some (n, { b with ptrLow := n + 1, crLow := b.crLow - 1 }) else none
        | none, none, none => none
      match spend a with
      | some r => some r
      | none => spend { a with crHigh := f.wHigh, crMedium := f.wMedium, crLow := f.wLow }

/-- What one entry read gives: the entry, or a failed read. A queue in device memory is read there (R63). -/
def State.readEntry (s : State) (k : Queue) (r : EntryRead) : EntryRead :=
  match k.sq with
  | .hostMem _ => r
  | .devMem a =>
    let at_ := a + 64 * k.sqHead
    if (s.mem.mem.poisonIn at_ 64).isSome then .failed
    else let p := parsePacket (s.readMem at_ 64)
         .entry p.1 p.2

/-- Fetches one entry: it waits for dispatch, or completes at once under a flush or a reset (R54); the barriers are recorded where it is an FW_ACTIVATE
(R57). A failed read halts the queue (R63), but not in a reset, which recovers it: the entry, whose CID cannot be read, is passed over and entered in
the error log (DESIGN CHOICE, log 59). -/
def State.fetchOne (q : Fin 64) (r : EntryRead) (s : State) : State :=
  let k := s.queue q
  if !k.fetchable then s
  else
    let ent := k.fetchedN
    let head := (k.sqHead + 1) % k.entries
    match s.readEntry k r with
    | .failed =>
      if k.reset.isSome then
        ((s.mapQueue q (fun x => { x with sqHead := head, fetchedN := ent + 1 })).logError { code := Status.aborted.code, sqId := q.val }).progress q
      else s.haltQueue q
    | .entry op pkt =>
      let t := s.mapQueue q (fun x => { x with sqHead := head, fetchedN := ent + 1 })
      match k.reset, k.flush with
      | some _, _ => ((t.mapQueue q (Queue.countAborted 1)).pushReady q (endedAs .aborted ent op pkt.cid pkt.flags)).progress q
      | none, some f => (t.mapQueue q (fun y => { y with flush := some { f with count := f.count + 1 } })).pushReady q
          (endedAs .flushed ent op pkt.cid pkt.flags)
      | none, none =>
        let t := t.mapQueue q (fun y => { y with fetched := y.fetched ++ [{ ent := ent, op := op, pkt := pkt }] })
        if q = 0 ∧ op.toNat = Op.fwActivate.code then t.setBarriers else t

/-- COMMAND_FETCH (R36, R63, R66): once a return to the operational state is complete, one arbitration turn, up to 8 entries of one queue. reads is what the reads of entries in host
memory return; entries in device memory are read there. -/
def execCommandFetch (reads : List EntryRead) (s : State) : Host.Outcome State Fault Refusal :=
  if !s.ready || s.returning then .next s
  else match s.host.arb.pick s.host.feat s.host.queues.toList.zipIdx with
    | none => .next s
    | some (n, arb) =>
      let q : Fin 64 := Fin.ofNat 64 n
      let t := (s.mapHost (fun h => { h with arb := arb })).mapPower (fun w => { w with waking := none })
      .next ((reads.take 8).foldl (fun u r => u.fetchOne q r) t)

/-! ## Dispatch -/

/-- The ranges of device memory that a command reads and writes: address, length, write (R51, R53, R322). -/
def opRanges (s : State) (op : Op) (c : Cmd) : List (Nat × Nat × Bool) :=
  let ofBuf (h : Handle) (off n : Nat) (w : Bool) : List (Nat × Nat × Bool) :=
    match s.buffer h with
    | some b => if n = 0 then [] else [(b.base + off, n, w)]
    | none => []
  let ptrRange : List (Nat × Nat × Bool) :=
    if c.ptrSpace = 1 ∧ c.ptrLen ≠ 0 then
      [(c.ptr.toNat, c.ptrLen.toNat, match (opSpec op).p with | .write _ => true | _ => op == .laneCalSave || op == .healthQuery || op == .camSensorWrite)]
    else []
  let jobRanges : List (Nat × Nat × Bool) := match structBytes s c with
    | .ok b => ofBuf c.handle (fld b 8 5) (f32 b 0x18) false ++ ofBuf c.aux (fld b 0x10 5) (f32 b 0x1C) true
    | .error _ => []
  match op with
  | .bufFree => match s.buffer c.handle with
    | some b => [(b.base, b.size, true)]
    | none => []
  | .bufCopy => ofBuf c.handle (par64 c 0) (par64 c 4) false ++ ofBuf c.aux (par64 c 2) (par64 c 4) true
  | .bufFill => ofBuf c.handle (par64 c 0) (par64 c 2) true
  | .bufCheck => ofBuf c.handle (par64 c 0) (par64 c 2) false
  | .cmpJob => ptrRange ++ jobRanges
  | .cmpExpand => ptrRange ++ jobRanges
  | _ => ptrRange

/-- Whether two ranges overlap. -/
def overlaps (a n b m : Nat) : Bool := a < b + m && b < a + n

/-- Whether a command's ranges are free of locked ranges and the table has room (R51). -/
def locksFree (ls : List RangeLock) (rs : List (Nat × Nat × Bool)) : Bool :=
  rs.length + ls.length ≤ Config.rangeLocks
    && rs.all (fun r => ls.all (fun l => !((r.2.2 || l.write) && overlaps r.1 r.2.1 l.start l.len)))

/-- COMMAND_DISPATCH (R36, R37, R39, R41, R44, R51, R52, R57): the oldest fetched command of a queue is checked; it fails, stalls,
or takes its range locks and is in flight. Its effect is the event of its own row. -/
def execCommandDispatch (q : Fin 64) (host : HostRead) (s : State) : Host.Outcome State Fault Refusal :=
  let k := s.queue q
  match k.fetched with
  | [] => .next s
  | f :: rest =>
    let ordered := f.pkt.flags.getLsbD 2 && !(k.inFlight.isEmpty && k.ready.isEmpty)
    let barred := match k.barrier with | some b => b ≤ f.ent | none => false
    if !s.ready || k.halted || k.cqFull || ordered || barred || k.flush.isSome || k.reset.isSome then .next s
    else
      let t := s.mapQueue q (fun x => { x with fetched := rest })
      let early (st : Status) (r0 r1 : Nat) (logged : Bool) (u : State) : State :=
        (if q = 0 ∧ f.op.toNat = Op.fwActivate.code then u.liftBarriers else u).pushReady q
          { ent := f.ent, op := f.op, cid := f.pkt.cid, flags := f.pkt.flags, status := st, r0 := BitVec.ofNat 32 r0,
            r1 := BitVec.ofNat 32 r1, logged := logged, held := false }
      match Op.ofCode f.op.toNat with
      | none => .next (early .invalidOpcode f.op.toNat 0 false t)
      | some op =>
        let c := toCmd q f.pkt host
        match preflight s op c with
        | .error e =>
          if e.status = .accessViolation then
            .next (early e.status e.r0 e.r1 true (t.logError
              { source := op.code / 256, code := e.status.code, sqId := q.val, reason := e.reason, cid := c.cid,
                opcode := f.op, addr := e.addr, detail := e.detail }))
          else .next (early e.status e.r0 e.r1 false t)
        | .ok () =>
          let rs := opRanges s op c
          if locksFree s.host.locks rs then
            let ls : List RangeLock := rs.map (fun r => { start := r.1, len := r.2.1, write := r.2.2, qid := q, cid := c.cid })
            let t := t.mapHost (fun h => { h with locks := h.locks ++ ls })
            .next (t.mapQueue q (fun x => { x with inFlight := x.inFlight ++ [{ ent := f.ent, ref := ref op c }] }))
          else .next s

/-! ## Admin commands on queues -/

/-- The queue ID of a queue handle. -/
def State.queueOf (s : State) (h : Handle) : Option Nat :=
  firstIdx (fun q => q.live && q.handle == h) s.host.queues.toList

/-- QUEUE_CREATE (R33, R46). -/
def execQueueCreate (c : Cmd) (s : State) : Host.Outcome State Fault Refusal :=
  let p0 := par c 0
  let n := bitsOf p0 12 0
  let sqDev := bitOf p0 20
  let cqDev := bitOf p0 21
  let place (dev : Bool) (a : Nat) (off : Nat) (size : Nat) : Chk Place :=
    if dev then do
      need (c.aux != 0) (badHandle c.aux 1)
      let b ← needBuffer s c.aux 1
      need (a % 4096 == 0) (badPacket off)
      let x ← needInBuffer s b a size
      needUnpinned s x size
      return .devMem x
    else do
      need (a % 4096 == 0) (badPacket off)
      return .hostMem a
  runCmd .queueCreate c s do
    need (2 ≤ n && n ≤ 4096) (badParam 0)
    need (1 ≤ bitsOf (par c 1) 7 0) (badParam 1)
    need (sqDev || cqDev || c.aux == 0) (badPacket 0x0C)
    let sq ← place sqDev (par64 c 2) 0x28 (64 * n)
    let cq ← place cqDev (par64 c 4) 0x30 (16 * n)
    let id ← needSome ((idxWhere 64 (fun i => i != 0 && !(vget s.host.queues Queue.absent i).live)).head?) (notReady 0x08)
    let q : Queue := { Queue.absent with
      live := true, handle := s.nextHandle 0x9, entries := n, cqEntries := n, sq := sq, cq := cq,
      prio := (match bitsOf p0 17 16 with | 0 => .urgent | 1 => .high | 2 => .medium | _ => .low),
      vector := bitsOf p0 31 24, cqCount := bitsOf (par c 1) 7 0, cqTime := bitsOf (par c 1) 25 16 }
    okDone (s.nextHandle 0x9).toNat id ((s.mapHost (fun h => { h with queues := vmod h.queues id (fun _ => q) })).issue 0x9)

/-- QUEUE_DELETE (R34). -/
def execQueueDelete (c : Cmd) (s : State) : Host.Outcome State Fault Refusal :=
  runCmd .queueDelete c s do
    let id ← needSome (s.queueOf c.handle) (badHandle c.handle 0)
    let k := vget s.host.queues Queue.absent id
    need k.flush.isNone (notReady 0x0B)
    need k.reset.isNone (notReady 0x0C)
    need (k.outstanding == 0 && id != 0) (notReady 0x09)
    okDone 0 0 (s.mapHost (fun h => { h with queues := vmod h.queues id (fun _ => Queue.absent) }))

/-- QUEUE_FLUSH (R34, R54, R58): the commands not started complete with FLUSHED; the flush completes after the last completion
of the commands submitted before it. -/
def execQueueFlush (c : Cmd) (s : State) : Host.Outcome State Fault Refusal :=
  runCmd .queueFlush c s do
    let id ← needSome (s.queueOf c.handle) (badHandle c.handle 0)
    need (id != 0) (badPacket 0x08)
    let q : Fin 64 := Fin.ofNat 64 id
    let k := s.queue q
    need k.flush.isNone (notReady 0x0B)
    need k.reset.isNone (notReady 0x0C)
    let t := (s.mapQueue q (fun x => { x with
      fetched := [], flush := some { by_ := ref .queueFlush c, limit := x.submitted, count := x.fetched.length } })).pushAll q
        (k.fetched.map (Fetched.ended .flushed))
    return .waits ((t.keepInFlight (ref .queueFlush c)).progress q)

/-- QUEUE_RESET (R34, R54 to R56, R58). -/
def execQueueReset (c : Cmd) (s : State) : Host.Outcome State Fault Refusal :=
  runCmd .queueReset c s do
    let id ← needSome (s.queueOf c.handle) (badHandle c.handle 0)
    need (id != 0) (badPacket 0x08)
    let q : Fin 64 := Fin.ofNat 64 id
    need (s.queue q).reset.isNone (notReady 0x0C)
    return .waits ((s.keepInFlight (ref .queueReset c)).startReset q (some (ref .queueReset c)))

/-- ASYNC_EVENT_REQUEST (R59, R60): a held event completes it at once, else it waits. -/
def execAsyncEventRequest (c : Cmd) (s : State) : Host.Outcome State Fault Refusal :=
  runCmd .asyncEventRequest c s do
    need (s.host.async.length < Config.asyncMax) (notReady 0x0A)
    match s.host.held with
    | e :: rest =>
      okDone (asyncResult e.type s.host.heldLost e.merged) e.detail.toNat
        (s.mapHost (fun h => { h with held := rest, heldLost := false }))
    | [] => waitDone .asyncEventRequest c (s.mapHost (fun h => { h with async := h.async ++ [ref .asyncEventRequest c] }))

end Sys2Proof.Machine
end

