-- ==== Sys2Proof/Machine/MemoryCmds.lean ====
section
/-!
DEFINITION. The memory system (chapter 12): the buffer commands, MEM_SET_SPEED, BAR2, refresh, retraining and row repair, speed
changes, patrol scrub, tallies, SRAM remapping and the retirement of pseudo-channels.
-/
namespace Sys2Proof.Machine

/-! ## Buffers -/

/-- Retirements begun or done, each with its own range. -/
def MemSt.retiredCount (m : MemSt) : Nat := m.retired.length

/-- The base of the n-th retired range, n from 0: the highest range not yet retired (R343). -/
def retiredBase (n : Nat) : Nat := Config.addrMax + 1 - Config.retiredSize * (n + 1)

/-- The ranges of the heap in which no buffer may be placed: buffers, retired ranges, and ranges of a pending retirement (R320, R344). -/
def MemSt.blocked (m : MemSt) : List (Nat × Nat) :=
  m.buffers.map (fun b => (b.base, b.size)) ++ m.retired.map (fun r => (r.base, Config.retiredSize))
  ++ (m.pendingRet.zipIdx.map (fun x => (retiredBase (m.retiredCount + x.2), Config.retiredSize)))

/-- Whether a range of the heap is free. -/
def MemSt.free (m : MemSt) (a n : Nat) : Bool :=
  Config.heapBase ≤ a && a + n ≤ Config.heapEnd && m.blocked.all (fun b => !overlaps a n b.1 b.2)

/-- The lowest free address of the heap for a size and an alignment (R320): a free range starts at the heap's base or after a
blocked range. -/
def MemSt.lowestFree (m : MemSt) (size align : Nat) : Option Nat :=
  minBy id (((Config.heapBase :: m.blocked.map (fun b => b.1 + b.2)).map (fun a => roundUp a align)).filter (fun a => m.free a size))

/-- The 1 MiB blocks of a range, the last one perhaps short (Table 12-3). -/
def bufBlocks (n : Nat) : Nat := ceilDiv n (2 ^ 20)

/-- The blocks that a command has done when a reset of its queue stops it (R55, Table 12-3): how far it has come is free (log 13). -/
def State.blocksDone (s : State) (n : Nat) : Nat := Config.freeNat s.fresh % (bufBlocks n + 1)

/-- The bytes of a number of blocks of a range. -/
def blockBytes (k n : Nat) : Nat := Nat.min n (k * 2 ^ 20)

/-- BUF_ALLOC (R320): the lowest free address that meets the alignment; ZERO fills the buffer with zeros. A reset of its queue stops it before the fill or
at the end of a block, and leaves no buffer. -/
def execBufAlloc (c : Cmd) (s : State) : Host.Outcome State Fault Refusal :=
  runCmd .bufAlloc c s do
    let size := par64 c 0
    let al := bitsOf (par c 2) 4 0
    need (1 ≤ size && size ≤ Config.heapEnd - Config.heapBase) (badParam 0)
    need (al == 0 || (12 ≤ al && al ≤ 30)) (badParam 2)
    need (s.mem.buffers.length < 65536) (notReady 0x11)
    let n := roundUp size 4096
    let a ← needSome (s.mem.lowestFree n (2 ^ (if al = 0 then 12 else al))) (notReady 0x10)
    let zero := bitOf (par c 2) 8
    if s.stopping (ref .bufAlloc c) then
      let k := if zero then s.blocksDone n else 0
      return .done .aborted 0 0 ((s.tickFresh.mapMem (fun m => { m with mem := m.mem.zero a (blockBytes k n) })).writes .bufCmd .queueEngine noCam a (blockBytes k n))
    let h := s.nextHandle 0x1
    let t := (s.mapMem (fun m => { m with buffers := m.buffers ++ [{ handle := h, base := a, size := n }] })).issue 0x1
    okDone h.toNat (a / 2 ^ 12) (if zero then (t.mapMem (fun m => { m with mem := m.mem.zero a n })).writes .bufCmd .queueEngine noCam a n else t)

/-- Starts a retirement that is due (R343, R344), with its copy, which reads the dead pseudo-channel's granules and writes them to the range: into the next range, or pending while that range holds a buffer. -/
def State.startRetirement (p : Nat) (s : State) : State :=
  let m := s.mem
  let base := retiredBase m.retiredCount
  let busy := m.buffers.any (fun b => overlaps base Config.retiredSize b.base b.size)
  if busy then
    if m.pendingRet.contains p then s
    else
      (s.mapMem (fun m => { m with
        deadPcs := m.deadPcs.filter (· != p), pendingRet := m.pendingRet ++ [p],
        pcs := vmod m.pcs p (fun x => { x with state := .retirePending }) })).logErrorPost { source := 0x01, unit := unitHandle 0x0D p }
  else
    let t := s.mapMem (fun m => { m with
      deadPcs := m.deadPcs.filter (· != p), pendingRet := m.pendingRet.filter (· != p),
      retired := m.retired ++ [{ pc := p, base := base, copying := true }],
      pcs := vmod m.pcs p (fun x => { x with state := .retiring }) })
    t.requests [{ t.access .retireCopy .chandler noCam base Config.retiredSize false with pc := some p },
                t.access .retireCopy .chandler noCam base Config.retiredSize true]

/-- Starts the pending retirements whose ranges a BUF_FREE has emptied, in their order (R344). -/
def State.startPending (s : State) : State :=
  s.mem.pendingRet.foldl (fun (t : State) (p : Nat) =>
    let base := retiredBase t.mem.retiredCount
    if t.mem.buffers.any (fun b => overlaps base Config.retiredSize b.base b.size) || t.mem.change.isSome then t
    else t.startRetirement p) s

/-- BUF_FREE (R321). -/
def execBufFree (c : Cmd) (s : State) : Host.Outcome State Fault Refusal :=
  runCmd .bufFree c s do
    let b ← needBuffer s c.handle 0
    need (!s.bufferInUse b) (notReady 0x30)
    okDone 0 0 ((s.mapMem (fun m => { m with buffers := m.buffers.filter (fun x => x.handle != c.handle) })).startPending)

/-- The lines that a range touches. -/
def linesOf (a n : Nat) : List Nat :=
  if n = 0 then [] else (List.range ((a + n - 1) / 64 + 1 - a / 64)).map (· + a / 64)

/-- Whether a source line that supplies bytes to a destination line carries a mark (R323). -/
def suppliesMark (m : Memory) (sa da n l : Nat) : Bool :=
  let lo := Nat.max (l * 64) da
  let hi := Nat.min (l * 64 + 64) (da + n)
  !(m.marksIn (sa + (lo - da)) (hi - lo)).isEmpty

/-- A copy of bytes that carries marks with the data (R323, R332). -/
def Memory.copy (m : Memory) (sa da n : Nat) : Memory :=
  (m.write da (m.read sa n)).markAll ((linesOf da n).filter (suppliesMark m sa da n))

/-- BUF_COPY (R322, R323). A reset of its queue stops it at the end of a block. -/
def execBufCopy (c : Cmd) (s : State) : Host.Outcome State Fault Refusal :=
  runCmd .bufCopy c s do
    let src ← needBuffer s c.handle 0
    let dst ← needBuffer s c.aux 1
    let n := par64 c 4
    let sa ← needInBuffer s src (par64 c 0) n
    let da ← needInBuffer s dst (par64 c 2) n
    need (!(c.handle == c.aux && n != 0 && overlaps sa n da n)) (badParam 2)
    needUnpinned s da n
    if s.stopping (ref .bufCopy c) then
      let k := s.blocksDone n
      let z := blockBytes k n
      return .done .aborted k 0 (((s.tickFresh.mapMem (fun x => { x with mem := s.mem.mem.copy sa da z })).reads .bufCmd .queueEngine noCam sa z).writes
        .bufCmd .queueEngine noCam da z)
    let m := s.mem.mem.copy sa da n
    okDone (n % 2 ^ 32) (m.marksIn da n).length
      (((s.mapMem (fun x => { x with mem := m })).reads .bufCmd .queueEngine noCam sa n).writes .bufCmd .queueEngine noCam da n)

/-- n bytes of a 32-bit pattern. -/
def patternBytes (p n : Nat) : List Byte := (List.range n).map (fun i => BitVec.ofNat 8 (p / 256 ^ (i % 4)))

/-- BUF_FILL (R322, R323). A reset of its queue stops it at the end of a block. -/
def execBufFill (c : Cmd) (s : State) : Host.Outcome State Fault Refusal :=
  runCmd .bufFill c s do
    let b ← needBuffer s c.handle 0
    need (par64 c 0 % 4 == 0) (badParam 0)
    need (par64 c 2 % 4 == 0) (badParam 2)
    let n := par64 c 2
    let a ← needInBuffer s b (par64 c 0) n
    needUnpinned s a n
    if s.stopping (ref .bufFill c) then
      let k := s.blocksDone n
      let z := blockBytes k n
      return .done .aborted k 0 ((s.tickFresh.writeMem a (patternBytes (par c 4) z)).writes .bufCmd .queueEngine noCam a z)
    okDone (n % 2 ^ 32) 0 ((s.writeMem a (patternBytes (par c 4) n)).writes .bufCmd .queueEngine noCam a n)

/-- BUF_CHECK (R322, R323): CRC-32C of the range; a marked line fails it, and under COMPARE a difference. A reset
of its queue stops it at the end of a block, before the first marked line. -/
def execBufCheck (c : Cmd) (s : State) : Host.Outcome State Fault Refusal :=
  runCmd .bufCheck c s do
    let b ← needBuffer s c.handle 0
    let n := par64 c 2
    let a ← needInBuffer s b (par64 c 0) n
    let bad := s.mem.mem.poisonIn a n
    if s.stopping (ref .bufCheck c) then
      let clean := match bad with | some x => x - a | none => n
      let k := s.blocksDone (clean / 2 ^ 20 * 2 ^ 20)
      return .done .aborted k 0 (s.tickFresh.reads .bufCmd .queueEngine noCam a (blockBytes k n))
    match bad with
    | some x => .error (poisonedAt x)
    | none =>
      let v := crc32c (s.readMem a n)
      let t := s.reads .bufCmd .queueEngine noCam a n
      if bitOf (par c 5) 0 && v != par c 4 then return .done .checkMismatch v (par c 4) t
      else okDone v 0 t

/-! ## Speed -/

/-- MEM_SET_SPEED (R328, R461): sets the speed used in PS0; the command completes when every stack runs at the new speed. -/
def execMemSetSpeed (c : Cmd) (s : State) : Host.Outcome State Fault Refusal :=
  runCmd .memSetSpeed c s do
    let v := bitsOf (par c 0) 1 0
    need (v != 3) (badParam 0)
    need (s.mem.change.isNone && s.power.moving.isNone) (notReady 0x12)
    let idle := s.mem.speeds.toList.all (· == speedFor s.power.cur v)
    need (idle || !(s.mem.retired.any Retired.copying)) (notReady 0x13)
    if s.power.throttled then okDone v 0 (s.mapPower (fun w => { w with defSpeed := some v }))
    else
      let target := speedFor s.power.cur v
      let t := s.mapMem (fun m => { m with setSpeed := v })
      if idle then okDone target 0 t
      else waitDone .memSetSpeed c (t.startSpeed target false [ref .memSetSpeed c])

/-- Whether a stack has its change of speed in progress (R329): it is the next to move. -/
def MemSt.moving (m : MemSt) (stack : Nat) : Bool := (m.change.map (fun x => x.next == stack)).getD false

/-- Whether R18 lets a planned pause start on a stack: no other pause in progress on it, and a slack of at least 25 µs. -/
def State.pauseAllowed (s : State) (stack : Nat) : Bool := !s.mem.moving stack && 25000 ≤ s.slack

/-- STACK_SPEED_CHANGE (R329): a stack whose turn it is moves to the new speed once R18 allows it; at the last the change ends, and the
commands that wait for it complete. -/
def execStackSpeedChange (stack : Fin 4) (s : State) : Host.Outcome State Fault Refusal :=
  match s.mem.change with
  | none => .next s
  | some ch =>
    if ch.next == stack.val && (ch.waived || 25000 ≤ s.slack) then
      let t := s.mapMem (fun m => { m with
        speeds := vmod m.speeds ch.next (fun _ => ch.target),
        pcs := vmapIdx m.pcs (fun i p => if i / 32 = ch.next then { p with postponed := 0 } else p),
        change := if ch.next + 1 < 4 then some { ch with next := ch.next + 1 } else none })
      let end_ (u : State) (r : CmdRef) : State := u.finish r .ok (if r.op = .pwrSetState then s.power.cur.code else ch.target) 0 false
      if ch.next + 1 < 4 then .next t
      else .next (ch.by_.foldl end_ (t.mapPower (fun w => { w with moving := none })))
    else .next s

/-! ## BAR2 -/

/-- Where a BAR2 access falls: none where it gets Unsupported Request (R31, R66, R318, R454). -/
def State.bar2Addr (s : State) (off len : Nat) : Option Nat :=
  let a := s.host.bar2Base + off
  if !s.ready || s.power.cur == .ps2 || s.power.cur == .ps3 then none
  else if 2 ^ s.host.bar2Log2 < off + len then none
  else if Config.addrMax < a + len - 1 then none
  else if (retiredByte s a len).isSome then none
  else some a

/-- Whether an Unsupported Request is reported through AER: an address beyond the device or in a retired range (R31, R318). -/
def State.bar2Aer (s : State) (off len : Nat) : Bool :=
  s.ready && (Config.addrMax < s.host.bar2Base + off + len - 1 || (retiredByte s (s.host.bar2Base + off) len).isSome)

/-- BAR2_READ (R30, R31, R318). -/
def execBar2Read (off len : Nat) (s : State) : Host.Outcome State Fault Refusal :=
  if len = 0 then .next s
  else match s.bar2Addr off len with
    | none => .next ((if s.bar2Aer off len then s.emit (.aer false) else s).emit .unsupportedRequest)
    | some a =>
      let t := s.reads .bar2 .host noCam a len
      if (s.mem.mem.poisonIn a len).isSome then .next ((t.emit (.aer false)).emit (.poisonedCompletion (s.readMem a len)))
      else .next (t.emit (.readBytes (s.readMem a len)))

/-- BAR2_WRITE (R30, R31, R318): a write to the reserved region is discarded and counted, and logged at most once per second. -/
def execBar2Write (off : Nat) (data : List Byte) (s : State) : Host.Outcome State Fault Refusal :=
  if data.isEmpty then .next s
  else match s.bar2Addr off data.length with
    | none => .next ((if s.bar2Aer off data.length then s.emit (.aer false) else s).emit .unsupportedRequest)
    | some a =>
      if a < Config.heapBase then
        let t := s.mapMem (fun m => { m with bar2Discarded := m.bar2Discarded.satInc })
        let due := match s.mem.bar2LogTick with | none => true | some x => x + 400000000 ≤ s.time.ticks
        if due then .next ((t.mapMem (fun m => { m with bar2LogTick := some s.time.ticks })).logError { source := 0x01, addr := a })
        else .next t
      else .next ((s.writeMem a data).writes .bar2 .host noCam a data.length)

/-! ## Interleave -/

/-- The pseudo-channel of a device address before any retirement (R319). -/
def pcOfAddr (a : Nat) : Nat :=
  xorNat (xorNat (xorNat (xorNat (bitsOf a 14 8) (bitsOf a 21 15)) (bitsOf a 28 22)) (bitsOf a 35 29)) (bitsOf a 37 36)

/-- The pseudo-channel that holds an address, the remap of the retirements applied (R343): the i-th granule of the dead
pseudo-channel outside the retired range moves to the i-th granule of that range that does not lie on it. In any aligned block
of 32 KiB each pseudo-channel has one granule, so i is the block's number, and the new home is found in the range's blocks, each
of which has 127 granules that do not lie on the dead pseudo-channel. -/
def granuleHome (dead base a : Nat) : Nat :=
  if pcOfAddr a = dead ∧ (a < base ∨ base + Config.retiredSize ≤ a) then
    let i := if a < base then a / 32768 else a / 32768 - Config.retiredSize / 32768
    let block := base + i / 127 * 32768
    let homes := (List.range 128).filter (fun g => pcOfAddr (block + 256 * g) != dead)
    block + 256 * (homes[i % 127]?).getD 0 + a % 256
  else a

/-- The pseudo-channel that serves an address now (R319, R343). -/
def State.pcOf (s : State) (a : Nat) : Nat := pcOfAddr (s.mem.retired.foldl (fun x r => granuleHome r.pc r.base x) a)

/-! ## Refresh and retraining -/

/-- The pseudo-channel of a number. -/
def State.pc (s : State) (p : Fin 128) : PseudoChannel := s.mem.pcs[p]

/-- Applies a function to a pseudo-channel. -/
def State.mapPc (p : Fin 128) (f : PseudoChannel → PseudoChannel) (s : State) : State :=
  s.mapMem (fun m => { m with pcs := m.pcs.set p (f m.pcs[p]) })

/-- Applies a function to the memory counters. -/
def State.mapMemCnt (f : MemCounters → MemCounters) (s : State) : State := s.mapMem (fun m => { m with cnt := f m.cnt })

/-- Whether a pseudo-channel's memory is in self-refresh: PS2 and PS3 (Table 02-15). -/
def State.selfRefreshing (s : State) : Bool := s.power.cur == .ps2 || s.power.cur == .ps3

/-- Pseudo-channel n of a stack. -/
def pcAt (stack : Fin 4) (n : Fin 32) : Fin 128 := ⟨32 * stack.val + n.val, by omega⟩

/-- REFRESH_DUE (R325, Table 12-5): it is postponed or forced while a live or frame transaction is pending on the pseudo-channel. -/
def execRefreshDue (stack : Fin 4) (n : Fin 32) (s : State) : Host.Outcome State Fault Refusal :=
  let p := pcAt stack n
  let x := s.pc p
  if x.state == .retired || s.selfRefreshing then .next s
  else if s.fab.busy p.val then
    if x.postponed < 8 then
      .next ((s.mapPc p (fun y => { y with postponed := y.postponed + 1 })).mapMemCnt (fun n => { n with postponed := n.postponed.satInc }))
    else .next (s.mapMemCnt (fun n => { n with forced := n.forced.satInc }))
  else .next (s.mapPc p (fun y => { y with postponed := y.postponed - 1 }))

/-- MAKE_UP_BURST (R326): a count of 6 or more schedules it; R18 lets it start; the count becomes 0. -/
def execMakeUpBurst (stack : Fin 4) (n : Fin 32) (s : State) : Host.Outcome State Fault Refusal :=
  let p := pcAt stack n
  if 6 ≤ (s.pc p).postponed && s.pauseAllowed stack.val then
    .next ((s.mapPc p (fun y => { y with postponed := 0 })).mapMemCnt (fun n => { n with bursts := n.bursts.satInc }))
  else .next s

/-- Chandler declares a pseudo-channel dead (R342): its epoch advances and its retirement becomes due; with RETIRE_EN clear it
stays in service and ERROR_LOGGED is posted (R426). -/
def State.pcDead (p : Fin 128) (s : State) : State :=
  if (s.pc p).state != .active || s.mem.deadPcs.contains p.val then s
  else if !s.mgmt.policy.retireEn then s.logErrorPost { source := 0x01, unit := unitHandle 0x0D p.val }
  else
    ((s.mapPc p (fun y => { y with epoch := nextEpoch y.epoch })).mapMem (fun m => { m with deadPcs := m.deadPcs ++ [p.val] })).logError
      { source := 0x01, unit := unitHandle 0x0D p.val, epoch := nextEpoch (s.pc p).epoch }

/-- Spare rows used in a bank (R341). -/
def PseudoChannel.used (x : PseudoChannel) (bank : Nat) : Nat := ((x.banksUsed.find? (fun b => b.1 == bank)).map (·.2)).getD 0

/-- Counts one more spare row of a bank as used. -/
def PseudoChannel.useSpare (x : PseudoChannel) (bank : Nat) : PseudoChannel :=
  { x with banksUsed := if x.banksUsed.any (fun b => b.1 == bank)
                        then updWhere (fun b : Nat × Nat => b.1 == bank) (fun b => (b.1, b.2 + 1)) x.banksUsed
                        else x.banksUsed ++ [(bank, 1)] }

/-- Candidates of banks with no spare row left. -/
def PseudoChannel.stuck (x : PseudoChannel) : Nat := (x.candidates.filter (fun c => 2 ≤ x.used c.bank)).length

/-- One retraining (R327): a success clears the failures; a second failure in a row, or a margin below the boot minimum,
declares the pseudo-channel dead (Table 12-9). -/
def State.retrain (p : Fin 128) (eyeOk : Bool) (s : State) : State :=
  if eyeOk then s.mapPc p (fun y => { y with failures := 0, retrainDue := false, skips := 0, repairedLast := false })
  else
    let t := s.mapPc p (fun y => { y with failures := y.failures + 1, retrainDue := false, skips := 0, repairedLast := false })
    if 2 ≤ (t.pc p).failures then t.pcDead p else t

/-- The repair record written to the boot flash (R340, R450): the rows repaired in service of a pseudo-channel. -/
def repairBytes (p row bank : Nat) : List Byte := layout 16 [(0, 2, p), (2, 2, bank), (4, 4, row)]

/-- RETRAINING_SLOT (R327, R339, R340): the slot repairs a candidate row in place of the retraining, retrains, or defers; a
retraining still deferred from the slot before is skipped and counted. -/
def execRetrainingSlot (stack : Fin 4) (n : Fin 32) (eyeOk : Bool) (s : State) : Host.Outcome State Fault Refusal :=
  let p := pcAt stack n
  let x := s.pc p
  if x.state == .retired || s.selfRefreshing then .next s
  else
    let s2 := if x.retrainDue then
        let t := (s.mapPc p (fun y => { y with retrainDue := false, skips := y.skips + 1 })).mapMemCnt
          (fun n => { n with skipped := n.skipped.satInc })
        if x.skips + 1 = 2 then t.logErrorPost { source := 0x01, unit := unitHandle 0x0D p.val } else t
      else s
    if !s.pauseAllowed stack.val then
      .next ((s2.mapPc p (fun y => { y with retrainDue := true })).mapMemCnt (fun n => { n with deferred := n.deferred.satInc }))
    else
      match x.candidates.find? (fun c => x.used c.bank < 2) with
      | some c =>
        if s.mgmt.policy.pprEn && !x.repairedLast then
          let t := s2.mapPc p (fun y => { (y.useSpare c.bank) with
            candidates := y.candidates.filter (· != c), watch := y.watch.filter (fun w => !(w.row == c.row && w.bank == c.bank)),
            repairs := min (y.repairs + 1) 255, repairedLast := true, retrainDue := false })
          let t := t.requests [{ t.access .rowRepair (.channel p.val) noCam 0 1024 false with pc := some p.val },
                               { t.access .rowRepair (.channel p.val) noCam 0 1024 true with pc := some p.val }]
          .next (((t.mapMemCnt (fun n => { n with pprDone := n.pprDone.satInc })).logEvent
            { source := 0x01, unit := unitHandle 0x0D p.val, detail := [c.row, c.bank] }).emit
            (.flashWrite 0x10000 (repairBytes p.val c.row c.bank)))
        else .next (s2.retrain p eyeOk)
      | none => .next (s2.retrain p eyeOk)

/-- RETRAIN_RETRY (R327): a deferred retraining runs once R18 allows it. -/
def execRetrainRetry (stack : Fin 4) (n : Fin 32) (eyeOk : Bool) (s : State) : Host.Outcome State Fault Refusal :=
  let p := pcAt stack n
  if (s.pc p).retrainDue && s.pauseAllowed stack.val then .next (s.retrain p eyeOk)
  else .next s

/-! ## Tallies, scrub and repair -/

/-- Adds to a tally (R335): at its capacity it stays, and an addition beyond it overflows once until it has leaked to half. -/
def Tally.add (t : Tally) (cap n : Nat) : Tally × Bool :=
  if cap < t.count + n then ({ count := cap, posted := true }, !t.posted) else ({ t with count := t.count + n }, false)

/-- Posts TALLY_OVERFLOW for a region index (R334, R335). -/
def State.postTally (idx : Nat) (s : State) : State :=
  (((s.mapMemCnt (fun n => { n with overflows := n.overflows.satInc })).mapMgmt
    (fun m => { m with smb := { m.smb with tallyOvf := true } })).post .tallyOverflow (BitVec.ofNat 32 idx))

/-- Ticks of one hour. -/
def hourTicks : Nat := 400000000 * 3600

/-- Regions of a pseudo-channel that overflowed within the retirement window. -/
def PseudoChannel.overflowed (x : PseudoChannel) (now win : Nat) : Nat :=
  ((x.overflowAt.filter (fun o => now ≤ o.2 + win)).map (·.1)).eraseDups.length

/-- Counts n in a region's tally of a pseudo-channel, with its overflow and Table 12-9's condition on overflows (R335, R342). -/
def State.tally (p : Fin 128) (region n : Nat) (s : State) : State :=
  let x := s.pc p
  let r := (vget x.tallies Tally.zero region).add s.mgmt.policy.tallyCap n
  let t := s.mapPc p (fun y => { y with tallies := vmod y.tallies region (fun _ => r.1) })
  if r.2 then
    let t := (t.mapPc p (fun y => { y with overflowAt := y.overflowAt ++ [(region, s.time.ticks)] })).postTally (p.val * 64 + region)
    if s.mgmt.policy.retireRegions < (t.pc p).overflowed s.time.ticks (s.mgmt.policy.retireWindow * hourTicks) then t.pcDead p else t
  else t

/-- Makes a row a repair candidate (R339); more than four without a spare row retire the pseudo-channel (Table 12-9). -/
def State.candidate (p : Fin 128) (row bank : Nat) (s : State) : State :=
  if (s.pc p).candidates.any (fun c => c.row == row && c.bank == bank) then s
  else
    let t := s.mapPc p (fun y => { y with candidates := y.candidates ++ [{ row := row, bank := bank }] })
    if 4 < (t.pc p).stuck then t.pcDead p else t

/-- Notes a corrected error of a row on the watch list of 16 rows (R339), counted in the tally or not: the entry with the oldest last error is
replaced. -/
def watchRow (w : List WatchRow) (row bank now : Nat) (counted : Bool) : List WatchRow :=
  if w.any (fun x => x.row == row && x.bank == bank) then
    updWhere (fun x => x.row == row && x.bank == bank) (fun x =>
      { x with count := x.count + 1, last := now, tallied := if counted then now else x.tallied }) w
  else
    let e : WatchRow := { row := row, bank := bank, count := 1, first := now, last := now, tallied := now }
    if w.length < 16 then w ++ [e]
    else match minBy WatchRow.last w with
      | some o => dropFirst (fun x => x == o) w ++ [e]
      | none => [e]

/-- Ticks of one second. -/
def secTicks : Nat := 400000000

/-- A corrected line (R335, R339): counted, at most once per second for a row on the watch list; a second time at least one
second after the first makes the row a candidate. -/
def State.corrected (p : Fin 128) (region row bank : Nat) (s : State) : State :=
  let x := s.pc p
  let now := s.time.ticks
  let seen := x.watch.find? (fun w => w.row == row && w.bank == bank)
  let counts : Bool := match seen with | some w => w.tallied + secTicks ≤ now | none => true
  let again : Bool := match seen with | some w => w.first + secTicks ≤ now | none => false
  let t := (s.mapPc p (fun y => { y with watch := watchRow y.watch row bank now counts, corrAt := y.corrAt ++ [now] })).mapMemCnt
    (fun n => { n with corrected := n.corrected.satInc })
  let t := if counts then t.tally p region 1 else t
  let t := if again then t.candidate p row bank else t
  let recent := t.mem.corrLogAt.filter (fun k => now < k + secTicks)
  if s.mgmt.policy.logCorrected && recent.length < 100 then
    (t.mapMem (fun m => { m with corrLogAt := recent ++ [now] })).logEvent
      { source := 0x01, unit := unitHandle 0x0D p.val, detail := [region, row, bank] }
  else t

/-- A line whose data could not be read: it is written marked, with data that nothing states (R332, R343). -/
def State.loseLine (line : Nat) (s : State) : State := (s.undefine (line * 64) 64).mapMem (fun m => { m with mem := m.mem.mark line })

/-- An uncorrectable line (R332, R335, R339): marked, counted 16, logged, and its row a candidate. -/
def State.uncorrectable (p : Fin 128) (region row bank line : Nat) (s : State) : State :=
  let t := s.loseLine line
  let t := t.mapMemCnt (fun n => { n with uncorrectable := n.uncorrectable.satInc })
  let t := (t.tally p region 16).candidate p row bank
  t.logError { source := 0x01, code := Status.dataPoisoned.code, unit := unitHandle 0x0D p.val, addr := line * 64 }

/-- SCRUB_READ (R334 to R336, R339): a patrol read of a line. row, bank and region are the device's own choice of place (R319);
result 0 is a clean line, 1 a corrected one, 2 or more an uncorrectable one; last ends the pass. -/
def execScrubRead (line row bank region result : Nat) (last : Bool) (s : State) : Host.Outcome State Fault Refusal :=
  let p : Fin 128 := Fin.ofNat 128 (s.pcOf (line * 64))
  let reg := region % 64
  let scrubs : Bool := !((s.pc p).state == .retired || s.selfRefreshing)
  let s := if scrubs then s.requests [{ s.access .patrol (.channel p.val) noCam (line * 64) 64 false with pc := some p.val }] else s
  let t := if (s.pc p).state == .retired || s.selfRefreshing || s.mem.mem.marks.contains line then s
           else if result = 1 then s.corrected p reg row bank
           else if 2 ≤ result then s.uncorrectable p reg row bank line
           else s
  if last then
    let took := (s.time.ticks - s.mem.scrubStart) / secTicks
    let t := t.mapMem (fun m => { m with scrubPass := took, scrubStart := s.time.ticks })
    .next (if 2 * s.host.feat.scrubH * 3600 < took then t.logErrorPost { source := 0x01 } else t)
  else .next t

/-- Leaks one count of a tally; leaking to half its capacity lets its overflow be posted again (R335). -/
def Tally.leak (t : Tally) (cap : Nat) : Tally :=
  { count := t.count - 1, posted := t.posted && cap < 2 * (t.count - 1) }

/-- TALLY_LEAK (R335): one leak period of a region; a region of 64 or more names a macro by its number. -/
def execTallyLeak (p : Fin 128) (region : Nat) (s : State) : Host.Outcome State Fault Refusal :=
  let cap := s.mgmt.policy.tallyCap
  if region < 64 then .next (s.mapPc p (fun y => { y with tallies := vmod y.tallies region (fun t => t.leak cap) }))
  else .next (s.mapMem (fun m => { m with
    macros := updWhere (fun x => x.number == region - 64) (fun x => { x with tally := x.tally.leak cap }) m.macros }))

/-- ON_DIE_ECC_POLL (R330): the stacks' reports, as pseudo-channel, region and count, count as corrected errors in the tallies. -/
def execOnDieEccPoll (reports : List (Fin 128 × Nat × Nat)) (s : State) : Host.Outcome State Fault Refusal :=
  .next (reports.foldl (fun t r => t.tally r.1 (r.2.1 % 64) r.2.2) s)

/-! ## SRAM -/

/-- Whether an error qualifies its address for the remap table (R337): uncorrectable, or a second corrected error within 24 h. -/
def Macro.qualifies (x : Macro) (e : SramError) (now : Nat) : Bool :=
  e.uncorr || x.watch.any (fun w => w.1 == e.addr && now ≤ w.2 + 24 * hourTicks)

/-- The watch of four addresses per macro after an error (R337). -/
def Macro.note (x : Macro) (e : SramError) (now : Nat) : Macro :=
  let w := x.watch.filter (fun y => y.1 != e.addr) ++ [(e.addr, now)]
  { x with watch := if 4 < w.length then w.drop 1 else w }

/-- An SRAM error (R331, R333, R335, R337, R338): counted in the macro's tally; a qualifying address enters the remap table; a fifth
overflows the tally and takes the unit's role away, or is logged where the macro belongs to no such unit; an uncorrectable one in a
pseudo-channel's controller declares the pseudo-channel dead (R342). -/
def State.sramError (e : SramError) (s : State) : State :=
  match s.mem.macros.find? (fun x => x.number == e.number) with
  | none => s
  | some x =>
    let now := s.time.ticks
    let put (y : Macro) (t : State) : State :=
      t.mapMem (fun m => { m with macros := updWhere (fun z => z.number == e.number) (fun _ => y) m.macros })
    let r := x.tally.add s.mgmt.policy.tallyCap (if e.uncorr then 16 else 1)
    let x1 := { x with tally := r.1 }
    let overs (t : State) : State := if r.2 then t.postTally (2 ^ 30 + x.number) else t
    if x.remap.any (fun y => y.1 == e.addr) then s
    else if x.qualifies e now then
      if x.remap.length < 4 then overs (put { x1 with remap := x1.remap ++ [(e.addr, e.content)] } s)
      else
        let t := put { x1 with tally := { count := s.mgmt.policy.tallyCap, posted := true } } s
        let t := if x.tally.posted then t else t.postTally (2 ^ 30 + x.number)
        let dead (k : UnitKind) : State :=
          match s.mgmt.units.roleOf k x.unit with
          | some role => t.declareDead k role Status.hardwareFault.code
          | none => t
        match x.kind with
        | 0x02 => dead .sliceU
        | 0x04 => dead .siteU
        | 0x06 => dead .encU
        | 0x0D => let u := t.logErrorPost { source := 0x01, unit := unitHandle x.kind x.unit, addr := e.addr }
                  if e.uncorr then u.pcDead (Fin.ofNat 128 x.unit) else u
        | _ => t.logErrorPost { source := 0x01, unit := unitHandle x.kind x.unit, addr := e.addr }
    else overs (put (x1.note e now) s)

/-- The SRAM errors met in a step. -/
def State.sramErrors (es : List SramError) (s : State) : State := es.foldl (fun t e => t.sramError e) s

/-! ## Retirement -/

/-- PC_RETIREMENT (R343, R344): the retirement of a dead pseudo-channel starts, once no speed change is in progress (R328). -/
def execPcRetirement (p : Fin 128) (s : State) : Host.Outcome State Fault Refusal :=
  if (s.mem.deadPcs.contains p.val || s.mem.pendingRet.contains p.val) && s.mem.change.isNone then
    .next (s.startRetirement p.val)
  else .next s

/-- The copy of a retirement has ended: what is left of its accesses has completed. -/
def FabSt.endCopy (p : Nat) (f : FabSt) : FabSt :=
  { f with waiting := f.waiting.filter (fun r => !(r.src == .retireCopy && (r.pc == some p || r.write))),
           txns := f.txns.filter (fun t => !(t.src == .retireCopy && (t.pc == p || t.write))) }

/-- RETIREMENT_COPY_DONE (R343): the pseudo-channel is held quiescent and ERROR_LOGGED posted; lines that could not be read are
written marked. -/
def execRetirementCopyDone (p : Fin 128) (lost : List Nat) (s : State) : Host.Outcome State Fault Refusal :=
  if s.mem.retired.any (fun r => r.pc == p.val && r.copying) then
    .next ((((lost.foldl (fun (t : State) (l : Nat) => t.loseLine l) s).mapMem (fun m => { m with
      retired := updWhere (fun r => r.pc == p.val) (fun r => { r with copying := false }) m.retired,
      pcs := vmod m.pcs p.val (fun x => { x with state := .retired }) })).mapFab (FabSt.endCopy p.val)).logErrorPost { source := 0x01, unit := unitHandle 0x0D p.val })
  else .next s

end Sys2Proof.Machine
end

