-- ==== Sys2Proof/Machine/TimeBase.lean ====
section
/-!
DEFINITION. The time base (chapter 14): the counter and its tick, steps and rates, the servo, PTP messages, compare units,
capture units and event pins.
-/
namespace Sys2Proof.Machine

/-! ## The counter -/

/-- One TCLK cycle: the counter adds E = INCR × (1 + RATE) in 2^-32 ns, RATE in 10^-12 (R370); the rest below 2^-32 ns is kept
(DEDUCED, log 15). -/
def TimeSt.tick (t : TimeSt) : TimeSt :=
  let total := t.sub + t.incr * (1000000000000 + t.rate).toNat
  { t with ticks := t.ticks + 1, now := (t.now + total / 1000000000000) % (2 ^ 48 * 1000000000 * 2 ^ 32),
           sub := total % 1000000000000 }

/-- TIME_NOW_READ (R371): a read that covers the low half takes a snapshot, returns its nanoseconds and latches the rest; a
64-bit read returns both halves. -/
def execTimeNowRead (wide : Bool) (s : State) : Host.Outcome State Fault Refusal :=
  let sec := secOf s.ns
  let lo := nsOf s.ns
  let t := s.mapTime (fun t => { t with latchSec := sec % 2 ^ 32, latchHi := s.time.frac * 2 ^ 16 + sec / 2 ^ 32 })
  .next (t.emit (.readData (if wide then lo + 2 ^ 32 * (sec % 2 ^ 32) else lo)))

/-- Whether an asymmetry value is accepted: a magnitude of at most 1,000 ns in s16.16 (R372). -/
def asymOk (v : Word) : Bool := (sext 32 v.toNat).natAbs ≤ 1000 * 65536

/-- TIME_ASYM_WRITE (R372). -/
def execTimeAsymWrite (p : Fin 4) (v : Word) (s : State) : Host.Outcome State Fault Refusal :=
  if asymOk v then .next (s.mapTime (fun t => { t with asym := t.asym.set p v }))
  else .next (s.mapTime (fun t => { t with paramErr := true }))

/-- TIME_LINK_ASYM_WRITE (R372). -/
def execTimeLinkAsymWrite (n : Fin 32) (v : Word) (s : State) : Host.Outcome State Fault Refusal :=
  if asymOk v then .next (s.mapTime (fun t => { t with linkAsym := t.linkAsym.set n v }))
  else .next (s.mapTime (fun t => { t with paramErr := true }))

/-! ## Pins and compare units -/

/-- The handle of the holder of an event pin (R386). -/
def State.pinHolder (s : State) (n : Nat) : Handle :=
  match (vget s.time.pins { owner := .free, level := false, release := false } n).owner with
  | .free => 0
  | .compare u => ((vget s.time.compare none u).map CompareUnit.handle).getD 0
  | .capture u => ((vget s.time.capture none u).map CaptureUnit.handle).getD 0
  | .plan cam => s.camHandle cam

/-- Whether an event pin is unclaimed. -/
def State.pinFree (s : State) (n : Nat) : Bool :=
  (vget s.time.pins { owner := .free, level := false, release := false } n).owner == .free

/-- The claim of an event pin fails with CONFLICT when it is held (R386). -/
def needPin (s : State) (n : Nat) : Chk Unit := need (s.pinFree n) (conflict (s.pinHolder n) (0x100 + n))

/-- Gives a pin an owner. -/
def State.ownPin (n : Nat) (o : PinOwner) (s : State) : State :=
  s.mapTime (fun t => { t with pins := vmod t.pins n (fun x => { x with owner := o, release := false }) })

/-- Drives a pin. -/
def State.drivePin (n : Nat) (level : Bool) (s : State) : State :=
  (s.mapTime (fun t => { t with pins := vmod t.pins n (fun x => { x with level := level }) })).emit (.pin n level)

/-- Returns a pin to input (Table 18-5). -/
def State.freePin (n : Nat) (s : State) : State :=
  (s.mapTime (fun t => { t with pins := vmod t.pins n (fun _ => { owner := .free, level := false, release := false }) })).emit (.pinInput n)

/-- Applies a function to a compare unit. -/
def State.mapCompare (u : Nat) (f : CompareUnit → CompareUnit) (s : State) : State :=
  s.mapTime (fun t => { t with compare := vmod t.compare u (fun x => x.map f) })

/-- TCLK ticks of a pulse (R387). -/
def pulseTicks (ns : Nat) : Nat := ceilDiv (ns * 2) 5

/-- The time of the next event of a compare unit in ns (R387). -/
def CompareUnit.due (x : CompareUnit) : Nat := if x.periodic then x.first + x.next * x.period else x.first

/-- A compare unit fires: its pulse begins on its pin (R387). -/
def State.fire (u : Nat) (s : State) : State :=
  match vget s.time.compare none u with
  | none => s
  | some x =>
    let outs := x.outputs + 1
    let t := s.mapCompare u (fun y => { y with
      next := y.next + 1, outputs := outs, done := !y.periodic || (y.count != 0 && y.count ≤ outs),
      pulse := some { endTick := s.time.ticks + pulseTicks y.pulseNs, pin := y.pin } })
    t.drivePin x.pin (!x.pol)

/-- Whether a unit may begin a pulse: one still in progress on a pin that it has left completes first (R386). -/
def CompareUnit.clear (x : CompareUnit) : Bool := (x.pulse.map (fun p => p.pin == x.pin)).getD true

/-- COMPARE_EVENT (R387): the counter has reached the unit's event time, and its pulse begins. -/
def execCompareEvent (u : Fin 32) (s : State) : Host.Outcome State Fault Refusal :=
  match s.time.compare[u] with
  | none => .next s
  | some x => if !x.done && x.due ≤ s.ns && x.clear then .next (s.fire u.val) else .next s

/-- PULSE_END (R386, R387): PULSE_NS has elapsed, the pin returns to its inactive level, and a pin to be released to input. -/
def execPulseEnd (u : Fin 32) (s : State) : Host.Outcome State Fault Refusal :=
  match s.time.compare[u] with
  | none => .next s
  | some x =>
    match x.pulse with
    | none => .next s
    | some p =>
      if s.time.ticks < p.endTick then .next s
      else
        let rel := (vget s.time.pins { owner := .free, level := false, release := false } p.pin).release
        let t := (s.mapCompare u.val (fun y => { y with pulse := none })).drivePin p.pin x.pol
        let t := if rel then t.freePin p.pin else t
        .next (if x.handle == 0 && x.plan.isNone && x.done then t.mapTime (fun m => { m with compare := m.compare.set u none }) else t)

/-- Gives up the pin of a compare unit: at the end of the pulse in progress on it, or at once (R386). -/
def State.dropPin (x : CompareUnit) (s : State) : State :=
  match x.pulse with
  | some p => if p.pin = x.pin then s.mapTime (fun t => { t with pins := vmod t.pins x.pin (fun y => { y with release := true }) })
              else s.freePin x.pin
  | none => s.freePin x.pin

/-- Releases a compare unit and its pin. -/
def State.releaseCompare (u : Nat) (s : State) : State :=
  match vget s.time.compare none u with
  | none => s
  | some x =>
    let t := s.dropPin x
    if x.pulse.isSome then t.mapCompare u (fun y => { y with handle := 0, done := true, plan := none })
    else t.mapTime (fun m => { m with compare := vmod m.compare u (fun _ => none) })

/-- The earliest time at or after a start on the grid of a period and a phase (R102). -/
def alignUp (start period phase : Nat) : Nat :=
  if period = 0 then start else if start ≤ phase then phase - (phase - start) / period * period
  else phase + ceilDiv (start - phase) period * period

/-- The output block (Table 14-8) as a compare unit, with its fields checked by offset (R387). -/
def parseOutput (bs : List Byte) (h : Handle) : Chk CompareUnit := do
  let flags := f16 bs 0x00
  let periodic := bitOf flags 1
  let align := bitOf flags 0
  let pulse := f32 bs 0x04
  let period := f32 bs 0x14
  let phase := f32 bs 0x1C
  needFields
    [(0x00, periodic || !align), (0x02, f8 bs 0x02 ≤ 31),
     (0x04, 10 ≤ pulse && pulse ≤ 500000000 && (!periodic || pulse < period)),
     (0x10, f32 bs 0x10 < 1000000000),
     (0x14, if periodic then 1000 ≤ period && period ≤ 4000000000 else period == 0),
     (0x1C, if periodic then phase < period else phase == 0)]
  let start := fld bs 0x08 6 * 1000000000 + f32 bs 0x10
  return { handle := h, periodic := periodic, pol := bitOf flags 2, pin := f8 bs 0x02, pulseNs := pulse,
           first := if align then alignUp start period phase else start, period := period, count := f32 bs 0x18,
           next := 0, outputs := 0, done := false, pulse := none, plan := none }

/-- EVT_OUTPUT_SET (R386, R387): claims, replaces or releases a compare unit and its pin; a first event less than 10 µs ahead is
late (R40). -/
def execEvtOutputSet (c : Cmd) (s : State) : Host.Outcome State Fault Refusal :=
  runCmd .evtOutputSet c s do
    let old ← (if c.handle = 0 then .ok none else (needSome (s.time.compareOf c.handle) (badHandle c.handle 0)).map some)
    let bs ← structBytes s c
    if bitOf (f16 bs 0x00) 3 then
      match old with
      | none => .error (badStruct 0x00)
      | some u => okDone c.handle.toNat u (s.releaseCompare u)
    else do
      let h := if c.handle = 0 then s.nextHandle 0xA else c.handle
      let x ← parseOutput bs h
      let cur := old.bind (fun u => vget s.time.compare none u)
      let keep := (cur.map (fun y => y.pin == x.pin)).getD false
      if keep then .ok () else needPin s x.pin
      let u ← match old with
        | some u => .ok u
        | none => needSome (firstIdx Option.isNone s.time.compare.toList) (notReady 0xC1)
      let late : Bool := x.first < s.ns + 10000
      let k := ceilDiv (s.ns + 10000 - x.first) x.period
      need (!(late && strict c)) (tooLate (if x.periodic then k else nsOf (s.ns + 10000)))
      let y := { x with next := if late && x.periodic then k else 0, first := if late && !x.periodic then s.ns + 10000 else x.first,
                        pulse := cur.bind CompareUnit.pulse }
      let t := match cur with
        | some o => if keep then s else s.dropPin o
        | none => s.issue 0xA
      let t := t.mapTime (fun m => { m with compare := vmod m.compare u (fun _ => some y) })
      let t := if keep then t else t.ownPin x.pin (.compare u)
      let still : Bool := keep && (y.pulse.isSome || (cur.map CompareUnit.pol) == some x.pol)
      let t := if still then t else t.drivePin x.pin x.pol
      if late then
        let d := if x.periodic then k else nsOf (s.ns + 10000)
        let t := t.logEvent { source := 0x0C, code := Status.okAdjusted.code, unit := h, detail := [d] }
        let t := if x.periodic then t else t.mapTime (fun m => { m with late := m.late.satInc })
        return .done .okAdjusted h.toNat u t
      else okDone h.toNat u t

/-! ## Capture units -/

/-- A write range must not meet a pinned range of another owner. -/
def needUnpinnedBut (s : State) (owner : Handle) (a n : Nat) : Chk Unit :=
  match s.pinned.find? (fun p => p.owner != owner && n != 0 && p.base < a + n && a < p.base + p.len) with
  | none => .ok ()
  | some p => .error (conflict p.owner p.id)

/-- EVT_CAPTURE_SET (R386, R388): claims, replaces or releases a capture unit and its pin. -/
def execEvtCaptureSet (c : Cmd) (s : State) : Host.Outcome State Fault Refusal :=
  runCmd .evtCaptureSet c s do
    let old ← (if c.handle = 0 then .ok none else (needSome (s.time.captureOf c.handle) (badHandle c.handle 0)).map some)
    let bs ← structBytes s c
    let cur := old.bind (fun u => vget s.time.capture none u)
    if bitOf (f8 bs 0x00) 0 then
      match old, cur with
      | some u, some o => do
        need (c.aux == 0) (badPacket 0x0C)
        okDone c.handle.toNat u ((s.mapTime (fun m => { m with capture := vmod m.capture u (fun _ => none) })).freePin o.pin)
      | _, _ => .error (badStruct 0x00)
    else do
      let pin := f8 bs 0x01
      let off := f32 bs 0x04
      let n := f32 bs 0x08
      needFields [(0x00, bitsOf (f8 bs 0x00) 2 1 != 0), (0x01, pin ≤ 31), (0x04, off % 64 == 0), (0x08, 16 ≤ n && n ≤ 65536)]
      let b ← needBuffer s c.aux 1
      let a ← needInBuffer s b off (16 * n)
      let h := if c.handle = 0 then s.nextHandle 0xA else c.handle
      needUnpinnedBut s h a (16 * n)
      let keep := (cur.map (fun y => y.pin == pin)).getD false
      if keep then .ok () else needPin s pin
      let u ← match old with
        | some u => .ok u
        | none => needSome (firstIdx Option.isNone s.time.capture.toList) (notReady 0xC2)
      let x : CaptureUnit := { handle := h, edge := bitsOf (f8 bs 0x00) 2 1, pin := pin, buf := c.aux, ringOff := off, records := n,
                               seq := 0, last := none, overrun := false }
      let t := match cur with
        | some o => if keep then s else s.freePin o.pin
        | none => s.issue 0xA
      let t := t.mapTime (fun m => { m with capture := vmod m.capture u (fun _ => some x) })
      okDone h.toNat u (if keep then t else t.ownPin pin (.capture u))

/-- The capture record (Table 14-10). -/
def captureRecord (t : TimeSt) (rising overrun : Bool) (seq : Word) : List Byte :=
  layout 16 [(0x00, 6, secOf t.ns), (0x06, 1, t.stepGen), (0x07, 1, bit01 rising + 2 * bit01 overrun), (0x08, 4, nsOf t.ns),
             (0x0C, 4, seq.toNat)]

/-- CAPTURE_EDGE (R378, R388): a selected edge on a claimed pin is recorded in the ring with the time of the edge; one within 10 ns of
the edge recorded before is not, and the next record has OVERRUN. -/
def execCaptureEdge (n : Fin 32) (rising : Bool) (s : State) : Host.Outcome State Fault Refusal :=
  match (s.time.pins[n]).owner with
  | .capture u =>
    match vget s.time.capture none u with
    | none => .next s
    | some x =>
      let wanted := if rising then bitOf x.edge 0 else bitOf x.edge 1
      let put (y : CaptureUnit) (t : State) : State := t.mapTime (fun m => { m with capture := vmod m.capture u (fun _ => some y) })
      if !wanted then .next s
      else if (x.last.map (fun l => decide (s.time.ticks ≤ l + 4))).getD false then .next (put { x with overrun := true } s)
      else
        match s.buffer x.buf with
        | none => .next s
        | some b =>
          let a := b.base + x.ringOff + 16 * (x.seq.toNat % x.records)
          .next ((put { x with seq := x.seq + 1, last := some s.time.ticks, overrun := false } s).writeMem a
            (captureRecord s.time rising x.overrun x.seq))
  | _ => .next s

/-! ## Steps and rates -/

/-- What a step does to one compare unit, the counter going from old to new ns (R378): how many periodic indices are jumped over,
and whether a once event is. -/
def CompareUnit.jumped (x : CompareUnit) (old new : Nat) : Nat × Bool :=
  if x.done || new ≤ old then (0, false)
  else if x.periodic then
    if x.due ≤ new then
      (if x.period = 0 then 0 else (new - x.due) / x.period + 1, false)
    else (0, false)
  else (0, x.due ≤ new)

/-- The effect of a step on compare unit u (R378, Table 14-6). Skipped indices are not output. -/
def State.stepCompare (old new : Nat) (u : Nat) (s : State) : State :=
  match vget s.time.compare none u with
  | none => s
  | some x =>
    let j := x.jumped old new
    if j.2 then (if x.clear then s.fire u else s).mapTime (fun t => { t with late := t.late.satInc })
    else if j.1 = 0 then s
    else (s.mapCompare u (fun y => { y with next := y.next + j.1 })).mapTime
      (fun t => { t with skipped := BitVec.ofNat 32 (Nat.min (2 ^ 32 - 1) (t.skipped.toNat + j.1)) })

/-- A step of the counter to a new value in 2^-32 ns (R377, R378): STEP_GEN, STEPPED, the event log, the compare units, and an LT_SYNC
with STEP on every channel in service; the fraction that the port interpolates is free. -/
def State.stepTo (v : Nat) (s : State) : State :=
  let old := s.ns
  let d : Int := ((v : Int) - s.time.now) / 65536
  let t := s.mapTime (fun t => { t with
    now := v, stepGen := (t.stepGen + 1) % 256, stepped := true, steps := t.steps.satInc, stepSum := t.stepSum + d,
    ltStep := Vector.replicate 32 true })
  let t := t.logEvent { source := 0x0C, detail := [wrapInt 32 d, wrapInt 32 (d / 2 ^ 32)] }
  ((List.range 32).foldl (fun w u => w.stepCompare old t.ns u) t).tickFresh.sendLtSyncs (Config.freeNat s.fresh % 65536)

/-- TIME_STEP (R376, R377). -/
def execTimeStep (c : Cmd) (s : State) : Host.Outcome State Fault Refusal :=
  runCmd .timeStep c s do
    let abs := bitOf (par c 0) 0
    let neg := bitOf (par c 0) 1
    need (!(abs && neg)) (badParam 0)
    need (!(abs && 1000000000 ≤ par c 3)) (badParam 3)
    need (s.time.mode.corr != 1) (notReady 0xC0)
    let amount : Int := ((par c 1 + 2 ^ 32 * par c 2) * 1000000000 + par c 3) * 2 ^ 32 + par c 4 * 2 ^ 16
    let v : Int := if abs then amount else if neg then s.time.now - amount else s.time.now + amount
    need (0 ≤ v && v < (2 : Int) ^ 48 * 1000000000 * 2 ^ 32) (badParam 1)
    let t := s.stepTo v.toNat
    okDone t.time.stepGen (nsOf t.ns) t

/-- TIME_ADJUST_RATE (R376): replaces RATE; a duration restores the RATE before it. -/
def execTimeAdjustRate (c : Cmd) (s : State) : Host.Outcome State Fault Refusal :=
  runCmd .timeAdjustRate c s do
    let r := sext 32 (par c 1)
    need (r.natAbs ≤ 1000000000) (badParam 1)
    need (par c 2 ≤ 60000) (badParam 2)
    need (s.time.mode.corr != 1) (notReady 0xC0)
    let back := if par c 2 = 0 then none else some { rate := s.time.rate, due := s.time.ticks + par c 2 * 400000 : RateRestore }
    okDone 0 0 (s.mapTime (fun t => { t with rate := r, restore := back }))

/-- RATE_RESTORE (R376): the duration has expired. -/
def execRateRestore (s : State) : Host.Outcome State Fault Refusal :=
  match s.time.restore with
  | none => .next s
  | some r => if r.due ≤ s.time.ticks then .next (s.mapTime (fun t => { t with rate := r.rate, restore := none })) else .next s

/-- TIME_WRITE_INCREMENT (R376). -/
def execTimeWriteIncrement (c : Cmd) (s : State) : Host.Outcome State Fault Refusal :=
  runCmd .timeWriteIncrement c s do
    let v := par c 1 + 2 ^ 32 * par c 2
    need (0x266666666 ≤ v && v ≤ 0x29999999A) (badParam 1)
    need (s.time.mode.corr != 1) (notReady 0xC0)
    okDone 0 0 (s.mapTime (fun t => { t with incr := v }))

/-- The mode block (Table 14-5), its fields checked by offset (R379). -/
def parseMode (bs : List Byte) : Chk TimeMode := do
  let b0 := f8 bs 0x00
  let b1 := f8 bs 0x01
  let role := bitsOf b0 2 0
  let profile := bitsOf b0 4 3
  let tc := bitOf b0 6
  let tr := bitsOf b1 3 2
  let ports := bitsOf b1 7 4
  let s8 (o : Nat) : Int := sext 8 (f8 bs o)
  needFields
    [(0x00, role ≤ 4 && profile ≤ 2 && !(profile == 2 && (role == 4 || tc)) && !(tc && role == 3)),
     (0x01, bitsOf b1 1 0 ≤ 1 && !(profile == 2 && tr != 1) && (role == 0 || (tr != 0 && ports != 0))),
     (0x02, f8 bs 0x02 ≤ 127),
     (0x08, -7 ≤ s8 0x08 && s8 0x08 ≤ 4), (0x09, -7 ≤ s8 0x09 && s8 0x09 ≤ 5), (0x0A, -3 ≤ s8 0x0A && s8 0x0A ≤ 4),
     (0x0B, 2 ≤ f8 bs 0x0B && f8 bs 0x0B ≤ 10),
     (0x0C, f32 bs 0x0C == 0 || (1000 ≤ f32 bs 0x0C && f32 bs 0x0C ≤ 1000000000)), (0x10, f32 bs 0x10 ≤ 1000000000)]
  let sel (v d : Nat) : Nat := if v = 0 then d else v
  return { role := role, profile := profile, oneStep := bitOf b0 5, tcEn := tc, stepLocked := bitOf b0 7, corr := bitsOf b1 1 0,
           transport := tr, ports := ports, domain := f8 bs 0x02, priority1 := f8 bs 0x04, priority2 := f8 bs 0x05,
           clockClass := f8 bs 0x06, clockAcc := f8 bs 0x07, logSync := s8 0x08, logDelay := s8 0x09, logAnn := s8 0x0A,
           annTimeout := f8 bs 0x0B, stepThresh := sel (f32 bs 0x0C) 100000, maxRate := sel (f32 bs 0x10) 200000000,
           kp := sel (f16 bs 0x14) 0x0B33, ki := sel (f16 bs 0x16) 0x04CD, srcIp := BitVec.ofNat 32 (f32 bs 0x18) }

/-- The port state that a change of mode leaves (R379): LISTENING on the ports enabled while a role runs. -/
def listenState (m : TimeMode) (p : Nat) : PortState := if m.role != 0 && bitOf m.ports p then .listening else .notPtp

/-- TIME_SET_MODE (R374, R379): takes effect at dispatch and never steps the counter. -/
def execTimeSetMode (c : Cmd) (s : State) : Host.Outcome State Fault Refusal :=
  runCmd .timeSetMode c s do
    let bs ← structBytes s c
    let m ← parseMode bs
    let o := s.time.mode
    let again := m.role != o.role || m.profile != o.profile || m.domain != o.domain || m.ports != o.ports
    let toServo := m.corr == 1 && o.corr != 1
    okDone s.time.stepGen 0 (s.mapTime (fun t => { t with
      mode := m, acc := if toServo then -t.rate else t.acc, restore := if toServo then none else t.restore,
      gm := if again then none else t.gm,
      ports := if again then vmapIdx t.ports (fun p x => { x with state := listenState m p, follow := none, delay := none,
                                                                  lastSync := none, best := none }) else t.ports }))

/-! ## PTP -/

/-- The counter at a port, in 2^-16 ns, with the fraction that the port interpolates (R370, R381). -/
def TimeSt.portStamp (t : TimeSt) (frac : Half) : Int := (t.ns * 65536 + frac.toNat : Nat)

/-- The asymmetry of an Ethernet port in 2^-16 ns (R382). -/
def TimeSt.asymOf (t : TimeSt) (p : Fin 4) : Int := sext 32 (t.asym[p]).toNat

/-- Applies a function to a PTP port. -/
def State.mapPort (p : Fin 4) (f : PtpPort → PtpPort) (s : State) : State :=
  s.mapTime (fun t => { t with ports := t.ports.set p (f t.ports[p]) })

/-- Whether a message of a domain is for this PTP port (R380). -/
def TimeSt.mine (t : TimeSt) (p : Fin 4) (domain : Nat) : Bool :=
  t.mode.role != 0 && t.mode.role != 4 && bitOf t.mode.ports p.val && domain == t.mode.domain

/-- Admits an event message on a port: at most 128 per second are terminated, the rest is discarded and counted (R380). -/
def PtpPort.takeEvent (x : PtpPort) (now : Nat) : PtpPort × Bool :=
  let y := if x.secondStart + 400000000 ≤ now then { x with secondStart := now, eventsThisSecond := 0 } else x
  if y.eventsThisSecond < 128 then ({ y with eventsThisSecond := y.eventsThisSecond + 1 }, true)
  else ({ y with discarded := y.discarded.satInc }, false)

/-- Whether the link of an Ethernet port is up. -/
def State.linked (s : State) (p : Nat) : Bool := (vget s.lanes.ports EthPort.reset p).link

/-- Whether a port sends and receives: its link is up, and its lane is not in calibration (R357). -/
def State.ethOpen (s : State) (p : Nat) : Bool := (s.eth p).link && (s.lanes.lane (24 + p)).state != .calibrating

/-- An event message that a port receives: discarded and counted where it is not for the port or beyond the rate, else handled. -/
def State.eventMsg (p : Fin 4) (domain : Nat) (s : State) (handle : State → State) : State :=
  if !s.ethOpen p.val then s
  else if !s.time.mine p domain then s.mapPort p (fun x => { x with discarded := x.discarded.satInc })
  else
    let r := (s.time.ports[p]).takeEvent s.time.ticks
    let t := s.mapPort p (fun _ => r.1)
    if r.2 then handle t else t

/-- A loss of lock is counted and entered in the event log (R373). -/
def State.loseLock (s : State) : State :=
  if s.time.locked then
    (s.mapTime (fun t => { t with locked := false, lockRun := 0, lockLosses := t.lockLosses.satInc })).logEvent { source := 0x0C }
  else s.mapTime (fun t => { t with lockRun := 0 })

/-- The lock state after a measurement of an offset in 2^-16 ns (R373). -/
def State.lockStep (o : Int) (s : State) : State :=
  if 1000 * 65536 < o.natAbs then s.loseLock
  else if o.natAbs ≤ 100 * 65536 then
    let n := s.time.lockRun + 1
    if 8 ≤ n && !s.time.locked then (s.mapTime (fun t => { t with lockRun := n, locked := true })).logEvent { source := 0x0C }
    else s.mapTime (fun t => { t with lockRun := n })
  else s.mapTime (fun t => { t with lockRun := 0 })

/-- kp or ki (u4.12) times y, y = o / t_sync in 10^-12, rounded to the nearest (DESIGN CHOICE, log 16). o is in 2^-16 ns and
t_sync is 2^logSync s. -/
def servoTerm (k : Nat) (o : Int) (logSync : Int) : Int :=
  if logSync < 0 then roundDiv (k * o * 1000 * 2 ^ (-logSync).toNat) (4096 * 65536)
  else roundDiv (k * o * 1000) (4096 * 65536 * 2 ^ logSync.toNat)

/-- The servo at a measurement (R375, R377): a step, or a new integral and rate. -/
def State.servo (o : Int) (s : State) : State :=
  let m := s.time.mode
  if m.stepThresh * 65536 < o.natAbs ∧ (!s.time.locked || m.stepLocked) = true then
    ((s.stepTo (s.time.now - o * 65536).toNat)).mapTime (fun t => { t with acc := 0 })
  else
    let acc := clampInt (-m.maxRate) m.maxRate (s.time.acc + servoTerm m.ki o m.logSync)
    let rate := clampInt (-m.maxRate) m.maxRate (-(servoTerm m.kp o m.logSync) - acc)
    s.mapTime (fun t => { t with acc := acc, rate := rate })

/-- A measurement of an offset (R373 to R375): OFFSET and MEAS_SEQ, the lock state, and the servo under STEP_RATE. -/
def State.measure (o : Int) (s : State) : State :=
  let t := (s.mapTime (fun t => { t with offset := o, measSeq := t.measSeq + 1, holdover := false })).lockStep o
  if t.time.mode.corr = 1 then t.servo o else t

/-- Completes a Sync with its origin time: the offset is t2 − t1 − correction − delay − asymmetry (R382). MEAN_DELAY is the delay that was taken:
the mean path delay under profile 0, meanLinkDelay under the others. -/
def State.syncMeasured (p : Fin 4) (t1 t2 corr : Int) (s : State) : State :=
  let x := s.time.ports[p]
  if x.state == .slave || x.state == .uncalibrated then
    let raw := t2 - t1 - corr
    let delay : Int := if s.time.mode.profile = 0 then (s.time.meanDelay : Int) else (x.linkDelay.toNat : Int)
    ((s.mapPort p (fun y => { y with lastSync := some (t1 + corr, t2), state := .slave })).mapTime (fun t => { t with meanDelay := delay.toNat })).measure (raw - s.time.asymOf p - delay)
  else s

/-- SYNC (R375, R380 to R382): a Sync of a domain arrives on a port, one-step with its origin time t1, or two-step. -/
def execSync (p : Fin 4) (domain seq : Nat) (twoStep : Bool) (t1 corr : Int) (frac : Half) (s : State) : Host.Outcome State Fault Refusal :=
  .next (s.eventMsg p domain fun t =>
    let t2 := t.time.portStamp frac
    let t := t.mapPort p (fun x => { x with syncRx := x.syncRx.satInc })
    if twoStep then t.mapPort p (fun x => { x with follow := some { seq := seq, t2 := t2, corr := corr } })
    else t.syncMeasured p t1 t2 corr)

/-- FOLLOW_UP (R375, R380): completes the two-step Sync of the same sequence. -/
def execFollowUp (p : Fin 4) (domain seq : Nat) (t1 corr : Int) (s : State) : Host.Outcome State Fault Refusal :=
  if !s.ethOpen p.val then .next s
  else if !s.time.mine p domain then .next (s.mapPort p (fun x => { x with discarded := x.discarded.satInc }))
  else match (s.time.ports[p]).follow with
    | some a =>
      if a.seq = seq then .next ((s.mapPort p (fun x => { x with follow := none })).syncMeasured p t1 a.t2 (a.corr + corr))
      else .next s
    | none => .next s

/-- DELAY_REQ (R380, R381): a master port answers with Delay_Resp and its receive stamp. -/
def execDelayReq (p : Fin 4) (domain seq : Nat) (corr : Int) (frac : Half) (s : State) : Host.Outcome State Fault Refusal :=
  .next (s.eventMsg p domain fun t =>
    let t4 := t.time.portStamp frac
    let t := t.mapPort p (fun x => { x with delayRx := x.delayRx.satInc })
    if (t.time.ports[p]).state = .master then t.emit (.ptp p.val 0x9 seq t4 corr) else t)

/-- DELAY_RESP (R380, R382): the mean path delay is half the sum of the two paths. -/
def execDelayResp (p : Fin 4) (domain seq : Nat) (t4 corr : Int) (s : State) : Host.Outcome State Fault Refusal :=
  if !s.ethOpen p.val then .next s
  else if !s.time.mine p domain then .next (s.mapPort p (fun x => { x with discarded := x.discarded.satInc }))
  else match (s.time.ports[p]).delay, (s.time.ports[p]).lastSync with
    | some d, some (t1, t2) =>
      if d.seq = seq then
        let mean := ((t2 - d.tx) + (t4 - corr - t1)) / 2
        .next ((s.mapPort p (fun x => { x with delay := none })).mapTime (fun t => { t with meanDelay := mean.toNat % 2 ^ 32 }))
      else .next s
    | _, _ => .next s

/-- PDELAY_REQ (R380): answered with Pdelay_Resp, and with its follow-up where ONE_STEP is clear. -/
def execPdelayReq (p : Fin 4) (domain seq : Nat) (corr : Int) (frac : Half) (s : State) : Host.Outcome State Fault Refusal :=
  .next (s.eventMsg p domain fun t =>
    let t2 := t.time.portStamp frac
    let t := t.mapPort p (fun x => { x with delayRx := x.delayRx.satInc })
    let t := t.emit (.ptp p.val 0x3 seq t2 corr)
    if t.time.mode.oneStep then t else t.emit (.ptp p.val 0xA seq (t.time.portStamp frac) 0))

/-- PDELAY_RESP (R380): a one-step response gives meanLinkDelay, a two-step one waits for its follow-up. -/
def execPdelayResp (p : Fin 4) (domain seq : Nat) (twoStep : Bool) (rxPeer corr : Int) (frac : Half) (s : State) :
    Host.Outcome State Fault Refusal :=
  .next (s.eventMsg p domain fun t =>
    match (t.time.ports[p]).delay with
    | some d =>
      if d.seq = seq then
        let t4 := t.time.portStamp frac
        if twoStep then t.mapPort p (fun x => { x with delay := some { d with rxPeer := some rxPeer, arrival := t4, corr := corr } })
        else t.mapPort p (fun x => { x with delay := none, linkDelay := BitVec.ofNat 32 ((t4 - d.tx - corr) / 2).toNat })
      else t
    | none => t)

/-- PDELAY_RESP_FOLLOW_UP (R380): meanLinkDelay = ((t4 − t1) − (t3 − t2) − corrections) / 2. -/
def execPdelayRespFollowUp (p : Fin 4) (domain seq : Nat) (txPeer corr : Int) (s : State) : Host.Outcome State Fault Refusal :=
  if !s.ethOpen p.val then .next s
  else if !s.time.mine p domain then .next (s.mapPort p (fun x => { x with discarded := x.discarded.satInc }))
  else match (s.time.ports[p]).delay with
    | some d =>
      match d.rxPeer with
      | some t2 =>
        if d.seq = seq then
          .next (s.mapPort p (fun x => { x with
            delay := none, linkDelay := BitVec.ofNat 32 (((d.arrival - d.tx) - (txPeer - t2) - d.corr - corr) / 2).toNat }))
        else .next s
      | none => .next s
    | none => .next s

/-- The clock identity of the device: the MAC base address with 0xFFFE inserted (R380). -/
def clockId (mac : Nat) : Nat := mac / 2 ^ 24 * 2 ^ 40 + 0xFFFE * 2 ^ 24 + mac % 2 ^ 24

/-- The order of the best master clock algorithm: smaller is better (IEEE 1588-2019, PRESUMED, log 17). -/
def announceKey (a : Announce) : List Nat :=
  [a.priority1, a.clockClass, a.clockAcc, a.variance, a.priority2, a.gmId, a.stepsRemoved, a.senderId]

/-- Lexicographic order of two keys. -/
def keyLt : List Nat → List Nat → Bool
  | [], _ => false
  | _ :: _, [] => false
  | a :: as, b :: bs => a < b || (a == b && keyLt as bs)

/-- The device's own data set (Table 14-5). -/
def State.ownClock (s : State) : Announce :=
  let m := s.time.mode
  { gmId := clockId s.dev.macBase, priority1 := m.priority1, priority2 := m.priority2, clockClass := m.clockClass,
    clockAcc := m.clockAcc, variance := 0, stepsRemoved := 0, senderId := clockId s.dev.macBase }

/-- The better of two data sets. -/
def better (a b : Option Announce) : Option Announce :=
  match a, b with
  | some x, some y => if keyLt (announceKey y) (announceKey x) then some y else some x
  | some x, none => some x
  | none, y => y

/-- The port states that the best master clock algorithm decides (R380): slave on the port of the best clock, master where the
device's own clock or its port to the best is better, passive elsewhere; a slave-only clock, and a port without link, listens instead. -/
def State.ptpDecide (s : State) : State :=
  let m := s.time.mode
  let best := s.time.ports.toList.foldl (fun b x => better b x.best) none
  let own := s.ownClock
  let ownWins := m.role != 1 && (match best with | none => true | some b => keyLt (announceKey own) (announceKey b))
  let next (p : Nat) (x : PtpPort) : PtpPort :=
    if x.state == .notPtp then x
    else if !s.linked p then { x with state := .listening }
    else if ownWins then { x with state := .master }
    else if x.best == best && best.isSome then { x with state := if x.state == .slave then .slave else .uncalibrated }
    else if m.role == 1 then { x with state := .listening }
    else if x.best.isNone then { x with state := .master }
    else { x with state := .passive }
  s.mapTime (fun t => { t with ports := vmapIdx t.ports next, gm := if ownWins then none else best })

/-- ANNOUNCE (R380): an Announce arrives and feeds the best master clock algorithm. -/
def execAnnounce (p : Fin 4) (domain : Nat) (a : Announce) (s : State) : Host.Outcome State Fault Refusal :=
  if !s.ethOpen p.val then .next s
  else if !s.time.mine p domain then .next (s.mapPort p (fun x => { x with discarded := x.discarded.satInc }))
  else .next (s.mapPort p (fun x => { x with announceRx := x.announceRx.satInc, best := some a })).ptpDecide

/-- PTP_MESSAGE_INTERVAL (R380): kind 0 Sync and 1 Announce from a master port, kind 2 the delay request of a slave port or of the
peer delay mechanism. A port that sends nothing for now sends none of them. -/
def execPtpMessageInterval (p : Fin 4) (kind : Nat) (frac : Half) (s : State) : Host.Outcome State Fault Refusal :=
  let x := s.time.ports[p]
  let m := s.time.mode
  let stamp := s.time.portStamp frac
  if !s.ethOpen p.val then .next s
  else if kind = 0 then
    if x.state = .master then
      let t := (s.mapPort p (fun y => { y with syncTx := y.syncTx.satInc, seqSync := y.seqSync + 1 })).emit (.ptp p.val 0x0 x.seqSync.toNat stamp 0)
      .next (if m.oneStep then t else t.emit (.ptp p.val 0x8 x.seqSync.toNat stamp 0))
    else .next s
  else if kind = 1 then
    if x.state = .master then .next (s.emit (.ptp p.val 0xB x.seqSync.toNat stamp 0)) else .next s
  else if x.state == .notPtp then .next s
  else if m.profile != 0 || x.state == .slave || x.state == .uncalibrated then
    .next ((s.mapPort p (fun y => { y with
      seqDelay := y.seqDelay + 1,
      delay := some { seq := x.seqDelay.toNat, tx := stamp, rxPeer := none, arrival := 0, corr := 0 } })).emit
      (.ptp p.val (if m.profile = 0 then 0x1 else 0x2) x.seqDelay.toNat stamp 0))
  else .next s

/-- ANNOUNCE_TIMEOUT (R373): no Sync within ANNOUNCE_TIMEOUT announce intervals; lock is lost, HOLDOVER is set and RATE is kept. A port
that listens decides anew, and may become master (IEEE 1588-2019). -/
def execAnnounceTimeout (p : Fin 4) (s : State) : Host.Outcome State Fault Refusal :=
  let x := s.time.ports[p]
  if x.state == .slave || x.state == .uncalibrated then
    .next (((s.loseLock.mapTime (fun t => { t with holdover := true })).mapPort p
      (fun y => { y with state := .listening, best := none, follow := none, delay := none, lastSync := none })).ptpDecide)
  else if x.state == .listening then .next (s.mapPort p (fun y => { y with best := none })).ptpDecide
  else .next s

end Sys2Proof.Machine
end

