-- ==== Sys2Proof/Machine/Ingest.lean ====
section
/-!
DEFINITION. Camera ingest (chapter 03): starts of frame and their ledger records, lines and their repair, cells and their order,
timing cells, parallel capture ports, and the triggers whose frames never come.
-/
namespace Sys2Proof.Machine

/-! ## Records and closing -/

/-- Whether a plan has a trigger of an index. -/
def TrigPlan.has (p : TrigPlan) (i : Nat) : Bool := match p.stop with | none => true | some n => Nat.blt i n

/-- A plan whose last trigger has been settled, by its frame or by none, ends, and its pin and unit are released (R104). -/
def State.endPlan (cam : Nat) (s : State) : State :=
  let c := s.cam cam
  match c.plan with
  | none => s
  | some p =>
    if p.held || p.has p.sent || !c.triggers.isEmpty then s
    else
      let t := s.mapCam cam (fun x => { x with plan := none })
      match p.unit with
      | some u => t.releaseCompare u
      | none => t

/-- A context's STOPPING ends when every record of the run is CLOSED (R72): it becomes CONFIGURED, or IDLE with RELEASE. Where no frame was accepted,
the last FN accepted is returned as 0xFFFF_FFFF (DESIGN CHOICE, log 27). -/
def State.stopIfDone (cam : Nat) (s : State) : State :=
  let c := s.cam cam
  match c.stop with
  | none => s
  | some q =>
    if c.state != .stopping || !c.frames.isEmpty || !c.triggers.isEmpty then s
    else
      let last := (c.lastFn.map (· % 2 ^ 32)).getD 0xFFFFFFFF
      let t := s.runEnded cam
      let t := if q.release then t.releaseCtx cam
               else t.mapCam cam (fun x => { x with state := .configured, stop := none, span := 0, held := [], nextSeq := none,
                                                    asm := none, dropping := false })
      q.by_.foldl (fun (u : State) (r : CmdRef) => u.finish r .ok last q.discarded false) t.jmSettle.handOn

/-- The record of an FN that is dropped is written CLOSED (R21, R91, R165). -/
def State.closeDropped (cam : Nat) (r : LedgerRec) (cause : Nat) (s : State) : State :=
  let r := { r with closed := true, cause := cause, statSlot := 0xFFFF, statAddr := 0, tnrRef := 0xFFFFFFFF, motionRef := 0xFFFFFFFF }
  let t := (s.putRecord (r.flag 0)).countCam cam (fun n => { n with
    dropQueue := if cause = 1 then n.dropQueue.satInc else n.dropQueue,
    dropShed := if cause = 2 then n.dropShed.satInc else n.dropShed,
    dropMissing := if cause = 3 then n.dropMissing.satInc else n.dropMissing,
    uncertain := if r.has 13 then n.uncertain.satInc else n.uncertain })
  ((t.frameDropped cam r.fn).post .frameDropped (s.cam cam).handle).endPlan cam

/-- An accepted frame is given up whole: its slots and its place are free, and its record closes DROPPED (R72). -/
def State.dropFrame (cam : Nat) (f : CamFrame) (cause : Nat) (s : State) : State :=
  let t := s.mapCam cam (fun c => { c with
    frames := c.frames.filter (fun x => x.fn != f.fn),
    taps := vmapIdx c.taps (fun i r => r.abandon (vget f.tapSlots none i)),
    outs := vmapIdx c.outs (fun i r => r.abandon (vget f.outSlots none i)),
    past := c.past.filter (fun x => x.fn != f.fn),
    fieldRing := match f.fieldPlace with | some i => vmod c.fieldRing i (fun _ => FieldSlot.empty) | none => c.fieldRing,
    dropping := c.dropping || !f.arrived, asm := if f.arrived then c.asm else none })
  t.closeDropped cam f.rcd cause

/-! ## Start of frame -/

/-- The noise coefficients of a channel at a gain (R122): linear in log2 of the gain between the enclosing points, the end points
outside. How an interpolated coefficient is rounded to binary32 is left open (log 25). -/
def noiseAt (key : List Nat) (t : List Byte) (gain : Nat) (ch : Nat) : Nat × Nat :=
  let n := f16 t 4
  let g (i : Nat) : Rat := ofF32 (f32 t (32 + 36 * i))
  let a (i : Nat) : Nat := f32 t (36 + 36 * i + 8 * ch)
  let b (i : Nat) : Nat := f32 t (40 + 36 * i + 8 * ch)
  let x : Rat := (gain : Rat) / (2 ^ 24 : Nat)
  match (List.range n).find? (fun i => x ≤ g i) with
  | none => (a (n - 1), b (n - 1))
  | some 0 => (a 0, b 0)
  | some i =>
    if x = g i then (a i, b i)
    else
      let w := log2Rat (x / g (i - 1)) / log2Rat (g i / g (i - 1))
      let mix (k : Nat) (f : Nat → Nat) : Nat :=
        if f (i - 1) = f i then f i else nearF32 (k :: key) (ofF32 (f (i - 1)) + w * (ofF32 (f i) - ofF32 (f (i - 1))))
      (mix 0 a, mix 1 b)

/-- The NOISE words of a record (Table 06-1): zero where unused. The key is that of the frame. -/
def noiseWords (key : List Nat) (p : List Byte) (t : Option (List Byte)) (pipe : PipeSet) : List Nat :=
  (List.range 3).flatMap (fun e => (List.range 4).flatMap (fun ch =>
    match t with
    | some tb => if e < pfNexp p && (pfChannels p).contains ch then
        let n := noiseAt ([0x41, e, ch] ++ key) tb (vget pipe.g 0 e) ch
        [n.1, n.2] else [0, 0]
    | none => [0, 0]))

/-- Whether two sets differ in the raw or colour part (PARAM_GEN). -/
def ParamSet.differs (a b : ParamSet) : Bool :=
  { a with taps := b.taps, stats := b.stats, lambda := b.lambda, tpred := b.tpred, tnrReset := b.tnrReset } != b

/-- How far a trigger lies from an exposure start. -/
def Trigger.off (t : Trigger) (exp : Nat) : Nat := Nat.max t.time exp - Nat.min t.time exp

/-- Whether a trigger is one that a frame exposed at a time matches: within half a period (R86), and fired. -/
def Trigger.fits (t : Trigger) (exp now : Nat) : Bool := t.time ≤ now && 2 * t.off exp ≤ t.period

/-- Whether two entries are the same trigger. -/
def Trigger.same (t u : Trigger) : Bool := u.index == t.index && u.time == t.time

/-- Gives FNs to the triggers before a time that have none yet: each trigger consumes one FN (R86). -/
def CamCtx.settle (c : CamCtx) (before : Nat) : CamCtx :=
  c.triggers.foldl (fun (x : CamCtx) (t : Trigger) =>
    if t.fn.isNone && t.time < before then
      { x with fnNext := x.fnNext + 1,
               triggers := updWhere t.same (fun u => { u with fn := some x.fnNext }) x.triggers }
    else x) c

/-- The record of an FN at its start of frame (R165), with the settings in force. -/
def CamCtx.newRecord (c : CamCtx) (cam fn : Nat) (sof exp trigger hubFc : Nat) (l : Latched) (noise : List Nat) : LedgerRec :=
  let v := c.valuesAt fn
  let r : LedgerRec :=
    { fn := fn, run := c.run, cam := cam, closed := false, cause := 0, flags := 0, tnrRef := 0xFFFFFFFF, exp := exp, trigger := trigger,
      sof := sof, motionRef := 0xFFFFFFFF, sensorApply := c.sensorApplyAt fn, pipeApply := l.pipeApply, paramGen := c.paramGen,
      hubFc := hubFc, poisonTiles := 0, pipe := l.pipe, known := v.2, limited := l.limited, statSlot := 0xFFFF, statAddr := 0,
      noise := noise, values := v.1 }
  let unsure := (pfLedgered c.profile).any (fun g => !bitOf v.2 g)
  let r := if unsure then r.flag 13 else r
  let r := if l.limited = 0 then r else r.flag 14
  let r := if l.adjusted then r.flag 15 else r
  if l.hubLate then r.flag 18 else r

/-- The index of a frame slot that no frame holds, the lowest; none when the queue is full (R91). -/
def CamCtx.freeSlot (c : CamCtx) : Option Nat :=
  (List.range (pfQdepth c.profile)).find? (fun i => c.frames.all (fun f => f.slot != i))

/-- Whether a drop class is shed at a backlog (R94). -/
def State.sheds (s : State) (cls : Nat) : Bool :=
  let b := s.backlog
  let f := s.host.feat
  match cls with
  | 3 => f.shed3 ≤ b
  | 2 => f.shed2 ≤ b
  | 1 => f.shed1 ≤ b
  | _ => false

/-- Puts a configured ring in force at a start of frame where it is not the one in force (R134, R157). -/
def Ring.inForce (r : Ring) (cfg : Option (Nat × Nat × Nat × Nat)) : Ring :=
  match cfg with
  | none => Ring.absent
  | some (id, base, size, slots) => if r.id = id then r else Ring.fresh id base size slots

/-- The rings of a context at a latch: those of the set, new ones where a configure has taken effect. -/
def CamCtx.latchRings (c : CamCtx) : CamCtx :=
  let stat := c.statRing.inForce (c.next.stats.map (fun t => (t.id, t.base, t.slotSize, t.slots)))
  let used := c.frames.any (fun f => (f.set.stats.map StatCfg.id) == some c.statRing.id)
  { c with
    statOld := if stat.id != c.statRing.id && used then c.statOld ++ [c.statRing] else c.statOld,
    taps := vmapIdx c.taps (fun i r => r.inForce ((vget c.next.taps none i).map (fun t => (t.id, t.base, t.slotSize, t.slots)))),
    outs := vmapIdx c.outs (fun i r => r.inForce ((vget c.next.outs none i).map (fun t => (t.id, t.base, t.slotSize, t.slots)))),
    statRing := stat }

/-- Takes the slots of a frame in its taps and outputs; a frame whose FN is not a multiple of EVERY takes none. The last component says which wanted
slots were not free. -/
def CamCtx.takeSlots (c : CamCtx) (fn : Nat) : CamCtx × Vector (Option Nat) 2 × Vector (Option Nat) 4 × (Vector Bool 2 × Vector Bool 4) :=
  let tapWant (i : Nat) : Bool := ((vget c.next.taps none i).map (fun t => fn % t.every == 0)).getD false
  let outWant (i : Nat) : Bool := ((vget c.next.outs none i).map (fun t => fn % t.every == 0)).getD false
  let tapHold (i : Nat) : List Handle := [vget c.tapOwner 0 i]
  let outHold (i : Nat) : List Handle := vget c.consumers [] i ++
    (if ((vget c.next.outs none i).map OutCfg.hostRead).getD false then [0] else [])
  let tp := vmapIdx c.taps (fun i r => if tapWant i then r.take fn c.run (tapHold i) else (r, none))
  let op := vmapIdx c.outs (fun i r => if outWant i then r.take fn c.run (outHold i) else (r, none))
  let c2 := { c with taps := vmapIdx tp (fun _ x => x.1), outs := vmapIdx op (fun _ x => x.1) }
  let tSlots : Vector (Option Nat) 2 := vmapIdx tp (fun _ x => x.2)
  let oSlots : Vector (Option Nat) 4 := vmapIdx op (fun _ x => x.2)
  let tMiss : Vector Bool 2 := vmapIdx tp (fun i x => tapWant i && x.2.isNone)
  let oMiss : Vector Bool 4 := vmapIdx op (fun i x => outWant i && x.2.isNone)
  (c2, tSlots, oSlots, (tMiss, oMiss))

/-- Takes the next entry of the field ring (R193), none where it is still held. -/
def CamCtx.takeField (c : CamCtx) (fn : Nat) (noRef : Bool) : CamCtx × Option Nat :=
  let x := vget c.fieldRing FieldSlot.empty c.fieldNext
  if x.used && (!x.holders.isEmpty || x.asRef || x.tnr) then (c, none)
  else ({ c with fieldNext := (c.fieldNext + 1) % 16,
                 fieldRing := vmod c.fieldRing c.fieldNext (fun _ =>
                   { used := true, fn := fn, partial_ := false, noRef := noRef, holders := [], asRef := true, tnr := true }) },
        some c.fieldNext)

/-- Whether temporal noise reduction is enabled in a set. -/
def ParamSet.tnrOn (x : ParamSet) : Bool := (vget x.stages { on := false, blk := [] } 5).on

/-- The predecessor of an FN: the accepted frame of the run with the highest lower FN that is not dropped (R93). -/
def CamCtx.predOf (c : CamCtx) (fn : Nat) : Option PastFrame := minBy (fun p => fn - p.fn) (c.past.filter (fun p => p.fn < fn))

/-- The acceptance of a frame at its start of frame (R91, R165): the staged set latches, slots are taken, and the frame joins the
queue. -/
def State.acceptFrame (cam fn slot : Nat) (r : LedgerRec) (s : State) : State :=
  let c := s.cam cam
  let set := c.next
  let gen := c.paramGen + (if set.differs c.last then 1 else 0)
  let k := (c.latchRings).takeSlots fn
  let pred := c.predOf fn
  let fl := k.1.takeField fn pred.isNone
  let c2 := fl.1
  let pz (kind : Nat) : Bool := match vget set.tables none kind with
    | some t => (s.mem.mem.poisonIn t.addr t.len).isSome
    | none => false
  let expands := bitOf (f8 (vget set.stages { on := false, blk := [] } 0).blk 0) 1
  let bypass := (if pz 4 then [4] else []) ++ (if expands && pz 5 then [5] else [])
  let tnr := set.tnrOn && !pz 4
  let tg := vget r.pipe.t 0 0 * vget r.pipe.g 0 0
  let predTg := (pred.map PastFrame.tg).getD 0
  let ratio := tnrRatio cam c.run fn tg predTg
  let inRange := 1 / 8 ≤ ratio && ratio ≤ 8
  let reset := tnr && (!((pred.map PastFrame.tnr).getD false) || set.tnrReset || !inRange)
  let plane := 1 - (pred.map PastFrame.plane).getD 1
  let noise := noiseWords [cam, c.run, fn] c.profile (if pz 4 then none else (vget set.tables none 4).map (fun t => s.readMem t.addr t.len)) r.pipe
  let miss := k.2.2.2
  let anyOut := miss.2.toList.any id
  let r := { r with paramGen := gen, noise := noise, motionRef := (pred.map (·.fn % 2 ^ 32)).getD 0xFFFFFFFF,
                    tnrRef := if tnr && !reset then (pred.map (·.fn % 2 ^ 32)).getD 0xFFFFFFFF else 0xFFFFFFFF,
                    statSlot := 0xFFFF }
  let r := if miss.1.toList.any id then r.flag 11 else r
  let r := if anyOut then r.flag 12 else r
  let r := if bypass.isEmpty then r else r.flag 10
  let f : CamFrame :=
    { fn := fn, slot := slot, set := set, rcd := r, deadline := r.sof / 65536 + pfAllow c.profile * c.period / 16,
      stored := Vector.replicate 3 0, arrived := false, short := false, fields := 0, fieldBad := [], fieldPlace := fl.2, stripes := [],
      released := 0, tnrReset := reset, tapSlots := k.2.1, outSlots := k.2.2.1, stats := [],
      defects := 0, ghosts := 0, clips := 0, ndviBad := 0, badTiles := [], lost := [], bypassed := bypass, lookOff := false,
      tapPoison := Vector.replicate 2 false, outPoison := Vector.replicate 4 false, predFn := pred.map PastFrame.fn, predTg := predTg,
      tnrWrite := plane, proxy := c2.proxyNext, predProxy := (pred.map PastFrame.proxy).getD ((c2.proxyNext + 2) % 3), sums := [], oldSums := false, bandTimes := [],
      motionEpoch := if (s.mgmt.units.unitOf .motionU 0).isSome then s.mgmt.units.epochOf .motionU 0 else 0 }
  let t := s.mapCam cam (fun _ => { c2 with
    last := set, next := { set with tnrReset := false }, paramGen := gen, frames := c2.frames ++ [f], lastFn := some fn,
    past := ({ fn := fn, tg := tg, tnr := tnr, plane := if tnr then plane else 1 - plane, proxy := c2.proxyNext } :: c2.past).take 8,
    proxyNext := (c2.proxyNext + 1) % 3, dropping := false })
  let t := t.countCam cam (fun n => { n with
    accepted := n.accepted.satInc, slotsMax := Nat.max n.slotsMax (c2.frames.length + 1),
    tap0 := if vget miss.1 false 0 then n.tap0.satInc else n.tap0, tap1 := if vget miss.1 false 1 then n.tap1.satInc else n.tap1,
    outSkips := vmapIdx n.outSkips (fun i w => if vget miss.2 false i then w.satInc else w),
    bypass := if bypass.isEmpty then n.bypass else n.bypass.satInc,
    tnrResets := if reset then n.tnrResets.satInc else n.tnrResets })
  (t.putRecord r).frameAccepted cam f

/-- A start of frame (R85, R86, R91): the FN, the record, what latches, and whether the frame is accepted. fc is the hub frame count
modulo 16, sof the stamp in 2^-16 ns. -/
def State.startFrame (cam sof fc : Nat) (s : State) : State :=
  let c0 := s.cam cam
  let p := c0.profile
  let timed := c0.timing.find? (fun x => x.1 % 16 == fc)
  let guess := sof - pfExpToSof p * 65536
  let expNs := ((timed.map (·.2)).getD guess) / 65536
  let planned := match c0.plan with | some q => !q.held | none => !c0.triggers.isEmpty
  let hit := minBy (fun t => t.off expNs) (c0.triggers.filter (fun t => t.fits expNs s.ns))
  let c1 := match hit with
    | some t => c0.settle (t.time + 1)
    | none => let c := c0.settle (s.ns + 1); { c with fnNext := c.fnNext + 1 }
  let fn := match hit with
    | some t => ((c1.triggers.find? t.same).bind Trigger.fn).getD c1.fnNext
    | none => c1.fnNext - 1
  let exp := match timed, hit with
    | some x, _ => x.2
    | none, some t => t.time * 65536
    | none, none => guess
  let c2 := { c1 with
    triggers := match hit with
      | some t => c1.triggers.filter (fun u => !t.same u)
      | none => c1.triggers,
    sofOffs := match hit with
      | some t => (((sof : Int) - (t.time * 65536 : Nat)) :: c1.sofOffs).take 8
      | none => c1.sofOffs,
    expTimes := ((fn, exp / 65536) :: c1.expTimes.filter (fun x => x.1 != fn)).take 16, sofOff := some (((sof : Int) - exp) / 65536),
    fcMap := (match timed with | some x => (x.1, fn) :: c1.fcMap | none => c1.fcMap).take 64 }
  let x := ((s.mapCam cam (fun _ => c2)).latchBefore cam fn).latchAt cam fn
  let l := x.2
  let hubFc := (timed.map (·.1)).getD fc
  let trig := match hit with | some t => t.index % 2 ^ 32 | none => 0xFFFFFFFF
  let r := (x.1.cam cam).newRecord cam fn sof exp trig hubFc l (noiseWords [cam, c2.run, fn] p ((vget c2.last.tables none 4).map (fun t => s.readMem t.addr t.len)) l.pipe)
  let r := if timed.isNone then r.flag 5 else r
  let r := if planned && hit.isNone then r.flag 6 else r
  let t := x.1.countCam cam (fun n => { n with lastSof := nsOf (sof / 65536) })
  match (t.cam cam).freeSlot with
  | none => (t.closeDropped cam r 1).mapCam cam (fun x => { x with dropping := true })
  | some slot =>
    if s.sheds (pfDropClass p) || (c0.plan.isNone && fn % c0.degrade != 0) then (t.closeDropped cam r 2).mapCam cam (fun x => { x with dropping := true })
    else t.acceptFrame cam fn slot r

/-! ## Lines -/

/-- The luma proxy of R186 for one quad row of a frame: quads (i, j) for every i. -/
def Env.proxySample (v : Env) (i j : Nat) : Nat :=
  let xs := [2 * i, 2 * i + 1].filter (· < pfW v.p)
  let ys := [2 * j, 2 * j + 1].filter (· < pfH v.p)
  let sites := ys.flatMap (fun y => xs.map (fun x => (x, y)))
  let n := pfNexp v.p
  let e := if n ≤ 1 then 0 else
    ((List.range n).find? (fun e => sites.all (fun q => v.norm e q.1 q.2 < 95 / 100))).getD (n - 1)
  let val (q : Nat × Nat) : Rat := v.norm e q.1 q.2 * v.ratio e
  let rgb := if pfMono v.p then sites else sites.filter (fun q => cfaOf v.p q.1 q.2 != 3)
  let used := if rgb.isEmpty then sites else rgb
  let x := sumRat (used.map val) / (used.length : Nat)
  (clampInt 0 65535 (roundLog2K 2048 (maxRat x (pow2 (-24))) + 2048 * 24)).toNat

/-- Samples per row of a proxy. -/
def proxyW (p : List Byte) : Nat := ceilDiv (pfW p) 2
/-- The address of a proxy sample (Table 12-2). -/
def proxyAddr (p : List Byte) (cam k i j : Nat) : Nat := 0xB0000000 + 0x9000000 * cam + 0x3000000 * k + 2 * (j * proxyW p + i)

/-- The environment of a frame. -/
def State.env (s : State) (cam : Nat) (f : CamFrame) : Env := { mem := s.mem.mem, c := s.cam cam, f := f, cam := cam }

/-- Builds the proxy rows of a band whose lines have arrived (R186). -/
def State.buildProxy (cam fn k : Nat) (s : State) : State :=
  match (s.cam cam).frame fn with
  | none => s
  | some f =>
    let v := s.env cam f
    let p := v.p
    let rows := (List.range 32).filter (fun j => 2 * (32 * k + j) < pfH p)
    rows.foldl (fun (t : State) (j : Nat) =>
      let y := 32 * k + j
      let bytes := (List.range (proxyW p)).flatMap (fun i => leBytes 2 (v.proxySample i y))
      let bad := (List.range (pfNexp p)).any (fun e => v.lineMarked e (2 * y) 0 (pfW p) || v.lineMarked e (Nat.min (2 * y + 1) (pfH p - 1)) 0 (pfW p))
      let a := proxyAddr p cam f.proxy 0 y
      let t := (t.writeMem a bytes).writes .motion .motion cam a bytes.length
      if bad then t.markMem a bytes.length else t) s

/-- One stored line: its bytes go into the ingest queue, padded to the stride, and a band that becomes complete gets its proxy. -/
def State.storeLine (cam fn e line : Nat) (bytes : List Byte) (s : State) : State :=
  let c := s.cam cam
  match c.frame fn with
  | none => s
  | some f =>
    let a := c.lineAddr f.slot e line
    let n := pfStride c.profile
    let t := (s.writeMem a (padTo n bytes)).writes .bandWrite .ostler cam a n
    let t := t.mapFrame cam fn (fun x => { x with stored := vmod x.stored e (fun _ => line + 1) })
    if e + 1 = pfNexp c.profile && (line % 64 == 63 || line + 1 == pfH c.profile) then t.buildProxy cam fn (line / 64) else t

/-- A code placed in a line under PACK (R117). -/
def packCodes (p : List Byte) (high : Bool) (codes : List Nat) : List Byte :=
  let d := pfDepth p
  match pfPack p with
  | 0 => leBytes (pfLineBytes p) (codes.zipIdx.foldl (fun acc c => acc + c.1 * 2 ^ (d * c.2)) 0)
  | 1 => codes.flatMap (fun c => leBytes 2 (if high then c * 2 ^ (16 - d) else c))
  | _ => codes.flatMap (fun c => leBytes 4 (if high then c * 2 ^ (32 - d) else c))

/-- The repair of a line (R76): line 0 takes the black level, limited to the code's width (log 26); any other copies the line before. -/
def State.repairBytes (s : State) (cam : Nat) (f : CamFrame) (e line : Nat) : List Byte :=
  let c := s.cam cam
  let p := c.profile
  if line = 0 then
    let v := s.env cam f
    packCodes p (bitOf (f8 (v.blk 0) 0) 0)
      ((List.range (pfW p)).map (fun x => Nat.min (2 ^ pfDepth p - 1) (v.black e (x % 4))))
  else s.readMem (c.lineAddr f.slot e (line - 1)) (pfLineBytes p)

/-- Repairs one line of a frame, and counts it. -/
def State.repairLine (cam fn e line : Nat) (s : State) : State :=
  match (s.cam cam).frame fn with
  | none => s
  | some f =>
    let t := s.storeLine cam fn e line (s.repairBytes cam f e line)
    (t.flagFrame cam fn 2).countCam cam (fun n => { n with linesRepaired := n.linesRepaired.satInc })

/-- Repairs the lines of an exposure from the next one expected up to a line. -/
def State.repairTo (cam fn e upTo : Nat) (s : State) : State :=
  match (s.cam cam).frame fn with
  | none => s
  | some f =>
    let from_ := vget f.stored 0 e
    (List.range (upTo - from_)).foldl (fun t i => t.repairLine cam fn e (from_ + i)) s

/-- The frame whose cells are arriving. -/
def CamCtx.arriving (c : CamCtx) : Option CamFrame := c.frames.find? (fun f => !f.arrived)

/-- The arrival of a frame ends (R87): missing lines are repaired and the frame is SHORT_FRAME where lines of an exposure are missing, or where a
start of frame came before its EOF. -/
def State.endArrival (cam : Nat) (early : Bool) (s : State) : State :=
  let c := s.cam cam
  match c.arriving with
  | none => s
  | some f =>
    let h := pfH c.profile
    let short := early || (List.range (pfNexp c.profile)).any (fun e => Nat.blt (vget f.stored 0 e) h)
    let t := (List.range (pfNexp c.profile)).foldl (fun t e => t.repairTo cam f.fn e h) s
    let t := t.mapFrame cam f.fn (fun x => { x with arrived := true, short := short })
    let t := t.mapCam cam (fun x => { x with asm := none })
    if short then (t.flagFrame cam f.fn 3).countCam cam (fun n => { n with short := n.short.satInc }) else t

/-- A whole line of the arriving frame: lines before it that never came are repaired; a line beyond ACTIVE_H is discarded and the frame
is LONG_FRAME (R76, R87). -/
def State.takeLine (cam e line : Nat) (bytes : List Byte) (bad : Bool) (s : State) : State :=
  let c := s.cam cam
  match c.arriving with
  | none => s
  | some f =>
    let p := c.profile
    if pfH p ≤ line then
      if f.rcd.has 4 then s else (s.flagFrame cam f.fn 4).countCam cam (fun n => { n with long := n.long.satInc })
    else if pfNexp p ≤ e || line < vget f.stored 0 e then s
    else
      let t := s.repairTo cam f.fn e line
      if bad || bytes.length < pfLineBytes p then t.repairLine cam f.fn e line else t.storeLine cam f.fn e line (bytes.take (pfLineBytes p))

/-! ## Cells -/

/-- Ends the line in assembly. -/
def State.flushLine (cam : Nat) (bad : Bool) (s : State) : State :=
  match (s.cam cam).asm with
  | none => s
  | some a => (s.mapCam cam (fun c => { c with asm := none })).takeLine cam a.exp a.line a.data (a.bad || bad)

/-- A cell in its order (R74, R85, R87); lost says that cells before it were lost. A start of frame is stamped with the arrival of its cell. A cell
whose data found no room in the line store leaves its line to be repaired (R92). -/
def State.placeCell (cam : Nat) (h : HeldCell) (lost : Bool) (s : State) : State :=
  let x := h.cell
  let t := if lost then s.mapCam cam (fun c => { c with asm := c.asm.map (fun a => { a with bad := true }) }) else s
  let t := if x.sof then
      let u := (t.flushLine cam true).endArrival cam true
      if (u.cam cam).state == .running then u.startFrame cam h.at_ x.hubFc
      else u.mapCam cam (fun c => { c with dropping := true })
    else t
  if (t.cam cam).dropping || (t.cam cam).arriving.isNone then t
  else
    let t := match (t.cam cam).asm with
      | some a => if x.sol || a.line != x.line || a.exp != x.exp then t.flushLine cam true else t
      | none => t
    let t := match (t.cam cam).asm with
      | some a => t.mapCam cam (fun c => { c with asm := some { a with data := a.data ++ x.data, bad := a.bad || h.cut || x.offset != a.data.length } })
      | none => t.mapCam cam (fun c => { c with asm := some { exp := x.exp, line := x.line, data := x.data, bad := h.cut || !x.sol || x.offset != 0 } })
    let t := if x.eol then t.flushLine cam false else t
    if x.eof then (t.flushLine cam true).endArrival cam false else t

/-- Places the cells held for a context as far as their order allows: the next one when it is there, and past a missing one once a
cell more than 64 after it has come (R75; DEDUCED, log 27). The fuel is the number of cells that may be held. -/
def State.drainCells (cam : Nat) : Nat → State → State
  | 0, s => s
  | n + 1, s =>
    let c := s.cam cam
    match c.nextSeq with
    | none => s
    | some q =>
      match c.held.find? (fun x => x.cell.cseq == q) with
      | some x =>
        let t := s.mapCam cam (fun c => { c with nextSeq := some ((q + 1) % 65536), gap := false, held := c.held.filter (fun y => y.cell.cseq != q) })
        State.drainCells cam n (t.placeCell cam x c.gap)
      | none =>
        if c.held.any (fun x => 64 < (x.cell.cseq + 65536 - q) % 65536) then
          let t := s.mapCam cam (fun c => { c with nextSeq := some ((q + 1) % 65536), gap := true })
          State.drainCells cam n (t.countCam cam (fun k => { k with cellsLost := k.cellsLost.satInc }))
        else s

/-- A cell discarded and counted on the lane of its channel (R75, R350). -/
def State.discardCell (chan : Nat) (s : State) : State :=
  match (s.lanes.chan chan).lane with
  | some l => s.mapLane l (fun y => { y with cellsLost := y.cellsLost.satInc })
  | none => s

/-- Whether a cell of a channel reaches a context: the channel in its LANE_MASK. -/
def State.mayArrive (s : State) (chan cam : Nat) : Bool := bitOf (pfLaneMask (s.cam cam).profile) chan

/-- A cell arrives for its context. With no room in the line store its data is discarded, and it counts as lost (R92). Before the first start of frame
of a run the order starts at the cell with SOF: cells that come before it in CSEQ belong to no frame of the run (DEDUCED, log 27), and of the cells
held for it those of the window of 64 are kept. -/
def State.holdCell (cam : Nat) (x : PixCell) (s : State) : State :=
  let cut := decide (lineStoreSize < s.lineStore + x.data.length)
  let h : HeldCell := { cell := if cut then { x with data := [] } else x, at_ := s.time.stamp, cut := cut }
  let t := if cut then s.countCam cam (fun k => { k with cellsLost := k.cellsLost.satInc }) else s
  (t.mapCam cam (fun c =>
    let after (q : Nat) (y : HeldCell) : Bool := (y.cell.cseq + 65536 - q) % 65536 < 32768
    match c.nextSeq with
    | some _ => { c with held := c.held ++ [h] }
    | none =>
      let all := c.held ++ [h]
      if x.sof then { c with nextSeq := some x.cseq, held := all.filter (after x.cseq) }
      else { c with held := all.drop (all.length - 64) })).noteIngest x.data.length

/-- PIXEL_CELL (R74, R75, R84, R85, R92, R350): a cell of a context arrives on a channel with an epoch. A context that is STOPPING takes the cells of
the frame that is arriving; a start of frame ends that frame (R87) and is itself discarded. -/
def execPixelCell (chan : Fin 32) (epoch : Nat) (cam : Nat) (x : PixCell) (s : State) : Host.Outcome State Fault Refusal :=
  let c := s.cam cam
  if epoch != (s.lanes.chan chan.val).epoch then .next (s.dropStale (unitHandle 0x0B chan.val) epoch)
  else if !(c.state == .running || (c.state == .stopping && c.arriving.isSome)) || !s.mayArrive chan.val cam then
    .next (s.discardCell chan.val)
  else
    let s := if x.sof && c.state == .stopping then s.discardCell chan.val else s
    let ahead := (x.cseq + 65536 - c.nextSeq.getD x.cseq) % 65536
    if 32768 ≤ ahead then .next s else .next ((s.holdCell cam x).drainCells cam 65600)

/-- TIMING_CELL (R77): the exposure start of line 0 of an exposure. That of exposure 0 names the frame's exposure time when it arrives
before the first output band is written; one that comes before its start of frame measures an exposure start of its own (R169). -/
def execTimingCell (chan : Fin 32) (epoch cam exp hubFc stamp : Nat) (s : State) : Host.Outcome State Fault Refusal :=
  let c := s.cam cam
  if epoch != (s.lanes.chan chan.val).epoch then .next (s.dropStale (unitHandle 0x0B chan.val) epoch)
  else if (c.state != .running && c.state != .stopping) || !s.mayArrive chan.val cam then .next (s.discardCell chan.val)
  else if exp != 0 then .next s
  else
    let t := s.mapCam cam (fun c => { c with timing := ((hubFc, stamp) :: c.timing).take 8 })
    match c.frames.find? (fun f => f.rcd.has 5 && f.rcd.hubFc % 16 == hubFc % 16 && !c.bandDone f 0) with
    | none => .next (t.mapCam cam (fun c => match c.fnOfHub hubFc with
        | some fn => if fn < c.fnNext then c
                     else { c with expTimes := ((fn, stamp / 65536) :: c.expTimes.filter (fun x => x.1 != fn)).take 16 }
        | none => c))
    | some f =>
      let clear (r : LedgerRec) : LedgerRec := { r with exp := stamp, hubFc := hubFc, flags := r.flags &&& ~~~(1#32 <<< 5) }
      let t := t.mapRecord cam f.fn clear
      .next (t.mapCam cam (fun c => { c with
        fcMap := ((hubFc, f.fn) :: c.fcMap).take 64,
        expTimes := updWhere (fun (x : Nat × Nat) => x.1 == f.fn) (fun x => (x.1, stamp / 65536)) c.expTimes }))

/-! ## Parallel capture ports (R78, R79) -/

/-- The context on a parallel port. -/
def State.portCam (s : State) (port : Nat) : Option Nat :=
  firstIdx (fun c => c.state != .idle && pfSource c.profile == port + 1) s.cams.ctx.toList

/-- PCP_START_OF_FRAME (R79): the first sampled DE of the first line after VSYNC. -/
def execPcpStartOfFrame (port : Fin 2) (s : State) : Host.Outcome State Fault Refusal :=
  match s.portCam port.val with
  | none => .next s
  | some cam =>
    let t := s.endArrival cam true
    if (s.cam cam).state == .running then .next (t.startFrame cam s.time.stamp 0)
    else .next (t.mapCam cam (fun c => { c with dropping := true }))

/-- PCP_LINE (R79): a line of an exposure with the codes sampled. A line of another length is truncated, or padded with its last
pixel, and gets LINE_REPAIRED. A line after the last one makes the frame LONG_FRAME (R87). -/
def execPcpLine (port : Fin 2) (exp : Nat) (pixels : List Nat) (s : State) : Host.Outcome State Fault Refusal :=
  match s.portCam port.val with
  | none => .next s
  | some cam =>
    let c := s.cam cam
    match c.arriving with
    | none => .next (match c.dropping, c.frames.getLast? with
        | false, some f => if f.rcd.has 4 then s else (s.flagFrame cam f.fn 4).countCam cam (fun n => { n with long := n.long.satInc })
        | _, _ => s)
    | some f =>
      let p := c.profile
      let w := pfW p
      let fixed := (pixels.take w) ++ List.replicate (w - pixels.length) ((pixels.getLast?).getD 0)
      let codes := fixed.map (· % 2 ^ pfDepth p)
      let line := vget f.stored 0 exp
      let t := (s.takeLine cam exp line (packCodes p false codes) false).noteIngest (packCodes p false codes).length
      let t := if pixels.length = w then t
        else (t.flagFrame cam f.fn 2).countCam cam (fun n => { n with linesRepaired := n.linesRepaired.satInc })
      let done := match (t.cam cam).frame f.fn with
        | some g => (List.range (pfNexp p)).all (fun e => pfH p ≤ vget g.stored 0 e)
        | none => false
      .next (if done then t.endArrival cam false else t)

/-! ## Missing triggers (R86) -/

/-- TRIGGER_MISSING (R86): no start of frame has matched a trigger by its time plus READOUT plus one period; its FN closes MISSING. -/
def execTriggerMissing (cam : Fin 48) (s : State) : Host.Outcome State Fault Refusal :=
  let c := s.cam cam
  match c.triggers.find? (fun t => t.time + pfReadout c.profile + t.period ≤ s.ns) with
  | none => .next s
  | some t =>
    let c1 := c.settle (t.time + 1)
    let fn := ((c1.triggers.find? t.same).bind Trigger.fn).getD c1.fnNext
    let c2 := { c1 with triggers := c1.triggers.filter (fun u => !t.same u) }
    let u := ((s.mapCam cam (fun _ => c2)).latchBefore cam fn).latchAt cam fn
    let r := (u.1.cam cam).newRecord cam fn 0 (t.time * 65536) (t.index % 2 ^ 32) 0 u.2
      (noiseWords [cam.val, c.run, fn] c.profile ((vget c2.last.tables none 4).map (fun x => s.readMem x.addr x.len)) u.2.pipe)
    .next ((u.1.closeDropped cam (r.flag 5) 3).stopIfDone cam)

end Sys2Proof.Machine
end

