-- ==== Sys2Proof/Machine/EncCmds.lean ====
section
/-!
DEFINITION. The encode commands (Table 07-4) and what the encoder roles do with pictures (chapter 07). The slices of an access unit, and what
the core reports of each coding tree unit, are operands of ENC_PICTURE_COMMIT: H.265 mode decisions and entropy coding stand outside the manual (log 36).
-/
namespace Sys2Proof.Machine

/-! ## Levels (Table 07-8) -/

/-- The limits of a level: MaxLumaPs, MaxLumaSr, MaxBR and MaxCPB of the Main and the High tier. -/
structure LevelLimit where
  ps : Nat
  sr : Nat
  brMain : Nat
  brHigh : Nat
  cpbMain : Nat
  cpbHigh : Nat
deriving DecidableEq, Repr

/-- The limits of a level (Table 07-8); those of levels below 4 are of ITU-T H.265 Table A.8, which has no High tier there (PRESUMED,
log 37). -/
def levelLimit : Nat → Option LevelLimit
  | 30 => some ⟨36864, 552960, 128, 0, 350, 0⟩
  | 60 => some ⟨122880, 3686400, 1500, 0, 1500, 0⟩
  | 63 => some ⟨245760, 7372800, 3000, 0, 3000, 0⟩
  | 90 => some ⟨552960, 16588800, 6000, 0, 6000, 0⟩
  | 93 => some ⟨983040, 33177600, 10000, 0, 10000, 0⟩
  | 120 => some ⟨2228224, 66846720, 12000, 30000, 10000, 25000⟩
  | 123 => some ⟨2228224, 133693440, 20000, 50000, 20000, 50000⟩
  | 150 => some ⟨8912896, 267386880, 25000, 100000, 25000, 100000⟩
  | 153 => some ⟨8912896, 534773760, 40000, 160000, 40000, 160000⟩
  | 156 => some ⟨8912896, 1069547520, 60000, 240000, 60000, 240000⟩
  | 180 => some ⟨35651584, 1069547520, 60000, 240000, 60000, 240000⟩
  | 183 => some ⟨35651584, 2139095040, 120000, 480000, 120000, 480000⟩
  | 186 => some ⟨35651584, 4278190080, 240000, 800000, 240000, 800000⟩
  | _ => none

/-- Whether the bit rates and the CPB of a rate block lie inside a level (R195): each by its field's offset. -/
def rateLimits (b r : List Byte) : List (Nat × Bool) :=
  match levelLimit (sbLevel b) with
  | none => []
  | some l =>
    let f := if sbProfile b = 2 then 1667 else 1000
    let br := (if sbHigh b then l.brHigh else l.brMain) * f
    let cpb := (if sbHigh b then l.cpbHigh else l.cpbMain) * f
    [(4, rbMode r == 0 || rbTarget r ≤ br), (8, rbMode r != 2 || rbPeak r ≤ br), (0xC, rbCpb r ≤ cpb)]

/-- Whether the picture size and the sample rate lie inside the level (R195). -/
def sizeLimits (p b : List Byte) (every : Nat) : Bool :=
  match levelLimit (sbLevel b) with
  | none => false
  | some l =>
    let c := sbCrop p b
    let w := c.2.2.1
    let h := c.2.2.2
    w * h ≤ l.ps && w * h * 1000000000 ≤ l.sr * (pfPeriod p * every) && w * w ≤ 8 * l.ps && h * h ≤ 8 * l.ps

/-! ## Blocks -/

/-- The fields of a rate block (Table 07-11), from an offset of the structure. -/
def rateFields (r : List Byte) (o : Nat) : List (Nat × Bool) :=
  let qp (i : Nat) : Bool := rbQpMin r ≤ f8 r i && f8 r i ≤ rbQpMax r
  [(o, Nat.blt (rbMode r) 3), (o + 1, Nat.ble (rbQpMin r) 51), (o + 2, rbQpMin r ≤ rbQpMax r && rbQpMax r ≤ 51), (o + 3, 1 ≤ f8 r 3 && f8 r 3 ≤ 6),
   (o + 8, rbMode r != 2 || f32 r 4 ≤ f32 r 8), (o + 0x10, 10 ≤ f8 r 0x10 && f8 r 0x10 ≤ 100), (o + 0x11, qp 0x11), (o + 0x12, qp 0x12),
   (o + 0x13, qp 0x13)]
  ++ (List.range 5).map (fun i => (o + 0x14 + i, f8 r (0x14 + i) != 0))
  ++ [(o + 0x19, 1 ≤ f8 r 0x19 && f8 r 0x19 ≤ 12)]

/-- The fields of a session block (Table 07-6) in ascending offset order; reserved fields are ignored (R8). -/
def sessionFields (p b : List Byte) : List (Nat × Bool) :=
  let c := sbCrop p b
  [(0x00, Nat.ble (sbSrc b) 2), (0x01, Nat.ble (sbProfile b) 3), (0x02, (levelLimit (sbLevel b)).isSome),
   (0x04, f16 b 4 % 2 == 0 && (f16 b 8 != 0 || f16 b 4 == 0)), (0x06, f16 b 6 % 2 == 0 && (f16 b 0xA != 0 || f16 b 6 == 0)),
   (0x08, f16 b 8 == 0 || (f16 b 8 % 2 == 0 && 64 ≤ f16 b 8)), (0x0A, f16 b 0xA == 0 || (f16 b 0xA % 2 == 0 && 64 ≤ f16 b 0xA)),
   (0x08, Nat.ble (c.1 + c.2.2.1) (pfW p)), (0x0A, Nat.ble (c.2.1 + c.2.2.2) (pfH p)), (0x0C, [1, 2, 4, 8].contains (sbG b)),
   (0x0D, 1 ≤ sbNref b && sbNref b ≤ 4), (0x0E, Nat.ble (sbLtr b) 4), (0x14, Nat.ble (f16 b 0x14) 64),
   (0x18, sbRingOff b % 64 == 0), (0x1C, sbRingLen b % 64 == 0), (0x20, sbStatOff b % 64 == 0),
   (0x24, 16 ≤ sbStatSlots b && sbStatSlots b ≤ 4096), (0x28, sbPoolOff b % 4096 == 0)]
  ++ rateFields (b.drop 0x40) 0x40

/-- Whether a profile takes an output (Table 07-7). -/
def profileTakes (profile : Nat) (o : List Byte) : Bool :=
  let f := obFormat o
  let d := obDepth o
  match profile with
  | 0 => f ≤ 1 && d == 0
  | 1 => f ≤ 1 && d ≤ 1
  | 2 => (f == 2 || f == 3) && d ≤ 1
  | _ => f == 7 && d ≤ 2

/-- The charge of a session in Mpixel/s (R196). -/
def encCharge (p b : List Byte) (every : Nat) : Nat :=
  let c := sbCrop p b
  let n := c.2.2.1 * c.2.2.2 * 1000
  let d := pfPeriod p * every
  match sbProfile b with
  | 2 => ceilDiv (n * 4) (d * 3)
  | 3 => ceilDiv (n * 2) (d * 3)
  | _ => ceilDiv n d

/-- Whether two regions of a buffer meet. -/
def meets (a n b m : Nat) : Bool := a < b + m && b < a + n && n != 0 && m != 0

/-- The session of a live handle, else INVALID_HANDLE. -/
def needEnc (s : State) (h : Handle) : Chk EncSession := needSome (s.enc h) (badHandle h 0)

/-! ## Commands -/

/-- ENC_SESSION_OPEN (R194 to R197). -/
def execEncSessionOpen (c : Cmd) (s : State) : Host.Outcome State Fault Refusal :=
  runCmd .encSessionOpen c s do
    let cam ← needSome (s.cams.find c.handle) (badHandle c.handle 0)
    let x := s.cam cam
    let p := x.profile
    let b ← structBytes s c
    let query := bitOf (f8 b 3) 1
    need (!query || c.aux == 0) (badPacket 0x0C)
    needFields (sessionFields p b)
    need (Nat.blt s.encs.length 96) (notReady 0x65)
    need (x.state == .configured || x.state == .running) (notReady 0x60)
    let o ← needSome (vget x.next.outs none (sbSrc b)) (notReady 0x60)
    let every := Nat.max 1 o.every
    need (profileTakes (sbProfile b) o.blk) (badStruct 0x01)
    need (sbG b + 2 ≤ o.slots) (badStruct 0x0C)
    need (sbIdrPeriod b % (sbG b * every) == 0) (badStruct 0x10)
    let r := b.drop 0x40
    need (sizeLimits p b every && (firstBad (rateLimits b r)).isNone) (badStruct 0x02)
    let charge := encCharge p b every
    let budget := 3200 * s.mgmt.units.filled .encU
    let used := sumNat ((s.encs.filter (fun e => !e.released)).map EncSession.charge)
    need (charge ≤ 3200 && charge + used ≤ budget) (overBudget charge (budget - used))
    let z := sbCrop p b
    let k := encKcs (sbProfile b) (profileDepth (sbProfile b)) z.2.2.1 z.2.2.2
    let minPool := 4096 + sbSlots b * k.bound
    let minRing := 64 + 2 * largestReservation b r z.2.2.1 z.2.2.2
    if query then okDone (minPool % 2 ^ 32) (minRing % 2 ^ 32) s
    else do
      let y ← needBuffer s c.aux 1
      let ring := sbRingOff b
      let stat := sbStatOff b
      let sl := 64 * sbStatSlots b
      need (minRing ≤ sbRingLen b && ring + sbRingLen b ≤ y.size) (badStruct 0x1C)
      need (stat + sl ≤ y.size && !meets ring (sbRingLen b) stat sl) (badStruct 0x24)
      need (minPool ≤ sbPoolLen b && sbPoolOff b + sbPoolLen b ≤ y.size && !meets ring (sbRingLen b) (sbPoolOff b) (sbPoolLen b)
        && !meets stat sl (sbPoolOff b) (sbPoolLen b)) (badStruct 0x2C)
      needUnpinned s y.base y.size
      let h := s.nextHandle 3
      let first := roundUp (if x.state == .running then x.fnNext else 0) every
      let e : EncSession :=
        { handle := h, cam := cam, run := x.run, blk := b.take 0x40, rate := r, rateNext := none, src := o, buf := c.aux, base := y.base, period := x.period,
          profile := p, charge := charge, first := first, gopNext := first, frames := [], gop := [], coded := [], anchor := 0,
          anchorDue := false, idrDue := true, idrNext := false, targets := [], lastIdr := first, refs := [], pics := [], seqNext := 0,
          alphas := Vector.replicate 3 none, qpLast := Vector.replicate 4 none, devs := [], overs := 0, pool := 0, cpb := rbFill r, filled := false,
          elapsed := 0, wr := { off := 0, wraps := 0 }, rd := s.readPos (y.base + ring), gaps := [], answer := .none, answerFn := 0,
          rateBound := false, discarded := 0, closing := false, closeBy := none, ended := false, released := false, faulted := false,
          cnt := EncCounters.zero }
      let t := (s.issue 3).mapCam cam (fun c => { c with consumers := vmod c.consumers (sbSrc b) (· ++ [h]) })
      okDone h.toNat (first % 2 ^ 32) { t with encs := t.encs ++ [e] }

/-- ENC_SESSION_CLOSE (R217). -/
def execEncSessionClose (c : Cmd) (s : State) : Host.Outcome State Fault Refusal :=
  runCmd .encSessionClose c s do
    let e ← needEnc s c.handle
    need (!e.closing) (notReady 0x61)
    let r := ref .encSessionClose c
    let t := s.encStopFrames e.handle (bitOf (par c 0) 0 || e.faulted)
    let t := t.mapEnc e.handle (fun x => { x with closing := true, closeBy := some r })
    .ok (.waits (((t.keepInFlight r).encFinishClose e.handle)).jmSettle)

/-- ENC_SET_RATE (R212): the block is staged for the next picture started. The offset of a breach of R195 is that of its field: DESIGN CHOICE (log 36). -/
def execEncSetRate (c : Cmd) (s : State) : Host.Outcome State Fault Refusal :=
  runCmd .encSetRate c s do
    let e ← needEnc s c.handle
    let r ← structBytes s c
    needFields (rateFields r 0 ++ rateLimits e.blk r)
    need (!e.faulted) (notReady 0x64)
    need (!(e.closing || e.ended)) (notReady 0x61)
    okDone (e.seqNext % 2 ^ 32) 0 (s.mapEnc e.handle (fun x => { x with rateNext := some r })).jmRates

/-- ENC_FORCE_IDR (R200). -/
def execEncForceIdr (c : Cmd) (s : State) : Host.Outcome State Fault Refusal :=
  runCmd .encForceIdr c s do
    let e ← needEnc s c.handle
    need (!e.faulted) (notReady 0x64)
    need (!(e.closing || e.ended)) (notReady 0x61)
    let soonest := roundUp e.gopNext e.every
    let next := bitOf (par c 1) 0
    let late := !next && Nat.blt (par c 0) e.gopNext
    need (!(late && strict c)) (tooLate (soonest % 2 ^ 32))
    let t : IdrTarget := { fn := if next || late then soonest else par c 0, by_ := ref .encForceIdr c, adjusted := late }
    waitDone .encForceIdr c (s.mapEnc e.handle (fun x => { x with targets := x.targets ++ [t] }))

/-- ENC_REF_MARK (R205). -/
def execEncRefMark (c : Cmd) (s : State) : Host.Outcome State Fault Refusal :=
  runCmd .encRefMark c s do
    let e ← needEnc s c.handle
    let op := bitsOf (par c 1) 1 0
    let n := bitsOf (par c 1) 5 4
    need (op != 3) (badParam 1)
    need (!e.faulted) (notReady 0x64)
    need (!(e.closing || e.ended)) (notReady 0x61)
    need (!(op == 0 && sbLtr e.blk == 0)) (notReady 0x63)
    need (op != 0 || Nat.blt n (sbLtr e.blk)) (badParam 1)
    let p ← needSome (e.refs.find? (fun r => r.fn % 2 ^ 32 == par c 0)) (notReady 0x62)
    let refs := match op with
      | 0 => e.refs.map (fun r => if r.fn = p.fn then { r with long := some n }
                                  else if r.long = some n then { r with long := none } else r)
      | 1 => updWhere (fun r => r.fn == p.fn) (fun r => { r with long := none }) e.refs
      | _ => e.refs.filter (fun r => Nat.blt r.fn p.fn)
    okDone 0 0 (s.mapEnc e.handle (fun x => { x with refs := refs }.trim))

/-! ## Pictures -/

/-- The first picture of a session that waits for another role after a death (R216). -/
def EncSession.orphan (e : EncSession) : Option EncPic := e.pics.find? (fun q => q.role.isNone)

/-- The deadline of the picture that an encoder role can take of a session: one that waits after a death, or the next picture when its reservation fits and
its rate kernel has answered (R201, R211, R216). The session is as its next picture finds it. -/
def EncSession.codable (e : EncSession) : Option Nat :=
  match e.orphan with
  | some q => some q.deadline
  | none =>
    if e.faulted then none
    else
      let f := e.formed
      match f.next with
      | none => none
      | some n =>
        if f.fits n.space && (rbMode f.rate == 0 || !f.rateBound || (f.answer != .none && f.answerFn == n.frame.fn)) then some n.deadline else none

/-- The codable session of the earliest picture deadline, as its next picture finds it; ties go to the lower handle (R201). -/
def State.encPick (s : State) : Option EncSession :=
  (minBy (fun x => x.1 * 2 ^ 32 + x.2.handle.toNat) (s.encs.filterMap (fun e => (s.encView e).codable.map (fun d => (d, s.encView e))))).map (·.2)

/-- Whether a session has a picture on a role. -/
def EncSession.onRole (e : EncSession) (role : Nat) : Option EncPic := e.pics.find? (fun q => q.role == some role)

/-- Whether a role codes a picture. -/
def State.encBusy (s : State) (role : Nat) : Bool := s.encs.any (fun e => (e.onRole role).isSome)

/-- A session starts its next picture on a role (R201): the picture takes the rate state as it stands, with the charge of R210 spent. -/
def EncSession.start (e : EncSession) (role epoch now : Nat) : EncSession :=
  let f := e.formed
  match f.next with
  | none => e
  | some n =>
    { f with
      seqNext := f.seqNext + 1, answer := .none, cpb := f.fullness, filled := true, elapsed := 0, overs := 0,
      anchorDue := f.anchorDue && n.layer != 0, idrNext := false,
      pool := if f.anchorDue then (f.frameBits * sbG f.blk).floor else f.pool,
      pics := f.pics ++ [{ fn := n.frame.fn, mini := f.gopNext, rate := f.rate, seq := f.seqNext, type := n.type, layer := n.layer, qpBase := n.plan.2.2,
                           budget := n.plan.1, nominal := n.plan.2.1, cPic := f.cPic n.frame n.type, startNs := now, deadline := n.deadline,
                           space := n.space, refs := n.refs, slot := f.freeSlot, role := some role, epoch := epoch, redone := false,
                           missed := f.answer == .missed && f.answerFn == n.frame.fn }] }

/-- The accesses of a picture: its input planes, its field, its references and its reconstruction (R15, R202). -/
def State.picTraffic (s : State) (e : EncSession) (q : EncPic) (role : Nat) : List FabReq :=
  let go (a n : Nat) (wr : Bool) : FabReq := s.access .encoder (.encoder role) e.cam a n wr
  (match e.frames.find? (fun f => f.fn == q.fn) with
    | some f => [go f.addr e.src.slotSize false] ++ (match f.place with | some i => [go (fieldAddr e.cam i) (fieldBytes e.profile) false] | none => [])
    | none => [])
  ++ q.refs.map (fun r => go (e.slotAddr r.slot) e.kcs.bound false)
  ++ (match q.slot with | some i => [go (e.slotAddr i) e.kcs.bound true] | none => [])

/-- ENC_PICTURE_START (R201, R206, R216): a free role takes the codable picture of the earliest deadline. A marked session state halts its
session. -/
def execEncPictureStart (role : Fin 8) (s : State) : Host.Outcome State Fault Refusal :=
  if (s.mgmt.units.unitOf .encU role.val).isNone || s.encBusy role.val then .next s
  else match s.encPick with
    | none => .next s
    | some e =>
      let epoch := s.mgmt.units.epochOf .encU role.val
      match e.orphan with
      | some q =>
        let take (x : EncPic) : EncPic := if x.seq == q.seq then { x with role := some role.val, epoch := epoch } else x
        .next ((s.mapEnc e.handle (fun x => { x with pics := x.pics.map take })).requests (s.picTraffic e q role.val))
      | none =>
        if (s.mem.mem.poisonIn (e.base + sbPoolOff e.blk) 4096).isSome then
          .next ((s.mapEnc e.handle (fun x => { x with faulted := true })).logErrorPost
            { source := 0x06, code := Status.dataPoisoned.code, unit := e.handle, addr := e.base + sbPoolOff e.blk })
        else
          let x := e.start role.val epoch s.ns
          .next ((s.mapEnc e.handle (fun _ => x)).requests ((x.onRole role.val).toList.flatMap (fun q => s.picTraffic x q role.val)))

/-! ## Coding tree units (R202, R206, R207, R209, R210) -/

/-- CTU columns of a picture. -/
def EncSession.ctuCols (e : EncSession) : Nat := ceilDiv e.size.1 (sbCtu e.blk)

/-- Whether a CTU has an input line that carries a mark (R207): it is concealed. -/
def State.ctuMarked (s : State) (e : EncSession) (f : EncFrame) (cx cy : Nat) : Bool :=
  let c := sbCrop e.profile e.blk
  let n := sbCtu e.blk
  let w := pfW e.profile
  let h := pfH e.profile
  let qs := outPlanes w h e.src.blk
  let x0 := c.1 + cx * n
  let x1 := c.1 + Nat.min c.2.2.1 ((cx + 1) * n)
  let y0 := c.2.1 + cy * n
  let y1 := c.2.1 + Nat.min c.2.2.2 ((cy + 1) * n)
  qs.zipIdx.any (fun q =>
    let sx := if q.1.1 < w then 2 else 1
    let sy := if q.1.2.1 < h then 2 else 1
    (List.range (ceilDiv y1 sy - y0 / sy)).any (fun i =>
      let a := f.addr + planeOffset qs q.2 + (y0 / sy + i) * planeStride q.1
      (s.mem.mem.poisonIn (a + x0 / sx * q.1.2.2) ((ceilDiv x1 sx - x0 / sx) * q.1.2.2)).isSome))

/-- The CTUs of a picture in coding order, concealed or not (R207). -/
def State.marked (s : State) (e : EncSession) (f : EncFrame) : List Bool :=
  (List.range (ctuRows e.blk e.size.2)).flatMap (fun cy => (List.range e.ctuCols).map (fun cx => s.ctuMarked e f cx cy))

/-- The first reference in the list of a picture: the nearest before it, or the nearest after it (DESIGN CHOICE, log 36). -/
def EncPic.firstRef (q : EncPic) : Option RefPic :=
  match minBy (fun r => q.fn - r.fn) (q.refs.filter (fun r => Nat.blt r.fn q.fn)) with
  | some r => some r
  | none => minBy (fun r => r.fn - q.fn) q.refs

/-- The field vector that a prediction unit may take (R202): that of the block at its centre or of a neighbour of that block, scaled by the ratio of the
reference's POC distance to the FN distance between the frame and REF_FN; INVALID supplies zero. -/
def State.fieldVec (s : State) (e : EncSession) (f : EncFrame) (u : EncPu) (k : Nat) : Rat × Rat :=
  let c := sbCrop e.profile e.blk
  let at_ (size d n : Nat) : Nat := Nat.min (ceilDiv size 16 - 1) ((d + n) / 16)
  let bx := at_ (pfW e.profile) c.1 (u.x + u.w / 2)
  let by_ := at_ (pfH e.profile) c.2.1 (u.y + u.h / 2)
  let b : Nat × Nat := match k with
    | 1 => (bx - 1, by_)
    | 2 => (bx, by_ - 1)
    | 3 => (Nat.min (fieldBx e.profile - 1) (bx + 1), by_)
    | 4 => (bx, Nat.min (fieldBy e.profile - 1) (by_ + 1))
    | _ => (bx, by_)
  match f.place, f.refFn with
  | some i, some r =>
    let a := fieldAddr e.cam i + 64 + b.2 * recStride e.profile + b.1 * 8
    let w := leNat (s.readMem a 4)
    if bitOf w 26 || (s.mem.mem.poisonIn a 8).isSome then (0, 0)
    else
      let ratio : Rat := ((((f.fn : Int) - (u.ref : Int)) / (e.every : Int) : Int) : Rat) / (((f.fn : Int) - (r : Int) : Int) : Rat)
      ((sext 12 (w % 4096) : Rat) * ratio, (sext 11 (bitsOf w 22 12) : Rat) * ratio)
  | _, _ => (0, 0)

/-- Whether a prediction unit's vector is one of the fixed candidate list (R202). Merge and AMVP candidates are derived from coded neighbours, and a scaled
vector is rounded, as H.265 and the core have it (log 36). -/
def State.puOk (s : State) (e : EncSession) (f : EncFrame) (u : EncPu) : Bool :=
  match u.source with
  | .merge => true
  | .amvp => true
  | .zero => u.vec == (0, 0)
  | .field k =>
    let v := s.fieldVec e f u k
    Nat.ble k 4 && absRat ((u.vec.1 : Rat) - v.1) < 1 && absRat ((u.vec.2 : Rat) - v.2) < 1

/-- Whether a prediction unit reads a line of its reference that carries a mark (R206): a block of the picture that its samples, with those that
interpolation takes around them, lie in. -/
def State.puPoisoned (s : State) (e : EncSession) (q : EncPic) (u : EncPu) : Bool :=
  match q.refs.find? (fun r => r.fn == u.ref) with
  | none => false
  | some r =>
    let k := e.kcs
    let lim (n : Nat) (v : Int) : Nat := (clampInt 0 ((n - 1 : Nat) : Int) v).toNat
    let around (v : Int) : Int × Int := if v % 4 = 0 then (0, 0) else (3, 4)
    let hx := around u.vec.1
    let hy := around u.vec.2
    let x0 := lim k.width ((u.x : Int) + u.vec.1 / 4 - hx.1) / 32
    let x1 := lim k.width ((u.x + u.w - 1 : Nat) + u.vec.1 / 4 + hx.2) / 32
    let y0 := lim k.height ((u.y : Int) + u.vec.2 / 4 - hy.1) / 8
    let y1 := lim k.height ((u.y + u.h - 1 : Nat) + u.vec.2 / 4 + hy.2) / 8
    (List.range (y1 + 1 - y0)).any (fun j => (List.range (x1 + 1 - x0)).any (fun i =>
      kcsLost s.mem.mem k (e.slotAddr r.slot) ((y0 + j) * k.bcols + x0 + i)))

/-- Bits spent on a picture before each CTU and after the last: head are those before the first. -/
def spentBits (head : Nat) (cs : List EncCtu) : List Nat := cs.foldl (fun a c => a ++ [(a.getLast?).getD 0 + c.bits]) [head]

/-- The first starved CTU (R210): coding it would make the picture's bits exceed b_pic. -/
def starvedFrom (budget head : Nat) (cs : List EncCtu) : Option Nat :=
  firstIdx (fun (x : Nat × EncCtu) => Nat.blt budget (x.1 + x.2.tried)) ((spentBits head cs).zip cs)

/-- The QP of a row of CTUs (R209): QP_base for the first, then from the bits spent after the row before. cs are the complexities of the rows, spent the bits
after a row. In mode CQP every row keeps QP_base. -/
def EncPic.rowQp (q : EncPic) (cs : List Nat) (spent : Nat → Nat) : Nat → Nat
  | 0 => q.qpBase
  | r + 1 =>
    if rbMode q.rate = 0 then q.qpBase
    else
      let prev := q.rowQp cs spent r
      let b : Rat := q.budget
      let t : Rat := b * (sumNat (cs.take (r + 1)) : Nat) / (Nat.max 1 q.cPic : Nat)
      let want : Int := if q.budget ≤ spent r then rbQpMax q.rate
        else (q.qpBase : Int) + roundLog2K 6 (((spent r : Rat) / t) * (b - t) / (b - spent r))
      clampNat (rbQpMin q.rate) (rbQpMax q.rate) (clampInt ((prev : Int) - f8 q.rate 3) ((prev : Int) + f8 q.rate 3) want).toNat

/-- What a picture comes to, from the report of its CTUs: its bits, the first starved CTU, concealed CTUs, CTUs coded intra and skip, the average QP in quarters,
and the references that became UNAVAILABLE. -/
structure PicResult where
  bits    : Nat
  starved : Option Nat
  hidden  : Nat
  intra   : Nat
  skip    : Nat
  qpAvg   : Nat
  lost    : List Nat
deriving DecidableEq, Repr

/-- The references lost while a list of CTUs is coded, none where a CTU uses one after it was lost (R206). -/
def State.refsLost (s : State) (e : EncSession) (q : EncPic) : List EncCtu → List Nat → Option (List Nat)
  | [], lost => some lost
  | c :: rest, lost =>
    if c.pus.any (fun u => lost.contains u.ref) then none
    else State.refsLost s e q rest (lost ++ ((c.pus.filter (s.puPoisoned e q)).map EncPu.ref).filter (fun n => !lost.contains n))

/-- Whether a CTU is coded as R207 and R210 fix it: a concealed one as skip from the first reference with the zero vector, a starved one as merge skip, either
as intra DC in an IDR picture. -/
def EncPic.fixedOk (q : EncPic) (hidden starved : Bool) (c : EncCtu) : Bool :=
  match q.type with
  | .idr => c.mode == .intra || !(hidden || starved)
  | _ =>
    if starved then c.mode == .skip
    else !hidden || (c.mode == .skip && c.pus.all (fun u => u.vec == (0, 0) && some u.ref == q.firstRef.map RefPic.fn))

/-- What a picture comes to when its CTUs are coded as reported, none where the core does not code so (R202, R206, R207, R209, R210): a CTU for each place,
concealed and starved ones as fixed, vectors of the candidate list, no reference that has been lost, and starved rows within R_min. -/
def State.picResult (s : State) (e : EncSession) (q : EncPic) (f : EncFrame) (head : Nat) (cs : List EncCtu) : Option PicResult :=
  let z := e.size
  let rows := ctuRows e.blk z.2
  let cols := e.ctuCols
  let hid := s.marked e f
  let st := starvedFrom q.budget head cs
  let isSt (i : Nat) : Bool := match st with | some n => n ≤ i | none => false
  let spent := spentBits head cs
  let after (r : Nat) : Nat := (spent[Nat.min (cols * (r + 1)) cs.length]?).getD 0
  let rowC := (List.range rows).map (e.rowCost (match q.type with | .idr => f.acts | _ => f.costs))
  let qp (i : Nat) : Nat := if isSt i then rbQpMax q.rate else q.rowQp rowC after (i / cols)
  let shaped : Bool := cs.length == rows * cols && cs.zipIdx.all (fun c =>
    q.fixedOk ((hid[c.2]?).getD false) (isSt c.2) c.1 && (isSt c.2 || c.1.bits == c.1.tried)
      && (c.1.mode == .intra || !c.1.pus.isEmpty) && c.1.pus.all (fun u => q.refs.any (fun r => r.fn == u.ref) && s.puOk e f u))
  let excess : Nat := match st with | some n => sumNat ((cs.drop n).map EncCtu.bits) | none => 0
  let room : Nat := match st with | some n => (rows - n / cols) * rowMin e.blk z.1 q.type | none => 0
  match s.refsLost e q cs [] with
  | none => none
  | some lost =>
    if shaped && excess ≤ room then
      some { bits := (spent.getLast?).getD 0, starved := st.map (· / cols), hidden := (hid.filter id).length,
             intra := (cs.filter (fun c => c.mode == .intra)).length, skip := (cs.filter (fun c => c.mode == .skip)).length,
             qpAvg := (roundFree [0x72, e.handle.toNat, q.seq] ((4 * sumNat ((List.range cs.length).map qp) : Nat) / (Nat.max 1 cs.length : Nat))).toNat,
             lost := lost }
    else none

/-! ## The ring -/

/-- The bytes of a ring record (Table 07-14). -/
def ringRecord (type flags len fn last : Nat) (more : List Field) (payload : List Byte) : List Byte :=
  padTo (64 + roundUp payload.length 64)
    (layout 64 ([(0x00, 1, type), (0x01, 1, flags), (0x04, 4, len), (0x08, 4, fn), (0x0C, 4, last)] ++ more) ++ payload)

/-- A position advanced by a number of bytes; the end of the area is its start after one more wrap. -/
def RingPos.plus (p : RingPos) (area n : Nat) : RingPos :=
  if area ≤ p.off + n then { off := p.off + n - area, wraps := p.wraps + 1 } else { p with off := p.off + n }

/-- Writes one record at a position of a ring, after a PAD record where it does not fit before the area's end (R213). -/
def State.ringPut (ring area : Nat) (pos : RingPos) (rec_ : List Byte) (s : State) : State × RingPos :=
  if pos.off + rec_.length ≤ area then (s.writeMem (ring + 64 + pos.off) rec_, pos.plus area rec_.length)
  else
    let t := s.writeMem (ring + 64 + pos.off) (ringRecord 2 0 0 0 0 [] [])
    (t.writeMem (ring + 64) rec_, { off := rec_.length, wraps := pos.wraps + 1 })

/-- The runs of consecutive FNs of one kind: kind, first, last (R213). -/
def gapRuns : List (Nat × Nat) → List (Nat × Nat × Nat)
  | [] => []
  | (n, k) :: rest =>
    match gapRuns rest with
    | (k2, a, b) :: more => if k2 = k && a = n + 1 then (k, n, b) :: more else (k, n, n) :: (k2, a, b) :: more
    | [] => [(k, n, n)]

/-- The number of a type of picture in records. -/
def PicType.code : PicType → Nat
  | .idr => 0
  | .p => 1
  | .b => 2

/-- The GAP records due before the next AU, each a run of FNs of one kind (R213). -/
def EncSession.gapRecords (e : EncSession) : List (List Byte) :=
  (gapRuns (sortBy (fun x => (x.1 : Int)) e.gaps)).map (fun g => ringRecord 3 g.1 0 g.2.1 g.2.2 [(0x14, 2, e.run)] [])

/-- The position after a record, past a PAD where it does not fit before the area's end. -/
def RingPos.after (p : RingPos) (area n : Nat) : RingPos :=
  if p.off + n ≤ area then p.plus area n else { off := n, wraps := p.wraps + 1 }

/-- Writes records in order from a position. -/
def State.ringPuts (ring area : Nat) (pos : RingPos) (rs : List (List Byte)) (s : State) : State × RingPos :=
  rs.foldl (fun (a : State × RingPos) r => a.1.ringPut ring area a.2 r) (s, pos)

/-- Whether records fit in the free space of a session's ring with the PAD that they may need. Where they do not, the access unit waits: a reservation does
not count the tail that a PAD fills, nor more than one GAP record (DESIGN CHOICE, log 36). -/
def EncSession.roomFor (e : EncSession) (rd : RingPos) (rs : List (List Byte)) : Bool :=
  let stop := rs.foldl (fun (p : RingPos) r => p.after e.area r.length) e.wr
  (stop.wraps * e.area + stop.off) - (e.wr.wraps * e.area + e.wr.off) ≤ ringFree e.area e.wr rd

/-- The ring record of a picture's access unit. -/
def EncSession.auRecord (e : EncSession) (q : EncPic) (f : EncFrame) (flags : Nat) (payload : List Byte) : List Byte :=
  ringRecord 1 (flags % 256) payload.length q.fn q.seq
    ([(0x10, 4, wrapInt 32 (e.poc q.fn q.type)), (0x14, 2, e.run), (0x16, 1, q.type.code + 8 * q.layer)] ++ timeFields f.exposure 0x18 0x20 0x1E) payload

/-- FLAGS of a picture's statistics record (Table 07-15). -/
def picFlags (q : EncPic) (f : EncFrame) (n : PicResult) (late : Bool) : Nat :=
  bit01 n.starved.isSome + 2 * bit01 (n.hidden != 0) + 4 * bit01 (!n.lost.isEmpty) + 16 * bit01 late + 32 * bit01 q.missed
    + 64 * bit01 q.redone + 128 * bit01 f.zeroSeed + 256 * bit01 f.oldSums

/-- What the commit of a picture changes in its session (R203, R206, R208, R210): the picture is coded, the pool and the rate state follow. -/
def EncSession.commit (x : EncSession) (q : EncPic) (f : EncFrame) (n : PicResult) (late : Bool) (wr rd : RingPos) : EncSession :=
  let mine := q.mini == x.gopNext
  let rated := rbMode q.rate != 0
  let idr := (q.type) matches .idr
  let old := if idr then [] else x.refs.filter (fun r => !n.lost.contains r.fn)
  let new : List RefPic := match q.slot with
    | some i => [{ fn := q.fn, layer := q.layer, long := none, slot := i, deadline := f.deadline }]
    | none => []
  ({ x with
      pics := x.pics.filter (fun p => p.seq != q.seq), wr := wr, rd := rd, frames := x.frames.filter (fun g => g.fn != q.fn), gaps := [],
      gop := x.gop.filter (· != q.fn), coded := if mine then x.coded ++ [(q.fn, q.layer)] else x.coded,
      refs := old ++ new, idrNext := x.idrNext || !n.lost.isEmpty, lastIdr := if idr then q.fn else x.lastIdr,
      targets := if idr then x.targets.filter (fun (g : IdrTarget) => Nat.blt q.fn g.fn) else x.targets,
      alphas := if rated then vmod x.alphas q.type.idx (fun _ => some (n.bits, q.cPic, n.qpAvg)) else x.alphas,
      qpLast := vmod x.qpLast (Nat.min q.layer 3) (fun _ => some q.qpBase),
      devs := if rated then (((q.nominal : Int) - (n.bits : Int)) :: x.devs).take 8 else x.devs,
      overs := if rated then x.overs + (n.bits - q.budget) else x.overs,
      pool := if mine then x.pool - (n.bits : Int) else x.pool,
      cpb := x.cpb - (n.bits : Nat),
      cnt := { x.cnt with
        pictures := x.cnt.pictures.satInc, starved := if n.starved.isSome then x.cnt.starved.satInc else x.cnt.starved,
        late := if late then x.cnt.late.satInc else x.cnt.late, refLost := if n.lost.isEmpty then x.cnt.refLost else x.cnt.refLost.satInc,
        concealed := if n.hidden = 0 then x.cnt.concealed else x.cnt.concealed.satInc } } : EncSession).trim

/-- The commit of a picture (R203, R206 to R210, R213, R215): GAP records, the AU, WR, the statistics record, and the reconstruction. -/
def State.encCommit (e : EncSession) (q : EncPic) (f : EncFrame) (role : Nat) (au : List Byte) (n : PicResult) (recon : List (List Nat)) (s : State) : State :=
  let late := Nat.blt q.deadline s.ns
  let flags := picFlags q f n late
  let rec_ := e.auRecord q f flags au
  let g := s.ringPuts e.ringAddr e.area e.wr e.gapRecords
  let w := g.1.ringPut e.ringAddr e.area g.2 rec_
  let off := if g.2.off + rec_.length ≤ e.area then g.2.off else 0
  let t := w.1.writeMem e.ringAddr (leBytes 4 w.2.off ++ leBytes 4 w.2.wraps)
  let stat := layout 64 [(0x00, 4, q.seq), (0x04, 4, q.fn), (0x08, 2, e.run), (0x0A, 1, q.type.code + 8 * q.layer), (0x0B, 1, q.qpBase),
    (0x0C, 2, flags), (0x0E, 2, n.qpAvg), (0x10, 4, n.bits), (0x14, 4, q.budget), (0x18, 4, n.bits - q.budget), (0x1C, 4, wrapInt 32 (e.poc q.fn q.type)),
    (0x20, 2, n.intra), (0x22, 2, n.skip), (0x24, 2, n.hidden), (0x26, 2, n.starved.getD 0xFFFF), (0x28, 4, q.cPic), (0x2C, 1, role),
    (0x30, 4, nsOf q.startNs), (0x34, 4, nsOf s.ns), (0x38, 4, off)]
  let t := t.putEncStat e q.seq stat
  let pic (c x y : Nat) : Nat := (((recon[c]?).getD [])[y * (if c = 0 then e.kcs.width else ceilDiv e.kcs.width 2) + x]?).getD 0
  let t := match q.slot with
    | some i => t.writeKcs e.kcs (e.slotAddr i) pic
    | none => t
  let t := (t.settleTraffic (.encoder role)).writes .encoder (.encoder role) e.cam (e.ringAddr + 64 + off) rec_.length
  let t := (t.mapEnc e.handle (fun x => x.commit q f n late w.2 (t.readPos e.ringAddr))).releaseEncFrame e q.fn
  let due := match q.type with | .idr => e.targets.filter (fun (g : IdrTarget) => g.fn ≤ q.fn) | _ => []
  let t := due.foldl (fun (u : State) (g : IdrTarget) =>
    u.finish g.by_ (if g.adjusted || g.fn != q.fn then .okAdjusted else .ok) (q.fn % 2 ^ 32) 0 false) t
  ((t.encFinishClose e.handle).jmRates).jmSettle

/-- ENC_PICTURE_COMMIT (R201, R202, R206 to R210, R213, R215, R216): the unit of a role, under its epoch, commits the picture that it codes: the slices and the
report of its CTUs. One with a stale epoch is dropped and logged. Pictures of a session are committed in SEQ order (R215): one that comes before its turn, or
finds no room for its records, waits. -/
def execEncPictureCommit (role : Fin 8) (payload : List Byte) (report : EncReport) (recon : List (List Nat)) (s : State) :
    Host.Outcome State Fault Refusal :=
  let ctus := report.ctus
  if report.epoch != s.mgmt.units.epochOf .encU role.val then .next (s.dropStale (unitHandle 0x05 role.val) report.epoch)
  else match s.encs.find? (fun e => (e.onRole role.val).isSome) with
    | none => .next s
    | some e =>
      match e.pics.head?, e.onRole role.val, (e.onRole role.val).bind (fun q => e.frames.find? (fun f => f.fn == q.fn)) with
      | some first, some q, some f =>
        let head := e.auHead q.type q.layer
        match s.picResult e q f (8 * head.length) ctus with
        | none => .next s
        | some n =>
          let au := head ++ payload
          let ok := first.seq == q.seq && n.bits == 8 * au.length && e.slicesOk q.type q.layer payload
            && e.roomFor (s.readPos e.ringAddr) (e.gapRecords ++ [e.auRecord q f (picFlags q f n (Nat.blt q.deadline s.ns)) au])
          .next (if ok then s.encCommit e q f role.val au n recon else s)
      | _, _, _ => .next s

/-- ENC_RING_POLL (R214): RD_OFF of every session's ring is read again. -/
def execEncRingPoll (s : State) : Host.Outcome State Fault Refusal :=
  .next (s.mapEncs (fun e => !e.released) (fun e => { e with rd := s.readPos e.ringAddr }))

/-- ENC_PICTURE_DROP (R214): the next picture of a session has reached its deadline without room for its reservation. Where no picture of its mini-GOP has
been started, its frame becomes as absent, and the mini-GOP is formed without it. -/
def execEncPictureDrop (h : Handle) (s : State) : Host.Outcome State Fault Refusal :=
  match s.enc h with
  | none => .next s
  | some e =>
    let v := s.encView e
    let g := v.formed
    match g.next with
    | some n =>
      if e.faulted || g.fits n.space || Nat.blt s.ns n.deadline then .next s
      else
        let fn := n.frame.fn
        let stat := dropStat g.seqNext fn g.run n.layer (wrapInt 32 (g.poc fn n.type)) (g.cPic n.frame n.type) s.ns
        let gone (f : EncFrame) : EncFrame := if f.fn == fn then { f with present := some false, dropped := true } else f
        let x : EncSession := if g.anchorDue then { v with frames := v.frames.map gone }
          else { g with gop := g.gop.filter (· != fn), frames := g.frames.filter (fun f => f.fn != fn), gaps := g.gaps ++ [(fn, 2)], elapsed := g.elapsed + 1 }
        let t := (s.putEncStat g g.seqNext stat).releaseEncFrame g fn
        let t := t.mapEnc h (fun _ => { x with
          seqNext := v.seqNext + 1, answer := .none, cnt := { v.cnt with ringDrops := v.cnt.ringDrops.satInc } })
        .next ((t.encFinishClose h).jmRates).jmSettle
    | none => .next s

/-- ENC_WATCHDOG (R216): no CTU of a role's picture has been committed for ENC_WD. -/
def execEncWatchdog (role : Fin 8) (s : State) : Host.Outcome State Fault Refusal :=
  if s.encBusy role.val then .next (s.declareDead .encU role.val Status.hardwareFault.code) else .next s

end Sys2Proof.Machine
end

