-- ==== Sys2Proof/Machine/AudOps.lean ====
section
/-!
DEFINITION. The audio ports (chapter 15): their blocks' fields, the capture and playback rings, capture blocks and their grid, and the fill of a
grouped port whose clock is lost.
-/
namespace Sys2Proof.Machine

/-- Applies a function to the audio ports and media clocks. -/
def State.mapAud (f : AudSt → AudSt) (s : State) : State := { s with aud := f s.aud }
/-- The port of an index, none when it is not configured. -/
def State.port (s : State) (p : Nat) : Option AudPort := vget s.aud.ports none p
/-- Replaces a port. -/
def State.setPort (p : Nat) (x : Option AudPort) (s : State) : State := s.mapAud (fun a => { a with ports := vmod a.ports p (fun _ => x) })
/-- Applies a function to a configured port. -/
def State.mapAport (p : Nat) (f : AudPort → AudPort) (s : State) : State :=
  s.mapAud (fun a => { a with ports := vmod a.ports p (fun o => o.map f) })
/-- The index of the port of a unit handle. -/
def AudSt.portOf (a : AudSt) (h : Handle) : Option Nat :=
  firstIdx (fun (o : Option AudPort) => (o.map (fun x => x.handle == h)).getD false) a.ports.toList
/-- The index of the media clock of a unit handle. -/
def AudSt.clockOf (a : AudSt) (h : Handle) : Option Nat :=
  firstIdx (fun (o : Option MediaClk) => (o.map (fun x => x.handle == h)).getD false) a.clocks.toList

/-! ## The port block (Table 15-1) and the media clock block (Table 15-4) -/

/-- MASTER. -/
def pbMaster (b : List Byte) : Bool := bitOf (f8 b 0) 5
/-- MC. -/
def pbMc (b : List Byte) : Nat := bit01 (bitOf (f8 b 0) 6)
/-- SLOTS. -/
def pbSlots (b : List Byte) : Nat := f8 b 1
/-- RATE. -/
def pbRate (b : List Byte) : Nat := f32 b 4
/-- PACK. -/
def pbPack (b : List Byte) : Nat := f8 b 0xC % 4
/-- Bytes of a packed sample. -/
def pbBytes (b : List Byte) : Nat := pbPack b + 2
/-- TX_HIZ. -/
def pbHiz (b : List Byte) : Bool := bitOf (f8 b 0xC) 2
/-- HOST_READ. -/
def pbHostRead (b : List Byte) : Bool := bitOf (f8 b 0xC) 3
/-- GROUP. -/
def pbGroup (b : List Byte) : Nat := bitsOf (f8 b 0xC) 6 4
/-- RAMP. -/
def pbRamp (b : List Byte) : Nat := f16 b 0xE
/-- BLOCK_US, 0 selecting 10,000. -/
def pbBlockUs (b : List Byte) : Nat := if f32 b 0x10 = 0 then 10000 else f32 b 0x10
/-- CAP_OFF. -/
def pbCapOff (b : List Byte) : Nat := f32 b 0x14
/-- CAP_LEN. -/
def pbCapLen (b : List Byte) : Nat := f32 b 0x18
/-- PLAY_OFF. -/
def pbPlayOff (b : List Byte) : Nat := f32 b 0x1C
/-- PLAY_LEN. -/
def pbPlayLen (b : List Byte) : Nat := f32 b 0x20
/-- TARGET_US, 0 selecting 10,000. -/
def pbTargetUs (b : List Byte) : Nat := if f32 b 0x24 = 0 then 10000 else f32 b 0x24
/-- Bytes of a frame in the playback ring (R399). -/
def pbFrame (b : List Byte) : Nat := pbSlots b * pbBytes b
/-- Bytes of a capture block at full RX_MASK, every slot captured (R397, log 40). -/
def pbBlockBytes (b : List Byte) : Nat := 64 + roundUp (ceilDiv (pbBlockUs b * pbRate b) 1000000 * pbFrame b) 64

/-- The fields of a port block, in ascending offset order (R392). -/
def audioFields (b : List Byte) : List (Nat × Bool) :=
  let w := f8 b 2
  let n := pbSlots b
  [(0x00, bitsOf (f8 b 0) 1 0 != 3), (0x01, 2 ≤ n && n ≤ 16 && (bitsOf (f8 b 0) 1 0 != 0 || n == 2)),
   (0x02, w == 16 || w == 24 || w == 32), (0x03, (f8 b 3 == 16 || f8 b 3 == 24) && f8 b 3 ≤ w),
   (0x04, 8000 ≤ pbRate b && pbRate b ≤ 192000 && pbRate b * n * w ≤ 49152000), (0x08, Nat.blt (f16 b 8) (2 ^ n)), (0x0A, Nat.blt (f16 b 0xA) (2 ^ n)),
   (0x0C, (pbPack b == 0) == (f8 b 3 == 16) && pbPack b != 3 && Nat.ble (pbGroup b) 4),
   (0x0E, Nat.ble (pbRamp b) 1024), (0x10, 1000 ≤ pbBlockUs b && pbBlockUs b ≤ 100000), (0x14, pbCapOff b % 64 == 0),
   (0x18, pbCapLen b == 0 || (pbCapLen b % 64 == 0 && Nat.ble (64 + 2 * pbBlockBytes b) (pbCapLen b))), (0x1C, pbPlayOff b % 64 == 0),
   (0x20, pbPlayLen b == 0 || (Nat.blt 64 (pbPlayLen b) && (pbPlayLen b - 64) % pbFrame b == 0)),
   (0x24, 1000 ≤ pbTargetUs b && pbTargetUs b ≤ 100000)]

/-- STEER: 0 FIXED, 1 PTP, 2 BUFFER. -/
def mbSteer (b : List Byte) : Nat := f8 b 0 % 4
/-- LEAD. -/
def mbLead (b : List Byte) : Nat := f8 b 1
/-- MAX_PPM, 0 selecting 200. -/
def mbMax (b : List Byte) : Nat := if f16 b 2 = 0 then 200 else f16 b 2
/-- RATE. -/
def mbRate (b : List Byte) : Nat := f32 b 4
/-- KP, 0 selecting 20. -/
def mbKp (b : List Byte) : Rat := ((if f16 b 8 = 0 then 0x1400 else f16 b 8) : Nat) / (256 : Rat)
/-- KI, 0 selecting 2. -/
def mbKi (b : List Byte) : Rat := ((if f16 b 0xA = 0 then 0x0200 else f16 b 0xA) : Nat) / (256 : Rat)

/-- The fields of a media clock block. -/
def clockFields (b : List Byte) : List (Nat × Bool) :=
  [(0x00, Nat.blt (mbSteer b) 3), (0x01, mbSteer b != 2 || Nat.blt (mbLead b) 8), (0x02, Nat.ble (mbMax b) 500), (0x04, 8000 ≤ mbRate b && mbRate b ≤ 192000)]

/-! ## What a port does -/

/-- Whether capture is running. -/
def AudPort.rxOn (x : AudPort) : Bool := x.rx == .on
/-- Whether playback sends frames: running or fading. -/
def AudPort.txOn (x : AudPort) : Bool := match x.tx with | .on _ => true | .fade _ _ => true | _ => false
/-- Whether a direction runs, or waits for its first frame (R393). -/
def AudPort.running (x : AudPort) : Bool := x.rx != .off || x.tx != .off
/-- Record area of the capture ring. -/
def AudPort.capArea (x : AudPort) : Nat := pbCapLen x.blk - 64
/-- Record area of the playback ring. -/
def AudPort.playArea (x : AudPort) : Nat := pbPlayLen x.blk - 64
/-- A position as a count of bytes: wraps × area + offset. -/
def RingPos.count (p : RingPos) (area : Nat) : Nat := p.wraps * area + p.off
/-- The fill of the playback ring in frames, 0 once RD has reached or passed WR (R399, R403). -/
def AudPort.fillFrames (x : AudPort) : Nat := (x.playWr.count x.playArea - x.playRd.count x.playArea) / Nat.max 1 (pbFrame x.blk)
/-- Bits set in a mask. -/
def popCount (m : Nat) : Nat := sumNat ((List.range 16).map (fun i => bit01 (bitOf m i)))

/-- Whether a recording session takes the blocks of a port (R398). -/
def State.portBound (s : State) (p : Nat) : Option Handle :=
  (s.recs.find? (fun (e : RecSession) => e.closing.isNone && e.sources.any (fun y => y.is 4 0 p && !y.gone))).map RecSession.handle

/-- A frame's samples of the slots of a mask, packed (R397). -/
def packSamples (b : List Byte) (mask : Nat) (rx : List Int) : List Byte :=
  (idxWhere (pbSlots b) (fun i => bitOf mask i)).flatMap (fun i =>
    let v := rx.getD i 0
    match pbPack b with
    | 0 => leBytes 2 (wrapInt 16 v)
    | 1 => leBytes 3 (wrapInt 24 v)
    | _ => 0 :: leBytes 3 (wrapInt 24 v))

/-- The bytes of a capture block (Table 15-5) and its payload padded to 64 bytes. -/
def audioBlock (p : Nat) (x : AudPort) (y : AudBlock) (filled stop : Bool) : List Byte :=
  let m := pbMaster x.blk
  layout 64 [(0x00, 1, p),
    (0x01, 1, bit01 y.change + 2 * bit01 filled + 4 * bit01 (x.lost != 0) + 8 * bit01 y.start + 16 * bit01 stop), (0x02, 1, pbPack x.blk),
    (0x03, 1, popCount y.mask), (0x04, 2, y.mask), (0x08, 4, y.frames), (0x0C, 4, y.k), (0x10, 6, secOf (y.stamp / 65536)),
    (0x16, 2, y.stamp % 65536), (0x18, 4, nsOf (y.stamp / 65536)), (0x1C, 4, x.seq), (0x20, 8, y.frameNo),
    (0x28, 4, if m then 0 else wrapInt 32 x.ppm), (0x2C, 4, x.lost), (0x30, 4, pbRate x.blk)]
  ++ padTo (roundUp y.data.length 64) y.data

/-- Writes a capture block into the ring (R397, R398, R400): one that does not fit is discarded and its frames count as lost before the next; without a
consumer the device writes RD as it writes WR; a bound session gets the block. -/
def State.putAudio (p : Nat) (y : AudBlock) (filled stop : Bool) (s : State) : State :=
  match s.port p with
  | none => s
  | some x =>
    let bytes := audioBlock p x y filled stop
    let n := bytes.length
    let ring := x.base + pbCapOff x.blk
    let bound := s.portBound p
    let watched := bound.isSome || pbHostRead x.blk
    let rd := if watched then s.readPos ring else x.capWr
    if ringFree x.capArea x.capWr rd < ringNeeds x.capArea x.capWr n then
      s.mapAport p (fun z => { z with lost := z.lost + y.frames, cnt := { z.cnt with dropped := z.cnt.dropped.satInc, lost := satAdd z.cnt.lost y.frames } })
    else
      let at_ : RingPos := if x.capWr.off + n ≤ x.capArea then x.capWr else { off := 0, wraps := x.capWr.wraps + 1 }
      let addr := ring + 64 + at_.off
      let wr := at_.plus x.capArea n
      let pos := leBytes 4 wr.off ++ leBytes 4 wr.wraps
      let t := ((s.writeMem (addr + 64) (bytes.drop 64)).writeMem addr (bytes.take 64)).writeMem ring (if watched then pos else pos ++ pos)
      let t := t.writes .audio (.audio p) noCam addr n
      let t := t.mapAport p (fun z => { z with
        capWr := wr, seq := z.seq + 1, lost := 0,
        cnt := { z.cnt with blocks := z.cnt.blocks.satInc, filled := if filled then z.cnt.filled.satInc else z.cnt.filled } })
      if bound.isSome then t.recOffer 4 0 p (.audio addr n y.stamp) else t

/-- Closes the open block of a port, when there is one. -/
def State.closeAudio (p : Nat) (stop : Bool) (s : State) : State :=
  match (s.port p).bind AudPort.block with
  | none => s
  | some y => (s.putAudio p y false stop).mapAport p (fun z => { z with block := none })

/-- The grid interval of a time in ns (R397). -/
def AudPort.interval (x : AudPort) (ns : Nat) : Nat := ns / (pbBlockUs x.blk * 1000)

/-- The frames of grid interval k at the nominal rate (R402). -/
def gridFrames (b : List Byte) (k : Nat) : Nat :=
  (k + 1) * pbBlockUs b * pbRate b / 1000000 - k * pbBlockUs b * pbRate b / 1000000

/-- Captures one frame (R397, R400): blocks are cut at grid boundaries. -/
def State.captureFrame (p : Nat) (rx : List Int) (s : State) : State :=
  match s.port p with
  | none => s
  | some x =>
    let k := x.interval s.ns
    let t := match x.block with
      | some y => if y.k = k then s else s.closeAudio p false
      | none => s
    t.mapAport p (fun z =>
      let y : AudBlock := z.block.getD { k := k, mask := z.rxMask, stamp := s.time.stamp, frameNo := z.frameNo, frames := 0, data := [],
                                          change := z.changed, start := z.firstBlock }
      { z with block := some { y with frames := y.frames + 1, data := y.data ++ packSamples z.blk z.rxMask rx }, changed := false, firstBlock := false,
               grid := if z.grid.1 = k then (k, z.grid.2 + 1) else (k, 1), lastNs := s.ns })

/-- A frame of an ungrouped port that is the first since its clock returned: the frames missing are estimated from the time elapsed (R402). -/
def AudPort.missed (x : AudPort) (p ns : Nat) : Nat :=
  (roundFree [0x150, p, x.frameNo] (((ns - x.lastNs : Nat) : Rat) * (pbRate x.blk : Nat) / 1000000000 - 1)).toNat

/-! ## Playback -/

/-- The samples of one frame of the playback ring. -/
def unpackFrame (b : List Byte) (bs : List Byte) : List Int :=
  (List.range (pbSlots b)).map (fun i =>
    match pbPack b with
    | 0 => fs16 bs (2 * i)
    | 1 => sext 24 (fld bs (3 * i) 3)
    | _ => sext 24 (fld bs (4 * i + 1) 3))

/-- A sample scaled by a fraction, the product rounded toward zero (R400). -/
def scaled (num den : Nat) (v : Int) : Int := Int.tdiv (v * (num : Int)) (den : Int)

/-- The slots of a frame sent: data in the slots of TX_MASK, zero or high impedance in the others. -/
def slotsOut (b : List Byte) (mask : Nat) (v : Nat → Int) : List (Option Int) :=
  (List.range (pbSlots b)).map (fun i => if bitOf mask i then some (v i) else if pbHiz b then none else some 0)

/-- Sends one frame of the playback ring (R399, R400, R403): an empty ring sends zeros; RD advances in every case. -/
def State.playFrame (p : Nat) (s : State) : State :=
  match s.port p with
  | none => s
  | some x =>
    if !x.txOn then s
    else
      let ring := x.base + pbPlayOff x.blk
      let n := pbFrame x.blk
      let empty := x.fillFrames == 0
      let data := unpackFrame x.blk (s.readMem (ring + 64 + x.playRd.off) n)
      let den := pbRamp x.blk + 1
      let num := match x.tx with
        | .on sent => if sent < pbRamp x.blk then sent + 1 else den
        | .fade sent _ => pbRamp x.blk - sent
        | _ => 0
      let v (i : Nat) : Int := if empty then 0 else scaled num den (data.getD i 0)
      let rd := x.playRd.plus x.playArea n
      let t := (s.emit (.audioOut p (slotsOut x.blk x.txMask v))).writeMem (ring + 8) (leBytes 4 rd.off ++ leBytes 4 rd.wraps)
      (t.reads .audio (.audio p) noCam (ring + 64 + x.playRd.off) n).mapAport p (fun z => { z with
        playRd := rd, under := empty,
        tx := match z.tx with
          | .on sent => .on (sent + 1)
          | .fade sent refs => .fade (sent + 1) refs
          | o => o,
        cnt := if empty then { z.cnt with underrun := z.cnt.underrun.satInc } else z.cnt })

/-- A fade that has sent all its frames ends: playback is stopped, and the commands that stopped it complete with the last frame's number. -/
def State.endFade (p last : Nat) (s : State) : State :=
  match s.port p with
  | none => s
  | some x =>
    match x.tx with
    | .fade sent refs =>
      if pbRamp x.blk ≤ sent then
        refs.foldl (fun t r => t.finish r .ok (last % 2 ^ 32) 0 false) (s.mapAport p (fun z => { z with tx := .off, under := false }))
      else s
    | _ => s

end Sys2Proof.Machine
end

