-- ==== Sys2Proof/Machine/AudCmds.lean ====
section
/-!
DEFINITION. The audio commands (Table 15-2) and the events of the audio ports and media clocks (chapter 15).
-/
namespace Sys2Proof.Machine

/-! ## Commands -/

/-- The claim of a resource of the ownership table: CONFLICT when another handle holds it (R393). -/
def needFree (owner : Option Handle) (id : Nat) : Chk Unit :=
  match owner with
  | none => .ok ()
  | some h => .error (conflict h id)

/-- The AUD_SET_SLOTS that still wait for a frame sync of a port that is configured again or released fail (DESIGN CHOICE, log 40). -/
def State.dropSlots (p : Nat) (s : State) : State :=
  (((s.port p).map AudPort.slotRefs).getD []).foldl (fun u r => u.finish r .notReady 0xD0 0 false) s

/-- AUD_PORT_CONFIGURE OP 0 (R392, R393, R395): configures a port; FRAME_NO, the sequence and the counters start again. -/
def audConfigurePort (c : Cmd) (s : State) : Chk Done := do
  let own ← if c.handle = 0 then .ok (bitsOf (par c 0) 10 8) else needSome (s.aud.portOf c.handle) (badHandle c.handle 0)
  if c.handle = 0 then needFree ((s.port own).map AudPort.handle) (0xD00 + own)
    else need (!((s.port own).map AudPort.running).getD false) (notReady 0xD1)
  let b ← structFor s c (.read 48)
  needFields (audioFields b)
  if pbMaster b then do
    let k ← needSome (vget s.aud.clocks none (pbMc b)) (notReady 0xD2)
    need (mbRate k.blk == pbRate b) (badStruct 0x04)
  else .ok ()
  let y ← needBuffer s c.aux 1
  let h := if c.handle = 0 then s.nextHandle 0xA else c.handle
  let cap ← needInBuffer s y (pbCapOff b) (pbCapLen b)
  let play ← needInBuffer s y (pbPlayOff b) (pbPlayLen b)
  needUnpinnedBut s h cap (pbCapLen b)
  needUnpinnedBut s h play (pbPlayLen b)
  let x : AudPort :=
    { handle := h, blk := b, buf := c.aux, base := y.base, rxMask := f16 b 8, txMask := f16 b 0xA, newRx := none, newTx := none, slotRefs := [],
      counts := false, frameNo := 0, clock := true, okRun := 0, ppm := 0, rx := .off, tx := .off, stops := [], block := none, fill := none,
      firstBlock := false, changed := false, lost := 0, grid := (0, 0), lastNs := 0, seq := 0, capWr := { off := 0, wraps := 0 },
      playRd := { off := 0, wraps := 0 }, playWr := { off := 0, wraps := 0 }, under := false, tail := 0, cnt := AudCounters.zero }
  let t := (if c.handle = 0 then s.issue 0xA else s.dropSlots own).setPort own (some x)
  okDone h.toNat (pbBlockBytes b) t

/-- Whether a configured port runs from a media clock. -/
def State.clockUsed (s : State) (k : Nat) : Bool :=
  s.aud.ports.toList.any (fun (o : Option AudPort) => (o.map (fun x => pbMaster x.blk && pbMc x.blk == k)).getD false)

/-- AUD_PORT_CONFIGURE OP 1 (R393, R396): configures a media clock; a held one takes its new block at the next update. -/
def audConfigureClock (c : Cmd) (s : State) : Chk Done := do
  let k ← if c.handle = 0 then (do
      need (Nat.blt (bitsOf (par c 0) 10 8) 2) (badParam 0)
      .ok (bitsOf (par c 0) 10 8)) else needSome (s.aud.clockOf c.handle) (badHandle c.handle 0)
  let old : Option MediaClk := vget s.aud.clocks none k
  if c.handle = 0 then needFree (old.map MediaClk.handle) (0xD10 + k) else .ok ()
  need (c.aux == 0) (badPacket 0x0C)
  let b ← structFor s c (.read 16)
  needFields (clockFields b)
  need (((old.map (fun x => mbRate (x.next.getD x.blk) == mbRate b)).getD true) || !s.clockUsed k) (notReady 0xD3)
  let lead := s.port (mbLead b)
  let good : Bool := (lead.map (fun x => pbMaster x.blk && pbMc x.blk == k && pbPlayLen x.blk != 0)).getD false
  need (mbSteer b != 2 || good) (notReady 0xD4)
  let h := if c.handle = 0 then s.nextHandle 0xA else c.handle
  let x : MediaClk := match old with
    | some o => if s.clockUsed k then { o with next := some b } else { o with blk := b, next := none }
    | none => { handle := h, blk := b, next := none, ppm := 0, acc := 0 }
  okDone h.toNat 0 ((if c.handle = 0 then s.issue 0xA else s).mapAud (fun a => { a with clocks := vmod a.clocks k (fun _ => some x) }))

/-- AUD_PORT_CONFIGURE OP 2 (R393): releases a port that is stopped, or a media clock that no port uses. Without a unit there is nothing to release
(log 40). -/
def audRelease (c : Cmd) (s : State) : Chk Done := do
  need (c.handle != 0) (notReady 0xD0)
  need (c.aux == 0) (badPacket 0x0C)
  let _ ← structFor s c .none
  match s.aud.portOf c.handle, s.aud.clockOf c.handle with
  | some p, _ => do
    need (!((s.port p).map AudPort.running).getD false) (notReady 0xD1)
    okDone c.handle.toNat 0 (((s.dropSlots p).recGone 4 0 p).setPort p none)
  | none, some k => do
    need (!s.clockUsed k) (notReady 0xD3)
    okDone c.handle.toNat 0 (s.mapAud (fun a => { a with clocks := vmod a.clocks k (fun _ => none) }))
  | none, none => .error (badHandle c.handle 0)

/-- AUD_PORT_CONFIGURE (R391 to R396). -/
def execAudPortConfigure (c : Cmd) (s : State) : Host.Outcome State Fault Refusal :=
  runCmd .audPortConfigure c s (match bitsOf (par c 0) 1 0 with
    | 0 => audConfigurePort c s
    | 1 => audConfigureClock c s
    | 2 => audRelease c s
    | _ => .error (badParam 0))

/-- The port of a command. -/
def needPort (s : State) (c : Cmd) : Chk (Nat × AudPort) := do
  let p ← needSome (s.aud.portOf c.handle) (badHandle c.handle 0)
  let x ← needSome (s.port p) (notReady 0xD0)
  return (p, x)

/-- The first grid boundary of a port at or after a time. -/
def AudPort.boundary (x : AudPort) (ns : Nat) : Nat := ceilDiv ns (pbBlockUs x.blk * 1000) * (pbBlockUs x.blk * 1000)

/-- AUD_START (R400): each direction named waits for its first frame. A direction without a ring or, for capture, without a slot cannot start, and one
that runs must be stopped first (log 40). -/
def execAudStart (c : Cmd) (s : State) : Host.Outcome State Fault Refusal :=
  runCmd .audStart c s do
    let px ← needPort s c
    let p := px.1
    let x := px.2
    let rx := bitOf (par c 0) 0
    let tx := bitOf (par c 0) 1
    let at_ := bitOf (par c 0) 2
    needPar0 ((rx || tx) && (!rx || (pbCapLen x.blk != 0 && x.newRx.getD x.rxMask != 0)) && (!tx || pbPlayLen x.blk != 0))
    need (if at_ then Nat.blt (par c 2) 1000000000 else par c 2 == 0) (badParam 2)
    need (at_ || par c 1 == 0) (badParam 1)
    need (!(rx && x.rx != .off) && !(tx && x.tx != .off)) (notReady 0xD1)
    let given := (s.ns / 1000000000 / 2 ^ 32 * 2 ^ 32 + par c 1) * 1000000000 + par c 2
    let soonest := s.ns + 100000
    let late : Bool := at_ && Nat.blt given soonest
    need (!(late && strict c)) { status := .tooLate, r0 := secOf soonest % 2 ^ 32, r1 := nsOf soonest }
    let due := if at_ then (if late then soonest else given) else s.ns
    let rxDue := if pbGroup x.blk = 0 then (if at_ then due else 0) else x.boundary due
    let cmd := some (ref .audStart c, late)
    waitDone .audStart c (s.setPort p (some { x with
      counts := true, tail := 2,
      rx := if rx then .wait { due := rxDue, cmd := cmd } else x.rx,
      tx := if tx then .wait { due := if at_ then due else 0, cmd := if rx then none else cmd } else x.tx }))

/-- AUD_STOP (R400): takes effect at the next frame sync; a direction that does not run has stopped already. -/
def execAudStop (c : Cmd) (s : State) : Host.Outcome State Fault Refusal :=
  runCmd .audStop c s do
    let px ← needPort s c
    let x := px.2
    let rx := bitOf (par c 0) 0
    let tx := bitOf (par c 0) 1
    needPar0 (rx || tx)
    let stop : AudStop := { ref := ref .audStop c, rx := rx && x.rx != .off, tx := tx && x.tx != .off }
    if stop.rx || stop.tx then waitDone .audStop c (s.setPort px.1 (some { x with stops := x.stops ++ [stop] }))
    else okDone ((x.frameNo - 1) % 2 ^ 32) 0 s

/-- AUD_SET_SLOTS (R401): the masks take effect at the next frame sync; of two commands before it the later wins, mask by mask. -/
def execAudSetSlots (c : Cmd) (s : State) : Host.Outcome State Fault Refusal :=
  runCmd .audSetSlots c s do
    let px ← needPort s c
    let x := px.2
    let rxm := bitsOf (par c 0) 15 0
    let txm := bitsOf (par c 0) 31 16
    let rxv := bitOf (par c 1) 0
    let txv := bitOf (par c 1) 1
    needPar0 ((!rxv || (Nat.blt rxm (2 ^ pbSlots x.blk) && (rxm != 0 || x.rx == .off))) && (!txv || Nat.blt txm (2 ^ pbSlots x.blk)))
    waitDone .audSetSlots c (s.setPort px.1 (some { x with
      newRx := if rxv then some rxm else x.newRx, newTx := if txv then some txm else x.newTx, slotRefs := x.slotRefs ++ [ref .audSetSlots c] }))

/-! ## Frames -/

/-- The masks that wait take effect (R401): a changed RX_MASK closes the open block, and the commands complete with this frame's number. -/
def State.frameMasks (p : Nat) (s : State) : State :=
  match s.port p with
  | none => s
  | some x =>
    let rxm := x.newRx.getD x.rxMask
    let differs : Bool := rxm != x.rxMask && x.rxOn
    let t := if differs then s.closeAudio p false else s
    let take (z : AudPort) : AudPort :=
      { z with rxMask := rxm, txMask := z.newTx.getD z.txMask, newRx := none, newTx := none, slotRefs := [], changed := z.changed || differs }
    let t := t.mapAport p take
    x.slotRefs.foldl (fun u r => u.finish r .ok (x.frameNo % 2 ^ 32) 0 false) t

/-- The command of a start that a stop overtakes completes with the number of the frame at which both take effect, and nothing has been captured or sent
(DESIGN CHOICE, log 40). -/
def State.dropStart (frameNo : Nat) (w : AudWait) (s : State) : State :=
  match w.cmd with
  | some (r, adj) => s.finish r (if adj then .okAdjusted else .ok) (frameNo % 2 ^ 32) 0 false
  | none => s

/-- One stop takes effect (R400): capture closes its block with STOP; playback begins its fade, which ends the command. -/
def State.frameStop (p : Nat) (y : AudStop) (s : State) : State :=
  match s.port p with
  | none => s
  | some x =>
    let t := if y.rx then
        (match x.rx with
        | .wait w => (s.dropStart x.frameNo w).mapAport p (fun z => { z with rx := .off })
        | .on => (s.closeAudio p true).mapAport p (fun z => { z with rx := .off, fill := none })
        | .off => s)
      else s
    let done (u : State) : State := u.finish y.ref .ok ((x.frameNo - 1) % 2 ^ 32) 0 false
    if y.tx then
      match x.tx with
      | .wait w => done ((t.dropStart x.frameNo w).mapAport p (fun z => { z with tx := .off }))
      | .on _ => t.mapAport p (fun z => { z with tx := .fade 0 [y.ref] })
      | .fade n refs => t.mapAport p (fun z => { z with tx := .fade n (refs ++ [y.ref]) })
      | .off => done t
    else done t

/-- The directions whose first frame this is start, and the command completes with its number (R400). -/
def State.frameStart (p : Nat) (s : State) : State :=
  match s.port p with
  | none => s
  | some x =>
    let fin (w : AudWait) (u : State) : State := match w.cmd with
      | some (r, adj) => u.finish r (if adj then .okAdjusted else .ok) (x.frameNo % 2 ^ 32) 0 false
      | none => u
    let begin_ (z : AudPort) : AudPort :=
      { z with rx := .on, firstBlock := true, lost := 0, block := none, fill := none, lastNs := s.ns, grid := (x.interval s.ns, 0) }
    let t := match x.rx with
      | .wait w => if w.due ≤ s.ns && x.clock then fin w (s.mapAport p begin_) else s
      | _ => s
    match x.tx with
    | .wait w => if w.due ≤ s.ns then fin w (t.mapAport p (fun z => { z with tx := .on 0 })) else t
    | _ => t

/-- The clock of a FOLLOW port at a frame sync with a measured rate (R394): lost, it returns after 16 consecutive frames in range; a grouped port resumes
at the next grid boundary (R402). -/
def AudPort.clocked (x : AudPort) (ppm : Int) (ns : Nat) : AudPort :=
  if pbMaster x.blk then x
  else
    let y := { x with ppm := ppm }
    if x.clock then y
    else
      let run := if ppm.natAbs ≤ 5000 * 65536 then x.okRun + 1 else 0
      let f (q : AudFill) : AudFill := { q with resume := some (x.interval ns + 1) }
      if run < 16 then { y with okRun := run }
      else { y with okRun := 0, clock := true, fill := x.fill.map f }

/-- Capture at a frame sync: nothing while the clock is lost; frames before a grouped port resumes are discarded and counted; the first frame of an ungrouped
port after a loss carries the frames missing (R402). -/
def State.frameCapture (p : Nat) (rx : List Int) (s : State) : State :=
  match s.port p with
  | none => s
  | some x =>
    if !x.rxOn then s
    else match x.fill with
    | some f =>
      if pbGroup x.blk = 0 then
        if x.clock then
          let n := x.missed p s.ns
          (s.mapAport p (fun z => { z with fill := none, lost := z.lost + n, cnt := { z.cnt with lost := satAdd z.cnt.lost n } })).captureFrame p rx
        else s
      else if x.clock && f.resume.isSome then
        s.mapAport p (fun z => { z with lost := z.lost + 1, cnt := { z.cnt with lost := satAdd z.cnt.lost 1 } })
      else s
    | none => s.captureFrame p rx

/-- Whether frame syncs reach a port: a MASTER port clocks while a direction runs and 2 frames more (R400). -/
def AudPort.hasFrames (x : AudPort) : Bool := !pbMaster x.blk || x.running || x.tail != 0

/-- AUDIO_FRAME (R391, R397 to R403): a frame sync of a port, with the samples of its slots on DIN and the measured rate of a FOLLOW port in 2^-16 ppm.
FRAME_NO counts it, but for the frames of a grouped capture whose place the fill holds (log 40). -/
def execAudioFrame (p : Fin 8) (rx : List Int) (ppm : Int) (s : State) : Host.Outcome State Fault Refusal :=
  match s.port p with
  | none => .next s
  | some x =>
    if !x.hasFrames || !x.counts then .next s
    else
      let k := p.val
      let t := s.mapAport k (fun z => { z with tail := if z.running then 2 else z.tail - 1 })
      let t := t.frameMasks k
      let t := x.stops.foldl (fun u y => u.frameStop k y) (t.mapAport k (fun z => { z with stops := [] }))
      let t := t.frameStart k
      let t := t.frameCapture k rx
      let t := t.endFade k (x.frameNo - 1)
      let t := t.playFrame k
      let t := t.endFade k x.frameNo
      let held : Bool := x.rxOn && x.fill.isSome && pbGroup x.blk != 0
      .next (t.mapAport k (fun z => { z.clocked ppm s.ns with frameNo := if held then z.frameNo else z.frameNo + 1 }))

/-- AUDIO_CLOCK_LOSS (R394, R402): a FOLLOW port's clock is lost. Its open block ends with the last frame written, and a grouped capture fills from there. -/
def execAudioClockLoss (p : Fin 8) (s : State) : Host.Outcome State Fault Refusal :=
  match s.port p with
  | none => .next s
  | some x =>
    if pbMaster x.blk || !x.clock || !x.counts then .next s
    else
      let t := s.closeAudio p false
      let t := t.mapAport p (fun z => { z with
        clock := false, okRun := 0, cnt := { z.cnt with clockLosses := z.cnt.clockLosses.satInc },
        fill := if z.rxOn then some { k := z.grid.1, written := z.grid.2, resume := none } else none })
      .next (t.logEvent { source := 0x0D, unit := x.handle, detail := [p.val] })

/-- The computed time of the first frame of a FILLED block in 2^-16 ns: the frames written, at RATE, after the interval's start (log 40). -/
def fillStamp (p : Nat) (x : AudPort) (f : AudFill) : Nat :=
  (roundFree [0x151, p, f.k] ((f.k * pbBlockUs x.blk * 1000 * 65536 : Nat) + ((f.written * 1000000000 * 65536 : Nat) : Rat) / (pbRate x.blk : Nat))).toNat

/-- FILLED_BLOCK (R402): a grid interval has passed for a grouped capture without clock: a block of zeros stands for the frames of it that were not written. -/
def execFilledBlock (p : Fin 8) (s : State) : Host.Outcome State Fault Refusal :=
  match s.port p with
  | none => .next s
  | some x =>
    match x.fill with
    | none => .next s
    | some f =>
      if pbGroup x.blk = 0 || !x.rxOn then .next s
      else
        let n := gridFrames x.blk f.k - f.written
        let y : AudBlock := { k := f.k, mask := x.rxMask, stamp := fillStamp p x f, frameNo := x.frameNo, frames := n,
                              data := zeros (n * (popCount x.rxMask * pbBytes x.blk)), change := x.changed, start := x.firstBlock }
        let t := if n = 0 then s else (s.putAudio p y true false).mapAport p (fun z => { z with frameNo := z.frameNo + n, changed := false, firstBlock := false })
        let overs : Bool := (f.resume.map (fun r => Nat.ble r (f.k + 1))).getD false
        .next (t.mapAport p (fun z => { z with fill := if overs && z.clock then none else some { k := f.k + 1, written := 0, resume := f.resume } }))

/-! ## Media clocks -/

/-- One step of the BUFFER loop (R396) on the fill of the lead port. -/
def MediaClk.steer (m : MediaClk) (x : AudPort) : MediaClk :=
  let max : Rat := (mbMax m.blk : Nat)
  let e : Rat := ((x.fillFrames : Rat) / (pbRate x.blk : Nat) - (pbTargetUs x.blk : Nat) / 1000000) * 1000
  let lim : Rat := max / mbKi m.blk
  let acc := clampRat (-lim) lim (m.acc + e / 100)
  let want := clampRat (-max) max (mbKp m.blk * e + mbKi m.blk * acc)
  { m with acc := acc, ppm := clampRat (m.ppm - 10) (m.ppm + 10) want }

/-- MEDIA_CLOCK_UPDATE (R396): a block that waits takes effect, and a BUFFER clock is steered unless its lead port underruns or does not play. The steering
of a PTP clock is stated by its result only: its ppm is free inside MAX_PPM (log 40). -/
def execMediaClockUpdate (k : Fin 2) (s : State) : Host.Outcome State Fault Refusal :=
  match vget s.aud.clocks none k.val with
  | none => .next s
  | some m =>
    let m1 : MediaClk := { m with blk := m.next.getD m.blk, next := none }
    let m2 : MediaClk := match mbSteer m1.blk with
      | 0 => { m1 with ppm := 0 }
      | 1 => { m1 with ppm := (clampInt (-(mbMax m1.blk : Nat)) (mbMax m1.blk : Nat) (Config.freeInt s.fresh) : Int) }
      | _ => match s.port (mbLead m1.blk) with
        | some x => if x.txOn && !x.under && x.fillFrames != 0 then m1.steer x else m1
        | none => m1
    .next ((s.mapAud (fun a => { a with clocks := vmod a.clocks k.val (fun _ => some m2) })).tickFresh)

/-- PLAYBACK_POLL (R399): the device reads WR_OFF of a playback ring, with WR_WRAPS. -/
def execPlaybackPoll (p : Fin 8) (s : State) : Host.Outcome State Fault Refusal :=
  match s.port p with
  | none => .next s
  | some x =>
    if pbPlayLen x.blk = 0 then .next s
    else
      let b := s.readMem (x.base + pbPlayOff x.blk) 8
      .next (s.mapAport p (fun z => { z with playWr := { off := f32 b 0, wraps := f32 b 4 } }))

end Sys2Proof.Machine
end

