-- ==== Sys2Proof/Machine/Camera.lean ====
section
/-!
DEFINITION. The camera commands (chapter 03): CAM_CONFIGURE, CAM_START, CAM_STOP, CAM_SENSOR_WRITE and CAM_TRIGGER_PLAN, the answers
on the hub control channel, and the sending of triggers.
-/
namespace Sys2Proof.Machine

/-- The context of a live camera handle, else INVALID_HANDLE. -/
def needCam (s : State) (h : Handle) : Chk Nat := needSome (s.cams.find h) (badHandle h 0)

/-! ## Defaults -/

/-- The default block of a raw stage (Tables 04-10 to 04-17). -/
def stageDefault (p : List Byte) (i : Nat) : List Byte :=
  match i with
  | 0 => zeros 16
  | 1 => layout 208 [(0xC0, 4, 2 ^ pfDepth p - 1), (0xC4, 4, 2 ^ pfDepth p - 1), (0xC8, 4, 2 ^ pfDepth p - 1)]
  | 2 => layout 16 [(2, 2, 0x6000), (4, 2, 0x6000)]
  | 3 => layout 32 [(0, 2, 2), (2, 2, 0x7D71), (0x0C, 2, 0x6666), (0x0E, 2, 0x799A), (0x10, 2, 0x6666), (0x12, 2, 0x799A),
                    (0x14, 2, 0x4000), (0x16, 2, 0x4000), (0x18, 2, 0x4000)]
  | 4 => patch (layout 32 [(2, 2, 0x1000), (4, 2, 0x4000)]) 8
          ([255, 230, 200, 165, 130, 100, 72, 50, 32, 20, 12, 6, 3, 1, 0, 0].map (BitVec.ofNat 8))
  | 5 => layout 16 [(0, 2, 0xC000), (2, 2, 0x3000), (4, 2, 0xFFFF)]
  | 6 => zeros 8
  | 7 => zeros 8
  | _ => layout 16 [(2, 2, 0x8000), (4, 1, 0xFF)]

/-- The default input matrix: the identity on R, G and B (Table 05-4). -/
def matrixDefault : List Byte := layout 112 [(0x04, 4, 0x3F800000), (0x18, 4, 0x3F800000), (0x2C, 4, 0x3F800000)]

/-- The default spectral block (Table 05-13). -/
def spectralDefault : List Byte :=
  layout 96 [(0x00, 2, 0x10), (0x02, 2, 0x41), (0x08, 2, 0x2000), (0x12, 2, 0x2000), (0x1C, 2, 0x2000), (0x26, 2, 0x2000),
             (0x28, 2, 0x1000), (0x2A, 2, 0x1000), (0x2C, 2, 0x1000), (0x2E, 2, 0x1000)]

/-- The default limits (Table 06-10). -/
def limitsDefault (p : List Byte) : List Byte :=
  patch (layout 128 [(0x0C, 4, pfPeriod p), (0x10, 4, pfPeriod p), (0x14, 4, pfPeriod p), (0x18, 4, 0x01000000), (0x1C, 4, 0xFFFFFFFF),
    (0x20, 4, 0x1000), (0x24, 4, 0xFFFFF), (0x28, 2, 0xFFFF)]) 0x58 (List.replicate 40 255)

/-- The sets that a context holds after CAM_CONFIGURE of a free context (Table 04-5, R144). The stages that cannot be disabled are
enabled, every other one is disabled (DESIGN CHOICE, log 28). -/
def ParamSet.default (p : List Byte) : ParamSet :=
  { ParamSet.empty with
    stages := Vector.ofFn (fun i => { on := [0, 1, 7, 8].contains i.val, blk := stageDefault p i.val }),
    matrix := matrixDefault, spectral := spectralDefault }

/-! ## CAM_CONFIGURE -/

/-- Whether a replacement returns the sets to their defaults (Table 04-5). -/
def geometryChanged (a b : List Byte) : Bool :=
  pfW a != pfW b || pfH a != pfH b || pfDepth a != pfDepth b || pfNexp a != pfNexp b || pfCfa a != pfCfa b

/-- The context that holds a parallel port, other than one. -/
def State.portHolder (s : State) (src own : Nat) : Option Nat :=
  if src = 0 then none
  else firstIdx (fun x => x.1.state != .idle && pfSource x.1.profile == src && x.2 != own) s.cams.ctx.toList.zipIdx

/-- CAM_CONFIGURE (R70, R73, R78, R89, R96). -/
def execCamConfigure (c : Cmd) (s : State) : Host.Outcome State Fault Refusal :=
  runCmd .camConfigure c s do
    needPar0 (c.handle == 0 || par c 0 == 0)
    let cam ← if c.handle = 0 then .ok (par c 0) else needCam s c.handle
    needPar0 (Nat.blt cam 48)
    let x := s.cam cam
    if c.handle = 0 then
      match s.reservedBy cam with
      | some h => .error (conflict h (0xE00 + cam))
      | none => need (x.state == .idle) (conflict x.handle (0x200 + cam))
    else if x.starting.isSome then .error (notReady 0x06)
    else need (x.state == .configured || x.state == .suspended) (notReady 0x02)
    let p ← structBytes s c
    needFields (profileFields p)
    needFields (profileRelations p)
    needFields (profileLimit p)
    let b ← needBuffer s c.aux 1
    need (pfQueueBytes p ≤ b.size) (badStruct 0x01A)
    match s.portHolder (pfSource p) cam with
    | some o => .error (conflict (s.camHandle o) (0x300 + pfSource p - 1))
    | none =>
    match s.admitRate p (some cam) 1 with
    | .inr left => .error (overBudget (pfRate p) left)
    | .inl _ =>
      let h := if c.handle = 0 then s.nextHandle 2 else c.handle
      let base : CamCtx := if c.handle = 0 then
          { CamCtx.idle x.run with seq := x.seq, state := .configured, handle := h, next := ParamSet.default p, last := ParamSet.default p }
        else if geometryChanged x.profile p then
          { x with next := { ParamSet.default p with lambda := x.next.lambda, tpred := x.next.tpred, stats := x.next.stats },
                   taps := Vector.replicate 2 Ring.absent, outs := Vector.replicate 4 Ring.absent }
        else x
      let y : CamCtx := { base with
        profile := p, degrade := 1, queueBase := b.base, queueLen := pfQueueBytes p, queueBuf := c.aux, limits := limitsDefault p, bound := false }
      let t := s.mapCam cam (fun _ => y)
      let t := if c.handle = 0 then t.issue 2 else t
      okDone h.toNat (pfQueueBytes p) t

/-! ## Trigger plans -/

/-- The time of a trigger of a plan in ns (R103). -/
def TrigPlan.time (p : TrigPlan) (i : Nat) : Nat := p.first + i * p.period

/-- The smallest index of a plan whose time is not before a time. -/
def TrigPlan.indexAt (p : TrigPlan) (t : Nat) : Nat := if p.first < t then ceilDiv (t - p.first) (Nat.max 1 p.period) else 0

/-- The index from which a plan is cancelled at a time: triggers within 1 ms of firing are kept (R72, R103). -/
def TrigPlan.cutAt (p : TrigPlan) (now : Nat) : Nat :=
  let i := Nat.max p.start (p.indexAt (now + 1000000))
  match p.stop with
  | some n => Nat.min i n
  | none => i

/-- The compare unit of a plan fires no trigger from an index on; with none left it is released with its pin, otherwise they go
with its last pulse (R104). -/
def State.cutUnit (u start stop : Nat) (s : State) : State :=
  match vget s.time.compare none u with
  | none => s
  | some x =>
    if stop - start ≤ x.outputs || x.done then s.releaseCompare u
    else
      (s.mapCompare u (fun y => { y with count := stop - start, handle := 0, plan := none })).mapTime
        (fun t => { t with pins := vmod t.pins x.pin (fun q => { q with release := true }) })

/-- Cancels the plan of a context except the triggers within 1 ms of firing (R72, R103, R104). -/
def State.cutPlan (cam : Nat) (s : State) : State :=
  match (s.cam cam).plan with
  | none => s
  | some p =>
    let stop := if p.held then p.start else p.cutAt s.ns
    let more : List Trigger := (List.range (stop - p.sent)).map (fun i =>
      { index := p.sent + i, time := p.time (p.sent + i), period := p.period, fn := none, sent := false })
    let t := s.mapCam cam (fun c => { c with
      plan := none, triggers := c.triggers.filter (fun x => x.fn.isSome || x.time < s.ns + 1000000) ++ more })
    let t := match p.unit with
      | some u => t.cutUnit u p.start stop
      | none => t
    if p.pin.isNone && Nat.blt stop p.sent then t.sendCtrl cam 0x04 0 0 (stop % 2 ^ 32) [] .cancel else t

/-- Arms the compare unit of a plan from its first index on (R104, R387). -/
def State.armPlan (cam : Nat) (p : TrigPlan) (s : State) : State :=
  match p.unit, p.pin with
  | some u, some n =>
    let left := match p.stop with | some k => k - p.start | none => 0
    s.mapTime (fun t => { t with compare := vmod t.compare u (fun _ => some
      { handle := 0, periodic := true, pol := false, pin := n, pulseNs := p.pulse, first := p.first, period := p.period, count := left,
        next := p.start, outputs := 0, done := p.held || (p.stop.isSome && left == 0), pulse := none, plan := some cam }) })
  | _, _ => s

/-- A held plan begins at CAM_START: its first trigger is the earliest one at least 1 ms after the dispatch (R104). -/
def State.beginPlan (cam dispatch : Nat) (s : State) : State :=
  match (s.cam cam).plan with
  | none => s
  | some p =>
    let i := p.indexAt (dispatch + 1000000)
    let q := { p with held := false, start := i, sent := i }
    (s.mapCam cam (fun c => { c with plan := some q })).armPlan cam q

/-- CAM_TRIGGER_PLAN (R102, R103, R104, Table 03-16). The manual gives PIN to parallel contexts; a plan of an Ozoth context with PIN set is accepted,
and its pin fires in place of TRIGGER_SET cells (DESIGN CHOICE, log 29). -/
def execCamTriggerPlan (c : Cmd) (s : State) : Host.Outcome State Fault Refusal :=
  runCmd .camTriggerPlan c s do
    let cam ← needCam s c.handle
    let x := s.cam cam
    let b ← structBytes s c
    if bitOf (f16 b 0) 2 then do
      need (x.state != .stopping) (notReady 0x02)
      okDone 0 0 (s.cutPlan cam)
    else do
      let pin := bitOf (f16 b 0) 1
      let ozoth := pfOzoth x.profile
      let period := f32 b 0x14
      needFields [(0x00, ozoth || pin), (0x02, !pin || f8 b 0x02 ≤ 31),
        (0x04, !pin || (100 ≤ f32 b 0x04 && f32 b 0x04 ≤ 1000000)), (0x10, Nat.blt (f32 b 0x10) 1000000000),
        (0x14, pfPeriod x.profile ≤ period && period ≤ 4000000000), (0x1C, Nat.blt (f32 b 0x1C) period)]
      need (x.state != .stopping) (notReady 0x02)
      let running := x.state == .running
      need (!(running && ozoth && !pin && x.failed)) (notReady 0x04)
      let start := fld b 0x08 6 * 1000000000 + f32 b 0x10
      let first := if bitOf (f16 b 0) 0 then alignUp start period (f32 b 0x1C) else start
      let lim := match x.plan with
        | some o => if running && o.start < o.cutAt s.ns then
            Nat.max (s.ns + 1000000) (o.time (o.cutAt s.ns - 1) + pfPeriod x.profile) else s.ns + 1000000
        | none => s.ns + 1000000
      let i := if running && first < lim then ceilDiv (lim - first) period else 0
      need (!(i != 0 && strict c)) (tooLate i)
      let t := s.cutPlan cam
      let n := f8 b 0x02
      need (!pin || t.pinFree n || (vget t.time.pins { owner := .free, level := false, release := false } n).owner == .plan cam)
        (conflict (s.pinHolder n) (0x100 + n))
      let u ← if pin then (needSome (firstIdx Option.isNone t.time.compare.toList) (notReady 0x10)).map some else .ok none
      let p : TrigPlan :=
        { first := first, period := period, stop := if f32 b 0x18 = 0 then none else some (f32 b 0x18), pin := if pin then some n else none,
          unit := u, pulse := f32 b 0x04, held := !running, start := i, sent := i,
          align := bitOf (f16 b 0) 0 }
      let t := (t.mapCam cam (fun y => { y with plan := some p })).armPlan cam p
      let t := if pin then t.ownPin n (.plan cam) else t
      if i = 0 then okDone 0 0 t else .ok (.done .okAdjusted (i % 2 ^ 32) 0 t)

/-- TRIGGER_SEND (R103, R378): the next trigger of a plan is within 100 ms. It is sent to the hub when it is still at least 1 ms ahead;
one that a step has brought nearer is not sent but consumes its FN (DEDUCED, log 29). -/
def execTriggerSend (cam : Fin 48) (s : State) : Host.Outcome State Fault Refusal :=
  let c := s.cam cam
  match c.plan with
  | none => .next s
  | some p =>
    let t := p.time p.sent
    if c.state != .running || p.held || !p.has p.sent || s.ns + 100000000 < t then .next s
    else
      let inTime := s.ns + 1000000 ≤ t
      let u := s.mapCam cam (fun c => { c with
        plan := some { p with sent := p.sent + 1 },
        triggers := c.triggers ++ [{ index := p.sent, time := t, period := p.period, fn := none, sent := inTime }] })
      .next (if inTime && p.pin.isNone then
          u.sendCtrl cam 0x03 0 (whenOf t) (p.sent % 2 ^ 32) [] (.trigger p.sent)
        else u)

/-! ## CAM_START -/

/-- The triggers of a plan that fell between a takeover's last frame and its first trigger: they never bring a frame, and each consumes an FN
(R86, R435). -/
def State.missedTriggers (cam : Nat) (s : State) : State :=
  let add (c : CamCtx) : CamCtx :=
    match c.takeFn, c.plan with
    | some x, some p =>
      let more : List Trigger := (List.range (p.start - x.2)).map (fun i => { index := x.2 + i, time := p.time (x.2 + i), period := p.period, fn := none, sent := false })
      { c with takeFn := none, triggers := more ++ c.triggers }
    | _, _ => { c with takeFn := none }
  s.mapCam cam add

/-- The run of a context begins (R71): RUN advances, FN returns to 0, the counters clear and a held plan begins. -/
def State.startRun (cam : Nat) (r : Option CmdRef) (s : State) : State :=
  let c := s.cam cam
  match s.admitRate c.profile (some cam) c.degrade with
  | .inr left => (s.mapCam cam (fun c => { c with starting := none })).finishOpt r .budgetExceeded (pfRate c.profile) left false
  | .inl span =>
    let run := nextEpoch c.run
    let y : CamCtx := { c with
      state := .running, run := run, fnNext := (c.takeFn.map (·.1)).getD 0, lastFn := none, span := span, paramGen := 0, frames := [], held := [], nextSeq := none,
      gap := false, dropping := false, asm := none, timing := [], expTimes := [], sofOff := none, fcMap := [], starting := none,
      past := [], early := [], lastDone := none, proxyNext := 0, trail := [], statOld := [],
      fieldRing := Vector.replicate 16 FieldSlot.empty, fieldNext := 0, stop := none, triggers := [], sofOffs := [],
      writes := c.writes.filter (fun w => c.applies.any (fun a => a.atStart && a.id == w.applyId)),
      applies := c.applies.map (fun a => { a with atStart := false, sentAll := true }), cnt := CamCounters.zero }
    let t := ((s.mapCam cam (fun _ => y)).beginPlan cam c.startNs).missedTriggers cam
    t.finishOpt r .ok run span false

/-- The BIND of a start has been acknowledged: the sensor parts staged for FN 0 are written (R173), and the run begins when all are
acknowledged. -/
def State.afterBind (cam : Nat) (r : Option CmdRef) (s : State) : State :=
  let t := s.dropApplies cam (fun a => !a.atStart)
  let t := t.mapCam cam (fun c => { c with writes := [] })
  let as_ := (t.cam cam).applies.filter (fun a => a.atStart && apGroups a.blk != [])
  if as_.isEmpty then t.startRun cam r
  else as_.foldl (fun (u : State) (a : Apply) =>
    (u.mapCam cam (fun c => { c with applies := updWhere (fun b => b.id == a.id) (fun b => { b with sentAll := true }) c.applies })).sendApply cam a) t

/-- A start in its second phase goes on: the run begins once every write staged for FN 0 is acknowledged; an apply staged since the BIND
is written first. -/
def State.startGoesOn (cam : Nat) (s : State) : State :=
  let c := s.cam cam
  match c.starting with
  | some r =>
    if c.bound && !c.writes.isEmpty && c.writes.all GroupWrite.acked then
      match c.applies.find? (fun a => a.atStart && !a.sentAll && apGroups a.blk != []) with
      | some a =>
        (s.mapCam cam (fun c => { c with applies := updWhere (fun b => b.id == a.id) (fun b => { b with sentAll := true }) c.applies })).sendApply cam a
      | none => s.startRun cam r
    else s
  | none => s

/-- A start fails and leaves the context as it was before (R71). -/
def State.startFails (cam : Nat) (st : Status) (r0 r1 : Nat) (logged : Bool) (s : State) : State :=
  let c := s.cam cam
  match c.starting with
  | none => s
  | some r =>
    let t := s.mapCam cam (fun c => { c with
      starting := none, writes := [], applies := c.applies.map (fun a => if a.atStart then { a with sentAll := false } else a) })
    let t := t.dropWaiting cam (fun w => match w with | .apply _ _ => true | .bindStart => true | _ => false)
    let t := (c.sensor.filter (fun j => j.sent == 0)).foldl
      (fun (u : State) (j : SensorJob) => u.endJob cam j.by_ .notReady 0x03 0 false) t
    t.finishOpt r st r0 r1 logged

/-- CAM_START (R71, R95, R96). -/
def execCamStart (c : Cmd) (s : State) : Host.Outcome State Fault Refusal :=
  runCmd .camStart c s do
    let cam ← needCam s c.handle
    let x := s.cam cam
    need x.starting.isNone (notReady 0x06)
    need (x.state == .configured || x.state == .suspended) (notReady 0x01)
    match s.admitRate x.profile (some cam) x.degrade with
    | .inr left => .error (overBudget (pfRate x.profile) left)
    | .inl _ =>
      let r := ref .camStart c
      let t := (s.mapCam cam (fun y => { y with starting := some (some r), startNs := s.ns })).keepInFlight r
      if pfOzoth x.profile then .ok (.waits (t.sendBind cam .bindStart)) else .ok (.waits (t.afterBind cam (some r)))

/-! ## CAM_STOP -/

/-- DISCARD closes the accepted frames whose processing has not begun with cause STOPPED (R72). -/
def State.discardFrames (cam : Nat) (s : State) : State × Nat :=
  let idle (f : CamFrame) : Bool := f.stripes.isEmpty && f.fields == 0 &&
    s.cams.slices.toList.all (fun j => match j with | some j => !(j.cam == cam && j.fn == f.fn) | none => true)
  let out := (s.cam cam).frames.filter idle
  let t := out.foldl (fun (u : State) (f : CamFrame) => u.dropFrame cam f 4) s
  (t, out.length)

/-- CAM_STOP (R72). A CAM_START that waits for the sensor writes staged for FN 0 (R173), its BIND acknowledged, holds the context as one that waits for
the BIND does: CAM_STOP, CAM_CONFIGURE and a second CAM_START fail with state code 0x06 (DESIGN CHOICE, log 23). -/
def execCamStop (c : Cmd) (s : State) : Host.Outcome State Fault Refusal :=
  runCmd .camStop c s do
    let cam ← needCam s c.handle
    let x := s.cam cam
    let release := bitOf (par c 0) 0
    need x.starting.isNone (notReady 0x06)
    let t := s.cutPlan cam
    if x.state == .configured || x.state == .suspended then
      let t := if release then (t.releaseCtx cam).jmSettle
               else t.mapCam cam (fun y => { y with state := .configured })
      okDone 0xFFFFFFFF 0 t
    else
      let r := ref .camStop c
      let d := if bitOf (par c 0) 1 then t.discardFrames cam else (t, 0)
      let old := (x.stop.map StopReq.by_).getD []
      let was := (x.stop.map StopReq.discarded).getD 0
      let q : StopReq := { by_ := old ++ [r], release := release || (x.stop.map StopReq.release).getD false, discarded := was + d.2 }
      let t := ((d.1.mapCam cam (fun y => { y with state := .stopping, stop := some q })).keepInFlight r).stopIfDone cam
      .ok (.waits t)

/-! ## CAM_SENSOR_WRITE -/

/-- Whether a write entry of an entry list is refused (R82): a ledgered register at the profile's address. -/
def refusedEntry (p e : List Byte) : Bool :=
  f8 e 0 == 0 && f8 e 1 == pfI2cAddr p &&
  (List.range 8).any (fun g => grpLedgered (pfGroup p g) &&
    (List.range (grpNreg (pfGroup p g))).any (fun i => grpReg (pfGroup p g) i == f16 e 2))

/-- Sends the entries of a job in cells of up to 27 (R82). -/
def State.sendEntries (cam : Nat) (j : SensorJob) (s : State) : State :=
  let n := j.list.length / 8
  let t := (List.range (ceilDiv n 27)).foldl (fun (t : State) (k : Nat) =>
    let cnt := Nat.min 27 (n - 27 * k)
    t.sendCtrl cam 0x01 0 0 0 (slice j.list (8 * 27 * k) (8 * cnt)) (.entries j.by_ (27 * k) cnt)) s
  t.mapCam cam (fun c => { c with sensor := updWhere (fun x => x.by_ == j.by_) (fun x => { x with sent := n }) c.sensor })

/-- CAM_SENSOR_WRITE (R82, R83). -/
def execCamSensorWrite (c : Cmd) (s : State) : Host.Outcome State Fault Refusal :=
  runCmd .camSensorWrite c s do
    let cam ← needCam s c.handle
    let x := s.cam cam
    let p := x.profile
    let n := c.ptrLen.toNat
    need (n % 8 == 0 && 8 ≤ n && n ≤ 2048) (badPacket 0x18)
    need (pfOzoth p) (notReady 0x05)
    let list ← structBytes s c
    let es := (List.range (n / 8)).map (fun i => (8 * i, slice list (8 * i) 8))
    needFields (es.map (fun e => (e.1, f8 e.2 0 ≤ 2 && !refusedEntry p e.2)))
    if c.ptrSpace = 1 && es.any (fun e => f8 e.2 0 == 1) then needUnpinned s c.ptr.toNat n else .ok ()
    let idle := (x.state == .configured || x.state == .suspended)
    need (idle || !x.failed) (notReady 0x04)
    let j : SensorJob := { by_ := ref .camSensorWrite c, ptr := c.ptr.toNat, inDev := c.ptrSpace == 1, list := list, sent := 0, acked := 0, broken := false }
    let t := s.mapCam cam (fun y => { y with sensor := y.sensor ++ [j] })
    if (x.unacked ++ x.waiting).any (fun u => u.why == .bindStart) then waitDone .camSensorWrite c t
    else if idle && (!x.bound || x.failed) then
      if x.unacked.any (fun u => u.why == .bindWrite) then waitDone .camSensorWrite c t
      else waitDone .camSensorWrite c (t.sendBind cam .bindWrite)
    else waitDone .camSensorWrite c (t.sendEntries cam j)

/-- The jobs that wait for a BIND are sent. -/
def State.sendJobs (cam : Nat) (s : State) : State :=
  ((s.cam cam).sensor.filter (fun j => j.sent == 0)).foldl (fun (t : State) (j : SensorJob) => t.sendEntries cam j) s

/-- A job goes on after an answer: with the last entry acknowledged the command completes (R82); with a failed cell it ends with HARDWARE_FAULT once
no cell of it is left without an answer, the log entry holding the entries acknowledged (R83; DEDUCED, log 23). -/
def State.jobSettles (cam : Nat) (r : CmdRef) (s : State) : State :=
  let c := s.cam cam
  match c.sensor.find? (fun j => j.by_ == r) with
  | none => s
  | some j =>
    if j.broken then
      if c.unacked.any (fun x => match x.why with | .entries b _ _ => b == r | _ => false) then s
      else
        let lane := s.ctrlLane cam
        let entry : LogInfo := { source := 0x02, code := Status.hardwareFault.code, unit := lane, epoch := s.ctrlEpoch cam, detail := [j.acked] }
        let t := s.logError (entry.about (some r))
        t.endJob cam r .hardwareFault lane.toNat t.errSeq true
    else if j.acked = j.list.length / 8 then s.endJob cam r .ok j.acked 0 false
    else s

/-- Entries of a job have been acknowledged: writes are recorded with the HUB_FC, and with the last one the command completes (R82). -/
def State.ackEntries (cam : Nat) (r : CmdRef) (count hubFc : Nat) (bytes : List Byte) (s : State) : State :=
  let t := s.mapCam cam (fun c => { c with
    sensor := updWhere (fun j => j.by_ == r) (fun j => { j with acked := j.acked + count }) c.sensor,
    otherWrites := c.otherWrites ++ [(hubFc, bytes)] })
  t.jobSettles cam r

/-- The data read by a cell goes back into the entry list (R82): bytes 4 to 7 of its read entries. -/
def State.returnReads (cam : Nat) (r : CmdRef) (first count : Nat) (entries : List Byte) (s : State) : State :=
  match (s.cam cam).sensor.find? (fun j => j.by_ == r) with
  | none => s
  | some j =>
    (List.range count).foldl (fun (t : State) (i : Nat) =>
      if f8 j.list (8 * (first + i)) != 1 then t
      else
        let a := j.ptr + 8 * (first + i) + 4
        let d := slice entries (8 * i + 4) 4
        if j.inDev then t.writeMem a d else t.emit (.hostWrite a d)) s

/-! ## Answers of the hub -/

/-- An answer ends a run of failed cells (R83). -/
def State.goodAnswer (cam : Nat) (x : CtrlCell) (s : State) : State :=
  (s.dropCtrl cam x.seq).mapCam cam (fun c => { c with failRun := 0 })

/-- A cell has been acknowledged (R71, R82, R167): what its purpose does next. -/
def State.acked (cam : Nat) (x : CtrlCell) (hubFc : Nat) (s : State) : State :=
  let t := s.goodAnswer cam x
  let bound (u : State) : State := u.mapCam cam (fun c => { c with bound := true, failed := false })
  match x.why with
  | .bindStart =>
    match (t.cam cam).starting with
    | some r => ((bound t).sendJobs cam).afterBind cam r
    | none => bound t
  | .bindWrite => (bound t).sendJobs cam
  | .entries r _ count => t.ackEntries cam r count hubFc (slice x.payload 0x18 (8 * count))
  | .apply id gs => ((t.ackApply cam id gs hubFc).applySettles cam id).startGoesOn cam
  | .trigger _ => t
  | .cancel => t
  | .owner _ => t

/-- ACK (R81, Table 03-11): the hub has executed a control cell. -/
def execAck (cam : Fin 48) (seq hubFc : Nat) (s : State) : Host.Outcome State Fault Refusal :=
  match (s.cam cam).unacked.find? (fun x => x.seq == seq) with
  | none => .next s
  | some x => .next (s.acked cam x hubFc)

/-- READ_DATA (R82, Table 03-11): as ACK, with the data read. -/
def execReadData (cam : Fin 48) (seq hubFc : Nat) (entries : List Byte) (s : State) : Host.Outcome State Fault Refusal :=
  match (s.cam cam).unacked.find? (fun x => x.seq == seq) with
  | none => .next s
  | some x =>
    match x.why with
    | .entries r first count => .next ((s.returnReads cam r first count entries).acked cam x hubFc)
    | _ => .next (s.acked cam x hubFc)

/-- A failed cell counts, and a run of three marks the channel failed (R83). -/
def State.countFail (cam : Nat) (s : State) : State :=
  (s.countCam cam (fun n => { n with fails := n.fails.satInc })).mapCam cam
    (fun c => { c with failRun := c.failRun + 1, failed := c.failed || 3 ≤ c.failRun + 1 })

/-- A cell has failed (R83): it counts, and its command ends with HARDWARE_FAULT. The cells of it that are already sent are waited for. -/
def State.cellFails (cam : Nat) (x : CtrlCell) (executed : Nat) (s : State) : State :=
  let lane := s.ctrlLane cam
  let t := (s.dropCtrl cam x.seq).countFail cam
  let entry : LogInfo := { source := 0x02, code := Status.hardwareFault.code, unit := lane, epoch := s.ctrlEpoch cam, detail := [executed] }
  match x.why with
  | .bindStart =>
    let t := t.logError (entry.about ((t.cam cam).starting.bind id))
    t.startFails cam .hardwareFault lane.toNat t.errSeq true
  | .bindWrite =>
    ((t.cam cam).sensor.filter (fun j => j.sent == 0)).foldl (fun (u : State) (j : SensorJob) =>
      let u := u.logError (entry.about (some j.by_))
      u.endJob cam j.by_ .hardwareFault lane.toNat u.errSeq true) t
  | .entries r _ _ =>
    let t := t.dropWaiting cam (fun w => match w with | .entries b _ _ => b == r | _ => false)
    (t.mapCam cam (fun c => { c with
      sensor := updWhere (fun j => j.by_ == r) (fun j => { j with acked := j.acked + executed, broken := true }) c.sensor })).jobSettles cam r
  | .apply id gs =>
    let u := (t.breakApply cam id executed gs).applySettles cam id
    if (u.cam cam).starting.isSome then u.startFails cam .notReady 0x04 0 false else u
  | .trigger _ => t.logError entry
  | .cancel => t.logError entry
  | .owner _ => t.logError entry

/-- A context is stopped without a command: its accepted frames that have not begun are discarded, the others are processed (R437). -/
def State.stopQuiet (discard : Bool) (cam : Nat) (s : State) : State :=
  let x := s.cam cam
  if x.state != .running then s
  else
    let t := s.cutPlan cam
    let d := if discard then t.discardFrames cam else (t, 0)
    (d.1.mapCam cam (fun y => { y with state := .stopping, stop := some { by_ := [], release := false, discarded := d.2 } })).stopIfDone cam

/-- This instance has been declared dead by its twin (R437): it is FENCED, its contexts on hubs stop, and UNIT_FENCED names it. A part that is no
KX-4896D has no twin (log 46). -/
def State.pairFenced (s : State) : State :=
  if !s.dev.isD || s.mgmt.pair.state == .fenced then s
  else
    let t := s.mapPair (fun p => { p with state := .fenced, ownEpoch := nextEpoch p.ownEpoch })
    let t := (List.range 48).foldl (fun (u : State) (i : Nat) => if pfOzoth (u.cam i).profile then u.stopQuiet true i else u) t
    t.post .unitFenced (unitHandle 0x0E s.dev.inst)

/-- A cell has drawn NAK reason 2 (R83, R84, R437): its command ends with UNIT_FENCED, and the instance has been declared dead. -/
def State.cellFenced (cam : Nat) (x : CtrlCell) (s : State) : State :=
  let me := unitHandle 0x0E s.dev.inst
  let e := s.ownEpoch
  let t := (s.dropCtrl cam x.seq).dropStale me e
  let t := match x.why with
    | .bindStart => t.startFails cam .unitFenced me.toNat e true
    | .bindWrite =>
      ((t.cam cam).sensor.filter (fun (j : SensorJob) => j.sent == 0)).foldl
        (fun (u : State) (j : SensorJob) => u.endJob cam j.by_ .unitFenced me.toNat e true) t
    | .entries r _ _ =>
      if (t.cam cam).sensor.any (fun j => j.by_ == r) then t.endJob cam r .unitFenced me.toNat e true else t
    | .apply id gs =>
      let u := t.failApply cam id gs .unitFenced me.toNat e
      if (u.cam cam).starting.isSome then u.startFails cam .notReady 0x04 0 false else u
    | _ => t
  t.pairFenced

/-- NAK (R83, Table 03-11): the hub has not executed a control cell, or has stopped in it. A NAK reason 3 to a TRIGGER_SET ends that
trigger and is no failed cell. -/
def execNak (cam : Fin 48) (seq reason executed : Nat) (s : State) : Host.Outcome State Fault Refusal :=
  match (s.cam cam).unacked.find? (fun x => x.seq == seq) with
  | none => .next s
  | some x =>
    if reason = 2 then .next (s.cellFenced cam x)
    else
      match x.why, reason with
      | .trigger _, 3 => .next (s.dropCtrl cam seq)
      | _, _ => .next (s.cellFails cam x (if reason = 1 then executed else 0))

/-- Whether a cell is a BIND. -/
def CtrlCell.isBind (x : CtrlCell) : Bool := x.why == .bindStart || x.why == .bindWrite

/-- CONTROL_CELL_RESEND (R81, R83): 2 ms have passed without an answer; the cell is sent again, up to three times, and fails after
that. A BIND cell fails then too and counts once, but the command that sent it waits for BIND_TIMEOUT (R71; DEDUCED, log 23). -/
def execControlCellResend (cam : Fin 48) (seq : Nat) (s : State) : Host.Outcome State Fault Refusal :=
  match (s.cam cam).unacked.find? (fun x => x.seq == seq) with
  | none => .next s
  | some x =>
    if x.resends < 3 then .next (s.resendCell cam x)
    else if x.isBind then
      if x.resends = 3 then
        .next ((s.mapCam cam (fun c => { c with
          unacked := updWhere (fun y => y.seq == seq) (fun y => { y with resends := 4 }) c.unacked })).countFail cam)
      else .next s
    else .next (s.cellFails cam x 0)

/-- BIND_TIMEOUT (R71, R82): 10 ms have passed without an acknowledgement of a BIND; the commands that wait for it fail with NOT_READY,
state code 0x03. -/
def execBindTimeout (cam : Fin 48) (s : State) : Host.Outcome State Fault Refusal :=
  match (s.cam cam).unacked.find? CtrlCell.isBind with
  | none => .next s
  | some x =>
    let t := s.dropCtrl cam x.seq
    let t := if x.resends = 3 then t.countFail cam else t
    let t := if x.why == .bindStart then t.startFails cam .notReady 0x03 0 false else t
    .next (((t.cam cam).sensor.filter (fun j => j.sent == 0)).foldl
      (fun (u : State) (j : SensorJob) => u.endJob cam j.by_ .notReady 0x03 0 false) t)

end Sys2Proof.Machine
end

