-- ==== Sys2Proof/Machine/Chandler.lean ====
section
/-!
DEFINITION. Chandler (chapter 16): firmware banks and activation, monitors, the error policy, the health summary, SMBus and MCTP.
-/
namespace Sys2Proof.Machine

/-! ## Firmware -/

/-- The base of the firmware staging area (Table 12-2). -/
def stagingBase : Nat := 0x08000000
/-- The size of the firmware staging area: 64 MiB. -/
def stagingSize : Nat := 0x4000000
/-- The unit handle of Chandler (R407). -/
def chandlerUnit : Handle := unitHandle 0x0F 0

/-- How far the staged ranges cover the staging area from its start. -/
def coveredTo (rs : List (Nat × Nat)) : Nat → Nat → Nat
  | 0, pos => pos
  | n + 1, pos =>
    match rs.find? (fun r => r.1 ≤ pos && pos < r.1 + r.2) with
    | some r => coveredTo rs n (r.1 + r.2)
    | none => pos

/-- A bank by number, 0 A and 1 B. -/
def Firmware.bank (f : Firmware) (n : Nat) : Bank := if n = 0 then f.bankA else f.bankB

/-- Applies a function to a bank. -/
def Firmware.mapBank (f : Firmware) (n : Nat) (g : Bank → Bank) : Firmware :=
  if n = 0 then { f with bankA := g f.bankA } else { f with bankB := g f.bankB }

/-- Applies a function to the firmware state. -/
def State.mapFw (g : Firmware → Firmware) (s : State) : State := s.mapMgmt (fun m => { m with fw := g m.fw })

/-- The boot record (Table 17-6). -/
def Firmware.bootRecord (f : Firmware) : List Byte :=
  let body := layout 60 [(0x00, 4, 0x52424B50), (0x04, 4, f.gen),
    (0x08, 4, f.bootBank + 2 * bit01 f.trial + 4 * f.trialBank + 8 * bit01 f.bankA.failed + 16 * bit01 f.bankB.failed
      + 32 * bit01 f.bankA.empty + 64 * bit01 f.bankB.empty),
    (0x10, 4, f.bankA.version), (0x14, 4, f.bankB.version)]
  body ++ leBytes 4 (crc32c body)

/-- Writes the boot record: the copy with the lower generation is overwritten (R450). -/
def State.writeBootRecord (s : State) : State :=
  let t := s.mapFw (fun f => { f with gen := f.gen + 1 })
  t.emit (.flashWrite (if t.mgmt.fw.gen % 2 = 0 then 0x0 else 0x8000) t.mgmt.fw.bootRecord)

/-- FW_DOWNLOAD (R420): copies the chunk into the staging area; FIRST discards anything staged before. -/
def execFwDownload (c : Cmd) (s : State) : Host.Outcome State Fault Refusal :=
  runCmd .fwDownload c s do
    need (c.ptrSpace == 1) (badPacket 0x1C)
    let b ← needBuffer s c.aux 1
    needRange s c.ptr.toNat c.ptrLen.toNat (some (b.base, b.size))
    need (par c 0 + c.ptrLen.toNat ≤ stagingSize) (badParam 0)
    let bs ← structBytes s c
    let first := bitOf (par c 1) 0
    let top := Nat.max (if first then 0 else s.mgmt.fw.stagedTop) (par c 0 + c.ptrLen.toNat)
    okDone top 0 ((s.writeMem (stagingBase + par c 0) bs).mapFw (fun f => { f with
      staged := (if first then [] else f.staged) ++ [(par c 0, c.ptrLen.toNat)], stagedTop := top }))

/-- FIRMWARE_REJECTED with the check that failed (R421). -/
def rejected (check : Nat) : Fail := { status := .firmwareRejected, r0 := check, r1 := 0 }

/-- The bank that FW_COMMIT writes: the one that is not active; in recovery bank A if both are empty, else the one empty or failed (R453). -/
def State.commitBank (s : State) : Nat :=
  let f := s.mgmt.fw
  if s.power.phase = .recovery then
    if f.bankA.empty && f.bankB.empty then 0 else if f.bankA.empty || f.bankA.failed then 0 else 1
  else 1 - f.active

/-- FW_COMMIT (R421 to R423, R450, R453). sigOk is the outcome of the signature check and verified that of the flash read-back
(log 18). -/
def execFwCommit (c : Cmd) (sigOk verified : Bool) (s : State) : Host.Outcome State Fault Refusal :=
  runCmd .fwCommit c s do
    let f := s.mgmt.fw
    match bitsOf (par c 0) 1 0 with
    | 0 => do
      let _ ← structFor s c .none
      need s.host.activation.isNone (notReady 0xE2)
      let covered := coveredTo f.staged f.staged.length 0
      need (256 ≤ covered) (notReady 0xE0)
      let h := s.readMem stagingBase 256
      let len := f32 h 0x10
      need (f32 h 0x00 == 0x57464B50 && 256 ≤ len && len ≤ stagingSize && f32 h 0x14 ≤ 393216) (rejected 1)
      need (len ≤ covered) (notReady 0xE0)
      need sigOk (rejected 2)
      need (f.rollback ≤ f8 h 0x0C) (rejected 3)
      need (f16 h 0x08 == 0x4896 && f16 h 0x0A == 0x00B0) (rejected 4)
      let n := s.commitBank
      if verified then
        okDone n (f32 h 0x04) ((s.mapFw (fun f => f.mapBank n (fun _ =>
          { empty := false, failed := false, version := f32 h 0x04, svn := f8 h 0x0C, handoff := f8 h 0x0D, length := len }))).emit
          (.flashWrite (if n = 0 then 0x1000000 else 0x5000000) (s.readMem stagingBase len))).writeBootRecord
      else
        let t := (s.mapFw (fun f => f.mapBank n (fun b => { b with empty := true, version := 0 }))).writeBootRecord
        let t := t.logError { source := 0x0E, code := Status.hardwareFault.code, unit := chandlerUnit, sqId := c.qid.val, cid := c.cid,
                              opcode := BitVec.ofNat 16 Op.fwCommit.code }
        return .done .hardwareFault chandlerUnit.toNat t.errSeq t
    | 1 => do
      let _ ← structFor s c .none
      need (!f.trial) (notReady 0xE8)
      need (f.rollback < 64) (notReady 0xE7)
      let v := Nat.max f.rollback (Nat.min 64 (f.bank f.active).svn)
      okDone v (64 - v) (s.mapFw (fun f => { f with rollback := v }))
    | 2 => do
      let bs ← structFor s c (.read 48)
      need f.ownerKey.isNone (notReady 0xE6)
      okDone 0 0 (s.mapFw (fun f => { f with ownerKey := some bs }))
    | _ => .error (badParam 0)

/-- FW_ACTIVATE (R57, R424, R453): starts the drain behind the activation barriers, recorded at its fetch, or here where it was not fetched; in recovery the committed runtime
starts and brings up the lanes. -/
def execFwActivate (c : Cmd) (s : State) : Host.Outcome State Fault Refusal :=
  runCmd .fwActivate c s do
    let n := bitsOf (par c 0) 0 0
    let b := s.mgmt.fw.bank n
    need s.host.activation.isNone (notReady 0xE2)
    if s.power.phase = .recovery then do
      need (!b.empty && !b.failed) (notReady 0xE1)
      let t := (s.mapFw (fun f => { f with active := n, bootBank := n, trial := false })).writeBootRecord
      let t := (t.bootLanes []).mapPower (fun w => { w with phase := .running })
      okDone n b.version (t.clearBarriers.mapMgmt (fun m => { m with smb := { m.smb with ready := true } }))
    else do
      need (n != s.mgmt.fw.active && !b.empty && !b.failed) (notReady 0xE1)
      let t := s.mapHost (fun h => { h with activation := some { by_ := ref .fwActivate c, bank := n } })
      waitDone .fwActivate c t.setBarriers

/-- Whether the commands of a queue before its barrier have completed; the FW_ACTIVATE itself does not count (R57). -/
def Queue.drained (q : Queue) (by_ : CmdRef) : Bool :=
  match q.barrier with
  | none => true
  | some b =>
    b ≤ q.fetchedN && q.fetched.all (fun f => b ≤ f.ent) && q.inFlight.all (fun f => b ≤ f.ent || f.ref == by_)
      && q.ready.all (fun r => b ≤ r.ent)

/-- ACTIVATION_DRAINED (R424, R425): the new image takes over on trial and dispatch resumes; an image that does not accept the
handoff is rejected before the switch. -/
def execActivationDrained (accepts : Bool) (s : State) : Host.Outcome State Fault Refusal :=
  match s.host.activation with
  | none => .next s
  | some a =>
    if !(s.host.queues.toList.all (fun q => q.drained a.by_)) then .next s
    else
      let t := s.clearBarriers
      if !accepts then .next (t.finish a.by_ .firmwareRejected 5 0 false)
      else
        let t := (t.mapFw (fun f => { f with active := a.bank, trial := true, trialBank := a.bank })).writeBootRecord
        let t := t.logEvent { source := 0x0E, unit := chandlerUnit, detail := [a.bank] }
        let t := t.post .fwActivated (BitVec.ofNat 32 a.bank)
        .next (t.finish a.by_ .ok a.bank (t.mgmt.fw.bank a.bank).version false)

/-- ACTIVATION_DRAIN_TIMEOUT (R57): FW_ACTIVATE fails, the old firmware stays, and the waiting commands run under it. -/
def execActivationDrainTimeout (s : State) : Host.Outcome State Fault Refusal :=
  match s.host.activation with
  | none => .next s
  | some a => .next (s.clearBarriers.finish a.by_ .notReady 0x0D 0 false)

/-- TRIAL_END (R425, R450): the bank on trial becomes the boot bank. -/
def execTrialEnd (s : State) : Host.Outcome State Fault Refusal :=
  if s.mgmt.fw.trial then .next (s.mapFw (fun f => { f with trial := false, bootBank := f.trialBank })).writeBootRecord else .next s

/-- CHANDLER_RESTART (R406, R425): commands in flight complete with HARDWARE_FAULT, the restart is logged and counted, and during a
trial the previous bank is loaded and the new one marked failed. -/
def execChandlerRestart (s : State) : Host.Outcome State Fault Refusal :=
  if s.power.phase != .running then .next s
  else
    let t := s.logError { source := 0x0E, code := Status.hardwareFault.code, unit := chandlerUnit }
    let t := t.mapMgmt (fun m => { m with smb := { m.smb with fwRestarted := true },
                                          fw := { m.fw with restarts := m.fw.restarts.satInc } })
    let seq := t.errSeq
    let flying := s.host.queues.toList.flatMap Queue.inFlight
    let t := t.clearBarriers.mapHost (fun h => { h with
      async := [], queues := vmapIdx h.queues (fun _ q => { q with flush := none, reset := q.reset.map (fun r => if r.done then r else { r with by_ := none }) }) })
    let t := flying.foldl (fun u f => u.finish f.ref .hardwareFault chandlerUnit.toNat seq true) t
    if s.mgmt.fw.trial then
      let n := s.mgmt.fw.trialBank
      let t := (t.mapFw (fun f => { (f.mapBank n (fun b => { b with failed := true })) with trial := false, active := 1 - n })).writeBootRecord
      .next (t.logErrorPost { source := 0x0E, unit := chandlerUnit, detail := [n] })
    else .next t

/-! ## Monitors -/

/-- The kind of a monitor (Table 16-9). -/
def monitorKind (n : Nat) : Nat := if n < 24 then 0 else if n < 64 then 1 else 2

/-- The bin of a sample (R414). -/
def Monitor.bin (m : Monitor) (v : Int) : Nat := (clampInt 0 15 ((16 * (v - m.histLo)) / (m.histHi - m.histLo))).toNat

/-- The readings after a sample (R414). -/
def Monitor.sample (m : Monitor) (v : Int) : Monitor :=
  { m with
    cur := v, min_ := if v < m.min_ then v else m.min_, max_ := if m.max_ < v then v else m.max_,
    samples := m.samples.satInc,
    bins := if m.histEn then vmod m.bins (m.bin v) Word.satInc else m.bins,
    warn := v < m.warnLo || m.warnHi < v, crit := m.critHi < v }

/-- The bins cleared. -/
def Monitor.clearBins (m : Monitor) : Monitor := { m with bins := Vector.replicate 16 0, samples := 0 }

/-- Takes one sample of monitor n: a crossing of a WARN threshold makes an event log entry, one of a CRIT threshold an error log
entry (R414). -/
def State.sampleOne (n : Nat) (v : Int) (s : State) : State :=
  let old := vget s.mgmt.monitors (Monitor.reset 0 0) n
  let new := old.sample v
  let t := s.mapMgmt (fun m => { m with monitors := vmod m.monitors n (fun _ => new) })
  let t := if new.warn && !old.warn then t.logEvent { source := 0x0E, detail := [n, wrapInt 32 v] } else t
  if new.crit && !old.crit then t.logError { source := 0x0E, detail := [n, wrapInt 32 v] } else t

/-- The supply watch of R441: VDD_CORE on monitor 24 more than 2 % from its setpoint for 10 samples in a row. -/
def State.watchCore (s : State) : State :=
  let set := railNominal s.dev.avs 0
  let v := (vget s.mgmt.monitors (Monitor.reset 0 0) 24).cur
  let off := set * 2 < (if v < set then set - v else v - set) * 100
  let n := if off then Nat.min 10 (s.mgmt.avsRun + 1) else 0
  let t := s.mapMgmt (fun m => { m with avsRun := n })
  if n = 10 then
    let t := t.mapMgmt (fun m => { m with monitors := vmod m.monitors 24 (fun x => { x with warn := true }) })
    if s.mgmt.avsRun < 10 then t.logError { source := 0x0E, detail := [24, wrapInt 32 v] } else t
  else t

/-- MONITOR_SAMPLE (R414, R441): every monitor is sampled; values are the readings in index order. -/
def execMonitorSample (values : List Int) (s : State) : Host.Outcome State Fault Refusal :=
  .next ((values.zipIdx.foldl (fun t x => t.sampleOne x.2 x.1) s).watchCore)

/-- HIST_PERIOD_EXPIRY (R414): the bins of a monitor with a period are cleared. -/
def execHistPeriodExpiry (n : Fin 72) (s : State) : Host.Outcome State Fault Refusal :=
  if (s.mgmt.monitors[n]).histPeriod = 0 then .next s
  else .next (s.mapMgmt (fun m => { m with monitors := m.monitors.set n (m.monitors[n]).clearBins }))

/-- MON_CONFIGURE (R415): replaces the block of a monitor and clears its bins; CLEAR sets MIN and MAX to CUR instead. -/
def execMonConfigure (c : Cmd) (s : State) : Host.Outcome State Fault Refusal :=
  runCmd .monConfigure c s do
    let n := bitsOf (par c 0) 6 0
    need (n < 72) (badParam 0)
    let clear := bitOf (par c 0) 8
    let all := bitOf (par c 0) 9
    let bs ← structFor s c (if clear then .none else .read 32)
    let hit (i : Nat) : Bool := if all then monitorKind i == monitorKind n else i == n
    if clear then
      okDone 0 0 (s.mapMgmt (fun m => { m with monitors := vmapIdx m.monitors (fun i x =>
        if hit i then { x.clearBins with min_ := x.cur, max_ := x.cur } else x) }))
    else do
      needFields [(0x08, fs32 bs 0x04 ≤ fs32 bs 0x08), (0x10, fs32 bs 0x10 < fs32 bs 0x14)]
      okDone 0 0 (s.mapMgmt (fun m => { m with monitors := vmapIdx m.monitors (fun i x =>
        if hit i then { x.clearBins with histEn := bitOf (f32 bs 0x00) 0, warnHi := fs32 bs 0x04, critHi := fs32 bs 0x08,
                                         warnLo := fs32 bs 0x0C, histLo := fs32 bs 0x10, histHi := fs32 bs 0x14,
                                         histPeriod := f32 bs 0x18 } else x) }))

/-! ## Error policy -/

/-- The policy block (Table 16-13), its fields checked by offset. -/
def parsePolicy (bs : List Byte) : Chk Policy := do
  let within (v lo hi : Nat) : Bool := lo ≤ v && v ≤ hi
  needFields
    [(0x00, 4 ≤ f16 bs 0x00), (0x02, within (f16 bs 0x02) 1 3600), (0x08, within (f8 bs 0x08) 1 64), (0x09, within (f8 bs 0x09) 1 24),
     (0x0A, within (f16 bs 0x0A) 200 5000), (0x0C, within (f16 bs 0x0C) 500 10000), (0x0E, within (f16 bs 0x0E) 200 5000),
     (0x10, within (f8 bs 0x10) 1 4)]
  let fl := f32 bs 0x04
  return { tallyCap := f16 bs 0x00, tallyLeak := f16 bs 0x02, pprEn := bitOf fl 0, retireEn := bitOf fl 1, logCorrected := bitOf fl 2,
           retireRegions := f8 bs 0x08, retireWindow := f8 bs 0x09, sliceWd := f16 bs 0x0A, encWd := f16 bs 0x0C,
           motionWd := f16 bs 0x0E, degradeKmax := f8 bs 0x10 }

/-- A tally clamped to a capacity. -/
def Tally.clamp (t : Tally) (cap : Nat) : Tally := { t with count := Nat.min t.count cap }

/-- ERR_POLICY_SET (R426): replaces the policy; tallies above the new capacity are clamped to it; the policy goes to the flash. -/
def execErrPolicySet (c : Cmd) (s : State) : Host.Outcome State Fault Refusal :=
  runCmd .errPolicySet c s do
    let bs ← structBytes s c
    let p ← parsePolicy bs
    let t := s.mapMgmt (fun m => { m with policy := p })
    let t := t.mapMem (fun m => { m with
      pcs := vmapIdx m.pcs (fun _ x => { x with tallies := vmapIdx x.tallies (fun _ y => y.clamp p.tallyCap) }),
      macros := m.macros.map (fun x => { x with tally := x.tally.clamp p.tallyCap }) })
    okDone 0 0 (t.emit (.flashWrite 0x10000 bs))

/-! ## Health -/

/-- The highest temperature of the 24 sensors now (Table 16-7), in 1/256 °C. -/
def MgmtSt.tempMax (m : MgmtSt) : Int := (m.monitors.toList.take 24).foldl (fun a x => if a < x.cur then x.cur else a) (-0x8000)

/-- Seconds since power-up. -/
def State.uptime (s : State) : Nat := (s.time.ticks - s.power.upTick) / 400000000

/-- Fenced units of the unit table. -/
def UnitTable.fenced (u : UnitTable) : Nat :=
  sumNat ([UnitKind.sliceU, .siteU, .encU, .decU, .cmpU, .motionU].map (fun k => ((u.phys k).filter (fun p => p.state == .fenced)).length))

/-- Fenced units outside the unit table and the lanes, as the unit page shows them (R413): retired pseudo-channels, and an instance declared dead. -/
def State.fencedElse (s : State) : Nat :=
  (s.mem.pcs.toList.filter (fun p => p.state == .retired)).length
    + bit01 (s.dev.isD && (s.mgmt.pair.twinFenced || s.mgmt.pair.state == .fenced))

/-- PAIR_STATE as a number (R431). -/
def PairState.code : PairState → Nat
  | .off => 0
  | .paired => 1
  | .linkFault => 2
  | .solo => 3
  | .fenced => 4

/-- The health summary (Table 16-14). -/
def State.healthSummary (s : State) : List Byte :=
  let f := s.mgmt.fw
  let u := s.mgmt.units
  let retired (k : UnitKind) : Nat := (u.roles k).length - u.filled k
  layout 128
    [(0x00, 2, 1), (0x02, 1, s.dev.inst), (0x03, 1, s.mgmt.pair.state.code), (0x04, 4, s.uptime), (0x08, 1, f.active),
     (0x09, 1, bit01 f.trial), (0x0A, 1, f.rollback), (0x0B, 1, 64 - f.rollback),
     (0x0C, 4, if f.bankA.empty then 0 else f.bankA.version), (0x10, 4, if f.bankB.empty then 0 else f.bankB.version),
     (0x14, 4, f.restarts.toNat),
     (0x18, 1, u.spares .sliceU), (0x19, 1, retired .sliceU), (0x1A, 1, u.spares .encU), (0x1B, 1, retired .encU),
     (0x1C, 1, u.spares .siteU), (0x1D, 1, retired .siteU), (0x1E, 1, u.filled .decU), (0x1F, 1, u.filled .cmpU),
     (0x20, 1, s.laneSpares), (0x21, 1, 1 - u.filled .motionU),
     (0x22, 1, (s.mem.pcs.toList.filter (fun p => p.state == .retired)).length), (0x23, 1, s.mem.pendingRet.length),
     (0x24, 4, u.fenced + s.fencedLanes + s.fencedElse), (0x28, 2, wrapInt 16 s.mgmt.tempMax), (0x2A, 2, Nat.min 0xFFFF s.power.throttles.toNat),
     (0x2C, 2, s.power.powerDw), (0x2E, 1, s.power.cur.code), (0x30, 4, s.errSeq),
     (0x34, 4, (s.mgmt.errors.entries.filter (fun e => s.time.ticks ≤ e.at_ + 24 * 3600 * 400000000)).length),
     (0x38, 4, s.mem.cnt.overflows.toNat), (0x3C, 4, s.mgmt.replaced.toNat)]

/-- HEALTH_RECORD_UPDATE (R427): the summary is rewritten into the SMBus health record; power is the estimate of the moment. -/
def execHealthRecordUpdate (powerDw : Nat) (s : State) : Host.Outcome State Fault Refusal :=
  if !s.ready then .next s
  else
    let t := s.mapPower (fun w => { w with powerDw := powerDw })
    .next (t.mapMgmt (fun m => { m with smb := { m.smb with record := t.healthSummary } }))

/-- HEALTH_QUERY (R427): copies the current summary to PTR. -/
def execHealthQuery (c : Cmd) (s : State) : Host.Outcome State Fault Refusal :=
  runCmd .healthQuery c s do
    need (c.ptrLen == 128) (badPacket 0x18)
    need (c.ptrSpace == 1 || c.ptrSpace == 2) (badPacket 0x1C)
    if c.ptrSpace = 1 then do
      let b ← needBuffer s c.aux 1
      needRange s c.ptr.toNat 128 (some (b.base, b.size))
      needUnpinned s c.ptr.toNat 128
    else need (c.aux == 0) (badPacket 0x0C)
    okDone s.uptime 0 (s.writePtr c s.healthSummary)

/-- What the health record holds as SMBus reads it: rewritten at every change of offsets 0x08 to 0x27, frozen while the core is
down (R405, R427). -/
def State.healthRecord (s : State) : List Byte :=
  if s.ready then
    patch (if s.mgmt.smb.record.isEmpty then s.healthSummary else s.mgmt.smb.record) 0x08 (slice s.healthSummary 0x08 0x20)
  else padTo 128 s.mgmt.smb.record

/-! ## Log entries and monitor entries as bytes -/

/-- The 64 bytes of a log entry (Table 16-10). -/
def LogEntry.bytes (e : LogEntry) : List Byte :=
  layout 64 ([(0x00, 4, e.seq.toNat), (0x04, 6, e.tsS), (0x0A, 1, e.stepGen), (0x0B, 1, e.source), (0x0C, 4, e.tsNs), (0x10, 2, e.code),
    (0x12, 2, e.epoch), (0x14, 4, e.unit.toNat), (0x18, 1, e.sqId), (0x19, 1, e.reason), (0x1A, 2, e.cid.toNat),
    (0x1C, 2, e.opcode.toNat), (0x20, 5, e.addr)] ++ (e.detail.take 6).zipIdx.map (fun x => (0x28 + 4 * x.2, 4, x.1)))

/-- The 128 bytes of a monitor entry (Table 16-9). -/
def Monitor.bytes (m : Monitor) (n : Nat) : List Byte :=
  layout 128 ([(0x00, 1, monitorKind n), (0x01, 1, n), (0x02, 1, bit01 m.warn + 2 * bit01 m.crit), (0x04, 4, wrapInt 32 m.cur),
    (0x08, 4, wrapInt 32 m.min_), (0x0C, 4, wrapInt 32 m.max_), (0x10, 4, wrapInt 32 m.warnHi), (0x14, 4, wrapInt 32 m.critHi),
    (0x18, 4, wrapInt 32 m.warnLo), (0x1C, 4, wrapInt 32 m.histLo), (0x20, 4, wrapInt 32 m.histHi), (0x24, 4, m.samples.toNat)]
    ++ m.bins.toList.zipIdx.map (fun x => (0x30 + 4 * x.2, 4, x.1.toNat)))

/-- The error log entry of a sequence number as 64 bytes, zeros where it is not held (Table 16-15). -/
def State.errorEntry (s : State) (seq : Nat) : List Byte :=
  match s.mgmt.errors.entries.find? (fun e => e.seq.toNat == seq) with
  | some e => e.bytes
  | none => zeros 64

/-! ## SMBus and MCTP -/

/-- The 7-bit SMBus address (R428). -/
def State.smbAddress (s : State) : Nat := if s.dev.isD && s.dev.inst == 1 then 0x5B else 0x5A

/-- What an SMBus read of a command code returns (Table 16-15); a reserved code reads zero. -/
def State.smbusRead (s : State) (code : Nat) : List Byte :=
  match code with
  | 0x00 => leBytes 2 0x4896
  | 0x01 => [0xB0]
  | 0x02 => leBytes 2 s.smbStatus
  | 0x03 => leBytes 2 s.mgmt.smb.alertMask
  | 0x04 => slice s.healthRecord 0x28 2
  | 0x05 => slice s.healthRecord 0x2C 2
  | 0x06 => slice s.healthRecord 0x2E 1
  | 0x08 => slice s.healthRecord 0x30 4
  | 0x10 => leBytes 1 s.mgmt.smb.monSel
  | 0x11 => slice ((vget s.mgmt.monitors (Monitor.reset 0 0) s.mgmt.smb.monSel).bytes 0) 0x04 12
  | 0x20 => leBytes 4 s.mgmt.smb.logSel
  | 0x21 => s.errorEntry s.mgmt.smb.logSel
  | 0x30 => s.healthRecord
  | _ => [0]

/-- An SMBus write (Table 16-15, R428, R429): RW1C bits of KX_MGMT_SMB_STATUS, the mask and the selectors; others are ignored or
NACKed. -/
def State.smbusWrite (code val : Nat) (s : State) : State :=
  let clr (n : Nat) (b : Bool) : Bool := b && !bitOf val n
  match code with
  | 0x02 => s.mapMgmt (fun m => { m with smb := { m.smb with
      fwRestarted := clr 7 m.smb.fwRestarted, tallyOvf := clr 4 m.smb.tallyOvf, unitLost := clr 3 m.smb.unitLost, err := clr 2 m.smb.err } })
  | 0x03 => s.mapMgmt (fun m => { m with smb := { m.smb with alertMask := val % 2 ^ 16 } })
  | 0x10 => if val % 256 < 72 then s.mapMgmt (fun m => { m with smb := { m.smb with monSel := val % 256 } }) else s
  | 0x20 => s.mapMgmt (fun m => { m with smb := { m.smb with logSel := val % 2 ^ 32 } })
  | _ => s

/-- Whether the SMBus responder answers: it runs from VDD_MGMT, from the end of power-up step 1 on (R405, R428, R442). -/
def State.smbUp (s : State) : Bool := s.power.phase != .off

/-- ALERT_RESPONSE (R429): while SMB_ALERT_N is low the device answers with its own address. -/
def execAlertResponse (s : State) : Host.Outcome State Fault Refusal :=
  if s.smbUp && s.alertLow then .next (s.emit (.smbus [BitVec.ofNat 8 (2 * s.smbAddress)])) else .next s

/-- Sends an MCTP answer while the responder is up. -/
def State.mctpAnswer (bs : List Byte) (s : State) : State := if s.smbUp then s.emit (.mctp bs) else s

/-- SET_ENDPOINT_ID (R430). The bytes of the control answers follow DMTF DSP0236: PRESUMED (log 19). -/
def execSetEndpointId (eid : Byte) (s : State) : Host.Outcome State Fault Refusal :=
  if s.smbUp then .next ((s.mapMgmt (fun m => { m with smb := { m.smb with eid := eid.toNat } })).mctpAnswer [0x00, 0x00, eid, 0x00])
  else .next s

/-- GET_ENDPOINT_ID (R430). -/
def execGetEndpointId (s : State) : Host.Outcome State Fault Refusal :=
  .next (s.mctpAnswer [0x00, BitVec.ofNat 8 s.mgmt.smb.eid, 0x00, 0x00])

/-- GET_MCTP_VERSION_SUPPORT (R430). -/
def execGetMctpVersionSupport (s : State) : Host.Outcome State Fault Refusal :=
  .next (s.mctpAnswer [0x00, 0x01, 0x00, 0xF0, 0xF3, 0xF1])

/-- GET_MESSAGE_TYPE_SUPPORT (R430): the vendor-defined type 0x7F. -/
def execGetMessageTypeSupport (s : State) : Host.Outcome State Fault Refusal := .next (s.mctpAnswer [0x00, 0x01, 0x7F])

/-- MCTP_HEALTH_REQUEST (R430): the health summary from the health record. -/
def execMctpHealthRequest (s : State) : Host.Outcome State Fault Refusal := .next (s.mctpAnswer s.healthRecord)

/-- MCTP_MONITOR_REQUEST (R430): the entry of monitor n; zeros for no monitor. -/
def execMctpMonitorRequest (n : Nat) (s : State) : Host.Outcome State Fault Refusal :=
  .next (s.mctpAnswer (if n < 72 then (vget s.mgmt.monitors (Monitor.reset 0 0) n).bytes n else zeros 128))

/-- MCTP_LOG_REQUEST (R430): the error log entry of a sequence number. -/
def execMctpLogRequest (seq : Nat) (s : State) : Host.Outcome State Fault Refusal := .next (s.mctpAnswer (s.errorEntry seq))

end Sys2Proof.Machine
end

