-- ==== Sys2Proof/Machine/Cooper.lean ====
section
/-!
DEFINITION. The Cooper formats (chapter 09): block framing (R243), the decoding of DEFLATE streams (RFC 1951) and of Cooper-L payloads
(R244, R245), and the matching of R242. How a coder divides the tokens into Huffman blocks and builds their codes is free; what it writes is held to the
tokens and to the format (log 39).
-/
namespace Sys2Proof.Machine

/-- n bits of a stream from a position, least significant first. -/
def bitsAt (x pos n : Nat) : Nat := x / 2 ^ pos % 2 ^ n

/-- A canonical Huffman code (RFC 1951 section 3.2.2): how many codes of each length, and the symbols in code order. -/
structure Huff where
  counts  : List Nat
  symbols : List Nat
deriving DecidableEq, Repr

/-- The code of a list of lengths, 0 for an unused symbol. -/
def huffOf (lens : List Nat) : Huff :=
  { counts := (List.range 16).map (fun n => if n = 0 then 0 else (lens.filter (· == n)).length),
    symbols := (List.range 15).flatMap (fun n => (lens.zipIdx.filter (fun l => l.1 == n + 1)).map (·.2)) }

/-- Whether lengths make a code that is not oversubscribed. -/
def huffOk (lens : List Nat) : Bool :=
  sumNat (lens.map (fun l => if l = 0 then 0 else 2 ^ (15 - l))) ≤ 2 ^ 15

/-- Reads a symbol: code, the first code and the index of the length in hand, and the lengths left. Gives the symbol and the position. -/
def huffRead (h : Huff) (x lim : Nat) : Nat → Nat → Nat → Nat → Nat → Option (Nat × Nat)
  | 0, _, _, _, _ => none
  | n + 1, pos, code, first, index =>
    if lim ≤ pos then none
    else
      let c := code + bitsAt x pos 1
      let k := (h.counts[15 - n]?).getD 0
      if c < first + k then ((h.symbols[index + (c - first)]?).map (fun s => (s, pos + 1)))
      else huffRead h x lim n (pos + 1) (2 * c) (2 * (first + k)) (index + k)

/-- Reads a symbol of a code at a position. -/
def Huff.read (h : Huff) (x lim pos : Nat) : Option (Nat × Nat) := huffRead h x lim 15 pos 0 0 0

/-- Whether an alphabet with exactly one used symbol gives it length 1 (R244). -/
def loneOk (lens : List Nat) : Bool :=
  match lens.filter (· != 0) with
  | [n] => n == 1
  | _ => true

/-- Copies a match from a distance back; none where the distance reaches before the start. -/
def copyMatch (out : Array Byte) (dist : Nat) : Nat → Option (Array Byte)
  | 0 => some out
  | n + 1 =>
    if dist = 0 ∨ out.size < dist then none
    else match out[out.size - dist]? with
      | some b => copyMatch (out.push b) dist n
      | none => none

/-- The bytes of a list of tokens, each (0, byte) or (length, distance), after what is there. -/
def tokenBytes : List (Nat × Nat) → Array Byte → Option (Array Byte)
  | [], out => some out
  | t :: rest, out =>
    match if t.1 = 0 then some (out.push (BitVec.ofNat 8 t.2)) else copyMatch out t.2 t.1 with
    | some o => tokenBytes rest o
    | none => none

/-- The bytes that a token stands for. -/
def tokenLen (t : Nat × Nat) : Nat := if t.1 = 0 then 1 else t.1

/-! ## DEFLATE (RFC 1951) -/

/-- Base and extra bits of a length symbol 257 to 285. -/
def lenBase (s : Nat) : Nat × Nat :=
  let c := s - 257
  if c < 8 then (3 + c, 0)
  else if c = 28 then (258, 0)
  else
    let e := (c - 4) / 4
    (3 + (4 + c % 4) * 2 ^ e, e)

/-- Base and extra bits of a distance symbol 0 to 29. -/
def distBase (c : Nat) : Nat × Nat :=
  if c < 4 then (c + 1, 0)
  else
    let e := (c - 2) / 2
    (1 + (2 + c % 2) * 2 ^ e, e)

/-- The tokens of a DEFLATE block up to its end, the last first. The fuel is the number of bits left. -/
def inflateCodes (lit dist : Huff) (x lim : Nat) : Nat → Nat → List (Nat × Nat) → Option (Nat × List (Nat × Nat))
  | 0, _, _ => none
  | n + 1, pos, out =>
    match lit.read x lim pos with
    | none => none
    | some (s, p) =>
      if s < 256 then inflateCodes lit dist x lim n p ((0, s) :: out)
      else if s = 256 then some (p, out)
      else if 285 < s then none
      else
        let l := lenBase s
        match dist.read x lim (p + l.2) with
        | none => none
        | some (c, q) =>
          if 29 < c then none
          else
            let d := distBase c
            inflateCodes lit dist x lim n (q + d.2) ((l.1 + bitsAt x p l.2, d.1 + bitsAt x q d.2) :: out)

/-- The code lengths of a dynamic block. -/
def readLens (h : Huff) (x lim : Nat) : Nat → Nat → Nat → List Nat → Option (Nat × List Nat)
  | 0, _, _, _ => none
  | n + 1, want, pos, acc =>
    if want ≤ acc.length then (if acc.length = want then some (pos, acc) else none)
    else match h.read x lim pos with
      | none => none
      | some (s, p) =>
        if s < 16 then readLens h x lim n want p (acc ++ [s])
        else if s = 16 then
          match acc.getLast? with
          | some l => readLens h x lim n want (p + 2) (acc ++ List.replicate (3 + bitsAt x p 2) l)
          | none => none
        else if s = 17 then readLens h x lim n want (p + 3) (acc ++ List.replicate (3 + bitsAt x p 3) 0)
        else readLens h x lim n want (p + 7) (acc ++ List.replicate (11 + bitsAt x p 7) 0)

/-- The codes of a dynamic block at a position, and the position after them. -/
def dynamicCodes (x lim pos : Nat) : Option (Nat × Huff × Huff) :=
  let nlit := bitsAt x pos 5 + 257
  let ndist := bitsAt x (pos + 5) 5 + 1
  let ncode := bitsAt x (pos + 10) 4 + 4
  let order := [16, 17, 18, 0, 8, 7, 9, 6, 10, 5, 11, 4, 12, 3, 13, 2, 14, 1, 15]
  let cl := (order.take ncode).zipIdx.foldl (fun (a : List Nat) (o : Nat × Nat) => a.set o.1 (bitsAt x (pos + 14 + 3 * o.2) 3)) (List.replicate 19 0)
  if !huffOk cl then none
  else match readLens (huffOf cl) x lim (nlit + ndist + 1) (nlit + ndist) (pos + 14 + 3 * ncode) [] with
    | none => none
    | some (p, ls) =>
      if huffOk (ls.take nlit) && huffOk (ls.drop nlit) then some (p, huffOf (ls.take nlit), huffOf (ls.drop nlit)) else none

/-- The lengths of the fixed codes. -/
def fixedLens : List Nat := List.replicate 144 8 ++ List.replicate 112 9 ++ List.replicate 24 7 ++ List.replicate 8 8
/-- The lengths of the fixed distance code. -/
def fixedDistLens : List Nat := List.replicate 30 5

/-- A DEFLATE block: its kind, 0 stored, 1 fixed or 2 dynamic; its tokens; and its bits with its header. -/
structure DeflateBlock where
  kind : Nat
  toks : List (Nat × Nat)
  bits : Nat
deriving DecidableEq, Repr

/-- The blocks of a DEFLATE stream, and the position after them. -/
def inflateBlocks (x lim : Nat) : Nat → Nat → Option (Nat × List DeflateBlock)
  | 0, _ => none
  | n + 1, pos =>
    if lim < pos + 3 then none
    else
      let last := bitsAt x pos 1 == 1
      let kind := bitsAt x (pos + 1) 2
      let body : Option (Nat × List (Nat × Nat)) :=
        match kind with
        | 0 =>
          let p := roundUp (pos + 3) 8
          let k := bitsAt x p 16
          if lim < p + 32 + 8 * k ∨ bitsAt x (p + 16) 16 ≠ 65535 - k then none
          else some (p + 32 + 8 * k, (List.range k).map (fun i => (0, bitsAt x (p + 32 + 8 * i) 8)))
        | 1 => (inflateCodes (huffOf fixedLens) (huffOf fixedDistLens) x lim (lim + 1) (pos + 3) []).map (fun r => (r.1, r.2.reverse))
        | 2 =>
          match dynamicCodes x lim (pos + 3) with
          | none => none
          | some (p, lit, dist) => (inflateCodes lit dist x lim (lim + 1) p []).map (fun r => (r.1, r.2.reverse))
        | _ => none
      match body with
      | none => none
      | some (p, toks) =>
        let b : DeflateBlock := { kind := kind, toks := toks, bits := p - pos }
        if last then some (p, [b]) else (inflateBlocks x lim n p).map (fun r => (r.1, b :: r.2))

/-- The blocks of a complete DEFLATE stream and the position after them. -/
def inflateStream (bs : List Byte) : Option (Nat × List DeflateBlock) := inflateBlocks (leNat bs) (8 * bs.length) (8 * bs.length) 0

/-- A complete DEFLATE stream decoded. -/
def inflate (bs : List Byte) : Option (List Byte) :=
  (inflateStream bs).bind (fun r => (tokenBytes (r.2.flatMap DeflateBlock.toks) #[]).map Array.toList)

/-! ## Cooper-L (R244, R245) -/

/-- The value of a code and its extra bits (R245): base and number of extra bits. -/
def cooperBase (c : Nat) : Nat × Nat :=
  if c < 8 then (c, 0)
  else
    let n := 3 + (c - 8) / 4
    (2 ^ n + (c - 8) % 4 * 2 ^ (n - 2), n - 2)

/-- The tokens of a segment up to symbol 256, the last first. -/
def cooperCodes (lit dist : Huff) (x lim : Nat) : Nat → Nat → List (Nat × Nat) → Option (Nat × List (Nat × Nat))
  | 0, _, _ => none
  | n + 1, pos, out =>
    match lit.read x lim pos with
    | none => none
    | some (s, p) =>
      if s < 256 then cooperCodes lit dist x lim n p ((0, s) :: out)
      else if s = 256 then some (p, out)
      else
        let l := cooperBase (s - 257)
        match dist.read x lim (p + l.2) with
        | none => none
        | some (c, q) =>
          let d := cooperBase c
          cooperCodes lit dist x lim n (q + d.2) ((l.1 + bitsAt x p l.2 + 4, d.1 + bitsAt x q d.2 + 1) :: out)

/-- A segment: its tokens, and whether it is as an engine writes it: at most 1 MiB of bytes, a lone symbol of length 1, and zeros in its reserved bits
and in the bits to the next byte (R244). -/
structure CooperSeg where
  toks  : List (Nat × Nat)
  exact : Bool
deriving DecidableEq, Repr

/-- The segments of a payload, and the position after them. The reserved bits of a segment's header are ignored (R8). -/
def cooperSegs (bs : List Byte) (x lim : Nat) : Nat → Nat → Option (Nat × List CooperSeg)
  | 0, _ => none
  | n + 1, pos =>
    let b := pos / 8
    if lim < pos + 8 * 202 then none
    else
      let lens := (slice bs (b + 2) 200).flatMap (fun y => [y.toNat % 16, y.toNat / 16])
      let lit := lens.take 305
      let dist := (lens.drop 305).take 92
      if !(huffOk lit && huffOk dist && (lens.drop 397).all (· == 0)) then none
      else match cooperCodes (huffOf lit) (huffOf dist) x lim (lim + 1) (pos + 8 * 202) [] with
        | none => none
        | some (p, o) =>
          let g : CooperSeg := { toks := o.reverse, exact := f16 bs b < 2 && loneOk lit && loneOk dist && bitsAt x p (roundUp p 8 - p) == 0
                                                             && sumNat (o.map tokenLen) ≤ 2 ^ 20 }
          if f16 bs b % 2 = 1 then some (p, [g]) else (cooperSegs bs x lim n (roundUp p 8)).map (fun r => (r.1, g :: r.2))

/-- The segments of a whole payload and the position after them. -/
def cooperStream (bs : List Byte) : Option (Nat × List CooperSeg) := cooperSegs bs (leNat bs) (8 * bs.length) (bs.length + 1) 0

/-- A Cooper-L payload decoded. -/
def cooperExpand (bs : List Byte) : Option (List Byte) :=
  (cooperStream bs).bind (fun r => (tokenBytes (r.2.flatMap CooperSeg.toks) #[]).map Array.toList)

/-! ## Matching (R242) -/

/-- The limits of a mode: the bytes hashed, which are also the shortest match; the longest match; the window, none for the whole block. -/
def matchLimits (mode : Nat) : Nat × Nat × Option Nat := if mode = 0 then (3, 258, some 32768) else (4, 8195, none)

/-- The length of the match at a position with an earlier one, up to a limit. -/
def matchLen (a : Array Byte) (q p : Nat) : Nat → Nat
  | 0 => 0
  | n + 1 => match a[q]?, a[p]? with
    | some x, some y => if x = y then 1 + matchLen a (q + 1) (p + 1) n else 0
    | _, _ => 0

/-- The chain head of a position; none where too few bytes are left. -/
def chainOf (a : Array Byte) (mode p : Nat) : Option Nat :=
  let n := (matchLimits mode).1
  if p + n ≤ a.size then some (Config.cooperHash ((List.range n).map (fun i => a[p + i]?.getD 0)) % 65536) else none

/-- The match at a position, length and distance: among the earlier positions of its chain, the nearest first and as many as the depth of LEVEL, the
longest, and among equal lengths the nearest. -/
def bestMatch (a : Array Byte) (mode level p : Nat) : Option (Nat × Nat) :=
  let lim := matchLimits mode
  match chainOf a mode p with
  | none => none
  | some h =>
    let chain := ((List.range p).reverse.filter (fun q => chainOf a mode q == some h)).take (2 ^ (level - 1))
    let near := chain.filter (fun q => (lim.2.2.map (fun w => Nat.ble (p - q) w)).getD true)
    let found := (near.map (fun q => (matchLen a q p lim.2.1, p - q))).filter (fun m => lim.1 ≤ m.1)
    minBy (fun m => (lim.2.1 - m.1) * 2 ^ 25 + m.2) found

/-- The tokens of a block from a position. At LEVEL 4 and above a match is deferred by one byte when the match there is longer. -/
def matchTokens (a : Array Byte) (mode level : Nat) : Nat → Nat → List (Nat × Nat)
  | 0, _ => []
  | n + 1, p =>
    match a[p]? with
    | none => []
    | some b =>
      match bestMatch a mode level p with
      | none => (0, b.toNat) :: matchTokens a mode level n (p + 1)
      | some m =>
        if 4 ≤ level ∧ m.1 < ((bestMatch a mode level (p + 1)).map (·.1)).getD 0 then (0, b.toNat) :: matchTokens a mode level n (p + 1)
        else m :: matchTokens a mode level n (p + m.1)

/-- The tokens of a block. -/
def blockTokens (mode level : Nat) (bytes : List Byte) : List (Nat × Nat) := matchTokens bytes.toArray mode level bytes.length 0

/-! ## Writing codes -/

/-- The bytes of a sequence of fields, value and width, the first in the lowest bits. -/
def packFields (fs : List (Nat × Nat)) : List Byte :=
  let r := fs.foldl (fun (a : Nat × Nat) (f : Nat × Nat) => (a.1 + f.1 % 2 ^ f.2 * 2 ^ a.2, a.2 + f.2)) (0, 0)
  leBytes (ceilDiv r.2 8) r.1

/-- The code of a symbol as a field (RFC 1951 sections 3.1.1 and 3.2.2): its bits the most significant first. -/
def huffPut (lens : List Nat) (s : Nat) : Nat × Nat :=
  let n := (lens[s]?).getD 0
  let first := sumNat ((List.range n).map (fun k => if k = 0 then 0 else (lens.filter (· == k)).length * 2 ^ (n - k)))
  let c := first + ((lens.take s).filter (· == n)).length
  (sumNat ((List.range n).map (fun i => bitsAt c i 1 * 2 ^ (n - 1 - i))), n)

/-- The fields of a token under the fixed codes. -/
def fixedToken (t : Nat × Nat) : List (Nat × Nat) :=
  if t.1 = 0 then [huffPut fixedLens t.2]
  else
    let c := ((List.range 29).reverse.find? (fun c => (lenBase (257 + c)).1 ≤ t.1)).getD 0
    let d := ((List.range 30).reverse.find? (fun c => (distBase c).1 ≤ t.2)).getD 0
    [huffPut fixedLens (257 + c), (t.1 - (lenBase (257 + c)).1, (lenBase (257 + c)).2), huffPut fixedDistLens d,
     (t.2 - (distBase d).1, (distBase d).2)]

/-- A DEFLATE stream of one block of fixed codes. -/
def fixedStream (toks : List (Nat × Nat)) : List (Nat × Nat) := [(1, 1), (1, 2)] ++ toks.flatMap fixedToken ++ [huffPut fixedLens 256]

/-- The bits of tokens in a block of fixed codes. -/
def fixedBits (toks : List (Nat × Nat)) : Nat := sumNat ((fixedStream toks).map (·.2))

/-- The code of a value and its extra bits (R245). -/
def cooperCode (v : Nat) : Nat × Nat × Nat :=
  if v < 8 then (v, 0, 0)
  else
    let n := Nat.log2 v
    (8 + 4 * (n - 3) + v / 2 ^ (n - 2) % 4, v % 2 ^ (n - 2), n - 2)

/-- The tokens of a block in runs of at most 1 MiB of bytes. -/
def cooperRuns (toks : List (Nat × Nat)) : List (List (Nat × Nat)) :=
  let step (a : List (List (Nat × Nat)) × Nat) (t : Nat × Nat) : List (List (Nat × Nat)) × Nat :=
    match a.1 with
    | r :: rs => if a.2 + tokenLen t ≤ 2 ^ 20 then ((t :: r) :: rs, a.2 + tokenLen t) else ([t] :: r :: rs, tokenLen t)
    | [] => ([[t]], tokenLen t)
  ((toks.foldl step ([], 0)).1.reverse).map List.reverse

/-- Code lengths of n bits for the symbols that are used, 1 for a lone one (R244). -/
def evenLens (size n : Nat) (used : List Nat) : List Nat :=
  let us := (List.range size).filter used.contains
  (List.range size).map (fun i => if us.contains i then (if us.length = 1 then 1 else n) else 0)

/-- A segment of codes of even lengths. -/
def evenSegment (last : Bool) (toks : List (Nat × Nat)) : List Byte :=
  let lc (t : Nat × Nat) : Nat × Nat × Nat := cooperCode (t.1 - 4)
  let dc (t : Nat × Nat) : Nat × Nat × Nat := cooperCode (t.2 - 1)
  let lit := evenLens 305 9 (256 :: toks.map (fun t => if t.1 = 0 then t.2 else 257 + (lc t).1))
  let dist := evenLens 92 7 ((toks.filter (fun t => t.1 != 0)).map (fun t => (dc t).1))
  let one (t : Nat × Nat) : List (Nat × Nat) :=
    if t.1 = 0 then [huffPut lit t.2] else [huffPut lit (257 + (lc t).1), (lc t).2, huffPut dist (dc t).1, (dc t).2]
  packFields ([(bit01 last, 16)] ++ (lit ++ dist ++ [0, 0, 0]).map (fun n => (n, 4)) ++ toks.flatMap one ++ [huffPut lit 256])

/-- A payload of segments of even codes. -/
def evenPayload (toks : List (Nat × Nat)) : List Byte :=
  let rs := cooperRuns toks
  rs.zipIdx.flatMap (fun r => evenSegment (r.2 + 1 == rs.length) r.1)

/-- Whether a payload is one that R243 and R244 let an engine write for a block's tokens: in compatible mode, one stream of fixed or dynamic blocks, each
of the kind that is smaller, with nothing after it; in Cooper-L, segments as the engine writes them. -/
def payloadOk (mode : Nat) (toks : List (Nat × Nat)) (pay : List Byte) : Bool :=
  if mode = 0 then
    match inflateStream pay with
    | none => false
    | some (p, bs) => roundUp p 8 == 8 * pay.length && bs.flatMap DeflateBlock.toks == toks
        && bs.all (fun b => (b.kind == 1 && fixedBits b.toks ≤ Config.dynamicBits b.toks)
             || (b.kind == 2 && b.bits == Config.dynamicBits b.toks && Nat.blt b.bits (fixedBits b.toks)))
  else
    match cooperStream pay with
    | none => false
    | some (p, gs) => roundUp p 8 == 8 * pay.length && gs.flatMap CooperSeg.toks == toks && gs.all CooperSeg.exact

/-- The coded payload of a block: the engine's own, which codes the tokens of R242 in the format; a value of the free function that does not is taken to be the
plainest coding of the tokens (log 39). -/
def cooperCoded (mode level log2 : Nat) (bytes : List Byte) : List Byte :=
  let toks := blockTokens mode level bytes
  let code := Config.cooper mode level log2 bytes
  if payloadOk mode toks code then code else if mode = 0 then packFields (fixedStream toks) else evenPayload toks

/-! ## Blocks (R243, Table 09-3) -/

/-- What a payload decodes to, held to its ORIG_LEN. -/
def expandPayload (mode : Nat) (raw : Bool) (pay : List Byte) (orig : Nat) : Option (List Byte) :=
  let out := if raw then some pay else if mode = 0 then inflate pay else cooperExpand pay
  match out with
  | some o => if o.length = orig then some o else none
  | none => none

/-- The header of a block. -/
def cooperHeader (mode : Nat) (raw poisoned : Bool) (log2 orig pay crc index zeroed : Nat) : List Byte :=
  let h := layout 36 [(0x00, 2, 0x4B43), (0x02, 1, mode + 2 * bit01 raw + 4 * bit01 poisoned), (0x03, 1, log2), (0x04, 4, orig), (0x08, 4, pay),
    (0x0C, 4, crc), (0x10, 4, index), (0x14, 4, zeroed)]
  h ++ leBytes 4 (crc32c h)

/-- A framed block of bytes: coded where that is smaller, else raw. plain keeps it from being coded; zeroed counts the lines zeroed under
R254. That a coded payload decodes to its block, which R242 to R245 have it do, is asked for outright. -/
def cooperFrame (mode level log2 index : Nat) (plain : Bool) (zeroed : Nat) (bytes : List Byte) : List Byte :=
  let code := cooperCoded mode level log2 bytes
  let coded := !plain && code.length < bytes.length && expandPayload mode false code bytes.length == some bytes
  let pay := if coded then code else bytes
  cooperHeader mode (!coded) (zeroed != 0) log2 bytes.length pay.length (crc32c bytes) index zeroed ++ padTo (roundUp pay.length 8) pay

/-- The largest output of a job (R243). -/
def cooperLargest (log2 len : Nat) : Nat :=
  sumNat ((List.range (ceilDiv len (2 ^ log2))).map (fun i => 40 + roundUp (Nat.min (2 ^ log2) (len - i * 2 ^ log2)) 8))

/-- The framed blocks of a source in device memory. Where lost is set, a block with marked lines is built without compression and those
lines are zeros (R254). -/
def cooperBlocks (m : Memory) (mode level log2 : Nat) (plain lost : Bool) (src len : Nat) : List (List Byte) :=
  (List.range (ceilDiv len (2 ^ log2))).map (fun i =>
    let a := src + i * 2 ^ log2
    let n := Nat.min (2 ^ log2) (len - i * 2 ^ log2)
    let marks := if lost then m.marksIn a n else []
    let bytes := (List.range n).map (fun j => if marks.contains ((a + j) / 64) then 0 else m.byte (a + j))
    cooperFrame mode level log2 i (plain || !marks.isEmpty) marks.length bytes)

/-- A header of a framed block: offset, MODE, RAW, ORIG_LEN, PAY_LEN and CRC. -/
structure CooperHead where
  off  : Nat
  mode : Nat
  raw  : Bool
  orig : Nat
  pay  : Nat
  crc  : Nat
deriving DecidableEq, Repr

/-- The headers of a sequence of framed blocks, or the offset of a malformed one (R247). -/
def cooperHeads (src : List Byte) : Nat → Nat → Except Nat (List CooperHead)
  | 0, off => .error off
  | n + 1, off =>
    if src.length ≤ off then .ok []
    else
      let h := slice src off 40
      let fl := f8 h 2
      let orig := f32 h 4
      let pay := f32 h 8
      let bad := src.length < off + 40 || f16 h 0 != 0x4B43 || f32 h 0x24 != crc32c (h.take 36) || !(16 ≤ f8 h 3 && f8 h 3 ≤ 24)
        || orig = 0 || 2 ^ f8 h 3 < orig || orig < pay || src.length < off + 40 + roundUp pay 8 || (bitOf fl 1 && pay != orig)
      if bad then .error off
      else match cooperHeads src n (off + 40 + roundUp pay 8) with
        | .ok rest => .ok ({ off := off, mode := fl % 2, raw := bitOf fl 1, orig := orig, pay := pay, crc := f32 h 0xC } :: rest)
        | .error e => .error e

end Sys2Proof.Machine
end

