-- ==== Sys2Proof/Machine/RecOps.lean ====
section
/-!
DEFINITION. Recording sessions (chapter 09): the session block's fields, the KXR records, the staging ring and its sinks, the pre-roll store, and the
records that a session writes of its own.
-/
namespace Sys2Proof.Machine

/-! ## The session block (Tables 09-4, 09-5) -/

/-- CONTAINER: 0 KXR, 1 fragmented ISO BMFF, 2 RTP. -/
def RecSession.container (e : RecSession) : Nat := f8 e.blk 0 % 4
/-- EVENT. -/
def RecSession.isEvent (e : RecSession) : Bool := bitOf (f8 e.blk 1) 0
/-- ALIGN. -/
def RecSession.aligned (e : RecSession) : Bool := bitOf (f8 e.blk 1) 1
/-- SINK: 0 DEVICE, 1 HOST, 2 ETH. -/
def RecSession.sink (e : RecSession) : Nat := f8 e.blk 3 % 4
/-- ALIGN_WAIT in 2^-16 ns, 0 selecting 40 ms. -/
def RecSession.alignWait (e : RecSession) : Nat := (if f16 e.blk 4 = 0 then 40 else f16 e.blk 4) * 1000000 * 65536
/-- FRAG_MS in 2^-16 ns, 0 selecting 1,000 ms. -/
def RecSession.fragTime (e : RecSession) : Nat := (if f16 e.blk 6 = 0 then 1000 else f16 e.blk 6) * 1000000 * 65536
/-- The address of the staging ring. -/
def RecSession.stageAddr (e : RecSession) : Nat := e.base + f32 e.blk 8
/-- Where records start in the staging ring: after the control block with the DEVICE sink (R256). -/
def RecSession.recAddr (e : RecSession) : Nat := e.stageAddr + (if e.sink = 0 then 64 else 0)
/-- The record area of the staging ring. -/
def RecSession.area (e : RecSession) : Nat := f32 e.blk 0xC - (if e.sink = 0 then 64 else 0)
/-- HOST_ADDR. -/
def RecSession.hostAddr (e : RecSession) : Nat := f64 e.blk 0x18
/-- The record area of the host ring. -/
def RecSession.hostArea (e : RecSession) : Nat := f32 e.blk 0x20 - 64
/-- MTU. -/
def RecSession.mtu (e : RecSession) : Nat := f16 e.blk 0x3C

/-- COMPRESS. -/
def RecSrc.compress (x : RecSrc) : Nat := f8 x.entry 2 % 4
/-- LEVEL, 0 selecting 5. -/
def RecSrc.level (x : RecSrc) : Nat := if f8 x.entry 3 % 16 = 0 then 5 else f8 x.entry 3 % 16
/-- ON_FULL: RAW instead of RETRY. -/
def RecSrc.onFullRaw (x : RecSrc) : Bool := bitOf (f8 x.entry 3) 4
/-- BLOCK_LOG2, 0 selecting 20. -/
def RecSrc.log2 (x : RecSrc) : Nat := if f8 x.entry 8 = 0 then 20 else f8 x.entry 8
/-- ALLOT, 0 selecting 75 percent. -/
def RecSrc.allot (x : RecSrc) : Nat := if f8 x.entry 9 = 0 then 75 else f8 x.entry 9

/-- Applies a function to one source of a session. -/
def State.mapSrc (h : Handle) (k : Nat) (f : RecSrc → RecSrc) (s : State) : State :=
  let at_ (x : RecSrc × Nat) : RecSrc := if x.2 = k then f x.1 else x.1
  s.mapRec h (fun e => { e with sources := e.sources.zipIdx.map at_ })

/-- Applies a function to the counters of a session. -/
def State.countRec (h : Handle) (f : RecCounters → RecCounters) (s : State) : State := s.mapRec h (fun e => { e with cnt := f e.cnt })

/-! ## Records (Tables 09-7, 09-8) -/

/-- The bytes of a KXR record with a sequence number. -/
def kxrRecord (seq : Nat) (r : RecOut) : List Byte :=
  let ns := r.time / 65536
  let h := layout 36 [(0x00, 2, 0x5258), (0x02, 1, r.type), (0x03, 1, r.stream), (0x04, 4, r.payload.length), (0x08, 2, r.flags), (0x0A, 2, r.run),
    (0x0C, 4, r.fn), (0x10, 6, secOf ns), (0x16, 2, r.time % 65536), (0x18, 4, nsOf ns), (0x1C, 4, crc32c r.payload), (0x20, 4, seq)]
  h ++ leBytes 4 (crc32c h) ++ padTo (roundUp r.payload.length 8) r.payload

/-- The length of a record. -/
def RecOut.len (r : RecOut) : Nat := 40 + roundUp r.payload.length 8

/-- A record without a frame. -/
def recPlain (type stream time : Nat) (payload : List Byte) : RecOut :=
  { type := type, stream := stream, flags := 0, run := 0, fn := 0xFFFFFFFF, time := time, payload := payload, idrs := [] }

/-- A GAP record of a source (Tables 09-8, 09-9). -/
def recGap (stream first last cause run time : Nat) : RecOut :=
  { type := 7, stream := stream, flags := 0, run := run, fn := first % 2 ^ 32, time := time, idrs := [],
    payload := leBytes 4 first ++ leBytes 4 last ++ leBytes 1 cause ++ zeros 7 }

/-- The PAD record that fills an area to its end; a rest too short for a header is zeros. -/
def recPad (seq time rest : Nat) : List Byte :=
  if rest < 40 then zeros rest else kxrRecord seq (recPlain 9 0xFF time (zeros (rest - 40)))

/-! ## The sinks -/

/-- One record goes to an armed host ring that has room for it (R256): PCIe writes, then the 8-byte WR update. -/
def State.hostCommit (h : Handle) (s : State) : State × Bool :=
  match s.rec_ h with
  | none => (s, false)
  | some e =>
    match e.staged with
    | [] => (s, false)
    | r :: rest =>
      let n := r.bytes.length
      if !e.armed || ringFree e.hostArea e.sinkWr e.sinkRd < ringNeeds e.hostArea e.sinkWr n then (s, false)
      else
        let wraps : Bool := Nat.blt e.hostArea (e.sinkWr.off + n)
        let at_ : RingPos := if wraps then { off := 0, wraps := e.sinkWr.wraps + 1 } else e.sinkWr
        let wr := at_.plus e.hostArea n
        let t := if wraps && e.sinkWr.off != e.hostArea then
            s.emit (.hostWrite (e.hostAddr + 64 + e.sinkWr.off) (recPad e.seq s.time.stamp (e.hostArea - e.sinkWr.off))) else s
        let t := (t.emit (.hostWrite (e.hostAddr + 64 + at_.off) r.bytes)).emit (.hostWrite e.hostAddr (leBytes 4 wr.off ++ leBytes 4 wr.wraps))
        (t.mapRec h (fun x => { x with sinkWr := wr, rd := r.stop, staged := rest }), true)

/-- An IPv4 header, with DF set and no options; TTL is free (R258, log 41). -/
def ipHeader (b : List Byte) (proto len key : Nat) : List Byte :=
  let h (sum : Nat) : List Byte := [0x45] ++ beBytes 1 (f16 b 0x3E % 64 * 4) ++ beBytes 2 len ++ beBytes 2 0 ++ beBytes 2 0x4000
    ++ beBytes 1 (Config.freeNat key % 255 + 1) ++ beBytes 1 proto ++ beBytes 2 sum ++ beBytes 4 (f32 b 0x30) ++ beBytes 4 (f32 b 0x34)
  h (0xFFFF - fold16 (sum16 (h 0)))

/-- A UDP datagram from the session's addresses to a port, as an Ethernet frame of its Ethernet port (R258). -/
def udpFrame (b : List Byte) (mac dport key : Nat) (data : List Byte) : List Byte :=
  let n := 8 + data.length
  let udp (sum : Nat) : List Byte := beBytes 2 (f16 b 0x3A) ++ beBytes 2 dport ++ beBytes 2 n ++ beBytes 2 sum ++ data
  let pseudo := beBytes 4 (f32 b 0x30) ++ beBytes 4 (f32 b 0x34) ++ [0, 17] ++ beBytes 2 n
  let sum := 0xFFFF - fold16 (sum16 (pseudo ++ udp 0))
  let tag := if bitOf (f16 b 0x24) 5 then beBytes 2 0x8100 ++ beBytes 2 (bitsOf (f16 b 0x24) 4 2 * 8192 + f16 b 0x26 % 4096) else []
  beBytes 6 (fld b 0x28 6) ++ beBytes 6 mac ++ tag ++ beBytes 2 0x0800 ++ ipHeader b 17 (20 + n) key ++ udp (if sum = 0 then 0xFFFF else sum)

/-- Sends one datagram of a session. -/
def State.recDatagram (h : Handle) (dport : Nat) (data : List Byte) (s : State) : State :=
  match s.rec_ h with
  | none => s
  | some e =>
    let p := f16 e.blk 0x24 % 4
    let f := udpFrame e.blk (s.eth p).mac dport s.fresh data
    ((s.ethQueue p (bitsOf (f16 e.blk 0x24) 4 2) f).tickFresh).countRec h (fun n => { n with datagrams := n.datagrams.satInc })

/-- A list cut into pieces of a length. The fuel bounds the pieces. -/
def pieces (n : Nat) : Nat → List Byte → List (List Byte)
  | 0, _ => []
  | k + 1, l => if l.isEmpty then [] else l.take n :: pieces n k (l.drop n)

/-- A KXR record leaves as datagrams (R258): each has the 16-byte header; the record's header is at the start of the first (log 41). -/
def State.kxrSend (h : Handle) (bytes : List Byte) (s : State) : State :=
  match s.rec_ h with
  | none => s
  | some e =>
    let room := Nat.max 1 (e.mtu - 44)
    ((pieces room bytes.length bytes).zipIdx).foldl (fun (t : State) (q : List Byte × Nat) =>
      let seq := ((t.rec_ h).map RecSession.ethSeq).getD 0
      let head := leBytes 2 0x4B58 ++ leBytes 2 (if q.2 = 0 then 0 else 0xFFFF) ++ leBytes 4 seq ++ zeros 8
      (t.recDatagram h (f16 e.blk 0x38) (head ++ q.1)).mapRec h (fun x => { x with ethSeq := x.ethSeq + 1 })) s

/-- The RTP payloads of one NAL unit (RFC 7798): a single NAL unit packet, or fragmentation units. -/
def rtpPayloads (room : Nat) (u : List Byte) : List (List Byte) :=
  if u.length ≤ room then [u]
  else
    let type := (u.getD 0 0).toNat / 2 % 64
    let b0 := (u.getD 0 0).toNat
    let head := [BitVec.ofNat 8 (b0 / 128 * 128 + 49 * 2 + b0 % 2), u.getD 1 0]
    let ps := pieces (room - 3) u.length (u.drop 2)
    ps.zipIdx.map (fun q =>
      head ++ [BitVec.ofNat 8 (128 * bit01 (q.2 == 0) + 64 * bit01 (q.2 + 1 == ps.length) + type)] ++ q.1)

/-- The RTP timestamp of a time in 2^-16 ns (R258). -/
def rtpTime (time : Nat) : Nat := time / 65536 * 90000 / 1000000000 % 2 ^ 32

/-- An access unit leaves as RTP packets of its source, the marker bit on the last (R258). -/
def State.rtpSend (h : Handle) (r : RecOut) (s : State) : State :=
  match s.rec_ h with
  | none => s
  | some e =>
    let k := r.stream
    let ps := (nalSplit (r.payload.drop 64) none).flatMap (rtpPayloads (Nat.max 4 (e.mtu - 40)))
    (ps.zipIdx).foldl (fun (t : State) (q : List Byte × Nat) =>
      let seq := (((t.rec_ h).bind (fun x => x.sources[k]?)).map RecSrc.rtpSeq).getD 0
      let head := beBytes 1 0x80 ++ beBytes 1 (96 + 128 * bit01 (q.2 + 1 == ps.length)) ++ beBytes 2 seq ++ beBytes 4 (rtpTime r.time)
        ++ beBytes 4 (f32 e.blk 0x40 + k)
      (t.recDatagram h (f16 e.blk 0x38 + 2 * k) (head ++ q.1)).mapSrc h k (fun x =>
        { x with rtpSeq := x.rtpSeq + 1, packets := x.packets + 1, octets := x.octets + BitVec.ofNat 32 q.1.length })) s

/-- Staged records of an ETH sink leave at once; they are not kept (R258). -/
def State.ethDrain (h : Handle) (s : State) : State :=
  match s.rec_ h with
  | none => s
  | some e =>
    e.staged.foldl (fun (t : State) (r : Staged) =>
      let u := if e.container = 2 then t.rtpSend h r.rec_ else t.kxrSend h r.bytes
      u.mapRec h (fun x => { x with rd := r.stop, staged := x.staged.drop 1 })) s

/-- Staged records go to a host ring until it is full. The fuel bounds the records. -/
def State.hostDrain (h : Handle) : Nat → State → State
  | 0, s => s
  | n + 1, s => let r := s.hostCommit h; if r.2 then State.hostDrain h n r.1 else s

/-- The sink takes what it can of the staging ring. -/
def State.recDrain (h : Handle) (s : State) : State :=
  match s.rec_ h with
  | none => s
  | some e =>
    match e.sink with
    | 1 => s.hostDrain h e.staged.length
    | 2 => s.ethDrain h
    | _ => s

/-! ## The staging ring (R250, R256) -/

/-- The read position of the staging ring: the host's RD with the DEVICE sink. -/
def State.recRd (s : State) (e : RecSession) : RingPos := if e.sink = 0 then s.readPos e.stageAddr else e.rd

/-- Whether a record fits in the staging ring now. -/
def State.recFits (s : State) (e : RecSession) (n : Nat) : Bool := ringNeeds e.area e.wr n ≤ ringFree e.area e.wr (s.recRd e)

/-- Writes a record into the staging ring, after a PAD where it does not fit before the end. -/
def State.recStage (h : Handle) (r : RecOut) (s : State) : State :=
  match s.rec_ h with
  | none => s
  | some e =>
    let bytes := kxrRecord e.seq r
    let n := bytes.length
    let wraps : Bool := Nat.blt e.area (e.wr.off + n)
    let at_ : RingPos := if wraps then { off := 0, wraps := e.wr.wraps + 1 } else e.wr
    let wr := at_.plus e.area n
    let t := if wraps then s.writeMem (e.recAddr + e.wr.off) (recPad e.seq s.time.stamp (e.area - e.wr.off)) else s
    let t := (t.writeMem (e.recAddr + at_.off) bytes).writes .recording .recording noCam (e.recAddr + at_.off) n
    let t := if e.sink = 0 then t.writeMem e.stageAddr (leBytes 4 wr.off ++ leBytes 4 wr.wraps) else t
    let up (c : RecCounters) : RecCounters :=
      { c with records := c.records.satInc, bytes := Nat.min (2 ^ 64 - 1) (c.bytes + n),
               gaps := if r.type = 7 then c.gaps.satInc else c.gaps,
               filled := if r.type = 6 && bitOf r.flags 1 then c.filled.satInc else c.filled,
               late := if bitOf r.flags 0 then c.late.satInc else c.late,
               poisoned := if bitOf r.flags 2 then c.poisoned.satInc else c.poisoned,
               waitMs := c.waitMs + ((e.waitFrom.map (fun w => (s.ns - w) / 1000000)).getD 0) }
    t.mapRec h (fun x => { x with
      wr := wr, seq := x.seq + 1, waitFrom := none, cnt := up x.cnt,
      staged := if x.sink = 0 then [] else x.staged ++ [{ stop := wr, bytes := bytes, rec_ := r }] })

/-- A record waits for space from now on. -/
def State.recWaits (h : Handle) (s : State) : State :=
  s.mapRec h (fun x => { x with waitFrom := some (x.waitFrom.getD s.ns) })

/-- The session's own records and those it has taken are staged in order as far as they fit, and the sink takes what it can. The fuel bounds the records. -/
def State.recPump (h : Handle) : Nat → State → State
  | 0, s => s.recDrain h
  | n + 1, s =>
    let t := s.recDrain h
    match t.rec_ h with
    | none => t
    | some e =>
      match e.backlog with
      | [] => t
      | r :: rest =>
        if t.recFits e r.len then State.recPump h n ((t.recStage h r).mapRec h (fun x => { x with backlog := rest }))
        else t.recWaits h

/-- Records join the backlog of a session and are staged as far as they fit. RTP sends access units only (R258). -/
def State.recQueue (h : Handle) (rs : List RecOut) (s : State) : State :=
  match s.rec_ h with
  | none => s
  | some e =>
    let keep := if e.container = 2 then rs.filter (fun r => r.type == 4) else rs
    (s.mapRec h (fun x => { x with backlog := x.backlog ++ keep })).recPump h (e.backlog.length + keep.length + 1)

/-! ## The pre-roll store -/

/-- A record goes into the store; the oldest records make room (chapter 09, Event capture). -/
def State.recStore (h : Handle) (r : RecOut) (sent : Bool) (s : State) : State :=
  match s.rec_ h with
  | none => s
  | some e =>
    let n := r.len
    let area := f32 e.blk 0x14
    if area < n then s
    else
      let wraps : Bool := Nat.blt area (e.storeOff + n)
      let off := if wraps then 0 else e.storeOff
      let stays (x : StoreRec) : Bool := !(wraps && Nat.ble e.storeOff x.off) && !(Nat.blt x.off (off + n) && Nat.blt off (x.off + x.len))
      ((s.writeMem (e.base + f32 e.blk 0x10 + off) (kxrRecord e.seq r)).writes .recording .recording noCam (e.base + f32 e.blk 0x10 + off) n).mapRec h (fun x => { x with
        storeOff := off + n, store := x.store.filter stays ++ [{ off := off, len := n, rec_ := r, sent := sent }] })

/-! ## The session's own records (R251, R259) -/

/-- The description of a source in its STREAM record (Table 09-8). -/
def State.srcInfo (s : State) (x : RecSrc) : List Byte :=
  x.entry ++ (match x.kind with
    | 1 => ((s.enc x.handle).map (fun e => e.blk)).getD (zeros 96)
    | 2 => padTo 64 x.head
    | 4 => ((s.port x.index).map (fun p => p.blk)).getD (zeros 48)
    | _ => [])

/-- SESSION and STREAM records of now. -/
def State.descRecords (s : State) (e : RecSession) : List RecOut :=
  let t := s.time.stamp
  let body := leBytes 4 e.handle.toNat ++ leBytes 1 s.dev.inst ++ leBytes 1 (f8 e.blk 2) ++ leBytes 2 0x0001 ++ leBytes 6 (secOf e.openNs)
    ++ leBytes 4 (nsOf e.openNs)
  recPlain 1 0xFF t (padTo 32 body) :: e.sources.zipIdx.map (fun x => recPlain 2 x.2 t (s.srcInfo x.1))

/-- The header bytes of a session that its initialisation segment describes: the session block and its sources' descriptions. -/
def State.bmffHead (s : State) (e : RecSession) : List Byte := e.blk ++ e.sources.flatMap s.srcInfo

/-- The description of a stream: SESSION and STREAM records, or an initialisation segment (R251, R259). -/
def State.recDescribe (h : Handle) (s : State) : State :=
  match s.rec_ h with
  | none => s
  | some e =>
    if e.container = 1 then
      (s.recQueue h [recPlain 10 0xFF s.time.stamp (Config.bmffInit (s.bmffHead e))]).mapRec h (fun x => { x with lastInit := s.ns })
    else s.recQueue h (s.descRecords e)

/-! ## Event windows (R260 to R262) -/

/-- Whether a window is open. -/
def RecSession.windowOpen (e : RecSession) : Bool := e.windows.any EventWin.opened

/-- A window among the others: those that overlap or touch it become one with it (R262). -/
def EventWin.join (w : EventWin) (ws : List EventWin) : List EventWin :=
  let meets (x : EventWin) : Bool := x.start ≤ w.stop && w.start ≤ x.stop
  let one := (ws.filter meets).foldl (fun (a : EventWin) x =>
    { start := Nat.min a.start x.start, stop := Nat.max a.stop x.stop, opened := a.opened || x.opened }) w
  ws.filter (fun x => !meets x) ++ [one]

/-- The sources of KIND ENCODE, by their index. -/
def RecSession.encs (e : RecSession) : List Nat := (e.sources.zipIdx.filter (fun x => x.1.kind == 1)).map (fun x => x.2)

/-- The place in the store from which a source is copied for a window: at its IDR access unit nearest before the start, else its first usable record; and
whether that is too late (R260, R261). -/
def RecSession.copyFrom (e : RecSession) (k start : Nat) : Nat × Bool :=
  let own := e.store.zipIdx.filter (fun x => x.1.rec_.stream == k || x.1.rec_.type == 11)
  let idrs := own.filter (fun x => x.1.rec_.idrs.contains k)
  match (idrs.filter (fun x => Nat.ble x.1.rec_.time start)).getLast? with
  | some x => (x.2, false)
  | none => match idrs.head? with
    | some x => (x.2, true)
    | none => (e.store.length, !own.isEmpty)

/-- The records of the store that belong to a window, with their places (R260): those of its span, and of each ENCODE source all from its copy's start. A BMFF
stream goes from the first of its sources' starts. -/
def RecSession.inWindow (e : RecSession) (start stop : Nat) : List (StoreRec × Nat) :=
  let from_ (k : Nat) : Nat := (e.copyFrom k start).1
  e.store.zipIdx.filter (fun x =>
    let r := x.1.rec_
    Nat.ble r.time stop && (if e.container = 1 then e.encs.any (fun k => Nat.ble (from_ k) x.2)
      else if e.encs.contains r.stream then Nat.ble (from_ r.stream) x.2 else Nat.ble start r.time))

/-- The records of a window that have not gone already are copied from the store to the staging ring with PREROLL (R260, R262). -/
def State.copyStore (h : Handle) (start stop : Nat) (s : State) : State :=
  match s.rec_ h with
  | none => s
  | some e =>
    let take := (e.inWindow start stop).filter (fun x => !x.1.sent)
    let taken := take.map (fun x => x.2)
    let sentAt (x : StoreRec × Nat) : StoreRec := if taken.contains x.2 then { x.1 with sent := true } else x.1
    (s.mapRec h (fun x => { x with store := x.store.zipIdx.map sentAt })).recQueue h (take.map (fun x => { x.1.rec_ with flags := x.1.rec_.flags + 8 }))

/-- Windows whose start has come open: the description, then their pre-roll (R251, R260). -/
def State.openDue (h : Handle) (s : State) : State :=
  match s.rec_ h with
  | none => s
  | some e =>
    let due (w : EventWin) : Bool := !w.opened && w.start ≤ s.ns
    let t := s.mapRec h (fun x => { x with windows := x.windows.map (fun w => { w with opened := w.opened || due w }) })
    (e.windows.filter due).foldl (fun (u : State) (w : EventWin) => (u.recDescribe h).copyStore h (w.start * 65536) (w.stop * 65536)) t

/-- A record of a session takes its way: to the store of an event session, and to the staging ring of a continuous one or while a window is open
(R250, R260). -/
def State.recPut (h : Handle) (r : RecOut) (s : State) : State :=
  let s1 := s.openDue h
  match s1.rec_ h with
  | none => s1
  | some e =>
    let out := !e.isEvent || e.windowOpen
    let t := if e.isEvent then s1.recStore h r out else s1
    if out then t.recQueue h [r] else t

/-- Whether a record of a source can be taken now: nothing waits before it and it fits, or it goes to the store only. -/
def State.recRoom (s : State) (e : RecSession) (n : Nat) : Bool :=
  (e.isEvent && !e.windowOpen) || (e.backlog.isEmpty && s.recFits e n)

/-! ## Fragments (R259) -/

/-- The records of the fragment in assembly (R259): an initialisation segment before it when the last is 1 s or more old, then the fragment. -/
def State.fragRecords (s : State) (e : RecSession) : List RecOut :=
  match e.frag with
  | [] => []
  | f :: _ =>
    let firsts := (List.range e.sources.length).filter (fun k => ((e.frag.find? (fun g => g.source == k)).map FragSample.idr).getD false)
    let body := Config.bmffFragment (s.bmffHead e) e.marks (e.frag.map (fun g => (g.source, g.time, g.au, g.ledger)))
    (if e.lastInit + 1000000000 ≤ s.ns then [recPlain 10 0xFF s.time.stamp (Config.bmffInit (s.bmffHead e))] else [])
      ++ [{ recPlain 11 0xFF f.time body with idrs := firsts }]

/-- The fragment in assembly closes (R259). -/
def State.closeFrag (h : Handle) (s : State) : State :=
  match s.rec_ h with
  | none => s
  | some e =>
    let rs := s.fragRecords e
    let t := s.mapRec h (fun x => { x with
      frag := [], marks := if e.frag.isEmpty then x.marks else [], lastInit := if Nat.blt 1 rs.length then s.ns else x.lastInit })
    rs.foldl (fun (u : State) (r : RecOut) => u.recPut h r) t

end Sys2Proof.Machine
end

