-- ==== Sys2Proof/Machine/CmpCmds.lean ====
section
/-!
DEFINITION. The Cooper jobs (chapter 09): CMP_JOB and CMP_EXPAND, the work that the four engines take and finish, and a failed engine.
-/
namespace Sys2Proof.Machine

/-! ## Commands -/

/-- The fields of a job descriptor (Table 09-2). CMP_EXPAND ignores MODE, LEVEL and BLOCK_LOG2; reserved fields are ignored (R8). -/
def jobFields (b : List Byte) (expand : Bool) : List (Nat × Bool) :=
  [(0x00, expand || Nat.ble (f8 b 0 / 16) 9), (0x01, expand || (16 ≤ f8 b 1 && f8 b 1 ≤ 24)), (0x18, f32 b 0x18 != 0)]

/-- A Cooper job is checked and waits for an engine (R239, R240). -/
def cmpSubmit (op : Op) (expand : Bool) (c : Cmd) (s : State) : Chk Done := do
  let x ← needBuffer s c.handle 0
  let y ← needBuffer s c.aux 1
  let b ← structBytes s c
  needFields (jobFields b expand)
  let n := f32 b 0x18
  let m := f32 b 0x1C
  let src ← needInBuffer s x (fld b 8 5) n
  let dst ← needInBuffer s y (fld b 0x10 5) m
  need (c.handle != c.aux || !meets src n dst m) (badStruct 0x10)
  needUnpinned s dst m
  if s.stopping (ref op c) then
    return .done .aborted 0 0 s
  let level := f8 b 0 / 16
  let job : CmpJob := { why := .command (ref op c) expand, src := src, srcLen := n, dst := dst, dstLen := m, mode := f8 b 0 % 2,
                        level := if level = 0 then 5 else level, log2 := f8 b 1 }
  waitDone op c { s with cmp := { s.cmp with queue := s.cmp.queue ++ [job] } }

/-- CMP_JOB (R239). -/
def execCmpJob (c : Cmd) (s : State) : Host.Outcome State Fault Refusal := runCmd .cmpJob c s (cmpSubmit .cmpJob false c s)
/-- CMP_EXPAND (R239, R247). -/
def execCmpExpand (c : Cmd) (s : State) : Host.Outcome State Fault Refusal := runCmd .cmpExpand c s (cmpSubmit .cmpExpand true c s)

/-! ## What an engine does -/

/-- How many of a list of parts a job has done when a reset of its queue stops it at the end of one: how far it has come is free (log 13). -/
def State.partsDone (s : State) (n : Nat) : Nat := Config.freeNat s.fresh % (n + 1)

/-- Of a list of parts the longest start whose bytes fit. -/
def fitting (room : Nat) : List (List Byte) → List (List Byte)
  | [] => []
  | p :: ps => if p.length ≤ room then p :: fitting (room - p.length) ps else []

/-- A job of a command that is stopped at the end of a block (R246): the whole blocks written stay and RESULT0 holds their bytes. -/
def State.stopJob (i : Nat) (j : CmpJob) (r : CmdRef) (parts : List (List Byte)) (s : State) : State :=
  let out := (parts.take (s.partsDone parts.length)).flatten
  ((s.tickFresh.writeMem j.dst out).writes .cooper (.cooper i) noCam j.dst out.length).finish r .aborted (out.length % 2 ^ 32) 0 false

/-- The end of a compression job of a command (R243, R246). -/
def State.endCompress (i : Nat) (j : CmpJob) (r : CmdRef) (s : State) : State :=
  let bad := s.mem.mem.poisonIn j.src j.srcLen
  if s.stopping r then
    let blocks := cooperBlocks s.mem.mem j.mode j.level j.log2 false false j.src j.srcLen
    let clean := match bad with | some a => (a - j.src) / 2 ^ j.log2 | none => blocks.length
    s.stopJob i j r (fitting j.dstLen (blocks.take clean))
  else match bad with
  | some a => (s.undefine j.dst j.dstLen).finish r .dataPoisoned (a % 2 ^ 32) (a / 2 ^ 32) false
  | none =>
    let out := (cooperBlocks s.mem.mem j.mode j.level j.log2 false false j.src j.srcLen).flatten
    if j.dstLen < out.length then (s.undefine j.dst j.dstLen).finish r .outputFull 0 (cooperLargest j.log2 j.srcLen % 2 ^ 32) false
    else ((s.writeMem j.dst out).writes .cooper (.cooper i) noCam j.dst out.length).finish r .ok (out.length % 2 ^ 32)
      (crc32c (s.readMem j.src j.srcLen)) false

/-- The blocks of an expansion in order: the original bytes, or the first failure with its results (R247). -/
def expandAll (src : List Byte) : List CooperHead → Except (Status × Nat × Nat) (List Byte)
  | [] => .ok []
  | h :: rest =>
    match expandPayload h.mode h.raw (slice src (h.off + 40) h.pay) h.orig with
    | none => .error (.invalidParam, h.off, 1)
    | some o =>
      if crc32c o != h.crc then .error (.checkMismatch, crc32c o, h.crc)
      else match expandAll src rest with
        | .ok more => .ok (o ++ more)
        | .error e => .error e

/-- The blocks of an expansion up to the first that fails. -/
def expandParts (src : List Byte) : List CooperHead → List (List Byte)
  | [] => []
  | h :: rest => match expandAll src [h] with
    | .ok o => o :: expandParts src rest
    | .error _ => []

/-- The end of an expansion (R246, R247). -/
def State.endExpand (i : Nat) (j : CmpJob) (r : CmdRef) (s : State) : State :=
  let fail (st : Status) (r0 r1 : Nat) : State := (s.undefine j.dst j.dstLen).finish r st r0 r1 false
  match s.mem.mem.poisonIn j.src j.srcLen with
  | some a => fail .dataPoisoned (a % 2 ^ 32) (a / 2 ^ 32)
  | none =>
    let src := s.readMem j.src j.srcLen
    match cooperHeads src (src.length + 1) 0 with
    | .error off => fail .invalidParam off 1
    | .ok hs =>
      let sum := sumNat (hs.map CooperHead.orig)
      if j.dstLen < sum then fail .outputFull 0 (sum % 2 ^ 32)
      else if s.stopping r then s.stopJob i j r (expandParts src hs)
      else match expandAll src hs with
        | .error e => fail e.1 e.2.1 e.2.2
        | .ok out => ((s.writeMem j.dst out).writes .cooper (.cooper i) noCam j.dst out.length).finish r .ok (out.length % 2 ^ 32) (hs.length % 2 ^ 32)
            false

/-- A tap slot that a recording session holds is let go, by the address of its bytes after the header. -/
def State.freeTapAt (h : Handle) (src : Nat) (s : State) : State :=
  let free (r : Ring) : Ring :=
    { r with slots := r.slots.zipIdx.map (fun x =>
        if x.1.used && r.base + x.2 * r.slotSize + 64 == src then
          let y : RingSlot := { x.1 with holders := x.1.holders.filter (· != h) }
          if y.done && y.holders.isEmpty then { y with used := false } else y
        else x.1) }
  { s with cams := { s.cams with ctx := s.cams.ctx.map (fun c => { c with taps := c.taps.map free }) } }

/-- Changes the entry of a tap frame that waits at a source. -/
def State.mapTapPend (h : Handle) (k fn : Nat) (f : Option (List Byte) → Nat → Option (List Byte) × Nat) (s : State) : State :=
  s.mapSrc h k (fun x => { x with pend := x.pend.map (fun p => match p with
    | .tap n run a size time dl data att => if n = fn then (let r := f data att; .tap n run a size time dl r.1 r.2) else p
    | _ => p) })

/-- The end of a session job (R253, R254): what is produced waits at its source; a first attempt that does not fit is thrown away and ON_FULL decides. A job of
a session that has closed releases its slot (R263). -/
def State.endTap (j : CmpJob) (h : Handle) (k fn attempt : Nat) (s : State) : State :=
  match (s.rec_ h).bind (fun e => if e.closing.isSome then none else (e.sources[k]?)) with
  | none => s.freeTapAt h j.src
  | some x =>
    let out := (cooperBlocks s.mem.mem j.mode j.level j.log2 false true j.src j.srcLen).flatten
    if attempt = 0 && Nat.blt j.dstLen out.length then
      let up (n : RecCounters) : RecCounters :=
        if x.onFullRaw then { n with fullRaw := n.fullRaw.satInc } else { n with fullRetry := n.fullRetry.satInc }
      (s.mapTapPend h k fn (fun d _ => (d, 1))).countRec h up
    else s.mapTapPend h k fn (fun _ a => (some out, a))

/-- The job of an engine ends. -/
def State.endCmp (i : Nat) (j : CmpJob) (s : State) : State :=
  match j.why with
  | .command r false => s.endCompress i j r
  | .command r true => s.endExpand i j r
  | .tap h k fn attempt => s.endTap j h k fn attempt

/-! ## Choosing work (R240) -/

/-- Whether an engine has the job of a tap frame. -/
def CmpSt.hasTap (c : CmpSt) (h : Handle) (k fn : Nat) : Bool :=
  c.engines.toList.any (fun (o : Option CmpJob) => (o.map (fun j => match j.why with
    | .tap h2 k2 f2 _ => h2 == h && k2 == k && f2 == fn
    | _ => false)).getD false)

/-- The session jobs that could start, each with its frame deadline: tap slots to be coded whose space is there. -/
def State.tapJobs (s : State) : List (Nat × CmpJob) :=
  s.recs.flatMap (fun (e : RecSession) => if e.closing.isSome then [] else
    e.sources.zipIdx.flatMap (fun x =>
      x.1.pend.filterMap (fun p => match p with
        | .tap fn _ a size _ deadline none attempt =>
          let n := size - 64
          let largest := cooperLargest x.1.log2 n
          let limit := if attempt = 0 then largest * x.1.allot / 100 else largest
          if x.1.kind != 2 || x.1.compress == 0 || (attempt != 0 && x.1.onFullRaw) || s.mem.mem.marked a || s.cmp.hasTap e.handle x.2 fn
            || !s.recRoom e (104 + roundUp limit 8) then none
          else some (deadline, { why := .tap e.handle x.2 fn attempt, src := a + 64, srcLen := n, dst := 0, dstLen := limit,
                                 mode := x.1.compress - 1, level := x.1.level, log2 := x.1.log2 })
        | _ => none)))

/-- A free engine in service takes a session job, the earliest frame deadline first, else the next queue job. -/
def State.cmpTake (i : Nat) (s : State) : State :=
  let set (j : CmpJob) (q : List CmpJob) : State :=
    ({ s with cmp := { queue := q, engines := vmod s.cmp.engines i (fun _ => some j) } } : State).reads .cooper (.cooper i) noCam j.src j.srcLen
  if (vget s.cmp.engines none i).isSome || (s.mgmt.units.unitOf .cmpU i).isNone then s
  else match minBy (fun x => x.1) s.tapJobs, s.cmp.queue with
    | some j, q => set j.2 q
    | none, j :: q => set j q
    | none, [] => s

/-- CMP_ENGINE_DISPATCH (R240): the engine's job has ended where done says so, and a free engine takes the next job. -/
def execCmpEngineDispatch (i : Fin 4) (done : Bool) (s : State) : Host.Outcome State Fault Refusal :=
  let t := match vget s.cmp.engines none i.val with
    | some j => if done then ({ s with cmp := { s.cmp with engines := vmod s.cmp.engines i.val (fun _ => none) } } : State).endCmp i.val j else s
    | none => s
  .next (t.cmpTake i.val)

/-- CMP_ENGINE_FAULT (R241): a failed engine is retired, ERROR_LOGGED is posted, and its job is the next that another engine takes. -/
def execCmpEngineFault (i : Fin 4) (s : State) : Host.Outcome State Fault Refusal :=
  if (s.mgmt.units.unitOf .cmpU i.val).isNone then .next s
  else
    let back : List CmpJob := match vget s.cmp.engines none i.val with
      | some j => (match j.why with | .command _ _ => [j] | .tap _ _ _ _ => [])
      | none => []
    .next (({ s with cmp := { queue := back ++ s.cmp.queue, engines := vmod s.cmp.engines i.val (fun _ => none) } } : State).retireUnit .cmpU i.val)

end Sys2Proof.Machine
end

