-- ==== Sys2Proof/Machine/Slices.lean ====
section
/-!
DEFINITION. Band scheduling and the slices (chapters 03 to 06): which stripe a free slice takes, what a stripe writes into outputs,
taps and the temporal reference, the statistics it measures, and the end of a frame.
-/
namespace Sys2Proof.Machine

/-! ## Scheduling (R98, R99) -/

/-- Whether a role that a unit fills holds a stripe. -/
def State.stripeHeld (s : State) (cam fn k j : Nat) : Bool :=
  s.cams.slices.toList.zipIdx.any (fun x => match x.1 with
    | some q => q.cam == cam && q.fn == fn && q.band == k && q.stripe == j && (s.mgmt.units.unitOf .sliceU x.2).isSome
    | none => false)

/-- The frame accepted before a frame in processing, none once it is done. -/
def CamCtx.before (c : CamCtx) (f : CamFrame) : Option CamFrame := (c.frames.takeWhile (fun g => g.fn != f.fn)).getLast?

/-- Whether a stripe is eligible (R98). -/
def State.eligible (s : State) (cam : Nat) (f : CamFrame) (k j : Nat) : Bool :=
  let c := s.cam cam
  let bands := pfBands c.profile
  c.bandIn f k && (!f.set.tnrOn || Nat.blt k f.fields) && !f.stripes.contains (k, j) && !s.stripeHeld cam f.fn k j
    && (if k = 0 then
          (match c.before f with | some g => g.stripes.contains (bands - 1, j) | none => true)
        else f.stripes.contains (k - 1, j))

/-- The eligible stripes with the order of R99: frame deadline, band, stripe, context. -/
def State.eligibles (s : State) : List (Nat × SliceJob) :=
  s.cams.ctx.toList.zipIdx.flatMap (fun x => x.1.frames.flatMap (fun f =>
    (List.range (pfBands x.1.profile)).flatMap (fun k => (List.range x.1.span).filterMap (fun j =>
      if s.eligible x.2 f k j then
        some (((f.deadline * 256 + k) * 8 + j) * 64 + x.2, { cam := x.2, fn := f.fn, band := k, stripe := j, epoch := 0 })
      else none))))

/-- Whether two stripes are the same one. -/
def SliceJob.same (q w : SliceJob) : Bool := q.cam == w.cam && q.fn == w.fn && q.band == w.band && q.stripe == w.stripe

/-! ## Writing lines -/

/-- Sets or clears the mark of one line of memory. -/
def State.setMark (l : Nat) (b : Bool) (s : State) : State := s.mapMem (fun m => { m with mem := if b then m.mem.mark l else m.mem.unmark l })

/-- A line of a plane that a frame writes: the plane, the line in it, the first line of the frame in it, its address, the bytes of a sample, and the columns
of the frame that one sample stands for. -/
structure PlaneRow where
  plane : Nat
  y     : Nat
  luma  : Nat
  start : Nat
  size  : Nat
  sc    : Nat
deriving DecidableEq, Repr

/-- The samples of a row whose first column lies in a stripe: first and one past the last. -/
def PlaneRow.cols (r : PlaneRow) (x0 x1 : Nat) : Nat × Nat := (ceilDiv x0 r.sc, ceilDiv x1 r.sc)

/-- The 64-byte lines of memory that n bytes of a row take from sample x0 on, each with the first and the last column of the frame that it holds. -/
def PlaneRow.lines (r : PlaneRow) (x0 n : Nat) : List (Nat × Nat × Nat) :=
  let a := r.start + x0 * r.size
  if n = 0 then []
  else (List.range ((a + n - 1) / 64 + 1 - a / 64)).map (fun i =>
    let l := a / 64 + i
    (l, (64 * l - r.start) / r.size * r.sc, (64 * l + 63 - r.start) / r.size * r.sc + (r.sc - 1)))

/-- Writes bytes of a row from sample x0 on. Every 64-byte line written carries a mark exactly when a column that it holds is flagged (R138). -/
def State.putRow (r : PlaneRow) (x0 : Nat) (bytes : List Byte) (bad : Nat → Nat → Bool) (s : State) : State :=
  (r.lines x0 bytes.length).foldl (fun t q => t.setMark q.1 (bad q.2.1 q.2.2)) (s.writeMem (r.start + x0 * r.size) bytes)

/-- Marks the lines of a row's samples x0 to x1 that hold a column flagged since they were written (R138). -/
def State.markRow (r : PlaneRow) (x0 x1 : Nat) (bad : Nat → Nat → Bool) (s : State) : State :=
  (r.lines x0 ((x1 - x0) * r.size)).foldl (fun t q => if bad q.2.1 q.2.2 then t.setMark q.1 true else t) s

/-- The accesses with which a unit writes the columns of a stripe of a row. -/
def PlaneRow.access (r : PlaneRow) (s : State) (src : FabSrc) (role : FabRole) (cam x0 x1 : Nat) : FabReq :=
  let c := r.cols x0 x1
  s.access src role cam (r.start + c.1 * r.size) ((c.2 - c.1) * r.size) true

/-- Whether a flagged tile lies in the columns c0 to c1 of a line. -/
def CamFrame.badIn (f : CamFrame) (y c0 c1 : Nat) : Bool := f.badTiles.any (fun t => t.ty == y / 64 && c0 / 64 ≤ t.tx && t.tx ≤ c1 / 64)

/-- The tiles of a frame that are flagged for some output, each once (R138, R161). -/
def CamFrame.flagged (f : CamFrame) (w : Nat) : List (Nat × Nat) :=
  (f.badTiles.map (fun t => (t.tx, t.ty)) ++ f.lost.flatMap (fun q => (List.range (ceilDiv w 64)).map (fun tx => (tx, q.2)))).eraseDups

/-! ## Taps (R134, R135) -/

/-- Planes of a tap. -/
def tapPlanes (p : List Byte) (point : Nat) : Nat := match point with | 0 => pfNexp p | 4 => (pfChannels p).length | _ => 1
/-- Bytes of a tap line before rounding (Table 04-18). -/
def tapLine (p : List Byte) (format : Nat) : Nat := match format with | 0 => pfLineBytes p | 2 => 4 * pfW p | _ => 2 * pfW p
/-- STRIDE of a tap. -/
def tapStride (p : List Byte) (format : Nat) : Nat := roundUp (tapLine p format) 64
/-- The slot size of a tap (R135). -/
def tapSlotSize (p : List Byte) (point format : Nat) : Nat := 64 + tapPlanes p point * pfH p * tapStride p format

/-- A sample of a tap at T1 to T4 in L24. -/
def Env.tapAt (v : Env) (point plane x y : Nat) : Int :=
  let v := v.around x y
  match point with
  | 1 => (v.merge x y).1
  | 2 => v.temporal x y
  | 3 => (v.balanced x y).1
  | _ => v.plane (((pfChannels v.p)[plane]?).getD 1) x y

/-- Whether every table, look and curve that a frame uses stands as it was loaded (R113, R114). -/
def Env.intact (v : Env) : Bool :=
  [1, 2, 3, 4, 5].all (fun k => v.tableIntact crc32c k)
    && (match v.lookFile with | some t => crc32c (t.drop 0x40) == f32 t 0x20 | none => true)
    && (List.range 4).all (fun i => match vget v.f.set.curves none i with
        | some l => let t := v.mem.read l.addr l.len; crc32c (t.drop 16) == f32 t 4
        | none => true)

/-- Sample bytes of a frame; with a table changed in place they are free values (R114). -/
def Env.sample (v : Env) (ok : Bool) (key : List Nat) (bs : List Byte) : List Byte :=
  if ok then bs else bs.zipIdx.map (fun b => BitVec.ofInt 8 (Config.freePixel (v.key 0x40 0 0 0 ++ key ++ [b.2])))

/-- The address of the slot of a tap that a frame writes. -/
def Env.tapSlot (v : Env) (i : Nat) : Option (TapCfg × Nat) :=
  match vget v.f.set.taps none i, vget v.f.tapSlots none i with
  | some c, some n => some (c, c.base + n * c.slotSize)
  | _, _ => none

/-- Bytes of a sample of a tap; the bytes of T0 PACKED are copied one by one. -/
def tapSample (format : Nat) : Nat := match format with | 0 => 1 | 2 => 4 | _ => 2

/-- The rows of a tap that a frame writes for its lines. -/
def Env.tapRows (v : Env) (rows : List Nat) (i : Nat) : List PlaneRow :=
  match v.tapSlot i with
  | none => []
  | some (c, slot) =>
    let st := tapStride v.p c.format
    (List.range (tapPlanes v.p c.point)).flatMap (fun pl => rows.map (fun y =>
      { plane := pl, y := y, luma := y, start := slot + 64 + pl * (pfH v.p * st) + y * st, size := tapSample c.format, sc := 1 }))

/-- The samples of a tap's rows that a stripe writes: bytes for T0 PACKED. -/
def tapCols (p : List Byte) (format x0 x1 : Nat) : Nat × Nat :=
  if format = 0 then
    let bits := match pfPack p with | 0 => pfDepth p | 1 => 16 | _ => 32
    (x0 * bits / 8, if x1 = pfW p then pfLineBytes p else x1 * bits / 8)
  else (x0, x1)

/-- A stripe of the pass over band k writes its lines of a tap. -/
def State.writeTap (v : Env) (ok : Bool) (rows : List Nat) (x0 x1 i : Nat) (s : State) : State :=
  match v.tapSlot i with
  | none => s
  | some (c, _) =>
    let cs := tapCols v.p c.format x0 x1
    (v.tapRows rows i).foldl (fun (t : State) (r : PlaneRow) =>
      match c.format with
      | 0 =>
        let src := v.c.lineAddr v.f.slot r.plane r.y
        t.putRow r cs.1 (v.mem.read (src + cs.1) (cs.2 - cs.1)) (fun c0 _ => v.mem.marked (src + c0))
      | 1 => t.putRow r x0 (((List.range (x1 - x0)).flatMap (fun d => leBytes 2 (v.rawCode r.plane (x0 + d) r.y))))
          (fun c0 c1 => v.lineMarked r.plane r.y c0 (Nat.min (pfW v.p) (c1 + 1)))
      | fm =>
        let one (d : Nat) : List Byte :=
          let q := v.tapAt c.point r.plane (x0 + d) r.y
          v.sample ok [1, i, r.plane, x0 + d, r.y] (if fm = 2 then leBytes 4 (wrapInt 32 q) else leBytes 2 (toF16 (ofL24 q)))
        t.putRow r x0 ((List.range (x1 - x0)).flatMap one) (v.f.badIn r.y)) s

/-! ## Outputs (R155) -/

/-- The address of the slot of an output that a frame writes. -/
def Env.outSlot (v : Env) (i : Nat) : Option (OutCfg × Nat) :=
  match vget v.f.set.outs none i, vget v.f.outSlots none i with
  | some c, some n => some (c, c.base + n * c.slotSize)
  | _, _ => none

/-- Whether a band whose look is skipped leaves an output unencoded: its tiles are flagged and its lines carry marks (R161). -/
def Env.outLost (v : Env) (i : Nat) : Bool := match v.outSlot i with
  | some (c, _) => i != 3 && v.f.lookOff && obLook c.blk && obTransfer c.blk == 6
  | none => false

/-- Whether an output's columns c0 to c1 of a line lie in a flagged tile. -/
def CamFrame.outBad (f : CamFrame) (i y c0 c1 : Nat) : Bool := f.lost.contains (i, y / 64) || f.badIn y c0 c1

/-- The rows of an output that a frame writes for its lines. Subsampled planes take the lines and columns whose first luma site lies there. -/
def Env.outRows (v : Env) (rows : List Nat) (i : Nat) : List PlaneRow :=
  match v.outSlot i with
  | none => []
  | some (c, slot) =>
    let qs := ringPlanes v.p i c.blk
    qs.zipIdx.flatMap (fun q =>
      let sr := if q.1.2.1 < pfH v.p then 2 else 1
      (rows.filter (fun y => y % sr == 0)).map (fun y =>
        { plane := q.2, y := y / sr, luma := y, start := slot + planeOffset qs q.2 + y / sr * planeStride q.1, size := q.1.2.2,
          sc := if q.1.1 < pfW v.p then 2 else 1 }))

/-- A stripe of the pass over band k writes its lines of an output. -/
def State.writeOut (v : Env) (ok : Bool) (rows : List Nat) (x0 x1 i : Nat) (s : State) : State :=
  match v.outSlot i with
  | none => s
  | some (c, _) =>
    let lost := v.outLost i
    (v.outRows rows i).foldl (fun (t : State) (r : PlaneRow) =>
      let cs := r.cols x0 x1
      let one (d : Nat) : List Byte :=
        let bs := if i = 3 then v.indexSample c.blk r.plane (cs.1 + d) r.y else v.outSample i c.blk r.plane (cs.1 + d) r.y
        v.sample ok [2, i, r.plane, cs.1 + d, r.y] bs
      t.putRow r cs.1 ((List.range (cs.2 - cs.1)).flatMap one) (fun c0 c1 => lost || v.f.outBad i r.luma c0 c1)) s

/-- The rows of the temporal reference that a frame writes for its lines (R127). -/
def Env.refRows (v : Env) (rows : List Nat) : List PlaneRow :=
  if v.on 5 && v.noiseOk then
    rows.map (fun y => { plane := 0, y := y, luma := y, start := v.refAddr v.f.tnrWrite 0 y, size := 2, sc := 1 })
  else []

/-- A stripe writes its lines of the temporal reference, in F16 (R127, R130). -/
def State.writeRef (v : Env) (ok : Bool) (rows : List Nat) (x0 x1 : Nat) (s : State) : State :=
  (v.refRows rows).foldl (fun (t : State) (r : PlaneRow) =>
    t.putRow r x0 ((List.range (x1 - x0)).flatMap (fun d =>
        v.sample ok [3, 0, 0, x0 + d, r.y] (leBytes 2 (toF16 (ofL24 ((v.around (x0 + d) r.y).temporal (x0 + d : Nat) r.y))))))
      (v.f.badIn r.y)) s

/-- Tiles of the row above band k that its pass has flagged: their lines that the pass before wrote get their marks, in the columns of a stripe, in outputs,
taps T1 to T4 and the temporal reference (R138). -/
def State.markBefore (v : Env) (k x0 x1 : Nat) (s : State) : State :=
  if v.f.badTiles.any (fun t => t.ty + 1 == k && t.band == k) then
    let rows := (List.range 48).map (64 * (k - 1) + ·)
    let t := (List.range 2).foldl (fun (t : State) (i : Nat) => match v.tapSlot i with
      | some (c, _) => if c.point = 0 then t else (v.tapRows rows i).foldl (fun t r => t.markRow r x0 x1 (v.f.badIn r.y)) t
      | none => t) s
    let t := (List.range 4).foldl (fun (t : State) (i : Nat) =>
      (v.outRows rows i).foldl (fun t r => t.markRow r (r.cols x0 x1).1 (r.cols x0 x1).2 (v.f.badIn r.luma)) t) t
    (v.refRows rows).foldl (fun t r => t.markRow r x0 x1 (v.f.badIn r.y)) t
  else s

/-! ## Dispatch -/

/-- Whether a head takes an output of a camera on the live path. -/
def State.outLive (s : State) (cam i : Nat) : Bool :=
  s.disp.layers.any (fun l => l.live && l.binds.any (fun b => b.kind == 2 && b.handle == (s.cam cam).handle && b.index == i))

/-- The accesses of a stripe: the lines of the band and of its support in the ingest queue, the lines of the temporal reference, and the lines of taps,
outputs and reference that it writes (R15, R155). The reference lines stand for those that the vectors reach (DESIGN CHOICE, log 20). -/
def State.stripeTraffic (s : State) (role : Nat) (q : SliceJob) : List FabReq :=
  let c := s.cam q.cam
  match c.frame q.fn with
  | none => []
  | some f =>
    let p := c.profile
    let v := s.env q.cam f
    let cols := stripeCols (pfW p) c.span q.stripe
    let ls := bandLines (pfH p) (pfBands p) q.band
    let rows := (List.range (ls.2 - ls.1)).map (ls.1 + ·)
    let near := ((List.range (ls.2 - ls.1 + 32)).filterMap (fun i => if 16 ≤ ls.1 + i then some (ls.1 + i - 16) else none)).filter (· < pfH p)
    let rd (a n : Nat) : FabReq := s.access .slice (.slice role) q.cam a n false
    let wr (src : FabSrc) (r : PlaneRow) : FabReq := r.access s src (.slice role) q.cam cols.1 cols.2
    let b := tapCols p 0 (cols.1 - 16) (Nat.min (pfW p) (cols.2 + 16))
    let reads := near.flatMap (fun y => (List.range (pfNexp p)).map (fun e => rd (c.lineAddr f.slot e y + b.1) (b.2 - b.1)))
    let refs := if v.on 5 && v.noiseOk && !f.tnrReset then
        rows.map (fun y => rd (v.refAddr (1 - f.tnrWrite) cols.1 y) (2 * (cols.2 - cols.1))) else []
    let taps := (List.range 2).flatMap (fun i => match v.tapSlot i with
      | some (k, _) =>
        let cs := tapCols p k.format cols.1 cols.2
        (v.tapRows rows i).map (fun r => r.access s .slice (.slice role) q.cam cs.1 cs.2)
      | none => [])
    let outs := (List.range 4).flatMap (fun i => (v.outRows rows i).map (wr (if s.outLive q.cam i then .livePath else .slice)))
    (reads ++ refs ++ taps ++ outs ++ (v.refRows rows).map (wr .slice)).map (fun r => { r with due := some f.deadline })

/-- SLICE_DISPATCH (R98, R99, R101): a role in service that holds no stripe takes the first eligible one; a stripe that a role without
a unit still names is taken over from it. -/
def execSliceDispatch (role : Fin 16) (s : State) : Host.Outcome State Fault Refusal :=
  if (s.mgmt.units.unitOf .sliceU role.val).isNone || (s.cams.slices[role]).isSome then .next s
  else
    match minBy (fun x => x.1) s.eligibles with
    | none => .next s
    | some x =>
      let q : SliceJob := { x.2 with epoch := s.mgmt.units.epochOf .sliceU role.val }
      let is (w : Option SliceJob) : Bool := (w.map q.same).getD false
      let lost := s.cams.slices.toList.any is
      let others := vmapIdx s.cams.slices (fun _ z => if is z then none else z)
      let t := s.mapCams (fun y => { y with slices := others.set role (some q) })
      let t := if lost then t.flagFrame q.cam q.fn 7 else t
      .next (t.requests (t.stripeTraffic role.val q))

/-- SLICE_WATCHDOG (R101, R408): a slice has held a stripe without output for SLICE_WD; its role is declared dead and the stripe is
processed again: by its new unit, where it has one. -/
def execSliceWatchdog (role : Fin 16) (s : State) : Host.Outcome State Fault Refusal :=
  match s.cams.slices[role] with
  | none => .next s
  | some q =>
    if (s.mgmt.units.unitOf .sliceU role.val).isNone then .next s
    else
      let t := (s.declareDead .sliceU role.val Status.hardwareFault.code).flagFrame q.cam q.fn 7
      .next (if (t.mgmt.units.unitOf .sliceU role.val).isNone then t else t.requests (t.stripeTraffic role.val q))

/-! ## Statistics (R174, R175) -/

/-- The window of a statistics block: X0, Y0, W, H. -/
def statWindow (p b : List Byte) : Nat × Nat × Nat × Nat :=
  (if f16 b 8 = 0 then 0 else f16 b 4, if f16 b 0xA = 0 then 0 else f16 b 6,
   if f16 b 8 = 0 then pfW p else f16 b 8, if f16 b 0xA = 0 then pfH p else f16 b 0xA)

/-- The zone of a distance from the window's origin: the largest i with ⌊i × W / NZ⌋ at or before it. -/
def zoneOf (d w nz : Nat) : Nat := ((d + 1) * nz - 1) / w

/-- Statistics with nothing measured, of a number of zones. -/
def StatAcc.zero (zones : Nat) : StatAcc :=
  { hist := List.replicate 1024 0, count := Vector.replicate 4 0,
    zones := List.replicate zones { sum := Vector.replicate 4 0, num := Vector.replicate 4 0, clip := Vector.replicate 4 0, hi := 0, lo := 0 } }

/-- The value of a site at the point of the statistics, in L24. -/
def Env.statValue (v : Env) (b : List Byte) (x y : Int) : Int := if f8 b 0 % 4 = 1 then (v.balanced x y).1 else (v.merge x y).1

/-- The histogram bin of a value; with LIN_MAX 0 the quotient of a linear bin has no value, and it is free. -/
def histBin (b : List Byte) (key : List Nat) (q : Int) : Nat :=
  if bitOf (f8 b 0) 2 then
    if f16 b 0x10 = 0 then (clampInt 0 255 (Config.freePixel key)).toNat
    else (clampInt 0 255 ((256 * ofL24 q / ((f16 b 0x10 : Rat) / 256)).floor)).toNat
  else if ofL24 q ≤ pow2 (-24) then 0
  else (clampInt 0 255 (floorLog2K 8 (ofL24 q) + 192)).toNat

/-- The nearest site of the same channel along a row or column, and the site at twice the distance, in a direction. -/
def Env.stat2 (v : Env) (b : List Byte) (x y : Nat) (dx dy : Int) : Int × Int :=
  let d : Nat := (([1, 2, 3, 4]).find? (fun (n : Nat) => v.ch (x + dx * n) (y + dy * n) == v.ch x y)).getD 4
  (v.statValue b (x + dx * d) (y + dy * d), v.statValue b (x + dx * (2 * d)) (y + dy * (2 * d)))

/-- The contributions of a guide site to SHARP_HI and SHARP_LO in L24. -/
def Env.sharp (v : Env) (b : List Byte) (x y : Nat) : Nat × Nat :=
  let own := v.statValue b x y
  let w := v.stat2 b x y (-1) 0
  let e := v.stat2 b x y 1 0
  let n := v.stat2 b x y 0 (-1)
  let z := v.stat2 b x y 0 1
  let h1 := (2 * own - w.1 - e.1).natAbs + (2 * own - n.1 - z.1).natAbs
  let h2 := (2 * own - w.2 - e.2).natAbs + (2 * own - n.2 - z.2).natAbs
  let lim := ((f16 b 0xE : Rat) / 4096) ^ 2 * v.pixel2 x y
  let part (h : Nat) : Nat := if lim < (ofL24 h) ^ 2 then Nat.min h 32768 else 0
  (part h1, part h2)

/-- Whether a site counts as clipped. -/
def Env.clipped (v : Env) (b : List Byte) (x y : Nat) : Bool :=
  if pfNexp v.p = 1 || !v.on 3 then (f16 b 0xC : Rat) / 32768 ≤ ofL24 (v.statValue b x y) else (v.merge x y).2.2.1

/-- What the statistics take of a site, none outside the window. A site counts under its own channel (R175); in a monochrome context every site is a guide
site. -/
def Env.site (v : Env) (b : List Byte) (x y : Nat) : Option StatSite :=
  let w := statWindow v.p b
  if x < w.1 || w.1 + w.2.2.1 ≤ x || y < w.2.1 || w.2.1 + w.2.2.2 ≤ y then none
  else
    let v := v.around x y
    let ch := v.ch x y
    let q := v.statValue b x y
    let sh := if bitOf (f8 b 0) 3 && (pfMono v.p || ch == v.guide) then v.sharp b x y else (0, 0)
    some { tile := (x / 64, y / 64), ch := ch, bin := histBin b (v.key 0x51 ch x y) q,
           zone := zoneOf (y - w.2.1) w.2.2.2 (f8 b 3) * f8 b 2 + zoneOf (x - w.1) w.2.2.1 (f8 b 2),
           v := q, clip := v.clipped b x y, hi := sh.1, lo := sh.2 }

/-- One site enters the statistics. -/
def StatAcc.add (a : StatAcc) (q : StatSite) : StatAcc :=
  let up (r : ZoneAcc) : ZoneAcc :=
    { sum := vmod r.sum q.ch (· + q.v), num := vmod r.num q.ch (· + 1), clip := if q.clip then vmod r.clip q.ch (· + 1) else r.clip,
      hi := r.hi + q.hi, lo := r.lo + q.lo }
  let bin := 256 * q.ch + q.bin
  { hist := a.hist.set bin ((a.hist[bin]?).getD 0 + 1), zones := a.zones.zipIdx.map (fun r => if r.2 = q.zone then up r.1 else r.1),
    count := vmod a.count q.ch (· + 1) }

/-- The statistics of a frame: its sites outside flagged tiles (R138, R175). -/
def CamFrame.measured (f : CamFrame) (b : List Byte) : StatAcc :=
  (f.stats.filter (fun q => !f.badTiles.any (fun t => (t.tx, t.ty) == q.tile))).foldl StatAcc.add (StatAcc.zero (f8 b 2 * f8 b 3))

/-- Bytes of a statistics slot (Table 06-7). -/
def statSlotSize (b : List Byte) : Nat := roundUp (4416 + 32 * f8 b 2 * f8 b 3) 64

/-- The largest value of a u32. -/
def sat32 (n : Nat) : Nat := Nat.min (2 ^ 32 - 1) n

/-- A zone entry (Table 06-9). The rounding of the sharpness sums is left open (log 25). -/
def ZoneAcc.bytes (r : ZoneAcc) (key : List Nat) : List Byte :=
  let avg (i : Nat) : Nat := let n := vget r.num 0 i; if n = 0 then 0 else toF16 (ofL24 (vget r.sum 0 i) / (n : Nat))
  let sharp (w n : Nat) : Nat := sat32 (within 1 (key ++ [w]) (roundRat ((n : Rat) / 128))).toNat
  layout 32 ((List.range 4).map (fun i => (2 * i, 2, avg i)) ++ (List.range 4).map (fun i => (8 + 4 * i, 4, sat32 (vget r.clip 0 i)))
    ++ [(0x18, 4, sharp 0 r.hi), (0x1C, 4, sharp 1 r.lo)])

/-- Tiles of the window that are flagged. -/
def CamFrame.excluded (f : CamFrame) (w : Nat × Nat × Nat × Nat) : Nat :=
  ((f.badTiles.map (fun t => (t.tx, t.ty))).eraseDups.filter (fun t =>
    64 * t.1 < w.1 + w.2.2.1 && w.1 < 64 * t.1 + 64 && 64 * t.2 < w.2.1 + w.2.2.2 && w.2.1 < 64 * t.2 + 64)).length

/-- The statistics of a frame after its record: header, histogram and zones (Tables 06-7, 06-8). -/
def CamFrame.statBytes (f : CamFrame) (p b : List Byte) : List Byte :=
  let w := statWindow p b
  let ex := f.excluded w
  let a := f.measured b
  layout 64 [(0x00, 1, f.rcd.cam), (0x01, 1, f8 b 0 % 16), (0x02, 1, f8 b 2), (0x03, 1, f8 b 3), (0x04, 4, f.fn), (0x08, 2, f.rcd.run),
    (0x0A, 2, bit01 (ex != 0)), (0x0C, 4, ex), (0x10, 4, sat32 (vget a.count 0 0)), (0x14, 4, sat32 (vget a.count 0 1)),
    (0x18, 4, sat32 (vget a.count 0 2)), (0x1C, 4, sat32 (vget a.count 0 3)), (0x20, 2, w.1), (0x22, 2, w.2.1),
    (0x24, 2, w.2.2.1), (0x26, 2, w.2.2.2)]
  ++ a.hist.flatMap (fun n => leBytes 4 (sat32 n))
  ++ a.zones.zipIdx.flatMap (fun z => z.1.bytes [0x50, f.rcd.cam, f.rcd.run, f.fn, z.2])

/-! ## The end of a frame -/

/-- The header of a tap slot (Table 04-19). -/
def tapHeader (p : List Byte) (f : CamFrame) (c : TapCfg) (poison : Bool) : List Byte :=
  let st := tapStride p c.format
  layout 64 [(0x00, 1, f.rcd.cam), (0x01, 1, c.point), (0x02, 1, c.format), (0x03, 1, tapPlanes p c.point), (0x04, 2, f.rcd.run),
    (0x08, 4, f.fn), (0x0C, 2, pfW p), (0x0E, 2, pfH p), (0x10, 4, st), (0x14, 4, pfH p * st), (0x18, 8, pfCfa p),
    (0x20, 4, bit01 poison + 2 * bit01 (f.rcd.has 7) + 4 * bit01 (f.rcd.has 2))]

/-- The header of an output slot (Table 05-15). -/
def outHeader (p : List Byte) (f : CamFrame) (i : Nat) (c : OutCfg) (poison : Bool) : List Byte :=
  let qs := ringPlanes p i c.blk
  layout 64 ([(0x00, 1, f.rcd.cam), (0x01, 1, i), (0x02, 1, f8 c.blk 0 % (if i = 3 then 16 else 64)), (0x03, 1, qs.length), (0x04, 2, f.rcd.run),
    (0x06, 2, bit01 poison + 2 * bit01 (f.rcd.has 7) + 4 * bit01 (f.rcd.has 2) + 8 * bit01 f.lookOff),
    (0x08, 4, f.fn), (0x0C, 2, pfW p), (0x0E, 2, pfH p),
    (0x30, 1, if i = 3 then 0 else f8 c.blk 1 % 32), (0x31, 1, if i = 3 then 0 else f8 c.blk 2 % 64)]
    ++ qs.zipIdx.flatMap (fun q => [(0x10 + 4 * q.2, 4, planeStride q.1), (0x20 + 4 * q.2, 4, planeOffset qs q.2)]))

/-- The statistics of a frame take the next slot of the ring that they were configured for, complete at once, and held by the host with HOST_READ (R174).
The second component is the slot's number, none where it is still held. -/
def CamCtx.takeStat (c : CamCtx) (q : StatCfg) (fn : Nat) : CamCtx × Option Nat :=
  let own := c.statRing.id == q.id
  match (if own then some c.statRing else c.statOld.find? (fun r => r.id == q.id)) with
  | none => (c, none)
  | some r =>
    let x := r.take fn c.run (if q.hostRead then [0] else [])
    match x.2 with
    | none => (c, none)
    | some n =>
      let done := x.1.complete n
      (if own then { c with statRing := done } else { c with statOld := updWhere (fun z => z.id == q.id) (fun _ => done) c.statOld }, some n)

/-- Closes a frame whose last output band is written (R21, R100, R163, R174): statistics, the CLOSED record, headers, rings, counters and
events. A frame whose field is not complete yet stays known to the motion engine (R189). -/
def State.closeFrame (cam fn : Nat) (s : State) : State :=
  let c := s.cam cam
  match c.frame fn with
  | none => s
  | some f =>
    let p := c.profile
    let v := s.env cam f
    let late := Nat.blt f.deadline s.ns
    let took : CamCtx × Option Nat := match f.set.stats with | some q => c.takeStat q fn | none => (c, none)
    let stat := match f.set.stats, took.2 with
      | some q, some n => some (q, n, q.base + n * q.slotSize)
      | _, _ => none
    let skipped := f.set.stats.isSome && stat.isNone
    let r := { f.rcd with closed := true, poisonTiles := (f.flagged (pfW p)).length }
    let r := if late then r.flag 1 else r
    let r := if skipped then r.flag 16 else r
    let r := match stat with
      | some (_, n, a) => { r with statSlot := n, statAddr := a }
      | none => r
    let g := { f with rcd := r }
    let t := match stat with
      | some (q, _, a) => (s.writeMem a (r.bytes ++ g.statBytes p q.blk)).writes .statistics .ostler cam a q.slotSize
      | none => s
    let t := t.putRecord r
    let t := (List.range 2).foldl (fun (t : State) (i : Nat) => match v.tapSlot i with
      | some (q, a) => t.writeMem a (tapHeader p g q (vget f.tapPoison false i))
      | none => t) t
    let t := (List.range 4).foldl (fun (t : State) (i : Nat) => match v.outSlot i with
      | some (q, a) => t.writeMem a (outHeader p g i q (vget f.outPoison false i))
      | none => t) t
    let done (ring : Ring) (slot : Option Nat) (id : Option Nat) : Ring :=
      match slot with
      | some n => if some ring.id = id then ring.complete n else ring
      | none => ring
    let left := c.frames.filter (fun x => x.fn != fn)
    let t := t.mapCam cam (fun c => { c with
      frames := left, lastDone := some fn,
      trail := if f.fields < pfBands p then c.trail ++ [g] else c.trail,
      taps := vmapIdx c.taps (fun i q => done q (vget f.tapSlots none i) ((vget f.set.taps none i).map TapCfg.id)),
      outs := vmapIdx c.outs (fun i q => done q (vget f.outSlots none i) ((vget f.set.outs none i).map OutCfg.id)),
      statRing := took.1.statRing,
      statOld := took.1.statOld.filter (fun ring => left.any (fun x => x.set.stats.map StatCfg.id == some ring.id)),
      fieldRing := match f.fieldPlace with | some i => vmod c.fieldRing i (fun e => { e with tnr := false }) | none => c.fieldRing })
    let t := t.countCam cam (fun n => { n with
      frames := n.frames.satInc, late := if late then n.late.satInc else n.late, defects := BitVec.ofNat 32 (sat32 f.defects),
      ghosts := BitVec.ofNat 32 (sat32 f.ghosts), clips := BitVec.ofNat 32 (sat32 f.clips),
      statsSkipped := if skipped then n.statsSkipped.satInc else n.statsSkipped,
      ndviInvalid := BitVec.ofNat 32 (sat32 f.ndviBad), uncertain := if r.has 13 then n.uncertain.satInc else n.uncertain })
    let t := if c.frameDone && fn % Nat.max 1 c.doneEvery == 0 then
        (t.logEvent { source := 0x02, code := 0x0007, unit := c.handle, detail := [fn % 2 ^ 32, r.run] }).post .frameDone c.handle
      else t
    let t := t.frameClosed cam f r
    let t := match stat with
      | some _ => t.statsClosed cam f r
      | none => t
    ((t.endPlan cam).stopIfDone cam).jmSettle

/-! ## STRIPE_DONE -/

/-- The band-level bypasses of a pass (R139, R161): the static tables of the set, and the curves that an output of the frame reads, that carry a mark. -/
def Env.bandBypass (v : Env) (rows : List Nat) : List Nat :=
  let whole (k : Nat) : Bool := match vget v.f.set.tables none k with
    | some t => (v.mem.poisonIn t.addr t.len).isSome
    | none => false
  let stride := roundUp (pfW v.p) 64
  let lo := (rows.head?).getD 0
  let near := ((List.range (rows.length + 32)).map (fun i => lo + i - 16)).filter (· < pfH v.p)
  let flat : Bool := near.any (fun y => v.tablePoison 3 (32 + y * stride) (pfW v.p)) || v.tablePoison 3 0 32
  let reads (i : Nat) : Bool := match v.outSlot i with
    | some (c, _) => if i = 3 then bitsOf (f8 c.blk 0) 3 2 == 1 || bitsOf (f8 c.blk 0) 3 2 == 2 else obTransfer c.blk == 5
    | none => false
  let curve (i : Nat) : Bool := reads i && (match vget v.f.set.curves none i with
    | some l => (v.mem.poisonIn l.addr l.len).isSome
    | none => false)
  (if v.on 2 && bitOf (f16 (v.blk 2) 0) 0 && whole 1 then [1] else [])
    ++ (if v.on 6 && bitOf (f8 (v.blk 6) 0) 0 && whole 2 then [2] else [])
    ++ (if v.on 6 && bitOf (f8 (v.blk 6) 0) 1 && flat then [3] else [])
    ++ (((List.range 4).filter curve).map (0x10 + ·))

/-- Whether the look of a set carries a mark, and an output of the frame reads it. -/
def Env.lookMarked (v : Env) : Bool := match v.f.set.look with
  | some l => (v.mem.poisonIn l.addr l.len).isSome && (List.range 3).any (fun i => ((v.outSlot i).map (fun c => obLook c.1.blk)).getD false)
  | none => false

/-- What a stripe adds to the frame's figures: dynamic defects, ghosts, clamped samples of output 0, invalid NDVI pixels. -/
def Env.figures (v : Env) (rows : List Nat) (x0 x1 : Nat) : Nat × Nat × Nat × Nat :=
  let sites := rows.flatMap (fun y => (List.range (x1 - x0)).map (fun d => (x0 + d, y)))
  let per (g : Nat → Nat → Nat) : Nat := sumNat (sites.map (fun q => g q.1 q.2))
  let clamp : Nat := match v.outSlot 0 with
    | some (c, _) => per (fun x y => sumNat ((List.range 3).map (fun k => bit01 (v.primed false 0 c.blk x y k).2)))
    | none => 0
  (per (fun x y => sumNat ((List.range (pfNexp v.p)).map (fun e => bit01 ((v.around x y).defect e x y).2))),
   per (fun x y => bit01 ((v.around x y).merge x y).2.2.2), clamp,
   if (v.outSlot 3).isSome then per (fun x y => bit01 (v.index false 0 x y).isNone) else 0)

/-- Whether temporal noise reduction of the pass over a band ran degraded: its field missing, or a reference line marked (R129, R130). -/
def Env.nrDegraded (v : Env) (rows : List Nat) (x0 x1 : Nat) : Bool :=
  v.on 5 && v.noiseOk && rows.any (fun y => (List.range ((x1 - x0 + 15) / 16)).any (fun i =>
    let x := x0 + 16 * i
    (v.vector x y).2.2.2 || (!v.f.tnrReset && v.refMarked x y)))

/-- STRIPE_DONE (R107, R108, R138, R139, R155, R161): a slice finishes its stripe. Lines, taps, the temporal reference and statistics
are written; errors are the SRAM errors met, and poisoned the tiles that an uncorrectable one flags (R333). -/
def State.finishStripe (q : SliceJob) (poisoned : List (Nat × Nat)) (s : State) : State :=
  let c := s.cam q.cam
  match c.frame q.fn with
  | none => s
  | some f =>
    let p := c.profile
    let bands := pfBands p
    let cols := stripeCols (pfW p) c.span q.stripe
    let ls := bandLines (pfH p) bands q.band
    let rows := (List.range (ls.2 - ls.1)).map (ls.1 + ·)
    let v0 := s.env q.cam f
    let tiles := ((List.range ((ls.2 + 63) / 64 - ls.1 / 64)).map (ls.1 / 64 + ·)).flatMap (fun ty =>
      (List.range (ceilDiv (pfW p) 64)).map (fun tx => (tx, ty)))
    let seen (t : Nat × Nat) : Bool := f.badTiles.any (fun b => b.tx == t.1 && b.ty == t.2 && b.band ≤ q.band)
    let new := tiles.filter (fun t => !seen t && (v0.tileBad q.band t.1 t.2 || poisoned.contains t))
    let first := f.stripes.all (fun x => x.1 != q.band)
    let bypass := v0.bandBypass rows
    let lookOff := v0.lookMarked
    let curveOff := bypass.any (fun n => 0x10 ≤ n)
    let tableOff := bypass.any (fun n => n < 0x10)
    let bad := f.badTiles ++ new.map (fun t => ({ tx := t.1, ty := t.2, band := q.band } : BadTile))
    let v1 : Env := { v0 with f := { f with badTiles := bad.filter (fun b => b.band ≤ q.band), bypassed := f.bypassed ++ bypass, lookOff := lookOff } }
    let lost := f.lost ++ (((List.range 4).filter v1.outLost).map (fun i => (i, q.band))).filter (fun x => !f.lost.contains x)
    let v : Env := { v1 with f := { v1.f with lost := lost } }
    let ok := v.intact
    let t := s.markBefore v q.band cols.1 cols.2
    let t := (List.range 2).foldl (fun t i => t.writeTap v ok rows cols.1 cols.2 i) t
    let t := (List.range 4).foldl (fun t i => t.writeOut v ok rows cols.1 cols.2 i) t
    let t := t.writeRef v ok rows cols.1 cols.2
    let fig := v.figures rows cols.1 cols.2
    let sites : List StatSite := match f.set.stats with
      | some b => rows.flatMap (fun y => (List.range (cols.2 - cols.1)).filterMap (fun d => v.site b.blk (cols.1 + d) y))
      | none => []
    let above := v.f.badTiles.any (fun b => b.ty + 1 == q.band && b.band == q.band && cols.1 / 64 ≤ b.tx && b.tx < ceilDiv cols.2 64)
    let hit := above || rows.any (fun y => v.f.badIn y cols.1 (cols.2 - 1))
    let tapHit (i : Nat) : Bool := match vget f.set.taps none i with
      | some k => if k.point = 0 then rows.any (fun y => (List.range (pfNexp p)).any (fun e => v.lineMarked e y cols.1 cols.2)) else hit
      | none => false
    let outHit (i : Nat) : Bool := hit || v.outLost i || rows.any (fun y => lost.contains (i, y / 64))
    let after : CamFrame := { f with badTiles := bad, lost := lost }
    let n := (after.flagged (pfW p)).length - (f.flagged (pfW p)).length
    let t := t.mapFrame q.cam q.fn (fun x => { x with
      stripes := x.stripes ++ [(q.band, q.stripe)],
      bandTimes := if (List.range c.span).all (fun j => j == q.stripe || x.stripes.contains (q.band, j)) then x.bandTimes ++ [(q.band, s.ns)] else x.bandTimes,
      badTiles := bad, lost := lost, defects := x.defects + fig.1, ghosts := x.ghosts + fig.2.1,
      clips := x.clips + fig.2.2.1, ndviBad := x.ndviBad + fig.2.2.2, stats := x.stats ++ sites, lookOff := x.lookOff || lookOff || curveOff,
      tapPoison := vmapIdx x.tapPoison (fun i b => b || tapHit i), outPoison := vmapIdx x.outPoison (fun i b => b || outHit i) })
    let t := t.countCam q.cam (fun k => { k with
      poisonTiles := BitVec.ofNat 32 (sat32 (k.poisonTiles.toNat + n)),
      bypass := if tableOff && first then k.bypass.satInc else k.bypass,
      lookBypass := if (lookOff || curveOff) && first then k.lookBypass.satInc else k.lookBypass })
    let t := if n = 0 then t else t.mapRecord q.cam q.fn (fun r => { r.flag 9 with poisonTiles := (after.flagged (pfW p)).length })
    let t := if bypass.isEmpty && !lookOff then t else t.flagFrame q.cam q.fn 10
    let t := if v.nrDegraded rows cols.1 cols.2 then t.flagFrame q.cam q.fn 8 else t
    let t := t.stripeWritten q.cam q.fn
    match (t.cam q.cam).frame q.fn with
    | some g => if (t.cam q.cam).frameDoneAll g then t.closeFrame q.cam q.fn else t
    | none => t

/-- STRIPE_DONE (R101, R107): the role's unit finishes the stripe that the role holds; a unit that has taken over a dead one's stripe
marks the frame REPROCESSED. -/
def execStripeDone (role : Fin 16) (errors : List SramError) (poisoned : List (Nat × Nat)) (s : State) : Host.Outcome State Fault Refusal :=
  match s.cams.slices[role] with
  | none => .next s
  | some q =>
    if (s.mgmt.units.unitOf .sliceU role.val).isNone then .next s
    else
      let t := if q.epoch = s.mgmt.units.epochOf .sliceU role.val then s else s.flagFrame q.cam q.fn 7
      let t := (t.mapCams (fun x => { x with slices := x.slices.set role none })).settleTraffic (.slice role.val)
      .next ((t.finishStripe q poisoned).sramErrors errors)

end Sys2Proof.Machine
end

