-- ==== Sys2Proof/Machine/RawCmds.lean ====
section
/-!
DEFINITION. The commands of the raw pipeline and of statistics (chapters 04 and 06): RAW_SET_STAGE, RAW_LOAD_TABLE, RAW_TAP and
STAT_CONFIGURE; and what staging commands share.
-/
namespace Sys2Proof.Machine

/-! ## Staging (R110, R114) -/

/-- The FN that staged content takes effect at: the next start of frame of a RUNNING context, otherwise FN 0 of its next run (R110). -/
def CamCtx.stagedFn (c : CamCtx) : Nat := if c.state == .running then c.fnNext % 2 ^ 32 else 0

/-- A range that a command gives to a resource must not meet a pinned range of another resource (R114). -/
def needRing (s : State) (owner : Handle) (id a n : Nat) : Chk Unit :=
  match s.pinned.find? (fun p => !(p.owner == owner && p.id == id) && n != 0 && p.base < a + n && a < p.base + p.len) with
  | none => .ok ()
  | some p => .error (conflict p.owner p.id)

/-- The last FN that uses what a command replaces, 0xFFFF_FFFF for none: the last accepted frame where it was latched. -/
def CamCtx.lastUse (c : CamCtx) (old latched : Option Loaded) : Nat :=
  match old, c.lastFn with
  | some _, some n => if old == latched then n % 2 ^ 32 else 0xFFFFFFFF
  | _, _ => 0xFFFFFFFF

/-- The slots of a ring that hold FNs of the current run up to one. -/
def RingSlot.upTo (x : RingSlot) (run fn : Nat) : Bool := x.run == run && x.fn % 2 ^ 32 ≤ fn

/-- Slots in use. -/
def Ring.inUse (r : Ring) : Nat := (r.slots.filter RingSlot.used).length

/-! ## RAW_SET_STAGE -/

/-- Size of a stage's block (Table 04-5). -/
def stageSize : Nat → Nat
  | 0 => 16 | 1 => 208 | 2 => 16 | 3 => 32 | 4 => 32 | 5 => 16 | 6 => 8 | 7 => 8 | _ => 16

/-- The fields of a stage's block by rising offset (R112, R119, Tables 04-10 to 04-17). The upper limit 15.99 of T_HOT, T_COLD, STRENGTH and TNR_K is
read as the largest value of u4.12, so that 0xFFFF is accepted (DESIGN CHOICE, log 28). -/
def stageFields (p b : List Byte) (stage : Nat) : List (Nat × Bool) :=
  match stage with
  | 1 =>
    (List.range (pfNexp p)).flatMap (fun e => (List.range 16).map (fun i =>
      let o := 0x40 * e + 4 * i
      (o, f32 b o ≤ 0xFFFFFF && Nat.blt (f32 b o) (f32 b (0xC0 + 4 * e)))))
    ++ (List.range (pfNexp p)).map (fun e => (0xC0 + 4 * e, decide (f32 b (0xC0 + 4 * e) ≤ 0xFFFFFF)))
  | 2 => [(2, 0x1000 ≤ f16 b 2), (4, 0x1000 ≤ f16 b 4)]
  | 3 => [(4, f32 b 4 ≤ 0xFFFFFF), (8, f32 b 8 ≤ 0xFFFFFF && f32 b 4 ≤ f32 b 8), (0x0E, Nat.blt (f16 b 0x0C) (f16 b 0x0E)),
          (0x12, Nat.blt (f16 b 0x10) (f16 b 0x12)), (0x14, 0x2000 ≤ f16 b 0x14 && f16 b 0x14 ≤ 0x8000),
          (0x16, 0x2000 ≤ f16 b 0x16 && f16 b 0x16 ≤ 0x8000)]
  | 4 => [(2, 0x400 ≤ f16 b 2)]
  | 5 => [(0, f16 b 0 ≤ 0xF000), (2, 0x800 ≤ f16 b 2)]
  | 7 => [(0, f8 b 0 % 4 ≤ 1)]
  | 8 => [(0, f8 b 0 % 4 ≤ 1), (4, f8 b 4 == 0xFF || (pfOwn p).contains (f8 b 4))]
  | _ => []

/-- What an enabled stage needs loaded (Table 04-4): none, or the state code of what is missing. -/
def stageNeeds (x : ParamSet) (p b : List Byte) (stage : Nat) (on : Bool) : Option Nat :=
  let has (k : Nat) : Bool := (vget x.tables none k).isSome
  let bad : List (Bool × Nat) := match stage with
    | 0 => [(bitOf (f8 b 0) 1 && !has 5, 0x21)]
    | 2 => [(on && bitOf (f8 b 0) 1 && !has 4, 0x20), (on && bitOf (f8 b 0) 0 && !has 1, 0x21)]
    | 3 => [(on && Nat.blt 1 (pfNexp p) && bitOf (f8 b 0) 1 && !has 4, 0x20)]
    | 4 => [(on && !has 4, 0x20)]
    | 5 => [(on && !has 4, 0x20)]
    | 6 => [(on && ((bitOf (f8 b 0) 0 && !has 2) || (bitOf (f8 b 0) 1 && !has 3)), 0x21)]
    | _ => []
  (bad.find? (fun q => q.1)).map (·.2)

/-- RAW_SET_STAGE (R110, R112, R127). -/
def execRawSetStage (c : Cmd) (s : State) : Host.Outcome State Fault Refusal :=
  runCmd .rawSetStage c s do
    let cam ← needCam s c.handle
    let x := s.cam cam
    let p := x.profile
    let stage := bitsOf (par c 0) 3 0
    let on := bitOf (par c 0) 8
    let reset := bitOf (par c 0) 9
    need (stage == 5 || c.aux == 0) (badPacket 0x0C)
    needPar0 (stage ≤ 8 && (on || !([0, 1, 7, 8].contains stage)) && (!reset || stage == 5))
    let b ← structFor s c (.read (stageSize stage))
    needFields (stageFields p b stage)
    match stageNeeds x.next p b stage on with
    | some code => .error (notReady code)
    | none =>
      let n := 2 * (pfH p * stride16 p)
      let buf ← if stage = 5 && on then do
          need (c.aux != 0) (badPacket 0x0C)
          let y ← needBuffer s c.aux 1
          need (n ≤ y.size) (badPacket 0x0C)
          needRing s c.handle 0x420 y.base n
          pure y.base
        else pure x.next.tnrBuf
      let t := s.mapCam cam (fun y => { y with next := { y.next with
        stages := vmod y.next.stages stage (fun _ => { on := on, blk := b }), tnrBuf := buf, tnrReset := if stage = 5 then reset else y.next.tnrReset } })
      okDone x.stagedFn 0 t

/-! ## RAW_LOAD_TABLE -/

/-- Whether a list rises through a comparison, as the index of the first element that does not. -/
def firstFall {α : Type} (le : α → α → Bool) : Nat → List α → Option Nat
  | _, [] => none
  | _, [_] => none
  | i, a :: b :: rest => if le a b then firstFall le (i + 1) (b :: rest) else some (i + 1)

/-- The header and the order of a table (R113, Tables 04-6 to 04-9). -/
def tableFields (p t : List Byte) (kind : Nat) : List (Nat × Bool) :=
  let dx := f16 t 4
  let dy := f16 t 6
  let len := f32 t 8
  let entry (size off i : Nat) : Nat := 32 + size * i + off
  let head : List (Nat × Bool) := [(0, f8 t 0 == kind), (1, f8 t 1 == 1)]
  let rise {α : Type} (size : Nat) (le : α → α → Bool) (l : List α) : List (Nat × Bool) :=
    match firstFall le 0 l with
    | some i => [(32 + size * i, false)]
    | none => []
  match kind with
  | 1 =>
    let n := if dx = 0 then 65536 else dx
    let ok (i : Nat) : Bool :=
      let w := f16 t (entry 8 4 i)
      w % 16 ≤ 2 && w / 16 != 0 && (w % 16 != 0 || w / 16 == 1)
    head ++ [(6, dy == 0), (8, len == 8 * n)]
      ++ (List.range n).map (fun i => (entry 8 4 i, ok i))
      ++ rise 8 (fun a b => a ≤ b) ((List.range n).map (fun i => f16 t (entry 8 2 i) * 65536 + f16 t (entry 8 0 i)))
  | 2 => head ++ [(4, 2 ≤ dx && dx ≤ 65), (6, 2 ≤ dy && dy ≤ 49), (8, len == 2 * dx * dy * (pfChannels p).length)]
  | 3 => head ++ [(4, dx == pfW p), (6, dy == pfH p), (8, len == roundUp (pfW p) 64 * pfH p)]
  | 4 =>
    let gain (i : Nat) : Rat := ofF32 (f32 t (entry 36 0 i))
    head ++ [(4, 1 ≤ dx && dx ≤ 16), (6, dy == 0), (8, len == 36 * dx)]
      ++ (List.range dx).map (fun i => (entry 36 0 i, decide (1 ≤ gain i) && finiteFloat 8 23 (f32 t (entry 36 0 i))))
      ++ rise 36 (fun a b => decide (gain a < gain b)) (List.range dx)
  | _ =>
    head ++ [(4, 2 ≤ dx && dx ≤ 32), (6, dy == 0), (8, len == 8 * dx)]
      ++ (List.range dx).map (fun i => (entry 8 4 i, decide (f32 t (entry 8 4 i) ≤ 0xFFFFFF)))
      ++ rise 8 (fun a b => Nat.blt (f32 t (entry 8 0 a)) (f32 t (entry 8 0 b)) && f32 t (entry 8 4 a) ≤ f32 t (entry 8 4 b)) (List.range dx)

/-- The bytes of a table, look or curve that stays in the host's buffer: in device memory, inside AUX_HANDLE's buffer, and unmarked
(R113, R151). The length that the file states is checked against PTR_LEN. -/
def tableBytes (s : State) (c : Cmd) (least : Nat) (total : List Byte → Nat) : Chk (List Byte) := do
  let a := c.ptr.toNat
  let n := c.ptrLen.toNat
  need (c.ptrSpace == 1) (violation 0x02 a)
  let b ← needBuffer s c.aux 1
  needRange s a n (some (b.base, b.size))
  need (least ≤ n) (violation 0x02 (a + n))
  match s.mem.mem.poisonIn a n with
  | some m => .error (poisonedAt m)
  | none =>
    let t := s.readMem a n
    need (total t == n) (violation 0x02 (a + n))
    pure t

/-- CHECK_MISMATCH with the computed and the expected value. -/
def mismatch (got want : Nat) : Fail := { status := .checkMismatch, r0 := got, r1 := want }

/-- RAW_LOAD_TABLE (R110, R113, R114). -/
def execRawLoadTable (c : Cmd) (s : State) : Host.Outcome State Fault Refusal :=
  runCmd .rawLoadTable c s do
    let cam ← needCam s c.handle
    let x := s.cam cam
    let kind := par c 0
    needPar0 (1 ≤ kind && kind ≤ 5)
    let t ← tableBytes s c 32 (fun t => 32 + f32 t 8)
    let crc := crc32c (t.drop 32)
    need (crc == f32 t 0x0C) (mismatch crc (f32 t 0x0C))
    needFields (tableFields x.profile t kind)
    let new : Loaded := { addr := c.ptr.toNat, len := c.ptrLen.toNat }
    let old := vget x.next.tables none kind
    okDone x.stagedFn (x.lastUse old (vget x.last.tables none kind))
      (s.mapCam cam (fun y => { y with next := { y.next with tables := vmod y.next.tables kind (fun _ => some new) } }))

/-! ## RAW_TAP -/

/-- Whether a format is one of a tap point (Table 04-18). -/
def tapFormatOk (p : List Byte) (point format : Nat) : Bool :=
  match format with
  | 0 => point == 0
  | 1 => point == 0 && pfDepth p ≤ 16
  | 2 => 1 ≤ point && point ≤ 4
  | 3 => 1 ≤ point && point ≤ 4
  | _ => false

/-- RAW_TAP (R134 to R137, Table 04-16). -/
def execRawTap (c : Cmd) (s : State) : Host.Outcome State Fault Refusal :=
  runCmd .rawTap c s do
    let cam ← needCam s c.handle
    let x := s.cam cam
    let p := x.profile
    let op := bitsOf (par c 0) 1 0
    let tap := bitsOf (par c 0) 4 4
    let point := bitsOf (par c 0) 10 8
    let format := bitsOf (par c 0) 15 12
    needPar0 (Nat.blt op 3)
    need (op == 0 || c.aux == 0) (badPacket 0x0C)
    need (vget x.tapOwner 0 tap == 0) (conflict (vget x.tapOwner 0 tap) (0x410 + tap))
    if op = 1 then
      let ring := vget x.taps Ring.absent tap
      let sel (q : RingSlot) : Bool := q.used && q.upTo x.run (par c 3)
      let n := (ring.slots.filter (fun q => sel q && q.holders.contains 0)).length
      okDone n 0 (s.mapCam cam (fun y => { y with taps := vmod y.taps tap (fun r => r.release 0 sel) }))
    else if op = 2 then
      okDone x.stagedFn 0 (s.mapCam cam (fun y => { y with next := { y.next with taps := vmod y.next.taps tap (fun _ => none) } }))
    else do
      needPar0 (point ≤ 4 && tapFormatOk p point format)
      need (1 ≤ par c 1 && par c 1 ≤ 64) (badParam 1)
      need (1 ≤ par c 2) (badParam 2)
      let b ← needBuffer s c.aux 1
      let size := tapSlotSize p point format
      need (par c 1 * size ≤ b.size) (badParam 1)
      needRing s c.handle (0x410 + tap) b.base (par c 1 * size)
      let cfg : TapCfg := { id := x.cfgCount + 1, point := point, format := format, slots := par c 1, every := par c 2, base := b.base, slotSize := size }
      okDone x.stagedFn size (s.mapCam cam (fun y => { y with
        cfgCount := y.cfgCount + 1, next := { y.next with taps := vmod y.next.taps tap (fun _ => some cfg) } }))

/-! ## STAT_CONFIGURE -/

/-- The fields of a statistics block (R175, Table 06-6). -/
def statFields (p b : List Byte) : List (Nat × Bool) :=
  let w := statWindow p b
  [(0, f8 b 0 % 4 ≤ 1), (1, 2 ≤ f8 b 1 && f8 b 1 ≤ 16), (2, 1 ≤ f8 b 2 && f8 b 2 ≤ 64), (3, 1 ≤ f8 b 3 && f8 b 3 ≤ 48),
   (4, w.1 + w.2.2.1 ≤ pfW p), (6, w.2.1 + w.2.2.2 ≤ pfH p), (8, 4 * f8 b 2 ≤ w.2.2.1), (0xA, 4 * f8 b 3 ≤ w.2.2.2)]

/-- STAT_CONFIGURE (R174, R175, Table 06-3). -/
def execStatConfigure (c : Cmd) (s : State) : Host.Outcome State Fault Refusal :=
  runCmd .statConfigure c s do
    let cam ← needCam s c.handle
    let x := s.cam cam
    let op := par c 0
    needPar0 (Nat.blt op 3)
    need (op == 0 || c.aux == 0) (badPacket 0x0C)
    let b ← structFor s c (if op = 0 then .read 32 else .none)
    if op = 1 then
      let ring := x.statRing.release 0 (fun q => q.upTo x.run (par c 1))
      okDone (x.statRing.inUse - ring.inUse) 0 (s.mapCam cam (fun y => { y with statRing := ring }))
    else if op = 2 then
      okDone x.stagedFn 0 (s.mapCam cam (fun y => { y with next := { y.next with stats := none } }))
    else do
      needFields (statFields x.profile b)
      let y ← needBuffer s c.aux 1
      let size := statSlotSize b
      need (f8 b 1 * size ≤ y.size) (badStruct 1)
      needRing s c.handle 0x530 y.base (f8 b 1 * size)
      let cfg : StatCfg := { id := x.cfgCount + 1, blk := b, slots := f8 b 1, hostRead := bitOf (f8 b 0) 4, base := y.base, slotSize := size }
      okDone x.stagedFn size (s.mapCam cam (fun y => { y with cfgCount := y.cfgCount + 1, next := { y.next with stats := some cfg } }))

end Sys2Proof.Machine
end

