-- ==== Sys2Proof/Machine/ColourCmds.lean ====
section
/-!
DEFINITION. The commands of the colour and spectral stages (chapter 05).
-/
namespace Sys2Proof.Machine

/-! ## The set as a whole (R145, R151) -/

/-- What a look file says of itself: OUT_SPACE and PRIMARIES. -/
structure LookInfo where
  encoded   : Bool
  primaries : Nat
deriving DecidableEq, Repr

/-- The header of the look of a set. -/
def State.lookInfo (s : State) (x : ParamSet) : Option LookInfo :=
  x.look.map (fun l => let t := s.readMem l.addr 64; { encoded := bitOf (f8 t 8) 2, primaries := f8 t 9 })

/-- Which command checks the set: it says at which offset an inconsistency is reported. -/
inductive ClrOp where
  | output (n : Nat)
  | look
  | other
deriving DecidableEq, Repr

/-- The inconsistencies of Table 05-3 of one colour output of a set. -/
def outputFaults (p : List Byte) (x : ParamSet) (info : Option LookInfo) (op : ClrOp) (i : Nat) : List Fail :=
  match vget x.outs none i with
  | none => []
  | some o =>
    let b := o.blk
    let at_ (own file : Nat) : Fail := badStruct (match op with | .look => file | _ => own)
    let encoded := (info.map LookInfo.encoded).getD false
    let bypass := obTransfer b == 6
    (if obTransfer b == 5 && (vget x.curves none i).isNone then [notReady 0x40] else [])
    ++ (if obLook b && info.isNone then [notReady 0x41] else [])
    ++ (if obLook b && info.isSome && encoded && !bypass then [at_ 0x02 0x08] else [])
    ++ (if bypass && (!obLook b || (info.isSome && !encoded)) then [at_ 0x02 0x08] else [])
    ++ (if obLook b && encoded && (info.map LookInfo.primaries) != some (obPrimaries b) then [at_ 0x01 0x09] else [])
    ++ (if pfMono p && obFormat b != 7 then [badStruct 0x00] else [])

/-- The inconsistencies of a set (Table 05-3, R151), in the order of the outputs. -/
def State.setFaults (s : State) (p : List Byte) (x : ParamSet) (op : ClrOp) : List Fail :=
  let info := s.lookInfo x
  let nir := pfNir p
  (List.range 3).flatMap (outputFaults p x info op)
  ++ (match vget x.outs none 3 with
      | some o =>
        let fmt := bitsOf (f8 o.blk 0) 3 2
        (if (fmt == 1 || fmt == 2) && (vget x.curves none 3).isNone then [notReady 0x42] else [])
          ++ (if fmt != 0 && !nir then [badStruct 0x00] else [])
      | none => [])
  ++ (if !nir && f8 x.spectral 0 % 4 != 0 then [badStruct 0x00] else [])

/-- A set must be consistent (R145). -/
def needSet (s : State) (p : List Byte) (x : ParamSet) (op : ClrOp) : Chk Unit :=
  match s.setFaults p x op with
  | [] => .ok ()
  | f :: _ => .error f

/-- Stages a set on a context and completes a command with the FN that uses it. -/
def stageSet (s : State) (cam : Nat) (x : CamCtx) (set : ParamSet) (r1 : Nat) : Chk Done :=
  okDone x.stagedFn r1 (s.mapCam cam (fun y => { y with next := set }))

/-- The coefficients of an input matrix block that are in use (R142, R148): finite and of magnitude 64 (0x4280_0000) at most. M_B
without DUAL and the NIR columns of a CFA without NIR are ignored, so they are not checked (log 25). -/
def matrixFields (p b : List Byte) : List (Nat × Bool) :=
  let at_ (o : Nat) : Nat × Bool := (o, f32 b o % 2 ^ 31 ≤ 0x42800000)
  let part (base : Nat) : List (Nat × Bool) :=
    ((List.range 12).filter (fun i => i % 4 != 3 || pfNir p)).map (fun i => at_ (base + 4 * i))
  part 4 ++ (if bitOf (f32 b 0) 0 then part 0x34 else []) ++ (List.range 3).map (fun k => at_ (0x64 + 4 * k))

/-- CLR_SET_MATRIX (R142, R144, R148). -/
def execClrSetMatrix (c : Cmd) (s : State) : Host.Outcome State Fault Refusal :=
  runCmd .clrSetMatrix c s do
    let cam ← needCam s c.handle
    let x := s.cam cam
    let b ← structBytes s c
    needFields (matrixFields x.profile b)
    stageSet s cam x { x.next with matrix := b } 0

/-- CLR_SET_SPECTRAL (R145, R147, R159, Table 05-13). -/
def execClrSetSpectral (c : Cmd) (s : State) : Host.Outcome State Fault Refusal :=
  runCmd .clrSetSpectral c s do
    let cam ← needCam s c.handle
    let x := s.cam cam
    let p := x.profile
    let b ← structBytes s c
    needFields ((List.range 4).flatMap (fun u => (List.range 4).map (fun ch =>
      let o := 0x30 + 10 * u + 2 * ch
      (o, (pfChannels p).contains ch || f16 b o == 0))))
    let set := { x.next with spectral := b }
    needSet s p set .other
    stageSet s cam x set 0

/-! ## Looks and curves -/

/-- A section of a look file: its bounds, none where it is absent. -/
def lookSections (t : List Byte) : List (Nat × Nat) :=
  let curve (off : Nat) : Nat × Nat := (off, off + 16 + 8192 * f8 t (off + 1))
  [(0, 64), (f32 t 0x0C, f32 t 0x0C + 2197000)]
    ++ (if bitOf (f8 t 8) 0 then [curve (f32 t 0x14)] else []) ++ (if bitOf (f8 t 8) 1 then [curve (f32 t 0x18)] else [])

/-- Whether no two sections of a list overlap. -/
def apart : List (Nat × Nat) → Bool
  | [] => true
  | a :: rest => rest.all (fun b => a.2 ≤ b.1 || b.2 ≤ a.1) && apart rest

/-- Whether every F16 entry of a curve record is finite. -/
def curveFinite (t : List Byte) (off : Nat) : Bool :=
  (List.range (4096 * f8 t (off + 1))).all (fun i => finiteFloat 5 10 (f16 t (off + 16 + 2 * i)))

/-- The fields of a curve record at an offset; CHANNELS 3 only where it is allowed. -/
def curveFields (t : List Byte) (off : Nat) (three : Bool) : List (Nat × Bool) :=
  [(off, f8 t off ≤ 1), (off + 1, f8 t (off + 1) == 1 || (three && f8 t (off + 1) == 3)), (off + 16, curveFinite t off)]

/-- The fields of a look file (R151, Table 05-7). -/
def lookFields (t : List Byte) : List (Nat × Bool) :=
  let n := t.length
  let shaper := bitOf (f8 t 8) 0
  let post := bitOf (f8 t 8) 1
  let enc := bitOf (f8 t 8) 2
  let inside (q : Nat × Nat) : Bool := q.2 ≤ n
  [(0x00, f32 t 0 == 0x48544D41), (0x04, f16 t 4 == 1), (0x06, f16 t 6 == 65),
   (0x09, if enc then f8 t 9 ≤ 3 else f8 t 9 == 0),
   (0x0C, f32 t 0x0C % 64 == 0 && apart (lookSections t) && (lookSections t).all inside), (0x10, f32 t 0x10 == 2197000),
   (0x14, shaper || f32 t 0x14 == 0), (0x18, post || f32 t 0x18 == 0)]
  ++ (if shaper then curveFields t (f32 t 0x14) true else []) ++ (if post then curveFields t (f32 t 0x18) true else [])
  ++ [(f32 t 0x0C, (List.range 274625).all (fun i => (List.range 3).all (fun k => finiteFloat 5 10 (f16 t (f32 t 0x0C + 8 * i + 2 * k)))))]

/-- CLR_LOAD_LUT3D (R114, R144, R151): loads a look, or unloads it with AUX_HANDLE 0. -/
def execClrLoadLut3d (c : Cmd) (s : State) : Host.Outcome State Fault Refusal :=
  runCmd .clrLoadLut3d c s do
    let cam ← needCam s c.handle
    let x := s.cam cam
    let last := x.lastUse x.next.look x.last.look
    if c.aux = 0 then do
      let _ ← structFor s c .none
      let set := { x.next with look := none }
      needSet s x.profile set .other
      stageSet s cam x set last
    else do
      let t ← tableBytes s c 64 (fun t => f32 t 0x1C)
      let crc := crc32c (t.drop 0x40)
      need (crc == f32 t 0x20) (mismatch crc (f32 t 0x20))
      needFields (lookFields t)
      let set := { x.next with look := some { addr := c.ptr.toNat, len := c.ptrLen.toNat } }
      needSet s x.profile set .look
      stageSet s cam x set last

/-- CLR_LOAD_CURVE (R114, R144, R150, R151): loads a transfer curve or the NIR plane curve, or unloads it with AUX_HANDLE 0. -/
def execClrLoadCurve (c : Cmd) (s : State) : Host.Outcome State Fault Refusal :=
  runCmd .clrLoadCurve c s do
    let cam ← needCam s c.handle
    let x := s.cam cam
    let n := par c 0
    let last := x.lastUse (vget x.next.curves none n) (vget x.last.curves none n)
    if c.aux = 0 then do
      let _ ← structFor s c .none
      let set := { x.next with curves := vmod x.next.curves n (fun _ => none) }
      needSet s x.profile set .other
      stageSet s cam x set last
    else do
      let t ← tableBytes s c 16 (fun t => 16 + 8192 * f8 t 1)
      let crc := crc32c (t.drop 16)
      need (crc == f32 t 4) (mismatch crc (f32 t 4))
      needFields (curveFields t 0 (n != 3 && !pfMono x.profile))
      let set := { x.next with curves := vmod x.next.curves n (fun _ => some { addr := c.ptr.toNat, len := c.ptrLen.toNat }) }
      needSet s x.profile set .other
      stageSet s cam x set last

/-! ## CLR_SET_OUTPUT -/

/-- The fields and the accepted combinations of an output block 0 to 2 (Tables 05-8 to 05-12). -/
def outputFields (p b : List Byte) : List (Nat × Bool) :=
  let fm := obFormat b
  let d := obDepth b
  let e := obEnc b
  let tr := obTransfer b
  let depthOk : Bool := match fm with | 4 => true | 5 => d ≤ 1 | 6 => d == 3 | _ => d ≤ 2
  let encOk : Bool := match fm with
    | 4 => d != 3 || e == 0
    | 5 => e == 0
    | 6 => e == 0
    | 7 => e != 0 || pfMono p
    | _ => e != 0
  [(0, fm ≤ 7 && depthOk), (1, obPrimaries b ≤ 3 && (e != 1 || obPrimaries b == 1) && (e != 2 || obPrimaries b == 2)),
   (2, tr ≤ 6 && e ≤ 2 && encOk && (if d = 3 then tr == 0 else tr != 0)), (3, 1 ≤ f8 b 3 && f8 b 3 ≤ 16), (4, f16 b 4 ≤ 10000),
   (8, 1 ≤ f8 b 8)]

/-- The fields of an output 3 block (Table 05-14). -/
def indexFields (b : List Byte) : List (Nat × Bool) := [(0, f8 b 0 % 4 ≤ 1), (1, 1 ≤ f8 b 1 && f8 b 1 ≤ 16), (2, 1 ≤ f8 b 2)]

/-- CLR_SET_OUTPUT (R145, R155 to R157): configures, releases or disables an output. -/
def execClrSetOutput (c : Cmd) (s : State) : Host.Outcome State Fault Refusal :=
  runCmd .clrSetOutput c s do
    let cam ← needCam s c.handle
    let x := s.cam cam
    let p := x.profile
    let n := bitsOf (par c 0) 1 0
    let op := bitsOf (par c 0) 9 8
    needPar0 (Nat.blt op 3)
    need (op == 0 || c.aux == 0) (badPacket 0x0C)
    let b ← structFor s c (if op = 0 then .read 32 else .none)
    if op = 1 then
      let ring := vget x.outs Ring.absent n
      let new := ring.release 0 (fun q => q.upTo x.run (par c 1))
      okDone (ring.inUse - new.inUse) 0 (s.mapCam cam (fun y => { y with outs := vmod y.outs n (fun _ => new) }))
    else
      match (vget x.consumers [] n).head? with
      | some h => .error (conflict h (0x520 + n))
      | none =>
        if op = 2 then do
          let set := { x.next with outs := vmod x.next.outs n (fun _ => none) }
          needSet s p set (.output n)
          stageSet s cam x set 0
        else do
          needFields (if n = 3 then indexFields b else outputFields p b)
          let y ← needBuffer s c.aux 1
          let slots := if n = 3 then f8 b 1 else f8 b 3
          let every := if n = 3 then f8 b 2 else f8 b 8
          let hostRead := if n = 3 then bitOf (f8 b 3) 0 else bitOf (f8 b 9) 0
          let size := outSlotSize p n b
          need (slots * size ≤ y.size) (badStruct (if n = 3 then 1 else 3))
          needRing s c.handle (0x520 + n) y.base (slots * size)
          let cfg : OutCfg := { id := x.cfgCount + 1, blk := b, slots := slots, every := every, hostRead := hostRead, base := y.base, slotSize := size }
          let set := { x.next with outs := vmod x.next.outs n (fun _ => some cfg) }
          needSet s p set (.output n)
          okDone x.stagedFn size (s.mapCam cam (fun z => { z with cfgCount := z.cfgCount + 1, next := set }))

end Sys2Proof.Machine
end

