-- ==== Sys2Proof/Machine/DecOps.lean ====
section
/-!
DEFINITION. Decode sessions (chapter 08): the session block, the byte stream parser up to NAL unit headers, the decoded picture buffer with
its output order (H.265 C.5.2, R233), missing references (R229), concealment (R228), and the output ring.
-/
namespace Sys2Proof.Machine

/-- Applies a function to the session of a handle. -/
def State.mapDec (h : Handle) (f : DecSession → DecSession) (s : State) : State :=
  { s with dec := { s.dec with sessions := updWhere (fun e => e.handle == h) f s.dec.sessions } }
/-- The session of a handle. -/
def State.decSession (s : State) (h : Handle) : Option DecSession := s.dec.sessions.find? (fun e => e.handle == h)
/-- Counts in a session. -/
def DecSession.count (e : DecSession) (f : DecCounters → DecCounters) : DecSession := { e with cnt := f e.cnt }
/-- Counts a detection of a class 1 to 6; the first of each picture is entered with its place in the stream (R226). Table 08-6 gives the entry no word (log
37). -/
def DecSession.detected (e : DecSession) (cls : Nat) : DecSession :=
  { e.count (fun n => { n with detect := vmod n.detect (cls - 1) Word.satInc }) with
    found := if e.found.any (fun x => x.pic == e.begun) then e.found else e.found ++ [{ pic := e.begun, cls := cls, offset := e.offset }] }
/-- Counts a discarded NAL unit. -/
def DecSession.discardNal (e : DecSession) : DecSession := e.count (fun n => { n with nals := n.nals.satInc })

/-! ## The session block (Table 08-3) -/

/-- PROFILES. -/
def dbProfiles (b : List Byte) : Nat := f8 b 0 % 16
/-- MAX_W. -/
def dbW (b : List Byte) : Nat := f16 b 2
/-- MAX_H. -/
def dbH (b : List Byte) : Nat := f16 b 4
/-- DPB. -/
def dbDpb (b : List Byte) : Nat := f8 b 6
/-- PACED. -/
def dbPaced (b : List Byte) : Bool := bitOf (f8 b 7) 0
/-- START. -/
def dbStart (b : List Byte) : Bool := bitOf (f8 b 7) 1
/-- HASH_CHECK. -/
def dbHash (b : List Byte) : Bool := bitOf (f8 b 7) 2
/-- HOST_READ. -/
def dbHostRead (b : List Byte) : Bool := bitOf (f8 b 7) 3
/-- KCS. -/
def dbKcs (b : List Byte) : Bool := bitOf (f8 b 7) 4
/-- FORMAT. -/
def dbFormat (b : List Byte) : Nat := f8 b 8 % 16
/-- Bits of the container. -/
def dbBits (b : List Byte) : Nat := match bitsOf (f8 b 8) 5 4 with | 0 => 8 | 1 => 10 | _ => 12
/-- SLOTS. -/
def dbSlots (b : List Byte) : Nat := f8 b 9
/-- PERIOD. -/
def dbPeriod (b : List Byte) : Nat := f32 b 0x0C
/-- PTS0 in ns; 0 selects automatic. -/
def dbPts0 (b : List Byte) : Nat := fld b 0x10 6 * 1000000000 + f32 b 0x18
/-- The chroma format of KCS for FORMAT. -/
def dbChroma (b : List Byte) : Nat := match dbFormat b with | 0 => 0 | 1 => 0 | 7 => 4 | _ => 1
/-- The planes of a slot. -/
def dbPlanes (b : List Byte) : List (Nat × Nat × Nat) := outPlanes (dbW b) (dbH b) (b.drop 8)
/-- The KCS surface of a picture of a size and depth. -/
def dbSurface (b : List Byte) (w h depth attr : Nat) : KcsInfo := { chroma := dbChroma b, depth := depth, q := 0, width := w, height := h, attr := attr }
/-- The size bound of a pool slot (R219). -/
def dbBound (b : List Byte) : Nat := (dbSurface b (dbW b) (dbH b) (dbBits b) 0).bound
/-- The slot size of the output ring (R233). -/
def dbSlotSize (b : List Byte) : Nat := if dbKcs b then 64 + dbBound b else planeOffset (dbPlanes b) (dbPlanes b).length

/-- The address of a pool slot. -/
def DecSession.slotAddr (e : DecSession) (i : Nat) : Nat := e.base + f32 e.blk 0x1C + 4096 + i * dbBound e.blk
/-- The surface of a picture in the pool. -/
def DecSession.surface (e : DecSession) (p : DecPicInfo) : KcsInfo := dbSurface e.blk p.width p.height p.depth p.attr

/-! ## The parser (R221, R222, R226) -/

/-- The NAL unit types that H.265 reserves (PRESUMED, log 37). -/
def reservedNal (t : Nat) : Bool := (10 ≤ t && t ≤ 15) || (22 ≤ t && t ≤ 31) || (41 ≤ t && t ≤ 47)

/-- The open picture has ended (R227). -/
def DecSession.endPicture (e : DecSession) : DecSession :=
  { e with waiting := e.waiting.map (fun w => match w with | .pic p n _ => .pic p n true | w => w) }

/-- The header of a NAL unit is complete: one of another layer is discarded, one of class 1 is detected and discarded; an access unit delimiter, an end of
sequence and an end of bitstream end the open picture, and after the latter two the next picture decoded must be an IRAP picture (R222, R227; the type
numbers PRESUMED, log 37). -/
def DecSession.header (e : DecSession) (b0 b1 : Nat) : DecSession :=
  let layer := b0 % 2 * 32 + b1 / 8
  let type := b0 / 2 % 64
  let bad := 128 ≤ b0 || b1 % 8 == 0 || reservedNal type
  let drop := { e with inHeader := none, zeros := 0, open_ := false }.discardNal
  if layer != 0 then drop
  else if bad then drop.detected 1
  else
    let go (x : DecSession) : DecSession := { x with inHeader := none, zeros := 0, open_ := true }
    if type = 35 then go e.endPicture
    else if type = 36 ∨ type = 37 then { go e.endPicture with waitIrap := true }
    else go e

/-- One byte of the stream. -/
def DecSession.byte (e : DecSession) (b : Nat) : DecSession :=
  match e.inHeader with
  | some none => { e with inHeader := some (some b) }
  | some (some b0) => e.header b0 b
  | none =>
    if b = 1 ∧ 2 ≤ e.zeros then { e with inHeader := some none, zeros := 0, open_ := true }
    else { e with zeros := if b = 0 then Nat.min 2 (e.zeros + 1) else 0 }

/-- Counts a lost picture (R227). -/
def DecSession.losePicture (e : DecSession) : DecSession := e.count (fun n => { n with lost := n.lost.satInc })
/-- Counts a picture discarded before the first IRAP picture (R227). -/
def DecSession.discardPicture (e : DecSession) : DecSession := e.count (fun n => { n with discarded := n.discarded.satInc })

/-- chroma_format_idc that FORMAT asks for (H.265). -/
def dbIdc (b : List Byte) : Nat := match dbFormat b with | 0 => 1 | 1 => 1 | 7 => 0 | _ => 2

/-- Whether an SPS is within a session's capacity (Table 08-4, class 4). -/
def spsFits (b : List Byte) (x : DecSps) : Bool :=
  Nat.blt x.profile 4 && bitOf (dbProfiles b) x.profile && x.level ≤ f8 b 1 && x.width ≤ dbW b && x.height ≤ dbH b && x.depth ≤ dbBits b
    && x.dpb ≤ dbDpb b && x.chroma == dbIdc b

/-- The stored parameter set of a kind and ID. -/
def DecSession.setOf (e : DecSession) (k : DecSetKind) (id : Nat) : Option DecSet := e.sets.find? (fun x => x.kind == k && x.id == id)

/-- A parameter set arrives (R226): a damaged one is detected and marks its ID invalid, but does not replace a stored valid one; an SPS beyond the
session's capacity is detected, and its pictures are lost. -/
def DecSession.paramSet (e : DecSession) (k : DecSetKind) (id : Nat) (damaged : Bool) (x : DecSps) : DecSession :=
  let put (y : DecSession) (valid fits : Bool) : DecSession :=
    { y with sets := y.sets.filter (fun z => !(z.kind == k && z.id == id)) ++ [{ kind := k, id := id, valid := valid, fits := fits, sps := x }] }
  if damaged then
    let y := e.detected 2
    if ((y.setOf k id).map DecSet.valid).getD false then y else put y false true
  else if k == .sps && !spsFits e.blk x then put (e.detected 4) true false
  else put e true true

/-- The first slice segment of a picture (R222, R226, R227). One that refers to an absent or invalid parameter set is discarded, and its picture is lost; a
picture of an SPS beyond the session's capacity is lost, and decoding resumes at the next IRAP picture whose SPS fits. -/
def DecSession.begin (e0 : DecSession) (arrival sps pps : Nat) (p0 : DecPicInfo) : DecSession :=
  let e := { e0.endPicture with begun := e0.begun + 1 }
  match e.setOf .sps sps, e.setOf .pps pps with
  | some a, some b =>
    if !a.valid || !b.valid then (e.detected 3).discardNal.losePicture
    else if !a.fits then { e.losePicture with waitIrap := true }
    else
      let p := { p0 with width := a.sps.width, height := a.sps.height, depth := a.sps.depth, dpb := a.sps.dpb }
      if !e.started && !dbStart e.blk && !p.irap then e.discardPicture
      else if p.rasl && e.rasl == 1 then e.discardPicture
      else if e.waitIrap && !p.irap then e.losePicture
      else
        let q := { p with newSeq := p.newSeq || e.waitIrap, output := p.output && !(p.rasl && e.rasl == 2) }
        { e with started := true, waitIrap := false, waiting := e.waiting ++ [.pic q arrival false],
                 rasl := if !p.irap then e.rasl else if !e.started && !dbStart e.blk then 1 else if e.waitIrap then 2 else 0 }
  | _, _ => (e.detected 3).discardNal.losePicture

/-- The place of a finding in its chunk. -/
def itemAt : DecItem → Nat
  | .detect a _ => a
  | .set a _ _ _ _ => a
  | .begin_ a _ _ _ => a
  | .lost a => a

/-- One finding of the parser (R226, R227). -/
def DecSession.item (arrival : Nat) (e : DecSession) (i : DecItem) : DecSession :=
  match i with
  | .detect _ k => if k = 3 then (e.detected k).discardNal else if k = 2 then e.detected k else e
  | .set _ k id damaged x => e.paramSet k id damaged x
  | .begin_ _ sps pps p => e.begin arrival sps pps p
  | .lost _ => { e.endPicture with begun := e.begun + 1 }.losePicture

/-- A chunk from its i-th byte on, at an address: its bytes in order with what the parser finds at them, past the lines that carry a mark (class 5). -/
def DecSession.chunk (m : Memory) (arrival : Nat) : Nat → Nat → Nat → List DecItem → DecSession → DecSession
  | 0, _, _, _, e => e
  | n + 1, a, i, items, e =>
    let here := m.marked a
    let x := if here && (a % 64 == 0 || i == 0) then { e with inHeader := none, zeros := 0, open_ := false }.detected 5 else e
    let y := { (if here then x else x.byte (m.byte a).toNat) with offset := x.offset + 1 }
    let now := items.takeWhile (fun t => Nat.ble (itemAt t) i)
    DecSession.chunk m arrival n (a + 1) (i + 1) (items.drop now.length) (now.foldl (DecSession.item arrival) y)

/-- The start of a chunk under DISCONT (R222): an open NAL unit is discarded. -/
def DecSession.cut (e : DecSession) : DecSession :=
  let x := e.detected 6
  { (if x.open_ then x.discardNal else x) with open_ := false, inHeader := none, zeros := 0 }

/-- The places of a chunk at which a NAL unit ends: before each start code, and its end (R223). -/
def nalEnds (bs : List Byte) : List Nat :=
  (List.range bs.length).filter (fun i => i != 0 && slice bs i 3 == [0, 0, 1]) ++ [bs.length]

/-! ## Output order (R233, R235) -/

/-- The presentation time of a picture that is output next (R235). -/
def DecSession.ptsOf (e : DecSession) (poc : Int) (seqNo decodedAt : Nat) : Nat :=
  if !dbPaced e.blk then 0
  else match e.lastOut with
  | none => if dbPts0 e.blk = 0 then decodedAt + dbPeriod e.blk else dbPts0 e.blk
  | some (last, seq, t) => if seq = seqNo then t + dbPeriod e.blk * (poc - last).toNat else t + dbPeriod e.blk

/-- A picture joins the output queue with its presentation time. -/
def DecSession.pushOut (e : DecSession) (q : DecHeld) : DecSession :=
  let pts := e.ptsOf q.poc q.seqNo q.decodedAt
  { e with outs := e.outs ++ [{ pic := q, pts := pts }], pushed := e.pushed + 1, lastOut := some (q.poc, q.seqNo, pts),
           pool := updWhere (fun x => x.decSeq == q.decSeq) (fun x => { x with needed := false }) e.pool }

/-- The picture that is output next: the lowest POC of the earliest sequence still to be output. -/
def DecSession.first (e : DecSession) : Option DecHeld :=
  (sortBy (fun x => (x.seqNo : Int) * 2 ^ 33 + x.poc) (e.pool.filter DecHeld.needed)).head?

/-- Pictures are output while a condition holds (H.265 C.5.2). -/
def DecSession.bump (more : DecSession → Bool) : Nat → DecSession → DecSession
  | 0, e => e
  | n + 1, e =>
    if more e then match e.first with
      | some q => DecSession.bump more n (e.pushOut q)
      | none => e
    else e

/-- Whether more pictures wait for output than the stream's reordering and latency allow. -/
def DecSession.overs (p : DecPicInfo) (e : DecSession) : Bool :=
  let ws := e.pool.filter DecHeld.needed
  Nat.blt p.reorder ws.length || (match p.latency with | some l => ws.any (fun q => l ≤ q.latency) | none => false)

/-- Pictures that are neither references nor to be output leave the pool; one in the output queue keeps its slot. -/
def DecSession.clean (e : DecSession) : DecSession := { e with pool := e.pool.filter (fun q => q.needed || q.usedRef) }

/-- Every picture to be output joins the output queue (R222). -/
def DecSession.flushAll (e : DecSession) : DecSession := (DecSession.bump (fun _ => true) e.pool.length e).clean

/-- The buffer before a picture (H.265 C.5.2.2): the reference picture set marks what stays, a new sequence empties it, and pictures are
output until the picture fits. -/
def DecSession.prepare (e : DecSession) (p : DecPicInfo) : DecSession :=
  let drop (q : DecHeld) : DecHeld := { q with usedRef := false, needed := q.needed && !p.noPrior }
  let al := e.alias_.filter (fun a => p.rps.contains a.1)
  let keep (q : DecHeld) : DecHeld :=
    { q with usedRef := q.seqNo == e.seqNo && q.usedRef && (p.rps.contains q.poc || al.any (fun a => a.2 == some q.poc)) }
  if p.irap && p.newSeq then
    let x : DecSession := { e with pool := e.pool.map drop, alias_ := [], seqNo := e.seqNo + 1 }
    x.flushAll
  else
    let x : DecSession := { e with alias_ := al, pool := e.pool.map keep }
    let full (y : DecSession) : Bool := DecSession.overs p y || (p.dpb ≤ y.clean.pool.length && y.pool.any DecHeld.needed)
    (DecSession.bump full x.pool.length x.clean).clean

/-- A pool slot that nothing holds. -/
def DecSession.freeSlot (e : DecSession) : Option Nat :=
  (List.range (dbDpb e.blk + 1)).find? (fun i =>
    e.pool.all (fun q => q.slot != i) && e.outs.all (fun o => o.pic.slot != i) && e.curs.all (fun q => q.slot != i))

/-- Whether the next slot of the ring is held. -/
def DecSession.ringHeld (e : DecSession) : Bool := ((e.ring.slots[e.ring.next]?).map RingSlot.used).getD true

/-! ## References (R229) -/

/-- The pool picture nearest to a POC in output order: the smallest difference, then the lower POC. -/
def DecSession.nearest (e : DecSession) (poc : Int) : Option DecHeld :=
  (sortBy (fun q => ((q.poc - poc).natAbs : Int) * 2 ^ 34 + q.poc) (e.pool.filter (fun q => q.seqNo == e.seqNo))).head?

/-- The picture that a POC of a reference picture set stands for. -/
def DecSession.resolve (e : DecSession) (poc : Int) : Option DecHeld :=
  let goal := ((e.alias_.find? (fun a => a.1 == poc)).bind (·.2)).getD poc
  e.pool.find? (fun q => q.poc == goal && q.seqNo == e.seqNo && q.usedRef)

/-- A mid-grey picture (R230) held under a POC. -/
def DecSession.greyPic (e : DecSession) (p : DecPicInfo) (poc : Int) (slot : Nat) : DecHeld :=
  { poc := poc, seqNo := e.seqNo, slot := slot, info := p, decSeq := 2 ^ 32 + e.cnt.grey.toNat, flags := 8, ctus := 0, needed := false, usedRef := true,
    latency := 0, decodedAt := 0 }

/-- Resolves a missing reference of a picture: a substitute, or a mid-grey picture where the pool is empty. A POC counts once, also when its
substitute has gone and another takes its place. The second component lists the grey surfaces to be written. -/
def DecSession.supply (p : DecPicInfo) (a : DecSession × List Nat) (poc : Int) : DecSession × List Nat :=
  if (a.1.resolve poc).isSome then a
  else
    let known := a.1.alias_.any (fun x => x.1 == poc)
    let e := if known then { a.1 with alias_ := a.1.alias_.filter (fun x => x.1 != poc) }
      else a.1.count (fun n => { n with substituted := n.substituted.satInc })
    match e.nearest poc with
    | some q => ({ e with alias_ := e.alias_ ++ [(poc, some q.poc)],
                          pool := updWhere (fun x => x.decSeq == q.decSeq) (fun x => { x with usedRef := true }) e.pool }, a.2)
    | none =>
      match e.freeSlot with
      | some i => ({ e with alias_ := e.alias_ ++ [(poc, some poc)], pool := e.pool ++ [e.greyPic p poc i] }.count
          (fun n => { n with grey := n.grey.satInc }), a.2 ++ [i])
      | none => (e, a.2)

/-- Pictures leave the pool (R231): what stood for a missing POC stands for it no longer. -/
def DecSession.lose (e : DecSession) (bad : List DecHeld) : DecSession :=
  let gone (seqNo : Nat) (poc : Int) : Bool := bad.any (fun q => q.poc == poc && q.seqNo == seqNo)
  { e with pool := e.pool.filter (fun q => !bad.any (fun x => x.decSeq == q.decSeq)),
           alias_ := e.alias_.map (fun a => if (a.2.map (gone e.seqNo)).getD false then (a.1, none) else a) }

/-- The source of a picture's concealment (R228, R231): the nearest picture of its sequence; one with a marked line leaves the pool, and the next
nearest takes its place. -/
def DecSession.source (m : Memory) (seqNo : Nat) (poc : Int) : Nat → DecSession → DecSession × Option DecHeld
  | 0, e => (e, none)
  | n + 1, e =>
    match { e with seqNo := seqNo }.nearest poc with
    | none => (e, none)
    | some q => if (m.poisonIn (e.slotAddr q.slot) (e.surface q.info).bound).isSome then DecSession.source m seqNo poc n (e.lose [q]) else (e, some q)

/-! ## Pictures in decoding (R224) -/

/-- A picture enters the buffer (H.265 C.5.2.3): what it leaves too many joins the output queue. -/
def DecSession.insert (e : DecSession) (q : DecHeld) : DecSession :=
  let x := { e with pool := e.pool.map (fun y => if y.needed then { y with latency := y.latency + 1 } else y) ++ [q] }
  DecSession.bump (DecSession.overs q.info) x.pool.length x

/-- Decoded pictures enter the buffer in decoding order: after each the buffer is made ready for the next (H.265 C.5.2.2). -/
def DecSession.settle : Nat → DecSession → DecSession
  | 0, e => e
  | n + 1, e =>
    match e.curs with
    | q :: rest => match q.ended with
      | some r =>
        let x := { e with curs := rest }
        let y := match r with | some h => x.insert h | none => x
        DecSession.settle n (match rest with | next :: _ => y.prepare next.info | [] => y)
      | none => e
    | [] => e

/-- The sequence that a picture next in decoding order belongs to. -/
def DecSession.seqOf (e : DecSession) (p : DecPicInfo) : Nat :=
  ((e.curs.getLast?).map DecCur.seqNo).getD e.seqNo + bit01 (p.irap && p.newSeq)

/-- The decoded picture of a POC and sequence beside pictures that are still decoded: in the pool, or waiting to enter it. -/
def DecSession.decoded (e : DecSession) (seqNo : Nat) (poc : Int) : Option DecHeld :=
  match e.curs.findSome? (fun q => if q.seqNo == seqNo && q.info.poc == poc then q.ended.bind id else none) with
  | some h => some h
  | none => if seqNo = e.seqNo then e.resolve poc else none

/-- A picture's start (R224, R229): the buffer made ready, its references resolved, its pool slot and the grey surfaces to be written; none while it is not
decodable. A second picture of a session waits for its references; a missing one is resolved when the pictures before it have entered the buffer (DEDUCED,
log 38). -/
def DecSession.takes (e : DecSession) (p : DecPicInfo) : Option (DecSession × List DecHeld × Nat × List Nat) :=
  if e.curs.isEmpty then
    let e1 := e.prepare p
    let a := (p.needs.filter (fun n => (e1.resolve n).isNone)).foldl (DecSession.supply p) (e1, [])
    a.1.freeSlot.map (fun i => (a.1, p.needs.filterMap a.1.resolve, i, a.2))
  else
    let rs := p.needs.map (e.decoded (e.seqOf p))
    if rs.all Option.isSome then e.freeSlot.map (fun i => (e, rs.filterMap id, i, [])) else none

/-! ## Concealment (R228) -/

/-- A scaled neighbour vector: by the ratio of POC distances. -/
def scaleVec (key : List Nat) (v near own : Int) : Int := if own = 0 then v else roundFree key ((v : Rat) * near / own)

/-- The middle value of a list; of two middle values one is free. -/
def middleFree (key : List Nat) (l : List Int) : Int :=
  let s := sortBy id l
  let i := (s.length - 1) / 2
  let j := s.length / 2
  (s[if Config.freeError key % 2 = 0 then i else j]?).getD 0

/-- The displacement of a lost CTU in quarter samples: the median of its neighbours' scaled vectors, zero without one. -/
def lostVec (key : List Nat) (u : LostCtu) (near : Int) : Int × Int :=
  if u.near.isEmpty then (0, 0)
  else
    let sc (n : Nat) (f : Int × Int × Int → Int) : List Int :=
      u.near.zipIdx.map (fun v => scaleVec (v.2 :: n :: key) (f v.1) near v.1.2.2)
    (middleFree (0 :: key) (sc 0 (fun v => v.1)), middleFree (1 :: key) (sc 1 (fun v => v.2.1)))

/-- A sample of a picture after concealment. Between two samples of the reference, one is free (log 38). -/
def DecSession.concealed (e : DecSession) (m : Memory) (p : DecPicInfo) (decSeq : Nat) (r : DecReport) (ref_ : Option DecHeld) (comp x y : Nat) : Nat :=
  let k := e.surface p
  let sub := if comp = 0 then (1, 1) else kcsSub k.chroma
  let w := ceilDiv k.width sub.1
  let h := ceilDiv k.height sub.2
  match r.lost.find? (fun u => u.x == x * sub.1 / p.ctu && u.y == y * sub.2 / p.ctu) with
  | none => (((r.recon[comp]?).getD [])[y * w + x]?).getD 0
  | some u =>
    match ref_ with
    | none => 2 ^ (p.depth - 1)
    | some q =>
      let key := [0x80, e.handle.toNat, decSeq, u.x, u.y]
      let v := lostVec key u (p.poc - q.poc)
      let dx := roundFree (2 :: comp :: key) ((v.1 : Rat) / (4 * sub.1 : Nat))
      let dy := roundFree (3 :: comp :: key) ((v.2 : Rat) / (4 * sub.2 : Nat))
      kcsSample m (e.surface q.info) (e.slotAddr q.slot) comp (clampInt 0 ((w : Int) - 1) ((x : Int) + dx)).toNat
        (clampInt 0 ((h : Int) - 1) ((y : Int) + dy)).toNat

/-! ## The output ring (R233, Table 08-5) -/

/-- The bytes of one sample of a plane in FORMAT and DEPTH from the codes of the components. -/
def planarSample (b : List Byte) (code : Nat → Nat → Nat → Nat) (plane x y : Nat) : List Byte :=
  match obFormat b, plane with
  | 0, 1 => codeBytes b (code 1 x y) ++ codeBytes b (code 2 x y)
  | 2, 1 => codeBytes b (code 1 x y) ++ codeBytes b (code 2 x y)
  | _, k => codeBytes b (code k x y)

/-- Writes a picture of the pool into the next slot of the ring: planes or a KCS surface, then the header (R233, R235). -/
def State.putDecOut (e : DecSession) (o : DecOut) (s : State) : State :=
  let b := e.blk
  let p := o.pic.info
  let a := e.ring.base + e.ring.next * e.ring.slotSize
  let k := e.surface p
  let code (comp x y : Nat) : Nat :=
    let sub := if comp = 0 then (1, 1) else kcsSub k.chroma
    kcsSample s.mem.mem k (e.slotAddr o.pic.slot) comp (x + p.cropX / sub.1) (y + p.cropY / sub.2) * 2 ^ (dbBits b - p.depth)
  let qs := dbPlanes b
  let cut (q : Nat × Nat × Nat) : Nat × Nat :=
    (if q.1 < dbW b then ceilDiv p.cropW 2 else p.cropW, if q.2.1 < dbH b then ceilDiv p.cropH 2 else p.cropH)
  let t := if dbKcs b then s.writeKcs (dbSurface b p.cropW p.cropH (dbBits b) p.attr) (a + 64) code
    else qs.zipIdx.foldl (fun (t : State) (q : (Nat × Nat × Nat) × Nat) =>
      (List.range (cut q.1).2).foldl (fun (t : State) (y : Nat) =>
        t.writeMem (a + planeOffset qs q.2 + y * planeStride q.1)
          ((List.range (cut q.1).1).flatMap (fun x => planarSample (b.drop 8) code q.2 x y))) t) s
  let late := dbPaced b && Nat.blt o.pts s.ns
  let flags := o.pic.flags + 64 * bit01 late + 128 * bit01 (dbKcs b)
  let planes : List Field := if dbKcs b then [(0x1A, 1, 1), (0x2C, 4, 64)]
    else (0x1A, 1, qs.length) :: qs.zipIdx.flatMap (fun q =>
      [(0x20 + 4 * q.2, 4, planeStride q.1), (0x2C + 4 * q.2, 4, planeOffset qs q.2)])
  let head := layout 64 ([(0x00, 4, e.outSeq), (0x04, 4, wrapInt 32 o.pic.poc), (0x08, 6, secOf o.pts), (0x0E, 2, flags), (0x10, 4, nsOf o.pts),
    (0x14, 2, p.cropW), (0x16, 2, p.cropH), (0x18, 1, f8 b 8 % 64), (0x19, 1, p.depth), (0x1C, 4, o.pic.ctus), (0x38, 4, o.pic.decSeq)] ++ planes)
  let k := e.ring.take e.outSeq 0 (e.consumers ++ (if dbHostRead b then [0] else []))
  let ring := match k.2 with | some i => k.1.complete i | none => k.1
  let t := ((t.writeMem a head).writes .decoder (.decoder 0) noCam a e.ring.slotSize).mapDec e.handle (fun x => { x with
    outs := x.outs.drop 1, outSeq := x.outSeq + 1, written := x.written + 1, ring := ring, attrs := ((e.outSeq, p.attr) :: x.attrs).take 64,
    cnt := { x.cnt with out := x.cnt.out.satInc, late := if late then x.cnt.late.satInc else x.cnt.late } })
  t.trimSource { kind := 3, handle := e.handle, index := 0 }

/-! ## What follows of itself -/

/-- Pictures that a session holds and would still put out: waiting, in decoding, in the buffer and in the output queue. -/
def DecSession.holds (e : DecSession) : Nat :=
  (e.waiting.filter (fun w => match w with | .pic _ _ _ => true | _ => false)).length + e.curs.length + (e.pool.filter DecHeld.needed).length + e.outs.length

/-- The ends of streams that have been reached empty the buffer, and a session that closes notes since when its first picture waits (R222, R237). -/
def DecSession.advance (ns : Nat) (e : DecSession) : DecSession :=
  let lead := e.waiting.takeWhile (fun w => match w with | .flush _ => true | _ => false)
  let x := if !e.curs.isEmpty || lead.isEmpty then e
    else
      let f := e.flushAll
      { f with waiting := e.waiting.drop lead.length,
               drains := e.drains ++ lead.filterMap (fun w => match w with
                 | .flush (some b) => some { by_ := b.1, from_ := b.2, last := f.pushed }
                 | _ => none) }
  { x with headSince := match x.closing, x.outs.head? with
      | some _, some o => if (x.headSince.map (·.1)) = some o.pic.decSeq then x.headSince else some (o.pic.decSeq, ns)
      | _, _ => none }

/-- Drains whose last picture is out complete, and a session that closes ends with its last picture (R222, R237). -/
def State.decAdvance (h : Handle) (s : State) : State :=
  let t := s.mapDec h (DecSession.advance s.ns)
  match t.decSession h with
  | none => t
  | some e =>
    let over_ (d : DecDrain) : Bool := d.last + e.outs.length ≤ e.pushed
    let t := (e.drains.filter over_).foldl (fun (u : State) (d : DecDrain) => u.finish d.by_ .ok (e.written - d.from_) 0 false) t
    let t := t.mapDec h (fun x => { x with drains := x.drains.filter (fun d => !over_ d) })
    match e.closing with
    | none => t
    | some r =>
      if e.waiting.isEmpty && e.curs.isEmpty && e.outs.isEmpty then
        ({ t with dec := { t.dec with sessions := t.dec.sessions.filter (fun x => x.handle != h) } }).finishOpt r .ok e.written e.discarded false
      else t

/-- A session gives up every picture that it holds (R237). -/
def DecSession.dropAll (e : DecSession) : DecSession :=
  { e with waiting := [], curs := [], outs := [], pool := e.pool.map (fun q => { q with needed := false }), discarded := e.discarded + e.holds }

/-- A marked line of its state halts a session (R231): its drains fail as every command on it does, and one that is closing gives up what it holds. -/
def State.decHalt (e : DecSession) (s : State) : State :=
  let rs := e.waiting.filterMap (fun w => match w with | .flush (some b) => some b.1 | _ => none) ++ e.drains.map DecDrain.by_
  let x := { e with faulted := true, drains := [],
                    waiting := e.waiting.map (fun w => match w with | .flush (some _) => .flush none | w => w) }
  let t := (s.mapDec e.handle (fun _ => if e.closing.isSome then x.dropAll else x)).logErrorPost
    { source := 0x07, code := Status.dataPoisoned.code, unit := e.handle, addr := e.base + f32 e.blk 0x1C }
  (rs.foldl (fun (u : State) (r : CmdRef) => u.finish r .notReady 0x71 0 false) t).decAdvance e.handle

end Sys2Proof.Machine
end

