-- ==== Sys2Proof/Machine/DecCmds.lean ====
section
/-!
DEFINITION. The decode commands (Table 08-1) and what the decoder cores do with pictures (chapter 08). What the parser finds in slice data and
what a core decodes are operands: H.265 syntax stands outside the manual (log 38).
-/
namespace Sys2Proof.Machine

/-- The session of a live handle, else INVALID_HANDLE. -/
def needDec (s : State) (h : Handle) : Chk DecSession := needSome (s.decSession h) (badHandle h 0)

/-- The fields of a decode session block (Table 08-3, R219). -/
def decFields (b : List Byte) : List (Nat × Bool) :=
  let pr := dbProfiles b
  let fm := dbFormat b
  let dp := bitsOf (f8 b 8) 5 4
  let lim := (levelLimit (f8 b 1)).map LevelLimit.ps
  [(0x00, 0 < pr && (fm != 7 || pr % 8 == 0)), (0x01, lim.isSome), (0x02, 64 ≤ dbW b && dbW b ≤ 8192 && dbW b % 2 == 0),
   (0x02, dbW b * dbH b ≤ lim.getD 0), (0x04, 64 ≤ dbH b && dbH b ≤ 8192 && dbH b % 2 == 0), (0x06, 1 ≤ dbDpb b && dbDpb b ≤ 16),
   (0x07, dbPaced b == (dbPeriod b != 0)),
   (0x08, dp ≤ 2 && [0, 1, 2, 3, 7].contains fm && (match fm with
      | 0 => pr % 4 != 0 | 1 => pr % 4 != 0 | 7 => bitOf pr 3 | _ => bitOf pr 2)
      && (dp != 0 || pr ≤ 1) && (dp != 1 || !bitOf pr 3)),
   (0x09, 2 ≤ dbSlots b && dbSlots b ≤ 16), (0x1C, f32 b 0x1C % 4096 == 0), (0x24, f32 b 0x24 % 64 == 0)]

/-- The charge of a paced session (R220). -/
def decCharge (b : List Byte) : Nat :=
  if !dbPaced b then 0
  else
    let n := dbW b * dbH b * 1000
    if bitOf (dbProfiles b) 3 then ceilDiv (n * 2) (dbPeriod b * 3)
    else if bitOf (dbProfiles b) 2 then ceilDiv (n * 4) (dbPeriod b * 3)
    else ceilDiv n (dbPeriod b)

/-- DEC_SESSION_OPEN (R219, R220). -/
def execDecSessionOpen (c : Cmd) (s : State) : Host.Outcome State Fault Refusal :=
  runCmd .decSessionOpen c s do
    let b ← structBytes s c
    needFields (decFields b)
    need (Nat.blt s.dec.sessions.length 16) (notReady 0x70)
    let y ← needBuffer s c.aux 1
    let po := f32 b 0x1C
    let pl := f32 b 0x20
    let ro := f32 b 0x24
    let rl := f32 b 0x28
    need (4096 + (dbDpb b + 1) * dbBound b ≤ pl && po + pl ≤ y.size) (badStruct 0x20)
    need (dbSlots b * dbSlotSize b ≤ rl && ro + rl ≤ y.size && !meets po pl ro rl) (badStruct 0x28)
    let charge := decCharge b
    let budget := 2400 * s.mgmt.units.filled .decU
    let used := sumNat (s.dec.sessions.map DecSession.charge)
    need (charge ≤ 2400 && charge + used ≤ budget) (overBudget charge (budget - used))
    needUnpinned s y.base y.size
    let h := s.nextHandle 4
    let e : DecSession :=
      { handle := h, blk := b, buf := c.aux, base := y.base, charge := charge, zeros := 0, inHeader := none, open_ := false,
        offset := 0, begun := 0, found := [], discont := false, sets := [], started := false, waitIrap := false, rasl := 0, waiting := [],
        curs := [], pool := [], alias_ := [], seqNo := 0, decSeq := 0, outs := [], pushed := 0, headSince := none, lastOut := none, outSeq := 0, ring := Ring.fresh 0 (y.base + ro) (dbSlotSize b) (dbSlots b), consumers := [], attrs := [], drains := [],
        closing := none, discarded := 0, written := 0, faulted := false, cnt := DecCounters.zero }
    okDone h.toNat (dbSlotSize b) { s.issue 4 with dec := { s.dec with sessions := s.dec.sessions ++ [e] } }

/-- The end of a stream (R222): the open picture ends, what the buffer holds is put out, and the next picture decoded must be an IRAP picture. -/
def DecSession.endStream (e : DecSession) (by_ : Option (CmdRef × Nat)) : DecSession :=
  { e.endPicture with waiting := e.endPicture.waiting ++ [.flush by_], waitIrap := true }

/-- DEC_SUBMIT commands of a session that are pending: its drains. -/
def DecSession.pending (e : DecSession) : Nat :=
  e.drains.length + (e.waiting.filter (fun w => match w with | .flush (some _) => true | _ => false)).length

/-- A chunk of a session is parsed (R221, R222, R226), from its first byte to a number of bytes. -/
def State.parseChunk (h : Handle) (a n : Nat) (cut : Bool) (items : List DecItem) (s : State) : State :=
  let t := s.mapDec h (fun e => DecSession.chunk s.mem.mem s.dec.arrivals n a 0 items (if cut || e.discont then { e with discont := false }.cut else e))
  { t with dec := { t.dec with arrivals := t.dec.arrivals + 1 } }.reads .decoder (.decoder 0) noCam a n

/-- The bytes of a chunk that a session has taken when a reset of its queue stops the command: up to the end of a NAL unit, which one is free (R223, log
13). -/
def State.stopsAt (s : State) (a n : Nat) : Nat :=
  let ends := nalEnds (s.readMem a n)
  (ends[Config.freeNat s.fresh % ends.length]?).getD n

/-- DEC_SUBMIT (R221 to R223, R226, R227, R234). A reset of its queue stops it at the end of a NAL unit. -/
def execDecSubmit (c : Cmd) (items : List DecItem) (s : State) : Host.Outcome State Fault Refusal :=
  runCmd .decSubmit c s do
    let e ← needDec s c.handle
    let op := bitsOf (par c 0) 1 0
    needPar0 (Nat.blt op 3 && (op == 0 || par c 0 < 4))
    need (op == 1 || par c 1 == 0) (badParam 1)
    need (op == 0 || c.aux == 0) (badPacket 0x0C)
    if op = 0 then need (c.ptrSpace == 1) (badPacket 0x1C)
    else match firstBad (ptrFields .none c) with
      | some o => .error (badPacket o)
      | none => .ok ()
    need (!e.faulted) (notReady 0x71)
    need e.closing.isNone (notReady 0x74)
    let r := ref .decSubmit c
    if op = 1 then
      let inUse (r : Ring) : Nat := (r.slots.filter RingSlot.used).length
      let ring := e.ring.release 0 (fun q => q.fn % 2 ^ 32 ≤ par c 1)
      okDone (inUse e.ring - inUse ring) 0 (s.mapDec e.handle (fun x => { x with ring := ring }))
    else if op = 2 then do
      if s.stopping r then
        return .done .aborted 0 0 s
      need (Nat.blt e.pending 64) (notReady 0x72)
      let t := s.mapDec e.handle (fun x => x.endStream (some (r, x.written)))
      .ok (.waits ((t.keepInFlight r).decAdvance e.handle))
    else do
      let y ← needBuffer s c.aux 1
      needRange s c.ptr.toNat c.ptrLen.toNat (some (y.base, y.size))
      let n := c.ptrLen.toNat
      if s.stopping r then
        let k := s.stopsAt c.ptr.toNat n
        let t := (s.tickFresh.parseChunk e.handle c.ptr.toNat k (bitOf (par c 0) 8) items).mapDec e.handle (fun x => { x with discont := true })
        return .done .aborted k 0 (t.decAdvance e.handle)
      let t := s.parseChunk e.handle c.ptr.toNat n (bitOf (par c 0) 8) items
      let begun := ((t.decSession e.handle).map (fun x => x.begun - e.begun)).getD 0
      let t := if bitOf (par c 0) 9 then t.mapDec e.handle (fun x => x.endStream none) else t
      okDone n begun (t.decAdvance e.handle)

/-- DEC_SESSION_CLOSE (R237). -/
def execDecSessionClose (c : Cmd) (s : State) : Host.Outcome State Fault Refusal :=
  runCmd .decSessionClose c s do
    let e ← needDec s c.handle
    match s.layerOn e.handle with
    | some l => .error (conflict l 0x700)
    | none =>
    need e.closing.isNone (notReady 0x74)
    need (e.pending == 0) (notReady 0x73)
    let r := ref .decSessionClose c
    let discard := bitOf (par c 0) 0 || e.faulted
    let close (x : DecSession) : DecSession :=
      if !discard then { x.endStream none with closing := some (some r) }
      else if e.faulted then { x.dropAll with closing := some (some r) }
      else { x.dropAll with closing := some (some r), curs := x.curs, discarded := x.discarded + x.holds - x.curs.length }
    .ok (.waits (((s.mapDec e.handle close).keepInFlight r).decAdvance e.handle))

/-! ## Cores -/

/-- Whether a core decodes a picture. -/
def State.decBusy (s : State) (core : Nat) : Bool := s.dec.sessions.any (fun e => e.curs.any (fun q => q.core == some core))

/-- The deadline of a picture of a paced session (R224): it is not output yet, so the presentation time of the next picture to be output, which may be the
picture itself. -/
def DecSession.deadline (e : DecSession) (ns : Nat) (poc : Int) (seqNo : Nat) : Nat :=
  match e.outs.head? with
  | some o => o.pts
  | none =>
    let held := (e.pool.filter DecHeld.needed).map (fun q => (q.seqNo, q.poc, q.decodedAt))
    let busy := (e.curs.filter (fun q => q.info.output)).map (fun q => (q.seqNo, q.info.poc, ns))
    match minBy (fun x => ((x.1 * 2 ^ 33 : Nat) + x.2.1 + 2 ^ 32 : Int).toNat) (held ++ busy ++ [(seqNo, poc, ns)]) with
    | some x => e.ptsOf x.2.1 x.1 x.2.2
    | none => 0

/-- The next picture of a session that a core could take: its order among the others. Paced sessions go by picture deadline, unpaced ones
after them by arrival (R224). -/
def DecSession.ready (e : DecSession) (ns : Nat) : Option Nat :=
  let key (poc : Int) (seqNo n : Nat) : Nat := if dbPaced e.blk then e.deadline ns poc seqNo else 2 ^ 96 + n
  if e.faulted then none
  else match e.curs.find? (fun q => q.core.isNone && q.ended.isNone), e.waiting.head? with
  | some q, _ => some (key q.info.poc q.seqNo 0)
  | none, some (.pic p n true) =>
    if (!dbPaced e.blk && !e.outs.isEmpty && e.ringHeld) || (e.takes p).isNone then none else some (key p.poc (e.seqOf p) n)
  | none, _ => none

/-- The session that a free core serves; ties go to the lower handle (R224). -/
def State.decPick (s : State) : Option DecSession :=
  (minBy (fun x => x.1 * 2 ^ 32 + x.2.handle.toNat) (s.dec.sessions.filterMap (fun e => (e.ready s.ns).map (fun k => (k, e))))).map (·.2)

/-- Writes a mid-grey surface (R230). -/
def State.writeGrey (e : DecSession) (p : DecPicInfo) (slot : Nat) (s : State) : State :=
  s.writeKcs (e.surface p) (e.slotAddr slot) (fun _ _ _ => 2 ^ (p.depth - 1))

/-- The marks of a picture from its references (R229, R232): CONCEALED, TAINTED, SUBSTITUTED and GREY. -/
def DecSession.refFlags (e : DecSession) (p : DecPicInfo) (used : List DecHeld) : Nat :=
  let subst := p.needs.any (fun n => e.alias_.any (fun x => x.1 == n))
  let grey := used.any (fun q => 2 ^ 32 ≤ q.decSeq)
  let taint := used.any (fun q => bitOf q.flags 0 || bitOf q.flags 1)
  bit01 subst + 2 * bit01 taint + 4 * bit01 subst + 8 * bit01 grey

/-- DEC_PICTURE_START (R224, R229, R231, R232): a free core takes a picture. A marked session state halts its session. -/
def execDecPictureStart (core : Fin 2) (s : State) : Host.Outcome State Fault Refusal :=
  if (s.mgmt.units.unitOf .decU core.val).isNone || s.decBusy core.val then .next s
  else match s.decPick with
    | none => .next s
    | some e =>
      let free (q : DecCur) : Bool := q.core.isNone && q.ended.isNone
      if e.curs.any free then
        .next (s.mapDec e.handle (fun x => { x with curs := updWhere free (fun q => { q with core := some core.val }) x.curs }))
      else match e.waiting.head? with
      | some (.pic p _ _) =>
        if (s.mem.mem.poisonIn (e.base + f32 e.blk 0x1C) 4096).isSome then .next (s.decHalt e)
        else match e.takes p with
          | none => .next s
          | some x =>
            let y := x.1
            let q : DecCur := { info := p, decSeq := y.decSeq, seqNo := e.seqOf p, slot := x.2.2.1, core := some core.val, flags := y.refFlags p x.2.1,
                                refs := x.2.1.map DecHeld.poc, ended := none }
            let z := { y with waiting := y.waiting.drop 1, decSeq := y.decSeq + 1, curs := y.curs ++ [q] }
            let t := s.mapDec e.handle (fun _ => z)
            let t := x.2.2.2.foldl (fun (u : State) (i : Nat) => u.writeGrey z p i) t
            .next (t.requests (x.2.1.map (fun r => t.access .decoder (.decoder core.val) noCam (z.slotAddr r.slot) (z.surface r.info).bound false)))
      | _ => .next s

/-- Whether a core's report leaves every CTU of a picture lost (R227). -/
def reportAllLost (r : DecReport) (p : DecPicInfo) : Bool :=
  (List.range (ceilDiv p.width p.ctu)).all (fun x => (List.range (ceilDiv p.height p.ctu)).all (fun y => r.lost.any (fun u => u.x == x && u.y == y)))

/-- A core ends its picture (R227, R228, R231, R233, R236): references of which it read a marked line leave the pool; the reconstruction with its concealment
enters the pool in decoding order, and the pictures that the buffer then gives up join the output queue. A picture of which nothing was decoded is lost. -/
def State.decEnd (e : DecSession) (q : DecCur) (r : DecReport) (s : State) : State :=
  let p := q.info
  let m := s.mem.mem
  let bad := e.pool.filter (fun x => q.refs.contains x.poc && x.seqNo == q.seqNo && r.hit.contains x.poc
    && (m.poisonIn (e.slotAddr x.slot) (e.surface x.info).bound).isSome)
  let e1 := e.lose bad
  let into (x : DecSession) (h : Option DecHeld) : DecSession :=
    let y := { x with curs := updWhere (fun z => z.decSeq == q.decSeq) (fun z => { z with core := none, ended := some h }) x.curs }
    DecSession.settle y.curs.length y
  if reportAllLost r p then s.mapDec e.handle (fun _ => into e1.losePicture none)
  else
    let src := if r.lost.isEmpty then (e1, none) else DecSession.source m q.seqNo p.poc e1.pool.length e1
    let e2 := src.1
    let lost := r.lost.length
    let mismatch := dbHash e.blk && (match r.hash with | some ok => !ok || lost != 0 | none => false)
    let absent := dbHash e.blk && r.hash.isNone
    let flags := Nat.lor q.flags (bit01 (lost != 0) + 8 * bit01 (lost != 0 && src.2.isNone) + 16 * bit01 mismatch + 32 * bit01 absent)
    let t := (s.writeKcs (e.surface p) (e.slotAddr q.slot) (e.concealed m p q.decSeq r src.2)).writes .decoder (.decoder (q.core.getD 0)) noCam
      (e.slotAddr q.slot) (e.surface p).bound
    let gone := e.closing.isSome && e.waiting.isEmpty
    let new : DecHeld :=
      { poc := p.poc, seqNo := q.seqNo, slot := q.slot, info := p, decSeq := q.decSeq, flags := flags, ctus := lost,
        needed := p.output && !gone, usedRef := true, latency := 0, decodedAt := s.ns }
    let e3 := { e2 with
      discarded := e2.discarded + bit01 (gone && p.output),
      cnt := { e2.cnt with concealed := satAdd e2.cnt.concealed lost, hash := if mismatch then e2.cnt.hash.satInc else e2.cnt.hash } }
    t.mapDec e.handle (fun _ => into e3 (some new))

/-- DEC_PICTURE_OUTPUT (R233 to R235): where a core has decoded the picture that it holds, the picture enters the buffer; then the next picture due for
output is written into the next slot of the ring, when that is free. -/
def execDecPictureOutput (h : Handle) (done : Option (Fin 2 × DecReport)) (s : State) : Host.Outcome State Fault Refusal :=
  let t := match done, s.decSession h with
    | some (core, r), some e =>
      match e.curs.find? (fun (q : DecCur) => q.core == some core.val) with
      | some q => (s.decEnd e q r).decAdvance h
      | none => s
    | _, _ => s
  match t.decSession h with
  | none => .next t
  | some e =>
    match e.outs.head? with
    | none => .next t
    | some o => if e.ringHeld || e.faulted then .next t else .next ((t.putDecOut e o).decAdvance h)

/-- DEC_OUTPUT_SKIP (R234): a paced session's next slot is still held one PERIOD after the presentation time. In a session that closes the picture waits for
its slot as R237 says. -/
def execDecOutputSkip (h : Handle) (s : State) : Host.Outcome State Fault Refusal :=
  match s.decSession h with
  | none => .next s
  | some e =>
    match e.outs.head? with
    | none => .next s
    | some o =>
      if !dbPaced e.blk || !e.ringHeld || e.closing.isSome || e.faulted || s.ns < o.pts + dbPeriod e.blk then .next s
      else .next ((s.mapDec h (fun x => { x with outs := x.outs.drop 1, cnt := { x.cnt with skips := x.cnt.skips.satInc } })).decAdvance h)

/-- DEC_CLOSE_SLOT_TIMEOUT (R237): a picture of a session that closes has waited 1 s for a slot. -/
def execDecCloseSlotTimeout (h : Handle) (s : State) : Host.Outcome State Fault Refusal :=
  match s.decSession h with
  | none => .next s
  | some e =>
    if e.closing.isNone || e.outs.isEmpty || !e.ringHeld || s.ns < ((e.headSince.map (·.2)).getD 0) + 1000000000 then .next s
    else .next ((s.mapDec h (fun x => { x with outs := x.outs.drop 1, discarded := x.discarded + 1 })).decAdvance h)

/-- DEC_CORE_FAULT (R225): a core fails. It is held in reset and retired, and its picture restarts on the other core when that is in service and free, or waits for
it. Decoder cores have no spare and no epoch. -/
def execDecCoreFault (core : Fin 2) (s : State) : Host.Outcome State Fault Refusal :=
  match s.mgmt.units.unitOf .decU core.val with
  | none => .next s
  | some _ =>
    let other := 1 - core.val
    let t := s.retireUnit .decU core.val
    let next : Option Nat := if (t.mgmt.units.unitOf .decU other).isSome && !s.decBusy other then some other else none
    let move (q : DecCur) : DecCur := if q.core = some core.val then { q with core := next } else q
    let all := t.dec.sessions.map (fun (e : DecSession) => { e with curs := e.curs.map move })
    .next { t with dec := { t.dec with sessions := all } }

end Sys2Proof.Machine
end

