-- ==== Sys2Proof/Machine/DispCmds.lean ====
section
/-!
DEFINITION. The display commands (Table 10-1, R265 to R293).
-/
namespace Sys2Proof.Machine

/-! ## DISP_SET_TIMING -/

/-- The fields of a timing block by offset (Table 10-4, R266). -/
def timingFields (b : List Byte) : List (Nat × Bool) :=
  let ptp := tbPtp b
  [(0x00, 64 ≤ tbW b && tbW b ≤ 8192 && tbW b % 2 == 0), (0x02, 4 ≤ f16 b 2), (0x04, 8 ≤ f16 b 4), (0x06, 4 ≤ f16 b 6),
   (0x08, 64 ≤ tbH b && tbH b ≤ 8192), (0x0A, 1 ≤ f16 b 0xA), (0x0C, 1 ≤ f16 b 0xC), (0x0E, 1 ≤ f16 b 0xE && 8 ≤ f16 b 0xA + f16 b 0xC + f16 b 0xE),
   (0x11, if tbWire b < 2 then tbEnc b == 0 else tbEnc b == 1 || tbEnc b == 2), (0x12, 12 ≤ tbLane b && tbLane b ≤ 23),
   (0x14, if ptp then tbKhz b == 0 else 25000 ≤ tbKhz b && tbKhz b ≤ 2400000
      && decide (((tbW b * tbH b : Nat) : Rat) * tbFrameRate b ≤ 2000000000)),
   (0x18, if ptp then 4000000 ≤ tbPeriod b && tbPeriod b ≤ 1000000000 && decide (tbRate b ≤ 2400000000)
      && decide (((tbW b * tbH b : Nat) : Rat) * tbFrameRate b ≤ 2000000000) else tbPeriod b == 0),
   (0x1C, if ptp then Nat.blt (tbPhase b) (tbPeriod b) else tbPhase b == 0)]

/-- The holder of an egress lane: another head, or an egress stream (R266, R363). -/
def State.laneHolder (s : State) (lane : Nat) (own : Option Nat) : Option Handle :=
  match (List.range 4).findSome? (fun i =>
      if some i = own then none
      else (s.head i).bind (fun h => if tbLane h.blk = lane ∨ (h.next.map tbLane) = some lane then some h.handle else none)) with
  | some h => some h
  | none => (s.lanes.streams.find? (fun x => x.chan == lane)).map Stream.handle

/-- The time in ns before which no frame starts when a raster is to start with a timing: at once, or at the next grid point (R267, R290). -/
def startHold (b : List Byte) (ns : Nat) : Nat := if tbPtp b then alignUp ns (tbPeriod b) (tbPhase b) else ns

/-- A head just claimed: its counters are zero and its frame count starts at 0 (R281, R294). -/
def DispHead.fresh (h : Handle) (b : List Byte) : DispHead :=
  { handle := h, blk := b, next := none, modeRefs := [], run := .off, hold := none, stops := [], blankLeft := 0, blankNow := false, count := 0, start := 0, div := tbDiv b,
    locked := false, lockRun := 0, attr := AttrSet.reset, attrNext := AttrSet.reset, armed := [], flipCount := 0, flipStamp := 0, banks := Vector.replicate 16 [], line := 0,
    aborted := false, cseq := 0, ctrlSeq := 0, rectNext := Vector.replicate 16 CrcRect.off, rects := Vector.replicate 16 CrcRect.off, crc := Vector.replicate 16 CrcState.zero,
    crcFrame := 0, wb := Ring.absent, wbSlot := none, wbLines := 0, wbTrunc := false, prevLine := [], repeated := 0, concealed := 0, live := 0, late := 0,
    cloneOf := none, cloneNext := none, cloneRef := none, cnt := HeadCounters.zero }

/-- The head of a command's HANDLE. -/
def needHead (s : State) (c : Cmd) : Chk (Nat × DispHead) := do
  let i ← needSome (s.disp.headOf c.handle) (badHandle c.handle 0)
  let h ← needSome (s.head i) (badHandle c.handle 0)
  return (i, h)

/-- Whether a head is a clone target, or is to become one (R292). -/
def DispHead.cloning (h : DispHead) : Bool :=
  match h.cloneNext with
  | some (_, src) => src.isSome
  | none => h.cloneOf.isSome

/-- OP 0 (R265, R266, R290): claims a head, starts its raster or changes its mode; the mode change happens at frame starts. -/
def dispTiming (c : Cmd) (s : State) : Chk Done := do
  let b ← structFor s c (.read 64)
  let old ← (if c.handle = 0 then .ok none else (needHead s c).map some : Chk (Option (Nat × DispHead)))
  let i := match old with | some x => x.1 | none => bitsOf (par c 0) 9 8
  need (c.handle == 0 || par c 0 < 8) (badParam 0)
  let egress : Bool := isChannel (tbLane b) && (s.lanes.quad (tbLane b / 4)).role == .egress
  needFields ((timingFields b).map (fun f => if f.1 = 0x12 then (f.1, f.2 && egress) else f))
  let holder : Option Handle := if c.handle = 0 then (s.head i).map DispHead.handle else none
  match holder with
  | some h => .error (conflict h (0x920 + i))
  | none => do
    need (!((old.map (fun x => x.2.cloning)).getD false)) (notReady 0x91)
    match s.laneHolder (tbLane b) (some i) with
    | some h => .error (conflict h (0x930 + tbLane b))
    | none =>
      let r := ref .dispSetTiming c
      let h := match old with | some x => x.2 | none => DispHead.fresh (s.nextHandle 6) b
      let claim := old.isNone
      let base : DispHead := { h with next := some b, modeRefs := h.modeRefs ++ [(r, claim)] }
      let new : DispHead := match h.run with
        | .off => { base with run := .waiting, hold := some (startHold b s.ns) }
        | .waiting => { base with hold := some (startHold b s.ns) }
        | .running => if h.hold.isSome && h.next.isSome then { base with hold := some (startHold b s.ns) } else base
      let t := if claim then s.issue 6 else s
      waitDone .dispSetTiming c (t.mapDisp (fun d => { d with heads := vmod d.heads i (fun _ => some new) }))

/-- The fields of an attribute block by offset (Table 10-15). -/
def attrFields (b : List Byte) : List (Nat × Bool) :=
  let on := abEn b
  [(0x07, !on || ([0, 4, 5].contains (abFormat b) && (if abFormat b = 5 then abDepth b ≤ 1 else abDepth b ≤ 2))),
   (0x08, !on || (2 ≤ abSlots b && abSlots b ≤ 16)), (0x09, !on || 1 ≤ abEvery b),
   (0x0A, !on || (match abFormat b with | 0 => abEnc b == 1 || abEnc b == 2 | 5 => abEnc b == 0 | _ => abEnc b ≤ 2))]

/-- The planes of a writeback slot for a timing (R155, R291). -/
def wbPlanes (t b : List Byte) : List (Nat × Nat × Nat) := outPlanes (tbW t) (tbH t) (b.drop 7)
/-- The size of a writeback slot. -/
def wbSlotSize (t b : List Byte) : Nat := let qs := wbPlanes t b; planeOffset qs qs.length

/-- OP 1 (R279, R291): stages the head's attributes. -/
def dispAttributes (c : Cmd) (s : State) : Chk Done := do
  let b ← structFor s c (.read 32)
  let x ← needHead s c
  needFields (attrFields b)
  if abEn b then do
    let y ← needBuffer s c.aux 1
    let n := abSlots b * wbSlotSize (x.2.next.getD x.2.blk) b
    need (n ≤ y.size) (badStruct 0x08)
    needRing s x.2.handle (0x950 + x.1) y.base n
    okDone 0 0 (s.mapHead x.1 (fun h => { h with attrNext := { blk := b, buf := c.aux, base := y.base, len := y.size } }))
  else do
    need (c.aux == 0) (badPacket 0x0C)
    okDone 0 0 (s.mapHead x.1 (fun h => { h with attrNext := { blk := b, buf := 0, base := 0, len := 0 } }))

/-- A head stops (R290): it becomes OFF and keeps its handle and layers. Commands that wait for its raster end with NOT_READY (log 43). -/
def State.stopHead (i : Nat) (s : State) : State :=
  match s.head i with
  | none => s
  | some h =>
    let t := s.mapHead i (fun x => { x with
      run := .off, hold := none, next := none, modeRefs := [], stops := [], blankLeft := 0, blankNow := false, locked := false, lockRun := 0,
      line := tbH x.blk, wb := x.wb.abandon x.wbSlot, wbSlot := none, cloneOf := none, cloneNext := none, cloneRef := none })
    let t := h.stops.foldl (fun (u : State) (r : CmdRef) => u.finish r .ok 0 0 false) t
    let gone := h.modeRefs.map (·.1) ++ (h.cloneNext.map (·.1)).toList ++ h.cloneRef.toList
    let t := gone.foldl (fun (u : State) (r : CmdRef) => u.finish r .notReady 0x90 0 false) t
    let done := t.disp.loads.filter (fun l => l.heads.all (· == i))
    let t := t.mapDisp (fun d => { d with loads := (d.loads.filter (fun l => !(l.heads.all (· == i)))).map (fun l => { l with heads := l.heads.filter (· != i) }) })
    done.foldl (fun (u : State) (l : BankLoad) => u.finish l.by_ .ok 0 0 false) t

/-- A head with clone targets neither stops nor is released (R290). -/
def needNoClones (s : State) (i : Nat) : Chk Unit :=
  match (s.cloneTargets i).head? with
  | none => .ok ()
  | some t => .error (conflict (((s.head t).map DispHead.handle).getD 0) (0x920 + i))

/-- OP 2 (R290): the head stops at the end of its current frame; one that has not begun stops at once. -/
def dispStop (c : Cmd) (s : State) : Chk Done := do
  let _ ← structFor s c .none
  let x ← needHead s c
  needNoClones s x.1
  need (x.2.run != .off) (notReady 0x90)
  let r := ref .dispSetTiming c
  let t := (s.keepInFlight r).mapHead x.1 (fun h => { h with stops := h.stops ++ [r] })
  .ok (.waits (if x.2.run = .waiting then t.stopHead x.1 else t))

/-- OP 3 (R290): releases an OFF head without layers. -/
def dispRelease (c : Cmd) (s : State) : Chk Done := do
  let _ ← structFor s c .none
  let x ← needHead s c
  needNoClones s x.1
  need (x.2.run == .off) (badParam 0)
  need (s.layersOf x.1).isEmpty (notReady 0x92)
  let t := x.2.armed.foldl (fun (u : State) (a : ArmedSet) => u.finish a.by_ .notReady 0x90 0 false) s
  okDone 0 0 (t.mapDisp (fun d => { d with heads := vmod d.heads x.1 (fun _ => none) }))

/-- OP 4 (R291): the host releases writeback slots up to a frame count. -/
def dispWbRelease (c : Cmd) (s : State) : Chk Done := do
  let _ ← structFor s c .none
  let x ← needHead s c
  let ring := x.2.wb.release 0 (fun q => decide (sext 32 (2 ^ 32 + q.fn % 2 ^ 32 - par c 1) ≤ 0))
  okDone (x.2.wb.inUse - ring.inUse) 0 (s.mapHead x.1 (fun h => { h with wb := ring }))

/-- DISP_SET_TIMING (R265 to R267, R290, R291). -/
def execDispSetTiming (c : Cmd) (s : State) : Host.Outcome State Fault Refusal :=
  let op := par c 0 % 8
  runCmd .dispSetTiming c s (do
    need (op == 0 || par c 0 < 8) (badParam 0)
    need (op == 4 || par c 1 == 0) (badParam 1)
    need (op == 1 || c.aux == 0) (badPacket 0x0C)
    match op with
    | 0 => dispTiming c s
    | 1 => dispAttributes c s
    | 2 => dispStop c s
    | 3 => dispRelease c s
    | 4 => dispWbRelease c s
    | _ => .error (badParam 0))

/-! ## DISP_LAYER_SET -/

/-- Whether a ratio lies between 1/16 and 8 (R272). -/
def ratioOk (src dst : Nat) : Bool := dst != 0 && dst ≤ 16 * src && src ≤ 8 * dst

/-- The fields of a layer block by offset (Table 10-6, R269, R272). -/
def layerFields (b : List Byte) : List (Nat × Bool) :=
  let k := lbKind b
  let surf := k == 1 || k == 4
  [(0x00, k ≤ 5 && (!lbLive b || k == 2) && lbAlpha b ≤ 2),
   (0x01, match k with | 2 => lbIndex b ≤ 2 | 4 => lbIndex b ≤ 7 | _ => lbIndex b == 0),
   (0x08, !surf || ((lbFormat b ≤ 5 || lbFormat b == 7) && (if lbFormat b = 5 then lbDepth b ≤ 1 && !lbKcs b else lbDepth b ≤ 2))),
   (0x09, !surf || lbEnc b ≤ 2), (0x0C, k != 1 || f32 b 0xC % 64 == 0),
   (0x10, !surf || f32 b 0x10 % 64 == 0), (0x14, !surf || f32 b 0x14 % 64 == 0), (0x18, !surf || f32 b 0x18 % 64 == 0), (0x1C, !surf || f32 b 0x1C % 64 == 0),
   (0x24, k == 0 || 8 ≤ lbSw b), (0x26, k == 0 || 8 ≤ lbSh b),
   (0x2C, k == 0 || (ratioOk (lbSw b) (lbDw b) && 6 * groupOf (lbSh b) (lbDh b) * lbDw b ≤ 184320)), (0x2E, k == 0 || ratioOk (lbSh b) (lbDh b))]

/-- The planes of a committed or direct surface down to SRC_Y + SRC_H, as offset and bytes (R269). -/
def blkExtents (b : List Byte) : List (Nat × Nat) :=
  let w := lbSx b + lbSw b
  let h := lbSy b + lbSh b
  (outPlanes w h (b.drop 8)).zipIdx.map (fun q =>
    let stride := if q.2 = 0 then f32 b 0x10 else f32 b 0x14
    let off := match q.2 with | 0 => 0 | 1 => f32 b 0x18 | _ => f32 b 0x1C
    (off, (q.1.2.1 - 1) * stride + Nat.max stride (q.1.1 * q.1.2.2)))

/-- The check that the surface of a block at an address lies inside its buffer: its planes, or the header and blocks of a KCS surface. -/
def needSurface (s : State) (b : List Byte) (y : Buffer) (a : Nat) : Chk Unit :=
  let obj := some (y.base, y.size)
  if lbKcs b then do
    needRange s a 64 obj
    let hd := s.readMem a 64
    if kcsValid hd then needRange s a (kcsOf hd).bound obj else .ok ()
  else (blkExtents b).foldlM (fun (_ : Unit) q => needRange s (a + q.1) q.2 obj) ()

/-- The source of a layer block (R269, R270): its handle, its readiness, and where its surface lies. own is the layer's own head. -/
def needLayerSource (s : State) (b : List Byte) (own : Nat) : Chk Unit :=
  match lbKind b with
  | 1 => do
    let y ← needBuffer s (lbSrc b) 2
    needSurface s b y (y.base + f32 b 0xC)
  | 2 => do
    let cam ← needSome (s.cams.find (lbSrc b)) (badHandle (lbSrc b) 2)
    match vget (s.cam cam).next.outs none (lbIndex b) with
    | none => .error (notReady 0x94)
    | some o => do
      need (3 ≤ o.slots) (badStruct 0x01)
      need (obFormat o.blk != 6) (notReady 0x94)
  | 3 => do
    need (s.dec.sessions.any (fun e => e.handle == lbSrc b)) (badHandle (lbSrc b) 2)
    need (s.srcReady { kind := 3, handle := lbSrc b, index := 0 }) (notReady 0x94)
  | 4 => do
    let y ← needBuffer s (lbSrc b) 2
    needSurface s b y y.base
  | 5 => do
    let i ← needSome (s.disp.headOf (lbSrc b)) (badHandle (lbSrc b) 2)
    need (i != own) (badStruct 0x04)
    need (s.srcReady { kind := 5, handle := lbSrc b, index := 0 }) (notReady 0x94)
  | _ => .ok ()

/-- DISP_LAYER_SET (R265, R269, R270): creates a layer or stages the whole block of one. -/
def execDispLayerSet (c : Cmd) (s : State) : Host.Outcome State Fault Refusal :=
  runCmd .dispLayerSet c s do
    let b ← structBytes s c
    let old : Option DispLayer := if c.handle = 0 then none else s.layer c.handle
    need (c.handle == 0 || old.isSome) (badHandle c.handle 0)
    need (c.handle == 0 || c.aux == 0) (badPacket 0x0C)
    need (c.handle == 0 || par c 0 == 0) (badParam 0)
    let i ← (match old with
      | some l => .ok l.head
      | none => needSome (s.disp.headOf c.aux) (badHandle c.aux 1) : Chk Nat)
    let h ← needSome (s.head i) (badHandle c.aux 1)
    needFields (layerFields b)
    need (!h.cloning) (notReady 0x91)
    let pipe := par c 0 % 32
    match (if c.handle = 0 then s.disp.layers.find? (fun l => l.pipe == pipe) else none) with
    | some l => .error (conflict l.handle (0x900 + pipe))
    | none => do
      needLayerSource s b i
      let lh := if c.handle = 0 then s.nextHandle 7 else c.handle
      let t := if c.handle = 0 then
          (s.issue 7).mapDisp (fun d => { d with layers := d.layers ++ [
            { handle := lh, head := i, pipe := pipe, next := some b, blk := none, binds := [], shown := none, prev := none, segs := [], fetched := 0, live := false,
              offPath := false, lateNow := false, lateRun := 0, goodRun := 0, fresh := true, hidden := false }] })
        else s.mapLayer lh (fun l => { l with next := some b })
      okDone lh.toNat 0 (match lbBind b with
        | some r => t.bindLayer lh r
        | none => t)

/-! ## DISP_COMMIT -/

/-- The read rate of a layer's pipe in samples per second (R271). -/
def pipeRate (t b : List Byte) : Rat := ((lbSw b * lbSh b : Nat) : Rat) * tbFrameRate t

/-- The frame count of the next frame start and its time in 2^-16 ns (R279). -/
def DispHead.nextAt (h : DispHead) : Nat × Nat :=
  let due := match h.hold with
    | some n => n * 65536
    | none =>
      let e := h.start + tbSpan h.blk h.div
      match h.next with
      | some b => if tbPtp b then startHold b (e / 65536) * 65536 else e
      | none => e
  (h.count, due)

/-- The earliest achievable frame: the first whose start is at least 100 µs ahead (R279). -/
def DispHead.earliest (h : DispHead) (stamp : Nat) : Nat :=
  let n := h.nextAt
  let b := h.next.getD h.blk
  let soon := stamp + 100000 * 65536
  if soon ≤ n.2 then n.1 else n.1 + ceilDiv (soon - n.2) (Nat.max 1 (tbSpan b (if h.next.isSome then tbDiv b else h.div)))

/-- DISP_COMMIT (R279, R280): arms the staged set for a target frame. -/
def execDispCommit (c : Cmd) (s : State) : Host.Outcome State Fault Refusal :=
  runCmd .dispCommit c s do
    let x ← needHead s c
    let h := x.2
    need (h.run != .off) (notReady 0x90)
    need (Nat.blt h.armed.length 4) (notReady 0x93)
    let nxt := bitOf (par c 1) 0
    let ahead := sext 32 (2 ^ 32 + par c 0 - h.count % 2 ^ 32)
    need (nxt || ahead + 1 ≤ 64) (badParam 0)
    let set := (s.layersOf x.1).filterMap (fun l => l.next.map (fun b => (l.handle, b)))
    let t := h.next.getD h.blk
    match set.find? (fun l => lbVisible l.2 && !lbDelete l.2 && lbKind l.2 != 0 && decide (2400000000 < pipeRate t l.2)) with
    | some l => .error (overBudget (pipeRate t l.2 / 1000000).ceil.toNat 2400)
    | none => do
      need (set.all (fun l => lbDelete l.2 || ((lbBind l.2).map s.srcReady).getD true)) (notReady 0x94)
      let first := h.earliest s.time.stamp
      let want : Int := (h.count : Int) + ahead
      let late : Bool := !nxt && decide (want < (first : Int))
      need (!(late && strict c)) (tooLate (first % 2 ^ 32))
      let target := if nxt || late then first else want.toNat
      waitDone .dispCommit c (s.mapHead x.1 (fun y => { y with
        armed := y.armed ++ [{ target := target, by_ := ref .dispCommit c, late := late, attr := y.attrNext, layers := set }] }))

/-! ## The other commands -/

/-- The first phase of a bank whose coefficients do not sum to 8,192, by offset (R274). -/
def badPhase (b : List Byte) : Option Nat :=
  let sum (off n : Nat) : Int := ((List.range n).map (fun j => fs16 b (off + 2 * j))).foldl (· + ·) 0
  firstBad ((List.range 64).map (fun p => (16 * p, sum (16 * p) 8 == 8192)) ++ (List.range 64).map (fun p => (1024 + 12 * p, sum (1024 + 12 * p) 6 == 8192)))

/-- The running heads that use a bank. -/
def State.bankUsers (s : State) (k : Nat) : List Nat :=
  (List.range 4).filter (fun i => ((s.head i).map (fun h => h.run != .off)).getD false
    && (s.layersOf i).any (fun l => (l.blk.map (fun b => lbHbank b == k || lbVbank b == k)).getD false))

/-- DISP_LOAD_COEF (R274): stages a bank's content; every head latches it at its next frame start. -/
def execDispLoadCoef (c : Cmd) (s : State) : Host.Outcome State Fault Refusal :=
  runCmd .dispLoadCoef c s do
    let k := par c 0
    need (c.ptrSpace == 1) (badPacket 0x1C)
    needPar0 (k != 0)
    let b ← structBytes s c
    match badPhase b with
    | some off => .error (badStruct off)
    | none =>
      let t := s.mapDisp (fun d => { d with banks := vmod d.banks k (fun _ => b) })
      let users := s.bankUsers k
      if users.isEmpty then okDone 0 0 t
      else waitDone .dispLoadCoef c (t.mapDisp (fun d => { d with loads := d.loads ++ [{ by_ := ref .dispLoadCoef c, heads := users }] }))

/-- DISP_CRC_SET (R293): the rectangle latches at the next frame start. -/
def execDispCrcSet (c : Cmd) (s : State) : Host.Outcome State Fault Refusal :=
  runCmd .dispCrcSet c s do
    let x ← needHead s c
    let r : CrcRect := { en := bitOf (par c 0) 8, check := bitOf (par c 0) 9, x := par c 1 % 65536, y := par c 1 / 65536, w := par c 2 % 65536, h := par c 2 / 65536,
                         expect := par c 3 }
    let w := tbW x.2.blk
    let ht := tbH x.2.blk
    need (!r.en || (r.x < w && r.y < ht)) (badParam 1)
    need (!r.en || (1 ≤ r.w && 1 ≤ r.h && r.x + r.w ≤ w && r.y + r.h ≤ ht)) (badParam 2)
    okDone (x.2.count % 2 ^ 32) 0 (s.mapHead x.1 (fun h => { h with rectNext := vmod h.rectNext (par c 0 % 16) (fun _ => r) }))

/-- DISP_CLONE (R292): the target follows the source from a frame start of the source; without a source the clone ends at the next frame start. -/
def execDispClone (c : Cmd) (s : State) : Host.Outcome State Fault Refusal :=
  runCmd .dispClone c s do
    let x ← needHead s c
    let r := ref .dispClone c
    let arm (src : Option Nat) : Chk Done :=
      let t := match x.2.cloneNext with
        | some (old, _) => s.finish old .notReady 0x91 0 false
        | none => s
      waitDone .dispClone c (t.mapHead x.1 (fun h => { h with cloneNext := some (r, src) }))
    if c.aux = 0 then
      if x.2.cloning then arm none else okDone (x.2.count % 2 ^ 32) 0 s
    else do
      let i ← needSome (s.disp.headOf c.aux) (badHandle c.aux 1)
      let src ← needSome (s.head i) (badHandle c.aux 1)
      need (s.cloneTargets x.1).isEmpty (badPacket 0x08)
      need (i != x.1 && !src.cloning) (badPacket 0x0C)
      need (s.layersOf x.1).isEmpty (notReady 0x92)
      need (src.run != .off) (notReady 0x90)
      arm (some i)

end Sys2Proof.Machine
end

