-- ==== Sys2Proof/Machine/DispHeads.lean ====
section
/-!
DEFINITION. What the display heads do by themselves (chapter 10): frame starts with their latches, the PTP steering and the choice of surfaces; active lines with
their cells, CRCs and writeback; the live-flip registers; and the DISPLAY_MODE cell.
-/
namespace Sys2Proof.Machine

/-! ## Egress (R268) -/

/-- A head sends a cell on its lane's channel: it leaves while the channel is in service. -/
def State.sendHead (i kind : Nat) (payload : List Byte) (s : State) : State :=
  match s.head i with
  | none => s
  | some h =>
    if s.inService (tbLane h.blk) then
      (s.mapChan (tbLane h.blk) (fun x => { x with lseq := x.lseq + 1 })).emitOn (tbLane h.blk) (.egressCell (tbLane h.blk) (0x80 + i) kind payload)
    else s

/-- The DISPLAY_MODE control cell: the timing block in its entries. SEQ counts the head's control cells (log 43). -/
def State.sendMode (i : Nat) (s : State) : State :=
  match s.head i with
  | none => s
  | some h => (s.sendHead i 2 (ctrlPayload 0x30 0 (h.ctrlSeq % 65536) s.ownEpoch i 0 0 h.blk)).mapHead i (fun x => { x with ctrlSeq := x.ctrlSeq + 1 })

/-- The timing cell of a frame start, in the layout of Table 03-8A with the head in place of the context. -/
def State.sendFrameTime (i : Nat) (s : State) : State :=
  match s.head i with
  | none => s
  | some h =>
    let ns := h.start / 65536
    s.sendHead i 3 (layout 240 [(0x00, 1, i), (0x02, 2, (h.count - 1) % 65536), (0x04, 6, secOf ns), (0x0C, 4, nsOf ns), (0x10, 2, h.start % 65536)])

/-- Flags of a pixel cell: SOF, EOF, SOL, EOL, ABORT and BLANK, at their bits (Table 10-5). -/
def cellFlags (sof eof sol eol abort blank : Bool) : Nat :=
  4 * bit01 sof + 8 * bit01 eof + 16 * bit01 sol + 32 * bit01 eol + 64 * bit01 abort + 128 * bit01 blank

/-- One pixel cell of a head: the prefix of Table 10-5 and its data. -/
def State.sendPixels (i flags off : Nat) (data : List Byte) (s : State) : State :=
  match s.head i with
  | none => s
  | some h =>
    let pre := layout 8 [(0, 1, i + flags), (1, 1, (h.count - 1) % 256), (2, 2, h.line), (4, 2, off), (6, 2, h.cseq % 65536)]
    (s.sendHead i 1 (padTo 240 (pre ++ data))).mapHead i (fun x => { x with cseq := x.cseq + 1 })

/-- The cells of a line: each holds up to 232 bytes of it. -/
def State.sendLine (i : Nat) (data : List Byte) (s : State) : State :=
  let n := Nat.max 1 (ceilDiv data.length 232)
  (List.range n).foldl (fun (t : State) (k : Nat) =>
    match t.head i with
    | none => t
    | some h =>
      let last := k + 1 == n
      t.sendPixels i (cellFlags (h.line == 0 && k == 0) (last && h.line + 1 == tbH h.blk) (k == 0) last false false) (232 * k) (slice data (232 * k) 232)) s

/-! ## Writeback (R291) -/

/-- The writeback ring for the attributes and timing in force: the one in place where nothing that shapes it has changed, a new one otherwise, none where the
buffer does not hold it. -/
def DispHead.wbRing (h : DispHead) : Ring :=
  let b := h.attr.blk
  if !abEn b then Ring.absent
  else
    let size := wbSlotSize h.blk b
    let id := 1 + f8 b 7 + 256 * f8 b 0xA
    if h.attr.len < abSlots b * size then Ring.absent
    else if h.wb.id = id ∧ h.wb.base = h.attr.base ∧ h.wb.slotSize = size ∧ h.wb.slots.length = abSlots b then h.wb
    else Ring.fresh id h.attr.base size (abSlots b)

/-- The header of a writeback slot (Table 10-16). -/
def wbHeader (i : Nat) (h : DispHead) : List Byte :=
  let ns := h.start / 65536
  let qs := wbPlanes h.blk h.attr.blk
  layout 64 ([(0x00, 1, i), (0x01, 1, abFormat h.attr.blk), (0x02, 1, qs.length), (0x03, 1, bit01 h.wbTrunc + 2 * bit01 h.aborted), (0x04, 4, h.count - 1),
    (0x08, 4, secOf ns), (0x0C, 4, nsOf ns), (0x10, 2, tbW h.blk), (0x12, 2, tbH h.blk), (0x14, 2, h.wbLines), (0x30, 4, h.repeated), (0x34, 4, h.concealed),
    (0x38, 4, h.live), (0x3C, 4, h.late)]
    ++ qs.zipIdx.flatMap (fun q => [(0x18 + 4 * q.2, 4, planeStride q.1), (0x24 + 4 * q.2, 4, planeOffset qs q.2)]))

/-- The slot being written is complete: its header is written, and readers may take it. -/
def State.wbFinish (i : Nat) (s : State) : State :=
  match s.head i with
  | none => s
  | some h =>
    match h.wbSlot with
    | none => s
    | some n =>
      let t := (s.writeMem (h.wb.base + n * h.wb.slotSize) (wbHeader i h)).mapHead i (fun x => { x with wb := x.wb.complete n, wbSlot := none })
      t.trimSource { kind := 5, handle := h.handle, index := 0 }

/-- A line of the composed raster is written to the slot (R153, R154, R155). -/
def State.wbLine (i y : Nat) (line : List (Nat × Nat × Nat)) (s : State) : State :=
  match s.head i with
  | none => s
  | some h =>
    match h.wbSlot with
    | none => s
    | some n =>
      let ab := h.attr.blk
      let b := encBlk (abFormat ab) (abDepth ab) (abEnc ab) (abFull ab)
      let a := h.wb.base + n * h.wb.slotSize
      let qs := wbPlanes h.blk ab
      let at_ (p row : Nat) : Nat := a + planeOffset qs p + row * planeStride ((qs[p]?).getD (0, 0, 0))
      let w := line.length
      let t := match abFormat ab with
        | 0 =>
          let t := s.writeMem (at_ 0 y) ((List.range w).flatMap (fun x => codeBytes b (lineCode b line 0 x)))
          if y % 2 = 1 ∨ y + 1 = tbH h.blk then
            let two := y % 2 == 1
            let c (k cx : Nat) : Nat :=
              let here := chromaH w (lineCode b line k) (2 * cx)
              if two then (chromaH w (lineCode b h.prevLine k) (2 * cx) + here + 1) / 2 else here
            t.writeMem (at_ 1 (y / 2)) ((List.range (ceilDiv w 2)).flatMap (fun cx => codeBytes b (c 1 cx) ++ codeBytes b (c 2 cx)))
          else t
        | 5 =>
          s.writeMem (at_ 0 y) ((List.range w).flatMap (fun x =>
            let v (k : Nat) : Nat := lineCode b line k x
            if abDepth ab = 0 then leBytes 1 (v 0) ++ leBytes 1 (v 1) ++ leBytes 1 (v 2) ++ [0xFF]
            else leBytes 4 (v 0 + 2 ^ 10 * v 1 + 2 ^ 20 * v 2 + 3 * 2 ^ 30)))
        | _ =>
          (List.range 3).foldl (fun (t : State) (k : Nat) =>
            t.writeMem (at_ k y) ((List.range w).flatMap (fun x => codeBytes b (lineCode b line k x)))) s
      (t.requests (qs.zipIdx.map (fun q => t.access .writeback (.head i) noCam (at_ q.2 y) (planeStride q.1) true))).mapHead i
        (fun x => { x with wbLines := y + 1 })

/-- A frame takes its slot of the writeback ring, or is skipped (R291). -/
def State.wbTake (i : Nat) (s : State) : State :=
  match s.head i with
  | none => s
  | some h =>
    let t := s.mapHead i (fun x => { x with wb := h.wbRing })
    if !abEn h.attr.blk || (h.count - 1) % Nat.max 1 (abEvery h.attr.blk) != 0 then t
    else
      let holders := (s.disp.layers.filter (fun l => l.binds.any (fun r => r.kind == 5 && r.handle == h.handle))).map DispLayer.handle
        ++ (if abHost h.attr.blk then [0] else [])
      let k := h.wbRing.take (h.count - 1) 0 holders
      match k.2 with
      | none => t.countHead i (fun n => { n with wbSkips := n.wbSkips.satInc })
      | some n => t.mapHead i (fun x => { x with wb := k.1, wbSlot := some n, wbLines := 0, wbTrunc := false })

/-! ## The latch (R279, R281) -/

/-- The sources that a layer must stay bound to: those of its staged block, of the block that latches, and of the armed sets that remain. -/
def wantedBinds (l : DispLayer) (b : List Byte) (armed : List ArmedSet) : List SrcRef :=
  (b :: l.next.toList ++ armed.flatMap (fun a => (a.layers.filter (fun x => x.1 == l.handle)).map (·.2))).filterMap lbBind

/-- A layer's block latches: it is removed, or shows the new block from this frame on (R269, R270). -/
def State.latchLayer (armed : List ArmedSet) (x : Handle × List Byte) (s : State) : State :=
  match s.layer x.1 with
  | none => s
  | some l =>
    if lbDelete x.2 then
      let t := l.binds.foldl (fun (u : State) (r : SrcRef) => u.unbindLayer l.handle r) s
      t.mapDisp (fun d => { d with layers := d.layers.filter (fun y => y.handle != l.handle) })
    else
      let same := (l.blk.map (fun b => lbBind b == lbBind x.2 && lbKind b == lbKind x.2)).getD false
      let fresh := !(same && (l.blk.map lbLive) == some (lbLive x.2)) || l.fresh
      let want := wantedBinds l x.2 armed
      let t := (l.binds.filter (fun r => !(want.contains r))).foldl (fun (u : State) (r : SrcRef) => u.unbindLayer l.handle r) s
      t.mapLayer l.handle (fun y => { y with
        blk := some x.2, hidden := false, fresh := fresh, shown := if same then y.shown else none, prev := if same then y.prev else none,
        live := same && !fresh && y.live, offPath := same && !fresh && y.offPath, lateRun := if fresh then 0 else y.lateRun,
        goodRun := if fresh then 0 else y.goodRun })

/-- The armed sets whose targets have come latch, the last one in force; all complete at this frame. -/
def State.latchSets (i : Nat) (s : State) : State :=
  match s.head i with
  | none => s
  | some h =>
    let fc := h.count - 1
    let due := sortBy (fun a => (a.target : Int)) (h.armed.filter (fun a => a.target ≤ fc))
    match due.getLast? with
    | none => s
    | some top =>
      let rest := h.armed.filter (fun a => Nat.blt fc a.target)
      let t := s.mapHead i (fun x => { x with armed := rest, attr := top.attr, flipCount := fc, flipStamp := x.start })
      let t := top.layers.foldl (fun (u : State) (x : Handle × List Byte) => u.latchLayer rest x) t
      due.foldl (fun (u : State) (a : ArmedSet) =>
        u.finish a.by_ (if a.late then .okAdjusted else .ok) (fc % 2 ^ 32) (nsOf (h.start / 65536)) false) t

/-! ## What a layer shows (R284 to R287) -/

/-- A layer's event of the live path. -/
def State.liveEvent (i : Nat) (lh : Handle) (back : Bool) (s : State) : State :=
  if back then s.post .livePathRestored lh
  else (s.countHead i (fun n => { n with fallbacks := n.fallbacks.satInc })).post .livePathFallback lh

/-- A layer's frame is flagged REPEATED. -/
def State.flagRepeated (i : Nat) (l : DispLayer) (s : State) : State :=
  (s.mapHead i (fun h => { h with repeated := Nat.lor h.repeated (2 ^ l.pipe) })).countHead i (fun n => { n with repeated := n.repeated.satInc })

/-- Whether a surface is of a frame that a camera still writes. -/
def State.unfinished (s : State) (r : SrcRef) (f : Surface) : Bool :=
  r.kind == 2 && ((s.srcCam r).map (fun cam => (s.cam cam).run == f.run && ((s.cam cam).frame f.fn).isSome)).getD false

/-- A layer in frame-buffered mode takes the newest complete surface of its source, or repeats its last complete one (R286). -/
def State.chooseBuffered (i : Nat) (l : DispLayer) (r : SrcRef) (s : State) : State :=
  let top := s.newestOf l.handle r (s.ns)
  let open_ := (l.shown.map (s.unfinished r)).getD false
  let take := match top, l.shown with
    | some t, some f => open_ || t.after f
    | some _, none => true
    | none, _ => false
  if take then
    let back := open_ && (match top, l.prev with | some t, some p => t.run == p.run && t.fn == p.fn | _, _ => false)
    let new := s.mapLayer l.handle (fun y => { y with shown := top, prev := if back then none else if open_ then y.prev else y.shown })
    let new := new.trimLayer l.handle r s.ns
    if back then new.flagRepeated i l else new
  else if open_ then (s.mapLayer l.handle (fun y => { y with shown := y.prev, prev := none })).flagRepeated i l
  else if l.shown.isSome then s.flagRepeated i l
  else s

/-- A layer on the live path shows the slot that the newest started frame is written into; without one it repeats the previous slot (R285). -/
def State.chooseLive (i : Nat) (l : DispLayer) (r : SrcRef) (s : State) : State :=
  match s.srcCam r with
  | none => s
  | some cam =>
    let c := s.cam cam
    let fn := c.fnNext - 1
    let ring := vget c.outs Ring.absent r.index
    let slot := firstIdx (fun x => x.used && x.fn == fn && x.run == c.run && x.holders.contains l.handle) ring.slots
    let cfg := ((c.frame fn).bind (fun f => vget f.set.outs none r.index)).orElse (fun _ => vget c.last.outs none r.index)
    let s := s.mapHead i (fun h => { h with live := Nat.lor h.live (2 ^ l.pipe) })
    if (l.shown.map (fun f => f.fn == fn && f.run == c.run)).getD false then s
    else match slot, cfg with
      | some n, some q =>
        let t := s.mapLayer l.handle (fun y => { y with prev := y.shown, shown := some (liveSurface c.profile q (ring.base + n * ring.slotSize) fn c.run) })
        t.trimLayer l.handle r s.ns
      | _, _ => if l.shown.isSome then s.flagRepeated i l else s

/-- A camera layer that asks for the live path: it runs on it, leaves it or returns to it at this frame start (R284, R287). -/
def State.liveMode (i : Nat) (h : DispHead) (l : DispLayer) (b : List Byte) (s : State) : State :=
  let ok := s.liveAllowed h b
  let late := 2 ≤ l.lateRun
  let goodRun := if ok then l.goodRun else 0
  let live := ok && (if l.fresh then true else if l.live then !late else !l.offPath || 16 ≤ goodRun)
  let off := if live then false else if l.fresh then false else l.offPath || (l.live && late)
  let t := s.mapLayer l.handle (fun y => { y with live := live, offPath := off, fresh := false, goodRun := if live then 0 else goodRun, lateRun := if live then y.lateRun else 0 })
  if l.fresh then (if live then t else t.liveEvent i l.handle false)
  else if l.live && !live then t.liveEvent i l.handle false
  else if !l.live && live then t.liveEvent i l.handle true
  else t

/-- What one layer shows in a frame that begins (Table 10-7). -/
def State.chooseLayer (i : Nat) (lh : Handle) (s : State) : State :=
  match s.head i, s.layer lh with
  | some h, some l0 =>
    match l0.blk with
    | none => s
    | some b =>
      let l := { l0 with lateRun := if l0.lateNow then l0.lateRun + 1 else 0, lateNow := false, fetched := 0, segs := [] }
      let s := s.mapLayer lh (fun _ => l)
      let t := match lbKind b, lbBind b with
        | 1, _ => match s.buffer (lbSrc b) with
          | some y => s.mapLayer lh (fun x => { x with shown := some (blkSurface b (y.base + f32 b 0xC) (y.base + y.size)), prev := none, fresh := false })
          | none => s.mapLayer lh (fun x => { x with shown := none, prev := none, fresh := false })
        | 4, _ => s.mapLayer lh (fun x => { x with shown := some (blkSurface b 0 0), prev := none, fresh := false })
        | 2, some r =>
          if lbLive b then
            let t := s.liveMode i h l b
            match t.layer lh with
            | some y => if y.live then t.chooseLive i y r else t.chooseBuffered i y r
            | none => t
          else (s.mapLayer lh (fun x => { x with fresh := false })).chooseBuffered i l r
        | _, some r => (s.mapLayer lh (fun x => { x with fresh := false })).chooseBuffered i l r
        | _, none => s.mapLayer lh (fun x => { x with shown := none, prev := none, fresh := false })
      if lbKind b = 4 then t else t.mapLayer lh (fun x => { x with segs := [(0, x.shown)] })
  | _, _ => s

/-- A layer that breaks R271 under a new timing is transparent until a valid set latches (R290). -/
def State.recheckLayer (t : List Byte) (lh : Handle) (s : State) : State :=
  match s.layer lh with
  | none => s
  | some l =>
    match l.blk with
    | none => s
    | some b =>
      if lbVisible b && lbKind b != 0 && !l.hidden && decide (2400000000 < pipeRate t b) then
        (s.mapLayer lh (fun y => { y with hidden := true })).logErrorPost { source := 0x09, code := Status.budgetExceeded.code, unit := lh }
      else s

/-- A shown frame begins: commands complete, sets latch, and each layer's surface is chosen. first says that the blank frames of a mode change are over. -/
def State.showFrame (i : Nat) (first : Bool) (s : State) : State :=
  match s.head i with
  | none => s
  | some h =>
    let fc := (h.count - 1) % 2 ^ 32
    let last := h.modeRefs.length - 1
    let t := s.mapHead i (fun x => { x with modeRefs := [], cloneRef := none })
    let t := h.modeRefs.zipIdx.foldl (fun (u : State) (r : (CmdRef × Bool) × Nat) =>
      u.finish r.1.1 .ok (if r.1.2 then h.handle.toNat else fc) (if r.2 = last then divKhz (tbDiv h.blk) else 1) false) t
    let t := match h.cloneRef with
      | some r => t.finish r .ok fc 0 false
      | none => t
    let t := t.latchSets i
    let ls := (t.layersOf i).map DispLayer.handle
    let t := if first then ls.foldl (fun (u : State) (l : Handle) => u.recheckLayer h.blk l) t else t
    let t := ls.foldl (fun (u : State) (l : Handle) => u.chooseLayer i l) t
    t.wbTake i

/-! ## Frame starts -/

/-- The error of a frame start against the nearest grid point, in 2^-16 ns (R267). -/
def gridError (b : List Byte) (stamp : Nat) : Int :=
  let p := tbPeriod b * 65536
  let r := (stamp + p - tbPhase b * 65536 % p) % Nat.max 1 p
  if 2 * r < p then (r : Int) else (r : Int) - p

/-- The divider that removes an error over the next 8 frames, within ±500 ppm of nominal (R267). -/
def steerDiv (b : List Byte) (err : Int) : Nat :=
  let n : Int := tbDiv b
  let p : Int := tbPeriod b * 65536
  let lim := n * 500 / 1000000
  (n + clampInt (-lim) lim (roundDiv (-(err * n)) (8 * p).toNat)).toNat

/-- The measurement at a frame start in PTP mode: the lock and the steering (R267). -/
def State.measureHead (i : Nat) (err : Int) (s : State) : State :=
  match s.head i with
  | none => s
  | some h =>
    let near := err.natAbs ≤ 100 * 65536
    let far := 1000 * 65536 < err.natAbs
    let run := if near then Nat.min 8 (h.lockRun + 1) else 0
    let lost := h.locked && far
    let gain := !h.locked && 8 ≤ run
    let t := s.mapHead i (fun x => { x with lockRun := run, locked := (h.locked || gain) && !lost, div := steerDiv h.blk err })
    let t := if lost then t.countHead i (fun n => { n with lockLosses := n.lockLosses.satInc }) else t
    if lost || gain then t.logEvent { source := 0x09, unit := h.handle } else t

/-- The bank contents and rectangles that a head latches at every frame start, and the loads that thereby complete (R274, R293). -/
def State.latchBanks (i : Nat) (s : State) : State :=
  let t := s.mapDisp (fun d => { d with
    heads := vmod d.heads i (fun o => o.map (fun h => { h with banks := d.banks, rects := h.rectNext })),
    loads := d.loads.map (fun l => { l with heads := l.heads.filter (· != i) }) })
  let done := t.disp.loads.filter (fun l => l.heads.isEmpty)
  let t := t.mapDisp (fun d => { d with loads := d.loads.filter (fun l => !l.heads.isEmpty) })
  done.foldl (fun (u : State) (l : BankLoad) => u.finish l.by_ .ok 0 0 false) t

/-- A frame of a head begins now: a mode change takes effect, the frame count advances, and the frame is blank or shown (R281, R290). -/
def State.beginFrame (i : Nat) (s : State) : State :=
  match s.head i with
  | none => s
  | some h =>
    let mode := h.next.isSome
    let blank := mode || h.blankLeft != 0
    let first := !blank && h.blankNow
    let new : DispHead := { h with
      blk := h.next.getD h.blk, next := none, run := .running, hold := none, count := h.count + 1, start := s.time.stamp,
      blankNow := blank, blankLeft := if mode then 1 else h.blankLeft - 1,
      div := match h.next with | some b => tbDiv b | none => h.div, locked := h.locked && !mode, lockRun := if mode then 0 else h.lockRun,
      line := 0, aborted := false, prevLine := [], repeated := 0, concealed := 0, live := 0, late := 0, wb := h.wb.abandon h.wbSlot, wbSlot := none,
      crc := vmapIdx h.crc (fun _ c => { c with acc := BitVec.allOnes 32 }) }
    let t := (s.mapHead i (fun _ => new)).latchBanks i
    let t := t.sendFrameTime i
    let t := if mode then t.sendMode i else t
    if blank then t else t.showFrame i first

/-- The source whose frame starts drive a head: a clone target does not start frames of its own (R292). -/
def DispHead.follows (h : DispHead) : Option Nat :=
  match h.cloneNext with
  | some (_, some src) => some src
  | _ => h.cloneOf

/-- A head's timing on another head's lane. -/
def onLane (b : List Byte) (lane : Nat) : List Byte := patch b 0x12 [BitVec.ofNat 8 lane]

/-- A frame of a clone target begins with its source's (R292): src is the source's number, timing its timing, and mode whether it changes now. -/
def State.beginTarget (src : Nat) (timing : List Byte) (mode locked : Bool) (i : Nat) (s : State) : State :=
  match s.head i with
  | none => s
  | some h =>
    if !h.stops.isEmpty then s.stopHead i
    else
      let own := onLane timing (tbLane (h.next.getD h.blk))
      match h.cloneNext with
      | some (r, some j) =>
        if j = src then
          (s.mapHead i (fun x => { x with cloneNext := none, cloneOf := some src, cloneRef := some r, next := some own, blankLeft := 0 })).beginFrame i
        else
          let t := s.mapHead i (fun x => { x with next := if mode then some own else x.next })
          (t.beginFrame i).mapHead i (fun x => { x with locked := locked })
      | some (r, none) =>
        let t := (s.mapHead i (fun x => { x with cloneNext := none, cloneOf := none, cloneRef := none })).beginFrame i
        let t := match h.cloneRef with
          | some old => t.finish old .notReady 0x91 0 false
          | none => t
        t.finish r .ok (h.count % 2 ^ 32) 0 false
      | none =>
        let t := s.mapHead i (fun x => { x with next := if mode then some own else x.next })
        (t.beginFrame i).mapHead i (fun x => { x with locked := locked })

/-- HEAD_FRAME_START (R267, R279, R290, R292): the current frame of a head has ended. It stops, holds blank for the grid or to re-phase, or begins its next frame
together with its clone targets. -/
def execHeadFrameStart (i : Fin 4) (s : State) : Host.Outcome State Fault Refusal :=
  match s.head i.val with
  | none => .next s
  | some h =>
    let ns := s.ns
    let waiting : Bool := match h.hold with | some n => ns < n | none => false
    if h.run = .off ∨ h.follows.isSome ∨ waiting then .next s
    else if !h.stops.isEmpty then .next (s.stopHead i.val)
    else
      let grid := match h.next with | some b => startHold b ns | none => ns
      let err := gridError h.blk s.time.stamp
      let ptp := tbPtp h.blk && h.next.isNone && h.hold.isNone
      if h.hold.isNone && ns < grid then .next (s.mapHead i.val (fun x => { x with hold := some grid, line := tbH x.blk }))
      else if ptp && Nat.blt (50000 * 65536) err.natAbs then
        let t := (s.measureHead i.val err).mapHead i.val (fun x => { x with
          hold := some (startHold h.blk ns), line := tbH x.blk, div := tbDiv x.blk, locked := false, lockRun := 0 })
        .next t
      else
        let t := if ptp then s.measureHead i.val err else s
        let targets := s.cloneTargets i.val
        let t := t.beginFrame i.val
        let t := match h.cloneNext with
          | some (r, none) => (t.mapHead i.val (fun x => { x with cloneNext := none })).finish r .ok (h.count % 2 ^ 32) 0 false
          | _ => t
        let lk := ((t.head i.val).map DispHead.locked).getD false
        .next (targets.foldl (fun (u : State) (j : Nat) => u.beginTarget i.val (h.next.getD h.blk) h.next.isSome lk j) t)

/-! ## Lines -/

/-- The direct surface that a register names now (R282, R286). -/
def State.directNow (s : State) (i : Nat) (b : List Byte) : Option Surface :=
  let v := (vget (vget s.disp.regs HeadRegs.reset i).addr 0 (lbIndex b)).toNat
  if bitOf v 0 then
    (s.buffer (lbSrc b)).map (fun y => blkSurface b (v / 64 * 64) (y.base + y.size))
  else none

/-- The rows that a layer fetches for a head line: from the surface in force at the fetch; on the live path a row not yet written is late, and it and all after it come
from the slot shown before (R282, R285). -/
def State.fetchLayer (i y : Nat) (lh : Handle) (s : State) : State :=
  match s.layer lh with
  | none => s
  | some l =>
    match l.lineOf y with
    | none => s
    | some (b, h) =>
      let hi := lbSy b + rowMax (lbSh b) (lbDh b) h + 1
      if hi ≤ l.fetched then s
      else if lbKind b = 4 then s.mapLayer lh (fun x => { x with fetched := hi, segs := x.segs ++ [(x.fetched, s.directNow i b)] })
      else
        let done : Nat := match lbBind b, l.shown with
          | some r, some f => if l.live then
              (match s.srcCam r with | some cam => (s.cam cam).linesWritten r.index f.fn f.run | none => 0) else hi
          | _, _ => hi
        if l.lateNow || hi ≤ done then s.mapLayer lh (fun x => { x with fetched := hi })
        else
          let t := s.mapLayer lh (fun x => { x with fetched := hi, lateNow := true, segs := x.segs ++ [(Nat.max done x.fetched, x.prev)] })
          (t.mapHead i (fun z => { z with late := Nat.lor z.late (2 ^ l.pipe) })).countHead i (fun n => { n with liveLate := n.liveLate.satInc })

/-- A head line on which a layer's lost pixels are replaced: the frame is flagged CONCEALED for the layer, and CONCEALED_LINES advances (R289). -/
def State.concealLayer (i y : Nat) (lh : Handle) (s : State) : State :=
  match s.layer lh with
  | none => s
  | some l =>
    match l.lineOf y with
    | none => s
    | some (b, h) =>
      if l.conceals s.mem.mem b h then
        (s.mapHead i (fun z => { z with concealed := Nat.lor z.concealed (2 ^ l.pipe) })).countHead i (fun n => { n with concealed := n.concealed.satInc })
      else s

/-- The pipe reads of the source rows that a layer has fetched between two moments (R271): live class on the live path, frame class for other layers. A KCS
surface counts as its rows' share of its largest size (DESIGN CHOICE, log 20). -/
def State.layerTraffic (s : State) (i : Nat) (old new : DispLayer) : List FabReq :=
  let src : FabSrc := if new.live then .scanOut else .layer
  ((List.range (new.fetched - old.fetched)).map (old.fetched + ·)).flatMap (fun row =>
    match new.rowSurface row with
    | none => []
    | some f =>
      if f.kcs then
        let n := (f.limit - f.base) / Nat.max 1 f.h
        [s.access src (.head i) noCam (f.base + row * n) n false]
      else
        f.planes.zipIdx.map (fun p =>
          let y := if p.2 = 0 then row else row / (formatSub f.format).2
          s.access src (.head i) noCam (p.1.1 + y * p.1.2) p.1.2 false))

/-- A layer fetches for a line, and its reads go out. -/
def State.readLayer (i y : Nat) (lh : Handle) (s : State) : State :=
  let t := s.fetchLayer i y lh
  match s.layer lh, t.layer lh with
  | some a, some b => t.requests (t.layerTraffic i a b)
  | _, _ => t

/-- The CRC results of a frame whose last line is sent (R293). -/
def State.crcResults (i : Nat) (s : State) : State :=
  match s.head i with
  | none => s
  | some h =>
    let one (k : Nat) (c : CrcState) : CrcState :=
      let r := vget h.rects CrcRect.off k
      let inside := r.x + r.w ≤ tbW h.blk && r.y + r.h ≤ tbH h.blk
      let v := (~~~c.acc).toNat
      let bad := r.en && inside && r.check && v != r.expect
      { c with value := if r.en && inside then v else c.value, valid := r.en && inside, mismatch := bad, matched := if r.en && inside && r.check then !bad else c.matched }
    let new := vmapIdx h.crc one
    let bad := (List.range 16).filter (fun k => (vget new CrcState.zero k).mismatch)
    let first := bad.filter (fun k => (vget h.crc CrcState.zero k).matched)
    let t := s.mapHead i (fun x => { x with crc := new, crcFrame := h.count - 1, cnt := { x.cnt with crcMism := satAdd x.cnt.crcMism bad.length } })
    first.foldl (fun (u : State) (k : Nat) => u.logErrorPost { source := 0x09, code := Status.checkMismatch.code, unit := h.handle, detail := [k] }) t

/-- A composed line leaves on a head's lane, joins its CRCs, and is written back (R268, R291, R293). -/
def State.putLine (i : Nat) (line : List (Nat × Nat × Nat)) (behind : Bool) (s : State) : State :=
  match s.head i with
  | none => s
  | some h =>
    let y := h.line
    let t := s.sendLine i (wireBytes h.blk line)
    let t := t.mapHead i (fun x => { x with crc := vmapIdx x.crc (fun k c => { c with acc := crcLine (vget x.rects CrcRect.off k) y line c.acc }) })
    let t := if h.wbSlot.isNone || h.wbTrunc then t
      else if behind then (t.mapHead i (fun x => { x with wbTrunc := true })).countHead i (fun n => { n with wbTrunc := n.wbTrunc.satInc })
      else t.wbLine i y line
    let t := t.mapHead i (fun x => { x with line := y + 1, prevLine := line })
    if y + 1 = tbH h.blk then (t.crcResults i).wbFinish i else t

/-- A blank line: one cell with BLANK (R290). -/
def State.putBlank (i : Nat) (s : State) : State :=
  match s.head i with
  | none => s
  | some h =>
    (s.sendPixels i (cellFlags (h.line == 0) (h.line + 1 == tbH h.blk) true true false true) 0 []).mapHead i (fun x => { x with line := x.line + 1 })

/-- A head's frame is aborted at its line (R288): a cell with ABORT, and no further line. -/
def State.abortFrame (i : Nat) (s : State) : State :=
  let t := s.sendPixels i (cellFlags false false false false true false) 0 []
  let t := t.mapHead i (fun x => { x with aborted := true, crc := vmapIdx x.crc (fun _ c => { c with valid := false, mismatch := false }) })
  let t := (t.countHead i (fun n => { n with aborts := n.aborts.satInc })).mapRegs i (fun r => { r with aborted := true })
  t.wbFinish i

/-- Whether a head has an active line left to send. -/
def DispHead.sending (h : DispHead) : Bool := h.run == .running && !h.aborted && Nat.blt h.line (tbH h.blk)

/-- HEAD_LINE_SEND (R268, R288): the next active line of a head is due. ready says that it is complete in the composed-line FIFO, behind that writeback has fallen behind by
more than the FIFO. Clone targets send the same line on their own lanes (R292). -/
def execHeadLineSend (i : Fin 4) (ready behind : Bool) (s : State) : Host.Outcome State Fault Refusal :=
  match s.head i.val with
  | none => .next s
  | some h =>
    if !h.sending || h.cloneOf.isSome then .next s
    else
      let targets := (List.range 4).filter (fun j => ((s.head j).map (fun t => t.cloneOf == some i.val && t.sending)).getD false)
      let each (f : Nat → State → State) (u : State) : State := targets.foldl (fun (v : State) (j : Nat) =>
        if ((v.head j).map DispHead.blankNow).getD true then v.putBlank j else f j v) u
      if h.blankNow then .next (each State.putBlank (s.putBlank i.val))
      else if !ready then .next (each State.abortFrame (s.abortFrame i.val))
      else
        let ls := (s.layersOf i.val).map DispLayer.handle
        let t := ls.foldl (fun (u : State) (l : Handle) => u.readLayer i.val h.line l) s
        let t := ls.foldl (fun (u : State) (l : Handle) => u.concealLayer i.val h.line l) t
        let line := t.composeLine i.val h h.line
        .next (each (fun j u => u.putLine j line behind) (t.putLine i.val line behind))

/-! ## Registers -/

/-- The DIRECT layer of a head that names an index in its latched set (R282). -/
def State.directLayer (s : State) (i k : Nat) : Option (DispLayer × List Byte) :=
  (s.layersOf i).findSome? (fun l => l.blk.bind (fun b => if lbKind b = 4 ∧ lbIndex b = k then some (l, b) else none))

/-- Whether the whole surface of a direct layer at an address lies inside its buffer. -/
def State.directFits (s : State) (b : List Byte) (a : Nat) : Bool :=
  match s.buffer (lbSrc b) with
  | none => false
  | some y => match needSurface s b y a with
    | .ok _ => true
    | .error _ => false

/-- LIVE_ADDR_WRITE (R282): a write of KX_DISP_HEADn_LIVE_ADDR[k], of the whole register or of one half. -/
def execLiveAddrWrite (i : Fin 4) (k : Fin 8) (half : Option Bool) (v : DWord) (s : State) : Host.Outcome State Fault Refusal :=
  let old := (vget s.disp.regs HeadRegs.reset i.val).addr[k].toNat
  let full := match half with
    | none => v.toNat
    | some false => old / 2 ^ 32 * 2 ^ 32 + v.toNat % 2 ^ 32
    | some true => v.toNat % 2 ^ 32 * 2 ^ 32 + old % 2 ^ 32
  let new := bitsOf full 37 6 * 64 + full % 2
  let ok := match s.directLayer i.val k.val with
    | some (_, b) => !bitOf new 0 || s.directFits b (new / 64 * 64)
    | none => false
  if ok then .next (s.mapRegs i.val (fun r => { r with addr := r.addr.set k (BitVec.ofNat 64 new) }))
  else .next ((s.mapRegs i.val (fun r => { r with paramErr := true })).countHead i.val (fun n => { n with refused := n.refused.satInc }))

/-- FRAME_COUNT_READ (R281, Table 10-10): the frame count, and the capture of its frame start into the read copy of FRAME_TS. -/
def execFrameCountRead (i : Fin 4) (s : State) : Host.Outcome State Fault Refusal :=
  match s.head i.val with
  | none => .next (s.emit (.readData 0))
  | some h => .next ((s.mapRegs i.val (fun r => { r with tsCopy := h.start / 65536 })).emit (.readData ((h.count - 1) % 2 ^ 32)))

/-- DISPLAY_MODE (R268): a running head sends its timing block once per second. -/
def execDisplayMode (i : Fin 4) (s : State) : Host.Outcome State Fault Refusal :=
  match s.head i.val with
  | none => .next s
  | some h => if h.run = .running then .next (s.sendMode i.val) else .next s

end Sys2Proof.Machine
end

