-- ==== Sys2Proof/Machine/LaneCal.lean ====
section
/-!
DEFINITION. Lane bring-up, calibration by rotation and in place, lane death, lock and quality events, and link time cells
(chapter 13, R384, R385).
-/
namespace Sys2Proof.Machine

/-! ## Measurements -/

/-- What the verification of a lane measured: BER estimate as binary32, uncorrectable codewords, SNR in u8.8 dB, eye opening, and the
values of its calibration record from offset 0x010 on. -/
structure LaneMeasure where
  ber    : Word
  uncorr : Nat
  snr    : Nat
  eye    : Nat
  values : List Byte
deriving DecidableEq, Repr

/-- Whether a lane verifies at a rate (R352): BER at most 1 × 10^-5, no uncorrectable codeword, SNR 1 dB above the floor. -/
def LaneMeasure.passes (m : LaneMeasure) (rate : Nat) : Bool :=
  m.ber.toNat ≤ 0x3727C5AC && m.uncorr == 0 && snrFloor rate + 256 ≤ m.snr

/-- The calibration record of a lane (Table 13-10A). -/
def calRecord (l rateField : Nat) (temp : Int) (m : LaneMeasure) : List Byte :=
  let body := padTo 496 m.values
  patch (layout 512 [(0x000, 2, 1), (0x002, 1, l), (0x003, 1, rateField), (0x004, 2, wrapInt 16 temp), (0x008, 2, m.snr), (0x00A, 2, m.eye),
                     (0x00C, 4, crc32c body)]) 0x010 body

/-- RATE of a record: the rate code, or the Ethernet MODE + 0x10. -/
def Lane.rateField (x : Lane) (l : Nat) : Nat := if l / 4 = 6 then x.rate + 0x10 else x.rate

/-- Sets MARGIN on a lane and posts LANE_MARGIN (R360). -/
def State.laneMargin (l : Nat) (s : State) : State :=
  (s.mapLane l (fun x => { x with margin := true })).post .laneMargin (BitVec.ofNat 32 l)

/-- A calibration of a lane is deferred (R357). -/
def State.deferCal (l : Nat) (s : State) : State :=
  if (s.lanes.lane l).deferredNow then s
  else (s.mapLane l (fun x => { x with deferredNow := true, deferred := x.deferred.satInc })).laneMargin l

/-! ## Rotation -/

/-- A rotation begins (R356): the spare is claimed, and ROTATE is sent on both lanes. -/
def State.rotate (c src dst : Nat) (dead : Bool) (s : State) : State :=
  let t := s.mapQuad (c / 4) (fun q => { q with rotation := some { chan := c, src := src, dst := dst, step := 0, dead := dead } })
  let t := t.mapLane src (fun x => { x with deferredNow := false })
  let ch := t.lanes.chan c
  (t.train src 4 0 c dst ch.epoch ch.lseq.toNat).train dst 4 0 c dst ch.epoch ch.lseq.toNat

/-- A channel takes a lane directly. -/
def State.carry (c l : Nat) (s : State) : State :=
  (((s.mapChan c (fun x => { x with lane := some l, vacant := false })).mapLane l (fun x => { x with
      state := .active, chan := some c, inPlace := false, rotations := x.rotations.satInc, lastEpoch := (s.lanes.chan c).epoch })).mapTime
    (fun t => { t with ltRotated := vmod t.ltRotated c (fun _ => true) }))

/-- Whether a lane is due by temperature or SNR (R355). -/
def State.calDue (s : State) (l : Nat) : Bool :=
  let x := s.lanes.lane l
  Nat.blt (x.calDelta * 256) (s.tempMoved l x.calVal) || Nat.blt (x.snr + 768) (f16 x.calVal 0x008)

/-- Whether lane a calibrates before lane b of the same quad: larger temperature change first, ties to the lower lane (R355). -/
def State.calBefore (s : State) (a b : Nat) : Bool :=
  let da := s.tempMoved a (s.lanes.lane a).calVal
  let db := s.tempMoved b (s.lanes.lane b).calVal
  Nat.blt db da || (da == db && Nat.blt a b)

/-- The lanes of a quad that carry channels. -/
def LanesSt.carriers (x : LanesSt) (q : Nat) : List Nat :=
  [4 * q, 4 * q + 1, 4 * q + 2, 4 * q + 3].filter (fun l => (x.lane l).state == .active)

/-- When a quad's spare becomes free, the first deferred calibration is retried (R357); none runs in PS2 (R368). -/
def State.retryDeferred (q : Nat) (s : State) : State :=
  match s.lanes.freeSpare q with
  | none => s
  | some sp =>
    if s.power.cur = .ps2 then s
    else
      let waiting := (s.lanes.carriers q).filter (fun l => (s.lanes.lane l).deferredNow)
      match waiting.find? (fun l => waiting.all (fun m => m == l || s.calBefore l m)) with
      | none => s
      | some l =>
        match (s.lanes.lane l).chan with
        | some c => s.rotate c l sp false
        | none => s

/-! ## Lane death -/

/-- Completes with HARDWARE_FAULT the commands that wait for a lane. -/
def State.failLaneCmds (l : Nat) (s : State) : State :=
  let x := s.lanes.lane l
  let t := s.mapLane l (fun y => { y with trainBy := none, rejoinBy := none })
  let h := (unitHandle 0x0C l).toNat
  let t := match x.trainBy with
    | some r => t.finish r .hardwareFault h t.errSeq true
    | none => t
  match x.rejoinBy with
  | some r => t.finish r .hardwareFault h t.errSeq true
  | none => t

/-- Whether a channel that has left service was the control channel of a context: in its LANE_MASK, and no lower one of the mask in service (R80). -/
def State.ctrlWas (s : State) (cam c : Nat) : Bool :=
  let mask := pfLaneMask (s.cam cam).profile
  bitOf mask c && (List.range c).all (fun l => !(bitOf mask l && s.inService l))

/-- A channel has left service: the cameras whose control channel it was resend their unacknowledged control cells on their next one (R80, R359). -/
def State.camerasOff (c : Nat) (s : State) : State :=
  (List.range 48).foldl (fun t cam => if (t.cam cam).state != .idle && t.ctrlWas cam c then t.resendAll cam else t) s

/-- A rotation is cancelled and its calibration deferred (R358). -/
def State.cancelRotation (q : Nat) (s : State) : State :=
  match (s.lanes.quad q).rotation with
  | none => s
  | some r => (s.mapQuad q (fun x => { x with rotation := none })).deferCal r.src

/-- The lane that can take a channel at once: the quad's free spare by rotation (true), or a lane in calibration that carries none,
which is restored from its values and verified (false) (R358). -/
def LanesSt.taker (x : LanesSt) (q : Nat) : Option (Nat × Bool) :=
  match x.freeSpare q with
  | some l => some (l, true)
  | none =>
    ([4 * q, 4 * q + 1, 4 * q + 2, 4 * q + 3].find? (fun l => (x.lane l).state == .calibrating && (x.lane l).chan.isNone)).map (fun l => (l, false))

/-- A channel whose lane died finds another: its epoch advances, and it rotates to the spare, or takes the lane in calibration, or
becomes vacant (R358, R359). -/
def State.rehome (c dead : Nat) (s : State) : State :=
  let q := c / 4
  let t := s.mapChan c (fun x => { x with epoch := nextEpoch x.epoch })
  match s.lanes.taker q with
  | some (l, true) =>
    let t := (t.rotate c dead l true).mapMgmt (fun m => { m with replaced := m.replaced.satInc })
    t.post .unitReplaced (unitHandle 0x0B c)
  | some (l, false) =>
    let t := (t.mapQuad q (fun x => { x with rotation := none, spare := none })).mapLane dead (fun x => { x with chan := none })
    let t := ((t.carry c l).laneVerified l).mapMgmt (fun m => { m with replaced := m.replaced.satInc })
    t.post .unitReplaced (unitHandle 0x0B c)
  | none =>
    let t := (t.mapChan c (fun x => { x with lane := none, vacant := true })).mapLane dead (fun x => { x with chan := none })
    let t := t.mapLanes (fun x => { x with streams := updWhere (fun y => y.chan == c) (fun y => { y with stopped := true }) x.streams })
    let t := t.mapMgmt (fun m => { m with smb := { m.smb with unitLost := true } })
    (t.logErrorPost { source := 0x0B, code := Status.unitFenced.code, unit := unitHandle 0x0B c, epoch := (t.lanes.chan c).epoch }).camerasOff c

/-- The overlap of a rotation ends: the channel runs on the new lane only, and the old lane is calibrated, or stays fenced (R356). -/
def State.overlapEnd (q : Nat) (s : State) : State :=
  match (s.lanes.quad q).rotation with
  | none => s
  | some r =>
    let t := (s.carry r.chan r.dst).mapLane r.src (fun x => { x with
      chan := none, state := if r.dead then .fenced else .calibrating, cwLock := x.cwLock && !r.dead, cellLock := x.cellLock && !r.dead })
    t.mapQuad q (fun x => { x with spare := none, rotation := if r.dead then none else some { r with step := 2 } })

/-- A lane is declared dead (R358, R359): it is fenced, and the channel that it carries goes to another. -/
def State.laneDead (l code : Nat) (s : State) : State :=
  let q := l / 4
  let x := s.lanes.lane l
  let rot := (s.lanes.quad q).rotation
  let entry : LogInfo := { source := 0x0B, code := code, unit := unitHandle 0x0C l, epoch := x.lastEpoch }
  let t := (s.mapLane l (fun y => { y with state := .fenced, cwLock := false, cellLock := false, inPlace := false, deferredNow := false,
                                           deaths := Nat.min (y.deaths + 1) 255 })).logError (entry.about (x.trainBy.orElse (fun _ => x.rejoinBy)))
  let t := t.failLaneCmds l
  let spareLost (w : State) : State := w.mapQuad q (fun y => { y with spare := if y.spare = some l then none else y.spare })
  match rot with
  | none =>
    match x.chan with
    | some c => t.rehome c l
    | none => spareLost t
  | some r =>
    if r.src = l then
      if r.step = 2 then t.mapQuad q (fun y => { y with rotation := none })
      else
        let t := t.mapChan r.chan (fun y => { y with epoch := nextEpoch y.epoch })
        let t := (t.rotate r.chan l r.dst true).mapMgmt (fun m => { m with replaced := m.replaced.satInc })
        t.post .unitReplaced (unitHandle 0x0B r.chan)
    else if r.dst = l ∧ r.step ≠ 2 then (spareLost t).cancelRotation q
    else
      match x.chan with
      | none => t
      | some c =>
        if r.step = 0 then (t.cancelRotation q).rehome c l
        else if r.step = 1 then (t.overlapEnd q).rehome c l
        else t.rehome c l

/-- LANE_DEATH (R359): a lane that carries a channel, or a spare, or a lane in calibration meets a condition of R359. -/
def execLaneDeath (n : Fin 32) (s : State) : Host.Outcome State Fault Refusal :=
  let st := (s.lanes.lane n).state
  if st == .active || st == .spare || st == .calibrating then .next (s.laneDead n 0) else .next s

/-! ## Bring-up -/

/-- The highest rate code that a set of rates holds, up to a limit. -/
def bestRate (rates limit : Nat) : Nat := maxNat ((List.range 4).filter (fun r => bitOf rates r && r ≤ limit))

/-- A lane asks its peer for a rate (R352). -/
def State.askRate (l rate : Nat) (s : State) : State :=
  (s.mapLane l (fun x => { x with step := .requested rate })).train l 1 rate 0xFF 0 0 0

/-- CAPABILITY (R352, R353): the target rate is set, and the first step is asked for: to the target itself where the restored record
was taken at that rate within CAL_DELTA of the present temperature. A conflicting role leaves the lane at 10G. -/
def execCapability (n : Fin 32) (rates role : Nat) (s : State) : Host.Outcome State Fault Refusal :=
  let x := s.lanes.lane n
  let qd := s.lanes.quad (n / 4)
  if !(x.state == .training && x.rate == 0 && x.step == .idle && qd.role.ozoth) then .next s
  else if role != roleCode qd.role then
    .next (s.logError { source := 0x0B, unit := unitHandle 0x0C n, detail := [role] })
  else
    let target := bestRate rates x.maxRate
    let t := s.mapLane n (fun y => { y with target := target, cellLock := true })
    let direct := x.restored && f8 x.calVal 0x003 == target && s.tempMoved n x.calVal ≤ x.calDelta * 256
    if target = 0 then .next t else .next (t.askRate n (if direct then target else 1))

/-- CAPABILITY_INTERVAL (R352): a lane at 10G sends a CAPABILITY cell. -/
def execCapabilityInterval (n : Fin 32) (s : State) : Host.Outcome State Fault Refusal :=
  let x := s.lanes.lane n
  if x.state == .training && x.rate == 0 && (s.lanes.quad (n / 4)).role.ozoth then .next (s.train n 0 0xF 0xFF 0 0 0) else .next s

/-- A lane relocks at a rate and adapts: its locks are lost until it has adapted. -/
def State.adapt (l rate : Nat) (s : State) : State :=
  s.mapLane l (fun x => { x with step := .adapting rate, target := Nat.max x.target rate, cwLock := false, cellLock := false })

/-- RATE_REQUEST (R352): the peer asks for a rate that the lane may run at; it is answered with RATE_ACK, and the lane relocks. -/
def execRateRequest (n : Fin 32) (rate : Nat) (s : State) : Host.Outcome State Fault Refusal :=
  let x := s.lanes.lane n
  if x.state == .training && x.step != .failed && Nat.blt x.rate rate && rate ≤ x.maxRate && rate ≤ 3 then .next ((s.train n 2 rate 0xFF 0 0 0).adapt n rate)
  else .next s

/-- RATE_ACK (R352): the lane relocks and adapts at the rate it asked for. -/
def execRateAck (n : Fin 32) (rate : Nat) (s : State) : Host.Outcome State Fault Refusal :=
  if (s.lanes.lane n).state == .training && (s.lanes.lane n).step == .requested rate then .next (s.adapt n rate) else .next s

/-- A lane takes a measurement and a record. -/
def State.measured (l : Nat) (m : LaneMeasure) (s : State) : State :=
  s.mapLane l (fun x => { x with
    snr := m.snr, eye := m.eye, ber := m.ber, calVal := calRecord l (x.rateField l) (s.quadTemp l) m, restored := false })

/-- A first step fails, and the lane stays at 10G (R352): a LANE_TRAIN completes with rate code 0; a UNIT_REJOIN fails with HARDWARE_FAULT, and its
lane stays fenced (R411). -/
def State.stepFailed (l : Nat) (s : State) : State :=
  let x := s.lanes.lane l
  let t := s.mapLane l (fun y => { y with step := .failed, trainBy := none })
  let t := match x.trainBy with
    | some c => t.finish c .ok 0 x.snr false
    | none => t
  match x.rejoinBy with
  | some c =>
    let entry : LogInfo := { source := 0x0B, code := Status.hardwareFault.code, unit := unitHandle 0x0C l }
    ((t.logError (entry.about (some c))).mapLane l (fun y => { y with state := .fenced, step := .idle, cellLock := false })).failLaneCmds l
  | none => t

/-- RATE_STEP_VERIFIED (R352): a step passes, and the lane goes on to the next rate or into service at the target; or it fails, and
the lane stays at the rate before, with LANE_MARGIN. -/
def execRateStepVerified (n : Fin 32) (ber : Word) (uncorr snr eye : Nat) (values : List Byte) (s : State) : Host.Outcome State Fault Refusal :=
  let x := s.lanes.lane n
  let m : LaneMeasure := { ber := ber, uncorr := uncorr, snr := snr, eye := eye, values := values }
  match x.state, x.step with
  | .training, .adapting r =>
    if m.passes r then
      let t := (s.mapLane n (fun y => { y with rate := r, step := .idle })).measured n m
      if r < x.target then .next (t.askRate n (r + 1)) else .next ((t.laneUp n).retryDeferred (n / 4))
    else
      let t := (s.mapLane n (fun y => { y with step := .idle, target := x.rate })).laneMargin n
      if x.rate = 0 then .next (t.stepFailed n)
      else .next ((t.laneUp n).retryDeferred (n / 4))
  | _, _ => .next s

/-! ## Calibration events -/

/-- A ROTATE of the peer is answered with ROTATE_ACK and our own SWITCH_LSEQ (R356). -/
def execRotate (n : Fin 32) (chan toLane : Nat) (s : State) : Host.Outcome State Fault Refusal :=
  match (s.lanes.quad (n / 4)).rotation with
  | none => .next s
  | some r =>
    if r.chan = chan ∧ r.dst = toLane ∧ r.step = 0 then
      let ch := s.lanes.chan chan
      .next (s.train n 5 0 chan toLane ch.epoch ch.lseq.toNat)
    else .next s

/-- ROTATE_ACK (R356): the overlap begins. -/
def execRotateAck (n : Fin 32) (chan : Nat) (s : State) : Host.Outcome State Fault Refusal :=
  match (s.lanes.quad (n / 4)).rotation with
  | none => .next s
  | some r =>
    if r.chan = chan ∧ r.step = 0 then .next (s.mapQuad (n / 4) (fun q => { q with rotation := some { r with step := 1 } })) else .next s

/-- ROTATION_OVERLAP_END (R356, R385): the channel runs on the new lane only, the old lane's calibration begins, and an LT_SYNC with
ROTATED follows. -/
def execRotationOverlapEnd (q : Fin 8) (frac : Half) (s : State) : Host.Outcome State Fault Refusal :=
  match (s.lanes.quad q).rotation with
  | some r => if r.step = 1 then .next ((s.overlapEnd q).sendLtSync frac.toNat r.chan) else .next s
  | none => .next s

/-- A lane begins a calibration in place. -/
def State.calInPlace (l : Nat) (s : State) : State :=
  s.mapLane l (fun x => { x with state := .calibrating, inPlace := true, deferredNow := false })

/-- CALIBRATION_DUE (R355 to R357, R365, R368): a due lane calibrates in place (a spare, an Ethernet lane with INPLACE_OK), or by rotation
onto the free spare when no lane of its quad comes before it, or is deferred. -/
def execCalibrationDue (n : Fin 32) (s : State) : Host.Outcome State Fault Refusal :=
  let x := s.lanes.lane n
  let q := n.val / 4
  if !s.calDue n || s.power.cur == .ps2 then .next s
  else match x.state with
    | .spare => .next (if (s.lanes.quad q).rotation.isNone then s.calInPlace n else s)
    | .eth => .next (if x.inplaceOk then s.calInPlace n else s.deferCal n)
    | .active =>
      match s.lanes.freeSpare q, x.chan with
      | some sp, some c =>
        if s.calDue sp || (s.lanes.carriers q).any (fun m => m != n.val && s.calDue m && s.calBefore m n) then .next s
        else .next (s.rotate c n sp false)
      | _, _ => .next (s.deferCal n)
    | _ => .next s

/-- A lane's calibration has verified: it carries its channel again, or is the quad's spare, or an Ethernet lane (R355, R356). -/
def State.calibrated (l : Nat) (m : LaneMeasure) (s : State) : State :=
  let x := s.lanes.lane l
  let q := l / 4
  let next : LaneState := if q = 6 then .eth else if x.chan.isSome then .active else .spare
  let t := (s.measured l m).mapLane l (fun y => { y with
    state := next, calFails := 0, calibrations := y.calibrations.satInc, inPlace := false,
    inplaceN := if x.inPlace then y.inplaceN.satInc else y.inplaceN })
  let t := if next == .spare then t.mapQuad q (fun y => { y with spare := some l, rotation := none }) else t
  (t.laneVerified l).retryDeferred q

/-- CALIBRATION_DONE (R356, R359): a calibration ends; a lane that fails to verify calibrates again, and dies at the second failure. -/
def execCalibrationDone (n : Fin 32) (ber : Word) (uncorr snr eye : Nat) (values : List Byte) (s : State) : Host.Outcome State Fault Refusal :=
  let x := s.lanes.lane n
  let m : LaneMeasure := { ber := ber, uncorr := uncorr, snr := snr, eye := eye, values := values }
  if x.state != .calibrating then .next s
  else if (if n.val / 4 = 6 then m.uncorr == 0 else m.passes x.rate) then .next (s.calibrated n m)
  else if x.calFails = 0 ∨ n.val / 4 = 6 then .next (s.mapLane n (fun y => { y with calFails := 1 }))
  else .next ((s.mapLane n (fun y => { y with calFails := 0 })).laneDead n Status.hardwareFault.code)

/-- INPLACE_DEFERRAL_EXPIRY (R357): a calibration deferred for 1 s runs in place where INPLACE_OK is set. -/
def execInplaceDeferralExpiry (n : Fin 32) (s : State) : Host.Outcome State Fault Refusal :=
  let x := s.lanes.lane n
  let open_ := match (s.lanes.quad (n / 4)).rotation with | some r => r.src != n.val | none => true
  if x.deferredNow && x.inplaceOk && (x.state == .active || x.state == .eth) && open_ && s.power.cur != .ps2 then .next (s.calInPlace n)
  else .next s

/-! ## Quality and lock -/

/-- A 32-bit counter that adds a number and stops at its largest value. -/
def addSat (w : Word) (n : Nat) : Word := BitVec.ofNat 32 (Nat.min (2 ^ 32 - 1) (w.toNat + n))

/-- LANE_QUALITY_UPDATE (R360): the four figures; MARGIN and LANE_MARGIN when the SNR falls below the floor or the BER estimate passes
1 × 10^-5. -/
def execLaneQualityUpdate (n : Fin 32) (snr eye : Nat) (ber : Word) (corr uncorr : Nat) (s : State) : Host.Outcome State Fault Refusal :=
  let x := s.lanes.lane n
  if x.state == .off || x.state == .fenced then .next s
  else
    let low := n.val / 4 != 6 && x.rate != 0 && (Nat.blt snr (snrFloor x.rate) || Nat.blt 0x3727C5AC ber.toNat)
    let t := s.mapLane n (fun y => { y with
      snr := snr % 65536, eye := eye % 65536, ber := ber, fecCorr := addSat y.fecCorr corr, fecUncorr := addSat y.fecUncorr uncorr,
      cwUncorr := addSat y.cwUncorr uncorr, low := low })
    .next (if low && !x.low then t.laneMargin n else t)

/-- CODEWORD_LOCK (R348): 16 codewords decode correctably. -/
def execCodewordLock (n : Fin 32) (s : State) : Host.Outcome State Fault Refusal :=
  let x := s.lanes.lane n
  if x.state == .off || x.state == .fenced || (x.rate == 0 && (x.step == .idle || x.step == .failed)) then .next s
  else .next (s.mapLane n (fun y => { y with cwLock := true }))

/-- CODEWORD_LOCK_LOSS (R348, R349): 8 uncorrectable codewords; their cells are discarded. -/
def execCodewordLockLoss (n : Fin 32) (cells : Nat) (s : State) : Host.Outcome State Fault Refusal :=
  if (s.lanes.lane n).cwLock then
    .next (s.mapLane n (fun y => { y with cwLock := false, cellLock := false, cellsLost := addSat y.cellsLost cells,
                                          fecUncorr := addSat y.fecUncorr 8, cwUncorr := addSat y.cwUncorr 8 }))
  else .next s

/-- CELL_LOCK (R348, R354): 8 headers pass HCRC; automatic delineation is off in DIAG. -/
def execCellLock (n : Fin 32) (s : State) : Host.Outcome State Fault Refusal :=
  let x := s.lanes.lane n
  if x.state == .off || x.state == .fenced || x.state == .diag then .next s else .next (s.mapLane n (fun y => { y with cellLock := true }))

/-- CELL_LOCK_LOSS (R348, R349): 4 headers fail HCRC; the cells are discarded. -/
def execCellLockLoss (n : Fin 32) (cells : Nat) (s : State) : Host.Outcome State Fault Refusal :=
  if (s.lanes.lane n).cellLock then
    .next (s.mapLane n (fun y => { y with cellLock := false, cellsLost := addSat y.cellsLost cells }))
  else .next s

/-! ## Registers of the lane window (Table 13-8) -/

/-- CAL_VAL_WRITE (R361): words of KX_LANE_CAL_VAL stage a calibration record. -/
def execCalValWrite (n : Fin 32) (word : Fin 128) (wide : Bool) (v : DWord) (s : State) : Host.Outcome State Fault Refusal :=
  let bytes := leBytes (if wide && word.val % 2 == 0 then 8 else 4) v.toNat
  .next (s.mapLane n (fun x => { x with staged := padTo 512 (patch x.staged (4 * word.val) bytes) }))

/-- Whether a record may be loaded into a lane: VERSION, LANE and CRC agree (R361). -/
def recordOk (l : Nat) (record : List Byte) : Bool := recordFor l record && f32 record 0x00C == crc32c (slice record 0x010 496)

/-- Whether a lane's STATE allows a record to be applied (R361). -/
def Lane.appliable (x : Lane) : Bool := x.state == .off || x.state == .spare || x.state == .diag

/-- A record is loaded into a lane: it serves the next bring-up, and a spare that no rotation has claimed is retrained from it at once. -/
def State.applyRecord (l : Nat) (record : List Byte) (s : State) : State :=
  let t := s.mapLane l (fun x => { x with calVal := record, restored := true })
  if s.lanes.freeSpare (l / 4) == some l then t.bringUp l record true else t

/-- LANE_APPLY (R361): the staged record is loaded, or the write is refused with PARAM_ERR. -/
def execLaneApply (n : Fin 32) (s : State) : Host.Outcome State Fault Refusal :=
  let x := s.lanes.lane n
  if x.appliable && recordOk n x.staged then .next (s.applyRecord n x.staged) else .next (s.mapLane n (fun y => { y with paramErr := true }))

/-- FEC_CORR_READ (R360): the count of corrected symbols is returned and cleared. -/
def execFecCorrRead (n : Fin 32) (s : State) : Host.Outcome State Fault Refusal :=
  .next ((s.mapLane n (fun x => { x with fecCorr := 0 })).emit (.readData (s.lanes.lane n).fecCorr.toNat))

/-- FEC_UNCORR_READ (R360): the count of uncorrectable codewords is returned and cleared. -/
def execFecUncorrRead (n : Fin 32) (s : State) : Host.Outcome State Fault Refusal :=
  .next ((s.mapLane n (fun x => { x with fecUncorr := 0 })).emit (.readData (s.lanes.lane n).fecUncorr.toNat))

/-! ## Link time -/

/-- LT_SYNC (R384): an LT_SYNC on every ingress and egress channel in service. -/
def execLtSync (frac : Half) (s : State) : Host.Outcome State Fault Refusal := .next (s.sendLtSyncs frac.toNat)

/-- LT_DELAY_REQ (R350, R384): a peer's request on a channel is answered with LT_DELAY_RESP and its time of arrival, the fraction
interpolated at the port; one with a stale epoch is dropped. -/
def execLtDelayReq (chan : Fin 32) (epoch : Nat) (seq : Half) (frac : Half) (s : State) : Host.Outcome State Fault Refusal :=
  if epoch != (s.lanes.chan chan.val).epoch then .next (s.dropStale (unitHandle 0x0B chan.val) epoch)
  else if s.timedChan chan.val then
    .next (s.sendCell chan.val 3 (linkTime 3 seq.toNat (s.ns * 65536 + frac.toNat) s.time.stepGen 0 0))
  else .next s

end Sys2Proof.Machine
end

