-- ==== Sys2Proof/Machine/Ether.lean ====
section
/-!
DEFINITION. The Ethernet ports and the five-port bridge (R365 to R367), with the residence correction of the transparent clock (R383).
-/
namespace Sys2Proof.Machine

/-- The fields of a port block (Table 13-15). -/
def portFields (b : List Byte) : List (Nat × Bool) :=
  let mode := bitsOf (f8 b 0) 4 2
  [(0x00, mode ≤ 4), (0x01, (mode != 3 || f8 b 1 % 4 ≤ 2) && (mode != 4 || f8 b 1 % 4 ≤ 1)),
   (0x02, 1518 ≤ f16 b 2 && f16 b 2 ≤ 9216), (0x0C, 1 ≤ f16 b 0xC % 4096 && f16 b 0xC % 4096 ≤ 4094)]

/-- The FEC that a mode runs (Table 13-15): the choice of 25GBASE-KR and 10GBASE-KR, fixed elsewhere. -/
def fecOf (mode fec : Nat) : Nat := if mode = 3 ∨ mode = 4 then fec else 0

/-- The link of a port goes down: nothing stays queued, and its PTP port is no longer MASTER (R365, Table 14-2). -/
def State.ethDown (p : Fin 4) (s : State) : State :=
  let t := (s.mapEth p (fun y => { y with link := false, queues := Vector.replicate 8 [] })).mapLane (24 + p.val) (fun y => { y with cwLock := false })
  (t.mapPort p (fun y => { y with best := none, follow := none, delay := none, lastSync := none })).ptpDecide

/-- ETH_PORT_CONFIGURE (R365): a change of mode or FEC takes the link down, and the command completes at link up; MODE off and a block
that keeps a link up complete at once. -/
def execEthPortConfigure (c : Cmd) (s : State) : Host.Outcome State Fault Refusal :=
  runCmd .ethPortConfigure c s do
    let b ← structBytes s c
    needFields (portFields b)
    let p := f8 b 0 % 4
    let mode := bitsOf (f8 b 0) 4 2
    let old := s.eth p
    let fec := fecOf mode (f8 b 1 % 4)
    let keep := old.link && old.mode == mode && old.fec == fec
    let mac := if fld b 4 6 = 0 then s.dev.macBase + p else fld b 4 6
    let t := s.mapEth p (fun x => { x with
      mode := mode, fec := fec, mtu := f16 b 2, mac := mac % 2 ^ 48, fwd := f8 b 0xA % 16, pcp := f8 b 0xB % 8, pvid := f16 b 0xC % 4096,
      vids := Vector.ofFn (fun i : Fin 8 => f16 b (0x10 + 2 * i.val) % 4096), link := keep })
    let t := t.mapLane (24 + p) (fun x => { x with
      state := if mode = 0 then .off else if x.state == .calibrating then .calibrating else .eth, rate := mode,
      cwLock := x.cwLock && keep, inPlace := x.inPlace && mode != 0 })
    let t := if keep then t else t.ethDown (Fin.ofNat 4 p)
    if mode = 0 then
      let t := (old.by_.foldl (fun w r => w.finish r .ok 0 0 false) t).mapEth p (fun x => { x with by_ := [] })
      okDone 0 0 t
    else if keep then okDone mode 0 t
    else waitDone .ethPortConfigure c (t.mapEth p (fun x => { x with by_ := x.by_ ++ [ref .ethPortConfigure c] }))

/-- ETH_LINK_UP (R365): the link comes up, and ETH_PORT_CONFIGURE completes. -/
def execEthLinkUp (p : Fin 4) (s : State) : Host.Outcome State Fault Refusal :=
  let x := s.eth p
  if x.mode = 0 ∨ (s.lanes.lane (24 + p.val)).state = .off then .next s
  else
    let t := (s.mapEth p (fun y => { y with link := true, by_ := [] })).mapLane (24 + p.val) (fun y => { y with cwLock := true })
    .next (x.by_.foldl (fun w r => w.finish r .ok x.mode 0 false) t)

/-- ETH_LINK_TIMEOUT (R365): 100 ms without link; the command completes with HARDWARE_FAULT and the port keeps trying. -/
def execEthLinkTimeout (p : Fin 4) (s : State) : Host.Outcome State Fault Refusal :=
  let x := s.eth p
  if x.link || x.by_.isEmpty then .next s
  else
    let h := unitHandle 0x0C (24 + p.val)
    let entry : LogInfo := { source := 0x0B, code := Status.hardwareFault.code, unit := h }
    .next (x.by_.foldl (fun (w : State) (r : CmdRef) =>
      let t := w.logError (entry.about (some r))
      t.finish r .hardwareFault h.toNat t.errSeq true) (s.mapEth p (fun y => { y with by_ := [] })))

/-- ETH_LINK_DOWN (R365, Table 14-2): the link goes down; its PTP port is no longer MASTER. -/
def execEthLinkDown (p : Fin 4) (s : State) : Host.Outcome State Fault Refusal :=
  if !(s.eth p).link then .next s else .next (s.ethDown p)

/-! ## Frames -/

/-- Whether a frame carries an IEEE 802.1Q tag. -/
def frTagged (f : List Byte) : Bool := be f 12 2 == 0x8100
/-- The offset of a frame's EtherType. -/
def frType (f : List Byte) : Nat := if frTagged f then 16 else 12
/-- The VLAN of a frame on a port (PVID for untagged and priority-tagged frames). -/
def EthPort.vidOf (x : EthPort) (f : List Byte) : Nat :=
  let v := be f 14 2 % 4096
  if frTagged f && v != 0 then v else x.pvid
/-- The priority of a frame on a port. -/
def EthPort.pcpOf (x : EthPort) (f : List Byte) : Nat := if frTagged f then be f 14 2 / 8192 else x.pcp
/-- Whether a port is a member of a VLAN: its PVID, or one of VIDS (log 35). -/
def EthPort.member (x : EthPort) (vid : Nat) : Bool := vid == x.pvid || (vid != 0 && x.vids.toList.contains vid)

/-- The offset of the UDP header of an IPv4 datagram. -/
def frUdp (f : List Byte) : Nat := frType f + 2 + 4 * (be f (frType f + 2) 1 % 16)

/-- The offset of the PTP header of a frame, none for a frame that is no PTP message (R367). -/
def frPtp (f : List Byte) : Option Nat :=
  let t := frType f
  if be f t 2 = 0x88F7 then some (t + 2)
  else if be f t 2 == 0x0800 && be f (t + 11) 1 == 17 && (be f (frUdp f + 2) 2 == 319 || be f (frUdp f + 2) 2 == 320) then some (frUdp f + 8)
  else none

/-- A PTP message in a frame (IEEE 1588-2019): where it starts, its type, domain, two-step flag, sequence, and source port identity. -/
structure PtpView where
  off     : Nat
  kind    : Nat
  domain  : Nat
  twoStep : Bool
  seq     : Nat
  src     : Nat
deriving DecidableEq, Repr

/-- The PTP message of a frame. -/
def ptpView (f : List Byte) : Option PtpView :=
  (frPtp f).map (fun o => { off := o, kind := be f o 1 % 16, domain := be f (o + 4) 1, twoStep := bitOf (be f (o + 6) 1) 1,
                            seq := be f (o + 30) 2, src := be f (o + 20) 10 })

/-- The addresses of PTP multicast (IEEE 1588-2019): the default and the peer delay addresses of Layer 2, and those of IPv4. -/
def ptpMulticast (dst : Nat) : Bool :=
  dst == 0x011B19000000 || dst == 0x0180C200000E || dst == 0x01005E000181 || dst == 0x01005E00006B
/-- A group address. -/
def isGroup (mac : Nat) : Bool := bitOf (mac / 2 ^ 40) 0
/-- Whether an address is one of the device's ports. -/
def State.ownMac (s : State) (mac : Nat) : Bool := s.lanes.ports.toList.any (fun p => p.mac == mac)

/-- Whether a PTP message is for another domain than Tallyman's, or the device is only a transparent clock (R380, R383). -/
def TimeSt.foreign (t : TimeSt) (domain : Nat) : Bool := t.mode.role == 0 || t.mode.role == 4 || domain != t.mode.domain

/-! ## Residence -/

/-- The rate ratio of a domain's grandmaster to the counter (R383). -/
def TimeSt.ratioOf (t : TimeSt) (domain : Nat) : Int × Int :=
  match t.ratio.find? (fun r => r.domain == domain) with
  | some r => (r.num, r.den)
  | none => (1, 1)

/-- The time in a Sync or Follow_Up in 2^-16 ns: its timestamp of seconds and nanoseconds and its correctionField. -/
def ptpOrigin (f : List Byte) (o : Nat) : Int :=
  ((be f (o + 34) 6 * 1000000000 + be f (o + 40) 4) * 65536 : Nat) + sext 64 (be f (o + 8) 8)

/-- A Sync of a domain has a new origin time: the ratio is that of the differences since the Sync before (R383). -/
def TcRatio.measured (r : TcRatio) (origin : Int) : TcRatio :=
  let fresh : TcRatio := { r with origin := some origin, prev := some (origin, r.ingress) }
  match r.prev with
  | some (o, i) => if i < r.ingress && o < origin then { fresh with num := origin - o, den := r.ingress - i } else fresh
  | none => fresh

/-- Notes the Sync and Follow_Up messages of a domain (R383). Ingress times leave out the steps applied. -/
def TimeSt.noteSync (t : TimeSt) (f : List Byte) (v : PtpView) (stamp : Int) : TimeSt :=
  let same (r : TcRatio) : Bool := r.domain == v.domain
  if v.kind = 0 then
    let old := (t.ratio.find? same).getD { domain := v.domain, num := 1, den := 1, seq := 0, origin := none, ingress := 0, prev := none }
    let r : TcRatio := { old with seq := v.seq, origin := none, ingress := stamp - t.stepSum }
    let r := if v.twoStep then r else r.measured (ptpOrigin f v.off)
    { t with ratio := t.ratio.filter (fun x => !same x) ++ [r] }
  else if v.kind = 8 then
    { t with ratio := updWhere (fun r => same r && r.seq == v.seq && r.origin.isNone) (fun r => r.measured (ptpOrigin f v.off)) t.ratio }
  else t

/-- Rewrites the UDP checksum of a frame; a checksum of zero is unused and stays (R383). -/
def fixUdp (f : List Byte) : List Byte :=
  let u := frUdp f
  let ip := frType f + 2
  let n := be f (u + 4) 2
  if be f (frType f) 2 != 0x0800 || be f (u + 6) 2 == 0 then f
  else
    let g := patch f (u + 6) [0, 0]
    let c := 0xFFFF - fold16 (sum16 (slice g (ip + 12) 8) + 17 + n + sum16 (slice g u n))
    patch g (u + 6) (beBytes 2 (if c = 0 then 0xFFFF else c))

/-- Adds a correction to the correctionField of a message. -/
def addCorr (f : List Byte) (off : Nat) (d : Int) : List Byte :=
  fixUdp (patch f (off + 8) (beBytes 8 (wrapInt 64 (sext 64 (be f (off + 8) 8) + d))))

/-- The correction of a forwarded event message (R383): the residence without steps, by the rate ratio; under profile 1 also the link
delay and the asymmetry of the ingress port for a Sync. -/
def TimeSt.correction (t : TimeSt) (v : PtpView) (x : EgressFrame) : Int :=
  let e : Int := (t.now / 65536 : Nat)
  let r := e - x.stamp - (t.stepSum - x.steps)
  let q := t.ratioOf v.domain
  let res := if q.2 ≤ 0 then r else roundDiv (r * q.1) q.2.toNat
  if t.mode.profile == 1 && v.kind == 0 then
    res + ((vget t.ports PtpPort.reset x.inp).linkDelay.toNat : Int) + sext 32 (vget t.asym 0 x.inp).toNat
  else res

/-- Whether a queued frame is an event message that gets a correction: TC_EN, and the bridge forwards it, so that it is not Tallyman's own (R383). -/
def TimeSt.corrects (t : TimeSt) (v : PtpView) (x : EgressFrame) : Bool := t.mode.tcEn && v.kind ≤ 3 && x.inp != 4

/-- Whether a follow-up matches an event message. -/
def followsUp (v e : PtpView) : Bool :=
  (v.kind == 8 && e.kind == 0 || v.kind == 10 && e.kind == 3) && v.src == e.src && v.seq == e.seq && v.domain == e.domain

/-- Whether a queued frame must wait: a follow-up whose event message has not left the port (R383). -/
def EthPort.mustWait (x : EthPort) (f : EgressFrame) : Bool :=
  match ptpView f.data with
  | none => false
  | some v => x.queues.toList.any (fun q => q.any (fun g => ((ptpView g.data).map (followsUp v)).getD false))

/-- One frame leaves a port: strict priority, the first frame that need not wait (R366). -/
def State.sendFrame (p : Nat) (s : State) : State :=
  let x := s.eth p
  if !s.ethOpen p then s
  else
    match ([7, 6, 5, 4, 3, 2, 1, 0] : List Nat).findSome? (fun k => ((vget x.queues [] k).find? (fun f => !x.mustWait f)).map (fun f => (k, f))) with
    | none => s
    | some (k, f) =>
      let t := s.mapEth p (fun y => { y with queues := vmod y.queues k (dropFirst (fun g => !x.mustWait g)) })
      match ptpView f.data with
      | none => t.emit (.ethFrame p f.data)
      | some v =>
        if s.time.corrects v f then
          let d := s.time.correction v f
          let t := t.mapTime (fun m => { m with tcForwarded := m.tcForwarded.satInc })
          if v.twoStep && (v.kind == 0 || v.kind == 3) then
            (t.mapTime (fun m => { m with held := m.held ++ [{ port := p, src := v.src, domain := v.domain, seq := v.seq, kind := v.kind, corr := d }] })).emit
              (.ethFrame p f.data)
          else t.emit (.ethFrame p (addCorr f.data v.off d))
        else
          let is (h : TcHeld) : Bool := h.port == p && h.src == v.src && h.domain == v.domain && h.seq == v.seq
            && (v.kind == 8 && h.kind == 0 || v.kind == 10 && h.kind == 3)
          match t.time.held.find? is with
          | some h => (t.mapTime (fun m => { m with held := dropFirst is m.held })).emit (.ethFrame p (addCorr f.data v.off h.corr))
          | none => t.emit (.ethFrame p f.data)

/-- One frame leaves each port that has one. -/
def State.sendFrames (s : State) : State := (List.range 4).foldl (fun t p => t.sendFrame p) s

/-! ## The bridge -/

/-- The ports that a frame goes to (R366): the learned port of a known address, else every other port, where FWD_MASK allows and both
ports are members of its VLAN. -/
def State.forwardTo (s : State) (inp dst vid : Nat) : List Nat :=
  let may (p : Nat) : Bool := p != inp && bitOf (s.eth inp).fwd p && (s.eth p).member vid && (s.eth p).link
  match (if isGroup dst then none else s.lanes.learned.find? (fun e => e.mac == dst && e.vid == vid)) with
  | some e => [e.port].filter may
  | none => (List.range 4).filter may

/-- Learns or refreshes the source address of a frame; a full table learns no more (R366, log 35). -/
def State.learn (inp src vid : Nat) (s : State) : State :=
  let same (e : Learned) : Bool := e.mac == src && e.vid == vid
  if isGroup src then s
  else if s.lanes.learned.any same then
    s.mapLanes (fun x => { x with learned := updWhere same (fun e => { e with port := inp }) x.learned })
  else if s.lanes.learned.length < 1024 then
    s.mapLanes (fun x => { x with learned := x.learned ++ [{ mac := src, vid := vid, port := inp }] })
  else s

/-- BRIDGE_FRAME (R366, R367, R383): a frame arrives at a port with its ingress stamp's fraction. A frame of a foreign VLAN, or longer than
the port's MTU, is discarded. PTP messages to the device or to PTP multicast go to Tallyman, whose rows SYNC and so on say what they do;
every other frame to the device is discarded and counted; the rest is queued for the ports it is forwarded to. -/
def execBridgeFrame (p : Fin 4) (data : List Byte) (frac : Half) (s : State) : Host.Outcome State Fault Refusal :=
  let x := s.eth p
  let vid := x.vidOf data
  if !s.ethOpen p || Nat.blt x.mtu data.length || !x.member vid then .next s
  else
    let dst := be data 0 6
    let t := s.learn p (be data 6 6) vid
    let v := ptpView data
    let stamp := s.time.portStamp frac
    let t := match v with
      | some w => t.mapTime (fun m => m.noteSync data w stamp)
      | none => t
    if s.ownMac dst then
      .next (if v.isSome then t else t.mapLanes (fun y => { y with internalDiscarded := y.internalDiscarded.satInc }))
    else
      let mine := (v.map (fun w => !s.time.foreign w.domain && bitOf s.time.mode.ports p.val)).getD false
      if dst == 0x0180C200000E || (mine && ptpMulticast dst) then .next t
      else
        let f : EgressFrame := { data := data, inp := p, stamp := stamp, steps := s.time.stepSum }
        .next ((s.forwardTo p dst vid).foldl (fun w o =>
          w.mapEth o (fun y => { y with queues := vmod y.queues (x.pcpOf data) (fun q => q ++ [f]) })) t)

/-- ADDRESS_AGEING (R366): an address not seen for 300 s is forgotten. -/
def execAddressAgeing (mac vid : Nat) (s : State) : Host.Outcome State Fault Refusal :=
  .next (s.mapLanes (fun x => { x with
    learned := x.learned.filter (fun e => !(e.mac == mac && e.vid == vid)) }))

/-- TC_HOLD_TIMEOUT (R383): an event message held in a port's egress queue for more than 1 ms is discarded and counted. -/
def execTcHoldTimeout (port domain seq : Nat) (s : State) : Host.Outcome State Fault Refusal :=
  let is (f : EgressFrame) : Bool := match ptpView f.data with
    | some v => s.time.corrects v f && v.domain == domain && v.seq == seq
    | none => false
  if (s.eth port).queues.toList.any (fun q => q.any is) then
    .next ((s.mapEth port (fun x => { x with queues := vmapIdx x.queues (fun _ q => dropFirst is q) })).mapTime
      (fun t => { t with tcDiscarded := t.tcDiscarded.satInc }))
  else .next s

end Sys2Proof.Machine
end

