-- ==== Sys2Proof/Machine/ExpCmds.lean ====
section
/-!
DEFINITION. EXP_APPLY and EXP_SET_LIMITS (chapter 06).
-/
namespace Sys2Proof.Machine

/-- A bound policy owns the fields of its role (R178, R179); the role of a FAULTED kernel behaves as unbound (R313). -/
def needRoles (s : State) (x : CamCtx) (b : List Byte) : Chk Unit := do
  match (vget x.policies none 0).filter s.kernelRuns with
  | some h => need (!(apGroups b != [] || apExp b)) (conflict h 0x540)
  | none => .ok ()
  match (vget x.policies none 1).filter s.kernelRuns with
  | some h => need (!(apWb b || apMix b)) (conflict h 0x541)
  | none => .ok ()

/-- EXP_APPLY (R168 to R173, R179). A STOPPING context is taken as a RUNNING one, whose frames R168 lets an apply name: what has not landed when the
run ends is ended there (log 30). -/
def execExpApply (c : Cmd) (s : State) : Host.Outcome State Fault Refusal :=
  runCmd .expApply c s do
    let cam ← needCam s c.handle
    let x := s.cam cam
    let p := x.profile
    let b ← structBytes s c
    needFields (applyFields p x.limits b)
    needRoles s x b
    let next := bitOf (par c 1) 0
    let running := x.state == .running || x.state == .stopping
    let ahead := (par c 0 + 2 ^ 32 - x.fnNextAt s.ns % 2 ^ 32) % 2 ^ 32
    needPar0 (next || (if running then ahead ≤ 64 else par c 0 == 0))
    need (Nat.blt x.applies.length 16) (notReady 0x50)
    need (!(x.failed && apGroups b != [])) (notReady 0x04)
    let r := ref .expApply c
    if !running then waitDone .expApply c (s.issueApply cam (some r) b 0 0 false true)
    else
      let g := s.host.feat.guard
      let first := x.firstTarget s.ns g b
      let want := x.fnNextAt s.ns + ahead
      if next then waitDone .expApply c (s.issueApply cam (some r) b first 0 false false)
      else if x.achievable s.ns g b want then waitDone .expApply c (s.issueApply cam (some r) b want 0 false false)
      else if strict c then .ok (.done .tooLate (first % 2 ^ 32) 0 (s.countCam cam (fun n => { n with tooLate := n.tooLate.satInc })))
      else waitDone .expApply c (s.issueApply cam (some r) b first 0 true false)

/-- The fields of a limits block (R176, Table 06-10). -/
def limitFields (p b : List Byte) : List (Nat × Bool) :=
  (List.range 3).map (fun e => (4 * e, decide (f32 b (4 * e) ≤ f32 b (0xC + 4 * e))))
  ++ (List.range 3).map (fun e => (0xC + 4 * e, decide (f32 b (0xC + 4 * e) ≤ pfPeriod p)))
  ++ [(0x18, 0x1000000 ≤ f32 b 0x18 && f32 b 0x18 ≤ f32 b 0x1C), (0x20, decide (f32 b 0x20 ≤ f32 b 0x24)),
      (0x24, decide (f32 b 0x24 ≤ 0xFFFFF)), (0x2A, f16 b 0x2A == 0 || 0x1000 ≤ f16 b 0x2A)]
  ++ (List.range 8).flatMap (fun g => (packedRegs p g).map (fun r => (0x30 + r.1, decide (fld b (0x30 + r.1) r.2 ≤ fld b (0x58 + r.1) r.2))))

/-- EXP_SET_LIMITS (R176). -/
def execExpSetLimits (c : Cmd) (s : State) : Host.Outcome State Fault Refusal :=
  runCmd .expSetLimits c s do
    let cam ← needCam s c.handle
    let b ← structBytes s c
    needFields (limitFields (s.cam cam).profile b)
    okDone 0 0 (s.mapCam cam (fun x => { x with limits := b }))

end Sys2Proof.Machine
end

