-- ==== Sys2Proof/Machine/Features.lean ====
section
/-!
DEFINITION. The features of SET_FEATURE and GET_FEATURE (R48, Table 02-20).
-/
namespace Sys2Proof.Machine

/-- What a feature's value holds: the words PARAM1 to PARAM3 as SET_FEATURE carries them. -/
abbrev FeatureWords := Nat × Nat × Nat

/-- The checks of the words after those that a feature uses: they are reserved. -/
def restZero (c : Cmd) (used : Nat) : Chk Unit :=
  match ((List.range 7).map (· + 1)).find? (fun i => Nat.blt used i && par c i != 0) with
  | some i => .error (badParam i)
  | none => .ok ()

/-- A feature of device scope takes no handle. -/
def deviceScope (c : Cmd) : Chk Unit := need (c.handle == 0) (badPacket 0x08)

/-- The context that a feature of camera scope names. -/
def cameraScope (s : State) (c : Cmd) : Chk Nat := do
  need (typeOf c.handle == 2 && s.liveHandle c.handle) (badHandle c.handle 0)
  needSome (s.cams.find c.handle) (badHandle c.handle 0)

/-- Changes the features of device scope. -/
def State.mapFeat (f : Features → Features) (s : State) : State := s.mapHost (fun h => { h with feat := f h.feat })

/-- A feature of one number inside a range (features 0x02, 0x31, 0x40 and 0x41). -/
def setNumber (c : Cmd) (lo hi : Nat) (f : Nat → Features → Features) (s : State) : Chk Done := do
  deviceScope c
  restZero c 1
  need (Nat.ble lo (par c 1) && Nat.ble (par c 1) hi) (badParam 1)
  okDone 0 0 (s.mapFeat (f (par c 1)))

/-- Feature 0x01: the arbitration weights (R36). -/
def setWeights (c : Cmd) (s : State) : Chk Done := do
  deviceScope c
  restZero c 1
  let w := par c 1
  need (Nat.blt w (2 ^ 24) && bitsOf w 7 0 != 0 && bitsOf w 15 8 != 0 && bitsOf w 23 16 != 0) (badParam 1)
  okDone 0 0 (s.mapFeat (fun x => { x with wHigh := bitsOf w 7 0, wMedium := bitsOf w 15 8, wLow := bitsOf w 23 16 }))

/-- Feature 0x30: the shedding thresholds (R94), each at least the one before it. -/
def setShedding (c : Cmd) (s : State) : Chk Done := do
  deviceScope c
  restZero c 3
  need (Nat.ble (par c 1) (par c 2)) (badParam 2)
  need (Nat.ble (par c 2) (par c 3)) (badParam 3)
  okDone 0 0 (s.mapFeat (fun x => { x with shed3 := par c 1, shed2 := par c 2, shed1 := par c 3 }))

/-- Feature 0x32: the motion parameters of a camera (R191), which latch at a start of frame; RESULT0 names the first FN that uses them. -/
def setMotion (c : Cmd) (s : State) : Chk Done := do
  let cam ← cameraScope s c
  restZero c 1
  need (Nat.blt (par c 1) 0x200 && bitsOf (par c 1) 7 0 != 0) (badParam 1)
  let put (x : CamCtx) : CamCtx := { x with next := { x.next with lambda := bitsOf (par c 1) 7 0, tpred := bitOf (par c 1) 8 } }
  okDone (s.cam cam).stagedFn 0 (s.mapCam cam put)

/-- Feature 0x33: FRAME_DONE of a camera (R49), in effect at dispatch; EVERY 0 selects 1. -/
def setFrameDone (c : Cmd) (s : State) : Chk Done := do
  let cam ← cameraScope s c
  restZero c 1
  need (Nat.land (par c 1) 0xFFFF00FE == 0) (badParam 1)
  okDone 0 0 (s.mapCam cam (fun x => { x with frameDone := bitOf (par c 1) 0, doneEvery := Nat.max 1 (bitsOf (par c 1) 15 8) }))

/-- SET_FEATURE (R48): the feature that PARAM0 names takes the value of PARAM1 on. -/
def execSetFeature (c : Cmd) (s : State) : Host.Outcome State Fault Refusal :=
  runCmd .setFeature c s
    (match par c 0 with
    | 0x01 => setWeights c s
    | 0x02 => setNumber c 10 10000 (fun v x => { x with drainLimit := v }) s
    | 0x30 => setShedding c s
    | 0x31 => setNumber c 50 5000 (fun v x => { x with guard := v }) s
    | 0x32 => setMotion c s
    | 0x33 => setFrameDone c s
    | 0x40 => setNumber c 10 1000 (fun v x => { x with retrainMs := v }) s
    | 0x41 => setNumber c 1 168 (fun v x => { x with scrubH := v }) s
    | _ => .error (badParam 0))

/-- The motion parameters in force: those latched for a context that runs, those staged otherwise. -/
def CamCtx.motionNow (c : CamCtx) : Nat :=
  let x := if c.state == .running || c.state == .stopping then c.last else c.next
  x.lambda + 2 ^ 8 * bit01 x.tpred

/-- The value of a feature in force as SET_FEATURE carries it. -/
def featureNow (s : State) (c : Cmd) : Chk FeatureWords :=
  let f := s.host.feat
  let device (x : FeatureWords) : Chk FeatureWords := do
    deviceScope c
    return x
  match par c 0 with
  | 0x01 => device (f.wHigh + 2 ^ 8 * f.wMedium + 2 ^ 16 * f.wLow, 0, 0)
  | 0x02 => device (f.drainLimit, 0, 0)
  | 0x30 => device (f.shed3, f.shed2, f.shed1)
  | 0x31 => device (f.guard, 0, 0)
  | 0x32 => do
    let cam ← cameraScope s c
    return ((s.cam cam).motionNow, 0, 0)
  | 0x33 => do
    let cam ← cameraScope s c
    let x := s.cam cam
    return (bit01 x.frameDone + 2 ^ 8 * x.doneEvery, 0, 0)
  | 0x40 => device (f.retrainMs, 0, 0)
  | 0x41 => device (f.scrubH, 0, 0)
  | _ => .error (badParam 0)

/-- GET_FEATURE (R46, R48): PARAM0 to PARAM7 of the value in force go to the first 32 bytes of the PTR range, PARAM1 and PARAM2 into the completion. -/
def execGetFeature (c : Cmd) (s : State) : Host.Outcome State Fault Refusal :=
  runCmd .getFeature c s do
    let v ← featureNow s c
    okDone v.1 v.2.1 (s.writePtr c (layout 32 [(0, 4, par c 0), (4, 4, v.1), (8, 4, v.2.1), (12, 4, v.2.2)]))

end Sys2Proof.Machine
end

