-- ==== Sys2Proof/Machine/JmCmds.lean ====
section
/-!
DEFINITION. The Journeyman commands JM_LOAD_KERNEL, JM_BIND_STAGE, JM_UNLOAD and EXP_POLICY_BIND, and the events of invocations (chapter 11).
What a kernel computes lies in Spadal's documents and not in this manual: the events carry it.
-/
namespace Sys2Proof.Machine

/-- The header of a kernel image (Table 11-3). -/
def imageOk (h : List Byte) : Bool :=
  let tile := khClass h = 0
  let len := khLen h
  f32 h 0 == 0x314B4D4A && f16 h 4 == 1 && khClass h ≤ 2 && khSigner h ≤ 2 && len % 64 == 0 && 64 ≤ len && len ≤ 65536
    && Nat.blt (f32 h 0xC) len && khState h ≤ 16384 && khState h % 64 == 0 && (!tile || khState h == 0) && khParam h ≤ 4096 && khParam h % 64 == 0
    && (if tile then 1000 ≤ khCpt h && khCpt h ≤ 1000000 else khCpt h == 0) && khHalo h ≤ 4 && Nat.blt (f8 h 0x1D) 4
    && (List.range 4).all (fun i => khPlane h i ≤ 4) && khReds h ≤ 256 && khRedMin h ≤ khReds h && zeroRange h 0x28 0x3F
    && (khSigner h == 2 || zeroRange h 0x40 0x9F)

/-- The signature of a kernel image (R298): keyOk says that the digest of PUBKEY equals the fused hash, sigOk that SIG verifies. -/
def signatureFault (fused : Bool) (signer : Nat) (keyOk sigOk : Bool) : Option Nat :=
  match signer with
  | 0 => if fused then some 4 else none
  | 1 => if sigOk then none else some 2
  | _ => if fused && !keyOk then some 3 else if sigOk then none else some 2

/-- JM_LOAD_KERNEL (R295, R297, R298, R299). -/
def execJmLoadKernel (c : Cmd) (keyOk sigOk : Bool) (s : State) : Host.Outcome State Fault Refusal :=
  runCmd .jmLoadKernel c s do
    let n := par c 0
    needPar0 (1 ≤ n && n ≤ 128)
    let img ← tableBytes s c 256 (fun _ => c.ptrLen.toNat)
    let h := img.take 256
    need (imageOk h) (rejected 1)
    need (img.length == 256 + khLen h + khState h) (violation 0x02 (c.ptr.toNat + 256 + khLen h + khState h))
    match signatureFault s.mgmt.fw.ownerKey.isSome (khSigner h) keyOk sigOk with
    | some k => .error (rejected k)
    | none =>
      let free := (List.range 128).filter (fun r => (s.mgmt.units.unitOf .siteU r).isSome && s.jm.kernels.all (fun k => !k.roles.contains r))
      need (n ≤ free.length) (notReady 0xA0)
      let k : Kernel := { handle := s.nextHandle 8, head := h, body := img.drop 256, roles := free.take n, faulted := false, unload := none, consec := 0,
                          lastTrap := 0, cnt := KernelCounters.zero }
      let t := if c.ptrSpace = 1 then s.reads .journeyman .queueEngine noCam c.ptr.toNat c.ptrLen.toNat else s
      okDone k.handle.toNat (s.capacity k) ((t.issue 8).mapJm (fun j => { j with kernels := j.kernels ++ [k] }))

/-- The kernel of a live handle. -/
def needKernel (s : State) (h : Handle) (place : Nat) : Chk Kernel := needSome (s.kernel h) (badHandle h place)

/-- Whether a kernel takes another binding (R312, R313, Table 11-5). -/
def needBindable (k : Kernel) : Chk Unit := do
  need k.unload.isNone (notReady 0xA2)
  need (!k.faulted) (notReady 0xA1)

/-- Bindings of a kernel, in force or staged. -/
def State.bindsOf (s : State) (h : Handle) : List KBind := s.jm.binds.filter (fun b => b.kernel == h)

/-- A binding that is new: staged, with parameters of zero and the initial state (R303, R311). -/
def newBind (s : State) (k : Kernel) (target : Handle) (hook : Nat) : KBind :=
  { kernel := k.handle, slot := s.bindSlot k.handle, target := target, hook := hook, blk := [], ring := Ring.absent, params := zeros (khParam k.head),
    nextParams := none, mem := k.initial, charge := 0, by_ := none, fromSeq := 0, live := false, leaving := false, readySince := none }

/-- The fields of a bind block (Table 11-10). -/
def bindFields (h b : List Byte) : List (Nat × Bool) :=
  [(0x00, bitOf (f8 h 0x1D) (bitsOf (f8 b 0) 1 1)), (0x01, 1 ≤ f8 b 1 && f8 b 1 ≤ 16), (0x02, 1 ≤ f8 b 2), (0x08, f32 b 8 % 64 == 0)]

/-- OP 0 on a TILE kernel (R299, R309, R310). -/
def bindTile (c : Cmd) (k : Kernel) (s : State) : Chk Done := do
  needBindable k
  need (Nat.blt (s.bindsOf k.handle).length 8) (notReady 0xA3)
  let cam ← needSome (s.cams.find c.aux) (badHandle c.aux 1)
  let x := s.cam cam
  need (x.state == .configured || x.state == .running) (notReady 0xA4)
  let b ← structFor s c (.read 32)
  needFields (bindFields k.head b)
  let hook := f8 b 0 % 2
  let size := hookSlotSize k.head (pfW x.profile) (pfH x.profile)
  let buf ← needBuffer s (BitVec.ofNat 32 (f32 b 4)) 2
  need (f32 b 8 + f8 b 1 * size ≤ buf.size) (badStruct 0x01)
  let charge := tileCharge x.profile (f8 b 2)
  let left := s.capacity k - s.charged k.handle
  need (charge ≤ left) (overBudget charge left)
  needRing s c.aux (0xA20 + hook) (buf.base + f32 b 8) (f8 b 1 * size)
  let y : KBind := { newBind s k c.aux hook with
    blk := b, ring := Ring.fresh 0 (buf.base + f32 b 8) size (f8 b 1), charge := charge, by_ := some (ref .jmBindStage c) }
  waitDone .jmBindStage c (s.mapJm (fun j => { j with binds := j.binds ++ [y] }))

/-- OP 0 on a RATE kernel (R211, R310). -/
def bindRate (c : Cmd) (k : Kernel) (s : State) : Chk Done := do
  needBindable k
  need (Nat.blt (s.bindsOf k.handle).length 8) (notReady 0xA3)
  let e ← needSome (s.enc c.aux) (badHandle c.aux 1)
  need (!e.faulted) (notReady 0x64)
  need (!e.closing && !e.ended) (notReady 0xA4)
  let _ ← structFor s c .none
  let y : KBind := { newBind s k c.aux 3 with by_ := some (ref .jmBindStage c), fromSeq := s.seqFrom e }
  waitDone .jmBindStage c (s.mapJm (fun j => { j with binds := j.binds ++ [y] }))

/-- The binding that OP 1, 2 and 3 name: that of the kernel on the camera's hook or the session, the newest first. -/
def State.bindNamed (s : State) (k : Kernel) (c : Cmd) : Option KBind :=
  ((s.bindsOf k.handle).reverse).find? (fun b => b.target == c.aux && (khClass k.head != 0 || b.hook == bitsOf (par c 0) 4 4))

/-- OP 1 (R156, R309): the host lets go the slots up to FN_REL. -/
def releaseHooks (c : Cmd) (k : Kernel) (s : State) : Chk Done := do
  let _ ← structFor s c .none
  need (!k.faulted) (notReady 0xA1)
  let b ← needSome (s.bindNamed k c) (notReady 0xA5)
  let run := ((s.cams.find c.aux).map (fun i => (s.cam i).run)).getD 0
  let new := b.ring.release 0 (fun q => q.upTo run (par c 1))
  okDone (b.ring.inUse - new.inUse) 0 (s.mapBinds (fun y => y == b) (fun y => { y with ring := new }))

/-- OP 2 (R310): the binding goes at its next boundary; one that is still staged goes at once, and its command ends (log 45). -/
def unbindStage (c : Cmd) (k : Kernel) (s : State) : Chk Done := do
  let _ ← structFor s c .none
  let b ← needSome (s.bindNamed k c) (notReady 0xA5)
  match khClass k.head, s.cams.find c.aux with
  | 1, some cam =>
    let x := s.cam cam
    let next (i : Nat) (o : Option (Option Handle)) : Option (Option Handle) :=
      if o.getD (vget x.policies none i) == some k.handle then some none else o
    let t := s.mapCam cam (fun y => { y with bindNext := vmapIdx y.bindNext next })
    okDone 0 0 (if x.next.stats.isSome then t else t.latchPolicies cam 0)
  | _, _ =>
    if b.live then
      let from_ := ((s.enc c.aux).map s.seqFrom).getD 0
      let t := s.mapBinds (fun y => y == b) (fun y => { y with leaving := true, fromSeq := from_ })
      okDone 0 0 t
    else
      let t := s.mapJm (fun j => { j with binds := j.binds.filter (fun y => y != b) })
      okDone 0 0 (match b.by_ with | some r => t.finish r .notReady 0xA5 0 false | none => t)

/-- OP 3 (R311): the parameters of a TILE binding wait for the next start of frame. -/
def setParams (c : Cmd) (k : Kernel) (s : State) : Chk Done := do
  need (!k.faulted) (notReady 0xA1)
  let n := khParam k.head
  need (c.ptrLen.toNat == n) (badPacket 0x18)
  let p ← structFor s c (if n = 0 then .none else .read n)
  let b ← needSome (s.bindNamed k c) (notReady 0xA5)
  okDone 0 0 (s.mapBinds (fun y => y == b) (fun y =>
    if khClass k.head = 0 && y.live then { y with nextParams := some p } else { y with params := p }))

/-- JM_BIND_STAGE (R299, R310, R311, R313). -/
def execJmBindStage (c : Cmd) (s : State) : Host.Outcome State Fault Refusal :=
  runCmd .jmBindStage c s do
    let k ← needKernel s c.handle 0
    let op := par c 0 % 4
    let rate := khClass k.head = 2
    need (typeOf c.aux == (if rate then 3 else 2) && s.liveHandle c.aux) (badHandle c.aux 1)
    need (op == 1 || par c 1 == 0) (badParam 1)
    match op with
    | 0 => match khClass k.head with
      | 0 => bindTile c k s
      | 1 => .error (badParam 0)
      | _ => bindRate c k s
    | 1 => releaseHooks c k s
    | 2 => unbindStage c k s
    | _ => setParams c k s

/-- Whether a binding has a staged replacement or unbind (R312). -/
def State.superseded (s : State) (b : KBind) : Bool :=
  if b.hook = 2 then
    match s.cams.find b.target with
    | some cam => (s.cam cam).bindNext.toList.zipIdx.all (fun x => x.1.getD (vget (s.cam cam).policies none x.2) != some b.kernel)
    | none => true
  else
    b.leaving || (s.jm.binds.dropWhile (fun y => y != b)).any (fun y => y.target == b.target && y.hook == b.hook && y.kernel != b.kernel && !y.live)

/-- JM_UNLOAD (R312). -/
def execJmUnload (c : Cmd) (s : State) : Host.Outcome State Fault Refusal :=
  runCmd .jmUnload c s do
    let k ← needKernel s c.handle 0
    need k.unload.isNone (notReady 0xA2)
    match (s.bindsOf k.handle).find? (fun b => !s.superseded b) with
    | some b => .error (conflict b.target (0xA00 + khClass k.head))
    | none =>
      let r := ref .jmUnload c
      .ok (.waits (((s.mapKernel k.handle (fun k => { k with unload := some r })).keepInFlight r).jmSettle))

/-- EXP_POLICY_BIND (R178, R312, R313, Table 11-5): handle 0 unbinds. It takes effect at the first statistics close after dispatch; on a context that is
not RUNNING the command does not wait for it. Without statistics there is no close, and a role is unbound at once (log 45). -/
def execExpPolicyBind (c : Cmd) (s : State) : Host.Outcome State Fault Refusal :=
  runCmd .expPolicyBind c s do
    let cam ← needCam s c.handle
    let x := s.cam cam
    let role := par c 0
    needPar0 (Nat.blt role 2)
    let new ← if c.aux = 0 then .ok none else do
        let k ← needKernel s c.aux 1
        needPar0 (khClass k.head == 1)
        needBindable k
        let mine := (s.bindsOf k.handle).any (fun b => b.target == c.handle)
        need (mine || Nat.blt (s.bindsOf k.handle).length 8) (notReady 0xA3)
        need x.next.stats.isSome (notReady 0x53)
        pure (some k)
    let t := s.mapCam cam (fun y => { y with bindNext := vmod y.bindNext role (fun _ => some (new.map Kernel.handle)) })
    let t := match new with
      | some k => if (s.bindsOf k.handle).any (fun b => b.target == c.handle) then t
          else t.mapJm (fun j => { j with binds := j.binds ++ [newBind s k c.handle 2] })
      | none => t
    if x.state == .running && x.next.stats.isSome then
      let r := ref .expPolicyBind c
      .ok (.waits ((t.keepInFlight r).mapJm (fun j => { j with polBy := j.polBy ++ [(cam, r)] })))
    else okDone 0 0 (if x.next.stats.isSome then t else (t.latchPolicies cam 0).jmSettle)

/-! ## Invocations -/

/-- A pending invocation of a kernel with its place in the order of R304. -/
def pendKey (deadline rank slot ty tx : Nat) : Nat := (((deadline * 3 + rank) * 8 + slot) * 65536 + ty) * 65536 + tx

/-- The pending invocations of a kernel. -/
def State.pendings (s : State) (k : Kernel) : List (Nat × Nat × JobKind) :=
  let rates := (s.jm.binds.filter (fun b => b.kernel == k.handle && b.hook == 3 && b.live)).filterMap (fun b =>
    match b.readySince, s.enc b.target with
    | some t, some e =>
      if !s.rateWaits e || s.jm.running.any (fun i => match i.kind with | .rate h _ _ => h == b.target | _ => false) then none
      else (s.readyPic e).map (fun n => (pendKey (t + 100000) 0 b.slot 0 0, b.slot, JobKind.rate b.target e.seqNext n.frame.fn))
    | _, _ => none)
  let policies := (s.jm.jobs.filter (fun q => q.kernel == k.handle && !q.started)).map (fun q =>
    (pendKey q.deadline 1 q.slot 0 0, q.slot, JobKind.policy q.cam q.run q.fn))
  let tiles := (s.jm.hooks.filter (fun f => f.kernel == k.handle)).flatMap (fun f => f.queued.map (fun t =>
    (pendKey f.deadline 2 f.slot t.2 t.1, f.slot, JobKind.tile f.cam f.hook f.run f.fn t.1 t.2)))
  rates ++ policies ++ tiles

/-- A state block with a marked line is reset to the initial state as an invocation starts (R303). -/
def State.resetBlock (k : Kernel) (slot : Nat) (s : State) : State :=
  (s.mapBinds (fun b => b.kernel == k.handle && b.slot == slot && b.hook != 0 && b.hook != 1) (fun b => { b with mem := k.initial })).countKernel
    k.handle (fun n => { n with resets := n.resets.satInc })

/-- A policy invocation starts: its windows name the hook slots of its frame that are complete, and it holds them (R301, R309). -/
def State.startPolicy (h : Handle) (cam run fn : Nat) (s : State) : State :=
  let target := s.camHandle cam
  let go (q : PolJob) : PolJob := { q with started := true }
  let t := s.mapJm (fun j => { j with jobs := updWhere (fun q => q.kernel == h && q.cam == cam && q.run == run && q.fn == fn) go j.jobs })
  t.mapBinds (fun b => b.live && b.target == target && b.hook < 2) (fun b => { b with ring := b.ring.hold h (fun x => x.fn == fn && x.run == run) })

/-- A tile leaves the queue for a thread. -/
def State.startTile (cam hook run fn tx ty : Nat) (s : State) : State :=
  let go (f : HookFrame) : HookFrame := { f with queued := f.queued.filter (· != (tx, ty)), started := f.started ++ [(tx, ty)] }
  s.mapJm (fun j => { j with hooks := updWhere (fun f => f.is cam hook run fn) go j.hooks })

/-- JM_INVOCATION_START (R296, R304): the lowest free thread of a role takes the first pending invocation of its kernel. statePoisoned says
that the state block of its binding carries a mark. -/
def execJmInvocationStart (role : Fin 128) (statePoisoned : Bool) (s0 : State) : Host.Outcome State Fault Refusal :=
  let s := s0.jmRates
  match s.jm.kernels.find? (fun k => k.roles.contains role.val), s.mgmt.units.unitOf .siteU role.val,
      (List.range 4).find? (fun t => s.jm.running.all (fun i => !(i.role == role.val && i.thread == t))) with
  | some k, some _, some thread =>
    if k.faulted then .next s
    else match minBy (fun x => x.1) (s.pendings k) with
      | none => .next s
      | some x =>
        let fresh := statePoisoned && khClass k.head != 0
        let i : Invoc := { kernel := k.handle, slot := x.2.1, kind := x.2.2, role := role.val, thread := thread,
                           epoch := s.mgmt.units.epochOf .siteU role.val, startNs := s.ns, wasReset := fresh }
        let t := s.mapJm (fun j => { j with running := j.running ++ [i] })
        let t := if fresh then t.resetBlock k x.2.1 else t
        .next (match x.2.2 with
          | .tile cam hook run fn tx ty => t.startTile cam hook run fn tx ty
          | .policy cam run fn => t.startPolicy k.handle cam run fn
          | .rate _ _ _ => t)
  | _, _, _ => .next s

/-- The invocation on a thread of a role. -/
def State.invocation (s : State) (role thread : Nat) : Option Invoc := s.jm.running.find? (fun i => i.role == role && i.thread == thread)

/-- Whether a reduction operation is one that R306 allows: minimums from RED_MIN up, adds and maximums below it. -/
def redOk (hd : List Byte) (r : JmRed × Nat × Nat) : Bool :=
  Nat.blt r.2.1 (khReds hd) && ((r.1 == .min) == (khRedMin hd ≤ r.2.1 : Bool))

/-- A reduction word after an operation (R306). -/
def RedWord.apply (w : RedWord) (r : JmRed × Nat × Nat) : RedWord :=
  let v := r.2.2 % 2 ^ 32
  match r.1 with
  | .add => { w with value := Nat.min 0xFFFFFFFF (w.value + v), added := true }
  | .max => { w with value := Nat.max w.value v, maxed := true }
  | .min => { w with value := Nat.min w.value v }

/-- A tile is valid: its samples are written and its reductions enter the frame's words (R306, R309). -/
def State.endTile (role : Nat) (f : HookFrame) (tx ty : Nat) (planes : List (List Nat)) (reds : List (JmRed × Nat × Nat)) (s : State) : State :=
  let t := s.putTile (.site role) (s.khead f.kernel) f tx ty planes
  let t := t.mapHook f (fun x => { x with
    good := x.good ++ [(tx, ty)], started := x.started.filter (· != (tx, ty)),
    reds := x.reds.zipIdx.map (fun w => (reds.filter (fun r => r.2.1 == w.2)).foldl RedWord.apply w.1) })
  t.finishHook f

/-- The state that an invocation leaves is written back (R303). -/
def State.keepState (i : Invoc) (st : List Byte) (s : State) : State :=
  let n := khState (s.khead i.kernel)
  s.mapBinds (fun b => b.kernel == i.kernel && b.slot == i.slot) (fun b => { b with mem := padTo n st })

/-- A policy invocation ends (R180, R182): its request joins its slot's round, unless the next slot has closed or its kernel is FAULTED. -/
def State.endPolicy (i : Invoc) (cam run fn valid : Nat) (req : List Byte) (s : State) : State :=
  match s.jobOf i.kernel cam run fn with
  | none => s
  | some q =>
    let put (r : PolRound) : PolRound := { r with asked := true, blk := requestPart q.roles req r.blk }
    let t := if valid = 1 && !q.lost && s.kernelRuns i.kernel then
        s.mapJm (fun j => { j with rounds := updWhere (fun r => r.cam == cam && r.run == run && r.fn == fn) put j.rounds })
      else s
    t.endJobOf q

/-- An invocation ends without a trap: it breaks the run of traps, and counts. -/
def State.endsWell (i : Invoc) (s : State) : State :=
  (s.freeThread i).mapKernel i.kernel (fun k => { k with consec := 0, cnt := { k.cnt with invocations := k.cnt.invocations.satInc } })

/-- JM_INVOCATION_END (R303, R306, R313, R314). A reduction that R306 does not allow traps with WINDOW (R300). -/
def execJmInvocationEnd (role : Fin 128) (thread : Fin 4) (result : JmResult) (s : State) : Host.Outcome State Fault Refusal :=
  match s.invocation role.val thread.val with
  | none => .next s
  | some i =>
    if i.epoch != s.mgmt.units.epochOf .siteU role.val then .next (s.dropStale (unitHandle 0x03 role.val) i.epoch)
    else match result, i.kind with
      | .trap code, _ => if 1 ≤ code && code ≤ 5 then .next (s.jmTrap i code) else .next s
      | .fault, _ => .next (s.siteDead role.val)
      | .tile planes reds, .tile cam hook run fn tx ty =>
        if !reds.all (redOk (s.khead i.kernel)) then .next (s.jmTrap i 3)
        else
          let t := s.endsWell i
          .next ((match t.hookOf cam hook run fn with
            | some f => if f.started.contains (tx, ty) then t.endTile role.val f tx ty planes reds else t
            | none => t).jmSettle)
      | .policy valid req st, .policy cam run fn => .next ((((s.endsWell i).keepState i st).endPolicy i cam run fn valid req).jmSettle)
      | .rate valid bits qp st, .rate h seq fn =>
        .next ((((s.endsWell i).keepState i st).answerRate h seq fn (if valid = 1 then .given bits qp else .declined)).jmSettle)
      | _, _ => .next s

/-- OVERRUN (R307): a TILE invocation reaches CPT issue cycles. -/
def execOverrun (role : Fin 128) (thread : Fin 4) (s : State) : Host.Outcome State Fault Refusal :=
  match s.invocation role.val thread.val with
  | none => .next s
  | some i => match i.kind with
    | .tile _ _ _ _ _ _ => .next (s.jmTrap i 6)
    | _ => .next s

/-- WATCHDOG (R313): a POLICY invocation has run 100 ms. -/
def execWatchdog (role : Fin 128) (thread : Fin 4) (s : State) : Host.Outcome State Fault Refusal :=
  match s.invocation role.val thread.val with
  | none => .next s
  | some i => match i.kind with
    | .policy _ _ _ => .next (s.jmTrap i 7)
    | _ => .next s

/-- RATE_KERNEL_TIMEOUT (R211, R313): the kernel of a session has not returned 100 µs after its picture became codable. A running invocation
is stopped without a trap. -/
def execRateKernelTimeout (h : Handle) (s : State) : Host.Outcome State Fault Refusal :=
  match s.enc h with
  | none => .next s
  | some e =>
    if !e.rateBound || !s.rateWaits e then .next s
    else
      let t := match s.jm.running.find? (fun i => match i.kind with | .rate x _ _ => x == h | _ => false) with
        | some i => (s.freeThread i).countKernel i.kernel (fun n => { n with timeouts := n.timeouts.satInc })
        | none => s
      .next ((t.answerRate h e.seqNext (((s.readyPic e).map (fun n => n.frame.fn)).getD 0) .missed).jmSettle)

/-- TILE_DEADLINE (R307): the tiles of a frame that have not ended are abandoned; running ones are stopped without a trap. -/
def execTileDeadline (cam : Fin 48) (fn : Nat) (s : State) : Host.Outcome State Fault Refusal :=
  .next (((s.jm.hooks.filter (fun f => f.cam == cam.val && f.fn == fn)).foldl (fun (t : State) (f : HookFrame) =>
    let n := f.left.length
    let stop (i : Invoc) : Bool := match i.kind with | .tile c h r n _ _ => f.is c h r n | _ => false
    let u := (t.mapJm (fun j => { j with running := j.running.filter (fun i => !stop i) })).voidTiles f f.left
    (u.countKernel f.kernel (fun k => { k with abandoned := satAdd k.abandoned n })).finishHook f) s).jmSettle)

/-- SITE_STALL (R314): a thread of a role has issued nothing for 1 ms while it holds an invocation. -/
def execSiteStall (role : Fin 128) (s : State) : Host.Outcome State Fault Refusal :=
  if s.jm.running.any (fun i => i.role == role.val) then .next (s.siteDead role.val) else .next s

end Sys2Proof.Machine
end

