-- ==== Sys2Proof/Machine/LaneCmds.lean ====
section
/-!
DEFINITION. LANE_TRAIN, LANE_BITSLIP, LANE_CAL_SAVE and LANE_CAL_RESTORE (chapter 13).
-/
namespace Sys2Proof.Machine

/-- The lane that PARAM0 names must be an Ozoth lane of a quad in use for this operation (log 33). -/
def needOzothLane (s : State) (l : Nat) : Chk Unit := need ((s.lanes.quad (l / 4)).role.ozoth) (badParam 0)

/-- A fenced lane takes no work until UNIT_REJOIN (R359, log 33). -/
def needUnfenced (s : State) (l : Nat) : Chk Unit :=
  need ((s.lanes.lane l).state != .fenced)
    { status := .unitFenced, r0 := (unitHandle 0x0C l).toNat, r1 := (s.lanes.lane l).lastEpoch }

/-- A lane that a rotation has claimed or is calibrating cannot be claimed by a command (R358). -/
def needUnclaimed (s : State) (l : Nat) : Chk Unit :=
  match (s.lanes.quad (l / 4)).rotation with
  | none => .ok ()
  | some r => .error (conflict (unitHandle 0x0B r.chan) (0xB00 + l / 4))

/-- LANE_TRAIN OP 1: calibration in place of a spare or with FORCE, else by rotation onto the spare (R355, R357, R358). -/
def trainCalibrate (c : Cmd) (l : Nat) (force : Bool) (s : State) : Chk Done := do
  needUnfenced s l
  let x := s.lanes.lane l
  let by_ (t : State) : State := t.mapLane l (fun y => { y with trainBy := some (ref .laneTrain c) })
  match x.state with
  | .eth =>
    need (force || x.inplaceOk) (notReady 0xB3)
    waitDone .laneTrain c (by_ (s.calInPlace l))
  | .spare => do
    needUnclaimed s l
    waitDone .laneTrain c (by_ (s.calInPlace l))
  | .active => do
    if force then
      match (s.lanes.quad (l / 4)).rotation with
      | some r => need (r.src != l) (conflict (unitHandle 0x0B r.chan) (0xB00 + l / 4))
      | none => .ok ()
      waitDone .laneTrain c (by_ (s.calInPlace l))
    else do
      needUnclaimed s l
      let sp ← needSome (s.lanes.freeSpare (l / 4)) (notReady 0xB3)
      let ch ← needSome x.chan (notReady 0xB4)
      waitDone .laneTrain c (by_ (s.rotate ch l sp false))
  | _ => do
    needUnclaimed s l
    .error (notReady 0xB4)

/-- LANE_TRAIN (R355, R358, Table 13-11). A bring-up that the command takes down completes with it (log 33). -/
def execLaneTrain (c : Cmd) (s : State) : Host.Outcome State Fault Refusal :=
  runCmd .laneTrain c s do
    let l := bitsOf (par c 0) 4 0
    let op := bitsOf (par c 0) 9 8
    let force := bitOf (par c 0) 12
    need (op != 3 && (op == 1 || !force)) (badParam 0)
    if op = 1 then trainCalibrate c l force s
    else do
      needOzothLane s l
      needUnfenced s l
      let x := s.lanes.lane l
      need x.chan.isNone (notReady 0xB2)
      needUnclaimed s l
      if op = 0 then
        let t := match x.trainBy with
          | some r => s.finish r .ok x.rate x.snr false
          | none => s
        waitDone .laneTrain c ((t.bringUp l x.calVal x.restored).mapLane l (fun y => { y with trainBy := some (ref .laneTrain c) }))
      else
        let t := match x.trainBy with
          | some r => s.finish r .ok 0 x.snr false
          | none => s
        let t := (t.mapLane l (fun y => { y with state := .off, rate := 0, target := 0, step := .idle, cwLock := false,
                                                 cellLock := false, trainBy := none })).mapQuad (l / 4)
          (fun q => { q with spare := if q.spare = some l then none else q.spare })
        okDone 0 x.snr t

/-- LANE_BITSLIP (R354): moves the boundary of a DIAG lane; the counts of good headers and codewords are what the hardware sees. -/
def execLaneBitslip (c : Cmd) (good cw : Nat) (s : State) : Host.Outcome State Fault Refusal :=
  runCmd .laneBitslip c s do
    let l := bitsOf (par c 0) 4 0
    let x := s.lanes.lane l
    let n := par c 1
    need (x.state == .diag) (notReady 0xB0)
    need (1 ≤ n && n ≤ (if x.rate = 0 then 2047 else 5439)) (badParam 1)
    okDone (Nat.min 64 good) (if x.rate = 0 then 0 else Nat.min 64 cw)
      (s.mapLane l (fun y => { y with slip := (y.slip + n) % (if x.rate = 0 then 2048 else 5440), cellLock := 64 ≤ good }))

/-- The lanes that a mask names, rising. -/
def lanesOf (mask : Nat) : List Nat := (List.range 32).filter (fun l => bitOf mask l)

/-- LANE_CAL_SAVE (R362): a 64-byte header and the records of the lanes named. The places of the header's fields are DESIGN CHOICE
(log 34): part at 0x00, stepping at 0x02, mask at 0x04, CRC at 0x08. -/
def execLaneCalSave (c : Cmd) (s : State) : Host.Outcome State Fault Refusal :=
  runCmd .laneCalSave c s do
    let mask := par c 1
    let lanes := lanesOf mask
    let n := 64 + 512 * lanes.length
    need (n ≤ c.ptrLen.toNat) (badPacket 0x18)
    need (c.ptrSpace == 1) (badPacket 0x1C)
    let b ← needBuffer s c.aux 1
    needRange s c.ptr.toNat c.ptrLen.toNat (some (b.base, b.size))
    needUnpinned s c.ptr.toNat c.ptrLen.toNat
    let body := lanes.flatMap (fun l => padTo 512 (s.lanes.lane l).calVal)
    let head := layout 64 [(0x00, 2, 0x4896), (0x02, 2, 0x00B0), (0x04, 4, mask), (0x08, 4, crc32c body)]
    okDone lanes.length n (s.writeMem c.ptr.toNat (head ++ body))

/-- The place of a lane's record in a save image, none where the image has none. -/
def imageRecord (image : List Byte) (l : Nat) : Option (List Byte) :=
  let lanes := lanesOf (f32 image 0x04)
  (firstIdx (· == l) lanes).map (fun i => padTo 512 (slice image (64 + 512 * i) 512))

/-- Whether a record of an image is applied to a lane (R361, R362): the state allows it, the record is the lane's, and its TEMP lies within
CAL_DELTA of the present temperature. -/
def State.restorable (s : State) (image : List Byte) (l : Nat) : Bool :=
  match imageRecord image l with
  | none => false
  | some r => (s.lanes.lane l).appliable && recordOk l r && s.tempMoved l r ≤ (s.lanes.lane l).calDelta * 256

/-- LANE_CAL_RESTORE (R362). A lane named that the image does not hold, or whose record APPLY would refuse, counts as skipped (log 34). -/
def execLaneCalRestore (c : Cmd) (s : State) : Host.Outcome State Fault Refusal :=
  runCmd .laneCalRestore c s do
    need (64 ≤ c.ptrLen.toNat) (badPacket 0x18)
    need (c.ptrSpace == 1) (badPacket 0x1C)
    let b ← needBuffer s c.aux 1
    needRange s c.ptr.toNat c.ptrLen.toNat (some (b.base, b.size))
    let image ← structBytes s c
    let n := 512 * (lanesOf (f32 image 0x04)).length
    need (64 + n ≤ image.length) (badPacket 0x18)
    let crc := crc32c (slice image 64 n)
    need (crc == f32 image 0x08) { status := .checkMismatch, r0 := crc, r1 := f32 image 0x08 }
    needFields [(0x00, f16 image 0x00 == 0x4896), (0x02, f16 image 0x02 == 0x00B0)]
    let named := lanesOf (par c 1)
    let good := named.filter (s.restorable image)
    let skipped := named.filter (fun l => !s.restorable image l)
    okDone good.length (sumNat (skipped.map (fun l => 2 ^ l)))
      (good.foldl (fun t l => t.applyRecord l ((imageRecord image l).getD emptyCal)) s)

end Sys2Proof.Machine
end

