-- ==== Sys2Proof/Machine/Motion.lean ====
section
/-!
DEFINITION. The motion engine (R185 to R193): the three search levels over the luma proxies, the field of a band and of a frame, and the
engine's death.
-/
namespace Sys2Proof.Machine

/-! ## Samples (R186, R187) -/

/-- What a search reads: the memory, the profile, the context, its two proxies, and the offset of R186 on every reference sample. -/
structure Srch where
  mem    : Memory
  p      : List Byte
  cam    : Nat
  cur    : Nat
  ref    : Nat
  offset : Int
  lambda : Nat
deriving DecidableEq, Repr

/-- A proxy sample, the nearest edge sample outside the frame. -/
def Srch.at_ (w : Srch) (k : Nat) (x y : Int) : Int :=
  let i := (clampInt 0 (proxyW w.p - 1 : Nat) x).toNat
  let j := (clampInt 0 (ceilDiv (pfH w.p) 2 - 1 : Nat) y).toNat
  (leNat (w.mem.read (proxyAddr w.p w.cam k i j) 2) : Int)

/-- A sample of a level: the sum of the proxy samples under it, 1, 4 or 16 of them for levels 0, 1 and 2; its mean is that over their
number. Coordinates outside the level take its nearest edge. -/
def Srch.sum (w : Srch) (k level : Nat) (x y : Int) : Int :=
  let n := 2 ^ level
  let lim (size : Nat) (q : Int) : Int := clampInt 0 ((ceilDiv size n - 1 : Nat) : Int) q
  let bx := lim (proxyW w.p) x * n
  let by_ := lim (ceilDiv (pfH w.p) 2) y * n
  ((List.range (n * n)).map (fun i => w.at_ k (bx + (i % n : Nat)) (by_ + (i / n : Nat)))).foldl (· + ·) 0

/-- A vector in some unit. -/
abbrev Vec := Int × Int

/-- The sum of absolute differences of an 8 × 8 window at a level, in 4^-level of a proxy code unit. -/
def Srch.sad (w : Srch) (level : Nat) (bx by_ : Int) (d : Vec) : Nat :=
  let n : Int := 4 ^ level
  sumNat ((List.range 64).map (fun i =>
    let x := bx + (i % 8 : Nat)
    let y := by_ + (i / 8 : Nat)
    (w.sum w.cur level x y - (w.sum w.ref level (x + d.1) (y + d.2) + n * w.offset)).natAbs))

/-- The same at level 0 for a vector in eighths of a proxy sample, bilinearly interpolated, in 1/64 of a proxy code unit. -/
def Srch.sad8 (w : Srch) (bx by_ : Int) (d : Vec) : Nat :=
  let ix := d.1 / 8
  let iy := d.2 / 8
  let fx := d.1 % 8
  let fy := d.2 % 8
  sumNat ((List.range 64).map (fun i =>
    let x := bx + (i % 8 : Nat)
    let y := by_ + (i / 8 : Nat)
    let r (a b : Int) : Int := w.at_ w.ref (x + ix + a) (y + iy + b)
    let q := (8 - fx) * (8 - fy) * r 0 0 + fx * (8 - fy) * r 1 0 + (8 - fx) * fy * r 0 1 + fx * fy * r 1 1
    (64 * w.at_ w.cur x y - (q + 64 * w.offset)).natAbs))

/-! ## Candidates (R188) -/

/-- The median of three numbers. -/
def median3 (a b c : Int) : Int := max (min a b) (min (max a b) c)
/-- The median of three vectors by component. -/
def medianVec (a b c : Vec) : Vec := (median3 a.1 b.1 c.1, median3 a.2 b.2 c.2)
/-- |Δx| + |Δy| from a median. -/
def dist (m d : Vec) : Nat := (d.1 - m.1).natAbs + (d.2 - m.2).natAbs

/-- The best of a list of candidates: the lowest cost, then the smaller distance, then the lower index. -/
def best (cost : Vec → Nat) (m : Vec) : List Vec → Vec
  | [] => (0, 0)
  | c :: rest => rest.foldl (fun b x =>
      if cost x < cost b || (cost x == cost b && dist m x < dist m b) then x else b) c

/-- The offsets of a window in scan order. -/
def around (rx ry : Nat) : List Vec := (spanInt ry).flatMap (fun dy => (spanInt rx).map (fun dx => (dx, dy)))

/-- The vector of a list at an index, zero where there is no such neighbour (DESIGN CHOICE, log 32). -/
def vecAt (l : List Vec) (i : Int) : Vec := if i < 0 then (0, 0) else (l[i.toNat]?).getD (0, 0)

/-- Tiles of a row. -/
def tilesX (p : List Byte) : Nat := ceilDiv (pfW p) 64

/-- The level 2 results of a tile row from those of the row above, in level 2 samples. -/
def Srch.level2Row (w : Srch) (ty : Nat) (up : List Vec) : List Vec :=
  (List.range (tilesX w.p)).foldl (fun (row : List Vec) (tx : Nat) =>
    let m := medianVec (vecAt row ((tx : Int) - 1)) (vecAt up tx) (vecAt up ((tx : Int) + 1))
    let cost (d : Vec) : Nat := w.sad 2 (8 * tx : Nat) (8 * ty : Nat) d + w.lambda * dist m d
    row ++ [best cost m (around 32 16)]) []

/-- The level 2 results of the tile rows up to one, that row first. -/
def Srch.level2 (w : Srch) : Nat → List Vec × List Vec
  | 0 => (w.level2Row 0 [], [])
  | k + 1 => let r := w.level2 k; (w.level2Row (k + 1) r.1, r.1)

/-- The positions that level 1 tries for 32 × 32 block (x, y): two samples around each of the five candidates of Table 07-1. -/
def cands1 (own up : List Vec) (prev : Nat → Nat → Vec) (x y : Nat) : List Vec :=
  let tx : Int := (x / 2 : Nat)
  let twice (v : Vec) : Vec := (2 * v.1, 2 * v.2)
  let t := prev (2 * x) (2 * y)
  let cands : List Vec := [twice (vecAt own tx), twice (vecAt own (tx - 1)), twice (vecAt up tx), (roundDiv t.1 16, roundDiv t.2 16), (0, 0)]
  cands.flatMap (fun c => (around 2 2).map (fun d => (c.1 + d.1, c.2 + d.2)))

/-- The level 1 results of band k: its two rows of 32 × 32 blocks, in level 1 samples. prev gives the temporal predictor of a block in
quarter pixels. -/
def Srch.level1 (w : Srch) (k : Nat) (own up : List Vec) (prev : Nat → Nat → Vec) : List (List Vec) :=
  (List.range 2).foldl (fun (rows : List (List Vec)) (r : Nat) =>
    let above := (rows.getLast?).getD []
    let y := 2 * k + r
    let row := (List.range (ceilDiv (pfW w.p) 32)).foldl (fun (row : List Vec) (x : Nat) =>
      let m := medianVec (vecAt row ((x : Int) - 1)) (vecAt above x) (vecAt above ((x : Int) + 1))
      let cost (d : Vec) : Nat := 4 * w.sad 1 (8 * x : Nat) (8 * y : Nat) d + w.lambda * dist m d
      row ++ [best cost m (cands1 own up prev x y)]) []
    rows ++ [row]) []

/-- One step of level 0 around a position: the best of it and its eight neighbours at a distance, and the positions tried before and now. -/
def refine (cost : Vec → Nat) (m : Vec) (step : Int) (q : Vec × List Vec) : Vec × List Vec :=
  let vs := (around 1 1).map (fun d => (q.1.1 + step * d.1, q.1.2 + step * d.2))
  (best cost m vs, q.2 ++ vs)

/-- The level 0 results of band k: its four rows of 16 × 16 blocks, in eighths of a proxy sample, each with the positions tried. -/
def Srch.level0 (w : Srch) (k : Nat) (l1 : List (List Vec)) : List (List (Vec × List Vec)) :=
  (List.range 4).foldl (fun (rows : List (List (Vec × List Vec))) (r : Nat) =>
    let above := ((rows.getLast?).getD []).map (·.1)
    let y := 4 * k + r
    let row := (List.range (fieldBx w.p)).foldl (fun (row : List (Vec × List Vec)) (x : Nat) =>
      let m := medianVec (vecAt (row.map (·.1)) ((x : Int) - 1)) (vecAt above x) (vecAt above ((x : Int) + 1))
      let cost (d : Vec) : Nat := 2 * w.sad8 (8 * x : Nat) (8 * y : Nat) d + w.lambda * dist m d
      let c := vecAt ((l1[r / 2]?).getD []) ((x / 2 : Nat) : Int)
      row ++ [refine cost m 1 (refine cost m 2 (refine cost m 4 (refine cost m 8 ((16 * c.1, 16 * c.2), []))))]) []
    rows ++ [row]) []

/-- ACT of a block: the mean absolute deviation of its samples from their mean, rounded down (R188). -/
def Srch.act (w : Srch) (bx by_ : Nat) : Nat :=
  let vals := (List.range 64).map (fun i => w.at_ w.cur ((8 * bx + i % 8 : Nat) : Int) ((8 * by_ + i / 8 : Nat) : Int))
  let total := vals.foldl (· + ·) 0
  sumNat (vals.map (fun v => (64 * v - total).natAbs)) / 4096

/-! ## The field (R192) -/

/-- A block record (Table 07-3). -/
def blockRecord (v : Vec) (clamped invalid : Bool) (act cost : Nat) : List Byte :=
  leBytes 4 (wrapInt 12 v.1 + 2 ^ 12 * wrapInt 11 v.2 + 2 ^ 24 * bit01 (Nat.blt act cost) + 2 ^ 25 * bit01 clamped + 2 ^ 26 * bit01 invalid)
    ++ leBytes 2 act ++ leBytes 2 cost

/-- What a band's records come from: a search, no reference, or missing. -/
inductive BandKind where
  | searched
  | noRef
  | missing
deriving DecidableEq, Repr

/-- The records of a block row of a band. -/
def Srch.rowBytes (w : Srch) (kind : BandKind) (y : Nat) (vs : List Vec) : List Byte :=
  (List.range (fieldBx w.p)).flatMap (fun x =>
    let act := Nat.min 0xFFFF (w.act x y)
    match kind with
    | .searched =>
      let v := vecAt vs x
      let c : Vec := (clampInt (-1024) 1023 v.1, clampInt (-512) 511 v.2)
      blockRecord c (c != v) false act (Nat.min 0xFFFF (w.sad8 (8 * x : Nat) (8 * y : Nat) c / 4096))
    | .noRef => blockRecord (0, 0) false false act 0xFFFF
    | .missing => blockRecord (0, 0) false true act 0xFFFF)

/-- The place of a field in memory that a ring holds for an FN. -/
def CamCtx.fieldOf (c : CamCtx) (fn : Nat) : Option Nat := firstIdx (fun e => e.used && e.fn == fn) c.fieldRing.toList

/-- A word of a field's record in memory. -/
def recAt (m : Memory) (p : List Byte) (a x y : Nat) : List Byte := m.read (a + 64 + y * recStride p + 8 * x) 8

/-- The vector of a record in quarter pixels. -/
def recVec (r : List Byte) : Vec := (sext 12 (f32 r 0 % 4096), sext 11 (bitsOf (f32 r 0) 22 12))

/-- The row sums of a field whose records are written: SUM_COST and SUM_ACT of each block row. -/
def rowSums (m : Memory) (p : List Byte) (a : Nat) (noRef : Bool) : List (Nat × Nat) :=
  (List.range (fieldBy p)).map (fun y =>
    let rs := (List.range (fieldBx p)).map (fun x => recAt m p a x y)
    let act := sumNat (rs.map (fun r => f16 r 4))
    (if noRef then act else sumNat (rs.map (fun r => Nat.min (f16 r 6) (f16 r 4))), act))

/-- The search environment of a frame. -/
def State.srch (s : State) (cam : Nat) (f : CamFrame) : Srch :=
  let n := vget f.rcd.pipe.t 0 0 * vget f.rcd.pipe.g 0 0
  let offset : Int := if n = 0 ∨ f.predTg = 0 then Config.freePixel [0x60, cam, f.rcd.run, f.fn] else roundLog2K 2048 f.kRatio
  { mem := s.mem.mem, p := (s.cam cam).profile, cam := cam, cur := f.proxy, ref := f.predProxy, offset := offset, lambda := f.set.lambda }

/-- Whether proxy rows of a context carry a mark. -/
def Srch.rowsMarked (w : Srch) (k y0 y1 : Nat) : Bool :=
  (List.range (Nat.min (ceilDiv (pfH w.p) 2) y1 - y0)).any (fun i => (w.mem.poisonIn (proxyAddr w.p w.cam k 0 (y0 + i)) (2 * proxyW w.p)).isSome)

/-- Whether samples of a rectangle of the reference proxy carry a mark: x0 to x1 and y0 to y1, the nearest edge samples outside the frame. -/
def Srch.rectMarked (w : Srch) (x0 x1 y0 y1 : Int) : Bool :=
  let cx (x : Int) : Nat := (clampInt 0 (proxyW w.p - 1 : Nat) x).toNat
  let cy (y : Int) : Nat := (clampInt 0 (ceilDiv (pfH w.p) 2 - 1 : Nat) y).toNat
  (List.range (cy y1 + 1 - cy y0)).any (fun i =>
    (w.mem.poisonIn (proxyAddr w.p w.cam w.ref (cx x0) (cy y0 + i)) (2 * (cx x1 + 1 - cx x0))).isSome)

/-- The searches of a band: the positions that level 1 tries, and the results of level 0. prev gives the temporal predictors. -/
def Srch.band (w : Srch) (k : Nat) (prev : Nat → Nat → Vec) : (Nat → Nat → List Vec) × List (List (Vec × List Vec)) :=
  let l2 := w.level2 k
  (cands1 l2.1 l2.2 prev, w.level0 k (w.level1 k l2.1 l2.2 prev))

/-- Whether a line of the reference proxy that the search of band k reads carries a mark (R190). Level 2 reads its rows over the whole width; levels 1
and 0 what their candidates cover. -/
def Srch.refMarked (w : Srch) (k : Nat) (prev : Nat → Nat → Vec) : Bool :=
  let q := w.band k prev
  w.rowsMarked w.ref (32 * k - 64) (32 * k + 96)
  || (List.range 2).any (fun r => (List.range (ceilDiv (pfW w.p) 32)).any (fun x => (q.1 x (2 * k + r)).any (fun d =>
      let bx : Int := 16 * (x : Int) + 2 * d.1
      let by_ : Int := 16 * ((2 * k + r : Nat) : Int) + 2 * d.2
      w.rectMarked bx (bx + 15) by_ (by_ + 15))))
  || q.2.zipIdx.any (fun r => r.1.zipIdx.any (fun b => b.1.2.any (fun d =>
      let bx : Int := 8 * (b.2 : Int) + d.1 / 8
      let by_ : Int := 8 * ((4 * k + r.2 : Nat) : Int) + d.2 / 8
      w.rectMarked bx (bx + 7 + (if d.1 % 8 = 0 then 0 else 1)) by_ (by_ + 7 + (if d.2 % 8 = 0 then 0 else 1)))))

/-- The temporal predictor of a block: its vector in the field of the motion reference, with TPRED set and while that field is held, else zero. -/
def State.predictor (s : State) (cam : Nat) (f : CamFrame) (x y : Nat) : Vec :=
  let c := s.cam cam
  match (if f.set.tpred then f.predFn.bind c.fieldOf else none) with
  | some j => recVec (recAt s.mem.mem c.profile (fieldAddr cam j) x y)
  | none => (0, 0)

/-- Whether band k is missing (R190): a marked line of its proxy or of the reference proxy that its search reads, or an engine that is
gone or was not there at the frame's start. -/
def State.bandMissing (s : State) (cam : Nat) (f : CamFrame) (k : Nat) : Bool :=
  let w := s.srch cam f
  (s.mgmt.units.unitOf .motionU 0).isNone || f.motionEpoch != s.mgmt.units.epochOf .motionU 0
    || w.rowsMarked w.cur (32 * k) (32 * k + 32) || (f.predFn.isSome && w.refMarked k (s.predictor cam f))

/-- The row sums of a frame's field once its last band is written, and whether they are those of its reference (R190). A frame
without a place in the ring has its activity sums from its proxy. -/
def State.fieldSums (s : State) (cam : Nat) (f : CamFrame) : List (Nat × Nat) × Bool :=
  let c := s.cam cam
  let p := c.profile
  let own : List (Nat × Nat) := match f.fieldPlace with
    | some i => rowSums s.mem.mem p (fieldAddr cam i) (vget c.fieldRing FieldSlot.empty i).noRef
    | none =>
      let w := s.srch cam f
      (List.range (fieldBy p)).map (fun y =>
        let a := sumNat ((List.range (fieldBx p)).map (fun x => w.act x y))
        (a, a))
  let part : Bool := match f.fieldPlace with
    | some i => (vget c.fieldRing FieldSlot.empty i).partial_
    | none => true
  if !part then (own, false)
  else match f.predFn.bind c.fieldOf with
    | some j =>
      let b := fieldAddr cam j + sumsOff p
      ((List.range (fieldBy p)).map (fun y => (leNat (s.readMem (b + 8 * y) 4), leNat (s.readMem (b + 8 * y + 4) 4))), true)
    | none => (own.map (fun x => (x.2, x.2)), false)

/-- The last band of a field is written: row sums and header (R189, R190, R192). -/
def State.endField (cam : Nat) (f : CamFrame) (i : Nat) (sums : List (Nat × Nat)) (s : State) : State :=
  let c := s.cam cam
  let p := c.profile
  let a := fieldAddr cam i
  let e := vget c.fieldRing FieldSlot.empty i
  let recs := (List.range (fieldBy p)).flatMap (fun y => (List.range (fieldBx p)).map (fun x => recAt s.mem.mem p a x y))
  let valid := (recs.filter (fun r => !bitOf (f32 r 0) 26)).map recVec
  let gx := median (valid.map (·.1))
  let gy := median (valid.map (·.2))
  let moving := (valid.filter (fun v => Nat.blt 8 (v.1 - gx).natAbs || Nat.blt 8 (v.2 - gy).natAbs)).length
  let head := layout 64 [(0x00, 1, cam), (0x01, 1, bit01 e.noRef + 2 * bit01 e.partial_), (0x02, 2, f.rcd.run), (0x04, 4, f.fn),
    (0x08, 4, (f.predFn.map (· % 2 ^ 32)).getD 0xFFFFFFFF), (0x0C, 2, fieldBx p), (0x0E, 2, fieldBy p), (0x10, 2, wrapInt 16 gx),
    (0x12, 2, wrapInt 16 gy), (0x14, 4, moving), (0x18, 4, sumNat (sums.map (·.1))), (0x1C, 4, sumNat (sums.map (·.2))),
    (0x20, 4, recStride p), (0x24, 4, sumsOff p)]
  (s.writeMem (a + sumsOff p) (sums.flatMap (fun x => leBytes 4 x.1 ++ leBytes 4 x.2))).writeMem a head

/-- The reference of a frame is no longer needed by its search (R193). -/
def CamCtx.releaseRef (c : CamCtx) (f : CamFrame) : CamCtx :=
  match f.predFn.bind c.fieldOf with
  | some j => { c with fieldRing := vmod c.fieldRing j (fun e => { e with asRef := false }) }
  | none => c

/-- Changes what the motion engine keeps of a frame, in processing or closed. -/
def State.mapSearched (cam fn : Nat) (g : CamFrame → CamFrame) (s : State) : State :=
  s.mapCam cam (fun c => { c with frames := updWhere (fun x => x.fn == fn) g c.frames, trail := updWhere (fun x => x.fn == fn) g c.trail })

/-- The accesses of a band: its lines of the proxy, those of the reference proxy that level 2 reads, and its rows of the field. What the lower levels read
beyond them is left out of the traffic (DESIGN CHOICE, log 20). -/
def State.motionTraffic (s : State) (cam : Nat) (f : CamFrame) (k : Nat) : List FabReq :=
  let p := (s.cam cam).profile
  let half := ceilDiv (pfH p) 2
  let rows (n y0 y1 : Nat) : List FabReq := ((List.range (Nat.min half y1 - y0)).map (fun i =>
    s.access .motion .motion cam (proxyAddr p cam n 0 (y0 + i)) (2 * proxyW p) false))
  rows f.proxy (32 * k) (32 * k + 32) ++ (if f.predFn.isSome then rows f.predProxy (32 * k - 64) (32 * k + 96) else [])
  ++ (match f.fieldPlace with
    | some i => (List.range 4).filterMap (fun r => if 4 * k + r < fieldBy p then
        some (s.access .motion .motion cam (fieldAddr cam i + 64 + (4 * k + r) * recStride p) (8 * fieldBx p) true) else none)
    | none => [])

/-- The field of the next band of a frame is written (R185 to R190); a frame without a place in the ring has every band missing. -/
def State.writeBand (cam : Nat) (f : CamFrame) (lost : Bool) (s : State) : State :=
  let c := s.cam cam
  let p := c.profile
  let k := f.fields
  let missing := lost || f.fieldPlace.isNone || s.bandMissing cam f k
  let last := k + 1 == pfBands p
  let w := s.srch cam f
  let kind : BandKind := if missing then .missing else if f.predFn.isNone then .noRef else .searched
  let rows : List (List Vec) := if kind = .searched then (w.band k (s.predictor cam f)).2.map (fun r => r.map (·.1)) else []
  let t := match f.fieldPlace with
    | none => s
    | some i =>
      let a := fieldAddr cam i
      let t := (List.range 4).foldl (fun (t : State) (r : Nat) =>
        let y := 4 * k + r
        if y < fieldBy p then t.writeMem (a + 64 + y * recStride p) (w.rowBytes kind y ((rows[r]?).getD [])) else t) s
      let t := t.mapCam cam (fun c => { c with fieldRing := vmod c.fieldRing i (fun e => { e with partial_ := e.partial_ || missing }) })
      if last then t.endField cam f i (t.fieldSums cam f).1 else t
  let done := t.fieldSums cam f
  let after (x : CamFrame) : CamFrame := { x with
    fields := k + 1, fieldBad := if missing then x.fieldBad ++ [k] else x.fieldBad,
    sums := if last then done.1 else x.sums, oldSums := if last then done.2 else x.oldSums }
  let t := (t.mapSearched cam f.fn after).requests (s.motionTraffic cam f k)
  if last then
    (t.mapCam cam (fun c => { c.releaseRef f with trail := c.trail.filter (fun x => x.fn != f.fn) })).fieldComplete cam (after f)
  else t

/-- The bands whose field can be written, of frames in processing and of closed ones, with the order of R189. -/
def State.motionBands (s : State) : List (Nat × Nat × CamFrame) :=
  s.cams.ctx.toList.zipIdx.flatMap (fun x => (x.1.frames ++ x.1.trail).filterMap (fun f =>
    if f.fields < pfBands x.1.profile && x.1.bandIn f f.fields then some ((f.deadline * 256 + f.fields) * 64 + x.2, x.2, f) else none))

/-- MOTION_BAND (R189): the engine takes the first band of its order and writes the band's field; an uncorrectable error in its own SRAM
makes the band missing (R333, Table 12-7). -/
def execMotionBand (errors : List SramError) (s : State) : Host.Outcome State Fault Refusal :=
  match minBy (fun x => x.1) s.motionBands with
  | none => .next s
  | some x => .next ((s.writeBand x.2.1 x.2.2 (errors.any SramError.uncorr)).sramErrors errors)

/-- MOTION_WATCHDOG (R190, R408): the engine holds a band without a field row for MOTION_WD; its role becomes vacant and the band is
missing. -/
def execMotionWatchdog (s : State) : Host.Outcome State Fault Refusal :=
  match minBy (fun x => x.1) s.motionBands with
  | none => .next s
  | some x =>
    if (s.mgmt.units.unitOf .motionU 0).isNone then .next s
    else .next ((s.declareDead .motionU 0 Status.hardwareFault.code).writeBand x.2.1 x.2.2 true)

end Sys2Proof.Machine
end

