-- ==== Sys2Proof/Machine/LogPages.lean ====
section
/-!
DEFINITION. The log pages that GET_LOG_PAGE copies (Table 02-19) as bytes, each from the state that its rule names, and IDENTIFY (Table 02-18).
-/
namespace Sys2Proof.Machine

/-- What a page gives: the bytes that can be copied, its full size, and for a page that selects entries the size of one. -/
structure Page where
  bytes : List Byte
  full  : Nat
  entry : Option Nat
deriving DecidableEq, Repr

/-- A page that selects nothing. -/
def Page.whole (bs : List Byte) : Page := { bytes := bs, full := bs.length, entry := none }

/-- 32-bit fields in order from an offset. -/
def words (off : Nat) (xs : List Nat) : List Field := xs.zipIdx.map (fun x => (off + 4 * x.2, 4, x.1))
/-- 8-bit fields in order from an offset. -/
def octets (off : Nat) (xs : List Nat) : List Field := xs.zipIdx.map (fun x => (off + x.2, 1, x.1))

/-! ## Chandler's pages (0x10 to 0x15) -/

/-- The entries of a log from a sequence number on, at most a count of them, in order (R418); 0x51 where the first has been overwritten, 0x52 where
it has not been written. -/
def LogRing.from_ (r : LogRing) (first count : Nat) : Chk (List Byte) :=
  let from_ := r.entries.dropWhile (fun e => e.seq.toNat != first)
  match from_ with
  | [] => .error (notReady (if first = 0 ∨ r.next ≤ first then 0x52 else 0x51))
  | es => .ok ((es.take count).flatMap LogEntry.bytes)

/-- The page of monitors (R416). -/
def MgmtSt.monitorPage (m : MgmtSt) : List Byte := m.monitors.toList.zipIdx.flatMap (fun x => x.1.bytes x.2)

/-- A unit status entry (Table 16-6). -/
def unitEntry (kind idx state role epoch deaths : Nat) : List Byte :=
  layout 8 [(0, 1, kind), (1, 1, idx), (2, 1, state), (3, 1, role), (4, 2, epoch), (6, 1, Nat.min 255 deaths)]

/-- The number of a unit state (Table 16-6). -/
def UnitState.code : UnitState → Nat
  | .active => 0
  | .spare => 1
  | .fenced => 2
  | .testing => 3
  | .off => 4

/-- The entries of a kind of the unit table. -/
def UnitTable.entries (u : UnitTable) (k : UnitKind) : List Byte :=
  (u.phys k).zipIdx.flatMap (fun x => unitEntry (physKind k) x.2 x.1.state.code (x.1.role.getD 0xFF) x.1.epoch x.1.deaths)

/-- STATE and ROLE of a physical lane on the unit page (R413). -/
def State.laneUnit (s : State) (l : Nat) : Nat × Nat :=
  let x := s.lanes.lane l
  if x.state == .fenced then (2, 0xFF)
  else if l / 4 = 6 then (if (s.eth (l - 24)).mode = 0 then 4 else 0, 0xFF)
  else if (s.lanes.quad (l / 4)).role == .off then (4, 0xFF)
  else match x.chan with
    | some c => (0, c)
    | none =>
      match x.state with
      | .spare => (1, 0xFF)
      | .calibrating => (3, 0xFF)
      | .diag => (3, 0xFF)
      | _ => (if x.rejoinBy.isSome then 3 else 4, 0xFF)

/-- The entry of a pseudo-channel: ACTIVE with its own role until it is retired, FENCED then, SPARE once it is marked usable (R411, R413). -/
def PseudoChannel.unit (x : PseudoChannel) (n : Nat) : List Byte :=
  let d := bit01 (x.state != .active)
  match x.state with
  | .retired => unitEntry 0x0D n 2 0xFF x.epoch d
  | .usable => unitEntry 0x0D n 1 0xFF x.epoch d
  | _ => unitEntry 0x0D n 0 n x.epoch d

/-- The entry of one half of a KX-4896D (R413). Its declarations are the steps of its epoch. -/
def State.halfUnit (s : State) (i : Nat) : List Byte :=
  let p := s.mgmt.pair
  if i = s.dev.inst then unitEntry 0x0E i (if p.state == .fenced then 2 else 0) i p.ownEpoch (p.ownEpoch - 1)
  else unitEntry 0x0E i (if p.twinFenced then 2 else 0) i p.twinEpoch (p.twinEpoch - 1)

/-- The page of unit status (R413). -/
def State.unitPage (s : State) : List Byte :=
  let u := s.mgmt.units
  u.entries .sliceU ++ u.entries .siteU ++ u.entries .encU ++ u.entries .decU ++ u.entries .cmpU ++ u.entries .motionU
    ++ (List.range 32).flatMap (fun l =>
        let e := s.laneUnit l
        unitEntry 0x0C l e.1 e.2 (s.lanes.lane l).lastEpoch (s.lanes.lane l).deaths)
    ++ s.mem.pcs.toList.zipIdx.flatMap (fun x => x.1.unit x.2)
    ++ (if s.dev.isD then s.halfUnit 0 ++ s.halfUnit 1 else [])
    ++ unitEntry 0x0F 0 0 0 1 0

/-- The orphan log page (Table 02-21). -/
def OrphanPage.bytes (o : OrphanPage) : List Byte :=
  let cause : Nat := match o.cause with | .perst => 0 | .hotReset => 1 | .linkDown => 2 | .flr => 3 | .enCleared => 4
  layout 64 [(0x000, 4, o.entries.length), (0x004, 4, Nat.min 0xFFFFFFFF o.overflow), (0x008, 6, o.resetS), (0x00E, 1, cause), (0x010, 4, o.resetNs)]
    ++ padTo (16 * Config.orphanMax)
        (o.entries.flatMap (fun x => entryBytes x.r0 x.r1 x.sqHead.toNat x.qid.val x.logged false x.cid x.status))

/-- The page of pair status (R439). -/
def PairSt.bytes (p : PairSt) : List Byte :=
  layout 256 ([(0x00, 1, p.state.code), (0x01, 1, p.twinState), (0x02, 1, Nat.min 255 p.misses), (0x03, 1, p.k), (0x04, 4, p.gen.toNat),
    (0x08, 4, p.twinGen.toNat), (0x0C, 4, secOf p.lastNs), (0x10, 4, nsOf p.lastNs), (0x14, 4, p.failovers.toNat), (0x18, 4, p.linkFaults.toNat)]
    ++ words 0x40 (p.takeover.toList.map BitVec.toNat))

/-! ## The pages of the contexts (0x20 to 0x25) -/

/-- STATE of a context (Table 03-17). -/
def CamState.code : CamState → Nat
  | .idle => 0
  | .configured => 1
  | .running => 2
  | .stopping => 3
  | .suspended => 4

/-- A page of one entry per context; an IDLE one is zeros. -/
def State.perCam (s : State) (size : Nat) (f : CamCtx → List Byte) : List Byte :=
  s.cams.ctx.toList.flatMap (fun c => if c.state == .idle then zeros size else f c)

/-- The camera status entry (Table 03-17). -/
def CamCtx.status (now : Nat) (c : CamCtx) : List Byte :=
  let n := c.cnt
  let runs := c.state == .running || c.state == .stopping
  layout 64 ([(0x00, 1, c.state.code), (0x01, 1, if runs then c.span else 0), (0x02, 2, c.run), (0x04, 4, c.fnNextAt now),
    (0x34, 1, Nat.min 255 n.slotsMax), (0x38, 4, pfRate c.profile), (0x3C, 4, n.lastSof)]
    ++ words 0x08 ([n.accepted, n.dropQueue, n.dropShed, n.dropMissing, n.late, n.short, n.long, n.cellsLost, n.linesRepaired, n.resends,
        n.fails].map BitVec.toNat))

/-- The raw status entry (Table 04-20). -/
def CamCtx.rawStatus (c : CamCtx) : List Byte :=
  let n := c.cnt
  layout 32 (words 0 ([n.frames, n.poisonTiles, n.defects, n.ghosts, n.tnrResets, n.tap0, n.tap1, n.bypass].map BitVec.toNat))

/-- The colour status entry (Table 05-16). -/
def CamCtx.colourStatus (c : CamCtx) : List Byte :=
  let n := c.cnt
  layout 32 (words 0 ((n.outSkips.toList ++ [n.lookBypass, n.clips, n.ndviInvalid]).map BitVec.toNat))

/-- The exposure status entry (Table 06-12). -/
def CamCtx.expStatus (c : CamCtx) : List Byte :=
  let n := c.cnt
  layout 32 (words 0 ([n.applies, n.adjusted, n.tooLate, n.hubLate, n.limitHits, n.policyMissed, n.statsSkipped, n.uncertain].map BitVec.toNat))

/-- Whether the ledger holds the record of an FN of a context's newest run (R163). -/
def State.recordHeld (s : State) (cam fn : Nat) : Bool :=
  let c := s.cam cam
  let a := ledgerAddr cam fn
  Nat.blt fn c.fnNext && leNat (s.readMem a 4) == fn % 2 ^ 32 && leNat (s.readMem (a + 4) 2) == c.run

/-- The state code of an FN that cannot be read: 0x51 no longer held, 0x52 not yet opened (R164). -/
def State.fnMissing (s : State) (cam fn : Nat) : Nat :=
  let c := s.cam cam
  let a := ledgerAddr cam fn
  let newer : Bool := leNat (s.readMem (a + 4) 2) == c.run && Nat.blt fn (leNat (s.readMem a 4))
  if newer || Nat.blt (fn + 1024) c.fnNext then 0x51 else 0x52

/-- The ledger page (R164): records in FN order from the first, until one that is not open. -/
def State.ledgerPage (s : State) (cam first count : Nat) : Chk (List Byte) := do
  need (s.recordHeld cam first) (notReady (s.fnMissing cam first))
  let fns := ((List.range count).map (first + ·)).takeWhile (s.recordHeld cam)
  match (fns.map (fun n => s.mem.mem.poisonIn (ledgerAddr cam n) 256)).find? Option.isSome with
  | some (some a) => .error (poisonedAt a)
  | _ => .ok (fns.flatMap (fun n => s.readMem (ledgerAddr cam n) 256))

/-- The motion field of an FN (R193). -/
def State.fieldPage (s : State) (cam fn : Nat) : Chk (List Byte) := do
  let c := s.cam cam
  let i ← needSome (c.fieldOf fn) (notReady (if fn < c.fnNext then 0x51 else 0x52))
  let a := fieldAddr cam i
  let n := sumsOff c.profile + 8 * fieldBy c.profile
  match s.mem.mem.poisonIn a n with
  | some b => .error (poisonedAt b)
  | none => .ok (s.readMem a n)

/-! ## The pages of objects (0x26 to 0x2A) -/

/-- The encode session entry (R218). -/
def EncSession.status (e : EncSession) : List Byte :=
  let n := e.cnt
  layout 32 ([(0, 4, Nat.min 0xFFFFFFFF e.seqNext)] ++ words 4 ([n.pictures, n.starved, n.late, n.ringDrops, n.refLost, n.concealed, n.fieldSkips].map BitVec.toNat))

/-- The decode session entry (Table 08-6). -/
def DecSession.status (e : DecSession) : List Byte :=
  let n := e.cnt
  layout 64 (words 0 (([n.out, n.lost, n.concealed, n.substituted, n.grey] ++ n.detect.toList
    ++ [n.nals, n.discarded, n.hash, n.skips, n.late]).map BitVec.toNat))

/-- The time that the store of an event session covers, in ms: from its oldest record to its newest. -/
def RecSession.storeSpan (e : RecSession) : Nat :=
  match e.store with
  | [] => 0
  | x :: rest =>
    let lo := rest.foldl (fun (a : Nat) (y : StoreRec) => Nat.min a y.rec_.time) x.rec_.time
    let hi := rest.foldl (fun (a : Nat) (y : StoreRec) => Nat.max a y.rec_.time) x.rec_.time
    (hi - lo) / 65536 / 1000000

/-- The recording session entry (R264). -/
def RecSession.status (e : RecSession) : List Byte :=
  let n := e.cnt
  layout 64 (words 0 [n.records.toNat, n.bytes % 2 ^ 32, n.bytes / 2 ^ 32 % 2 ^ 32, n.gaps.toNat, n.filled.toNat, n.late.toNat, n.fullRetry.toNat,
    n.fullRaw.toNat, n.rawStored.toNat, n.poisoned.toNat, Nat.min 0xFFFFFFFF n.waitMs, n.events.toNat, n.prerollShort.toNat,
    Nat.min 0xFFFFFFFF e.storeSpan, n.datagrams.toNat, n.discarded.toNat])

/-- The head entry (Table 10-18). -/
def DispHead.statusPage (h : DispHead) : List Byte :=
  let n := h.cnt
  let mask (f : CrcState → Bool) : Nat := sumNat (h.crc.toList.zipIdx.map (fun x => 2 ^ x.2 * bit01 (f x.1)))
  layout 128 ([(0x00, 4, h.crcFrame), (0x04, 2, mask CrcState.valid), (0x06, 2, mask CrcState.mismatch)]
    ++ words 0x08 ([n.aborts, n.repeated, n.liveLate, n.fallbacks, n.concealed, n.wbSkips, n.wbTrunc, n.crcMism, n.lockLosses, n.refused].map BitVec.toNat)
    ++ words 0x40 (h.crc.toList.map CrcState.value))

/-- The kernel entry (Table 11-13). BUSY counts issue slots, which the manual does not relate to anything else: it is free. -/
def State.kernelStatus (s : State) (k : Kernel) : List Byte :=
  let n := k.cnt
  let st : Nat := if k.unload.isSome then 2 else if k.faulted then 1 else 0
  let mask := sumNat (k.roles.map (fun r => 2 ^ r))
  patch (layout 64 ([(0x00, 1, st), (0x01, 1, khClass k.head), (0x02, 1, (s.jm.binds.filter (fun b => b.kernel == k.handle)).length),
      (0x03, 1, (s.rolesOf k).length), (0x04, 4, s.capacity k), (0x08, 4, s.charged k.handle), (0x14, 1, k.lastTrap), (0x15, 1, Nat.min 255 k.consec)]
    ++ words 0x0C ([n.invocations, n.traps].map BitVec.toNat)
    ++ words 0x18 ([n.abandoned, n.skips, n.timeouts, n.resets, n.takeovers].map BitVec.toNat)
    ++ [(0x2C, 4, Config.freeNat s.fresh % 10001)])) 0x30 (leBytes 16 mask)

/-! ## The pages of the device (0x2B to 0x2E) -/

/-- The free ranges of the heap: start and length. -/
def MemSt.gaps (m : MemSt) : List (Nat × Nat) :=
  let starts := ((Config.heapBase :: m.blocked.map (fun b => b.1 + b.2)).eraseDups).filter (fun a => m.free a 1)
  let stop (a : Nat) : Nat := (m.blocked.filter (fun b => Nat.blt a b.1)).foldl (fun (x : Nat) (b : Nat × Nat) => Nat.min x b.1) Config.heapEnd
  starts.map (fun a => (a, stop a - a))

/-- The least measured slack of the last second (R324); 100 µs where none was below it. -/
def State.slackMin (s : State) : Nat :=
  ((s.cams.slackLog.filter (fun x => Nat.ble s.time.ticks (x.1 + 400000000))).map (·.2)).foldl Nat.min 100000

/-- STATE of a pseudo-channel (Table 12-11); one marked usable holds no address range until the next power-up (R411). -/
def PcState.code : PcState → Nat
  | .active => 0
  | .retiring => 1
  | .retired => 2
  | .retirePending => 3
  | .usable => 2

/-- The entry of a pseudo-channel (Table 12-11). -/
def PseudoChannel.entry (x : PseudoChannel) (now : Nat) : List Byte :=
  layout 8 [(0, 1, x.state.code), (1, 1, Nat.min 255 (maxNat (x.tallies.toList.map Tally.count))), (2, 2, x.epoch), (4, 1, Nat.min 255 x.repairs),
    (5, 1, (x.banksUsed.filter (fun b => Nat.ble 2 b.2)).length),
    (6, 2, Nat.min 0xFFFF (x.corrAt.filter (fun k => Nat.ble now (k + hourTicks))).length)]

/-- HBM spare rows left (R341): two in each bank of each pseudo-channel, less those used. -/
def MemSt.spareRows (m : MemSt) : Nat := 2 * Config.banks * 128 - sumNat (m.pcs.toList.map (fun x => sumNat (x.banksUsed.map (·.2))))

/-- The page of memory status (R345). TRAFFIC is what the controllers served in the last second. -/
def State.memoryPage (s : State) : List Byte :=
  let m := s.mem
  let n := m.cnt
  let gap := m.gaps.map (·.2)
  let dead (x : PseudoChannel) : Bool := x.state == .retired || x.state == .usable
  let head := layout 256 (octets 0x00 m.speeds.toList
    ++ [(0x04, 1, (m.pcs.toList.filter dead).length), (0x05, 1, m.pendingRet.length), (0x18, 8, sumNat gap), (0x20, 8, maxNat gap), (0x28, 4, s.slackMin)]
    ++ words 0x80 ([n.corrected, n.uncorrectable, n.overflows, n.postponed, n.forced, n.deferred, n.skipped, n.pprDone].map BitVec.toNat)
    ++ words 0xA0 [sumNat (m.pcs.toList.map (fun x => x.candidates.length)), m.spareRows, sumNat (m.macros.map (fun x => x.remap.length)), m.scrubPass])
  let mask := sumNat (m.pcs.toList.zipIdx.map (fun x => 2 ^ x.2 * bit01 (dead x.1)))
  let traffic := (List.range 10).flatMap (fun g => [false, true].flatMap (fun w => leBytes 4 (Nat.min (2 ^ 32 - 1) (s.fab.traffic g w s.time.ticks))))
  let head := patch (patch head 0x08 (leBytes 16 mask)) 0x30 traffic
  head ++ m.pcs.toList.flatMap (fun x => x.entry s.time.ticks)

/-- The entry of a lane (Table 13-16). -/
def State.laneEntry (s : State) (l : Nat) : List Byte :=
  let x := s.lanes.lane l
  layout 32 ([(0x00, 1, laneStateCode x.state), (0x01, 1, x.chan.getD 0xFF), (0x02, 1, x.rate),
    (0x03, 1, Nat.min 255 (s.tempMoved l x.calVal / 256)), (0x04, 2, x.snr), (0x06, 2, (x.chan.map (fun c => (s.lanes.chan c).epoch)).getD 0)]
    ++ words 0x08 ([x.cellsLost, x.cwUncorr, x.calibrations, x.rotations, x.deferred, x.inplaceN].map BitVec.toNat))

/-- portState of IEEE 1588-2019 as a number (log 12). -/
def PortState.code : PortState → Nat
  | .notPtp => 0
  | .disabled => 3
  | .listening => 4
  | .master => 6
  | .passive => 7
  | .uncalibrated => 8
  | .slave => 9

/-- The page of time status (R390). -/
def TimeSt.page (t : TimeSt) : List Byte :=
  let mask (l : List Bool) : Nat := sumNat (l.zipIdx.map (fun x => 2 ^ x.2 * bit01 x.1))
  layout 64 ([(0x00, 4, t.status), (0x04, 4, t.steps.toNat), (0x08, 4, t.lockLosses.toNat), (0x0C, 2, (t.gm.map Announce.stepsRemoved).getD 0),
    (0x10, 8, (t.gm.map Announce.gmId).getD 0), (0x18, 4, mask (t.compare.toList.map Option.isSome)),
    (0x1C, 4, mask (t.capture.toList.map Option.isSome))] ++ words 0x20 ([t.skipped, t.late, t.tcForwarded, t.tcDiscarded].map BitVec.toNat))
  ++ t.ports.toList.flatMap (fun p => layout 32 ([(0x00, 1, p.state.code), (0x04, 4, if t.mode.profile = 0 then 0 else p.linkDelay.toNat)]
    ++ words 0x08 ([p.syncRx, p.syncTx, p.delayRx, p.announceRx, p.discarded].map BitVec.toNat)))

/-- RATE_PPM of a port (Table 15-6), s16.16: the measured rate, or the ppm of the media clock of a MASTER port, rounded down. -/
def State.audPpm (s : State) (x : AudPort) : Int :=
  if pbMaster x.blk then ((vget s.aud.clocks none (pbMc x.blk)).map (fun (m : MediaClk) => (m.ppm * 65536).floor)).getD 0 else x.ppm

/-- The audio status entry (Table 15-6). -/
def State.audEntry (s : State) (o : Option AudPort) : List Byte :=
  match o with
  | none => zeros 32
  | some x =>
    let n := x.cnt
    layout 32 ([(0x00, 1, bit01 x.rxOn + 2 * bit01 x.txOn + 4 * bit01 (pbMaster x.blk || x.clock)),
      (0x02, 2, Nat.min 0xFFFF (x.fillFrames * 1000000 / Nat.max 1 (pbRate x.blk))), (0x04, 4, wrapInt 32 (s.audPpm x))]
      ++ words 0x08 ([n.blocks, n.filled, n.lost, n.dropped, n.underrun, n.clockLosses].map BitVec.toNat))

/-! ## The page of a command -/

/-- The arguments PARAM2 and PARAM3 are reserved for a page that defines none (R47). -/
def noArgs (c : Cmd) : Chk Unit := do
  need (par c 2 == 0) (badParam 2)
  need (par c 3 == 0) (badParam 3)

/-- A page without handle and arguments. -/
def devicePage (c : Cmd) (bs : List Byte) : Chk Page := do
  need (c.handle == 0) (badPacket 0x08)
  noArgs c
  return Page.whole bs

/-- The handle of a page that describes an object of a type. -/
def pageHandle (s : State) (c : Cmd) (ty : Nat) : Chk Unit := need (typeOf c.handle == ty && s.liveHandle c.handle) (badHandle c.handle 0)

/-- A page of one object without arguments. -/
def objectPage (s : State) (c : Cmd) (ty : Nat) (o : Option (List Byte)) : Chk Page := do
  pageHandle s c ty
  noArgs c
  let bs ← needSome o (badHandle c.handle 0)
  return Page.whole bs

/-- The count of a page that selects entries: 1 to 64, with no offset (R47, R164, R418). -/
def pageCount (c : Cmd) : Chk Nat := do
  need (par c 1 == 0) (badParam 1)
  need (1 ≤ par c 3 && par c 3 ≤ 64) (badParam 3)
  return par c 3

/-- The camera of a page. -/
def pageCam (s : State) (c : Cmd) : Chk Nat := do
  pageHandle s c 2
  needSome (s.cams.find c.handle) (badHandle c.handle 0)

/-- A log page of Chandler's. -/
def logPage (c : Cmd) (r : LogRing) (max : Nat) : Chk Page := do
  need (c.handle == 0) (badPacket 0x08)
  let n ← pageCount c
  let bs ← r.from_ (par c 2) n
  return { bytes := bs, full := 64 * max, entry := some 64 }

/-- The page that PARAM0 names (Table 02-19), as its own rule gives it. -/
def State.page (s : State) (c : Cmd) : Chk Page :=
  match par c 0 with
  | 0x10 => logPage c s.mgmt.errors Config.errorLogMax
  | 0x11 => logPage c s.mgmt.events Config.eventLogMax
  | 0x12 => devicePage c s.mgmt.monitorPage
  | 0x13 => devicePage c s.unitPage
  | 0x14 => devicePage c s.host.orphans.bytes
  | 0x15 => devicePage c s.mgmt.pair.bytes
  | 0x20 => devicePage c (s.perCam 64 (CamCtx.status s.ns))
  | 0x21 => devicePage c (s.perCam 32 CamCtx.rawStatus)
  | 0x22 => devicePage c (s.perCam 32 CamCtx.colourStatus)
  | 0x23 => do
    let cam ← pageCam s c
    let n ← pageCount c
    let bs ← s.ledgerPage cam (par c 2) n
    return { bytes := bs, full := 262144, entry := some 256 }
  | 0x24 => devicePage c (s.perCam 32 CamCtx.expStatus)
  | 0x25 => do
    let cam ← pageCam s c
    need (par c 3 == 0) (badParam 3)
    let bs ← s.fieldPage cam (par c 2)
    need (Nat.ble bs.length c.ptrLen.toNat) (badPacket 0x18)
    return Page.whole bs
  | 0x26 => objectPage s c 3 ((s.enc c.handle).map EncSession.status)
  | 0x27 => objectPage s c 4 ((s.decSession c.handle).map DecSession.status)
  | 0x28 => objectPage s c 5 ((s.rec_ c.handle).map RecSession.status)
  | 0x29 => objectPage s c 6 ((s.disp.headOf c.handle).bind (fun i => (s.head i).map DispHead.statusPage))
  | 0x2A => objectPage s c 8 ((s.kernel c.handle).map s.kernelStatus)
  | 0x2B => devicePage c s.memoryPage
  | 0x2C => devicePage c ((List.range 32).flatMap s.laneEntry)
  | 0x2D => devicePage c s.time.page
  | 0x2E => devicePage c (s.aud.ports.toList.flatMap s.audEntry)
  | _ => .error (badParam 0)

/-- GET_LOG_PAGE (R47): a snapshot of the page goes into the PTR range, from the offset up to PTR_LEN or the page's end; a page that selects
entries gives whole entries and their count. -/
def execGetLogPage (c : Cmd) (s : State) : Host.Outcome State Fault Refusal :=
  runCmd .getLogPage c s do
    let p ← s.page c
    match p.entry with
    | some size =>
      let n := Nat.min (p.bytes.length / size) (c.ptrLen.toNat / size)
      okDone n p.full ((s.writePtr c (p.bytes.take (size * n))).tickFresh)
    | none => do
      need (par c 1 % 64 == 0 && Nat.blt (par c 1) p.full) (badParam 1)
      let bs := (p.bytes.drop (par c 1)).take c.ptrLen.toNat
      okDone bs.length p.full ((s.writePtr c bs).tickFresh)

/-! ## IDENTIFY -/

/-- The unit that fills each role of a kind; 0xFF for a retired role. -/
def UnitTable.map_ (u : UnitTable) (k : UnitKind) : List Nat := (u.roles k).map (fun r => r.unit.getD 0xFF)

/-- The IDENTIFY structure (Table 02-18). -/
def State.identity (s : State) : List Byte :=
  let d := s.dev
  let f := s.mgmt.fw
  let u := s.mgmt.units
  let ver (b : Bank) : Nat := if b.empty then 0 else b.version
  let rcv := s.power.phase == .recovery
  let low := layout 0x50 ([(0x000, 2, 0x4896), (0x002, 2, 0x00B0), (0x004, 1, bit01 d.isD), (0x005, 1, if d.isD then d.inst else 0),
    (0x006, 1, bit01 rcv + 2 * bit01 f.trial + 4 * f.active + 8 * bit01 f.ownerKey.isSome), (0x007, 1, f.rollback), (0x008, 2, 1),
    (0x00C, 4, ver f.bankA), (0x010, 4, ver f.bankB), (0x01E, 2, d.avs), (0x020, 6, d.macBase), (0x028, 4, 50), (0x02C, 4, 2000), (0x030, 4, 60000),
    (0x040, 2, 64), (0x042, 2, 4096), (0x044, 2, Config.rangeLocks), (0x046, 2, Config.asyncMax), (0x048, 2, Config.heldMax), (0x04A, 2, 256),
    (0x04C, 2, Config.orphanMax)])
  let low := patch low 0x014 (padTo 10 d.serial)
  let retired (k : UnitKind) : Nat := (u.roles k).length - u.filled k
  let counts := [u.filled .sliceU, u.spares .sliceU, u.filled .encU, u.spares .encU, u.spares .siteU, retired .siteU, u.filled .decU, u.filled .cmpU,
    1 - u.filled .motionU, s.laneSpares, (s.mem.pcs.toList.filter (fun p => p.state == .retired || p.state == .usable)).length]
  let high := layout 0x3B0 (words 0x00 [s.operLimit, 3200, 2400] ++ octets 0x10 counts ++ octets 0x30 (u.map_ .sliceU) ++ octets 0x40 (u.map_ .encU)
    ++ octets 0xB0 (u.map_ .siteU) ++ [(0x1B0, 2, s.mem.macros.length)])
  let macros := padTo 0xC00 (s.mem.macros.flatMap (fun m => layout 8 [(0, 2, m.number), (2, 1, m.kind), (3, 1, m.unit), (4, 4, m.words)]))
  if rcv then padTo 4096 low else low ++ high ++ macros

/-- IDENTIFY (R45): the structure goes into the PTR range. -/
def execIdentify (c : Cmd) (s : State) : Host.Outcome State Fault Refusal :=
  runCmd .identify c s (okDone 4096 0 (s.writePtr c s.identity))

end Sys2Proof.Machine
end

