-- ==== Sys2Proof/Machine/Pair.lean ====
section
/-!
DEFINITION. Pair operation of a KX-4896D (chapter 16, R431 to R439): configuration, heartbeats, the declaration of the twin, the takeover of
its cameras from the shadow, and the mirroring of this instance's own.
-/
namespace Sys2Proof.Machine

/-- The lowest pair-link channel in service (R432). -/
def State.pairChan (s : State) : Option Nat :=
  (List.range 32).find? (fun c => isChannel c && (s.lanes.quad (c / 4)).role == .pair && s.inService c)

/-- Hubs of a list of peer contexts, each once. -/
def hubsOf (l : List Nat) : List Nat := l.eraseDups

/-! ## PAIR_CONFIGURE -/

/-- MAP of a pair block: the local context of peer context i. -/
def pairMap (b : List Byte) (i : Nat) : Option Nat := if f8 b (0x10 + i) = 0xFF then none else some (f8 b (0x10 + i))

/-- The fields of a pair block (R431, Table 16-18). peers are the peer's contexts with their HUB_ID and hub port. -/
def pairFields (s : State) (b : List Byte) (peers : List (Nat × Nat × Nat)) : List (Nat × Bool) :=
  let okLocal (i l : Nat) : Bool := Nat.blt l 48 && (s.cam l).state == .idle && (List.range i).all (fun j => pairMap b j != some l)
  let whole (i : Nat) : Bool := (pairMap b i).isSome || peers.all (fun x => x.1 != i || peers.all (fun y => y.2.1 != x.2.1 || (pairMap b y.1).isNone))
  [(0x08, f32 b 8 % 4096 == 0), (0x0C, decide (Config.shadowNeed.toNat ≤ f32 b 0xC))]
  ++ (List.range 48).map (fun i => (0x10 + i, (match pairMap b i with | none => true | some l => okLocal i l) && whole i))

/-- STANDBY_BIND goes to the hub of a mapped group, on behalf of the first of its takeover contexts (R431, Table 16-17). -/
def State.standby (mapped : Vector (Option Nat) 48) (peers : List (Nat × Nat × Nat)) (hub : Nat) (s : State) : State :=
  let mine := peers.filterMap (fun x => if x.2.1 = hub then (vget mapped none x.1).map (fun l => (l, x.2.2)) else none)
  match mine with
  | [] => s
  | x :: _ => s.sendHub x.1 0x22 0 s.mgmt.pair.twinEpoch hub (mine.flatMap (fun y => layout 8 [(0, 2, y.2), (2, 1, y.1)]))

/-- OP 0 (R431, R434). -/
def pairConfigure (c : Cmd) (peers : List (Nat × Nat × Nat)) (s : State) : Chk Done := do
  need (s.dev.isD && s.pairChan.isSome) (notReady 0xE5)
  let b ← structFor s c (.read 64)
  if !bitOf (f8 b 0) 0 then
    let off (p : PairSt) : PairSt := { p with state := if p.state == .fenced then .fenced else .off, mapped := Vector.replicate 48 none }
    okDone 0 0 (s.mapPair off)
  else do
    needFields (pairFields s b peers)
    let buf ← needBuffer s c.aux 1
    let a ← needInBuffer s buf (f32 b 8) (f32 b 0xC)
    needRing s (unitHandle 0x0E s.dev.inst) 0xE40 a (f32 b 0xC)
    let mapped : Vector (Option Nat) 48 := Vector.ofFn (fun i => pairMap b i.val)
    let r := ref .pairConfigure c
    let on (p : PairSt) : PairSt :=
      { p with state := if p.state == .fenced then .fenced else if p.twinFenced then .solo else .paired,
               shadowBuf := c.aux, shadowOff := f32 b 8, shadowLen := f32 b 0xC, mapped := mapped, shadow := [], sent := [], configBy := p.configBy ++ [r] }
    let t := (s.mapPair on).keepInFlight r
    let hubs := hubsOf ((peers.filter (fun x => (vget mapped none x.1).isSome)).map (fun x => x.2.1))
    .ok (.waits (hubs.foldl (fun (u : State) (h : Nat) => u.standby mapped peers h) t))

/-- OP 1 (R438): the group of a hub goes to the twin at the end of the frame in progress on each of its contexts. -/
def pairHandOver (c : Cmd) (s : State) : Chk Done := do
  need (s.dev.isD && s.pairChan.isSome && s.mgmt.pair.state == .paired) (notReady 0xE5)
  let hub := par c 1
  let g := s.group hub
  need (!g.isEmpty && s.mgmt.pair.hands.all (fun h => h.hub != hub)) (badParam 1)
  let r := ref .pairConfigure c
  let t := (s.mapPair (fun p => { p with hands := p.hands ++ [{ by_ := r, hub := hub, sent := false }] })).keepInFlight r
  .ok (.waits ((g.foldl (fun (u : State) (i : Nat) => u.stopQuiet false i) t).handOn))

/-- PAIR_CONFIGURE (R431, R438). peers are the contexts of the peer as the pair link shows them: index, HUB_ID and hub port. -/
def execPairConfigure (c : Cmd) (peers : List (Nat × Nat × Nat)) (s : State) : Host.Outcome State Fault Refusal :=
  runCmd .pairConfigure c s do
    let op := par c 0
    needPar0 (Nat.blt op 3)
    need (op == 1 || par c 1 == 0) (badParam 1)
    need (op == 0 || c.aux == 0) (badPacket 0x0C)
    match op with
    | 0 => pairConfigure c peers s
    | 1 => do
      let _ ← structFor s c .none
      pairHandOver c s
    | _ => do
      let _ ← structFor s c .none
      need s.dev.isD (notReady 0xE5)
      okDone Config.shadowNeed.toNat 0 s

/-! ## The mirror (R434) -/

/-- The apply block of the newest apply's values (Table 06-4): the settings in force with what is pending, and the newest values of the
ledgered groups. -/
def CamCtx.newestApply (c : CamCtx) : List Byte :=
  let p := c.profile
  let x := c.applies.foldl (fun (x : PipeSet) (a : Apply) => x.merge (pfNexp p) a.blk) c.pipe
  let last (g : Nat) : Option (List Byte) := ((c.writes.filter (fun w => w.group == g)).getLast?).map GroupWrite.value
  let gs := (pfLedgered p).filter (fun g => (last g).isSome)
  let base := layout 96 ((List.range 3).flatMap (fun i => [(0x04 + 4 * i, 4, vget x.t 0 i), (0x10 + 4 * i, 4, vget x.g 0 i)])
    ++ (List.range 4).map (fun i => (0x20 + 4 * i, 4, vget x.wb 0 i)) ++ [(0x30, 2, x.mix), (0, 2, 0x700 + sumNat (gs.map (2 ^ ·)))])
  gs.foldl (fun (b : List Byte) (g : Nat) => patch b (0x38 + grpOffset p g) ((last g).getD [])) base

/-- The mirrored state of a context; none for an IDLE one. -/
def State.mirrorOf (s : State) (cam : Nat) : Option Mirror :=
  let c := s.cam cam
  if c.state == .idle then none
  else
    let file (l : Loaded) : List Byte := s.readMem l.addr l.len
    let tabs {n : Nat} (v : Vector (Option Loaded) n) : List (Nat × List Byte) :=
      v.toList.zipIdx.filterMap (fun x => x.1.map (fun l => (x.2, file l)))
    let kernel (h : Handle) : Option (Nat × Nat × List Byte) := (s.kernel h).map (fun k => (c.rolesHeld h, k.roles.length, k.head ++ k.body))
    let sent := ((c.triggers.find? (fun t => t.fn.isNone)).map Trigger.index)
    let planOf (p : TrigPlan) : MirrorPlan :=
      { first := p.first, period := p.period, stop := p.stop, align := p.align, pin := p.pin, pulse := p.pulse,
        fnBase := (c.fnNext : Int) - ((sent.getD p.sent : Nat) : Int) }
    some {
      profile := c.profile, run := c.run, plan := c.plan.map planOf,
      stages := c.next.stages.toList.map (fun x => (x.on, x.blk)), tables := tabs c.next.tables, matrix := c.next.matrix, look := c.next.look.map file,
      curves := tabs c.next.curves, spectral := c.next.spectral, stats := c.next.stats.map StatCfg.blk, limits := c.limits,
      apply := if c.applyNext ≤ 1 then none else some c.newestApply, kernels := c.invoked.filterMap kernel,
      outs := c.next.outs.toList.zipIdx.filterMap (fun x => x.1.map (fun o => (x.2, o.blk))) }

/-- The contexts whose mirrored state has changed are mirrored to the twin, and SHADOW_GEN advances (R434). -/
def State.mirrorOut (s : State) : State :=
  let p := s.mgmt.pair
  if p.state != .paired then s
  else
    let now := (List.range 48).filterMap (fun i => (s.mirrorOf i).map (fun m => (i, m)))
    let changed := (List.range 48).filter (fun i => now.find? (fun x => x.1 == i) != p.sent.find? (fun x => x.1 == i))
    let t := s.mapPair (fun q => { q with sent := now, gen := q.gen + BitVec.ofNat 32 changed.length })
    changed.foldl (fun (u : State) (i : Nat) => u.emit (.mirror i ((now.find? (fun x => x.1 == i)).map (·.2)))) t

/-- HEARTBEAT_SEND (R432, R434): the heartbeat of Table 16-19 leaves on the lowest pair-link channel in service; what has changed since the last
one is mirrored. -/
def execHeartbeatSend (s : State) : Host.Outcome State Fault Refusal :=
  match s.pairChan with
  | none => .next s
  | some ch =>
    if !s.dev.isD || s.power.phase != .running then .next s
    else
      let t := s.mirrorOut
      let p := t.mgmt.pair
      let body := layout 240 ([(0x00, 1, 0x40), (0x01, 1, p.state.code), (0x02, 2, p.seq % 65536), (0x04, 2, p.ownEpoch), (0x08, 4, p.gen.toNat),
        (0x0C, 4, t.admittedRate)] ++ (List.range 48).map (fun i => (0x10 + 4 * i, 4, (t.cam i).fnNextAt t.ns)))
      .next ((t.mapPair (fun q => { q with seq := (q.seq + 1) % 65536 })).sendCell ch 2 body)

/-- SHADOW_UPDATE (R24, R434): a change of the twin's mirrored state is stored in the shadow buffer, whose bytes are the two instances' own. A cell of another
instance epoch is dropped. used are the bytes that the shadow now takes, and full says that the first full mirror is there:
PAIR_CONFIGURE completes. -/
def execShadowUpdate (cell : ShadowCell) (m : Option Mirror) (used : Nat) (full : Bool) (s : State) : Host.Outcome State Fault Refusal :=
  let p := s.mgmt.pair
  let cam := cell.cam
  if !s.dev.isD || p.state == .off then .next s
  else if cell.epoch != p.twinEpoch then .next (s.dropStale (unitHandle 0x0E (1 - s.dev.inst)) cell.epoch)
  else
    let put (q : PairSt) : PairSt :=
      { q with shadow := q.shadow.filter (fun x => x.1 != cam) ++ (m.map (fun y => (cam, y))).toList, twinGen := q.twinGen + 1,
               configBy := if full then [] else q.configBy }
    let n := Nat.min used p.shadowLen
    let t := match s.buffer p.shadowBuf with
      | some b => (s.tickFresh).writeMem (b.base + p.shadowOff) ((List.range n).map (Config.freeByte s.fresh))
      | none => s
    let t := t.mapPair put
    .next (if full then p.configBy.foldl (fun (u : State) (r : CmdRef) => u.finish r .ok 0 used false) t else t)

/-! ## Takeover (R435, R436) -/

/-- The peer contexts that are mapped and mirrored: index, takeover context and mirror. -/
def PairSt.taken (p : PairSt) : List (Nat × Nat × Mirror) :=
  p.shadow.filterMap (fun x => (vget p.mapped none x.1).map (fun l => (x.1, l, x.2)))

/-- The load of the mapped contexts under a divisor, without those suspended. -/
def takenLoad (l : List (Nat × Nat × Mirror)) (k : Nat) (out : List Nat) : Nat :=
  sumNat ((l.filter (fun x => !out.contains x.1)).map (fun x => ceilDiv (pfRate x.2.2.profile) (if pfDegradable x.2.2.profile then k else 1)))

/-- Suspends contexts from a list, in order, until the load fits a budget. -/
def suspendUntil (all : List (Nat × Nat × Mirror)) (k budget : Nat) : List Nat → List Nat → List Nat
  | [], out => out
  | i :: rest, out => if takenLoad all k out ≤ budget then out else suspendUntil all k budget rest (out ++ [i])

/-- The divisor k and the contexts that are suspended (R436). -/
def degradePlan (all : List (Nat × Nat × Mirror)) (kmax budget : Nat) : Nat × List Nat :=
  if takenLoad all 1 [] ≤ budget then (1, [])
  else
    let k := (((List.range (kmax + 1)).filter (2 ≤ ·)).find? (fun k => takenLoad all k [] ≤ budget)).getD (Nat.max 1 kmax)
    let order (deg : Bool) : List Nat := ((sortBy (fun (x : Nat × Nat × Mirror) => -(pfRate x.2.2.profile : Int))
      (all.filter (fun x => pfDegradable x.2.2.profile == deg))).map (·.1))
    (k, suspendUntil all k budget (order false ++ order true) [])

/-- The twin is declared dead (R433, R435): its epoch advances, PAIR_FAILOVER is posted, admission degrades what does not fit, and every hub of the
mapped groups gets a new owner. -/
def State.declareTwin (s : State) : State :=
  let twin := 1 - s.dev.inst
  let all := s.mgmt.pair.taken
  let d := degradePlan all s.mgmt.policy.degradeKmax (s.sliceRoles * s.sliceLimit - s.admittedRate)
  let hubs := hubsOf (all.map (fun x => pfHubId x.2.2.profile))
  let e := nextEpoch s.mgmt.pair.twinEpoch
  let t := (s.mapPair (fun p => { p with
    twinEpoch := e, twinFenced := true, state := .solo, failovers := p.failovers.satInc, lastNs := s.ns, k := d.1, suspended := d.2,
    awaiting := hubs })).mapMgmt (fun m => { m with smb := { m.smb with pairDegraded := true } })
  let t := t.post .pairFailover (BitVec.ofNat 32 twin)
  hubs.foldl (fun (u : State) (h : Nat) => match all.find? (fun x => pfHubId x.2.2.profile == h) with
    | some x => u.sendHub x.2.1 0x20 (e + 65536 * s.dev.inst) e h []
    | none => u) t

/-- The device address in the shadow buffer of a part of a peer context. -/
def State.shadowAddr (s : State) (i part : Nat) : Nat :=
  let p := s.mgmt.pair
  ((s.buffer p.shadowBuf).map Buffer.base).getD 0 + p.shadowOff + Config.shadowPlace i part % Nat.max 1 p.shadowLen

/-- The plan of a context that is taken over: its period multiplied by the divisor on the same grid (R436). -/
def degradeTrig (m : MirrorPlan) (k : Nat) : TrigPlan :=
  let period := m.period * k
  let first := if k ≤ 1 then m.first else alignUp m.first period (m.first % Nat.max 1 m.period)
  let p : TrigPlan := { first := first, period := period, stop := none, pin := m.pin, unit := none, pulse := m.pulse, held := true, start := 0, sent := 0,
                        align := m.align }
  { p with stop := m.stop.map (fun n => p.indexAt (m.first + n * m.period)) }

/-- The set of a context that is taken over; its tables, rings and buffers lie in the shadow buffer (R435). -/
def State.takenSet (s : State) (i : Nat) (m : Mirror) : ParamSet :=
  let p := m.profile
  let file (part : Nat) (bs : List Byte) : Loaded := { addr := s.shadowAddr i part, len := bs.length }
  let out (x : Nat × List Byte) : OutCfg :=
    let b := x.2
    { id := 1 + x.1, blk := b, slots := if x.1 = 3 then f8 b 1 else f8 b 3, every := if x.1 = 3 then f8 b 2 else f8 b 8,
      hostRead := if x.1 = 3 then bitOf (f8 b 3) 0 else bitOf (f8 b 9) 0, base := s.shadowAddr i (0x30 + x.1), slotSize := outSlotSize p x.1 b }
  { ParamSet.default p with
    stages := Vector.ofFn (fun j => let x := (m.stages[j.val]?).getD (false, []); { on := x.1, blk := x.2 }),
    tnrBuf := s.shadowAddr i 1, matrix := m.matrix, spectral := m.spectral,
    tables := Vector.ofFn (fun j => (m.tables.find? (fun x => x.1 == j.val)).map (fun x => file (0x10 + x.1) x.2)),
    look := m.look.map (file 2), curves := Vector.ofFn (fun j => (m.curves.find? (fun x => x.1 == j.val)).map (fun x => file (0x20 + x.1) x.2)),
    outs := Vector.ofFn (fun j => (m.outs.find? (fun x => x.1 == j.val)).map out),
    stats := m.stats.map (fun b => { id := 9, blk := b, slots := f8 b 1, hostRead := bitOf (f8 b 0) 4, base := s.shadowAddr i 3, slotSize := statSlotSize b }) }

/-- Copies of the mirrored tables, looks and curves where the set looks for them. -/
def State.placeFiles (i : Nat) (m : Mirror) (s : State) : State :=
  let put (part : Nat) (bs : List Byte) (t : State) : State := t.writeMem (s.shadowAddr i part) bs
  let t := m.tables.foldl (fun (u : State) x => put (0x10 + x.1) x.2 u) s
  let t := m.curves.foldl (fun (u : State) x => put (0x20 + x.1) x.2 u) t
  match m.look with
  | some b => put 2 b t
  | none => t

/-- A POLICY kernel of a context that is taken over is loaded and bound where free roles allow (R435). -/
def State.takeKernel (cam : Nat) (x : Nat × Nat × List Byte) (s : State) : State :=
  let free := (List.range 128).filter (fun r => (s.mgmt.units.unitOf .siteU r).isSome && s.jm.kernels.all (fun k => !k.roles.contains r))
  if free.length < x.2.1 then s
  else
    let k : Kernel := { handle := s.nextHandle 8, head := x.2.2.take 256, body := x.2.2.drop 256, roles := free.take x.2.1, faulted := false,
                        unload := none, consec := 0, lastTrap := 0, cnt := KernelCounters.zero }
    let b : KBind := { newBind s k (s.camHandle cam) 2 with live := true }
    ((s.issue 8).mapJm (fun j => { j with kernels := j.kernels ++ [k], binds := j.binds ++ [b] })).mapCam cam (fun c => { c with
      policies := vmapIdx c.policies (fun i o => if bitOf x.1 i then some k.handle else o) })

/-- A context is configured from the shadow and started, or SUSPENDED where it does not fit (R435, R436). -/
def State.takeOver (x : Nat × Nat × Mirror) (s : State) : State :=
  let i := x.1
  let cam := x.2.1
  let m := x.2.2
  let pr := s.mgmt.pair
  if (s.cam cam).state != .idle then s
  else
    let out := pr.suspended.contains i
    let k := if pfDegradable m.profile then pr.k else 1
    let h := s.nextHandle 2
    let fn := vget pr.peerFn 0 i
    let plan := m.plan.map (fun (p : MirrorPlan) => degradeTrig p k)
    let unit := firstIdx Option.isNone s.time.compare.toList
    let plan := plan.bind (fun p => match p.pin with
      | none => some p
      | some n => if s.pinFree n then unit.map (fun u => { p with unit := some u }) else none)
    let idx : Nat := match m.plan, plan with
      | some q, some p => p.indexAt (q.first + ((fn : Int) - q.fnBase).toNat * q.period)
      | _, _ => 0
    let set := s.takenSet i m
    let y : CamCtx := { CamCtx.idle m.run with
      state := if out then .suspended else .configured, handle := h, profile := m.profile, queueBase := s.shadowAddr i 0,
      queueLen := pfQueueBytes m.profile, queueBuf := pr.shadowBuf, degrade := k, next := set, last := set, cfgCount := 16, limits := m.limits, plan := plan,
      takeFn := some (fn, idx), startNs := s.ns, seq := (s.cam cam).seq }
    let t := ((s.placeFiles i m).mapCam cam (fun _ => y)).issue 2
    let t := t.mapPair (fun p => { p with takeover := vmod p.takeover i (fun _ => h) })
    let t := match plan with
      | some p => (match p.pin with | some n => (t.armPlan cam p).ownPin n (.plan cam) | none => t)
      | none => t
    let t := m.kernels.foldl (fun (u : State) q => u.takeKernel cam q) t
    let t := match m.apply with
      | some b => t.issueApply cam none b 0 0 false true
      | none => t
    if out then t.logErrorPost { source := 0x02, code := Status.budgetExceeded.code, unit := h }
    else (t.mapCam cam (fun c => { c with starting := some none })).sendBind cam .bindStart

/-- OWNER_ACK (R435, R438): a hub has accepted a new owner. After a failover the group's contexts are configured from the shadow and started; in a
hand-over the contexts given away are IDLE and the command completes, lost counting the frames that the twin closed MISSING. -/
def execOwnerAck (hub epoch hubFc lost : Nat) (s : State) : Host.Outcome State Fault Refusal :=
  let p := s.mgmt.pair
  let _ := hubFc
  let settled (t : State) : State :=
    let drop (c : CamCtx) : CamCtx := { c with unacked := c.unacked.filter (fun x => x.why != .owner hub) }
    (t.mapCams (fun x => { x with ctx := x.ctx.map drop })).mapPair (fun q => { q with
      hubEpochs := q.hubEpochs.filter (fun x => x.1 != hub) ++ [(hub, epoch)] })
  match p.hands.find? (fun h => h.hub == hub && h.sent) with
  | some h =>
    let g := s.group hub
    if (g.head?.map (fun i => nextEpoch (s.hubEpoch i))) != some epoch then .next s
    else
      let t := (settled s).mapPair (fun q => { q with hands := q.hands.filter (fun x => x.hub != hub) })
      .next (((g.foldl (fun (u : State) (i : Nat) => u.releaseCtx i) t).jmSettle).finish h.by_ .ok lost 0 false)
  | none =>
    if !p.awaiting.contains hub || epoch != p.twinEpoch then .next s
    else
      let t := (settled s).mapPair (fun q => { q with awaiting := q.awaiting.filter (· != hub) })
      .next ((p.taken.filter (fun x => pfHubId x.2.2.profile == hub)).foldl (fun (u : State) x => u.takeOver x) t)

/-! ## Heartbeats (R432, R433) -/

/-- HEARTBEAT (R432, R433, R437, R438): a heartbeat of the twin clears the miss count and ends a link fault. One of another epoch is stale. A twin
that is SOLO has declared this instance dead, and one that is PAIRED has taken it back. -/
def execHeartbeat (payload : List Byte) (s : State) : Host.Outcome State Fault Refusal :=
  let p := s.mgmt.pair
  let twin := unitHandle 0x0E (1 - s.dev.inst)
  if !s.dev.isD || f8 payload 0 != 0x40 then .next s
  else if f16 payload 4 != p.twinEpoch then .next (s.dropStale twin (f16 payload 4))
  else
    let st := f8 payload 1
    let back := p.state == .fenced && st == 1
    let t := s.mapPair (fun q => { q with
      misses := 0, twinState := st, twinGen := BitVec.ofNat 32 (f32 payload 8), peerRate := f32 payload 0xC,
      peerFn := Vector.ofFn (fun i => f32 payload (0x10 + 4 * i.val)), sent := if back then [] else q.sent,
      state := if back || q.state == .linkFault then .paired else q.state })
    let t := if p.state == .linkFault then t.mapMgmt (fun m => { m with smb := { m.smb with pairDegraded := false } }) else t
    let t := if back then (List.range 48).foldl (fun (u : State) (i : Nat) =>
        if (u.cam i).state == .configured && pfOzoth (u.cam i).profile then u.releaseCtx i else u) t else t
    .next ((if st = 3 && p.state != .off then t.pairFenced else t).jmSettle)

/-- HEARTBEAT_MISS (R433): 1.1 ms have passed without a heartbeat. toggles and chandler are the twin's pair-sense: its core pin toggles, its Chandler
pin is high. -/
def execHeartbeatMiss (toggles chandler : Bool) (s : State) : Host.Outcome State Fault Refusal :=
  let p := s.mgmt.pair
  if !s.dev.isD || !(p.state == .paired || p.state == .linkFault) then .next s
  else
    let n := Nat.min 255 (p.misses + 1)
    let t := s.mapPair (fun q => { q with misses := n })
    if n < 5 then .next t
    else if !toggles || !chandler then .next t.declareTwin
    else if p.state == .paired then
      .next (((t.mapPair (fun q => { q with state := .linkFault, linkFaults := q.linkFaults.satInc })).mapMgmt
        (fun m => { m with smb := { m.smb with pairDegraded := true } })).logErrorPost
          { source := 0x0E, code := Status.hardwareFault.code, unit := unitHandle 0x0E (1 - s.dev.inst) })
    else .next t

end Sys2Proof.Machine
end

