-- ==== Sys2Proof/Machine/Power.lean ====
section
/-!
DEFINITION. Power states, idle timers, throttle and trip, supplies and resets (chapters 02, 17, 18).
-/
namespace Sys2Proof.Machine

/-! ## Power states -/

/-- Whether the entry check of a state holds (R64, R65). -/
def State.entryHolds (s : State) (p : PowerState) : Bool :=
  match p with
  | .ps0 => true
  | .ps1 => s.admittedRate ≤ 38400 && s.maxShare ≤ 2400
  | _ => !s.anythingRunning

/-- PWR_SET_STATE (R64, R461): sets the operational state after the entry checks; completes when the new state is in force, or when
it has been recorded during a throttle. -/
def execPwrSetState (c : Cmd) (s : State) : Host.Outcome State Fault Refusal :=
  runCmd .pwrSetState c s do
    let v := bitsOf (par c 0) 1 0
    let p := psOf v
    need (!(p == .ps1 && !s.entryHolds .ps1)) (overBudget s.admittedRate s.maxShare)
    let deep := p == .ps2 || p == .ps3
    need (!(deep && s.anythingRunning)) (notReady 0xF0)
    let self := if (s.queue c.qid).inFlight.any (Flying.is (ref .pwrSetState c)) then 1 else 0
    need (!(deep && self < s.outstandingAll)) (notReady 0xF1)
    if s.power.throttled then okDone v 0 (s.mapPower (fun w => { w with defState := some p }))
    else
      let t := (s.mapPower (fun w => { w with oper := p })).setPower p
      if t.mem.change.isSome && !deep then
        waitDone .pwrSetState c ((t.mapMem (fun m => { m with
          change := m.change.map (fun x => { x with by_ := x.by_ ++ [ref .pwrSetState c] }) })).mapPower
          (fun w => { w with moving := some (ref .pwrSetState c) }))
      else okDone v 0 t

/-- PWR_SET_IDLE_TIMERS (R65, Table 02-22). -/
def execPwrSetIdleTimers (c : Cmd) (s : State) : Host.Outcome State Fault Refusal :=
  runCmd .pwrSetIdleTimers c s do
    need (par c 1 ≤ 3600000) (badParam 1)
    need (par c 2 ≤ 3600000) (badParam 2)
    need (par c 3 ≤ 3600000) (badParam 3)
    okDone 0 0 (s.mapPower (fun w => { w with
      permitted := Vector.ofFn (fun i => bitOf (par c 0) (i.val + 1)),
      timers := Vector.ofFn (fun i => if par c (i.val + 1) = 0 then w.timers[i] else par c (i.val + 1)) }))

/-- Whether the device is idle (R65): no command outstanding but waiting ASYNC_EVENT_REQUESTs. -/
def State.idle (s : State) : Bool := s.outstandingAll == 0

/-- The device enters the deepest permitted state whose timer has expired and whose check holds, where it is deeper than the state it is in (R65). -/
def State.enterIdle (s : State) : State :=
  let fits (i : Fin 3) : Bool :=
    s.power.permitted[i] && s.host.expired[i] && s.entryHolds (psOf (i.val + 1)) && s.power.cur.code < i.val + 1
  if fits 2 then s.setPower .ps3 else if fits 1 then s.setPower .ps2 else if fits 0 then s.setPower .ps1 else s

/-- IDLE_TIMER_EXPIRY (R65): the timer of PS(n+1) expires in an idle period, which for PS2 and PS3 is one with nothing running. An expired timer stays so
while the device is idle. -/
def execIdleTimerExpiry (n : Fin 3) (s : State) : Host.Outcome State Fault Refusal :=
  if !s.idle || !s.ready || (n != 0 && s.anythingRunning) then .next s
  else .next (s.mapHost (fun h => { h with expired := h.expired.set n true })).enterIdle

/-- The watch of the idle period at every tick (R65): when it is over, the expired timers start again; while it lasts, a state whose check did not hold
when its timer expired is entered at the first moment the check holds. -/
def State.watchIdle (s : State) : State :=
  if s.host.expired = noneExpired then s
  else if !s.idle || !s.ready then s.mapHost (fun h => { h with expired := noneExpired })
  else
    let t := if s.anythingRunning then s.mapHost (fun h => { h with expired := h.expired.mapIdx (fun i x => x && i == 0) }) else s
    t.enterIdle

/-! ## Throttle and trip -/

/-- THERMAL_THROTTLE (R461): the HBM moves to 6.4 Gbit/s unless a lower speed is in force, THERMAL is posted with bit 31 set and
THROTTLE set; the slices are capped, which is timing (log 20). -/
def execThermalThrottle (sensor : Fin 24) (s : State) : Host.Outcome State Fault Refusal :=
  if s.power.throttled || s.power.phase != .running then .next s
  else
    let t := s.mapPower (fun w => { w with throttled := true, throttles := w.throttles.satInc, hotSensor := sensor.val })
    let t := if t.mem.speeds.toList.all (fun v => 1 ≤ v) then t else t.startSpeed 1 false []
    let t := t.mapMgmt (fun m => { m with smb := { m.smb with throttle := true } })
    .next (t.post .thermal (BitVec.ofNat 32 (2 ^ 31 + sensor.val)))

/-- THROTTLE_END (R461): the recorded state and speed take effect, and the speed of the state in force returns. -/
def execThrottleEnd (s : State) : Host.Outcome State Fault Refusal :=
  if !s.power.throttled then .next s
  else
    let w := s.power
    let t := s.mapPower (fun w => { w with throttled := false, defState := none, defSpeed := none })
    let t := t.mapMgmt (fun m => { m with smb := { m.smb with throttle := false } })
    let t := match w.defSpeed with
      | some v => t.mapMem (fun m => { m with setSpeed := v })
      | none => t
    let t := match w.defState with
      | some p => (t.mapPower (fun w => { w with oper := p })).setPower p
      | none => t
    let t := if t.selfRefreshing then t else t.startSpeed (speedFor t.power.cur t.mem.setSpeed) false []
    .next (t.post .thermal (BitVec.ofNat 32 w.hotSensor))

/-- The core domain goes down: nothing outside Chandler is served until the next power-up (R405, R462). -/
def State.coreDown (s : State) : State := s.mapPower (fun w => { w with phase := .coreDown, linkTrained := false })

/-- THERMAL_TRIP (R462): THERM_TRIP_N goes low, the core domain stops, the HBM contents are lost, an entry is made, and a throttle in
progress is over. -/
def execThermalTrip (sensor : Fin 24) (s : State) : Host.Outcome State Fault Refusal :=
  if s.power.phase = .off ∨ s.power.phase = .inReset then .next s
  else
    let t := (s.mapPower (fun w => { w with tripped := true, throttled := false })).coreDown
    let t := t.mapMem (fun m => { m with mem := { cells := [], marks := [] } })
    let t := t.mapMgmt (fun m => { m with smb := { m.smb with throttle := false, ready := false } })
    .next ((t.logError { source := 0x0E, code := Status.hardwareFault.code, detail := [sensor.val] }).emit .thermTrip)

/-- VDD_CORE_FAILURE (R405): CORE_DOWN is set, an entry made, and the pair-sense pin driven low in a KX-4896D. -/
def execVddCoreFailure (s : State) : Host.Outcome State Fault Refusal :=
  if s.power.phase = .off then .next s
  else
    let t := s.coreDown.mapMgmt (fun m => { m with smb := { m.smb with coreDown := true, ready := false } })
    let t := t.logError { source := 0x0E, code := Status.hardwareFault.code }
    let t := t.emit (.alertLow t.alertLow)
    .next (if s.dev.isD then t.emit (.pin (101 + 2 * s.dev.inst) false) else t)

/-! ## Supplies and resets -/

/-- Chandler's state after a power-up or device reset: what the flash and the fuses hold stays (R426, R447, R450). -/
def MgmtSt.cold (m : MgmtSt) (avs : Nat) : MgmtSt :=
  { MgmtSt.reset avs with
    policy := m.policy, fw := { m.fw with staged := [], stagedTop := 0, restarts := 0 },
    smb := { SmbSt.reset with ready := false } }

/-- The memory system after a power-up or device reset: contents are undefined, the repairs recorded in the flash stay (R341, R447). -/
def MemSt.cold (m : MemSt) : MemSt :=
  { MemSt.reset with
    pcs := vmapIdx m.pcs (fun _ x => { PseudoChannel.reset with banksUsed := x.banksUsed }),
    macros := m.macros.map (fun x => { x with watch := [], tally := Tally.zero }) }

/-- The time base after a device reset: the counter keeps counting (R370, R447), the rest starts again. -/
def TimeSt.warm (t : TimeSt) : TimeSt := { TimeSt.reset with ticks := t.ticks, now := t.now, sub := t.sub }

/-- Everything the device loses with its power or under RESET_N; the model's own fields and the device's identity stay. The numbering of handles goes on,
over a power-up too: R6 names no exception (DESIGN CHOICE, log 5). -/
def State.cold (s : State) (phase : Phase) (time : TimeSt) : State :=
  { State.reset with
    pending := s.pending, fresh := s.fresh + 1, out := Out.allHighZ :: s.out, dev := s.dev, issued := s.issued,
    mem := s.mem.cold, mgmt := s.mgmt.cold s.dev.avs,
    power := { PowerSt.reset with phase := phase, perstHigh := false, resetHigh := false, linkTrained := false },
    time := time, lanes := s.lanes.cold }

/-- POWER_UP (R370, R409, R442, R447): the rails ramp with RESET_N low, and the time counter starts at zero. -/
def execPowerUp (s : State) : Host.Outcome State Fault Refusal := .next (s.cold .inReset TimeSt.reset)

/-- POWER_DOWN (R443): the device loses all state except what the flash and the fuses hold. -/
def execPowerDown (s : State) : Host.Outcome State Fault Refusal := .next (s.cold .off TimeSt.reset)

/-- DEVICE_RESET (R447, R448): RESET_N goes low; outputs are high impedance, the PCIe link goes down, and the counter counts on. -/
def execDeviceReset (s : State) : Host.Outcome State Fault Refusal :=
  if s.power.phase = .off then .next s else .next (s.cold .inReset s.time.warm)

/-- TAP_RESET (R448): resets only the test access port, which nothing else depends on. -/
def execTapReset (s : State) : Host.Outcome State Fault Refusal := .next s

/-- PCIE_LINK_TRAINING (R454): the endpoint trains its link at a rate (GT/s, 2 standing for 2.5) and width; a narrower link is reported
through AER. -/
def execPcieLinkTraining (rate width : Nat) (s : State) : Host.Outcome State Fault Refusal :=
  if s.power.phase = .off ∨ s.power.phase = .coreDown then .next s
  else
    let t := s.mapPower (fun w => { w with
      linkTrained := true, perstHigh := true, linkRate := Nat.min 64 rate, linkWidth := clampNat 1 8 width })
    .next (if width < 8 then t.emit (.aer true) else t)

/-! ## Boot -/

/-- Whether the boot ROM boots a bank (R451): not empty, not failed, and the image passes the checks (0 for passed). -/
def bootable (f : Firmware) (n check : Nat) : Bool := !(f.bank n).empty && !(f.bank n).failed && check == 0

/-- The choice of the boot ROM (R451): the bank booted, and the check that the first bank failed where the second booted. -/
def bootChoice (f : Firmware) (checkA checkB : Nat) : Option (Nat × Option Nat) :=
  let first := if f.trial then 1 - f.trialBank else f.bootBank
  let check (n : Nat) : Nat := if n = 0 then checkA else checkB
  if bootable f first (check first) then some (first, none)
  else if bootable f (1 - first) (check (1 - first)) then some (1 - first, some (check first))
  else none

/-- A unit that fails its self-test at boot is fenced and its role given to a spare (R408, R452). -/
def State.bootFail (k : UnitKind) (i : Nat) (s : State) : State :=
  match s.mgmt.units.roleOf k i with
  | some r => s.declareDead k r Status.hardwareFault.code
  | none => s.mapMgmt (fun m => { m with units := m.units.mapPhys k i (fun x => { x with state := .fenced }) })

/-- A pseudo-channel that fails training at boot is retired (R343, R452). -/
def State.bootRetire (p : Nat) (s : State) : State :=
  s.mapMem (fun m => { m with
    retired := m.retired ++ [{ pc := p, base := retiredBase m.retired.length, copying := false }],
    pcs := vmod m.pcs p (fun x => { x with state := .retired, epoch := nextEpoch x.epoch }) })

/-- BOOT (R341, R362, R409, R447, R449 to R453): RESET_N rises and the boot flow runs to command-ready, or to recovery. flashOk: the
flash answers; checkA, checkB: the check of R421 that each bank's image fails, 0 for none; units and pcs: what fails self-test or
training; remaps: the SRAM addresses that stay in remap tables; answered: the lanes whose peers answer. -/
def execBoot (flashOk : Bool) (checkA checkB : Nat) (units : List (UnitKind × Nat)) (pcs : List Nat)
    (remaps : List (Nat × Nat)) (answered : List (Nat × Nat)) (s : State) : Host.Outcome State Fault Refusal :=
  if s.power.phase != .inReset then .next s
  else
    let t := s.mapPower (fun w => { w with resetHigh := true, upTick := s.time.ticks })
    let t := t.mapMem (fun m => { m with macros := m.macros.map (fun x =>
      { x with remap := x.remap.filter (fun r => remaps.contains (x.number, r.1)) }) })
    let t := units.foldl (fun u x => u.bootFail x.1 x.2) t
    let t := pcs.foldl (fun u p => u.bootRetire p) t
    match (if flashOk then bootChoice s.mgmt.fw checkA checkB else none) with
    | none =>
      let t := if flashOk && s.mgmt.fw.trial then (t.mapFw (fun f => { f with trial := false })).writeBootRecord else t
      .next (t.mapPower (fun w => { w with phase := .recovery }))
    | some (n, bad) =>
      let t := t.bootLanes answered
      let t := t.mapFw (fun f => { f with active := n, trial := false, bootBank := if bad.isSome then n else f.bootBank })
      let t := if s.mgmt.fw.trial || bad.isSome then t.writeBootRecord else t
      let t := match bad with
        | some k => t.logError { source := 0x0E, code := Status.firmwareRejected.code, detail := [k] }
        | none => t
      let t := t.mapPower (fun w => { w with phase := .running })
      .next (t.mapMgmt (fun m => { m with smb := { m.smb with ready := true, record := t.healthSummary } }))

end Sys2Proof.Machine
end

