-- ==== Sys2Proof/Machine/RecCmds.lean ====
section
/-!
DEFINITION. The recording commands (Table 09-1) and the events of recording sessions: records taken from sources, alignment, description, sinks, event
windows and close (chapter 09).
-/
namespace Sys2Proof.Machine

/-! ## What waits at a source -/

/-- The record at the read position of an encode session's ring, past a PAD: its address, and the read position after it. -/
def State.encFront (s : State) (e : EncSession) : Option (Nat × RingPos) :=
  let rd := s.readPos e.ringAddr
  let a := e.ringAddr + 64 + rd.off
  if rd == e.wr then none
  else if (s.mem.mem.byte a).toNat = 2 then
    (if e.wr.off = 0 then none
    else some (e.ringAddr + 64, RingPos.plus { off := 0, wraps := rd.wraps + 1 } e.area (64 + roundUp (f32 (s.readMem (e.ringAddr + 64) 64) 4) 64)))
  else some (a, rd.plus e.area (64 + roundUp (f32 (s.readMem a 64) 4) 64))

/-- The period of the frames that a source records, in 2^-16 ns. -/
def State.srcPeriod (s : State) (x : RecSrc) : Nat :=
  match x.kind with
  | 1 => ((s.enc x.handle).map (fun e => e.period * e.every * 65536)).getD 0
  | 2 => ((s.cams.find x.handle).map (fun c => pfPeriod (s.cam c).profile * 65536 *
      Nat.max 1 (((vget (s.cam c).last.taps none x.index).map TapCfg.every).getD 1))).getD 0
  | _ => ((s.cams.find x.handle).map (fun c => pfPeriod (s.cam c).profile * 65536)).getD 0

/-- The camera of a source. -/
def State.recSrcCam (s : State) (x : RecSrc) : Option Nat := if x.kind = 1 then (s.enc x.handle).map EncSession.cam else s.cams.find x.handle

/-- The exposure time of a frame: from its ledger record while that is there, else from the source's last record and its period (log 41). -/
def State.frameTime (s : State) (x : RecSrc) (fn run : Nat) : Nat :=
  let guess := x.reached + (fn - x.lastFn.getD fn) * ((s.recSrcCam x).map (fun c => pfPeriod (s.cam c).profile * 65536)).getD 0
  match s.recSrcCam x with
  | none => guess
  | some cam =>
    let b := s.readMem (ledgerAddr cam fn) 256
    if f32 b 0 = fn && f16 b 4 = run then recordTime b else guess

/-- The record that a source could give next: none when nothing waits, or a tap frame is not coded yet. -/
def State.srcFront (s : State) (k : Nat) (x : RecSrc) : Option RecOut :=
  if x.kind = 1 then
    match s.enc x.handle with
    | none => none
    | some e => (s.encFront e).map (fun q =>
        let b := s.readMem q.1 64
        if f8 b 0 = 1 then
          let seq := f32 b 0xC
          let stat := s.readMem (e.base + sbStatOff e.blk + 64 * (seq % Nat.max 1 (sbStatSlots e.blk))) 64
          { type := 4, stream := k, flags := 0, run := f16 b 0x14, fn := f32 b 8, idrs := if f8 b 0x16 % 8 = 0 then [k] else [],
            time := (fld b 0x18 6 * 1000000000 + f32 b 0x20) * 65536 + f16 b 0x1E, payload := stat ++ s.readMem (q.1 + 64) (f32 b 4) }
        else recGap k (f32 b 8) (f32 b 0xC) (if bitOf (f8 b 1) 0 then 1 else 2) (f16 b 0x14) (s.frameTime x (f32 b 8) (f16 b 0x14)))
  else match x.pend with
    | .ledger cam fn run time :: _ =>
      let a := ledgerAddr cam fn
      let b := s.readMem a 256
      if f32 b 0 = fn && f16 b 4 = run && (s.mem.mem.poisonIn a 256).isNone then
        some { type := 3, stream := k, flags := 0, run := run, fn := fn, time := time, payload := b, idrs := [] }
      else some (recGap k fn fn 5 run time)
    | .gap first last cause run time :: _ => some (recGap k first last cause run time)
    | .tap fn run a size time _ data attempt :: _ =>
      let lost := !(s.mem.mem.marksIn (a + 64) (size - 64)).isEmpty
      let plain := x.compress == 0 || (attempt != 0 && x.onFullRaw)
      let blocks := if plain then
          some (cooperBlocks s.mem.mem (x.compress - 1) x.level x.log2 true true (a + 64) (size - 64)).flatten else data
      if s.mem.mem.marked a then some (recGap k fn fn 3 run time)
      else blocks.map (fun d => { type := 5, stream := k, flags := 4 * bit01 lost, run := run, fn := fn, time := time, idrs := [],
                                  payload := s.readMem a 64 ++ d })
    | .audio addr len time :: _ => some (recPlain 6 k time (s.readMem addr len))
    | [] => none

/-- The time of what waits first at a source, whether or not it can be taken yet. -/
def State.srcTime (s : State) (k : Nat) (x : RecSrc) : Option Nat :=
  match x.pend with
  | .ledger _ _ _ t :: _ => some t
  | .gap _ _ _ _ t :: _ => some t
  | .tap _ _ _ _ t _ _ _ :: _ => some t
  | .audio _ _ t :: _ => some t
  | [] => (s.srcFront k x).map RecOut.time

/-! ## Taking a record (R249, R255) -/

/-- What a source gave is let go: RD of its ring advances, or its slot is released. -/
def State.srcRelease (h : Handle) (x : RecSrc) (s : State) : State :=
  if x.kind = 1 then
    match s.enc x.handle with
    | none => s
    | some e => match s.encFront e with
      | none => s
      | some q => (s.writeMem (e.ringAddr + 8) (leBytes 4 q.2.off ++ leBytes 4 q.2.wraps)).mapEnc x.handle (fun y => { y with rd := q.2 })
  else match x.pend with
    | .tap fn run _ _ _ _ _ _ :: _ =>
      (match s.cams.find x.handle with
      | some cam => s.mapCam cam (fun c => { c with taps := vmod c.taps x.index (fun r => r.release h (fun y => y.fn == fn && y.run == run)) })
      | none => s)
    | .audio addr len _ :: _ =>
      (match s.port x.index with
      | some p =>
        let ring := p.base + pbCapOff p.blk
        let old := s.readPos ring
        let from_ := addr - (ring + 64)
        let rd := RingPos.plus { off := from_, wraps := if from_ < old.off then old.wraps + 1 else old.wraps } p.capArea len
        s.writeMem (ring + 8) (leBytes 4 rd.off ++ leBytes 4 rd.wraps)
      | none => s)
    | _ => s

/-- The traffic of a record that a session takes (R15): what it reads of the source's ring, slot or record. -/
def State.srcReads (x : RecSrc) (r : RecOut) (s : State) : State :=
  if x.kind = 1 then
    match (s.enc x.handle).bind s.encFront with
    | some q => s.reads .recording .recording noCam q.1 (64 + r.payload.length)
    | none => s
  else match x.pend with
    | .ledger cam fn _ _ :: _ => s.reads .recording .recording noCam (ledgerAddr cam fn) 256
    | .tap _ _ a size _ _ data _ :: _ => s.reads .recording .recording noCam a (if data.isSome then 64 else size)
    | .audio addr len _ :: _ => s.reads .recording .recording noCam addr len
    | _ => s

/-- A record of a source that has been taken: LATE where a gap already stands for its time (R255), and how far the source has come. -/
def State.srcTaken (h : Handle) (k : Nat) (r : RecOut) (s : State) : State :=
  let last := if r.type = 7 then leNat ((r.payload.drop 4).take 4) else r.fn
  let upd (x : RecSrc) : RecSrc :=
    { x with pend := x.pend.drop (if x.kind = 1 then 0 else 1), reached := Nat.max x.reached r.time,
             head := if r.type = 5 ∧ x.head = [] then r.payload.take 64 else x.head,
             lastFn := if r.fn = 0xFFFFFFFF then x.lastFn else some (Nat.max (x.lastFn.getD 0) last) }
  s.mapSrc h k upd

/-- Whether an access unit closes the fragment in assembly (R259). -/
def RecSession.fragEnds (e : RecSession) (r : RecOut) : Bool :=
  let span := r.time - e.fragFrom
  !e.frag.isEmpty && ((!r.idrs.isEmpty && Nat.ble e.fragTime span) || Nat.ble (4 * e.fragTime) span)

/-- The sample of an access unit, with its ledger record (R259). -/
def State.sampleOf (s : State) (e : RecSession) (r : RecOut) : FragSample :=
  let cam := (e.sources[r.stream]?).bind s.recSrcCam
  let b := (cam.map (fun c => s.readMem (ledgerAddr c r.fn) 256)).getD (zeros 256)
  { source := r.stream, time := r.time, idr := !r.idrs.isEmpty, au := r.payload.drop 64,
    ledger := if f32 b 0 = r.fn && f16 b 4 = r.run then b else zeros 256 }

/-- Whether an access unit of a BMFF session can be taken (R250): the records of the fragment that it closes, or of the fragment with it, fit; else it waits
in the source's own ring. -/
def State.fragRoom (s : State) (e : RecSession) (r : RecOut) : Bool :=
  let f := if e.fragEnds r then e.frag else e.frag ++ [s.sampleOf e r]
  s.recRoom e (sumNat ((s.fragRecords { e with frag := f }).map RecOut.len))

/-- An access unit of a BMFF session joins the fragment in assembly (R259). -/
def State.fragTake (h : Handle) (r : RecOut) (s : State) : State :=
  match s.rec_ h with
  | none => s
  | some e =>
    let t := if e.fragEnds r then s.closeFrag h else s
    t.mapRec h (fun y => { y with frag := y.frag ++ [s.sampleOf e r], fragFrom := if y.frag.isEmpty then r.time else y.fragFrom })

/-- Whether the order of record times lets a source's record be taken: every other source has one of no earlier time, has come as far, or is filled up to it
(R255). -/
def State.inOrder (s : State) (e : RecSession) (k time : Nat) : Bool :=
  e.sources.zipIdx.all (fun x =>
    x.2 == k || (x.1.gone && x.1.pend.isEmpty) || Nat.ble time x.1.reached || Nat.ble time x.1.filledTo
      || ((s.srcTime x.2 x.1).map (fun t => Nat.ble time t || Nat.ble t x.1.filledTo)).getD false)

/-- REC_SOURCE_RECORD (R249, R250, R255): a session takes the next record of a source. With ALIGN it waits for its turn; a record without room waits in the
source's own ring. -/
def execRecSourceRecord (h : Handle) (k : Nat) (s : State) : Host.Outcome State Fault Refusal :=
  let s1 := match s.rec_ h with
    | some e => s.recPump h (e.backlog.length + 1)
    | none => s
  match s1.rec_ h with
  | none => .next s1
  | some e =>
    if e.closing.isSome then .next s1
    else match e.sources[k]? with
    | none => .next s1
    | some x =>
      match s1.srcFront k x with
      | none => .next s1
      | some r0 =>
        let late : Bool := Nat.blt r0.time x.filledTo
        let r := if late then { r0 with flags := r0.flags + 1 } else r0
        if e.aligned && !late && !s1.inOrder e k r.time then .next s1
        else if e.container = 1 then
          if r.type = 4 && !s1.fragRoom e r then .next (s1.recWaits h)
          else
            let t := s1.srcReads x r
            .next (((if r.type = 4 then t.fragTake h r else t.countRec h (fun n => { n with gaps := n.gaps.satInc })).srcRelease h x).srcTaken h k r)
        else if e.container = 2 && r.type != 4 then
          .next ((((s1.srcReads x r).srcRelease h x).srcTaken h k r).countRec h (fun n => { n with gaps := n.gaps.satInc }))
        else if !s1.recRoom e r.len then .next (s1.recWaits h)
        else
          let raw : Bool := r.type == 5 && (x.compress == 0 || (match x.pend with | .tap _ _ _ _ _ _ _ a :: _ => a != 0 && x.onFullRaw | _ => false))
          let hidden : Bool := r.type == 7 && (match x.pend with | .tap _ _ _ _ _ _ _ _ :: _ => true | _ => false)
          let up (n : RecCounters) : RecCounters :=
            { n with rawStored := if raw then n.rawStored.satInc else n.rawStored, poisoned := if hidden then n.poisoned.satInc else n.poisoned }
          .next (((((s1.srcReads x r).srcRelease h x).srcTaken h k r).countRec h up).recPut h r)

/-! ## Alignment (R255) -/

/-- How far the sources other than one have come, at least: by records written, waiting or filled. -/
def State.othersReached (s : State) (e : RecSession) (k : Nat) : Nat :=
  let ts := (e.sources.zipIdx.filter (fun x => x.2 != k && !(x.1.gone && x.1.pend.isEmpty))).map (fun x =>
    Nat.max (Nat.max x.1.reached x.1.filledTo) ((s.srcTime x.2 x.1).getD 0))
  match ts with
  | [] => 0
  | a :: rest => rest.foldl Nat.min a

/-- ALIGN_WAIT_EXPIRY (R255): a source is silent although the others have come ALIGN_WAIT past its next record: a GAP record, or an AUDIO record of zeros, stands
for the span that has passed. A BMFF stream and a datagram stream carry no GAP record (R259, R260): there the gap is counted only. -/
def execAlignWaitExpiry (h : Handle) (k : Nat) (s : State) : Host.Outcome State Fault Refusal :=
  match s.rec_ h with
  | none => .next s
  | some e =>
    match e.sources[k]? with
    | none => .next s
    | some x =>
      let upTo := s.othersReached e k - e.alignWait
      let from_ := Nat.max x.reached x.filledTo
      if !e.aligned || e.closing.isSome || x.gone || (s.srcTime k x).isSome then .next s
      else if x.kind = 4 then
        match s.port x.index with
        | none => .next s
        | some p =>
          let rate := pbRate p.blk
          let n := (upTo - from_) * rate / 65536000000000
          if n = 0 then .next s
          else
            let y : AudBlock := { k := p.interval (from_ / 65536), mask := p.rxMask, stamp := from_, frameNo := p.frameNo, frames := n,
                                  data := zeros (n * (popCount p.rxMask * pbBytes p.blk)), change := false, start := false }
            let r : RecOut := { recPlain 6 k from_ (audioBlock x.index { p with lost := 0 } y true false) with flags := 2 }
            .next ((s.mapSrc h k (fun z => { z with filledTo := from_ + n * 65536000000000 / Nat.max 1 rate })).recPut h r)
      else
        let period := s.srcPeriod x
        let n := (upTo - from_) / Nat.max 1 period
        if period = 0 || n = 0 then .next s
        else
          let step := period / Nat.max 1 (((s.recSrcCam x).map (fun c => pfPeriod (s.cam c).profile * 65536)).getD 1)
          let first := (x.lastFn.map (fun l => l + step)).getD 0
          let last := first + (n - 1) * step
          let run := ((s.recSrcCam x).map (fun c => (s.cam c).run)).getD 0
          let t := s.mapSrc h k (fun z => { z with filledTo := from_ + n * period, lastFn := some last })
          .next (if e.container = 0 then t.recPut h (recGap k first last 4 run (from_ + period))
                 else t.countRec h (fun c => { c with gaps := c.gaps.satInc }))

/-- STREAM_DESCRIPTION_REFRESH (R251): the description is written again; in an event session only while a window is open (log 41). A BMFF session writes
its initialisation segment before a fragment instead (R259). -/
def execStreamDescriptionRefresh (h : Handle) (s : State) : Host.Outcome State Fault Refusal :=
  match s.rec_ h with
  | none => .next s
  | some e =>
    if e.closing.isSome || e.container != 0 || (e.isEvent && !e.windowOpen) then .next s else .next (s.recDescribe h)

/-! ## Close (R263) -/

/-- A session ends: what is still staged is discarded, the command completes, and the session is gone. -/
def State.recEnd (h : Handle) (s : State) : State :=
  match s.rec_ h with
  | none => s
  | some e =>
    let left := sumNat (e.staged.map (fun r => r.bytes.length)) + sumNat (e.backlog.map RecOut.len)
    let t : State := { s with recs := s.recs.filter (fun x => x.handle != h) }
    match e.closing with
    | some r => t.finishOpt r .ok e.cnt.records.toNat (left % 2 ^ 32) false
    | none => t

/-- A session that closes and whose staging ring is empty ends. -/
def State.recClosedOut (h : Handle) (s : State) : State :=
  match s.rec_ h with
  | none => s
  | some e => if e.closing.isSome && e.staged.isEmpty && e.backlog.isEmpty then s.recEnd h else s

/-- The sources of a session are let go (R263): slots without a job in an engine at once. -/
def State.recLetGo (h : Handle) (s : State) : State :=
  match s.rec_ h with
  | none => s
  | some e =>
    e.sources.zipIdx.foldl (fun (t : State) (x : RecSrc × Nat) =>
      if x.1.kind = 2 then
        match t.cams.find x.1.handle with
        | none => t
        | some cam =>
          let busy (fn : Nat) : Bool := s.cmp.hasTap h x.2 fn
          t.mapCam cam (fun c => { c with
            tapOwner := vmod c.tapOwner x.1.index (fun o => if o == h then 0 else o),
            taps := vmod c.taps x.1.index (fun r => r.release h (fun y => !busy y.fn)) })
      else t) s

/-- REC_SESSION_CLOSE (R263): nothing more is taken; without DISCARD the staging ring drains first. A fragment in assembly is written (log 41). -/
def execRecSessionClose (c : Cmd) (s : State) : Host.Outcome State Fault Refusal :=
  runCmd .recSessionClose c s do
    let e ← needSome (s.rec_ c.handle) (badHandle c.handle 0)
    need e.closing.isNone (badHandle c.handle 0)
    let h := e.handle
    let discard := bitOf (par c 0) 0
    let t := s.keepInFlight (ref .recSessionClose c)
    let t := if e.container = 1 && !discard then t.closeFrag h else t
    let t := t.recLetGo h
    let t := t.mapRec h (fun x => { x with closing := some (some (ref .recSessionClose c)), windows := [] })
    if discard then return .waits (t.recEnd h)
    else return .waits ((t.recPump h (e.backlog.length + 3)).recClosedOut h)

/-- REC_CLOSE_DRAIN_TIMEOUT (R263): what a closing session has not drained is discarded. -/
def execRecCloseDrainTimeout (h : Handle) (s : State) : Host.Outcome State Fault Refusal :=
  match s.rec_ h with
  | none => .next s
  | some e => if e.closing.isSome then .next (s.recEnd h) else .next s

/-- HOST_RING_POLL (R256): the device reads RD_OFF and RD_WRAPS of the host ring and copies the records that fit. -/
def execHostRingPoll (h : Handle) (rdOff rdWraps : Nat) (s : State) : Host.Outcome State Fault Refusal :=
  match s.rec_ h with
  | none => .next s
  | some e =>
    if e.sink != 1 || !e.armed then .next s
    else
      let t := s.mapRec h (fun x => { x with sinkRd := { off := rdOff, wraps := rdWraps } })
      .next ((t.recPump h (e.backlog.length + 1)).recClosedOut h)

/-- SENDER_REPORT (R258, RFC 3550): a report of each source of an RTP session goes to its odd port. -/
def execSenderReport (h : Handle) (s : State) : Host.Outcome State Fault Refusal :=
  match s.rec_ h with
  | none => .next s
  | some e =>
    if e.container != 2 || e.closing.isSome then .next s
    else .next (e.sources.zipIdx.foldl (fun (t : State) (x : RecSrc × Nat) =>
      let body := [0x80, 200] ++ beBytes 2 6 ++ beBytes 4 (f32 e.blk 0x40 + x.2) ++ beBytes 4 (s.ns / 1000000000 + 2208988800)
        ++ beBytes 4 (s.ns % 1000000000 * 2 ^ 32 / 1000000000) ++ beBytes 4 (rtpTime s.time.stamp) ++ beBytes 4 x.1.packets.toNat
        ++ beBytes 4 x.1.octets.toNat
      t.recDatagram h (f16 e.blk 0x38 + 2 * x.2 + 1) body) s)

/-! ## Event windows (R260 to R262) -/

/-- EVENT_WINDOW_CLOSE (R260): the window's end has come. -/
def execEventWindowClose (h : Handle) (s : State) : Host.Outcome State Fault Refusal :=
  .next ((s.openDue h).mapRec h (fun e => { e with windows := e.windows.filter (fun w => Nat.blt s.ns w.stop) }))

/-- Whether the span of a window reaches before what the store still has: its oldest record, or the IDR of an ENCODE source (R261). -/
def RecSession.startsShort (e : RecSession) (start now : Nat) : Bool :=
  let at_ := start * 65536
  (Nat.blt start now && (match e.store.head? with
    | some x => Nat.blt at_ x.rec_.time
    | none => true))
  || (Nat.ble start now && e.encs.any (fun k => (e.copyFrom k at_).2))

/-- The ms from the earliest record of a window to its mark (R261). -/
def RecSession.covered (e : RecSession) (mark start stop : Nat) : Nat :=
  let first := (e.inWindow (start * 65536) (stop * 65536)).foldl (fun (a : Nat) x => Nat.min a x.1.rec_.time) (mark * 65536)
  (mark * 65536 - first) / 65536 / 1000000

/-- A mark's window joins those there are; it opens if its start has come, and one that was open already copies what it gains (R260, R262). One wholly in the
past is copied and leaves nothing open. -/
def State.openMark (h : Handle) (start stop : Nat) (s : State) : State :=
  match s.rec_ h with
  | none => s
  | some e =>
    let ws := EventWin.join { start := start, stop := stop, opened := false } e.windows
    let t := (s.mapRec h (fun x => { x with windows := ws })).openDue h
    let t := if s.ns < start then t else t.copyStore h (start * 65536) (stop * 65536)
    t.mapRec h (fun x => { x with windows := x.windows.filter (fun w => Nat.blt s.ns w.stop) })

/-- REC_MARK_EVENT (R260 to R262). -/
def execRecMarkEvent (c : Cmd) (s : State) : Host.Outcome State Fault Refusal :=
  runCmd .recMarkEvent c s do
    let e ← needSome (s.rec_ c.handle) (badHandle c.handle 0)
    need e.closing.isNone (badHandle c.handle 0)
    let h := e.handle
    let now := bitOf (par c 4) 0
    let pre := par c 2
    let post := par c 3
    let given := (s.ns / 1000000000 / 2 ^ 32 * 2 ^ 32 + par c 0) * 1000000000 + par c 1
    need (now || given ≤ s.ns + 600000000000) (badParam 0)
    need (now || Nat.blt (par c 1) 1000000000) (badParam 1)
    need (pre ≤ 600000) (badParam 2)
    need (post ≤ 600000) (badParam 3)
    let mark := if now then s.ns else given
    let start := mark - pre * 1000000
    let stop := mark + post * 1000000
    let short := e.isEvent && e.startsShort start s.ns
    let covered := e.covered mark start stop
    need (!(short && strict c)) (tooLate covered)
    let body := leBytes 4 e.events ++ leBytes 4 pre ++ leBytes 4 post ++ zeros 4 ++ leBytes 6 (secOf start) ++ zeros 2 ++ leBytes 4 (nsOf start)
    let t := s.mapRec h (fun x => { x with
      events := x.events + 1, cnt := { x.cnt with events := x.cnt.events.satInc, prerollShort := if short then x.cnt.prerollShort.satInc else x.cnt.prerollShort } })
    let t := if e.container = 1 then t.mapRec h (fun x => { x with marks := x.marks ++ [e.events] })
      else t.recQueue h [recPlain 8 0xFF (mark * 65536) (padTo 32 body)]
    return .done (if short then .okAdjusted else .ok) (e.events % 2 ^ 32) (if e.isEvent then covered else 0)
      (if e.isEvent then t.openMark h start stop else t)

/-! ## Open (R248, R257) -/

/-- The fields of a session block's header (Table 09-4), in ascending offset order. -/
def recHeadFields (b : List Byte) (size : Nat) : List (Nat × Bool) :=
  let cont := f8 b 0 % 4
  let event := bitOf (f8 b 1) 0
  let sink := f8 b 3 % 4
  let stage := f32 b 0xC
  let pre := f32 b 0x14
  [(0x00, Nat.ble cont 2), (0x02, 1 ≤ f8 b 2 && f8 b 2 ≤ 32),
   (0x03, Nat.ble sink 2 && (cont != 2 || sink == 2) && (cont != 1 || sink != 2)), (0x04, Nat.ble (f16 b 4) 1000),
   (0x06, f16 b 6 == 0 || (100 ≤ f16 b 6 && f16 b 6 ≤ 10000)), (0x08, f32 b 8 % 64 == 0),
   (0x0C, stage % 64 == 0 && Nat.ble 0x400000 stage && Nat.ble (f32 b 8 + stage) size), (0x10, f32 b 0x10 % 64 == 0),
   (0x14, (event && Nat.ble (f32 b 0x10 + pre) size && !meets (f32 b 8) stage (f32 b 0x10) pre) || (!event && pre == 0)),
   (0x18, sink != 1 || f64 b 0x18 % 4096 == 0), (0x20, sink != 1 || (f32 b 0x20 % 4096 == 0 && Nat.ble 0x100000 (f32 b 0x20))),
   (0x26, sink != 2 || !bitOf (f16 b 0x24) 5 || (1 ≤ f16 b 0x26 % 4096 && f16 b 0x26 % 4096 ≤ 4094)),
   (0x38, sink != 2 || f16 b 0x38 % 2 == 0), (0x3C, sink != 2 || (576 ≤ f16 b 0x3C && f16 b 0x3C ≤ 9000))]

/-- The fields of a source entry (Table 09-5), from its offset. -/
def recSrcFields (cont o : Nat) (b : List Byte) : List (Nat × Bool) :=
  let kind := f8 b 0
  [(o, 1 ≤ kind && kind ≤ 4 && (cont == 0 || kind == 1)),
   (o + 1, match kind with | 2 => Nat.ble (f8 b 1) 1 | 4 => Nat.ble (f8 b 1) 7 | _ => f8 b 1 == 0),
   (o + 2, kind != 2 || Nat.ble (f8 b 2 % 4) 2), (o + 3, kind != 2 || Nat.ble (f8 b 3 % 16) 9), (o + 4, kind != 4 || f32 b 4 == 0),
   (o + 8, kind != 2 || f8 b 8 == 0 || (16 ≤ f8 b 8 && f8 b 8 ≤ 24)), (o + 9, kind != 2 || f8 b 9 == 0 || (25 ≤ f8 b 9 && f8 b 9 ≤ 100))]

/-- The recording session that a source is bound to already. -/
def State.srcOwner (s : State) (x : RecSrc) : Option Handle :=
  match x.kind with
  | 1 => (s.recs.find? (fun (e : RecSession) => e.closing.isNone && e.sources.any (fun y => y.is 1 x.handle 0 && !y.gone))).map RecSession.handle
  | 2 => (s.cams.find x.handle).bind (fun cam => let o := vget (s.cam cam).tapOwner 0 x.index; if o = 0 then none else some o)
  | 4 => s.portBound x.index
  | _ => none

/-- The checks of one source at open (R248). -/
def needSource (s : State) (k : Nat) (x : RecSrc) : Chk Unit :=
  match x.kind with
  | 1 => do
    let e ← needSome (s.enc x.handle) (badHandle x.handle 2)
    need (!e.closing && !e.ended && !e.faulted) (notReady 0x83)
    match s.srcOwner x with
    | some o => .error (conflict o (0x840 + k))
    | none => .ok ()
  | 2 => do
    let cam ← needSome (s.cams.find x.handle) (badHandle x.handle 2)
    need (vget (s.cam cam).next.taps none x.index).isSome (notReady 0x83)
    match s.srcOwner x with
    | some o => .error (conflict o (0x410 + x.index))
    | none => .ok ()
  | 3 => do
    let _ ← needSome (s.cams.find x.handle) (badHandle x.handle 2)
    .ok ()
  | _ => do
    let _ ← needSome (s.port x.index) (notReady 0x83)
    match s.srcOwner x with
    | some o => .error (conflict o (0x820 + x.index))
    | none => .ok ()

/-- The checks of every source, in order. -/
def needSources (s : State) : Nat → List RecSrc → Chk Unit
  | _, [] => .ok ()
  | k, x :: rest => do
    needSource s k x
    needSources s (k + 1) rest

/-- REC_SESSION_OPEN with a session: its HOST sink is armed again (R257). -/
def recRearm (c : Cmd) (b : List Byte) (s : State) : Chk Done := do
  let e ← needSome (s.rec_ c.handle) (badHandle c.handle 0)
  need e.closing.isNone (badHandle c.handle 0)
  need (c.aux == 0) (badPacket 0x0C)
  needFields [(0x02, f8 b 2 == 0), (0x03, f8 b 3 % 4 == 1), (0x18, f64 b 0x18 % 4096 == 0), (0x20, f32 b 0x20 % 4096 == 0 && Nat.ble 0x100000 (f32 b 0x20))]
  need (!e.armed) (notReady 0x81)
  let t := s.mapRec e.handle (fun x => { x with
    armed := true, sinkWr := { off := 0, wraps := 0 }, sinkRd := { off := 0, wraps := 0 }, blk := patch x.blk 0x18 (slice b 0x18 12) })
  okDone e.handle.toNat (f32 e.blk 0xC) ((t.recPump e.handle (e.backlog.length + 1)).recDescribe e.handle)

/-- REC_SESSION_OPEN (R248, R257). -/
def execRecSessionOpen (c : Cmd) (s : State) : Host.Outcome State Fault Refusal :=
  runCmd .recSessionOpen c s do
    need (128 ≤ c.ptrLen.toNat) (badPacket 0x18)
    let b ← structBytes s c
    need (c.ptrLen.toNat == 128 + 16 * (f8 b 2)) (badPacket 0x18)
    if c.handle != 0 then recRearm c b s
    else do
      let y ← needBuffer s c.aux 1
      let n := f8 b 2
      let entries := (List.range n).map (fun k => slice b (128 + 16 * k) 16)
      needFields (recHeadFields b y.size ++ entries.zipIdx.flatMap (fun x => recSrcFields (f8 b 0 % 4) (128 + 16 * x.2) x.1))
      need (Nat.blt s.recs.length 32) (notReady 0x80)
      let now := s.time.stamp
      let fresh (en : List Byte × Nat) : RecSrc :=
        { entry := en.1, pend := [], head := [], reached := now, lastFn := none, filledTo := 0, gone := false,
          rtpSeq := Config.freeNat (s.fresh + en.2) % 65536, packets := 0, octets := 0 }
      let srcs := (entries.zipIdx.map fresh).map (fun x => { x with lastFn := (s.recSrcCam x).bind (fun cam => (s.cam cam).lastFn) })
      needSources s 0 srcs
      let dup := srcs.zipIdx.find? (fun x => x.1.kind != 3 && (srcs.take x.2).any (fun z => z.kind == x.1.kind && z.handle == x.1.handle && z.index == x.1.index))
      let h := s.nextHandle 5
      match dup with
      | some x => .error (conflict h (match x.1.kind with | 1 => 0x840 + x.2 | 2 => 0x410 + x.1.index | _ => 0x820 + x.1.index))
      | none => do
        needUnpinned s y.base y.size
        let z : RingPos := { off := 0, wraps := 0 }
        let e : RecSession :=
          { handle := h, blk := b, buf := c.aux, base := y.base, openNs := s.ns, sources := srcs, backlog := [], wr := z, rd := z, staged := [], seq := 0,
            armed := true, sinkWr := z, sinkRd := z, ethSeq := 0, storeOff := 0, store := [], windows := [], events := 0, frag := [], fragFrom := 0,
            marks := [], lastInit := s.ns, waitFrom := none, closing := none, cnt := RecCounters.zero }
        let own (t : State) (x : RecSrc) : State :=
          if x.kind = 2 then
            match t.cams.find x.handle with
            | some cam => t.mapCam cam (fun q => { q with tapOwner := vmod q.tapOwner x.index (fun _ => h) })
            | none => t
          else t
        let t : State := { s.issue 5 with recs := s.recs ++ [e], fresh := s.fresh + n }
        okDone h.toNat (f32 b 0xC) ((srcs.foldl own t).recDescribe h)

end Sys2Proof.Machine
end

