-- ==== Sys2Proof/Machine/Registers.lean ====
section
/-!
DEFINITION. Writes to the registers that have no row of their own (R8, R9, R28, R30, R428): the admin registers, BAR2_BASE, the MSI-X table, the RW1C
flags, the BAR2 size, and the SMBus registers; and accesses to BAR0 of a wrong form.
-/
namespace Sys2Proof.Machine

/-- A 64-bit register after a write of one half. -/
def withHalf (old : DWord) (high : Bool) (v : Nat) : DWord :=
  if high then BitVec.ofNat 64 (v * 2 ^ 32 + old.toNat % 2 ^ 32) else BitVec.ofNat 64 (old.toNat / 2 ^ 32 * 2 ^ 32 + v % 2 ^ 32)

/-- KX_HOST_BAR2_BASE: bits 37:28 are kept; a base that is not aligned to the window is refused with PARAM_ERR (R9, R30). -/
def State.setBar2 (v : Nat) (s : State) : State :=
  let base := bitsOf v 37 28 * 2 ^ 28
  if base % 2 ^ s.host.bar2Log2 = 0 then s.mapHost (fun h => { h with bar2Base := base }) else s.mapHost (fun h => { h with paramErr := true })

/-- A vector whose mask bit has been cleared sends the interrupt that is pending (R61). -/
def State.unmask (v : Nat) (s : State) : State :=
  if !((vget s.host.msix { addr := 0, data := 0, ctrl := 1 } v).ctrl.getLsbD 0) && vget s.host.pba false v then
    (s.mapHost (fun h => { h with pba := vmod h.pba v (fun _ => false) })).emit (.msix v)
  else s

/-- A word of the MSI-X table: address low, address high, data, control. Of the control word only the mask bit is kept. -/
def State.setMsix (v word val : Nat) (s : State) : State :=
  let put (e : MsixEntry) : MsixEntry := match word with
    | 0 => { e with addr := withHalf e.addr false val }
    | 1 => { e with addr := withHalf e.addr true val }
    | 2 => { e with data := BitVec.ofNat 32 val }
    | _ => { e with ctrl := BitVec.ofNat 32 (val % 2) }
  (s.mapHost (fun h => { h with msix := vmod h.msix v put })).unmask v

/-- A flag that a 1 clears. -/
def rw1c (flag : Bool) (val bit : Nat) : Bool := flag && !bitOf val bit

/-- A 32-bit write of BAR0 (Tables 02-2, 10-12, 13-9, 14-2): a field that is RO or reserved is not written; a register with a row of its own takes
its effect from that row. -/
def State.bar0Word (off val : Nat) (s : State) : State :=
  if off = 0x004 then
    s.mapHost (fun h => { h with orphansFlag := rw1c h.orphansFlag val 11, paramErr := rw1c h.paramErr val 8 })
  else if off = 0x008 then s.mapHost (fun h => { h with asqs := bitsOf val 11 0, acqs := bitsOf val 27 16 })
  else if off = 0x010 then s.mapHost (fun h => { h with asqBase := withHalf h.asqBase false val })
  else if off = 0x014 then s.mapHost (fun h => { h with asqBase := withHalf h.asqBase true val })
  else if off = 0x018 then s.mapHost (fun h => { h with acqBase := withHalf h.acqBase false val })
  else if off = 0x01C then s.mapHost (fun h => { h with acqBase := withHalf h.acqBase true val })
  else if off = 0x020 then s.setBar2 (withHalf (BitVec.ofNat 64 s.host.bar2Base) false val).toNat
  else if off = 0x024 then s.setBar2 (withHalf (BitVec.ofNat 64 s.host.bar2Base) true val).toNat
  else if 0x2000 ≤ off ∧ off < 0x3000 then s.setMsix ((off - 0x2000) / 16) (off % 16 / 4) val
  else if off = 0x10000 then s.mapTime (fun t => { t with paramErr := rw1c t.paramErr val 7, stepped := rw1c t.stepped val 6 })
  else if 0x20000 ≤ off ∧ off < 0x20400 ∧ off % 0x100 = 0x40 then
    { s with disp := { s.disp with regs := vmod s.disp.regs ((off - 0x20000) / 0x100) (fun r =>
        { r with aborted := rw1c r.aborted val 7, paramErr := rw1c r.paramErr val 6 }) } }
  else if 0x100000 ≤ off ∧ off < 0x140000 ∧ off % 0x2000 = 0 then
    s.mapLane ((off - 0x100000) / 0x2000) (fun x => { x with paramErr := rw1c x.paramErr val 7, margin := rw1c x.margin val 6 })
  else s

/-- A write of BAR0. A 64-bit write is of both halves; of KX_HOST_BAR2_BASE it is one value. -/
def State.bar0Write (off : Nat) (wide : Bool) (val : Nat) (s : State) : State :=
  if wide then
    if off % 8 != 0 then s
    else if off = 0x020 then s.setBar2 val
    else (s.bar0Word off (val % 2 ^ 32)).bar0Word (off + 4) (val / 2 ^ 32 % 2 ^ 32)
  else if off % 4 != 0 then s
  else s.bar0Word off (val % 2 ^ 32)

/-- REGISTER_WRITE (R8, R9, R28, R30, R428): a register of BAR0 from link-up on, the size of BAR2, from 256 MiB to 64 GiB, or an SMBus
register while its responder is up. -/
def execRegisterWrite (t : RegTarget) (s : State) : Host.Outcome State Fault Refusal :=
  match t with
  | .bar0 off wide val => .next (if s.bar0Up then s.bar0Write off wide val else s)
  | .bar2Size n => .next (if s.bar0Up ∧ 28 ≤ n ∧ n ≤ 36 then s.mapHost (fun h => { h with bar2Log2 := n }) else s)
  | .smbus code val => .next (if s.smbUp then s.smbusWrite code val else s)

/-- BAR0_BAD_ACCESS (R28): nothing happens, and a read of that kind returns all ones. -/
def execBar0BadAccess (isRead : Bool) (s : State) : Host.Outcome State Fault Refusal :=
  .next (if isRead && s.bar0Up then s.emit (.readData (2 ^ 64 - 1)) else s)

end Sys2Proof.Machine
end

