-- ==== Sys2Proof/Machine/Streams.lean ====
section
/-!
DEFINITION. LANE_CONFIGURE and the egress streams (chapter 13, R347, R363, R364).
-/
namespace Sys2Proof.Machine

/-! ## Cells -/

/-- Applies a function to the stream of a handle. -/
def State.mapStream (h : Handle) (f : Stream → Stream) (s : State) : State :=
  s.mapLanes (fun x => { x with streams := updWhere (fun y => y.handle == h) f x.streams })

/-- A cell of a stream leaves on its channel while that is in service. -/
def State.sendStream (x : Stream) (kind : Nat) (payload : List Byte) (s : State) : State :=
  if s.inService x.chan then
    (s.mapChan x.chan (fun y => { y with lseq := y.lseq + 1 })).emitOn x.chan (.egressCell x.chan x.idx kind payload)
  else s

/-- A control cell of a stream. SEQ counts its control cells (log 44). -/
def State.sendStreamCtrl (h : Handle) (op cam arg : Nat) (entries : List Byte) (s : State) : State :=
  match s.lanes.streams.find? (fun x => x.handle == h) with
  | none => s
  | some x => (s.sendStream x 2 (ctrlPayload op 0 (x.cseq % 65536) s.ownEpoch cam 0 arg entries)).mapStream h (fun y => { y with cseq := y.cseq + 1 })

/-- The slot header of a stream's output as STREAM_DESC carries it: the output's description with the last accepted FN (log 44). -/
def State.descHeader (s : State) (cam output : Nat) : List Byte :=
  let c := s.cam cam
  match vget c.next.outs none output with
  | none => zeros 64
  | some q =>
    let qs := ringPlanes c.profile output q.blk
    layout 64 ([(0x00, 1, cam), (0x01, 1, output), (0x02, 1, f8 q.blk 0 % (if output = 3 then 16 else 64)), (0x03, 1, qs.length), (0x04, 2, c.run), (0x08, 4, (c.lastFn.getD 0) % 2 ^ 32),
      (0x0C, 2, pfW c.profile), (0x0E, 2, pfH c.profile), (0x30, 1, if output = 3 then 0 else f8 q.blk 1 % 32), (0x31, 1, if output = 3 then 0 else f8 q.blk 2 % 64)]
      ++ qs.zipIdx.flatMap (fun q => [(0x10 + 4 * q.2, 4, planeStride q.1), (0x20 + 4 * q.2, 4, planeOffset qs q.2)]))

/-- STREAM_DESC of a stream (R364). -/
def State.sendDesc (h : Handle) (s : State) : State :=
  match s.lanes.streams.find? (fun x => x.handle == h) with
  | none => s
  | some x =>
    match s.cams.find x.cam with
    | none => s
    | some cam => s.sendStreamCtrl h 0x32 cam 0 (s.descHeader cam x.output)

/-! ## What a stream sends (R364) -/

/-- A stream brought to its camera's run: frames of an earlier run are over. -/
def Stream.inRun (x : Stream) (c : CamCtx) : Stream := if x.run = c.run then x else { x with run := c.run, nextFn := 0, cur := none }

/-- Lines of a plane that a range of output lines covers: the first and one past the last. -/
def planeRows (h ph first upTo : Nat) : Nat × Nat := if ph = h then (first, upTo) else (ceilDiv first 2, ceilDiv upTo 2)

/-- What a stream sends next: the next frame's timing and LEDGER cells, a line, or the end of a frame that was given up. -/
inductive StreamWork where
  | frame
  | line (f : StreamFrame)
  | gone
deriving DecidableEq, Repr

/-- The next range of a frame that is being sent: where a range is over, the lines written since. -/
def StreamFrame.ranged (f : StreamFrame) (h planes written : Nat) (rows : Nat → Nat × Nat) : Option StreamFrame :=
  let f := if f.row < (rows f.plane).2 then f else { f with plane := f.plane + 1, row := (rows (f.plane + 1)).1 }
  if f.upTo ≤ f.first then (if f.first < Nat.min h written then some { f with upTo := Nat.min h written, plane := 0, row := f.first } else none)
  else if f.plane < planes then some f
  else if f.upTo < Nat.min h written then some { f with first := f.upTo, upTo := Nat.min h written, plane := 0, row := f.upTo }
  else none

/-- The work of a stream, and the deadline of its frame; none while it waits. -/
def State.streamWork (s : State) (x0 : Stream) : Option (StreamWork × Nat) :=
  match s.cams.find x0.cam with
  | none => none
  | some cam =>
    let c := s.cam cam
    let x := x0.inRun c
    if x.stopped then none
    else match x.cur with
    | none =>
      if x.closing then some (.gone, 0)
      else if Nat.blt x.nextFn c.fnNext then some (.frame, ((c.frame x.nextFn).map CamFrame.deadline).getD 0) else none
    | some f =>
      let ring := vget c.outs Ring.absent x.output
      let open_ := ((ring.slots[f.slot]?).map (fun q => q.used && q.fn == f.fn && q.run == c.run && (q.done || (c.frame f.fn).isSome))).getD false
      let cfg := ((c.frame f.fn).bind (fun y => vget y.set.outs none x.output)).orElse (fun _ => vget c.last.outs none x.output)
      match open_, cfg with
      | true, some q =>
        let qs := ringPlanes c.profile x.output q.blk
        let rows (g : StreamFrame) (p : Nat) : Nat × Nat := planeRows (pfH c.profile) (((qs[p]?).map (·.2.1)).getD 0) g.first g.upTo
        ((f.ranged (pfH c.profile) qs.length (c.linesWritten x.output f.fn c.run) (rows f)).map (fun g => (.line g, ((c.frame f.fn).map CamFrame.deadline).getD 0)))
      | _, _ => some (.gone, 0)

/-- The frame of a stream is over: its slot is released, and a stream that closes is gone (R363, R364). -/
def State.streamDone (x : Stream) (cam : Nat) (s : State) : State :=
  let t := match x.cur with
    | some f => s.mapCam cam (fun c => { c with outs := vmod c.outs x.output (fun r => r.release x.handle (fun q => q.fn == f.fn && q.run == x.run)) })
    | none => s
  if x.closing then
    let t := t.mapCam cam (fun c => { c with
      consumers := vmod c.consumers x.output (fun l => l.filter (· != x.handle)),
      outs := vmod c.outs x.output (fun r => r.release x.handle (fun _ => true)) })
    t.mapLanes (fun y => { y with streams := y.streams.filter (fun z => z.handle != x.handle) })
  else t.mapStream x.handle (fun _ => { x with cur := none })

/-- Timing and LEDGER cells of a frame (R364); a frame with a slot goes on with its lines. -/
def State.streamFrame (x : Stream) (cam : Nat) (s : State) : State :=
  let c := s.cam cam
  let r := match c.frame x.nextFn with
    | some f => f.rcd.bytes
    | none => s.readMem (ledgerAddr cam x.nextFn) 256
  let slot := firstIdx (fun q => q.used && q.fn == x.nextFn && q.run == c.run && q.holders.contains x.handle) (vget c.outs Ring.absent x.output).slots
  let cur : Option StreamFrame := slot.map (fun i => { fn := x.nextFn, slot := i, first := 0, upTo := 0, plane := 0, row := 0 })
  let t := s.mapStream x.handle (fun _ => { x with nextFn := x.nextFn + 1, cur := cur })
  let t := t.sendStream x 3 (layout 240 [(0x00, 1, cam), (0x02, 2, x.nextFn % 65536), (0x04, 6, fld r 0x10 6), (0x0C, 4, f32 r 0x18), (0x10, 2, f16 r 0x16)])
  (t.sendStreamCtrl x.handle 0x31 cam 0 (slice r 0 128)).sendStreamCtrl x.handle 0x31 cam 1 (slice r 128 128)

/-- One line of a frame: its cells, zeros with POISON where it carries a mark; after the last cell of the frame the slot is released. -/
def State.streamLine (x : Stream) (cam : Nat) (f : StreamFrame) (s : State) : State :=
  let c := s.cam cam
  let ring := vget c.outs Ring.absent x.output
  match ((c.frame f.fn).bind (fun y => vget y.set.outs none x.output)).orElse (fun _ => vget c.last.outs none x.output) with
  | none => s
  | some q =>
    let h := pfH c.profile
    let qs := ringPlanes c.profile x.output q.blk
    let pl := (qs[f.plane]?).getD (0, 0, 0)
    let n := pl.1 * pl.2.2
    let a := ring.base + f.slot * ring.slotSize + planeOffset qs f.plane + f.row * planeStride pl
    let bad := (s.mem.mem.poisonIn a n).isSome
    let data := if bad then zeros n else s.readMem a n
    let end_ := f.plane + 1 == qs.length && f.row + 1 == pl.2.1 && f.upTo == h
    let cells := Nat.max 1 (ceilDiv n 232)
    let send (t : State) (k : Nat) : State :=
      let last := k + 1 == cells
      let fl := bit01 (f.plane == 0 && f.row == 0 && k == 0) + 2 * bit01 (end_ && last) + 4 * bit01 (k == 0) + 8 * bit01 last + 16 * bit01 bad
      t.sendStream x 1 (padTo 240 (layout 8 [(0, 1, f.plane % 4 + 4 * (f.fn % 64)), (1, 1, fl), (2, 2, f.row), (4, 2, 232 * k), (6, 2, (x.sseq + k) % 65536)]
        ++ slice data (232 * k) 232))
    let t := (List.range cells).foldl send s
    let x2 := { x with sseq := x.sseq + cells, cur := some { f with row := f.row + 1 } }
    let t := t.reads .egress .egress cam a n
    if end_ then t.streamDone x2 cam else t.mapStream x.handle (fun _ => x2)

/-- EGRESS_STREAM_SEND (R364): of the streams of a channel, the one whose frame has the earliest deadline sends a frame's timing and LEDGER cells or a line. -/
def execEgressStreamSend (chan : Fin 32) (s : State) : Host.Outcome State Fault Refusal :=
  let ready := (s.lanes.streams.filter (fun x => x.chan == chan.val)).filterMap (fun x => (s.streamWork x).map (fun w => (x, w)))
  match minBy (fun r => r.2.2) ready with
  | none => .next s
  | some (x, w) =>
    match s.cams.find x.cam with
    | none => .next s
    | some cam =>
      let y := x.inRun (s.cam cam)
      match w.1 with
      | .frame => .next (s.streamFrame y cam)
      | .line f => .next (s.streamLine y cam f)
      | .gone => .next (s.streamDone y cam)

/-- STREAM_DESC (R364): once per second. -/
def execStreamDesc (h : Handle) (s : State) : Host.Outcome State Fault Refusal :=
  match s.lanes.streams.find? (fun x => x.handle == h) with
  | some x => if x.stopped then .next s else .next (s.sendDesc h)
  | none => .next s

/-! ## LANE_CONFIGURE -/

/-- OP 0: the settings of a lane (Table 13-12, R354). -/
def laneSettings (c : Cmd) (s : State) : Chk Done := do
  let v := par c 1
  let l := bitsOf v 4 0
  let delta := bitsOf v 20 16
  let diag := bitOf v 24
  need (c.handle == 0) (badPacket 0x08)
  need (v / 2 ^ 25 == 0 && bitsOf v 7 5 == 0 && bitsOf v 11 10 == 0 && bitsOf v 15 13 == 0 && bitsOf v 23 21 == 0) (badParam 1)
  need (l / 4 != 6 && delta != 1 && delta ≤ 30) (badParam 1)
  needUnfenced s l
  let x := s.lanes.lane l
  need (!diag || x.chan.isNone) (notReady 0xB0)
  if diag && x.state != .diag then needUnclaimed s l else .ok ()
  let t := s.mapLane l (fun y => { y with maxRate := bitsOf v 9 8, inplaceOk := bitOf v 12, calDelta := if delta = 0 then y.calDelta else delta })
  let t := if diag && x.state != .diag then
      (t.mapLane l (fun y => { y with state := .diag, step := .idle, cwLock := false, cellLock := false, slip := 0 })).mapQuad (l / 4)
        (fun q => { q with spare := if q.spare = some l then none else q.spare })
    else if !diag && x.state == .diag then
      t.mapLane l (fun y => { y with state := if (s.lanes.quad (l / 4)).role.ozoth then .training else .off, target := y.rate,
                                       step := if y.rate = 0 then .idle else .adapting y.rate })
    else t
  okDone 0 0 t

/-- Whether a lane of a quad is in use by a context, head, egress stream or port (R347). -/
def State.quadInUse (s : State) (q : Nat) : Bool :=
  s.cams.ctx.toList.any (fun c => c.state != .idle && (List.range 12).any (fun l => l / 4 == q && isChannel l && bitOf (pfLaneMask c.profile) l))
  || s.disp.heads.toList.any (fun (o : Option DispHead) => (o.map (fun h => tbLane h.blk / 4 == q || (h.next.map (fun b => tbLane b / 4)) == some q)).getD false)
  || s.lanes.streams.any (fun x => x.chan / 4 == q)
  || (q == 6 && s.lanes.ports.toList.any (fun p => p.mode != 0))

/-- OP 1: the reference of a quad, and the role of Q7 (R347). -/
def quadSettings (c : Cmd) (s : State) : Chk Done := do
  let v := par c 1
  let q := bitsOf v 2 0
  let role7 := bitsOf v 9 8
  need (c.handle == 0) (badPacket 0x08)
  need (v / 2 ^ 10 == 0 && !bitOf v 3 && bitsOf v 7 5 == 0 && (if q = 7 ∧ !s.dev.isD then role7 ≤ 1 else role7 == 0)) (badParam 1)
  let old := s.lanes.quad q
  let role : QuadRole := if q = 7 ∧ !s.dev.isD then (if role7 = 1 then .egress else .off) else old.role
  need ((role == old.role && bitOf v 4 == old.qref) || !s.quadInUse q) (notReady 0xB1)
  let t := s.mapQuad q (fun x => { x with role := role, qref := bitOf v 4 })
  let lanes := [4 * q, 4 * q + 1, 4 * q + 2, 4 * q + 3]
  if role = old.role then okDone 0 0 t
  else if role = .egress then
    let t := t.mapQuad q (fun x => { x with spare := some (4 * q + 3), rotation := none })
    okDone 0 0 (lanes.foldl (fun (u : State) (l : Nat) => if (u.lanes.lane l).state == .off then u.bringUp l (u.lanes.lane l).calVal (u.lanes.lane l).restored else u) t)
  else
    let down (y : Lane) : Lane := if y.state == .fenced then y else { y with state := .off, chan := none, rate := 0, target := 0, step := .idle, cwLock := false, cellLock := false }
    let t := t.mapQuad q (fun x => { x with spare := some (4 * q + 3), rotation := none })
    okDone 0 0 (lanes.foldl (fun (u : State) (l : Nat) =>
      ((u.mapLane l down).mapChan l (fun y => { y with lane := none, vacant := false })).laneDown l) t)

/-- OP 2: opens an egress stream (R363). -/
def streamOpen (c : Cmd) (s : State) : Chk Done := do
  let v := par c 1
  let ch := bitsOf v 12 8
  need (v / 2 ^ 13 == 0 && bitsOf v 7 2 == 0 && isChannel ch && (s.lanes.quad (ch / 4)).role == .egress) (badParam 1)
  let cam ← needSome (s.cams.find c.handle) (badHandle c.handle 0)
  let holder := (List.range 4).findSome? (fun i => (s.head i).bind (fun h => if tbLane h.blk = ch ∨ (h.next.map tbLane) = some ch then some h.handle else none))
  match holder with
  | some h => .error (conflict h (0x930 + ch))
  | none => do
    need (s.inService ch) (notReady 0xB4)
    let used := (s.lanes.streams.filter (fun x => x.chan == ch)).map Stream.idx
    let idx ← needSome ((List.range 16).find? (fun i => !(used.contains i))) (notReady 0xB5)
    let h := s.nextHandle 0xA
    let k := s.cam cam
    let x : Stream := { handle := h, chan := ch, idx := idx, cam := c.handle, output := v % 4, run := k.run, nextFn := k.fnNext, cur := none, sseq := 0, cseq := 0,
                        stopped := false, closing := false }
    let t := ((s.issue 0xA).mapCam cam (fun y => { y with consumers := vmod y.consumers (v % 4) (· ++ [h]) })).mapLanes (fun y => { y with streams := y.streams ++ [x] })
    okDone h.toNat idx (t.sendDesc h)

/-- OP 3: closes a stream at the end of the frame being sent. -/
def streamClose (c : Cmd) (s : State) : Chk Done := do
  need (par c 1 == 0) (badParam 1)
  let x ← needSome (s.lanes.streams.find? (fun y => y.handle == c.handle && !y.closing)) (badHandle c.handle 0)
  let t := s.mapStream x.handle (fun y => { y with closing := true })
  match s.cams.find x.cam with
  | none => okDone 0 0 (t.mapLanes (fun y => { y with streams := y.streams.filter (fun z => z.handle != x.handle) }))
  | some cam => okDone 0 0 (if x.cur.isNone || x.stopped then t.streamDone { x with closing := true } cam else t)

/-- LANE_CONFIGURE (R347, R354, R357, R363). -/
def execLaneConfigure (c : Cmd) (s : State) : Host.Outcome State Fault Refusal :=
  runCmd .laneConfigure c s (match par c 0 % 8 with
    | 0 => laneSettings c s
    | 1 => quadSettings c s
    | 2 => streamOpen c s
    | 3 => streamClose c s
    | _ => .error (badParam 0))

end Sys2Proof.Machine
end

