-- ==== Sys2Proof/Machine/UnitCmds.lean ====
section
/-!
DEFINITION. UNIT_REJOIN and SELF_TEST_DONE (R411, R412, R438).
-/
namespace Sys2Proof.Machine

/-- The kind of the units that share the unit table, by the KIND of their physical units (Table 16-4). -/
def kindOf (k : Nat) : Option UnitKind :=
  match k with
  | 0x02 => some .sliceU
  | 0x04 => some .siteU
  | 0x06 => some .encU
  | 0x07 => some .decU
  | 0x08 => some .cmpU
  | 0x0A => some .motionU
  | _ => none

/-- Whether a handle is one that UNIT_REJOIN takes: a physical unit, an instance or Chandler (R411). -/
def rejoinable (h : Handle) : Bool :=
  let k := bitsOf h.toNat 26 20
  !bitOf h.toNat 27 && !([0x01, 0x03, 0x05, 0x09, 0x0B].contains k)

/-- A physical unit of a kind. -/
def UnitTable.unit (u : UnitTable) (k : UnitKind) (i : Nat) : PhysUnit := ((u.phys k)[i]?).getD PhysUnit.spareNew

/-- The role that a unit which has passed its test fills: a decoder core and a Cooper engine their own, any other unit the lowest retired one of
its kind. -/
def UnitTable.vacancy (u : UnitTable) (k : UnitKind) (i : Nat) : Option Nat :=
  match k with
  | .decU => some i
  | .cmpU => some i
  | _ => firstIdx (fun r => r.unit.isNone) (u.roles k)

/-- A unit that has passed its test fills a role, or becomes a spare; the command completes (R411). -/
def State.unitBack (k : UnitKind) (i : Nat) (r : CmdRef) (s : State) : State :=
  let u := s.mgmt.units
  match u.vacancy k i with
  | some role =>
    let e := u.epochOf k role
    let u := (u.mapRole k role (fun x => { x with unit := some i })).mapPhys k i
      (fun x => { x with state := .active, role := some role, epoch := e, test := none })
    (s.mapMgmt (fun m => { m with units := u })).finish r .ok 1 e false
  | none =>
    (s.mapMgmt (fun m => { m with units := u.mapPhys k i (fun x => { x with state := .spare, role := none, test := none }) })).finish r .ok 0 0 false

/-- OP 0 on a unit of the unit table: its self-test begins. -/
def rejoinUnit (c : Cmd) (k : UnitKind) (i : Nat) (s : State) : Chk Done := do
  let x := s.mgmt.units.unit k i
  need (x.state != .testing) (notReady 0xE4)
  need (x.state == .fenced) (notReady 0xE3)
  let r := ref .unitRejoin c
  let begin_ (y : PhysUnit) : PhysUnit := { y with state := .testing, test := some r }
  waitDone .unitRejoin c (s.mapMgmt (fun m => { m with units := m.units.mapPhys k i begin_ }))

/-- OP 0 on a lane: its bring-up begins, and ends it (R352, R411). -/
def rejoinLane (c : Cmd) (l : Nat) (s : State) : Chk Done := do
  let x := s.lanes.lane l
  need x.rejoinBy.isNone (notReady 0xE4)
  need (x.state == .fenced) (notReady 0xE3)
  let t := s.mapLane l (fun y => { y with rejoinBy := some (ref .unitRejoin c) })
  waitDone .unitRejoin c (t.bringUp l x.calVal x.restored)

/-- OP 0 on an instance: the fenced twin returns as a standby (R438). -/
def rejoinTwin (i : Nat) (s : State) : Chk Done := do
  let p := s.mgmt.pair
  need (i != s.dev.inst && p.twinFenced) (notReady 0xE3)
  need s.pairChan.isSome (notReady 0xE5)
  let t := s.mapPair (fun q => { q with twinFenced := false, state := .paired, misses := 0, sent := [], awaiting := [] })
  okDone 0 0 (t.mapMgmt (fun m => { m with smb := { m.smb with pairDegraded := false } }))

/-- OP 0 (R411). A pseudo-channel is marked usable and holds no address range until the next power-up. -/
def rejoin (c : Cmd) (s : State) : Chk Done :=
  let k := bitsOf c.handle.toNat 26 20
  let i := bitsOf c.handle.toNat 15 0
  match kindOf k with
  | some u => rejoinUnit c u i s
  | none =>
    match k with
    | 0x0C => rejoinLane c i s
    | 0x0D => do
      let pc : PcState := (vget s.mem.pcs (MemSt.reset.pcs[0]) i).state
      need (pc == .retired) (notReady 0xE3)
      okDone 0 0 (s.mapMem (fun m => { m with pcs := vmod m.pcs i (fun x => { x with state := .usable }) }))
    | 0x0E => rejoinTwin i s
    | _ => .error (notReady 0xE3)

/-- OP 1 (R412): a unit that holds a role is declared dead. -/
def fenceUnit (c : Cmd) (s : State) : Chk Done :=
  let k := bitsOf c.handle.toNat 26 20
  let i := bitsOf c.handle.toNat 15 0
  let table (u : UnitKind) : Chk Done := match s.mgmt.units.roleOf u i with
    | some role => okDone 0 0 (s.declareDead u role Status.hardwareFault.code)
    | none => .error (notReady 0xE3)
  match k with
  | 0x02 => table .sliceU
  | 0x04 => table .siteU
  | 0x06 => table .encU
  | 0x0C => if (s.lanes.lane i).chan.isSome then okDone 0 0 (s.laneDead i Status.hardwareFault.code) else .error (notReady 0xE3)
  | _ => .error (badParam 0)

/-- UNIT_REJOIN (R411, R412, R438). -/
def execUnitRejoin (c : Cmd) (s : State) : Host.Outcome State Fault Refusal :=
  runCmd .unitRejoin c s do
    need (rejoinable c.handle) (badHandle c.handle 0)
    match par c 0 with
    | 0 => rejoin c s
    | 1 => fenceUnit c s
    | _ => .error (badParam 0)

/-- SELF_TEST_DONE (R411): the self-test of a rejoining unit ends; a lane whose bring-up fails ends it too. A passed bring-up ends with the lane in
its place (R352). -/
def execSelfTestDone (h : Handle) (ok : Bool) (s : State) : Host.Outcome State Fault Refusal :=
  let k := bitsOf h.toNat 26 20
  let i := bitsOf h.toNat 15 0
  match kindOf k with
  | some u =>
    let x := s.mgmt.units.unit u i
    match x.test with
    | none => .next s
    | some r =>
      if ok then .next (s.unitBack u i r)
      else
        let fail (y : PhysUnit) : PhysUnit := { y with state := .fenced, test := none }
        let entry : LogInfo := { source := 0x0E, code := Status.hardwareFault.code, unit := h, epoch := x.epoch }
        let t := (s.mapMgmt (fun m => { m with units := m.units.mapPhys u i fail })).logError (entry.about (some r))
        .next (t.finish r .hardwareFault h.toNat t.errSeq true)
  | none =>
    if k = 0x0C && (s.lanes.lane i).rejoinBy.isSome && !ok then .next (s.laneDead i Status.hardwareFault.code) else .next s

end Sys2Proof.Machine
end

