-- ==== Sys2Proof/Machine/Dispatch.lean ====
section
/-!
DEFINITION. The dispatch: one arm per command or event, each one direct call of its meaning.
-/
namespace Sys2Proof.Machine

/-- The effect of a command or event on everything but the queue of waiting commands. -/
def exec (i : Instr) (s : State) : Host.Outcome State Fault Refusal :=
  match i with
  | .hostEnable => Sys2Proof.Machine.execHostEnable s
  | .hostDisable => Sys2Proof.Machine.execHostDisable s
  | .adminReset => Sys2Proof.Machine.execAdminReset s
  | .sqDoorbell q v => Sys2Proof.Machine.execSqDoorbell q v s
  | .cqDoorbell q v writesOk => Sys2Proof.Machine.execCqDoorbell q v writesOk s
  | .registerWrite t => Sys2Proof.Machine.execRegisterWrite t s
  | .bar0BadAccess isRead => Sys2Proof.Machine.execBar0BadAccess isRead s
  | .bar2Read off len => Sys2Proof.Machine.execBar2Read off len s
  | .bar2Write off data => Sys2Proof.Machine.execBar2Write off data s
  | .timeNowRead wide => Sys2Proof.Machine.execTimeNowRead wide s
  | .timeAsymWrite p v => Sys2Proof.Machine.execTimeAsymWrite p v s
  | .timeLinkAsymWrite n v => Sys2Proof.Machine.execTimeLinkAsymWrite n v s
  | .liveAddrWrite head k half v => Sys2Proof.Machine.execLiveAddrWrite head k half v s
  | .frameCountRead head => Sys2Proof.Machine.execFrameCountRead head s
  | .calValWrite n word wide v => Sys2Proof.Machine.execCalValWrite n word wide v s
  | .laneApply n => Sys2Proof.Machine.execLaneApply n s
  | .fecCorrRead n => Sys2Proof.Machine.execFecCorrRead n s
  | .fecUncorrRead n => Sys2Proof.Machine.execFecUncorrRead n s
  | .alertResponse => Sys2Proof.Machine.execAlertResponse s
  | .setEndpointId eid => Sys2Proof.Machine.execSetEndpointId eid s
  | .getEndpointId => Sys2Proof.Machine.execGetEndpointId s
  | .getMctpVersionSupport => Sys2Proof.Machine.execGetMctpVersionSupport s
  | .getMessageTypeSupport => Sys2Proof.Machine.execGetMessageTypeSupport s
  | .mctpHealthRequest => Sys2Proof.Machine.execMctpHealthRequest s
  | .mctpMonitorRequest n => Sys2Proof.Machine.execMctpMonitorRequest n s
  | .mctpLogRequest seq => Sys2Proof.Machine.execMctpLogRequest seq s
  | .commandFetch reads => Sys2Proof.Machine.execCommandFetch reads s
  | .commandDispatch q host => Sys2Proof.Machine.execCommandDispatch q host s
  | .commandComplete q writeOk => Sys2Proof.Machine.execCommandComplete q writeOk s
  | .coalescingTimeout q => Sys2Proof.Machine.execCoalescingTimeout q s
  | .identify c => Sys2Proof.Machine.execIdentify c s
  | .getLogPage c => Sys2Proof.Machine.execGetLogPage c s
  | .setFeature c => Sys2Proof.Machine.execSetFeature c s
  | .getFeature c => Sys2Proof.Machine.execGetFeature c s
  | .queueCreate c => Sys2Proof.Machine.execQueueCreate c s
  | .queueDelete c => Sys2Proof.Machine.execQueueDelete c s
  | .queueFlush c => Sys2Proof.Machine.execQueueFlush c s
  | .queueReset c => Sys2Proof.Machine.execQueueReset c s
  | .asyncEventRequest c => Sys2Proof.Machine.execAsyncEventRequest c s
  | .bufAlloc c => Sys2Proof.Machine.execBufAlloc c s
  | .bufFree c => Sys2Proof.Machine.execBufFree c s
  | .bufCopy c => Sys2Proof.Machine.execBufCopy c s
  | .bufFill c => Sys2Proof.Machine.execBufFill c s
  | .bufCheck c => Sys2Proof.Machine.execBufCheck c s
  | .memSetSpeed c => Sys2Proof.Machine.execMemSetSpeed c s
  | .pwrSetState c => Sys2Proof.Machine.execPwrSetState c s
  | .pwrSetIdleTimers c => Sys2Proof.Machine.execPwrSetIdleTimers c s
  | .idleTimerExpiry n => Sys2Proof.Machine.execIdleTimerExpiry n s
  | .hostInterfaceReset cause => Sys2Proof.Machine.execHostInterfaceReset cause s
  | .pcieLinkTraining rate width => Sys2Proof.Machine.execPcieLinkTraining rate width s
  | .powerUp => Sys2Proof.Machine.execPowerUp s
  | .deviceReset => Sys2Proof.Machine.execDeviceReset s
  | .boot flashOk checkA checkB units pcs remaps answered => Sys2Proof.Machine.execBoot flashOk checkA checkB units pcs remaps answered s
  | .tapReset => Sys2Proof.Machine.execTapReset s
  | .vddCoreFailure => Sys2Proof.Machine.execVddCoreFailure s
  | .thermalThrottle sensor => Sys2Proof.Machine.execThermalThrottle sensor s
  | .throttleEnd => Sys2Proof.Machine.execThrottleEnd s
  | .thermalTrip sensor => Sys2Proof.Machine.execThermalTrip sensor s
  | .camConfigure c => Sys2Proof.Machine.execCamConfigure c s
  | .camStart c => Sys2Proof.Machine.execCamStart c s
  | .bindTimeout cam => Sys2Proof.Machine.execBindTimeout cam s
  | .camStop c => Sys2Proof.Machine.execCamStop c s
  | .camSensorWrite c => Sys2Proof.Machine.execCamSensorWrite c s
  | .camTriggerPlan c => Sys2Proof.Machine.execCamTriggerPlan c s
  | .triggerSend cam => Sys2Proof.Machine.execTriggerSend cam s
  | .triggerMissing cam => Sys2Proof.Machine.execTriggerMissing cam s
  | .pixelCell chan epoch cam x => Sys2Proof.Machine.execPixelCell chan epoch cam x s
  | .timingCell chan epoch cam exp hubFc stamp => Sys2Proof.Machine.execTimingCell chan epoch cam exp hubFc stamp s
  | .pcpStartOfFrame port => Sys2Proof.Machine.execPcpStartOfFrame port s
  | .pcpLine port exp pixels => Sys2Proof.Machine.execPcpLine port exp pixels s
  | .ack cam seq hubFc => Sys2Proof.Machine.execAck cam seq hubFc s
  | .nak cam seq reason executed => Sys2Proof.Machine.execNak cam seq reason executed s
  | .readData cam seq hubFc entries => Sys2Proof.Machine.execReadData cam seq hubFc entries s
  | .controlCellResend cam seq => Sys2Proof.Machine.execControlCellResend cam seq s
  | .sliceDispatch role => Sys2Proof.Machine.execSliceDispatch role s
  | .stripeDone role errors poisoned => Sys2Proof.Machine.execStripeDone role errors poisoned s
  | .sliceWatchdog role => Sys2Proof.Machine.execSliceWatchdog role s
  | .motionBand errors => Sys2Proof.Machine.execMotionBand errors s
  | .motionWatchdog => Sys2Proof.Machine.execMotionWatchdog s
  | .rawSetStage c => Sys2Proof.Machine.execRawSetStage c s
  | .rawLoadTable c => Sys2Proof.Machine.execRawLoadTable c s
  | .rawTap c => Sys2Proof.Machine.execRawTap c s
  | .clrSetMatrix c => Sys2Proof.Machine.execClrSetMatrix c s
  | .clrLoadLut3d c => Sys2Proof.Machine.execClrLoadLut3d c s
  | .clrLoadCurve c => Sys2Proof.Machine.execClrLoadCurve c s
  | .clrSetOutput c => Sys2Proof.Machine.execClrSetOutput c s
  | .clrSetSpectral c => Sys2Proof.Machine.execClrSetSpectral c s
  | .expApply c => Sys2Proof.Machine.execExpApply c s
  | .expSetLimits c => Sys2Proof.Machine.execExpSetLimits c s
  | .statConfigure c => Sys2Proof.Machine.execStatConfigure c s
  | .expPolicyBind c => Sys2Proof.Machine.execExpPolicyBind c s
  | .jmInvocationStart role statePoisoned => Sys2Proof.Machine.execJmInvocationStart role statePoisoned s
  | .jmInvocationEnd role thread result => Sys2Proof.Machine.execJmInvocationEnd role thread result s
  | .overrun role thread => Sys2Proof.Machine.execOverrun role thread s
  | .watchdog role thread => Sys2Proof.Machine.execWatchdog role thread s
  | .rateKernelTimeout h => Sys2Proof.Machine.execRateKernelTimeout h s
  | .tileDeadline cam fn => Sys2Proof.Machine.execTileDeadline cam fn s
  | .siteStall role => Sys2Proof.Machine.execSiteStall role s
  | .jmLoadKernel c keyOk sigOk => Sys2Proof.Machine.execJmLoadKernel c keyOk sigOk s
  | .jmBindStage c => Sys2Proof.Machine.execJmBindStage c s
  | .jmUnload c => Sys2Proof.Machine.execJmUnload c s
  | .encSessionOpen c => Sys2Proof.Machine.execEncSessionOpen c s
  | .encSessionClose c => Sys2Proof.Machine.execEncSessionClose c s
  | .encSetRate c => Sys2Proof.Machine.execEncSetRate c s
  | .encForceIdr c => Sys2Proof.Machine.execEncForceIdr c s
  | .encRefMark c => Sys2Proof.Machine.execEncRefMark c s
  | .encPictureStart role => Sys2Proof.Machine.execEncPictureStart role s
  | .encPictureCommit role payload report recon => Sys2Proof.Machine.execEncPictureCommit role payload report recon s
  | .encRingPoll => Sys2Proof.Machine.execEncRingPoll s
  | .encPictureDrop h => Sys2Proof.Machine.execEncPictureDrop h s
  | .encWatchdog role => Sys2Proof.Machine.execEncWatchdog role s
  | .decSessionOpen c => Sys2Proof.Machine.execDecSessionOpen c s
  | .decSubmit c items => Sys2Proof.Machine.execDecSubmit c items s
  | .decSessionClose c => Sys2Proof.Machine.execDecSessionClose c s
  | .decPictureStart core => Sys2Proof.Machine.execDecPictureStart core s
  | .decPictureOutput h done => Sys2Proof.Machine.execDecPictureOutput h done s
  | .decCloseSlotTimeout h => Sys2Proof.Machine.execDecCloseSlotTimeout h s
  | .decCoreFault core => Sys2Proof.Machine.execDecCoreFault core s
  | .cmpJob c => Sys2Proof.Machine.execCmpJob c s
  | .cmpExpand c => Sys2Proof.Machine.execCmpExpand c s
  | .cmpEngineDispatch engine done => Sys2Proof.Machine.execCmpEngineDispatch engine done s
  | .cmpEngineFault engine => Sys2Proof.Machine.execCmpEngineFault engine s
  | .recSessionOpen c => Sys2Proof.Machine.execRecSessionOpen c s
  | .recSessionClose c => Sys2Proof.Machine.execRecSessionClose c s
  | .recMarkEvent c => Sys2Proof.Machine.execRecMarkEvent c s
  | .recSourceRecord h k => Sys2Proof.Machine.execRecSourceRecord h k s
  | .alignWaitExpiry h k => Sys2Proof.Machine.execAlignWaitExpiry h k s
  | .streamDescriptionRefresh h => Sys2Proof.Machine.execStreamDescriptionRefresh h s
  | .hostRingPoll h rdOff rdWraps => Sys2Proof.Machine.execHostRingPoll h rdOff rdWraps s
  | .senderReport h => Sys2Proof.Machine.execSenderReport h s
  | .eventWindowClose h => Sys2Proof.Machine.execEventWindowClose h s
  | .recCloseDrainTimeout h => Sys2Proof.Machine.execRecCloseDrainTimeout h s
  | .dispSetTiming c => Sys2Proof.Machine.execDispSetTiming c s
  | .dispLayerSet c => Sys2Proof.Machine.execDispLayerSet c s
  | .dispCommit c => Sys2Proof.Machine.execDispCommit c s
  | .dispLoadCoef c => Sys2Proof.Machine.execDispLoadCoef c s
  | .dispCrcSet c => Sys2Proof.Machine.execDispCrcSet c s
  | .dispClone c => Sys2Proof.Machine.execDispClone c s
  | .headFrameStart head => Sys2Proof.Machine.execHeadFrameStart head s
  | .headLineSend head ready behind => Sys2Proof.Machine.execHeadLineSend head ready behind s
  | .displayMode head => Sys2Proof.Machine.execDisplayMode head s
  | .laneConfigure c => Sys2Proof.Machine.execLaneConfigure c s
  | .laneTrain c => Sys2Proof.Machine.execLaneTrain c s
  | .laneBitslip c good cw => Sys2Proof.Machine.execLaneBitslip c good cw s
  | .laneCalSave c => Sys2Proof.Machine.execLaneCalSave c s
  | .laneCalRestore c => Sys2Proof.Machine.execLaneCalRestore c s
  | .ethPortConfigure c => Sys2Proof.Machine.execEthPortConfigure c s
  | .capability n rates role => Sys2Proof.Machine.execCapability n rates role s
  | .capabilityInterval n => Sys2Proof.Machine.execCapabilityInterval n s
  | .rateRequest n rate => Sys2Proof.Machine.execRateRequest n rate s
  | .rateAck n rate => Sys2Proof.Machine.execRateAck n rate s
  | .rateStepVerified n ber uncorr snr eye values => Sys2Proof.Machine.execRateStepVerified n ber uncorr snr eye values s
  | .rotate n chan toLane => Sys2Proof.Machine.execRotate n chan toLane s
  | .rotateAck n chan => Sys2Proof.Machine.execRotateAck n chan s
  | .calibrationDue n => Sys2Proof.Machine.execCalibrationDue n s
  | .calibrationDone n ber uncorr snr eye values => Sys2Proof.Machine.execCalibrationDone n ber uncorr snr eye values s
  | .inplaceDeferralExpiry n => Sys2Proof.Machine.execInplaceDeferralExpiry n s
  | .laneQualityUpdate n snr eye ber corr uncorr => Sys2Proof.Machine.execLaneQualityUpdate n snr eye ber corr uncorr s
  | .codewordLockLoss n cells => Sys2Proof.Machine.execCodewordLockLoss n cells s
  | .cellLockLoss n cells => Sys2Proof.Machine.execCellLockLoss n cells s
  | .laneDeath n => Sys2Proof.Machine.execLaneDeath n s
  | .ltSync frac => Sys2Proof.Machine.execLtSync frac s
  | .ltDelayReq chan epoch seq frac => Sys2Proof.Machine.execLtDelayReq chan epoch seq frac s
  | .egressStreamSend chan => Sys2Proof.Machine.execEgressStreamSend chan s
  | .streamDesc h => Sys2Proof.Machine.execStreamDesc h s
  | .bridgeFrame p data frac => Sys2Proof.Machine.execBridgeFrame p data frac s
  | .addressAgeing mac vid => Sys2Proof.Machine.execAddressAgeing mac vid s
  | .ethLinkUp p => Sys2Proof.Machine.execEthLinkUp p s
  | .ethLinkTimeout p => Sys2Proof.Machine.execEthLinkTimeout p s
  | .timeSetMode c => Sys2Proof.Machine.execTimeSetMode c s
  | .timeStep c => Sys2Proof.Machine.execTimeStep c s
  | .timeAdjustRate c => Sys2Proof.Machine.execTimeAdjustRate c s
  | .timeWriteIncrement c => Sys2Proof.Machine.execTimeWriteIncrement c s
  | .rateRestore => Sys2Proof.Machine.execRateRestore s
  | .sync p domain seq twoStep t1 corr frac => Sys2Proof.Machine.execSync p domain seq twoStep t1 corr frac s
  | .followUp p domain seq t1 corr => Sys2Proof.Machine.execFollowUp p domain seq t1 corr s
  | .delayReq p domain seq corr frac => Sys2Proof.Machine.execDelayReq p domain seq corr frac s
  | .delayResp p domain seq t4 corr => Sys2Proof.Machine.execDelayResp p domain seq t4 corr s
  | .pdelayReq p domain seq corr frac => Sys2Proof.Machine.execPdelayReq p domain seq corr frac s
  | .pdelayResp p domain seq twoStep rxPeer corr frac => Sys2Proof.Machine.execPdelayResp p domain seq twoStep rxPeer corr frac s
  | .pdelayRespFollowUp p domain seq txPeer corr => Sys2Proof.Machine.execPdelayRespFollowUp p domain seq txPeer corr s
  | .announce p domain a => Sys2Proof.Machine.execAnnounce p domain a s
  | .ptpMessageInterval p kind frac => Sys2Proof.Machine.execPtpMessageInterval p kind frac s
  | .announceTimeout p => Sys2Proof.Machine.execAnnounceTimeout p s
  | .tcHoldTimeout port domain seq => Sys2Proof.Machine.execTcHoldTimeout port domain seq s
  | .evtOutputSet c => Sys2Proof.Machine.execEvtOutputSet c s
  | .evtCaptureSet c => Sys2Proof.Machine.execEvtCaptureSet c s
  | .compareEvent u => Sys2Proof.Machine.execCompareEvent u s
  | .pulseEnd u => Sys2Proof.Machine.execPulseEnd u s
  | .captureEdge n rising => Sys2Proof.Machine.execCaptureEdge n rising s
  | .audPortConfigure c => Sys2Proof.Machine.execAudPortConfigure c s
  | .audStart c => Sys2Proof.Machine.execAudStart c s
  | .audStop c => Sys2Proof.Machine.execAudStop c s
  | .audSetSlots c => Sys2Proof.Machine.execAudSetSlots c s
  | .audioFrame p rx ppm => Sys2Proof.Machine.execAudioFrame p rx ppm s
  | .audioClockLoss p => Sys2Proof.Machine.execAudioClockLoss p s
  | .filledBlock p => Sys2Proof.Machine.execFilledBlock p s
  | .mediaClockUpdate k => Sys2Proof.Machine.execMediaClockUpdate k s
  | .playbackPoll p => Sys2Proof.Machine.execPlaybackPoll p s
  | .fwDownload c => Sys2Proof.Machine.execFwDownload c s
  | .fwCommit c sigOk verified => Sys2Proof.Machine.execFwCommit c sigOk verified s
  | .fwActivate c => Sys2Proof.Machine.execFwActivate c s
  | .activationDrained accepts => Sys2Proof.Machine.execActivationDrained accepts s
  | .activationDrainTimeout => Sys2Proof.Machine.execActivationDrainTimeout s
  | .trialEnd => Sys2Proof.Machine.execTrialEnd s
  | .chandlerRestart => Sys2Proof.Machine.execChandlerRestart s
  | .healthQuery c => Sys2Proof.Machine.execHealthQuery c s
  | .monConfigure c => Sys2Proof.Machine.execMonConfigure c s
  | .unitRejoin c => Sys2Proof.Machine.execUnitRejoin c s
  | .selfTestDone h ok => Sys2Proof.Machine.execSelfTestDone h ok s
  | .pairConfigure c peers => Sys2Proof.Machine.execPairConfigure c peers s
  | .errPolicySet c => Sys2Proof.Machine.execErrPolicySet c s
  | .monitorSample values => Sys2Proof.Machine.execMonitorSample values s
  | .histPeriodExpiry n => Sys2Proof.Machine.execHistPeriodExpiry n s
  | .healthRecordUpdate powerDw => Sys2Proof.Machine.execHealthRecordUpdate powerDw s
  | .heartbeatSend => Sys2Proof.Machine.execHeartbeatSend s
  | .heartbeat payload => Sys2Proof.Machine.execHeartbeat payload s
  | .heartbeatMiss toggles chandler => Sys2Proof.Machine.execHeartbeatMiss toggles chandler s
  | .ownerAck hub epoch hubFc lost => Sys2Proof.Machine.execOwnerAck hub epoch hubFc lost s
  | .refreshDue stack n => Sys2Proof.Machine.execRefreshDue stack n s
  | .makeUpBurst stack n => Sys2Proof.Machine.execMakeUpBurst stack n s
  | .retrainingSlot stack n eyeOk => Sys2Proof.Machine.execRetrainingSlot stack n eyeOk s
  | .retrainRetry stack n eyeOk => Sys2Proof.Machine.execRetrainRetry stack n eyeOk s
  | .stackSpeedChange stack => Sys2Proof.Machine.execStackSpeedChange stack s
  | .scrubRead line row bank region result last => Sys2Proof.Machine.execScrubRead line row bank region result last s
  | .tallyLeak p region => Sys2Proof.Machine.execTallyLeak p region s
  | .onDieEccPoll reports => Sys2Proof.Machine.execOnDieEccPoll reports s
  | .pcRetirement p => Sys2Proof.Machine.execPcRetirement p s
  | .retirementCopyDone p lost => Sys2Proof.Machine.execRetirementCopyDone p lost s
  | .codewordLock n => Sys2Proof.Machine.execCodewordLock n s
  | .cellLock n => Sys2Proof.Machine.execCellLock n s
  | .ethLinkDown p => Sys2Proof.Machine.execEthLinkDown p s
  | .powerDown => Sys2Proof.Machine.execPowerDown s
  | .shadowUpdate cell m used full => Sys2Proof.Machine.execShadowUpdate cell m used full s
  | .rotationOverlapEnd q frac => Sys2Proof.Machine.execRotationOverlapEnd q frac s
  | .decOutputSkip h => Sys2Proof.Machine.execDecOutputSkip h s

end Sys2Proof.Machine
end

