-- ==== Sys2Proof/Machine/Tick.lean ====
section
/-!
DEFINITION. What passes with nothing waiting: one cycle of TCLK, in which each Ethernet port sends a frame that it holds, the fabric moves, and the idle
period is watched.
-/
namespace Sys2Proof.Machine

/-- With nothing waiting, one cycle of TCLK passes (R370): each Ethernet port sends one frame (R366), the memory controllers serve and the requesters issue
(R13, R17), and an idle device enters the state that its check now allows (R65); nothing else happens by itself (log 1). -/
def State.idleTick (s : State) : State :=
  let t := (s.mapTime TimeSt.tick).sendFrames
  (t.fabTick t.pcOf).watchIdle

end Sys2Proof.Machine
end

