-- ==== Sys2Proof/Machine/Step.lean ====
section
/-!
DEFINITION. One step: the command or event at the front of the queue takes effect; with none waiting the time base counts one
TCLK cycle.
-/
namespace Sys2Proof.Machine

/-- One step of the machine: the command at the front of the queue, with the rest waiting; on an empty queue, one TCLK cycle. -/
def step (s : State) : Host.Outcome State Fault Refusal :=
  match s.pending with
  | [] => .next s.idleTick
  | c :: rest => exec c { s with pending := rest }

/-- The state with the command that a word spells at the front of the queue; no word spells one. -/
def State.withFetchWord (s : State) (nbits w : Nat) : State :=
  match decodeTableWord nbits w with
  | some c => { s with pending := c :: s.pending }
  | none => s

end Sys2Proof.Machine
end

