-- ==== Sys2Proof/Safety.lean ====
section
/-!
DEFINITION. The words that the statements use: a safe step, the invariant of the model, the parts of the state that a command leaves alone, and a
command that passes the checks before its own rules.
-/
namespace Sys2Proof

/-- A step is safe when it answers a next state: no command or event stops the part. -/
def SafeStep (s : Machine.State) : Prop := ∃ t, Machine.step s = .next t

/-- The invariant of the model: the memory is in canonical form. -/
def Inv (s : Machine.State) : Prop := s.mem.mem.wf = true

/-- The parts of the state that a frame names. The memory system has two: its bytes with their poison marks, and the rest. -/
inductive Part where
  | pending | fresh | out | issued | dev | host | bytes | memory | mgmt | power | time | lanes | cams | encs | dec | cmp | recs | aud | disp
  | jm | fabric
deriving DecidableEq, Repr

/-- A part is the same in two states. -/
def Part.same (s t : Machine.State) : Part → Prop
  | .pending => t.pending = s.pending
  | .fresh => t.fresh = s.fresh
  | .out => t.out = s.out
  | .issued => t.issued = s.issued
  | .dev => t.dev = s.dev
  | .host => t.host = s.host
  | .bytes => t.mem.mem = s.mem.mem
  | .memory => { t.mem with mem := s.mem.mem } = s.mem
  | .mgmt => t.mgmt = s.mgmt
  | .power => t.power = s.power
  | .time => t.time = s.time
  | .lanes => t.lanes = s.lanes
  | .cams => t.cams = s.cams
  | .encs => t.encs = s.encs
  | .dec => t.dec = s.dec
  | .cmp => t.cmp = s.cmp
  | .recs => t.recs = s.recs
  | .aud => t.aud = s.aud
  | .disp => t.disp = s.disp
  | .jm => t.jm = s.jm
  | .fabric => t.fab = s.fab

/-- Only the parts of a list change from one state to another. -/
structure Only (ps : List Part) (s t : Machine.State) : Prop where
  /-- Every other part is the same. -/
  same : ∀ p : Part, p ∉ ps → p.same s t

/-- A command is accepted: the part runs, and the checks that every command goes through hold (R5, R35, R39, R62, R467). -/
def Accepted (op : Op) (c : Cmd) (s : Machine.State) : Prop :=
  s.power.phase = .running ∧ Machine.preflight s op c = .ok ()

/-- The command that an operation of the queue interface is, with its opcode; none for an event, a register access or a message. -/
def commandOf : Instr → Option (Op × Cmd)
  | .identify c => some (.identify, c)
  | .getLogPage c => some (.getLogPage, c)
  | .setFeature c => some (.setFeature, c)
  | .getFeature c => some (.getFeature, c)
  | .queueCreate c => some (.queueCreate, c)
  | .queueDelete c => some (.queueDelete, c)
  | .queueFlush c => some (.queueFlush, c)
  | .queueReset c => some (.queueReset, c)
  | .asyncEventRequest c => some (.asyncEventRequest, c)
  | .bufAlloc c => some (.bufAlloc, c)
  | .bufFree c => some (.bufFree, c)
  | .bufCopy c => some (.bufCopy, c)
  | .bufFill c => some (.bufFill, c)
  | .bufCheck c => some (.bufCheck, c)
  | .camConfigure c => some (.camConfigure, c)
  | .camStart c => some (.camStart, c)
  | .camStop c => some (.camStop, c)
  | .camSensorWrite c => some (.camSensorWrite, c)
  | .camTriggerPlan c => some (.camTriggerPlan, c)
  | .rawSetStage c => some (.rawSetStage, c)
  | .rawLoadTable c => some (.rawLoadTable, c)
  | .rawTap c => some (.rawTap, c)
  | .clrSetMatrix c => some (.clrSetMatrix, c)
  | .clrLoadLut3d c => some (.clrLoadLut3d, c)
  | .clrLoadCurve c => some (.clrLoadCurve, c)
  | .clrSetOutput c => some (.clrSetOutput, c)
  | .clrSetSpectral c => some (.clrSetSpectral, c)
  | .expApply c => some (.expApply, c)
  | .expSetLimits c => some (.expSetLimits, c)
  | .statConfigure c => some (.statConfigure, c)
  | .expPolicyBind c => some (.expPolicyBind, c)
  | .encSessionOpen c => some (.encSessionOpen, c)
  | .encSessionClose c => some (.encSessionClose, c)
  | .encSetRate c => some (.encSetRate, c)
  | .encForceIdr c => some (.encForceIdr, c)
  | .encRefMark c => some (.encRefMark, c)
  | .decSessionOpen c => some (.decSessionOpen, c)
  | .decSubmit c _ => some (.decSubmit, c)
  | .decSessionClose c => some (.decSessionClose, c)
  | .cmpJob c => some (.cmpJob, c)
  | .recSessionOpen c => some (.recSessionOpen, c)
  | .recSessionClose c => some (.recSessionClose, c)
  | .recMarkEvent c => some (.recMarkEvent, c)
  | .cmpExpand c => some (.cmpExpand, c)
  | .dispSetTiming c => some (.dispSetTiming, c)
  | .dispLayerSet c => some (.dispLayerSet, c)
  | .dispCommit c => some (.dispCommit, c)
  | .dispLoadCoef c => some (.dispLoadCoef, c)
  | .dispCrcSet c => some (.dispCrcSet, c)
  | .dispClone c => some (.dispClone, c)
  | .jmLoadKernel c _ _ => some (.jmLoadKernel, c)
  | .jmBindStage c => some (.jmBindStage, c)
  | .jmUnload c => some (.jmUnload, c)
  | .laneConfigure c => some (.laneConfigure, c)
  | .laneTrain c => some (.laneTrain, c)
  | .laneBitslip c _ _ => some (.laneBitslip, c)
  | .laneCalSave c => some (.laneCalSave, c)
  | .laneCalRestore c => some (.laneCalRestore, c)
  | .ethPortConfigure c => some (.ethPortConfigure, c)
  | .timeSetMode c => some (.timeSetMode, c)
  | .timeStep c => some (.timeStep, c)
  | .timeAdjustRate c => some (.timeAdjustRate, c)
  | .timeWriteIncrement c => some (.timeWriteIncrement, c)
  | .evtOutputSet c => some (.evtOutputSet, c)
  | .evtCaptureSet c => some (.evtCaptureSet, c)
  | .audPortConfigure c => some (.audPortConfigure, c)
  | .audStart c => some (.audStart, c)
  | .audStop c => some (.audStop, c)
  | .audSetSlots c => some (.audSetSlots, c)
  | .fwDownload c => some (.fwDownload, c)
  | .fwCommit c _ _ => some (.fwCommit, c)
  | .fwActivate c => some (.fwActivate, c)
  | .healthQuery c => some (.healthQuery, c)
  | .monConfigure c => some (.monConfigure, c)
  | .unitRejoin c => some (.unitRejoin, c)
  | .pairConfigure c _ => some (.pairConfigure, c)
  | .errPolicySet c => some (.errPolicySet, c)
  | .pwrSetState c => some (.pwrSetState, c)
  | .pwrSetIdleTimers c => some (.pwrSetIdleTimers, c)
  | .memSetSpeed c => some (.memSetSpeed, c)
  | _ => none

end Sys2Proof
end

