-- ==== Sys2Proof/Certificates/Slice0/Obligations.lean ====
section
/-!
DEFINITION. The statements for the provers, one definition each.
-/
open Sys2Proof Sys2Proof.Machine

/-! ## The host interface (chapter 02) -/

/-- HOST_ENABLE with good admin registers sets EN and the admin queue pair; with bad ones it only sets PARAM_ERR (R464). -/
def Obligations.HostEnableChecksAndSetsUpAdminQueue : Prop :=
  ∀ s : State, s.ready = true → s.host.en = false →
    let h := s.host
    let good := (1 ≤ h.asqs ∧ h.asqs ≤ 4095) ∧ (1 ≤ h.acqs ∧ h.acqs ≤ 4095) ∧ h.asqBase.toNat % 4096 = 0 ∧ h.acqBase.toNat % 4096 = 0
    (good → ∃ t : State, exec .hostEnable s = .next t ∧ t.host.en = true ∧ t.rdy = true ∧
      (t.queue 0).live = true ∧ (t.queue 0).entries = h.asqs + 1 ∧ (t.queue 0).cqEntries = h.acqs + 1 ∧
      (t.queue 0).sq = .hostMem h.asqBase.toNat ∧ (t.queue 0).cq = .hostMem h.acqBase.toNat ∧
      (t.queue 0).sqHead = 0 ∧ (t.queue 0).sqTail = 0 ∧ (t.queue 0).phase = true ∧ Only [.host, .issued] s t) ∧
    (¬ good → exec .hostEnable s = .next { s with host := { h with paramErr := true } })

/-- A host-interface reset, and clearing EN, deletes every queue, event and request and returns the host block to its reset values (R67,
Table 02-21). -/
def Obligations.HostInterfaceResetClearsTheHostBlock : Prop :=
  ∀ (s : State) (cause : HostResetCause),
    let cleared (t : State) (k : HostResetCause) : Prop :=
      (∀ q : Fin 64, (t.queue q).live = false) ∧ t.host.held = [] ∧ t.host.async = [] ∧ t.host.en = false ∧ t.host.paramErr = false ∧
      t.host.adminHalted = false ∧ t.host.asqs = 0 ∧ t.host.acqs = 0 ∧ t.host.asqBase = 0 ∧ t.host.acqBase = 0 ∧ t.host.bar2Base = 0 ∧
      t.host.bar2Log2 = 28 ∧ t.host.feat = s.host.feat ∧ t.host.orphans.cause = k
    (∃ t : State, exec (.hostInterfaceReset cause) s = .next t ∧ cleared t cause ∧ Only [.host, .mgmt, .recs, .power] s t) ∧
    (s.host.en = true → ∃ t : State, exec .hostDisable s = .next t ∧ cleared t .enCleared ∧ Only [.host, .mgmt, .recs] s t)

/-- A good doorbell moves its index and wakes the device; a bad one sets PARAM_ERR and posts DOORBELL_INVALID (R32, R66). -/
def Obligations.DoorbellsMoveTheirIndexOrAreInvalid : Prop :=
  ∀ (s : State) (q : Fin 64) (v : Word) (ok : Bool), s.ready = true →
    let k := s.queue q
    let i := v.toNat % 4096
    let usable := k.live = true ∧ k.reset = none
    let goodTail := usable ∧ i < k.entries ∧ (i + k.entries - k.sqTail) % k.entries + k.unfetched < k.entries
    let goodHead := usable ∧ i < k.cqEntries ∧
      (i + k.cqEntries - k.cqHead) % k.cqEntries ≤ (k.cqTail + k.cqEntries - k.cqHead) % k.cqEntries
    (goodTail → ∃ t : State, exec (.sqDoorbell q v) s = .next t ∧ (t.queue q).sqTail = i ∧
      (t.queue q).submitted = k.submitted + (i + k.entries - k.sqTail) % k.entries ∧ t.power.cur = s.power.oper ∧
      Only [.host, .mgmt, .power, .memory, .lanes, .out] s t) ∧
    (goodHead → ∃ t : State, exec (.cqDoorbell q v ok) s = .next t ∧ (t.queue q).cqHead = i ∧ t.power.cur = s.power.oper ∧
      Only [.host, .mgmt, .power, .memory, .bytes, .lanes, .out] s t) ∧
    (¬ goodTail → exec (.sqDoorbell q v) s =
      .next (({ s with host := { s.host with paramErr := true } } : State).post .doorbellInvalid (BitVec.ofNat 32 q.val))) ∧
    (¬ goodHead → exec (.cqDoorbell q v ok) s =
      .next (({ s with host := { s.host with paramErr := true } } : State).post .doorbellInvalid (BitVec.ofNat 32 (q.val + 256))))

/-- COMMAND_COMPLETE writes the oldest ready completion, releases the command's locks and moves the completion queue's tail (R41, R42,
R52). -/
def Obligations.CommandCompleteWritesTheEntry : Prop :=
  ∀ (s : State) (q : Fin 64) (r : Ready) (rest : List Ready) (a : Nat),
    let k := s.queue q
    k.ready = r :: rest → k.halted = false → k.reset = none → k.flush = none → k.cqFull = false → k.cq = .hostMem a →
    ∃ t : State, exec (.commandComplete q true) s = .next t ∧
      .hostWrite (a + 16 * k.cqTail) (entryBytes r.r0 r.r1 k.sqHead q.val r.logged k.phase r.cid r.status) ∈ t.out ∧
      (t.queue q).ready = rest ∧
      (t.queue q).cqTail = (if k.cqEntries ≤ k.cqTail + 1 then 0 else k.cqTail + 1) ∧
      (t.queue q).phase = (if k.cqEntries ≤ k.cqTail + 1 then !k.phase else k.phase) ∧
      (∀ l ∈ t.host.locks, ¬ (l.qid = q ∧ l.cid = r.cid)) ∧
      (∀ l ∈ s.host.locks, ¬ (l.qid = q ∧ l.cid = r.cid) → l ∈ t.host.locks) ∧
      Only [.host, .out] s t

/-- A completion that signals sends its queue's MSI-X vector, and the coalescing time sends it for what is unsignalled (R61). -/
def Obligations.CompletionsSignalTheirVector : Prop :=
  ∀ (s : State) (q : Fin 64),
    let k := s.queue q
    let masked := (vget s.host.msix { addr := 0, data := 0, ctrl := 1 } k.vector).ctrl.getLsbD 0 = true
    (∀ (r : Ready) (rest : List Ready) (a : Nat),
      k.ready = r :: rest → k.halted = false → k.reset = none → k.flush = none → k.cqFull = false → k.cq = .hostMem a →
      let eligible := ¬ (r.status = .ok ∧ r.flags.getLsbD 1 = true)
      let now := (r.status ≠ .ok ∧ r.status ≠ .okAdjusted) ∨ r.op.toNat = 0x0020 ∨ (eligible ∧ (k.cqCount ≤ k.unsig + 1 ∨ k.cqTime = 0))
      let w := Out.hostWrite (a + 16 * k.cqTail) (entryBytes r.r0 r.r1 k.sqHead q.val r.logged k.phase r.cid r.status)
      ∃ t : State, exec (.commandComplete q true) s = .next t ∧
        (now → (t.queue q).unsig = 0 ∧ (t.queue q).unsigElig = false ∧ t.out = (if masked then w :: s.out else .msix k.vector :: w :: s.out)) ∧
        (¬ now → (t.queue q).unsig = k.unsig + 1 ∧ t.out = w :: s.out)) ∧
    (k.unsigElig = true → ∃ t : State, exec (.coalescingTimeout q) s = .next t ∧ (t.queue q).unsig = 0 ∧ (t.queue q).unsigElig = false ∧
      t.out = (if masked then s.out else .msix k.vector :: s.out) ∧ Only [.host, .out] s t)

/-- COMMAND_FETCH takes an entry of queue 0 before any other, FW_ACTIVATE records the barriers, and a failed read halts the queue (R36,
R63). -/
def Obligations.CommandFetchServesQueueZeroFirst : Prop :=
  ∀ (s : State) (op : Half) (p : Packet) (a : Nat),
    let k := s.queue 0
    s.ready = true → k.fetchable = true → k.sq = .hostMem a → k.flush = none → k.reset = none →
    (s.returning = true → exec (.commandFetch [.entry op p]) s = .next s) ∧
    (s.returning = false → ∃ t : State, exec (.commandFetch [.entry op p]) s = .next t ∧
      (t.queue 0).fetched = k.fetched ++ [{ ent := k.fetchedN, op := op, pkt := p }] ∧
      (t.queue 0).sqHead = (k.sqHead + 1) % k.entries ∧ (t.queue 0).fetchedN = k.fetchedN + 1 ∧
      (op.toNat ≠ Op.fwActivate.code → ∀ q : Fin 64, q ≠ 0 → t.queue q = s.queue q) ∧
      (op.toNat = Op.fwActivate.code → ∀ q : Fin 64, q ≠ 0 → (s.queue q).live = true →
        t.queue q = { s.queue q with barrier := some ((s.queue q).barrier.getD (s.queue q).submitted) }) ∧ Only [.host, .power] s t) ∧
    (s.returning = false → ∃ u : State, exec (.commandFetch [.failed]) s = .next (u.post .queueHalted 0) ∧ (u.queue 0).halted = true ∧
      u.host.adminHalted = true ∧ (u.queue 0).fetched = k.fetched ∧ (u.queue 0).sqHead = k.sqHead ∧ Only [.host, .power] s u)

/-- COMMAND_DISPATCH puts the oldest fetched command in flight with all its range locks, or leaves it stalled with none (R44, R51). -/
def Obligations.CommandDispatchTakesAllLocksOrNone : Prop :=
  ∀ (s : State) (q : Fin 64) (host : HostRead) (f : Fetched) (rest : List Fetched),
    let k := s.queue q
    s.ready = true → k.fetched = f :: rest → k.halted = false → k.flush = none → k.reset = none →
    k.cqFull = false → ¬ (f.pkt.flags.getLsbD 2 = true ∧ ¬ (k.inFlight = [] ∧ k.ready = [])) →
    (∀ b, k.barrier = some b → f.ent < b) →
    (∀ op, Op.ofCode f.op.toNat = some op →
      let c := toCmd q f.pkt host
      let rs := opRanges s op c
      preflight s op c = .ok () →
      (locksFree s.host.locks rs = true → ∃ t : State, exec (.commandDispatch q host) s = .next t ∧ (t.queue q).fetched = rest ∧
        (t.queue q).inFlight = k.inFlight ++ [{ ent := f.ent, ref := ref op c }] ∧
        t.host.locks = s.host.locks ++ rs.map (fun r => { start := r.1, len := r.2.1, write := r.2.2, qid := q, cid := f.pkt.cid }) ∧
        (∀ x : Fin 64, x ≠ q → t.queue x = s.queue x) ∧ Only [.host] s t) ∧
      (locksFree s.host.locks rs = false → exec (.commandDispatch q host) s = .next s)) ∧
    (Op.ofCode f.op.toNat = none → ∃ t : State, exec (.commandDispatch q host) s = .next t ∧ (t.queue q).fetched = rest ∧
      (t.queue q).inFlight = k.inFlight ∧ (t.queue q).ready = k.ready ++ [{ endedAs .invalidOpcode f.ent f.op f.pkt.cid f.pkt.flags with
        r0 := BitVec.ofNat 32 f.op.toNat }] ∧ Only [.host] s t)

/-- QUEUE_CREATE makes the lowest free queue, QUEUE_DELETE removes an idle one, and QUEUE_FLUSH, QUEUE_RESET and ADMIN_RESET end what has
not started (R33, R34, R54, R56, R58). -/
def Obligations.QueueCommandsMakeAndEmptyQueues : Prop :=
  ∀ (c : Cmd) (s : State),
    let n := bitsOf (par c 0) 12 0
    let placed (dev : Bool) (a size : Nat) (x : Place) : Prop := a % 4096 = 0 ∧
      (dev = false → x = .hostMem a) ∧ (dev = true → x = .devMem ((s.buffer c.aux).elim 0 (fun b => b.base) + a) ∧ typeOf c.aux = 1 ∧
        ∃ b, s.buffer c.aux = some b ∧ needInBuffer s b a size = .ok (b.base + a) ∧ needUnpinned s (b.base + a) size = .ok ())
    (∀ (id : Fin 64) (x y : Place), Accepted .queueCreate c s → 2 ≤ n → n ≤ 4096 → 1 ≤ bitsOf (par c 1) 7 0 →
      (bitOf (par c 0) 20 = false → bitOf (par c 0) 21 = false → c.aux = 0) →
      placed (bitOf (par c 0) 20) (par64 c 2) (64 * n) x → placed (bitOf (par c 0) 21) (par64 c 4) (16 * n) y →
      id ≠ 0 → (s.queue id).live = false → (∀ j : Fin 64, j ≠ 0 → j < id → (s.queue j).live = true) →
      ∃ u : State, exec (.queueCreate c) s = .next (u.complete (ref .queueCreate c) .ok (s.nextHandle 0x9).toNat id.val false) ∧
        (u.queue id).live = true ∧ (u.queue id).handle = s.nextHandle 0x9 ∧ (u.queue id).entries = n ∧ (u.queue id).cqEntries = n ∧
        (u.queue id).sq = x ∧ (u.queue id).cq = y ∧ (u.queue id).vector = bitsOf (par c 0) 31 24 ∧ (u.queue id).cqCount = bitsOf (par c 1) 7 0 ∧
        (u.queue id).cqTime = bitsOf (par c 1) 25 16 ∧ (u.queue id).sqHead = 0 ∧ (u.queue id).cqTail = 0 ∧
        (∀ j : Fin 64, j ≠ id → u.queue j = s.queue j) ∧ Only [.host, .issued] s u) ∧
    (∀ q : Fin 64, s.queueOf c.handle = some q.val →
      let k := s.queue q
      (Accepted .queueDelete c s → k.flush = none → k.reset = none →
        (k.outstanding = 0 → q ≠ 0 → ∃ u : State, exec (.queueDelete c) s = .next (u.complete (ref .queueDelete c) .ok 0 0 false) ∧
          u.queue q = Queue.absent ∧ (∀ j : Fin 64, j ≠ q → u.queue j = s.queue j) ∧ Only [.host] s u) ∧
        (¬ (k.outstanding = 0 ∧ q ≠ 0) → exec (.queueDelete c) s = .next (s.complete (ref .queueDelete c) .notReady 0x09 0 false))) ∧
      (Accepted .queueFlush c s → q ≠ 0 → k.flush = none → k.reset = none → ∃ t : State, exec (.queueFlush c) s = .next t ∧
        (t.queue q).fetched = [] ∧ (t.queue q).inFlight = k.inFlight ∧ (t.queue q).ready = k.ready ++ k.fetched.map (Fetched.ended .flushed) ∧
        (∀ j : Fin 64, j ≠ q → j ≠ 0 → t.queue j = s.queue j) ∧ Only [.host, .mgmt] s t) ∧
      (Accepted .queueReset c s → q ≠ 0 → k.reset = none → ∃ t : State, exec (.queueReset c) s = .next t ∧ (t.queue q).fetched = [] ∧
        (∀ f ∈ k.fetched, Fetched.ended .aborted f ∈ (t.queue q).ready) ∧ (∀ r ∈ t.host.async, r.qid ≠ q))) ∧
    (s.host.en = true → (s.queue 0).live = true → (s.queue 0).reset = none → ∃ t : State, exec .adminReset s = .next t ∧ (t.queue 0).fetched = [] ∧
      (∀ f ∈ (s.queue 0).fetched, Fetched.ended .aborted f ∈ (t.queue 0).ready) ∧ (∀ r ∈ t.host.async, r.qid ≠ 0))

/-- ASYNC_EVENT_REQUEST takes the oldest held event or waits; SET_FEATURE changes one feature and GET_FEATURE returns it (R46, R48, R59,
R60). -/
def Obligations.EventRequestsAndFeatures : Prop :=
  ∀ (c : Cmd) (s : State),
    let v := par c 1
    let f := s.host.feat
    let rest (k : Nat) : Prop := ∀ i, k < i → i ≤ 7 → par c i = 0
    let sets (g : Features) : Prop := ∃ u : State, exec (.setFeature c) s = .next (u.complete (ref .setFeature c) .ok 0 0 false) ∧ u.host.feat = g ∧
      Only [.host] s u
    (Accepted .asyncEventRequest c s →
      let r := ref .asyncEventRequest c
      (Config.asyncMax ≤ s.host.async.length → exec (.asyncEventRequest c) s = .next (s.complete r .notReady 0x0A 0 false)) ∧
      (s.host.async.length < Config.asyncMax →
        (∀ e rest, s.host.held = e :: rest → ∃ u : State, exec (.asyncEventRequest c) s =
          .next (u.complete r .ok (e.type.code + 2 ^ 15 * bit01 s.host.heldLost + 2 ^ 16 * e.merged) e.detail.toNat false) ∧ u.host.held = rest ∧
          u.host.heldLost = false ∧ Only [.host] s u) ∧
        (s.host.held = [] → ∃ u : State, exec (.asyncEventRequest c) s = .next (u.keepInFlight r) ∧ u.host.async = s.host.async ++ [r] ∧
          Only [.host] s u))) ∧
    (Accepted .setFeature c s →
      (c.handle = 0 → rest 1 →
        (par c 0 = 0x01 → v < 2 ^ 24 → bitsOf v 7 0 ≠ 0 → bitsOf v 15 8 ≠ 0 → bitsOf v 23 16 ≠ 0 →
          sets { f with wHigh := bitsOf v 7 0, wMedium := bitsOf v 15 8, wLow := bitsOf v 23 16 }) ∧
        (par c 0 = 0x02 → 10 ≤ v → v ≤ 10000 → sets { f with drainLimit := v }) ∧
        (par c 0 = 0x31 → 50 ≤ v → v ≤ 5000 → sets { f with guard := v }) ∧
        (par c 0 = 0x40 → 10 ≤ v → v ≤ 1000 → sets { f with retrainMs := v }) ∧
        (par c 0 = 0x41 → 1 ≤ v → v ≤ 168 → sets { f with scrubH := v })) ∧
      (c.handle = 0 → rest 3 → par c 0 = 0x30 → v ≤ par c 2 → par c 2 ≤ par c 3 → sets { f with shed3 := v, shed2 := par c 2, shed1 := par c 3 }) ∧
      (∀ cam, typeOf c.handle = 2 → s.liveHandle c.handle = true → s.cams.find c.handle = some cam → rest 1 →
        (par c 0 = 0x32 → v < 0x200 → bitsOf v 7 0 ≠ 0 → ∃ u : State,
          exec (.setFeature c) s = .next (u.complete (ref .setFeature c) .ok (s.cam cam).stagedFn 0 false) ∧
          (cam < 48 → (u.cam cam).next.lambda = bitsOf v 7 0 ∧ (u.cam cam).next.tpred = bitOf v 8) ∧ Only [.cams] s u) ∧
        (par c 0 = 0x33 → Nat.land v 0xFFFF00FE = 0 → ∃ u : State,
          exec (.setFeature c) s = .next (u.complete (ref .setFeature c) .ok 0 0 false) ∧
          (cam < 48 → (u.cam cam).frameDone = bitOf v 0 ∧ (u.cam cam).doneEvery = Nat.max 1 (bitsOf v 15 8)) ∧ Only [.cams] s u)) ∧
      (par c 0 ∉ [0x01, 0x02, 0x30, 0x31, 0x32, 0x33, 0x40, 0x41] →
        exec (.setFeature c) s = .next (s.complete (ref .setFeature c) .invalidParam 0x20 0 false))) ∧
    (∀ w : FeatureWords, Accepted .getFeature c s → featureNow s c = .ok w →
      let bs := layout 32 [(0, 4, par c 0), (4, 4, w.1), (8, 4, w.2.1), (12, 4, w.2.2)]
      ∃ u : State, exec (.getFeature c) s = .next (u.complete (ref .getFeature c) .ok w.1 w.2.1 false) ∧
        (c.ptrSpace ≠ 1 → u.out = .hostWrite c.ptr.toNat bs :: s.out) ∧
        (c.ptrSpace = 1 → Inv s → u.readMem c.ptr.toNat 32 = bs ∧ ∀ a, a < c.ptr.toNat ∨ c.ptr.toNat + 32 ≤ a → u.mem.mem.byte a = s.mem.mem.byte a) ∧
        Only [.bytes, .out] s u)

/-- IDENTIFY and GET_LOG_PAGE copy their structure to PTR and change nothing else (R45, R47). -/
def Obligations.IdentifyAndLogPagesAreCopied : Prop :=
  ∀ (c : Cmd) (s : State), Inv s →
    let wrote (u : State) (bs : List Byte) : Prop := (c.ptrSpace ≠ 1 → u.out = .hostWrite c.ptr.toNat bs :: s.out) ∧
      (c.ptrSpace = 1 → u.readMem c.ptr.toNat bs.length = bs ∧
        ∀ a, a < c.ptr.toNat ∨ c.ptr.toNat + bs.length ≤ a → u.mem.mem.byte a = s.mem.mem.byte a)
    (Accepted .identify c s → ∃ u : State, exec (.identify c) s = .next (u.complete (ref .identify c) .ok 4096 0 false) ∧ wrote u s.identity ∧
      s.identity.length = 4096 ∧ f16 s.identity 0 = 0x4896 ∧ f16 s.identity 2 = 0x00B0 ∧ Only [.bytes, .out] s u) ∧
    (Accepted .getLogPage c s →
      (∀ (p : Page) (size : Nat), s.page c = .ok p → p.entry = some size →
        let n := Nat.min (p.bytes.length / size) (c.ptrLen.toNat / size)
        ∃ u : State, exec (.getLogPage c) s = .next (u.complete (ref .getLogPage c) .ok n p.full false) ∧ wrote u (p.bytes.take (size * n)) ∧
          Only [.bytes, .out, .fresh] s u) ∧
      (∀ p : Page, s.page c = .ok p → p.entry = none → par c 1 % 64 = 0 → par c 1 < p.full →
        let bs := (p.bytes.drop (par c 1)).take c.ptrLen.toNat
        ∃ u : State, exec (.getLogPage c) s = .next (u.complete (ref .getLogPage c) .ok bs.length p.full false) ∧ wrote u bs ∧
          Only [.bytes, .out, .fresh] s u) ∧
      (par c 0 ∉ [0x10, 0x11, 0x12, 0x13, 0x14, 0x15, 0x20, 0x21, 0x22, 0x23, 0x24, 0x25, 0x26, 0x27, 0x28, 0x29, 0x2A, 0x2B, 0x2C, 0x2D, 0x2E] →
        exec (.getLogPage c) s = .next (s.complete (ref .getLogPage c) .invalidParam 0x20 0 false)))

/-! ## Registers, windows and side-band interfaces (chapters 02, 10, 13, 14, 16) -/

/-- REGISTER_WRITE sets the admin, base, flag, BAR2 and SMBus registers as their tables say and ignores reserved offsets (R28, R30, R428,
Table 02-2, Table 02-4, Table 02-5, Table 16-15). -/
def Obligations.RegisterWritesHaveTheirStatedEffect : Prop :=
  (∀ (s : State) (v : Nat), s.bar0Up = true → v < 2 ^ 32 →
    exec (.registerWrite (.bar0 0x008 false v)) s = .next { s with host := { s.host with asqs := v % 4096, acqs := v / 65536 % 4096 } } ∧
    exec (.registerWrite (.bar0 0x004 false v)) s = .next { s with host := { s.host with
      orphansFlag := s.host.orphansFlag && !(v / 2048 % 2 == 1), paramErr := s.host.paramErr && !(v / 256 % 2 == 1) } }) ∧
  (∀ (s : State) (v : Nat), s.bar0Up = true → v < 2 ^ 64 →
    exec (.registerWrite (.bar0 0x010 true v)) s = .next { s with host := { s.host with asqBase := BitVec.ofNat 64 v } } ∧
    exec (.registerWrite (.bar0 0x018 true v)) s = .next { s with host := { s.host with acqBase := BitVec.ofNat 64 v } } ∧
    exec (.registerWrite (.bar0 0x020 true v)) s = .next (if v / 2 ^ 28 % 2 ^ 10 * 2 ^ 28 % 2 ^ s.host.bar2Log2 = 0
      then { s with host := { s.host with bar2Base := v / 2 ^ 28 % 2 ^ 10 * 2 ^ 28 } } else { s with host := { s.host with paramErr := true } })) ∧
  (∀ (s : State) (n : Nat), s.bar0Up = true → exec (.registerWrite (.bar2Size n)) s =
    .next (if 28 ≤ n ∧ n ≤ 36 then { s with host := { s.host with bar2Log2 := n } } else s)) ∧
  (∀ (s : State) (off v : Nat), s.bar0Up = true → (off = 0x00C ∨ (0x040 ≤ off ∧ off < 0x1000) ∨ off % 4 ≠ 0) →
    exec (.registerWrite (.bar0 off false v)) s = .next s) ∧
  (∀ (s : State) (off v : Nat), off % 8 ≠ 0 → exec (.registerWrite (.bar0 off true v)) s = .next s) ∧
  (∀ (s : State) (v : Nat), s.power.phase ≠ .off → exec (.registerWrite (.smbus 0x03 v)) s =
    .next { s with mgmt := { s.mgmt with smb := { s.mgmt.smb with alertMask := v % 65536 } } })

/-- A BAR0 access of a wrong form has no effect, and a read of that kind returns all ones (R28). -/
def Obligations.BadBarZeroAccessHasNoEffect : Prop :=
  ∀ s : State, s.bar0Up = true → exec (.bar0BadAccess true) s = .next { s with out := .readData (2 ^ 64 - 1) :: s.out } ∧
    exec (.bar0BadAccess false) s = .next s

/-- BAR2 accesses reach device memory, the reserved region discards writes, and bad or sleeping accesses get Unsupported Request (R31,
R66, R318). -/
def Obligations.BarTwoAccessesReachDeviceMemory : Prop :=
  ∀ (s : State) (off : Nat) (data : List Byte), data ≠ [] → s.ready = true → Inv s →
    let n := data.length
    let a := s.host.bar2Base + off
    let shallow := s.power.cur = .ps0 ∨ s.power.cur = .ps1
    let inside := off + n ≤ 2 ^ s.host.bar2Log2 ∧ a + n ≤ Config.addrMax + 1 ∧
      ∀ r ∈ s.mem.retired, a + n ≤ r.base ∨ r.base + Config.retiredSize ≤ a
    (shallow → inside →
      (s.mem.mem.poisonIn a n = none → ∃ t : State, exec (.bar2Read off n) s = .next t ∧ t.out = .readBytes (s.mem.mem.read a n) :: s.out ∧
        Only [.out, .fabric] s t) ∧
      (s.mem.mem.poisonIn a n ≠ none → ∃ t : State, exec (.bar2Read off n) s = .next t ∧
        t.out = .poisonedCompletion (s.mem.mem.read a n) :: .aer false :: s.out ∧ Only [.out, .fabric] s t) ∧
      (Config.heapBase ≤ a → ∃ t : State, exec (.bar2Write off data) s = .next t ∧ t.mem.mem.read a n = data ∧
        (∀ x, x < a ∨ a + n ≤ x → t.mem.mem.byte x = s.mem.mem.byte x) ∧
        t.fab.waiting = s.fab.waiting ++ [s.access .bar2 .host noCam a n true] ∧ Only [.bytes, .fabric] s t) ∧
      (a < Config.heapBase → ∃ t : State, exec (.bar2Write off data) s = .next t ∧ t.mem.bar2Discarded = s.mem.bar2Discarded.satInc ∧
        Only [.memory, .mgmt] s t)) ∧
    (¬ shallow ∨ ¬ inside → ∃ t u : State, exec (.bar2Read off n) s = .next t ∧ exec (.bar2Write off data) s = .next u ∧
      t.out.head? = some .unsupportedRequest ∧ u.out.head? = some .unsupportedRequest ∧ Only [.out] s t ∧ Only [.out] s u)

/-- A read of the time counter takes a snapshot, and the asymmetry registers take values up to 1,000 ns and refuse others (R371, R372). -/
def Obligations.TimeRegistersSnapshotAndAsymmetry : Prop :=
  ∀ (s : State) (p : Fin 4) (n : Fin 32) (v : Word),
    let small := -65536000 ≤ v.toInt ∧ v.toInt ≤ 65536000
    (∃ t : State, exec (.timeNowRead false) s = .next t ∧ t.out = .readData (s.time.now / 2 ^ 32 % 1000000000) :: s.out ∧ t.time.now = s.time.now ∧
      t.time.latchSec = s.time.now / 2 ^ 32 / 1000000000 % 2 ^ 48 % 2 ^ 32 ∧ Only [.time, .out] s t) ∧
    (small → exec (.timeAsymWrite p v) s = .next { s with time := { s.time with asym := s.time.asym.set p v } } ∧
      exec (.timeLinkAsymWrite n v) s = .next { s with time := { s.time with linkAsym := s.time.linkAsym.set n v } }) ∧
    (¬ small → exec (.timeAsymWrite p v) s = .next { s with time := { s.time with paramErr := true } } ∧
      exec (.timeLinkAsymWrite n v) s = .next { s with time := { s.time with paramErr := true } })

/-- The display and lane windows: live addresses, FRAME_COUNT, staged calibration words, loading a record, and FEC counters (R281, R282,
R360, R361). -/
def Obligations.DisplayAndLaneWindowRegisters : Prop :=
  (∀ (s : State) (i : Fin 4) (k : Fin 8) (v : DWord),
    let new := v.toNat / 64 % 2 ^ 32 * 64 + v.toNat % 2
    (∀ (l : DispLayer) (b : List Byte), s.directLayer i.val k.val = some (l, b) → (v.toNat % 2 = 0 ∨ s.directFits b (new / 64 * 64) = true) →
      ∃ t : State, exec (.liveAddrWrite i k none v) s = .next t ∧
        (t.disp.regs[i]).addr[k] = BitVec.ofNat 64 new ∧ (∀ j : Fin 4, j ≠ i → t.disp.regs[j] = s.disp.regs[j]) ∧ Only [.disp] s t) ∧
    (s.directLayer i.val k.val = none → ∃ t : State, exec (.liveAddrWrite i k none v) s = .next t ∧ (t.disp.regs[i]).paramErr = true ∧
        (t.disp.regs[i]).addr = (s.disp.regs[i]).addr ∧ Only [.disp] s t) ∧
    (∀ h : DispHead, s.disp.heads[i] = some h → ∃ t : State, exec (.frameCountRead i) s = .next t ∧
        t.out = .readData ((h.count - 1) % 2 ^ 32) :: s.out ∧ (t.disp.regs[i]).tsCopy = h.start / 65536 ∧ t.disp.heads = s.disp.heads ∧
        Only [.disp, .out] s t)) ∧
  (∀ (s : State) (n : Fin 32) (w : Fin 128) (v : DWord),
    let x := s.lanes.lanes[n]
    (x.staged.length = 512 → ∃ t : State, exec (.calValWrite n w false v) s = .next t ∧
      t.lanes.lanes = s.lanes.lanes.set n { x with staged := patch x.staged (4 * w.val) (leBytes 4 v.toNat) } ∧ Only [.lanes] s t) ∧
    (x.state = .off ∨ x.state = .diag → recordOk n x.staged = true → s.lanes.freeSpare (n.val / 4) ≠ some n.val →
      ∃ t : State, exec (.laneApply n) s = .next t ∧ t.lanes.lanes = s.lanes.lanes.set n { x with calVal := x.staged, restored := true } ∧ Only [.lanes] s t) ∧
    (x.state = .active → ∃ t : State, exec (.laneApply n) s = .next t ∧ t.lanes.lanes = s.lanes.lanes.set n { x with paramErr := true } ∧ Only [.lanes] s t) ∧
    (∃ t : State, exec (.fecCorrRead n) s = .next t ∧ t.out = .readData x.fecCorr.toNat :: s.out ∧
      t.lanes.lanes = s.lanes.lanes.set n { x with fecCorr := 0 } ∧ Only [.lanes, .out] s t) ∧
    (∃ t : State, exec (.fecUncorrRead n) s = .next t ∧ t.out = .readData x.fecUncorr.toNat :: s.out ∧
      t.lanes.lanes = s.lanes.lanes.set n { x with fecUncorr := 0 } ∧ Only [.lanes, .out] s t))

/-- SMBus and MCTP answer while the responder is up: the alert response, the endpoint identifier and the health, monitor and log requests
(R429, R430). -/
def Obligations.SideBandRequestsAreAnswered : Prop :=
  ∀ (s : State) (eid : Byte) (n : Fin 72), s.power.phase ≠ .off →
    (s.alertLow = true → exec .alertResponse s = .next { s with out := .smbus [BitVec.ofNat 8 (2 * s.smbAddress)] :: s.out }) ∧
    (∃ t : State, exec (.setEndpointId eid) s = .next t ∧ t.mgmt = { s.mgmt with smb := { s.mgmt.smb with eid := eid.toNat } } ∧
      Only [.mgmt, .out] s t) ∧
    exec .mctpHealthRequest s = .next { s with out := .mctp s.healthRecord :: s.out } ∧
    exec (.mctpMonitorRequest n.val) s = .next { s with out := .mctp (s.mgmt.monitors[n].bytes n.val) :: s.out } ∧
    (∀ (seq : Nat) (e : LogEntry), s.mgmt.errors.entries.find? (fun e => e.seq.toNat == seq) = some e →
      exec (.mctpLogRequest seq) s = .next { s with out := .mctp e.bytes :: s.out }) ∧
    (∃ bs, exec .getEndpointId s = .next { s with out := .mctp bs :: s.out }) ∧
    (∃ bs, exec .getMctpVersionSupport s = .next { s with out := .mctp bs :: s.out }) ∧
    (∃ bs, exec .getMessageTypeSupport s = .next { s with out := .mctp bs :: s.out })

/-! ## The memory system (chapter 12) -/

/-- The place that BUF_ALLOC takes is free, aligned, inside the heap, and the lowest such address (R317, R320). -/
def Obligations.BufferPlacementIsTheLowestFreeRange : Prop :=
  ∀ (m : MemSt) (size align : Nat), 1 ≤ size → 1 ≤ align →
    let fits (a : Nat) : Prop := a % align = 0 ∧ Config.heapBase ≤ a ∧ a + size ≤ Config.heapEnd ∧
      ∀ b ∈ m.blocked, overlaps a size b.1 b.2 = false
    (∀ a, m.lowestFree size align = some a → fits a ∧ ∀ x, fits x → a ≤ x) ∧
    (m.lowestFree size align = none → ∀ x, ¬ fits x)

/-- BUF_ALLOC makes the buffer that its parameters name, zeroed under ZERO, and BUF_FREE removes a buffer that is not in use (R320, R321). -/
def Obligations.BufAllocAndBufFree : Prop :=
  ∀ (c : Cmd) (s : State),
    let n := roundUp (par64 c 0) 4096
    let al := par c 2 % 32
    let h := s.nextHandle 1
    (Accepted .bufAlloc c s → 1 ≤ par64 c 0 → par64 c 0 ≤ 0x2060000000 → (al = 0 ∨ (12 ≤ al ∧ al ≤ 30)) → s.mem.buffers.length < 65536 →
      ∀ a, s.mem.lowestFree n (2 ^ (if al = 0 then 12 else al)) = some a →
        (s.stopping (ref .bufAlloc c) = true → ∃ u : State, exec (.bufAlloc c) s = .next (u.complete (ref .bufAlloc c) .aborted 0 0 false) ∧
          u.mem.buffers = s.mem.buffers ∧ (∀ x, x < a ∨ a + n ≤ x → u.mem.mem.byte x = s.mem.mem.byte x) ∧ Only [.bytes, .fresh, .fabric] s u) ∧
        (s.stopping (ref .bufAlloc c) = false → ∃ u : State, exec (.bufAlloc c) s = .next (u.complete (ref .bufAlloc c) .ok h.toNat (a / 4096) false) ∧
          u.mem.buffers = s.mem.buffers ++ [{ handle := h, base := a, size := n }] ∧
          (par c 2 / 256 % 2 = 1 → ∀ x, a ≤ x → x < a + n → u.mem.mem.byte x = 0) ∧
          (par c 2 / 256 % 2 = 0 → u.mem.mem = s.mem.mem) ∧
          (∀ x, x < a ∨ a + n ≤ x → u.mem.mem.byte x = s.mem.mem.byte x) ∧ Only [.memory, .bytes, .issued, .fabric] s u)) ∧
    (Accepted .bufFree c s → ∀ b, s.buffer c.handle = some b →
      (s.bufferInUse b = false → s.mem.pendingRet = [] → exec (.bufFree c) s =
        .next (({ s with mem := { s.mem with buffers := s.mem.buffers.filter (fun x => x.handle != c.handle) } } : State).complete
          (ref .bufFree c) .ok 0 0 false)) ∧
      (s.bufferInUse b = true → exec (.bufFree c) s = .next (s.complete (ref .bufFree c) .notReady 0x30 0 false)))

/-- BUF_COPY and BUF_FILL store exactly their bytes, and carry or clear poison marks line by line (R322, R323). -/
def Obligations.BufCopyAndBufFillStoreTheirBytes : Prop :=
  ∀ (c : Cmd) (s : State), Inv s →
    (Accepted .bufCopy c s → ∀ (x y : Buffer) (sa da : Nat),
      let n := par64 c 4
      s.buffer c.handle = some x → s.buffer c.aux = some y → needInBuffer s x (par64 c 0) n = .ok sa → needInBuffer s y (par64 c 2) n = .ok da →
      ¬ (c.handle = c.aux ∧ n ≠ 0 ∧ overlaps sa n da n = true) → needUnpinned s da n = .ok () →
      (s.stopping (ref .bufCopy c) = true → ∃ (u : State) (k : Nat), exec (.bufCopy c) s = .next (u.complete (ref .bufCopy c) .aborted k 0 false) ∧
        k ≤ ceilDiv n 0x100000 ∧ let z := Nat.min n (k * 0x100000)
        u.mem.mem.read da z = s.mem.mem.read sa z ∧ (∀ k, k < da ∨ da + z ≤ k → u.mem.mem.byte k = s.mem.mem.byte k) ∧ Only [.bytes, .fresh, .fabric] s u) ∧
      (s.stopping (ref .bufCopy c) = false → ∃ u : State, exec (.bufCopy c) s = .next (u.complete (ref .bufCopy c) .ok (n % 2 ^ 32) (u.mem.mem.marksIn da n).length false) ∧
        u.mem.mem.read da n = s.mem.mem.read sa n ∧ (∀ k, k < da ∨ da + n ≤ k → u.mem.mem.byte k = s.mem.mem.byte k) ∧
        (∀ l, coversLine da n l = true → (u.mem.mem.marked (l * 64) = true ↔ suppliesMark s.mem.mem sa da n l = true)) ∧
        Only [.bytes, .fabric] s u)) ∧
    (Accepted .bufFill c s → ∀ (x : Buffer) (a : Nat),
      let n := par64 c 2
      s.buffer c.handle = some x → par64 c 0 % 4 = 0 → n % 4 = 0 → needInBuffer s x (par64 c 0) n = .ok a → needUnpinned s a n = .ok () →
      (s.stopping (ref .bufFill c) = true → ∃ (u : State) (k : Nat), exec (.bufFill c) s = .next (u.complete (ref .bufFill c) .aborted k 0 false) ∧
        k ≤ ceilDiv n 0x100000 ∧ let z := Nat.min n (k * 0x100000)
        (∀ i, i < z → u.mem.mem.byte (a + i) = BitVec.ofNat 8 (par c 4 / 256 ^ (i % 4))) ∧
        (∀ k, k < a ∨ a + z ≤ k → u.mem.mem.byte k = s.mem.mem.byte k) ∧ Only [.bytes, .fresh, .fabric] s u) ∧
      (s.stopping (ref .bufFill c) = false → ∃ u : State, exec (.bufFill c) s = .next (u.complete (ref .bufFill c) .ok (n % 2 ^ 32) 0 false) ∧
        (∀ i, i < n → u.mem.mem.byte (a + i) = BitVec.ofNat 8 (par c 4 / 256 ^ (i % 4))) ∧
        (∀ k, k < a ∨ a + n ≤ k → u.mem.mem.byte k = s.mem.mem.byte k) ∧
        (∀ l, coversLine a n l = true → u.mem.mem.marked (l * 64) = false) ∧ Only [.bytes, .fabric] s u))

/-- BUF_CHECK completes with the CRC-32C of its range, with CHECK_MISMATCH, or with DATA_POISONED, and stores nothing (R322, R323). -/
def Obligations.BufCheckComparesTheCrc : Prop :=
  ∀ (c : Cmd) (s : State), Accepted .bufCheck c s → ∀ (x : Buffer) (a : Nat),
    let n := par64 c 2
    let crc := crc32c (s.mem.mem.read a n)
    s.buffer c.handle = some x → needInBuffer s x (par64 c 0) n = .ok a →
    (s.stopping (ref .bufCheck c) = true → ∃ (u : State) (k : Nat), exec (.bufCheck c) s = .next (u.complete (ref .bufCheck c) .aborted k 0 false) ∧
      k ≤ ceilDiv n 0x100000 ∧ Only [.fresh, .fabric] s u) ∧
    (s.stopping (ref .bufCheck c) = false → (∀ l, s.mem.mem.poisonIn a n = some l →
      exec (.bufCheck c) s = .next (s.complete (ref .bufCheck c) .dataPoisoned (l % 2 ^ 32) (l / 2 ^ 32) false)) ∧
    (s.mem.mem.poisonIn a n = none → (par c 5 % 2 = 0 ∨ crc = par c 4) → ∃ u : State,
      exec (.bufCheck c) s = .next (u.complete (ref .bufCheck c) .ok crc 0 false) ∧ Only [.fabric] s u) ∧
    (s.mem.mem.poisonIn a n = none → par c 5 % 2 = 1 → crc ≠ par c 4 → ∃ u : State,
      exec (.bufCheck c) s = .next (u.complete (ref .bufCheck c) .checkMismatch crc (par c 4) false) ∧ Only [.fabric] s u))

/-- MEM_SET_SPEED completes at once at the speed in force, else starts a change that moves the stacks in order (R328, R329). -/
def Obligations.SpeedChangesMoveTheStacksInOrder : Prop :=
  (∀ (c : Cmd) (s : State), Accepted .memSetSpeed c s →
    let v := par c 0 % 4
    let target := if s.power.cur = .ps0 then v else Nat.max 1 v
    v ≠ 3 → s.mem.change = none → s.power.moving = none → (∀ r ∈ s.mem.retired, r.copying = false) → s.power.throttled = false →
    ((∀ i : Fin 4, s.mem.speeds[i] = target) → exec (.memSetSpeed c) s =
      .next (({ s with mem := { s.mem with setSpeed := v } } : State).complete (ref .memSetSpeed c) .ok target 0 false)) ∧
    ((∃ i : Fin 4, s.mem.speeds[i] ≠ target) → exec (.memSetSpeed c) s =
      let ch : SpeedChange := { target := target, next := 0, waived := false, by_ := [ref .memSetSpeed c] }
      .next (({ s with mem := { s.mem with setSpeed := v, change := some ch } } : State).keepInFlight (ref .memSetSpeed c)))) ∧
  (∀ (s : State) (ch : SpeedChange) (k : Fin 4), s.mem.change = some ch → ch.next = k.val →
    ((ch.waived = true ∨ 25000 ≤ s.slack) → ∃ t : State, exec (.stackSpeedChange k) s = .next t ∧
      (∀ i : Fin 4, t.mem.speeds[i] = if i.val = ch.next then ch.target else s.mem.speeds[i]) ∧
      (∀ p : Fin 128, (t.mem.pcs[p]).postponed = if p.val / 32 = ch.next then 0 else (s.mem.pcs[p]).postponed) ∧
      (ch.next < 3 → t.mem.change = some { ch with next := ch.next + 1 } ∧ Only [.memory] s t) ∧
      (ch.next = 3 → t.mem.change = none ∧ Only [.memory, .power, .host, .mgmt] s t)) ∧
    (ch.waived = false → s.slack < 25000 → ∃ t : State, exec (.stackSpeedChange k) s = .next t ∧ t.mem.speeds = s.mem.speeds ∧
      t.mem.change = s.mem.change ∧ Only [.memory] s t))

/-- Fabric transactions take tags by class and are served by class; refresh under them is postponed, forced or issued as Table 12-5 says
(R13, R14, R16, R17, R24, R325, R326). -/
def Obligations.RefreshFollowsTheTable : Prop :=
  (∀ (f : FabSt) (home : Nat → Nat) (ticks ns : Nat) (r : FabReq),
    let x := f.issueOne home ticks ns r
    let used (i : Nat) : Prop := ∃ t ∈ f.txns, t.tag = i
    let lies (p : Nat × Nat) (i : Nat) : Prop := p.1 ≤ i ∧ i < p.1 + p.2
    let c := r.cls ns
    (r.src.cls = .frame → ∀ d, r.due = some d → d < ns + 200000 → c = .live) ∧
    ((x = (f, some r) ∧ (∀ i, lies c.reserve i → used i) ∧ (∀ i, lies sharedPool i → used i)) ∨
      (∃ t : FabTxn, x.1 = { f with txns := f.txns ++ [t] } ∧ t.cls = c ∧ t.role = r.role ∧ t.epoch = r.epoch ∧ t.bytes ≤ 256 ∧ ¬ used t.tag ∧
        (lies c.reserve t.tag ∨ (lies sharedPool t.tag ∧ ∀ i, lies c.reserve i → used i))))) ∧
  (∀ f : FabSt, (∀ t ∈ f.nextServed, t ∈ f.txns ∧ ∀ u ∈ f.txns, u.pc = t.pc → t.cls.code ≤ u.cls.code) ∧
    (∀ t ∈ f.nextServed, ∀ u ∈ f.nextServed, t.pc = u.pc → t = u)) ∧
  (∀ (s : State) (t : FabTxn), t.epoch ≠ s.fabEpoch t.role → ∃ u : State, s.serveOne t = u ∧ u.fab.served = s.fab.served ∧
    u.mgmt.errors.next = (s.mgmt.errors.next + 1) % 2 ^ 32 ∧ Only [.fabric, .mgmt] s u) ∧
  ∀ (s : State) (k : Fin 4) (i : Fin 32), (s.mem.pcs[pcAt k i]).state ≠ .retired → s.power.cur ≠ .ps2 → s.power.cur ≠ .ps3 →
    let p := pcAt k i
    let n := (s.mem.pcs[p]).postponed
    let pending := ∃ t ∈ s.fab.txns, t.pc = p.val ∧ (t.cls = .live ∨ t.cls = .frame)
    let alone (t : State) : Prop := (∀ q : Fin 128, q ≠ p → t.mem.pcs[q] = s.mem.pcs[q]) ∧ Only [.memory] s t
    (pending → n < 8 → ∃ t : State, exec (.refreshDue k i) s = .next t ∧ (t.mem.pcs[p]).postponed = n + 1 ∧
      t.mem.cnt = { s.mem.cnt with postponed := s.mem.cnt.postponed.satInc } ∧ alone t) ∧
    (pending → n = 8 → ∃ t : State, exec (.refreshDue k i) s = .next t ∧ t.mem.pcs[p] = s.mem.pcs[p] ∧
      t.mem.cnt = { s.mem.cnt with forced := s.mem.cnt.forced.satInc } ∧ alone t) ∧
    (¬ pending → ∃ t : State, exec (.refreshDue k i) s = .next t ∧ (t.mem.pcs[p]).postponed = n - 1 ∧ t.mem.cnt = s.mem.cnt ∧ alone t) ∧
    (6 ≤ n → (∀ ch, s.mem.change = some ch → ch.next ≠ k.val) → 25000 ≤ s.slack → ∃ t : State,
      exec (.makeUpBurst k i) s = .next t ∧ (t.mem.pcs[p]).postponed = 0 ∧ alone t)

/-- A retraining slot repairs a candidate row, retrains, or is deferred, and a deferred retraining runs once the measured slack allows it
(R18, R324, R327, R340, R341). -/
def Obligations.RetrainingSlotsRepairRetrainOrDefer : Prop :=
  ∀ (s : State) (k : Fin 4) (i : Fin 32), (s.mem.pcs[pcAt k i]).state ≠ .retired → s.power.cur ≠ .ps2 → s.power.cur ≠ .ps3 →
    let p := pcAt k i
    let x := s.mem.pcs[p]
    let allowed := (∀ ch, s.mem.change = some ch → ch.next ≠ k.val) ∧ 25000 ≤ s.slack
    let others (t : State) : Prop := ∀ q : Fin 128, q ≠ p → t.mem.pcs[q] = s.mem.pcs[q]
    (x.retrainDue = false → ¬ allowed → ∀ eye, ∃ t : State, exec (.retrainingSlot k i eye) s = .next t ∧ t.mem.pcs[p] = { x with retrainDue := true } ∧
      t.mem.cnt = { s.mem.cnt with deferred := s.mem.cnt.deferred.satInc } ∧ others t ∧ Only [.memory] s t) ∧
    (x.retrainDue = false → allowed → s.mgmt.policy.pprEn = true → x.repairedLast = false → ∀ r eye,
      x.candidates.find? (fun c => x.used c.bank < 2) = some r → ∃ t : State, exec (.retrainingSlot k i eye) s = .next t ∧
        (t.mem.pcs[p]).candidates = x.candidates.filter (· != r) ∧ (t.mem.pcs[p]).used r.bank = x.used r.bank + 1 ∧
        (t.mem.pcs[p]).repairedLast = true ∧ t.mem.cnt = { s.mem.cnt with pprDone := s.mem.cnt.pprDone.satInc } ∧ others t ∧
        Only [.memory, .mgmt, .out, .fabric] s t) ∧
    (x.retrainDue = false → allowed → x.candidates.find? (fun c => x.used c.bank < 2) = none → ∃ t : State, exec (.retrainingSlot k i true) s = .next t ∧
      t.mem.pcs[p] = { x with failures := 0, retrainDue := false, skips := 0, repairedLast := false } ∧ t.mem.cnt = s.mem.cnt ∧ others t ∧
      Only [.memory] s t) ∧
    (x.retrainDue = true → allowed → ∃ t : State, exec (.retrainRetry k i true) s = .next t ∧
      t.mem.pcs[p] = { x with failures := 0, retrainDue := false, skips := 0, repairedLast := false } ∧ others t ∧ Only [.memory] s t) ∧
    (s.cameraRunning = false → s.slack = 100000) ∧
    (∀ got, s.cameraRunning = true → got = sumNat ((s.cams.ingest.filter (fun y => y.1 + 4000 ≥ s.time.ticks)).map (fun y => y.2)) → 0 < got →
      s.slack = Nat.min 100000 ((6291456 - s.lineStore) * 10000 / got))

/-- Scrub reads count and mark errors, tallies leak, and the stacks' own reports count as corrected errors (R330, R332, R335, R336). -/
def Obligations.ScrubAndTallies : Prop :=
  ∀ (s : State) (line row bank region : Nat),
    let p : Fin 128 := Fin.ofNat 128 (s.pcOf (line * 64))
    let x := s.mem.pcs[p]
    let cap := s.mgmt.policy.tallyCap
    region < 64 →
    (x.state ≠ .retired → s.power.cur ≠ .ps2 → s.power.cur ≠ .ps3 → line ∉ s.mem.mem.marks →
      (∃ t : State, exec (.scrubRead line row bank region 0 false) s = .next t ∧ Only [.fabric] s t) ∧
      (∃ t : State, exec (.scrubRead line row bank region 2 false) s = .next t ∧ line ∈ t.mem.mem.marks ∧
        (∀ a, (a < line * 64 ∨ line * 64 + 64 ≤ a) → t.readMem a 1 = s.readMem a 1) ∧
        t.mem.cnt.uncorrectable = s.mem.cnt.uncorrectable.satInc ∧ Only [.memory, .bytes, .mgmt, .host, .fabric, .fresh] s t) ∧
      (x.watch.find? (fun w => w.row == row && w.bank == bank) = none → (vget x.tallies Tally.zero region).count + 1 ≤ cap →
        ∃ t : State, exec (.scrubRead line row bank region 1 false) s = .next t ∧ t.mem.cnt.corrected = s.mem.cnt.corrected.satInc ∧
          (vget (t.mem.pcs[p]).tallies Tally.zero region).count = (vget x.tallies Tally.zero region).count + 1 ∧
          Only [.memory, .mgmt, .fabric] s t)) ∧
    (∀ q : Fin 128, ∃ t : State, exec (.tallyLeak q region) s = .next t ∧
      (vget (t.mem.pcs[q]).tallies Tally.zero region).count = (vget (s.mem.pcs[q]).tallies Tally.zero region).count - 1 ∧
      (∀ r : Fin 128, r ≠ q → t.mem.pcs[r] = s.mem.pcs[r]) ∧ Only [.memory] s t) ∧
    (∀ (q : Fin 128) (n : Nat), (vget (s.mem.pcs[q]).tallies Tally.zero region).count + n ≤ cap →
      ∃ t : State, exec (.onDieEccPoll [(q, region, n)]) s = .next t ∧
        (vget (t.mem.pcs[q]).tallies Tally.zero region).count = (vget (s.mem.pcs[q]).tallies Tally.zero region).count + n ∧
        (∀ r : Fin 128, r ≠ q → t.mem.pcs[r] = s.mem.pcs[r]) ∧ Only [.memory] s t)

/-- The retirement of a dead pseudo-channel takes the highest range not yet retired and ends when its copy is done (R343, R344). -/
def Obligations.RetirementTakesTheHighestRange : Prop :=
  ∀ (s : State) (p : Fin 128),
    let base := 0x2400000000 - 0x48000000 * (s.mem.retired.length + 1)
    (s.mem.change = none → p.val ∈ s.mem.deadPcs → p.val ∉ s.mem.pendingRet →
      ((∀ b ∈ s.mem.buffers, overlaps base 0x48000000 b.base b.size = false) → ∃ t : State, exec (.pcRetirement p) s = .next t ∧
        t.mem.retired = s.mem.retired ++ [{ pc := p.val, base := base, copying := true }] ∧ (t.mem.pcs[p]).state = .retiring ∧
        Only [.memory, .fabric] s t) ∧
      ((∃ b ∈ s.mem.buffers, overlaps base 0x48000000 b.base b.size = true) → ∃ t : State, exec (.pcRetirement p) s = .next t ∧
        t.mem.retired = s.mem.retired ∧ (t.mem.pcs[p]).state = .retirePending ∧ p.val ∈ t.mem.pendingRet ∧ Only [.memory, .mgmt, .host] s t)) ∧
    (∀ lost : List Nat, (∃ r ∈ s.mem.retired, r.pc = p.val ∧ r.copying = true) → ∃ t : State, exec (.retirementCopyDone p lost) s = .next t ∧
      (∀ r ∈ t.mem.retired, r.pc = p.val → r.copying = false) ∧ (t.mem.pcs[p]).state = .retired ∧ (∀ l ∈ lost, l ∈ t.mem.mem.marks) ∧
      (∀ a, (∀ l ∈ lost, a < l * 64 ∨ l * 64 + 64 ≤ a) → t.readMem a 1 = s.readMem a 1) ∧ Only [.memory, .bytes, .mgmt, .host, .fabric, .fresh] s t)

/-! ## Power states, supplies, resets and boot (chapters 02, 16, 17) -/

/-- PWR_SET_STATE checks the entry of a state, and enters it or leaves everything as it is (R64, R328, R329). -/
def Obligations.PwrSetStateChecksTheEntry : Prop :=
  ∀ (c : Cmd) (s : State), Accepted .pwrSetState c s → s.power.throttled = false →
    let v := par c 0 % 4
    let others := (if (s.queue c.qid).inFlight.any (Flying.is (ref .pwrSetState c)) then 1 else 0) < s.outstandingAll
    (v = 1 → (38400 < s.admittedRate ∨ 2400 < s.maxShare) →
      exec (.pwrSetState c) s = .next (s.complete (ref .pwrSetState c) .budgetExceeded s.admittedRate s.maxShare false)) ∧
    (2 ≤ v → s.anythingRunning = true → exec (.pwrSetState c) s = .next (s.complete (ref .pwrSetState c) .notReady 0xF0 0 false)) ∧
    (2 ≤ v → s.anythingRunning = false → others → exec (.pwrSetState c) s = .next (s.complete (ref .pwrSetState c) .notReady 0xF1 0 false)) ∧
    (2 ≤ v → s.anythingRunning = false → ¬ others → ∃ u : State, exec (.pwrSetState c) s = .next (u.complete (ref .pwrSetState c) .ok v 0 false) ∧
      u.power.oper = psOf v ∧ u.power.cur = psOf v ∧ Only [.power, .memory, .lanes, .out, .host, .mgmt] s u) ∧
    (v = 1 → s.admittedRate ≤ 38400 → s.maxShare ≤ 2400 → s.power.cur = .ps0 → s.mem.change = none →
      (∃ i : Fin 4, s.mem.speeds[i] ≠ Nat.max 1 s.mem.setSpeed) →
      ∃ u : State, exec (.pwrSetState c) s = .next (u.keepInFlight (ref .pwrSetState c)) ∧ u.power.oper = .ps1 ∧ u.power.cur = .ps1 ∧
        u.mem.change = some { target := Nat.max 1 s.mem.setSpeed, next := 0, waived := false, by_ := [ref .pwrSetState c] } ∧
        Only [.power, .memory, .host, .mgmt] s u)

/-- The idle timers: PWR_SET_IDLE_TIMERS sets them, and an expiry enters a permitted state whose check holds and never another (R65, Table
02-22). -/
def Obligations.IdleTimersEnterPermittedStates : Prop :=
  (∀ (c : Cmd) (s : State), Accepted .pwrSetIdleTimers c s → par c 1 ≤ 3600000 → par c 2 ≤ 3600000 → par c 3 ≤ 3600000 →
    ∃ u : State, exec (.pwrSetIdleTimers c) s = .next (u.complete (ref .pwrSetIdleTimers c) .ok 0 0 false) ∧
      (∀ i : Fin 3, u.power.permitted[i] = bitOf (par c 0) (i.val + 1)) ∧
      (∀ i : Fin 3, u.power.timers[i] = if par c (i.val + 1) = 0 then s.power.timers[i] else par c (i.val + 1)) ∧
      u.power.cur = s.power.cur ∧ u.power.oper = s.power.oper ∧ Only [.power] s u) ∧
  (∀ (s : State) (n : Fin 3), s.ready = true → s.idle = true →
    (s.power.permitted[n] = true → s.power.cur.code < n.val + 1 → s.entryHolds (psOf (n.val + 1)) = true →
      (∀ m : Fin 3, n < m → ¬ (s.power.permitted[m] = true ∧ s.host.expired[m] = true)) →
      ∃ t : State, exec (.idleTimerExpiry n) s = .next t ∧ t.power.cur = psOf (n.val + 1) ∧ t.power.oper = s.power.oper) ∧
    ((∀ m : Fin 3, s.power.cur.code < m.val + 1 → s.power.permitted[m] = false) →
      ∃ t : State, exec (.idleTimerExpiry n) s = .next t ∧ t.power.cur = s.power.cur ∧ Only [.host] s t))

/-- Throttle, its end, the thermal trip and a VDD_CORE failure set their flags, post THERMAL, and take the core domain down (R405, R461,
R462). -/
def Obligations.ThrottleTripAndCoreFailure : Prop :=
  ∀ (s : State) (n : Fin 24),
    (s.power.phase = .running → s.power.throttled = false → ∃ u : State, exec (.thermalThrottle n) s = .next (u.post .thermal (BitVec.ofNat 32 (2 ^ 31 + n.val))) ∧
      u.power.throttled = true ∧ u.power.throttles = s.power.throttles.satInc ∧ u.mgmt.smb.throttle = true ∧
      ((∃ i : Fin 4, s.mem.speeds[i] = 0) → ∃ ch, u.mem.change = some ch ∧ ch.target = 1) ∧ Only [.power, .memory, .mgmt] s u) ∧
    (s.power.throttled = true → ∃ u : State, exec .throttleEnd s = .next (u.post .thermal (BitVec.ofNat 32 s.power.hotSensor)) ∧
      u.power.throttled = false ∧ u.mgmt.smb.throttle = false ∧ u.mem.setSpeed = s.power.defSpeed.getD s.mem.setSpeed ∧
      u.power.oper = s.power.defState.getD s.power.oper ∧ (∀ p, s.power.defState = some p → u.power.cur = p)) ∧
    (s.power.phase ≠ .off → s.power.phase ≠ .inReset → ∃ t : State, exec (.thermalTrip n) s = .next t ∧ t.out = .thermTrip :: s.out ∧
      t.power.phase = .coreDown ∧ t.power.tripped = true ∧ t.mem.mem = { cells := [], marks := [] } ∧
      t.mgmt.errors.next = (s.mgmt.errors.next + 1) % 2 ^ 32 ∧ Only [.power, .bytes, .mgmt, .out] s t) ∧
    (s.power.phase ≠ .off → ∃ t : State, exec .vddCoreFailure s = .next t ∧ t.power.phase = .coreDown ∧ t.mgmt.smb.coreDown = true ∧
      t.mgmt.smb.ready = false ∧ t.mgmt.errors.next = (s.mgmt.errors.next + 1) % 2 ^ 32 ∧ Only [.power, .mgmt, .out] s t)

/-- A power-up, a power-down and a device reset leave no object, keep the policy and the firmware banks, and only a device reset keeps the
counter (R370, R443, R447, R448, R454). -/
def Obligations.ResetsLeaveNoObject : Prop :=
  ∀ (s : State) (rate width : Nat),
    let bare (t : State) (ph : Phase) : Prop := t.power.phase = ph ∧ t.host = HostSt.reset ∧ t.mem.buffers = [] ∧ t.mem.mem.cells = [] ∧
      t.cams = CamsSt.reset ∧ t.encs = [] ∧ t.dec = DecSt.reset ∧ t.cmp = CmpSt.reset ∧ t.recs = [] ∧ t.aud = AudSt.reset ∧ t.disp = DispSt.reset ∧
      t.jm = JmSt.reset ∧ t.fab = FabSt.reset ∧ t.mgmt.errors = { next := 1, entries := [] } ∧ t.mgmt.events = { next := 1, entries := [] } ∧
      t.mgmt.policy = s.mgmt.policy ∧ t.mgmt.fw.bankA = s.mgmt.fw.bankA ∧ t.mgmt.fw.bankB = s.mgmt.fw.bankB ∧
      t.mgmt.fw.rollback = s.mgmt.fw.rollback ∧ t.out = .allHighZ :: s.out ∧ t.dev = s.dev
    (∃ t : State, exec .powerUp s = .next t ∧ bare t .inReset ∧ t.time.now = 0) ∧
    (∃ t : State, exec .powerDown s = .next t ∧ bare t .off ∧ t.time.now = 0) ∧
    (s.power.phase ≠ .off → ∃ t : State, exec .deviceReset s = .next t ∧ bare t .inReset ∧ t.time.now = s.time.now ∧ t.time.sub = s.time.sub) ∧
    exec .tapReset s = .next s ∧
    (s.power.phase ≠ .off → s.power.phase ≠ .coreDown → ∃ t : State, exec (.pcieLinkTraining rate width) s = .next t ∧ t.power.linkTrained = true ∧
      t.power.perstHigh = true ∧ t.out = (if width < 8 then .aer true :: s.out else s.out) ∧ Only [.power, .out] s t)

/-- BOOT runs the first bootable bank in the order of the boot ROM, or enters recovery (R451, R452, R453). -/
def Obligations.BootChoosesItsBank : Prop :=
  ∀ (s : State) (a b : Nat) (units : List (UnitKind × Nat)) (pcs : List Nat) (remaps answered : List (Nat × Nat)), s.power.phase = .inReset →
    let f := s.mgmt.fw
    let first := if f.trial then 1 - f.trialBank else f.bootBank
    let good (n : Nat) : Prop := (f.bank n).empty = false ∧ (f.bank n).failed = false ∧ (if n = 0 then a else b) = 0
    let runs (t : State) (n : Nat) : Prop := t.power.phase = .running ∧ t.mgmt.smb.ready = true ∧ t.mgmt.fw.active = n ∧ t.mgmt.fw.trial = false ∧
      t.time.now = s.time.now
    (good first → ∃ t : State, exec (.boot true a b units pcs remaps answered) s = .next t ∧ runs t first ∧ t.mgmt.fw.bootBank = f.bootBank) ∧
    (¬ good first → good (1 - first) → ∃ t : State, exec (.boot true a b units pcs remaps answered) s = .next t ∧ runs t (1 - first) ∧
      t.mgmt.fw.bootBank = 1 - first) ∧
    (¬ good first → ¬ good (1 - first) → ∃ t : State, exec (.boot true a b units pcs remaps answered) s = .next t ∧ t.power.phase = .recovery ∧
      t.mgmt.fw.trial = false ∧ t.time.now = s.time.now) ∧
    (∃ t : State, exec (.boot false a b units pcs remaps answered) s = .next t ∧ t.power.phase = .recovery)

/-! ## Chandler: firmware, monitors, policy, health, units and the pair (chapter 16) -/

/-- FW_DOWNLOAD stages its chunk; FW_COMMIT checks the staged image in order and writes the bank that is not active (R420, R421, R422,
R423, R450). -/
def Obligations.FirmwareIsStagedAndCommitted : Prop :=
  ∀ (c : Cmd) (s : State), Inv s →
    let f := s.mgmt.fw
    (∀ b : Buffer, Accepted .fwDownload c s → c.ptrSpace = 1 → typeOf c.aux = 1 → s.buffer c.aux = some b →
      rangeFault s c.ptr.toNat c.ptrLen.toNat (some (b.base, b.size)) = none → par c 0 + c.ptrLen.toNat ≤ stagingSize →
      s.mem.mem.poisonIn c.ptr.toNat c.ptrLen.toNat = none →
      let top := Nat.max (if bitOf (par c 1) 0 then 0 else f.stagedTop) (par c 0 + c.ptrLen.toNat)
      ∃ u : State, exec (.fwDownload c) s = .next (u.complete (ref .fwDownload c) .ok top 0 false) ∧ u.mgmt.fw.stagedTop = top ∧
        u.mgmt.fw.staged = (if bitOf (par c 1) 0 then [] else f.staged) ++ [(par c 0, c.ptrLen.toNat)] ∧
        u.readMem (stagingBase + par c 0) c.ptrLen.toNat = s.readMem c.ptr.toNat c.ptrLen.toNat ∧
        (∀ a, a < stagingBase + par c 0 ∨ stagingBase + par c 0 + c.ptrLen.toNat ≤ a → u.mem.mem.byte a = s.mem.mem.byte a) ∧
        Only [.bytes, .mgmt] s u) ∧
    (∀ sig ver : Bool, Accepted .fwCommit c s → bitsOf (par c 0) 1 0 = 0 → c.ptr = 0 → c.ptrLen = 0 → c.ptrSpace = 0 →
      s.host.activation = none → 256 ≤ coveredTo f.staged f.staged.length 0 →
      let h := s.readMem stagingBase 256
      let len := f32 h 0x10
      let fails (st : Status) (r0 : Nat) : Prop := exec (.fwCommit c sig ver) s = .next (s.complete (ref .fwCommit c) st r0 0 false)
      let whole := f32 h 0x00 = 0x57464B50 ∧ 256 ≤ len ∧ len ≤ stagingSize ∧ f32 h 0x14 ≤ 393216
      let here := len ≤ coveredTo f.staged f.staged.length 0
      let fits := f16 h 0x08 = 0x4896 ∧ f16 h 0x0A = 0x00B0
      (¬ whole → fails .firmwareRejected 1) ∧ (whole → ¬ here → fails .notReady 0xE0) ∧ (whole → here → sig = false → fails .firmwareRejected 2) ∧
      (whole → here → sig = true → f8 h 0x0C < f.rollback → fails .firmwareRejected 3) ∧
      (whole → here → sig = true → f.rollback ≤ f8 h 0x0C → ¬ fits → fails .firmwareRejected 4) ∧
      (whole → here → sig = true → f.rollback ≤ f8 h 0x0C → fits → ver = true → ∃ u : State,
        exec (.fwCommit c sig ver) s = .next (u.complete (ref .fwCommit c) .ok s.commitBank (f32 h 0x04) false) ∧ s.commitBank = 1 - f.active ∧
        u.mgmt.fw.bank s.commitBank = { empty := false, failed := false, version := f32 h 0x04, svn := f8 h 0x0C, handoff := f8 h 0x0D, length := len } ∧
        (s.commitBank = 0 → u.mgmt.fw.bankB = f.bankB) ∧ (s.commitBank ≠ 0 → u.mgmt.fw.bankA = f.bankA) ∧ u.mgmt.fw.gen = f.gen + 1 ∧
        u.mgmt.fw.active = f.active ∧ Only [.mgmt, .out] s u)) ∧
    (∀ sig ver : Bool, Accepted .fwCommit c s → bitsOf (par c 0) 1 0 = 1 → c.ptr = 0 → c.ptrLen = 0 → c.ptrSpace = 0 → f.trial = false → f.rollback < 64 →
      let v := Nat.max f.rollback (Nat.min 64 (f.bank f.active).svn)
      ∃ u : State, exec (.fwCommit c sig ver) s = .next (u.complete (ref .fwCommit c) .ok v (64 - v) false) ∧ u.mgmt.fw = { f with rollback := v } ∧
        Only [.mgmt] s u) ∧
    (∀ (sig ver : Bool) (key : List Byte), Accepted .fwCommit c s → bitsOf (par c 0) 1 0 = 2 → structFor s c (.read 48) = .ok key →
      (f.ownerKey = none → ∃ u : State, exec (.fwCommit c sig ver) s = .next (u.complete (ref .fwCommit c) .ok 0 0 false) ∧
        u.mgmt.fw = { f with ownerKey := some key } ∧ Only [.mgmt] s u) ∧
      (f.ownerKey ≠ none → exec (.fwCommit c sig ver) s = .next (s.complete (ref .fwCommit c) .notReady 0xE6 0 false)))

/-- FW_ACTIVATE drains the queues behind barriers; the drain starts the bank on trial, times out, or fails; the trial ends or a restart
ends it (R57, R406, R424, R425). -/
def Obligations.ActivationDrainsAndTries : Prop :=
  ∀ (c : Cmd) (s : State),
    let f := s.mgmt.fw
    let n := bitsOf (par c 0) 0 0
    let usable := n ≠ f.active ∧ (f.bank n).empty = false ∧ (f.bank n).failed = false
    let open_ (t : State) : Prop := t.host.activation = none ∧ ∀ q : Fin 64, (t.queue q).barrier = none
    (Accepted .fwActivate c s → s.host.activation = none →
      (usable → ∃ u : State, exec (.fwActivate c) s = .next (u.keepInFlight (ref .fwActivate c)) ∧
        u.host.activation = some { by_ := ref .fwActivate c, bank := n } ∧
        (∀ q : Fin 64, (s.queue q).live = true → (u.queue q).barrier = some ((s.queue q).barrier.getD (s.queue q).submitted)) ∧ Only [.host] s u) ∧
      (¬ usable → ∃ u : State, exec (.fwActivate c) s = .next (u.complete (ref .fwActivate c) .notReady 0xE1 0 false) ∧ open_ u ∧ Only [.host] s u)) ∧
    (∀ a : Activation, s.host.activation = some a →
      ((∀ q : Fin 64, (s.queue q).drained a.by_ = true) →
        (∃ u : State, exec (.activationDrained true) s = .next (u.finish a.by_ .ok a.bank (f.bank a.bank).version false) ∧ open_ u ∧
          u.mgmt.fw = { f with active := a.bank, trial := true, trialBank := a.bank, gen := f.gen + 1 } ∧ Only [.host, .mgmt, .out] s u) ∧
        (∃ u : State, exec (.activationDrained false) s = .next (u.finish a.by_ .firmwareRejected 5 0 false) ∧ open_ u ∧ Only [.host] s u)) ∧
      (∃ u : State, exec .activationDrainTimeout s = .next (u.finish a.by_ .notReady 0x0D 0 false) ∧ open_ u ∧ Only [.host] s u)) ∧
    (f.trial = true → ∃ t : State, exec .trialEnd s = .next t ∧ t.mgmt.fw = { f with trial := false, bootBank := f.trialBank, gen := f.gen + 1 } ∧
      Only [.mgmt, .out] s t) ∧
    (s.power.phase = .running → s.host.orphanRun = [] → (∀ q : Fin 64, ∀ x ∈ (s.queue q).inFlight, x.ref.qid = q) →
      ∃ t : State, exec .chandlerRestart s = .next t ∧ t.mgmt.smb.fwRestarted = true ∧ t.mgmt.fw.restarts = f.restarts.satInc ∧ open_ t ∧
        t.host.async = [] ∧ (∀ q : Fin 64, (t.queue q).inFlight = []) ∧
        (∀ q : Fin 64, (t.queue q).ready.length = (s.queue q).ready.length + (s.queue q).inFlight.length) ∧
        (f.trial = true → t.mgmt.fw.trial = false ∧ t.mgmt.fw.active = 1 - f.trialBank ∧ (t.mgmt.fw.bank f.trialBank).failed = true) ∧
        (f.trial = false → t.mgmt.fw.active = f.active) ∧ Only [.host, .mgmt, .out] s t)

/-- Monitors, the error policy and the health summary: what a sample, a period, MON_CONFIGURE, ERR_POLICY_SET and HEALTH_QUERY leave
(R414, R415, R426, R427). -/
def Obligations.MonitorsPolicyAndHealth : Prop :=
  ∀ (c : Cmd) (s : State), Inv s →
    let m := s.mgmt
    (∀ vs : List Int, vs.length = 72 → ∃ t : State, exec (.monitorSample vs) s = .next t ∧ Only [.mgmt] s t ∧ ∀ n : Fin 72,
      let v := (vs[n.val]?).getD 0
      t.mgmt.monitors[n].cur = v ∧ t.mgmt.monitors[n].min_ = min m.monitors[n].min_ v ∧ t.mgmt.monitors[n].max_ = max m.monitors[n].max_ v ∧
        t.mgmt.monitors[n].samples = m.monitors[n].samples.satInc ∧ t.mgmt.monitors[n].crit = decide (m.monitors[n].critHi < v)) ∧
    (∀ n : Fin 72, m.monitors[n].histPeriod ≠ 0 → ∃ t : State, exec (.histPeriodExpiry n) s = .next t ∧
      t.mgmt.monitors[n] = { m.monitors[n] with bins := Vector.replicate 16 0, samples := 0 } ∧
      (∀ i : Fin 72, i ≠ n → t.mgmt.monitors[i] = m.monitors[i]) ∧ Only [.mgmt] s t) ∧
    (Accepted .monConfigure c s → bitsOf (par c 0) 6 0 < 72 →
      let hit (i : Fin 72) : Prop := if bitOf (par c 0) 9 then monitorKind i.val = monitorKind (bitsOf (par c 0) 6 0) else i.val = bitsOf (par c 0) 6 0
      (bitOf (par c 0) 8 = true → c.ptr = 0 → c.ptrLen = 0 → c.ptrSpace = 0 → ∃ u : State,
        exec (.monConfigure c) s = .next (u.complete (ref .monConfigure c) .ok 0 0 false) ∧ Only [.mgmt] s u ∧ ∀ i : Fin 72,
          (hit i → u.mgmt.monitors[i] = { (m.monitors[i]).clearBins with min_ := m.monitors[i].cur, max_ := m.monitors[i].cur }) ∧
          (¬ hit i → u.mgmt.monitors[i] = m.monitors[i])) ∧
      (∀ b : List Byte, bitOf (par c 0) 8 = false → structFor s c (.read 32) = .ok b → fs32 b 0x04 ≤ fs32 b 0x08 → fs32 b 0x10 < fs32 b 0x14 →
        ∃ u : State, exec (.monConfigure c) s = .next (u.complete (ref .monConfigure c) .ok 0 0 false) ∧ Only [.mgmt] s u ∧ ∀ i : Fin 72,
          (hit i → u.mgmt.monitors[i].warnHi = fs32 b 0x04 ∧ u.mgmt.monitors[i].critHi = fs32 b 0x08 ∧ u.mgmt.monitors[i].warnLo = fs32 b 0x0C ∧
            u.mgmt.monitors[i].histLo = fs32 b 0x10 ∧ u.mgmt.monitors[i].histHi = fs32 b 0x14 ∧ u.mgmt.monitors[i].histPeriod = f32 b 0x18 ∧
            u.mgmt.monitors[i].bins = Vector.replicate 16 0 ∧ u.mgmt.monitors[i].cur = m.monitors[i].cur) ∧
          (¬ hit i → u.mgmt.monitors[i] = m.monitors[i]))) ∧
    (∀ b : List Byte, Accepted .errPolicySet c s → structBytes s c = .ok b → 4 ≤ f16 b 0 → (1 ≤ f16 b 2 ∧ f16 b 2 ≤ 3600) →
      (1 ≤ f8 b 8 ∧ f8 b 8 ≤ 64) → (1 ≤ f8 b 9 ∧ f8 b 9 ≤ 24) → (200 ≤ f16 b 0xA ∧ f16 b 0xA ≤ 5000) → (500 ≤ f16 b 0xC ∧ f16 b 0xC ≤ 10000) →
      (200 ≤ f16 b 0xE ∧ f16 b 0xE ≤ 5000) → (1 ≤ f8 b 0x10 ∧ f8 b 0x10 ≤ 4) → ∃ u : State,
        exec (.errPolicySet c) s = .next (u.complete (ref .errPolicySet c) .ok 0 0 false) ∧ u.mgmt.policy = { tallyCap := f16 b 0, tallyLeak := f16 b 2, pprEn := bitOf (f32 b 4) 0, retireEn := bitOf (f32 b 4) 1, logCorrected := bitOf (f32 b 4) 2, retireRegions := f8 b 8, retireWindow := f8 b 9, sliceWd := f16 b 0xA, encWd := f16 b 0xC, motionWd := f16 b 0xE, degradeKmax := f8 b 0x10 } ∧
        (∀ (i : Fin 128) (j : Fin 64), u.mem.pcs[i].tallies[j].count = Nat.min (s.mem.pcs[i].tallies[j].count) (f16 b 0)) ∧
        u.out = .flashWrite 0x10000 b :: s.out ∧ Only [.mgmt, .memory, .out] s u) ∧
    (∀ p : Nat, s.ready = true → ∃ t : State, exec (.healthRecordUpdate p) s = .next t ∧ t.power.powerDw = p ∧ t.mgmt.smb.record = t.healthSummary ∧
      Only [.power, .mgmt] s t) ∧
    (Accepted .healthQuery c s → c.ptrLen = 128 →
      (c.ptrSpace = 2 → c.aux = 0 → ∃ u : State, exec (.healthQuery c) s = .next (u.complete (ref .healthQuery c) .ok s.uptime 0 false) ∧
        u.out = .hostWrite c.ptr.toNat s.healthSummary :: s.out ∧ Only [.out] s u) ∧
      (∀ b : Buffer, c.ptrSpace = 1 → typeOf c.aux = 1 → s.buffer c.aux = some b → rangeFault s c.ptr.toNat 128 (some (b.base, b.size)) = none →
        needUnpinned s c.ptr.toNat 128 = .ok () → ∃ u : State,
          exec (.healthQuery c) s = .next (u.complete (ref .healthQuery c) .ok s.uptime 0 false) ∧ u.readMem c.ptr.toNat 128 = s.healthSummary ∧
          (∀ a, a < c.ptr.toNat ∨ c.ptr.toNat + 128 ≤ a → u.mem.mem.byte a = s.mem.mem.byte a) ∧ Only [.bytes] s u))

/-- UNIT_REJOIN tests a fenced unit or fences a live one, and SELF_TEST_DONE gives it a vacant role, makes it a spare or fences it again
(R411, R412). -/
def Obligations.UnitsRejoinThroughASelfTest : Prop :=
  ∀ (c : Cmd) (s : State) (k : UnitKind) (h : Handle),
    let hk (x : Handle) := kindOf (bitsOf x.toNat 26 20)
    let hi (x : Handle) := bitsOf x.toNat 15 0
    let u := s.mgmt.units
    (Accepted .unitRejoin c s → bitOf c.handle.toNat 27 = false → hk c.handle = some k →
      let i := hi c.handle
      let fails (r0 : Nat) : Prop := exec (.unitRejoin c) s = .next (s.complete (ref .unitRejoin c) .notReady r0 0 false)
      (par c 0 = 0 → (u.unit k i).state = .fenced → ∃ t : State, exec (.unitRejoin c) s = .next (t.keepInFlight (ref .unitRejoin c)) ∧
        t.mgmt.units.unit k i = { u.unit k i with state := .testing, test := some (ref .unitRejoin c) } ∧ Only [.mgmt] s t) ∧
      (par c 0 = 0 → (u.unit k i).state ≠ .fenced → (u.unit k i).state ≠ .testing → fails 0xE3) ∧
      (par c 0 = 1 → (k = .sliceU ∨ k = .siteU ∨ k = .encU) →
        (∀ role, u.roleOf k i = some role → exec (.unitRejoin c) s =
          .next ((s.declareDead k role Status.hardwareFault.code).complete (ref .unitRejoin c) .ok 0 0 false)) ∧
        (u.roleOf k i = none → fails 0xE3))) ∧
    (∀ r : CmdRef, hk h = some k → (u.unit k (hi h)).test = some r →
      (∀ role, u.vacancy k (hi h) = some role → ∃ t : State,
        exec (.selfTestDone h true) s = .next (t.finish r .ok 1 (u.epochOf k role) false) ∧ t.mgmt.units.unitOf k role = some (hi h) ∧
        (t.mgmt.units.unit k (hi h)).state = .active ∧ (t.mgmt.units.unit k (hi h)).epoch = u.epochOf k role ∧ Only [.mgmt] s t) ∧
      (u.vacancy k (hi h) = none → ∃ t : State, exec (.selfTestDone h true) s = .next (t.finish r .ok 0 0 false) ∧
        (t.mgmt.units.unit k (hi h)).state = .spare ∧ Only [.mgmt] s t) ∧
      (∃ t : State, exec (.selfTestDone h false) s = .next (t.finish r .hardwareFault h.toNat t.errSeq true) ∧
        (t.mgmt.units.unit k (hi h)).state = .fenced ∧ (t.mgmt.units.unit k (hi h)).test = none ∧
        t.mgmt.errors.next = (s.mgmt.errors.next + 1) % 2 ^ 32 ∧ Only [.mgmt] s t))

/-- The pair: PAIR_CONFIGURE, heartbeats sent, received and missed, the shadow, and a hub that accepts its new owner (R431, R432, R433,
R434, R435). -/
def Obligations.PairKeepsWatchAndTakesOver : Prop :=
  ∀ (c : Cmd) (peers : List (Nat × Nat × Nat)) (s : State), s.dev.isD = true →
    let p := s.mgmt.pair
    let r := ref .pairConfigure c
    (Accepted .pairConfigure c s → par c 0 = 2 → par c 1 = 0 → c.aux = 0 → structFor s c .none = .ok [] →
      exec (.pairConfigure c peers) s = .next (s.complete r .ok Config.shadowNeed.toNat 0 false)) ∧
    (∀ (b : List Byte) (buf : Buffer), Accepted .pairConfigure c s → par c 0 = 0 → par c 1 = 0 → s.pairChan.isSome = true → structFor s c (.read 64) = .ok b →
      (bitOf (f8 b 0) 0 = false → ∃ u : State, exec (.pairConfigure c peers) s = .next (u.complete r .ok 0 0 false) ∧
        (∀ i : Fin 48, u.mgmt.pair.mapped[i] = none) ∧ u.mgmt.pair.state = (if p.state = .fenced then .fenced else .off) ∧ Only [.mgmt] s u) ∧
      (bitOf (f8 b 0) 0 = true → firstBad (pairFields s b peers) = none → typeOf c.aux = 1 → s.buffer c.aux = some buf →
        needInBuffer s buf (f32 b 8) (f32 b 0xC) = .ok (buf.base + f32 b 8) →
        needRing s (unitHandle 0x0E s.dev.inst) 0xE40 (buf.base + f32 b 8) (f32 b 0xC) = .ok () →
        ∃ t : State, exec (.pairConfigure c peers) s = .next t ∧
          t.mgmt.pair = { p with state := (if p.state = .fenced then .fenced else if p.twinFenced then .solo else .paired), shadowBuf := c.aux, shadowOff := f32 b 8, shadowLen := f32 b 0xC, mapped := Vector.ofFn (fun i => pairMap b i.val), shadow := [], sent := [], configBy := p.configBy ++ [r] } ∧
          Only [.host, .mgmt, .cams, .lanes, .out] s t)) ∧
    (∀ ch, s.power.phase = .running → s.pairChan = some ch → s.silent ch = false → ∃ (t : State) (bs : List Byte), exec .heartbeatSend s = .next t ∧
      t.mgmt.pair.seq = (p.seq + 1) % 65536 ∧ t.out.head? = some (.peerCell ch 2 bs) ∧ Only [.mgmt, .lanes, .out] s t) ∧
    (∀ bs : List Byte, f8 bs 0 = 0x40 →
      (f16 bs 4 = p.twinEpoch → f8 bs 1 ≠ 3 → ¬ (p.state = .fenced ∧ f8 bs 1 = 1) → ∃ t : State, exec (.heartbeat bs) s = .next t ∧
        t.mgmt.pair.misses = 0 ∧ t.mgmt.pair.twinState = f8 bs 1 ∧ (∀ i : Fin 48, t.mgmt.pair.peerFn[i] = f32 bs (0x10 + 4 * i.val)) ∧
        t.mgmt.pair.state = (if p.state = .linkFault then .paired else p.state)) ∧
      (f16 bs 4 ≠ p.twinEpoch → exec (.heartbeat bs) s = .next (s.dropStale (unitHandle 0x0E (1 - s.dev.inst)) (f16 bs 4)))) ∧
    (∀ toggles chandler : Bool, (p.state = .paired ∨ p.state = .linkFault) →
      let n := Nat.min 255 (p.misses + 1)
      (n < 5 → ∃ t : State, exec (.heartbeatMiss toggles chandler) s = .next t ∧ t.mgmt.pair = { p with misses := n } ∧ Only [.mgmt] s t) ∧
      (5 ≤ n → toggles = true → chandler = true → ∃ t : State, exec (.heartbeatMiss toggles chandler) s = .next t ∧ t.mgmt.pair.state = .linkFault ∧
        t.mgmt.pair.twinEpoch = p.twinEpoch ∧ Only [.mgmt, .host] s t) ∧
      (5 ≤ n → ¬ (toggles = true ∧ chandler = true) → ∃ t : State, exec (.heartbeatMiss toggles chandler) s = .next t ∧ t.mgmt.pair.state = .solo ∧
        t.mgmt.pair.twinFenced = true ∧ t.mgmt.pair.twinEpoch = nextEpoch p.twinEpoch ∧ t.mgmt.pair.failovers = p.failovers.satInc ∧
        Only [.mgmt, .host, .cams, .lanes, .out] s t)) ∧
    (∀ (e cam used : Nat) (m : Mirror) (full : Bool), p.state ≠ .off → e ≠ p.twinEpoch →
      exec (.shadowUpdate { epoch := e, cam := cam } (some m) used full) s = .next (s.dropStale (unitHandle 0x0E (1 - s.dev.inst)) e)) ∧
    (∀ (cam used : Nat) (m : Mirror), p.state ≠ .off → ∃ t : State, exec (.shadowUpdate { epoch := p.twinEpoch, cam := cam } (some m) used true) s = .next t ∧
      (cam, m) ∈ t.mgmt.pair.shadow ∧ t.mgmt.pair.configBy = [] ∧ (∀ x ∈ p.shadow, x.1 ≠ cam → x ∈ t.mgmt.pair.shadow) ∧
      Only [.bytes, .mgmt, .host, .fresh] s t) ∧
    (∀ hub fc lost : Nat, p.hands = [] → hub ∈ p.awaiting → ∃ t : State, exec (.ownerAck hub p.twinEpoch fc lost) s = .next t ∧
      hub ∉ t.mgmt.pair.awaiting ∧ (hub, p.twinEpoch) ∈ t.mgmt.pair.hubEpochs)

/-! ## Camera contexts and ingest (chapters 03 and 04) -/

/-- CAM_CONFIGURE, CAM_START, BIND_TIMEOUT and CAM_STOP move a context through its states (R70, R71, R72, R73, R96). -/
def Obligations.CamerasConfigureStartAndStop : Prop :=
  ∀ (c : Cmd) (s : State) (i : Fin 48),
    let x := s.cam i.val
    let same (u : State) : Prop := ∀ j : Fin 48, j ≠ i → u.cam j.val = s.cam j.val
    (Accepted .camConfigure c s → c.handle = 0 → par c 0 = i.val → s.reservedBy i.val = none →
      (x.state ≠ .idle → exec (.camConfigure c) s = .next (s.complete (ref .camConfigure c) .conflict x.handle.toNat (0x200 + i.val) false)) ∧
      (∀ (p : List Byte) (b : Buffer) (span : Nat), x.state = .idle → structBytes s c = .ok p → firstBad (profileFields p) = none →
        firstBad (profileRelations p) = none → firstBad (profileLimit p) = none → typeOf c.aux = 1 → s.buffer c.aux = some b →
        pfQueueBytes p ≤ b.size → s.portHolder (pfSource p) i.val = none → s.admitRate p (some i.val) 1 = .inl span → ∃ u : State,
          exec (.camConfigure c) s = .next (u.complete (ref .camConfigure c) .ok (s.nextHandle 2).toNat (pfQueueBytes p) false) ∧
          (u.cam i.val).state = .configured ∧ (u.cam i.val).handle = s.nextHandle 2 ∧ (u.cam i.val).profile = p ∧ (u.cam i.val).run = x.run ∧
          (u.cam i.val).queueBase = b.base ∧ (u.cam i.val).queueLen = pfQueueBytes p ∧ (u.cam i.val).frames = [] ∧ same u ∧ Only [.cams, .issued] s u)) ∧
    (∀ span, Accepted .camStart c s → s.cams.find c.handle = some i.val → x.starting = none → (x.state = .configured ∨ x.state = .suspended) →
      s.admitRate x.profile (some i.val) x.degrade = .inl span →
      let r := ref .camStart c
      (pfOzoth x.profile = true → ∃ u : State, exec (.camStart c) s = .next ((u.keepInFlight r).sendBind i.val .bindStart) ∧
        u.cam i.val = { x with starting := some (some r), startNs := s.ns } ∧ same u ∧ Only [.cams] s u) ∧
      (pfOzoth x.profile = false → x.applies = [] → ∃ u : State, exec (.camStart c) s = .next (u.finish r .ok (nextEpoch x.run) span false) ∧
        (u.cam i.val).state = .running ∧ (u.cam i.val).run = nextEpoch x.run ∧ (u.cam i.val).fnNext = (x.takeFn.map (·.1)).getD 0 ∧
        (u.cam i.val).frames = [] ∧ same u ∧ Only [.host, .cams, .time] s u)) ∧
    (∀ w : CtrlCell, x.unacked.find? (fun y => y.why == .bindStart || y.why == .bindWrite) = some w → ∃ t : State,
      exec (.bindTimeout i) s = .next t ∧ (t.cam i.val).state = x.state ∧ (∀ j ∈ (t.cam i.val).sensor, j.sent ≠ 0) ∧
      (w.why = .bindStart → (t.cam i.val).starting = none) ∧ Only [.host, .mgmt, .cams, .lanes, .out] s t) ∧
    (Accepted .camStop c s → s.cams.find c.handle = some i.val → x.starting = none →
      let r := ref .camStop c
      (x.state = .configured ∨ x.state = .suspended → ∃ u : State, exec (.camStop c) s = .next (u.complete r .ok 0xFFFFFFFF 0 false) ∧
        (bitOf (par c 0) 0 = false → (u.cam i.val).state = .configured ∧ (u.cam i.val).plan = none ∧ Only [.cams, .lanes, .time, .out] s u) ∧
        (bitOf (par c 0) 0 = true → (u.cam i.val).state = .idle ∧ (u.cam i.val).run = x.run)) ∧
      ((x.state = .running ∨ x.state = .stopping) → x.frames ≠ [] → bitOf (par c 0) 1 = false → ∃ u : State,
        exec (.camStop c) s = .next (u.keepInFlight r) ∧ (u.cam i.val).state = .stopping ∧ (u.cam i.val).plan = none ∧
        (u.cam i.val).frames = x.frames ∧
        (u.cam i.val).stop = some { by_ := (x.stop.map StopReq.by_).getD [] ++ [r], release := bitOf (par c 0) 0 || (x.stop.map StopReq.release).getD false, discarded := (x.stop.map StopReq.discarded).getD 0 } ∧
        Only [.cams, .lanes, .time, .out] s u))

/-- Trigger plans: CAM_TRIGGER_PLAN sets or cancels one, TRIGGER_SEND sends the next trigger, TRIGGER_MISSING closes its frame number
(R86, R102, R103, R104). -/
def Obligations.TriggerPlansFire : Prop :=
  ∀ (c : Cmd) (s : State) (i : Fin 48),
    let x := s.cam i.val
    let r := ref .camTriggerPlan c
    (∀ b : List Byte, Accepted .camTriggerPlan c s → s.cams.find c.handle = some i.val → structBytes s c = .ok b → x.state ≠ .stopping →
      let period := f32 b 0x14
      let start := fld b 0x08 6 * 1000000000 + f32 b 0x10
      let first := if bitOf (f16 b 0) 0 then alignUp start period (f32 b 0x1C) else start
      let run := x.state = .running
      let n := if run ∧ first < s.ns + 1000000 then ceilDiv (s.ns + 1000000 - first) period else 0
      let good := f32 b 0x10 < 1000000000 ∧ pfPeriod x.profile ≤ period ∧ period ≤ 4000000000 ∧ f32 b 0x1C < period
      let plan (pin unit : Option Nat) : TrigPlan := { first := first, period := period, stop := if f32 b 0x18 = 0 then none else some (f32 b 0x18), pin := pin, unit := unit, pulse := f32 b 0x04, held := x.state != .running, start := n, sent := n, align := bitOf (f16 b 0) 0 }
      let ends (u : State) : Prop := exec (.camTriggerPlan c) s = .next (u.complete r (if n = 0 then .ok else .okAdjusted) (n % 2 ^ 32) 0 false)
      (bitOf (f16 b 0) 2 = true → ∃ u : State, exec (.camTriggerPlan c) s = .next (u.complete r .ok 0 0 false) ∧ (u.cam i.val).plan = none ∧
        Only [.cams, .lanes, .time, .out] s u) ∧
      (bitOf (f16 b 0) 2 = false → good → x.plan = none →
        (bitOf (f16 b 0) 1 = false → pfOzoth x.profile = true → ¬ (run ∧ x.failed = true) →
          (n ≠ 0 → strict c = true → exec (.camTriggerPlan c) s = .next (s.complete r .tooLate n 0 false)) ∧
          (n = 0 ∨ strict c = false → ∃ u : State, ends u ∧ (u.cam i.val).plan = some (plan none none) ∧ Only [.cams] s u)) ∧
        (∀ k : Nat, bitOf (f16 b 0) 1 = true → f8 b 2 ≤ 31 → 100 ≤ f32 b 4 → f32 b 4 ≤ 1000000 → s.pinFree (f8 b 2) = true →
          firstIdx Option.isNone s.time.compare.toList = some k → (n = 0 ∨ strict c = false) → ∃ u : State, ends u ∧
            (u.cam i.val).plan = some (plan (some (f8 b 2)) (some k)) ∧ u.pinFree (f8 b 2) = false ∧ (vget u.time.compare none k).isSome = true ∧
            Only [.cams, .time] s u))) ∧
    (∀ p : TrigPlan, x.state = .running → x.plan = some p → p.held = false → p.has p.sent = true → p.time p.sent ≤ s.ns + 100000000 → ∃ t : State,
      exec (.triggerSend i) s = .next t ∧ (t.cam i.val).plan = some { p with sent := p.sent + 1 } ∧
      (t.cam i.val).triggers = x.triggers ++ [{ index := p.sent, time := p.time p.sent, period := p.period, fn := none, sent := decide (s.ns + 1000000 ≤ p.time p.sent) }] ∧
      Only [.cams, .lanes, .out] s t) ∧
    (∀ (g : Trigger) (rest : List Trigger), x.triggers = g :: rest → (∀ u ∈ rest, g.same u = false) → g.time + pfReadout x.profile + g.period ≤ s.ns →
      x.stop = none → ∃ t : State,
      exec (.triggerMissing i) s = .next t ∧ (t.cam i.val).triggers.length = rest.length ∧ (t.cam i.val).cnt.dropMissing = x.cnt.dropMissing.satInc)

/-- The hub control channel: sensor writes, acknowledgements, reads, failures and resends (R81, R82, R83, R437). -/
def Obligations.ControlCellsAreAnswered : Prop :=
  ∀ (c : Cmd) (s : State) (i : Fin 48),
    let x := s.cam i.val
    (∀ list : List Byte, Accepted .camSensorWrite c s → s.cams.find c.handle = some i.val → structBytes s c = .ok list → pfOzoth x.profile = true →
      c.ptrLen.toNat % 8 = 0 → 8 ≤ c.ptrLen.toNat → c.ptrLen.toNat ≤ 2048 →
      (∀ k, k < c.ptrLen.toNat / 8 → f8 (slice list (8 * k) 8) 0 ≤ 2 ∧ refusedEntry x.profile (slice list (8 * k) 8) = false) →
      (c.ptrSpace = 1 → needUnpinned s c.ptr.toNat c.ptrLen.toNat = .ok ()) →
      let r := ref .camSensorWrite c
      let j : SensorJob := { by_ := r, ptr := c.ptr.toNat, inDev := c.ptrSpace == 1, list := list, sent := 0, acked := 0, broken := false }
      let idle := x.state = .configured ∨ x.state = .suspended
      let binding := ∃ y ∈ x.unacked ++ x.waiting, y.why = .bindStart
      ∃ u : State, (u.cam i.val) = { x with sensor := x.sensor ++ [j] } ∧ Only [.cams] s u ∧
        (binding → idle → exec (.camSensorWrite c) s = .next (u.keepInFlight r)) ∧
        (¬ binding → x.bound = true → x.failed = false → exec (.camSensorWrite c) s = .next ((u.sendEntries i.val j).keepInFlight r)) ∧
        (¬ binding → idle → x.bound = false → (∀ y ∈ x.unacked, y.why ≠ .bindWrite) →
          exec (.camSensorWrite c) s = .next ((u.sendBind i.val .bindWrite).keepInFlight r))) ∧
    (∀ (seq fc : Nat) (w : CtrlCell), x.unacked.find? (fun y => y.seq == seq) = some w →
      (∃ t : State, exec (.ack i seq fc) s = .next t ∧ (t.cam i.val).failRun = 0 ∧
        (w.why = .bindStart ∨ w.why = .bindWrite → (t.cam i.val).bound = true ∧ (t.cam i.val).failed = false)) ∧
      (∀ es : List Byte, ∃ t : State, exec (.readData i seq fc es) s = .next t ∧ (t.cam i.val).failRun = 0) ∧
      (∀ k, w.why = .trigger k ∨ w.why = .cancel → ∃ t : State, exec (.ack i seq fc) s = .next t ∧
        (∀ y ∈ (t.cam i.val).unacked, y.seq = w.seq → y ∈ x.waiting) ∧ Only [.cams, .lanes, .out] s t) ∧
      (∀ r first count j, w.why = .entries r first count → x.sensor.find? (fun y => y.by_ == r) = some j →
        (j.broken = false → j.acked + count = j.list.length / 8 → ∃ u : State, exec (.ack i seq fc) s = .next (u.finish r .ok (j.acked + count) 0 false) ∧
          (∀ y ∈ (u.cam i.val).sensor, y.by_ ≠ r) ∧ Only [.cams, .lanes, .out] s u) ∧
        (∀ es : List Byte, es.length = 8 * count → Inv s → ∃ t u : State, exec (.readData i seq fc es) s = .next t ∧ exec (.ack i seq fc) u = .next t ∧
          Only [.bytes, .out] s u ∧
          ∀ k, k < count → f8 j.list (8 * (first + k)) = 1 →
            (j.inDev = true → u.readMem (j.ptr + 8 * (first + k) + 4) 4 = slice es (8 * k + 4) 4) ∧
            (j.inDev = false → .hostWrite (j.ptr + 8 * (first + k) + 4) (slice es (8 * k + 4) 4) ∈ u.out))) ∧
      (∀ n, (∀ k, w.why = .trigger k → exec (.nak i seq 3 n) s = .next (s.dropCtrl i.val seq)) ∧
        (∃ t : State, exec (.nak i seq 1 n) s = .next t ∧ (t.cam i.val).failRun = x.failRun + 1 ∧ (t.cam i.val).cnt.fails = x.cnt.fails.satInc ∧
          (2 ≤ x.failRun → (t.cam i.val).failed = true)) ∧
        (s.dev.isD = true → ∃ t : State, exec (.nak i seq 2 n) s = .next t ∧ t.mgmt.pair.state = .fenced)) ∧
      (w.resends < 3 → ∃ t : State, exec (.controlCellResend i seq) s = .next t ∧ (t.cam i.val).cnt.resends = x.cnt.resends.satInc ∧
        (∃ y ∈ (t.cam i.val).unacked, y = { w with resends := w.resends + 1 }) ∧ Only [.cams, .lanes, .out] s t) ∧
      (3 ≤ w.resends → w.why ≠ .bindStart → w.why ≠ .bindWrite → ∃ t : State, exec (.controlCellResend i seq) s = .next t ∧
        (t.cam i.val).failRun = x.failRun + 1) ∧
      (w.resends = 3 → w.why = .bindStart ∨ w.why = .bindWrite → ∃ t : State, exec (.controlCellResend i seq) s = .next t ∧
        (t.cam i.val).failRun = x.failRun + 1 ∧ (t.cam i.val).starting = x.starting ∧ Only [.cams] s t))

/-- A start of frame takes the next FN and a free slot or is dropped; cells and lines fill it; a stale or stray cell is discarded (R74,
R75, R77, R79, R84, R86, R91, R92). -/
def Obligations.FramesAndLinesArrive : Prop :=
  ∀ (s : State) (i : Fin 48) (chan : Fin 32) (x : PixCell),
    let c := s.cam i.val
    let epoch := (s.lanes.chan chan.val).epoch
    let started (t : State) : Prop := (t.cam i.val).fnNext = c.fnNext + 1 ∧
      (c.freeSlot = none → (t.cam i.val).cnt.dropQueue = c.cnt.dropQueue.satInc) ∧
      (∀ k, c.freeSlot = some k → s.sheds (pfDropClass c.profile) = false → (c.plan.isSome = true ∨ c.fnNext % c.degrade = 0) →
        (t.cam i.val).cnt.accepted = c.cnt.accepted.satInc ∧ ∃ f ∈ (t.cam i.val).frames, f.fn = c.fnNext ∧ f.slot = k)
    (∀ e cam, e ≠ epoch → exec (.pixelCell chan e cam x) s = .next (s.dropStale (unitHandle 0x0B chan.val) e)) ∧
    ((c.state = .idle ∨ c.state = .configured ∨ c.state = .suspended ∨ s.mayArrive chan.val i.val = false ∨
        (c.state = .stopping ∧ c.arriving = none)) → exec (.pixelCell chan epoch i.val x) s = .next (s.discardCell chan.val)) ∧
    (c.state = .running → s.mayArrive chan.val i.val = true → c.held = [] →
      (x.sof = true → c.arriving = none → c.asm = none → c.triggers = [] → (∀ q, c.nextSeq = some q → x.cseq = q) → ∃ t : State,
        exec (.pixelCell chan epoch i.val x) s = .next t ∧ started t) ∧
      (∀ a f, x.sof = false → x.sol = false → x.eol = false → x.eof = false → c.nextSeq = some x.cseq → c.arriving = some f → c.asm = some a →
        a.line = x.line → a.exp = x.exp → a.data.length = x.offset → c.dropping = false → c.gap = false → ∃ t : State,
          exec (.pixelCell chan epoch i.val x) s = .next t ∧ Only [.cams] s t ∧
          (s.lineStore + x.data.length ≤ 6291456 → (t.cam i.val).asm = some { a with data := a.data ++ x.data }) ∧
          (6291456 < s.lineStore + x.data.length → (t.cam i.val).asm = some { a with bad := true } ∧
            (t.cam i.val).cnt.cellsLost = c.cnt.cellsLost.satInc))) ∧
    (∀ fc stamp, (c.state = .running ∨ c.state = .stopping) → s.mayArrive chan.val i.val = true → ∃ t : State,
      exec (.timingCell chan epoch i.val 0 fc stamp) s = .next t ∧ (t.cam i.val).timing = ((fc, stamp) :: c.timing).take 8 ∧
      Only [.cams, .bytes, .fabric] s t) ∧
    (∀ port : Fin 2, s.portCam port.val = some i.val →
      (c.state = .running → c.arriving = none → c.triggers = [] → ∃ t : State, exec (.pcpStartOfFrame port) s = .next t ∧ started t) ∧
      (∀ (e : Fin 3) (pixels : List Nat) (f : CamFrame), c.arriving = some f → (∀ g ∈ c.frames, g.fn = f.fn → g = f) →
        let p := c.profile
        let line := vget f.stored 0 e.val
        let codes := packCodes p false (pixels.map (· % 2 ^ pfDepth p))
        pixels.length = pfW p → e.val < pfNexp p → line < pfH p → pfLineBytes p ≤ codes.length → Inv s → ∃ t : State,
          exec (.pcpLine port e.val pixels) s = .next t ∧ (∃ g ∈ (t.cam i.val).frames, g.fn = f.fn ∧ line < vget g.stored 0 e.val) ∧
          (line % 64 ≠ 63 → line + 1 ≠ pfH p → t.readMem (c.lineAddr f.slot e.val line) (pfStride p) = padTo (pfStride p) (codes.take (pfLineBytes p))) ∧
          Only [.cams, .bytes, .fabric] s t))

/-- Slices take the first eligible stripe, finish it and are replaced when they stall; the motion engine writes the next field band (R98,
R99, R101, R163, R189, R190). -/
def Obligations.SlicesAndMotionWork : Prop :=
  ∀ s : State,
    (∀ (r : Fin 16) (x : Nat × SliceJob), (s.mgmt.units.unitOf .sliceU r.val).isSome = true → s.cams.slices[r] = none →
      minBy (fun y => y.1) s.eligibles = some x → x ∈ s.eligibles ∧ (∀ y ∈ s.eligibles, x.1 ≤ y.1) ∧ ∃ t : State, exec (.sliceDispatch r) s = .next t ∧
        t.cams.slices[r] = some { x.2 with epoch := s.mgmt.units.epochOf .sliceU r.val } ∧
        Only [.cams, .bytes, .fabric] s t) ∧
    (∀ (r : Fin 16) (q : SliceJob) (f : CamFrame) (es : List SramError) (bad : List (Nat × Nat)), s.cams.slices[r] = some q →
      (s.mgmt.units.unitOf .sliceU r.val).isSome = true → q.cam < 48 → (s.cam q.cam).frame q.fn = some f →
      let c := s.cam q.cam
      let g := { f with stripes := f.stripes ++ [(q.band, q.stripe)] }
      ∃ t : State, exec (.stripeDone r es bad) s = .next t ∧ t.cams.slices[r] = none ∧
        (c.frameDoneAll g = false → ∃ h, (t.cam q.cam).frame q.fn = some h ∧ h.stripes = g.stripes) ∧
        (c.frameDoneAll g = true → c.stop = none → (∀ h ∈ (t.cam q.cam).frames, h.fn ≠ q.fn) ∧ (t.cam q.cam).lastDone = some q.fn ∧
          (t.cam q.cam).cnt.frames = c.cnt.frames.satInc)) ∧
    (∀ (r : Fin 16) (q : SliceJob) (p : Nat), s.cams.slices[r] = some q → s.mgmt.units.unitOf .sliceU r.val = some p →
      s.mgmt.units.roleOf .sliceU p = some r.val → ∃ t : State, exec (.sliceWatchdog r) s = .next t ∧
        (t.mgmt.units.unit .sliceU p).state = .fenced ∧ t.mgmt.units.epochOf .sliceU r.val = nextEpoch (s.mgmt.units.epochOf .sliceU r.val) ∧
        t.cams.slices[r] = some q ∧ Only [.cams, .bytes, .mgmt, .host, .fabric] s t) ∧
    (∀ (x : Nat × Nat × CamFrame) (es : List SramError), minBy (fun y => y.1) s.motionBands = some x →
      let fn := x.2.2.fn
      let c := s.cam x.2.1
      let held (t : State) : List CamFrame := (t.cam x.2.1).frames ++ (t.cam x.2.1).trail
      x.2.2 ∈ held s ∧
      (∃ t : State, exec (.motionBand es) s = .next t ∧ (∀ g ∈ held t, g.fn = fn → g.fields = x.2.2.fields + 1 ∧
        (es.any SramError.uncorr = true → x.2.2.fields ∈ g.fieldBad)) ∧
        (x.2.2 ∈ c.frames ∨ x.2.2.fields + 1 < pfBands c.profile → ∃ g ∈ held t, g.fn = fn)) ∧
      (s.mgmt.units.unitOf .motionU 0 = some 0 → ∃ t : State, exec .motionWatchdog s = .next t ∧ t.mgmt.units.unitOf .motionU 0 = none ∧
        (∀ g ∈ held t, g.fn = fn → g.fields = x.2.2.fields + 1 ∧ x.2.2.fields ∈ g.fieldBad) ∧
        Only [.cams, .bytes, .mgmt, .host, .fabric, .encs, .jm] s t))

/-! ## The raw pipeline, colour and exposure (chapters 04 to 06) -/

/-- The staging commands replace their part of the staged set, which the next start of frame latches, and report when it takes effect
(R110, R113, R144, R151). -/
def Obligations.StagingCommandsReplaceTheStagedSet : Prop :=
  ∀ (c : Cmd) (s : State) (i : Fin 48), s.cams.find c.handle = some i.val →
    let x := s.cam i.val
    let p := x.profile
    let staged (u : State) (set : ParamSet) : Prop :=
      u.cam i.val = { x with next := set } ∧ (∀ j : Fin 48, j ≠ i → u.cam j.val = s.cam j.val) ∧ Only [.cams] s u
    let loaded : Loaded := { addr := c.ptr.toNat, len := c.ptrLen.toNat }
    (∀ b : List Byte, Accepted .rawSetStage c s →
      let n := bitsOf (par c 0) 3 0
      let on := bitOf (par c 0) 8
      let reset := bitOf (par c 0) 9
      let set : ParamSet := { x.next with stages := vmod x.next.stages n (fun _ => { on := on, blk := b }), tnrReset := if n = 5 then reset else x.next.tnrReset }
      structFor s c (.read (stageSize n)) = .ok b → firstBad (stageFields p b n) = none → stageNeeds x.next p b n on = none →
      (n ≤ 8 → c.aux = 0 → (on = true ∨ n ∈ [2, 3, 4, 5, 6]) → (reset = true → n = 5) → (n = 5 → on = false) →
        ∃ u : State, exec (.rawSetStage c) s = .next (u.complete (ref .rawSetStage c) .ok x.stagedFn 0 false) ∧ staged u set) ∧
      (∀ y : Buffer, n = 5 → on = true → typeOf c.aux = 1 → s.buffer c.aux = some y → 2 * (pfH p * stride16 p) ≤ y.size →
        needRing s c.handle 0x420 y.base (2 * (pfH p * stride16 p)) = .ok () →
        ∃ u : State, exec (.rawSetStage c) s = .next (u.complete (ref .rawSetStage c) .ok x.stagedFn 0 false) ∧ staged u { set with tnrBuf := y.base })) ∧
    (∀ t : List Byte, Accepted .rawLoadTable c s → 1 ≤ par c 0 → par c 0 ≤ 5 → tableBytes s c 32 (fun t => 32 + f32 t 8) = .ok t →
      (crc32c (t.drop 32) ≠ f32 t 0x0C → exec (.rawLoadTable c) s = .next (s.complete (ref .rawLoadTable c) .checkMismatch (crc32c (t.drop 32)) (f32 t 0x0C) false)) ∧
      (crc32c (t.drop 32) = f32 t 0x0C → firstBad (tableFields p t (par c 0)) = none →
        ∃ u : State, exec (.rawLoadTable c) s = .next (u.complete (ref .rawLoadTable c) .ok x.stagedFn (x.lastUse (vget x.next.tables none (par c 0)) (vget x.last.tables none (par c 0))) false) ∧ staged u { x.next with tables := vmod x.next.tables (par c 0) (fun _ => some loaded) })) ∧
    (∀ b : List Byte, Accepted .clrSetMatrix c s → structBytes s c = .ok b → firstBad (matrixFields p b) = none →
      ∃ u : State, exec (.clrSetMatrix c) s = .next (u.complete (ref .clrSetMatrix c) .ok x.stagedFn 0 false) ∧ staged u { x.next with matrix := b }) ∧
    (∀ b : List Byte, Accepted .clrSetSpectral c s → structBytes s c = .ok b →
      (∀ u ch, u < 4 → ch < 4 → ch ∈ pfChannels p ∨ f16 b (0x30 + 10 * u + 2 * ch) = 0) → s.setFaults p { x.next with spectral := b } .other = [] →
      ∃ u : State, exec (.clrSetSpectral c) s = .next (u.complete (ref .clrSetSpectral c) .ok x.stagedFn 0 false) ∧ staged u { x.next with spectral := b }) ∧
    (Accepted .clrLoadLut3d c s →
      (c.aux = 0 → structFor s c .none = .ok [] → s.setFaults p { x.next with look := none } .other = [] →
        ∃ u : State, exec (.clrLoadLut3d c) s = .next (u.complete (ref .clrLoadLut3d c) .ok x.stagedFn (x.lastUse x.next.look x.last.look) false) ∧ staged u { x.next with look := none }) ∧
      (∀ t, c.aux ≠ 0 → tableBytes s c 64 (fun t => f32 t 0x1C) = .ok t →
        (crc32c (t.drop 64) ≠ f32 t 0x20 → exec (.clrLoadLut3d c) s = .next (s.complete (ref .clrLoadLut3d c) .checkMismatch (crc32c (t.drop 64)) (f32 t 0x20) false)) ∧
        (crc32c (t.drop 64) = f32 t 0x20 → firstBad (lookFields t) = none → s.setFaults p { x.next with look := some loaded } .look = [] →
          ∃ u : State, exec (.clrLoadLut3d c) s = .next (u.complete (ref .clrLoadLut3d c) .ok x.stagedFn (x.lastUse x.next.look x.last.look) false) ∧ staged u { x.next with look := some loaded }))) ∧
    (Accepted .clrLoadCurve c s →
      let n := par c 0
      let set (o : Option Loaded) : ParamSet := { x.next with curves := vmod x.next.curves n (fun _ => o) }
      let last := x.lastUse (vget x.next.curves none n) (vget x.last.curves none n)
      (c.aux = 0 → structFor s c .none = .ok [] → s.setFaults p (set none) .other = [] →
        ∃ u : State, exec (.clrLoadCurve c) s = .next (u.complete (ref .clrLoadCurve c) .ok x.stagedFn last false) ∧ staged u (set none)) ∧
      (∀ t, c.aux ≠ 0 → tableBytes s c 16 (fun t => 16 + 8192 * f8 t 1) = .ok t →
        (crc32c (t.drop 16) ≠ f32 t 4 → exec (.clrLoadCurve c) s = .next (s.complete (ref .clrLoadCurve c) .checkMismatch (crc32c (t.drop 16)) (f32 t 4) false)) ∧
        (crc32c (t.drop 16) = f32 t 4 → firstBad (curveFields t 0 (n != 3 && !pfMono p)) = none → s.setFaults p (set (some loaded)) .other = [] →
          ∃ u : State, exec (.clrLoadCurve c) s = .next (u.complete (ref .clrLoadCurve c) .ok x.stagedFn last false) ∧ staged u (set (some loaded)))))

/-- RAW_TAP, CLR_SET_OUTPUT and STAT_CONFIGURE configure, release and remove a ring; EXP_APPLY issues an apply and EXP_SET_LIMITS replaces
the limits (R134, R156, R168, R170, R174, R176). -/
def Obligations.RingsAndAppliesAreConfigured : Prop :=
  ∀ (c : Cmd) (s : State) (i : Fin 48), s.cams.find c.handle = some i.val →
    let x := s.cam i.val
    let p := x.profile
    let became (u : State) (y : CamCtx) : Prop := u.cam i.val = y ∧ Only [.cams] s u
    let count := x.cfgCount + 1
    let op := par c 0
    (Accepted .rawTap c s →
      let o := bitsOf op 1 0
      let tap := bitsOf op 4 4
      let point := bitsOf op 10 8
      let fm := bitsOf op 15 12
      let size := tapSlotSize p point fm
      vget x.tapOwner 0 tap = 0 →
      (∀ b : Buffer, o = 0 → point ≤ 4 → tapFormatOk p point fm = true → 1 ≤ par c 1 → par c 1 ≤ 64 → 1 ≤ par c 2 → typeOf c.aux = 1 →
        s.buffer c.aux = some b → par c 1 * size ≤ b.size → needRing s c.handle (0x410 + tap) b.base (par c 1 * size) = .ok () →
        ∃ u : State, exec (.rawTap c) s = .next (u.complete (ref .rawTap c) .ok x.stagedFn size false) ∧ became u { x with cfgCount := count, next := { x.next with taps := vmod x.next.taps tap (fun _ => some { id := count, point := point, format := fm, slots := par c 1, every := par c 2, base := b.base, slotSize := size }) } }) ∧
      (o = 1 → c.aux = 0 → ∃ n, ∃ u : State, exec (.rawTap c) s = .next (u.complete (ref .rawTap c) .ok n 0 false) ∧ became u { x with taps := vmod x.taps tap (fun r => r.release 0 (fun q => q.used && q.upTo x.run (par c 3))) }) ∧
      (o = 2 → c.aux = 0 → ∃ u : State, exec (.rawTap c) s = .next (u.complete (ref .rawTap c) .ok x.stagedFn 0 false) ∧ became u { x with next := { x.next with taps := vmod x.next.taps tap (fun _ => none) } })) ∧
    (Accepted .clrSetOutput c s →
      let n := bitsOf op 1 0
      let o := bitsOf op 9 8
      (∀ (b : List Byte) (y : Buffer), o = 0 → structFor s c (.read 32) = .ok b → vget x.consumers [] n = [] →
        firstBad (if n = 3 then indexFields b else outputFields p b) = none → typeOf c.aux = 1 → s.buffer c.aux = some y →
        let slots := if n = 3 then f8 b 1 else f8 b 3
        let size := outSlotSize p n b
        let cfg : OutCfg := { id := count, blk := b, slots := slots, every := if n = 3 then f8 b 2 else f8 b 8, hostRead := if n = 3 then bitOf (f8 b 3) 0 else bitOf (f8 b 9) 0, base := y.base, slotSize := size }
        let set : ParamSet := { x.next with outs := vmod x.next.outs n (fun _ => some cfg) }
        slots * size ≤ y.size → needRing s c.handle (0x520 + n) y.base (slots * size) = .ok () → s.setFaults p set (.output n) = [] →
        ∃ u : State, exec (.clrSetOutput c) s = .next (u.complete (ref .clrSetOutput c) .ok x.stagedFn size false) ∧ became u { x with cfgCount := count, next := set }) ∧
      (o = 1 → c.aux = 0 → structFor s c .none = .ok [] → ∃ k, ∃ u : State, exec (.clrSetOutput c) s = .next (u.complete (ref .clrSetOutput c) .ok k 0 false) ∧ became u { x with outs := vmod x.outs n (fun r => r.release 0 (fun q => q.upTo x.run (par c 1))) }) ∧
      (o = 2 → c.aux = 0 → structFor s c .none = .ok [] → vget x.consumers [] n = [] →
        let set : ParamSet := { x.next with outs := vmod x.next.outs n (fun _ => none) }
        s.setFaults p set (.output n) = [] → ∃ u : State, exec (.clrSetOutput c) s = .next (u.complete (ref .clrSetOutput c) .ok x.stagedFn 0 false) ∧ became u { x with next := set })) ∧
    (Accepted .statConfigure c s →
      (∀ (b : List Byte) (y : Buffer), op = 0 → structFor s c (.read 32) = .ok b → firstBad (statFields p b) = none → typeOf c.aux = 1 →
        s.buffer c.aux = some y → f8 b 1 * statSlotSize b ≤ y.size → needRing s c.handle 0x530 y.base (f8 b 1 * statSlotSize b) = .ok () →
        ∃ u : State, exec (.statConfigure c) s = .next (u.complete (ref .statConfigure c) .ok x.stagedFn (statSlotSize b) false) ∧ became u { x with cfgCount := count, next := { x.next with stats := some { id := count, blk := b, slots := f8 b 1, hostRead := bitOf (f8 b 0) 4, base := y.base, slotSize := statSlotSize b } } }) ∧
      (op = 1 → c.aux = 0 → structFor s c .none = .ok [] → ∃ k, ∃ u : State, exec (.statConfigure c) s = .next (u.complete (ref .statConfigure c) .ok k 0 false) ∧ became u { x with statRing := x.statRing.release 0 (fun q => q.upTo x.run (par c 1)) }) ∧
      (op = 2 → c.aux = 0 → structFor s c .none = .ok [] →
        ∃ u : State, exec (.statConfigure c) s = .next (u.complete (ref .statConfigure c) .ok x.stagedFn 0 false) ∧ became u { x with next := { x.next with stats := none } })) ∧
    (∀ b : List Byte, Accepted .expApply c s → structBytes s c = .ok b → firstBad (applyFields p x.limits b) = none → needRoles s x b = .ok () →
      x.applies.length < 16 → ¬ (x.failed = true ∧ apGroups b ≠ []) →
      let r := ref .expApply c
      let next := bitOf (par c 1) 0
      let runs := x.state = .running ∨ x.state = .stopping
      let ahead := (op + 2 ^ 32 - x.fnNextAt s.ns % 2 ^ 32) % 2 ^ 32
      let want := x.fnNextAt s.ns + ahead
      let g := s.host.feat.guard
      let first := x.firstTarget s.ns g b
      let issued (u : State) (target : Nat) : Prop := ∃ a : Apply, (u.cam i.val).applies = x.applies ++ [a] ∧ a.id = x.applyNext ∧ a.blk = b ∧ a.target = target ∧
        a.by_ = some r ∧ (u.cam i.val).applyNext = x.applyNext + 1 ∧ Only [.cams, .lanes, .out] s u
      (¬ runs → next = true ∨ op = 0 → ∃ u : State, exec (.expApply c) s = .next (u.keepInFlight r) ∧ issued u 0 ∧ Only [.cams] s u) ∧
      (runs → next = true → ∃ u : State, exec (.expApply c) s = .next (u.keepInFlight r) ∧ issued u first) ∧
      (runs → next = false → ahead ≤ 64 →
        (x.achievable s.ns g b want = true → ∃ u : State, exec (.expApply c) s = .next (u.keepInFlight r) ∧ issued u want) ∧
        (x.achievable s.ns g b want = false → strict c = false → ∃ u : State, exec (.expApply c) s = .next (u.keepInFlight r) ∧ issued u first) ∧
        (x.achievable s.ns g b want = false → strict c = true → ∃ u : State,
          exec (.expApply c) s = .next (u.complete r .tooLate (first % 2 ^ 32) 0 false) ∧
          u.cam i.val = { x with cnt := { x.cnt with tooLate := x.cnt.tooLate.satInc } } ∧ Only [.cams] s u))) ∧
    (∀ b : List Byte, Accepted .expSetLimits c s → structBytes s c = .ok b → firstBad (limitFields p b) = none →
      ∃ u : State, exec (.expSetLimits c) s = .next (u.complete (ref .expSetLimits c) .ok 0 0 false) ∧ became u { x with limits := b })

/-! ## Journeyman (chapter 11) -/

/-- Kernels are loaded, bound, parametrised, unbound and unloaded, and a policy kernel takes a camera's role (R178, R295, R298, R299,
R310, R311, R312). -/
def Obligations.KernelsAreLoadedAndBound : Prop :=
  ∀ (c : Cmd) (s : State),
    (∀ (keyOk sigOk : Bool) (img : List Byte), Accepted .jmLoadKernel c s → 1 ≤ par c 0 → par c 0 ≤ 128 →
      tableBytes s c 256 (fun _ => c.ptrLen.toNat) = .ok img →
      let h := img.take 256
      let free := (List.range 128).filter (fun r => (s.mgmt.units.unitOf .siteU r).isSome && s.jm.kernels.all (fun k => !k.roles.contains r))
      let fails (st : Status) (r0 : Nat) : Prop := exec (.jmLoadKernel c keyOk sigOk) s = .next (s.complete (ref .jmLoadKernel c) st r0 0 false)
      (imageOk h = false → fails .firmwareRejected 1) ∧
      (imageOk h = true → img.length = 256 + khLen h + khState h →
        (∀ k, signatureFault s.mgmt.fw.ownerKey.isSome (khSigner h) keyOk sigOk = some k → fails .firmwareRejected k) ∧
        (signatureFault s.mgmt.fw.ownerKey.isSome (khSigner h) keyOk sigOk = none →
          (free.length < par c 0 → fails .notReady 0xA0) ∧
          (par c 0 ≤ free.length → ∃ (u : State) (k : Kernel),
            exec (.jmLoadKernel c keyOk sigOk) s = .next (u.complete (ref .jmLoadKernel c) .ok (s.nextHandle 8).toNat (s.capacity k) false) ∧
            u.jm.kernels = s.jm.kernels ++ [k] ∧ k.handle = s.nextHandle 8 ∧ k.head = h ∧ k.body = img.drop 256 ∧ k.roles = free.take (par c 0) ∧
            k.faulted = false ∧ Only [.jm, .issued, .fabric] s u)))) ∧
    (∀ k : Kernel, Accepted .jmBindStage c s → s.kernel c.handle = some k → typeOf c.aux = (if khClass k.head = 2 then 3 else 2) →
      s.liveHandle c.aux = true →
      let r := ref .jmBindStage c
      let op := par c 0 % 4
      let room := k.unload = none ∧ k.faulted = false ∧ (s.bindsOf k.handle).length < 8
      let staged (hook : Nat) (y : KBind) : Prop := y.kernel = k.handle ∧ y.target = c.aux ∧ y.hook = hook ∧ y.by_ = some r ∧ y.live = false ∧
        ∃ u : State, exec (.jmBindStage c) s = .next (u.keepInFlight r) ∧ u.jm.binds = s.jm.binds ++ [y] ∧ Only [.jm] s u
      (∀ (cam : Nat) (b : List Byte) (buf : Buffer), op = 0 → par c 1 = 0 → khClass k.head = 0 → room → s.cams.find c.aux = some cam →
        ((s.cam cam).state = .configured ∨ (s.cam cam).state = .running) → structFor s c (.read 32) = .ok b → firstBad (bindFields k.head b) = none →
        let size := hookSlotSize k.head (pfW (s.cam cam).profile) (pfH (s.cam cam).profile)
        let charge := tileCharge (s.cam cam).profile (f8 b 2)
        let left := s.capacity k - s.charged k.handle
        typeOf (BitVec.ofNat 32 (f32 b 4)) = 1 → s.buffer (BitVec.ofNat 32 (f32 b 4)) = some buf → f32 b 8 + f8 b 1 * size ≤ buf.size →
        (left < charge → exec (.jmBindStage c) s = .next (s.complete r .budgetExceeded charge left false)) ∧
        (charge ≤ left → needRing s c.aux (0xA20 + f8 b 0 % 2) (buf.base + f32 b 8) (f8 b 1 * size) = .ok () → ∃ y, y.blk = b ∧ y.charge = charge ∧ staged (f8 b 0 % 2) y)) ∧
      (∀ e, op = 0 → par c 1 = 0 → khClass k.head = 2 → room → s.enc c.aux = some e → e.closing = false → e.ended = false → e.faulted = false →
        structFor s c .none = .ok [] → ∃ y, y.fromSeq = s.seqFrom e ∧ staged 3 y) ∧
      (∀ b, s.bindNamed k c = some b →
        (op = 1 → k.faulted = false → structFor s c .none = .ok [] → ∃ (u : State) (n : Nat),
          exec (.jmBindStage c) s = .next (u.complete r .ok n 0 false) ∧ u.jm.kernels = s.jm.kernels ∧ u.jm.binds.length = s.jm.binds.length ∧ Only [.jm] s u) ∧
        (op = 2 → par c 1 = 0 → structFor s c .none = .ok [] → khClass k.head ≠ 1 →
          (b.live = true → ∃ u : State, exec (.jmBindStage c) s = .next (u.complete r .ok 0 0 false) ∧ Only [.jm] s u ∧
            u.jm.binds = s.jm.binds.map (fun y => if y = b then { y with leaving := true, fromSeq := ((s.enc c.aux).map s.seqFrom).getD 0 } else y)) ∧
          (b.live = false → ∃ u : State, exec (.jmBindStage c) s = .next (u.complete r .ok 0 0 false) ∧ u.jm.binds = s.jm.binds.filter (fun y => y != b) ∧
            Only [.jm, .host, .mgmt] s u)) ∧
        (∀ cam, op = 2 → par c 1 = 0 → structFor s c .none = .ok [] → khClass k.head = 1 → s.cams.find c.aux = some cam → (s.cam cam).next.stats.isSome = true →
          ∃ u : State, exec (.jmBindStage c) s = .next (u.complete r .ok 0 0 false) ∧ Only [.cams] s u ∧ ∀ i, i < 2 → (s.cam cam).bindNext.toList[i]? = some none →
            vget (s.cam cam).policies none i = some k.handle → vget (u.cam cam).bindNext none i = some none) ∧
        (∀ q, op = 3 → par c 1 = 0 → k.faulted = false → c.ptrLen.toNat = khParam k.head → structFor s c (if khParam k.head = 0 then .none else .read (khParam k.head)) = .ok q →
          ∃ u : State, exec (.jmBindStage c) s = .next (u.complete r .ok 0 0 false) ∧ Only [.jm] s u ∧
            u.jm.binds = s.jm.binds.map (fun y => if y = b then (if khClass k.head = 0 ∧ y.live = true then { y with nextParams := some q } else { y with params := q }) else y)))) ∧
    (∀ k : Kernel, Accepted .jmUnload c s → s.kernel c.handle = some k → k.unload = none →
      let r := ref .jmUnload c
      ((∀ b ∈ s.bindsOf k.handle, s.superseded b = true) → ∃ u : State, exec (.jmUnload c) s = .next ((u.keepInFlight r).jmSettle) ∧
        (∀ y ∈ u.jm.kernels, y.handle = k.handle → y.unload = some r) ∧ Only [.jm] s u) ∧
      (∀ b, (s.bindsOf k.handle).find? (fun b => !s.superseded b) = some b →
        exec (.jmUnload c) s = .next (s.complete r .conflict b.target.toNat (0xA00 + khClass k.head) false))) ∧
    (∀ (i : Fin 48) (k : Kernel), Accepted .expPolicyBind c s → s.cams.find c.handle = some i.val → par c 0 < 2 →
      let r := ref .expPolicyBind c
      let x := s.cam i.val
      let good := typeOf c.aux = 8 ∧ s.kernel c.aux = some k ∧ khClass k.head = 1 ∧ k.unload = none ∧ k.faulted = false ∧ x.next.stats.isSome = true ∧
        (s.bindsOf k.handle).length < 8
      let staged (t : State) (new : Option Handle) : Prop := vget (t.cam i.val).bindNext none (par c 0) = some new ∧ (t.cam i.val).policies = x.policies ∧
        Only [.host, .cams, .jm] s t
      let atOnce (new : Option Handle) : Prop := ∃ u : State, exec (.expPolicyBind c) s = .next (u.complete r .ok 0 0 false) ∧ staged u new
      let later (new : Option Handle) : Prop := ∃ t : State, exec (.expPolicyBind c) s = .next t ∧ t.jm.polBy = s.jm.polBy ++ [(i.val, r)] ∧ staged t new
      (good → (x.state ≠ .running → atOnce (some k.handle)) ∧ (x.state = .running → later (some k.handle))) ∧
      (c.aux = 0 → x.next.stats.isSome = true → (x.state ≠ .running → atOnce none) ∧ (x.state = .running → later none)) ∧
      (c.aux = 0 → x.next.stats = none → ∃ u : State, exec (.expPolicyBind c) s = .next (u.complete r .ok 0 0 false) ∧
        vget (u.cam i.val).policies none (par c 0) = none))

/-- Invocations start on a free thread, end with their result, a trap or a takeover, and are stopped by their limits (R296, R304, R307,
R313, R314, R315). -/
def Obligations.InvocationsRunAndEnd : Prop :=
  ∀ (s : State) (role : Fin 128) (th : Fin 4),
    (∀ (k : Kernel) (x : Nat × Nat × JobKind) (n : Nat) (poisoned : Bool),
      let s1 := s.jmRates
      s1.jm.kernels.find? (fun k => k.roles.contains role.val) = some k → (s1.mgmt.units.unitOf .siteU role.val).isSome = true →
      (List.range 4).find? (fun t => s1.jm.running.all (fun i => !(i.role == role.val && i.thread == t))) = some n → k.faulted = false →
      minBy (fun x => x.1) (s1.pendings k) = some x → ∃ t : State, exec (.jmInvocationStart role poisoned) s = .next t ∧
        t.jm.running = s1.jm.running ++ [{ kernel := k.handle, slot := x.2.1, kind := x.2.2, role := role.val, thread := n, epoch := s1.mgmt.units.epochOf .siteU role.val, startNs := s1.ns, wasReset := poisoned && khClass k.head != 0 }] ∧
        Only [.jm] s1 t) ∧
    (∀ (i : Invoc), s.invocation role.val th.val = some i →
      let epoch := s.mgmt.units.epochOf .siteU role.val
      let ended (t : State) : Prop := i ∉ t.jm.running ∧ ∀ k' ∈ t.jm.kernels, k'.handle = i.kernel → k'.consec = 0 ∧
        ∃ k ∈ s.jm.kernels, k.handle = i.kernel ∧ k'.cnt.invocations = k.cnt.invocations.satInc ∧ k'.cnt.traps = k.cnt.traps
      let trapped (t : State) (code : Nat) : Prop := i ∉ t.jm.running ∧ ∀ k' ∈ t.jm.kernels, k'.handle = i.kernel → k'.lastTrap = code ∧
        ∃ k ∈ s.jm.kernels, k.handle = i.kernel ∧ k'.cnt.traps = k.cnt.traps.satInc
      let dead (t : State) : Prop := ∀ p, s.mgmt.units.unitOf .siteU role.val = some p → s.mgmt.units.roleOf .siteU p = some role.val →
        (t.mgmt.units.unit .siteU p).state = .fenced ∧ t.mgmt.units.epochOf .siteU role.val = nextEpoch epoch
      (i.epoch ≠ epoch → ∀ res, exec (.jmInvocationEnd role th res) s = .next (s.dropStale (unitHandle 0x03 role.val) i.epoch)) ∧
      (i.epoch = epoch →
        (∀ v req st cam run fn, i.kind = .policy cam run fn → ∃ t : State, exec (.jmInvocationEnd role th (.policy v req st)) s = .next t ∧ ended t) ∧
        (∀ v bits qp st h seq fn, i.kind = .rate h seq fn → ∃ t : State, exec (.jmInvocationEnd role th (.rate v bits qp st)) s = .next t ∧ ended t) ∧
        (∀ pl reds cam hook run fn tx ty, i.kind = .tile cam hook run fn tx ty → reds.all (redOk (s.khead i.kernel)) = true →
          ∃ t : State, exec (.jmInvocationEnd role th (.tile pl reds)) s = .next t ∧ ended t) ∧
        (∀ code, 1 ≤ code → code ≤ 5 → ∃ t : State, exec (.jmInvocationEnd role th (.trap code)) s = .next t ∧ trapped t code) ∧
        (∃ t : State, exec (.jmInvocationEnd role th .fault) s = .next t ∧ dead t)) ∧
      (∀ cam hook run fn tx ty, i.kind = .tile cam hook run fn tx ty → ∃ t : State, exec (.overrun role th) s = .next t ∧ trapped t 6) ∧
      (∀ cam run fn, i.kind = .policy cam run fn → ∃ t : State, exec (.watchdog role th) s = .next t ∧ trapped t 7) ∧
      (∃ t : State, exec (.siteStall role) s = .next t ∧ dead t)) ∧
    (∀ (h : Handle) (e : EncSession), s.enc h = some e → e.rateBound = true → s.rateWaits e = true →
      ∃ (t : State) (e' : EncSession), exec (.rateKernelTimeout h) s = .next t ∧ t.enc h = some e' ∧ e'.answer = .missed) ∧
    (∀ (cam : Fin 48) (fn : Nat), ∃ t : State, exec (.tileDeadline cam fn) s = .next t ∧ (∀ f ∈ t.jm.hooks, f.cam = cam.val → f.fn = fn → f.left = []) ∧
      (∀ f ∈ s.jm.hooks, f.cam = cam.val → f.fn = fn → ∀ i ∈ t.jm.running, ∀ tx ty, i.kind ≠ .tile f.cam f.hook f.run f.fn tx ty))

/-! ## Encode, decode and Cooper (chapters 07 to 09) -/

/-- Encode sessions are opened, closed and steered, and encoder roles start, commit, drop and recode their pictures (R197, R200, R201,
R205, R212, R214, R216, R217). -/
def Obligations.EncodeSessionsAndPictures : Prop :=
  ∀ (c : Cmd) (s : State),
    (∀ (cam : Nat) (b : List Byte) (o : OutCfg), Accepted .encSessionOpen c s → s.cams.find c.handle = some cam → structBytes s c = .ok b →
      let x := s.cam cam
      let p := x.profile
      let r := ref .encSessionOpen c
      let every := Nat.max 1 o.every
      let charge := encCharge p b every
      let used := sumNat ((s.encs.filter (fun e => !e.released)).map EncSession.charge)
      let z := sbCrop p b
      let pool := 4096 + sbSlots b * (encKcs (sbProfile b) (profileDepth (sbProfile b)) z.2.2.1 z.2.2.2).bound
      let ring := 64 + 2 * largestReservation b (b.drop 0x40) z.2.2.1 z.2.2.2
      firstBad (sessionFields p b) = none → s.encs.length < 96 → (x.state = .configured ∨ x.state = .running) →
      vget x.next.outs none (sbSrc b) = some o → profileTakes (sbProfile b) o.blk = true → sbG b + 2 ≤ o.slots →
      sbIdrPeriod b % (sbG b * every) = 0 → sizeLimits p b every = true → firstBad (rateLimits b (b.drop 0x40)) = none →
      charge ≤ 3200 → charge + used ≤ 3200 * s.mgmt.units.filled .encU →
      (bitOf (f8 b 3) 1 = true → c.aux = 0 → exec (.encSessionOpen c) s = .next (s.complete r .ok (pool % 2 ^ 32) (ring % 2 ^ 32) false)) ∧
      (∀ y : Buffer, bitOf (f8 b 3) 1 = false → typeOf c.aux = 1 → s.buffer c.aux = some y → ring ≤ sbRingLen b → sbRingOff b + sbRingLen b ≤ y.size →
        sbStatOff b + 64 * sbStatSlots b ≤ y.size → pool ≤ sbPoolLen b → sbPoolOff b + sbPoolLen b ≤ y.size →
        meets (sbRingOff b) (sbRingLen b) (sbStatOff b) (64 * sbStatSlots b) = false →
        meets (sbRingOff b) (sbRingLen b) (sbPoolOff b) (sbPoolLen b) = false →
        meets (sbStatOff b) (64 * sbStatSlots b) (sbPoolOff b) (sbPoolLen b) = false → needUnpinned s y.base y.size = .ok () →
        ∃ (u : State) (e : EncSession), exec (.encSessionOpen c) s = .next (u.complete r .ok (s.nextHandle 3).toNat (e.first % 2 ^ 32) false) ∧
          u.encs = s.encs ++ [e] ∧ e.handle = s.nextHandle 3 ∧ e.cam = cam ∧ e.src = o ∧ e.charge = charge ∧ e.closing = false ∧ e.seqNext = 0 ∧
          e.first = roundUp (if x.state = .running then x.fnNext else 0) every ∧
          (cam < 48 → vget (u.cam cam).consumers [] (sbSrc b) = vget x.consumers [] (sbSrc b) ++ [s.nextHandle 3]) ∧ Only [.encs, .cams, .issued] s u)) ∧
    (∀ e : EncSession, s.enc c.handle = some e →
      (Accepted .encSessionClose c s →
        (e.closing = true → exec (.encSessionClose c) s = .next (s.complete (ref .encSessionClose c) .notReady 0x61 0 false)) ∧
        (e.closing = false → ∃ t : State, exec (.encSessionClose c) s = .next t ∧ ∀ x ∈ t.encs, x.handle = e.handle → x.closing = true)) ∧
      (e.faulted = false → e.closing = false → e.ended = false →
        (∀ r : List Byte, Accepted .encSetRate c s → structBytes s c = .ok r → firstBad (rateFields r 0 ++ rateLimits e.blk r) = none → ∃ u : State,
          exec (.encSetRate c) s = .next (u.complete (ref .encSetRate c) .ok (e.seqNext % 2 ^ 32) 0 false) ∧ Only [.encs, .jm, .host, .mgmt] s u ∧
          ∃ y, u.enc c.handle = some y ∧ { y with rateBound := e.rateBound } = { e with rateNext := some r }) ∧
        (Accepted .encForceIdr c s →
          let soonest := roundUp e.gopNext e.every
          let next := bitOf (par c 1) 0
          let late := next = false ∧ par c 0 < e.gopNext
          (late → strict c = true → exec (.encForceIdr c) s = .next (s.complete (ref .encForceIdr c) .tooLate (soonest % 2 ^ 32) 0 false)) ∧
          (¬ (late ∧ strict c = true) → ∃ u : State, exec (.encForceIdr c) s = .next (u.keepInFlight (ref .encForceIdr c)) ∧ Only [.encs] s u ∧
            u.enc c.handle = some { e with targets := e.targets ++ [{ fn := if next = true ∨ late then soonest else par c 0, by_ := ref .encForceIdr c, adjusted := decide late }] })) ∧
        (∀ p : RefPic, Accepted .encRefMark c s → e.refs.find? (fun r => r.fn % 2 ^ 32 == par c 0) = some p →
          let op := bitsOf (par c 1) 1 0
          let n := bitsOf (par c 1) 5 4
          let marks (refs : List RefPic) : Prop := ∃ u : State, exec (.encRefMark c) s = .next (u.complete (ref .encRefMark c) .ok 0 0 false) ∧
            u.enc c.handle = some { e with refs := refs }.trim ∧ Only [.encs] s u
          (op = 0 → n < sbLtr e.blk → marks (e.refs.map (fun r => if r.fn = p.fn then { r with long := some n } else if r.long = some n then { r with long := none } else r))) ∧
          (op = 1 → marks (e.refs.map (fun r => if r.fn = p.fn then { r with long := none } else r))) ∧
          (op = 2 → marks (e.refs.filter (fun r => Nat.blt r.fn p.fn)))))) ∧
    (∀ (r : Fin 8) (e : EncSession), (s.mgmt.units.unitOf .encU r.val).isSome = true → s.encBusy r.val = false → s.encPick = some e →
      let epoch := s.mgmt.units.epochOf .encU r.val
      (e.orphan = none → s.mem.mem.poisonIn (e.base + sbPoolOff e.blk) 4096 = none → ∃ (t : State) (x : EncSession) (n : EncNext) (q : EncPic),
        exec (.encPictureStart r) s = .next t ∧ e.formed.next = some n ∧ x ∈ t.encs ∧ x.handle = e.handle ∧ x.pics = e.formed.pics ++ [q] ∧
        q.fn = n.frame.fn ∧ q.type = n.type ∧ q.layer = n.layer ∧ q.budget = n.plan.1 ∧ q.qpBase = n.plan.2.2 ∧ q.role = some r.val ∧ q.epoch = epoch ∧
        q.startNs = s.ns ∧ q.rate = e.rate ∧ q.seq = e.formed.seqNext ∧ x.seqNext = e.formed.seqNext + 1 ∧ Only [.encs, .fabric] s t) ∧
      (∀ q, e.orphan = some q → ∃ t : State, exec (.encPictureStart r) s = .next t ∧ (∃ x ∈ t.encs, x.handle = e.handle ∧
        ∀ p ∈ x.pics, p.seq = q.seq → p.role = some r.val ∧ p.epoch = epoch) ∧ Only [.encs, .fabric] s t)) ∧
    (∀ (r : Fin 8) (epoch : Nat) (bs : List Byte) (cs : List EncCtu) (recon : List (List Nat)),
      (epoch ≠ s.mgmt.units.epochOf .encU r.val → exec (.encPictureCommit r bs { epoch := epoch, ctus := cs } recon) s = .next (s.dropStale (unitHandle 0x05 r.val) epoch)) ∧
      (∀ (e : EncSession) (q : EncPic) (f : EncFrame) (n : PicResult), epoch = s.mgmt.units.epochOf .encU r.val →
        s.encs.find? (fun e => (e.onRole r.val).isSome) = some e → e.onRole r.val = some q → (e.pics.head?).map EncPic.seq = some q.seq →
        e.frames.find? (fun f => f.fn == q.fn) = some f →
        let au := e.auHead q.type q.layer ++ bs
        let au_ := e.auRecord q f (picFlags q f n (Nat.blt q.deadline s.ns)) au
        s.picResult e q f (8 * (e.auHead q.type q.layer).length) cs = some n → n.bits = 8 * au.length → e.slicesOk q.type q.layer bs = true →
        e.roomFor (s.readPos e.ringAddr) (e.gapRecords ++ [au_]) = true →
        ∃ t : State, exec (.encPictureCommit r bs { epoch := epoch, ctus := cs } recon) s = .next t ∧ ∀ x ∈ t.encs, x.handle = e.handle →
          (∀ p ∈ x.pics, p.seq ≠ q.seq) ∧ ∃ y ∈ s.encs, y.handle = e.handle ∧ x.cnt.pictures = y.cnt.pictures.satInc)) ∧
    (∃ t : State, exec .encRingPoll s = .next t ∧ Only [.encs] s t ∧
      t.encs = s.encs.map (fun e => if e.released then e else { e with rd := s.readPos e.ringAddr })) ∧
    (∀ (h : Handle) (e : EncSession) (n : EncNext), s.enc h = some e → e.faulted = false →
      let v := s.encView e
      v.formed.next = some n → v.formed.fits n.space = false → n.deadline ≤ s.ns → ∃ t : State, exec (.encPictureDrop h) s = .next t ∧
        ∀ x ∈ t.encs, x.handle = h → x.seqNext = v.seqNext + 1 ∧ x.cnt.ringDrops = v.cnt.ringDrops.satInc ∧
          (v.formed.anchorDue = true → ∀ f ∈ x.frames, f.fn = n.frame.fn → f.dropped = true ∧ f.present = some false) ∧
          (v.formed.anchorDue = false → (n.frame.fn, 2) ∈ x.gaps)) ∧
    (∀ (r : Fin 8) (p : Nat), s.encBusy r.val = true → s.mgmt.units.unitOf .encU r.val = some p → s.mgmt.units.roleOf .encU p = some r.val →
      ∃ t : State, exec (.encWatchdog r) s = .next t ∧ (t.mgmt.units.unit .encU p).state = .fenced ∧
        t.mgmt.units.epochOf .encU r.val = nextEpoch (s.mgmt.units.epochOf .encU r.val) ∧
        (∀ x ∈ t.encs, ∀ q ∈ x.pics, q.role = some r.val → q.redone = true ∧ q.epoch = t.mgmt.units.epochOf .encU r.val) ∧ Only [.encs, .mgmt, .host] s t)

/-- Decode sessions are opened, fed, drained and closed, and decoder cores start pictures, put them out, skip them and fail (R219, R220,
R221, R224, R225, R234, R237). -/
def Obligations.DecodeSessionsAndCores : Prop :=
  ∀ (c : Cmd) (s : State),
    (∀ (b : List Byte) (y : Buffer), Accepted .decSessionOpen c s → structBytes s c = .ok b → firstBad (decFields b) = none → s.dec.sessions.length < 16 →
      typeOf c.aux = 1 → s.buffer c.aux = some y → 4096 + (dbDpb b + 1) * dbBound b ≤ f32 b 0x20 → f32 b 0x1C + f32 b 0x20 ≤ y.size →
      dbSlots b * dbSlotSize b ≤ f32 b 0x28 → f32 b 0x24 + f32 b 0x28 ≤ y.size → meets (f32 b 0x1C) (f32 b 0x20) (f32 b 0x24) (f32 b 0x28) = false →
      let budget := 2400 * s.mgmt.units.filled .decU
      let used := sumNat (s.dec.sessions.map DecSession.charge)
      let fits := decCharge b ≤ 2400 ∧ decCharge b + used ≤ budget
      (¬ fits → exec (.decSessionOpen c) s = .next (s.complete (ref .decSessionOpen c) .budgetExceeded (decCharge b) (budget - used) false)) ∧
      (fits → needUnpinned s y.base y.size = .ok () → ∃ (u : State) (e : DecSession),
        exec (.decSessionOpen c) s = .next (u.complete (ref .decSessionOpen c) .ok (s.nextHandle 4).toNat (dbSlotSize b) false) ∧
        u.dec.sessions = s.dec.sessions ++ [e] ∧ e.handle = s.nextHandle 4 ∧ e.blk = b ∧ e.charge = decCharge b ∧ e.waiting = [] ∧ e.closing = none ∧
        e.ring = Ring.fresh 0 (y.base + f32 b 0x24) (dbSlotSize b) (dbSlots b) ∧ Only [.dec, .issued] s u)) ∧
    (∀ (e : DecSession) (items : List DecItem), s.decSession c.handle = some e → e.faulted = false → e.closing = none →
      (Accepted .decSubmit c s →
        let r := ref .decSubmit c
        (∀ y : Buffer, par c 0 % 4 = 0 → par c 1 = 0 → c.ptrSpace = 1 → typeOf c.aux = 1 → s.buffer c.aux = some y →
          rangeFault s c.ptr.toNat c.ptrLen.toNat (some (y.base, y.size)) = none →
          let n := c.ptrLen.toNat
          (s.stopping r = false → ∃ (u : State) (k : Nat) (x : DecSession), exec (.decSubmit c items) s = .next (u.complete r .ok n k false) ∧
            u.dec.arrivals = s.dec.arrivals + 1 ∧ u.decSession c.handle = some x ∧ x.begun = e.begun + k ∧ x.offset = e.offset + n ∧
            (items.Pairwise (fun a b => itemAt a ≤ itemAt b) → (∀ i ∈ items, itemAt i < n) →
              k = (items.filter (fun i => match i with | .begin_ _ _ _ _ => true | .lost _ => true | _ => false)).length) ∧
            Only [.dec, .host, .mgmt, .fabric] s u) ∧
          (s.stopping r = true → ∃ (u : State) (k : Nat) (x : DecSession), exec (.decSubmit c items) s = .next (u.complete r .aborted k 0 false) ∧
            k ∈ nalEnds (s.readMem c.ptr.toNat n) ∧ u.decSession c.handle = some x ∧ x.discont = true)) ∧
        (par c 0 = 1 → c.aux = 0 → c.ptr = 0 → c.ptrLen = 0 → c.ptrSpace = 0 → ∃ (u : State) (n : Nat),
          exec (.decSubmit c items) s = .next (u.complete r .ok n 0 false) ∧
          u.decSession c.handle = some { e with ring := e.ring.release 0 (fun q => q.fn % 2 ^ 32 ≤ par c 1) } ∧ Only [.dec] s u) ∧
        (par c 0 = 2 → par c 1 = 0 → c.aux = 0 → c.ptr = 0 → c.ptrLen = 0 → c.ptrSpace = 0 →
          s.stopping r = false → e.pending < 64 → ∃ t : State,
            exec (.decSubmit c items) s = .next t ∧ (∀ x ∈ t.dec.sessions, x.handle = e.handle → x.waitIrap = true) ∧ Only [.dec, .host, .mgmt] s t)) ∧
      (Accepted .decSessionClose c s → s.layerOn e.handle = none → e.pending = 0 → ∃ t : State, exec (.decSessionClose c) s = .next t ∧
          (∀ x ∈ t.dec.sessions, x.handle = e.handle → x.closing = some (some (ref .decSessionClose c))) ∧ Only [.dec, .host, .mgmt] s t)) ∧
    (∀ (k : Fin 2) (e : DecSession), (s.mgmt.units.unitOf .decU k.val).isSome = true → s.decBusy k.val = false → s.decPick = some e →
      let free (q : DecCur) : Bool := q.core.isNone && q.ended.isNone
      (e.curs.any free = true → ∃ t : State, exec (.decPictureStart k) s = .next t ∧
        (∃ x ∈ t.dec.sessions, x = { e with curs := updWhere free (fun q => { q with core := some k.val }) e.curs }) ∧ Only [.dec] s t) ∧
      (∀ p n w rest y used slot grey, e.curs.any free = false → e.waiting = .pic p n w :: rest → s.mem.mem.poisonIn (e.base + f32 e.blk 0x1C) 4096 = none →
        e.takes p = some (y, used, slot, grey) → ∃ (t : State) (x : DecSession) (q : DecCur), exec (.decPictureStart k) s = .next t ∧
          x ∈ t.dec.sessions ∧ x.handle = y.handle ∧ x.curs = y.curs ++ [q] ∧ q.core = some k.val ∧ q.info = p ∧ q.slot = slot ∧ q.decSeq = y.decSeq ∧
          q.refs = used.map DecHeld.poc ∧ x.decSeq = y.decSeq + 1 ∧ x.waiting = y.waiting.drop 1 ∧ Only [.dec, .bytes, .fabric] s t)) ∧
    (∀ (h : Handle) (e : DecSession), s.decSession h = some e →
      (∀ (k : Fin 2) q r, e.curs.find? (fun q => q.core == some k.val) = some q →
        exec (.decPictureOutput h (some (k, r))) s = exec (.decPictureOutput h none) ((s.decEnd e q r).decAdvance h)) ∧
      (∀ o rest, e.outs = o :: rest →
        (e.ringHeld = false → e.faulted = false → ∃ t : State, exec (.decPictureOutput h none) s = .next t ∧
          ∀ x ∈ t.dec.sessions, x.handle = h → ∃ y ∈ s.dec.sessions, y.handle = h ∧ x.outSeq = y.outSeq + 1 ∧ x.written = y.written + 1 ∧
            x.cnt.out = y.cnt.out.satInc) ∧
        (e.ringHeld = true → dbPaced e.blk = true → e.closing = none → e.faulted = false → o.pts + dbPeriod e.blk ≤ s.ns → ∃ t : State, exec (.decOutputSkip h) s = .next t ∧
          (∀ x ∈ t.dec.sessions, x.handle = h → ∃ y ∈ s.dec.sessions, y.handle = h ∧ x.cnt.skips = y.cnt.skips.satInc ∧ (y.waiting = [] → x.outs = y.outs.drop 1)) ∧
          Only [.dec, .host, .mgmt] s t) ∧
        (e.ringHeld = true → e.closing ≠ none → ((e.headSince.map (·.2)).getD 0) + 1000000000 ≤ s.ns → ∃ t : State, exec (.decCloseSlotTimeout h) s = .next t ∧
          (∀ x ∈ t.dec.sessions, x.handle = h → ∃ y ∈ s.dec.sessions, y.handle = h ∧ (y.waiting = [] → x.outs = y.outs.drop 1 ∧ x.discarded = y.discarded + 1)) ∧
          Only [.dec, .host, .mgmt] s t))) ∧
    (∀ k : Fin 2, s.mgmt.units.unitOf .decU k.val = some k.val → ∃ t : State, exec (.decCoreFault k) s = .next t ∧
      (t.mgmt.units.unit .decU k.val).state = .fenced ∧ t.mgmt.units.unitOf .decU k.val = none ∧
      (∀ x ∈ t.dec.sessions, ∀ q ∈ x.curs, q.core ≠ some k.val) ∧ Only [.dec, .mgmt, .host] s t)

/-- Cooper jobs wait in order, an engine takes the next one and writes its blocks, and a failed engine gives its job back (R239, R240,
R241, R243, R247). -/
def Obligations.CooperJobsRun : Prop :=
  ∀ (c : Cmd) (s : State), Inv s →
    (∀ (op : Op) (x y : Buffer) (b : List Byte), (op = .cmpJob ∨ op = .cmpExpand) → Accepted op c s → typeOf c.handle = 1 → s.buffer c.handle = some x →
      typeOf c.aux = 1 → s.buffer c.aux = some y → structBytes s c = .ok b → firstBad (jobFields b (op == .cmpExpand)) = none →
      let src := x.base + fld b 8 5
      let dst := y.base + fld b 0x10 5
      let n := f32 b 0x18
      let m := f32 b 0x1C
      needInBuffer s x (fld b 8 5) n = .ok src → needInBuffer s y (fld b 0x10 5) m = .ok dst → (c.handle = c.aux → meets src n dst m = false) →
      needUnpinned s dst m = .ok () → s.stopping (ref op c) = false → ∃ u : State, exec (if op = .cmpJob then .cmpJob c else .cmpExpand c) s = .next (u.keepInFlight (ref op c)) ∧
        u.cmp.queue = s.cmp.queue ++ [{ why := .command (ref op c) (op == .cmpExpand), src := src, srcLen := n, dst := dst, dstLen := m, mode := f8 b 0 % 2, level := if f8 b 0 / 16 = 0 then 5 else f8 b 0 / 16, log2 := f8 b 1 }] ∧
        u.cmp.engines = s.cmp.engines ∧ Only [.cmp] s u) ∧
    (∀ (i : Fin 4) (d : Bool) (j : CmpJob) (rest : List CmpJob), s.cmp.engines[i] = none → (s.mgmt.units.unitOf .cmpU i.val).isSome = true → s.tapJobs = [] →
      s.cmp.queue = j :: rest → ∃ t : State, exec (.cmpEngineDispatch i d) s = .next t ∧ t.cmp.engines[i] = some j ∧ t.cmp.queue = rest ∧ Only [.cmp, .fabric] s t) ∧
    (∀ (i : Fin 4) (j : CmpJob) (r : CmdRef) (ex : Bool), s.cmp.engines[i] = some j → j.why = .command r ex → s.stopping r = false → s.mem.mem.poisonIn j.src j.srcLen = none →
      let src := s.readMem j.src j.srcLen
      let ends (out : List Byte) (r1 : Nat) : Prop := out.length ≤ j.dstLen → ∃ u : State,
        exec (.cmpEngineDispatch i true) s = .next ((u.finish r .ok (out.length % 2 ^ 32) r1 false).cmpTake i.val) ∧
        u.readMem j.dst out.length = out ∧ (∀ a, a < j.dst ∨ j.dst + out.length ≤ a → u.mem.mem.byte a = s.mem.mem.byte a) ∧
        u.cmp.engines[i] = none ∧ u.cmp.queue = s.cmp.queue ∧ Only [.cmp, .bytes, .fabric] s u
      (ex = false → ends (cooperBlocks s.mem.mem j.mode j.level j.log2 false false j.src j.srcLen).flatten (crc32c src)) ∧
      (∀ hs out, ex = true → cooperHeads src (src.length + 1) 0 = .ok hs → sumNat (hs.map CooperHead.orig) ≤ j.dstLen → expandAll src hs = .ok out →
        ends out (hs.length % 2 ^ 32))) ∧
    (∀ i : Fin 4, s.mgmt.units.unitOf .cmpU i.val = some i.val → ∃ t : State, exec (.cmpEngineFault i) s = .next t ∧ t.cmp.engines[i] = none ∧
      (t.mgmt.units.unit .cmpU i.val).state = .fenced ∧ t.mgmt.units.unitOf .cmpU i.val = none ∧
      (∀ j r ex, s.cmp.engines[i] = some j → j.why = .command r ex → t.cmp.queue = j :: s.cmp.queue) ∧
      (s.cmp.engines[i] = none → t.cmp.queue = s.cmp.queue) ∧ Only [.cmp, .mgmt, .host] s t)

/-- What a Cooper engine has compressed expands to the source (R243, R244, R246, R247). -/
def Obligations.CompressedBlocksExpandToTheSource : Prop :=
  ∀ (m : Memory) (mode level log2 src len : Nat), mode < 2 → 16 ≤ log2 → log2 ≤ 24 → 0 < len →
    let out := (cooperBlocks m mode level log2 false false src len).flatten
    ∃ hs, cooperHeads out (out.length + 1) 0 = .ok hs ∧ hs.length = ceilDiv len (2 ^ log2) ∧ sumNat (hs.map CooperHead.orig) = len ∧
      expandAll out hs = .ok (m.read src len)

/-! ## Recording (chapter 09) -/

/-- Recording sessions are opened, armed again, marked, fed, aligned, described, drained and closed (R248, R249, R251, R255, R256, R257,
R258, R260, R263). -/
def Obligations.RecordingSessionsRun : Prop :=
  ∀ (c : Cmd) (s : State),
    (∀ (b : List Byte) (y : Buffer), Accepted .recSessionOpen c s → structBytes s c = .ok b → c.ptrLen.toNat = 128 + 16 * f8 b 2 → c.handle = 0 →
      typeOf c.aux = 1 → s.buffer c.aux = some y → s.recs.length < 32 → needUnpinned s y.base y.size = .ok () →
      let entries := (List.range (f8 b 2)).map (fun k => slice b (128 + 16 * k) 16)
      let srcs : List RecSrc := entries.map (fun en => { entry := en, pend := [], head := [], reached := 0, lastFn := none, filledTo := 0, gone := false, rtpSeq := 0, packets := 0, octets := 0 })
      firstBad (recHeadFields b y.size ++ entries.zipIdx.flatMap (fun x => recSrcFields (f8 b 0 % 4) (128 + 16 * x.2) x.1)) = none →
      needSources s 0 srcs = .ok () →
      (∀ (j : Nat) (x z : RecSrc), srcs[j]? = some x → z ∈ srcs.take j → x.kind ≠ 3 → ¬ (z.kind = x.kind ∧ z.handle = x.handle ∧ z.index = x.index)) →
      ∃ (u : State) (e : RecSession), exec (.recSessionOpen c) s = .next (u.complete (ref .recSessionOpen c) .ok (s.nextHandle 5).toNat (f32 b 0xC) false) ∧
        e ∈ u.recs ∧ e.handle = s.nextHandle 5 ∧ e.blk = b ∧ e.base = y.base ∧ e.sources.map RecSrc.entry = entries ∧ e.closing = none ∧ e.windows = [] ∧
        e.cnt.events = 0 ∧ Only [.recs, .cams, .issued, .fresh, .bytes, .out, .lanes, .fabric] s u) ∧
    (∀ e : RecSession, s.rec_ c.handle = some e → e.closing = none →
      (∀ b : List Byte, Accepted .recSessionOpen c s → structBytes s c = .ok b → c.ptrLen.toNat = 128 → f8 b 2 = 0 → f8 b 3 % 4 = 1 → c.handle ≠ 0 →
        c.aux = 0 → f64 b 0x18 % 4096 = 0 → f32 b 0x20 % 4096 = 0 → 0x100000 ≤ f32 b 0x20 → e.armed = false →
        ∃ u : State, exec (.recSessionOpen c) s = .next (u.complete (ref .recSessionOpen c) .ok e.handle.toNat (f32 e.blk 0xC) false) ∧
          (∀ x ∈ u.recs, x.handle = c.handle → x.armed = true ∧ x.sinkRd = { off := 0, wraps := 0 }) ∧ Only [.recs, .fresh, .bytes, .out, .lanes, .fabric] s u) ∧
      (Accepted .recMarkEvent c s →
        let given := (s.ns / 1000000000 / 2 ^ 32 * 2 ^ 32 + par c 0) * 1000000000 + par c 1
        let now := bitOf (par c 4) 0 = true
        (now ∨ (given ≤ s.ns + 600000000000 ∧ par c 1 < 1000000000)) → par c 2 ≤ 600000 → par c 3 ≤ 600000 →
        let mark := if now then s.ns else given
        let start := mark - par c 2 * 1000000
        let stop := mark + par c 3 * 1000000
        let ends (st : Status) (r1 : Nat) (ws : List EventWin) : Prop := ∃ u : State,
          exec (.recMarkEvent c) s = .next (u.complete (ref .recMarkEvent c) st (e.events % 2 ^ 32) r1 false) ∧
          (∀ x ∈ u.recs, x.handle = c.handle → x.windows = ws ∧ ∃ y ∈ s.recs, y.handle = c.handle ∧ x.events = y.events + 1 ∧ x.cnt.events = y.cnt.events.satInc) ∧
          Only [.recs, .fresh, .bytes, .out, .lanes, .fabric] s u
        let joined := (EventWin.join { start := start, stop := stop, opened := false } e.windows).map (fun w => { w with opened := w.opened || decide (w.start ≤ s.ns) })
        let ws := joined.filter (fun w => decide (s.ns < w.stop))
        (e.isEvent = false → ends .ok 0 e.windows) ∧
        (e.isEvent = true → e.startsShort start s.ns = true → strict c = true →
          exec (.recMarkEvent c) s = .next (s.complete (ref .recMarkEvent c) .tooLate (e.covered mark start stop) 0 false)) ∧
        (e.isEvent = true → e.startsShort start s.ns = true → strict c = false → ends .okAdjusted (e.covered mark start stop) ws) ∧
        (e.isEvent = true → e.startsShort start s.ns = false → ends .ok (e.covered mark start stop) ws)) ∧
      (Accepted .recSessionClose c s →
        let r := ref .recSessionClose c
        (bitOf (par c 0) 0 = true → ∃ u : State, u.recs = s.recs.filter (fun x => x.handle != c.handle) ∧ Only [.recs, .cams, .host] s u ∧
          exec (.recSessionClose c) s = .next (u.finish r .ok e.cnt.records.toNat ((sumNat (e.staged.map (fun x => x.bytes.length)) + sumNat (e.backlog.map RecOut.len)) % 2 ^ 32) false)) ∧
        (bitOf (par c 0) 0 = false → ∃ t : State, exec (.recSessionClose c) s = .next t ∧
          ∀ x ∈ t.recs, x.handle = c.handle → x.closing = some (some r) ∧ x.windows = []))) ∧
    (∀ (h : Handle) (e : RecSession), s.rec_ h = some e →
      (∀ (k : Nat) (x : RecSrc) (r : RecOut) (cam fn run time : Nat) (rest : List RecPend), Inv s → e.closing = none → e.sources[k]? = some x → x.kind = 3 →
        x.pend = .ledger cam fn run time :: rest → s.srcFront k x = some r → e.container = 0 → e.isEvent = false → e.sink = 0 → e.backlog = [] → x.filledTo ≤ r.time →
        (e.aligned = true → s.inOrder e k r.time = true) →
        (s.recFits e r.len = true → ∃ t : State, exec (.recSourceRecord h k) s = .next t ∧
          t.readMem (e.recAddr + (if e.area < e.wr.off + r.len then 0 else e.wr.off)) r.len = kxrRecord e.seq r ∧
          (∀ y ∈ t.recs, y.handle = h → ∃ z ∈ s.recs, z.handle = h ∧ y.seq = z.seq + 1 ∧ y.cnt.records = z.cnt.records.satInc) ∧
          (∃ y ∈ t.recs, y.handle = h ∧ ∃ q, y.sources[k]? = some q ∧ q.pend = rest) ∧ Only [.recs, .bytes, .fabric] s t) ∧
        (s.recFits e r.len = false → ∃ t : State, exec (.recSourceRecord h k) s = .next t ∧ Only [.recs] s t ∧
          ∀ y ∈ t.recs, y.handle = h → y.waitFrom ≠ none)) ∧
      (∀ (k : Nat) (x : RecSrc), e.sources[k]? = some x → x.kind ≠ 4 → e.aligned = true → e.closing = none → x.gone = false → s.srcTime k x = none →
        let period := s.srcPeriod x
        let behind := s.othersReached e k - e.alignWait - Nat.max x.reached x.filledTo
        0 < period → period ≤ behind → ∃ t : State, exec (.alignWaitExpiry h k) s = .next t ∧
          (∀ y ∈ t.recs, y.handle = h → ∀ q, y.sources[k]? = some q → q.filledTo = Nat.max x.reached x.filledTo + behind / period * period) ∧
          Only [.recs, .fresh, .bytes, .out, .lanes, .fabric] s t) ∧
      (e.closing = none → e.container = 0 → (e.isEvent = true → e.windowOpen = true) → ∃ (t : State) (y : RecSession),
        exec (.streamDescriptionRefresh h) s = .next t ∧ t.rec_ h = some y ∧ y.seq + y.backlog.length = e.seq + e.backlog.length + 1 + e.sources.length ∧
        Only [.recs, .fresh, .bytes, .out, .lanes, .fabric] s t) ∧
      (∀ a n : Nat, e.sink = 1 → e.armed = true → ∃ t : State, exec (.hostRingPoll h a n) s = .next t ∧
        ∀ y ∈ t.recs, y.handle = h → y.sinkRd = { off := a, wraps := n }) ∧
      (e.container = 2 → e.closing = none → ∃ t : State, exec (.senderReport h) s = .next t ∧ t.fresh = s.fresh + e.sources.length ∧
        Only [.recs, .fresh, .lanes] s t) ∧
      (∃ t : State, exec (.eventWindowClose h) s = .next t ∧ Only [.recs, .fresh, .bytes, .out, .lanes, .fabric] s t ∧ ∀ y ∈ t.recs, y.handle = h → ∀ w ∈ y.windows, s.ns < w.stop) ∧
      (∀ r, e.closing = some r → ∃ u : State, u.recs = s.recs.filter (fun x => x.handle != h) ∧ Only [.recs] s u ∧
        exec (.recCloseDrainTimeout h) s = .next (u.finishOpt r .ok e.cnt.records.toNat ((sumNat (e.staged.map (fun x => x.bytes.length)) + sumNat (e.backlog.map RecOut.len)) % 2 ^ 32) false)))

/-! ## Display (chapter 10) -/

/-- Heads are claimed, retimed, stopped and released, and layers, commits, banks, CRC rectangles and clones are staged (R265, R266, R269,
R270, R271, R274, R279, R290, R291, R292, R293). -/
def Obligations.DisplayCommandsStageTheirEffect : Prop :=
  ∀ (c : Cmd) (s : State),
    (∀ b : List Byte, Accepted .dispSetTiming c s → par c 0 % 8 = 0 → par c 1 = 0 → c.aux = 0 → structFor s c (.read 64) = .ok b →
      firstBad (timingFields b) = none → isChannel (tbLane b) = true → (s.lanes.quad (tbLane b / 4)).role = .egress →
      let r := ref .dispSetTiming c
      (c.handle = 0 →
        let i := bitsOf (par c 0) 9 8
        s.head i = none → s.laneHolder (tbLane b) (some i) = none → ∃ (u : State) (h : DispHead), exec (.dispSetTiming c) s = .next (u.keepInFlight r) ∧
          u.head i = some h ∧ h.handle = s.nextHandle 6 ∧ h.next = some b ∧ h.run = .waiting ∧ h.hold = some (startHold b s.ns) ∧ h.count = 0 ∧
          h.modeRefs = [(r, true)] ∧ Only [.disp, .issued] s u) ∧
      (∀ (i : Nat) (h : DispHead), c.handle ≠ 0 → par c 0 = 0 → s.disp.headOf c.handle = some i → s.head i = some h → h.cloning = false →
        s.laneHolder (tbLane b) (some i) = none → ∃ (u : State) (x : DispHead), exec (.dispSetTiming c) s = .next (u.keepInFlight r) ∧
          u.head i = some x ∧ x.next = some b ∧ x.modeRefs = h.modeRefs ++ [(r, false)] ∧ x.blk = h.blk ∧ x.count = h.count ∧ Only [.disp] s u)) ∧
    (∀ (i : Nat) (h : DispHead), s.disp.headOf c.handle = some i → s.head i = some h →
      (∀ b : List Byte, Accepted .dispSetTiming c s → par c 0 = 1 → par c 1 = 0 → structFor s c (.read 32) = .ok b → firstBad (attrFields b) = none →
        let staged (a : AttrSet) : Prop := ∃ u : State, exec (.dispSetTiming c) s = .next (u.complete (ref .dispSetTiming c) .ok 0 0 false) ∧
          u.head i = some { h with attrNext := a } ∧ Only [.disp] s u
        (abEn b = false → c.aux = 0 → staged { blk := b, buf := 0, base := 0, len := 0 }) ∧
        (∀ y : Buffer, abEn b = true → typeOf c.aux = 1 → s.buffer c.aux = some y →
          let n := abSlots b * wbSlotSize (h.next.getD h.blk) b
          n ≤ y.size → needRing s h.handle (0x950 + i) y.base n = .ok () → staged { blk := b, buf := c.aux, base := y.base, len := y.size })) ∧
      (Accepted .dispSetTiming c s → par c 0 = 2 → par c 1 = 0 → c.aux = 0 → structFor s c .none = .ok [] → s.cloneTargets i = [] →
        (h.run = .off → exec (.dispSetTiming c) s = .next (s.complete (ref .dispSetTiming c) .notReady 0x90 0 false)) ∧
        (h.run = .waiting → ∃ (t : State) (x : DispHead), exec (.dispSetTiming c) s = .next t ∧ t.head i = some x ∧ x.run = .off ∧ Only [.disp, .host, .mgmt] s t) ∧
        (h.run = .running → ∃ t : State, exec (.dispSetTiming c) s = .next t ∧ t.head i = some { h with stops := h.stops ++ [ref .dispSetTiming c] } ∧
          Only [.disp, .host] s t)) ∧
      (Accepted .dispSetTiming c s → par c 0 = 3 → par c 1 = 0 → c.aux = 0 → structFor s c .none = .ok [] → s.cloneTargets i = [] → h.run = .off →
        (s.layersOf i ≠ [] → exec (.dispSetTiming c) s = .next (s.complete (ref .dispSetTiming c) .notReady 0x92 0 false)) ∧
        (s.layersOf i = [] → ∃ u : State, exec (.dispSetTiming c) s = .next (u.complete (ref .dispSetTiming c) .ok 0 0 false) ∧ u.head i = none ∧
          Only [.disp, .host, .mgmt] s u)) ∧
      (Accepted .dispSetTiming c s → par c 0 = 4 → c.aux = 0 → structFor s c .none = .ok [] →
        let ring := h.wb.release 0 (fun q => decide (sext 32 (2 ^ 32 + q.fn % 2 ^ 32 - par c 1) ≤ 0))
        ∃ u : State, exec (.dispSetTiming c) s = .next (u.complete (ref .dispSetTiming c) .ok (h.wb.inUse - ring.inUse) 0 false) ∧
          u.head i = some { h with wb := ring } ∧ Only [.disp] s u) ∧
      (Accepted .dispCommit c s → h.run ≠ .off → h.armed.length < 4 →
        let nxt := bitOf (par c 1) 0
        let ahead := sext 32 (2 ^ 32 + par c 0 - h.count % 2 ^ 32)
        let set := (s.layersOf i).filterMap (fun l => l.next.map (fun b => (l.handle, b)))
        let first := h.earliest s.time.stamp
        let late := nxt = false ∧ (h.count : Int) + ahead < (first : Int)
        (nxt = true ∨ ahead + 1 ≤ 64) →
        (∀ l ∈ set, lbVisible l.2 = true → lbDelete l.2 = false → lbKind l.2 ≠ 0 → pipeRate (h.next.getD h.blk) l.2 ≤ 2400000000) →
        (∀ l ∈ set, lbDelete l.2 = false → ∀ r, lbBind l.2 = some r → s.srcReady r = true) →
        (late → strict c = true → exec (.dispCommit c) s = .next (s.complete (ref .dispCommit c) .tooLate (first % 2 ^ 32) 0 false)) ∧
        (¬ (late ∧ strict c = true) → ∃ u : State, exec (.dispCommit c) s = .next (u.keepInFlight (ref .dispCommit c)) ∧ Only [.disp] s u ∧
          u.head i = some { h with armed := h.armed ++ [{ target := if nxt = true ∨ late then first else ((h.count : Int) + ahead).toNat, by_ := ref .dispCommit c, late := decide late, attr := h.attrNext, layers := set }] })) ∧
      (Accepted .dispCrcSet c s →
        let r : CrcRect := { en := bitOf (par c 0) 8, check := bitOf (par c 0) 9, x := par c 1 % 65536, y := par c 1 / 65536, w := par c 2 % 65536, h := par c 2 / 65536, expect := par c 3 }
        (r.en = true → r.x < tbW h.blk ∧ r.y < tbH h.blk ∧ 1 ≤ r.w ∧ 1 ≤ r.h ∧ r.x + r.w ≤ tbW h.blk ∧ r.y + r.h ≤ tbH h.blk) →
        ∃ (u : State) (x : DispHead), exec (.dispCrcSet c) s = .next (u.complete (ref .dispCrcSet c) .ok (h.count % 2 ^ 32) 0 false) ∧ u.head i = some x ∧
          vget x.rectNext CrcRect.off (par c 0 % 16) = r ∧ x.rects = h.rects ∧ Only [.disp] s u) ∧
      (Accepted .dispClone c s →
        let arms (src : Option Nat) : Prop := ∃ (u : State) (x : DispHead), exec (.dispClone c) s = .next (u.keepInFlight (ref .dispClone c)) ∧
          u.head i = some x ∧ x.cloneNext = some (ref .dispClone c, src) ∧ Only [.disp, .host, .mgmt] s u
        (c.aux = 0 → h.cloning = false → exec (.dispClone c) s = .next (s.complete (ref .dispClone c) .ok (h.count % 2 ^ 32) 0 false)) ∧
        (c.aux = 0 → h.cloning = true → arms none) ∧
        (∀ (j : Nat) (x : DispHead), c.aux ≠ 0 → s.disp.headOf c.aux = some j → s.head j = some x → s.cloneTargets i = [] → j ≠ i → x.cloning = false →
          s.layersOf i = [] → x.run ≠ .off → arms (some j)))) ∧
    (∀ b : List Byte, Accepted .dispLayerSet c s → structBytes s c = .ok b → firstBad (layerFields b) = none →
      (∀ (i : Nat) (h : DispHead), c.handle = 0 → s.disp.headOf c.aux = some i → s.head i = some h → h.cloning = false →
        (∀ l ∈ s.disp.layers, l.pipe ≠ par c 0 % 32) → needLayerSource s b i = .ok () → ∃ (u : State) (l : DispLayer),
          exec (.dispLayerSet c) s = .next (u.complete (ref .dispLayerSet c) .ok (s.nextHandle 7).toNat 0 false) ∧ l ∈ u.disp.layers ∧
          l.handle = s.nextHandle 7 ∧ l.head = i ∧ l.pipe = par c 0 % 32 ∧ l.next = some b ∧ l.blk = none ∧ Only [.disp, .issued, .cams, .dec] s u) ∧
      (∀ (l : DispLayer) (h : DispHead), c.handle ≠ 0 → c.aux = 0 → par c 0 = 0 → s.layer c.handle = some l → s.head l.head = some h → h.cloning = false →
        needLayerSource s b l.head = .ok () → ∃ u : State, exec (.dispLayerSet c) s = .next (u.complete (ref .dispLayerSet c) .ok c.handle.toNat 0 false) ∧
          (∃ x, u.layer c.handle = some x ∧ x.next = some b ∧ x.blk = l.blk ∧ x.shown = l.shown) ∧ Only [.disp, .cams, .dec] s u)) ∧
    (∀ b : List Byte, Accepted .dispLoadCoef c s → c.ptrSpace = 1 → 1 ≤ par c 0 → par c 0 < 16 → structBytes s c = .ok b → badPhase b = none →
      let users := s.bankUsers (par c 0)
      (users = [] → ∃ u : State, exec (.dispLoadCoef c) s = .next (u.complete (ref .dispLoadCoef c) .ok 0 0 false) ∧ vget u.disp.banks [] (par c 0) = b ∧
        Only [.disp] s u) ∧
      (users ≠ [] → ∃ u : State, exec (.dispLoadCoef c) s = .next (u.keepInFlight (ref .dispLoadCoef c)) ∧ vget u.disp.banks [] (par c 0) = b ∧
        u.disp.loads = s.disp.loads ++ [{ by_ := ref .dispLoadCoef c, heads := users }] ∧ Only [.disp] s u))

/-- Heads start frames, send lines and their timing, stop, and abort a frame whose line is late (R267, R268, R279, R281, R288, R290). -/
def Obligations.HeadsStartFramesAndSendLines : Prop :=
  ∀ (i : Fin 4) (s : State) (h : DispHead), s.head i.val = some h →
    (h.run ≠ .off → h.follows = none →
      (h.stops ≠ [] → (∀ n, h.hold = some n → n ≤ s.ns) → ∃ (t : State) (x : DispHead), exec (.headFrameStart i) s = .next t ∧ t.head i.val = some x ∧ x.run = .off ∧
        x.stops = [] ∧ Only [.disp, .host, .mgmt] s t) ∧
      (h.stops = [] → s.cloneTargets i.val = [] →
        ((∃ n, h.hold = some n ∧ n ≤ s.ns) ∨ (h.hold = none ∧ tbPtp (h.next.getD h.blk) = false)) → ∃ (t : State) (x : DispHead),
          exec (.headFrameStart i) s = .next t ∧ t.head i.val = some x ∧ x.run = .running ∧ x.blk = h.next.getD h.blk ∧ x.next = none ∧ x.count = h.count + 1 ∧
          x.start = s.time.stamp ∧ x.line = 0 ∧ x.hold = none ∧ x.aborted = false ∧ Only [.disp, .host, .mgmt, .cams, .dec, .lanes, .out, .fresh] s t) ∧
      (∀ b, h.stops = [] → h.hold = none → h.next = some b → s.ns < startHold b s.ns → ∃ (t : State) (x : DispHead), exec (.headFrameStart i) s = .next t ∧
        t.head i.val = some x ∧ x.hold = some (startHold b s.ns) ∧ x.count = h.count ∧ x.blk = h.blk ∧ Only [.disp] s t)) ∧
    (h.sending = true → h.cloneOf = none → (∀ j t, s.head j = some t → t.cloneOf ≠ some i.val) → ∀ ready behind : Bool,
      (h.blankNow = true ∨ ready = true → ∃ (t : State) (x : DispHead), exec (.headLineSend i ready behind) s = .next t ∧ t.head i.val = some x ∧
        x.line = h.line + 1 ∧ x.count = h.count ∧ x.aborted = false ∧ Only [.disp, .host, .mgmt, .cams, .dec, .lanes, .out, .bytes, .fabric] s t) ∧
      (h.blankNow = false → ready = false → ∃ (t : State) (x : DispHead), exec (.headLineSend i ready behind) s = .next t ∧ t.head i.val = some x ∧
        x.aborted = true ∧ x.cnt.aborts = h.cnt.aborts.satInc ∧ (vget t.disp.regs HeadRegs.reset i.val).aborted = true ∧
        Only [.disp, .cams, .dec, .lanes, .out, .bytes, .fabric] s t)) ∧
    (h.run = .running → ∃ (t : State) (x : DispHead), exec (.displayMode i) s = .next t ∧ t.head i.val = some x ∧ x.ctrlSeq = h.ctrlSeq + 1 ∧
      t.out = (if s.inService (tbLane h.blk) && !s.silent (tbLane h.blk) then .egressCell (tbLane h.blk) (0x80 + i.val) 2 (ctrlPayload 0x30 0 (h.ctrlSeq % 65536) s.ownEpoch i.val 0 0 h.blk) :: s.out else s.out) ∧
      Only [.disp, .lanes, .out] s t)

/-! ## Lanes, streams and the bridge (chapter 13) -/

/-- Lanes are set, trained, slipped, saved and restored, step up their rate, and Ethernet ports come up and go down (R347, R352, R353,
R354, R355, R361, R362, R363, R365, R411). -/
def Obligations.LanesComeUpAndPortsLink : Prop :=
  ∀ (c : Cmd) (s : State),
    (Accepted .laneConfigure c s →
      let v := par c 1
      let ends (r0 r1 : Nat) (ps : List Part) (p : State → Prop) : Prop := ∃ u : State,
        exec (.laneConfigure c) s = .next (u.complete (ref .laneConfigure c) .ok r0 r1 false) ∧ p u ∧ Only ps s u
      (par c 0 % 8 = 0 → c.handle = 0 → v / 2 ^ 25 = 0 → bitsOf v 7 5 = 0 → bitsOf v 11 10 = 0 → bitsOf v 15 13 = 0 → bitsOf v 23 21 = 0 →
        let l := bitsOf v 4 0
        let delta := bitsOf v 20 16
        let x := s.lanes.lane l
        let y : Lane := { x with maxRate := bitsOf v 9 8, inplaceOk := bitOf v 12, calDelta := if delta = 0 then x.calDelta else delta }
        l / 4 ≠ 6 → delta ≠ 1 → delta ≤ 30 → x.state ≠ .fenced →
        (bitOf v 24 = false → x.state ≠ .diag → ends 0 0 [.lanes] (fun u => u.lanes.lane l = y)) ∧
        (bitOf v 24 = true → x.state ≠ .diag → x.chan = none → (s.lanes.quad (l / 4)).rotation = none → ends 0 0 [.lanes] (fun u =>
          (u.lanes.lane l) = { y with state := .diag, step := .idle, cwLock := false, cellLock := false, slip := 0 }))) ∧
      (par c 0 % 8 = 1 → c.handle = 0 → v / 2 ^ 10 = 0 → bitOf v 3 = false → bitsOf v 7 5 = 0 →
        let q := bitsOf v 2 0
        let lanes := [4 * q, 4 * q + 1, 4 * q + 2, 4 * q + 3]
        (bitsOf v 9 8 = 0 → q ≠ 7 ∨ s.dev.isD = true → s.quadInUse q = false → ends 0 0 [.lanes] (fun u => u.lanes.quad q = { s.lanes.quad q with qref := bitOf v 4 })) ∧
        (q = 7 → s.dev.isD = false → s.quadInUse q = false →
          (bitsOf v 9 8 = 1 → (s.lanes.quad q).role = .off → ends 0 0 [.lanes, .out] (fun u => (u.lanes.quad q).role = .egress ∧ (u.lanes.quad q).qref = bitOf v 4 ∧
            ∀ l ∈ lanes, (s.lanes.lane l).state = .off → (u.lanes.lane l).state = .training ∧ (u.lanes.lane l).rate = 0)) ∧
          (bitsOf v 9 8 = 0 → (s.lanes.quad q).role = .egress → ends 0 0 [.lanes, .host, .mgmt] (fun u => (u.lanes.quad q).role = .off ∧ (u.lanes.quad q).qref = bitOf v 4 ∧
            ∀ l ∈ lanes, ((s.lanes.lane l).state ≠ .fenced → (u.lanes.lane l).state = .off) ∧ (u.lanes.chan l).lane = none)))) ∧
      (∀ (cam idx : Nat), par c 0 % 8 = 2 → v / 2 ^ 13 = 0 → bitsOf v 7 2 = 0 →
        let ch := bitsOf v 12 8
        isChannel ch = true → (s.lanes.quad (ch / 4)).role = .egress → s.cams.find c.handle = some cam →
        (∀ j h, s.head j = some h → tbLane h.blk ≠ ch ∧ h.next.map tbLane ≠ some ch) → s.inService ch = true →
        (List.range 16).find? (fun i => !(((s.lanes.streams.filter (fun x => x.chan == ch)).map Stream.idx).contains i)) = some idx →
        ends (s.nextHandle 0xA).toNat idx [.lanes, .cams, .issued, .out] (fun u => ∃ x ∈ u.lanes.streams, x.handle = s.nextHandle 0xA ∧ x.chan = ch ∧ x.idx = idx ∧
          x.cam = c.handle ∧ x.output = v % 4 ∧ x.nextFn = (s.cam cam).fnNext ∧ x.closing = false)) ∧
      (∀ (x : Stream) (cam : Nat), par c 0 % 8 = 3 → v = 0 → s.lanes.streams.find? (fun y => y.handle == c.handle && !y.closing) = some x → s.cams.find x.cam = some cam →
        (x.cur = none ∨ x.stopped = true → ends 0 0 [.lanes, .cams] (fun u => ∀ y ∈ u.lanes.streams, y.handle ≠ c.handle)) ∧
        (x.cur ≠ none → x.stopped = false → ends 0 0 [.lanes] (fun u => ∀ y ∈ u.lanes.streams, y.handle = c.handle → y.closing = true)))) ∧
    (Accepted .laneTrain c s →
      let l := bitsOf (par c 0) 4 0
      let x := s.lanes.lane l
      let r := ref .laneTrain c
      let waits (p : State → Prop) : Prop := ∃ u : State, exec (.laneTrain c) s = .next (u.keepInFlight r) ∧ p u ∧ Only [.lanes, .out, .host, .mgmt] s u
      x.state ≠ .fenced → (s.lanes.quad (l / 4)).rotation = none →
      ((s.lanes.quad (l / 4)).role.ozoth = true → x.chan = none → bitOf (par c 0) 12 = false →
        (bitsOf (par c 0) 9 8 = 0 → waits (fun u => (u.lanes.lane l).state = .training ∧ (u.lanes.lane l).rate = 0 ∧ (u.lanes.lane l).trainBy = some r)) ∧
        (bitsOf (par c 0) 9 8 = 2 → ∃ u : State, exec (.laneTrain c) s = .next (u.complete r .ok 0 x.snr false) ∧ (u.lanes.lane l).state = .off ∧
          (u.lanes.lane l).trainBy = none ∧ Only [.lanes, .host, .mgmt] s u)) ∧
      (bitsOf (par c 0) 9 8 = 1 →
        (∀ sp ch, x.state = .active → bitOf (par c 0) 12 = false → s.lanes.freeSpare (l / 4) = some sp → x.chan = some ch → ch < 32 →
          waits (fun u => (u.lanes.quad (ch / 4)).rotation = some { chan := ch, src := l, dst := sp, step := 0, dead := false } ∧ (u.lanes.lane l).trainBy = some r)) ∧
        (x.state = .spare ∨ (x.state = .active ∧ bitOf (par c 0) 12 = true) → waits (fun u => (u.lanes.lane l).state = .calibrating ∧ (u.lanes.lane l).inPlace = true ∧
          (u.lanes.lane l).trainBy = some r)))) ∧
    (∀ good cw : Nat, Accepted .laneBitslip c s →
      let l := bitsOf (par c 0) 4 0
      let x := s.lanes.lane l
      let size := if x.rate = 0 then 2048 else 5440
      x.state = .diag → 1 ≤ par c 1 → par c 1 < size → ∃ u : State,
        exec (.laneBitslip c good cw) s = .next (u.complete (ref .laneBitslip c) .ok (Nat.min 64 good) (if x.rate = 0 then 0 else Nat.min 64 cw) false) ∧
        u.lanes.lane l = { x with slip := (x.slip + par c 1) % size, cellLock := decide (64 ≤ good) } ∧ Only [.lanes] s u) ∧
    (∀ y : Buffer, Inv s → c.ptrSpace = 1 → typeOf c.aux = 1 → s.buffer c.aux = some y → rangeFault s c.ptr.toNat c.ptrLen.toNat (some (y.base, y.size)) = none →
      (Accepted .laneCalSave c s → needUnpinned s c.ptr.toNat c.ptrLen.toNat = .ok () →
        let lanes := lanesOf (par c 1)
        let n := 64 + 512 * lanes.length
        let body := lanes.flatMap (fun l => padTo 512 (s.lanes.lane l).calVal)
        n ≤ c.ptrLen.toNat → (∀ l, (s.lanes.lane l).calVal.length = 512) → ∃ u : State, exec (.laneCalSave c) s = .next (u.complete (ref .laneCalSave c) .ok lanes.length n false) ∧
          u.readMem (c.ptr.toNat + 64) (512 * lanes.length) = body ∧ leNat (u.readMem (c.ptr.toNat + 4) 4) = par c 1 ∧
          leNat (u.readMem (c.ptr.toNat + 8) 4) = crc32c body ∧
          (∀ a, a < c.ptr.toNat ∨ c.ptr.toNat + n ≤ a → u.mem.mem.byte a = s.mem.mem.byte a) ∧ Only [.bytes] s u) ∧
      (∀ image : List Byte, Accepted .laneCalRestore c s → structBytes s c = .ok image →
        let n := 512 * (lanesOf (f32 image 0x04)).length
        let good := (lanesOf (par c 1)).filter (s.restorable image)
        let skipped := (lanesOf (par c 1)).filter (fun l => !s.restorable image l)
        64 ≤ c.ptrLen.toNat → 64 + n ≤ image.length → crc32c (slice image 64 n) = f32 image 0x08 → f16 image 0x00 = 0x4896 → f16 image 0x02 = 0x00B0 → ∃ u : State,
          exec (.laneCalRestore c) s = .next (u.complete (ref .laneCalRestore c) .ok good.length (sumNat (skipped.map (fun l => 2 ^ l))) false) ∧
          (∀ l ∈ good, some (u.lanes.lane l).calVal = imageRecord image l ∧ (u.lanes.lane l).restored = true) ∧
          (∀ l, l ∉ good → u.lanes.lane l = s.lanes.lane l) ∧ Only [.lanes, .out] s u)) ∧
    (∀ n : Fin 32,
      let x := s.lanes.lane n
      let qd := s.lanes.quad (n.val / 4)
      x.state = .training →
      (x.rate = 0 → qd.role.ozoth = true →
        (∃ t : State, exec (.capabilityInterval n) s = .next t ∧ t.out = .trainCell n.val 0 (trainPayload 0 0xF (roleCode qd.role) n.val 0xFF 0 0 0) :: s.out ∧ Only [.out] s t) ∧
        (∀ rates role : Nat, x.step = .idle →
          (role = roleCode qd.role →
            let target := bestRate rates x.maxRate
            let direct := x.restored && f8 x.calVal 0x003 == target && s.tempMoved n x.calVal ≤ x.calDelta * 256
            ∃ t : State, exec (.capability n rates role) s = .next t ∧ Only [.lanes, .out] s t ∧
              t.lanes.lane n = { x with target := target, cellLock := true, step := if target = 0 then .idle else .requested (if direct then target else 1) }) ∧
          (role ≠ roleCode qd.role → ∃ t : State, exec (.capability n rates role) s = .next t ∧ Only [.mgmt] s t))) ∧
      (∀ r : Nat, x.step ≠ .failed → x.rate < r → r ≤ x.maxRate → r ≤ 3 → ∃ t : State, exec (.rateRequest n r) s = .next t ∧ Only [.lanes, .out] s t ∧
        t.out = .trainCell n.val 2 (trainPayload 2 r (roleCode qd.role) n.val 0xFF 0 0 0) :: s.out ∧
        t.lanes.lane n = { x with step := .adapting r, target := Nat.max x.target r, cwLock := false, cellLock := false }) ∧
      (∀ r : Nat, x.step = .requested r → ∃ t : State, exec (.rateAck n r) s = .next t ∧ Only [.lanes] s t ∧
        t.lanes.lane n = { x with step := .adapting r, target := Nat.max x.target r, cwLock := false, cellLock := false }) ∧
      (∀ (r : Nat) (ber : Word) (uncorr snr eye : Nat) (values : List Byte), x.step = .adapting r →
        let m : LaneMeasure := { ber := ber, uncorr := uncorr, snr := snr, eye := eye, values := values }
        (m.passes r = true → r < x.target → ∃ t : State, exec (.rateStepVerified n ber uncorr snr eye values) s = .next t ∧ (t.lanes.lane n).rate = r ∧
          (t.lanes.lane n).state = .training ∧ (t.lanes.lane n).step = .requested (r + 1) ∧ (t.lanes.lane n).snr = snr ∧ Only [.lanes, .out] s t) ∧
        (m.passes r = true → ¬ r < x.target → ∃ t : State, exec (.rateStepVerified n ber uncorr snr eye values) s = .next t ∧ (t.lanes.lane n).rate = r ∧
          ((t.lanes.lane n).state = .active ∨ (t.lanes.lane n).state = .spare) ∧ (t.lanes.lane n).step = .idle ∧ Only [.lanes, .out, .host, .mgmt] s t) ∧
        (m.passes r = false → x.rate = 0 → ∃ t : State, exec (.rateStepVerified n ber uncorr snr eye values) s = .next t ∧ (t.lanes.lane n).rate = 0 ∧
          (x.rejoinBy = none → (t.lanes.lane n).state = .training ∧ (t.lanes.lane n).step = .failed) ∧ (x.rejoinBy ≠ none → (t.lanes.lane n).state = .fenced) ∧
          (t.lanes.lane n).margin = true ∧ (t.lanes.lane n).trainBy = none ∧ Only [.lanes, .host, .mgmt] s t))) ∧
    (∀ b : List Byte, Accepted .ethPortConfigure c s → structBytes s c = .ok b → firstBad (portFields b) = none →
      let p := f8 b 0 % 4
      let mode := bitsOf (f8 b 0) 4 2
      let old := s.eth p
      let keep := old.link && old.mode == mode && old.fec == fecOf mode (f8 b 1)
      let r := ref .ethPortConfigure c
      (mode = 0 → ∃ u : State, exec (.ethPortConfigure c) s = .next (u.complete r .ok 0 0 false) ∧ (u.eth p).mode = 0 ∧ (u.eth p).by_ = [] ∧
        (u.lanes.lane (24 + p)).state = .off ∧ Only [.lanes, .time, .host, .mgmt] s u) ∧
      (mode ≠ 0 → keep = true → ∃ u : State, exec (.ethPortConfigure c) s = .next (u.complete r .ok mode 0 false) ∧ (u.eth p).link = true ∧ (u.eth p).mtu = f16 b 2 ∧
        (u.eth p).by_ = old.by_ ∧ Only [.lanes] s u) ∧
      (mode ≠ 0 → keep = false → ∃ u : State, exec (.ethPortConfigure c) s = .next (u.keepInFlight r) ∧ (u.eth p).mode = mode ∧ (u.eth p).link = false ∧
        (u.eth p).mtu = f16 b 2 ∧ (u.eth p).by_ = old.by_ ++ [r] ∧ Only [.lanes, .time] s u)) ∧
    (∀ p : Fin 4,
      ((s.eth p).mode ≠ 0 → (s.lanes.lane (24 + p.val)).state ≠ .off → ∃ t : State, exec (.ethLinkUp p) s = .next t ∧ (t.eth p).link = true ∧ (t.eth p).by_ = [] ∧
        (t.lanes.lane (24 + p.val)).cwLock = true ∧ Only [.lanes, .host, .mgmt] s t) ∧
      ((s.eth p).link = true → ∃ t : State, exec (.ethLinkDown p) s = .next t ∧ (t.eth p).link = false ∧ (t.eth p).mode = (s.eth p).mode ∧
        (∀ k, vget (t.eth p).queues [] k = []) ∧ Only [.lanes, .time] s t) ∧
      ((s.eth p).link = false → (s.eth p).by_ ≠ [] → ∃ t : State, exec (.ethLinkTimeout p) s = .next t ∧ t.eth p = { s.eth p with by_ := [] } ∧
        Only [.lanes, .host, .mgmt] s t))

/-- Lanes rotate, calibrate, report, lock and die, streams send their work, and the bridge forwards frames (R348, R349, R355, R356, R357,
R358, R359, R360, R364, R366, R384). -/
def Obligations.LanesRotateAndStreamsSend : Prop :=
  ∀ s : State,
    (∀ n : Fin 32,
      let x := s.lanes.lane n
      let q := n.val / 4
      (s.calDue n = true → s.power.cur ≠ .ps2 →
        (x.state = .spare → (s.lanes.quad q).rotation = none → ∃ t : State, exec (.calibrationDue n) s = .next t ∧ (t.lanes.lane n).state = .calibrating ∧
          (t.lanes.lane n).inPlace = true ∧ Only [.lanes] s t) ∧
        (∀ sp ch, x.state = .active → s.lanes.freeSpare q = some sp → x.chan = some ch → ch < 32 → s.calDue sp = false →
          (∀ m ∈ s.lanes.carriers q, m ≠ n.val → s.calDue m = true → s.calBefore m n = false) → ∃ t : State, exec (.calibrationDue n) s = .next t ∧
          (t.lanes.quad (ch / 4)).rotation = some { chan := ch, src := n.val, dst := sp, step := 0, dead := false } ∧ Only [.lanes, .out] s t) ∧
        (x.state = .active → s.lanes.freeSpare q = none → x.deferredNow = false → ∃ t : State, exec (.calibrationDue n) s = .next t ∧
          t.lanes.lane n = { x with deferredNow := true, deferred := x.deferred.satInc, margin := true } ∧ Only [.lanes, .host, .mgmt] s t)) ∧
      (∀ r : Rotation, (s.lanes.quad q).rotation = some r → r.step = 0 →
        (∃ t : State, exec (.rotate n r.chan r.dst) s = .next t ∧ Only [.out] s t ∧
          t.out = .trainCell n.val 5 (trainPayload 5 0 (roleCode (s.lanes.quad q).role) n.val r.chan r.dst (s.lanes.chan r.chan).epoch (s.lanes.chan r.chan).lseq.toNat) :: s.out) ∧
        (∃ t : State, exec (.rotateAck n r.chan) s = .next t ∧ (t.lanes.quad q).rotation = some { r with step := 1 } ∧ t.lanes.channels = s.lanes.channels ∧ Only [.lanes] s t)) ∧
      (∀ (ber : Word) (uncorr snr eye : Nat) (values : List Byte), x.state = .calibrating →
        let m : LaneMeasure := { ber := ber, uncorr := uncorr, snr := snr, eye := eye, values := values }
        let good := if q = 6 then m.uncorr = 0 else m.passes x.rate = true
        (good → ∃ t : State, exec (.calibrationDone n ber uncorr snr eye values) s = .next t ∧
          (t.lanes.lane n).state = (if q = 6 then .eth else if x.chan.isSome then .active else .spare) ∧ (t.lanes.lane n).calibrations = x.calibrations.satInc ∧
          (t.lanes.lane n).snr = snr ∧ (t.lanes.lane n).calFails = 0 ∧ Only [.lanes, .out, .host, .mgmt] s t) ∧
        (¬ good → x.calFails = 0 → ∃ t : State, exec (.calibrationDone n ber uncorr snr eye values) s = .next t ∧ t.lanes.lane n = { x with calFails := 1 } ∧ Only [.lanes] s t) ∧
        (¬ good → x.calFails ≠ 0 → q ≠ 6 → ∃ t : State, exec (.calibrationDone n ber uncorr snr eye values) s = .next t ∧ (t.lanes.lane n).state = .fenced ∧
          Only [.lanes, .out, .host, .mgmt, .time, .cams] s t)) ∧
      (x.state = .active ∨ x.state = .spare ∨ x.state = .calibrating → ∃ t : State, exec (.laneDeath n) s = .next t ∧ (t.lanes.lane n).state = .fenced ∧
        (t.lanes.lane n).deaths = Nat.min (x.deaths + 1) 255 ∧ Only [.lanes, .out, .host, .mgmt, .time, .cams] s t ∧
        (∀ ch, x.chan = some ch → ch < 32 → ch / 4 = q → (s.lanes.quad q).rotation = none → 
          (∀ l, (s.lanes.quad q).spare = some l → l ≠ n.val → (s.lanes.lane l).state ≠ .spare) → (∀ l, l / 4 = q → l ≠ n.val → (s.lanes.lane l).state ≠ .calibrating) →
          (t.lanes.chan ch).vacant = true ∧ (t.lanes.chan ch).lane = none ∧ (t.lanes.chan ch).epoch = nextEpoch (s.lanes.chan ch).epoch)) ∧
      (x.deferredNow = true → x.inplaceOk = true → x.state = .active ∨ x.state = .eth → (s.lanes.quad q).rotation = none → s.power.cur ≠ .ps2 → ∃ t : State,
        exec (.inplaceDeferralExpiry n) s = .next t ∧ t.lanes.lane n = { x with state := .calibrating, inPlace := true, deferredNow := false } ∧ Only [.lanes] s t) ∧
      (∀ (snr eye : Nat) (ber : Word) (corr uncorr : Nat), x.state ≠ .off → x.state ≠ .fenced → ∃ t : State, exec (.laneQualityUpdate n snr eye ber corr uncorr) s = .next t ∧
        (t.lanes.lane n).snr = snr % 65536 ∧ (t.lanes.lane n).eye = eye % 65536 ∧ (t.lanes.lane n).ber = ber ∧ (t.lanes.lane n).fecCorr = addSat x.fecCorr corr ∧
        (t.lanes.lane n).fecUncorr = addSat x.fecUncorr uncorr ∧ (q ≠ 6 → x.rate ≠ 0 → snr < snrFloor x.rate ∨ 0x3727C5AC < ber.toNat → x.low = false →
          (t.lanes.lane n).margin = true) ∧ Only [.lanes, .host, .mgmt] s t) ∧
      (x.state ≠ .off → x.state ≠ .fenced →
        (¬ (x.rate = 0 ∧ (x.step = .idle ∨ x.step = .failed)) → ∃ t : State, exec (.codewordLock n) s = .next t ∧ t.lanes.lane n = { x with cwLock := true } ∧ Only [.lanes] s t) ∧
        (x.state ≠ .diag → ∃ t : State, exec (.cellLock n) s = .next t ∧ t.lanes.lane n = { x with cellLock := true } ∧ Only [.lanes] s t)) ∧
      (∀ k : Nat,
        (x.cwLock = true → ∃ t : State, exec (.codewordLockLoss n k) s = .next t ∧ Only [.lanes] s t ∧ t.lanes.lane n = { x with cwLock := false, cellLock := false, cellsLost := addSat x.cellsLost k, fecUncorr := addSat x.fecUncorr 8, cwUncorr := addSat x.cwUncorr 8 }) ∧
        (x.cellLock = true → ∃ t : State, exec (.cellLockLoss n k) s = .next t ∧ t.lanes.lane n = { x with cellLock := false, cellsLost := addSat x.cellsLost k } ∧ Only [.lanes] s t))) ∧
    (∀ (q : Fin 8) (r : Rotation) (frac : Half), (s.lanes.quad q).rotation = some r → r.step = 1 → r.chan < 32 → r.src < 32 → r.dst < 32 → r.src ≠ r.dst → ∃ t : State,
      exec (.rotationOverlapEnd q frac) s = .next t ∧ (t.lanes.chan r.chan).lane = some r.dst ∧ (t.lanes.lane r.dst).state = .active ∧ (t.lanes.lane r.dst).chan = some r.chan ∧
      (t.lanes.lane r.src).chan = none ∧ (t.lanes.lane r.src).state = (if r.dead then .fenced else .calibrating) ∧ (t.lanes.quad q).spare = none ∧
      (t.lanes.quad q).rotation = (if r.dead then none else some { r with step := 2 }) ∧ Only [.lanes, .time, .out] s t) ∧
    (∀ frac : Half, ∃ t : State, exec (.ltSync frac) s = .next t ∧ Only [.lanes, .time, .out] s t ∧
      ∀ ch : Fin 32, vget t.time.ltSeq 0 ch.val = vget s.time.ltSeq 0 ch.val + (if s.timedChan ch.val then 1 else 0)) ∧
    (∀ (ch : Fin 32) (epoch : Nat) (seq frac : Half),
      (epoch = (s.lanes.chan ch.val).epoch → s.timedChan ch.val = true → s.silent ch.val = false → ∃ t : State, exec (.ltDelayReq ch epoch seq frac) s = .next t ∧ Only [.lanes, .out] s t ∧
        t.out = .peerCell ch.val 3 (linkTime 3 seq.toNat (s.ns * 65536 + frac.toNat) s.time.stepGen 0 0) :: s.out) ∧
      (epoch ≠ (s.lanes.chan ch.val).epoch → exec (.ltDelayReq ch epoch seq frac) s = .next (s.dropStale (unitHandle 0x0B ch.val) epoch))) ∧
    (∀ (ch : Fin 32) (x : Stream) (w : StreamWork) (d cam : Nat),
      minBy (fun r => r.2.2) ((s.lanes.streams.filter (fun x => x.chan == ch.val)).filterMap (fun x => (s.streamWork x).map (fun w => (x, w)))) = some (x, w, d) →
      s.cams.find x.cam = some cam →
      let y := x.inRun (s.cam cam)
      ∃ t : State, exec (.egressStreamSend ch) s = .next t ∧ Only [.lanes, .cams, .out, .fabric] s t ∧ ∀ z ∈ t.lanes.streams, z.handle = x.handle →
        (w = .frame → z.nextFn = y.nextFn + 1) ∧ (∀ f, w = .line f → y.sseq < z.sseq) ∧ (w = .gone → z.cur = none)) ∧
    (∀ (h : Handle) (x : Stream) (cam : Nat), s.lanes.streams.find? (fun y => y.handle == h) = some x → x.stopped = false → s.cams.find x.cam = some cam →
      s.inService x.chan = true → s.silent x.chan = false → ∃ t : State, exec (.streamDesc h) s = .next t ∧ Only [.lanes, .out] s t ∧
        t.out = .egressCell x.chan x.idx 2 (ctrlPayload 0x32 0 (x.cseq % 65536) s.ownEpoch cam 0 0 (s.descHeader cam x.output)) :: s.out) ∧
    (∀ (p : Fin 4) (data : List Byte) (frac : Half),
      let x := s.eth p
      let dst := be data 0 6
      s.ethOpen p = true → data.length ≤ x.mtu → x.member (x.vidOf data) = true →
      (s.ownMac dst = true → ptpView data = none → ∃ t : State, exec (.bridgeFrame p data frac) s = .next t ∧
        t.lanes.internalDiscarded = s.lanes.internalDiscarded.satInc ∧ (∀ o, t.eth o = s.eth o) ∧ Only [.lanes] s t) ∧
      (s.ownMac dst = false → dst ≠ 0x0180C200000E → ptpView data = none → x.pcp < 8 → ∃ t : State, exec (.bridgeFrame p data frac) s = .next t ∧
        (∀ o : Fin 4, (o.val ∈ s.forwardTo p dst (x.vidOf data) → ∃ f : EgressFrame, f.data = data ∧ f.inp = p.val ∧
            vget (t.eth o).queues [] (x.pcpOf data) = vget (s.eth o).queues [] (x.pcpOf data) ++ [f]) ∧
          (o.val ∉ s.forwardTo p dst (x.vidOf data) → t.eth o = s.eth o)) ∧ Only [.lanes] s t)) ∧
    (∀ mac vid : Nat, ∃ t : State, exec (.addressAgeing mac vid) s = .next t ∧ t.lanes.learned = s.lanes.learned.filter (fun e => !(e.mac == mac && e.vid == vid)) ∧
      Only [.lanes] s t)

/-! ## Time (chapter 14) -/

/-- The counter is set, stepped and steered, and the PTP ports measure, answer and decide (R373, R374, R375, R376, R377, R379, R380, R381,
R382). -/
def Obligations.TimeIsSetSteppedAndMeasured : Prop :=
  ∀ (c : Cmd) (s : State),
    (∀ (bs : List Byte) (m : TimeMode), Accepted .timeSetMode c s → structBytes s c = .ok bs → parseMode bs = .ok m → ∃ u : State,
      exec (.timeSetMode c) s = .next (u.complete (ref .timeSetMode c) .ok s.time.stepGen 0 false) ∧ u.time.mode = m ∧ u.time.now = s.time.now ∧
      u.time.rate = s.time.rate ∧ u.time.stepGen = s.time.stepGen ∧ (m.corr = 1 → s.time.mode.corr ≠ 1 → u.time.acc = -s.time.rate ∧ u.time.restore = none) ∧ Only [.time] s u) ∧
    (Accepted .timeStep c s →
      let abs := bitOf (par c 0) 0 = true
      let neg := bitOf (par c 0) 1 = true
      let amount : Int := ((par c 1 + 2 ^ 32 * par c 2) * 1000000000 + par c 3) * 2 ^ 32 + par c 4 * 2 ^ 16
      let v : Int := if abs then amount else if neg then s.time.now - amount else s.time.now + amount
      ¬ (abs ∧ neg) → (abs → par c 3 < 1000000000) →
      (s.time.mode.corr = 1 → exec (.timeStep c) s = .next (s.complete (ref .timeStep c) .notReady 0xC0 0 false)) ∧
      (s.time.mode.corr ≠ 1 → 0 ≤ v → v < (2 : Int) ^ 48 * 1000000000 * 2 ^ 32 → ∃ u : State,
        exec (.timeStep c) s = .next (u.complete (ref .timeStep c) .ok ((s.time.stepGen + 1) % 256) (nsOf (v.toNat / 2 ^ 32)) false) ∧ (u.time.now : Int) = v ∧
        u.time.stepGen = (s.time.stepGen + 1) % 256 ∧ u.time.stepped = true ∧ u.time.steps = s.time.steps.satInc ∧ u.time.rate = s.time.rate ∧
        Only [.time, .mgmt, .lanes, .out, .fresh] s u)) ∧
    (Accepted .timeAdjustRate c s → (sext 32 (par c 1)).natAbs ≤ 1000000000 → par c 2 ≤ 60000 → s.time.mode.corr ≠ 1 → ∃ u : State,
      exec (.timeAdjustRate c) s = .next (u.complete (ref .timeAdjustRate c) .ok 0 0 false) ∧ u.time.rate = sext 32 (par c 1) ∧
      u.time.restore = (if par c 2 = 0 then none else some { rate := s.time.rate, due := s.time.ticks + par c 2 * 400000 }) ∧ u.time.now = s.time.now ∧ Only [.time] s u) ∧
    (∀ r : RateRestore, s.time.restore = some r → r.due ≤ s.time.ticks → ∃ t : State, exec .rateRestore s = .next t ∧ t.time.rate = r.rate ∧ t.time.restore = none ∧
      t.time.now = s.time.now ∧ Only [.time] s t) ∧
    (Accepted .timeWriteIncrement c s →
      let v := par c 1 + 2 ^ 32 * par c 2
      0x266666666 ≤ v → v ≤ 0x29999999A → s.time.mode.corr ≠ 1 → ∃ u : State,
        exec (.timeWriteIncrement c) s = .next (u.complete (ref .timeWriteIncrement c) .ok 0 0 false) ∧ u.time.incr = v ∧ u.time.now = s.time.now ∧ Only [.time] s u) ∧
    (∀ (p : Fin 4) (domain seq : Nat),
      let x := s.time.ports[p]
      let follows := x.state = .slave ∨ x.state = .uncalibrated
      let offset (t1 t2 corr : Int) : Int := t2 - t1 - corr - s.time.asymOf p - (if s.time.mode.profile = 0 then (s.time.meanDelay : Int) else (x.linkDelay.toNat : Int))
      let measured (o : Int) (out : Host.Outcome State Fault Refusal) : Prop := ∃ t : State, out = .next t ∧ t.time.offset = o ∧
        t.time.measSeq = s.time.measSeq + 1 ∧ (t.time.ports[p]).state = .slave ∧ t.time.holdover = false ∧ Only [.time, .mgmt, .lanes, .out, .fresh] s t
      let discards (out : Host.Outcome State Fault Refusal) : Prop := ∃ t : State, out = .next t ∧ t.time.ports[p] = { x with discarded := x.discarded.satInc } ∧ Only [.time] s t
      (s.ethOpen p.val = true →
        (s.time.mine p domain = false → ∀ (b : Bool) (t1 corr : Int) (frac : Half),
          discards (exec (.sync p domain seq b t1 corr frac) s) ∧ discards (exec (.delayReq p domain seq corr frac) s) ∧
          discards (exec (.pdelayReq p domain seq corr frac) s) ∧ discards (exec (.pdelayResp p domain seq b t1 corr frac) s) ∧
          discards (exec (.followUp p domain seq t1 corr) s) ∧ discards (exec (.delayResp p domain seq t1 corr) s) ∧
          discards (exec (.pdelayRespFollowUp p domain seq t1 corr) s)) ∧
        (s.time.mine p domain = true → (x.takeEvent s.time.ticks).2 = true →
          (∀ (t1 corr : Int) (frac : Half), follows → measured (offset t1 (s.time.portStamp frac) corr) (exec (.sync p domain seq false t1 corr frac) s)) ∧
          (∀ (t1 corr : Int) (frac : Half), ∃ t : State, exec (.sync p domain seq true t1 corr frac) s = .next t ∧
            (t.time.ports[p]).follow = some { seq := seq, t2 := s.time.portStamp frac, corr := corr } ∧ (t.time.ports[p]).syncRx = x.syncRx.satInc ∧ Only [.time] s t) ∧
          (∀ (corr : Int) (frac : Half), x.state = .master → ∃ t : State, exec (.delayReq p domain seq corr frac) s = .next t ∧
            t.out = .ptp p.val 0x9 seq (s.time.portStamp frac) corr :: s.out ∧ (t.time.ports[p]).delayRx = x.delayRx.satInc ∧ Only [.time, .out] s t) ∧
          (∀ (corr : Int) (frac : Half), s.time.mode.oneStep = true → ∃ t : State, exec (.pdelayReq p domain seq corr frac) s = .next t ∧
            t.out = .ptp p.val 0x3 seq (s.time.portStamp frac) corr :: s.out ∧ Only [.time, .out] s t) ∧
          (∀ (corr : Int) (frac : Half), s.time.mode.oneStep = false → ∃ t : State, exec (.pdelayReq p domain seq corr frac) s = .next t ∧
            t.out = .ptp p.val 0xA seq (s.time.portStamp frac) 0 :: .ptp p.val 0x3 seq (s.time.portStamp frac) corr :: s.out ∧ Only [.time, .out] s t) ∧
          (∀ (d : AwaitDelay) (rx corr : Int) (frac : Half), x.delay = some d → d.seq = seq →
            (∃ t : State, exec (.pdelayResp p domain seq true rx corr frac) s = .next t ∧
              (t.time.ports[p]).delay = some { d with rxPeer := some rx, arrival := s.time.portStamp frac, corr := corr } ∧ Only [.time] s t) ∧
            (∃ t : State, exec (.pdelayResp p domain seq false rx corr frac) s = .next t ∧ (t.time.ports[p]).delay = none ∧
              (t.time.ports[p]).linkDelay = BitVec.ofNat 32 ((s.time.portStamp frac - d.tx - corr) / 2).toNat ∧ Only [.time] s t)))) ∧
      (s.ethOpen p.val = true → s.time.mine p domain = true →
        (∀ (a : AwaitFollow) (t1 corr : Int), x.follow = some a → a.seq = seq → follows → measured (offset t1 a.t2 (a.corr + corr)) (exec (.followUp p domain seq t1 corr) s)) ∧
        (∀ (d : AwaitDelay) (t1 t2 t4 corr : Int), x.delay = some d → x.lastSync = some (t1, t2) → d.seq = seq → ∃ t : State, exec (.delayResp p domain seq t4 corr) s = .next t ∧
          t.time.meanDelay = (((t2 - d.tx) + (t4 - corr - t1)) / 2).toNat % 2 ^ 32 ∧ (t.time.ports[p]).delay = none ∧ Only [.time] s t) ∧
        (∀ (d : AwaitDelay) (t2 t3 corr : Int), x.delay = some d → d.rxPeer = some t2 → d.seq = seq → ∃ t : State, exec (.pdelayRespFollowUp p domain seq t3 corr) s = .next t ∧
          (t.time.ports[p]).linkDelay = BitVec.ofNat 32 (((d.arrival - d.tx) - (t3 - t2) - d.corr - corr) / 2).toNat ∧ (t.time.ports[p]).delay = none ∧ Only [.time] s t) ∧
        (∀ a : Announce, ∃ t : State, exec (.announce p domain a) s = .next t ∧ (t.time.ports[p]).best = some a ∧
          (t.time.ports[p]).announceRx = x.announceRx.satInc ∧ t.time.now = s.time.now ∧ Only [.time] s t)) ∧
      (∀ frac : Half, s.ethOpen p.val = true →
        let stamp := s.time.portStamp frac
        (x.state = .master →
          (∃ t : State, exec (.ptpMessageInterval p 0 frac) s = .next t ∧ (t.time.ports[p]).seqSync = x.seqSync + 1 ∧ (t.time.ports[p]).syncTx = x.syncTx.satInc ∧
            t.out = (if s.time.mode.oneStep then .ptp p.val 0x0 x.seqSync.toNat stamp 0 :: s.out else .ptp p.val 0x8 x.seqSync.toNat stamp 0 :: .ptp p.val 0x0 x.seqSync.toNat stamp 0 :: s.out) ∧
            Only [.time, .out] s t) ∧
          (∃ t : State, exec (.ptpMessageInterval p 1 frac) s = .next t ∧ t.out = .ptp p.val 0xB x.seqSync.toNat stamp 0 :: s.out ∧ Only [.out] s t)) ∧
        (x.state ≠ .notPtp → s.time.mode.profile ≠ 0 ∨ follows → ∃ t : State, exec (.ptpMessageInterval p 2 frac) s = .next t ∧
          (t.time.ports[p]).delay = some { seq := x.seqDelay.toNat, tx := stamp, rxPeer := none, arrival := 0, corr := 0 } ∧
          t.out = .ptp p.val (if s.time.mode.profile = 0 then 0x1 else 0x2) x.seqDelay.toNat stamp 0 :: s.out ∧ Only [.time, .out] s t)) ∧
      (follows → ∃ t : State, exec (.announceTimeout p) s = .next t ∧ t.time.locked = false ∧ t.time.holdover = true ∧ t.time.rate = s.time.rate ∧
        t.time.now = s.time.now ∧ (t.time.ports[p]).best = none ∧ Only [.time, .mgmt] s t))

/-- Compare and capture units claim pins, fire at their times, and record edges (R378, R383, R386, R387, R388). -/
def Obligations.CompareAndCaptureUnitsWork : Prop :=
  ∀ (c : Cmd) (s : State),
    (∀ bs : List Byte, Accepted .evtOutputSet c s → structBytes s c = .ok bs →
      let r := ref .evtOutputSet c
      (∀ u, c.handle ≠ 0 → s.time.compareOf c.handle = some u → bitOf (f16 bs 0x00) 3 = true → ∀ x, vget s.time.compare none u = some x → x.pulse = none → x.pin < 32 →
        ∃ t : State, exec (.evtOutputSet c) s = .next (t.complete r .ok c.handle.toNat u false) ∧ vget t.time.compare none u = none ∧ t.pinFree x.pin = true ∧
          t.out = .pinInput x.pin :: s.out ∧ Only [.time, .out] s t) ∧
      (∀ (x : CompareUnit) (u : Nat), c.handle = 0 → bitOf (f16 bs 0x00) 3 = false → parseOutput bs (s.nextHandle 0xA) = .ok x → s.pinFree x.pin = true →
        firstIdx Option.isNone s.time.compare.toList = some u →
        let late := x.first < s.ns + 10000
        let k := ceilDiv (s.ns + 10000 - x.first) x.period
        let claims (st : Status) (y : CompareUnit) : Prop := ∃ t : State, exec (.evtOutputSet c) s = .next (t.complete r st (s.nextHandle 0xA).toNat u false) ∧
          vget t.time.compare none u = some y ∧ (vget t.time.pins { owner := .free, level := false, release := false } x.pin).owner = .compare u ∧
          t.out = .pin x.pin x.pol :: s.out ∧ Only [.time, .out, .issued, .mgmt] s t
        (¬ late → claims .ok x) ∧
        (late → strict c = true → exec (.evtOutputSet c) s = .next (s.complete r .tooLate (if x.periodic then k else nsOf (s.ns + 10000)) 0 false)) ∧
        (late → strict c = false → claims .okAdjusted (if x.periodic then { x with next := k } else { x with first := s.ns + 10000 }))) ∧
      (∀ (x o : CompareUnit) (u : Nat), c.handle ≠ 0 → s.time.compareOf c.handle = some u → vget s.time.compare none u = some o → bitOf (f16 bs 0x00) 3 = false →
        parseOutput bs c.handle = .ok x → x.pin = o.pin → s.ns + 10000 ≤ x.first → ∃ t : State,
        exec (.evtOutputSet c) s = .next (t.complete r .ok c.handle.toNat u false) ∧ vget t.time.compare none u = some { x with pulse := o.pulse } ∧
        (o.pulse.isSome = true ∨ o.pol = x.pol → t.time.pins = s.time.pins ∧ Only [.time] s t) ∧
        (o.pulse = none → o.pol ≠ x.pol → t.out = .pin x.pin x.pol :: s.out ∧ Only [.time, .out] s t))) ∧
    (∀ bs : List Byte, Accepted .evtCaptureSet c s → structBytes s c = .ok bs →
      let r := ref .evtCaptureSet c
      (∀ (u : Nat) (o : CaptureUnit), c.handle ≠ 0 → c.aux = 0 → s.time.captureOf c.handle = some u → vget s.time.capture none u = some o → bitOf (f8 bs 0x00) 0 = true → o.pin < 32 →
        ∃ t : State, exec (.evtCaptureSet c) s = .next (t.complete r .ok c.handle.toNat u false) ∧ vget t.time.capture none u = none ∧ t.pinFree o.pin = true ∧
          Only [.time, .out] s t) ∧
      (∀ (b : Buffer) (u a : Nat), c.handle = 0 → bitOf (f8 bs 0x00) 0 = false → bitsOf (f8 bs 0x00) 2 1 ≠ 0 →
        let pin := f8 bs 0x01
        let n := f32 bs 0x08
        pin ≤ 31 → f32 bs 0x04 % 64 = 0 → 16 ≤ n → n ≤ 65536 → typeOf c.aux = 1 → s.buffer c.aux = some b → needInBuffer s b (f32 bs 0x04) (16 * n) = .ok a →
        needUnpinnedBut s (s.nextHandle 0xA) a (16 * n) = .ok () → s.pinFree pin = true → firstIdx Option.isNone s.time.capture.toList = some u → ∃ t : State,
        exec (.evtCaptureSet c) s = .next (t.complete r .ok (s.nextHandle 0xA).toNat u false) ∧
        vget t.time.capture none u = some { handle := s.nextHandle 0xA, edge := bitsOf (f8 bs 0x00) 2 1, pin := pin, buf := c.aux, ringOff := f32 bs 0x04, records := n, seq := 0, last := none, overrun := false } ∧
        (vget t.time.pins { owner := .free, level := false, release := false } pin).owner = .capture u ∧ Only [.time, .issued] s t)) ∧
    (∀ (u : Fin 32) (x : CompareUnit), s.time.compare[u] = some x →
      (x.done = false → x.due ≤ s.ns → x.clear = true → ∃ (t : State) (y : CompareUnit), exec (.compareEvent u) s = .next t ∧ t.time.compare[u] = some y ∧ y.next = x.next + 1 ∧
        y.outputs = x.outputs + 1 ∧ y.pulse = some { endTick := s.time.ticks + pulseTicks x.pulseNs, pin := x.pin } ∧
        y.done = (!x.periodic || (x.count != 0 && x.count ≤ x.outputs + 1)) ∧ t.out = .pin x.pin (!x.pol) :: s.out ∧ Only [.time, .out] s t) ∧
      (∀ p : Pulse, x.pulse = some p → p.endTick ≤ s.time.ticks → (vget s.time.pins { owner := .free, level := false, release := false } p.pin).release = false →
        (x.handle ≠ 0 ∨ x.plan ≠ none ∨ x.done = false) → ∃ t : State, exec (.pulseEnd u) s = .next t ∧ t.time.compare[u] = some { x with pulse := none } ∧
        t.out = .pin p.pin x.pol :: s.out ∧ Only [.time, .out] s t)) ∧
    (∀ (n : Fin 32) (rising : Bool) (u : Nat) (x : CaptureUnit) (b : Buffer), Inv s → (s.time.pins[n]).owner = .capture u → vget s.time.capture none u = some x →
      (if rising then bitOf x.edge 0 else bitOf x.edge 1) = true →
      ((∃ l, x.last = some l ∧ s.time.ticks ≤ l + 4) → ∃ t : State, exec (.captureEdge n rising) s = .next t ∧ vget t.time.capture none u = some { x with overrun := true } ∧
        Only [.time] s t) ∧
      ((∀ l, x.last = some l → l + 4 < s.time.ticks) → s.buffer x.buf = some b →
        let a := b.base + x.ringOff + 16 * (x.seq.toNat % x.records)
        ∃ t : State, exec (.captureEdge n rising) s = .next t ∧ t.readMem a 16 = captureRecord s.time rising x.overrun x.seq ∧
          (∀ i, i < a ∨ a + 16 ≤ i → t.mem.mem.byte i = s.mem.mem.byte i) ∧
          vget t.time.capture none u = some { x with seq := x.seq + 1, last := some s.time.ticks, overrun := false } ∧ Only [.time, .bytes] s t)) ∧
    (∀ (port domain seq : Nat) (q : List EgressFrame) (f : EgressFrame) (v : PtpView), q ∈ (s.eth port).queues.toList → f ∈ q → ptpView f.data = some v →
      s.time.corrects v f = true → v.domain = domain → v.seq = seq → ∃ t : State, exec (.tcHoldTimeout port domain seq) s = .next t ∧
      t.time.tcDiscarded = s.time.tcDiscarded.satInc ∧ sumNat ((t.eth port).queues.toList.map List.length) < sumNat ((s.eth port).queues.toList.map List.length) ∧
      Only [.lanes, .time] s t)

/-! ## Audio (chapter 15) -/

/-- Audio ports and media clocks are configured, started, stopped and given slots, count their frames, fill and follow (R392, R393, R394,
R396, R399, R400, R401, R402). -/
def Obligations.AudioPortsRun : Prop :=
  ∀ (c : Cmd) (s : State),
    (Accepted .audPortConfigure c s →
      let r := ref .audPortConfigure c
      let i := bitsOf (par c 0) 10 8
      (∀ (b : List Byte) (y : Buffer) (cap play : Nat), bitsOf (par c 0) 1 0 = 0 → c.handle = 0 → s.port i = none → structFor s c (.read 48) = .ok b →
        firstBad (audioFields b) = none → (pbMaster b = true → ∃ k : MediaClk, vget s.aud.clocks none (pbMc b) = some k ∧ mbRate k.blk = pbRate b) →
        typeOf c.aux = 1 → s.buffer c.aux = some y → needInBuffer s y (pbCapOff b) (pbCapLen b) = .ok cap → needInBuffer s y (pbPlayOff b) (pbPlayLen b) = .ok play →
        needUnpinnedBut s (s.nextHandle 0xA) cap (pbCapLen b) = .ok () → needUnpinnedBut s (s.nextHandle 0xA) play (pbPlayLen b) = .ok () → ∃ (u : State) (x : AudPort),
        exec (.audPortConfigure c) s = .next (u.complete r .ok (s.nextHandle 0xA).toNat (pbBlockBytes b) false) ∧ u.port i = some x ∧ x.handle = s.nextHandle 0xA ∧
        x.blk = b ∧ x.base = y.base ∧ x.rx = .off ∧ x.tx = .off ∧ x.frameNo = 0 ∧ x.seq = 0 ∧ x.rxMask = f16 b 8 ∧ x.txMask = f16 b 0xA ∧ x.cnt = AudCounters.zero ∧
        Only [.aud, .issued] s u) ∧
      (∀ b : List Byte, bitsOf (par c 0) 1 0 = 1 → c.handle = 0 → i < 2 → vget s.aud.clocks none i = none → c.aux = 0 → structFor s c (.read 16) = .ok b →
        firstBad (clockFields b) = none → (mbSteer b = 2 → ∃ x : AudPort, s.port (mbLead b) = some x ∧ pbMaster x.blk = true ∧ pbMc x.blk = i ∧ pbPlayLen x.blk ≠ 0) → ∃ u : State,
        exec (.audPortConfigure c) s = .next (u.complete r .ok (s.nextHandle 0xA).toNat 0 false) ∧
        vget u.aud.clocks none i = some { handle := s.nextHandle 0xA, blk := b, next := none, ppm := 0, acc := 0 } ∧ Only [.aud, .issued] s u) ∧
      (∀ p x, bitsOf (par c 0) 1 0 = 2 → c.handle ≠ 0 → c.aux = 0 → structFor s c .none = .ok [] → s.aud.portOf c.handle = some p → s.port p = some x → x.running = false → ∃ u : State,
        exec (.audPortConfigure c) s = .next (u.complete r .ok c.handle.toNat 0 false) ∧ u.port p = none ∧ u.aud.clocks = s.aud.clocks ∧ Only [.aud, .recs, .host, .mgmt] s u) ∧
      (∀ k, bitsOf (par c 0) 1 0 = 2 → c.handle ≠ 0 → c.aux = 0 → structFor s c .none = .ok [] → s.aud.portOf c.handle = none → s.aud.clockOf c.handle = some k →
        (s.clockUsed k = true → exec (.audPortConfigure c) s = .next (s.complete r .notReady 0xD3 0 false)) ∧
        (s.clockUsed k = false → ∃ u : State, exec (.audPortConfigure c) s = .next (u.complete r .ok c.handle.toNat 0 false) ∧ vget u.aud.clocks none k = none ∧
          u.aud.ports = s.aud.ports ∧ Only [.aud] s u))) ∧
    (∀ (p : Nat) (x : AudPort), s.aud.portOf c.handle = some p → s.port p = some x →
      (Accepted .audStart c s →
        let rx := bitOf (par c 0) 0
        let tx := bitOf (par c 0) 1
        let at_ := bitOf (par c 0) 2
        let given := (s.ns / 1000000000 / 2 ^ 32 * 2 ^ 32 + par c 1) * 1000000000 + par c 2
        let soonest := s.ns + 100000
        let late := at_ = true ∧ given < soonest
        let due := if at_ then (if late then soonest else given) else 0
        (rx = true ∨ tx = true) → (rx = true → pbCapLen x.blk ≠ 0 ∧ x.newRx.getD x.rxMask ≠ 0 ∧ x.rx = .off) → (tx = true → pbPlayLen x.blk ≠ 0 ∧ x.tx = .off) →
        (at_ = true → par c 2 < 1000000000) → (at_ = false → par c 1 = 0 ∧ par c 2 = 0) →
        (late → strict c = true → exec (.audStart c) s = .next (s.complete (ref .audStart c) .tooLate (secOf soonest % 2 ^ 32) (nsOf soonest) false)) ∧
        (¬ (late ∧ strict c = true) → ∃ (u : State) (z : AudPort), exec (.audStart c) s = .next (u.keepInFlight (ref .audStart c)) ∧ u.port p = some z ∧ z.counts = true ∧
          (rx = true → ∃ w : AudWait, z.rx = .wait w ∧ due ≤ w.due ∧ (pbGroup x.blk = 0 → w.due = due) ∧ w.cmd = some (ref .audStart c, decide late)) ∧ (rx = false → z.rx = x.rx) ∧
          (tx = true → ∃ w : AudWait, z.tx = .wait w ∧ w.due = due ∧ w.cmd = (if rx then none else some (ref .audStart c, decide late))) ∧ (tx = false → z.tx = x.tx) ∧
          Only [.aud] s u)) ∧
      (Accepted .audStop c s →
        let rx := bitOf (par c 0) 0 && x.rx != .off
        let tx := bitOf (par c 0) 1 && x.tx != .off
        (bitOf (par c 0) 0 = true ∨ bitOf (par c 0) 1 = true) →
        (rx = true ∨ tx = true → ∃ u : State, exec (.audStop c) s = .next (u.keepInFlight (ref .audStop c)) ∧
          u.port p = some { x with stops := x.stops ++ [{ ref := ref .audStop c, rx := rx, tx := tx }] } ∧ Only [.aud] s u) ∧
        (rx = false → tx = false → exec (.audStop c) s = .next (s.complete (ref .audStop c) .ok ((x.frameNo - 1) % 2 ^ 32) 0 false))) ∧
      (Accepted .audSetSlots c s →
        let rxm := bitsOf (par c 0) 15 0
        let txm := bitsOf (par c 0) 31 16
        (bitOf (par c 1) 0 = true → rxm < 2 ^ pbSlots x.blk ∧ (rxm ≠ 0 ∨ x.rx = .off)) → (bitOf (par c 1) 1 = true → txm < 2 ^ pbSlots x.blk) → ∃ u : State,
        exec (.audSetSlots c) s = .next (u.keepInFlight (ref .audSetSlots c)) ∧ Only [.aud] s u ∧
        u.port p = some { x with newRx := if bitOf (par c 1) 0 then some rxm else x.newRx, newTx := if bitOf (par c 1) 1 then some txm else x.newTx, slotRefs := x.slotRefs ++ [ref .audSetSlots c] })) ∧
    (∀ (p : Fin 8) (x : AudPort), s.port p.val = some x →
      (∀ (rx : List Int) (ppm : Int), x.hasFrames = true → x.counts = true → ∃ (t : State) (z : AudPort), exec (.audioFrame p rx ppm) s = .next t ∧ t.port p.val = some z ∧
        z.frameNo = (if x.rxOn && x.fill.isSome && pbGroup x.blk != 0 then x.frameNo else x.frameNo + 1) ∧ z.rxMask = x.newRx.getD x.rxMask ∧
        z.txMask = x.newTx.getD x.txMask ∧ z.newRx = none ∧ z.newTx = none ∧ z.slotRefs = [] ∧ z.stops = [] ∧ Only [.aud, .host, .mgmt, .out, .bytes, .recs, .fabric] s t) ∧
      (pbMaster x.blk = false → x.clock = true → x.counts = true → ∃ (t : State) (z : AudPort), exec (.audioClockLoss p) s = .next t ∧ t.port p.val = some z ∧ z.clock = false ∧
        z.cnt.clockLosses = x.cnt.clockLosses.satInc ∧ z.block = none ∧ (x.rxOn = true → z.fill = some { k := x.grid.1, written := x.grid.2, resume := none }) ∧
        Only [.aud, .mgmt, .bytes, .recs, .fabric] s t) ∧
      (∀ f : AudFill, x.fill = some f → pbGroup x.blk ≠ 0 → x.rxOn = true → ∃ (t : State) (z : AudPort), exec (.filledBlock p) s = .next t ∧ t.port p.val = some z ∧
        z.frameNo = x.frameNo + (gridFrames x.blk f.k - f.written) ∧ (f.resume = none → z.fill = some { k := f.k + 1, written := 0, resume := none }) ∧
        Only [.aud, .bytes, .recs, .fabric] s t) ∧
      (pbPlayLen x.blk ≠ 0 → ∃ t : State, exec (.playbackPoll p) s = .next t ∧ Only [.aud] s t ∧
        let b := s.readMem (x.base + pbPlayOff x.blk) 8
        t.port p.val = some { x with playWr := { off := f32 b 0, wraps := f32 b 4 } })) ∧
    (∀ (k : Fin 2) (m : MediaClk), vget s.aud.clocks none k.val = some m →
      let blk := m.next.getD m.blk
      ∃ (t : State) (z : MediaClk), exec (.mediaClockUpdate k) s = .next t ∧ vget t.aud.clocks none k.val = some z ∧ z.blk = blk ∧ z.next = none ∧ z.handle = m.handle ∧
        (mbSteer blk = 0 → z.ppm = 0) ∧ (mbSteer blk = 1 → -(mbMax blk : Rat) ≤ z.ppm ∧ z.ppm ≤ (mbMax blk : Rat)) ∧ t.aud.ports = s.aud.ports ∧ Only [.aud, .fresh] s t)

/-! ## The machine as a whole -/

/-- A step runs the command at the front of the queue on the state with the rest waiting; on an empty queue one TCLK cycle passes (R370).
The step on an empty queue is the model's choice (log 1). -/
def Obligations.StepRunsTheFrontCommandOrOneCycle : Prop :=
  (∀ (c : Instr) (rest : List Instr) (s : State), step { s with pending := c :: rest } = exec c { s with pending := rest }) ∧
  (∀ s : State, s.pending = [] →
    let total := s.time.sub + s.time.incr * (1000000000000 + s.time.rate).toNat
    ∃ t : State, step s = .next t ∧ t.pending = [] ∧ t.time.ticks = s.time.ticks + 1 ∧
      t.time.now = (s.time.now + total / 1000000000000) % (2 ^ 48 * 1000000000 * 2 ^ 32) ∧ t.time.sub = total % 1000000000000 ∧
      Only [.time, .lanes, .out, .fabric, .mgmt, .host, .power, .memory] s t ∧
      (s.fab = FabSt.reset → s.host.expired = noneExpired → Only [.time, .lanes, .out] s t))

/-- Every step of every command and event keeps the memory in its canonical form (R318, R332, R452). The canonical form is the model's
(log 3). -/
def Obligations.EveryStepKeepsTheInvariant : Prop :=
  ∀ s : State, Inv s → ∃ t : State, step s = .next t ∧ Inv t

/-- After reset nothing exists, the host interface is off, the counter is zero and the logs are empty; the invariant holds (R67, R370,
R409, R417, R447, R452, Table 02-4, Table 17-4). Command-ready as the state after reset is the model's choice (log 8). -/
def Obligations.ResetLeavesTheStatedValues : Prop :=
  let s := State.reset
  Inv s ∧ s.pending = [] ∧ s.out = [] ∧
  s.host.en = false ∧ s.host.paramErr = false ∧ s.host.asqs = 0 ∧ s.host.acqs = 0 ∧ s.host.asqBase = 0 ∧ s.host.acqBase = 0 ∧
  s.host.bar2Base = 0 ∧ s.host.bar2Log2 = 28 ∧ (∀ q : Fin 64, (s.queue q).live = false) ∧
  s.power.phase = .running ∧ s.power.oper = .ps0 ∧ s.power.cur = .ps0 ∧ s.power.timers[0] = 1000 ∧ s.power.timers[1] = 60000 ∧
  s.power.timers[2] = 600000 ∧
  s.mem.buffers = [] ∧ s.mem.retired = [] ∧ s.encs = [] ∧ s.dec.sessions = [] ∧ s.recs = [] ∧ s.jm.kernels = [] ∧
  (∀ h : Fin 4, s.disp.heads[h] = none) ∧ (∀ p : Fin 8, s.aud.ports[p] = none) ∧ (∀ k : Fin 48, s.cams.ctx[k].state = .idle) ∧
  s.time.now = 0 ∧ s.time.incr = 0x280000000 ∧ s.time.rate = 0 ∧
  s.mgmt.errors = { next := 1, entries := [] } ∧ s.mgmt.events = { next := 1, entries := [] } ∧
  (∀ k : UnitKind, ∀ r ∈ s.mgmt.units.roles k, r.epoch = 1)

/-- Commands of class 0x00, FW_COMMIT and FW_ACTIVATE are accepted only on queue 0, and reserved fields and dead handles fail a command
(R35). -/
def Obligations.AdminCommandsOnlyOnQueueZeroAndBadPacketsFail : Prop :=
  ∀ (i : Instr) (op : Op) (c : Cmd) (s : State), commandOf i = some (op, c) →
    let admin := op.code / 256 = 0 ∨ op = .fwCommit ∨ op = .fwActivate
    let s' := if op = .fwActivate then s.liftBarriers else s
    (s.power.phase = .running ∨ s.power.phase = .recovery → admin → c.qid ≠ 0 →
      exec i s = .next (s'.complete (ref op c) .invalidOpcode op.code 0 false)) ∧
    (¬ admin → ∀ q : Fin 64, preflight s op { c with qid := q } = preflight s op c) ∧
    (s.power.phase = .running → (admin → c.qid = 0) →
      (8 ≤ c.flags.toNat ∨ c.rsvd03 ≠ 0 ∨ c.rsvd06 ≠ 0 ∨ c.rsvd1C ≠ 0 →
        ∃ off : Nat, exec i s = .next (s'.complete (ref op c) .invalidParam off 0 false)) ∧
      (firstBad (packetFields op c) = none → handleOk s (opSpec op).h c.handle = false →
        exec i s = .next (s'.complete (ref op c) .invalidHandle c.handle.toNat 0 false)))
end

