-- ==== Sys2Proof/Laws/Dispatch.lean ====
section
/-!
SUPPORT. The dispatch, one lemma per arm: exec of a command is its meaning.
-/
namespace Sys2Proof.Machine

@[simp] theorem exec_hostEnable (s : State) : exec (.hostEnable) s = execHostEnable s := rfl
@[simp] theorem exec_hostDisable (s : State) : exec (.hostDisable) s = execHostDisable s := rfl
@[simp] theorem exec_adminReset (s : State) : exec (.adminReset) s = execAdminReset s := rfl
@[simp] theorem exec_sqDoorbell (q : Fin 64) (v : Word) (s : State) : exec (.sqDoorbell q v) s = execSqDoorbell q v s := rfl
@[simp] theorem exec_cqDoorbell (q : Fin 64) (v : Word) (writesOk : Bool) (s : State) : exec (.cqDoorbell q v writesOk) s = execCqDoorbell q v writesOk s := rfl
@[simp] theorem exec_registerWrite (t : RegTarget) (s : State) : exec (.registerWrite t) s = execRegisterWrite t s := rfl
@[simp] theorem exec_bar0BadAccess (isRead : Bool) (s : State) : exec (.bar0BadAccess isRead) s = execBar0BadAccess isRead s := rfl
@[simp] theorem exec_bar2Read (off len : Nat) (s : State) : exec (.bar2Read off len) s = execBar2Read off len s := rfl
@[simp] theorem exec_bar2Write (off : Nat) (data : List Byte) (s : State) : exec (.bar2Write off data) s = execBar2Write off data s := rfl
@[simp] theorem exec_timeNowRead (wide : Bool) (s : State) : exec (.timeNowRead wide) s = execTimeNowRead wide s := rfl
@[simp] theorem exec_timeAsymWrite (p : Fin 4) (v : Word) (s : State) : exec (.timeAsymWrite p v) s = execTimeAsymWrite p v s := rfl
@[simp] theorem exec_timeLinkAsymWrite (n : Fin 32) (v : Word) (s : State) : exec (.timeLinkAsymWrite n v) s = execTimeLinkAsymWrite n v s := rfl
@[simp] theorem exec_liveAddrWrite (head : Fin 4) (k : Fin 8) (half : Option Bool) (v : DWord) (s : State) : exec (.liveAddrWrite head k half v) s = execLiveAddrWrite head k half v s := rfl
@[simp] theorem exec_frameCountRead (head : Fin 4) (s : State) : exec (.frameCountRead head) s = execFrameCountRead head s := rfl
@[simp] theorem exec_calValWrite (n : Fin 32) (word : Fin 128) (wide : Bool) (v : DWord) (s : State) : exec (.calValWrite n word wide v) s = execCalValWrite n word wide v s := rfl
@[simp] theorem exec_laneApply (n : Fin 32) (s : State) : exec (.laneApply n) s = execLaneApply n s := rfl
@[simp] theorem exec_fecCorrRead (n : Fin 32) (s : State) : exec (.fecCorrRead n) s = execFecCorrRead n s := rfl
@[simp] theorem exec_fecUncorrRead (n : Fin 32) (s : State) : exec (.fecUncorrRead n) s = execFecUncorrRead n s := rfl
@[simp] theorem exec_alertResponse (s : State) : exec (.alertResponse) s = execAlertResponse s := rfl
@[simp] theorem exec_setEndpointId (eid : Byte) (s : State) : exec (.setEndpointId eid) s = execSetEndpointId eid s := rfl
@[simp] theorem exec_getEndpointId (s : State) : exec (.getEndpointId) s = execGetEndpointId s := rfl
@[simp] theorem exec_getMctpVersionSupport (s : State) : exec (.getMctpVersionSupport) s = execGetMctpVersionSupport s := rfl
@[simp] theorem exec_getMessageTypeSupport (s : State) : exec (.getMessageTypeSupport) s = execGetMessageTypeSupport s := rfl
@[simp] theorem exec_mctpHealthRequest (s : State) : exec (.mctpHealthRequest) s = execMctpHealthRequest s := rfl
@[simp] theorem exec_mctpMonitorRequest (n : Nat) (s : State) : exec (.mctpMonitorRequest n) s = execMctpMonitorRequest n s := rfl
@[simp] theorem exec_mctpLogRequest (seq : Nat) (s : State) : exec (.mctpLogRequest seq) s = execMctpLogRequest seq s := rfl
@[simp] theorem exec_commandFetch (reads : List EntryRead) (s : State) : exec (.commandFetch reads) s = execCommandFetch reads s := rfl
@[simp] theorem exec_commandDispatch (q : Fin 64) (host : HostRead) (s : State) : exec (.commandDispatch q host) s = execCommandDispatch q host s := rfl
@[simp] theorem exec_commandComplete (q : Fin 64) (writeOk : Bool) (s : State) : exec (.commandComplete q writeOk) s = execCommandComplete q writeOk s := rfl
@[simp] theorem exec_coalescingTimeout (q : Fin 64) (s : State) : exec (.coalescingTimeout q) s = execCoalescingTimeout q s := rfl
@[simp] theorem exec_identify (c : Cmd) (s : State) : exec (.identify c) s = execIdentify c s := rfl
@[simp] theorem exec_getLogPage (c : Cmd) (s : State) : exec (.getLogPage c) s = execGetLogPage c s := rfl
@[simp] theorem exec_setFeature (c : Cmd) (s : State) : exec (.setFeature c) s = execSetFeature c s := rfl
@[simp] theorem exec_getFeature (c : Cmd) (s : State) : exec (.getFeature c) s = execGetFeature c s := rfl
@[simp] theorem exec_queueCreate (c : Cmd) (s : State) : exec (.queueCreate c) s = execQueueCreate c s := rfl
@[simp] theorem exec_queueDelete (c : Cmd) (s : State) : exec (.queueDelete c) s = execQueueDelete c s := rfl
@[simp] theorem exec_queueFlush (c : Cmd) (s : State) : exec (.queueFlush c) s = execQueueFlush c s := rfl
@[simp] theorem exec_queueReset (c : Cmd) (s : State) : exec (.queueReset c) s = execQueueReset c s := rfl
@[simp] theorem exec_asyncEventRequest (c : Cmd) (s : State) : exec (.asyncEventRequest c) s = execAsyncEventRequest c s := rfl
@[simp] theorem exec_bufAlloc (c : Cmd) (s : State) : exec (.bufAlloc c) s = execBufAlloc c s := rfl
@[simp] theorem exec_bufFree (c : Cmd) (s : State) : exec (.bufFree c) s = execBufFree c s := rfl
@[simp] theorem exec_bufCopy (c : Cmd) (s : State) : exec (.bufCopy c) s = execBufCopy c s := rfl
@[simp] theorem exec_bufFill (c : Cmd) (s : State) : exec (.bufFill c) s = execBufFill c s := rfl
@[simp] theorem exec_bufCheck (c : Cmd) (s : State) : exec (.bufCheck c) s = execBufCheck c s := rfl
@[simp] theorem exec_memSetSpeed (c : Cmd) (s : State) : exec (.memSetSpeed c) s = execMemSetSpeed c s := rfl
@[simp] theorem exec_pwrSetState (c : Cmd) (s : State) : exec (.pwrSetState c) s = execPwrSetState c s := rfl
@[simp] theorem exec_pwrSetIdleTimers (c : Cmd) (s : State) : exec (.pwrSetIdleTimers c) s = execPwrSetIdleTimers c s := rfl
@[simp] theorem exec_idleTimerExpiry (n : Fin 3) (s : State) : exec (.idleTimerExpiry n) s = execIdleTimerExpiry n s := rfl
@[simp] theorem exec_hostInterfaceReset (cause : HostResetCause) (s : State) : exec (.hostInterfaceReset cause) s = execHostInterfaceReset cause s := rfl
@[simp] theorem exec_pcieLinkTraining (rate width : Nat) (s : State) : exec (.pcieLinkTraining rate width) s = execPcieLinkTraining rate width s := rfl
@[simp] theorem exec_powerUp (s : State) : exec (.powerUp) s = execPowerUp s := rfl
@[simp] theorem exec_deviceReset (s : State) : exec (.deviceReset) s = execDeviceReset s := rfl
@[simp] theorem exec_boot (flashOk : Bool) (checkA checkB : Nat) (units : List (UnitKind × Nat)) (pcs : List Nat) (remaps : List (Nat × Nat)) (answered : List (Nat × Nat)) (s : State) : exec (.boot flashOk checkA checkB units pcs remaps answered) s = execBoot flashOk checkA checkB units pcs remaps answered s := rfl
@[simp] theorem exec_tapReset (s : State) : exec (.tapReset) s = execTapReset s := rfl
@[simp] theorem exec_vddCoreFailure (s : State) : exec (.vddCoreFailure) s = execVddCoreFailure s := rfl
@[simp] theorem exec_thermalThrottle (sensor : Fin 24) (s : State) : exec (.thermalThrottle sensor) s = execThermalThrottle sensor s := rfl
@[simp] theorem exec_throttleEnd (s : State) : exec (.throttleEnd) s = execThrottleEnd s := rfl
@[simp] theorem exec_thermalTrip (sensor : Fin 24) (s : State) : exec (.thermalTrip sensor) s = execThermalTrip sensor s := rfl
@[simp] theorem exec_camConfigure (c : Cmd) (s : State) : exec (.camConfigure c) s = execCamConfigure c s := rfl
@[simp] theorem exec_camStart (c : Cmd) (s : State) : exec (.camStart c) s = execCamStart c s := rfl
@[simp] theorem exec_bindTimeout (cam : Fin 48) (s : State) : exec (.bindTimeout cam) s = execBindTimeout cam s := rfl
@[simp] theorem exec_camStop (c : Cmd) (s : State) : exec (.camStop c) s = execCamStop c s := rfl
@[simp] theorem exec_camSensorWrite (c : Cmd) (s : State) : exec (.camSensorWrite c) s = execCamSensorWrite c s := rfl
@[simp] theorem exec_camTriggerPlan (c : Cmd) (s : State) : exec (.camTriggerPlan c) s = execCamTriggerPlan c s := rfl
@[simp] theorem exec_triggerSend (cam : Fin 48) (s : State) : exec (.triggerSend cam) s = execTriggerSend cam s := rfl
@[simp] theorem exec_triggerMissing (cam : Fin 48) (s : State) : exec (.triggerMissing cam) s = execTriggerMissing cam s := rfl
@[simp] theorem exec_pixelCell (chan : Fin 32) (epoch : Nat) (cam : Nat) (x : PixCell) (s : State) : exec (.pixelCell chan epoch cam x) s = execPixelCell chan epoch cam x s := rfl
@[simp] theorem exec_timingCell (chan : Fin 32) (epoch cam exp hubFc stamp : Nat) (s : State) : exec (.timingCell chan epoch cam exp hubFc stamp) s = execTimingCell chan epoch cam exp hubFc stamp s := rfl
@[simp] theorem exec_pcpStartOfFrame (port : Fin 2) (s : State) : exec (.pcpStartOfFrame port) s = execPcpStartOfFrame port s := rfl
@[simp] theorem exec_pcpLine (port : Fin 2) (exp : Nat) (pixels : List Nat) (s : State) : exec (.pcpLine port exp pixels) s = execPcpLine port exp pixels s := rfl
@[simp] theorem exec_ack (cam : Fin 48) (seq hubFc : Nat) (s : State) : exec (.ack cam seq hubFc) s = execAck cam seq hubFc s := rfl
@[simp] theorem exec_nak (cam : Fin 48) (seq reason executed : Nat) (s : State) : exec (.nak cam seq reason executed) s = execNak cam seq reason executed s := rfl
@[simp] theorem exec_readData (cam : Fin 48) (seq hubFc : Nat) (entries : List Byte) (s : State) : exec (.readData cam seq hubFc entries) s = execReadData cam seq hubFc entries s := rfl
@[simp] theorem exec_controlCellResend (cam : Fin 48) (seq : Nat) (s : State) : exec (.controlCellResend cam seq) s = execControlCellResend cam seq s := rfl
@[simp] theorem exec_sliceDispatch (role : Fin 16) (s : State) : exec (.sliceDispatch role) s = execSliceDispatch role s := rfl
@[simp] theorem exec_stripeDone (role : Fin 16) (errors : List SramError) (poisoned : List (Nat × Nat)) (s : State) : exec (.stripeDone role errors poisoned) s = execStripeDone role errors poisoned s := rfl
@[simp] theorem exec_sliceWatchdog (role : Fin 16) (s : State) : exec (.sliceWatchdog role) s = execSliceWatchdog role s := rfl
@[simp] theorem exec_motionBand (errors : List SramError) (s : State) : exec (.motionBand errors) s = execMotionBand errors s := rfl
@[simp] theorem exec_motionWatchdog (s : State) : exec (.motionWatchdog) s = execMotionWatchdog s := rfl
@[simp] theorem exec_rawSetStage (c : Cmd) (s : State) : exec (.rawSetStage c) s = execRawSetStage c s := rfl
@[simp] theorem exec_rawLoadTable (c : Cmd) (s : State) : exec (.rawLoadTable c) s = execRawLoadTable c s := rfl
@[simp] theorem exec_rawTap (c : Cmd) (s : State) : exec (.rawTap c) s = execRawTap c s := rfl
@[simp] theorem exec_clrSetMatrix (c : Cmd) (s : State) : exec (.clrSetMatrix c) s = execClrSetMatrix c s := rfl
@[simp] theorem exec_clrLoadLut3d (c : Cmd) (s : State) : exec (.clrLoadLut3d c) s = execClrLoadLut3d c s := rfl
@[simp] theorem exec_clrLoadCurve (c : Cmd) (s : State) : exec (.clrLoadCurve c) s = execClrLoadCurve c s := rfl
@[simp] theorem exec_clrSetOutput (c : Cmd) (s : State) : exec (.clrSetOutput c) s = execClrSetOutput c s := rfl
@[simp] theorem exec_clrSetSpectral (c : Cmd) (s : State) : exec (.clrSetSpectral c) s = execClrSetSpectral c s := rfl
@[simp] theorem exec_expApply (c : Cmd) (s : State) : exec (.expApply c) s = execExpApply c s := rfl
@[simp] theorem exec_expSetLimits (c : Cmd) (s : State) : exec (.expSetLimits c) s = execExpSetLimits c s := rfl
@[simp] theorem exec_statConfigure (c : Cmd) (s : State) : exec (.statConfigure c) s = execStatConfigure c s := rfl
@[simp] theorem exec_expPolicyBind (c : Cmd) (s : State) : exec (.expPolicyBind c) s = execExpPolicyBind c s := rfl
@[simp] theorem exec_jmInvocationStart (role : Fin 128) (statePoisoned : Bool) (s : State) : exec (.jmInvocationStart role statePoisoned) s = execJmInvocationStart role statePoisoned s := rfl
@[simp] theorem exec_jmInvocationEnd (role : Fin 128) (thread : Fin 4) (result : JmResult) (s : State) : exec (.jmInvocationEnd role thread result) s = execJmInvocationEnd role thread result s := rfl
@[simp] theorem exec_overrun (role : Fin 128) (thread : Fin 4) (s : State) : exec (.overrun role thread) s = execOverrun role thread s := rfl
@[simp] theorem exec_watchdog (role : Fin 128) (thread : Fin 4) (s : State) : exec (.watchdog role thread) s = execWatchdog role thread s := rfl
@[simp] theorem exec_rateKernelTimeout (h : Handle) (s : State) : exec (.rateKernelTimeout h) s = execRateKernelTimeout h s := rfl
@[simp] theorem exec_tileDeadline (cam : Fin 48) (fn : Nat) (s : State) : exec (.tileDeadline cam fn) s = execTileDeadline cam fn s := rfl
@[simp] theorem exec_siteStall (role : Fin 128) (s : State) : exec (.siteStall role) s = execSiteStall role s := rfl
@[simp] theorem exec_jmLoadKernel (c : Cmd) (keyOk sigOk : Bool) (s : State) : exec (.jmLoadKernel c keyOk sigOk) s = execJmLoadKernel c keyOk sigOk s := rfl
@[simp] theorem exec_jmBindStage (c : Cmd) (s : State) : exec (.jmBindStage c) s = execJmBindStage c s := rfl
@[simp] theorem exec_jmUnload (c : Cmd) (s : State) : exec (.jmUnload c) s = execJmUnload c s := rfl
@[simp] theorem exec_encSessionOpen (c : Cmd) (s : State) : exec (.encSessionOpen c) s = execEncSessionOpen c s := rfl
@[simp] theorem exec_encSessionClose (c : Cmd) (s : State) : exec (.encSessionClose c) s = execEncSessionClose c s := rfl
@[simp] theorem exec_encSetRate (c : Cmd) (s : State) : exec (.encSetRate c) s = execEncSetRate c s := rfl
@[simp] theorem exec_encForceIdr (c : Cmd) (s : State) : exec (.encForceIdr c) s = execEncForceIdr c s := rfl
@[simp] theorem exec_encRefMark (c : Cmd) (s : State) : exec (.encRefMark c) s = execEncRefMark c s := rfl
@[simp] theorem exec_encPictureStart (role : Fin 8) (s : State) : exec (.encPictureStart role) s = execEncPictureStart role s := rfl
@[simp] theorem exec_encPictureCommit (role : Fin 8) (payload : List Byte) (report : EncReport) (recon : List (List Nat)) (s : State) : exec (.encPictureCommit role payload report recon) s = execEncPictureCommit role payload report recon s := rfl
@[simp] theorem exec_encRingPoll (s : State) : exec (.encRingPoll) s = execEncRingPoll s := rfl
@[simp] theorem exec_encPictureDrop (h : Handle) (s : State) : exec (.encPictureDrop h) s = execEncPictureDrop h s := rfl
@[simp] theorem exec_encWatchdog (role : Fin 8) (s : State) : exec (.encWatchdog role) s = execEncWatchdog role s := rfl
@[simp] theorem exec_decSessionOpen (c : Cmd) (s : State) : exec (.decSessionOpen c) s = execDecSessionOpen c s := rfl
@[simp] theorem exec_decSubmit (c : Cmd) (items : List DecItem) (s : State) : exec (.decSubmit c items) s = execDecSubmit c items s := rfl
@[simp] theorem exec_decSessionClose (c : Cmd) (s : State) : exec (.decSessionClose c) s = execDecSessionClose c s := rfl
@[simp] theorem exec_decPictureStart (core : Fin 2) (s : State) : exec (.decPictureStart core) s = execDecPictureStart core s := rfl
@[simp] theorem exec_decPictureOutput (h : Handle) (done : Option (Fin 2 × DecReport)) (s : State) : exec (.decPictureOutput h done) s = execDecPictureOutput h done s := rfl
@[simp] theorem exec_decCloseSlotTimeout (h : Handle) (s : State) : exec (.decCloseSlotTimeout h) s = execDecCloseSlotTimeout h s := rfl
@[simp] theorem exec_decCoreFault (core : Fin 2) (s : State) : exec (.decCoreFault core) s = execDecCoreFault core s := rfl
@[simp] theorem exec_cmpJob (c : Cmd) (s : State) : exec (.cmpJob c) s = execCmpJob c s := rfl
@[simp] theorem exec_cmpExpand (c : Cmd) (s : State) : exec (.cmpExpand c) s = execCmpExpand c s := rfl
@[simp] theorem exec_cmpEngineDispatch (engine : Fin 4) (done : Bool) (s : State) : exec (.cmpEngineDispatch engine done) s = execCmpEngineDispatch engine done s := rfl
@[simp] theorem exec_cmpEngineFault (engine : Fin 4) (s : State) : exec (.cmpEngineFault engine) s = execCmpEngineFault engine s := rfl
@[simp] theorem exec_recSessionOpen (c : Cmd) (s : State) : exec (.recSessionOpen c) s = execRecSessionOpen c s := rfl
@[simp] theorem exec_recSessionClose (c : Cmd) (s : State) : exec (.recSessionClose c) s = execRecSessionClose c s := rfl
@[simp] theorem exec_recMarkEvent (c : Cmd) (s : State) : exec (.recMarkEvent c) s = execRecMarkEvent c s := rfl
@[simp] theorem exec_recSourceRecord (h : Handle) (k : Nat) (s : State) : exec (.recSourceRecord h k) s = execRecSourceRecord h k s := rfl
@[simp] theorem exec_alignWaitExpiry (h : Handle) (k : Nat) (s : State) : exec (.alignWaitExpiry h k) s = execAlignWaitExpiry h k s := rfl
@[simp] theorem exec_streamDescriptionRefresh (h : Handle) (s : State) : exec (.streamDescriptionRefresh h) s = execStreamDescriptionRefresh h s := rfl
@[simp] theorem exec_hostRingPoll (h : Handle) (rdOff rdWraps : Nat) (s : State) : exec (.hostRingPoll h rdOff rdWraps) s = execHostRingPoll h rdOff rdWraps s := rfl
@[simp] theorem exec_senderReport (h : Handle) (s : State) : exec (.senderReport h) s = execSenderReport h s := rfl
@[simp] theorem exec_eventWindowClose (h : Handle) (s : State) : exec (.eventWindowClose h) s = execEventWindowClose h s := rfl
@[simp] theorem exec_recCloseDrainTimeout (h : Handle) (s : State) : exec (.recCloseDrainTimeout h) s = execRecCloseDrainTimeout h s := rfl
@[simp] theorem exec_dispSetTiming (c : Cmd) (s : State) : exec (.dispSetTiming c) s = execDispSetTiming c s := rfl
@[simp] theorem exec_dispLayerSet (c : Cmd) (s : State) : exec (.dispLayerSet c) s = execDispLayerSet c s := rfl
@[simp] theorem exec_dispCommit (c : Cmd) (s : State) : exec (.dispCommit c) s = execDispCommit c s := rfl
@[simp] theorem exec_dispLoadCoef (c : Cmd) (s : State) : exec (.dispLoadCoef c) s = execDispLoadCoef c s := rfl
@[simp] theorem exec_dispCrcSet (c : Cmd) (s : State) : exec (.dispCrcSet c) s = execDispCrcSet c s := rfl
@[simp] theorem exec_dispClone (c : Cmd) (s : State) : exec (.dispClone c) s = execDispClone c s := rfl
@[simp] theorem exec_headFrameStart (head : Fin 4) (s : State) : exec (.headFrameStart head) s = execHeadFrameStart head s := rfl
@[simp] theorem exec_headLineSend (head : Fin 4) (ready behind : Bool) (s : State) : exec (.headLineSend head ready behind) s = execHeadLineSend head ready behind s := rfl
@[simp] theorem exec_displayMode (head : Fin 4) (s : State) : exec (.displayMode head) s = execDisplayMode head s := rfl
@[simp] theorem exec_laneConfigure (c : Cmd) (s : State) : exec (.laneConfigure c) s = execLaneConfigure c s := rfl
@[simp] theorem exec_laneTrain (c : Cmd) (s : State) : exec (.laneTrain c) s = execLaneTrain c s := rfl
@[simp] theorem exec_laneBitslip (c : Cmd) (good cw : Nat) (s : State) : exec (.laneBitslip c good cw) s = execLaneBitslip c good cw s := rfl
@[simp] theorem exec_laneCalSave (c : Cmd) (s : State) : exec (.laneCalSave c) s = execLaneCalSave c s := rfl
@[simp] theorem exec_laneCalRestore (c : Cmd) (s : State) : exec (.laneCalRestore c) s = execLaneCalRestore c s := rfl
@[simp] theorem exec_ethPortConfigure (c : Cmd) (s : State) : exec (.ethPortConfigure c) s = execEthPortConfigure c s := rfl
@[simp] theorem exec_capability (n : Fin 32) (rates role : Nat) (s : State) : exec (.capability n rates role) s = execCapability n rates role s := rfl
@[simp] theorem exec_capabilityInterval (n : Fin 32) (s : State) : exec (.capabilityInterval n) s = execCapabilityInterval n s := rfl
@[simp] theorem exec_rateRequest (n : Fin 32) (rate : Nat) (s : State) : exec (.rateRequest n rate) s = execRateRequest n rate s := rfl
@[simp] theorem exec_rateAck (n : Fin 32) (rate : Nat) (s : State) : exec (.rateAck n rate) s = execRateAck n rate s := rfl
@[simp] theorem exec_rateStepVerified (n : Fin 32) (ber : Word) (uncorr snr eye : Nat) (values : List Byte) (s : State) : exec (.rateStepVerified n ber uncorr snr eye values) s = execRateStepVerified n ber uncorr snr eye values s := rfl
@[simp] theorem exec_rotate (n : Fin 32) (chan toLane : Nat) (s : State) : exec (.rotate n chan toLane) s = execRotate n chan toLane s := rfl
@[simp] theorem exec_rotateAck (n : Fin 32) (chan : Nat) (s : State) : exec (.rotateAck n chan) s = execRotateAck n chan s := rfl
@[simp] theorem exec_calibrationDue (n : Fin 32) (s : State) : exec (.calibrationDue n) s = execCalibrationDue n s := rfl
@[simp] theorem exec_calibrationDone (n : Fin 32) (ber : Word) (uncorr snr eye : Nat) (values : List Byte) (s : State) : exec (.calibrationDone n ber uncorr snr eye values) s = execCalibrationDone n ber uncorr snr eye values s := rfl
@[simp] theorem exec_inplaceDeferralExpiry (n : Fin 32) (s : State) : exec (.inplaceDeferralExpiry n) s = execInplaceDeferralExpiry n s := rfl
@[simp] theorem exec_laneQualityUpdate (n : Fin 32) (snr eye : Nat) (ber : Word) (corr uncorr : Nat) (s : State) : exec (.laneQualityUpdate n snr eye ber corr uncorr) s = execLaneQualityUpdate n snr eye ber corr uncorr s := rfl
@[simp] theorem exec_codewordLockLoss (n : Fin 32) (cells : Nat) (s : State) : exec (.codewordLockLoss n cells) s = execCodewordLockLoss n cells s := rfl
@[simp] theorem exec_cellLockLoss (n : Fin 32) (cells : Nat) (s : State) : exec (.cellLockLoss n cells) s = execCellLockLoss n cells s := rfl
@[simp] theorem exec_laneDeath (n : Fin 32) (s : State) : exec (.laneDeath n) s = execLaneDeath n s := rfl
@[simp] theorem exec_ltSync (frac : Half) (s : State) : exec (.ltSync frac) s = execLtSync frac s := rfl
@[simp] theorem exec_ltDelayReq (chan : Fin 32) (epoch : Nat) (seq frac : Half) (s : State) : exec (.ltDelayReq chan epoch seq frac) s = execLtDelayReq chan epoch seq frac s := rfl
@[simp] theorem exec_egressStreamSend (chan : Fin 32) (s : State) : exec (.egressStreamSend chan) s = execEgressStreamSend chan s := rfl
@[simp] theorem exec_streamDesc (h : Handle) (s : State) : exec (.streamDesc h) s = execStreamDesc h s := rfl
@[simp] theorem exec_bridgeFrame (p : Fin 4) (data : List Byte) (frac : Half) (s : State) : exec (.bridgeFrame p data frac) s = execBridgeFrame p data frac s := rfl
@[simp] theorem exec_addressAgeing (mac vid : Nat) (s : State) : exec (.addressAgeing mac vid) s = execAddressAgeing mac vid s := rfl
@[simp] theorem exec_ethLinkUp (p : Fin 4) (s : State) : exec (.ethLinkUp p) s = execEthLinkUp p s := rfl
@[simp] theorem exec_ethLinkTimeout (p : Fin 4) (s : State) : exec (.ethLinkTimeout p) s = execEthLinkTimeout p s := rfl
@[simp] theorem exec_timeSetMode (c : Cmd) (s : State) : exec (.timeSetMode c) s = execTimeSetMode c s := rfl
@[simp] theorem exec_timeStep (c : Cmd) (s : State) : exec (.timeStep c) s = execTimeStep c s := rfl
@[simp] theorem exec_timeAdjustRate (c : Cmd) (s : State) : exec (.timeAdjustRate c) s = execTimeAdjustRate c s := rfl
@[simp] theorem exec_timeWriteIncrement (c : Cmd) (s : State) : exec (.timeWriteIncrement c) s = execTimeWriteIncrement c s := rfl
@[simp] theorem exec_rateRestore (s : State) : exec (.rateRestore) s = execRateRestore s := rfl
@[simp] theorem exec_sync (p : Fin 4) (domain seq : Nat) (twoStep : Bool) (t1 corr : Int) (frac : Half) (s : State) : exec (.sync p domain seq twoStep t1 corr frac) s = execSync p domain seq twoStep t1 corr frac s := rfl
@[simp] theorem exec_followUp (p : Fin 4) (domain seq : Nat) (t1 corr : Int) (s : State) : exec (.followUp p domain seq t1 corr) s = execFollowUp p domain seq t1 corr s := rfl
@[simp] theorem exec_delayReq (p : Fin 4) (domain seq : Nat) (corr : Int) (frac : Half) (s : State) : exec (.delayReq p domain seq corr frac) s = execDelayReq p domain seq corr frac s := rfl
@[simp] theorem exec_delayResp (p : Fin 4) (domain seq : Nat) (t4 corr : Int) (s : State) : exec (.delayResp p domain seq t4 corr) s = execDelayResp p domain seq t4 corr s := rfl
@[simp] theorem exec_pdelayReq (p : Fin 4) (domain seq : Nat) (corr : Int) (frac : Half) (s : State) : exec (.pdelayReq p domain seq corr frac) s = execPdelayReq p domain seq corr frac s := rfl
@[simp] theorem exec_pdelayResp (p : Fin 4) (domain seq : Nat) (twoStep : Bool) (rxPeer corr : Int) (frac : Half) (s : State) : exec (.pdelayResp p domain seq twoStep rxPeer corr frac) s = execPdelayResp p domain seq twoStep rxPeer corr frac s := rfl
@[simp] theorem exec_pdelayRespFollowUp (p : Fin 4) (domain seq : Nat) (txPeer corr : Int) (s : State) : exec (.pdelayRespFollowUp p domain seq txPeer corr) s = execPdelayRespFollowUp p domain seq txPeer corr s := rfl
@[simp] theorem exec_announce (p : Fin 4) (domain : Nat) (a : Announce) (s : State) : exec (.announce p domain a) s = execAnnounce p domain a s := rfl
@[simp] theorem exec_ptpMessageInterval (p : Fin 4) (kind : Nat) (frac : Half) (s : State) : exec (.ptpMessageInterval p kind frac) s = execPtpMessageInterval p kind frac s := rfl
@[simp] theorem exec_announceTimeout (p : Fin 4) (s : State) : exec (.announceTimeout p) s = execAnnounceTimeout p s := rfl
@[simp] theorem exec_tcHoldTimeout (port domain seq : Nat) (s : State) : exec (.tcHoldTimeout port domain seq) s = execTcHoldTimeout port domain seq s := rfl
@[simp] theorem exec_evtOutputSet (c : Cmd) (s : State) : exec (.evtOutputSet c) s = execEvtOutputSet c s := rfl
@[simp] theorem exec_evtCaptureSet (c : Cmd) (s : State) : exec (.evtCaptureSet c) s = execEvtCaptureSet c s := rfl
@[simp] theorem exec_compareEvent (u : Fin 32) (s : State) : exec (.compareEvent u) s = execCompareEvent u s := rfl
@[simp] theorem exec_pulseEnd (u : Fin 32) (s : State) : exec (.pulseEnd u) s = execPulseEnd u s := rfl
@[simp] theorem exec_captureEdge (n : Fin 32) (rising : Bool) (s : State) : exec (.captureEdge n rising) s = execCaptureEdge n rising s := rfl
@[simp] theorem exec_audPortConfigure (c : Cmd) (s : State) : exec (.audPortConfigure c) s = execAudPortConfigure c s := rfl
@[simp] theorem exec_audStart (c : Cmd) (s : State) : exec (.audStart c) s = execAudStart c s := rfl
@[simp] theorem exec_audStop (c : Cmd) (s : State) : exec (.audStop c) s = execAudStop c s := rfl
@[simp] theorem exec_audSetSlots (c : Cmd) (s : State) : exec (.audSetSlots c) s = execAudSetSlots c s := rfl
@[simp] theorem exec_audioFrame (p : Fin 8) (rx : List Int) (ppm : Int) (s : State) : exec (.audioFrame p rx ppm) s = execAudioFrame p rx ppm s := rfl
@[simp] theorem exec_audioClockLoss (p : Fin 8) (s : State) : exec (.audioClockLoss p) s = execAudioClockLoss p s := rfl
@[simp] theorem exec_filledBlock (p : Fin 8) (s : State) : exec (.filledBlock p) s = execFilledBlock p s := rfl
@[simp] theorem exec_mediaClockUpdate (k : Fin 2) (s : State) : exec (.mediaClockUpdate k) s = execMediaClockUpdate k s := rfl
@[simp] theorem exec_playbackPoll (p : Fin 8) (s : State) : exec (.playbackPoll p) s = execPlaybackPoll p s := rfl
@[simp] theorem exec_fwDownload (c : Cmd) (s : State) : exec (.fwDownload c) s = execFwDownload c s := rfl
@[simp] theorem exec_fwCommit (c : Cmd) (sigOk verified : Bool) (s : State) : exec (.fwCommit c sigOk verified) s = execFwCommit c sigOk verified s := rfl
@[simp] theorem exec_fwActivate (c : Cmd) (s : State) : exec (.fwActivate c) s = execFwActivate c s := rfl
@[simp] theorem exec_activationDrained (accepts : Bool) (s : State) : exec (.activationDrained accepts) s = execActivationDrained accepts s := rfl
@[simp] theorem exec_activationDrainTimeout (s : State) : exec (.activationDrainTimeout) s = execActivationDrainTimeout s := rfl
@[simp] theorem exec_trialEnd (s : State) : exec (.trialEnd) s = execTrialEnd s := rfl
@[simp] theorem exec_chandlerRestart (s : State) : exec (.chandlerRestart) s = execChandlerRestart s := rfl
@[simp] theorem exec_healthQuery (c : Cmd) (s : State) : exec (.healthQuery c) s = execHealthQuery c s := rfl
@[simp] theorem exec_monConfigure (c : Cmd) (s : State) : exec (.monConfigure c) s = execMonConfigure c s := rfl
@[simp] theorem exec_unitRejoin (c : Cmd) (s : State) : exec (.unitRejoin c) s = execUnitRejoin c s := rfl
@[simp] theorem exec_selfTestDone (h : Handle) (ok : Bool) (s : State) : exec (.selfTestDone h ok) s = execSelfTestDone h ok s := rfl
@[simp] theorem exec_pairConfigure (c : Cmd) (peers : List (Nat × Nat × Nat)) (s : State) : exec (.pairConfigure c peers) s = execPairConfigure c peers s := rfl
@[simp] theorem exec_errPolicySet (c : Cmd) (s : State) : exec (.errPolicySet c) s = execErrPolicySet c s := rfl
@[simp] theorem exec_monitorSample (values : List Int) (s : State) : exec (.monitorSample values) s = execMonitorSample values s := rfl
@[simp] theorem exec_histPeriodExpiry (n : Fin 72) (s : State) : exec (.histPeriodExpiry n) s = execHistPeriodExpiry n s := rfl
@[simp] theorem exec_healthRecordUpdate (powerDw : Nat) (s : State) : exec (.healthRecordUpdate powerDw) s = execHealthRecordUpdate powerDw s := rfl
@[simp] theorem exec_heartbeatSend (s : State) : exec (.heartbeatSend) s = execHeartbeatSend s := rfl
@[simp] theorem exec_heartbeat (payload : List Byte) (s : State) : exec (.heartbeat payload) s = execHeartbeat payload s := rfl
@[simp] theorem exec_heartbeatMiss (toggles chandler : Bool) (s : State) : exec (.heartbeatMiss toggles chandler) s = execHeartbeatMiss toggles chandler s := rfl
@[simp] theorem exec_ownerAck (hub epoch hubFc lost : Nat) (s : State) : exec (.ownerAck hub epoch hubFc lost) s = execOwnerAck hub epoch hubFc lost s := rfl
@[simp] theorem exec_refreshDue (stack : Fin 4) (n : Fin 32) (s : State) : exec (.refreshDue stack n) s = execRefreshDue stack n s := rfl
@[simp] theorem exec_makeUpBurst (stack : Fin 4) (n : Fin 32) (s : State) : exec (.makeUpBurst stack n) s = execMakeUpBurst stack n s := rfl
@[simp] theorem exec_retrainingSlot (stack : Fin 4) (n : Fin 32) (eyeOk : Bool) (s : State) : exec (.retrainingSlot stack n eyeOk) s = execRetrainingSlot stack n eyeOk s := rfl
@[simp] theorem exec_retrainRetry (stack : Fin 4) (n : Fin 32) (eyeOk : Bool) (s : State) : exec (.retrainRetry stack n eyeOk) s = execRetrainRetry stack n eyeOk s := rfl
@[simp] theorem exec_stackSpeedChange (stack : Fin 4) (s : State) : exec (.stackSpeedChange stack) s = execStackSpeedChange stack s := rfl
@[simp] theorem exec_scrubRead (line row bank region result : Nat) (last : Bool) (s : State) : exec (.scrubRead line row bank region result last) s = execScrubRead line row bank region result last s := rfl
@[simp] theorem exec_tallyLeak (p : Fin 128) (region : Nat) (s : State) : exec (.tallyLeak p region) s = execTallyLeak p region s := rfl
@[simp] theorem exec_onDieEccPoll (reports : List (Fin 128 × Nat × Nat)) (s : State) : exec (.onDieEccPoll reports) s = execOnDieEccPoll reports s := rfl
@[simp] theorem exec_pcRetirement (p : Fin 128) (s : State) : exec (.pcRetirement p) s = execPcRetirement p s := rfl
@[simp] theorem exec_retirementCopyDone (p : Fin 128) (lost : List Nat) (s : State) : exec (.retirementCopyDone p lost) s = execRetirementCopyDone p lost s := rfl
@[simp] theorem exec_codewordLock (n : Fin 32) (s : State) : exec (.codewordLock n) s = execCodewordLock n s := rfl
@[simp] theorem exec_cellLock (n : Fin 32) (s : State) : exec (.cellLock n) s = execCellLock n s := rfl
@[simp] theorem exec_ethLinkDown (p : Fin 4) (s : State) : exec (.ethLinkDown p) s = execEthLinkDown p s := rfl
@[simp] theorem exec_powerDown (s : State) : exec (.powerDown) s = execPowerDown s := rfl
@[simp] theorem exec_shadowUpdate (cell : ShadowCell) (m : Option Mirror) (used : Nat) (full : Bool) (s : State) : exec (.shadowUpdate cell m used full) s = execShadowUpdate cell m used full s := rfl
@[simp] theorem exec_rotationOverlapEnd (q : Fin 8) (frac : Half) (s : State) : exec (.rotationOverlapEnd q frac) s = execRotationOverlapEnd q frac s := rfl
@[simp] theorem exec_decOutputSkip (h : Handle) (s : State) : exec (.decOutputSkip h) s = execDecOutputSkip h s := rfl

end Sys2Proof.Machine
end

