-- ==== Sys2Proof/Laws/State.lean ====
section
/-!
SUPPORT. What each update of one part of the state leaves in every field, so that no proof unfolds a record update.
-/
namespace Sys2Proof.Machine

/-! ### mapHost -/

@[simp] theorem State.mapHost_pending (s : State) (f : HostSt → HostSt) : (s.mapHost f).pending = s.pending := rfl
@[simp] theorem State.mapHost_fresh (s : State) (f : HostSt → HostSt) : (s.mapHost f).fresh = s.fresh := rfl
@[simp] theorem State.mapHost_out (s : State) (f : HostSt → HostSt) : (s.mapHost f).out = s.out := rfl
@[simp] theorem State.mapHost_issued (s : State) (f : HostSt → HostSt) : (s.mapHost f).issued = s.issued := rfl
@[simp] theorem State.mapHost_dev (s : State) (f : HostSt → HostSt) : (s.mapHost f).dev = s.dev := rfl
@[simp] theorem State.mapHost_host (s : State) (f : HostSt → HostSt) : (s.mapHost f).host = f s.host := rfl
@[simp] theorem State.mapHost_mem (s : State) (f : HostSt → HostSt) : (s.mapHost f).mem = s.mem := rfl
@[simp] theorem State.mapHost_mgmt (s : State) (f : HostSt → HostSt) : (s.mapHost f).mgmt = s.mgmt := rfl
@[simp] theorem State.mapHost_power (s : State) (f : HostSt → HostSt) : (s.mapHost f).power = s.power := rfl
@[simp] theorem State.mapHost_time (s : State) (f : HostSt → HostSt) : (s.mapHost f).time = s.time := rfl
@[simp] theorem State.mapHost_lanes (s : State) (f : HostSt → HostSt) : (s.mapHost f).lanes = s.lanes := rfl
@[simp] theorem State.mapHost_cams (s : State) (f : HostSt → HostSt) : (s.mapHost f).cams = s.cams := rfl
@[simp] theorem State.mapHost_encs (s : State) (f : HostSt → HostSt) : (s.mapHost f).encs = s.encs := rfl
@[simp] theorem State.mapHost_dec (s : State) (f : HostSt → HostSt) : (s.mapHost f).dec = s.dec := rfl
@[simp] theorem State.mapHost_cmp (s : State) (f : HostSt → HostSt) : (s.mapHost f).cmp = s.cmp := rfl
@[simp] theorem State.mapHost_recs (s : State) (f : HostSt → HostSt) : (s.mapHost f).recs = s.recs := rfl
@[simp] theorem State.mapHost_aud (s : State) (f : HostSt → HostSt) : (s.mapHost f).aud = s.aud := rfl
@[simp] theorem State.mapHost_disp (s : State) (f : HostSt → HostSt) : (s.mapHost f).disp = s.disp := rfl
@[simp] theorem State.mapHost_jm (s : State) (f : HostSt → HostSt) : (s.mapHost f).jm = s.jm := rfl
@[simp] theorem State.mapHost_fab (s : State) (f : HostSt → HostSt) : (s.mapHost f).fab = s.fab := rfl

/-! ### mapMem -/

@[simp] theorem State.mapMem_pending (s : State) (f : MemSt → MemSt) : (s.mapMem f).pending = s.pending := rfl
@[simp] theorem State.mapMem_fresh (s : State) (f : MemSt → MemSt) : (s.mapMem f).fresh = s.fresh := rfl
@[simp] theorem State.mapMem_out (s : State) (f : MemSt → MemSt) : (s.mapMem f).out = s.out := rfl
@[simp] theorem State.mapMem_issued (s : State) (f : MemSt → MemSt) : (s.mapMem f).issued = s.issued := rfl
@[simp] theorem State.mapMem_dev (s : State) (f : MemSt → MemSt) : (s.mapMem f).dev = s.dev := rfl
@[simp] theorem State.mapMem_host (s : State) (f : MemSt → MemSt) : (s.mapMem f).host = s.host := rfl
@[simp] theorem State.mapMem_mem (s : State) (f : MemSt → MemSt) : (s.mapMem f).mem = f s.mem := rfl
@[simp] theorem State.mapMem_mgmt (s : State) (f : MemSt → MemSt) : (s.mapMem f).mgmt = s.mgmt := rfl
@[simp] theorem State.mapMem_power (s : State) (f : MemSt → MemSt) : (s.mapMem f).power = s.power := rfl
@[simp] theorem State.mapMem_time (s : State) (f : MemSt → MemSt) : (s.mapMem f).time = s.time := rfl
@[simp] theorem State.mapMem_lanes (s : State) (f : MemSt → MemSt) : (s.mapMem f).lanes = s.lanes := rfl
@[simp] theorem State.mapMem_cams (s : State) (f : MemSt → MemSt) : (s.mapMem f).cams = s.cams := rfl
@[simp] theorem State.mapMem_encs (s : State) (f : MemSt → MemSt) : (s.mapMem f).encs = s.encs := rfl
@[simp] theorem State.mapMem_dec (s : State) (f : MemSt → MemSt) : (s.mapMem f).dec = s.dec := rfl
@[simp] theorem State.mapMem_cmp (s : State) (f : MemSt → MemSt) : (s.mapMem f).cmp = s.cmp := rfl
@[simp] theorem State.mapMem_recs (s : State) (f : MemSt → MemSt) : (s.mapMem f).recs = s.recs := rfl
@[simp] theorem State.mapMem_aud (s : State) (f : MemSt → MemSt) : (s.mapMem f).aud = s.aud := rfl
@[simp] theorem State.mapMem_disp (s : State) (f : MemSt → MemSt) : (s.mapMem f).disp = s.disp := rfl
@[simp] theorem State.mapMem_jm (s : State) (f : MemSt → MemSt) : (s.mapMem f).jm = s.jm := rfl
@[simp] theorem State.mapMem_fab (s : State) (f : MemSt → MemSt) : (s.mapMem f).fab = s.fab := rfl

/-! ### mapMgmt -/

@[simp] theorem State.mapMgmt_pending (s : State) (f : MgmtSt → MgmtSt) : (s.mapMgmt f).pending = s.pending := rfl
@[simp] theorem State.mapMgmt_fresh (s : State) (f : MgmtSt → MgmtSt) : (s.mapMgmt f).fresh = s.fresh := rfl
@[simp] theorem State.mapMgmt_out (s : State) (f : MgmtSt → MgmtSt) : (s.mapMgmt f).out = s.out := rfl
@[simp] theorem State.mapMgmt_issued (s : State) (f : MgmtSt → MgmtSt) : (s.mapMgmt f).issued = s.issued := rfl
@[simp] theorem State.mapMgmt_dev (s : State) (f : MgmtSt → MgmtSt) : (s.mapMgmt f).dev = s.dev := rfl
@[simp] theorem State.mapMgmt_host (s : State) (f : MgmtSt → MgmtSt) : (s.mapMgmt f).host = s.host := rfl
@[simp] theorem State.mapMgmt_mem (s : State) (f : MgmtSt → MgmtSt) : (s.mapMgmt f).mem = s.mem := rfl
@[simp] theorem State.mapMgmt_mgmt (s : State) (f : MgmtSt → MgmtSt) : (s.mapMgmt f).mgmt = f s.mgmt := rfl
@[simp] theorem State.mapMgmt_power (s : State) (f : MgmtSt → MgmtSt) : (s.mapMgmt f).power = s.power := rfl
@[simp] theorem State.mapMgmt_time (s : State) (f : MgmtSt → MgmtSt) : (s.mapMgmt f).time = s.time := rfl
@[simp] theorem State.mapMgmt_lanes (s : State) (f : MgmtSt → MgmtSt) : (s.mapMgmt f).lanes = s.lanes := rfl
@[simp] theorem State.mapMgmt_cams (s : State) (f : MgmtSt → MgmtSt) : (s.mapMgmt f).cams = s.cams := rfl
@[simp] theorem State.mapMgmt_encs (s : State) (f : MgmtSt → MgmtSt) : (s.mapMgmt f).encs = s.encs := rfl
@[simp] theorem State.mapMgmt_dec (s : State) (f : MgmtSt → MgmtSt) : (s.mapMgmt f).dec = s.dec := rfl
@[simp] theorem State.mapMgmt_cmp (s : State) (f : MgmtSt → MgmtSt) : (s.mapMgmt f).cmp = s.cmp := rfl
@[simp] theorem State.mapMgmt_recs (s : State) (f : MgmtSt → MgmtSt) : (s.mapMgmt f).recs = s.recs := rfl
@[simp] theorem State.mapMgmt_aud (s : State) (f : MgmtSt → MgmtSt) : (s.mapMgmt f).aud = s.aud := rfl
@[simp] theorem State.mapMgmt_disp (s : State) (f : MgmtSt → MgmtSt) : (s.mapMgmt f).disp = s.disp := rfl
@[simp] theorem State.mapMgmt_jm (s : State) (f : MgmtSt → MgmtSt) : (s.mapMgmt f).jm = s.jm := rfl
@[simp] theorem State.mapMgmt_fab (s : State) (f : MgmtSt → MgmtSt) : (s.mapMgmt f).fab = s.fab := rfl

/-! ### mapPower -/

@[simp] theorem State.mapPower_pending (s : State) (f : PowerSt → PowerSt) : (s.mapPower f).pending = s.pending := rfl
@[simp] theorem State.mapPower_fresh (s : State) (f : PowerSt → PowerSt) : (s.mapPower f).fresh = s.fresh := rfl
@[simp] theorem State.mapPower_out (s : State) (f : PowerSt → PowerSt) : (s.mapPower f).out = s.out := rfl
@[simp] theorem State.mapPower_issued (s : State) (f : PowerSt → PowerSt) : (s.mapPower f).issued = s.issued := rfl
@[simp] theorem State.mapPower_dev (s : State) (f : PowerSt → PowerSt) : (s.mapPower f).dev = s.dev := rfl
@[simp] theorem State.mapPower_host (s : State) (f : PowerSt → PowerSt) : (s.mapPower f).host = s.host := rfl
@[simp] theorem State.mapPower_mem (s : State) (f : PowerSt → PowerSt) : (s.mapPower f).mem = s.mem := rfl
@[simp] theorem State.mapPower_mgmt (s : State) (f : PowerSt → PowerSt) : (s.mapPower f).mgmt = s.mgmt := rfl
@[simp] theorem State.mapPower_power (s : State) (f : PowerSt → PowerSt) : (s.mapPower f).power = f s.power := rfl
@[simp] theorem State.mapPower_time (s : State) (f : PowerSt → PowerSt) : (s.mapPower f).time = s.time := rfl
@[simp] theorem State.mapPower_lanes (s : State) (f : PowerSt → PowerSt) : (s.mapPower f).lanes = s.lanes := rfl
@[simp] theorem State.mapPower_cams (s : State) (f : PowerSt → PowerSt) : (s.mapPower f).cams = s.cams := rfl
@[simp] theorem State.mapPower_encs (s : State) (f : PowerSt → PowerSt) : (s.mapPower f).encs = s.encs := rfl
@[simp] theorem State.mapPower_dec (s : State) (f : PowerSt → PowerSt) : (s.mapPower f).dec = s.dec := rfl
@[simp] theorem State.mapPower_cmp (s : State) (f : PowerSt → PowerSt) : (s.mapPower f).cmp = s.cmp := rfl
@[simp] theorem State.mapPower_recs (s : State) (f : PowerSt → PowerSt) : (s.mapPower f).recs = s.recs := rfl
@[simp] theorem State.mapPower_aud (s : State) (f : PowerSt → PowerSt) : (s.mapPower f).aud = s.aud := rfl
@[simp] theorem State.mapPower_disp (s : State) (f : PowerSt → PowerSt) : (s.mapPower f).disp = s.disp := rfl
@[simp] theorem State.mapPower_jm (s : State) (f : PowerSt → PowerSt) : (s.mapPower f).jm = s.jm := rfl
@[simp] theorem State.mapPower_fab (s : State) (f : PowerSt → PowerSt) : (s.mapPower f).fab = s.fab := rfl

/-! ### mapTime -/

@[simp] theorem State.mapTime_pending (s : State) (f : TimeSt → TimeSt) : (s.mapTime f).pending = s.pending := rfl
@[simp] theorem State.mapTime_fresh (s : State) (f : TimeSt → TimeSt) : (s.mapTime f).fresh = s.fresh := rfl
@[simp] theorem State.mapTime_out (s : State) (f : TimeSt → TimeSt) : (s.mapTime f).out = s.out := rfl
@[simp] theorem State.mapTime_issued (s : State) (f : TimeSt → TimeSt) : (s.mapTime f).issued = s.issued := rfl
@[simp] theorem State.mapTime_dev (s : State) (f : TimeSt → TimeSt) : (s.mapTime f).dev = s.dev := rfl
@[simp] theorem State.mapTime_host (s : State) (f : TimeSt → TimeSt) : (s.mapTime f).host = s.host := rfl
@[simp] theorem State.mapTime_mem (s : State) (f : TimeSt → TimeSt) : (s.mapTime f).mem = s.mem := rfl
@[simp] theorem State.mapTime_mgmt (s : State) (f : TimeSt → TimeSt) : (s.mapTime f).mgmt = s.mgmt := rfl
@[simp] theorem State.mapTime_power (s : State) (f : TimeSt → TimeSt) : (s.mapTime f).power = s.power := rfl
@[simp] theorem State.mapTime_time (s : State) (f : TimeSt → TimeSt) : (s.mapTime f).time = f s.time := rfl
@[simp] theorem State.mapTime_lanes (s : State) (f : TimeSt → TimeSt) : (s.mapTime f).lanes = s.lanes := rfl
@[simp] theorem State.mapTime_cams (s : State) (f : TimeSt → TimeSt) : (s.mapTime f).cams = s.cams := rfl
@[simp] theorem State.mapTime_encs (s : State) (f : TimeSt → TimeSt) : (s.mapTime f).encs = s.encs := rfl
@[simp] theorem State.mapTime_dec (s : State) (f : TimeSt → TimeSt) : (s.mapTime f).dec = s.dec := rfl
@[simp] theorem State.mapTime_cmp (s : State) (f : TimeSt → TimeSt) : (s.mapTime f).cmp = s.cmp := rfl
@[simp] theorem State.mapTime_recs (s : State) (f : TimeSt → TimeSt) : (s.mapTime f).recs = s.recs := rfl
@[simp] theorem State.mapTime_aud (s : State) (f : TimeSt → TimeSt) : (s.mapTime f).aud = s.aud := rfl
@[simp] theorem State.mapTime_disp (s : State) (f : TimeSt → TimeSt) : (s.mapTime f).disp = s.disp := rfl
@[simp] theorem State.mapTime_jm (s : State) (f : TimeSt → TimeSt) : (s.mapTime f).jm = s.jm := rfl
@[simp] theorem State.mapTime_fab (s : State) (f : TimeSt → TimeSt) : (s.mapTime f).fab = s.fab := rfl

/-! ### emit -/

@[simp] theorem State.emit_pending (s : State) (o : Out) : (s.emit o).pending = s.pending := rfl
@[simp] theorem State.emit_fresh (s : State) (o : Out) : (s.emit o).fresh = s.fresh := rfl
@[simp] theorem State.emit_out (s : State) (o : Out) : (s.emit o).out = o :: s.out := rfl
@[simp] theorem State.emit_issued (s : State) (o : Out) : (s.emit o).issued = s.issued := rfl
@[simp] theorem State.emit_dev (s : State) (o : Out) : (s.emit o).dev = s.dev := rfl
@[simp] theorem State.emit_host (s : State) (o : Out) : (s.emit o).host = s.host := rfl
@[simp] theorem State.emit_mem (s : State) (o : Out) : (s.emit o).mem = s.mem := rfl
@[simp] theorem State.emit_mgmt (s : State) (o : Out) : (s.emit o).mgmt = s.mgmt := rfl
@[simp] theorem State.emit_power (s : State) (o : Out) : (s.emit o).power = s.power := rfl
@[simp] theorem State.emit_time (s : State) (o : Out) : (s.emit o).time = s.time := rfl
@[simp] theorem State.emit_lanes (s : State) (o : Out) : (s.emit o).lanes = s.lanes := rfl
@[simp] theorem State.emit_cams (s : State) (o : Out) : (s.emit o).cams = s.cams := rfl
@[simp] theorem State.emit_encs (s : State) (o : Out) : (s.emit o).encs = s.encs := rfl
@[simp] theorem State.emit_dec (s : State) (o : Out) : (s.emit o).dec = s.dec := rfl
@[simp] theorem State.emit_cmp (s : State) (o : Out) : (s.emit o).cmp = s.cmp := rfl
@[simp] theorem State.emit_recs (s : State) (o : Out) : (s.emit o).recs = s.recs := rfl
@[simp] theorem State.emit_aud (s : State) (o : Out) : (s.emit o).aud = s.aud := rfl
@[simp] theorem State.emit_disp (s : State) (o : Out) : (s.emit o).disp = s.disp := rfl
@[simp] theorem State.emit_jm (s : State) (o : Out) : (s.emit o).jm = s.jm := rfl
@[simp] theorem State.emit_fab (s : State) (o : Out) : (s.emit o).fab = s.fab := rfl

/-! ### tickFresh -/

@[simp] theorem State.tickFresh_pending (s : State) : (s.tickFresh).pending = s.pending := rfl
@[simp] theorem State.tickFresh_fresh (s : State) : (s.tickFresh).fresh = s.fresh + 1 := rfl
@[simp] theorem State.tickFresh_out (s : State) : (s.tickFresh).out = s.out := rfl
@[simp] theorem State.tickFresh_issued (s : State) : (s.tickFresh).issued = s.issued := rfl
@[simp] theorem State.tickFresh_dev (s : State) : (s.tickFresh).dev = s.dev := rfl
@[simp] theorem State.tickFresh_host (s : State) : (s.tickFresh).host = s.host := rfl
@[simp] theorem State.tickFresh_mem (s : State) : (s.tickFresh).mem = s.mem := rfl
@[simp] theorem State.tickFresh_mgmt (s : State) : (s.tickFresh).mgmt = s.mgmt := rfl
@[simp] theorem State.tickFresh_power (s : State) : (s.tickFresh).power = s.power := rfl
@[simp] theorem State.tickFresh_time (s : State) : (s.tickFresh).time = s.time := rfl
@[simp] theorem State.tickFresh_lanes (s : State) : (s.tickFresh).lanes = s.lanes := rfl
@[simp] theorem State.tickFresh_cams (s : State) : (s.tickFresh).cams = s.cams := rfl
@[simp] theorem State.tickFresh_encs (s : State) : (s.tickFresh).encs = s.encs := rfl
@[simp] theorem State.tickFresh_dec (s : State) : (s.tickFresh).dec = s.dec := rfl
@[simp] theorem State.tickFresh_cmp (s : State) : (s.tickFresh).cmp = s.cmp := rfl
@[simp] theorem State.tickFresh_recs (s : State) : (s.tickFresh).recs = s.recs := rfl
@[simp] theorem State.tickFresh_aud (s : State) : (s.tickFresh).aud = s.aud := rfl
@[simp] theorem State.tickFresh_disp (s : State) : (s.tickFresh).disp = s.disp := rfl
@[simp] theorem State.tickFresh_jm (s : State) : (s.tickFresh).jm = s.jm := rfl
@[simp] theorem State.tickFresh_fab (s : State) : (s.tickFresh).fab = s.fab := rfl

/-! ### issue -/

@[simp] theorem State.issue_pending (s : State) (ty : Nat) : (s.issue ty).pending = s.pending := rfl
@[simp] theorem State.issue_fresh (s : State) (ty : Nat) : (s.issue ty).fresh = s.fresh := rfl
@[simp] theorem State.issue_out (s : State) (ty : Nat) : (s.issue ty).out = s.out := rfl
@[simp] theorem State.issue_issued (s : State) (ty : Nat) : (s.issue ty).issued = vmod s.issued ty (fun x => HandleNo.pass (fun n => s.liveHandle (mkHandle ty s.dev.inst n)) (x.held.length + 1) (x.step (fun n => s.liveHandle (mkHandle ty s.dev.inst n)))) := rfl
@[simp] theorem State.issue_dev (s : State) (ty : Nat) : (s.issue ty).dev = s.dev := rfl
@[simp] theorem State.issue_host (s : State) (ty : Nat) : (s.issue ty).host = s.host := rfl
@[simp] theorem State.issue_mem (s : State) (ty : Nat) : (s.issue ty).mem = s.mem := rfl
@[simp] theorem State.issue_mgmt (s : State) (ty : Nat) : (s.issue ty).mgmt = s.mgmt := rfl
@[simp] theorem State.issue_power (s : State) (ty : Nat) : (s.issue ty).power = s.power := rfl
@[simp] theorem State.issue_time (s : State) (ty : Nat) : (s.issue ty).time = s.time := rfl
@[simp] theorem State.issue_lanes (s : State) (ty : Nat) : (s.issue ty).lanes = s.lanes := rfl
@[simp] theorem State.issue_cams (s : State) (ty : Nat) : (s.issue ty).cams = s.cams := rfl
@[simp] theorem State.issue_encs (s : State) (ty : Nat) : (s.issue ty).encs = s.encs := rfl
@[simp] theorem State.issue_dec (s : State) (ty : Nat) : (s.issue ty).dec = s.dec := rfl
@[simp] theorem State.issue_cmp (s : State) (ty : Nat) : (s.issue ty).cmp = s.cmp := rfl
@[simp] theorem State.issue_recs (s : State) (ty : Nat) : (s.issue ty).recs = s.recs := rfl
@[simp] theorem State.issue_aud (s : State) (ty : Nat) : (s.issue ty).aud = s.aud := rfl
@[simp] theorem State.issue_disp (s : State) (ty : Nat) : (s.issue ty).disp = s.disp := rfl
@[simp] theorem State.issue_jm (s : State) (ty : Nat) : (s.issue ty).jm = s.jm := rfl
@[simp] theorem State.issue_fab (s : State) (ty : Nat) : (s.issue ty).fab = s.fab := rfl

/-! ### mapCams -/

@[simp] theorem State.mapCams_pending (s : State) (f : CamsSt → CamsSt) : (s.mapCams f).pending = s.pending := rfl
@[simp] theorem State.mapCams_fresh (s : State) (f : CamsSt → CamsSt) : (s.mapCams f).fresh = s.fresh := rfl
@[simp] theorem State.mapCams_out (s : State) (f : CamsSt → CamsSt) : (s.mapCams f).out = s.out := rfl
@[simp] theorem State.mapCams_issued (s : State) (f : CamsSt → CamsSt) : (s.mapCams f).issued = s.issued := rfl
@[simp] theorem State.mapCams_dev (s : State) (f : CamsSt → CamsSt) : (s.mapCams f).dev = s.dev := rfl
@[simp] theorem State.mapCams_host (s : State) (f : CamsSt → CamsSt) : (s.mapCams f).host = s.host := rfl
@[simp] theorem State.mapCams_mem (s : State) (f : CamsSt → CamsSt) : (s.mapCams f).mem = s.mem := rfl
@[simp] theorem State.mapCams_mgmt (s : State) (f : CamsSt → CamsSt) : (s.mapCams f).mgmt = s.mgmt := rfl
@[simp] theorem State.mapCams_power (s : State) (f : CamsSt → CamsSt) : (s.mapCams f).power = s.power := rfl
@[simp] theorem State.mapCams_time (s : State) (f : CamsSt → CamsSt) : (s.mapCams f).time = s.time := rfl
@[simp] theorem State.mapCams_lanes (s : State) (f : CamsSt → CamsSt) : (s.mapCams f).lanes = s.lanes := rfl
@[simp] theorem State.mapCams_cams (s : State) (f : CamsSt → CamsSt) : (s.mapCams f).cams = f s.cams := rfl
@[simp] theorem State.mapCams_encs (s : State) (f : CamsSt → CamsSt) : (s.mapCams f).encs = s.encs := rfl
@[simp] theorem State.mapCams_dec (s : State) (f : CamsSt → CamsSt) : (s.mapCams f).dec = s.dec := rfl
@[simp] theorem State.mapCams_cmp (s : State) (f : CamsSt → CamsSt) : (s.mapCams f).cmp = s.cmp := rfl
@[simp] theorem State.mapCams_recs (s : State) (f : CamsSt → CamsSt) : (s.mapCams f).recs = s.recs := rfl
@[simp] theorem State.mapCams_aud (s : State) (f : CamsSt → CamsSt) : (s.mapCams f).aud = s.aud := rfl
@[simp] theorem State.mapCams_disp (s : State) (f : CamsSt → CamsSt) : (s.mapCams f).disp = s.disp := rfl
@[simp] theorem State.mapCams_jm (s : State) (f : CamsSt → CamsSt) : (s.mapCams f).jm = s.jm := rfl
@[simp] theorem State.mapCams_fab (s : State) (f : CamsSt → CamsSt) : (s.mapCams f).fab = s.fab := rfl

/-! ### mapLanes -/

@[simp] theorem State.mapLanes_pending (s : State) (f : LanesSt → LanesSt) : (s.mapLanes f).pending = s.pending := rfl
@[simp] theorem State.mapLanes_fresh (s : State) (f : LanesSt → LanesSt) : (s.mapLanes f).fresh = s.fresh := rfl
@[simp] theorem State.mapLanes_out (s : State) (f : LanesSt → LanesSt) : (s.mapLanes f).out = s.out := rfl
@[simp] theorem State.mapLanes_issued (s : State) (f : LanesSt → LanesSt) : (s.mapLanes f).issued = s.issued := rfl
@[simp] theorem State.mapLanes_dev (s : State) (f : LanesSt → LanesSt) : (s.mapLanes f).dev = s.dev := rfl
@[simp] theorem State.mapLanes_host (s : State) (f : LanesSt → LanesSt) : (s.mapLanes f).host = s.host := rfl
@[simp] theorem State.mapLanes_mem (s : State) (f : LanesSt → LanesSt) : (s.mapLanes f).mem = s.mem := rfl
@[simp] theorem State.mapLanes_mgmt (s : State) (f : LanesSt → LanesSt) : (s.mapLanes f).mgmt = s.mgmt := rfl
@[simp] theorem State.mapLanes_power (s : State) (f : LanesSt → LanesSt) : (s.mapLanes f).power = s.power := rfl
@[simp] theorem State.mapLanes_time (s : State) (f : LanesSt → LanesSt) : (s.mapLanes f).time = s.time := rfl
@[simp] theorem State.mapLanes_lanes (s : State) (f : LanesSt → LanesSt) : (s.mapLanes f).lanes = f s.lanes := rfl
@[simp] theorem State.mapLanes_cams (s : State) (f : LanesSt → LanesSt) : (s.mapLanes f).cams = s.cams := rfl
@[simp] theorem State.mapLanes_encs (s : State) (f : LanesSt → LanesSt) : (s.mapLanes f).encs = s.encs := rfl
@[simp] theorem State.mapLanes_dec (s : State) (f : LanesSt → LanesSt) : (s.mapLanes f).dec = s.dec := rfl
@[simp] theorem State.mapLanes_cmp (s : State) (f : LanesSt → LanesSt) : (s.mapLanes f).cmp = s.cmp := rfl
@[simp] theorem State.mapLanes_recs (s : State) (f : LanesSt → LanesSt) : (s.mapLanes f).recs = s.recs := rfl
@[simp] theorem State.mapLanes_aud (s : State) (f : LanesSt → LanesSt) : (s.mapLanes f).aud = s.aud := rfl
@[simp] theorem State.mapLanes_disp (s : State) (f : LanesSt → LanesSt) : (s.mapLanes f).disp = s.disp := rfl
@[simp] theorem State.mapLanes_jm (s : State) (f : LanesSt → LanesSt) : (s.mapLanes f).jm = s.jm := rfl
@[simp] theorem State.mapLanes_fab (s : State) (f : LanesSt → LanesSt) : (s.mapLanes f).fab = s.fab := rfl

/-! ### mapDisp -/

@[simp] theorem State.mapDisp_pending (s : State) (f : DispSt → DispSt) : (s.mapDisp f).pending = s.pending := rfl
@[simp] theorem State.mapDisp_fresh (s : State) (f : DispSt → DispSt) : (s.mapDisp f).fresh = s.fresh := rfl
@[simp] theorem State.mapDisp_out (s : State) (f : DispSt → DispSt) : (s.mapDisp f).out = s.out := rfl
@[simp] theorem State.mapDisp_issued (s : State) (f : DispSt → DispSt) : (s.mapDisp f).issued = s.issued := rfl
@[simp] theorem State.mapDisp_dev (s : State) (f : DispSt → DispSt) : (s.mapDisp f).dev = s.dev := rfl
@[simp] theorem State.mapDisp_host (s : State) (f : DispSt → DispSt) : (s.mapDisp f).host = s.host := rfl
@[simp] theorem State.mapDisp_mem (s : State) (f : DispSt → DispSt) : (s.mapDisp f).mem = s.mem := rfl
@[simp] theorem State.mapDisp_mgmt (s : State) (f : DispSt → DispSt) : (s.mapDisp f).mgmt = s.mgmt := rfl
@[simp] theorem State.mapDisp_power (s : State) (f : DispSt → DispSt) : (s.mapDisp f).power = s.power := rfl
@[simp] theorem State.mapDisp_time (s : State) (f : DispSt → DispSt) : (s.mapDisp f).time = s.time := rfl
@[simp] theorem State.mapDisp_lanes (s : State) (f : DispSt → DispSt) : (s.mapDisp f).lanes = s.lanes := rfl
@[simp] theorem State.mapDisp_cams (s : State) (f : DispSt → DispSt) : (s.mapDisp f).cams = s.cams := rfl
@[simp] theorem State.mapDisp_encs (s : State) (f : DispSt → DispSt) : (s.mapDisp f).encs = s.encs := rfl
@[simp] theorem State.mapDisp_dec (s : State) (f : DispSt → DispSt) : (s.mapDisp f).dec = s.dec := rfl
@[simp] theorem State.mapDisp_cmp (s : State) (f : DispSt → DispSt) : (s.mapDisp f).cmp = s.cmp := rfl
@[simp] theorem State.mapDisp_recs (s : State) (f : DispSt → DispSt) : (s.mapDisp f).recs = s.recs := rfl
@[simp] theorem State.mapDisp_aud (s : State) (f : DispSt → DispSt) : (s.mapDisp f).aud = s.aud := rfl
@[simp] theorem State.mapDisp_disp (s : State) (f : DispSt → DispSt) : (s.mapDisp f).disp = f s.disp := rfl
@[simp] theorem State.mapDisp_jm (s : State) (f : DispSt → DispSt) : (s.mapDisp f).jm = s.jm := rfl
@[simp] theorem State.mapDisp_fab (s : State) (f : DispSt → DispSt) : (s.mapDisp f).fab = s.fab := rfl

/-! ### mapAud -/

@[simp] theorem State.mapAud_pending (s : State) (f : AudSt → AudSt) : (s.mapAud f).pending = s.pending := rfl
@[simp] theorem State.mapAud_fresh (s : State) (f : AudSt → AudSt) : (s.mapAud f).fresh = s.fresh := rfl
@[simp] theorem State.mapAud_out (s : State) (f : AudSt → AudSt) : (s.mapAud f).out = s.out := rfl
@[simp] theorem State.mapAud_issued (s : State) (f : AudSt → AudSt) : (s.mapAud f).issued = s.issued := rfl
@[simp] theorem State.mapAud_dev (s : State) (f : AudSt → AudSt) : (s.mapAud f).dev = s.dev := rfl
@[simp] theorem State.mapAud_host (s : State) (f : AudSt → AudSt) : (s.mapAud f).host = s.host := rfl
@[simp] theorem State.mapAud_mem (s : State) (f : AudSt → AudSt) : (s.mapAud f).mem = s.mem := rfl
@[simp] theorem State.mapAud_mgmt (s : State) (f : AudSt → AudSt) : (s.mapAud f).mgmt = s.mgmt := rfl
@[simp] theorem State.mapAud_power (s : State) (f : AudSt → AudSt) : (s.mapAud f).power = s.power := rfl
@[simp] theorem State.mapAud_time (s : State) (f : AudSt → AudSt) : (s.mapAud f).time = s.time := rfl
@[simp] theorem State.mapAud_lanes (s : State) (f : AudSt → AudSt) : (s.mapAud f).lanes = s.lanes := rfl
@[simp] theorem State.mapAud_cams (s : State) (f : AudSt → AudSt) : (s.mapAud f).cams = s.cams := rfl
@[simp] theorem State.mapAud_encs (s : State) (f : AudSt → AudSt) : (s.mapAud f).encs = s.encs := rfl
@[simp] theorem State.mapAud_dec (s : State) (f : AudSt → AudSt) : (s.mapAud f).dec = s.dec := rfl
@[simp] theorem State.mapAud_cmp (s : State) (f : AudSt → AudSt) : (s.mapAud f).cmp = s.cmp := rfl
@[simp] theorem State.mapAud_recs (s : State) (f : AudSt → AudSt) : (s.mapAud f).recs = s.recs := rfl
@[simp] theorem State.mapAud_aud (s : State) (f : AudSt → AudSt) : (s.mapAud f).aud = f s.aud := rfl
@[simp] theorem State.mapAud_disp (s : State) (f : AudSt → AudSt) : (s.mapAud f).disp = s.disp := rfl
@[simp] theorem State.mapAud_jm (s : State) (f : AudSt → AudSt) : (s.mapAud f).jm = s.jm := rfl
@[simp] theorem State.mapAud_fab (s : State) (f : AudSt → AudSt) : (s.mapAud f).fab = s.fab := rfl

/-! ### mapJm -/

@[simp] theorem State.mapJm_pending (s : State) (f : JmSt → JmSt) : (s.mapJm f).pending = s.pending := rfl
@[simp] theorem State.mapJm_fresh (s : State) (f : JmSt → JmSt) : (s.mapJm f).fresh = s.fresh := rfl
@[simp] theorem State.mapJm_out (s : State) (f : JmSt → JmSt) : (s.mapJm f).out = s.out := rfl
@[simp] theorem State.mapJm_issued (s : State) (f : JmSt → JmSt) : (s.mapJm f).issued = s.issued := rfl
@[simp] theorem State.mapJm_dev (s : State) (f : JmSt → JmSt) : (s.mapJm f).dev = s.dev := rfl
@[simp] theorem State.mapJm_host (s : State) (f : JmSt → JmSt) : (s.mapJm f).host = s.host := rfl
@[simp] theorem State.mapJm_mem (s : State) (f : JmSt → JmSt) : (s.mapJm f).mem = s.mem := rfl
@[simp] theorem State.mapJm_mgmt (s : State) (f : JmSt → JmSt) : (s.mapJm f).mgmt = s.mgmt := rfl
@[simp] theorem State.mapJm_power (s : State) (f : JmSt → JmSt) : (s.mapJm f).power = s.power := rfl
@[simp] theorem State.mapJm_time (s : State) (f : JmSt → JmSt) : (s.mapJm f).time = s.time := rfl
@[simp] theorem State.mapJm_lanes (s : State) (f : JmSt → JmSt) : (s.mapJm f).lanes = s.lanes := rfl
@[simp] theorem State.mapJm_cams (s : State) (f : JmSt → JmSt) : (s.mapJm f).cams = s.cams := rfl
@[simp] theorem State.mapJm_encs (s : State) (f : JmSt → JmSt) : (s.mapJm f).encs = s.encs := rfl
@[simp] theorem State.mapJm_dec (s : State) (f : JmSt → JmSt) : (s.mapJm f).dec = s.dec := rfl
@[simp] theorem State.mapJm_cmp (s : State) (f : JmSt → JmSt) : (s.mapJm f).cmp = s.cmp := rfl
@[simp] theorem State.mapJm_recs (s : State) (f : JmSt → JmSt) : (s.mapJm f).recs = s.recs := rfl
@[simp] theorem State.mapJm_aud (s : State) (f : JmSt → JmSt) : (s.mapJm f).aud = s.aud := rfl
@[simp] theorem State.mapJm_disp (s : State) (f : JmSt → JmSt) : (s.mapJm f).disp = s.disp := rfl
@[simp] theorem State.mapJm_jm (s : State) (f : JmSt → JmSt) : (s.mapJm f).jm = f s.jm := rfl
@[simp] theorem State.mapJm_fab (s : State) (f : JmSt → JmSt) : (s.mapJm f).fab = s.fab := rfl

/-! ### mapFab -/

@[simp] theorem State.mapFab_pending (s : State) (f : FabSt → FabSt) : (s.mapFab f).pending = s.pending := rfl
@[simp] theorem State.mapFab_fresh (s : State) (f : FabSt → FabSt) : (s.mapFab f).fresh = s.fresh := rfl
@[simp] theorem State.mapFab_out (s : State) (f : FabSt → FabSt) : (s.mapFab f).out = s.out := rfl
@[simp] theorem State.mapFab_issued (s : State) (f : FabSt → FabSt) : (s.mapFab f).issued = s.issued := rfl
@[simp] theorem State.mapFab_dev (s : State) (f : FabSt → FabSt) : (s.mapFab f).dev = s.dev := rfl
@[simp] theorem State.mapFab_host (s : State) (f : FabSt → FabSt) : (s.mapFab f).host = s.host := rfl
@[simp] theorem State.mapFab_mem (s : State) (f : FabSt → FabSt) : (s.mapFab f).mem = s.mem := rfl
@[simp] theorem State.mapFab_mgmt (s : State) (f : FabSt → FabSt) : (s.mapFab f).mgmt = s.mgmt := rfl
@[simp] theorem State.mapFab_power (s : State) (f : FabSt → FabSt) : (s.mapFab f).power = s.power := rfl
@[simp] theorem State.mapFab_time (s : State) (f : FabSt → FabSt) : (s.mapFab f).time = s.time := rfl
@[simp] theorem State.mapFab_lanes (s : State) (f : FabSt → FabSt) : (s.mapFab f).lanes = s.lanes := rfl
@[simp] theorem State.mapFab_cams (s : State) (f : FabSt → FabSt) : (s.mapFab f).cams = s.cams := rfl
@[simp] theorem State.mapFab_encs (s : State) (f : FabSt → FabSt) : (s.mapFab f).encs = s.encs := rfl
@[simp] theorem State.mapFab_dec (s : State) (f : FabSt → FabSt) : (s.mapFab f).dec = s.dec := rfl
@[simp] theorem State.mapFab_cmp (s : State) (f : FabSt → FabSt) : (s.mapFab f).cmp = s.cmp := rfl
@[simp] theorem State.mapFab_recs (s : State) (f : FabSt → FabSt) : (s.mapFab f).recs = s.recs := rfl
@[simp] theorem State.mapFab_aud (s : State) (f : FabSt → FabSt) : (s.mapFab f).aud = s.aud := rfl
@[simp] theorem State.mapFab_disp (s : State) (f : FabSt → FabSt) : (s.mapFab f).disp = s.disp := rfl
@[simp] theorem State.mapFab_jm (s : State) (f : FabSt → FabSt) : (s.mapFab f).jm = s.jm := rfl
@[simp] theorem State.mapFab_fab (s : State) (f : FabSt → FabSt) : (s.mapFab f).fab = f s.fab := rfl

/-! ### mapQueue -/

@[simp] theorem State.mapQueue_pending (s : State) (q : Fin 64) (f : Queue → Queue) : (s.mapQueue q f).pending = s.pending := rfl
@[simp] theorem State.mapQueue_fresh (s : State) (q : Fin 64) (f : Queue → Queue) : (s.mapQueue q f).fresh = s.fresh := rfl
@[simp] theorem State.mapQueue_out (s : State) (q : Fin 64) (f : Queue → Queue) : (s.mapQueue q f).out = s.out := rfl
@[simp] theorem State.mapQueue_issued (s : State) (q : Fin 64) (f : Queue → Queue) : (s.mapQueue q f).issued = s.issued := rfl
@[simp] theorem State.mapQueue_dev (s : State) (q : Fin 64) (f : Queue → Queue) : (s.mapQueue q f).dev = s.dev := rfl
@[simp] theorem State.mapQueue_host (s : State) (q : Fin 64) (f : Queue → Queue) : (s.mapQueue q f).host = { s.host with queues := s.host.queues.set q (f s.host.queues[q]) } := rfl
@[simp] theorem State.mapQueue_mem (s : State) (q : Fin 64) (f : Queue → Queue) : (s.mapQueue q f).mem = s.mem := rfl
@[simp] theorem State.mapQueue_mgmt (s : State) (q : Fin 64) (f : Queue → Queue) : (s.mapQueue q f).mgmt = s.mgmt := rfl
@[simp] theorem State.mapQueue_power (s : State) (q : Fin 64) (f : Queue → Queue) : (s.mapQueue q f).power = s.power := rfl
@[simp] theorem State.mapQueue_time (s : State) (q : Fin 64) (f : Queue → Queue) : (s.mapQueue q f).time = s.time := rfl
@[simp] theorem State.mapQueue_lanes (s : State) (q : Fin 64) (f : Queue → Queue) : (s.mapQueue q f).lanes = s.lanes := rfl
@[simp] theorem State.mapQueue_cams (s : State) (q : Fin 64) (f : Queue → Queue) : (s.mapQueue q f).cams = s.cams := rfl
@[simp] theorem State.mapQueue_encs (s : State) (q : Fin 64) (f : Queue → Queue) : (s.mapQueue q f).encs = s.encs := rfl
@[simp] theorem State.mapQueue_dec (s : State) (q : Fin 64) (f : Queue → Queue) : (s.mapQueue q f).dec = s.dec := rfl
@[simp] theorem State.mapQueue_cmp (s : State) (q : Fin 64) (f : Queue → Queue) : (s.mapQueue q f).cmp = s.cmp := rfl
@[simp] theorem State.mapQueue_recs (s : State) (q : Fin 64) (f : Queue → Queue) : (s.mapQueue q f).recs = s.recs := rfl
@[simp] theorem State.mapQueue_aud (s : State) (q : Fin 64) (f : Queue → Queue) : (s.mapQueue q f).aud = s.aud := rfl
@[simp] theorem State.mapQueue_disp (s : State) (q : Fin 64) (f : Queue → Queue) : (s.mapQueue q f).disp = s.disp := rfl
@[simp] theorem State.mapQueue_jm (s : State) (q : Fin 64) (f : Queue → Queue) : (s.mapQueue q f).jm = s.jm := rfl
@[simp] theorem State.mapQueue_fab (s : State) (q : Fin 64) (f : Queue → Queue) : (s.mapQueue q f).fab = s.fab := rfl

/-! ### writeMem -/

@[simp] theorem State.writeMem_pending (s : State) (a : Nat) (bs : List Byte) : (s.writeMem a bs).pending = s.pending := rfl
@[simp] theorem State.writeMem_fresh (s : State) (a : Nat) (bs : List Byte) : (s.writeMem a bs).fresh = s.fresh := rfl
@[simp] theorem State.writeMem_out (s : State) (a : Nat) (bs : List Byte) : (s.writeMem a bs).out = s.out := rfl
@[simp] theorem State.writeMem_issued (s : State) (a : Nat) (bs : List Byte) : (s.writeMem a bs).issued = s.issued := rfl
@[simp] theorem State.writeMem_dev (s : State) (a : Nat) (bs : List Byte) : (s.writeMem a bs).dev = s.dev := rfl
@[simp] theorem State.writeMem_host (s : State) (a : Nat) (bs : List Byte) : (s.writeMem a bs).host = s.host := rfl
@[simp] theorem State.writeMem_mem (s : State) (a : Nat) (bs : List Byte) : (s.writeMem a bs).mem = { s.mem with mem := s.mem.mem.write a bs } := rfl
@[simp] theorem State.writeMem_mgmt (s : State) (a : Nat) (bs : List Byte) : (s.writeMem a bs).mgmt = s.mgmt := rfl
@[simp] theorem State.writeMem_power (s : State) (a : Nat) (bs : List Byte) : (s.writeMem a bs).power = s.power := rfl
@[simp] theorem State.writeMem_time (s : State) (a : Nat) (bs : List Byte) : (s.writeMem a bs).time = s.time := rfl
@[simp] theorem State.writeMem_lanes (s : State) (a : Nat) (bs : List Byte) : (s.writeMem a bs).lanes = s.lanes := rfl
@[simp] theorem State.writeMem_cams (s : State) (a : Nat) (bs : List Byte) : (s.writeMem a bs).cams = s.cams := rfl
@[simp] theorem State.writeMem_encs (s : State) (a : Nat) (bs : List Byte) : (s.writeMem a bs).encs = s.encs := rfl
@[simp] theorem State.writeMem_dec (s : State) (a : Nat) (bs : List Byte) : (s.writeMem a bs).dec = s.dec := rfl
@[simp] theorem State.writeMem_cmp (s : State) (a : Nat) (bs : List Byte) : (s.writeMem a bs).cmp = s.cmp := rfl
@[simp] theorem State.writeMem_recs (s : State) (a : Nat) (bs : List Byte) : (s.writeMem a bs).recs = s.recs := rfl
@[simp] theorem State.writeMem_aud (s : State) (a : Nat) (bs : List Byte) : (s.writeMem a bs).aud = s.aud := rfl
@[simp] theorem State.writeMem_disp (s : State) (a : Nat) (bs : List Byte) : (s.writeMem a bs).disp = s.disp := rfl
@[simp] theorem State.writeMem_jm (s : State) (a : Nat) (bs : List Byte) : (s.writeMem a bs).jm = s.jm := rfl
@[simp] theorem State.writeMem_fab (s : State) (a : Nat) (bs : List Byte) : (s.writeMem a bs).fab = s.fab := rfl

end Sys2Proof.Machine
end

