-- ==== Sys2Proof/Laws/Frame.lean ====
section
/-!
SUPPORT. Frames: which parts of the state change. Each lemma carries a frame from a state to an update of it.
-/
namespace Sys2Proof

open Machine

theorem Only.refl (ps : List Part) (s : State) : Only ps s s := by
  refine ⟨fun p _ => ?_⟩; cases p <;> rfl

theorem Only.trans {ps : List Part} {s t u : State} (h : Only ps s t) (k : Only ps t u) : Only ps s u := by
  refine ⟨fun p hp => ?_⟩
  have a := h.same p hp
  have b := k.same p hp
  cases p <;> simp only [Part.same] at a b ⊢
  case memory =>
    rw [← a]
    have := congrArg (fun m : MemSt => { m with mem := s.mem.mem }) b
    simpa using this
  all_goals rw [b, a]

theorem Only.mono {ps qs : List Part} {s t : State} (h : Only ps s t) (hs : ps ⊆ qs) : Only qs s t :=
  ⟨fun p hp => h.same p (fun q => hp (hs q))⟩

theorem Only.pending {ps : List Part} {s t : State} (h : Only ps s t) (hp : Part.pending ∈ ps) (x : List Instr) : Only ps s { t with pending := x } := by
  refine ⟨fun p hp' => ?_⟩; have := h.same p hp'; cases p <;> first | exact this | exact absurd hp hp'

theorem Only.fresh {ps : List Part} {s t : State} (h : Only ps s t) (hp : Part.fresh ∈ ps) (x : Nat) : Only ps s { t with fresh := x } := by
  refine ⟨fun p hp' => ?_⟩; have := h.same p hp'; cases p <;> first | exact this | exact absurd hp hp'

theorem Only.out {ps : List Part} {s t : State} (h : Only ps s t) (hp : Part.out ∈ ps) (x : List Out) : Only ps s { t with out := x } := by
  refine ⟨fun p hp' => ?_⟩; have := h.same p hp'; cases p <;> first | exact this | exact absurd hp hp'

theorem Only.issued {ps : List Part} {s t : State} (h : Only ps s t) (hp : Part.issued ∈ ps) (x : Vector HandleNo 16) : Only ps s { t with issued := x } := by
  refine ⟨fun p hp' => ?_⟩; have := h.same p hp'; cases p <;> first | exact this | exact absurd hp hp'

theorem Only.dev {ps : List Part} {s t : State} (h : Only ps s t) (hp : Part.dev ∈ ps) (x : Device) : Only ps s { t with dev := x } := by
  refine ⟨fun p hp' => ?_⟩; have := h.same p hp'; cases p <;> first | exact this | exact absurd hp hp'

theorem Only.host {ps : List Part} {s t : State} (h : Only ps s t) (hp : Part.host ∈ ps) (x : HostSt) : Only ps s { t with host := x } := by
  refine ⟨fun p hp' => ?_⟩; have := h.same p hp'; cases p <;> first | exact this | exact absurd hp hp'

theorem Only.mgmt {ps : List Part} {s t : State} (h : Only ps s t) (hp : Part.mgmt ∈ ps) (x : MgmtSt) : Only ps s { t with mgmt := x } := by
  refine ⟨fun p hp' => ?_⟩; have := h.same p hp'; cases p <;> first | exact this | exact absurd hp hp'

theorem Only.power {ps : List Part} {s t : State} (h : Only ps s t) (hp : Part.power ∈ ps) (x : PowerSt) : Only ps s { t with power := x } := by
  refine ⟨fun p hp' => ?_⟩; have := h.same p hp'; cases p <;> first | exact this | exact absurd hp hp'

theorem Only.time {ps : List Part} {s t : State} (h : Only ps s t) (hp : Part.time ∈ ps) (x : TimeSt) : Only ps s { t with time := x } := by
  refine ⟨fun p hp' => ?_⟩; have := h.same p hp'; cases p <;> first | exact this | exact absurd hp hp'

theorem Only.lanes {ps : List Part} {s t : State} (h : Only ps s t) (hp : Part.lanes ∈ ps) (x : LanesSt) : Only ps s { t with lanes := x } := by
  refine ⟨fun p hp' => ?_⟩; have := h.same p hp'; cases p <;> first | exact this | exact absurd hp hp'

theorem Only.cams {ps : List Part} {s t : State} (h : Only ps s t) (hp : Part.cams ∈ ps) (x : CamsSt) : Only ps s { t with cams := x } := by
  refine ⟨fun p hp' => ?_⟩; have := h.same p hp'; cases p <;> first | exact this | exact absurd hp hp'

theorem Only.encs {ps : List Part} {s t : State} (h : Only ps s t) (hp : Part.encs ∈ ps) (x : List EncSession) : Only ps s { t with encs := x } := by
  refine ⟨fun p hp' => ?_⟩; have := h.same p hp'; cases p <;> first | exact this | exact absurd hp hp'

theorem Only.dec {ps : List Part} {s t : State} (h : Only ps s t) (hp : Part.dec ∈ ps) (x : DecSt) : Only ps s { t with dec := x } := by
  refine ⟨fun p hp' => ?_⟩; have := h.same p hp'; cases p <;> first | exact this | exact absurd hp hp'

theorem Only.cmp {ps : List Part} {s t : State} (h : Only ps s t) (hp : Part.cmp ∈ ps) (x : CmpSt) : Only ps s { t with cmp := x } := by
  refine ⟨fun p hp' => ?_⟩; have := h.same p hp'; cases p <;> first | exact this | exact absurd hp hp'

theorem Only.recs {ps : List Part} {s t : State} (h : Only ps s t) (hp : Part.recs ∈ ps) (x : List RecSession) : Only ps s { t with recs := x } := by
  refine ⟨fun p hp' => ?_⟩; have := h.same p hp'; cases p <;> first | exact this | exact absurd hp hp'

theorem Only.aud {ps : List Part} {s t : State} (h : Only ps s t) (hp : Part.aud ∈ ps) (x : AudSt) : Only ps s { t with aud := x } := by
  refine ⟨fun p hp' => ?_⟩; have := h.same p hp'; cases p <;> first | exact this | exact absurd hp hp'

theorem Only.disp {ps : List Part} {s t : State} (h : Only ps s t) (hp : Part.disp ∈ ps) (x : DispSt) : Only ps s { t with disp := x } := by
  refine ⟨fun p hp' => ?_⟩; have := h.same p hp'; cases p <;> first | exact this | exact absurd hp hp'

theorem Only.jm {ps : List Part} {s t : State} (h : Only ps s t) (hp : Part.jm ∈ ps) (x : JmSt) : Only ps s { t with jm := x } := by
  refine ⟨fun p hp' => ?_⟩; have := h.same p hp'; cases p <;> first | exact this | exact absurd hp hp'

theorem Only.fabric {ps : List Part} {s t : State} (h : Only ps s t) (hp : Part.fabric ∈ ps) (x : FabSt) : Only ps s { t with fab := x } := by
  refine ⟨fun p hp' => ?_⟩; have := h.same p hp'; cases p <;> first | exact this | exact absurd hp hp'

/-- An update of the memory system that keeps the bytes. -/
theorem Only.memory {ps : List Part} {s t : State} (h : Only ps s t) (hp : Part.memory ∈ ps) (f : MemSt → MemSt)
    (hf : (f t.mem).mem = t.mem.mem) : Only ps s (t.mapMem f) := by
  refine ⟨fun p hp' => ?_⟩; have := h.same p hp'
  cases p <;> first | exact this | exact absurd hp hp' | simpa [Part.same, hf] using this

/-- An update of the bytes alone. -/
theorem Only.bytes {ps : List Part} {s t : State} (h : Only ps s t) (hp : Part.bytes ∈ ps) (m : Memory) :
    Only ps s { t with mem := { t.mem with mem := m } } := by
  refine ⟨fun p hp' => ?_⟩; have := h.same p hp'
  cases p <;> first | exact this | exact absurd hp hp'

theorem Only.writeMem {ps : List Part} {s t : State} (h : Only ps s t) (hp : Part.bytes ∈ ps) (a : Nat) (bs : List Byte) :
    Only ps s (t.writeMem a bs) := h.bytes hp _

/-- A fold of updates that each keep a frame keeps it. -/
theorem Only.foldl {α : Type} {ps : List Part} {s : State} (f : State → α → State)
    (hf : ∀ t a, Only ps s t → Only ps s (f t a)) : ∀ (l : List α) (t : State), Only ps s t → Only ps s (l.foldl f t)
  | [], _, h => h
  | a :: l, t, h => Only.foldl f hf l (f t a) (hf t a h)

theorem Only.ite {ps : List Part} {s a b : State} {c : Prop} [Decidable c] (ha : Only ps s a) (hb : Only ps s b) :
    Only ps s (if c then a else b) := by split <;> assumption

end Sys2Proof
end

