-- ==== Sys2Proof/Laws/Memory.lean ====
section
/-!
SUPPORT. The memory: every operation keeps its canonical form, a read after a write gives what was written, and a write leaves every other byte
alone.
-/
namespace Sys2Proof.Machine

theorem risingCells_cons (c : Host.Cell) (rest : List Host.Cell) :
    risingCells (c :: rest) = true ↔ c.2 ≠ 0 ∧ (∀ d ∈ rest, c.1 < d.1) ∧ risingCells rest = true := by
  induction rest generalizing c with
  | nil => simp [risingCells]
  | cons d rest ih =>
    simp only [risingCells, Bool.and_eq_true, bne_iff_ne, ne_eq, decide_eq_true_eq, List.mem_cons, forall_eq_or_imp]
    constructor
    · rintro ⟨⟨h1, h2⟩, h3⟩
      exact ⟨h1, ⟨h2, fun x hx => Nat.lt_trans h2 (((ih d).1 h3).2.1 x hx)⟩, h3⟩
    · rintro ⟨h1, ⟨h2, _⟩, h3⟩
      exact ⟨⟨h1, h2⟩, h3⟩

theorem risingNats_cons (a : Nat) (rest : List Nat) :
    risingNats (a :: rest) = true ↔ (∀ d ∈ rest, a < d) ∧ risingNats rest = true := by
  induction rest generalizing a with
  | nil => simp [risingNats]
  | cons d rest ih =>
    simp only [risingNats, Bool.and_eq_true, decide_eq_true_eq, List.mem_cons, forall_eq_or_imp]
    constructor
    · rintro ⟨h2, h3⟩
      exact ⟨⟨h2, fun x hx => Nat.lt_trans h2 (((ih d).1 h3).1 x hx)⟩, h3⟩
    · rintro ⟨⟨h2, _⟩, h3⟩
      exact ⟨h2, h3⟩

theorem mem_setCell (cs : List Host.Cell) (a : Nat) (b : Byte) (d : Host.Cell) (h : d ∈ setCell cs a b) :
    (d = (a, b) ∧ b ≠ 0) ∨ d ∈ cs := by
  induction cs with
  | nil => simp only [setCell] at h; split at h <;> simp_all
  | cons c rest ih =>
    obtain ⟨x, y⟩ := c
    simp only [setCell] at h
    split at h
    · rcases List.mem_cons.1 h with h | h
      · exact .inr (h ▸ List.mem_cons_self)
      · exact (ih h).imp_right (List.mem_cons_of_mem _)
    · split at h
      · split at h
        · exact .inr (List.mem_cons_of_mem _ h)
        · rcases List.mem_cons.1 h with h | h
          · exact .inl ⟨h, by assumption⟩
          · exact .inr (List.mem_cons_of_mem _ h)
      · split at h
        · exact .inr h
        · rcases List.mem_cons.1 h with h | h
          · exact .inl ⟨h, by assumption⟩
          · exact .inr h

theorem setCell_rising (cs : List Host.Cell) (a : Nat) (b : Byte) (h : risingCells cs = true) : risingCells (setCell cs a b) = true := by
  induction cs with
  | nil => simp only [setCell]; split <;> simp_all [risingCells]
  | cons c rest ih =>
    obtain ⟨x, y⟩ := c
    obtain ⟨h1, h2, h3⟩ := (risingCells_cons _ _).1 h
    simp only [setCell]
    split
    · rename_i hx
      refine (risingCells_cons _ _).2 ⟨h1, fun d hd => ?_, ih h3⟩
      rcases mem_setCell rest a b d hd with ⟨rfl, _⟩ | hd
      · exact hx
      · exact h2 d hd
    · split
      · rename_i hx
        split
        · exact h3
        · exact (risingCells_cons _ _).2 ⟨by assumption, fun d hd => hx ▸ h2 d hd, h3⟩
      · split
        · exact h
        · refine (risingCells_cons _ _).2 ⟨by assumption, fun d hd => ?_, h⟩
          rcases List.mem_cons.1 hd with rfl | hd
          · show a < x; omega
          · exact Nat.lt_trans (show a < x by omega) (h2 d hd)

theorem getCell_absent (cs : List Host.Cell) (a : Nat) (h : ∀ d ∈ cs, d.1 ≠ a) : getCell cs a = 0 := by
  induction cs with
  | nil => rfl
  | cons c rest ih =>
    obtain ⟨x, y⟩ := c
    have : x ≠ a := h _ List.mem_cons_self
    simp [getCell, this, ih (fun d hd => h d (List.mem_cons_of_mem _ hd))]

theorem getCell_setCell (cs : List Host.Cell) (a : Nat) (b : Byte) (x : Nat) (h : risingCells cs = true) :
    getCell (setCell cs a b) x = if x = a then b else getCell cs x := by
  induction cs with
  | nil =>
    simp only [setCell, getCell]
    split
    · rename_i hb; simp [getCell, hb]
    · simp only [getCell, eq_comm]
  | cons c rest ih =>
    obtain ⟨u, v⟩ := c
    obtain ⟨h1, h2, h3⟩ := (risingCells_cons _ _).1 h
    simp only [setCell]
    split
    · rename_i hu
      simp only [getCell, ih h3]
      by_cases hx : x = a
      · have : u ≠ a := by omega
        simp [hx, this]
      · simp [hx]
    · split
      · rename_i hu
        subst hu
        split
        · rename_i hb
          by_cases hx : x = u
          · rw [getCell_absent rest x (fun d hd => by have := h2 d hd; simp only at this; omega)]; simp [hx, hb]
          · have : u ≠ x := fun e => hx e.symm
            simp [getCell, hx, this]
        · by_cases hx : x = u
          · simp [getCell, hx]
          · have : u ≠ x := fun e => hx e.symm
            simp [getCell, hx, this]
      · split
        · rename_i hb
          by_cases hx : x = a
          · rw [getCell_absent ((u, v) :: rest) x]
            · simp [hx, hb]
            · intro d hd
              rcases List.mem_cons.1 hd with rfl | hd
              · show u ≠ x; omega
              · have := h2 d hd; simp only at this; omega
          · simp [hx]
        · by_cases hx : x = a
          · simp [getCell, hx]
          · have : a ≠ x := fun e => hx e.symm
            simp [getCell, hx, this]

theorem setCells_rising (bs : List Byte) (cs : List Host.Cell) (a : Nat) (h : risingCells cs = true) : risingCells (setCells cs a bs) = true := by
  induction bs generalizing cs a with
  | nil => exact h
  | cons b bs ih => exact ih _ _ (setCell_rising cs a b h)

theorem getCell_setCells (bs : List Byte) (cs : List Host.Cell) (a x : Nat) (h : risingCells cs = true) :
    getCell (setCells cs a bs) x = if a ≤ x ∧ x < a + bs.length then bs.getD (x - a) 0 else getCell cs x := by
  induction bs generalizing cs a with
  | nil =>
    have : ¬ (a ≤ x ∧ x < a + ([] : List Byte).length) := by simp
    simp only [setCells, this, ↓reduceIte]
  | cons b bs ih =>
    simp only [setCells, ih _ _ (setCell_rising cs a b h), getCell_setCell cs a b x h, List.length_cons]
    by_cases hx : x = a
    · subst hx; simp
    · by_cases hr : a + 1 ≤ x ∧ x < a + 1 + bs.length
      · have : a ≤ x ∧ x < a + (bs.length + 1) := by omega
        obtain ⟨k, hk⟩ : ∃ k, x - a = k + 1 := ⟨x - a - 1, by omega⟩
        have : x - (a + 1) = k := by omega
        simp [*]
      · have : ¬ (a ≤ x ∧ x < a + (bs.length + 1)) := by omega
        simp only [hr, this, hx, ↓reduceIte]

theorem filter_rising (cs : List Host.Cell) (f : Host.Cell → Bool) (h : risingCells cs = true) : risingCells (cs.filter f) = true := by
  induction cs with
  | nil => rfl
  | cons c rest ih =>
    obtain ⟨h1, h2, h3⟩ := (risingCells_cons _ _).1 h
    simp only [List.filter_cons]
    split
    · exact (risingCells_cons _ _).2 ⟨h1, fun d hd => h2 d (List.mem_filter.1 hd).1, ih h3⟩
    · exact ih h3

theorem filter_risingNats (ls : List Nat) (f : Nat → Bool) (h : risingNats ls = true) : risingNats (ls.filter f) = true := by
  induction ls with
  | nil => rfl
  | cons c rest ih =>
    obtain ⟨h2, h3⟩ := (risingNats_cons _ _).1 h
    simp only [List.filter_cons]
    split
    · exact (risingNats_cons _ _).2 ⟨fun d hd => h2 d (List.mem_filter.1 hd).1, ih h3⟩
    · exact ih h3

theorem mem_addMark (ls : List Nat) (l d : Nat) (h : d ∈ addMark ls l) : d = l ∨ d ∈ ls := by
  induction ls with
  | nil => simpa [addMark] using h
  | cons x rest ih =>
    simp only [addMark] at h
    split at h
    · rcases List.mem_cons.1 h with h | h
      · exact .inr (h ▸ List.mem_cons_self)
      · exact (ih h).imp_right (List.mem_cons_of_mem _)
    · split at h
      · exact .inr h
      · exact List.mem_cons.1 h

theorem addMark_rising (ls : List Nat) (l : Nat) (h : risingNats ls = true) : risingNats (addMark ls l) = true := by
  induction ls with
  | nil => rfl
  | cons x rest ih =>
    obtain ⟨h2, h3⟩ := (risingNats_cons _ _).1 h
    simp only [addMark]
    split
    · rename_i hx
      refine (risingNats_cons _ _).2 ⟨fun d hd => ?_, ih h3⟩
      rcases mem_addMark rest l d hd with rfl | hd
      · exact hx
      · exact h2 d hd
    · split
      · exact h
      · refine (risingNats_cons _ _).2 ⟨fun d hd => ?_, h⟩
        rcases List.mem_cons.1 hd with rfl | hd
        · omega
        · have := h2 d hd; omega

/-! ### Every operation keeps the canonical form -/

theorem Memory.wf_iff (m : Memory) : m.wf = true ↔ risingCells m.cells = true ∧ risingNats m.marks = true := by simp [Memory.wf]

theorem Memory.write_wf {m : Memory} (h : m.wf = true) (a : Nat) (bs : List Byte) : (m.write a bs).wf = true := by
  rw [Memory.wf_iff] at *
  exact ⟨setCells_rising bs _ a h.1, filter_risingNats _ _ h.2⟩

theorem Memory.zero_wf {m : Memory} (h : m.wf = true) (a n : Nat) : (m.zero a n).wf = true := by
  rw [Memory.wf_iff] at *
  exact ⟨filter_rising _ _ h.1, filter_risingNats _ _ h.2⟩

theorem Memory.mark_wf {m : Memory} (h : m.wf = true) (l : Nat) : (m.mark l).wf = true := by
  rw [Memory.wf_iff] at *
  exact ⟨h.1, addMark_rising _ l h.2⟩

theorem Memory.markAll_wf {m : Memory} (h : m.wf = true) (ls : List Nat) : (m.markAll ls).wf = true := by
  induction ls generalizing m with
  | nil => exact h
  | cons l rest ih => exact ih (Memory.mark_wf h l)

theorem Memory.unmark_wf {m : Memory} (h : m.wf = true) (l : Nat) : (m.unmark l).wf = true := by
  rw [Memory.wf_iff] at *
  exact ⟨h.1, filter_risingNats _ _ h.2⟩

theorem Memory.unmarkAll_wf {m : Memory} (h : m.wf = true) (ls : List Nat) : (ls.foldl Memory.unmark m).wf = true := by
  induction ls generalizing m with
  | nil => exact h
  | cons l rest ih => exact ih (Memory.unmark_wf h l)

theorem Memory.copy_wf {m : Memory} (h : m.wf = true) (sa da n : Nat) : (m.copy sa da n).wf = true :=
  Memory.markAll_wf (Memory.write_wf h _ _) _

theorem State.writeMem_wf {s : State} (h : s.mem.mem.wf = true) (a : Nat) (bs : List Byte) : (s.writeMem a bs).mem.mem.wf = true :=
  Memory.write_wf h a bs

theorem State.markMem_wf {s : State} (h : s.mem.mem.wf = true) (a n : Nat) : (s.markMem a n).mem.mem.wf = true := by
  unfold State.markMem
  split
  · exact h
  · exact Memory.markAll_wf h _

theorem State.reset_wf : State.reset.mem.mem.wf = true := rfl

/-! ### Reads after writes -/

theorem Memory.byte_write {m : Memory} (h : m.wf = true) (a x : Nat) (bs : List Byte) :
    (m.write a bs).byte x = if a ≤ x ∧ x < a + bs.length then bs.getD (x - a) 0 else m.byte x :=
  getCell_setCells bs m.cells a x ((Memory.wf_iff m).1 h).1

theorem Memory.byte_mark (m : Memory) (l x : Nat) : (m.mark l).byte x = m.byte x := rfl

theorem Memory.byte_unmark (m : Memory) (l x : Nat) : (m.unmark l).byte x = m.byte x := rfl

theorem Memory.byte_markAll (m : Memory) (ls : List Nat) (x : Nat) : (m.markAll ls).byte x = m.byte x := by
  induction ls generalizing m with
  | nil => rfl
  | cons l rest ih => exact (ih (m.mark l)).trans (Memory.byte_mark m l x)

theorem Memory.byte_zero (m : Memory) (a n x : Nat) : (m.zero a n).byte x = if a ≤ x ∧ x < a + n then 0 else m.byte x := by
  unfold Memory.zero Memory.byte clearCells
  generalize m.cells = cs
  induction cs with
  | nil => simp [getCell]
  | cons c rest ih =>
    obtain ⟨u, v⟩ := c
    simp only [List.filter_cons]
    by_cases hu : u = x
    · subst hu
      by_cases hr : a ≤ u ∧ u < a + n
      · have : ¬ (u < a ∨ a + n ≤ u) := by omega
        simp only [Bool.or_eq_true, decide_eq_true_eq, this, ↓reduceIte, ih]
        simp [hr]
      · have : u < a ∨ a + n ≤ u := by omega
        simp [this, getCell, hr]
    · by_cases hr : u < a ∨ a + n ≤ u
      · simp [hr, getCell, hu, ih]
      · simp only [Bool.or_eq_true, decide_eq_true_eq, hr, ↓reduceIte, ih]
        simp [getCell, hu]

theorem Memory.read_eq (m : Memory) (a n : Nat) : m.read a n = (List.range n).map (fun i => m.byte (a + i)) := by
  induction n generalizing a with
  | zero => rfl
  | succ n ih => simp [Memory.read, ih, List.range_succ_eq_map, Nat.add_assoc, Nat.add_comm 1]

theorem Memory.read_length (m : Memory) (a n : Nat) : (m.read a n).length = n := by simp [Memory.read_eq]

theorem Memory.read_write {m : Memory} (h : m.wf = true) (a : Nat) (bs : List Byte) : (m.write a bs).read a bs.length = bs := by
  rw [Memory.read_eq]
  apply List.ext_getElem
  · simp
  · intro i h1 h2
    simp only [List.getElem_map, List.getElem_range, Memory.byte_write h]
    have : a ≤ a + i ∧ a + i < a + bs.length := by omega
    simp [this, h2]

end Sys2Proof.Machine
end

