-- ==== Sys2Proof/Laws/Ops.lean ====
section
/-!
SUPPORT. What the shared operations on logs, events, completions and queues can do.
-/
namespace Sys2Proof.Machine

@[simp] theorem State.queue_mapQueue (s : State) (q : Fin 64) (f : Queue → Queue) : (s.mapQueue q f).queue q = f (s.queue q) := by
  simp [State.queue]

theorem State.queue_mapQueue_ne (s : State) {q r : Fin 64} (h : r ≠ q) (f : Queue → Queue) : (s.mapQueue q f).queue r = s.queue r := by
  have : q.val ≠ r.val := fun e => h (Fin.ext e.symm)
  simp [State.queue, Vector.getElem_set_ne, this]

/-- Any update of the host interface that keeps the queues keeps each queue. -/
theorem State.queue_mapHost (s : State) (q : Fin 64) (f : HostSt → HostSt) (h : (f s.host).queues = s.host.queues) :
    (s.mapHost f).queue q = s.queue q := by simp [State.queue, h]

/-! ### Logs change Chandler's state only -/

theorem State.logError_only {ps : List Part} {s t : State} (h : Only ps s t) (hm : Part.mgmt ∈ ps) (i : LogInfo) :
    Only ps s (t.logError i) := h.mgmt hm _

theorem State.logEvent_only {ps : List Part} {s t : State} (h : Only ps s t) (hm : Part.mgmt ∈ ps) (i : LogInfo) :
    Only ps s (t.logEvent i) := h.mgmt hm _

theorem State.addOrphan_only {ps : List Part} {s t : State} (h : Only ps s t) (hh : Part.host ∈ ps) (hm : Part.mgmt ∈ ps)
    (q : Fin 64) (op cid : Half) (st : Status) (r0 r1 : Word) (lg : Bool) : Only ps s (t.addOrphan q op cid st r0 r1 lg) := by
  unfold State.addOrphan
  exact .ite (h.host hh _) (State.logError_only (h.host hh _) hm _)

/-! ### Completions change the host interface, and the error log when the orphan page is full -/

theorem State.finish_only {ps : List Part} {s t : State} (h : Only ps s t) (hh : Part.host ∈ ps) (hm : Part.mgmt ∈ ps)
    (r : CmdRef) (st : Status) (r0 r1 : Nat) (lg : Bool) : Only ps s (t.finish r st r0 r1 lg) := by
  unfold State.finish
  refine .ite (State.addOrphan_only (h.host hh _) hh hm ..) ?_
  split
  · exact h
  · exact ((h.host hh _).host hh _).host hh _ |>.host hh _

theorem State.finishOpt_only {ps : List Part} {s t : State} (h : Only ps s t) (hh : Part.host ∈ ps) (hm : Part.mgmt ∈ ps)
    (r : Option CmdRef) (st : Status) (r0 r1 : Nat) (lg : Bool) : Only ps s (t.finishOpt r st r0 r1 lg) := by
  cases r with
  | none => exact h
  | some r => exact State.finish_only h hh hm ..

theorem State.keepInFlight_only {ps : List Part} {s t : State} (h : Only ps s t) (hh : Part.host ∈ ps) (r : CmdRef) :
    Only ps s (t.keepInFlight r) := by
  unfold State.keepInFlight
  exact .ite h (h.host hh _)

theorem State.complete_only {ps : List Part} {s t : State} (h : Only ps s t) (hh : Part.host ∈ ps) (hm : Part.mgmt ∈ ps)
    (r : CmdRef) (st : Status) (r0 r1 : Nat) (lg : Bool) : Only ps s (t.complete r st r0 r1 lg) :=
  State.finish_only (State.keepInFlight_only h hh r) hh hm ..

/-- Posting an event completes a waiting request or is held. -/
theorem State.post_only {ps : List Part} {s t : State} (h : Only ps s t) (hh : Part.host ∈ ps) (hm : Part.mgmt ∈ ps)
    (ty : EvType) (d : Word) : Only ps s (t.post ty d) := by
  unfold State.post
  refine .ite (h.host hh _) ?_
  split
  · exact State.finish_only (h.host hh _) hh hm ..
  · exact .ite (h.host hh _) (h.host hh _)

theorem State.logErrorPost_only {ps : List Part} {s t : State} (h : Only ps s t) (hh : Part.host ∈ ps) (hm : Part.mgmt ∈ ps)
    (i : LogInfo) : Only ps s (t.logErrorPost i) := State.post_only (State.logError_only h hm i) hh hm ..

theorem State.signal_only {ps : List Part} {s t : State} (h : Only ps s t) (hh : Part.host ∈ ps) (ho : Part.out ∈ ps) (v : Nat) :
    Only ps s (t.signal v) := by
  unfold State.signal
  exact .ite (h.host hh _) (h.out ho _)

theorem State.replaceUnit_only {ps : List Part} {s t : State} (h : Only ps s t) (hh : Part.host ∈ ps) (hm : Part.mgmt ∈ ps)
    (k : UnitKind) (r code : Nat) : Only ps s (t.replaceUnit k r code) := by
  unfold State.replaceUnit
  split
  · exact h
  · dsimp only
    split
    · exact State.post_only (State.logError_only (h.mgmt hm _) hm _) hh hm ..
    · exact State.logErrorPost_only (h.mgmt hm _) hh hm _

theorem State.liftBarriers_only {ps : List Part} {s t : State} (h : Only ps s t) (hh : Part.host ∈ ps) : Only ps s t.liftBarriers := by
  unfold State.liftBarriers
  exact .ite h (h.host hh _)

theorem State.failCmd_only {ps : List Part} {s t : State} (h : Only ps s t) (hh : Part.host ∈ ps) (hm : Part.mgmt ∈ ps)
    (op : Op) (c : Cmd) (f : Fail) : Only ps s (Machine.failCmd op c f t) := by
  have hl : Only ps s (if op = .fwActivate then t.liftBarriers else t) := .ite (State.liftBarriers_only h hh) h
  unfold Machine.failCmd
  exact .ite (State.complete_only (State.logError_only hl hm _) hh hm ..) (State.complete_only hl hh hm ..)

/-! ### The fabric changes itself, and the logs where it drops stale traffic -/

theorem State.requests_only {ps : List Part} {s t : State} (h : Only ps s t) (hf : Part.fabric ∈ ps) (rs : List FabReq) :
    Only ps s (t.requests rs) := h.fabric hf _

theorem State.settleTraffic_only {ps : List Part} {s t : State} (h : Only ps s t) (hf : Part.fabric ∈ ps) (r : FabRole) :
    Only ps s (t.settleTraffic r) := h.fabric hf _

theorem State.dropStale_only {ps : List Part} {s t : State} (h : Only ps s t) (hm : Part.mgmt ∈ ps) (u : Handle) (e : Nat) :
    Only ps s (t.dropStale u e) := State.logError_only h hm _

theorem State.serveOne_only {ps : List Part} {s t : State} (h : Only ps s t) (hf : Part.fabric ∈ ps) (hm : Part.mgmt ∈ ps) (x : FabTxn) :
    Only ps s (t.serveOne x) := by
  unfold State.serveOne
  exact .ite ((h.fabric hf _).fabric hf _) (State.dropStale_only (h.fabric hf _) hm _ _)

/-- A tick of the fabric touches no memory and no register but its own state and the logs. -/
theorem State.fabTick_only {ps : List Part} {s t : State} (h : Only ps s t) (hf : Part.fabric ∈ ps) (hm : Part.mgmt ∈ ps) (home : Nat → Nat) :
    Only ps s (t.fabTick home) := by
  unfold State.fabTick
  refine .ite h ?_
  exact (Only.foldl _ (fun u x k => State.serveOne_only k hf hm x) _ _ (h.fabric hf _)).fabric hf _

/-! ### What every command does -/

/-- Everything that a command can do: nothing while the part is down, a failure of the common checks or of its own rules, a completion
over the state of its effect, or that state while it stays in flight. -/
theorem runCmd_cases (op : Op) (c : Cmd) (s : State) (body : Chk Done) :
    runCmd op c s body = .next s ∨ (∃ f, runCmd op c s body = .next (failCmd op c f s)) ∨
    (∃ st r0 r1 t, body = .ok (.done st r0 r1 t) ∧ runCmd op c s body = .next (t.complete (ref op c) st r0 r1 false)) ∨
    (∃ t, body = .ok (.waits t) ∧ runCmd op c s body = .next t) := by
  unfold runCmd
  split
  · split
    · exact .inr (.inl ⟨_, rfl⟩)
    · split
      · exact .inr (.inl ⟨_, rfl⟩)
      · exact .inr (.inr (.inl ⟨_, _, _, _, rfl, rfl⟩))
      · exact .inr (.inr (.inr ⟨_, rfl, rfl⟩))
  · exact .inl rfl

/-- An accepted command does what its own rules say. -/
theorem runCmd_accepted {op : Op} {c : Cmd} {s : State} (h : Accepted op c s) (body : Chk Done) :
    runCmd op c s body = match body with
      | .error f => .next (failCmd op c f s)
      | .ok (.done st r0 r1 t) => .next (t.complete (ref op c) st r0 r1 false)
      | .ok (.waits t) => .next t := by
  unfold runCmd
  rw [if_pos (.inl h.1), h.2] <;> rfl

/-- The frame of a command is that of its own effect, with the host interface and the logs. -/
theorem runCmd_only {ps : List Part} {op : Op} {c : Cmd} {s t : State} {body : Chk Done} (hh : Part.host ∈ ps) (hm : Part.mgmt ∈ ps)
    (hd : ∀ st r0 r1 u, body = .ok (.done st r0 r1 u) → Only ps s u) (hw : ∀ u, body = .ok (.waits u) → Only ps s u)
    (h : runCmd op c s body = .next t) : Only ps s t := by
  rcases runCmd_cases op c s body with e | ⟨f, e⟩ | ⟨st, r0, r1, u, hb, e⟩ | ⟨u, hb, e⟩ <;> rw [e] at h <;> cases h
  · exact Only.refl ..
  · exact State.failCmd_only (Only.refl ..) hh hm ..
  · exact State.complete_only (hd _ _ _ _ hb) hh hm ..
  · exact hw _ hb

end Sys2Proof.Machine
end

