-- ==== Sys2Proof/Laws/Inv.lean ====
section
/-!
SUPPORT. The invariant of the model under the shared operations: what leaves the bytes alone keeps it, and so do writes, marks and completions.
-/
namespace Sys2Proof

open Machine

theorem Only.inv {ps : List Part} {s t : State} (h : Only ps s t) (hp : Part.bytes ∉ ps) (i : Inv s) : Inv t := by
  have e : t.mem.mem = s.mem.mem := h.same .bytes hp
  show t.mem.mem.wf = true
  rw [e]
  exact i

theorem Inv.of_bytes {s t : State} (i : Inv s) (e : t.mem.mem = s.mem.mem) : Inv t := by
  show t.mem.mem.wf = true
  rw [e]
  exact i

theorem Inv.writeMem {s : State} (i : Inv s) (a : Nat) (bs : List Byte) : Inv (s.writeMem a bs) := State.writeMem_wf i a bs

theorem Inv.markMem {s : State} (i : Inv s) (a n : Nat) : Inv (s.markMem a n) := State.markMem_wf i a n

theorem Inv.emit {s : State} (i : Inv s) (o : Out) : Inv (s.emit o) := i

theorem Inv.mapHost {s : State} (i : Inv s) (f : HostSt → HostSt) : Inv (s.mapHost f) := i

theorem Inv.mapMgmt {s : State} (i : Inv s) (f : MgmtSt → MgmtSt) : Inv (s.mapMgmt f) := i

theorem Inv.mapPower {s : State} (i : Inv s) (f : PowerSt → PowerSt) : Inv (s.mapPower f) := i

theorem Inv.mapTime {s : State} (i : Inv s) (f : TimeSt → TimeSt) : Inv (s.mapTime f) := i

theorem Inv.complete {s : State} (i : Inv s) (r : CmdRef) (st : Status) (r0 r1 : Nat) (lg : Bool) : Inv (s.complete r st r0 r1 lg) :=
  (State.complete_only (.refl [.host, .mgmt] s) (by simp) (by simp) r st r0 r1 lg).inv (by simp) i

theorem Inv.failCmd {s : State} (i : Inv s) (op : Op) (c : Cmd) (f : Fail) : Inv (failCmd op c f s) :=
  (State.failCmd_only (.refl [.host, .mgmt] s) (by simp) (by simp) op c f).inv (by simp) i

/-- A command keeps the invariant where its own effect does. -/
theorem Inv.runCmd {s t : State} (i : Inv s) {op : Op} {c : Cmd} {body : Chk Done}
    (hd : ∀ st r0 r1 u, body = .ok (.done st r0 r1 u) → Inv u) (hw : ∀ u, body = .ok (.waits u) → Inv u)
    (h : Machine.runCmd op c s body = .next t) : Inv t := by
  unfold Machine.runCmd at h
  split at h
  · split at h
    · cases h; exact i.failCmd _ _ _
    · split at h
      · cases h; exact i.failCmd _ _ _
      · cases h; exact (hd _ _ _ _ rfl).complete _ _ _ _ _
      · cases h; exact hw _ rfl
  · cases h; exact i

end Sys2Proof
end

