-- ==== Sys2Proof/WellFormed.lean ====
section
/-!
DEFINITION. What the operands of a command or event can be at the part's pins and links: widths of fields, sizes of payloads, numbers of
readings. The meanings are total and do not ask for it; it says which terms stand for something that can come.
-/
namespace Sys2Proof

/-- A 64-bit signed value. -/
def int64 (v : Int) : Bool := decide (-(2 ^ 63) ≤ v ∧ v < 2 ^ 63)

/-- The domain and sequence number of a PTP message. -/
def ptpWf (domain seq : Nat) : Bool := Nat.blt domain 256 && Nat.blt seq 65536

/-- A host read returns at most the 64 MiB of the largest structure. -/
def HostRead.wf : HostRead → Bool
  | .bytes d => Nat.ble d.length (2 ^ 26)
  | .failed => true

/-- A command's structure is what a host read can return. -/
def Cmd.wf (c : Cmd) : Bool := c.host.wf

/-- A register access is aligned to its size and its value fits it (R28); an SMBus code is a byte and its value at most a word (R428). -/
def RegTarget.wf : RegTarget → Bool
  | .bar0 off wide val =>
    if wide then off % 8 == 0 && Nat.blt val (2 ^ 64) && Nat.blt off (2 ^ 24) else off % 4 == 0 && Nat.blt val (2 ^ 32) && Nat.blt off (2 ^ 24)
  | .bar2Size n => Nat.blt n 64
  | .smbus code val => Nat.blt code 256 && Nat.blt val 65536

/-- The prefix of a pixel cell (Table 03-7) and its data, at most 232 bytes. -/
def PixCell.wf (x : PixCell) : Bool :=
  Nat.blt x.exp 4 && Nat.blt x.hubFc 16 && Nat.blt x.line 65536 && Nat.blt x.offset 65536 && Nat.blt x.cseq 65536 && Nat.ble x.data.length 232

/-- A macro's number (Table 02-18). -/
def SramError.wf (e : SramError) : Bool := Nat.blt e.number 384

/-- What a kernel can answer (Table 11-9): whole words. -/
def JmResult.wf : JmResult → Bool
  | .rate valid bits qp _ => Nat.blt valid (2 ^ 32) && Nat.blt bits (2 ^ 32) && Nat.blt qp 256
  | .policy valid _ _ => Nat.blt valid (2 ^ 32)
  | _ => true

/-- The detection classes of slices (Table 08-4), and the IDs of parameter sets (H.265). -/
def DecItem.wf : DecItem → Bool
  | .detect _ cls => Nat.ble 2 cls && Nat.ble cls 3
  | .set _ _ id _ _ => Nat.blt id 64
  | .begin_ _ sps pps _ => Nat.blt sps 16 && Nat.blt pps 64
  | .lost _ => true

/-- The fields of an Announce message (IEEE 1588-2019). -/
def Announce.wf (a : Announce) : Bool :=
  Nat.blt a.gmId (2 ^ 64) && Nat.blt a.senderId (2 ^ 64) && Nat.blt a.priority1 256 && Nat.blt a.priority2 256 && Nat.blt a.clockClass 256 &&
  Nat.blt a.clockAcc 256 && Nat.blt a.variance 65536 && Nat.blt a.stepsRemoved 65536

/-- Whether the operands of a command or event can come. -/
def Instr.wf : Instr → Bool
  | .hostEnable => true
  | .hostDisable => true
  | .adminReset => true
  | .sqDoorbell _ _ => true
  | .cqDoorbell _ _ _ => true
  | .registerWrite t => t.wf
  | .bar0BadAccess _ => true
  | .bar2Read off len => decide (1 ≤ len ∧ off + len ≤ 2 ^ 36)
  | .bar2Write off data => decide (data ≠ [] ∧ off + data.length ≤ 2 ^ 36)
  | .timeNowRead _ => true
  | .timeAsymWrite _ _ => true
  | .timeLinkAsymWrite _ _ => true
  | .liveAddrWrite _ _ half v => half.isNone || Nat.blt v.toNat (2 ^ 32)
  | .frameCountRead _ => true
  | .calValWrite _ word wide v => if wide then word.val % 2 == 0 else Nat.blt v.toNat (2 ^ 32)
  | .laneApply _ => true
  | .fecCorrRead _ => true
  | .fecUncorrRead _ => true
  | .alertResponse => true
  | .setEndpointId _ => true
  | .getEndpointId => true
  | .getMctpVersionSupport => true
  | .getMessageTypeSupport => true
  | .mctpHealthRequest => true
  | .mctpMonitorRequest n => Nat.blt n 256
  | .mctpLogRequest seq => Nat.blt seq (2 ^ 32)
  | .commandFetch reads => Nat.ble reads.length 8
  | .commandDispatch _ host => host.wf
  | .commandComplete _ _ => true
  | .coalescingTimeout _ => true
  | .identify c => c.wf
  | .getLogPage c => c.wf
  | .setFeature c => c.wf
  | .getFeature c => c.wf
  | .queueCreate c => c.wf
  | .queueDelete c => c.wf
  | .queueFlush c => c.wf
  | .queueReset c => c.wf
  | .asyncEventRequest c => c.wf
  | .bufAlloc c => c.wf
  | .bufFree c => c.wf
  | .bufCopy c => c.wf
  | .bufFill c => c.wf
  | .bufCheck c => c.wf
  | .memSetSpeed c => c.wf
  | .pwrSetState c => c.wf
  | .pwrSetIdleTimers c => c.wf
  | .idleTimerExpiry _ => true
  | .hostInterfaceReset _ => true
  | .pcieLinkTraining rate width => [2, 5, 8, 16, 32, 64].contains rate && [1, 2, 4, 8].contains width
  | .powerUp => true
  | .deviceReset => true
  | .boot _ checkA checkB units pcs _ answered =>
    Nat.ble checkA 4 && Nat.ble checkB 4 && units.all (fun u => Nat.blt u.2 136) && pcs.all (fun p => Nat.blt p 128) &&
    answered.all (fun x => Nat.blt x.1 32 && Nat.blt x.2 4)
  | .tapReset => true
  | .vddCoreFailure => true
  | .thermalThrottle _ => true
  | .throttleEnd => true
  | .thermalTrip _ => true
  | .camConfigure c => c.wf
  | .camStart c => c.wf
  | .bindTimeout _ => true
  | .camStop c => c.wf
  | .camSensorWrite c => c.wf
  | .camTriggerPlan c => c.wf
  | .triggerSend _ => true
  | .triggerMissing _ => true
  | .pixelCell _ epoch cam x => Nat.blt epoch 65536 && Nat.blt cam 64 && x.wf
  | .timingCell _ epoch cam exp hubFc stamp =>
    Nat.blt epoch 65536 && Nat.blt cam 64 && Nat.blt exp 4 && Nat.blt hubFc 65536 && Nat.blt stamp (2 ^ 64 * 1000000000)
  | .pcpStartOfFrame _ => true
  | .pcpLine _ exp pixels => Nat.blt exp 4 && pixels.all (fun p => Nat.blt p (2 ^ 20))
  | .ack _ seq hubFc => Nat.blt seq 65536 && Nat.blt hubFc 65536
  | .nak _ seq reason executed =>
    Nat.blt seq 65536 && Nat.ble 1 reason && Nat.ble reason 4 && Nat.blt executed 256 && (reason == 1 || executed == 0)
  | .readData _ seq hubFc entries => Nat.blt seq 65536 && Nat.blt hubFc 65536 && entries.length % 8 == 0 && Nat.ble entries.length 216
  | .controlCellResend _ seq => Nat.blt seq 65536
  | .sliceDispatch _ => true
  | .stripeDone _ errors poisoned => errors.all SramError.wf && poisoned.all (fun x => Nat.ble x.2 (2 ^ 38))
  | .sliceWatchdog _ => true
  | .motionBand errors => errors.all SramError.wf
  | .motionWatchdog => true
  | .rawSetStage c => c.wf
  | .rawLoadTable c => c.wf
  | .rawTap c => c.wf
  | .clrSetMatrix c => c.wf
  | .clrLoadLut3d c => c.wf
  | .clrLoadCurve c => c.wf
  | .clrSetOutput c => c.wf
  | .clrSetSpectral c => c.wf
  | .expApply c => c.wf
  | .expSetLimits c => c.wf
  | .statConfigure c => c.wf
  | .expPolicyBind c => c.wf
  | .jmInvocationStart _ _ => true
  | .jmInvocationEnd _ _ result => result.wf
  | .overrun _ _ => true
  | .watchdog _ _ => true
  | .rateKernelTimeout _ => true
  | .tileDeadline _ _ => true
  | .siteStall _ => true
  | .jmLoadKernel c _ _ => c.wf
  | .jmBindStage c => c.wf
  | .jmUnload c => c.wf
  | .encSessionOpen c => c.wf
  | .encSessionClose c => c.wf
  | .encSetRate c => c.wf
  | .encForceIdr c => c.wf
  | .encRefMark c => c.wf
  | .encPictureStart _ => true
  | .encPictureCommit _ _ report _ => Nat.blt report.epoch 65536 && Nat.blt report.ctus.length 65536
  | .encRingPoll => true
  | .encPictureDrop _ => true
  | .encWatchdog _ => true
  | .decSessionOpen c => c.wf
  | .decSubmit c items => c.wf && items.all DecItem.wf
  | .decSessionClose c => c.wf
  | .decPictureStart _ => true
  | .decPictureOutput _ _ => true
  | .decCloseSlotTimeout _ => true
  | .decCoreFault _ => true
  | .cmpJob c => c.wf
  | .cmpExpand c => c.wf
  | .cmpEngineDispatch _ _ => true
  | .cmpEngineFault _ => true
  | .recSessionOpen c => c.wf
  | .recSessionClose c => c.wf
  | .recMarkEvent c => c.wf
  | .recSourceRecord _ k => Nat.blt k 16
  | .alignWaitExpiry _ k => Nat.blt k 16
  | .streamDescriptionRefresh _ => true
  | .hostRingPoll _ rdOff rdWraps => Nat.blt rdOff (2 ^ 32) && Nat.blt rdWraps (2 ^ 32)
  | .senderReport _ => true
  | .eventWindowClose _ => true
  | .recCloseDrainTimeout _ => true
  | .dispSetTiming c => c.wf
  | .dispLayerSet c => c.wf
  | .dispCommit c => c.wf
  | .dispLoadCoef c => c.wf
  | .dispCrcSet c => c.wf
  | .dispClone c => c.wf
  | .headFrameStart _ => true
  | .headLineSend _ _ _ => true
  | .displayMode _ => true
  | .laneConfigure c => c.wf
  | .laneTrain c => c.wf
  | .laneBitslip c _ _ => c.wf
  | .laneCalSave c => c.wf
  | .laneCalRestore c => c.wf
  | .ethPortConfigure c => c.wf
  | .capability _ rates role => Nat.blt rates 16 && Nat.blt role 256
  | .capabilityInterval _ => true
  | .rateRequest _ rate => Nat.blt rate 16
  | .rateAck _ rate => Nat.blt rate 16
  | .rateStepVerified _ _ _ snr eye values => Nat.blt snr 65536 && Nat.blt eye 65536 && Nat.ble values.length 496
  | .rotate _ chan toLane => Nat.blt chan 256 && Nat.blt toLane 256
  | .rotateAck _ chan => Nat.blt chan 256
  | .calibrationDue _ => true
  | .calibrationDone _ _ _ snr eye values => Nat.blt snr 65536 && Nat.blt eye 65536 && Nat.ble values.length 496
  | .inplaceDeferralExpiry _ => true
  | .laneQualityUpdate _ snr eye _ _ _ => Nat.blt snr 65536 && Nat.blt eye 65536
  | .codewordLockLoss _ _ => true
  | .cellLockLoss _ _ => true
  | .laneDeath _ => true
  | .ltSync _ => true
  | .ltDelayReq _ epoch _ _ => Nat.blt epoch 65536
  | .egressStreamSend _ => true
  | .streamDesc _ => true
  | .bridgeFrame _ data _ => Nat.ble 14 data.length
  | .addressAgeing mac vid => Nat.blt mac (2 ^ 48) && Nat.blt vid 4096
  | .ethLinkUp _ => true
  | .ethLinkTimeout _ => true
  | .timeSetMode c => c.wf
  | .timeStep c => c.wf
  | .timeAdjustRate c => c.wf
  | .timeWriteIncrement c => c.wf
  | .rateRestore => true
  | .sync _ domain seq _ _ corr _ => ptpWf domain seq && int64 corr
  | .followUp _ domain seq _ corr => ptpWf domain seq && int64 corr
  | .delayReq _ domain seq corr _ => ptpWf domain seq && int64 corr
  | .delayResp _ domain seq _ corr => ptpWf domain seq && int64 corr
  | .pdelayReq _ domain seq corr _ => ptpWf domain seq && int64 corr
  | .pdelayResp _ domain seq _ _ corr _ => ptpWf domain seq && int64 corr
  | .pdelayRespFollowUp _ domain seq _ corr => ptpWf domain seq && int64 corr
  | .announce _ domain a => Nat.blt domain 256 && a.wf
  | .ptpMessageInterval _ kind _ => Nat.ble kind 2
  | .announceTimeout _ => true
  | .tcHoldTimeout port domain seq => Nat.blt port 4 && ptpWf domain seq
  | .evtOutputSet c => c.wf
  | .evtCaptureSet c => c.wf
  | .compareEvent _ => true
  | .pulseEnd _ => true
  | .captureEdge _ _ => true
  | .audPortConfigure c => c.wf
  | .audStart c => c.wf
  | .audStop c => c.wf
  | .audSetSlots c => c.wf
  | .audioFrame _ rx _ => Nat.ble rx.length 32 && rx.all (fun v => decide (-(2 ^ 31) ≤ v ∧ v < 2 ^ 31))
  | .audioClockLoss _ => true
  | .filledBlock _ => true
  | .mediaClockUpdate _ => true
  | .playbackPoll _ => true
  | .fwDownload c => c.wf
  | .fwCommit c _ _ => c.wf
  | .fwActivate c => c.wf
  | .activationDrained _ => true
  | .activationDrainTimeout => true
  | .trialEnd => true
  | .chandlerRestart => true
  | .healthQuery c => c.wf
  | .monConfigure c => c.wf
  | .unitRejoin c => c.wf
  | .selfTestDone _ _ => true
  | .pairConfigure c peers => c.wf && peers.all (fun x => Nat.blt x.1 48 && Nat.blt x.2.1 65536 && Nat.blt x.2.2 16)
  | .errPolicySet c => c.wf
  | .monitorSample values => values.length == 72 && values.all (fun v => decide (-(2 ^ 31) ≤ v ∧ v < 2 ^ 31))
  | .histPeriodExpiry _ => true
  | .healthRecordUpdate powerDw => Nat.blt powerDw 65536
  | .heartbeatSend => true
  | .heartbeat payload => payload.length == 240
  | .heartbeatMiss _ _ => true
  | .ownerAck hub epoch hubFc lost => Nat.blt hub 65536 && Nat.blt epoch 65536 && Nat.blt hubFc 65536 && Nat.blt lost (2 ^ 32)
  | .refreshDue _ _ => true
  | .makeUpBurst _ _ => true
  | .retrainingSlot _ _ _ => true
  | .retrainRetry _ _ _ => true
  | .stackSpeedChange _ => true
  | .scrubRead line _ _ region result _ => Nat.blt line (2 ^ 32) && Nat.blt region 64 && Nat.ble result 2
  | .tallyLeak _ region => Nat.blt region (64 + 384)
  | .onDieEccPoll reports => reports.all (fun x => Nat.blt x.2.1 64)
  | .pcRetirement _ => true
  | .retirementCopyDone _ lost => lost.all (fun l => Nat.blt l (2 ^ 32))
  | .codewordLock _ => true
  | .cellLock _ => true
  | .ethLinkDown _ => true
  | .powerDown => true
  | .shadowUpdate cell _ _ _ => Nat.blt cell.epoch 65536 && Nat.blt cell.cam 48
  | .rotationOverlapEnd _ _ => true
  | .decOutputSkip _ => true

end Sys2Proof
end

