-- ==== Sys2Proof/Laws/PerInstr.lean ====
section
/-!
SUPPORT. Per constructor: where a term is a command of the queue interface, a term whose operands can come carries a packet whose structure a host
read can return.
-/
namespace Sys2Proof.Laws.WellFormed

/-- A command whose operands can come carries such a packet. -/
def Statement (i : Instr) : Prop := ∀ (op : Op) (c : Cmd), commandOf i = some (op, c) → i.wf = true → c.wf = true

theorem ofCommand {o : Op} {x : Cmd} (w : x.wf = true) (op : Op) (c : Cmd) (h : some (o, x) = some (op, c)) : c.wf = true := by
  cases h
  exact w

theorem wfOfAnd {a b : Bool} (h : (a && b) = true) : a = true := by
  cases a
  · exact h
  · rfl

theorem hostEnable : Statement .hostEnable := fun _ _ h _ => nomatch h

theorem hostDisable : Statement .hostDisable := fun _ _ h _ => nomatch h

theorem adminReset : Statement .adminReset := fun _ _ h _ => nomatch h

theorem sqDoorbell (q : Fin 64) (v : Word) : Statement (.sqDoorbell q v) := fun _ _ h _ => nomatch h

theorem cqDoorbell (q : Fin 64) (v : Word) (writesOk : Bool) : Statement (.cqDoorbell q v writesOk) := fun _ _ h _ => nomatch h

theorem registerWrite (t : RegTarget) : Statement (.registerWrite t) := fun _ _ h _ => nomatch h

theorem bar0BadAccess (isRead : Bool) : Statement (.bar0BadAccess isRead) := fun _ _ h _ => nomatch h

theorem bar2Read (off len : Nat) : Statement (.bar2Read off len) := fun _ _ h _ => nomatch h

theorem bar2Write (off : Nat) (data : List Byte) : Statement (.bar2Write off data) := fun _ _ h _ => nomatch h

theorem timeNowRead (wide : Bool) : Statement (.timeNowRead wide) := fun _ _ h _ => nomatch h

theorem timeAsymWrite (p : Fin 4) (v : Word) : Statement (.timeAsymWrite p v) := fun _ _ h _ => nomatch h

theorem timeLinkAsymWrite (n : Fin 32) (v : Word) : Statement (.timeLinkAsymWrite n v) := fun _ _ h _ => nomatch h

theorem liveAddrWrite (head : Fin 4) (k : Fin 8) (half : Option Bool) (v : DWord) : Statement (.liveAddrWrite head k half v) := fun _ _ h _ => nomatch h

theorem frameCountRead (head : Fin 4) : Statement (.frameCountRead head) := fun _ _ h _ => nomatch h

theorem calValWrite (n : Fin 32) (word : Fin 128) (wide : Bool) (v : DWord) : Statement (.calValWrite n word wide v) := fun _ _ h _ => nomatch h

theorem laneApply (n : Fin 32) : Statement (.laneApply n) := fun _ _ h _ => nomatch h

theorem fecCorrRead (n : Fin 32) : Statement (.fecCorrRead n) := fun _ _ h _ => nomatch h

theorem fecUncorrRead (n : Fin 32) : Statement (.fecUncorrRead n) := fun _ _ h _ => nomatch h

theorem alertResponse : Statement .alertResponse := fun _ _ h _ => nomatch h

theorem setEndpointId (eid : Byte) : Statement (.setEndpointId eid) := fun _ _ h _ => nomatch h

theorem getEndpointId : Statement .getEndpointId := fun _ _ h _ => nomatch h

theorem getMctpVersionSupport : Statement .getMctpVersionSupport := fun _ _ h _ => nomatch h

theorem getMessageTypeSupport : Statement .getMessageTypeSupport := fun _ _ h _ => nomatch h

theorem mctpHealthRequest : Statement .mctpHealthRequest := fun _ _ h _ => nomatch h

theorem mctpMonitorRequest (n : Nat) : Statement (.mctpMonitorRequest n) := fun _ _ h _ => nomatch h

theorem mctpLogRequest (seq : Nat) : Statement (.mctpLogRequest seq) := fun _ _ h _ => nomatch h

theorem commandFetch (reads : List EntryRead) : Statement (.commandFetch reads) := fun _ _ h _ => nomatch h

theorem commandDispatch (q : Fin 64) (host : HostRead) : Statement (.commandDispatch q host) := fun _ _ h _ => nomatch h

theorem commandComplete (q : Fin 64) (writeOk : Bool) : Statement (.commandComplete q writeOk) := fun _ _ h _ => nomatch h

theorem coalescingTimeout (q : Fin 64) : Statement (.coalescingTimeout q) := fun _ _ h _ => nomatch h

theorem identify (c : Cmd) : Statement (.identify c) :=
  fun op d h w => ofCommand w op d h

theorem getLogPage (c : Cmd) : Statement (.getLogPage c) :=
  fun op d h w => ofCommand w op d h

theorem setFeature (c : Cmd) : Statement (.setFeature c) :=
  fun op d h w => ofCommand w op d h

theorem getFeature (c : Cmd) : Statement (.getFeature c) :=
  fun op d h w => ofCommand w op d h

theorem queueCreate (c : Cmd) : Statement (.queueCreate c) :=
  fun op d h w => ofCommand w op d h

theorem queueDelete (c : Cmd) : Statement (.queueDelete c) :=
  fun op d h w => ofCommand w op d h

theorem queueFlush (c : Cmd) : Statement (.queueFlush c) :=
  fun op d h w => ofCommand w op d h

theorem queueReset (c : Cmd) : Statement (.queueReset c) :=
  fun op d h w => ofCommand w op d h

theorem asyncEventRequest (c : Cmd) : Statement (.asyncEventRequest c) :=
  fun op d h w => ofCommand w op d h

theorem bufAlloc (c : Cmd) : Statement (.bufAlloc c) :=
  fun op d h w => ofCommand w op d h

theorem bufFree (c : Cmd) : Statement (.bufFree c) :=
  fun op d h w => ofCommand w op d h

theorem bufCopy (c : Cmd) : Statement (.bufCopy c) :=
  fun op d h w => ofCommand w op d h

theorem bufFill (c : Cmd) : Statement (.bufFill c) :=
  fun op d h w => ofCommand w op d h

theorem bufCheck (c : Cmd) : Statement (.bufCheck c) :=
  fun op d h w => ofCommand w op d h

theorem memSetSpeed (c : Cmd) : Statement (.memSetSpeed c) :=
  fun op d h w => ofCommand w op d h

theorem pwrSetState (c : Cmd) : Statement (.pwrSetState c) :=
  fun op d h w => ofCommand w op d h

theorem pwrSetIdleTimers (c : Cmd) : Statement (.pwrSetIdleTimers c) :=
  fun op d h w => ofCommand w op d h

theorem idleTimerExpiry (n : Fin 3) : Statement (.idleTimerExpiry n) := fun _ _ h _ => nomatch h

theorem hostInterfaceReset (cause : HostResetCause) : Statement (.hostInterfaceReset cause) := fun _ _ h _ => nomatch h

theorem pcieLinkTraining (rate width : Nat) : Statement (.pcieLinkTraining rate width) := fun _ _ h _ => nomatch h

theorem powerUp : Statement .powerUp := fun _ _ h _ => nomatch h

theorem deviceReset : Statement .deviceReset := fun _ _ h _ => nomatch h

theorem boot (flashOk : Bool) (checkA checkB : Nat) (units : List (UnitKind × Nat)) (pcs : List Nat) (remaps : List (Nat × Nat)) (answered : List (Nat × Nat)) : Statement (.boot flashOk checkA checkB units pcs remaps answered) := fun _ _ h _ => nomatch h

theorem tapReset : Statement .tapReset := fun _ _ h _ => nomatch h

theorem vddCoreFailure : Statement .vddCoreFailure := fun _ _ h _ => nomatch h

theorem thermalThrottle (sensor : Fin 24) : Statement (.thermalThrottle sensor) := fun _ _ h _ => nomatch h

theorem throttleEnd : Statement .throttleEnd := fun _ _ h _ => nomatch h

theorem thermalTrip (sensor : Fin 24) : Statement (.thermalTrip sensor) := fun _ _ h _ => nomatch h

theorem camConfigure (c : Cmd) : Statement (.camConfigure c) :=
  fun op d h w => ofCommand w op d h

theorem camStart (c : Cmd) : Statement (.camStart c) :=
  fun op d h w => ofCommand w op d h

theorem bindTimeout (cam : Fin 48) : Statement (.bindTimeout cam) := fun _ _ h _ => nomatch h

theorem camStop (c : Cmd) : Statement (.camStop c) :=
  fun op d h w => ofCommand w op d h

theorem camSensorWrite (c : Cmd) : Statement (.camSensorWrite c) :=
  fun op d h w => ofCommand w op d h

theorem camTriggerPlan (c : Cmd) : Statement (.camTriggerPlan c) :=
  fun op d h w => ofCommand w op d h

theorem triggerSend (cam : Fin 48) : Statement (.triggerSend cam) := fun _ _ h _ => nomatch h

theorem triggerMissing (cam : Fin 48) : Statement (.triggerMissing cam) := fun _ _ h _ => nomatch h

theorem pixelCell (chan : Fin 32) (epoch : Nat) (cam : Nat) (x : PixCell) : Statement (.pixelCell chan epoch cam x) := fun _ _ h _ => nomatch h

theorem timingCell (chan : Fin 32) (epoch cam exp hubFc stamp : Nat) : Statement (.timingCell chan epoch cam exp hubFc stamp) := fun _ _ h _ => nomatch h

theorem pcpStartOfFrame (port : Fin 2) : Statement (.pcpStartOfFrame port) := fun _ _ h _ => nomatch h

theorem pcpLine (port : Fin 2) (exp : Nat) (pixels : List Nat) : Statement (.pcpLine port exp pixels) := fun _ _ h _ => nomatch h

theorem ack (cam : Fin 48) (seq hubFc : Nat) : Statement (.ack cam seq hubFc) := fun _ _ h _ => nomatch h

theorem nak (cam : Fin 48) (seq reason executed : Nat) : Statement (.nak cam seq reason executed) := fun _ _ h _ => nomatch h

theorem readData (cam : Fin 48) (seq hubFc : Nat) (entries : List Byte) : Statement (.readData cam seq hubFc entries) := fun _ _ h _ => nomatch h

theorem controlCellResend (cam : Fin 48) (seq : Nat) : Statement (.controlCellResend cam seq) := fun _ _ h _ => nomatch h

theorem sliceDispatch (role : Fin 16) : Statement (.sliceDispatch role) := fun _ _ h _ => nomatch h

theorem stripeDone (role : Fin 16) (errors : List SramError) (poisoned : List (Nat × Nat)) : Statement (.stripeDone role errors poisoned) := fun _ _ h _ => nomatch h

theorem sliceWatchdog (role : Fin 16) : Statement (.sliceWatchdog role) := fun _ _ h _ => nomatch h

theorem motionBand (errors : List SramError) : Statement (.motionBand errors) := fun _ _ h _ => nomatch h

theorem motionWatchdog : Statement .motionWatchdog := fun _ _ h _ => nomatch h

theorem rawSetStage (c : Cmd) : Statement (.rawSetStage c) :=
  fun op d h w => ofCommand w op d h

theorem rawLoadTable (c : Cmd) : Statement (.rawLoadTable c) :=
  fun op d h w => ofCommand w op d h

theorem rawTap (c : Cmd) : Statement (.rawTap c) :=
  fun op d h w => ofCommand w op d h

theorem clrSetMatrix (c : Cmd) : Statement (.clrSetMatrix c) :=
  fun op d h w => ofCommand w op d h

theorem clrLoadLut3d (c : Cmd) : Statement (.clrLoadLut3d c) :=
  fun op d h w => ofCommand w op d h

theorem clrLoadCurve (c : Cmd) : Statement (.clrLoadCurve c) :=
  fun op d h w => ofCommand w op d h

theorem clrSetOutput (c : Cmd) : Statement (.clrSetOutput c) :=
  fun op d h w => ofCommand w op d h

theorem clrSetSpectral (c : Cmd) : Statement (.clrSetSpectral c) :=
  fun op d h w => ofCommand w op d h

theorem expApply (c : Cmd) : Statement (.expApply c) :=
  fun op d h w => ofCommand w op d h

theorem expSetLimits (c : Cmd) : Statement (.expSetLimits c) :=
  fun op d h w => ofCommand w op d h

theorem statConfigure (c : Cmd) : Statement (.statConfigure c) :=
  fun op d h w => ofCommand w op d h

theorem expPolicyBind (c : Cmd) : Statement (.expPolicyBind c) :=
  fun op d h w => ofCommand w op d h

theorem jmInvocationStart (role : Fin 128) (statePoisoned : Bool) : Statement (.jmInvocationStart role statePoisoned) := fun _ _ h _ => nomatch h

theorem jmInvocationEnd (role : Fin 128) (thread : Fin 4) (result : JmResult) : Statement (.jmInvocationEnd role thread result) := fun _ _ h _ => nomatch h

theorem overrun (role : Fin 128) (thread : Fin 4) : Statement (.overrun role thread) := fun _ _ h _ => nomatch h

theorem watchdog (role : Fin 128) (thread : Fin 4) : Statement (.watchdog role thread) := fun _ _ h _ => nomatch h

theorem rateKernelTimeout (h : Handle) : Statement (.rateKernelTimeout h) := fun _ _ h _ => nomatch h

theorem tileDeadline (cam : Fin 48) (fn : Nat) : Statement (.tileDeadline cam fn) := fun _ _ h _ => nomatch h

theorem siteStall (role : Fin 128) : Statement (.siteStall role) := fun _ _ h _ => nomatch h

theorem jmLoadKernel (c : Cmd) (keyOk sigOk : Bool) : Statement (.jmLoadKernel c keyOk sigOk) :=
  fun op d h w => ofCommand w op d h

theorem jmBindStage (c : Cmd) : Statement (.jmBindStage c) :=
  fun op d h w => ofCommand w op d h

theorem jmUnload (c : Cmd) : Statement (.jmUnload c) :=
  fun op d h w => ofCommand w op d h

theorem encSessionOpen (c : Cmd) : Statement (.encSessionOpen c) :=
  fun op d h w => ofCommand w op d h

theorem encSessionClose (c : Cmd) : Statement (.encSessionClose c) :=
  fun op d h w => ofCommand w op d h

theorem encSetRate (c : Cmd) : Statement (.encSetRate c) :=
  fun op d h w => ofCommand w op d h

theorem encForceIdr (c : Cmd) : Statement (.encForceIdr c) :=
  fun op d h w => ofCommand w op d h

theorem encRefMark (c : Cmd) : Statement (.encRefMark c) :=
  fun op d h w => ofCommand w op d h

theorem encPictureStart (role : Fin 8) : Statement (.encPictureStart role) := fun _ _ h _ => nomatch h

theorem encPictureCommit (role : Fin 8) (payload : List Byte) (report : EncReport) (recon : List (List Nat)) : Statement (.encPictureCommit role payload report recon) := fun _ _ h _ => nomatch h

theorem encRingPoll : Statement .encRingPoll := fun _ _ h _ => nomatch h

theorem encPictureDrop (h : Handle) : Statement (.encPictureDrop h) := fun _ _ h _ => nomatch h

theorem encWatchdog (role : Fin 8) : Statement (.encWatchdog role) := fun _ _ h _ => nomatch h

theorem decSessionOpen (c : Cmd) : Statement (.decSessionOpen c) :=
  fun op d h w => ofCommand w op d h

theorem decSubmit (c : Cmd) (items : List DecItem) : Statement (.decSubmit c items) :=
  fun op d h w => ofCommand (wfOfAnd w) op d h

theorem decSessionClose (c : Cmd) : Statement (.decSessionClose c) :=
  fun op d h w => ofCommand w op d h

theorem decPictureStart (core : Fin 2) : Statement (.decPictureStart core) := fun _ _ h _ => nomatch h

theorem decPictureOutput (h : Handle) (done : Option (Fin 2 × DecReport)) : Statement (.decPictureOutput h done) := fun _ _ h _ => nomatch h

theorem decCloseSlotTimeout (h : Handle) : Statement (.decCloseSlotTimeout h) := fun _ _ h _ => nomatch h

theorem decCoreFault (core : Fin 2) : Statement (.decCoreFault core) := fun _ _ h _ => nomatch h

theorem cmpJob (c : Cmd) : Statement (.cmpJob c) :=
  fun op d h w => ofCommand w op d h

theorem cmpExpand (c : Cmd) : Statement (.cmpExpand c) :=
  fun op d h w => ofCommand w op d h

theorem cmpEngineDispatch (engine : Fin 4) (done : Bool) : Statement (.cmpEngineDispatch engine done) := fun _ _ h _ => nomatch h

theorem cmpEngineFault (engine : Fin 4) : Statement (.cmpEngineFault engine) := fun _ _ h _ => nomatch h

theorem recSessionOpen (c : Cmd) : Statement (.recSessionOpen c) :=
  fun op d h w => ofCommand w op d h

theorem recSessionClose (c : Cmd) : Statement (.recSessionClose c) :=
  fun op d h w => ofCommand w op d h

theorem recMarkEvent (c : Cmd) : Statement (.recMarkEvent c) :=
  fun op d h w => ofCommand w op d h

theorem recSourceRecord (h : Handle) (k : Nat) : Statement (.recSourceRecord h k) := fun _ _ h _ => nomatch h

theorem alignWaitExpiry (h : Handle) (k : Nat) : Statement (.alignWaitExpiry h k) := fun _ _ h _ => nomatch h

theorem streamDescriptionRefresh (h : Handle) : Statement (.streamDescriptionRefresh h) := fun _ _ h _ => nomatch h

theorem hostRingPoll (h : Handle) (rdOff rdWraps : Nat) : Statement (.hostRingPoll h rdOff rdWraps) := fun _ _ h _ => nomatch h

theorem senderReport (h : Handle) : Statement (.senderReport h) := fun _ _ h _ => nomatch h

theorem eventWindowClose (h : Handle) : Statement (.eventWindowClose h) := fun _ _ h _ => nomatch h

theorem recCloseDrainTimeout (h : Handle) : Statement (.recCloseDrainTimeout h) := fun _ _ h _ => nomatch h

theorem dispSetTiming (c : Cmd) : Statement (.dispSetTiming c) :=
  fun op d h w => ofCommand w op d h

theorem dispLayerSet (c : Cmd) : Statement (.dispLayerSet c) :=
  fun op d h w => ofCommand w op d h

theorem dispCommit (c : Cmd) : Statement (.dispCommit c) :=
  fun op d h w => ofCommand w op d h

theorem dispLoadCoef (c : Cmd) : Statement (.dispLoadCoef c) :=
  fun op d h w => ofCommand w op d h

theorem dispCrcSet (c : Cmd) : Statement (.dispCrcSet c) :=
  fun op d h w => ofCommand w op d h

theorem dispClone (c : Cmd) : Statement (.dispClone c) :=
  fun op d h w => ofCommand w op d h

theorem headFrameStart (head : Fin 4) : Statement (.headFrameStart head) := fun _ _ h _ => nomatch h

theorem headLineSend (head : Fin 4) (ready behind : Bool) : Statement (.headLineSend head ready behind) := fun _ _ h _ => nomatch h

theorem displayMode (head : Fin 4) : Statement (.displayMode head) := fun _ _ h _ => nomatch h

theorem laneConfigure (c : Cmd) : Statement (.laneConfigure c) :=
  fun op d h w => ofCommand w op d h

theorem laneTrain (c : Cmd) : Statement (.laneTrain c) :=
  fun op d h w => ofCommand w op d h

theorem laneBitslip (c : Cmd) (good cw : Nat) : Statement (.laneBitslip c good cw) :=
  fun op d h w => ofCommand w op d h

theorem laneCalSave (c : Cmd) : Statement (.laneCalSave c) :=
  fun op d h w => ofCommand w op d h

theorem laneCalRestore (c : Cmd) : Statement (.laneCalRestore c) :=
  fun op d h w => ofCommand w op d h

theorem ethPortConfigure (c : Cmd) : Statement (.ethPortConfigure c) :=
  fun op d h w => ofCommand w op d h

theorem capability (n : Fin 32) (rates role : Nat) : Statement (.capability n rates role) := fun _ _ h _ => nomatch h

theorem capabilityInterval (n : Fin 32) : Statement (.capabilityInterval n) := fun _ _ h _ => nomatch h

theorem rateRequest (n : Fin 32) (rate : Nat) : Statement (.rateRequest n rate) := fun _ _ h _ => nomatch h

theorem rateAck (n : Fin 32) (rate : Nat) : Statement (.rateAck n rate) := fun _ _ h _ => nomatch h

theorem rateStepVerified (n : Fin 32) (ber : Word) (uncorr snr eye : Nat) (values : List Byte) : Statement (.rateStepVerified n ber uncorr snr eye values) := fun _ _ h _ => nomatch h

theorem rotate (n : Fin 32) (chan toLane : Nat) : Statement (.rotate n chan toLane) := fun _ _ h _ => nomatch h

theorem rotateAck (n : Fin 32) (chan : Nat) : Statement (.rotateAck n chan) := fun _ _ h _ => nomatch h

theorem calibrationDue (n : Fin 32) : Statement (.calibrationDue n) := fun _ _ h _ => nomatch h

theorem calibrationDone (n : Fin 32) (ber : Word) (uncorr snr eye : Nat) (values : List Byte) : Statement (.calibrationDone n ber uncorr snr eye values) := fun _ _ h _ => nomatch h

theorem inplaceDeferralExpiry (n : Fin 32) : Statement (.inplaceDeferralExpiry n) := fun _ _ h _ => nomatch h

theorem laneQualityUpdate (n : Fin 32) (snr eye : Nat) (ber : Word) (corr uncorr : Nat) : Statement (.laneQualityUpdate n snr eye ber corr uncorr) := fun _ _ h _ => nomatch h

theorem codewordLockLoss (n : Fin 32) (cells : Nat) : Statement (.codewordLockLoss n cells) := fun _ _ h _ => nomatch h

theorem cellLockLoss (n : Fin 32) (cells : Nat) : Statement (.cellLockLoss n cells) := fun _ _ h _ => nomatch h

theorem laneDeath (n : Fin 32) : Statement (.laneDeath n) := fun _ _ h _ => nomatch h

theorem ltSync (frac : Half) : Statement (.ltSync frac) := fun _ _ h _ => nomatch h

theorem ltDelayReq (chan : Fin 32) (epoch : Nat) (seq frac : Half) : Statement (.ltDelayReq chan epoch seq frac) := fun _ _ h _ => nomatch h

theorem egressStreamSend (chan : Fin 32) : Statement (.egressStreamSend chan) := fun _ _ h _ => nomatch h

theorem streamDesc (h : Handle) : Statement (.streamDesc h) := fun _ _ h _ => nomatch h

theorem bridgeFrame (p : Fin 4) (data : List Byte) (frac : Half) : Statement (.bridgeFrame p data frac) := fun _ _ h _ => nomatch h

theorem addressAgeing (mac vid : Nat) : Statement (.addressAgeing mac vid) := fun _ _ h _ => nomatch h

theorem ethLinkUp (p : Fin 4) : Statement (.ethLinkUp p) := fun _ _ h _ => nomatch h

theorem ethLinkTimeout (p : Fin 4) : Statement (.ethLinkTimeout p) := fun _ _ h _ => nomatch h

theorem timeSetMode (c : Cmd) : Statement (.timeSetMode c) :=
  fun op d h w => ofCommand w op d h

theorem timeStep (c : Cmd) : Statement (.timeStep c) :=
  fun op d h w => ofCommand w op d h

theorem timeAdjustRate (c : Cmd) : Statement (.timeAdjustRate c) :=
  fun op d h w => ofCommand w op d h

theorem timeWriteIncrement (c : Cmd) : Statement (.timeWriteIncrement c) :=
  fun op d h w => ofCommand w op d h

theorem rateRestore : Statement .rateRestore := fun _ _ h _ => nomatch h

theorem sync (p : Fin 4) (domain seq : Nat) (twoStep : Bool) (t1 corr : Int) (frac : Half) : Statement (.sync p domain seq twoStep t1 corr frac) := fun _ _ h _ => nomatch h

theorem followUp (p : Fin 4) (domain seq : Nat) (t1 corr : Int) : Statement (.followUp p domain seq t1 corr) := fun _ _ h _ => nomatch h

theorem delayReq (p : Fin 4) (domain seq : Nat) (corr : Int) (frac : Half) : Statement (.delayReq p domain seq corr frac) := fun _ _ h _ => nomatch h

theorem delayResp (p : Fin 4) (domain seq : Nat) (t4 corr : Int) : Statement (.delayResp p domain seq t4 corr) := fun _ _ h _ => nomatch h

theorem pdelayReq (p : Fin 4) (domain seq : Nat) (corr : Int) (frac : Half) : Statement (.pdelayReq p domain seq corr frac) := fun _ _ h _ => nomatch h

theorem pdelayResp (p : Fin 4) (domain seq : Nat) (twoStep : Bool) (rxPeer corr : Int) (frac : Half) : Statement (.pdelayResp p domain seq twoStep rxPeer corr frac) := fun _ _ h _ => nomatch h

theorem pdelayRespFollowUp (p : Fin 4) (domain seq : Nat) (txPeer corr : Int) : Statement (.pdelayRespFollowUp p domain seq txPeer corr) := fun _ _ h _ => nomatch h

theorem announce (p : Fin 4) (domain : Nat) (a : Announce) : Statement (.announce p domain a) := fun _ _ h _ => nomatch h

theorem ptpMessageInterval (p : Fin 4) (kind : Nat) (frac : Half) : Statement (.ptpMessageInterval p kind frac) := fun _ _ h _ => nomatch h

theorem announceTimeout (p : Fin 4) : Statement (.announceTimeout p) := fun _ _ h _ => nomatch h

theorem tcHoldTimeout (port domain seq : Nat) : Statement (.tcHoldTimeout port domain seq) := fun _ _ h _ => nomatch h

theorem evtOutputSet (c : Cmd) : Statement (.evtOutputSet c) :=
  fun op d h w => ofCommand w op d h

theorem evtCaptureSet (c : Cmd) : Statement (.evtCaptureSet c) :=
  fun op d h w => ofCommand w op d h

theorem compareEvent (u : Fin 32) : Statement (.compareEvent u) := fun _ _ h _ => nomatch h

theorem pulseEnd (u : Fin 32) : Statement (.pulseEnd u) := fun _ _ h _ => nomatch h

theorem captureEdge (n : Fin 32) (rising : Bool) : Statement (.captureEdge n rising) := fun _ _ h _ => nomatch h

theorem audPortConfigure (c : Cmd) : Statement (.audPortConfigure c) :=
  fun op d h w => ofCommand w op d h

theorem audStart (c : Cmd) : Statement (.audStart c) :=
  fun op d h w => ofCommand w op d h

theorem audStop (c : Cmd) : Statement (.audStop c) :=
  fun op d h w => ofCommand w op d h

theorem audSetSlots (c : Cmd) : Statement (.audSetSlots c) :=
  fun op d h w => ofCommand w op d h

theorem audioFrame (p : Fin 8) (rx : List Int) (ppm : Int) : Statement (.audioFrame p rx ppm) := fun _ _ h _ => nomatch h

theorem audioClockLoss (p : Fin 8) : Statement (.audioClockLoss p) := fun _ _ h _ => nomatch h

theorem filledBlock (p : Fin 8) : Statement (.filledBlock p) := fun _ _ h _ => nomatch h

theorem mediaClockUpdate (k : Fin 2) : Statement (.mediaClockUpdate k) := fun _ _ h _ => nomatch h

theorem playbackPoll (p : Fin 8) : Statement (.playbackPoll p) := fun _ _ h _ => nomatch h

theorem fwDownload (c : Cmd) : Statement (.fwDownload c) :=
  fun op d h w => ofCommand w op d h

theorem fwCommit (c : Cmd) (sigOk verified : Bool) : Statement (.fwCommit c sigOk verified) :=
  fun op d h w => ofCommand w op d h

theorem fwActivate (c : Cmd) : Statement (.fwActivate c) :=
  fun op d h w => ofCommand w op d h

theorem activationDrained (accepts : Bool) : Statement (.activationDrained accepts) := fun _ _ h _ => nomatch h

theorem activationDrainTimeout : Statement .activationDrainTimeout := fun _ _ h _ => nomatch h

theorem trialEnd : Statement .trialEnd := fun _ _ h _ => nomatch h

theorem chandlerRestart : Statement .chandlerRestart := fun _ _ h _ => nomatch h

theorem healthQuery (c : Cmd) : Statement (.healthQuery c) :=
  fun op d h w => ofCommand w op d h

theorem monConfigure (c : Cmd) : Statement (.monConfigure c) :=
  fun op d h w => ofCommand w op d h

theorem unitRejoin (c : Cmd) : Statement (.unitRejoin c) :=
  fun op d h w => ofCommand w op d h

theorem selfTestDone (h : Handle) (ok : Bool) : Statement (.selfTestDone h ok) := fun _ _ h _ => nomatch h

theorem pairConfigure (c : Cmd) (peers : List (Nat × Nat × Nat)) : Statement (.pairConfigure c peers) :=
  fun op d h w => ofCommand (wfOfAnd w) op d h

theorem errPolicySet (c : Cmd) : Statement (.errPolicySet c) :=
  fun op d h w => ofCommand w op d h

theorem monitorSample (values : List Int) : Statement (.monitorSample values) := fun _ _ h _ => nomatch h

theorem histPeriodExpiry (n : Fin 72) : Statement (.histPeriodExpiry n) := fun _ _ h _ => nomatch h

theorem healthRecordUpdate (powerDw : Nat) : Statement (.healthRecordUpdate powerDw) := fun _ _ h _ => nomatch h

theorem heartbeatSend : Statement .heartbeatSend := fun _ _ h _ => nomatch h

theorem heartbeat (payload : List Byte) : Statement (.heartbeat payload) := fun _ _ h _ => nomatch h

theorem heartbeatMiss (toggles chandler : Bool) : Statement (.heartbeatMiss toggles chandler) := fun _ _ h _ => nomatch h

theorem ownerAck (hub epoch hubFc lost : Nat) : Statement (.ownerAck hub epoch hubFc lost) := fun _ _ h _ => nomatch h

theorem refreshDue (stack : Fin 4) (n : Fin 32) : Statement (.refreshDue stack n) := fun _ _ h _ => nomatch h

theorem makeUpBurst (stack : Fin 4) (n : Fin 32) : Statement (.makeUpBurst stack n) := fun _ _ h _ => nomatch h

theorem retrainingSlot (stack : Fin 4) (n : Fin 32) (eyeOk : Bool) : Statement (.retrainingSlot stack n eyeOk) := fun _ _ h _ => nomatch h

theorem retrainRetry (stack : Fin 4) (n : Fin 32) (eyeOk : Bool) : Statement (.retrainRetry stack n eyeOk) := fun _ _ h _ => nomatch h

theorem stackSpeedChange (stack : Fin 4) : Statement (.stackSpeedChange stack) := fun _ _ h _ => nomatch h

theorem scrubRead (line row bank region result : Nat) (last : Bool) : Statement (.scrubRead line row bank region result last) := fun _ _ h _ => nomatch h

theorem tallyLeak (p : Fin 128) (region : Nat) : Statement (.tallyLeak p region) := fun _ _ h _ => nomatch h

theorem onDieEccPoll (reports : List (Fin 128 × Nat × Nat)) : Statement (.onDieEccPoll reports) := fun _ _ h _ => nomatch h

theorem pcRetirement (p : Fin 128) : Statement (.pcRetirement p) := fun _ _ h _ => nomatch h

theorem retirementCopyDone (p : Fin 128) (lost : List Nat) : Statement (.retirementCopyDone p lost) := fun _ _ h _ => nomatch h

theorem codewordLock (n : Fin 32) : Statement (.codewordLock n) := fun _ _ h _ => nomatch h

theorem cellLock (n : Fin 32) : Statement (.cellLock n) := fun _ _ h _ => nomatch h

theorem ethLinkDown (p : Fin 4) : Statement (.ethLinkDown p) := fun _ _ h _ => nomatch h

theorem powerDown : Statement .powerDown := fun _ _ h _ => nomatch h

theorem shadowUpdate (cell : ShadowCell) (m : Option Mirror) (used : Nat) (full : Bool) : Statement (.shadowUpdate cell m used full) := fun _ _ h _ => nomatch h

theorem rotationOverlapEnd (q : Fin 8) (frac : Half) : Statement (.rotationOverlapEnd q frac) := fun _ _ h _ => nomatch h

theorem decOutputSkip (h : Handle) : Statement (.decOutputSkip h) := fun _ _ h _ => nomatch h

end Sys2Proof.Laws.WellFormed
end

