-- ==== Sys2Proof/Machine/Views.lean ====
section
/-!
DEFINITION. What a read of a BAR0 register returns (R28, R371; Tables 02-2 to 02-5, 10-10 to 10-12, 13-8, 13-9, 14-1, 14-2). No command of the
table is such a read, except the five that change something and have a meaning of their own (TIME_NOW_READ, FRAME_COUNT_READ, FEC_CORR_READ,
FEC_UNCORR_READ, BAR2_READ); the rest change nothing and are functions of the state.
-/
namespace Sys2Proof.Machine

/-- One half of a 64-bit value: the low one, or the high one. -/
def half32 (v : Nat) (high : Bool) : Nat := (if high then v / 2 ^ 32 else v) % 2 ^ 32

/-- Seconds (low 32 bits) above nanoseconds, as the time-stamp registers hold them. -/
def stamp64 (ns : Nat) : Nat := 2 ^ 32 * (secOf ns % 2 ^ 32) + nsOf ns

/-- A word of the host control registers (Table 02-2); doorbells and reserved offsets read zero (R28). -/
def State.hostWord (s : State) (off : Nat) : Nat :=
  match off with
  | 0x000 => s.hostCtrl
  | 0x004 => s.hostStatus
  | 0x008 => 2 ^ 16 * s.host.acqs + s.host.asqs
  | 0x010 => half32 s.host.asqBase.toNat false
  | 0x014 => half32 s.host.asqBase.toNat true
  | 0x018 => half32 s.host.acqBase.toNat false
  | 0x01C => half32 s.host.acqBase.toNat true
  | 0x020 => half32 s.host.bar2Base false
  | 0x024 => half32 s.host.bar2Base true
  | 0x028 => 0x000100B0
  | _ => 0

/-- A word of the MSI-X table: address low, address high, data, control. -/
def MsixEntry.word (e : MsixEntry) (i : Nat) : Nat :=
  match i with
  | 0 => half32 e.addr.toNat false
  | 1 => half32 e.addr.toNat true
  | 2 => e.data.toNat
  | _ => e.ctrl.toNat

/-- A word of the MSI-X pending bit array. -/
def State.pbaWord (s : State) (i : Nat) : Nat := sumNat ((List.range 32).map (fun b => 2 ^ b * bit01 (vget s.host.pba false (32 * i + b))))

/-- A word of the time counter window (Table 14-1). The low half of KX_TIME_NOW is what TIME_NOW_READ returns; the rest of it is latched (R371). -/
def State.timeWord (s : State) (off : Nat) : Nat :=
  let t := s.time
  if off = 0x000 then t.status
  else if off = 0x008 then half32 t.incr false
  else if off = 0x00C then half32 t.incr true
  else if off = 0x010 then nsOf s.ns
  else if off = 0x014 then t.latchSec
  else if off = 0x018 then t.latchHi
  else if off = 0x01C then wrapInt 32 t.rate
  else if off = 0x020 then half32 (wrapInt 64 t.offset) false
  else if off = 0x024 then half32 (wrapInt 64 t.offset) true
  else if off = 0x028 then t.meanDelay % 2 ^ 32
  else if off = 0x02C then t.measSeq.toNat
  else if 0x040 ≤ off ∧ off < 0x050 then (vget t.asym 0 ((off - 0x040) / 4)).toNat
  else if 0x100 ≤ off ∧ off < 0x180 then (vget t.linkAsym 0 ((off - 0x100) / 4)).toNat
  else 0

/-- KX_DISP_HEADn_STATUS (Table 10-12). -/
def headStatus (h : Option DispHead) (r : HeadRegs) : Nat :=
  let is (f : DispHead → Bool) : Nat := bit01 ((h.map f).getD false)
  2 ^ 7 * bit01 r.aborted + 2 ^ 6 * bit01 r.paramErr + 2 ^ 5 * is (fun x => x.cloneOf.isSome) + 2 ^ 4 * is DispHead.locked
  + 2 ^ 3 * is (fun x => tbPtp x.blk) + 2 ^ 2 * is DispHead.blankNow + 2 * is (fun x => x.run == .running)

/-- The raster line that a head scans now, counted from active line 0 (Table 10-10): the part of the frame that has passed, in lines. -/
def DispHead.lineNow (h : DispHead) (now : Nat) : Nat :=
  if h.run == .running then Nat.min (tbVt h.blk - 1) ((now - h.start) * tbVt h.blk / Nat.max 1 (tbSpan h.blk h.div)) else 0

/-- LIVE_ADDR[k] as read (R282): the register of the DIRECT layer bound to it; for a CAMERA layer of that index the base of the slot now scanned;
zero where no layer is bound. That a CAMERA layer's index is its SRC_INDEX is DEDUCED (log 43). -/
def State.liveAddr (s : State) (i k : Nat) : Nat :=
  match s.directLayer i k with
  | some _ => (vget (vget s.disp.regs HeadRegs.reset i).addr 0 k).toNat
  | none =>
    let mine (l : DispLayer) : Bool := (l.blk.map (fun b => lbKind b == 2 && lbIndex b == k)).getD false
    match (s.layersOf i).find? mine with
    | some l => ((l.shown.map Surface.base).getD 0) / 64 * 64 + bit01 l.shown.isSome
    | none => 0

/-- A word of the live-flip register block of a head (Table 10-10). -/
def State.headWord (s : State) (i off : Nat) : Nat :=
  let r := vget s.disp.regs HeadRegs.reset i
  let h := s.head i
  let at_ (f : DispHead → Nat) : Nat := (h.map f).getD 0
  if off < 0x040 then half32 (s.liveAddr i (off / 8)) (off % 8 == 4)
  else if off = 0x040 then headStatus h r
  else if off = 0x044 then at_ (fun x => x.lineNow (s.ns * 65536 + s.time.frac)) % 2 ^ 16
  else if off = 0x048 then at_ (fun x => x.count - 1) % 2 ^ 32
  else if off = 0x04C then at_ (fun x => x.cnt.aborts.toNat)
  else if off = 0x050 then half32 (stamp64 r.tsCopy) false
  else if off = 0x054 then half32 (stamp64 r.tsCopy) true
  else if off = 0x058 then half32 (stamp64 (at_ DispHead.flipStamp / 65536)) false
  else if off = 0x05C then half32 (stamp64 (at_ DispHead.flipStamp / 65536)) true
  else if off = 0x060 then at_ DispHead.flipCount % 2 ^ 32
  else 0

/-- A word of a lane window (Table 13-8): KX_LANE_CAL_VAL reads the record of the values in force (R361), KX_LANE_CTRL zero. -/
def Lane.word (x : Lane) (off : Nat) : Nat :=
  if off = 0x0000 then x.status
  else if off = 0x0008 then 2 ^ 16 * (x.eye % 2 ^ 16) + x.snr % 2 ^ 16
  else if off = 0x000C then x.ber.toNat
  else if off = 0x0010 then x.fecCorr.toNat
  else if off = 0x0014 then x.fecUncorr.toNat
  else if 0x1000 ≤ off ∧ off < 0x1200 then f32 x.calVal (off - 0x1000)
  else 0

/-- A word of BAR0 (Table 02-1); reserved offsets read zero (R28). -/
def State.bar0Word32 (s : State) (off : Nat) : Nat :=
  if off < 0x1000 then s.hostWord off
  else if 0x2000 ≤ off ∧ off < 0x3000 then (vget s.host.msix { addr := 0, data := 0, ctrl := 1 } ((off - 0x2000) / 16)).word (off % 16 / 4)
  else if 0x3000 ≤ off ∧ off < 0x3020 then s.pbaWord ((off - 0x3000) / 4)
  else if 0x10000 ≤ off ∧ off < 0x11000 then s.timeWord (off - 0x10000)
  else if 0x20000 ≤ off ∧ off < 0x20400 then s.headWord ((off - 0x20000) / 0x100) (off % 0x100)
  else if 0x100000 ≤ off ∧ off < 0x140000 then (s.lanes.lane ((off - 0x100000) / 0x2000)).word (off % 0x2000)
  else 0

/-- A read of BAR0, of 32 or 64 bits (R28); one that is not aligned to its size returns all ones. -/
def State.bar0Read (s : State) (off : Nat) (wide : Bool) : Nat :=
  if off % (if wide then 8 else 4) != 0 then 2 ^ (if wide then 64 else 32) - 1
  else if wide then s.bar0Word32 off + 2 ^ 32 * s.bar0Word32 (off + 4)
  else s.bar0Word32 off

end Sys2Proof.Machine
end

