-- ==== Sys2Proof/Tests/Base.lean ====
section
/-!
SUPPORT. The small states and commands that the tests are built from, and checks that can be computed.
-/
namespace Sys2Proof.Tests

set_option Elab.async false

open Sys2Proof.Machine

/-- A command with its PARAM words, handles and structure; a structure is read from host memory where one is given. -/
def mk (ps : List Nat) (h : Nat := 0) (aux : Nat := 0) (host : List Byte := []) (flags : Nat := 0) (q : Fin 64 := 0) : Cmd :=
  { flags := BitVec.ofNat 8 flags, rsvd03 := 0, cid := 7, rsvd06 := 0, handle := BitVec.ofNat 32 h, aux := BitVec.ofNat 32 aux,
    ptr := if host.isEmpty then 0 else 0x1000, ptrLen := BitVec.ofNat 32 host.length, ptrSpace := if host.isEmpty then 0 else 2,
    rsvd1C := 0, param := Vector.ofFn (fun i => BitVec.ofNat 32 ((ps[i.val]?).getD 0)), qid := q, host := .bytes host }

/-- The command with its structure, or the place for it, in device memory. -/
def Cmd.inDev (c : Cmd) (a n : Nat) : Cmd := { c with ptr := BitVec.ofNat 64 a, ptrLen := BitVec.ofNat 32 n, ptrSpace := 1 }

/-- The command with a place for an answer in host memory. -/
def Cmd.toHost (c : Cmd) (n : Nat) : Cmd := { c with ptr := 0x1000, ptrLen := BitVec.ofNat 32 n, ptrSpace := 2 }

/-- Whether a command is accepted, computed. -/
def acc (op : Op) (c : Cmd) (s : State) : Bool :=
  decide (s.power.phase = .running) && (match preflight s op c with | .ok _ => true | .error _ => false)

theorem acc_accepted {op : Op} {c : Cmd} {s : State} (h : acc op c s = true) : Accepted op c s := by
  unfold acc at h
  rw [Bool.and_eq_true, decide_eq_true_eq] at h
  refine ⟨h.1, ?_⟩
  have h2 := h.2
  split at h2
  · assumption
  · exact absurd h2 (by decide)

/-- The answer of a check, computed. -/
def got {α : Type} (x : Chk α) : Option α := match x with | .ok a => some a | .error _ => none

theorem got_ok {α : Type} {x : Chk α} {a : α} (h : got x = some a) : x = .ok a := by
  unfold got at h
  split at h
  · cases h; rfl
  · cases h

/-- The next state of an outcome, the state after reset otherwise. -/
def after (o : Host.Outcome State Fault Refusal) : State := match o with | .next t => t | _ => State.reset

/-- A buffer of 64 MiB at the start of the heap. -/
def buf0 : Buffer := { handle := 0x10000001, base := 0x280000000, size := 0x4000000 }
/-- A second buffer of 64 MiB. -/
def buf1 : Buffer := { handle := 0x10000002, base := 0x284000000, size := 0x4000000 }

/-- The state after reset with two buffers. -/
def twoBuffers : State := { State.reset with mem := { State.reset.mem with buffers := [buf0, buf1] } }

/-- A state with a queue in place of one. -/
def withQueue (q : Fin 64) (k : Queue) (s : State) : State := s.mapQueue q (fun _ => k)

/-- A live queue of 16 entries in host memory. -/
def queue16 : Queue := { Queue.absent with live := true, handle := 0x90000001, entries := 16, cqEntries := 16, sq := .hostMem 0x10000, cq := .hostMem 0x20000 }

/-- The state after reset with EN set and the admin queue live. -/
def enabled : State := withQueue 0 queue16 { State.reset with host := { State.reset.host with en := true } }

end Sys2Proof.Tests
end

