-- ==== Sys2Proof/Tests/AudioWitness.lean ====
section
/-!
SUPPORT. States and operands that meet the hypotheses of the statement about audio, clause by clause.
-/
namespace Sys2Proof.Tests

set_option Elab.async false

open Sys2Proof.Machine

/-- A change of the audio ports and clocks. -/
def onAud (f : AudSt → AudSt) (s : State) : State := { s with aud := f s.aud }
/-- A change of a configured port. -/
def onAport (p : Fin 8) (f : AudPort → AudPort) (s : State) : State := onAud (fun a => { a with ports := a.ports.set p ((a.ports[p]).map f) }) s

/-- A port block of two slots of 16 bits at 48 kHz, with a capture ring at 0 and a playback ring at 0x10000. -/
def audBytes (master group ramp : Nat) : List Byte :=
  layout 48 [(0, 1, 32 * master), (1, 1, 2), (2, 1, 16), (3, 1, 16), (4, 4, 48000), (8, 2, 3), (0xA, 2, 3), (0xC, 1, 16 * group), (0xE, 2, ramp), (0x18, 4, 4032), (0x1C, 4, 0x10000), (0x20, 4, 4064)]
/-- AUD_PORT_CONFIGURE of port 7. -/
def audPort (master group : Nat) : Cmd := mk [0x700] 0 0x10000001 (audBytes master group 0)
/-- A clock block at 48 kHz: FIXED, PTP, or BUFFER with port 7 in the lead. -/
def clkBytes (steer : Nat) : List Byte := layout 16 [(0, 1, steer), (1, 1, 7), (4, 4, 48000)]
/-- AUD_PORT_CONFIGURE of media clock 0. -/
def audClock (steer : Nat) : Cmd := mk [1] 0 0 (clkBytes steer)
/-- Media clock 0 at 48 kHz. -/
def clocked (steer : Nat) : State := after (exec (.audPortConfigure (audClock steer)) twoBuffers)
/-- Port 7 on media clock 0, or following an outside clock. -/
def porting (master group : Nat) : State := after (exec (.audPortConfigure (audPort master group)) (clocked 1))

theorem test_aud_port : acc .audPortConfigure (audPort 1 0) (clocked 1) = true ∧ bitsOf (par (audPort 1 0) 0) 1 0 = 0 ∧ bitsOf (par (audPort 1 0) 0) 10 8 = 7 ∧ (audPort 1 0).handle = 0 ∧
    (clocked 1).port 7 = none ∧ got (structFor (clocked 1) (audPort 1 0) (.read 48)) = some (audBytes 1 0 0) ∧ firstBad (audioFields (audBytes 1 0 0)) = none ∧
    (vget (clocked 1).aud.clocks none (pbMc (audBytes 1 0 0))).map (fun k => mbRate k.blk) = some (pbRate (audBytes 1 0 0)) ∧ typeOf (audPort 1 0).aux = 1 ∧
    (clocked 1).buffer (audPort 1 0).aux = some buf0 := by decide +kernel

theorem test_aud_rings : let b := audBytes 1 0 0; got (needInBuffer (clocked 1) buf0 (pbCapOff b) (pbCapLen b)) = some 0x280000000 ∧
    got (needInBuffer (clocked 1) buf0 (pbPlayOff b) (pbPlayLen b)) = some 0x280010000 ∧ got (needUnpinnedBut (clocked 1) ((clocked 1).nextHandle 0xA) 0x280000000 (pbCapLen b)) = some () ∧
    got (needUnpinnedBut (clocked 1) ((clocked 1).nextHandle 0xA) 0x280010000 (pbPlayLen b)) = some () ∧ ((porting 1 0).port 7).isSome = true := by decide +kernel

theorem test_aud_clock : acc .audPortConfigure (audClock 0) twoBuffers = true ∧ bitsOf (par (audClock 0) 0) 1 0 = 1 ∧ vget twoBuffers.aud.clocks none 0 = none ∧ (audClock 0).aux = 0 ∧
    got (structFor twoBuffers (audClock 0) (.read 16)) = some (clkBytes 0) ∧ firstBad (clockFields (clkBytes 0)) = none ∧ mbSteer (clkBytes 0) ≠ 2 := by decide +kernel

theorem test_aud_lead : mbSteer (clkBytes 2) = 2 ∧ ((porting 1 0).port (mbLead (clkBytes 2))).map (fun x => (pbMaster x.blk, pbMc x.blk, pbPlayLen x.blk)) = some (true, 0, 4064) := by
  decide +kernel

theorem test_aud_release : acc .audPortConfigure (mk [2] 0xA8000002) (porting 1 0) = true ∧ got (structFor (porting 1 0) (mk [2] 0xA8000002) .none) = some [] ∧
    (porting 1 0).aud.portOf 0xA8000002 = some 7 ∧ ((porting 1 0).port 7).map AudPort.running = some false := by decide +kernel

theorem test_aud_clock_release : acc .audPortConfigure (mk [2] 0xA8000001) (porting 1 0) = true ∧ (porting 1 0).aud.portOf 0xA8000001 = none ∧
    (porting 1 0).aud.clockOf 0xA8000001 = some 0 ∧ (porting 1 0).clockUsed 0 = true ∧ acc .audPortConfigure (mk [2] 0xA8000001) (clocked 1) = true ∧ (clocked 1).clockUsed 0 = false := by
  decide +kernel

/-- AUD_START of both directions now, or of playback at a time. -/
def audStart (ps : List Nat) (fl : Nat := 0) : Cmd := mk ps 0xA8000002 0 [] fl

theorem test_aud_start : acc .audStart (audStart [3]) (porting 1 0) = true ∧ ((porting 1 0).port 7).map (fun x => (x.rx, x.tx, x.newRx.getD x.rxMask)) = some (.off, .off, 3) ∧
    ((after (exec (.audStart (audStart [3])) (porting 1 0))).port 7).map AudPort.running = some true := by decide +kernel

theorem test_aud_start_late : acc .audStart (audStart [6, 0, 99999] 1) (porting 1 0) = true ∧ par (audStart [6, 0, 99999]) 2 < (porting 1 0).ns + 100000 ∧ strict (audStart [6, 0, 99999] 1) = true ∧
    acc .audStart (audStart [6, 0, 100000]) (porting 1 0) = true ∧ ((after (exec (.audStart (audStart [6, 0, 99999])) (porting 1 0))).port 7).map AudPort.tx =
      some (.wait { due := 100000, cmd := some (ref .audStart (audStart [6, 0, 99999]), true) }) := by decide +kernel

/-- The port runs in both directions. -/
def playing (master group : Nat) : State := onAport 7 (fun x => { x with rx := .on, tx := .on 0, counts := true, tail := 2 }) (porting master group)

theorem test_aud_stop : acc .audStop (audStart [3]) (playing 1 0) = true ∧ bitOf (par (audStart [3]) 0) 0 = true ∧ ((playing 1 0).port 7).map (fun x => (x.rx, x.tx)) = some (.on, .on 0) ∧
    acc .audStop (audStart [3]) (porting 1 0) = true ∧ (playing 1 0).aud.portOf 0xA8000002 = some 7 := by decide +kernel

theorem test_aud_slots : acc .audSetSlots (audStart [0x20001, 3]) (playing 1 0) = true ∧ 1 < 2 ^ pbSlots (audBytes 1 0 0) ∧ bitsOf (par (audStart [0x20001, 3]) 0) 15 0 = 1 ∧
    bitsOf (par (audStart [0x20001, 3]) 0) 31 16 = 2 ∧ ((after (exec (.audSetSlots (audStart [0x20001, 3])) (playing 1 0))).port 7).map AudPort.newTx = some (some 2) := by decide +kernel

theorem test_audio_frame : ((playing 1 0).port 7).map (fun x => (x.hasFrames, x.counts)) = some (true, true) ∧
    ((after (exec (.audioFrame 7 [5, -1] 0) (playing 1 0))).port 7).map (fun x => (x.frameNo, x.tx)) = some (1, .on 1) ∧
    (after (exec (.audioFrame 7 [5, -1] 0) (playing 1 0))).out = [.audioOut 7 [some 0, some 0]] := by decide +kernel

theorem test_audio_clock_loss : ((playing 0 1).port 7).map (fun x => (pbMaster x.blk, x.clock, x.counts, pbGroup x.blk)) = some (false, true, true, 1) ∧
    ((after (exec (.audioClockLoss 7) (playing 0 1))).port 7).map (fun x => (x.clock, x.fill.isSome, x.rxOn)) = some (false, true, true) := by decide +kernel

theorem test_filled_block : let s := after (exec (.audioClockLoss 7) (playing 0 1)); ((s.port 7).bind AudPort.fill).isSome = true ∧ (s.port 7).map (fun x => (pbGroup x.blk, x.rxOn)) = some (1, true) ∧
    ((after (exec (.filledBlock 7) s)).port 7).map AudPort.frameNo = some 480 := by decide +kernel

theorem test_playback_poll : ((playing 1 0).port 7).map (fun x => decide (pbPlayLen x.blk ≠ 0)) = some true ∧
    ((after (exec (.playbackPoll 7) ((playing 1 0).writeMem 0x280010000 (leBytes 4 96)))).port 7).map (fun x => x.playWr.off) = some 96 := by decide +kernel

theorem test_media_clock : (vget (clocked 0).aud.clocks none 0).map (fun m => mbSteer m.blk) = some 0 ∧ (vget (clocked 1).aud.clocks none 0).map (fun m => (mbSteer m.blk, m.next)) = some (1, none) ∧
    (vget (after (exec (.mediaClockUpdate 0) (clocked 0))).aud.clocks none 0).map MediaClk.ppm = some 0 := by decide +kernel

end Sys2Proof.Tests
end

