-- ==== Sys2Proof/Tests/Cams.lean ====
section
/-!
SUPPORT. Camera contexts that the tests of several chapters use.
-/
namespace Sys2Proof.Tests

set_option Elab.async false

open Sys2Proof.Machine

/-- A profile of 64 × 64 monochrome pixels of 8 bits at 1 ms, one exposure; register group 0 is ledgered, one register of one byte. -/
def profile (source mask pack : Nat) : List Byte :=
  layout 512 [(0x000, 2, 1), (0x002, 1, source), (0x004, 2, mask), (0x006, 2, 9), (0x008, 2, 64), (0x00A, 2, 64), (0x00C, 1, 8), (0x00D, 1, pack), (0x00E, 1, 1),
    (0x010, 4, 1000000), (0x014, 4, 500000), (0x030, 1, 0x10), (0x040, 1, 3), (0x041, 1, 1), (0x046, 1, 1), (0x048, 2, 0x3000)]
/-- On Ozoth Link, channel 0. -/
def ozoth : List Byte := profile 0 1 0
/-- On parallel port 0. -/
def pcp : List Byte := profile 1 0 1

/-- CAM_CONFIGURE of context 0 with a profile, its queue in the first buffer. -/
def configure (p : List Byte) : Cmd := mk [0] 0 0x10000001 p

/-- Context 0 configured with a profile. -/
def camWith (p : List Byte) : State := after (exec (.camConfigure (configure p)) twoBuffers)

/-- A change of context 0. -/
def onCam (f : CamCtx → CamCtx) (s : State) : State := s.mapCam 0 f

/-- Context 0 runs. -/
def runningWith (p : List Byte) : State := onCam (fun c => { c with state := .running, bound := true, span := 1, run := 1 }) (camWith p)

/-- Context 0 on the parallel port with one frame arriving. -/
def oneFrame : State := after (exec (.pcpStartOfFrame 0) (runningWith pcp))

/-- The frame that arrives. -/
def frame0 : Option CamFrame := (oneFrame.cam 0).frames.head?

end Sys2Proof.Tests
end

