-- ==== Sys2Proof/Tests/CameraWitness.lean ====
section
/-!
SUPPORT. States and operands that meet the hypotheses of the statements about camera contexts, triggers, control cells, ingest, slices and the motion
engine, clause by clause.
-/
namespace Sys2Proof.Tests

set_option Elab.async false

open Sys2Proof.Machine

/-! ### CamerasConfigureStartAndStop -/

theorem test_cam_configure : acc .camConfigure (configure ozoth) twoBuffers = true ∧ twoBuffers.reservedBy 0 = none ∧ (twoBuffers.cam 0).state = .idle ∧
    got (structBytes twoBuffers (configure ozoth)) = some ozoth ∧ firstBad (profileFields ozoth) = none ∧ firstBad (profileRelations ozoth) = none ∧
    firstBad (profileLimit ozoth) = none ∧ twoBuffers.buffer 0x10000001 = some buf0 ∧ pfQueueBytes ozoth ≤ buf0.size ∧ twoBuffers.portHolder 0 0 = none ∧
    (twoBuffers.admitRate ozoth (some 0) 1).getLeft? = some 1 ∧ ((camWith ozoth).cam 0).state = .configured := by decide +kernel

theorem test_cam_configure_conflict : acc .camConfigure (configure ozoth) (camWith ozoth) = true ∧ ((camWith ozoth).cam 0).state ≠ .idle := by decide +kernel

theorem test_cam_start : let c := mk [] 0x20000001; let s := camWith ozoth; acc .camStart c s = true ∧ s.cams.find c.handle = some 0 ∧ (s.cam 0).starting = none ∧
    (s.cam 0).state = .configured ∧ (s.admitRate (s.cam 0).profile (some 0) (s.cam 0).degrade).getLeft? = some 1 ∧ pfOzoth (s.cam 0).profile = true ∧
    ((after (exec (.camStart c) s)).cam 0).starting.isSome = true := by decide +kernel

theorem test_cam_start_on_a_port : let c := mk [] 0x20000001; let s := camWith pcp; acc .camStart c s = true ∧ pfOzoth (s.cam 0).profile = false ∧ (s.cam 0).applies = [] ∧
    ((after (exec (.camStart c) s)).cam 0).state = .running := by decide +kernel

theorem test_bind_timeout : let s := after (exec (.camStart (mk [] 0x20000001)) (camWith ozoth));
    ((s.cam 0).unacked.find? (fun y => y.why == .bindStart || y.why == .bindWrite)).isSome = true ∧
    ((after (exec (.bindTimeout 0) s)).cam 0).starting = none := by decide +kernel

theorem test_cam_stop : acc .camStop (mk [1] 0x20000001) (camWith ozoth) = true ∧ acc .camStop (mk [0] 0x20000001) (camWith ozoth) = true ∧
    ((after (exec (.camStop (mk [1] 0x20000001)) (camWith ozoth))).cam 0).state = .idle := by decide +kernel

theorem test_cam_stop_drains : acc .camStop (mk [0] 0x20000001) oneFrame = true ∧ (oneFrame.cam 0).state = .running ∧ (oneFrame.cam 0).frames ≠ [] ∧
    ((after (exec (.camStop (mk [0] 0x20000001)) oneFrame)).cam 0).state = .stopping := by decide +kernel

/-! ### TriggerPlansFire -/

/-- A plan block of period 1 ms from 2 ms on; flags set ALIGN, PIN and CANCEL. -/
def planBlock (flags start : Nat) : List Byte := layout 32 [(0, 2, flags), (2, 1, 31), (4, 4, 100), (0x10, 4, start), (0x14, 4, 1000000)]

theorem test_trigger_plan : let b := planBlock 0 2000000; let c := mk [] 0x20000001 0 b; let s := camWith ozoth; acc .camTriggerPlan c s = true ∧
    s.cams.find c.handle = some 0 ∧ got (structBytes s c) = some b ∧ (s.cam 0).state ≠ .stopping ∧ bitOf (f16 b 0) 2 = false ∧ f32 b 0x10 < 1000000000 ∧
    pfPeriod (s.cam 0).profile ≤ f32 b 0x14 ∧ f32 b 0x14 ≤ 4000000000 ∧ f32 b 0x1C < f32 b 0x14 ∧ (s.cam 0).plan = none ∧ bitOf (f16 b 0) 1 = false ∧
    ((after (exec (.camTriggerPlan c) s)).cam 0).plan.isSome = true := by decide +kernel

theorem test_trigger_plan_on_a_pin : let b := planBlock 2 2000000; let s := camWith ozoth; bitOf (f16 b 0) 1 = true ∧ f8 b 2 ≤ 31 ∧ 100 ≤ f32 b 4 ∧
    s.pinFree (f8 b 2) = true ∧ firstIdx Option.isNone s.time.compare.toList = some 0 ∧ acc .camTriggerPlan (mk [] 0x20000001 0 b) s = true ∧
    (((after (exec (.camTriggerPlan (mk [] 0x20000001 0 b)) s)).cam 0).plan.bind TrigPlan.pin) = some 31 := by decide +kernel

theorem test_trigger_plan_late : let s := runningWith ozoth; let b := planBlock 0 0; acc .camTriggerPlan (mk [] 0x20000001 0 b 1) s = true ∧
    ceilDiv (s.ns + 1000000 - 0) (f32 b 0x14) = 1 ∧ strict (mk [] 0x20000001 0 b 1) = true := by decide +kernel

theorem test_trigger_cancel : let b := planBlock 4 0; bitOf (f16 b 0) 2 = true ∧ acc .camTriggerPlan (mk [] 0x20000001 0 b) (camWith ozoth) = true := by decide +kernel

/-- A plan that has sent nothing. -/
def plan0 : TrigPlan := { first := 2000000, period := 1000000, stop := none, pin := none, unit := none, pulse := 0, held := false, start := 0, sent := 0, align := false }

theorem test_trigger_send : let s := onCam (fun c => { c with plan := some plan0 }) (runningWith ozoth); (s.cam 0).state = .running ∧ plan0.has plan0.sent = true ∧
    plan0.time plan0.sent ≤ s.ns + 100000000 ∧ ((after (exec (.triggerSend 0) s)).cam 0).triggers.length = 1 := by decide +kernel

theorem test_trigger_missing : let s := { onCam (fun c => { c with triggers := [{ index := 0, time := 0, period := 1000000, fn := none, sent := true }] }) (runningWith ozoth) with
      time := { State.reset.time with now := 3000000 * 2 ^ 32 } };
    0 + pfReadout (s.cam 0).profile + 1000000 ≤ s.ns ∧ (s.cam 0).stop = none ∧ ((after (exec (.triggerMissing 0) s)).cam 0).cnt.dropMissing = 1 := by decide +kernel

/-! ### ControlCellsAreAnswered -/

/-- One read entry. -/
def readEntry : List Byte := layout 8 [(0, 1, 1), (1, 1, 0x20), (2, 2, 5)]

/-- CAM_SENSOR_WRITE of that entry, in the second buffer. -/
def sensorWrite : Cmd := Cmd.inDev (mk [] 0x20000001) 0x284000000 8

/-- The entry lies in the second buffer. -/
def withEntry (s : State) : State := s.writeMem 0x284000000 readEntry

theorem test_sensor_write : let s := withEntry (runningWith ozoth); acc .camSensorWrite sensorWrite s = true ∧ got (structBytes s sensorWrite) = some readEntry ∧
    f8 readEntry 0 ≤ 2 ∧ refusedEntry (s.cam 0).profile (slice readEntry 0 8) = false ∧ got (needUnpinned s 0x284000000 8) = some () ∧ (s.cam 0).starting = none ∧
    (s.cam 0).bound = true ∧ (s.cam 0).failed = false ∧ ((after (exec (.camSensorWrite sensorWrite) s)).cam 0).unacked.length = 1 := by decide +kernel

theorem test_sensor_write_binds : let s := withEntry (camWith ozoth); acc .camSensorWrite sensorWrite s = true ∧ (s.cam 0).bound = false ∧ (s.cam 0).unacked = [] ∧
    ((after (exec (.camSensorWrite sensorWrite) s)).cam 0).unacked.length = 1 := by decide +kernel

theorem test_sensor_write_while_starting : let s := after (exec (.camStart (mk [] 0x20000001)) (withEntry (camWith ozoth))); acc .camSensorWrite sensorWrite s = true ∧
    (s.cam 0).starting.isSome = true ∧ (s.cam 0).state = .configured := by decide +kernel

/-- The entry has been sent. -/
def entrySent : State := after (exec (.camSensorWrite sensorWrite) (withEntry (runningWith ozoth)))

theorem test_entry_acked : (((entrySent.cam 0).unacked.find? (fun y => y.seq == 0)).map CtrlCell.why) = some (.entries (ref .camSensorWrite sensorWrite) 0 1) ∧
    ((entrySent.cam 0).sensor.find? (fun y => y.by_ == ref .camSensorWrite sensorWrite)).isSome = true ∧ entrySent.mem.mem.wf = true ∧
    ((after (exec (.ack 0 0 0) entrySent)).cam 0).sensor = [] := by decide +kernel

theorem test_read_data : f8 readEntry 0 = 1 ∧ (after (exec (.readData 0 0 0 (layout 8 [(4, 4, 77)])) entrySent)).mem.mem.byte 0x284000004 = 77 := by decide +kernel

/-- A control cell of a trigger, unacknowledged after some resends. -/
def cell0 (n : Nat) (why : CtrlWhy) : CtrlCell := { seq := 4, op := 3, payload := [], why := why, resends := n }

/-- That cell waits for its answer. -/
def cellSent (n : Nat) (why : CtrlWhy) (isD : Bool) : State :=
  let s := onCam (fun c => { c with unacked := [cell0 n why], failRun := 2 }) (runningWith ozoth)
  { s with dev := { s.dev with isD := isD } }

theorem test_nak : ((cellSent 0 (.trigger 1) true).cam 0).unacked.find? (fun y => y.seq == 4) = some (cell0 0 (.trigger 1)) ∧
    ((after (exec (.nak 0 4 1 0) (cellSent 0 .cancel false))).cam 0).failed = true ∧
    (after (exec (.nak 0 4 2 0) (cellSent 0 .cancel true))).mgmt.pair.state = .fenced ∧ (cellSent 0 .cancel true).dev.isD = true := by decide +kernel

theorem test_resend : (cell0 2 .cancel).resends < 3 ∧ 3 ≤ (cell0 3 .cancel).resends ∧ ((after (exec (.controlCellResend 0 4) (cellSent 2 .cancel false))).cam 0).cnt.resends = 1 ∧
    ((after (exec (.controlCellResend 0 4) (cellSent 3 .cancel false))).cam 0).failRun = 3 := by decide +kernel

theorem test_resend_of_a_bind : (cell0 3 .bindStart).resends = 3 ∧
    ((after (exec (.controlCellResend 0 4) (cellSent 3 .bindStart false))).cam 0).failRun = 3 := by decide +kernel

/-! ### FramesAndLinesArrive -/

/-- The first cell of a frame, and a cell inside a line. -/
def sofCell : PixCell := { exp := 0, sof := true, eof := false, sol := true, eol := false, hubFc := 0, line := 0, offset := 0, cseq := 0, data := [1, 2] }
/-- A cell inside a line. -/
def midCell : PixCell := { sofCell with sof := false, sol := false, offset := 2, cseq := 1 }

theorem test_start_of_frame : let s := runningWith ozoth; (s.cam 0).state = .running ∧ s.mayArrive 0 0 = true ∧ (s.cam 0).held = [] ∧ (s.lanes.chan 0).epoch = 1 ∧
    (s.cam 0).arriving.isNone = true ∧ (s.cam 0).asm = none ∧ (s.cam 0).triggers = [] ∧ (s.cam 0).nextSeq = none ∧ (s.cam 0).freeSlot = some 0 ∧
    s.sheds (pfDropClass (s.cam 0).profile) = false ∧ (s.cam 0).fnNext % (s.cam 0).degrade = 0 ∧
    ((after (exec (.pixelCell 0 1 0 sofCell) s)).cam 0).fnNext = 1 := by decide +kernel

theorem test_cell_of_a_line : let s := after (exec (.pixelCell 0 1 0 sofCell) (runningWith ozoth)); (s.cam 0).nextSeq = some midCell.cseq ∧ (s.cam 0).arriving.isSome = true ∧
    (s.cam 0).asm = some { exp := 0, line := 0, data := [1, 2], bad := false } ∧ (s.cam 0).dropping = false ∧ (s.cam 0).gap = false ∧
    ((after (exec (.pixelCell 0 1 0 midCell) s)).cam 0).asm.map (fun a => a.data.length) = some 4 := by decide +kernel

/-- A cell of a line for which the store has no room beside a long line of context 1. -/
def storeFull : State :=
  let s := after (exec (.pixelCell 0 1 0 sofCell) (runningWith ozoth))
  { s with fab := { s.fab with waiting := [s.access .bandWrite .ostler 1 0x280000000 6291456 true] } }

theorem test_cell_without_room : 6291456 < storeFull.lineStore + midCell.data.length ∧ (storeFull.cam 0).nextSeq = some 1 ∧
    ((after (exec (.pixelCell 0 1 0 midCell) storeFull)).cam 0).cnt.cellsLost = 1 := by decide +kernel

theorem test_stopping_cell : let s := onCam (fun c => { c with state := .stopping }) (runningWith ozoth); (s.cam 0).state = .stopping ∧ (s.cam 0).arriving.isNone = true ∧
    s.mayArrive 0 0 = true := by decide +kernel

theorem test_no_free_slot : let s := onCam (fun c => { c with frames := (frame0.toList.flatMap (fun f => [{ f with slot := 0 }, { f with slot := 1 }, { f with slot := 2 }])) }) (runningWith ozoth);
    (s.cam 0).freeSlot = none := by decide +kernel

theorem test_stray_cell : (camWith ozoth).mayArrive 1 0 = false ∧ ((camWith ozoth).cam 0).state = .configured ∧ 2 ≠ ((camWith ozoth).lanes.chan 0).epoch := by decide +kernel

theorem test_timing_cell : (runningWith ozoth).mayArrive 0 0 = true ∧
    ((after (exec (.timingCell 0 1 0 0 3 99) (runningWith ozoth))).cam 0).timing = [(3, 99)] := by decide +kernel

theorem test_port : (runningWith pcp).portCam 0 = some 0 ∧ ((runningWith pcp).cam 0).arriving.isNone = true ∧ (oneFrame.cam 0).arriving.isSome = true ∧
    ((oneFrame.cam 0).frames.length = 1) ∧ oneFrame.mem.mem.wf = true := by decide +kernel

/-- A line of 64 pixels of code 3. -/
def line3 : List Nat := List.replicate 64 3

theorem test_port_line : let p := (oneFrame.cam 0).profile; let codes := packCodes p false (line3.map (· % 2 ^ pfDepth p)); line3.length = pfW p ∧ 0 < pfNexp p ∧ 0 < pfH p ∧
    pfLineBytes p ≤ codes.length ∧ 0 % 64 ≠ 63 ∧ (after (exec (.pcpLine 0 0 line3) oneFrame)).mem.mem.byte 0x280000000 = 3 := by decide +kernel

/-! ### SlicesAndMotionWork -/

/-- A slice holds stripe 0 of band 0 of the frame. -/
def inSlice : State := { oneFrame with cams := { oneFrame.cams with slices := oneFrame.cams.slices.set 2 (some { cam := 0, fn := 0, band := 0, stripe := 0, epoch := 1 }) } }

theorem test_stripe_done : inSlice.cams.slices[2].isSome = true ∧ inSlice.mgmt.units.unitOf .sliceU 2 = some 2 ∧ (inSlice.cam 0).frame 0 = frame0 ∧ frame0.isSome = true ∧
    (frame0.map (fun f => (inSlice.cam 0).frameDoneAll { f with stripes := f.stripes ++ [(0, 0)] })) = some true ∧ (inSlice.cam 0).stop = none := by decide +kernel

theorem test_stripe_not_last : (frame0.map (fun f => { (inSlice.cam 0) with span := 2 }.frameDoneAll { f with stripes := f.stripes ++ [(0, 0)] })) = some false := by decide +kernel

theorem test_slice_watchdog : inSlice.mgmt.units.roleOf .sliceU 2 = some 2 ∧ ((after (exec (.sliceWatchdog 2) inSlice)).mgmt.units.unit .sliceU 2).state = .fenced := by
  decide +kernel

/-- The first frame of the port camera has its band in the queue, and its deadline lies ahead. -/
def bandIn : State := onCam (fun c => { c with frames := c.frames.map (fun f => { f with stored := Vector.replicate 3 64, arrived := true }) }) oneFrame

theorem test_slice_dispatch : bandIn.eligibles.length = 1 ∧ bandIn.cams.slices[3] = none ∧ bandIn.mgmt.units.unitOf .sliceU 3 = some 3 ∧
    (after (exec (.sliceDispatch 3) bandIn)).cams.slices[3].map SliceJob.epoch = some 1 := by decide +kernel

theorem test_motion : bandIn.motionBands.length = 1 ∧ bandIn.mgmt.units.unitOf .motionU 0 = some 0 ∧
    ((after (exec .motionWatchdog bandIn)).cam 0).frames.map (fun g => (g.fields, g.fieldBad)) = [(1, [0])] := by decide +kernel

end Sys2Proof.Tests
end

