-- ==== Sys2Proof/Tests/ChandlerWitness.lean ====
section
/-!
SUPPORT. States and operands that meet the hypotheses of the statements about Chandler: firmware, monitors, policy, units and the pair, clause by
clause.
-/
namespace Sys2Proof.Tests

set_option Elab.async false

open Sys2Proof.Machine

/-! ### FirmwareIsStagedAndCommitted -/

theorem test_fw_download : let c := Cmd.inDev (mk [0x3FFFFC0, 1] 0 0x10000001) 0x280000000 64; acc .fwDownload c twoBuffers = true ∧ twoBuffers.mem.mem.wf = true ∧
    typeOf c.aux = 1 ∧ twoBuffers.buffer c.aux = some buf0 ∧ rangeFault twoBuffers 0x280000000 64 (some (buf0.base, buf0.size)) = none ∧
    par c 0 + 64 ≤ stagingSize ∧ twoBuffers.mem.mem.poisonIn 0x280000000 64 = none ∧ (after (exec (.fwDownload c) twoBuffers)).mgmt.fw.stagedTop = stagingSize := by
  decide +kernel

/-- A staged image header, with the device's own fields patched. -/
def header (magic len part svn : Nat) : List Byte :=
  layout 256 [(0x00, 4, magic), (0x04, 4, 0x20000), (0x08, 2, part), (0x0A, 2, 0x00B0), (0x0C, 1, svn), (0x10, 4, len)]

/-- The state with that header staged and a number of bytes covered. -/
def staged (h : List Byte) (n : Nat) : State :=
  let s := State.reset.writeMem stagingBase h
  { s with mgmt := { s.mgmt with fw := { s.mgmt.fw with staged := [(0, n)], stagedTop := n, rollback := 1 } } }

/-- FW_COMMIT OP 0. -/
def commit : Cmd := mk [0]

theorem test_fw_commit : let s := staged (header 0x57464B50 256 0x4896 1) 256; acc .fwCommit commit s = true ∧ s.mem.mem.wf = true ∧ s.host.activation = none ∧
    256 ≤ coveredTo s.mgmt.fw.staged s.mgmt.fw.staged.length 0 ∧ f32 (s.readMem stagingBase 256) 0x00 = 0x57464B50 ∧
    f32 (s.readMem stagingBase 256) 0x10 = 256 ∧ f16 (s.readMem stagingBase 256) 0x0A = 0x00B0 ∧
    (after (exec (.fwCommit commit true true) s)).mgmt.fw.bankB.version = 0x20000 := by decide +kernel

theorem test_fw_commit_fails : f32 ((staged (header 5 256 0x4896 1) 256).readMem stagingBase 256) 0x00 ≠ 0x57464B50 ∧
    ¬ f32 ((staged (header 0x57464B50 257 0x4896 1) 256).readMem stagingBase 256) 0x10 ≤ 256 ∧
    f8 ((staged (header 0x57464B50 256 0x4896 0) 256).readMem stagingBase 256) 0x0C < 1 ∧
    f16 ((staged (header 0x57464B50 256 0x4897 1) 256).readMem stagingBase 256) 0x08 ≠ 0x4896 := by decide +kernel

theorem test_fw_ratchet : acc .fwCommit (mk [1]) (staged [] 0) = true ∧ (staged [] 0).mgmt.fw.trial = false ∧ (staged [] 0).mgmt.fw.rollback < 64 ∧
    (after (exec (.fwCommit (mk [1]) true true) (staged [] 0))).mgmt.fw.rollback = 1 := by decide +kernel

theorem test_fw_owner_key : let c := mk [2] 0 0 (List.replicate 48 7); acc .fwCommit c State.reset = true ∧ got (structFor State.reset c (.read 48)) = some (List.replicate 48 7) ∧
    State.reset.mgmt.fw.ownerKey = none ∧ (after (exec (.fwCommit c true true) State.reset)).mgmt.fw.ownerKey ≠ none ∧
    acc .fwCommit c (after (exec (.fwCommit c true true) State.reset)) = true := by decide +kernel

/-! ### ActivationDrainsAndTries -/

/-- Both banks hold an image. -/
def twoBanks : State := { enabled with mgmt := { enabled.mgmt with fw := { enabled.mgmt.fw with bankB := enabled.mgmt.fw.bankA } } }

theorem test_fw_activate : acc .fwActivate (mk [1]) twoBanks = true ∧ twoBanks.host.activation = none ∧ 1 ≠ twoBanks.mgmt.fw.active ∧
    (twoBanks.mgmt.fw.bank 1).empty = false ∧ (twoBanks.mgmt.fw.bank 1).failed = false ∧ acc .fwActivate (mk [1]) enabled = true ∧
    (enabled.mgmt.fw.bank 1).empty = true ∧ (after (exec (.fwActivate (mk [1])) twoBanks)).host.activation.isSome = true := by decide +kernel

theorem test_activation_drained : let s := after (exec (.fwActivate (mk [1])) twoBanks); (∀ q : Fin 64, (s.queue q).drained (ref .fwActivate (mk [1])) = true) ∧
    (after (exec (.activationDrained true) s)).mgmt.fw.trial = true ∧ (after (exec .activationDrainTimeout s)).host.activation = none := by decide +kernel

/-- Bank B is on trial. -/
def onTrial : State := { twoBanks with mgmt := { twoBanks.mgmt with fw := { twoBanks.mgmt.fw with trial := true, trialBank := 1, active := 1 } } }

theorem test_trial : onTrial.mgmt.fw.trial = true ∧ onTrial.power.phase = .running ∧ onTrial.host.orphanRun = [] ∧
    (∀ q : Fin 64, ∀ x ∈ (onTrial.queue q).inFlight, x.ref.qid = q) ∧ (after (exec .trialEnd onTrial)).mgmt.fw.bootBank = 1 ∧
    (after (exec .chandlerRestart onTrial)).mgmt.fw.active = 0 := by decide +kernel

/-! ### MonitorsPolicyAndHealth -/

theorem test_monitor_sample : (List.replicate 72 (5 : Int)).length = 72 ∧
    ((after (exec (.monitorSample (List.replicate 72 5)) State.reset)).mgmt.monitors[71]).cur = 5 := by decide +kernel

theorem test_hist_period : (let m := State.reset.mgmt.monitors[3]; let s := { State.reset with mgmt := { State.reset.mgmt with monitors := State.reset.mgmt.monitors.set 3 { m with histPeriod := 9, samples := 4 } } };
    (s.mgmt.monitors[3]).histPeriod ≠ 0 ∧ ((after (exec (.histPeriodExpiry 3) s)).mgmt.monitors[3]).samples = 0) := by decide +kernel

theorem test_mon_clear : acc .monConfigure (mk [0x100 + 71]) State.reset = true ∧ bitsOf (par (mk [0x100 + 71]) 0) 6 0 < 72 := by decide +kernel

theorem test_mon_configure : let b := layout 32 [(0x04, 4, 10), (0x08, 4, 10), (0x10, 4, 1), (0x14, 4, 2)]; let c := mk [0x200 + 5] 0 0 b;
    acc .monConfigure c State.reset = true ∧ got (structFor State.reset c (.read 32)) = some b ∧ fs32 b 0x04 ≤ fs32 b 0x08 ∧ fs32 b 0x10 < fs32 b 0x14 ∧
    ((after (exec (.monConfigure c) State.reset)).mgmt.monitors[5]).critHi = 10 := by decide +kernel

theorem test_err_policy : let b := layout 32 [(0, 2, 4), (2, 2, 3600), (4, 4, 7), (8, 1, 64), (9, 1, 1), (0xA, 2, 200), (0xC, 2, 10000), (0xE, 2, 5000), (0x10, 1, 4)];
    let c := mk [] 0 0 b; acc .errPolicySet c State.reset = true ∧ got (structBytes State.reset c) = some b ∧ 4 ≤ f16 b 0 ∧ f16 b 2 ≤ 3600 ∧ f8 b 8 ≤ 64 ∧ 1 ≤ f8 b 9 ∧
    200 ≤ f16 b 0xA ∧ f16 b 0xC ≤ 10000 ∧ f16 b 0xE ≤ 5000 ∧ f8 b 0x10 ≤ 4 ∧ (after (exec (.errPolicySet c) State.reset)).mgmt.policy.encWd = 10000 := by decide +kernel

theorem test_health_query : let c := Cmd.toHost (mk []) 128; acc .healthQuery c State.reset = true ∧ c.ptrSpace = 2 ∧ State.reset.ready = true := by decide +kernel

theorem test_health_query_in_device : let c := Cmd.inDev (mk [] 0 0x10000001) 0x280000000 128; acc .healthQuery c twoBuffers = true ∧ typeOf c.aux = 1 ∧
    rangeFault twoBuffers 0x280000000 128 (some (buf0.base, buf0.size)) = none ∧ got (needUnpinned twoBuffers 0x280000000 128) = some () := by decide +kernel

/-! ### UnitsRejoinThroughASelfTest -/

/-- Slice unit 16, the spare, is fenced. -/
def fencedSpare : State := { State.reset with mgmt := { State.reset.mgmt with
  units := State.reset.mgmt.units.mapPhys .sliceU 16 (fun x => { x with state := .fenced }) } }

theorem test_unit_rejoin : let c := mk [0] 0xA0200010; acc .unitRejoin c fencedSpare = true ∧ bitOf c.handle.toNat 27 = false ∧
    kindOf (bitsOf c.handle.toNat 26 20) = some .sliceU ∧ (fencedSpare.mgmt.units.unit .sliceU 16).state = .fenced ∧
    acc .unitRejoin c State.reset = true ∧ (State.reset.mgmt.units.unit .sliceU 16).state = .spare ∧
    ((after (exec (.unitRejoin c) fencedSpare)).mgmt.units.unit .sliceU 16).state = .testing := by decide +kernel

theorem test_unit_fence : acc .unitRejoin (mk [1] 0xA0200000) State.reset = true ∧ State.reset.mgmt.units.roleOf .sliceU 0 = some 0 ∧
    acc .unitRejoin (mk [1] 0xA0200010) State.reset = true ∧ State.reset.mgmt.units.roleOf .sliceU 16 = none := by decide +kernel

theorem test_self_test : let s := after (exec (.unitRejoin (mk [0] 0xA0200010)) fencedSpare);
    (s.mgmt.units.unit .sliceU 16).test = some (ref .unitRejoin (mk [0] 0xA0200010)) ∧ s.mgmt.units.vacancy .sliceU 16 = none ∧
    ((after (exec (.selfTestDone 0xA0200010 true) s)).mgmt.units.unit .sliceU 16).state = .spare := by decide +kernel

theorem test_self_test_fills : let s0 := { fencedSpare with mgmt := { fencedSpare.mgmt with
      units := (fencedSpare.mgmt.units.mapRole .sliceU 3 (fun x => { x with unit := none })).mapPhys .sliceU 3 (fun x => { x with state := .fenced, role := none }) } };
    let s := after (exec (.unitRejoin (mk [0] 0xA0200010)) s0); s.mgmt.units.vacancy .sliceU 16 = some 3 ∧
    (after (exec (.selfTestDone 0xA0200010 true) s)).mgmt.units.unitOf .sliceU 3 = some 16 := by decide +kernel

/-! ### PairKeepsWatchAndTakesOver -/

/-- A KX-4896D whose pair link has lane 28 in service, with two buffers. -/
def twin : State :=
  let l := LanesSt.reset true
  { twoBuffers with
    dev := { twoBuffers.dev with isD := true }
    lanes := { l with lanes := l.lanes.set 28 { l.lanes[28] with state := .active, chan := some 28 }, channels := l.channels.set 28 { l.channels[28] with lane := some 28 } }
    mem := { twoBuffers.mem with buffers := [{ buf0 with size := 0x100000000 }] } }

/-- The pair in a state, after some misses. -/
def pairIn (x : PairState) (n : Nat) : State := { twin with mgmt := { twin.mgmt with pair := { twin.mgmt.pair with state := x, misses := n } } }

theorem test_pair_query : twin.dev.isD = true ∧ acc .pairConfigure (mk [2]) twin = true ∧ got (structFor twin (mk [2]) .none) = some [] := by decide +kernel

theorem test_pair_off : let b := layout 64 []; let c := mk [0] 0 0 b; acc .pairConfigure c twin = true ∧ twin.pairChan = some 28 ∧ got (structFor twin c (.read 64)) = some b ∧
    bitOf (f8 b 0) 0 = false ∧ (after (exec (.pairConfigure c []) twin)).mgmt.pair.state = .off := by decide +kernel

/-- A pair block with the largest shadow and no context mapped. -/
def pairOn : List Byte := layout 64 ([(0, 1, 1), (0x0C, 4, 0xFFFFFFFF)] ++ (List.range 48).map (fun i => (0x10 + i, 1, 0xFF)))

theorem test_pair_on : let c := mk [0] 0 0x10000001 pairOn; acc .pairConfigure c twin = true ∧ got (structFor twin c (.read 64)) = some pairOn ∧ f8 pairOn 0 = 1 ∧
    typeOf c.aux = 1 ∧ (twin.buffer c.aux).isSome = true ∧ got (needInBuffer twin { buf0 with size := 0x100000000 } 0 0xFFFFFFFF) = some 0x280000000 ∧
    got (needRing twin (unitHandle 0x0E 0) 0xE40 0x280000000 0xFFFFFFFF) = some () := by decide +kernel

theorem test_pair_on_fields : firstBad (pairFields twin pairOn []) = none := by
  have h : decide (Config.shadowNeed.toNat ≤ f32 pairOn 0xC) = true := by
    rw [decide_eq_true_eq, show f32 pairOn 0xC = 0xFFFFFFFF by decide +kernel]
    have := Config.shadowNeed.isLt
    omega
  unfold pairFields
  rw [h]
  decide +kernel

theorem test_heartbeats : (pairIn .paired 0).power.phase = .running ∧ (pairIn .paired 0).pairChan = some 28 ∧
    (after (exec .heartbeatSend (pairIn .paired 0))).mgmt.pair.seq = 1 ∧ (pairIn .paired 0).pairChan.map (pairIn .paired 0).silent = some false ∧ f8 (layout 240 [(0, 1, 0x40), (1, 1, 1), (4, 2, 1)]) 0 = 0x40 ∧
    (after (exec (.heartbeat (layout 240 [(0, 1, 0x40), (1, 1, 1), (4, 2, 1)])) (pairIn .linkFault 3))).mgmt.pair.state = .paired ∧
    f16 (layout 240 [(0, 1, 0x40), (4, 2, 2)]) 4 ≠ (pairIn .paired 0).mgmt.pair.twinEpoch := by decide +kernel

theorem test_heartbeat_miss : (pairIn .paired 3).mgmt.pair.state = .paired ∧ (after (exec (.heartbeatMiss true true) (pairIn .paired 3))).mgmt.pair.misses = 4 ∧
    (after (exec (.heartbeatMiss true true) (pairIn .paired 4))).mgmt.pair.state = .linkFault ∧
    (after (exec (.heartbeatMiss false true) (pairIn .paired 4))).mgmt.pair.state = .solo := by decide +kernel

/-- A mirror of a context without profile. -/
def mirror0 : Mirror :=
  { profile := [], run := 1, plan := none, stages := [], tables := [], matrix := [], look := none, curves := [], spectral := [], stats := none, limits := [],
    apply := none, kernels := [], outs := [] }

theorem test_shadow_update : (pairIn .paired 0).mgmt.pair.state ≠ .off ∧ 1 = (pairIn .paired 0).mgmt.pair.twinEpoch ∧ 2 ≠ (pairIn .paired 0).mgmt.pair.twinEpoch ∧
    (after (exec (.shadowUpdate { epoch := 1, cam := 3 } (some mirror0) 100 true) (pairIn .paired 0))).mgmt.pair.configBy = [] := by decide +kernel

theorem test_owner_ack : let s := { twin with mgmt := { twin.mgmt with pair := { twin.mgmt.pair with state := .solo, awaiting := [9] } } };
    s.mgmt.pair.hands = [] ∧ 9 ∈ s.mgmt.pair.awaiting ∧ (after (exec (.ownerAck 9 1 0 0) s)).mgmt.pair.awaiting = [] := by decide +kernel

end Sys2Proof.Tests
end

