-- ==== Sys2Proof/Tests/DecodeWitness.lean ====
section
/-!
SUPPORT. States and operands that meet the hypotheses of the statements about decode sessions and Cooper jobs, clause by clause.
-/
namespace Sys2Proof.Tests

set_option Elab.async false

open Sys2Proof.Machine

/-! ### DecodeSessionsAndCores -/

/-- A paced session of 64 × 64 pixels with two slots: its period in ns. -/
def decBlock (period : Nat) : List Byte := layout 64 [(0, 1, 1), (1, 1, 90), (2, 2, 64), (4, 2, 64), (6, 1, 1), (7, 1, 1), (8, 1, 0), (9, 1, 2), (0x0C, 4, period),
  (0x1C, 4, 0), (0x20, 4, 0x10000), (0x24, 4, 0x10000), (0x28, 4, 0x10000)]
/-- DEC_SESSION_OPEN in the second buffer. -/
def decOpen (period : Nat) : Cmd := mk [] 0 0x10000002 (decBlock period)
/-- What an open asks. -/
def decOpenOk (b : List Byte) (s : State) : Bool :=
  decide (firstBad (decFields b) = none) && decide (s.dec.sessions.length < 16) && decide (4096 + (dbDpb b + 1) * dbBound b ≤ f32 b 0x20) &&
  decide (f32 b 0x1C + f32 b 0x20 ≤ buf1.size) && decide (dbSlots b * dbSlotSize b ≤ f32 b 0x28) && decide (f32 b 0x24 + f32 b 0x28 ≤ buf1.size) &&
  !meets (f32 b 0x1C) (f32 b 0x20) (f32 b 0x24) (f32 b 0x28)

theorem test_dec_over_budget : acc .decSessionOpen (decOpen 1) twoBuffers = true ∧ got (structBytes twoBuffers (decOpen 1)) = some (decBlock 1) ∧ decOpenOk (decBlock 1) twoBuffers = true ∧
    decCharge (decBlock 1) ≠ 0 ∧ ¬ decCharge (decBlock 1) ≤ 2400 := by decide +kernel

/-- One session is open. -/
def decSt : State := after (exec (.decSessionOpen (decOpen 1000000)) twoBuffers)

theorem test_dec_open : acc .decSessionOpen (decOpen 1000000) twoBuffers = true ∧ got (structBytes twoBuffers (decOpen 1000000)) = some (decBlock 1000000) ∧
    decOpenOk (decBlock 1000000) twoBuffers = true ∧ decCharge (decBlock 1000000) ≤ 2400 ∧ twoBuffers.buffer 0x10000002 = some buf1 ∧
    decCharge (decBlock 1000000) + sumNat (twoBuffers.dec.sessions.map DecSession.charge) ≤ 2400 * twoBuffers.mgmt.units.filled .decU ∧
    got (needUnpinned twoBuffers buf1.base buf1.size) = some () ∧ decSt.dec.sessions.map DecSession.handle = [0x40000001] := by decide +kernel

/-- A change of the session. -/
def onDec (f : DecSession → DecSession) (s : State) : State := { s with dec := { s.dec with sessions := s.dec.sessions.map f } }
/-- A command on it. -/
def decCmd (ps : List Nat) (aux : Nat := 0) : Cmd := mk ps 0x40000001 aux
/-- DEC_SUBMIT of 16 bytes of the first buffer. -/
def submit16 : Cmd := Cmd.inDev (decCmd [0] 0x10000001) 0x280000000 16

/-- A picture that begins a stream. -/
def irap : DecPicInfo :=
  { poc := 0, irap := true, newSeq := true, rasl := false, rps := [], needs := [], width := 64, height := 64, cropX := 0, cropY := 0, cropW := 64, cropH := 64, depth := 8,
    ctu := 64, attr := 0, reorder := 0, latency := none, dpb := 1, output := true, noPrior := false }

theorem test_dec_submit : acc .decSubmit submit16 decSt = true ∧ decSt.buffer 0x10000001 = some buf0 ∧
    rangeFault decSt submit16.ptr.toNat submit16.ptrLen.toNat (some (buf0.base, buf0.size)) = none ∧
    (decSt.dec.sessions.map (fun e => (e.faulted, e.closing))) = [(false, none)] ∧
    decSt.stopping (ref .decSubmit submit16) = false ∧
    (after (exec (.decSubmit submit16 [.lost 3, .lost 15]) decSt)).dec.sessions.map (fun e => (e.begun, e.offset)) = [(2, 16)] := by decide +kernel

/-- A parameter set of a kind that the session's capacity takes. -/
def smallSps : DecSps := { profile := 0, level := 30, width := 64, height := 64, depth := 8, dpb := 1, chroma := 1 }

theorem test_dec_begins : (after (exec (.decSubmit submit16 [.set 0 .sps 0 false smallSps, .set 1 .pps 0 false smallSps, .begin_ 2 0 0 irap]) decSt)).dec.sessions.map
    (fun e => (e.begun, e.waiting.length, e.cnt.lost)) = [(1, 1, 0)] ∧
    (after (exec (.decSubmit submit16 [.set 0 .sps 0 false { smallSps with width := 128 }, .set 1 .pps 0 false smallSps, .begin_ 2 0 0 irap]) decSt)).dec.sessions.map
    (fun e => (e.waitIrap, e.waiting.length, e.cnt.lost)) = [(true, 0, 1)] := by decide +kernel

/-- A reset of its queue has asked the command to stop. -/
def decStops : State := decSt.mapQueue 0 (fun k => { k with live := true, inFlight := [{ ent := 0, ref := ref .decSubmit submit16, stop := true }] })

theorem test_dec_stops : acc .decSubmit submit16 decStops = true ∧ decStops.stopping (ref .decSubmit submit16) = true ∧
    decStops.dec.sessions.map (fun e => (e.faulted, e.closing)) = [(false, none)] := by decide +kernel

theorem test_dec_release : acc .decSubmit (decCmd [1, 5]) decSt = true := by decide +kernel

theorem test_dec_drain : acc .decSubmit (decCmd [2]) decSt = true ∧ decSt.stopping (ref .decSubmit (decCmd [2])) = false ∧ decSt.dec.sessions.map DecSession.pending = [0] := by decide +kernel

theorem test_dec_close : acc .decSessionClose (decCmd [0]) decSt = true ∧ decSt.layerOn 0x40000001 = none ∧ decSt.dec.sessions.map DecSession.closing = [none] := by decide +kernel

/-- A whole picture waits. -/
def decWaits : State := onDec (fun e => { e with waiting := [.pic irap 0 true] }) decSt

theorem test_dec_start : (decWaits.mgmt.units.unitOf .decU 0).isSome = true ∧ decWaits.decBusy 0 = false ∧ decWaits.decPick = decWaits.dec.sessions.head? ∧
    (decWaits.dec.sessions.map (fun e => (e.curs, decWaits.mem.mem.poisonIn (e.base + f32 e.blk 0x1C) 4096))) = [([], none)] ∧
    (decWaits.dec.sessions.map (fun e => (e.takes irap).map (fun x => (x.2.1, x.2.2)))) = [some ([], 0, [])] ∧
    (after (exec (.decPictureStart 0) decWaits)).dec.sessions.map DecSession.decSeq = [1] := by decide +kernel

/-- Core 0 decodes it. -/
def decRuns : State := after (exec (.decPictureStart 0) decWaits)

theorem test_dec_runs : (decRuns.dec.sessions.map (fun e => (e.curs.find? (fun q => q.core == some 0)).map DecCur.info)) = [some irap] := by decide +kernel

/-- Its core has failed. -/
def decOrphan : State := onDec (fun e => { e with curs := e.curs.map (fun q => { q with core := none }) }) decRuns

theorem test_dec_restart : decOrphan.decPick = decOrphan.dec.sessions.head? ∧ decOrphan.decBusy 1 = false ∧ (decOrphan.mgmt.units.unitOf .decU 1).isSome = true ∧
    (decOrphan.dec.sessions.map (fun e => e.curs.any (fun q => q.core.isNone && q.ended.isNone))) = [true] := by decide +kernel

/-- A picture of the pool. -/
def held0 : DecHeld := { poc := 0, seqNo := 1, slot := 0, info := irap, decSeq := 0, flags := 0, ctus := 0, needed := false, usedRef := false, latency := 0, decodedAt := 0 }
/-- The session has it due for output. -/
def decDue (used : Bool) : State := onDec (fun e => { e with outs := [{ pic := held0, pts := 0 }], ring := { e.ring with slots := e.ring.slots.map (fun x => { x with used := used }) } })
  { decSt with time := { decSt.time with now := 5000000 * 2 ^ 32 } }

theorem test_dec_output : ((decDue false).dec.sessions.map (fun e => (e.ringHeld, e.faulted, e.outs.length))) = [(false, false, 1)] ∧
    (after (exec (.decPictureOutput 0x40000001 none) (decDue false))).dec.sessions.map DecSession.outSeq = [1] := by decide +kernel

theorem test_dec_skip : ((decDue true).dec.sessions.map (fun e => (e.ringHeld && dbPaced e.blk && e.closing.isNone && !e.faulted && decide (0 + dbPeriod e.blk ≤ (decDue true).ns), e.waiting))) = [(true, [])] := by
  decide +kernel

/-- The session is closing, and its picture has waited 1 s for a slot. -/
def decEnds : State :=
  onDec (fun e => { e with closing := some none, headSince := some (0, 0) }) { decDue true with time := { (decDue true).time with now := 1000000000 * 2 ^ 32 } }

theorem test_dec_slot_timeout : (decEnds.dec.sessions.map (fun e => (e.ringHeld, e.closing, e.outs.length, decide ((e.headSince.map (·.2)).getD 0 + 1000000000 ≤ decEnds.ns)))) = [(true, some none, 1, true)] := by decide +kernel

theorem test_core_fault : decRuns.mgmt.units.unitOf .decU 0 = some 0 ∧ ((after (exec (.decCoreFault 0) decRuns)).mgmt.units.unit .decU 0).state = .fenced := by decide +kernel

/-! ### CooperJobsRun -/

/-- A job descriptor: one byte at the start of the first buffer to 64 bytes at the start of the second. -/
def jobBlock (n : Nat) : List Byte := layout 32 [(1, 1, 16), (0x18, 4, n), (0x1C, 4, 64)]
/-- The command. -/
def jobCmd (n : Nat) : Cmd := mk [] 0x10000001 0x10000002 (jobBlock n)

theorem test_cmp_submit : acc .cmpJob (jobCmd 1) twoBuffers = true ∧ acc .cmpExpand (jobCmd 48) twoBuffers = true ∧ got (structBytes twoBuffers (jobCmd 1)) = some (jobBlock 1) ∧
    firstBad (jobFields (jobBlock 1) false) = none ∧ firstBad (jobFields (jobBlock 48) true) = none ∧ got (needInBuffer twoBuffers buf0 0 1) = some buf0.base ∧
    got (needInBuffer twoBuffers buf1 0 64) = some buf1.base ∧ got (needUnpinned twoBuffers buf1.base 64) = some () ∧ Inv twoBuffers ∧
    twoBuffers.stopping (ref .cmpJob (jobCmd 1)) = false ∧ twoBuffers.stopping (ref .cmpExpand (jobCmd 48)) = false ∧
    (after (exec (.cmpJob (jobCmd 1)) twoBuffers)).cmp.queue.length = 1 := by unfold Inv; decide +kernel

/-- The compression job waits. -/
def jobWaits : State := after (exec (.cmpJob (jobCmd 1)) twoBuffers)

theorem test_cmp_take : jobWaits.cmp.engines[0] = none ∧ (jobWaits.mgmt.units.unitOf .cmpU 0).isSome = true ∧ jobWaits.tapJobs = [] ∧ jobWaits.cmp.queue ≠ [] := by decide +kernel

/-- Engine 0 compresses. -/
def jobRuns : State := after (exec (.cmpEngineDispatch 0 false) jobWaits)

theorem test_cmp_runs : (jobRuns.cmp.engines[0].map (fun j => (j.why, j.src, j.srcLen, j.dstLen))) = some (.command (ref .cmpJob (jobCmd 1)) false, buf0.base, 1, 64) ∧
    jobRuns.mem.mem.poisonIn buf0.base 1 = none ∧ jobRuns.stopping (ref .cmpJob (jobCmd 1)) = false ∧ Inv jobRuns := by unfold Inv; decide +kernel

/-- A framed block of one byte 7 that is not coded. -/
def rawBlock : List Byte := cooperFrame 0 5 16 0 true 0 [7]

/-- Engine 0 expands that block. -/
def expandRuns : State := after (exec (.cmpEngineDispatch 0 false) (after (exec (.cmpExpand (jobCmd 48)) (twoBuffers.writeMem buf0.base rawBlock))))

/-- Whether blocks parse and expand to one byte 7. -/
def expandOk (src : List Byte) : Bool :=
  match cooperHeads src (src.length + 1) 0 with
  | .error _ => false
  | .ok hs => decide (sumNat (hs.map CooperHead.orig) ≤ 64) && (match expandAll src hs with
    | .ok o => decide (o = [7])
    | .error _ => false)

theorem test_cmp_expand : (expandRuns.cmp.engines[0].map CmpJob.why) = some (.command (ref .cmpExpand (jobCmd 48)) true) ∧ expandRuns.mem.mem.poisonIn buf0.base 48 = none ∧
    expandRuns.readMem buf0.base 48 = rawBlock ∧
    expandOk rawBlock = true := by decide +kernel

theorem test_cmp_fault : jobRuns.mgmt.units.unitOf .cmpU 0 = some 0 ∧ jobRuns.mgmt.units.unitOf .cmpU 1 = some 1 ∧ jobRuns.cmp.engines[1] = none ∧
    ((after (exec (.cmpEngineFault 0) jobRuns)).mgmt.units.unit .cmpU 0).state = .fenced := by decide +kernel

theorem cooperFrame_length (mode level log2 index : Nat) (plain : Bool) (zeroed : Nat) (bytes : List Byte) :
    (cooperFrame mode level log2 index plain zeroed bytes).length ≤ 40 + roundUp bytes.length 8 := by
  have h : ∀ raw p o pay crc, (cooperHeader mode raw p log2 o pay crc index zeroed).length ≤ 40 := by
    intro raw p o pay crc
    simp [cooperHeader, layout, patch, leBytes, zeros]
  unfold cooperFrame
  simp only [List.length_append]
  refine Nat.add_le_add (h _ _ _ _ _) ?_
  simp only [padTo, zeros, List.length_take, List.length_append, List.length_replicate]
  refine Nat.le_trans (Nat.min_le_left _ _) ?_
  split
  · next hc =>
    simp only [Bool.and_eq_true, decide_eq_true_eq] at hc
    unfold roundUp
    have := Nat.div_le_div_right (c := 8) (show (cooperCoded mode level log2 bytes).length + 8 - 1 ≤ bytes.length + 8 - 1 by omega)
    omega
  · exact Nat.le_refl _

theorem test_cmp_fits (m : Memory) (a : Nat) : (cooperBlocks m 0 5 16 false false a 1).flatten.length ≤ 64 := by
  have e : cooperBlocks m 0 5 16 false false a 1 = [cooperFrame 0 5 16 0 false 0 [m.byte (a + 0 * 2 ^ 16 + 0)]] := rfl
  have h : (cooperFrame 0 5 16 0 false 0 [m.byte (a + 0 * 2 ^ 16 + 0)]).length ≤ 40 + roundUp 1 8 := cooperFrame_length 0 5 16 0 false 0 _
  have h2 : 40 + roundUp 1 8 = 48 := by decide
  rw [e]
  simp only [List.flatten_cons, List.flatten_nil, List.append_nil]
  omega

/-! ### CompressedBlocksExpandToTheSource -/

theorem test_cooper_operands : 0 < 2 ∧ 16 ≤ 16 ∧ 16 ≤ 24 ∧ (cooperBlocks State.reset.mem.mem 0 5 16 true false 0 1).length = 1 := by decide +kernel

end Sys2Proof.Tests
end

