-- ==== Sys2Proof/Tests/DeviceWitness.lean ====
section
/-!
SUPPORT. States and operands that meet the hypotheses of the statements about the registers, the memory system, and power and boot, clause by
clause.
-/
namespace Sys2Proof.Tests

set_option Elab.async false

open Sys2Proof.Machine

/-! ### RegisterWritesHaveTheirStatedEffect, BadBarZeroAccessHasNoEffect -/

theorem test_register_writes : State.reset.bar0Up = true ∧ State.reset.power.phase ≠ .off ∧
    (after (exec (.registerWrite (.bar0 0x008 false 0x0FFF0001)) State.reset)).host.acqs = 0xFFF ∧
    (after (exec (.registerWrite (.bar0 0x020 true (2 ^ 28))) State.reset)).host.bar2Base = 2 ^ 28 ∧
    (after (exec (.registerWrite (.bar2Size 36)) State.reset)).host.bar2Log2 = 36 ∧
    (after (exec (.registerWrite (.smbus 0x03 0x1FFFF)) State.reset)).mgmt.smb.alertMask = 0xFFFF := by decide +kernel

theorem test_register_offsets : (0x040 ≤ 0x040 ∧ 0x040 < 0x1000) ∧ (0x040 ≤ 0xFFC ∧ 0xFFC < 0x1000) ∧ 0x02 % 4 ≠ 0 ∧ 0x0C % 8 ≠ 0 ∧
    (after (exec (.registerWrite (.bar0 0xFFC false 5)) State.reset)) = State.reset := by
  refine ⟨by decide, by decide, by decide, by decide, rfl⟩

/-- The link has trained, and the part is not yet ready for commands. -/
def linkOnly : State := { State.reset with power := { State.reset.power with phase := .inReset, linkTrained := true } }

theorem test_bad_access_before_ready : linkOnly.bar0Up = true ∧ linkOnly.ready = false ∧
    (after (exec (.bar0BadAccess true) linkOnly)).out = [.readData (2 ^ 64 - 1)] := by decide +kernel

/-! ### BarTwoAccessesReachDeviceMemory -/

theorem test_bar2_inside : let s := { State.reset with host := { State.reset.host with bar2Base := 0x280000000 } }; s.ready = true ∧ s.mem.mem.wf = true ∧
    s.power.cur = .ps0 ∧ (2 ^ 28 - 1) + 1 ≤ 2 ^ s.host.bar2Log2 ∧ s.mem.retired = [] ∧ s.mem.mem.poisonIn 0x280000000 1 = none ∧
    Config.heapBase ≤ s.host.bar2Base ∧ ((after (exec (.bar2Write 0 [5]) s)).mem.mem.byte 0x280000000) = 5 := by decide +kernel

theorem test_bar2_below_the_heap : State.reset.host.bar2Base + 0 < Config.heapBase ∧ (after (exec (.bar2Write 0 [5]) State.reset)).mem.bar2Discarded = 1 := by
  decide +kernel

theorem test_bar2_poisoned : let s := { State.reset with mem := { State.reset.mem with mem := { cells := [], marks := [0] } } };
    s.mem.mem.poisonIn 0 1 ≠ none ∧ s.mem.mem.wf = true := by decide +kernel

theorem test_bar2_asleep : let s := { State.reset with power := { State.reset.power with cur := .ps2 } }; s.ready = true ∧
    ¬ (s.power.cur = .ps0 ∨ s.power.cur = .ps1) ∧ (after (exec (.bar2Read 0 1) s)).out = [.unsupportedRequest] := by decide +kernel

/-! ### TimeRegistersSnapshotAndAsymmetry -/

theorem test_time_asymmetry : (-65536000 ≤ (65536000 : Word).toInt ∧ (65536000 : Word).toInt ≤ 65536000) ∧
    ¬ ((65536001 : Word).toInt ≤ 65536000) ∧ (after (exec (.timeAsymWrite 0 65536001) State.reset)).time.paramErr = true := by decide +kernel

/-! ### SideBandRequestsAreAnswered -/

theorem test_side_band : let s := State.reset.logError {}; s.power.phase ≠ .off ∧ (s.mgmt.errors.entries.find? (fun e => e.seq.toNat == 1)).isSome = true ∧
    (after (exec (.mctpLogRequest 1) s)).out.length = 1 := by decide +kernel

theorem test_alert_low : let s := { State.reset with mgmt := { State.reset.mgmt with smb := { State.reset.mgmt.smb with alertMask := 0xFFFF, err := true } } };
    s.alertLow = true ∧ (after (exec .alertResponse s)).out.length = 1 := by decide +kernel

/-! ### BufferPlacementIsTheLowestFreeRange, BufAllocAndBufFree -/

theorem test_lowest_free : twoBuffers.mem.lowestFree 4096 4096 = some 0x288000000 ∧ State.reset.mem.lowestFree 1 1 = some 0x280000000 := by decide +kernel

theorem test_no_room : State.reset.mem.lowestFree (Config.heapEnd - Config.heapBase + 1) 4096 = none := by decide +kernel

theorem test_buf_alloc : let c := mk [1, 0, 0x100 + 12]; acc .bufAlloc c State.reset = true ∧ par64 c 0 = 1 ∧ par c 2 % 32 = 12 ∧ par c 2 / 256 % 2 = 1 ∧
    State.reset.mem.lowestFree 4096 (2 ^ 12) = some 0x280000000 ∧ (after (exec (.bufAlloc c) State.reset)).mem.buffers.length = 1 := by decide +kernel

/-- A command in flight on queue 0 that a reset of its queue has told to stop. -/
def stopped (op : Op) (c : Cmd) (s : State) : State :=
  s.mapQueue 0 (fun k => { k with live := true, inFlight := [{ ent := 0, ref := ref op c, stop := true }] })

theorem test_buf_alloc_stops : let c := mk [1, 0, 0x100 + 12]; let s := stopped .bufAlloc c State.reset; acc .bufAlloc c s = true ∧
    s.stopping (ref .bufAlloc c) = true ∧ State.reset.stopping (ref .bufAlloc c) = false ∧ (after (exec (.bufAlloc c) s)).mem.buffers = [] := by decide +kernel

theorem test_buf_free : let c := mk [] 0x10000002; acc .bufFree c twoBuffers = true ∧ twoBuffers.buffer c.handle = some buf1 ∧ twoBuffers.bufferInUse buf1 = false ∧
    twoBuffers.mem.pendingRet = [] ∧ (after (exec (.bufFree c) twoBuffers)).mem.buffers = [buf0] := by decide +kernel

/-- Queue 2 lies in the first buffer. -/
def bufferWithQueue : State := withQueue 2 { queue16 with handle := 0x90000002, sq := .devMem 0x280000000 } twoBuffers

theorem test_buf_free_in_use : acc .bufFree (mk [] 0x10000001) bufferWithQueue = true ∧ bufferWithQueue.bufferInUse buf0 = true := by decide +kernel

/-! ### BufCopyAndBufFillStoreTheirBytes, BufCheckComparesTheCrc -/

/-- Two buffers with one byte and one marked line in the first. -/
def someBytes : State := { twoBuffers with mem := { twoBuffers.mem with mem := { cells := [(0x280000000, 9)], marks := [0x280000040 / 64] } } }

theorem test_buf_copy : let c := mk [0, 0, 0, 0, 128, 0] 0x10000001 0x10000002; acc .bufCopy c someBytes = true ∧ someBytes.mem.mem.wf = true ∧
    someBytes.buffer c.handle = some buf0 ∧ someBytes.buffer c.aux = some buf1 ∧ got (needInBuffer someBytes buf0 (par64 c 0) 128) = some 0x280000000 ∧
    got (needInBuffer someBytes buf1 (par64 c 2) 128) = some 0x284000000 ∧ c.handle ≠ c.aux ∧ got (needUnpinned someBytes 0x284000000 128) = some () ∧
    (after (exec (.bufCopy c) someBytes)).mem.mem.byte 0x284000000 = 9 ∧ coversLine 0x284000000 128 (0x284000040 / 64) = true ∧
    (after (exec (.bufCopy c) someBytes)).mem.mem.marked 0x284000040 = true := by decide +kernel

theorem test_buf_fill : let c := mk [4, 0, 64, 0, 0x04030201] 0x10000001; acc .bufFill c someBytes = true ∧ par64 c 0 % 4 = 0 ∧ par64 c 2 % 4 = 0 ∧
    got (needInBuffer someBytes buf0 4 64) = some 0x280000004 ∧ got (needUnpinned someBytes 0x280000004 64) = some () ∧
    (after (exec (.bufFill c) someBytes)).mem.mem.byte 0x280000005 = 2 ∧ (after (exec (.bufFill c) someBytes)).mem.mem.byte 0x280000000 = 9 := by decide +kernel

theorem test_buf_copy_stops : let c := mk [0, 0, 0, 0, 128, 0] 0x10000001 0x10000002; let s := stopped .bufCopy c twoBuffers; acc .bufCopy c s = true ∧
    s.stopping (ref .bufCopy c) = true ∧ someBytes.stopping (ref .bufCopy c) = false ∧ got (needUnpinned s 0x284000000 128) = some () := by decide +kernel

theorem test_buf_fill_stops : let c := mk [4, 0, 64, 0, 0x04030201] 0x10000001; let s := stopped .bufFill c twoBuffers; acc .bufFill c s = true ∧
    s.stopping (ref .bufFill c) = true ∧ someBytes.stopping (ref .bufFill c) = false ∧ got (needUnpinned s 0x280000004 64) = some () := by decide +kernel

theorem test_buf_check_stops : let c := mk [0, 0, 4, 0, 0, 0] 0x10000001; let s := stopped .bufCheck c twoBuffers; acc .bufCheck c s = true ∧
    s.stopping (ref .bufCheck c) = true ∧ someBytes.stopping (ref .bufCheck c) = false ∧ got (needInBuffer s buf0 0 4) = some 0x280000000 := by decide +kernel

theorem test_buf_check : let c := mk [0, 0, 4, 0, 0, 0] 0x10000001; acc .bufCheck c someBytes = true ∧ someBytes.mem.mem.poisonIn 0x280000000 4 = none ∧
    got (needInBuffer someBytes buf0 0 4) = some 0x280000000 ∧ par c 5 % 2 = 0 := by decide +kernel

theorem test_buf_check_mismatch : let c := mk [0, 0, 4, 0, 1, 1] 0x10000001; acc .bufCheck c someBytes = true ∧ par c 5 % 2 = 1 ∧
    crc32c (someBytes.mem.mem.read 0x280000000 4) ≠ par c 4 := by decide +kernel

theorem test_buf_check_poisoned : acc .bufCheck (mk [0, 0, 128, 0, 0, 0] 0x10000001) someBytes = true ∧
    someBytes.mem.mem.poisonIn 0x280000000 128 = some 0x280000040 := by decide +kernel

/-! ### SpeedChangesMoveTheStacksInOrder -/

theorem test_mem_set_speed : acc .memSetSpeed (mk [0]) State.reset = true ∧ (∀ i : Fin 4, State.reset.mem.speeds[i] = 0) ∧ State.reset.power.cur = .ps0 ∧
    State.reset.mem.change = none ∧ State.reset.power.moving = none ∧ State.reset.mem.retired = [] ∧ State.reset.power.throttled = false := by decide +kernel

theorem test_mem_set_speed_starts : acc .memSetSpeed (mk [2]) State.reset = true ∧ (∃ i : Fin 4, State.reset.mem.speeds[i] ≠ 2) ∧
    ((after (exec (.memSetSpeed (mk [2])) State.reset)).mem.change.map SpeedChange.target) = some 2 := by decide +kernel

/-- The first camera context runs, and a line store's worth of bytes has just come in. -/
def running (s : State) : State := (s.mapCam 0 (fun c => { c with state := .running })).mapCams (fun c => { c with ingest := [(s.time.ticks, 6291456)] })

/-- A speed change at a stack. -/
def changing (n : Nat) : State :=
  { State.reset with mem := { State.reset.mem with change := some { target := 2, next := n, waived := false, by_ := [] } } }

theorem test_stack_speed_change : 25000 ≤ (changing 0).slack ∧ 25000 ≤ (changing 3).slack ∧ (changing 0).mem.change.map SpeedChange.waived = some false ∧ (running (changing 0)).slack = 10000 ∧
    (after (exec (.stackSpeedChange 3) (changing 3))).mem.change = none := by decide +kernel

/-! ### RefreshFollowsTheTable, RetrainingSlotsRepairRetrainOrDefer -/

/-- A pseudo-channel in place of number 5. -/
def withPc (x : PseudoChannel) : State := { State.reset with mem := { State.reset.mem with pcs := State.reset.mem.pcs.set 5 x } }

/-- A transaction of the live class on pseudo-channel 5. -/
def onFive : FabTxn :=
  { tag := 0, age := 0, cam := 0, cls := .live, role := .ostler, epoch := 1, src := .bandWrite, pc := 5, bytes := 64, write := true }
/-- A fabric with that transaction. -/
def busyFive (s : State) : State := { s with fab := { FabSt.reset with txns := [onFive] } }

theorem test_refresh_due : (State.reset.mem.pcs[5]).state ≠ .retired ∧ State.reset.power.cur ≠ .ps2 ∧ State.reset.power.cur ≠ .ps3 ∧
    (State.reset.mem.pcs[5]).postponed < 8 ∧ State.reset.fab.txns = [] ∧
    ((after (exec (.refreshDue 0 5) (busyFive State.reset))).mem.pcs[5]).postponed = 1 := by decide +kernel

theorem test_refresh_forced : let s := withPc { PseudoChannel.reset with postponed := 8 }; (s.mem.pcs[5]).postponed = 8 ∧ s.mem.change = none ∧
    25000 ≤ s.slack ∧ (after (exec (.refreshDue 0 5) (busyFive s))).mem.cnt.forced = 1 ∧ ((after (exec (.refreshDue 0 5) s)).mem.pcs[5]).postponed = 7 ∧
    ((after (exec (.makeUpBurst 0 5) s)).mem.pcs[5]).postponed = 0 := by decide +kernel

/-- A slice access with its deadline 100 µs ahead, over the end of a granule. -/
def sliceRead : FabReq :=
  { src := .slice, role := .slice 3, epoch := 1, cam := 0, addr := 128, len := 256, write := false, due := some 100000 }

theorem test_fabric_issues : FabSrc.slice.cls = .frame ∧ (FabSt.reset.issueOne (fun _ => 0) 0 0 sliceRead).1.txns.map (fun t => (t.tag, t.cls, t.bytes)) = [(0, .live, 128)] ∧
    (FabSt.reset.issueOne (fun _ => 0) 0 0 sliceRead).2.map FabReq.len = some 128 := by decide +kernel

theorem test_fabric_serves : (busyFive State.reset).fab.nextServed = [onFive] ∧ onFive.epoch = State.reset.fabEpoch onFive.role ∧
    { onFive with epoch := 2 }.epoch ≠ State.reset.fabEpoch .ostler ∧
    ((busyFive State.reset).serveOne onFive).fab.served.map FabDone.bytes = [64] ∧
    ((busyFive State.reset).serveOne { onFive with epoch := 2 }).fab.served = [] := by decide +kernel

theorem test_retraining_deferred : (State.reset.mem.pcs[5]).retrainDue = false ∧ (running State.reset).slack < 25000 ∧ (running State.reset).cameraRunning = true ∧
    ((after (exec (.retrainingSlot 0 5 true) (running State.reset))).mem.pcs[5]).retrainDue = true := by decide +kernel

theorem test_retraining_repairs : let s := withPc { PseudoChannel.reset with candidates := [{ row := 3, bank := 1 }] };
    25000 ≤ s.slack ∧ s.mgmt.policy.pprEn = true ∧ (s.mem.pcs[5]).repairedLast = false ∧
    ((s.mem.pcs[5]).candidates.find? (fun c => (s.mem.pcs[5]).used c.bank < 2)) = some { row := 3, bank := 1 } ∧
    ((after (exec (.retrainingSlot 0 5 true) s)).mem.pcs[5]).repairedLast = true := by decide +kernel

theorem test_retraining_runs : (State.reset.mem.pcs[5]).candidates.find? (fun c => (State.reset.mem.pcs[5]).used c.bank < 2) = none ∧
    25000 ≤ State.reset.slack := by decide +kernel

theorem test_retrain_retry : let s := withPc { PseudoChannel.reset with retrainDue := true }; (s.mem.pcs[5]).retrainDue = true ∧ 25000 ≤ s.slack ∧
    ((after (exec (.retrainRetry 0 5 true) s)).mem.pcs[5]).retrainDue = false := by decide +kernel

/-! ### ScrubAndTallies, RetirementTakesTheHighestRange -/

theorem test_scrub_read : (State.reset.mem.pcs[(Fin.ofNat 128 (State.reset.pcOf (9 * 64)))]).state ≠ .retired ∧ 9 ∉ State.reset.mem.mem.marks ∧
    (after (exec (.scrubRead 9 1 1 63 2 false) State.reset)).mem.mem.marks = [9] ∧
    (after (exec (.scrubRead 9 1 1 63 1 false) State.reset)).mem.cnt.corrected = 1 ∧
    (State.reset.mem.pcs[5]).watch.find? (fun w => w.row == 1 && w.bank == 1) = none ∧ 0 + 1 ≤ State.reset.mgmt.policy.tallyCap := by decide +kernel

theorem test_on_die_ecc : 0 + State.reset.mgmt.policy.tallyCap ≤ State.reset.mgmt.policy.tallyCap ∧
    (vget ((after (exec (.onDieEccPoll [(5, 63, 7)]) State.reset)).mem.pcs[5]).tallies Tally.zero 63).count = 7 := by decide +kernel

theorem test_retirement : let s := { State.reset with mem := { State.reset.mem with deadPcs := [5], buffers := [buf0] } }; s.mem.change = none ∧
    5 ∈ s.mem.deadPcs ∧ 5 ∉ s.mem.pendingRet ∧ (∀ b ∈ s.mem.buffers, overlaps (0x2400000000 - 0x48000000) 0x48000000 b.base b.size = false) ∧
    ((after (exec (.pcRetirement 5) s)).mem.pcs[5]).state = .retiring := by decide +kernel

theorem test_retirement_pending : let b : Buffer := { handle := 0x10000003, base := 0x23FF000000, size := 0x1000000 };
    let s := { State.reset with mem := { State.reset.mem with deadPcs := [5], buffers := [b] } };
    overlaps (0x2400000000 - 0x48000000) 0x48000000 b.base b.size = true ∧ ((after (exec (.pcRetirement 5) s)).mem.pcs[5]).state = .retirePending := by decide +kernel

theorem test_retirement_copy : let s := { State.reset with mem := { State.reset.mem with retired := [{ pc := 5, base := 0x23B8000000, copying := true }] } };
    (∃ r ∈ s.mem.retired, r.pc = 5 ∧ r.copying = true) ∧ (after (exec (.retirementCopyDone 5 [3]) s)).mem.mem.marks = [3] := by decide +kernel

/-! ### PwrSetStateChecksTheEntry, IdleTimersEnterPermittedStates -/

theorem test_pwr_set_state : acc .pwrSetState (mk [3]) State.reset = true ∧ State.reset.power.throttled = false ∧ State.reset.anythingRunning = false ∧
    State.reset.outstandingAll = 0 ∧ (after (exec (.pwrSetState (mk [3])) State.reset)).power.cur = .ps3 := by decide +kernel

theorem test_pwr_set_state_waits : acc .pwrSetState (mk [1]) State.reset = true ∧ State.reset.admittedRate ≤ 38400 ∧ State.reset.maxShare ≤ 2400 ∧
    (∃ i : Fin 4, State.reset.mem.speeds[i] ≠ Nat.max 1 State.reset.mem.setSpeed) ∧ (after (exec (.pwrSetState (mk [1])) State.reset)).power.cur = .ps1 := by
  decide +kernel

theorem test_pwr_set_state_running : acc .pwrSetState (mk [2]) (running State.reset) = true ∧ (running State.reset).anythingRunning = true := by decide +kernel

/-- Queue 3 with a command not yet fetched. -/
def notFetched : State := withQueue 3 { queue16 with handle := 0x90000003, sqTail := 1 } State.reset

theorem test_pwr_set_state_busy : acc .pwrSetState (mk [2]) notFetched = true ∧ notFetched.anythingRunning = false ∧ 0 < notFetched.outstandingAll := by decide +kernel

theorem test_idle_timers : let c := mk [2, 0, 3600000, 1]; acc .pwrSetIdleTimers c State.reset = true ∧ par c 2 ≤ 3600000 ∧
    (after (exec (.pwrSetIdleTimers c) State.reset)).power.timers[1] = 3600000 := by decide +kernel

/-- The first idle state is permitted. -/
def mayIdle : State := { State.reset with power := { State.reset.power with permitted := State.reset.power.permitted.set 0 true } }

theorem test_idle_timer_expiry : mayIdle.ready = true ∧ mayIdle.idle = true ∧ mayIdle.power.permitted[0] = true ∧ mayIdle.power.cur.code < 1 ∧
    mayIdle.entryHolds .ps1 = true ∧ (∀ m : Fin 3, 0 < m → ¬ (mayIdle.power.permitted[m] = true ∧ mayIdle.host.expired[m] = true)) ∧
    (after (exec (.idleTimerExpiry 0) mayIdle)).power.cur = .ps1 := by decide +kernel

theorem test_idle_timer_without_permission : (∀ m : Fin 3, State.reset.power.cur.code < m.val + 1 → State.reset.power.permitted[m] = false) ∧
    (after (exec (.idleTimerExpiry 2) State.reset)).power.cur = .ps0 := by decide +kernel

/-! ### ThrottleTripAndCoreFailure, ResetsLeaveNoObject, BootChoosesItsBank -/

theorem test_throttle : State.reset.power.phase = .running ∧ State.reset.power.throttled = false ∧ (∃ i : Fin 4, State.reset.mem.speeds[i] = 0) ∧
    (after (exec (.thermalThrottle 23) State.reset)).power.throttled = true := by decide +kernel

theorem test_throttle_end : let s := { State.reset with power := { State.reset.power with throttled := true, defState := some .ps1 } };
    s.power.throttled = true ∧ (after (exec .throttleEnd s)).power.cur = .ps1 := by decide +kernel

theorem test_trip_and_core_failure : State.reset.power.phase ≠ .off ∧ State.reset.power.phase ≠ .inReset ∧
    (after (exec (.thermalTrip 0) State.reset)).power.phase = .coreDown ∧ (after (exec .vddCoreFailure State.reset)).mgmt.smb.coreDown = true := by decide +kernel

/-- RESET_N is low. -/
def inReset : State := { State.reset with power := { State.reset.power with phase := .inReset } }

theorem test_resets : (after (exec .deviceReset State.reset)).power.phase = .inReset ∧ (after (exec .powerDown State.reset)).power.phase = .off ∧
    (after (exec (.pcieLinkTraining 16 4) State.reset)).out = [.aer true] := by decide +kernel

theorem test_boot : inReset.power.phase = .inReset ∧ inReset.mgmt.fw.trial = false ∧ (inReset.mgmt.fw.bank inReset.mgmt.fw.bootBank).empty = false ∧
    (inReset.mgmt.fw.bank inReset.mgmt.fw.bootBank).failed = false ∧ (after (exec (.boot true 0 0 [] [] [] []) inReset)).power.phase = .running := by decide +kernel

theorem test_boot_second_bank : let f := { inReset.mgmt.fw with bankB := { inReset.mgmt.fw.bankA with failed := false } };
    let s := { inReset with mgmt := { inReset.mgmt with fw := f } }; ¬ (2 = 0) ∧ (s.mgmt.fw.bank 1).empty = false ∧ (s.mgmt.fw.bank 1).failed = false ∧
    (after (exec (.boot true 2 0 [] [] [] []) s)).mgmt.fw.active = 1 ∧ (after (exec (.boot true 2 2 [] [] [] []) s)).power.phase = .recovery := by decide +kernel

end Sys2Proof.Tests
end

