-- ==== Sys2Proof/Tests/PipelineWitness.lean ====
section
/-!
SUPPORT. States and operands that meet the hypotheses of the statements about the staged set, rings and applies, clause by clause.
-/
namespace Sys2Proof.Tests

set_option Elab.async false

open Sys2Proof.Machine

/-- A command on context 0, with a buffer as its AUX object. -/
def camCmd (ps : List Nat) (host : List Byte := []) (aux : Nat := 0) (flags : Nat := 0) : Cmd := mk ps 0x20000001 aux host flags

/-- The content that the next start of frame latches in context 0. -/
def next0 (s : State) : ParamSet := (s.cam 0).next

/-! ### StagingCommandsReplaceTheStagedSet -/

/-- White balance limits of 1.0. -/
def stage2 : List Byte := layout 16 [(2, 2, 0x1000), (4, 2, 0x1000)]

theorem test_stage : let s := camWith ozoth; let c := camCmd [0x102] stage2; s.cams.find c.handle = some 0 ∧ acc .rawSetStage c s = true ∧ got (structFor s c (.read (stageSize 2))) = some stage2 ∧
    firstBad (stageFields (s.cam 0).profile stage2 2) = none ∧ stageNeeds (next0 s) (s.cam 0).profile stage2 2 true = none ∧
    (vget (next0 (after (exec (.rawSetStage c) s))).stages { on := false, blk := [] } 2).on = true := by decide +kernel

/-- Temporal noise reduction. -/
def stage5 : List Byte := layout 16 [(2, 2, 0x800)]

/-- A noise table is loaded. -/
def withNoise : State := onCam (fun x => { x with next := { x.next with tables := x.next.tables.set 4 (some { addr := 0x287000000, len := 68 }) } }) (camWith ozoth)

theorem test_stage_5 : let s := withNoise; let c := camCmd [0x305] stage5 0x10000002; acc .rawSetStage c s = true ∧ got (structFor s c (.read (stageSize 5))) = some stage5 ∧
    firstBad (stageFields (s.cam 0).profile stage5 5) = none ∧ stageNeeds (next0 s) (s.cam 0).profile stage5 5 true = none ∧ s.buffer c.aux = some buf1 ∧
    2 * (pfH (s.cam 0).profile * stride16 (s.cam 0).profile) ≤ buf1.size ∧
    got (needRing s c.handle 0x420 buf1.base (2 * (pfH (s.cam 0).profile * stride16 (s.cam 0).profile))) = some () ∧
    (next0 (after (exec (.rawSetStage c) s))).tnrBuf = 0x284000000 := by decide +kernel

/-- A lens table of 2 × 2 gains of one channel, with a CRC that is wrong by d. -/
def lensTable (d : Nat) : List Byte :=
  let gains := zeros 8
  layout 32 [(0, 1, 2), (1, 1, 1), (4, 2, 2), (6, 2, 2), (8, 4, 8), (0x0C, 4, crc32c gains + d)] ++ gains

/-- The table lies in the second buffer. -/
def withFile (t : List Byte) (s : State) : State := s.writeMem 0x284000000 t

/-- A command that loads what lies there. -/
def loadCmd (ps : List Nat) (n : Nat) : Cmd := Cmd.inDev (camCmd ps [] 0x10000002) 0x284000000 n

theorem test_load_table : let t := lensTable 0; let s := withFile t (camWith ozoth); let c := loadCmd [2] 40; acc .rawLoadTable c s = true ∧
    got (tableBytes s c 32 (fun t => 32 + f32 t 8)) = some t ∧ crc32c (t.drop 32) = f32 t 0x0C ∧ firstBad (tableFields (s.cam 0).profile t 2) = none ∧
    vget (next0 (after (exec (.rawLoadTable c) s))).tables none 2 = some { addr := 0x284000000, len := 40 } := by decide +kernel

theorem test_load_table_mismatch : let t := lensTable 1; let s := withFile t (camWith ozoth); let c := loadCmd [2] 40; acc .rawLoadTable c s = true ∧
    got (tableBytes s c 32 (fun t => 32 + f32 t 8)) = some t ∧ crc32c (t.drop 32) ≠ f32 t 0x0C := by decide +kernel

theorem test_matrix : let s := camWith ozoth; let c := camCmd [] (zeros 112); acc .clrSetMatrix c s = true ∧ got (structBytes s c) = some (zeros 112) ∧
    firstBad (matrixFields (s.cam 0).profile (zeros 112)) = none ∧ firstBad (matrixFields (s.cam 0).profile (patch (zeros 112) 8 (leBytes 4 0x42800001))) = some 8 ∧
    (next0 (after (exec (.clrSetMatrix c) s))).matrix = zeros 112 := by decide +kernel

theorem test_spectral : let s := camWith ozoth; let b := zeros 96; let c := camCmd [] b; acc .clrSetSpectral c s = true ∧ got (structBytes s c) = some b ∧
    (∀ u : Fin 4, ∀ ch : Fin 4, f16 b (0x30 + 10 * u.val + 2 * ch.val) = 0) ∧ s.setFaults (s.cam 0).profile { next0 s with spectral := b } .other = [] ∧
    (next0 (after (exec (.clrSetSpectral c) s))).spectral = b := by decide +kernel

theorem test_no_look : let s := camWith ozoth; let c := camCmd []; acc .clrLoadLut3d c s = true ∧ acc .clrLoadCurve c s = true ∧ got (structFor s c .none) = some [] ∧
    s.setFaults (s.cam 0).profile { next0 s with look := none } .other = [] ∧
    s.setFaults (s.cam 0).profile { next0 s with curves := vmod (next0 s).curves 0 (fun _ => none) } .other = [] ∧
    (next0 (after (exec (.clrLoadLut3d c) s))).look = none := by decide +kernel

/-! ### RingsAndAppliesAreConfigured -/

theorem test_tap : let s := camWith ozoth; let c := camCmd [0x0000, 2, 1] [] 0x10000002; acc .rawTap c s = true ∧ vget (s.cam 0).tapOwner 0 0 = 0 ∧
    tapFormatOk (s.cam 0).profile 0 0 = true ∧ s.buffer c.aux = some buf1 ∧ 2 * tapSlotSize (s.cam 0).profile 0 0 ≤ buf1.size ∧
    got (needRing s c.handle 0x410 buf1.base (2 * tapSlotSize (s.cam 0).profile 0 0)) = some () ∧
    (vget (next0 (after (exec (.rawTap c) s))).taps none 0).isSome = true := by decide +kernel

theorem test_tap_release : let s := camWith ozoth; acc .rawTap (camCmd [1]) s = true ∧ acc .rawTap (camCmd [2]) s = true := by decide +kernel

/-- An output in grey of 8 bits with two slots. -/
def greyOut : List Byte := layout 32 [(0, 1, 7), (2, 1, 1), (3, 1, 2), (8, 1, 1)]

theorem test_output : let s := camWith ozoth; let c := camCmd [0] greyOut 0x10000002; let p := (s.cam 0).profile; acc .clrSetOutput c s = true ∧ got (structFor s c (.read 32)) = some greyOut ∧
    vget (s.cam 0).consumers [] 0 = [] ∧ firstBad (outputFields p greyOut) = none ∧ s.buffer c.aux = some buf1 ∧ 2 * outSlotSize p 0 greyOut ≤ buf1.size ∧
    got (needRing s c.handle 0x520 buf1.base (2 * outSlotSize p 0 greyOut)) = some () ∧
    s.setFaults p { next0 s with outs := vmod (next0 s).outs 0 (fun _ => some { id := 1, blk := greyOut, slots := 2, every := 1, hostRead := false, base := buf1.base, slotSize := outSlotSize p 0 greyOut }) } (.output 0) = [] ∧
    (vget (next0 (after (exec (.clrSetOutput c) s))).outs none 0).isSome = true := by decide +kernel

theorem test_output_release : let s := camWith ozoth; acc .clrSetOutput (camCmd [0x100]) s = true ∧ acc .clrSetOutput (camCmd [0x200]) s = true ∧
    got (structFor s (camCmd [0x100]) .none) = some [] ∧ got (structFor s (camCmd [0x200]) .none) = some [] ∧
    s.setFaults (s.cam 0).profile { next0 s with outs := vmod (next0 s).outs 0 (fun _ => none) } (.output 0) = [] := by decide +kernel

/-- Statistics of one zone, two slots. -/
def stat0 : List Byte := layout 32 [(1, 1, 2), (2, 1, 1), (3, 1, 1)]

theorem test_statistics : let s := camWith ozoth; let c := camCmd [0] stat0 0x10000002; let p := (s.cam 0).profile; acc .statConfigure c s = true ∧ got (structFor s c (.read 32)) = some stat0 ∧
    firstBad (statFields p stat0) = none ∧ s.buffer c.aux = some buf1 ∧ 2 * statSlotSize stat0 ≤ buf1.size ∧
    got (needRing s c.handle 0x530 buf1.base (2 * statSlotSize stat0)) = some () ∧ (next0 (after (exec (.statConfigure c) s))).stats.isSome = true := by decide +kernel

theorem test_statistics_release : let s := camWith ozoth; acc .statConfigure (camCmd [1]) s = true ∧ acc .statConfigure (camCmd [2]) s = true ∧
    got (structFor s (camCmd [1]) .none) = some [] := by decide +kernel

/-- An apply block that sets the mix alone, to 0. -/
def mix : List Byte := layout 96 [(0, 4, 0x400)]
/-- EXP_APPLY of that block. -/
def applyMix (ps : List Nat) (flags : Nat := 0) : Cmd := camCmd ps mix 0 flags
/-- Context 0 runs and its frames of 1 ms start at time 0. -/
def timed : State := runningWith ozoth

theorem test_apply_idle : let s := camWith ozoth; let c := applyMix [0, 0]; acc .expApply c s = true ∧ got (structBytes s c) = some mix ∧
    firstBad (applyFields (s.cam 0).profile (s.cam 0).limits mix) = none ∧ got (needRoles s (s.cam 0) mix) = some () ∧ (s.cam 0).state = .configured ∧
    (s.cam 0).applies.length < 16 ∧ (s.cam 0).failed = false ∧ ((after (exec (.expApply c) s)).cam 0).applies.length = 1 := by decide +kernel

theorem test_apply_next : let s := timed; let c := applyMix [0, 1]; acc .expApply c s = true ∧ (s.cam 0).state = .running ∧
    ((after (exec (.expApply c) s)).cam 0).applies.length = 1 := by decide +kernel

theorem test_apply_target : let s := timed; let c := applyMix [2, 0]; acc .expApply c s = true ∧ (s.cam 0).achievable s.ns s.host.feat.guard mix 2 = true ∧
    ((after (exec (.expApply c) s)).cam 0).applies.map Apply.target = [2] := by decide +kernel

/-- 50 ms have passed, and no frame has been accepted. -/
def late : State := { timed with time := { timed.time with now := 50000000 * 2 ^ 32 } }

theorem test_apply_late : let s := late; acc .expApply (applyMix [0, 0]) s = true ∧ acc .expApply (applyMix [0, 0] 1) s = true ∧ strict (applyMix [0, 0] 1) = true ∧
    (s.cam 0).achievable s.ns s.host.feat.guard mix 0 = false := by decide +kernel

/-- Limits of the widest range. -/
def limits : List Byte := layout 128 [(0x18, 4, 0x1000000), (0x1C, 4, 0xFFFFFFFF), (0x20, 4, 0x1000), (0x24, 4, 0xFFFFF)]

theorem test_limits : let s := camWith ozoth; let c := camCmd [] limits; acc .expSetLimits c s = true ∧ got (structBytes s c) = some limits ∧
    firstBad (limitFields (s.cam 0).profile limits) = none ∧ ((after (exec (.expSetLimits c) s)).cam 0).limits = limits := by decide +kernel

end Sys2Proof.Tests
end

