-- ==== Sys2Proof/Tests/FileWitness.lean ====
section
/-!
SUPPORT. A look and a curve that load: the files are too long to evaluate, so their fields are read by lemma.
-/
namespace Sys2Proof.Tests

set_option Elab.async false

open Sys2Proof.Machine

theorem fld_append (a r : List Byte) (off k : Nat) (h : off + k ≤ a.length) : fld (a ++ r) off k = fld a off k := by
  unfold fld
  rw [List.drop_append_of_le_length (by omega), List.take_append_of_le_length (by simp; omega)]

theorem leNat_replicate (n : Nat) : leNat (List.replicate n 0) = 0 := by
  induction n with
  | zero => rfl
  | succ n ih => rw [List.replicate_succ, leNat, ih]; decide

theorem fld_zeros (a : List Byte) (n off k : Nat) (h : a.length ≤ off) : fld (a ++ zeros n) off k = 0 := by
  unfold fld zeros
  rw [List.drop_append, List.drop_eq_nil_of_le h, List.nil_append, List.drop_replicate, List.take_replicate, leNat_replicate]

theorem leNat_leBytes (n v : Nat) (h : v < 256 ^ n) : leNat (leBytes n v) = v := by
  induction n generalizing v with
  | zero => simp at h; simp [leBytes, leNat, h]
  | succ n ih =>
    have : v / 256 < 256 ^ n := by rw [Nat.pow_succ] at h; omega
    simp [leBytes, leNat, ih _ this]
    omega

theorem leBytes_length (n v : Nat) : (leBytes n v).length = n := by
  induction n generalizing v with
  | zero => rfl
  | succ n ih => simp [leBytes, ih]

theorem crc_lt (bs : List Byte) : crc32c bs < 256 ^ 4 := by
  unfold crc32c
  exact BitVec.isLt _

theorem firstBad_all (l : List (Nat × Bool)) (h : ∀ p ∈ l, p.2 = true) : firstBad l = none := by
  induction l with
  | nil => rfl
  | cons p l ih => simp [firstBad, h p (by simp), ih (fun q hq => h q (by simp [hq]))]

theorem tableBytes_ok {s : State} {c : Cmd} {least : Nat} {total : List Byte → Nat} {b : Buffer} {t : List Byte} (h0 : c.ptrSpace = 1)
    (h1 : needBuffer s c.aux 1 = .ok b) (h2 : needRange s c.ptr.toNat c.ptrLen.toNat (some (b.base, b.size)) = .ok ()) (h3 : least ≤ c.ptrLen.toNat)
    (h4 : s.mem.mem.poisonIn c.ptr.toNat c.ptrLen.toNat = none) (h5 : s.readMem c.ptr.toNat c.ptrLen.toNat = t) (h6 : total t = c.ptrLen.toNat) :
    tableBytes s c least total = .ok t := by
  subst h5
  simp [tableBytes, h0, h1, h2, h3, h4, h6, need, pure, Except.pure, bind, Except.bind]

/-- A file of a head, its CRC, r more bytes of zero and a body of n zeros. -/
def zeroFile (head : List Byte) (r n : Nat) : List Byte := (head ++ leBytes 4 (crc32c (zeros n)) ++ zeros r) ++ zeros n

theorem zeroFile_length (head : List Byte) (r n : Nat) : (zeroFile head r n).length = head.length + 4 + r + n := by
  simp [zeroFile, leBytes_length, zeros]; omega

theorem zeroFile_fld (head : List Byte) (r n off k : Nat) (h : off + k ≤ head.length) : fld (zeroFile head r n) off k = fld head off k := by
  unfold zeroFile
  rw [fld_append _ _ _ _ (by simp [leBytes_length]; omega), List.append_assoc, fld_append _ _ _ _ h]

theorem zeroFile_body (head : List Byte) (r n off k : Nat) (h : head.length + 4 + r ≤ off) : fld (zeroFile head r n) off k = 0 :=
  fld_zeros _ _ _ _ (by simp [leBytes_length, zeros]; omega)

theorem zeroFile_crc (head : List Byte) (r n : Nat) : f32 (zeroFile head r n) head.length = crc32c (zeros n) := by
  unfold zeroFile f32
  rw [fld_append _ _ _ _ (by simp [leBytes_length]), List.append_assoc]
  unfold fld
  rw [List.drop_left, List.take_left' (leBytes_length 4 _), leNat_leBytes _ _ (crc_lt _)]

theorem zeroFile_drop (head : List Byte) (r n : Nat) : (zeroFile head r n).drop (head.length + 4 + r) = zeros n := by
  unfold zeroFile
  rw [List.drop_left' (by simp [leBytes_length, zeros]; omega)]

/-! ### A curve of one channel -/

/-- The file. -/
def curve : List Byte := zeroFile [0, 1, 0, 0] 8 8192
/-- The state with the file, and the command that loads it as the curve of output 0. -/
def curveState : State := withFile curve (camWith ozoth)
/-- The command. -/
def curveCmd : Cmd := loadCmd [0] 8208

theorem camWith_wf : (camWith ozoth).mem.mem.wf = true := by decide +kernel

theorem curve_length : curve.length = 8208 := (zeroFile_length [0, 1, 0, 0] 8 8192).trans (by decide)

theorem test_curve_file : tableBytes curveState curveCmd 16 (fun t => 16 + 8192 * f8 t 1) = .ok curve ∧ crc32c (curve.drop 16) = f32 curve 4 := by
  refine ⟨tableBytes_ok (b := buf1) (by decide +kernel) (got_ok (by decide +kernel)) (got_ok (by decide +kernel)) (by decide +kernel) (by decide +kernel) ?_ ?_, ?_⟩
  · have h := Memory.read_write camWith_wf 0x284000000 curve
    rw [curve_length] at h
    have e : curveCmd.ptr.toNat = 0x284000000 ∧ curveCmd.ptrLen.toNat = 8208 := by decide +kernel
    rw [e.1, e.2]
    exact h
  · have h : f8 curve 1 = 1 := zeroFile_fld [0, 1, 0, 0] 8 8192 1 1 (by decide)
    have e : curveCmd.ptrLen.toNat = 8208 := by decide +kernel
    show 16 + 8192 * f8 curve 1 = curveCmd.ptrLen.toNat
    rw [h, e]
  · have h1 : curve.drop 16 = zeros 8192 := zeroFile_drop [0, 1, 0, 0] 8 8192
    have h2 : f32 curve 4 = crc32c (zeros 8192) := zeroFile_crc [0, 1, 0, 0] 8 8192
    rw [h1, h2]

theorem test_curve_fields : firstBad (curveFields curve 0 true) = none := by
  have h0 : f8 curve 0 = 0 := zeroFile_fld [0, 1, 0, 0] 8 8192 0 1 (by decide)
  have h1 : f8 curve (0 + 1) = 1 := zeroFile_fld [0, 1, 0, 0] 8 8192 1 1 (by decide)
  have h2 (i : Nat) : f16 curve (0 + 16 + 2 * i) = 0 := zeroFile_body [0, 1, 0, 0] 8 8192 _ 2 (by simp)
  have hf : finiteFloat 5 10 0 = true := by decide
  have ha (n : Nat) : (List.range n).all (fun _ => true) = true := by simp
  apply firstBad_all
  simp only [curveFields, curveFinite, h0, h1, h2, hf, ha]
  decide

theorem test_curve_load : acc .clrLoadCurve curveCmd curveState = true ∧ curveCmd.aux ≠ 0 ∧
    curveState.setFaults (curveState.cam 0).profile { next0 curveState with curves := vmod (next0 curveState).curves 0 (fun _ => some { addr := 0x284000000, len := 8208 }) } .other = [] := by
  decide +kernel

/-! ### A look -/

/-- The head of the file. -/
def lookHead : List Byte := layout 32 [(0, 4, 0x48544D41), (4, 2, 1), (6, 2, 65), (0x0C, 4, 64), (0x10, 4, 2197000), (0x1C, 4, 2197064)]
/-- The file. -/
def lookFile : List Byte := zeroFile lookHead 28 2197000
/-- The state with the file. -/
def lookState : State := withFile lookFile (camWith ozoth)
/-- The command. -/
def lookCmd : Cmd := loadCmd [] 2197064

theorem look_length : lookFile.length = 2197064 := (zeroFile_length lookHead 28 2197000).trans (by decide)

theorem look_fld (off k : Nat) (h : off + k ≤ 32) : fld lookFile off k = fld lookHead off k := zeroFile_fld lookHead 28 2197000 off k h

theorem test_look_file : tableBytes lookState lookCmd 64 (fun t => f32 t 0x1C) = .ok lookFile ∧ crc32c (lookFile.drop 64) = f32 lookFile 0x20 := by
  refine ⟨tableBytes_ok (b := buf1) (by decide +kernel) (got_ok (by decide +kernel)) (got_ok (by decide +kernel)) (by decide +kernel) (by decide +kernel) ?_ ?_, ?_⟩
  · have h := Memory.read_write camWith_wf 0x284000000 lookFile
    rw [look_length] at h
    have e : lookCmd.ptr.toNat = 0x284000000 ∧ lookCmd.ptrLen.toNat = 2197064 := by decide +kernel
    rw [e.1, e.2]
    exact h
  · have e : lookCmd.ptrLen.toNat = 2197064 := by decide +kernel
    show f32 lookFile 0x1C = lookCmd.ptrLen.toNat
    rw [e]
    exact (look_fld 0x1C 4 (by decide)).trans (by decide)
  · have h1 : lookFile.drop 64 = zeros 2197000 := zeroFile_drop lookHead 28 2197000
    have h2 : f32 lookFile 0x20 = crc32c (zeros 2197000) := zeroFile_crc lookHead 28 2197000
    rw [h1, h2]

theorem test_look_fields : firstBad (lookFields lookFile) = none := by
  have e (off k : Nat) (h : off + k ≤ 32) := look_fld off k h
  have h0 : f32 lookFile 0 = 0x48544D41 := (e 0 4 (by decide)).trans (by decide)
  have h4 : f16 lookFile 4 = 1 := (e 4 2 (by decide)).trans (by decide)
  have h6 : f16 lookFile 6 = 65 := (e 6 2 (by decide)).trans (by decide)
  have h8 : f8 lookFile 8 = 0 := (e 8 1 (by decide)).trans (by decide)
  have h9 : f8 lookFile 9 = 0 := (e 9 1 (by decide)).trans (by decide)
  have hC : f32 lookFile 0x0C = 64 := (e 0x0C 4 (by decide)).trans (by decide)
  have h10 : f32 lookFile 0x10 = 2197000 := (e 0x10 4 (by decide)).trans (by decide)
  have h14 : f32 lookFile 0x14 = 0 := (e 0x14 4 (by decide)).trans (by decide)
  have h18 : f32 lookFile 0x18 = 0 := (e 0x18 4 (by decide)).trans (by decide)
  have hb (i k : Nat) : f16 lookFile (64 + 8 * i + 2 * k) = 0 := zeroFile_body lookHead 28 2197000 _ 2 (by rw [show lookHead.length = 32 from by decide]; omega)
  have hf : finiteFloat 5 10 0 = true := by decide
  apply firstBad_all
  simp only [lookFields, lookSections, h0, h4, h6, h8, h9, hC, h10, h14, h18, look_length, hb, hf]
  have ha (n k : Nat) : (List.range n).all (fun _ => (List.range k).all (fun _ => true)) = true := by simp
  rw [ha]
  decide

theorem test_look_load : acc .clrLoadLut3d lookCmd lookState = true ∧ lookCmd.aux ≠ 0 := by decide +kernel

end Sys2Proof.Tests
end

