-- ==== Sys2Proof/Tests/EncodeWitness.lean ====
section
/-!
SUPPORT. States and operands that meet the hypotheses of the statement about encode sessions, clause by clause.
-/
namespace Sys2Proof.Tests

set_option Elab.async false

open Sys2Proof.Machine

/-- A rate block of constant QP 30. -/
def constQp : List Byte := layout 32 [(2, 1, 51), (3, 1, 1), (0x10, 1, 50), (0x11, 1, 30), (0x12, 1, 30), (0x13, 1, 30), (0x14, 1, 1), (0x15, 1, 1), (0x16, 1, 1),
  (0x17, 1, 1), (0x18, 1, 1), (0x19, 1, 1)]

/-- A session block: profile 4:4:4 of grey, level 3, mini-GOP of one picture; flags and the lengths of its areas. -/
def encBlock (flags rate : List Byte) : List Byte := layout 64 [(1, 1, 3), (2, 1, 90), (3, 1, f8 flags 0), (0xC, 1, 1), (0xD, 1, 1), (0x0E, 1, 1), (0x18, 4, 0), (0x1C, 4, 0x10000),
  (0x20, 4, 0x10000), (0x24, 4, 16), (0x28, 4, 0x11000), (0x2C, 4, 0x100000)] ++ rate

/-- The camera runs with a grey output of four slots. -/
def greyCam : State := onCam (fun x => { x with state := .running, bound := true, span := 1, run := 1 })
  (after (exec (.clrSetOutput (camCmd [0] (patch greyOut 3 [4]) 0x10000001)) { camWith ozoth with mem := { (camWith ozoth).mem with
    buffers := [buf0, buf1, { handle := 0x10000003, base := 0x288000000, size := 0x4000000 }] } }))

/-- ENC_SESSION_OPEN in the second buffer. -/
def encOpen (rate : List Byte) : Cmd := camCmd [] (encBlock [0] rate) 0x10000002
/-- The query. -/
def encQuery : Cmd := camCmd [] (encBlock [2] constQp)

/-- What an open asks of its block and the camera. -/
def encOpenOk (c : Cmd) (s : State) : Bool :=
  match structBytes s c, vget (s.cam 0).next.outs none 0 with
  | .ok b, some o =>
    let p := (s.cam 0).profile
    let charge := encCharge p b (Nat.max 1 o.every)
    let used := sumNat ((s.encs.filter (fun e => !e.released)).map EncSession.charge)
    decide (firstBad (sessionFields p b) = none) && decide (s.encs.length < 96) && decide ((s.cam 0).state = .running) && decide (sbSrc b = 0) &&
    profileTakes (sbProfile b) o.blk && decide (sbG b + 2 ≤ o.slots) && decide (sbIdrPeriod b % (sbG b * Nat.max 1 o.every) = 0) &&
    sizeLimits p b (Nat.max 1 o.every) && decide (firstBad (rateLimits b (b.drop 0x40)) = none) && decide (charge ≤ 3200) &&
    decide (charge + used ≤ 3200 * s.mgmt.units.filled .encU)
  | _, _ => false

/-- What it asks of the areas in the buffer. -/
def encAreasOk (b : List Byte) (p : List Byte) (y : Buffer) : Bool :=
  let z := sbCrop p b
  let pool := 4096 + sbSlots b * (encKcs (sbProfile b) (profileDepth (sbProfile b)) z.2.2.1 z.2.2.2).bound
  let ring := 64 + 2 * largestReservation b (b.drop 0x40) z.2.2.1 z.2.2.2
  decide (ring ≤ sbRingLen b) && decide (sbRingOff b + sbRingLen b ≤ y.size) && decide (sbStatOff b + 64 * sbStatSlots b ≤ y.size) && decide (pool ≤ sbPoolLen b) &&
    decide (sbPoolOff b + sbPoolLen b ≤ y.size) && !meets (sbRingOff b) (sbRingLen b) (sbStatOff b) (64 * sbStatSlots b) &&
    !meets (sbRingOff b) (sbRingLen b) (sbPoolOff b) (sbPoolLen b) && !meets (sbStatOff b) (64 * sbStatSlots b) (sbPoolOff b) (sbPoolLen b)

theorem test_enc_query : acc .encSessionOpen encQuery greyCam = true ∧ encOpenOk encQuery greyCam = true ∧ bitOf (f8 (encBlock [2] constQp) 3) 1 = true ∧
    got (structBytes greyCam encQuery) = some (encBlock [2] constQp) := by decide +kernel

/-- One session is open. -/
def encSt : State := after (exec (.encSessionOpen (encOpen constQp)) greyCam)

theorem test_enc_open : acc .encSessionOpen (encOpen constQp) greyCam = true ∧ encOpenOk (encOpen constQp) greyCam = true ∧ bitOf (f8 (encBlock [0] constQp) 3) 1 = false ∧
    encAreasOk (encBlock [0] constQp) (greyCam.cam 0).profile buf1 = true ∧ got (needUnpinned greyCam buf1.base buf1.size) = some () ∧
    encSt.encs.map EncSession.handle = [0x30000001] := by decide +kernel

/-- A command on that session. -/
def encCmd (ps : List Nat) (host : List Byte := []) (flags : Nat := 0) : Cmd := mk ps 0x30000001 0 host flags
/-- A change of the session. -/
def onEnc (f : EncSession → EncSession) (s : State) : State := { s with encs := s.encs.map f }

theorem test_enc_close : acc .encSessionClose (encCmd [0]) encSt = true ∧ (encSt.enc 0x30000001).map EncSession.closing = some false ∧
    acc .encSessionClose (encCmd [0]) (onEnc (fun e => { e with closing := true }) encSt) = true := by decide +kernel

theorem test_enc_rate : let c := encCmd [] constQp; acc .encSetRate c encSt = true ∧ got (structBytes encSt c) = some constQp ∧
    (encSt.encs.map (fun e => firstBad (rateFields constQp 0 ++ rateLimits e.blk constQp))) = [none] ∧
    (encSt.encs.map (fun e => (e.faulted, e.closing, e.ended))) = [(false, false, false)] := by decide +kernel

/-- The next mini-GOP of the session begins at FN 5. -/
def encAt5 : State := onEnc (fun e => { e with gopNext := 5 }) encSt

theorem test_force_idr : acc .encForceIdr (encCmd [2, 0] [] 1) encAt5 = true ∧ strict (encCmd [2, 0] [] 1) = true ∧ par (encCmd [2, 0] [] 1) 0 < 5 ∧
    acc .encForceIdr (encCmd [9, 0]) encAt5 = true ∧ acc .encForceIdr (encCmd [0, 1]) encAt5 = true ∧ acc .encForceIdr (encCmd [2, 0]) encAt5 = true ∧
    ((after (exec (.encForceIdr (encCmd [9, 0])) encAt5)).encs.map (fun e => e.targets.map IdrTarget.fn)) = [[9]] := by decide +kernel

/-- FN 4 is a reference. -/
def encWithRef : State := onEnc (fun e => { e with refs := [{ fn := 4, layer := 0, long := none, slot := 1, deadline := 0 }] }) encAt5

theorem test_ref_mark : acc .encRefMark (encCmd [4, 0]) encWithRef = true ∧ acc .encRefMark (encCmd [4, 1]) encWithRef = true ∧ acc .encRefMark (encCmd [4, 2]) encWithRef = true ∧
    (encWithRef.encs.map (fun e => (sbLtr e.blk, (e.refs.find? (fun r => r.fn % 2 ^ 32 == 4)).map RefPic.fn))) = [(1, some 4)] ∧
    (after (exec (.encRefMark (encCmd [4, 0])) encWithRef)).encs.map (fun e => e.refs.map RefPic.long) = [[some 0]] := by decide +kernel

/-- A frame that has closed, with its field complete. -/
def encFrame : EncFrame :=
  { fn := 0, present := some true, dropped := false, out := true, addr := 0x280000000, deadline := 1000000, exposure := 0, field := true, place := none, refFn := none,
    costs := [1, 1, 1, 1], acts := [1, 1, 1, 1], zeroSeed := false, oldSums := false }
/-- The session has that frame. -/
def encReady : State := onEnc (fun e => { e with frames := [encFrame] }) encSt

theorem test_enc_start : (encReady.mgmt.units.unitOf .encU 0).isSome = true ∧ encReady.encBusy 0 = false ∧
    encReady.encPick.map EncSession.handle = encReady.encs.head?.map EncSession.handle ∧
    encReady.encPick.map (fun e => (e.orphan.isNone, encReady.mem.mem.poisonIn (e.base + sbPoolOff e.blk) 4096)) = some (true, none) ∧
    (after (exec (.encPictureStart 0) encReady)).encs.map EncSession.seqNext = [1] := by decide +kernel

/-- Role 0 codes the frame. -/
def encBusyAt : State := after (exec (.encPictureStart 0) encReady)

/-- FN 4 in the pool. -/
def ref4 : RefPic := { fn := 4, layer := 0, long := none, slot := 1, deadline := 0 }
/-- A P picture of FN 5 on role 0. -/
def pic5 : EncPic :=
  { fn := 5, mini := 6, rate := constQp, seq := 0, type := .p, layer := 0, qpBase := 30, budget := 4096, nominal := 4096, cPic := 4, startNs := 0, deadline := 1000000,
    space := 1024, refs := [ref4], slot := some 0, role := some 0, epoch := 1, redone := false, missed := false }
/-- The session codes it. -/
def encCodes : State := onEnc (fun e => { e with pics := [pic5], refs := [ref4], frames := [{ encFrame with fn := 5 }], seqNext := 1 }) encSt
/-- Its only coding tree unit: skip from FN 4. -/
def ctu5 : EncCtu :=
  { tried := 48, bits := 48, mode := .skip, pus := [{ x := 0, y := 0, w := 64, h := 64, ref := 4, vec := (0, 0), source := .zero }] }
/-- Its slice: one NAL unit of type 1. -/
def slice5 : List Byte := [0, 0, 1, 2, 1, 0x80]

theorem test_enc_commit : 1 = encCodes.mgmt.units.epochOf .encU 0 ∧ encCodes.encs.map (fun e => (e.onRole 0, e.pics.head?)) = [(some pic5, some pic5)] ∧
    encCodes.encs.map (fun e => (e.frames.find? (fun f => f.fn == 5)).isSome) = [true] ∧
    encCodes.encs.map (fun e => (encCodes.picResult e pic5 { encFrame with fn := 5 } (8 * (e.auHead .p 0).length) [ctu5]).map PicResult.bits)
      = encCodes.encs.map (fun e => some (8 * (e.auHead .p 0 ++ slice5).length)) ∧
    encCodes.encs.map (fun e => e.slicesOk .p 0 slice5) = [true] ∧
    encCodes.encs.map (fun e => e.roomFor (encCodes.readPos e.ringAddr) (e.gapRecords ++ [e.auRecord pic5 { encFrame with fn := 5 } 0 (e.auHead .p 0 ++ slice5)])) = [true] ∧
    2 ≠ encCodes.mgmt.units.epochOf .encU 0 := by decide +kernel

theorem test_enc_committed : (after (exec (.encPictureCommit 0 slice5 { epoch := 1, ctus := [ctu5] } []) encCodes)).encs.map (fun e => (e.pics, e.cnt.pictures, e.refs.map RefPic.fn)) =
    [([], 1, [5])] := by decide +kernel

/-- The picture waits for another role. -/
def encOrphan : State := onEnc (fun e => { e with pics := [{ pic5 with role := none }] }) encCodes

theorem test_enc_restart : encOrphan.encPick.bind EncSession.orphan = some { pic5 with role := none } ∧ encOrphan.encBusy 0 = false ∧
    (after (exec (.encPictureStart 0) encOrphan)).encs.map (fun e => e.pics.map EncPic.role) = [[some 0]] := by decide +kernel

/-- The ring of the session is full, and its frame is past its deadline. -/
def encFull : State := onEnc (fun e => { e with wr := { off := 0xFF00, wraps := 0 } }) { encReady with time := { encReady.time with now := 3000000 * 2 ^ 32 } }

theorem test_enc_drop : encFull.encs.map EncSession.faulted = [false] ∧
    encFull.encs.map (fun e => (encFull.encView e).formed.next.map (fun n => ((encFull.encView e).formed.fits n.space, decide (n.deadline ≤ encFull.ns)))) = [some (false, true)] ∧
    encFull.encs.map (fun e => (encFull.encView e).formed.anchorDue) = [true] := by decide +kernel

/-- The anchor of the mini-GOP has been started already. -/
def encLater : State :=
  onEnc (fun e => { e with gop := [0], gopNext := 1, coded := [], idrDue := false }) encFull

theorem test_enc_drop_later :
    encLater.encs.map (fun e => (encLater.encView e).formed.next.map (fun n => ((encLater.encView e).formed.fits n.space, decide (n.deadline ≤ encLater.ns)))) = [some (false, true)] ∧
    encLater.encs.map (fun e => (encLater.encView e).formed.anchorDue) = [false] := by decide +kernel

theorem test_enc_watchdog : encBusyAt.encBusy 0 = true ∧ encBusyAt.mgmt.units.unitOf .encU 0 = some 0 ∧ encBusyAt.mgmt.units.roleOf .encU 0 = some 0 := by decide +kernel

end Sys2Proof.Tests
end

