-- ==== Sys2Proof/Tests/LaneWitness.lean ====
section
/-!
SUPPORT. States and operands that meet the hypotheses of the statements about lanes, calibration, streams and the bridge, clause by clause.
-/
namespace Sys2Proof.Tests

set_option Elab.async false

open Sys2Proof.Machine

/-- A change of a lane. -/
def onLane (n : Fin 32) (f : Lane → Lane) (s : State) : State := { s with lanes := { s.lanes with lanes := s.lanes.lanes.set n (f s.lanes.lanes[n]) } }
/-- A change of a channel. -/
def onChan (n : Fin 32) (f : Channel → Channel) (s : State) : State := { s with lanes := { s.lanes with channels := s.lanes.channels.set n (f s.lanes.channels[n]) } }
/-- A change of a quad. -/
def onQuad (n : Fin 8) (f : Quad → Quad) (s : State) : State := { s with lanes := { s.lanes with quads := s.lanes.quads.set n (f s.lanes.quads[n]) } }
/-- A change of an Ethernet port. -/
def onPort (n : Fin 4) (f : EthPort → EthPort) (s : State) : State := { s with lanes := { s.lanes with ports := s.lanes.ports.set n (f s.lanes.ports[n]) } }
/-- A lane in service on the channel of its number, at 50G. -/
def active (n : Fin 32) (s : State) : State :=
  onChan n (fun y => { y with lane := some n.val }) (onLane n (fun x => { x with state := .active, chan := some n.val, rate := 2, cwLock := true, cellLock := true }) s)
/-- A lane in a state. -/
def laneIn (n : Fin 32) (st : LaneState) (s : State) : State := onLane n (fun x => { x with state := st }) s

/-! ### LanesComeUpAndPortsLink -/

/-- LANE_CONFIGURE. -/
def laneSet (op v : Nat) (h : Nat := 0) : Cmd := mk [op, v] h

theorem test_lane_limits : acc .laneConfigure (laneSet 0 0x050101) State.reset = true ∧
    (State.reset.lanes.lane 1).state = .training ∧ ((after (exec (.laneConfigure (laneSet 0 0x050101)) State.reset)).lanes.lane 1).calDelta = 5 := by decide +kernel

theorem test_lane_diag : acc .laneConfigure (laneSet 0 0x1000001) State.reset = true ∧ (State.reset.lanes.lane 1).chan = none ∧ (State.reset.lanes.quad 0).rotation = none ∧
    ((after (exec (.laneConfigure (laneSet 0 0x1000001)) State.reset)).lanes.lane 1).state = .diag := by decide +kernel

theorem test_quad_reference : acc .laneConfigure (laneSet 1 0x012) State.reset = true ∧ State.reset.quadInUse 2 = false := by decide +kernel

theorem test_quad_role : acc .laneConfigure (laneSet 1 0x107) State.reset = true ∧ State.reset.dev.isD = false ∧ State.reset.quadInUse 7 = false ∧ (State.reset.lanes.quad 7).role = .off ∧
    (State.reset.lanes.lane 28).state = .off ∧ ((after (exec (.laneConfigure (laneSet 1 0x107)) State.reset)).lanes.quad 7).role = .egress := by decide +kernel

theorem test_quad_off : let s := after (exec (.laneConfigure (laneSet 1 0x107)) State.reset); acc .laneConfigure (laneSet 1 0x007) s = true ∧ (s.lanes.quad 7).role = .egress ∧
    s.quadInUse 7 = false ∧ (s.lanes.lane 29).state ≠ .fenced := by decide +kernel

/-- A camera with a grey output, and channel 12 in service. -/
def streamBase : State := active 12 greyCam

theorem test_stream_open : acc .laneConfigure (laneSet 2 0xC00 0x20000001) streamBase = true ∧ isChannel 12 = true ∧ (streamBase.lanes.quad 3).role = .egress ∧
    streamBase.inService 12 = true ∧ streamBase.disp.heads.toList = [none, none, none, none] ∧
    (List.range 16).find? (fun i => !(((streamBase.lanes.streams.filter (fun x => x.chan == 12)).map Stream.idx).contains i)) = some 0 ∧
    (after (exec (.laneConfigure (laneSet 2 0xC00 0x20000001)) streamBase)).lanes.streams.map Stream.chan = [12] := by decide +kernel

/-- A stream of output 0 of context 0 on channel 12. -/
def streamSt : State := after (exec (.laneConfigure (laneSet 2 0xC00 0x20000001)) streamBase)
/-- A change of the streams. -/
def onStreams (f : Stream → Stream) (s : State) : State := { s with lanes := { s.lanes with streams := s.lanes.streams.map f } }
/-- A frame that it sends. -/
def streamFrame0 : StreamFrame := { fn := 0, slot := 0, first := 0, upTo := 64, plane := 0, row := 0 }

theorem test_stream_close : streamSt.lanes.streams.map (fun x => (x.handle, x.cur, x.stopped, x.closing)) = [(0xA8000001, none, false, false)] ∧
    acc .laneConfigure (laneSet 3 0 0xA8000001) streamSt = true ∧ acc .laneConfigure (laneSet 3 0 0xA8000001) (onStreams (fun x => { x with cur := some streamFrame0 }) streamSt) = true ∧
    streamSt.cams.find 0x20000001 = some 0 := by decide +kernel

theorem test_lane_train : acc .laneTrain (mk [1]) State.reset = true ∧ acc .laneTrain (mk [0x201]) State.reset = true ∧ (State.reset.lanes.quad 0).role.ozoth = true ∧
    (State.reset.lanes.lane 1).state ≠ .fenced ∧ ((after (exec (.laneTrain (mk [0x201])) State.reset)).lanes.lane 1).state = .off := by decide +kernel

/-- Lane 1 is in service and lane 3 is the free spare of its quad. -/
def withSpare : State := laneIn 3 .spare (active 1 State.reset)

theorem test_lane_calibrate : acc .laneTrain (mk [0x101]) withSpare = true ∧ (withSpare.lanes.lane 1).state = .active ∧ withSpare.lanes.freeSpare 0 = some 3 ∧
    (withSpare.lanes.lane 1).chan = some 1 ∧ acc .laneTrain (mk [0x103]) withSpare = true ∧ acc .laneTrain (mk [0x1101]) withSpare = true ∧ (withSpare.lanes.lane 3).state = .spare ∧
    ((after (exec (.laneTrain (mk [0x101])) withSpare)).lanes.quad 0).rotation.isSome = true := by decide +kernel

theorem test_bitslip : let s := laneIn 1 .diag State.reset; acc .laneBitslip (mk [1, 2047]) s = true ∧ (s.lanes.lane 1).state = .diag ∧ (s.lanes.lane 1).rate = 0 ∧
    ((after (exec (.laneBitslip (mk [1, 2047]) 64 0) s)).lanes.lane 1).slip = 2047 := by decide +kernel

/-- LANE_CAL_SAVE or LANE_CAL_RESTORE of lanes, in the second buffer. -/
def calCmd (mask n : Nat) : Cmd := Cmd.inDev (mk [0, mask] 0 0x10000002) 0x284000000 n

theorem test_cal_save : let c := calCmd 5 2048; acc .laneCalSave c twoBuffers = true ∧ rangeFault twoBuffers c.ptr.toNat c.ptrLen.toNat (some (buf1.base, buf1.size)) = none ∧
    got (needUnpinned twoBuffers c.ptr.toNat c.ptrLen.toNat) = some () ∧ 64 + 512 * (lanesOf (par c 1)).length ≤ c.ptrLen.toNat ∧
    twoBuffers.lanes.lanes.toList.all (fun x => decide (x.calVal.length = 512)) = true ∧ Inv twoBuffers := by unfold Inv; decide +kernel

/-- An image of no lanes. -/
def calImage : List Byte := layout 64 [(0, 2, 0x4896), (2, 2, 0x00B0)]

theorem test_cal_restore : let s := withFile calImage twoBuffers; let c := calCmd 5 64; acc .laneCalRestore c s = true ∧ got (structBytes s c) = some calImage ∧ 64 ≤ c.ptrLen.toNat ∧
    64 + 512 * (lanesOf (f32 calImage 4)).length ≤ calImage.length ∧ crc32c (slice calImage 64 0) = f32 calImage 8 ∧ f16 calImage 0 = 0x4896 ∧ f16 calImage 2 = 0x00B0 := by decide +kernel

theorem test_capability : (State.reset.lanes.lane 1).state = .training ∧ (State.reset.lanes.lane 1).rate = 0 ∧ (State.reset.lanes.lane 1).step = .idle ∧
    roleCode (State.reset.lanes.quad 0).role = 0 ∧ roleCode (State.reset.lanes.quad 0).role ≠ 1 ∧
    ((after (exec (.capability 1 0xF 0) State.reset)).lanes.lane 1).target = 3 := by decide +kernel

theorem test_rate_request : (State.reset.lanes.lane 1).rate < 2 ∧ 2 ≤ (State.reset.lanes.lane 1).maxRate ∧ ((after (exec (.rateRequest 1 2) State.reset)).lanes.lane 1).step = .adapting 2 := by
  decide +kernel

theorem test_rate_ack : let s := onLane 1 (fun x => { x with step := .requested 1, target := 3 }) State.reset; (s.lanes.lane 1).step = .requested 1 ∧ (s.lanes.lane 1).state = .training := by
  decide +kernel

/-- Lane 1 adapts to a rate. -/
def adapting (r target : Nat) : State := onLane 1 (fun x => { x with step := .adapting r, target := target }) State.reset
/-- A measurement that passes, or does not. -/
def measure (snr : Nat) : LaneMeasure := { ber := 0, uncorr := 0, snr := snr, eye := 100, values := [] }

theorem test_rate_step : ((adapting 1 3).lanes.lane 1).step = .adapting 1 ∧ (measure 8000).passes 1 = true ∧ 1 < ((adapting 1 3).lanes.lane 1).target ∧ (measure 8000).passes 3 = true ∧
    ¬ 3 < ((adapting 3 3).lanes.lane 1).target ∧ (measure 0).passes 1 = false ∧ ((after (exec (.rateStepVerified 1 0 0 8000 100 []) (adapting 3 3))).lanes.lane 1).state = .active := by
  decide +kernel

theorem test_rate_step_of_rejoin : let s := (adapting 1 3).mapLane 1 (fun y => { y with rejoinBy := some (ref .unitRejoin (mk [0])) }); (measure 0).passes 1 = false ∧
    ((adapting 1 3).lanes.lane 1).rejoinBy = none ∧ ((after (exec (.rateStepVerified 1 0 0 0 100 []) (adapting 1 3))).lanes.lane 1).step = .failed ∧
    (s.lanes.lane 1).rate = 0 ∧ ((after (exec (.rateStepVerified 1 0 0 0 100 []) s)).lanes.lane 1).state = .fenced := by decide +kernel

/-- A port block of port 0. -/
def portBlock (mode : Nat) : List Byte := layout 32 [(0, 1, 4 * mode), (2, 2, 1518), (0xA, 1, 0xF), (0x0C, 2, 1)]

theorem test_port_configure : acc .ethPortConfigure (mk [] 0 0 (portBlock 0)) State.reset = true ∧ acc .ethPortConfigure (mk [] 0 0 (portBlock 2)) State.reset = true ∧
    firstBad (portFields (portBlock 0)) = none ∧ firstBad (portFields (portBlock 2)) = none ∧ (State.reset.eth 0).link = false ∧
    ((after (exec (.ethPortConfigure (mk [] 0 0 (portBlock 2))) State.reset)).eth 0).by_.length = 1 := by decide +kernel

/-- Port 0 with its link up, and a command that waits for it. -/
def linked : State := onPort 0 (fun p => { p with mode := 2, link := true, mtu := 1518, fwd := 0xF }) (laneIn 24 .eth State.reset)

theorem test_port_keeps : acc .ethPortConfigure (mk [] 0 0 (portBlock 2)) linked = true ∧ (linked.eth 0).link = true ∧ (linked.eth 0).mode = 2 ∧ (linked.eth 0).fec = fecOf 2 (f8 (portBlock 2) 1) := by
  decide +kernel

/-- Port 0 waits for its link. -/
def linking : State := laneIn 24 .eth (after (exec (.ethPortConfigure (mk [] 0 0 (portBlock 2))) State.reset))

theorem test_port_link : (linking.eth 0).mode ≠ 0 ∧ (linking.lanes.lane 24).state ≠ .off ∧ (linking.eth 0).link = false ∧ (linking.eth 0).by_ ≠ [] ∧
    ((after (exec (.ethLinkUp 0) linking)).eth 0).link = true ∧ (linked.eth 0).link = true := by decide +kernel

/-! ### LanesRotateAndStreamsSend -/

/-- The value that makes a lane's calibration due: its SNR was far above what it is. -/
def due (x : Lane) : Lane := { x with calVal := patch x.calVal 8 (leBytes 2 8000) }

theorem test_calibration_due : let s := onLane 1 due withSpare; let t := onLane 3 due withSpare; let u := onLane 1 due (active 1 State.reset);
    s.calDue 1 = true ∧ s.power.cur ≠ .ps2 ∧ (s.lanes.lane 1).state = .active ∧ s.lanes.freeSpare 0 = some 3 ∧ s.calDue 3 = false ∧ s.lanes.carriers 0 = [1] ∧
    t.calDue 3 = true ∧ (t.lanes.lane 3).state = .spare ∧ (t.lanes.quad 0).rotation = none ∧
    u.calDue 1 = true ∧ u.lanes.freeSpare 0 = none ∧ (u.lanes.lane 1).deferredNow = false := by decide +kernel

/-- Channel 1 rotates from lane 1 to lane 3. -/
def rotating (step : Nat) : State := onQuad 0 (fun q => { q with rotation := some { chan := 1, src := 1, dst := 3, step := step, dead := false } }) withSpare

theorem test_rotation : ((rotating 0).lanes.quad 0).rotation.isSome = true ∧ ((after (exec (.rotateAck 1 1) (rotating 0))).lanes.quad 0).rotation.map Rotation.step = some 1 ∧
    ((after (exec (.rotationOverlapEnd 0 0) (rotating 1))).lanes.chan 1).lane = some 3 := by decide +kernel

/-- Lane 3 calibrates, after some failures; lane 24 does. -/
def calibrating (fails : Nat) : State := onLane 3 (fun x => { x with state := .calibrating, rate := 2, calFails := fails }) State.reset

theorem test_calibration_done : ((calibrating 0).lanes.lane 3).state = .calibrating ∧ (measure 8000).passes 2 = true ∧ ¬ (measure 0).passes 2 = true ∧ ((calibrating 1).lanes.lane 3).calFails ≠ 0 ∧
    ((laneIn 24 .calibrating linked).lanes.lane 24).state = .calibrating ∧ ((after (exec (.calibrationDone 3 0 0 8000 100 []) (calibrating 0))).lanes.lane 3).state = .spare := by decide +kernel

theorem test_lane_death : let s := active 1 State.reset; (s.lanes.lane 1).state = .active ∧ (s.lanes.lane 1).chan = some 1 ∧ (s.lanes.quad 0).rotation = none ∧ (s.lanes.quad 0).spare = some 3 ∧
    (s.lanes.lane 3).state ≠ .spare ∧ [0, 2, 3].all (fun l => decide ((s.lanes.lane l).state ≠ .calibrating)) = true ∧
    ((after (exec (.laneDeath 1) s)).lanes.chan 1).vacant = true := by decide +kernel

theorem test_deferral_expiry : let s := onLane 1 (fun x => { x with deferredNow := true, inplaceOk := true }) (active 1 State.reset); (s.lanes.lane 1).deferredNow = true ∧
    (s.lanes.lane 1).inplaceOk = true ∧ (s.lanes.lane 1).state = .active ∧ (s.lanes.quad 0).rotation = none ∧ s.power.cur ≠ .ps2 := by decide +kernel

theorem test_lane_quality : let s := active 1 State.reset; (s.lanes.lane 1).rate ≠ 0 ∧ 0 < snrFloor (s.lanes.lane 1).rate ∧ (s.lanes.lane 1).low = false ∧
    ((after (exec (.laneQualityUpdate 1 0 0 0 0 0) s)).lanes.lane 1).margin = true := by decide +kernel

theorem test_locks : let s := active 1 State.reset; ¬ ((s.lanes.lane 1).rate = 0 ∧ (s.lanes.lane 1).step = .idle) ∧ (s.lanes.lane 1).state ≠ .diag ∧ (s.lanes.lane 1).cwLock = true ∧
    (s.lanes.lane 1).cellLock = true := by decide +kernel

theorem test_timed_channel : let s := active 1 State.reset; s.timedChan 1 = true ∧ s.silent 1 = false ∧ (s.lanes.chan 1).epoch = 1 ∧ 2 ≠ (s.lanes.chan 1).epoch ∧ (after (exec (.ltSync 0) s)).time.ltSeq.toList[1]? = some 1 := by
  decide +kernel

/-- A stream's frames have come so far. -/
def streamDue : State := onCam (fun x => { x with fnNext := 1 }) streamSt

/-- What a channel's streams have to do, the earliest first. -/
def workOf (s : State) : Option StreamWork :=
  (minBy (fun r => r.2.2) ((s.lanes.streams.filter (fun x => x.chan == 12)).filterMap (fun x => (s.streamWork x).map (fun w => (x, w))))).map (fun r => r.2.1)

/-- The ring of the output holds frame 0 for the stream. -/
def streamLines : State := onCam (fun x => { x with outs := vmod x.outs 0 (fun r => { r with slots := [{ used := true, fn := 0, run := 1, done := true, holders := [0xA8000001] }] }), last := x.next, run := 1 })
  (onStreams (fun x => { x with cur := some streamFrame0, run := 1 }) streamDue)

theorem test_stream_work : workOf streamDue = some .frame ∧ workOf (onStreams (fun x => { x with closing := true }) streamSt) = some .gone ∧
    workOf streamLines = some (.line streamFrame0) ∧ streamDue.cams.find 0x20000001 = some 0 := by decide +kernel

theorem test_stream_desc : streamSt.lanes.streams.map (fun x => (x.stopped, x.cam, streamSt.inService x.chan, streamSt.silent x.chan)) = [(false, 0x20000001, true, false)] := by decide +kernel

/-- A frame of 64 bytes to an address. -/
def ethFrame (dst : Nat) : List Byte := beBytes 6 dst ++ beBytes 6 0x020000000001 ++ beBytes 2 0x0800 ++ zeros 50

/-- Ports 0 and 1 are linked and forward to each other; port 2 has an address. -/
def bridge : State := onPort 2 (fun p => { p with mac := 0x020000000002 }) (onPort 1 (fun p => { p with mode := 2, link := true, mtu := 1518, fwd := 0xF }) linked)

theorem test_bridge : bridge.ethOpen 0 = true ∧ (ethFrame 0x020000000002).length ≤ (bridge.eth 0).mtu ∧ (bridge.eth 0).member ((bridge.eth 0).vidOf (ethFrame 0x020000000002)) = true ∧
    bridge.ownMac (be (ethFrame 0x020000000002) 0 6) = true ∧ ptpView (ethFrame 0x020000000002) = none := by decide +kernel

theorem test_bridge_forwards : (bridge.eth 0).member ((bridge.eth 0).vidOf (ethFrame 0x020000000009)) = true ∧ bridge.ownMac (be (ethFrame 0x020000000009) 0 6) = false ∧
    be (ethFrame 0x020000000009) 0 6 ≠ 0x0180C200000E ∧ ptpView (ethFrame 0x020000000009) = none ∧ (bridge.eth 0).pcp < 8 ∧ bridge.forwardTo 0 0x020000000009 1 = [1] := by decide +kernel

end Sys2Proof.Tests
end

