-- ==== Sys2Proof/Tests/DisplayWitness.lean ====
section
/-!
SUPPORT. States and operands that meet the hypotheses of the statements about the display, clause by clause.
-/
namespace Sys2Proof.Tests

set_option Elab.async false

open Sys2Proof.Machine

/-- A raster of 64 × 64 pixels on lane 12 at 25 MHz. -/
def timing : List Byte := layout 64 [(0, 2, 64), (2, 2, 8), (4, 2, 8), (6, 2, 8), (8, 2, 64), (0xA, 2, 4), (0xC, 2, 4), (0xE, 2, 4), (0x12, 1, 12), (0x14, 4, 25000)]
/-- The same on a PTP grid of 5 ms with a phase of 1 ms. -/
def ptpTiming : List Byte := patch (patch (patch timing 0x10 [1]) 0x14 (leBytes 4 0)) 0x18 (leBytes 4 5000000 ++ leBytes 4 1000000)
/-- DISP_SET_TIMING. -/
def setTiming (op : Nat) (h : Nat := 0) (host : List Byte := []) (aux : Nat := 0) : Cmd := mk [op] h aux host

/-! ### DisplayCommandsStageTheirEffect -/

theorem test_claim : acc .dispSetTiming (setTiming 0 0 timing) twoBuffers = true ∧ got (structFor twoBuffers (setTiming 0 0 timing) (.read 64)) = some timing ∧
    firstBad (timingFields timing) = none ∧ isChannel (tbLane timing) = true ∧ (twoBuffers.lanes.quad (tbLane timing / 4)).role = .egress ∧ twoBuffers.head 0 = none ∧
    twoBuffers.laneHolder (tbLane timing) (some 0) = none ∧ ((after (exec (.dispSetTiming (setTiming 0 0 timing)) twoBuffers)).head 0).map DispHead.handle = some 0x60000001 := by
  decide +kernel

/-- A head. -/
def head0 (r : HeadRun) : DispHead := { DispHead.fresh 0x60000001 timing with run := r }
/-- The state with a head 0. -/
def withHead (h : DispHead) (s : State := twoBuffers) : State := { s with disp := { s.disp with heads := s.disp.heads.set 0 (some h) } }

theorem test_mode_change : let s := withHead (head0 .running); acc .dispSetTiming (setTiming 0 0x60000001 timing) s = true ∧ s.disp.headOf 0x60000001 = some 0 ∧
    (s.head 0).map DispHead.cloning = some false ∧ s.laneHolder 12 (some 0) = none := by decide +kernel

/-- An attribute block with a writeback ring of two slots, or without. -/
def attrBlock (on : Bool) : List Byte := layout 32 [(6, 1, bit01 on), (7, 1, 4), (8, 1, 2), (9, 1, 1)]

theorem test_attributes : let s := withHead (head0 .running); acc .dispSetTiming (setTiming 1 0x60000001 (attrBlock false)) s = true ∧ firstBad (attrFields (attrBlock false)) = none ∧
    got (structFor s (setTiming 1 0x60000001 (attrBlock false)) (.read 32)) = some (attrBlock false) ∧ abEn (attrBlock false) = false := by decide +kernel

theorem test_writeback : let s := withHead (head0 .running); let c := setTiming 1 0x60000001 (attrBlock true) 0x10000001; acc .dispSetTiming c s = true ∧
    firstBad (attrFields (attrBlock true)) = none ∧ got (structFor s c (.read 32)) = some (attrBlock true) ∧ abEn (attrBlock true) = true ∧
    2 * wbSlotSize timing (attrBlock true) ≤ buf0.size ∧ got (needRing s 0x60000001 0x950 buf0.base (2 * wbSlotSize timing (attrBlock true))) = some () ∧
    ((after (exec (.dispSetTiming c) s)).head 0).map (fun h => h.attrNext.buf) = some 0x10000001 := by decide +kernel

theorem test_head_stop : let c := setTiming 2 0x60000001; [HeadRun.off, .waiting, .running].all (fun r => acc .dispSetTiming c (withHead (head0 r)) &&
    decide ((withHead (head0 r)).cloneTargets 0 = [])) = true ∧ got (structFor (withHead (head0 .off)) c .none) = some [] := by decide +kernel

/-- A layer on pipe 3 of head 0, with a block in force and a staged one. -/
def layer0 (blk next : Option (List Byte)) : DispLayer :=
  { handle := 0x70000001, head := 0, pipe := 3, next := next, blk := blk, binds := [], shown := none, prev := none, segs := [], fetched := 0, live := false, offPath := false,
    lateNow := false, lateRun := 0, goodRun := 0, fresh := false, hidden := false }
/-- The state with layers. -/
def withLayers (ls : List DispLayer) (s : State) : State := { s with disp := { s.disp with layers := ls } }

theorem test_head_release : let c := setTiming 3 0x60000001; acc .dispSetTiming c (withHead (head0 .off)) = true ∧ acc .dispSetTiming c (withLayers [layer0 none none] (withHead (head0 .off))) = true ∧
    (withHead (head0 .off)).layersOf 0 = [] ∧ (withLayers [layer0 none none] (withHead (head0 .off))).layersOf 0 ≠ [] ∧
    (after (exec (.dispSetTiming c) (withHead (head0 .off)))).head 0 = none := by decide +kernel

theorem test_writeback_release : acc .dispSetTiming (setTiming 4 0x60000001) (withHead (head0 .off)) = true := by decide +kernel

/-- A layer block without a source. -/
def plainLayer : List Byte := zeros 64
/-- DISP_COMMIT of head 0. -/
def headCommit (fc next : Nat) (flags : Nat := 0) : Cmd := mk [fc, next] 0x60000001 0 [] flags
/-- A running head of 100 frames with a layer staged. -/
def running100 : State := withLayers [layer0 none (some plainLayer)] (withHead { head0 .running with count := 100 })

theorem test_commit : acc .dispCommit (headCommit 102 0) running100 = true ∧ acc .dispCommit (headCommit 0 1) running100 = true ∧ acc .dispCommit (headCommit 90 0) running100 = true ∧
    acc .dispCommit (headCommit 90 0 1) running100 = true ∧ strict (headCommit 90 0 1) = true ∧
    (running100.head 0).map (fun h => (h.armed.length, decide ((102 : Int) < h.earliest running100.time.stamp), decide ((90 : Int) < h.earliest running100.time.stamp))) = some (0, false, true) ∧
    lbVisible plainLayer = false ∧ lbBind plainLayer = none ∧ ((after (exec (.dispCommit (headCommit 102 0)) running100)).head 0).map (fun h => h.armed.length) = some 1 := by decide +kernel

theorem test_crc_set : let s := withHead (head0 .running); let c := mk [0x105, 0x00020001, 0x00080008, 7] 0x60000001; acc .dispCrcSet c s = true ∧ 1 < tbW timing ∧ 2 < tbH timing ∧
    1 + 8 ≤ tbW timing ∧ 2 + 8 ≤ tbH timing ∧ ((after (exec (.dispCrcSet c) s)).head 0).map (fun h => (vget h.rectNext CrcRect.off 5).w) = some 8 := by decide +kernel

/-- Head 1 runs beside head 0. -/
def twoHeads (h : DispHead) : State := let s := withHead h; { s with disp := { s.disp with heads := s.disp.heads.set 1 (some { head0 .running with handle := 0x60000002, blk := patch timing 0x12 [13] }) } }

theorem test_clone : let c := mk [] 0x60000001 0x60000002; let s := twoHeads (head0 .running); acc .dispClone c s = true ∧ s.disp.headOf 0x60000002 = some 1 ∧
    (s.head 1).map (fun x => (x.cloning, x.run)) = some (false, .running) ∧ s.cloneTargets 0 = [] ∧ s.layersOf 0 = [] := by decide +kernel

theorem test_clone_ends : let c := mk [] 0x60000001; acc .dispClone c (twoHeads (head0 .running)) = true ∧ acc .dispClone c (twoHeads { head0 .running with cloneOf := some 1 }) = true ∧
    { head0 .running with cloneOf := some 1 }.cloning = true := by decide +kernel

theorem test_layer_create : let s := withHead (head0 .running); let c := mk [3] 0 0x60000001 plainLayer; acc .dispLayerSet c s = true ∧ got (structBytes s c) = some plainLayer ∧
    firstBad (layerFields plainLayer) = none ∧ s.disp.layers = [] ∧ got (needLayerSource s plainLayer 0) = some () ∧
    (after (exec (.dispLayerSet c) s)).disp.layers.map DispLayer.pipe = [3] := by decide +kernel

theorem test_layer_stage : let s := withLayers [layer0 (some plainLayer) none] (withHead (head0 .running)); let c := mk [0] 0x70000001 0 plainLayer; acc .dispLayerSet c s = true ∧
    (s.layer 0x70000001).map DispLayer.head = some 0 ∧ got (structBytes s c) = some plainLayer := by decide +kernel

/-- The taps of one phase, of n taps: the first is one. -/
def taps (n : Nat) : List Byte := leBytes 2 8192 ++ zeros (2 * n - 2)
/-- A bank whose phases all sum to one. -/
def bank : List Byte := (List.replicate 64 (taps 8)).flatten ++ (List.replicate 64 (taps 6)).flatten

theorem drop_copies (c r : List Byte) (m p : Nat) (h : p ≤ m) : ((List.replicate m c).flatten ++ r).drop (c.length * p) = (List.replicate (m - p) c).flatten ++ r := by
  induction p with
  | zero => simp
  | succ p ih =>
    rw [Nat.mul_succ, ← List.drop_drop, ih (by omega), show m - p = (m - (p + 1)) + 1 by omega, List.replicate_succ, List.flatten_cons, List.append_assoc, List.drop_left]

theorem phase_sum (b c r : List Byte) (off n : Nat) (h : b.drop off = c ++ r) (hn : 2 * n ≤ c.length) :
    (List.range n).map (fun j => fs16 b (off + 2 * j)) = (List.range n).map (fun j => fs16 c (2 * j)) := by
  refine List.map_congr_left (fun j hj => ?_)
  have hj : j < n := by simpa using hj
  have e : fld b (off + 2 * j) 2 = fld (c ++ r) (2 * j) 2 := by unfold fld; rw [← List.drop_drop, h]
  unfold fs16 f16
  rw [e, fld_append _ _ _ _ (by omega)]

theorem test_bank : badPhase bank = none := by
  unfold badPhase
  apply firstBad_all
  intro x hx
  simp only [List.mem_append, List.mem_map, List.mem_range] at hx
  obtain ⟨p, hp, rfl⟩ | ⟨p, hp, rfl⟩ := hx
  · have h := drop_copies (taps 8) ((List.replicate 64 (taps 6)).flatten) 64 p (by omega)
    rw [show 64 - p = (63 - p) + 1 by omega, List.replicate_succ, List.flatten_cons, List.append_assoc] at h
    have e := phase_sum bank (taps 8) _ (16 * p) 8 h (by decide)
    simp only [e]
    decide
  · have h := drop_copies (taps 6) [] 64 p (by omega)
    rw [show 64 - p = (63 - p) + 1 by omega, List.replicate_succ, List.flatten_cons, List.append_assoc, List.append_nil] at h
    have hb : bank.drop (1024 + 12 * p) = taps 6 ++ ((List.replicate (63 - p) (taps 6)).flatten ++ []) := by
      unfold bank
      rw [← List.drop_drop, List.drop_left' (by rw [List.length_flatten, List.map_replicate, List.sum_replicate_nat, show (taps 8).length = 16 from by decide])]
      exact h
    have e := phase_sum bank (taps 6) _ (1024 + 12 * p) 6 hb (by decide)
    simp only [e]
    decide

/-- DISP_LOAD_COEF of bank 5. -/
def loadCoef : Cmd := Cmd.inDev (mk [5]) 0x284000000 1792
/-- The bank lies in the second buffer. -/
def withBank (s : State) : State := s.writeMem 0x284000000 bank

theorem test_load_coef : acc .dispLoadCoef loadCoef (withBank (withHead (head0 .running))) = true ∧ (withBank (withHead (head0 .running))).bankUsers 5 = [] := by decide +kernel

theorem test_load_coef_used : let s := withLayers [layer0 (some (patch plainLayer 0xA [5])) none] (withHead (head0 .running)); acc .dispLoadCoef loadCoef s = true ∧ s.bankUsers 5 = [0] := by
  decide +kernel

theorem test_coef_bytes (s : State) (h : s.mem.mem.wf = true) : (s.writeMem 0x284000000 bank).readMem 0x284000000 bank.length = bank := Memory.read_write h _ _

/-! ### HeadsStartFramesAndSendLines -/

/-- A command that a head waits for. -/
def someRef : CmdRef := ref .dispSetTiming (setTiming 2 0x60000001)

theorem test_frame_start : let s := withHead { head0 .waiting with hold := some 0, next := some timing }; (s.head 0).map (fun h => (h.stops, h.hold, h.follows)) = some ([], some 0, none) ∧
    0 ≤ s.ns ∧ s.cloneTargets 0 = [] ∧ ((after (exec (.headFrameStart 0) s)).head 0).map (fun h => (h.run, h.count)) = some (.running, 1) := by decide +kernel

theorem test_frame_start_runs : let s := withHead (head0 .running); (s.head 0).map (fun h => (h.stops, h.hold, h.follows, tbPtp (h.next.getD h.blk))) = some ([], none, none, false) := by decide +kernel

theorem test_frame_stop : let s := withHead { head0 .running with stops := [someRef] }; (s.head 0).map (fun h => (h.stops, h.hold, h.follows)) = some ([someRef], none, none) ∧
    ((after (exec (.headFrameStart 0) s)).head 0).map DispHead.run = some .off := by decide +kernel

theorem test_frame_hold : let s := withHead { head0 .running with next := some ptpTiming }; s.ns < startHold ptpTiming s.ns ∧
    ((after (exec (.headFrameStart 0) s)).head 0).map DispHead.hold = some (some 1000000) := by decide +kernel

theorem test_line_send : let s := withHead (head0 .running); (s.head 0).map (fun h => (h.sending, h.cloneOf, h.blankNow)) = some (true, none, false) ∧
    (withHead { head0 .running with blankNow := true }).head 0 = some { head0 .running with blankNow := true } ∧
    ((after (exec (.headLineSend 0 false false) s)).head 0).map DispHead.aborted = some true := by decide +kernel

theorem test_display_mode : let s := withHead (head0 .running); (s.head 0).map DispHead.run = some .running ∧
    ((after (exec (.displayMode 0) s)).head 0).map DispHead.ctrlSeq = some 1 := by decide +kernel

/-! ### DisplayAndLaneWindowRegisters -/

/-- A layer that reads the first buffer directly under index 3. -/
def directBlock : List Byte := layout 64 [(0, 1, 0x14), (1, 1, 3), (4, 4, 0x10000001), (8, 1, 7), (0x10, 4, 64), (0x24, 2, 8), (0x26, 2, 8), (0x2C, 2, 8), (0x2E, 2, 8)]
/-- Its layer is in force. -/
def direct : State := withLayers [layer0 (some directBlock) none] (withHead (head0 .running))

theorem test_live_address : (direct.directLayer 0 3).isSome = true ∧ direct.directFits directBlock 0x280000040 = true ∧ direct.directLayer 0 4 = none ∧
    (((after (exec (.liveAddrWrite 0 3 none 0x280000041) direct)).disp.regs[0]).addr[3]) = 0x280000041 := by decide +kernel

theorem test_frame_count : (direct.disp.heads[0]).isSome = true := by decide +kernel

/-- A calibration record of lane 5. -/
def cal5 : List Byte := zeroFile (layout 12 [(0, 2, 1), (2, 1, 5)]) 0 496

theorem test_cal_window : (State.reset.lanes.lanes[5]).staged.length = 512 := by decide +kernel

theorem test_record_ok : recordOk 5 cal5 = true := by
  have h0 : f16 cal5 0 = 1 := zeroFile_fld (layout 12 [(0, 2, 1), (2, 1, 5)]) 0 496 0 2 (by decide)
  have h2 : f8 cal5 2 = 5 := zeroFile_fld (layout 12 [(0, 2, 1), (2, 1, 5)]) 0 496 2 1 (by decide)
  have hc : f32 cal5 12 = crc32c (zeros 496) := zeroFile_crc (layout 12 [(0, 2, 1), (2, 1, 5)]) 0 496
  have hd : slice cal5 16 496 = zeros 496 := by
    have h := zeroFile_drop (layout 12 [(0, 2, 1), (2, 1, 5)]) 0 496
    unfold slice
    rw [show cal5.drop 16 = zeros 496 from h]
    exact List.take_of_length_le (by unfold zeros; rw [List.length_replicate])
  simp [recordOk, recordFor, h0, h2, hc, hd]

/-- Lane 5 is off with that record staged. -/
def laneOff : State := onLane 5 (fun x => { x with state := .off, staged := cal5 }) State.reset

theorem test_lane_apply : (laneOff.lanes.lanes[5]).state = .off ∧ laneOff.lanes.freeSpare 1 ≠ some 5 ∧
    ((onLane 5 (fun x => { x with state := .active }) State.reset).lanes.lanes[5]).state = .active := by decide +kernel

end Sys2Proof.Tests
end

