-- ==== Sys2Proof/Tests/HostWitness.lean ====
section
/-!
SUPPORT. States and operands that meet the hypotheses of the statements about the host interface and the registers, clause by clause.
-/
namespace Sys2Proof.Tests

set_option Elab.async false

open Sys2Proof.Machine

/-! ### HostEnableChecksAndSetsUpAdminQueue -/

/-- Good admin registers at the ends of their ranges. -/
def readyToEnable : State := { State.reset with host := { State.reset.host with asqs := 1, acqs := 4095, asqBase := 0x1000, acqBase := 0x2000 } }

theorem test_host_enable_good : let s := readyToEnable; s.ready = true ∧ s.host.en = false ∧ (1 ≤ s.host.asqs ∧ s.host.asqs ≤ 4095) ∧
    (1 ≤ s.host.acqs ∧ s.host.acqs ≤ 4095) ∧ s.host.asqBase.toNat % 4096 = 0 ∧ s.host.acqBase.toNat % 4096 = 0 ∧
    (after (exec .hostEnable s)).rdy = true := by decide +kernel

theorem test_host_enable_bad : let s := { readyToEnable with host := { readyToEnable.host with asqs := 0 } }; s.ready = true ∧ s.host.en = false ∧
    ¬ (1 ≤ s.host.asqs) ∧ (after (exec .hostEnable s)).host.paramErr = true := by decide +kernel

/-! ### HostInterfaceResetClearsTheHostBlock -/

theorem test_host_disable : enabled.host.en = true ∧ (after (exec .hostDisable enabled)).host.en = false := by decide +kernel

/-! ### DoorbellsMoveTheirIndexOrAreInvalid -/

theorem test_sq_doorbell_good : let k := enabled.queue 0; enabled.ready = true ∧ k.live = true ∧ k.reset = none ∧ 15 < k.entries ∧
    (15 + k.entries - k.sqTail) % k.entries + k.unfetched < k.entries ∧ ((after (exec (.sqDoorbell 0 15) enabled)).queue 0).sqTail = 15 := by decide +kernel

theorem test_doorbell_bad : ¬ 16 < (enabled.queue 0).entries ∧ (after (exec (.sqDoorbell 0 16) enabled)).host.paramErr = true ∧
    (enabled.queue 1).live = false := by decide +kernel

theorem test_cq_doorbell_good : let s := withQueue 0 { queue16 with cqTail := 3 } enabled; let k := s.queue 0; s.ready = true ∧ k.live = true ∧ k.reset = none ∧
    3 < k.cqEntries ∧ (3 + k.cqEntries - k.cqHead) % k.cqEntries ≤ (k.cqTail + k.cqEntries - k.cqHead) % k.cqEntries ∧
    ((after (exec (.cqDoorbell 0 3 true) s)).queue 0).cqHead = 3 := by decide +kernel

theorem test_cq_doorbell_bad : ¬ (1 + (enabled.queue 0).cqEntries - (enabled.queue 0).cqHead) % (enabled.queue 0).cqEntries ≤
    ((enabled.queue 0).cqTail + (enabled.queue 0).cqEntries - (enabled.queue 0).cqHead) % (enabled.queue 0).cqEntries := by decide +kernel

/-! ### CommandCompleteWritesTheEntry and CompletionsSignalTheirVector -/

/-- A completion that is ready. -/
def done0 : Ready := { ent := 0, op := 0x0101, cid := 5, flags := 0, status := .ok, r0 := 1, r1 := 2, logged := false, held := false }

/-- A queue at its last completion entry with one completion ready. -/
def oneReady : State := withQueue 0 { queue16 with ready := [done0], cqTail := 15, cqHead := 1, cqTime := 10, cqCount := 4 } enabled

theorem test_command_complete : let k := oneReady.queue 0; k.ready = [done0] ∧ k.halted = false ∧ k.reset = none ∧ k.flush = none ∧ k.cqFull = false ∧
    k.cq = .hostMem 0x20000 ∧ ((after (exec (.commandComplete 0 true) oneReady)).queue 0).phase = false ∧
    ((after (exec (.commandComplete 0 true) oneReady)).queue 0).cqTail = 0 := by decide +kernel

theorem test_complete_waits_for_more : let k := oneReady.queue 0; ¬ (done0.status ≠ .ok ∧ done0.status ≠ .okAdjusted) ∧ ¬ done0.op.toNat = 0x0020 ∧
    ¬ (k.cqCount ≤ k.unsig + 1 ∨ k.cqTime = 0) ∧ ((after (exec (.commandComplete 0 true) oneReady)).queue 0).unsig = 1 := by decide +kernel

theorem test_complete_signals_at_count : let s := withQueue 0 { queue16 with ready := [done0] } enabled; let k := s.queue 0;
    ¬ (done0.status = .ok ∧ done0.flags.getLsbD 1 = true) ∧ k.cqCount ≤ k.unsig + 1 := by decide +kernel

theorem test_coalescing_timeout : let s := withQueue 0 { queue16 with unsig := 1, unsigElig := true } enabled; (s.queue 0).unsigElig = true ∧
    ((after (exec (.coalescingTimeout 0) s)).queue 0).unsig = 0 := by decide +kernel

/-! ### CommandFetchServesQueueZeroFirst and CommandDispatchTakesAllLocksOrNone -/

theorem test_command_fetch : let s := withQueue 0 { queue16 with sqTail := 1 } enabled; let k := s.queue 0; s.ready = true ∧ k.fetchable = true ∧
    k.sq = .hostMem 0x10000 ∧ k.flush = none ∧ k.reset = none ∧ (after (exec (.commandFetch [.failed]) s)).host.adminHalted = true := by decide +kernel

theorem test_command_fetch_entry : let s := withQueue 0 { queue16 with sqTail := 1 } enabled; s.returning = false ∧ (s.queue 0).fetchable = true ∧
    ((after (exec (.commandFetch [.entry 0x0102 (mk []).toPacket]) s)).queue 0).fetched.length = 1 := by decide +kernel

theorem test_command_fetch_waits : let s := withQueue 0 { queue16 with sqTail := 1 } { enabled with
      power := { enabled.power with waking := some (.ps2, 9) }, mem := { enabled.mem with change := some { target := 0, next := 0, waived := false, by_ := [] } } };
    s.ready = true ∧ s.returning = true ∧ (s.queue 0).fetchable = true := by decide +kernel

theorem test_command_fetch_barrier : let s := withQueue 1 { queue16 with handle := 0x90000002, submitted := 3 } (withQueue 0 { queue16 with sqTail := 1 } enabled);
    (s.queue 1).live = true ∧ (s.queue 1).barrier = none ∧
    ((after (exec (.commandFetch [.entry (BitVec.ofNat 16 Op.fwActivate.code) (mk []).toPacket]) s)).queue 1).barrier = some 3 := by decide +kernel

/-- BUF_FILL of a whole buffer, fetched on queue 1 but not started. -/
def fetchedFill (op : Half) (s : State) : State :=
  withQueue 1 { queue16 with fetched := [{ ent := 0, op := op, pkt := (mk [0, 0, 64] 0x10000001).toPacket }] } s

theorem test_command_dispatch : let s := fetchedFill 0x0104 twoBuffers; let k := s.queue 1; let c := toCmd 1 (mk [0, 0, 64] 0x10000001).toPacket (.bytes []);
    s.ready = true ∧ k.halted = false ∧ k.flush = none ∧ k.reset = none ∧ k.cqFull = false ∧ k.barrier = none ∧ Op.ofCode 0x0104 = some .bufFill ∧
    got (preflight s .bufFill c) = some () ∧ locksFree s.host.locks (opRanges s .bufFill c) = true ∧
    ((after (exec (.commandDispatch 1 (.bytes [])) s)).queue 1).inFlight.length = 1 := by decide +kernel

theorem test_command_stalls : let s := fetchedFill 0x0104 { twoBuffers with host := { twoBuffers.host with
      locks := [{ start := 0x280000000, len := 64, write := true, qid := 2, cid := 1 }] } };
    locksFree s.host.locks (opRanges s .bufFill (toCmd 1 (mk [0, 0, 64] 0x10000001).toPacket (.bytes []))) = false := by decide +kernel

theorem test_unlisted_opcode : Op.ofCode 0x0106 = none ∧
    ((after (exec (.commandDispatch 1 (.bytes [])) (fetchedFill 0x0106 twoBuffers))).queue 1).ready.length = 1 := by decide +kernel

/-! ### QueueCommandsMakeAndEmptyQueues -/

theorem test_queue_create : let c := mk [4096, 1, 0x10000, 0, 0x80000, 0]; acc .queueCreate c enabled = true ∧ (enabled.queue 1).live = false ∧
    bitsOf (par c 0) 12 0 = 4096 ∧ bitsOf (par c 1) 7 0 = 1 ∧ par64 c 2 % 4096 = 0 ∧ par64 c 4 % 4096 = 0 ∧
    ((after (exec (.queueCreate c) enabled)).queue 1).live = true := by decide +kernel

theorem test_queue_create_in_device : let c := mk [0x300002, 1, 0, 0, 0x1000, 0] 0 0x10000001; acc .queueCreate c twoBuffers = true ∧ typeOf c.aux = 1 ∧
    (twoBuffers.buffer c.aux).isSome = true ∧ ((after (exec (.queueCreate c) twoBuffers)).queue 1).sq = .devMem 0x280000000 := by decide +kernel

/-- Queue 3, with one command fetched. -/
def queue3 : State := withQueue 3 { queue16 with handle := 0x90000003, fetched := [{ ent := 0, op := 1, pkt := (mk []).toPacket }] } enabled

theorem test_queue_of_handle : queue3.queueOf 0x90000003 = some 3 ∧ (queue3.queue 3).outstanding = 1 ∧ (queue3.queue 3).flush = none := by decide +kernel

theorem test_queue_delete : let c := mk [] 0x90000003; let s := withQueue 3 { queue16 with handle := 0x90000003 } enabled; acc .queueDelete c s = true ∧
    (s.queue 3).outstanding = 0 ∧ s.queueOf c.handle = some 3 ∧ (after (exec (.queueDelete c) s)).queue 3 = Queue.absent := by decide +kernel

theorem test_queue_flush_and_reset : acc .queueFlush (mk [] 0x90000003) queue3 = true ∧ acc .queueReset (mk [] 0x90000003) queue3 = true ∧
    acc .queueDelete (mk [] 0x90000003) queue3 = true ∧ ((after (exec (.queueFlush (mk [] 0x90000003)) queue3)).queue 3).ready.length = 1 := by decide +kernel

theorem test_admin_reset : enabled.host.en = true ∧ (enabled.queue 0).live = true ∧ (enabled.queue 0).reset = none := by decide +kernel

/-! ### EventRequestsAndFeatures -/

theorem test_async_event_request : let c := mk []; acc .asyncEventRequest c enabled = true ∧ enabled.host.async.length < Config.asyncMax ∧ enabled.host.held = [] ∧
    (after (exec (.asyncEventRequest c) enabled)).host.async.length = 1 := by decide +kernel

theorem test_async_event_held : let s := enabled.post .thermal 5; s.host.held.length = 1 ∧ acc .asyncEventRequest (mk []) s = true ∧
    (after (exec (.asyncEventRequest (mk [])) s)).host.held = [] := by decide +kernel

theorem test_async_event_full : let s := { enabled with host := { enabled.host with async := List.replicate 16 (ref .asyncEventRequest (mk [])) } };
    Config.asyncMax ≤ s.host.async.length ∧ acc .asyncEventRequest (mk []) s = true := by decide +kernel

theorem test_set_feature_weights : let c := mk [1, 0x010203]; acc .setFeature c enabled = true ∧
    (after (exec (.setFeature c) enabled)).host.feat.wHigh = 3 := by decide +kernel

theorem test_set_feature_limits : acc .setFeature (mk [2, 10]) enabled = true ∧ acc .setFeature (mk [0x31, 5000]) enabled = true ∧
    acc .setFeature (mk [0x40, 10]) enabled = true ∧ acc .setFeature (mk [0x41, 168]) enabled = true ∧ acc .setFeature (mk [0x30, 1, 1, 2]) enabled = true ∧
    acc .setFeature (mk [0x99, 1]) enabled = true ∧ (after (exec (.setFeature (mk [0x31, 5000])) enabled)).host.feat.guard = 5000 := by decide +kernel

theorem test_get_feature : let c := Cmd.toHost (mk [2]) 32; acc .getFeature c enabled = true ∧ got (featureNow enabled c) = some (200, 0, 0) := by decide +kernel

/-! ### IdentifyAndLogPagesAreCopied -/

theorem test_identify : acc .identify (Cmd.toHost (mk []) 4096) enabled = true ∧ enabled.mem.mem.wf = true := by decide +kernel

theorem test_identify_in_device : acc .identify (Cmd.inDev (mk []) 0x280000000 4096) twoBuffers = true ∧ twoBuffers.mem.mem.wf = true := by decide +kernel

end Sys2Proof.Tests
end

