-- ==== Sys2Proof/Tests/JourneymanWitness.lean ====
section
/-!
SUPPORT. States and operands that meet the hypotheses of the statements about Journeyman kernels and invocations, clause by clause.
-/
namespace Sys2Proof.Tests

set_option Elab.async false

open Sys2Proof.Machine

/-! ### KernelsAreLoadedAndBound -/

/-- The header of a kernel of a class and a signer: one plane of 8 bits and two reduction words for TILE, parameters of 64 bytes. -/
def kernelHead (cls signer cpt : Nat) : List Byte :=
  layout 256 [(0, 4, 0x314B4D4A), (4, 2, 1), (6, 1, cls), (7, 1, signer), (8, 4, 64), (0x14, 4, 64), (0x18, 4, cpt), (0x1D, 1, 1), (0x1E, 2, if cls = 0 then 1 else 0), (0x20, 2, 2), (0x22, 2, 1)]
/-- Its image. -/
def image (cls signer cpt : Nat) : List Byte := kernelHead cls signer cpt ++ zeros 64
/-- The image lies at the end of the second buffer of a state. -/
def withImage (t : List Byte) (s : State) : State := s.writeMem 0x287000000 t
/-- JM_LOAD_KERNEL of it on n roles. -/
def loadKernel (n : Nat) : Cmd := Cmd.inDev (mk [n] 0 0x10000002) 0x287000000 320

/-- Whether an image is read for a load. -/
def imageRead (s : State) (n : Nat) (t : List Byte) : Bool :=
  acc .jmLoadKernel (loadKernel n) s && decide (got (tableBytes s (loadKernel n) 256 (fun _ => 320)) = some t)

theorem test_load_bad_header : imageRead (withImage (image 3 0 1000) (camWith ozoth)) 1 (image 3 0 1000) = true ∧ imageOk ((image 3 0 1000).take 256) = false := by decide +kernel

theorem test_load_bad_signature : imageRead (withImage (image 0 1 1000) (camWith ozoth)) 1 (image 0 1 1000) = true ∧ imageOk ((image 0 1 1000).take 256) = true ∧
    signatureFault (camWith ozoth).mgmt.fw.ownerKey.isSome (khSigner (kernelHead 0 1 1000)) true false = some 2 := by decide +kernel

/-- The roles that a load may use. -/
def freeRoles (s : State) : List Nat := (List.range 128).filter (fun r => (s.mgmt.units.unitOf .siteU r).isSome && s.jm.kernels.all (fun k => !k.roles.contains r))

/-- A kernel on every role but one. -/
def wideKernel : Kernel :=
  { handle := 0x80000063, head := kernelHead 1 0 0, body := zeros 64, roles := List.range 127, faulted := false, unload := none, consec := 0, lastTrap := 0, cnt := KernelCounters.zero }
/-- It is loaded. -/
def crowded : State := let s := withImage (image 0 0 1000) (camWith ozoth); { s with jm := { s.jm with kernels := [wideKernel] } }

theorem test_load_no_roles : imageRead crowded 2 (image 0 0 1000) = true ∧ (freeRoles crowded).length < 2 := by decide +kernel

/-- A kernel is loaded on two roles. -/
def loaded (cls : Nat) (s : State) : State := after (exec (.jmLoadKernel (loadKernel 2) true true) (withImage (image cls 0 (if cls = 0 then 1000 else 0)) s))

theorem test_load : imageRead (withImage (image 0 0 1000) (camWith ozoth)) 2 (image 0 0 1000) = true ∧ imageOk ((image 0 0 1000).take 256) = true ∧
    (image 0 0 1000).length = 256 + khLen (kernelHead 0 0 1000) + khState (kernelHead 0 0 1000) ∧ 2 ≤ (freeRoles (camWith ozoth)).length ∧
    (loaded 0 (camWith ozoth)).jm.kernels.map (fun k => (k.handle, k.roles)) = [(0x80000001, [0, 1])] := by decide +kernel

/-- A TILE binding block: hook 0, two slots, every FN, in the second buffer. -/
def tileBlock : List Byte := layout 32 [(0, 1, 0), (1, 1, 2), (2, 1, 1), (4, 4, 0x10000002)]
/-- JM_BIND_STAGE of the kernel to the camera. -/
def bindCmd (op : Nat) (host : List Byte := []) (target : Nat := 0x20000001) : Cmd := mk [op] 0x80000001 target host
/-- TILE kernel and camera. -/
def tileSt : State := loaded 0 (camWith ozoth)

/-- What a TILE binding asks, of a kernel's capacity aside. -/
def bindTileOk (s : State) : Bool :=
  match s.kernel 0x80000001 with
  | some k => let p := (s.cam 0).profile
    let size := hookSlotSize k.head (pfW p) (pfH p)
    decide (khClass k.head = 0) && k.unload.isNone && !k.faulted && decide ((s.bindsOf k.handle).length < 8) && decide (s.cams.find 0x20000001 = some 0) &&
    decide (firstBad (bindFields k.head tileBlock) = none) && decide (s.buffer 0x10000002 = some buf1) && decide (2 * size ≤ buf1.size) &&
    decide (got (needRing s 0x20000001 0xA20 buf1.base (2 * size)) = some ())
  | none => false

/-- The charge and what is left of a kernel's capacity. -/
def tileRoom (s : State) : Option (Nat × Nat) := (s.kernel 0x80000001).map (fun k => (tileCharge (s.cam 0).profile 1, s.capacity k - s.charged k.handle))

theorem test_bind_tile : acc .jmBindStage (bindCmd 0 tileBlock) tileSt = true ∧ got (structFor tileSt (bindCmd 0 tileBlock) (.read 32)) = some tileBlock ∧ bindTileOk tileSt = true ∧
    tileSt.liveHandle 0x20000001 = true ∧ (tileRoom tileSt).map (fun r => decide (r.1 ≤ r.2)) = some true ∧
    (after (exec (.jmBindStage (bindCmd 0 tileBlock)) tileSt)).jm.binds.length = 1 := by decide +kernel

/-- The kernel has lost its roles. -/
def noRoles : State := { tileSt with jm := { tileSt.jm with kernels := tileSt.jm.kernels.map (fun k => { k with roles := [] }) } }

theorem test_bind_over_budget : acc .jmBindStage (bindCmd 0 tileBlock) noRoles = true ∧ bindTileOk noRoles = true ∧ (tileRoom noRoles).map (fun r => decide (r.2 < r.1)) = some true := by
  decide +kernel

/-- RATE kernel and encode session. -/
def rateSt : State := loaded 2 encSt

theorem test_bind_rate : acc .jmBindStage (bindCmd 0 [] 0x30000001) rateSt = true ∧ (rateSt.kernel 0x80000001).map (fun k => (khClass k.head, k.faulted, k.unload)) = some (2, false, none) ∧
    (rateSt.enc 0x30000001).map (fun e => (e.closing, e.ended, e.faulted)) = some (false, false, false) ∧ got (structFor rateSt (bindCmd 0 [] 0x30000001) .none) = some [] ∧
    (after (exec (.jmBindStage (bindCmd 0 [] 0x30000001)) rateSt)).jm.binds.length = 1 := by decide +kernel

/-- The TILE binding is staged; in force. -/
def tileStaged : State := after (exec (.jmBindStage (bindCmd 0 tileBlock)) tileSt)
/-- A change of the bindings. -/
def onBinds (f : KBind → KBind) (s : State) : State := { s with jm := { s.jm with binds := s.jm.binds.map f } }
/-- In force. -/
def tileLive : State := onBinds (fun b => { b with live := true, by_ := none }) tileStaged
/-- The binding that a command names. -/
def named (s : State) (c : Cmd) : Option KBind := (s.kernel 0x80000001).bind (fun k => s.bindNamed k c)

theorem test_binding_commands : acc .jmBindStage (bindCmd 1) tileLive = true ∧ acc .jmBindStage (bindCmd 2) tileLive = true ∧ acc .jmBindStage (bindCmd 3 (zeros 64)) tileLive = true ∧
    acc .jmBindStage (bindCmd 2) tileStaged = true ∧ (named tileLive (bindCmd 1)).map KBind.live = some true ∧ (named tileLive (bindCmd 2)).map KBind.live = some true ∧
    (named tileLive (bindCmd 3 (zeros 64))).map KBind.live = some true ∧ (named tileStaged (bindCmd 2)).map KBind.live = some false ∧
    got (structFor tileLive (bindCmd 2) .none) = some [] ∧ got (structFor tileLive (bindCmd 3 (zeros 64)) (.read 64)) = some (zeros 64) ∧
    (tileLive.kernel 0x80000001).map (fun k => khParam k.head) = some 64 := by decide +kernel

theorem test_unload_conflict : acc .jmUnload (mk [] 0x80000001) tileLive = true ∧ (tileLive.kernel 0x80000001).map Kernel.unload = some none ∧
    ((tileLive.bindsOf 0x80000001).find? (fun b => !tileLive.superseded b)).isSome = true := by decide +kernel

theorem test_unload : acc .jmUnload (mk [] 0x80000001) tileSt = true ∧ tileSt.bindsOf 0x80000001 = [] ∧ (after (exec (.jmUnload (mk [] 0x80000001)) tileSt)).jm.kernels = [] := by
  decide +kernel

/-- POLICY kernel and a camera with statistics staged. -/
def policySt : State := onCam (fun x => { x with next := { x.next with stats := some { id := 1, blk := stat0, slots := 2, hostRead := false, base := 0x286000000, slotSize := statSlotSize stat0 } } })
  (loaded 1 (camWith ozoth))
/-- EXP_POLICY_BIND. -/
def policyCmd (h : Nat) : Cmd := mk [0] 0x20000001 h

theorem test_policy_bind : acc .expPolicyBind (policyCmd 0x80000001) policySt = true ∧ acc .expPolicyBind (policyCmd 0) policySt = true ∧
    (policySt.kernel 0x80000001).map (fun k => (khClass k.head, k.unload, k.faulted)) = some (1, none, false) ∧ (policySt.cam 0).next.stats.isSome = true ∧
    policySt.bindsOf 0x80000001 = [] ∧ (policySt.cam 0).state = .configured ∧
    vget ((after (exec (.expPolicyBind (policyCmd 0x80000001)) policySt)).cam 0).bindNext none 0 = some (some 0x80000001) := by decide +kernel

/-- The same while the camera runs. -/
def policyRunning : State := onCam (fun x => { x with state := .running, run := 1 }) policySt

theorem test_policy_bind_running : acc .expPolicyBind (policyCmd 0x80000001) policyRunning = true ∧ (policyRunning.cam 0).state = .running ∧
    (after (exec (.expPolicyBind (policyCmd 0x80000001)) policyRunning)).jm.polBy.length = 1 := by decide +kernel

/-- The kernel holds role 0 of the running camera. -/
def policyHeld : State :=
  onCam (fun x => { x with state := .running, run := 1 }) ((after (exec (.expPolicyBind (policyCmd 0x80000001)) policySt)).latchPolicies 0 0)

theorem test_policy_unbind : acc .jmBindStage (bindCmd 2) policyHeld = true ∧ (named policyHeld (bindCmd 2)).isSome = true ∧ got (structFor policyHeld (bindCmd 2) .none) = some [] ∧
    ((policyHeld.cam 0).bindNext.toList[0]?) = some none ∧ vget (policyHeld.cam 0).policies none 0 = some 0x80000001 ∧
    (policyHeld.cam 0).next.stats.isSome = true := by decide +kernel

theorem test_policy_without_statistics : acc .expPolicyBind (policyCmd 0) (loaded 1 (camWith ozoth)) = true ∧
    ((loaded 1 (camWith ozoth)).cam 0).next.stats = none := by decide +kernel

/-! ### InvocationsRunAndEnd -/

/-- A frame of the camera is hooked: one tile is queued. -/
def hook0 : HookFrame :=
  { kernel := 0x80000001, slot := 0, cam := 0, hook := 0, run := 1, fn := 0, shape := (64, 64), base := 0x284000000, ringSlot := some 0, deadline := 1000000, params := [],
    queued := [(0, 0)], started := [], good := [], bad := [], reds := List.replicate 2 { value := 0, added := false, maxed := false }, poisoned := false, reprocessed := false,
    closed := false }
/-- The state with it. -/
def hooked : State := { tileLive with jm := { tileLive.jm with hooks := [hook0] } }

theorem test_invocation_start : ((hooked.jmRates.jm.kernels.find? (fun k => k.roles.contains 0)).map Kernel.faulted) = some false ∧ (hooked.jmRates.mgmt.units.unitOf .siteU 0).isSome = true ∧
    ((List.range 4).find? (fun t => hooked.jmRates.jm.running.all (fun i => !(i.role == 0 && i.thread == t)))) = some 0 ∧
    ((hooked.jmRates.kernel 0x80000001).map (fun k => (minBy (fun x => x.1) (hooked.jmRates.pendings k)).isSome)) = some true ∧
    (after (exec (.jmInvocationStart 0 false) hooked)).jm.running.length = 1 := by decide +kernel

/-- The tile runs on thread 0 of role 0. -/
def tileRuns : State := after (exec (.jmInvocationStart 0 false) hooked)

theorem test_invocation_runs : ((tileRuns.invocation 0 0).map (fun i => (i.kind, i.epoch))) = some (.tile 0 0 1 0 0 0, tileRuns.mgmt.units.epochOf .siteU 0) ∧
    [(JmRed.add, 0, 5)].all (redOk (tileRuns.khead 0x80000001)) = true ∧
    (after (exec (.jmInvocationEnd 0 0 (.tile [[1]] [(JmRed.add, 0, 5)])) tileRuns)).jm.running = [] ∧
    (tileRuns.mgmt.units.roleOf .siteU 0) = some 0 := by decide +kernel

/-- An invocation of a kind on role 0. -/
def invoc (kind : JobKind) (epoch : Nat) : Invoc := { kernel := 0x80000001, slot := 0, kind := kind, role := 0, thread := 0, epoch := epoch, startNs := 0, wasReset := false }
/-- A state that runs it. -/
def runs (i : Invoc) (s : State) : State := { s with jm := { s.jm with running := [i] } }

theorem test_invocation_stale : ((runs (invoc (.tile 0 0 1 0 0 0) 99) tileRuns).invocation 0 0).isSome = true ∧ 99 ≠ tileRuns.mgmt.units.epochOf .siteU 0 := by decide +kernel

theorem test_policy_invocation : let s := runs (invoc (.policy 0 1 0) 1) policyHeld; ((s.invocation 0 0).map Invoc.kind) = some (.policy 0 1 0) ∧ s.mgmt.units.epochOf .siteU 0 = 1 := by
  decide +kernel

theorem test_rate_invocation : let s := runs (invoc (.rate 0x30000001 0 0) 1) rateSt; ((s.invocation 0 0).map Invoc.kind) = some (.rate 0x30000001 0 0) ∧ s.mgmt.units.epochOf .siteU 0 = 1 := by
  decide +kernel

theorem test_tile_deadline : hooked.jm.hooks = [hook0] ∧ (after (exec (.tileDeadline 0 0) tileRuns)).jm.running = [] := by decide +kernel

end Sys2Proof.Tests
end

