-- ==== Sys2Proof/Tests/MachineWitness.lean ====
section
/-!
SUPPORT. States and operands that meet the hypotheses of the statements about the machine as a whole, and of the clauses about slices, motion and the
budget of PS1.
-/
namespace Sys2Proof.Tests

set_option Elab.async false

open Sys2Proof.Machine

/-! ### SlicesAndMotionWork -/

/-- Context 0 with its frame stored whole. -/
def wholeFrame : State := onCam (fun c => { c with frames := c.frames.map (fun f => { f with stored := f.stored.set 0 64, fields := 0 }) }) oneFrame

theorem test_slice_dispatch_whole : (wholeFrame.mgmt.units.unitOf .sliceU 2).isSome = true ∧ wholeFrame.cams.slices[2] = none ∧ wholeFrame.eligibles.length = 1 ∧
    (minBy (fun y => y.1) wholeFrame.eligibles).isSome = true ∧ ((after (exec (.sliceDispatch 2) wholeFrame)).cams.slices[2]).map SliceJob.cam = some 0 := by decide +kernel

theorem test_motion_band : (minBy (fun y => y.1) wholeFrame.motionBands).isSome = true ∧ wholeFrame.mgmt.units.unitOf .motionU 0 = some 0 ∧
    ((after (exec .motionWatchdog wholeFrame)).cam 0).frames.map (fun f => f.fields) = [1] := by decide +kernel

/-! ### PwrSetStateChecksTheEntry -/

/-- Context 0 at 4,096 Mpixel/s on one slice. -/
def fast : State := onCam (fun c => { c with profile := patch c.profile 0x10 (leBytes 4 1000) }) (runningWith ozoth)

theorem test_pwr_budget : acc .pwrSetState (mk [1]) fast = true ∧ fast.power.throttled = false ∧ fast.maxShare = 4096 := by decide +kernel

/-! ### The machine as a whole -/

theorem test_empty_queue : State.reset.pending = [] ∧ (after (step State.reset)).time.now = 0x280000000 ∧ (after (step State.reset)).time.sub = 0 := by decide +kernel

theorem test_front_command : (after (step { State.reset with pending := [.timeAsymWrite 0 5, .timeAsymWrite 1 6] })).pending = [.timeAsymWrite 1 6] ∧
    (after (step { State.reset with pending := [.timeAsymWrite 0 5, .timeAsymWrite 1 6] })).time.asym[0] = 5 := by decide +kernel

theorem test_inv_reset : Inv State.reset := by unfold Inv; decide +kernel

theorem test_admin_elsewhere : commandOf (.queueFlush { mk [] with qid := 1 }) = some (.queueFlush, { mk [] with qid := 1 }) ∧ Op.queueFlush.code / 256 = 0 ∧ State.reset.power.phase = .running ∧
    ({ mk [] with qid := 1 } : Cmd).qid ≠ 0 := by decide +kernel

theorem test_not_admin : ¬ (Op.timeStep.code / 256 = 0 ∨ Op.timeStep = .fwCommit ∨ Op.timeStep = .fwActivate) ∧ acc .timeStep { mk [] with qid := 1 } State.reset = true := by decide +kernel

theorem test_bad_packets : 8 ≤ (mk [] 0 0 [] 8).flags.toNat ∧ ({ mk [] with rsvd1C := 1 } : Cmd).rsvd1C ≠ 0 ∧ firstBad (packetFields .bufFree (mk [] 5)) = none ∧
    handleOk State.reset (opSpec .bufFree).h (mk [] 5).handle = false := by decide +kernel

end Sys2Proof.Tests
end

