-- ==== Sys2Proof/Tests/RateWitness.lean ====
section
/-!
SUPPORT. A session whose rate kernel has not answered: its budget rests on free roundings, so it is bounded by lemma.
-/
namespace Sys2Proof.Tests

set_option Elab.async false

open Sys2Proof.Machine

theorem roundFree_nat (key : List Nat) (n : Nat) : (roundFree key ((n : Nat) : Rat)).toNat = n := by
  have h1 : Rat.floor ((n : Nat) : Rat) = (n : Int) := Rat.floor_intCast n
  have h2 : Rat.ceil ((n : Nat) : Rat) = (n : Int) := Rat.ceil_intCast n
  unfold roundFree
  rw [h1, h2]
  split <;> rfl

theorem clampRat_same (lo x : Rat) : clampRat lo lo x = lo := by
  unfold clampRat minRat maxRat
  by_cases h : lo < x
  · simp [h]
  · simp [h]

/-- With less than one picture's least in the buffer, a picture's budget is that least. -/
theorem plan_least (e : EncSession) (f : EncFrame) (t : PicType) (layer : Nat) (hm : rbMode e.rate ≠ 0) (ha : e.answer = .none)
    (hc : maxRat (minRat (e.fullness - (sumNat (e.pics.map EncPic.budget) : Nat) - (ctuRows e.blk e.size.2 * rowMin e.blk e.size.1 t : Nat)) (rbMaxAu e.rate e.size.1 e.size.2 * 8 : Nat))
      (ctuRows e.blk e.size.2 * rowMin e.blk e.size.1 t : Nat) = (ctuRows e.blk e.size.2 * rowMin e.blk e.size.1 t : Nat)) :
    (e.plan f t layer).1 = ctuRows e.blk e.size.2 * rowMin e.blk e.size.1 t := by
  unfold EncSession.plan
  rw [if_neg hm, ha]
  simp only [ite_self, EncSession.limitBits]
  rw [hc, clampRat_same, roundFree_nat]

/-- Constant bit rate. -/
def constRate : List Byte := patch constQp 0 [1]
/-- The session under a rate kernel, its first frame closed, with an empty buffer. -/
def rateWaits : State := onEnc (fun e => { e with rate := constRate, rateBound := true, cpb := 0 }) encReady

/-- The least budget of that session's first picture. -/
def leastBits (e : EncSession) : Nat := ctuRows e.blk e.size.2 * rowMin e.blk e.size.1 .idr

/-- The reservation of that picture. -/
def leastSpace (e : EncSession) : Nat := reservation (leastBits e) (ctuRows e.blk e.size.2) (rowMin e.blk e.size.1 .idr)

theorem next_least (e : EncSession) (f : EncFrame) (hi : e.idrNext = true) (hp : e.positions.take 1 = [(0, 0, [])])
    (hf : e.frames.find? (fun f => f.fn == 0) = some f) (hg : (f.field && e.freeSlot.isSome) = true) (ht : e.typeFor 0 (e.refsFor 0 []) = .idr)
    (hb : (e.plan f .idr 0).1 = leastBits e) : ∃ n, e.next = some n ∧ n.space = leastSpace e := by
  rw [Bool.and_eq_true] at hg
  have hn : e.freeSlot.isNone = false := by
    cases h : e.freeSlot with
    | none => rw [h] at hg; exact absurd hg.2 (by decide)
    | some _ => rfl
  unfold EncSession.next
  rw [if_pos hi, hp]
  simp only [List.findSome?_cons, List.findSome?_nil, EncSession.candidate]
  rw [hf]
  simp only [hg.1, hn, hi, Bool.not_true, Bool.or_false, Bool.true_or, Bool.false_eq_true, if_false, ht]
  exact ⟨_, rfl, by rw [hb]; rfl⟩

theorem test_rate_kernel_waits (e : EncSession) (he : rateWaits.encs = [e]) : rateWaits.rateWaits e = true := by
  have hk : rateWaits.encs.map (fun e => (e.faulted, e.released, decide (e.answer = .none), decide (rbMode (rateWaits.encView e).rate ≠ 0))) =
      [(false, false, true, true)] := by decide +kernel
  have hi : rateWaits.encs.map (fun e => (rateWaits.encView e).formed.idrNext) = [true] := by decide +kernel
  have hp : rateWaits.encs.map (fun e => (rateWaits.encView e).formed.positions.take 1) = [[(0, 0, [])]] := by decide +kernel
  have hf : rateWaits.encs.map (fun e => (rateWaits.encView e).formed.frames.find? (fun f => f.fn == 0)) = [some encFrame] := by decide +kernel
  have hg : rateWaits.encs.map (fun e => encFrame.field && (rateWaits.encView e).formed.freeSlot.isSome) = [true] := by decide +kernel
  have ht : rateWaits.encs.map (fun e => (rateWaits.encView e).formed.typeFor 0 ((rateWaits.encView e).formed.refsFor 0 [])) = [.idr] := by decide +kernel
  have hm : rateWaits.encs.map (fun e => (decide (rbMode (rateWaits.encView e).formed.rate ≠ 0), decide ((rateWaits.encView e).formed.answer = .none))) = [(true, true)] := by
    decide +kernel
  have hc : rateWaits.encs.map (fun e => let v := (rateWaits.encView e).formed
      decide (maxRat (minRat (v.fullness - (sumNat (v.pics.map EncPic.budget) : Nat) - (ctuRows v.blk v.size.2 * rowMin v.blk v.size.1 .idr : Nat))
        (rbMaxAu v.rate v.size.1 v.size.2 * 8 : Nat)) (ctuRows v.blk v.size.2 * rowMin v.blk v.size.1 .idr : Nat) =
        (ctuRows v.blk v.size.2 * rowMin v.blk v.size.1 .idr : Nat))) = [true] := by decide +kernel
  have hs : rateWaits.encs.map (fun e => (rateWaits.encView e).formed.fits (leastSpace (rateWaits.encView e).formed)) = [true] := by decide +kernel
  rw [he] at hk hi hp hf hg ht hm hc hs
  simp only [List.map_cons, List.map_nil, List.cons.injEq, and_true, Prod.mk.injEq, decide_eq_true_eq] at hk hi hp hf hg ht hm hc hs
  have hb := plan_least (rateWaits.encView e).formed encFrame .idr 0 hm.1 hm.2 hc
  obtain ⟨n, hn, hsp⟩ := next_least (rateWaits.encView e).formed encFrame hi hp hf hg ht hb
  have hr : rateWaits.readyPic e = some n := by
    unfold State.readyPic
    simp only [hk.1, hk.2.1, Bool.or_false, Bool.false_eq_true, if_false, hn]
    rw [Option.filter_some, hsp, hs, if_pos rfl]
  unfold State.rateWaits
  rw [hr, hk.2.2.1]
  simp [hk.2.2.2]

theorem test_rate_kernel_timeout : rateWaits.encs.length = 1 ∧ rateWaits.encs.map (fun e => (e.handle, e.rateBound)) = [(0x30000001, true)] := by decide +kernel

end Sys2Proof.Tests
end

