-- ==== Sys2Proof/Tests/RecordWitness.lean ====
section
/-!
SUPPORT. States and operands that meet the hypotheses of the statement about recording sessions, clause by clause.
-/
namespace Sys2Proof.Tests

set_option Elab.async false

open Sys2Proof.Machine

/-! ### RecordingSessionsRun -/

/-- A source that records the ledger of context 0. -/
def ledgerEntry : List Byte := layout 16 [(0, 1, 3), (4, 4, 0x20000001)]
/-- A KXR session of that source: its flags, its sink, and the length of its pre-roll store. -/
def recBlock (flags sink pre : Nat) : List Byte := layout 128 [(1, 1, flags), (2, 1, 1), (3, 1, sink), (0xC, 4, 0x400000), (0x10, 4, 0x400000), (0x14, 4, pre),
  (0x20, 4, if sink = 1 then 0x100000 else 0)] ++ ledgerEntry
/-- REC_SESSION_OPEN in the second buffer. -/
def recOpen (flags sink pre : Nat) : Cmd := mk [] 0 0x10000002 (recBlock flags sink pre)
/-- The session is open and context 0 runs. -/
def recSt (flags sink pre : Nat) : State := after (exec (.recSessionOpen (recOpen flags sink pre)) (runningWith ozoth))

/-- What an open asks of its block. -/
def recOpenOk (b : List Byte) (s : State) : Bool :=
  let entries := (List.range (f8 b 2)).map (fun k => slice b (128 + 16 * k) 16)
  let srcs : List RecSrc := entries.map (fun en => { entry := en, pend := [], head := [], reached := 0, lastFn := none, filledTo := 0, gone := false, rtpSeq := 0, packets := 0, octets := 0 })
  decide (b.length = 128 + 16 * f8 b 2) && decide (s.recs.length < 32) &&
  decide (firstBad (recHeadFields b buf1.size ++ entries.zipIdx.flatMap (fun x => recSrcFields (f8 b 0 % 4) (128 + 16 * x.2) x.1)) = none) &&
  decide (got (needSources s 0 srcs) = some ()) && decide (srcs.length = 1) && decide (got (needUnpinned s buf1.base buf1.size) = some ())

theorem test_rec_open : acc .recSessionOpen (recOpen 0 0 0) (runningWith ozoth) = true ∧ got (structBytes (runningWith ozoth) (recOpen 0 0 0)) = some (recBlock 0 0 0) ∧
    recOpenOk (recBlock 0 0 0) (runningWith ozoth) = true ∧ (recSt 0 0 0).recs.map (fun e => (e.handle, e.sources.length)) = [(0x50000001, 1)] := by decide +kernel

/-- A change of the session. -/
def onRec (f : RecSession → RecSession) (s : State) : State := { s with recs := s.recs.map f }
/-- A block that arms the host sink again. -/
def armBlock : List Byte := layout 128 [(3, 1, 1), (0x20, 4, 0x100000)]
/-- The host sink of the session is not armed. -/
def unarmed : State := onRec (fun e => { e with armed := false }) (recSt 0 1 0)

theorem test_rec_arm : acc .recSessionOpen (mk [] 0x50000001 0 armBlock) unarmed = true ∧ got (structBytes unarmed (mk [] 0x50000001 0 armBlock)) = some armBlock ∧ f8 armBlock 2 = 0 ∧
    f8 armBlock 3 % 4 = 1 ∧ f64 armBlock 0x18 % 4096 = 0 ∧ f32 armBlock 0x20 % 4096 = 0 ∧ 0x100000 ≤ f32 armBlock 0x20 ∧
    unarmed.recs.map (fun e => (e.armed, e.closing)) = [(false, none)] := by decide +kernel

/-- REC_MARK_EVENT: the time in seconds, the pre-roll and the post-roll in ms, and NOW. -/
def recMark (sec pre post now : Nat) (flags : Nat := 0) : Cmd := mk [sec, 0, pre, post, now] 0x50000001 0 [] flags
/-- An event session at 10 s. -/
def eventAt : State := let s := recSt 1 0 0x400000; { s with time := { s.time with now := 10000000000 * 2 ^ 32 } }

theorem test_mark_plain : acc .recMarkEvent (recMark 0 0 0 1) (recSt 0 0 0) = true ∧ (recSt 0 0 0).recs.map (fun e => (e.isEvent, e.closing)) = [(false, none)] ∧
    acc .recMarkEvent (recMark 0 100 100 0) (recSt 0 0 0) = true := by decide +kernel

/-- A window is open. -/
def windowed : State := onRec (fun e => { e with windows := [{ start := 0, stop := 11000000000, opened := true }] }) eventAt

theorem test_mark_extends : acc .recMarkEvent (recMark 0 0 5000 1) windowed = true ∧ windowed.recs.map (fun e => (e.isEvent, e.windowOpen, e.startsShort 10000000000 windowed.ns)) = [(true, true, false)] ∧
    (after (exec (.recMarkEvent (recMark 0 0 5000 1)) windowed)).recs.map RecSession.windows = [[{ start := 0, stop := 15000000000, opened := true }]] := by decide +kernel

theorem test_mark_short : acc .recMarkEvent (recMark 0 1000 5000 1) eventAt = true ∧ acc .recMarkEvent (recMark 0 1000 5000 1 1) eventAt = true ∧
    strict (recMark 0 1000 5000 1 1) = true ∧ eventAt.recs.map (fun e => (e.isEvent, e.startsShort 9000000000 eventAt.ns)) = [(true, true)] := by decide +kernel

/-- A record that has been in the store since 1 s. -/
def oldRecord : StoreRec := { off := 0, len := 64, rec_ := { type := 7, stream := 0, flags := 0, run := 1, fn := 0, time := 1000000000 * 65536, payload := [], idrs := [] }, sent := false }
/-- The store reaches back that far. -/
def stored : State := onRec (fun e => { e with store := [oldRecord] }) eventAt

theorem test_mark_covered : acc .recMarkEvent (recMark 0 1000 5000 1) stored = true ∧
    stored.recs.map (fun e => (e.isEvent, e.startsShort 9000000000 stored.ns)) = [(true, false)] ∧
    (after (exec (.recMarkEvent (recMark 0 1000 5000 1)) stored)).recs.map (fun e => e.windowOpen) = [true] := by decide +kernel

theorem test_rec_close : acc .recSessionClose (mk [1] 0x50000001) (recSt 0 0 0) = true ∧ acc .recSessionClose (mk [0] 0x50000001) (recSt 0 0 0) = true ∧
    (after (exec (.recSessionClose (mk [1] 0x50000001)) (recSt 0 0 0))).recs = [] := by decide +kernel

/-- The ledger record of FN 0 of run 1 waits at the source. -/
def recWaiting (flags : Nat) : State := onRec (fun e => { e with sources := e.sources.map (fun x => { x with pend := [.ledger 0 0 1 65536] }) })
  ((recSt flags 0 0).writeMem (ledgerAddr 0 0) (layout 256 [(0, 4, 0), (4, 2, 1)]))

theorem test_source_session : (recWaiting 2).recs.map (fun e => (e.closing, e.container, e.isEvent, e.sink, e.backlog)) = [(none, 0, false, 0, [])] ∧
    (recWaiting 2).recs.map RecSession.aligned = [true] := by decide +kernel

/-- Whether what waits at source 0 may be taken: nothing stands for its time, it is its turn, and it fits. -/
def takeOk (s : State) : List (Option Bool) :=
  s.recs.map (fun e => (e.sources.head?).map (fun x => match s.srcFront 0 x with
    | some r => decide (x.filledTo ≤ r.time) && s.inOrder e 0 r.time && s.recFits e r.len
    | none => false))

theorem test_source_record : Inv (recWaiting 2) ∧ takeOk (recWaiting 2) = [some true] ∧
    (after (exec (.recSourceRecord 0x50000001 0) (recWaiting 2))).recs.map (fun e => e.sources.map RecSrc.pend) = [[[]]] := by unfold Inv; decide +kernel

/-- The staging ring is full. -/
def recFull : State := onRec (fun e => { e with wr := { off := 0x3FFF80, wraps := 0 } }) (recWaiting 0)

theorem test_source_waits : recFull.recs.map (fun e => e.sources.map (fun x => (recFull.srcFront 0 x).map (fun r => recFull.recFits e r.len))) = [[some false]] := by decide +kernel

/-- Two sources, the other one 1 s ahead. -/
def silent : State := onRec (fun e => { e with sources := e.sources ++ e.sources.map (fun x => { x with reached := 1000000000 * 65536 }) }) (recSt 2 0 0)

theorem test_align_wait : silent.recs.map (fun e => (e.aligned, e.closing)) = [(true, none)] ∧
    silent.recs.map (fun e => e.sources.head?.map (fun x => x.gone || (silent.srcTime 0 x).isSome || x.kind == 4)) = [some false] ∧
    silent.recs.map (fun e => e.sources.head?.map (fun x => decide (0 < silent.srcPeriod x) &&
      decide (silent.srcPeriod x ≤ silent.othersReached e 0 - e.alignWait - Nat.max x.reached x.filledTo))) = [some true] := by decide +kernel

theorem test_description : (recSt 0 0 0).recs.map (fun e => (e.closing, e.container, e.isEvent)) = [(none, 0, false)] ∧
    windowed.recs.map (fun e => (e.closing, e.container, e.windowOpen)) = [(none, 0, true)] := by decide +kernel

theorem test_host_poll : (recSt 0 1 0).recs.map (fun e => (e.sink, e.armed)) = [(1, true)] := by decide +kernel

/-- An RTP session. -/
def rtp : State := onRec (fun e => { e with blk := patch e.blk 0 [2] }) (recSt 0 0 0)

theorem test_sender_report : rtp.recs.map (fun e => (e.container, e.closing)) = [(2, none)] := by decide +kernel

theorem test_window_close : let s := { windowed with time := { windowed.time with now := 12000000000 * 2 ^ 32 } }; s.recs.map (fun e => e.windows.map (fun w => decide (s.ns < w.stop))) = [[false]] ∧
    (after (exec (.eventWindowClose 0x50000001) s)).recs.map RecSession.windows = [[]] := by decide +kernel

theorem test_drain_timeout : let s := onRec (fun e => { e with closing := some none }) (recSt 0 0 0); s.recs.map RecSession.closing = [some none] ∧
    (after (exec (.recCloseDrainTimeout 0x50000001) s)).recs = [] := by decide +kernel

end Sys2Proof.Tests
end

