-- ==== Sys2Proof/Tests/Slice0.lean ====
section
/-!
SUPPORT. The checks of well-formedness: for each check a term that it accepts at the edge of its range, and one past the edge that it refuses.
-/
namespace Sys2Proof.Tests

set_option Elab.async false

open Sys2Proof.Machine

/-- Every term of a list is well-formed. -/
def allWf (l : List Instr) : Bool := l.all Instr.wf
/-- No term of a list is well-formed. -/
def noneWf (l : List Instr) : Bool := l.all (fun i => !i.wf)

theorem test_wf_host_read (d : List Byte) : (d.length ≤ 2 ^ 26 → HostRead.wf (.bytes d) = true) ∧ (2 ^ 26 < d.length → HostRead.wf (.bytes d) = false) ∧ HostRead.wf .failed = true := by
  refine ⟨fun h => Nat.ble_eq_true_of_le h, fun h => ?_, rfl⟩
  unfold HostRead.wf
  exact Bool.eq_false_iff.mpr (fun e => absurd (Nat.le_of_ble_eq_true e) (Nat.not_le.mpr h))

theorem test_wf_structures (c : Cmd) (h : c.host.wf = false) : (Instr.identify c).wf = false ∧ (Instr.fwDownload c).wf = false ∧ (Instr.decSubmit c []).wf = false ∧
    (Instr.pairConfigure c []).wf = false := by simp [Instr.wf, Cmd.wf, h]

theorem test_wf_registers : allWf [.registerWrite (.bar0 (2 ^ 24 - 8) true (2 ^ 64 - 1)), .registerWrite (.bar0 4 false (2 ^ 32 - 1)), .registerWrite (.bar2Size 63),
      .registerWrite (.smbus 255 65535), .liveAddrWrite 0 0 (some true) (BitVec.ofNat 64 (2 ^ 32 - 1)), .calValWrite 0 126 true (BitVec.ofNat 64 (2 ^ 64 - 1))] = true ∧
    noneWf [.registerWrite (.bar0 4 true 0), .registerWrite (.bar0 2 false 0), .registerWrite (.bar0 (2 ^ 24) true 0), .registerWrite (.bar0 0 true (2 ^ 64)),
      .registerWrite (.bar0 0 false (2 ^ 32)), .registerWrite (.bar2Size 64), .registerWrite (.smbus 256 0), .registerWrite (.smbus 0 65536),
      .liveAddrWrite 0 0 (some true) (BitVec.ofNat 64 (2 ^ 32)), .calValWrite 0 1 true 0, .calValWrite 0 1 false (BitVec.ofNat 64 (2 ^ 32))] = true := by decide +kernel

theorem test_wf_bar2 : allWf [.bar2Read 0 1, .bar2Read (2 ^ 36 - 1) 1, .bar2Write (2 ^ 36 - 1) [0]] = true ∧
    noneWf [.bar2Read 0 0, .bar2Read (2 ^ 36) 1, .bar2Write 0 [], .bar2Write (2 ^ 36) [0]] = true := by decide +kernel

theorem test_wf_side_band : allWf [.mctpMonitorRequest 255, .mctpLogRequest (2 ^ 32 - 1)] = true ∧ noneWf [.mctpMonitorRequest 256, .mctpLogRequest (2 ^ 32)] = true := by decide +kernel

theorem test_wf_fetch : allWf [.commandFetch (List.replicate 8 .failed)] = true ∧ noneWf [.commandFetch (List.replicate 9 .failed)] = true := by decide +kernel

theorem test_wf_link_and_boot : allWf [.pcieLinkTraining 64 8, .boot true 4 4 [(.siteU, 135)] [127] [] [(31, 3)]] = true ∧
    noneWf [.pcieLinkTraining 3 8, .pcieLinkTraining 64 16, .boot true 5 0 [] [] [] [], .boot true 0 5 [] [] [] [], .boot true 0 0 [(.siteU, 136)] [] [] [],
      .boot true 0 0 [] [128] [] [], .boot true 0 0 [] [] [] [(32, 0)], .boot true 0 0 [] [] [] [(0, 4)]] = true := by decide +kernel

/-- A pixel cell at the ends of its fields. -/
def edgeCell : PixCell := { exp := 3, sof := true, eof := false, sol := true, eol := false, hubFc := 15, line := 65535, offset := 65535, cseq := 65535, data := List.replicate 232 0 }

theorem test_wf_cells : allWf [.pixelCell 31 65535 63 edgeCell, .timingCell 0 65535 63 3 65535 (2 ^ 64 * 1000000000 - 1)] = true ∧
    noneWf [.pixelCell 0 65536 0 edgeCell, .pixelCell 0 0 64 edgeCell, .pixelCell 0 0 0 { edgeCell with exp := 4 }, .pixelCell 0 0 0 { edgeCell with hubFc := 16 },
      .pixelCell 0 0 0 { edgeCell with line := 65536 }, .pixelCell 0 0 0 { edgeCell with offset := 65536 }, .pixelCell 0 0 0 { edgeCell with cseq := 65536 },
      .pixelCell 0 0 0 { edgeCell with data := List.replicate 233 0 }, .timingCell 0 65536 0 0 0 0, .timingCell 0 0 64 0 0 0, .timingCell 0 0 0 4 0 0, .timingCell 0 0 0 0 65536 0,
      .timingCell 0 0 0 0 0 (2 ^ 64 * 1000000000)] = true := by decide +kernel

theorem test_wf_lines : allWf [.pcpLine 0 3 [2 ^ 20 - 1]] = true ∧ noneWf [.pcpLine 0 4 [], .pcpLine 0 0 [2 ^ 20]] = true := by decide +kernel

theorem test_wf_control_cells : allWf [.ack 0 65535 65535, .nak 0 65535 1 255, .nak 0 0 4 0, .readData 0 65535 65535 (zeros 216), .controlCellResend 0 65535] = true ∧
    noneWf [.ack 0 65536 0, .ack 0 0 65536, .nak 0 65536 1 0, .nak 0 0 0 0, .nak 0 0 5 0, .nak 0 0 1 256, .nak 0 0 2 1, .readData 0 65536 0 [], .readData 0 0 65536 [],
      .readData 0 0 0 [0], .readData 0 0 0 (zeros 224), .controlCellResend 0 65536] = true := by decide +kernel

theorem test_wf_errors : allWf [.stripeDone 0 [{ number := 383, addr := 0, content := 0, uncorr := true }] [(0, 2 ^ 38)]] = true ∧
    noneWf [.stripeDone 0 [{ number := 384, addr := 0, content := 0, uncorr := true }] [], .stripeDone 0 [] [(0, 2 ^ 38 + 1)],
      .motionBand [{ number := 384, addr := 0, content := 0, uncorr := true }]] = true := by decide +kernel

theorem test_wf_results : allWf [.jmInvocationEnd 0 0 (.rate (2 ^ 32 - 1) (2 ^ 32 - 1) 255 []), .jmInvocationEnd 0 0 (.policy (2 ^ 32 - 1) [] []), .jmInvocationEnd 0 0 .fault] = true ∧
    noneWf [.jmInvocationEnd 0 0 (.rate (2 ^ 32) 0 0 []), .jmInvocationEnd 0 0 (.rate 0 (2 ^ 32) 0 []), .jmInvocationEnd 0 0 (.rate 0 0 256 []), .jmInvocationEnd 0 0 (.policy (2 ^ 32) [] [])] = true := by
  decide +kernel

/-- A coding tree unit without bits. -/
def noCtu : EncCtu := { tried := 0, bits := 0, mode := .intra, pus := [] }
/-- An SPS without values. -/
def noSps : DecSps := { profile := 0, level := 0, width := 0, height := 0, depth := 8, dpb := 1, chroma := 1 }

theorem test_wf_coding : allWf [.encPictureCommit 0 [] { epoch := 65535, ctus := [noCtu] } [], .decSubmit (mk []) [.detect 0 2, .detect 9 3, .set 0 .pps 63 true noSps, .lost 7]] = true ∧
    noneWf [.encPictureCommit 0 [] { epoch := 65536, ctus := [noCtu] } [], .encPictureCommit 0 [] { epoch := 0, ctus := List.replicate 65536 noCtu } [], .decSubmit (mk []) [.detect 0 1],
      .decSubmit (mk []) [.detect 0 4], .decSubmit (mk []) [.set 0 .pps 64 false noSps]] = true := by decide +kernel

theorem test_wf_recording : allWf [.recSourceRecord 0 15, .alignWaitExpiry 0 15, .hostRingPoll 0 (2 ^ 32 - 1) (2 ^ 32 - 1)] = true ∧
    noneWf [.recSourceRecord 0 16, .alignWaitExpiry 0 16, .hostRingPoll 0 (2 ^ 32) 0, .hostRingPoll 0 0 (2 ^ 32)] = true := by decide +kernel

theorem test_wf_lanes : allWf [.capability 0 15 255, .rateRequest 0 15, .rateAck 0 15, .rateStepVerified 0 0 0 65535 65535 (zeros 496), .rotate 0 255 255, .rotateAck 0 255,
      .calibrationDone 0 0 0 65535 65535 (zeros 496), .laneQualityUpdate 0 65535 65535 0 0 0, .ltDelayReq 0 65535 0 0] = true ∧
    noneWf [.capability 0 16 0, .capability 0 0 256, .rateRequest 0 16, .rateAck 0 16, .rateStepVerified 0 0 0 65536 0 [], .rateStepVerified 0 0 0 0 65536 [],
      .rateStepVerified 0 0 0 0 0 (zeros 497), .rotate 0 256 0, .rotate 0 0 256, .rotateAck 0 256, .calibrationDone 0 0 0 65536 0 [], .calibrationDone 0 0 0 0 65536 [],
      .calibrationDone 0 0 0 0 0 (zeros 497), .laneQualityUpdate 0 65536 0 0 0 0, .laneQualityUpdate 0 0 65536 0 0 0, .ltDelayReq 0 65536 0 0] = true := by decide +kernel

theorem test_wf_bridge : allWf [.bridgeFrame 0 (zeros 14) 0, .addressAgeing (2 ^ 48 - 1) 4095] = true ∧
    noneWf [.bridgeFrame 0 (zeros 13) 0, .addressAgeing (2 ^ 48) 0, .addressAgeing 0 4096] = true := by decide +kernel

/-- A data set at the ends of its fields. -/
def edgeClock : Announce := { gmId := 2 ^ 64 - 1, priority1 := 255, clockClass := 255, clockAcc := 255, variance := 65535, priority2 := 255, stepsRemoved := 65535, senderId := 2 ^ 64 - 1 }

theorem test_wf_ptp : allWf [.sync 0 255 65535 true 0 (2 ^ 63 - 1) 0, .followUp 0 255 65535 0 (-(2 ^ 63)), .delayReq 0 255 0 0 0, .delayResp 0 255 0 0 0, .pdelayReq 0 255 0 0 0,
      .pdelayResp 0 255 0 true 0 0 0, .pdelayRespFollowUp 0 255 0 0 0, .announce 0 255 edgeClock, .ptpMessageInterval 0 2 0, .tcHoldTimeout 3 255 65535] = true ∧
    noneWf [.sync 0 256 0 true 0 0 0, .sync 0 0 65536 true 0 0 0, .sync 0 0 0 true 0 (2 ^ 63) 0, .followUp 0 256 0 0 0, .followUp 0 0 0 0 (-(2 ^ 63) - 1), .delayReq 0 256 0 0 0,
      .delayReq 0 0 0 (2 ^ 63) 0, .delayResp 0 256 0 0 0, .delayResp 0 0 0 0 (2 ^ 63), .pdelayReq 0 256 0 0 0, .pdelayReq 0 0 0 (2 ^ 63) 0, .pdelayResp 0 256 0 true 0 0 0,
      .pdelayResp 0 0 0 true 0 (2 ^ 63) 0, .pdelayRespFollowUp 0 256 0 0 0, .pdelayRespFollowUp 0 0 0 0 (2 ^ 63), .announce 0 256 edgeClock, .ptpMessageInterval 0 3 0,
      .tcHoldTimeout 4 0 0, .tcHoldTimeout 0 256 0, .tcHoldTimeout 0 0 65536] = true := by decide +kernel

theorem test_wf_announce : noneWf [.announce 0 0 { edgeClock with gmId := 2 ^ 64 }, .announce 0 0 { edgeClock with senderId := 2 ^ 64 }, .announce 0 0 { edgeClock with priority1 := 256 },
    .announce 0 0 { edgeClock with priority2 := 256 }, .announce 0 0 { edgeClock with clockClass := 256 }, .announce 0 0 { edgeClock with clockAcc := 256 },
    .announce 0 0 { edgeClock with variance := 65536 }, .announce 0 0 { edgeClock with stepsRemoved := 65536 }] = true := by decide +kernel

theorem test_wf_audio : allWf [.audioFrame 0 (List.replicate 32 (-(2 ^ 31))) 0] = true ∧ noneWf [.audioFrame 0 (List.replicate 33 0) 0, .audioFrame 0 [2 ^ 31] 0, .audioFrame 0 [-(2 ^ 31) - 1] 0] = true := by
  decide +kernel

theorem test_wf_management : allWf [.monitorSample (List.replicate 72 (2 ^ 31 - 1)), .healthRecordUpdate 65535, .heartbeat (zeros 240), .ownerAck 65535 65535 65535 (2 ^ 32 - 1),
      .pairConfigure (mk []) [(47, 65535, 15)], .shadowUpdate { epoch := 65535, cam := 47 } none 0 false] = true ∧
    noneWf [.monitorSample (List.replicate 71 0), .monitorSample (List.replicate 72 (2 ^ 31)), .healthRecordUpdate 65536, .heartbeat (zeros 239), .ownerAck 65536 0 0 0, .ownerAck 0 65536 0 0,
      .ownerAck 0 0 65536 0, .ownerAck 0 0 0 (2 ^ 32), .pairConfigure (mk []) [(48, 0, 0)], .pairConfigure (mk []) [(0, 65536, 0)], .pairConfigure (mk []) [(0, 0, 16)],
      .shadowUpdate { epoch := 0, cam := 48 } none 0 false, .shadowUpdate { epoch := 65536, cam := 0 } none 0 false] = true := by decide +kernel

theorem test_wf_memory : allWf [.scrubRead (2 ^ 32 - 1) 0 0 63 2 false, .tallyLeak 0 447, .onDieEccPoll [(0, 63, 0)], .retirementCopyDone 0 [2 ^ 32 - 1]] = true ∧
    noneWf [.scrubRead (2 ^ 32) 0 0 0 0 false, .scrubRead 0 0 0 64 0 false, .scrubRead 0 0 0 0 3 false, .tallyLeak 0 448, .onDieEccPoll [(0, 64, 0)], .retirementCopyDone 0 [2 ^ 32]] = true := by
  decide +kernel

theorem test_no_word : decodeTableWord 64 0x0001 = none := rfl

end Sys2Proof.Tests
end

