-- ==== Sys2Proof/Tests/TimeWitness.lean ====
section
/-!
SUPPORT. States and operands that meet the hypotheses of the statements about the time base and its event pins, clause by clause.
-/
namespace Sys2Proof.Tests

set_option Elab.async false

open Sys2Proof.Machine

/-- A change of the time base. -/
def onTime (f : TimeSt → TimeSt) (s : State) : State := { s with time := f s.time }
/-- A change of a PTP port. -/
def onPtp (p : Fin 4) (f : PtpPort → PtpPort) (s : State) : State := onTime (fun t => { t with ports := t.ports.set p (f t.ports[p]) }) s

/-! ### TimeIsSetSteppedAndMeasured -/

/-- A mode block: an ordinary clock on port 0, Layer 2, domain 5, profile 0, under a correction mode. -/
def modeBytes (corr : Nat) : List Byte := layout 64 [(0, 1, 1), (1, 1, corr + 4 * 1 + 16 * 1), (2, 1, 5), (0x0B, 1, 3)]
/-- TIME_SET_MODE. -/
def setMode (corr : Nat) : Cmd := mk [] 0 0 (modeBytes corr)

theorem test_time_set_mode : acc .timeSetMode (setMode 1) State.reset = true ∧ got (structBytes State.reset (setMode 1)) = some (modeBytes 1) ∧
    ((got (parseMode (modeBytes 1))).map TimeMode.corr) = some 1 ∧ State.reset.time.mode.corr ≠ 1 ∧
    (after (exec (.timeSetMode (setMode 1)) (onTime (fun t => { t with rate := 7 }) State.reset))).time.acc = -7 := by decide +kernel

/-- The device as a clock of domain 5 on port 0, whose link is up. -/
def clockOn (corr : Nat) : State := after (exec (.timeSetMode (setMode corr)) linked)
/-- The same with the port in a state. -/
def clockIn (st : PortState) : State := onPtp 0 (fun x => { x with state := st }) (clockOn 0)

theorem test_time_step : let c := mk [1, 0, 0, 999999999, 1]; acc .timeStep c State.reset = true ∧ bitOf (par c 0) 0 = true ∧ bitOf (par c 0) 1 = false ∧ par c 3 < 1000000000 ∧
    State.reset.time.mode.corr ≠ 1 ∧ (after (exec (.timeStep c) State.reset)).time.now = 999999999 * 2 ^ 32 + 2 ^ 16 ∧
    (clockOn 1).time.mode.corr = 1 ∧ acc .timeStep c (clockOn 1) = true := by decide +kernel

theorem test_time_step_back : let c := mk [2, 0, 0, 10, 0]; let s := onTime (fun t => { t with now := 10 * 2 ^ 32 }) State.reset; acc .timeStep c s = true ∧
    bitOf (par c 0) 0 = false ∧ bitOf (par c 0) 1 = true ∧ (after (exec (.timeStep c) s)).time.now = 0 := by decide +kernel

theorem test_time_rate : let c := mk [0, 1000000000, 60000]; acc .timeAdjustRate c State.reset = true ∧ (sext 32 (par c 1)).natAbs ≤ 1000000000 ∧ par c 2 ≤ 60000 ∧
    (after (exec (.timeAdjustRate c) State.reset)).time.restore = some { rate := 0, due := 60000 * 400000 } := by decide +kernel

theorem test_time_restore : let s := onTime (fun t => { t with rate := 9, restore := some { rate := 4, due := 0 } }) State.reset;
    s.time.restore = some { rate := 4, due := 0 } ∧ (after (exec .rateRestore s)).time.rate = 4 := by decide +kernel

theorem test_time_increment : let c := mk [0, 0x9999999A, 2]; acc .timeWriteIncrement c State.reset = true ∧ par c 1 + 2 ^ 32 * par c 2 = 0x29999999A ∧
    (after (exec (.timeWriteIncrement c) State.reset)).time.incr = 0x29999999A := by decide +kernel

theorem test_ptp_discards : let s := clockIn .slave; s.ethOpen (0 : Fin 4).val = true ∧ s.time.mine 0 4 = false ∧
    (after (exec (.sync 0 4 1 false 0 0 0) s)).time.ports[0].discarded = 1 := by decide +kernel

theorem test_ptp_sync : let s := clockIn .uncalibrated; s.ethOpen (0 : Fin 4).val = true ∧ s.time.mine 0 5 = true ∧ ((s.time.ports[0]).takeEvent s.time.ticks).2 = true ∧
    s.time.ports[0].state = .uncalibrated ∧ (after (exec (.sync 0 5 1 false 65536 0 0) s)).time.offset = -65536 := by decide +kernel

theorem test_ptp_master : let s := clockIn .master; s.ethOpen (0 : Fin 4).val = true ∧ s.time.mine 0 5 = true ∧ s.time.ports[0].state = .master ∧ s.time.mode.oneStep = false ∧
    (after (exec (.delayReq 0 5 3 0 0) s)).out.length = s.out.length + 1 ∧ (after (exec (.ptpMessageInterval 0 0 0) s)).out.length = s.out.length + 2 := by decide +kernel

/-- Port 0 waits for the follow-up of Sync 3, has sent delay request 4, and has seen a Sync. -/
def waiting : State := onPtp 0 (fun x => { x with follow := some { seq := 3, t2 := 100, corr := 1 }, lastSync := some (10, 20), delay := some { seq := 4, tx := 30, rxPeer := some 40, arrival := 60, corr := 0 } })
  (clockIn .slave)

theorem test_ptp_follow : waiting.ethOpen (0 : Fin 4).val = true ∧ waiting.time.mine 0 5 = true ∧ waiting.time.ports[0].follow.map AwaitFollow.seq = some 3 ∧ waiting.time.ports[0].delay.map AwaitDelay.seq = some 4 ∧
    waiting.time.ports[0].state = .slave ∧ (after (exec (.followUp 0 5 3 90 2) waiting)).time.offset = 100 - 90 - 3 ∧
    (after (exec (.delayResp 0 5 4 60 0) waiting)).time.meanDelay = 20 := by decide +kernel

theorem test_ptp_peer : (waiting.time.ports[0].delay.bind AwaitDelay.rxPeer) = some 40 ∧
    ((after (exec (.pdelayRespFollowUp 0 5 4 44 0) waiting)).time.ports[0]).linkDelay = BitVec.ofNat 32 (((60 - 30) - (44 - 40)) / 2) ∧
    (((after (exec (.pdelayResp 0 5 4 true 41 0 0) waiting)).time.ports[0]).delay.bind AwaitDelay.rxPeer) = some 41 := by decide +kernel

/-- An Announce of another clock. -/
def announce0 : Announce := { gmId := 1, priority1 := 1, clockClass := 6, clockAcc := 0x20, variance := 0, priority2 := 1, stepsRemoved := 0, senderId := 1 }

theorem test_ptp_announce : let s := clockIn .listening; s.ethOpen (0 : Fin 4).val = true ∧ s.time.mine 0 5 = true ∧
    ((after (exec (.announce 0 5 announce0) s)).time.ports[0]).state = .uncalibrated := by decide +kernel

theorem test_ptp_one_step : let s := onTime (fun t => { t with mode := { t.mode with oneStep := true } }) (clockIn .master); s.time.mode.oneStep = true ∧ s.time.mine 0 5 = true ∧
    s.ethOpen (0 : Fin 4).val = true ∧ (after (exec (.pdelayReq 0 5 1 0 0) s)).out.length = s.out.length + 1 := by decide +kernel

theorem test_ptp_timeout : let s := clockIn .slave; s.ethOpen (0 : Fin 4).val = true ∧ s.time.ports[0].state = .slave ∧ s.time.mode.profile = 0 ∧ s.time.ports[0].state ≠ .notPtp ∧
    (after (exec (.announceTimeout 0) s)).time.holdover = true ∧ ((after (exec (.ptpMessageInterval 0 2 0) s)).time.ports[0]).delay.isSome = true := by decide +kernel

/-! ### CompareAndCaptureUnitsWork -/

/-- An output block: pin 31, a pulse of 10 ns, flags, a start in ns. -/
def outBytes (flags start : Nat) : List Byte := layout 32 [(0, 2, flags), (2, 1, 31), (4, 4, 10), (0x08, 6, start / 1000000000), (0x10, 4, start % 1000000000)]
/-- EVT_OUTPUT_SET. -/
def outputSet (flags start : Nat) (h : Nat := 0) (fl : Nat := 0) : Cmd := mk [] h 0 (outBytes flags start) fl

theorem test_evt_output : let c := outputSet 0 10000; acc .evtOutputSet c State.reset = true ∧ got (structBytes State.reset c) = some (outBytes 0 10000) ∧ c.handle = 0 ∧
    bitOf (f16 (outBytes 0 10000) 0) 3 = false ∧ (got (parseOutput (outBytes 0 10000) (State.reset.nextHandle 0xA))).map (fun x => (x.first, x.pin)) = some (10000, 31) ∧
    State.reset.pinFree 31 = true ∧ firstIdx Option.isNone State.reset.time.compare.toList = some 0 ∧ State.reset.ns = 0 := by decide +kernel

theorem test_evt_late : (got (parseOutput (outBytes 0 9999) (State.reset.nextHandle 0xA))).map CompareUnit.first = some 9999 ∧ acc .evtOutputSet (outputSet 0 9999) State.reset = true ∧
    strict (outputSet 0 9999) = false ∧ ((after (exec (.evtOutputSet (outputSet 0 9999)) State.reset)).time.compare[0]).map CompareUnit.first = some 10000 := by decide +kernel

theorem test_evt_late_strict : let c := { outputSet 0 9999 with flags := 1 }; acc .evtOutputSet c State.reset = true ∧ strict c = true := by decide +kernel

/-- Unit 0 is claimed on pin 31 for 10 µs. -/
def claimed : State := after (exec (.evtOutputSet (outputSet 0 10000)) State.reset)

theorem test_evt_held : claimed.time.compareOf 0xA8000001 = some 0 ∧ (claimed.time.compare[0]).map (fun x => (x.pin, x.pulse)) = some (31, none) ∧
    acc .evtOutputSet (outputSet 8 0 0xA8000001) claimed = true ∧ bitOf (f16 (outBytes 8 0) 0) 3 = true ∧ acc .evtOutputSet (outputSet 0 20000 0xA8000001) claimed = true ∧
    (got (parseOutput (outBytes 0 20000) 0xA8000001)).map (fun x => (x.pin, x.first)) = some (31, 20000) ∧
    (after (exec (.evtOutputSet (outputSet 8 0 0xA8000001)) claimed)).pinFree 31 = true := by decide +kernel

/-- A replacement on the same pin: with the same inactive level the pin stays as it is; with the other one it is driven. -/
theorem test_evt_same_pin : (after (exec (.evtOutputSet (outputSet 0 20000 0xA8000001)) claimed)).out = claimed.out ∧
    acc .evtOutputSet (outputSet 4 20000 0xA8000001) claimed = true ∧
    (got (parseOutput (outBytes 4 20000) 0xA8000001)).map (fun x => (x.pin, x.pol)) = some (31, true) ∧
    (after (exec (.evtOutputSet (outputSet 4 20000 0xA8000001)) claimed)).out = .pin 31 true :: claimed.out := by decide +kernel

/-- A capture block: both edges of pin 3, a ring of 16 records at the start of its buffer. -/
def capBytes (flags : Nat) : List Byte := layout 16 [(0, 1, flags), (1, 1, 3), (8, 4, 16)]
/-- EVT_CAPTURE_SET. -/
def captureSet (flags : Nat) (h aux : Nat) : Cmd := mk [] h aux (capBytes flags)

theorem test_evt_capture : let c := captureSet 6 0 0x10000001; acc .evtCaptureSet c twoBuffers = true ∧ got (structBytes twoBuffers c) = some (capBytes 6) ∧
    bitsOf (f8 (capBytes 6) 0) 2 1 ≠ 0 ∧ bitOf (f8 (capBytes 6) 0) 0 = false ∧ f8 (capBytes 6) 1 = 3 ∧ f32 (capBytes 6) 8 = 16 ∧ typeOf c.aux = 1 ∧ twoBuffers.buffer c.aux = some buf0 ∧
    got (needInBuffer twoBuffers buf0 0 256) = some 0x280000000 ∧ got (needUnpinnedBut twoBuffers (twoBuffers.nextHandle 0xA) 0x280000000 256) = some () ∧ twoBuffers.pinFree 3 = true ∧
    firstIdx Option.isNone twoBuffers.time.capture.toList = some 0 := by decide +kernel

/-- Capture unit 0 on pin 3. -/
def capturing : State := after (exec (.evtCaptureSet (captureSet 6 0 0x10000001)) twoBuffers)

theorem test_evt_capture_release : acc .evtCaptureSet (captureSet 1 0xA8000001 0) capturing = true ∧ capturing.time.captureOf 0xA8000001 = some 0 ∧
    (capturing.time.capture[0]).map CaptureUnit.pin = some 3 ∧ bitOf (f8 (capBytes 1) 0) 0 = true ∧ (captureSet 1 0xA8000001 0).aux = 0 := by decide +kernel

theorem test_compare_fires : let s := onTime (fun t => { t with now := 10000 * 2 ^ 32 }) claimed; (s.time.compare[0]).map (fun x => (x.done, x.due, x.clear)) = some (false, 10000, true) ∧ s.ns = 10000 ∧
    ((after (exec (.compareEvent 0) s)).time.compare[0]).map (fun x => (x.pulse, x.done)) = some (some { endTick := 4, pin := 31 }, true) := by decide +kernel

theorem test_pulse_ends : let s := onTime (fun t => { t with ticks := 4 }) (after (exec (.compareEvent 0) (onTime (fun t => { t with now := 10000 * 2 ^ 32 }) claimed)));
    (s.time.compare[0]).map (fun x => (x.pulse.map Pulse.endTick, decide (x.handle ≠ 0))) = some (some 4, true) ∧ (s.time.pins[31]).release = false ∧
    ((after (exec (.pulseEnd 0) s)).time.compare[0]).map CompareUnit.pulse = some none := by decide +kernel

theorem test_capture_inv : Inv capturing := by unfold Inv; decide +kernel

theorem test_capture_edge : (capturing.time.pins[3]).owner = .capture 0 ∧ (capturing.time.capture[0]).map (fun x => (x.edge, x.last, x.buf)) = some (3, none, 0x10000001) ∧
    capturing.buffer 0x10000001 = some buf0 ∧
    ((after (exec (.captureEdge 3 true) capturing)).time.capture[0]).map (fun x => (x.seq, x.last)) = some (1, some 0) := by decide +kernel

theorem test_capture_too_soon : let s := onTime (fun t => { t with ticks := 4 }) (after (exec (.captureEdge 3 true) capturing));
    (s.time.capture[0]).map CaptureUnit.last = some (some 0) ∧ s.time.ticks ≤ 0 + 4 ∧ ((after (exec (.captureEdge 3 false) s)).time.capture[0]).map CaptureUnit.overrun = some true := by decide +kernel

/-- A Sync of domain 9, sequence 1, to PTP multicast. -/
def syncFrame : List Byte := beBytes 6 0x011B19000000 ++ beBytes 6 0x020000000001 ++ beBytes 2 0x88F7 ++ [0, 2, 0, 44, 9] ++ zeros 25 ++ beBytes 2 1 ++ zeros 12
/-- The device as a transparent clock with that Sync queued on port 1. -/
def holding : State := onPort 1 (fun p => { p with queues := p.queues.set 0 [{ data := syncFrame, inp := 0, stamp := 0, steps := 0 }] })
  (onTime (fun t => { t with mode := { t.mode with role := 4, tcEn := true } }) bridge)

theorem test_tc_hold : (((holding.eth 1).queues.toList.headD []).map EgressFrame.data) = [syncFrame] ∧
    ((ptpView syncFrame).map (fun v => (v.kind, v.domain, v.seq, holding.time.corrects v { data := syncFrame, inp := 0, stamp := 0, steps := 0 }))) = some (0, 9, 1, true) ∧
    (after (exec (.tcHoldTimeout 1 9 1) holding)).time.tcDiscarded = 1 := by decide +kernel

end Sys2Proof.Tests
end

