-- ==== Sys2Proof/Tests/ViewWitness.lean ====
section
/-!
SUPPORT. Reads of BAR0 registers beside the tables of the manual.
-/
namespace Sys2Proof.Tests

set_option Elab.async false

open Sys2Proof.Machine

/-- Table 02-2: the interface version and the stepping; Table 14-1: the nominal increment; R28: reserved offsets and misaligned reads. -/
theorem test_register_reads : State.reset.bar0Read 0x28 false = 0x000100B0 ∧ State.reset.bar0Read 0x10008 true = 0x280000000 ∧
    State.reset.bar0Read 0x2C false = 0 ∧ State.reset.bar0Read 0x4000 true = 0 ∧ State.reset.bar0Read 0x2 false = 2 ^ 32 - 1 ∧
    State.reset.bar0Read 0x4 true = 2 ^ 64 - 1 := by decide +kernel

/-- A vector's message address reads as it was written, and the table's control word is its mask bit. -/
theorem test_msix_reads : ((State.reset.bar0Write 0x2010 true 0xFEE000001).bar0Write 0x201C false 0).bar0Read 0x2010 true = 0xFEE000001 ∧
    ((State.reset.bar0Write 0x201C false 0).bar0Read 0x201C false = 0 ∧ State.reset.bar0Read 0x201C false = 1) := by decide +kernel

end Sys2Proof.Tests
end

section
/-!
SUPPORT. One pseudo-channel of the memory system: what an update of it or of the counters changes, when it is in service, and when R18 lets a planned
pause start on its stack.
-/
namespace Sys2Proof.Machine

/-! ### Updates of one pseudo-channel and of the counters -/

@[simp] theorem State.mapPc_pcs_same (s : State) (p : Fin 128) (f : PseudoChannel → PseudoChannel) :
    (s.mapPc p f).mem.pcs[p.val] = f s.mem.pcs[p.val] := by simp [State.mapPc]

theorem State.mapPc_pcs_ne (s : State) {p q : Fin 128} (h : q ≠ p) (f : PseudoChannel → PseudoChannel) :
    (s.mapPc p f).mem.pcs[q] = s.mem.pcs[q] := by
  have : p.val ≠ q.val := fun e => h (Fin.ext e.symm)
  simp [State.mapPc, Vector.getElem_set_ne, this]

@[simp] theorem State.mapMemCnt_pcs (s : State) (f : MemCounters → MemCounters) : (s.mapMemCnt f).mem.pcs = s.mem.pcs := rfl

theorem State.mapPc_only {ps : List Part} {s t : State} (h : Only ps s t) (hm : Part.memory ∈ ps) (p : Fin 128)
    (f : PseudoChannel → PseudoChannel) : Only ps s (t.mapPc p f) := h.memory hm _ rfl

theorem State.mapMemCnt_only {ps : List Part} {s t : State} (h : Only ps s t) (hm : Part.memory ∈ ps) (f : MemCounters → MemCounters) :
    Only ps s (t.mapMemCnt f) := h.memory hm _ rfl

/-- Only one pseudo-channel and the counters of the memory system change, and no byte. -/
def OnlyPc (p : Fin 128) (s t : State) : Prop := (∀ q : Fin 128, q ≠ p → t.mem.pcs[q] = s.mem.pcs[q]) ∧ Only [.memory] s t

theorem OnlyPc.refl (p : Fin 128) (s : State) : OnlyPc p s s := ⟨fun _ _ => rfl, .refl _ s⟩

theorem OnlyPc.mapPc {p : Fin 128} {s t : State} (h : OnlyPc p s t) (f : PseudoChannel → PseudoChannel) : OnlyPc p s (t.mapPc p f) :=
  ⟨fun q hq => (t.mapPc_pcs_ne hq f).trans (h.1 q hq), State.mapPc_only h.2 (by simp) p f⟩

theorem OnlyPc.mapMemCnt {p : Fin 128} {s t : State} (h : OnlyPc p s t) (f : MemCounters → MemCounters) : OnlyPc p s (t.mapMemCnt f) :=
  ⟨h.1, State.mapMemCnt_only h.2 (by simp) f⟩

/-! ### Service and pauses -/

theorem State.selfRefreshing_eq_false {s : State} (h2 : s.power.cur ≠ .ps2) (h3 : s.power.cur ≠ .ps3) : s.selfRefreshing = false := by
  simp [State.selfRefreshing, h2, h3]

/-- The check with which refresh and retraining leave a pseudo-channel alone fails for one in service. -/
theorem State.pc_inService {s : State} {p : Fin 128} (hr : (s.mem.pcs[p]).state ≠ .retired) (h2 : s.power.cur ≠ .ps2)
    (h3 : s.power.cur ≠ .ps3) : ¬ ((s.pc p).state == .retired || s.selfRefreshing) = true := by
  have : (s.pc p).state ≠ .retired := hr
  simp [this, State.selfRefreshing_eq_false h2 h3]

theorem MemSt.moving_eq_false_iff (m : MemSt) (k : Nat) : m.moving k = false ↔ ∀ ch, m.change = some ch → ch.next ≠ k := by
  cases h : m.change <;> simp [MemSt.moving, h]

/-- R18: no other pause on the stack, and a slack of 25 µs. -/
theorem State.pauseAllowed_iff (s : State) (k : Nat) :
    s.pauseAllowed k = true ↔ (∀ ch, s.mem.change = some ch → ch.next ≠ k) ∧ 25000 ≤ s.slack := by
  simp [State.pauseAllowed, MemSt.moving_eq_false_iff]

end Sys2Proof.Machine
end

section
/-!
SUPPORT. The fabric: the tag that a granule takes (R13, R14), and the transactions that the controllers serve next (R17).
-/
namespace Sys2Proof.Machine

/-! ### Tags -/

/-- A tag belongs to a pool, given by its first tag and its number of tags. -/
def InPool (p : Nat × Nat) (i : Nat) : Prop := p.1 ≤ i ∧ i < p.1 + p.2

theorem firstFree_some {used : List Nat} {i n k : Nat} (h : firstFree used i n = some k) : InPool (i, n) k ∧ k ∉ used := by
  induction n generalizing i with
  | zero => cases h
  | succ n ih =>
    unfold firstFree at h
    split at h
    · obtain ⟨⟨lo, hi⟩, free⟩ := ih h
      dsimp only at lo hi
      exact ⟨⟨by dsimp only; omega, by dsimp only; omega⟩, free⟩
    next free =>
      cases h
      exact ⟨⟨Nat.le_refl _, by simp⟩, by simpa using free⟩

theorem firstFree_none {used : List Nat} {i n k : Nat} (h : firstFree used i n = none) (hk : InPool (i, n) k) : k ∈ used := by
  obtain ⟨lo, hi⟩ := hk
  dsimp only at lo hi
  induction n generalizing i with
  | zero => omega
  | succ n ih =>
    unfold firstFree at h
    split at h
    next taken =>
      rcases Nat.eq_or_lt_of_le lo with rfl | lt
      · simpa using taken
      · exact ih h lt (by omega)
    · cases h

/-- A class takes a free tag of its own reserve, or of the shared pool once its reserve is in use. -/
theorem takeTag_some {used : List Nat} {c : FabClass} {k : Nat} (h : takeTag used c = some k) :
    k ∉ used ∧ (InPool c.reserve k ∨ (InPool sharedPool k ∧ ∀ i, InPool c.reserve i → i ∈ used)) := by
  unfold takeTag at h
  split at h
  next own =>
    cases h
    exact ⟨(firstFree_some own).2, .inl (firstFree_some own).1⟩
  next full => exact ⟨(firstFree_some h).2, .inr ⟨(firstFree_some h).1, fun _ => firstFree_none full⟩⟩

theorem takeTag_none {used : List Nat} {c : FabClass} (h : takeTag used c = none) :
    (∀ i, InPool c.reserve i → i ∈ used) ∧ (∀ i, InPool sharedPool i → i ∈ used) := by
  unfold takeTag at h
  split at h
  · cases h
  next full => exact ⟨fun _ => firstFree_none full, fun _ => firstFree_none h⟩

/-- R16: a frame access with less than 200 µs to its deadline is live. -/
theorem FabReq.cls_promoted {r : FabReq} {ns d : Nat} (hf : r.src.cls = .frame) (hd : r.due = some d) (h : d < ns + 200000) :
    r.cls ns = .live := by simp [FabReq.cls, hd, hf, h]

theorem FabReq.piece_le (r : FabReq) : r.piece ≤ 256 := Nat.le_trans (Nat.min_le_right _ _) (Nat.sub_le _ _)

/-- A requester waits while neither its reserve nor the shared pool has a free tag, else it issues one granule (R13, R14). -/
theorem FabSt.issueOne_cases (f : FabSt) (home : Nat → Nat) (ticks ns : Nat) (r : FabReq) :
    let x := f.issueOne home ticks ns r
    let used (i : Nat) : Prop := ∃ t ∈ f.txns, t.tag = i
    let c := r.cls ns
    (x = (f, some r) ∧ (∀ i, InPool c.reserve i → used i) ∧ (∀ i, InPool sharedPool i → used i)) ∨
    (∃ t : FabTxn, x.1 = { f with txns := f.txns ++ [t] } ∧ t.cls = c ∧ t.role = r.role ∧ t.epoch = r.epoch ∧ t.bytes ≤ 256 ∧ ¬ used t.tag ∧
      (InPool c.reserve t.tag ∨ (InPool sharedPool t.tag ∧ ∀ i, InPool c.reserve i → used i))) := by
  intro x used c
  have mem_tags (i : Nat) : i ∈ f.txns.map FabTxn.tag ↔ used i := List.mem_map
  cases h : takeTag (f.txns.map FabTxn.tag) (r.cls ns) with
  | none =>
    obtain ⟨own, shared⟩ := takeTag_none h
    simp only [mem_tags] at own shared
    exact .inl ⟨by simp only [x, FabSt.issueOne, h], own, shared⟩
  | some k =>
    obtain ⟨free, pool⟩ := takeTag_some h
    simp only [mem_tags] at free pool
    exact .inr ⟨_, by simp only [x, FabSt.issueOne, h]; rfl, rfl, rfl, rfl, r.piece_le, free, pool⟩

/-! ### What is served next -/

theorem firstPerPc_subset {seen : List Nat} {l : List FabTxn} {t : FabTxn} (h : t ∈ firstPerPc seen l) : t ∈ l ∧ t.pc ∉ seen := by
  induction l generalizing seen with
  | nil => cases h
  | cons a l ih =>
    unfold firstPerPc at h
    split at h
    · exact (ih h).imp_left (List.mem_cons_of_mem _)
    next fresh =>
      rcases List.mem_cons.mp h with rfl | h
      · exact ⟨List.mem_cons_self, by simpa using fresh⟩
      · obtain ⟨hm, hs⟩ := ih h
        exact ⟨List.mem_cons_of_mem _ hm, fun e => hs (List.mem_cons_of_mem _ e)⟩

theorem firstPerPc_nodup (seen : List Nat) (l : List FabTxn) : ((firstPerPc seen l).map FabTxn.pc).Nodup := by
  induction l generalizing seen with
  | nil => exact List.nodup_nil
  | cons a l ih =>
    unfold firstPerPc
    split
    · exact ih seen
    · refine List.nodup_cons.mpr ⟨fun h => ?_, ih _⟩
      obtain ⟨t, ht, e⟩ := List.mem_map.mp h
      exact (firstPerPc_subset ht).2 (e ▸ List.mem_cons_self)

/-- In a list ordered by class, the first of each pseudo-channel is of the highest class on it. -/
theorem firstPerPc_highest {seen : List Nat} {l : List FabTxn} (ord : l.Pairwise (fun a b => a.cls.code ≤ b.cls.code))
    {t u : FabTxn} (ht : t ∈ firstPerPc seen l) (hu : u ∈ l) (e : u.pc = t.pc) : t.cls.code ≤ u.cls.code := by
  induction l generalizing seen with
  | nil => cases hu
  | cons a l ih =>
    obtain ⟨first, rest⟩ := List.pairwise_cons.mp ord
    unfold firstPerPc at ht
    split at ht
    next taken =>
      rcases List.mem_cons.mp hu with rfl | hu
      · exact absurd (by simpa [e] using taken) (firstPerPc_subset ht).2
      · exact ih rest ht hu
    · rcases List.mem_cons.mp ht with rfl | ht
      · rcases List.mem_cons.mp hu with rfl | hu
        · exact Nat.le_refl _
        · exact first u hu
      · rcases List.mem_cons.mp hu with rfl | hu
        · exact absurd (e ▸ List.mem_cons_self) (firstPerPc_subset ht).2
        · exact ih rest ht hu

theorem FabSt.mem_inOrder (f : FabSt) (t : FabTxn) : t ∈ f.inOrder ↔ t ∈ f.txns := by
  cases h : t.cls <;> simp [FabSt.inOrder, h]

theorem FabSt.inOrder_pairwise (f : FabSt) : f.inOrder.Pairwise (fun a b => a.cls.code ≤ b.cls.code) := by
  have classes : [FabClass.live, .frame, .bulk, .scrub].Pairwise (fun c d => c.code ≤ d.code) := by decide
  have ofClass {c : FabClass} {t : FabTxn} (h : t ∈ f.txns.filter (fun t => t.cls == c)) : t.cls = c := by
    simpa using (List.mem_filter.mp h).2
  refine List.pairwise_flatMap.mpr ⟨fun c _ => ?_, classes.imp fun le x hx y hy => ?_⟩
  · exact List.pairwise_of_forall_mem_list fun x hx y hy => by rw [ofClass hx, ofClass hy]
  · rw [ofClass hx, ofClass hy]
    exact le

/-- R17: a transaction served next waits, and none of a higher class waits on its pseudo-channel. -/
theorem FabSt.nextServed_highest {f : FabSt} {t : FabTxn} (ht : t ∈ f.nextServed) :
    t ∈ f.txns ∧ ∀ u ∈ f.txns, u.pc = t.pc → t.cls.code ≤ u.cls.code :=
  ⟨(f.mem_inOrder t).mp (firstPerPc_subset ht).1,
   fun u hu e => firstPerPc_highest f.inOrder_pairwise ht ((f.mem_inOrder u).mpr hu) e⟩

theorem FabSt.nextServed_unique {f : FabSt} {t u : FabTxn} (ht : t ∈ f.nextServed) (hu : u ∈ f.nextServed) (e : t.pc = u.pc) : t = u :=
  List.inj_on_of_nodup_map (firstPerPc_nodup [] f.inOrder) ht hu e

theorem FabSt.busy_iff (f : FabSt) (pc : Nat) : f.busy pc = true ↔ ∃ t ∈ f.txns, t.pc = pc ∧ (t.cls = .live ∨ t.cls = .frame) := by
  simp [FabSt.busy, FabClass.deadline]

/-- R24: a transaction of a stale epoch is dropped and logged. -/
theorem State.serveOne_stale {s : State} {t : FabTxn} (h : t.epoch ≠ s.fabEpoch t.role) :
    (s.serveOne t).fab.served = s.fab.served ∧ (s.serveOne t).mgmt.errors.next = (s.mgmt.errors.next + 1) % 2 ^ 32 := by
  unfold State.serveOne
  rw [if_neg h]
  exact ⟨rfl, rfl⟩

end Sys2Proof.Machine
end

section
/-!
SUPPORT. Refresh under the fabric's traffic (R325, R326, Table 12-5), with the laws of the fabric.
-/
namespace Sys2Proof

open Machine

/-- Table 12-5: a refresh of a pseudo-channel in service is postponed or forced under deadline traffic, else issued. -/
theorem execRefreshDue_inService {s : State} {k : Fin 4} {i : Fin 32} (hr : (s.mem.pcs[pcAt k i]).state ≠ .retired)
    (h2 : s.power.cur ≠ .ps2) (h3 : s.power.cur ≠ .ps3) :
    execRefreshDue k i s =
      if s.fab.busy (pcAt k i).val then
        if (s.mem.pcs[pcAt k i]).postponed < 8 then
          .next ((s.mapPc (pcAt k i) (fun y => { y with postponed := y.postponed + 1 })).mapMemCnt
            (fun n => { n with postponed := n.postponed.satInc }))
        else .next (s.mapMemCnt (fun n => { n with forced := n.forced.satInc }))
      else .next (s.mapPc (pcAt k i) (fun y => { y with postponed := y.postponed - 1 })) := by
  unfold execRefreshDue
  exact if_neg (State.pc_inService hr h2 h3)

/-- R326: a count of 6 or more is made up once R18 allows the pause. -/
theorem execMakeUpBurst_allowed {s : State} {k : Fin 4} {i : Fin 32} (hn : 6 ≤ (s.mem.pcs[pcAt k i]).postponed)
    (h : s.pauseAllowed k.val = true) :
    execMakeUpBurst k i s =
      .next ((s.mapPc (pcAt k i) (fun y => { y with postponed := 0 })).mapMemCnt (fun n => { n with bursts := n.bursts.satInc })) := by
  have hn' : 6 ≤ (s.pc (pcAt k i)).postponed := hn
  simp [execMakeUpBurst, hn', h]

/-- Settles O22: tags are taken pool by pool, service follows the order by class, and the refresh cases are those of Table 12-5. The pace of the
fabric and the index of a tag are the model's choice (log 20). -/
theorem refreshFollowsTheTable : Obligations.RefreshFollowsTheTable := by
  unfold Obligations.RefreshFollowsTheTable
  refine ⟨fun f home ticks ns r => ⟨fun hf _ => FabReq.cls_promoted hf, f.issueOne_cases home ticks ns r⟩,
    fun f => ⟨fun _ => FabSt.nextServed_highest, fun _ ht _ hu => FabSt.nextServed_unique ht hu⟩,
    fun s t stale => ?dropped, fun s k i hr h2 h3 => ?refreshed⟩
  case dropped =>
    obtain ⟨served, logged⟩ := State.serveOne_stale stale
    exact ⟨_, rfl, served, logged, State.serveOne_only (.refl _ s) (by simp) (by simp) t⟩
  case refreshed =>
    intro p n pending alone
    have busy : s.fab.busy p.val = true ↔ pending := s.fab.busy_iff p.val
    have due := execRefreshDue_inService hr h2 h3
    refine ⟨fun hp hn => ?postponed, fun hp hn => ?forced, fun hp => ?issued, fun hn hc hs => ?burst⟩
    case postponed =>
      rw [if_pos (busy.mpr hp), if_pos hn] at due
      exact ⟨_, due, by simp [p, n], rfl, ((OnlyPc.refl p s).mapPc _).mapMemCnt _⟩
    case forced =>
      rw [if_pos (busy.mpr hp), if_neg (Nat.not_lt.mpr (Nat.le_of_eq hn.symm))] at due
      exact ⟨_, due, rfl, rfl, (OnlyPc.refl p s).mapMemCnt _⟩
    case issued =>
      rw [if_neg (mt busy.mp hp)] at due
      exact ⟨_, due, by simp [p, n], rfl, (OnlyPc.refl p s).mapPc _⟩
    case burst =>
      have run := execMakeUpBurst_allowed hn ((s.pauseAllowed_iff k.val).mpr ⟨hc, hs⟩)
      exact ⟨_, run, by simp [p], ((OnlyPc.refl p s).mapPc _).mapMemCnt _⟩

end Sys2Proof
end

section
/-!
SUPPORT. The retraining slots of a pseudo-channel (R18, R324, R327, R340, R341).
-/
namespace Sys2Proof.Machine

/-! ### A row repair -/

/-- An update that keeps the test finds the same element, updated. -/
theorem find?_updWhere {α : Type} {p : α → Bool} {f : α → α} (keeps : ∀ x, p (f x) = p x) (l : List α) :
    (updWhere p f l).find? p = (l.find? p).map f := by
  induction l with
  | nil => rfl
  | cons a l ih =>
    unfold updWhere at ih ⊢
    cases h : p a <;> simp [h, keeps, ih]

/-- Repairing a row uses a spare row of its bank (R341). -/
theorem PseudoChannel.used_useSpare (x : PseudoChannel) (bank : Nat) : (x.useSpare bank).used bank = x.used bank + 1 := by
  unfold PseudoChannel.used PseudoChannel.useSpare
  cases h : x.banksUsed.find? (fun b => b.1 == bank) with
  | none =>
    have new : x.banksUsed.any (fun b => b.1 == bank) = false := by simpa using h
    simp [new, List.find?_append, h]
  | some b =>
    have here : (b.1 == bank) = true := List.find?_some (p := fun b : Nat × Nat => b.1 == bank) h
    have listed : x.banksUsed.any (fun b => b.1 == bank) = true := List.any_eq_true.mpr ⟨b, List.mem_of_find?_eq_some h, here⟩
    rw [if_pos listed, find?_updWhere (f := fun b : Nat × Nat => (b.1, b.2 + 1)) (fun _ => rfl), h]
    rfl

/-- A pseudo-channel after the repair of a row in a slot (R340): the row is no candidate and not watched, and a spare row of its bank is used. -/
def PseudoChannel.repaired (x : PseudoChannel) (c : Candidate) : PseudoChannel :=
  { x.useSpare c.bank with
    candidates := x.candidates.filter (· != c), watch := x.watch.filter (fun w => !(w.row == c.row && w.bank == c.bank)),
    repairs := min (x.repairs + 1) 255, repairedLast := true, retrainDue := false }

theorem PseudoChannel.used_repaired (x : PseudoChannel) (c : Candidate) : (x.repaired c).used c.bank = x.used c.bank + 1 :=
  x.used_useSpare c.bank

/-- The whole effect of a repair: the pseudo-channel, the copy of the row over the fabric, PPR_DONE, the log entry and the repair record. -/
def State.repairRow (p : Fin 128) (c : Candidate) (s : State) : State :=
  let t := s.mapPc p (fun y => y.repaired c)
  let t := t.requests [{ t.access .rowRepair (.channel p.val) noCam 0 1024 false with pc := some p.val },
                       { t.access .rowRepair (.channel p.val) noCam 0 1024 true with pc := some p.val }]
  ((t.mapMemCnt (fun n => { n with pprDone := n.pprDone.satInc })).logEvent
    { source := 0x01, unit := unitHandle 0x0D p.val, detail := [c.row, c.bank] }).emit (.flashWrite 0x10000 (Machine.repairBytes p.val c.row c.bank))

theorem State.repairRow_pcs_same (s : State) (p : Fin 128) (c : Candidate) :
    (s.repairRow p c).mem.pcs[p] = (s.mem.pcs[p]).repaired c := s.mapPc_pcs_same p (fun y => y.repaired c)

theorem State.repairRow_pcs_ne (s : State) {p q : Fin 128} (h : q ≠ p) (c : Candidate) :
    (s.repairRow p c).mem.pcs[q] = s.mem.pcs[q] := s.mapPc_pcs_ne h (fun y => y.repaired c)

theorem State.repairRow_cnt (s : State) (p : Fin 128) (c : Candidate) :
    (s.repairRow p c).mem.cnt = { s.mem.cnt with pprDone := s.mem.cnt.pprDone.satInc } := rfl

theorem State.repairRow_only (s : State) (p : Fin 128) (c : Candidate) : Only [.memory, .mgmt, .out, .fabric] s (s.repairRow p c) := by
  have repaired : Only [.memory, .mgmt, .out, .fabric] s (s.mapPc p (fun y => y.repaired c)) := State.mapPc_only (.refl _ s) (by simp) p _
  exact (State.logEvent_only (State.mapMemCnt_only (State.requests_only repaired (by simp) _) (by simp) _) (by simp) _).out (by simp) _

/-! ### What a slot does -/

/-- R327: a retraining with a good eye clears what earlier slots left. -/
theorem State.retrain_good (s : State) (p : Fin 128) :
    (s.retrain p true).mem.pcs[p] = { s.mem.pcs[p] with failures := 0, retrainDue := false, skips := 0, repairedLast := false } ∧
      (s.retrain p true).mem.cnt = s.mem.cnt ∧ OnlyPc p s (s.retrain p true) := by
  unfold State.retrain
  rw [if_pos rfl]
  exact ⟨by simp, rfl, (OnlyPc.refl p s).mapPc _⟩

section
variable {s : State} {k : Fin 4} {i : Fin 32} (eye : Bool) (hr : (s.mem.pcs[pcAt k i]).state ≠ .retired) (h2 : s.power.cur ≠ .ps2)
  (h3 : s.power.cur ≠ .ps3) (hd : (s.mem.pcs[pcAt k i]).retrainDue = false)
include hr h2 h3 hd

theorem execRetrainingSlot_deferred (h : s.pauseAllowed k.val = false) :
    execRetrainingSlot k i eye s =
      .next ((s.mapPc (pcAt k i) (fun y => { y with retrainDue := true })).mapMemCnt (fun n => { n with deferred := n.deferred.satInc })) := by
  have notDue : (s.pc (pcAt k i)).retrainDue = false := hd
  unfold execRetrainingSlot
  simp [State.pc_inService hr h2 h3, notDue, h]

theorem execRetrainingSlot_repairs {c : Candidate} (h : s.pauseAllowed k.val = true) (hp : s.mgmt.policy.pprEn = true)
    (hl : (s.mem.pcs[pcAt k i]).repairedLast = false)
    (hc : (s.mem.pcs[pcAt k i]).candidates.find? (fun c => (s.mem.pcs[pcAt k i]).used c.bank < 2) = some c) :
    execRetrainingSlot k i eye s = .next (s.repairRow (pcAt k i) c) := by
  have notDue : (s.pc (pcAt k i)).retrainDue = false := hd
  have notLast : (s.pc (pcAt k i)).repairedLast = false := hl
  have first : (s.pc (pcAt k i)).candidates.find? (fun c => (s.pc (pcAt k i)).used c.bank < 2) = some c := hc
  unfold execRetrainingSlot
  simp only [State.pc_inService hr h2 h3, notDue, h, first, hp, notLast]
  rfl

theorem execRetrainingSlot_retrains (h : s.pauseAllowed k.val = true)
    (hc : (s.mem.pcs[pcAt k i]).candidates.find? (fun c => (s.mem.pcs[pcAt k i]).used c.bank < 2) = none) :
    execRetrainingSlot k i eye s = .next (s.retrain (pcAt k i) eye) := by
  have notDue : (s.pc (pcAt k i)).retrainDue = false := hd
  have noRow : (s.pc (pcAt k i)).candidates.find? (fun c => (s.pc (pcAt k i)).used c.bank < 2) = none := hc
  unfold execRetrainingSlot
  simp only [State.pc_inService hr h2 h3, notDue, h, noRow]
  rfl

end

theorem execRetrainRetry_allowed {s : State} {k : Fin 4} {i : Fin 32} (eye : Bool) (hd : (s.mem.pcs[pcAt k i]).retrainDue = true)
    (h : s.pauseAllowed k.val = true) : execRetrainRetry k i eye s = .next (s.retrain (pcAt k i) eye) := by
  have due : (s.pc (pcAt k i)).retrainDue = true := hd
  simp [execRetrainRetry, due, h]

/-! ### The measured slack (R324) -/

theorem State.slack_idle {s : State} (h : s.cameraRunning = false) : s.slack = 100000 := by simp [State.slack, h]

theorem State.slack_running {s : State} {got : Nat} (h : s.cameraRunning = true)
    (hg : got = sumNat ((s.cams.ingest.filter (fun y => y.1 + 4000 ≥ s.time.ticks)).map (fun y => y.2))) (pos : 0 < got) :
    s.slack = Nat.min 100000 ((6291456 - s.lineStore) * 10000 / got) := by
  subst hg
  exact if_neg (by simp [h, Nat.ne_of_gt pos])

end Sys2Proof.Machine

namespace Sys2Proof

open Machine

/-- Settles O23: a slot is deferred, repairs or retrains as R18 and the candidates decide, and the slack is the one measured (log 54). -/
theorem retrainingSlotsRepairRetrainOrDefer : Obligations.RetrainingSlotsRepairRetrainOrDefer := by
  unfold Obligations.RetrainingSlotsRepairRetrainOrDefer
  intro s k i hr h2 h3 p x allowed others
  have pause : s.pauseAllowed k.val = true ↔ allowed := s.pauseAllowed_iff k.val
  refine ⟨fun hd ha eye => ?deferred, fun hd ha hp hl r eye hc => ?repairs, fun hd ha hc => ?retrains, fun hd ha => ?retries,
    State.slack_idle, fun _ hrun hg pos => State.slack_running hrun hg pos⟩
  case deferred =>
    have run := execRetrainingSlot_deferred eye hr h2 h3 hd (Bool.eq_false_iff.mpr (mt pause.mp ha))
    exact ⟨_, run, by simp [p, x], rfl, ((OnlyPc.refl p s).mapPc _).mapMemCnt _⟩
  case repairs =>
    have run := execRetrainingSlot_repairs eye hr h2 h3 hd (pause.mpr ha) hp hl hc
    have here : (s.repairRow p r).mem.pcs[p] = x.repaired r := s.repairRow_pcs_same p r
    exact ⟨_, run, congrArg PseudoChannel.candidates here, here ▸ x.used_repaired r, congrArg PseudoChannel.repairedLast here,
      s.repairRow_cnt p r, fun _ hq => s.repairRow_pcs_ne hq r, s.repairRow_only p r⟩
  case retrains =>
    have run := execRetrainingSlot_retrains true hr h2 h3 hd (pause.mpr ha) hc
    exact ⟨_, run, s.retrain_good p⟩
  case retries =>
    have run := execRetrainRetry_allowed true hd (pause.mpr ha)
    obtain ⟨cleared, -, alone⟩ := s.retrain_good p
    exact ⟨_, run, cleared, alone⟩

end Sys2Proof
end

section
/-!
SUPPORT. What completions, events and log entries keep: of the queues, of the host interface, and of the firmware's state.
-/
namespace Sys2Proof.Machine

/-- What completions leave of a queue: all but its commands in flight, its ready completions and the count of its reset. -/
def Queue.settings (k : Queue) : Queue :=
  { k with inFlight := [], ready := [], reset := k.reset.map (fun r => { r with count := 0 }) }

theorem Queue.reset_eq_none_of_settings {k l : Queue} (h : l.settings = k.settings) (hk : k.reset = none) : l.reset = none := by
  have := congrArg Queue.reset h
  simpa [Queue.settings, hk] using this

theorem Queue.settings_landed (r : CmdRef) (k : Queue) : (k.landed r).settings = k.settings := rfl

theorem Queue.settings_countAborted (n : Nat) (k : Queue) : (k.countAborted n).settings = k.settings := by
  cases h : k.reset <;> simp [Queue.settings, Queue.countAborted, h]

/-- What completions and events leave of the host interface: all but the queues, the locks, the requests and events, the orphans, and the timers
of the idle period. -/
def HostSt.settings (h : HostSt) : HostSt :=
  { h with queues := Vector.replicate 64 Queue.absent, ended := [], locks := [], async := [], held := [], heldLost := false, orphanRun := [],
           orphansFlag := false, orphans := { h.orphans with overflow := 0, entries := [] }, expired := noneExpired }

/-- A state differs from another by completions, events and log entries. -/
structure Ends (s t : State) : Prop where
  queues : ∀ q : Fin 64, (t.queue q).settings = (s.queue q).settings
  host : t.host.settings = s.host.settings
  fw : t.mgmt.fw = s.mgmt.fw
  restarted : t.mgmt.smb.fwRestarted = s.mgmt.smb.fwRestarted
  only : Only [.host, .mgmt] s t

theorem Ends.refl (s : State) : Ends s s := ⟨fun _ => rfl, rfl, rfl, rfl, .refl _ s⟩

theorem Ends.trans {s t u : State} (h : Ends s t) (k : Ends t u) : Ends s u :=
  ⟨fun q => (k.queues q).trans (h.queues q), k.host.trans h.host, k.fw.trans h.fw, k.restarted.trans h.restarted, h.only.trans k.only⟩

theorem Ends.foldl {α : Type} {s : State} (f : State → α → State) (hf : ∀ t a, Ends t (f t a)) (l : List α) : Ends s (l.foldl f s) :=
  List.foldlRecOn (motive := Ends s) l f (.refl s) fun t h a _ => h.trans (hf t a)

theorem Ends.mapHost (s : State) (f : HostSt → HostSt) (hs : (f s.host).settings = s.host.settings)
    (hq : (f s.host).queues = s.host.queues) : Ends s (s.mapHost f) :=
  ⟨fun q => congrArg Queue.settings (s.queue_mapHost q f hq), hs, rfl, rfl, (Only.refl _ s).host (by simp) _⟩

theorem Ends.mapQueue (s : State) (q : Fin 64) (f : Queue → Queue) (hf : ∀ k, (f k).settings = k.settings) : Ends s (s.mapQueue q f) := by
  refine ⟨fun x => ?_, rfl, rfl, rfl, (Only.refl _ s).host (by simp) _⟩
  by_cases hx : x = q
  · rw [hx, State.queue_mapQueue, hf]
  · rw [State.queue_mapQueue_ne _ hx]

theorem Ends.logError (s : State) (i : LogInfo) : Ends s (s.logError i) :=
  ⟨fun _ => rfl, rfl, rfl, rfl, State.logError_only (.refl _ s) (by simp) i⟩

theorem Ends.logEvent (s : State) (i : LogInfo) : Ends s (s.logEvent i) :=
  ⟨fun _ => rfl, rfl, rfl, rfl, State.logEvent_only (.refl _ s) (by simp) i⟩

theorem Ends.addOrphan (s : State) (q : Fin 64) (op cid : Half) (st : Status) (r0 r1 : Word) (lg : Bool) :
    Ends s (s.addOrphan q op cid st r0 r1 lg) := by
  unfold State.addOrphan
  dsimp only
  split
  · exact .mapHost _ _ rfl rfl
  · exact (Ends.mapHost _ _ rfl rfl).trans (.logError _ _)

theorem Ends.pushReady (s : State) (q : Fin 64) (r : Ready) : Ends s (s.pushReady q r) := by
  refine (Ends.mapQueue s q _ fun _ => ?_).trans (.mapHost _ _ rfl rfl)
  rfl

theorem Ends.finish (s : State) (r : CmdRef) (st : Status) (r0 r1 : Nat) (lg : Bool) : Ends s (s.finish r st r0 r1 lg) := by
  unfold State.finish
  dsimp only
  split
  · exact (Ends.mapHost _ _ rfl rfl).trans (.addOrphan ..)
  · split
    · exact .refl s
    · refine ((Ends.mapQueue s _ _ fun k => ?_).trans (.mapHost _ _ rfl rfl)).trans (.pushReady ..)
      rw [Queue.settings_landed]
      split
      · exact k.settings_countAborted 1
      · rfl

theorem Ends.keepInFlight (s : State) (r : CmdRef) : Ends s (s.keepInFlight r) := by
  unfold State.keepInFlight
  split
  · exact .refl s
  · refine .mapQueue s _ _ fun k => ?_
    split <;> rfl

theorem Ends.post (s : State) (ty : EvType) (d : Word) : Ends s (s.post ty d) := by
  unfold State.post
  split
  · exact .mapHost _ _ rfl rfl
  · split
    · exact (Ends.mapHost _ _ rfl rfl).trans (.finish ..)
    · split <;> exact .mapHost _ _ rfl rfl

theorem Ends.logErrorPost (s : State) (i : LogInfo) : Ends s (s.logErrorPost i) := (Ends.logError s i).trans (.post ..)

theorem Ends.power {s t : State} (h : Ends s t) : t.power = s.power := h.only.same .power (by simp)

theorem Ends.mem {s t : State} (h : Ends s t) : t.mem = s.mem := by
  have b : t.mem.mem = s.mem.mem := h.only.same .bytes (by simp)
  have m : { t.mem with mem := s.mem.mem } = s.mem := h.only.same .memory (by simp)
  rw [← m, ← b]

/-! ### Requests and held events -/

theorem State.addOrphan_requests (s : State) (q : Fin 64) (op cid : Half) (st : Status) (r0 r1 : Word) (lg : Bool) :
    (s.addOrphan q op cid st r0 r1 lg).host.async = s.host.async ∧ (s.addOrphan q op cid st r0 r1 lg).host.held = s.host.held := by
  unfold State.addOrphan
  dsimp only
  split <;> exact ⟨rfl, rfl⟩

/-- A completion ends no request but its own, and takes no held event. -/
theorem State.finish_requests (s : State) (r : CmdRef) (st : Status) (r0 r1 : Nat) (lg : Bool) :
    (s.finish r st r0 r1 lg).host.async = s.host.async ∧ (s.finish r st r0 r1 lg).host.held = s.host.held := by
  unfold State.finish
  dsimp only
  split
  · exact State.addOrphan_requests ..
  · split <;> exact ⟨rfl, rfl⟩

theorem State.post_async_nil {s : State} (h : s.host.async = []) (ty : EvType) (d : Word) : (s.post ty d).host.async = [] := by
  unfold State.post
  rw [h]
  dsimp only
  split
  · exact h
  · split <;> exact h

end Sys2Proof.Machine
end

section
/-!
SUPPORT. Enabling the host interface (R464), and writes to the registers that have no row of their own (R28, R30).
-/
namespace Sys2Proof.Machine

/-! ### HOST_ENABLE -/

theorem State.bar0Up_of_ready {s : State} (h : s.ready = true) : s.bar0Up = true := by simp [State.bar0Up, h]

/-- The checks of the admin registers (R464). -/
def HostSt.adminGood (h : HostSt) : Prop :=
  (1 ≤ h.asqs ∧ h.asqs ≤ 4095) ∧ (1 ≤ h.acqs ∧ h.acqs ≤ 4095) ∧ h.asqBase.toNat % 4096 = 0 ∧ h.acqBase.toNat % 4096 = 0

/-- The admin queue pair that HOST_ENABLE sets up (R464). -/
def State.adminQueue (s : State) : Queue :=
  { Queue.absent with
    live := true, handle := s.nextHandle 0x9, entries := s.host.asqs + 1, cqEntries := s.host.acqs + 1,
    sq := .hostMem s.host.asqBase.toNat, cq := .hostMem s.host.acqBase.toNat, vector := 0, cqCount := 1, cqTime := 0 }

/-- The state in which HOST_ENABLE has set EN and the admin queue pair. -/
def State.hostEnabled (s : State) : State :=
  ((s.mapHost (fun h => { h with en := true })).mapQueue 0 (fun _ => s.adminQueue)).issue 0x9

theorem execHostEnable_good {s : State} (hu : s.bar0Up = true) (he : s.host.en = false) (h : s.host.adminGood) :
    execHostEnable s = .next s.hostEnabled := by
  obtain ⟨⟨sq, sqMax⟩, ⟨cq, cqMax⟩, sqBase, cqBase⟩ := h
  simp [execHostEnable, hu, he, sq, sqMax, cq, cqMax, sqBase, cqBase, bitsOf, State.adminQueue, State.hostEnabled]

theorem execHostEnable_bad {s : State} (hu : s.bar0Up = true) (he : s.host.en = false) (h : ¬ s.host.adminGood) :
    execHostEnable s = .next (s.mapHost (fun h => { h with paramErr := true })) := by
  unfold HostSt.adminGood at h
  unfold execHostEnable
  rw [he, hu, if_neg (by decide), if_neg (by decide)]
  refine if_pos ?_
  simp [bitsOf]
  omega

@[simp] theorem State.queue_issue (s : State) (ty : Nat) (q : Fin 64) : (s.issue ty).queue q = s.queue q := rfl

theorem State.hostEnabled_queue (s : State) : s.hostEnabled.queue 0 = s.adminQueue := by simp [State.hostEnabled]

theorem State.hostEnabled_rdy {s : State} (h : s.ready = true) : s.hostEnabled.rdy = true := by
  have up : s.hostEnabled.ready = true := h
  have on : s.hostEnabled.host.en = true := rfl
  simp [State.rdy, up, on, State.hostEnabled_queue, State.adminQueue, Queue.absent]

theorem State.hostEnabled_only (s : State) : Only [.host, .issued] s s.hostEnabled :=
  (((Only.refl _ s).host (by simp) _).host (by simp) _).issued (by simp) _

/-! ### REGISTER_WRITE -/

theorem execRegisterWrite_narrow {s : State} (hu : s.bar0Up = true) {off : Nat} (ho : off % 4 = 0) (v : Nat) :
    execRegisterWrite (.bar0 off false v) s = .next (s.bar0Word off (v % 2 ^ 32)) := by
  simp [execRegisterWrite, hu, State.bar0Write, ho]

/-- A 64-bit write of a register other than KX_HOST_BAR2_BASE is of both halves. -/
theorem execRegisterWrite_wide {s : State} (hu : s.bar0Up = true) {off v : Nat} (ho : off % 8 = 0) (hb : off ≠ 0x020) (hv : v < 2 ^ 64) :
    execRegisterWrite (.bar0 off true v) s = .next ((s.bar0Word off (v % 2 ^ 32)).bar0Word (off + 4) (v / 2 ^ 32)) := by
  have high : v / 4294967296 % 4294967296 = v / 4294967296 := Nat.mod_eq_of_lt (by omega)
  simp [execRegisterWrite, hu, State.bar0Write, ho, hb, high]

theorem execRegisterWrite_bar2Base {s : State} (hu : s.bar0Up = true) (v : Nat) :
    execRegisterWrite (.bar0 0x020 true v) s = .next (s.setBar2 v) := by
  simp [execRegisterWrite, hu, State.bar0Write]

theorem execRegisterWrite_unaligned (s : State) (off v : Nat) (wide : Bool) (ho : off % (if wide then 8 else 4) ≠ 0) :
    execRegisterWrite (.bar0 off wide v) s = .next s := by
  cases wide <;> simp_all [execRegisterWrite, State.bar0Write]

/-- The two halves of a 64-bit register, written one after the other, are the value. -/
theorem withHalf_withHalf (old : DWord) (v : Nat) :
    withHalf (withHalf old false (v % 2 ^ 32)) true (v / 2 ^ 32) = BitVec.ofNat 64 v := by
  apply BitVec.eq_of_toNat_eq
  have := old.isLt
  simp only [withHalf, BitVec.toNat_ofNat]
  simp
  omega

theorem State.bar0Word_reserved (s : State) {off : Nat} (h : off = 0x00C ∨ (0x040 ≤ off ∧ off < 0x1000)) (v : Nat) : s.bar0Word off v = s := by
  unfold State.bar0Word
  repeat rw [if_neg (by omega)]

end Sys2Proof.Machine

namespace Sys2Proof

open Machine

/-- Settles O1: the checks of the admin registers decide between the two outcomes. -/
theorem hostEnableChecksAndSetsUpAdminQueue : Obligations.HostEnableChecksAndSetsUpAdminQueue := by
  unfold Obligations.HostEnableChecksAndSetsUpAdminQueue
  intro s hr he h good
  have up := State.bar0Up_of_ready hr
  refine ⟨fun hg => ⟨s.hostEnabled, execHostEnable_good up he hg, rfl, s.hostEnabled_rdy hr, ?_⟩, execHostEnable_bad up he⟩
  rw [s.hostEnabled_queue]
  exact ⟨rfl, rfl, rfl, rfl, rfl, rfl, rfl, rfl, s.hostEnabled_only⟩

/-- Settles O12. -/
theorem badBarZeroAccessHasNoEffect : Obligations.BadBarZeroAccessHasNoEffect := by
  unfold Obligations.BadBarZeroAccessHasNoEffect
  intro s h
  have read : execBar0BadAccess true s = .next (s.emit (.readData (2 ^ 64 - 1))) := by simp [execBar0BadAccess, h]
  exact ⟨read, rfl⟩

/-- Settles O11: each register by its own write, the reserved and the unaligned offsets by the common ones. -/
theorem registerWritesHaveTheirStatedEffect : Obligations.RegisterWritesHaveTheirStatedEffect := by
  unfold Obligations.RegisterWritesHaveTheirStatedEffect
  refine ⟨fun s v hu hv => ⟨?attr, ?flags⟩, fun s v hu hv => ⟨?asq, ?acq, ?bar2⟩, fun s n hu => ?size, fun s off v hu ho => ?reserved,
    fun s off v ho => execRegisterWrite_unaligned s off v true (by simpa using ho), fun s v hp => ?smbus⟩
  case attr =>
    refine (execRegisterWrite_narrow hu rfl v).trans ?_
    rw [Nat.mod_eq_of_lt hv]
    simp [State.bar0Word, State.mapHost, bitsOf]
  case flags =>
    refine (execRegisterWrite_narrow hu rfl v).trans ?_
    rw [Nat.mod_eq_of_lt hv]
    simp [State.bar0Word, State.mapHost, rw1c, bitOf]
  case asq =>
    refine (execRegisterWrite_wide hu rfl (by decide) hv).trans ?_
    simpa [State.bar0Word, State.mapHost] using withHalf_withHalf s.host.asqBase v
  case acq =>
    refine (execRegisterWrite_wide hu rfl (by decide) hv).trans ?_
    simpa [State.bar0Word, State.mapHost] using withHalf_withHalf s.host.acqBase v
  case bar2 =>
    exact (execRegisterWrite_bar2Base hu v).trans rfl
  case size =>
    simp [execRegisterWrite, hu, State.mapHost]
  case reserved =>
    by_cases aligned : off % 4 = 0
    · have kept := s.bar0Word_reserved (by omega : off = 0x00C ∨ (0x040 ≤ off ∧ off < 0x1000)) (v % 2 ^ 32)
      exact (execRegisterWrite_narrow hu aligned v).trans (congrArg _ kept)
    · exact execRegisterWrite_unaligned s off v false (by simpa using aligned)
  case smbus =>
    simp [execRegisterWrite, State.smbUp, hp, State.smbusWrite, State.mapMgmt]

end Sys2Proof
end

section
/-!
SUPPORT. The state after reset.
-/
namespace Sys2Proof.Machine

/-- Every role of a freshly numbered list of roles has epoch 1 (R409). -/
theorem Role.epoch_of_mem_numbered {n : Nat} {r : Role}
    (h : r ∈ (Vector.ofFn (fun i : Fin n => ({ unit := some i.val, epoch := 1 } : Role))).toList) : r.epoch = 1 := by
  obtain ⟨i, rfl⟩ := List.mem_ofFn.mp (Vector.toList_ofFn ▸ h)
  rfl

end Sys2Proof.Machine

namespace Sys2Proof

open Machine

/-- Settles O59: the values by evaluation, the vectors element by element. -/
theorem resetLeavesTheStatedValues : Obligations.ResetLeavesTheStatedValues := by
  unfold Obligations.ResetLeavesTheStatedValues
  intro s
  have noQueue (q : Fin 64) : (s.queue q).live = false := by simp [s, State.queue, State.reset, HostSt.reset, Queue.absent]
  have noHead (h : Fin 4) : s.disp.heads[h] = none := by simp [s, State.reset, DispSt.reset]
  have noPort (p : Fin 8) : s.aud.ports[p] = none := by simp [s, State.reset, AudSt.reset]
  have idle (k : Fin 48) : s.cams.ctx[k].state = .idle := by simp [s, State.reset, CamsSt.reset, CamCtx.idle]
  have epochs (k : UnitKind) : ∀ r ∈ s.mgmt.units.roles k, r.epoch = 1 := by
    cases k <;> exact fun r => Role.epoch_of_mem_numbered
  exact ⟨State.reset_wf, rfl, rfl, rfl, rfl, rfl, rfl, rfl, rfl, rfl, rfl, noQueue, rfl, rfl, rfl, rfl, rfl, rfl, rfl, rfl, rfl, rfl, rfl, rfl,
    noHead, noPort, idle, rfl, rfl, rfl, rfl, rfl, epochs⟩

end Sys2Proof
end

section
/-!
SUPPORT. The host-interface reset (R67, R68): the host block is cleared first, and what is logged and completed after that keeps it so.
-/
namespace Sys2Proof.Machine

/-- The host block after a host-interface reset (R67): all but what R68 keeps is at its reset value. -/
def HostSt.cleared (flag : Bool) (page : OrphanPage) (running : List Flying) (h : HostSt) : HostSt :=
  { HostSt.reset with
    orphansFlag := flag, feat := h.feat, orphans := page, orphanRun := running, locks := h.locks, activation := h.activation,
    linkUp := h.linkUp, expired := h.expired }

theorem HostSt.cleared_queues (flag : Bool) (page : OrphanPage) (running : List Flying) (s : State) (q : Fin 64) :
    (s.mapHost (HostSt.cleared flag page running)).queue q = Queue.absent := by
  simp [State.queue, HostSt.cleared, HostSt.reset]

/-- A state differs from another by completions and log entries, which answer no request and take no event. -/
structure EndsQuietly (s t : State) : Prop where
  ends : Ends s t
  async : t.host.async = s.host.async
  held : t.host.held = s.host.held

theorem EndsQuietly.trans {s t u : State} (h : EndsQuietly s t) (k : EndsQuietly t u) : EndsQuietly s u :=
  ⟨h.ends.trans k.ends, k.async.trans h.async, k.held.trans h.held⟩

theorem EndsQuietly.foldl {α : Type} {s : State} (f : State → α → State) (hf : ∀ t a, EndsQuietly t (f t a)) (l : List α) :
    EndsQuietly s (l.foldl f s) :=
  List.foldlRecOn (motive := EndsQuietly s) l f ⟨.refl s, rfl, rfl⟩ fun t h a _ => h.trans (hf t a)

theorem EndsQuietly.logError (s : State) (i : LogInfo) : EndsQuietly s (s.logError i) := ⟨.logError s i, rfl, rfl⟩

theorem EndsQuietly.finish (s : State) (r : CmdRef) (st : Status) (r0 r1 : Nat) (lg : Bool) : EndsQuietly s (s.finish r st r0 r1 lg) :=
  ⟨.finish .., (s.finish_requests ..).1, (s.finish_requests ..).2⟩

/-- R67, R68: the host block is cleared, completions and log entries follow, and the sinks are disarmed. -/
theorem State.hostReset_steps (cause : HostResetCause) (s : State) :
    ∃ (flag : Bool) (page : OrphanPage) (running : List Flying) (t : State), page.cause = cause ∧
      EndsQuietly (s.mapHost (HostSt.cleared flag page running)) t ∧ s.hostReset cause = t.disarmSinks :=
  ⟨_, _, _, _, rfl, (EndsQuietly.foldl _ (fun _ _ => .logError ..) _).trans (EndsQuietly.foldl _ (fun _ _ => .finish ..) _), rfl⟩

theorem State.disarmSinks_only {ps : List Part} {s t : State} (h : Only ps s t) (hr : Part.recs ∈ ps) : Only ps s t.disarmSinks := h.recs hr _

theorem execHostInterfaceReset_mapPower (cause : HostResetCause) (s : State) :
    ∃ f, execHostInterfaceReset cause s = .next ((s.hostReset cause).mapPower f) := by
  unfold execHostInterfaceReset
  dsimp only
  split
  · exact ⟨_, rfl⟩
  · exact ⟨id, rfl⟩

end Sys2Proof.Machine

namespace Sys2Proof

open Machine

/-- Settles O2: what follows the clearing of the host block keeps it. -/
theorem hostInterfaceResetClearsTheHostBlock : Obligations.HostInterfaceResetClearsTheHostBlock := by
  unfold Obligations.HostInterfaceResetClearsTheHostBlock
  intro s cause cleared
  have resets (k : HostResetCause) : cleared (s.hostReset k) k ∧ Only [.host, .mgmt, .recs] s (s.hostReset k) := by
    obtain ⟨flag, page, running, t, hc, ⟨⟨hq, hh, -, -, ho⟩, ha, hd⟩, e⟩ := s.hostReset_steps k
    have field {α : Type} (f : HostSt → α) : f t.host.settings = f ((s.mapHost (HostSt.cleared flag page running)).host.settings) := congrArg f hh
    have live (q : Fin 64) : (t.queue q).live = false := by
      have := congrArg Queue.live (hq q)
      rwa [HostSt.cleared_queues] at this
    rw [e]
    refine ⟨⟨live, hd, ha, field HostSt.en, field HostSt.paramErr, field HostSt.adminHalted, field HostSt.asqs, field HostSt.acqs,
      field HostSt.asqBase, field HostSt.acqBase, field HostSt.bar2Base, field HostSt.bar2Log2, field HostSt.feat,
      (field fun h => h.orphans.cause).trans hc⟩, ?_⟩
    exact State.disarmSinks_only (((Only.refl _ s).host (by simp) _).trans (ho.mono (by simp))) (by simp)
  refine ⟨?reset, fun en => ?disable⟩
  case reset =>
    obtain ⟨hc, ho⟩ := resets cause
    obtain ⟨f, run⟩ := execHostInterfaceReset_mapPower cause s
    exact ⟨_, run, hc, (ho.mono (by simp)).power (by simp) _⟩
  case disable =>
    obtain ⟨hc, ho⟩ := resets .enCleared
    exact ⟨_, if_pos en, hc, ho⟩

end Sys2Proof
end

section
/-!
SUPPORT. A change of the power state (R64): what it sets, and what it leaves alone.
-/
namespace Sys2Proof.Machine

theorem State.mapLane_only {ps : List Part} {s t : State} (h : Only ps s t) (hl : Part.lanes ∈ ps) (l : Nat) (f : Lane → Lane) :
    Only ps s (t.mapLane l f) := h.lanes hl _

theorem State.lanesOff_only {ps : List Part} {s t : State} (h : Only ps s t) (hl : Part.lanes ∈ ps) (ho : Part.out ∈ ps) :
    Only ps s t.lanesOff := (h.lanes hl _).out ho _

theorem State.lanesOn_only {ps : List Part} {s t : State} (h : Only ps s t) (hl : Part.lanes ∈ ps) (ho : Part.out ∈ ps) :
    Only ps s t.lanesOn := by
  refine Only.foldl _ (fun u l k => .ite k ?_) _ _ h
  exact .ite ((State.mapLane_only k hl l _).out ho _) (.ite (State.mapLane_only k hl l _) k)

theorem State.startSpeed_only {ps : List Part} {s t : State} (h : Only ps s t) (hm : Part.memory ∈ ps) (target : Nat) (waived : Bool)
    (by_ : List CmdRef) : Only ps s (t.startSpeed target waived by_) := by
  unfold State.startSpeed
  exact .ite h (h.memory hm _ rfl)

theorem MemSt.selfRefresh_mem (m : MemSt) : m.selfRefresh.mem = m.mem := by unfold MemSt.selfRefresh; rfl

/-- What a change of the power state from that of s0 does to the lanes (R362, R368). -/
def State.lanesFor (p : PowerState) (s s0 : State) : State :=
  if p = .ps3 then s.lanesOff else if s0.power.cur = .ps3 then s.lanesOn else s

/-- What a change of the power state from that of s0 does to the memory: self-refresh (R326), or the speed of the new state (R328) unless a throttle
holds it. -/
def State.memoryFor (p : PowerState) (s s0 : State) : State :=
  if p = .ps2 ∨ p = .ps3 then s.mapMem MemSt.selfRefresh
  else if s0.power.throttled then s
  else s.startSpeed (speedFor p s0.mem.setSpeed) (s0.power.cur == .ps1) []

/-- A change of the power state before its event is posted. -/
def State.enterPower (p : PowerState) (s : State) : State :=
  ((s.mapPower (fun w => { w with cur := p })).lanesFor p s).memoryFor p s

theorem State.lanesFor_only {ps : List Part} {s t : State} (h : Only ps s t) (hl : Part.lanes ∈ ps) (ho : Part.out ∈ ps)
    (p : PowerState) (s0 : State) : Only ps s (t.lanesFor p s0) := by
  unfold State.lanesFor
  exact .ite (State.lanesOff_only h hl ho) (.ite (State.lanesOn_only h hl ho) h)

theorem State.memoryFor_only {ps : List Part} {s t : State} (h : Only ps s t) (hm : Part.memory ∈ ps) (p : PowerState) (s0 : State) :
    Only ps s (t.memoryFor p s0) := by
  unfold State.memoryFor
  exact .ite (h.memory hm _ t.mem.selfRefresh_mem) (.ite h (State.startSpeed_only h hm ..))

theorem State.enterPower_steps (p : PowerState) (s : State) :
    Only [.memory, .lanes, .out] (s.mapPower (fun w => { w with cur := p })) (s.enterPower p) :=
  State.memoryFor_only (State.lanesFor_only (Only.refl _ _) (by simp) (by simp) p s) (by simp) p s

theorem State.setPower_eq (p : PowerState) (s : State) :
    s.setPower p = if s.power.cur = p then s else (s.enterPower p).post .powerState (BitVec.ofNat 32 p.code) := rfl

theorem State.setPower_power (p : PowerState) (s : State) : (s.setPower p).power = { s.power with cur := p } := by
  rw [State.setPower_eq]
  split
  next same => rw [← same]
  · exact (Ends.post ..).power.trans ((s.enterPower_steps p).same .power (by simp))

/-- A change of the power state keeps what completions leave of every queue. -/
theorem State.setPower_queue (p : PowerState) (s : State) (q : Fin 64) : ((s.setPower p).queue q).settings = (s.queue q).settings := by
  rw [State.setPower_eq]
  split
  · rfl
  · have kept : (s.enterPower p).host = s.host := (s.enterPower_steps p).same .host (by simp)
    refine ((Ends.post ..).queues q).trans ?_
    simp only [State.queue, kept]

theorem State.setPower_only {ps : List Part} {s t : State} (h : Only ps s t) (hs : [.host, .mgmt, .power, .memory, .lanes, .out] ⊆ ps)
    (p : PowerState) : Only ps s (t.setPower p) := by
  obtain ⟨hh, hm, hp, hr, hl, ho, -⟩ : Part.host ∈ ps ∧ Part.mgmt ∈ ps ∧ Part.power ∈ ps ∧ Part.memory ∈ ps ∧ Part.lanes ∈ ps ∧ Part.out ∈ ps ∧ True := by
    simpa using hs
  rw [State.setPower_eq]
  refine .ite h (State.post_only ((h.power hp _).trans ((t.enterPower_steps p).mono ?_)) hh hm ..)
  simp [hr, hl, ho]

end Sys2Proof.Machine
end

section
/-!
SUPPORT. Completions written at their queue (R41, R42, R61): what each step of a write leaves in the queue, in the host interface and in the outputs.
-/
namespace Sys2Proof.Machine

/-! ### The steps of a write -/

theorem State.mapQueue_only {ps : List Part} {s t : State} (h : Only ps s t) (hh : Part.host ∈ ps) (q : Fin 64) (f : Queue → Queue) :
    Only ps s (t.mapQueue q f) := h.host hh _

@[simp] theorem State.queue_releaseLocks (s : State) (q x : Fin 64) (cid : Half) : (s.releaseLocks q cid).queue x = s.queue x := rfl

@[simp] theorem State.releaseLocks_out (s : State) (q : Fin 64) (cid : Half) : (s.releaseLocks q cid).out = s.out := rfl

theorem State.releaseLocks_only {ps : List Part} {s t : State} (h : Only ps s t) (hh : Part.host ∈ ps) (q : Fin 64) (cid : Half) :
    Only ps s (t.releaseLocks q cid) := h.host hh _

/-- The tail of a completion queue after one entry; it wraps at the end with the phase inverted (R42). -/
def Queue.advanced (k : Queue) : Queue :=
  { k with cqTail := if k.cqEntries ≤ k.cqTail + 1 then 0 else k.cqTail + 1,
           phase := if k.cqEntries ≤ k.cqTail + 1 then !k.phase else k.phase }

theorem State.writeEntry_queue (s : State) (q : Fin 64) (r : Ready) : (s.writeEntry q r).queue q = (s.queue q).advanced := by
  unfold State.writeEntry
  dsimp only
  rw [State.queue_mapQueue]
  cases h : (s.queue q).cq <;> rfl

theorem State.writeEntry_only {ps : List Part} {s t : State} (h : Only ps s t) (hh : Part.host ∈ ps) (hb : Part.bytes ∈ ps) (ho : Part.out ∈ ps)
    (q : Fin 64) (r : Ready) : Only ps s (t.writeEntry q r) := by
  unfold State.writeEntry
  refine State.mapQueue_only ?_ hh q _
  cases (t.queue q).cq with
  | hostMem a => exact h.out ho _
  | devMem a => exact h.writeMem hb _ _

/-- An entry of a queue in host memory leaves the device. -/
theorem State.writeEntry_hostMem {s : State} {q : Fin 64} {a : Nat} (h : (s.queue q).cq = .hostMem a) (r : Ready) :
    ∃ f, s.writeEntry q r = (s.emit (.hostWrite (a + 16 * (s.queue q).cqTail)
      (entryBytes r.r0 r.r1 (s.queue q).sqHead q.val r.logged (s.queue q).phase r.cid r.status))).mapQueue q f := by
  unfold State.writeEntry
  dsimp only
  rw [h]
  exact ⟨_, rfl⟩

@[simp] theorem State.popReady_out (s : State) (q : Fin 64) (r : Ready) : (s.popReady q r).out = s.out := by simp [State.popReady]

@[simp] theorem State.popReady_locks (s : State) (q : Fin 64) (r : Ready) : (s.popReady q r).host.locks = s.host.locks := by simp [State.popReady]

@[simp] theorem State.popReady_msix (s : State) (q : Fin 64) (r : Ready) : (s.popReady q r).host.msix = s.host.msix := by simp [State.popReady]

/-- A queue that is not in reset loses its oldest completion and nothing else. -/
theorem State.popReady_queue {s : State} {q : Fin 64} (h : (s.queue q).reset = none) (r : Ready) :
    (s.popReady q r).queue q = { s.queue q with ready := (s.queue q).ready.drop 1 } := by
  have here : s.host.queues[q.val].reset = none := h
  simp [State.popReady, State.queue, vmapIdx, here]

theorem State.popReady_only {ps : List Part} {s t : State} (h : Only ps s t) (hh : Part.host ∈ ps) (q : Fin 64) (r : Ready) :
    Only ps s (t.popReady q r) := (h.host hh _).host hh _

/-! ### Signals (R61) -/

/-- Whether a vector is masked in the MSI-X table. -/
@[reducible] def HostSt.masked (h : HostSt) (v : Nat) : Prop := (vget h.msix { addr := 0, data := 0, ctrl := 1 } v).ctrl.getLsbD 0 = true

@[simp] theorem State.queue_signal (s : State) (v : Nat) (q : Fin 64) : (s.signal v).queue q = s.queue q := by
  unfold State.signal
  split <;> rfl

theorem State.signal_out (s : State) (v : Nat) : (s.signal v).out = if s.host.masked v then s.out else .msix v :: s.out := by
  unfold State.signal
  split <;> rfl

theorem State.signal_locks (s : State) (v : Nat) : (s.signal v).host.locks = s.host.locks := by
  unfold State.signal
  split <;> rfl

/-- Whether a completion signals its queue's vector when it is written (R61). -/
def Ready.signals (r : Ready) (k : Queue) : Bool := r.atOnce || (r.eligible && (k.cqCount ≤ k.unsig + 1 || k.cqTime == 0))

theorem State.signalFor_signals {s : State} {q : Fin 64} {r : Ready} (h : r.signals (s.queue q) = true) :
    s.signalFor q r = (s.mapQueue q (fun x => { x with unsig := 0, unsigElig := false })).signal (s.queue q).vector := if_pos h

theorem State.signalFor_counts {s : State} {q : Fin 64} {r : Ready} (h : ¬ r.signals (s.queue q) = true) :
    s.signalFor q r = s.mapQueue q (fun x => { x with unsig := (s.queue q).unsig + 1, unsigElig := x.unsigElig || r.eligible }) := if_neg h

/-- A signal changes of the queue only the count of unsignalled completions. -/
theorem State.signalFor_queue (s : State) (q : Fin 64) (r : Ready) :
    ∃ n e, (s.signalFor q r).queue q = { s.queue q with unsig := n, unsigElig := e } := by
  by_cases h : r.signals (s.queue q) = true
  · exact ⟨_, _, by rw [State.signalFor_signals h, State.queue_signal, State.queue_mapQueue]⟩
  · exact ⟨_, _, by rw [State.signalFor_counts h, State.queue_mapQueue]⟩

theorem State.signalFor_locks (s : State) (q : Fin 64) (r : Ready) : (s.signalFor q r).host.locks = s.host.locks := by
  by_cases h : r.signals (s.queue q) = true
  · rw [State.signalFor_signals h, State.signal_locks]; rfl
  · rw [State.signalFor_counts h]; rfl

theorem State.signalFor_only {ps : List Part} {s t : State} (h : Only ps s t) (hh : Part.host ∈ ps) (ho : Part.out ∈ ps) (q : Fin 64) (r : Ready) :
    Only ps s (t.signalFor q r) := by
  unfold State.signalFor
  exact .ite (State.signal_only (h.host hh _) hh ho _) (h.host hh _)

/-! ### Flush and reset in progress -/

theorem State.progress_idle {s : State} {q : Fin 64} (hr : (s.queue q).reset = none) (hf : (s.queue q).flush = none) : s.progress q = s := by
  simp only [State.progress, hr, hf]

/-- A queue that is not in reset makes progress by the end of its flush at most, which keeps what completions leave, but the flush. -/
theorem State.progress_queue {s : State} {q : Fin 64} (hr : (s.queue q).reset = none) :
    ∃ f, ((s.progress q).queue q).settings = { (s.queue q).settings with flush := f } := by
  simp only [State.progress, hr]
  split
  · split
    · exact ⟨none, ((Ends.finish ..).queues q).trans (by rw [State.queue_mapQueue]; rfl)⟩
    · exact ⟨_, rfl⟩
  · exact ⟨_, rfl⟩

theorem State.progress_only {ps : List Part} {s t : State} (h : Only ps s t) (hh : Part.host ∈ ps) (hm : Part.mgmt ∈ ps) (q : Fin 64) :
    Only ps s (t.progress q) := by
  unfold State.progress
  dsimp only
  split
  · refine .ite ?_ h
    split
    · exact State.finish_only (h.host hh _) hh hm ..
    · exact .ite ((h.host hh _).host hh _) (h.host hh _)
  · split
    · exact .ite (State.finish_only (h.host hh _) hh hm ..) h
    · exact h

/-! ### COMMAND_COMPLETE -/

/-- A completion is written where its queue runs, has room, and takes the write. -/
theorem State.completeOne_writes {s : State} {q : Fin 64} {r : Ready} {rest : List Ready} (hk : (s.queue q).ready = r :: rest)
    (hh : (s.queue q).halted = false) (hf : (s.queue q).cqFull = false) :
    s.completeOne q true = ((((s.releaseLocks q r.cid).writeEntry q r).popReady q r).signalFor q r).progress q := by
  simp [State.completeOne, hk, hh, hf]

theorem State.haltQueue_only {ps : List Part} {s t : State} (h : Only ps s t) (hh : Part.host ∈ ps) (hm : Part.mgmt ∈ ps) (q : Fin 64) :
    Only ps s (t.haltQueue q) := by
  unfold State.haltQueue
  exact State.post_only (.ite ((h.host hh _).host hh _) (h.host hh _)) hh hm ..

end Sys2Proof.Machine
end

section
/-!
SUPPORT. COMMAND_COMPLETE and COALESCING_TIMEOUT (R41, R42, R52, R61).
-/
namespace Sys2Proof.Machine

/-- The entry of a completion at the tail of its queue in host memory (R42). -/
def Queue.entryAt (k : Queue) (q : Fin 64) (a : Nat) (r : Ready) : Out :=
  .hostWrite (a + 16 * k.cqTail) (entryBytes r.r0 r.r1 k.sqHead q.val r.logged k.phase r.cid r.status)

/-- The locks that are left when a command's are released (R52). -/
def locksWithout (q : Fin 64) (cid : Half) (ls : List RangeLock) : List RangeLock := ls.filter (fun l => !(l.qid == q && l.cid == cid))

theorem mem_locksWithout {q : Fin 64} {cid : Half} {ls : List RangeLock} {l : RangeLock} :
    l ∈ locksWithout q cid ls ↔ l ∈ ls ∧ ¬ (l.qid = q ∧ l.cid = cid) := by
  simp [locksWithout, List.mem_filter, imp_iff_not_or]

/-- What a completion written to host memory leaves before its signal. -/
structure Written (s : State) (q : Fin 64) (a : Nat) (r : Ready) (u : State) : Prop where
  queue : u.queue q = { (s.queue q).advanced with ready := (s.queue q).ready.drop 1 }
  out : u.out = (s.queue q).entryAt q a r :: s.out
  locks : u.host.locks = locksWithout q r.cid s.host.locks
  msix : u.host.msix = s.host.msix
  only : Only [.host, .out] s u

/-- A good write releases the locks, writes the entry, and signals; a queue with no flush and no reset has nothing more to do. -/
theorem State.completeOne_written {s : State} {q : Fin 64} {r : Ready} {rest : List Ready} {a : Nat} (hk : (s.queue q).ready = r :: rest)
    (hh : (s.queue q).halted = false) (hr : (s.queue q).reset = none) (hl : (s.queue q).flush = none) (hf : (s.queue q).cqFull = false)
    (ha : (s.queue q).cq = .hostMem a) : ∃ u, s.completeOne q true = u.signalFor q r ∧ Written s q a r u := by
  have entry : ((s.releaseLocks q r.cid).writeEntry q r).queue q = (s.queue q).advanced := State.writeEntry_queue ..
  have running : (((s.releaseLocks q r.cid).writeEntry q r).queue q).reset = none := by rw [entry]; exact hr
  have popped := State.popReady_queue running r
  rw [entry] at popped
  obtain ⟨f, wrote⟩ := State.writeEntry_hostMem (s := s.releaseLocks q r.cid) ha r
  refine ⟨((s.releaseLocks q r.cid).writeEntry q r).popReady q r, ?_, popped, ?_, ?_, ?_, ?_⟩
  · rw [State.completeOne_writes hk hh hf]
    obtain ⟨n, e, signalled⟩ := (((s.releaseLocks q r.cid).writeEntry q r).popReady q r).signalFor_queue q r
    rw [popped] at signalled
    exact State.progress_idle (by rw [signalled]; exact hr) (by rw [signalled]; exact hl)
  · rw [State.popReady_out, wrote]; rfl
  · rw [State.popReady_locks, wrote]; rfl
  · rw [State.popReady_msix, wrote]; rfl
  · rw [wrote]
    exact State.popReady_only (State.mapQueue_only ((State.releaseLocks_only (.refl _ s) (by simp) q r.cid).out (by simp) _) (by simp) q f) (by simp) q r

theorem State.out_subset_signalFor (s : State) (q : Fin 64) (r : Ready) : s.out ⊆ (s.signalFor q r).out := by
  by_cases h : r.signals (s.queue q) = true
  · rw [State.signalFor_signals h]
    rw [State.signal_out]
    split
    · exact fun _ hx => hx
    · exact fun _ hx => List.mem_cons_of_mem _ hx
  · rw [State.signalFor_counts h]
    exact fun _ hx => hx

/-- R61 in the words of its rule: what signals at once, and what signals at the count. -/
theorem Ready.signals_iff (r : Ready) (k : Queue) :
    r.signals k = true ↔ (r.status ≠ .ok ∧ r.status ≠ .okAdjusted) ∨ r.op.toNat = 0x0020 ∨
      (¬ (r.status = .ok ∧ r.flags.getLsbD 1 = true) ∧ (k.cqCount ≤ k.unsig + 1 ∨ k.cqTime = 0)) := by
  have eligible : r.eligible = true ↔ ¬ (r.status = .ok ∧ r.flags.getLsbD 1 = true) := by simp [Ready.eligible, imp_iff_not_or]
  simp only [Ready.signals, Ready.atOnce, Bool.or_eq_true, Bool.and_eq_true, eligible, bne_iff_ne, beq_iff_eq, decide_eq_true_eq, or_assoc,
    Op.code]

end Sys2Proof.Machine

namespace Sys2Proof

open Machine

/-- Settles O4. -/
theorem commandCompleteWritesTheEntry : Obligations.CommandCompleteWritesTheEntry := by
  unfold Obligations.CommandCompleteWritesTheEntry
  intro s q r rest a k hk hh hr hl hf ha
  obtain ⟨u, run, w⟩ := State.completeOne_written hk hh hr hl hf ha
  obtain ⟨n, e, queue⟩ := u.signalFor_queue q r
  have locks := u.signalFor_locks q r
  rw [w.queue] at queue
  rw [w.locks] at locks
  refine ⟨_, congrArg Host.Outcome.next run, u.out_subset_signalFor q r (w.out ▸ List.mem_cons_self), ?_, ?_, ?_, fun l hl => ?_, fun l hl hn => ?_,
    State.signalFor_only w.only (by simp) (by simp) q r⟩
  · rw [queue, hk]; rfl
  · rw [queue]; rfl
  · rw [queue]; rfl
  · exact (mem_locksWithout.mp (locks ▸ hl)).2
  · exact locks ▸ mem_locksWithout.mpr ⟨hl, hn⟩

/-- Settles O5: the completion signals or is counted, and the coalescing time signals what is unsignalled. -/
theorem completionsSignalTheirVector : Obligations.CompletionsSignalTheirVector := by
  unfold Obligations.CompletionsSignalTheirVector
  intro s q k masked
  refine ⟨?complete, fun hu => ?timeout⟩
  case complete =>
    intro r rest a hk hh hr hl hf ha eligible now w
    obtain ⟨u, run, wr⟩ := State.completeOne_written hk hh hr hl hf ha
    have signals : r.signals (u.queue q) = true ↔ now := by
      rw [wr.queue]
      exact r.signals_iff _
    refine ⟨_, congrArg Host.Outcome.next run, fun hn => ?_, fun hn => ?_⟩
    · rw [State.signalFor_signals (signals.mpr hn), State.queue_signal, State.queue_mapQueue, State.signal_out, wr.queue]
      refine ⟨rfl, rfl, ?_⟩
      have sent : (u.mapQueue q (fun x => { x with unsig := 0, unsigElig := false })).host.msix = s.host.msix := wr.msix
      have out : (u.mapQueue q (fun x => { x with unsig := 0, unsigElig := false })).out = w :: s.out := wr.out
      simp only [HostSt.masked, sent, out]
      rfl
    · rw [State.signalFor_counts (mt signals.mp hn), State.queue_mapQueue, wr.queue]
      exact ⟨rfl, wr.out⟩
  case timeout =>
    refine ⟨_, if_pos hu, ?_⟩
    rw [State.queue_signal, State.queue_mapQueue, State.signal_out]
    exact ⟨rfl, rfl, rfl, State.signal_only ((Only.refl _ s).host (by simp) _) (by simp) (by simp) _⟩

end Sys2Proof
end

section
/-!
SUPPORT. The doorbells (R32, R66): a good one moves its index and wakes the device, and what a doorbell of a completion queue releases moves no index
of the host.
-/
namespace Sys2Proof.Machine

/-! ### What a write keeps of a queue that is not in reset -/

/-- A queue is not in reset, and the host has read its completions up to an index. -/
def State.headAt (s : State) (q : Fin 64) (i : Nat) : Prop := (s.queue q).reset = none ∧ (s.queue q).cqHead = i

theorem State.headAt_ite {c : Prop} [Decidable c] {s t : State} {q : Fin 64} {i : Nat} (hs : s.headAt q i) (ht : t.headAt q i) :
    (if c then s else t).headAt q i := by split <;> assumption

theorem State.headAt_of_settings {s t : State} {q : Fin 64} {i : Nat} (e : (t.queue q).settings = (s.queue q).settings) (h : s.headAt q i) :
    t.headAt q i :=
  ⟨Queue.reset_eq_none_of_settings e h.1, (congrArg Queue.cqHead e).trans h.2⟩

theorem State.headAt_mapQueue {s : State} {q : Fin 64} {i : Nat} (h : s.headAt q i) (f : Queue → Queue)
    (hr : ∀ k, k.reset = none → (f k).reset = none) (hi : ∀ k, (f k).cqHead = k.cqHead) : (s.mapQueue q f).headAt q i := by
  unfold State.headAt
  rw [State.queue_mapQueue]
  exact ⟨hr _ h.1, (hi _).trans h.2⟩

theorem State.headAt_writeEntry {s : State} {q : Fin 64} {i : Nat} (h : s.headAt q i) (r : Ready) : (s.writeEntry q r).headAt q i := by
  unfold State.headAt
  rw [State.writeEntry_queue]
  exact h

theorem State.headAt_popReady {s : State} {q : Fin 64} {i : Nat} (h : s.headAt q i) (r : Ready) : (s.popReady q r).headAt q i := by
  unfold State.headAt
  rw [State.popReady_queue h.1]
  exact h

theorem State.headAt_signalFor {s : State} {q : Fin 64} {i : Nat} (h : s.headAt q i) (r : Ready) : (s.signalFor q r).headAt q i := by
  obtain ⟨n, e, queue⟩ := s.signalFor_queue q r
  unfold State.headAt
  rw [queue]
  exact h

theorem State.headAt_progress {s : State} {q : Fin 64} {i : Nat} (h : s.headAt q i) : (s.progress q).headAt q i := by
  obtain ⟨f, e⟩ := State.progress_queue h.1
  exact State.headAt_of_settings (s := s.mapQueue q (fun k => { k with flush := f })) (by rw [e, State.queue_mapQueue]; rfl)
    (State.headAt_mapQueue h _ (fun _ hk => hk) (fun _ => rfl))

theorem State.headAt_haltQueue {s : State} {q : Fin 64} {i : Nat} (h : s.headAt q i) : (s.haltQueue q).headAt q i := by
  unfold State.haltQueue
  have halted : (s.mapQueue q (fun x => { x with halted := true })).headAt q i := State.headAt_mapQueue h _ (fun _ hk => hk) (fun _ => rfl)
  refine State.headAt_of_settings ((Ends.post ..).queues q) ?_
  split <;> exact halted

theorem State.headAt_completeOne {s : State} {q : Fin 64} {i : Nat} (h : s.headAt q i) (ok : Bool) : (s.completeOne q ok).headAt q i := by
  unfold State.completeOne
  dsimp only
  split
  · exact h
  next r rest _ =>
    have released := State.headAt_of_settings (t := s.releaseLocks q r.cid) rfl h
    have popped := State.headAt_of_settings ((Ends.logError _ (lostInfo q r)).queues q) (State.headAt_popReady released r)
    rw [h.1]
    refine State.headAt_ite popped (State.headAt_ite ?_ (State.headAt_ite ?_ ?_))
    · exact State.headAt_mapQueue released _ (fun _ hk => hk) (fun _ => rfl)
    · exact State.headAt_haltQueue popped
    · exact State.headAt_progress (State.headAt_signalFor (State.headAt_popReady (State.headAt_writeEntry released r) r) r)

theorem State.completeOne_only {ps : List Part} {s t : State} (h : Only ps s t) (hs : [.host, .mgmt, .bytes, .out] ⊆ ps) (q : Fin 64)
    (ok : Bool) : Only ps s (t.completeOne q ok) := by
  obtain ⟨hh, hm, hb, ho⟩ : Part.host ∈ ps ∧ Part.mgmt ∈ ps ∧ Part.bytes ∈ ps ∧ Part.out ∈ ps := by simpa using hs
  unfold State.completeOne
  dsimp only
  split
  · exact h
  next r rest _ =>
    have released := State.releaseLocks_only h hh q r.cid
    have popped := State.popReady_only released hh q r
    refine .ite (State.logError_only popped hm _) (.ite ?_ (.ite (State.haltQueue_only (State.logError_only popped hm _) hh hm q) ?_))
    · split
      · have logged := State.logError_only (State.mapQueue_only popped hh q (fun x => { x with reset := x.reset.map (fun o => { o with lostLog := true }) })) hm
          (lostInfo q r)
        exact State.progress_only (.ite logged (State.post_only logged hh hm ..)) hh hm q
      · exact State.mapQueue_only released hh q _
    · exact State.progress_only (State.signalFor_only (State.popReady_only (State.writeEntry_only released hh hb ho q r) hh q r) hh ho q r) hh hm q

/-- Releasing held completions writes some of them, one after the other. -/
theorem State.releaseHeld_induction {q : Fin 64} {ok : Bool} {P : State → Prop} (step : ∀ t, P t → P (t.completeOne q ok)) (n : Nat) {s : State}
    (h : P s) : P (s.releaseHeld q ok n) := by
  induction n generalizing s with
  | zero => exact h
  | succ n ih =>
    unfold State.releaseHeld
    dsimp only
    split
    · split
      · exact ih (step s h)
      · exact h
    · exact h

/-! ### Waking -/

/-- A valid doorbell returns the device to its operational state (R66). -/
theorem State.wake_steps (s : State) : ∃ t, s.wake = t.setPower s.power.oper ∧ (∀ q, t.queue q = s.queue q) ∧ Only [.host, .power] s t := by
  have woken : Only [.host, .power] s (s.mapHost (fun h => { h with expired := noneExpired })) := (Only.refl _ s).host (by simp) _
  unfold State.wake
  dsimp only
  split
  · exact ⟨_, rfl, fun _ => rfl, woken⟩
  · exact ⟨_, rfl, fun _ => rfl, woken.power (by simp) _⟩

theorem State.wake_cur (s : State) : s.wake.power.cur = s.power.oper := by
  obtain ⟨t, e, -⟩ := s.wake_steps
  rw [e, State.setPower_power]

theorem State.wake_queue (s : State) (q : Fin 64) : (s.wake.queue q).settings = (s.queue q).settings := by
  obtain ⟨t, e, hq, -⟩ := s.wake_steps
  rw [e, State.setPower_queue, hq]

theorem State.wake_only {ps : List Part} {s t : State} (h : Only ps s t) (hs : [.host, .mgmt, .power, .memory, .lanes, .out] ⊆ ps) :
    Only ps s t.wake := by
  obtain ⟨u, e, -, ho⟩ := t.wake_steps
  rw [e]
  exact State.setPower_only (h.trans (ho.mono fun p hp => hs (by revert hp; cases p <;> simp))) hs _

/-! ### Good doorbells -/

theorem Queue.tailOk_iff (k : Queue) (i : Nat) :
    k.tailOk i = true ↔ (k.live = true ∧ k.reset = none) ∧ i < k.entries ∧ (i + k.entries - k.sqTail) % k.entries + k.unfetched < k.entries := by
  simp [Queue.tailOk, and_assoc]

theorem Queue.headOk_iff (k : Queue) (i : Nat) :
    k.headOk i = true ↔ (k.live = true ∧ k.reset = none) ∧ i < k.cqEntries ∧
      (i + k.cqEntries - k.cqHead) % k.cqEntries ≤ (k.cqTail + k.cqEntries - k.cqHead) % k.cqEntries := by
  simp [Queue.headOk, and_assoc]

end Sys2Proof.Machine

namespace Sys2Proof

open Machine

/-- Settles O3. -/
theorem doorbellsMoveTheirIndexOrAreInvalid : Obligations.DoorbellsMoveTheirIndexOrAreInvalid := by
  unfold Obligations.DoorbellsMoveTheirIndexOrAreInvalid
  intro s q v ok hr k i usable goodTail goodHead
  have index : bitsOf v.toNat 11 0 = i := by simp [bitsOf, i]
  have tail : k.tailOk (bitsOf v.toNat 11 0) = true ↔ goodTail := by rw [index]; exact k.tailOk_iff i
  have head : k.headOk (bitsOf v.toNat 11 0) = true ↔ goodHead := by rw [index]; exact k.headOk_iff i
  have up : ¬ (!s.ready) = true := by simp [hr]
  have sq : execSqDoorbell q v s = _ := if_neg up
  have cq : execCqDoorbell q v ok s = _ := if_neg up
  refine ⟨fun hg => ?tailMoves, fun hg => ?headMoves, fun hb => sq.trans (if_neg (mt tail.mp hb)), fun hb => cq.trans (if_neg (mt head.mp hb))⟩
  case tailMoves =>
    have run := sq.trans (if_pos (tail.mpr hg))
    rw [index] at run
    have kept := (s.mapQueue q (fun x => { x with sqTail := i, submitted := x.submitted + (i + x.entries - x.sqTail) % x.entries })).wake_queue q
    rw [State.queue_mapQueue] at kept
    exact ⟨_, run, congrArg Queue.sqTail kept, congrArg Queue.submitted kept, State.wake_cur _,
      State.wake_only (State.mapQueue_only (.refl _ s) (by simp) q _) (by simp)⟩
  case headMoves =>
    have run := cq.trans (if_pos (head.mpr hg))
    rw [index] at run
    have moved : (s.mapQueue q (fun x => { x with cqHead := i })).headAt q i := by
      unfold State.headAt
      rw [State.queue_mapQueue]
      exact ⟨hg.1.2, rfl⟩
    have woken := State.headAt_of_settings ((s.mapQueue q (fun x => { x with cqHead := i })).wake_queue q) moved
    have parts : Only [.host, .mgmt, .power, .memory, .bytes, .lanes, .out] s (s.mapQueue q (fun x => { x with cqHead := i })).wake :=
      State.wake_only (State.mapQueue_only (.refl _ s) (by simp) q _) (by simp)
    refine ⟨_, run, ?_, ?_, ?_⟩
    · exact (State.releaseHeld_induction (P := fun t => t.headAt q i) (fun t h => State.headAt_completeOne h ok) _ woken).2
    · refine (State.releaseHeld_induction (P := fun t => t.power.cur = s.power.oper) (fun t h => ?_) _ (State.wake_cur _))
      exact (congrArg PowerSt.cur ((State.completeOne_only (.refl [.host, .mgmt, .bytes, .out] t) (by simp) q ok).same .power (by simp))).trans h
    · exact State.releaseHeld_induction (P := fun t => Only _ s t) (fun t h => State.completeOne_only h (by simp) q ok) _ parts

end Sys2Proof
end

section
/-!
SUPPORT. BAR2 (R30, R31, R66, R318): where an access falls, and what it does there.
-/
namespace Sys2Proof.Machine

theorem minBy_eq_none_iff {α : Type} (key : α → Nat) (l : List α) : minBy key l = none ↔ l = [] := by
  cases l with
  | nil => simp [minBy]
  | cons a l =>
    unfold minBy
    split
    · simp
    · split <;> simp

/-- No byte of a range lies in a retired range (R344). -/
theorem retiredByte_eq_none_iff (s : State) (a n : Nat) :
    retiredByte s a n = none ↔ ∀ r ∈ s.mem.retired, a + n ≤ r.base ∨ r.base + Config.retiredSize ≤ a := by
  simp only [retiredByte, minBy_eq_none_iff, List.filterMap_eq_nil_iff]
  refine forall₂_congr fun r _ => ?_
  split
  next meet =>
    simp only [Bool.and_eq_true, decide_eq_true_eq] at meet
    exact iff_of_false (by simp) (by omega)
  next apart =>
    simp only [Bool.and_eq_true, decide_eq_true_eq] at apart
    exact iff_of_true rfl (by omega)

/-- An access lies in the window and the device, and meets no retired range (R31, R318). -/
def State.bar2Inside (s : State) (off n : Nat) : Prop :=
  off + n ≤ 2 ^ s.host.bar2Log2 ∧ s.host.bar2Base + off + n ≤ Config.addrMax + 1 ∧
    ∀ r ∈ s.mem.retired, s.host.bar2Base + off + n ≤ r.base ∨ r.base + Config.retiredSize ≤ s.host.bar2Base + off

theorem State.bar2Addr_inside {s : State} {off n : Nat} (hr : s.ready = true) (hn : 0 < n) (awake : s.power.cur = .ps0 ∨ s.power.cur = .ps1)
    (inside : s.bar2Inside off n) : s.bar2Addr off n = some (s.host.bar2Base + off) := by
  obtain ⟨window, device, retired⟩ := inside
  have none_ := (retiredByte_eq_none_iff s (s.host.bar2Base + off) n).mpr retired
  have w : ¬ 2 ^ s.host.bar2Log2 < off + n := by omega
  have d : ¬ Config.addrMax < s.host.bar2Base + off + n - 1 := by omega
  rcases awake with p | p <;> simp [State.bar2Addr, hr, p, w, d, none_]

theorem State.bar2Addr_outside {s : State} {off n : Nat} (hn : 0 < n)
    (h : ¬ (s.power.cur = .ps0 ∨ s.power.cur = .ps1) ∨ ¬ s.bar2Inside off n) : s.bar2Addr off n = none := by
  unfold State.bar2Addr
  dsimp only
  split
  · rfl
  next awake =>
    split
    · rfl
    next w =>
      split
      · rfl
      next d =>
        split
        · rfl
        next r =>
          have retired := (retiredByte_eq_none_iff s (s.host.bar2Base + off) n).mp (by simpa using r)
          have inside : s.bar2Inside off n := ⟨by omega, by omega, retired⟩
          cases p : s.power.cur <;> simp_all

/-! ### Reads -/

theorem execBar2Read_outside {s : State} {off n : Nat} (hn : 0 < n) (h : s.bar2Addr off n = none) :
    ∃ u, execBar2Read off n s = .next (u.emit .unsupportedRequest) ∧ Only [.out] s u := by
  unfold execBar2Read
  rw [if_neg (by omega), h]
  exact ⟨_, rfl, .ite ((Only.refl _ s).out (by simp) _) (.refl _ s)⟩

theorem execBar2Read_clean {s : State} {off n a : Nat} (hn : 0 < n) (h : s.bar2Addr off n = some a) (hp : s.mem.mem.poisonIn a n = none) :
    execBar2Read off n s = .next ((s.reads .bar2 .host noCam a n).emit (.readBytes (s.readMem a n))) := by
  unfold execBar2Read
  rw [if_neg (by omega), h]
  exact if_neg (by simp [hp])

theorem execBar2Read_poisoned {s : State} {off n a : Nat} (hn : 0 < n) (h : s.bar2Addr off n = some a) (hp : s.mem.mem.poisonIn a n ≠ none) :
    execBar2Read off n s = .next (((s.reads .bar2 .host noCam a n).emit (.aer false)).emit (.poisonedCompletion (s.readMem a n))) := by
  unfold execBar2Read
  rw [if_neg (by omega), h]
  exact if_pos (Option.isSome_iff_ne_none.mpr hp)

/-! ### Writes -/

theorem exists_next_ite {c : Prop} [Decidable c] {P : State → Prop} {a b : State} (ha : P a) (hb : P b) :
    ∃ t, (if c then (.next a : Host.Outcome State Fault Refusal) else .next b) = .next t ∧ P t := by
  split
  · exact ⟨a, rfl, ha⟩
  · exact ⟨b, rfl, hb⟩

/-- A write of the host that is not empty waits as one access to the fabric. -/
theorem State.writes_host_waiting (s : State) {a n : Nat} (hn : 0 < n) :
    (s.writes .bar2 .host noCam a n).fab.waiting = s.fab.waiting ++ [s.access .bar2 .host noCam a n true] := by
  have len : (n != 0) = true := by simp; omega
  simp [State.writes, State.requests, State.access, len]

theorem execBar2Write_outside {s : State} {off : Nat} {data : List Byte} (hd : data ≠ []) (h : s.bar2Addr off data.length = none) :
    ∃ u, execBar2Write off data s = .next (u.emit .unsupportedRequest) ∧ Only [.out] s u := by
  unfold execBar2Write
  rw [if_neg (by simpa using hd), h]
  exact ⟨_, rfl, .ite ((Only.refl _ s).out (by simp) _) (.refl _ s)⟩

theorem execBar2Write_heap {s : State} {off a : Nat} {data : List Byte} (hd : data ≠ []) (h : s.bar2Addr off data.length = some a)
    (ha : Config.heapBase ≤ a) : execBar2Write off data s = .next ((s.writeMem a data).writes .bar2 .host noCam a data.length) := by
  unfold execBar2Write
  rw [if_neg (by simpa using hd), h]
  exact if_neg (Nat.not_lt.mpr ha)

/-- A write to the reserved region is discarded and counted (R31). -/
theorem execBar2Write_reserved {s : State} {off a : Nat} {data : List Byte} (hd : data ≠ []) (h : s.bar2Addr off data.length = some a)
    (ha : a < Config.heapBase) :
    ∃ t, execBar2Write off data s = .next t ∧ t.mem.bar2Discarded = s.mem.bar2Discarded.satInc ∧ Only [.memory, .mgmt] s t := by
  have counted : Only [.memory, .mgmt] s (s.mapMem (fun m => { m with bar2Discarded := m.bar2Discarded.satInc })) :=
    (Only.refl _ s).memory (by simp) _ rfl
  unfold execBar2Write
  rw [if_neg (by simpa using hd), h]
  dsimp only
  rw [if_pos ha]
  exact exists_next_ite ⟨rfl, State.logError_only (counted.memory (by simp) _ rfl) (by simp) _⟩ ⟨rfl, counted⟩

end Sys2Proof.Machine

namespace Sys2Proof

open Machine

/-- Settles O13. -/
theorem barTwoAccessesReachDeviceMemory : Obligations.BarTwoAccessesReachDeviceMemory := by
  unfold Obligations.BarTwoAccessesReachDeviceMemory
  intro s off data hd hr hi n a shallow inside
  have pos : 0 < n := List.length_pos_iff.mpr hd
  refine ⟨fun awake here => ?_, fun out => ?_⟩
  · have addr := State.bar2Addr_inside hr pos awake here
    refine ⟨fun hp => ?clean, fun hp => ?poisoned, fun ha => ?stored, fun ha => ?discarded⟩
    case clean =>
      exact ⟨_, execBar2Read_clean pos addr hp, rfl, (State.requests_only (.refl _ s) (by simp) _).out (by simp) _⟩
    case poisoned =>
      exact ⟨_, execBar2Read_poisoned pos addr hp, rfl, ((State.requests_only (.refl _ s) (by simp) _).out (by simp) _).out (by simp) _⟩
    case stored =>
      refine ⟨_, execBar2Write_heap hd addr ha, Memory.read_write hi a data, fun x hx => ?_, ?_,
        State.requests_only ((Only.refl _ s).writeMem (by simp) a data) (by simp) _⟩
      · exact (Memory.byte_write hi a x data).trans (if_neg (by omega))
      · exact State.writes_host_waiting (s.writeMem a data) pos
    case discarded => exact execBar2Write_reserved hd addr ha
  · have addr := State.bar2Addr_outside pos out
    obtain ⟨t, read, ht⟩ := execBar2Read_outside pos addr
    obtain ⟨u, write, hu⟩ := execBar2Write_outside hd addr
    exact ⟨_, _, read, write, rfl, rfl, ht.out (by simp) _, hu.out (by simp) _⟩

end Sys2Proof
end

section
/-!
SUPPORT. An accepted command by the end of its own rules: it fails, completes, or waits.
-/
namespace Sys2Proof.Machine

variable {op : Op} {c : Cmd} {s t : State} {body : Chk Done}

theorem runCmd_fails (h : Accepted op c s) {f : Fail} (e : body = .error f) : runCmd op c s body = .next (failCmd op c f s) := by
  rw [runCmd_accepted h, e]

theorem runCmd_done (h : Accepted op c s) {st : Status} {r0 r1 : Nat} (e : body = .ok (.done st r0 r1 t)) :
    runCmd op c s body = .next (t.complete (ref op c) st r0 r1 false) := by
  rw [runCmd_accepted h, e]

theorem runCmd_waits (h : Accepted op c s) (e : body = .ok (.waits t)) : runCmd op c s body = .next t := by
  rw [runCmd_accepted h, e]

/-- A failure without an entry in the error log completes the command; an FW_ACTIVATE lifts its barriers (R57). -/
theorem failCmd_eq (op : Op) (c : Cmd) {f : Fail} (hf : f.status ≠ .accessViolation) (s : State) :
    failCmd op c f s = (if op = .fwActivate then s.liftBarriers else s).complete (ref op c) f.status f.r0 f.r1 false := if_neg hf

theorem runCmd_refuses (h : Accepted op c s) (ho : op ≠ .fwActivate) {f : Fail} (e : body = .error f)
    (hf : (f.status == .accessViolation) = false) :
    runCmd op c s body = .next (s.complete (ref op c) f.status f.r0 f.r1 false) := by
  rw [runCmd_fails h e, failCmd_eq op c (by simpa using hf), if_neg ho]

@[simp] theorem need_bind_true {α : Type} {b : Bool} (hb : b = true) (f : Fail) (k : Unit → Chk α) : (need b f >>= k) = k () := by
  rw [hb]; rfl

@[simp] theorem need_bind_false {α : Type} {b : Bool} (hb : b = false) (f : Fail) (k : Unit → Chk α) : (need b f >>= k) = .error f := by
  rw [hb]; rfl

@[simp] theorem needSome_bind_some {α β : Type} (x : α) (f : Fail) (k : α → Chk β) : (needSome (some x) f >>= k) = k x := rfl

end Sys2Proof.Machine
end

section
/-!
SUPPORT. Power states and idle timers (R64, R65): the checks of PWR_SET_STATE, and the state that an expiry enters.
-/
namespace Sys2Proof.Machine

theorem bitsOf_low2 (v : Nat) : bitsOf v 1 0 = v % 4 := by simp [bitsOf]

theorem psOf_deep {v : Nat} (h : 2 ≤ v) : (psOf v == .ps1) = false ∧ (psOf v == .ps2 || psOf v == .ps3) = true := by
  match v, h with
  | 2, _ => exact ⟨rfl, rfl⟩
  | v + 3, _ => exact ⟨rfl, rfl⟩

/-- Whether another command is outstanding besides the PWR_SET_STATE itself (R64). -/
@[reducible] def State.othersOutstanding (s : State) (c : Cmd) : Prop :=
  (if (s.queue c.qid).inFlight.any (Flying.is (ref .pwrSetState c)) then 1 else 0) < s.outstandingAll

section

variable {c : Cmd} {s : State} (ha : Accepted .pwrSetState c s)

include ha

theorem execPwrSetState_budget (hv : par c 0 % 4 = 1) (hb : 38400 < s.admittedRate ∨ 2400 < s.maxShare) :
    execPwrSetState c s = .next (s.complete (ref .pwrSetState c) .budgetExceeded s.admittedRate s.maxShare false) := by
  have exceeded : s.entryHolds .ps1 = false := by simp [State.entryHolds]; omega
  refine runCmd_refuses ha (by decide) (f := overBudget s.admittedRate s.maxShare) ?_ rfl
  simp only [bitsOf_low2, hv]
  rw [need_bind_false (by simp [psOf, exceeded])]

theorem execPwrSetState_running (hv : 2 ≤ par c 0 % 4) (hr : s.anythingRunning = true) :
    execPwrSetState c s = .next (s.complete (ref .pwrSetState c) .notReady 0xF0 0 false) := by
  obtain ⟨ps1, deep⟩ := psOf_deep hv
  refine runCmd_refuses ha (by decide) (f := notReady 0xF0) ?_ rfl
  simp only [bitsOf_low2, ps1, deep]
  rw [need_bind_true (by rfl), need_bind_false (by rw [hr]; rfl)]

theorem execPwrSetState_busy (hv : 2 ≤ par c 0 % 4) (hr : s.anythingRunning = false) (ho : s.othersOutstanding c) :
    execPwrSetState c s = .next (s.complete (ref .pwrSetState c) .notReady 0xF1 0 false) := by
  obtain ⟨ps1, deep⟩ := psOf_deep hv
  refine runCmd_refuses ha (by decide) (f := notReady 0xF1) ?_ rfl
  simp only [bitsOf_low2, ps1, deep]
  rw [need_bind_true (by rfl), need_bind_true (by rw [hr]; rfl), need_bind_false (by rw [decide_eq_true ho]; rfl)]

theorem execPwrSetState_deep (hv : 2 ≤ par c 0 % 4) (hr : s.anythingRunning = false) (ho : ¬ s.othersOutstanding c) (ht : s.power.throttled = false) :
    execPwrSetState c s = .next (((s.mapPower (fun w => { w with oper := psOf (par c 0 % 4) })).setPower (psOf (par c 0 % 4))).complete
      (ref .pwrSetState c) .ok (par c 0 % 4) 0 false) := by
  obtain ⟨ps1, deep⟩ := psOf_deep hv
  refine runCmd_done ha ?_
  simp only [bitsOf_low2, ps1, deep]
  rw [need_bind_true (by rfl), need_bind_true (by rw [hr]; rfl), need_bind_true (by rw [decide_eq_false ho]; rfl), ht]
  simp [okDone]

theorem execPwrSetState_ps1 (hv : par c 0 % 4 = 1) (hb : s.admittedRate ≤ 38400) (hs : s.maxShare ≤ 2400) (ht : s.power.throttled = false)
    (hc : (((s.mapPower (fun w => { w with oper := .ps1 })).setPower .ps1).mem.change).isSome = true) :
    execPwrSetState c s = .next (((((s.mapPower (fun w => { w with oper := .ps1 })).setPower .ps1).mapMem (fun m => { m with
          change := m.change.map (fun x => { x with by_ := x.by_ ++ [ref .pwrSetState c] }) })).mapPower
          (fun w => { w with moving := some (ref .pwrSetState c) })).keepInFlight (ref .pwrSetState c)) := by
  have holds : s.entryHolds .ps1 = true := by simp [State.entryHolds, hb, hs]
  refine runCmd_waits ha ?_
  simp only [bitsOf_low2, hv, psOf]
  rw [need_bind_true (by rw [holds]; rfl), need_bind_true (by rfl), need_bind_true (by rfl), ht]
  simp [waitDone, hc]

end

end Sys2Proof.Machine
end

section
/-!
SUPPORT. The change to PS1, and the states that idle timers enter (R64, R65, R328).
-/
namespace Sys2Proof.Machine

/-! ### PS1 -/

theorem State.enterPower_ps1 {s : State} (h : s.power.cur = .ps0) (ht : s.power.throttled = false) :
    s.enterPower .ps1 = (s.mapPower (fun w => { w with cur := .ps1 })).startSpeed (Nat.max 1 s.mem.setSpeed) false [] := by
  have entering : (PowerState.ps0 == .ps1) = false := rfl
  simp [State.enterPower, State.lanesFor, State.memoryFor, h, ht, speedFor, entering]

/-- A stack at another speed, with no change in progress, starts one (R328). -/
theorem State.startSpeed_change {s : State} {target : Nat} (hi : ∃ i : Fin 4, s.mem.speeds[i] ≠ target) (hc : s.mem.change = none) (w : Bool)
    (by_ : List CmdRef) :
    (s.startSpeed target w by_).mem.change = some { target := target, next := 0, waived := w, by_ := by_ } := by
  obtain ⟨i, hi⟩ := hi
  have notAll : s.mem.speeds.toList.all (· == target) = false :=
    List.all_eq_false.mpr ⟨s.mem.speeds[i], Vector.mem_toList_iff.mpr (Vector.getElem_mem i.isLt), by simpa using hi⟩
  simp [State.startSpeed, notAll, hc]

/-- PS1 from PS0: the change of the stacks begins, and no lane is touched. -/
theorem State.setPower_ps1 {s : State} (h : s.power.cur = .ps0) (ht : s.power.throttled = false) (hc : s.mem.change = none)
    (hi : ∃ i : Fin 4, s.mem.speeds[i] ≠ Nat.max 1 s.mem.setSpeed) :
    (s.setPower .ps1).mem.change = some { target := Nat.max 1 s.mem.setSpeed, next := 0, waived := false, by_ := [] } ∧
    Only [.power, .memory, .host, .mgmt] s (s.setPower .ps1) := by
  rw [State.setPower_eq, if_neg (by rw [h]; decide), State.enterPower_ps1 h ht]
  refine ⟨?_, State.post_only (State.startSpeed_only ((Only.refl _ s).power (by simp) _) (by simp) ..) (by simp) (by simp) ..⟩
  rw [(Ends.post ..).mem]
  exact State.startSpeed_change (s := s.mapPower (fun w => { w with cur := .ps1 })) hi hc false []

/-! ### Idle timers -/

/-- Whether an idle state is permitted, has expired, has its check holding, and is deeper than the state in force (R65). -/
def State.idleFits (s : State) (i : Fin 3) : Bool :=
  s.power.permitted[i] && s.host.expired[i] && s.entryHolds (psOf (i.val + 1)) && decide (s.power.cur.code < i.val + 1)

theorem State.enterIdle_eq (s : State) :
    s.enterIdle = if s.idleFits 2 then s.setPower .ps3 else if s.idleFits 1 then s.setPower .ps2 else if s.idleFits 0 then s.setPower .ps1 else s := rfl

/-- The deepest state that fits is entered. -/
theorem State.enterIdle_deepest {s : State} {n : Fin 3} (h : s.idleFits n = true) (hm : ∀ m : Fin 3, n < m → s.idleFits m = false) :
    s.enterIdle = s.setPower (psOf (n.val + 1)) := by
  rw [State.enterIdle_eq]
  match n with
  | 0 => rw [hm 2 (by decide), hm 1 (by decide), h]; rfl
  | 1 => rw [hm 2 (by decide), h]; rfl
  | 2 => rw [h]; rfl

theorem State.enterIdle_none {s : State} (h : ∀ m, s.idleFits m = false) : s.enterIdle = s := by
  rw [State.enterIdle_eq, h 2, h 1, h 0]
  rfl

@[simp] theorem State.entryHolds_mapHost (s : State) (f : HostSt → HostSt) (p : PowerState) : (s.mapHost f).entryHolds p = s.entryHolds p := by
  cases p <;> rfl

/-- The timer of an idle state has expired. -/
def State.timerExpired (s : State) (n : Fin 3) : State := s.mapHost (fun h => { h with expired := h.expired.set n true })

theorem State.timerExpired_idleFits (s : State) (n m : Fin 3) :
    (s.timerExpired n).idleFits m = (s.power.permitted[m] && (decide (n = m) || s.host.expired[m]) && s.entryHolds (psOf (m.val + 1)) &&
      decide (s.power.cur.code < m.val + 1)) := by
  by_cases h : n = m
  · subst h; simp [State.idleFits, State.timerExpired]
  · have : n.val ≠ m.val := fun e => h (Fin.ext e)
    simp [State.idleFits, State.timerExpired, Vector.getElem_set_ne, this, h]

theorem execIdleTimerExpiry_idle {s : State} {n : Fin 3} (hi : s.idle = true) (hr : s.ready = true) (hn : n ≠ 0 → s.anythingRunning = false) :
    execIdleTimerExpiry n s = .next (s.timerExpired n).enterIdle := by
  refine if_neg ?_
  by_cases h : n = 0 <;> simp [hi, hr, h, hn]

theorem execIdleTimerExpiry_running {s : State} {n : Fin 3} (hn : n ≠ 0) (h : s.anythingRunning = true) : execIdleTimerExpiry n s = .next s :=
  if_pos (by simp [hn, h])

/-- The check of PS2 and PS3 is that nothing runs (R64). -/
theorem State.not_running_of_entryHolds {s : State} {n : Fin 3} (hn : n ≠ 0) (h : s.entryHolds (psOf (n.val + 1)) = true) :
    s.anythingRunning = false := by
  match n with
  | 0 => exact absurd rfl hn
  | 1 => simpa [State.entryHolds, psOf] using h
  | 2 => simpa [State.entryHolds, psOf] using h

theorem execPwrSetIdleTimers_done {c : Cmd} {s : State} (ha : Accepted .pwrSetIdleTimers c s) (h1 : par c 1 ≤ 3600000) (h2 : par c 2 ≤ 3600000)
    (h3 : par c 3 ≤ 3600000) :
    execPwrSetIdleTimers c s = .next ((s.mapPower (fun w => { w with
      permitted := Vector.ofFn (fun i => bitOf (par c 0) (i.val + 1)),
      timers := Vector.ofFn (fun i => if par c (i.val + 1) = 0 then w.timers[i] else par c (i.val + 1)) })).complete
        (ref .pwrSetIdleTimers c) .ok 0 0 false) := by
  refine runCmd_done ha ?_
  rw [need_bind_true (decide_eq_true h1), need_bind_true (decide_eq_true h2), need_bind_true (decide_eq_true h3)]
  rfl

end Sys2Proof.Machine

namespace Sys2Proof

open Machine

/-- Settles O26: the checks in their order, and for PS1 the change of the stacks that the command waits for. -/
theorem pwrSetStateChecksTheEntry : Obligations.PwrSetStateChecksTheEntry := by
  unfold Obligations.PwrSetStateChecksTheEntry
  intro c s ha ht v others
  refine ⟨execPwrSetState_budget ha, execPwrSetState_running ha, execPwrSetState_busy ha, fun hv hr ho => ?deep,
    fun hv hb hs hp hc hi => ?ps1⟩
  case deep =>
    refine ⟨_, execPwrSetState_deep ha hv hr ho ht, ?_, ?_, State.setPower_only ((Only.refl _ s).power (by simp) _) (by simp) _⟩
    · rw [State.setPower_power]; rfl
    · rw [State.setPower_power]
  case ps1 =>
    obtain ⟨change, only⟩ := State.setPower_ps1 (s := s.mapPower (fun w => { w with oper := .ps1 })) hp ht hc hi
    have power := State.setPower_power .ps1 (s.mapPower (fun w => { w with oper := .ps1 }))
    refine ⟨_, execPwrSetState_ps1 ha hv hb hs ht (by rw [change]; rfl), ?_, ?_, ?_, ?_⟩
    · simp [power]
    · simp [power]
    · simp [change]
    · exact ((((Only.refl _ s).power (by simp) _).trans only).memory (by simp) _ rfl).power (by simp) _

/-- Settles O27. -/
theorem idleTimersEnterPermittedStates : Obligations.IdleTimersEnterPermittedStates := by
  unfold Obligations.IdleTimersEnterPermittedStates
  refine ⟨fun c s ha h1 h2 h3 => ?timers, fun s n hr hi => ⟨fun hp hd he hm => ?entered, fun hn => ?kept⟩⟩
  case timers =>
    refine ⟨_, execPwrSetIdleTimers_done ha h1 h2 h3, fun i => ?_, fun i => ?_, rfl, rfl, (Only.refl _ s).power (by simp) _⟩ <;> simp
  case entered =>
    have fits : (s.timerExpired n).idleFits n = true := by simp [State.timerExpired_idleFits, hp, he, hd]
    have deepest (m : Fin 3) (lt : n < m) : (s.timerExpired n).idleFits m = false := by
      have notYet := hm m lt
      simp only [State.timerExpired_idleFits, ne_of_lt lt]
      cases p : s.power.permitted[m] <;> cases x : s.host.expired[m] <;> simp_all
    refine ⟨_, execIdleTimerExpiry_idle hi hr (fun h => State.not_running_of_entryHolds h he), ?_, ?_⟩ <;>
      rw [State.enterIdle_deepest fits deepest, State.setPower_power]
    rfl
  case kept =>
    have none_ (m : Fin 3) : (s.timerExpired n).idleFits m = false := by
      rw [State.timerExpired_idleFits]
      by_cases deeper : s.power.cur.code < m.val + 1
      · rw [hn m deeper]; rfl
      · rw [decide_eq_false deeper, Bool.and_false]
    by_cases waits : n ≠ 0 ∧ s.anythingRunning = true
    · exact ⟨s, execIdleTimerExpiry_running waits.1 waits.2, rfl, .refl _ s⟩
    · refine ⟨_, execIdleTimerExpiry_idle hi hr (fun h => by simpa [h] using waits), ?_⟩
      rw [State.enterIdle_none none_]
      exact ⟨rfl, (Only.refl _ s).host (by simp) _⟩

end Sys2Proof
end

section
/-!
SUPPORT. Structures as bytes (R7), and the copy of one to the PTR range of a command.
-/
namespace Sys2Proof.Machine

@[simp] theorem leBytes_length (n v : Nat) : (leBytes n v).length = n := by
  induction n generalizing v with
  | zero => rfl
  | succ n ih => simp [leBytes, ih]

@[simp] theorem padTo_length (n : Nat) (bs : List Byte) : (padTo n bs).length = n := by simp [padTo, zeros]

theorem patch_length {bs new : List Byte} {off : Nat} (h : off + new.length ≤ bs.length) : (patch bs off new).length = bs.length := by
  simp [patch]
  omega

/-- A patch leaves what lies before it. -/
theorem take_patch {bs new : List Byte} {off k : Nat} (hk : k ≤ off) (hb : off ≤ bs.length) : (patch bs off new).take k = bs.take k := by
  unfold patch
  rw [List.append_assoc, List.take_append_of_le_length (by simp; omega), List.take_take, Nat.min_eq_left hk]

/-- A field lies in a structure of n bytes. -/
def Field.inside (n : Nat) (f : Field) : Prop := f.1 + f.2.1 ≤ n

theorem foldl_patch_length {bs : List Byte} (fs : List Field) (h : ∀ f ∈ fs, Field.inside bs.length f) :
    (fs.foldl (fun bs f => patch bs f.1 (leBytes f.2.1 f.2.2)) bs).length = bs.length := by
  induction fs generalizing bs with
  | nil => rfl
  | cons f fs ih =>
    have one : (patch bs f.1 (leBytes f.2.1 f.2.2)).length = bs.length :=
      patch_length (by simpa [Field.inside] using h f List.mem_cons_self)
    rw [List.foldl_cons, ih (by rw [one]; exact fun g hg => h g (List.mem_cons_of_mem _ hg)), one]

theorem layout_length {n : Nat} {fs : List Field} (h : ∀ f ∈ fs, Field.inside n f) : (layout n fs).length = n := by
  have z : (zeros n).length = n := by simp [zeros]
  exact (foldl_patch_length fs (by rwa [z])).trans z

/-! ### The PTR range -/

theorem State.writePtr_only (s : State) (c : Cmd) (bs : List Byte) : Only [.bytes, .out] s (s.writePtr c bs) :=
  .ite ((Only.refl _ s).writeMem (by simp) _ _) ((Only.refl _ s).out (by simp) _)

theorem State.writePtr_host {c : Cmd} (h : c.ptrSpace ≠ 1) (s : State) (bs : List Byte) :
    (s.writePtr c bs).out = .hostWrite c.ptr.toNat bs :: s.out := by
  unfold State.writePtr
  rw [if_neg h]
  rfl

theorem State.writePtr_dev {c : Cmd} (h : c.ptrSpace = 1) (s : State) (bs : List Byte) : s.writePtr c bs = s.writeMem c.ptr.toNat bs := if_pos h

/-- In device memory the range holds the structure, and every byte outside is as before. -/
theorem State.writePtr_bytes {s : State} {c : Cmd} (h : c.ptrSpace = 1) (hi : Inv s) (bs : List Byte) :
    (s.writePtr c bs).readMem c.ptr.toNat bs.length = bs ∧
      ∀ a, a < c.ptr.toNat ∨ c.ptr.toNat + bs.length ≤ a → (s.writePtr c bs).mem.mem.byte a = s.mem.mem.byte a := by
  rw [State.writePtr_dev h]
  exact ⟨Memory.read_write hi _ bs, fun a ha => (Memory.byte_write hi _ a bs).trans (if_neg (by omega))⟩

end Sys2Proof.Machine
end

section
/-!
SUPPORT. ASYNC_EVENT_REQUEST, SET_FEATURE and GET_FEATURE (R46, R48, R59, R60, Table 02-20).
-/
namespace Sys2Proof.Machine

/-! ### ASYNC_EVENT_REQUEST -/

section

variable {c : Cmd} {s : State} (ha : Accepted .asyncEventRequest c s)

include ha

theorem execAsyncEventRequest_full (h : Config.asyncMax ≤ s.host.async.length) :
    execAsyncEventRequest c s = .next (s.complete (ref .asyncEventRequest c) .notReady 0x0A 0 false) := by
  refine runCmd_refuses ha (by decide) (f := notReady 0x0A) ?_ rfl
  rw [need_bind_false (decide_eq_false (Nat.not_lt.mpr h))]

theorem execAsyncEventRequest_held (h : s.host.async.length < Config.asyncMax) {e : HeldEvent} {rest : List HeldEvent} (he : s.host.held = e :: rest) :
    execAsyncEventRequest c s = .next ((s.mapHost (fun h => { h with held := rest, heldLost := false })).complete (ref .asyncEventRequest c) .ok
      (asyncResult e.type s.host.heldLost e.merged) e.detail.toNat false) := by
  refine runCmd_done ha ?_
  rw [need_bind_true (decide_eq_true h), he]
  rfl

theorem execAsyncEventRequest_waits (h : s.host.async.length < Config.asyncMax) (he : s.host.held = []) :
    execAsyncEventRequest c s = .next ((s.mapHost (fun h => { h with async := h.async ++ [ref .asyncEventRequest c] })).keepInFlight
      (ref .asyncEventRequest c)) := by
  refine runCmd_waits ha ?_
  rw [need_bind_true (decide_eq_true h), he]
  rfl

end

/-! ### The values of features -/

/-- The words of a command after those that a feature uses are 0. -/
def restIsZero (c : Cmd) (used : Nat) : Prop := ∀ i, used < i → i ≤ 7 → par c i = 0

theorem restZero_ok {c : Cmd} {k : Nat} (h : restIsZero c k) : restZero c k = .ok () := by
  have none_ : ((List.range 7).map (· + 1)).find? (fun i => Nat.blt k i && par c i != 0) = none := by
    refine List.find?_eq_none.mpr fun i hi => ?_
    obtain ⟨j, hj, rfl⟩ := List.mem_map.mp hi
    have lt := List.mem_range.mp hj
    by_cases hk : k < j + 1
    · have zero : par c (j + 1) = 0 := h (j + 1) hk (by omega)
      simp [zero]
    · simp [Nat.blt_eq, hk]
  unfold restZero
  rw [none_]

theorem deviceScope_ok {c : Cmd} (h : c.handle = 0) : deviceScope c = .ok () := by
  unfold deviceScope
  rw [h]
  rfl

theorem cameraScope_ok {c : Cmd} {s : State} {cam : Nat} (ht : typeOf c.handle = 2) (hl : s.liveHandle c.handle = true)
    (hf : s.cams.find c.handle = some cam) : cameraScope s c = .ok cam := by
  unfold cameraScope
  rw [ht, hl, hf]
  rfl

theorem State.mapFeat_only (s : State) (f : Features → Features) : Only [.host] s (s.mapFeat f) := (Only.refl _ s).host (by simp) _

theorem setNumber_ok {c : Cmd} {lo hi : Nat} (h : c.handle = 0) (hr : restIsZero c 1) (hlo : lo ≤ par c 1) (hhi : par c 1 ≤ hi)
    (f : Nat → Features → Features) (s : State) : setNumber c lo hi f s = okDone 0 0 (s.mapFeat (f (par c 1))) := by
  unfold setNumber
  rw [deviceScope_ok h, restZero_ok hr]
  simp [bind, Except.bind, need, Nat.ble_eq, hlo, hhi]

theorem State.cam_mapCam_same {s : State} {cam : Nat} (h : cam < 48) (f : CamCtx → CamCtx) : (s.mapCam cam f).cam cam = f (s.cam cam) := by
  simp [State.cam, State.mapCam, State.mapCams, vget, vmod, h]

theorem State.mapCam_only (s : State) (cam : Nat) (f : CamCtx → CamCtx) : Only [.cams] s (s.mapCam cam f) := (Only.refl _ s).cams (by simp) _

theorem setWeights_ok {c : Cmd} (h : c.handle = 0) (hr : restIsZero c 1) (hv : par c 1 < 2 ^ 24) (hh : bitsOf (par c 1) 7 0 ≠ 0)
    (hm : bitsOf (par c 1) 15 8 ≠ 0) (hl : bitsOf (par c 1) 23 16 ≠ 0) (s : State) :
    setWeights c s = okDone 0 0 (s.mapFeat (fun x =>
      { x with wHigh := bitsOf (par c 1) 7 0, wMedium := bitsOf (par c 1) 15 8, wLow := bitsOf (par c 1) 23 16 })) := by
  unfold setWeights
  rw [deviceScope_ok h, restZero_ok hr]
  have values : (Nat.blt (par c 1) (2 ^ 24) && bitsOf (par c 1) 7 0 != 0 && bitsOf (par c 1) 15 8 != 0 && bitsOf (par c 1) 23 16 != 0) = true := by
    simp only [Bool.and_eq_true, bne_iff_ne, Nat.blt_eq]
    exact ⟨⟨⟨hv, hh⟩, hm⟩, hl⟩
  exact need_bind_true values _ _

theorem setShedding_ok {c : Cmd} (h : c.handle = 0) (hr : restIsZero c 3) (h2 : par c 1 ≤ par c 2) (h3 : par c 2 ≤ par c 3) (s : State) :
    setShedding c s = okDone 0 0 (s.mapFeat (fun x => { x with shed3 := par c 1, shed2 := par c 2, shed1 := par c 3 })) := by
  unfold setShedding
  rw [deviceScope_ok h, restZero_ok hr]
  exact (need_bind_true (Nat.ble_eq_true_of_le h2) _ _).trans (need_bind_true (Nat.ble_eq_true_of_le h3) _ _)

theorem setMotion_ok {c : Cmd} {s : State} {cam : Nat} (hs : cameraScope s c = .ok cam) (hr : restIsZero c 1) (hv : par c 1 < 0x200)
    (hl : bitsOf (par c 1) 7 0 ≠ 0) :
    setMotion c s = okDone (s.cam cam).stagedFn 0 (s.mapCam cam (fun x =>
      { x with next := { x.next with lambda := bitsOf (par c 1) 7 0, tpred := bitOf (par c 1) 8 } })) := by
  unfold setMotion
  rw [hs, restZero_ok hr]
  exact need_bind_true (by simp only [Bool.and_eq_true, bne_iff_ne, Nat.blt_eq]; exact ⟨hv, hl⟩) _ _

theorem setFrameDone_ok {c : Cmd} {s : State} {cam : Nat} (hs : cameraScope s c = .ok cam) (hr : restIsZero c 1)
    (hv : Nat.land (par c 1) 0xFFFF00FE = 0) :
    setFrameDone c s = okDone 0 0 (s.mapCam cam (fun x =>
      { x with frameDone := bitOf (par c 1) 0, doneEvery := Nat.max 1 (bitsOf (par c 1) 15 8) })) := by
  unfold setFrameDone
  rw [hs, restZero_ok hr]
  exact need_bind_true (beq_iff_eq.mpr hv) _ _

theorem execSetFeature_unlisted {c : Cmd} {s : State} (ha : Accepted .setFeature c s)
    (h : par c 0 ∉ [0x01, 0x02, 0x30, 0x31, 0x32, 0x33, 0x40, 0x41]) :
    execSetFeature c s = .next (s.complete (ref .setFeature c) .invalidParam 0x20 0 false) := by
  refine runCmd_refuses ha (by decide) (f := badParam 0) ?_ rfl
  split
  case h_9 => rfl
  all_goals simp_all

theorem execGetFeature_done {c : Cmd} {s : State} (ha : Accepted .getFeature c s) {w : FeatureWords} (h : featureNow s c = .ok w) :
    execGetFeature c s = .next ((s.writePtr c (layout 32 [(0, 4, par c 0), (4, 4, w.1), (8, 4, w.2.1), (12, 4, w.2.2)])).complete
      (ref .getFeature c) .ok w.1 w.2.1 false) := by
  refine runCmd_done ha ?_
  rw [h]
  rfl

end Sys2Proof.Machine

namespace Sys2Proof

open Machine

/-- Settles O9: each request and each feature by its own case. -/
theorem eventRequestsAndFeatures : Obligations.EventRequestsAndFeatures := by
  unfold Obligations.EventRequestsAndFeatures
  intro c s v f rest sets
  refine ⟨fun ha => ?request, fun ha => ⟨fun hh hr => ?device, fun hh hr hp h2 h3 => ?shed, fun cam ht hl hf hr => ?camera, execSetFeature_unlisted ha⟩,
    fun w ha hw => ?get⟩
  case request =>
    refine ⟨execAsyncEventRequest_full ha, fun h => ⟨fun e rest he => ?_, fun he => ?_⟩⟩
    · exact ⟨_, execAsyncEventRequest_held ha h he, rfl, rfl, (Only.refl _ s).host (by simp) _⟩
    · exact ⟨_, execAsyncEventRequest_waits ha h he, rfl, (Only.refl _ s).host (by simp) _⟩
  case device =>
    have number (hi lo : Nat) (put : Nat → Features → Features) (h1 : lo ≤ v) (h2 : v ≤ hi) := setNumber_ok hh hr h1 h2 put s
    refine ⟨fun hp hv h1 h2 h3 => ?_, fun hp h1 h2 => ?_, fun hp h1 h2 => ?_, fun hp h1 h2 => ?_, fun hp h1 h2 => ?_⟩
    · exact ⟨_, runCmd_done ha (by rw [hp]; exact setWeights_ok hh hr hv h1 h2 h3 s), rfl, s.mapFeat_only _⟩
    all_goals exact ⟨_, runCmd_done ha (by rw [hp]; exact number _ _ _ h1 h2), rfl, s.mapFeat_only _⟩
  case shed =>
    exact ⟨_, runCmd_done ha (by rw [hp]; exact setShedding_ok hh hr h2 h3 s), rfl, s.mapFeat_only _⟩
  case camera =>
    have scope := cameraScope_ok ht hl hf
    refine ⟨fun hp hv h1 => ?_, fun hp hv => ?_⟩
    · refine ⟨_, runCmd_done ha (by rw [hp]; exact setMotion_ok scope hr hv h1), fun lt => ?_, s.mapCam_only cam _⟩
      rw [State.cam_mapCam_same lt]
      exact ⟨rfl, rfl⟩
    · refine ⟨_, runCmd_done ha (by rw [hp]; exact setFrameDone_ok scope hr hv), fun lt => ?_, s.mapCam_only cam _⟩
      rw [State.cam_mapCam_same lt]
      exact ⟨rfl, rfl⟩
  case get =>
    refine ⟨_, execGetFeature_done ha hw, fun hp => State.writePtr_host hp s _, fun hp hi => ?_, s.writePtr_only c _⟩
    have := State.writePtr_bytes hp hi (layout 32 [(0, 4, par c 0), (4, 4, w.1), (8, 4, w.2.1), (12, 4, w.2.2)])
    rwa [layout_length (by simp [Field.inside])] at this

end Sys2Proof
end

section
/-!
SUPPORT. IDENTIFY and GET_LOG_PAGE (R45, R47): the size of the identity and its first fields, and what a page gives.
-/
namespace Sys2Proof.Machine

/-! ### The identity (Table 02-18) -/

theorem words_inside {n off : Nat} {xs : List Nat} (h : off + 4 * xs.length ≤ n) : ∀ f ∈ words off xs, Field.inside n f := by
  intro f hf
  obtain ⟨⟨x, i⟩, hx, rfl⟩ := List.mem_map.mp hf
  have := List.snd_lt_of_mem_zipIdx hx
  simp [Field.inside]
  omega

theorem octets_inside {n off : Nat} {xs : List Nat} (h : off + xs.length ≤ n) : ∀ f ∈ octets off xs, Field.inside n f := by
  intro f hf
  obtain ⟨⟨x, i⟩, hx, rfl⟩ := List.mem_map.mp hf
  have := List.snd_lt_of_mem_zipIdx hx
  simp [Field.inside]
  omega

/-- A layout begins with the fields before an offset that the others do not reach. -/
theorem layout_take {n k : Nat} {fs gs : List Field} (hf : ∀ f ∈ fs ++ gs, Field.inside n f) (hg : ∀ f ∈ gs, k ≤ f.1) :
    (layout n (fs ++ gs)).take k = (layout n fs).take k := by
  induction gs using List.reverseRecOn with
  | nil => simp
  | append_singleton gs g ih =>
    have inside : Field.inside n g := hf g (by simp)
    have len : (layout n (fs ++ gs)).length = n := layout_length fun f h => hf f (by simp at h ⊢; tauto)
    have last : layout n (fs ++ (gs ++ [g])) = patch (layout n (fs ++ gs)) g.1 (leBytes g.2.1 g.2.2) := by
      simp [layout, ← List.append_assoc, List.foldl_append]
    unfold Field.inside at inside
    rw [last, take_patch (hg g (by simp)) (by omega)]
    exact ih (fun f h => hf f (by simp at h ⊢; tauto)) (fun f h => hg f (by simp [h]))

theorem State.identity_running {s : State} (h : s.power.phase = .running) :
    ∃ low high macros : List Byte, s.identity = low ++ high ++ macros ∧ low.length = 0x50 ∧ high.length = 0x3B0 ∧ macros.length = 0xC00 ∧
      low.take 4 = [0x96, 0x48, 0xB0, 0x00] := by
  unfold State.identity
  dsimp only
  rw [if_neg (by rw [h]; decide)]
  refine ⟨_, _, _, rfl, ?_, layout_length ?_, padTo_length _ _, ?_⟩
  · refine (patch_length ?_).trans (layout_length ?_)
    · rw [layout_length (by simp [Field.inside]), padTo_length]
      decide
    · simp [Field.inside]
  · simp only [List.forall_mem_append]
    have map (k : UnitKind) : (s.mgmt.units.map_ k).length = (s.mgmt.units.roles k).length := List.length_map _
    refine ⟨⟨⟨⟨⟨words_inside ?_, octets_inside ?_⟩, octets_inside ?_⟩, octets_inside ?_⟩, octets_inside ?_⟩, ?_⟩ <;>
      simp [map, UnitTable.roles, Field.inside]
  · refine (take_patch (by decide) ?_).trans ?_
    · rw [layout_length (by simp [Field.inside])]
      decide
    · exact layout_take (fs := [(0x000, 2, 0x4896), (0x002, 2, 0x00B0)]) (by simp [Field.inside]) (by simp)

theorem State.identity_length {s : State} (h : s.power.phase = .running) : s.identity.length = 4096 := by
  obtain ⟨low, high, macros, e, hl, hh, hm, -⟩ := State.identity_running h
  simp [e, hl, hh, hm]

theorem State.identity_take {s : State} (h : s.power.phase = .running) : s.identity.take 4 = [0x96, 0x48, 0xB0, 0x00] := by
  obtain ⟨low, high, macros, e, hl, -, -, first⟩ := State.identity_running h
  rw [e, List.append_assoc, List.take_append_of_le_length (by omega), first]

/-- A half among the first bytes of a structure. -/
theorem f16_of_take {bs first : List Byte} {k off : Nat} (h : bs.take k = first) (hk : off + 2 ≤ k) : f16 bs off = f16 first off := by
  unfold f16 fld
  rw [← h, List.drop_take, List.take_take, Nat.min_eq_left (by omega)]

/-! ### GET_LOG_PAGE -/

theorem State.page_unlisted {s : State} {c : Cmd} (h : par c 0 ∉ [0x10, 0x11, 0x12, 0x13, 0x14, 0x15, 0x20, 0x21, 0x22, 0x23, 0x24, 0x25, 0x26,
    0x27, 0x28, 0x29, 0x2A, 0x2B, 0x2C, 0x2D, 0x2E]) : s.page c = .error (badParam 0) := by
  unfold State.page
  split
  case h_22 => rfl
  all_goals simp_all

section

variable {c : Cmd} {s : State} (ha : Accepted .getLogPage c s) {p : Page}

include ha

theorem execGetLogPage_entries (hp : s.page c = .ok p) {size : Nat} (he : p.entry = some size) :
    let n := Nat.min (p.bytes.length / size) (c.ptrLen.toNat / size)
    execGetLogPage c s = .next (((s.writePtr c (p.bytes.take (size * n))).tickFresh).complete (ref .getLogPage c) .ok n p.full false) := by
  refine runCmd_done ha ?_
  rw [hp]
  simp only [bind, Except.bind, he, okDone]

theorem execGetLogPage_bytes (hp : s.page c = .ok p) (he : p.entry = none) (ho : par c 1 % 64 = 0) (hf : par c 1 < p.full) :
    let bs := (p.bytes.drop (par c 1)).take c.ptrLen.toNat
    execGetLogPage c s = .next (((s.writePtr c bs).tickFresh).complete (ref .getLogPage c) .ok bs.length p.full false) := by
  refine runCmd_done ha ?_
  rw [hp]
  simp only [bind, Except.bind, he]
  exact need_bind_true (by simp only [Bool.and_eq_true, beq_iff_eq, Nat.blt_eq]; exact ⟨ho, hf⟩) _ _

theorem execGetLogPage_unlisted (h : s.page c = .error (badParam 0)) :
    execGetLogPage c s = .next (s.complete (ref .getLogPage c) .invalidParam 0x20 0 false) := by
  refine runCmd_refuses ha (by decide) (f := badParam 0) ?_ rfl
  rw [h]
  rfl

end

end Sys2Proof.Machine

namespace Sys2Proof

open Machine

/-- Settles O10: the identity has its size and its first fields; a page is copied whole entries or from an offset; only PTR_LEN bounds the
copy (log 47). -/
theorem identifyAndLogPagesAreCopied : Obligations.IdentifyAndLogPagesAreCopied := by
  unfold Obligations.IdentifyAndLogPagesAreCopied
  intro c s hi wrote
  have copied (bs : List Byte) : wrote (s.writePtr c bs) bs := ⟨fun hp => State.writePtr_host hp s bs, fun hp => State.writePtr_bytes hp hi bs⟩
  have only (bs : List Byte) : Only [.bytes, .out, .fresh] s (s.writePtr c bs).tickFresh :=
    ((s.writePtr_only c bs).mono (by simp)).fresh (by simp) _
  refine ⟨fun ha => ?identify, fun ha => ⟨fun p size hp he => ?entries, fun p hp he ho hf => ?bytes,
    fun h => execGetLogPage_unlisted ha (State.page_unlisted h)⟩⟩
  case identify =>
    have first := State.identity_take ha.1
    exact ⟨_, runCmd_done ha rfl, copied _, State.identity_length ha.1, f16_of_take first (by decide), f16_of_take first (by decide),
      s.writePtr_only c _⟩
  case entries => exact ⟨_, execGetLogPage_entries ha hp he, copied _, only _⟩
  case bytes => exact ⟨_, execGetLogPage_bytes ha hp he ho hf, copied _, only _⟩

end Sys2Proof
end

section
/-!
SUPPORT. The barriers of an activation (R57), and COMMAND_FETCH (R36, R63).
-/
namespace Sys2Proof.Machine

/-! ### Barriers (R57) -/

theorem vmapIdx_getElem {α β : Type} {n : Nat} (v : Vector α n) (f : Nat → α → β) (i : Fin n) : (vmapIdx v f)[i] = f i.val v[i] := by
  simp [vmapIdx]

/-- A live queue takes a barrier at its tail, where it has none yet. -/
def Queue.barred (k : Queue) : Queue := if k.live then { k with barrier := some (k.barrier.getD k.submitted) } else k

theorem State.setBarriers_queue (s : State) (q : Fin 64) : s.setBarriers.queue q = (s.queue q).barred := by
  simp only [State.setBarriers, State.queue, State.mapHost_host, vmapIdx_getElem]
  rfl

theorem State.clearBarriers_queue (s : State) (q : Fin 64) : s.clearBarriers.queue q = { s.queue q with barrier := none } := by
  simp only [State.clearBarriers, State.queue, State.mapHost_host, vmapIdx_getElem]

theorem State.setBarriers_only {ps : List Part} {s t : State} (h : Only ps s t) (hh : Part.host ∈ ps) : Only ps s t.setBarriers := h.host hh _

theorem State.clearBarriers_only {ps : List Part} {s t : State} (h : Only ps s t) (hh : Part.host ∈ ps) : Only ps s t.clearBarriers := h.host hh _

theorem Queue.barred_of_live {k : Queue} (h : k.live = true) : k.barred = { k with barrier := some (k.barrier.getD k.submitted) } := if_pos h

/-- A barrier changes no other field of a queue. -/
theorem Queue.barred_eq (k : Queue) : ∃ b, k.barred = { k with barrier := b } := by
  unfold Queue.barred
  split <;> exact ⟨_, rfl⟩

/-! ### Which queue is served -/

theorem Arbiter.pick_zero {a : Arbiter} {f : Features} {k : Queue} {qs : List (Queue × Nat)} (h : k.fetchable = true) :
    a.pick f ((k, 0) :: qs) = some (0, a) := by
  simp [Arbiter.pick, h]

/-- R36: queue 0 is served before any other. -/
theorem State.pick_zero {s : State} (h : (s.queue 0).fetchable = true) :
    s.host.arb.pick s.host.feat s.host.queues.toList.zipIdx = some (0, s.host.arb) := by
  have first : s.host.queues.toList.zipIdx.head? = some (s.queue 0, 0) := by simp [List.head?_eq_getElem?, State.queue]
  obtain ⟨rest, e⟩ := List.head?_eq_some_iff.mp first
  rw [e, Arbiter.pick_zero h]

/-- The state in which the fetch of queue 0 begins: no return to the operational state is in progress. -/
def State.serving (s : State) : State := (s.mapHost (fun h => { h with arb := s.host.arb })).mapPower (fun w => { w with waking := none })

theorem State.serving_only (s : State) : Only [.host, .power] s s.serving := ((Only.refl _ s).host (by simp) _).power (by simp) _

theorem execCommandFetch_returning {s : State} (h : s.returning = true) (rs : List EntryRead) : execCommandFetch rs s = .next s :=
  if_pos (by simp [h])

theorem execCommandFetch_zero {s : State} (hr : s.ready = true) (hn : s.returning = false) (hf : (s.queue 0).fetchable = true) (r : EntryRead) :
    execCommandFetch [r] s = .next (s.serving.fetchOne 0 r) := by
  unfold execCommandFetch
  rw [if_neg (by simp [hr, hn]), State.pick_zero hf]
  rfl

/-! ### One entry -/

section

variable {s : State} {q : Fin 64} {a : Nat} (hf : (s.queue q).fetchable = true) (ha : (s.queue q).sq = .hostMem a)
  (hr : (s.queue q).reset = none)

include hf ha hr

/-- R63: a failed read halts the queue. -/
theorem State.fetchOne_failed : s.fetchOne q .failed = s.haltQueue q := by
  simp [State.fetchOne, hf, State.readEntry, ha, hr]

/-- An entry waits for dispatch, and an FW_ACTIVATE on queue 0 records the barriers (R57). -/
theorem State.fetchOne_entry (hl : (s.queue q).flush = none) (op : Half) (p : Packet) :
    ∃ t, s.fetchOne q (.entry op p) = (if q = 0 ∧ op.toNat = Op.fwActivate.code then t.setBarriers else t) ∧
      t.queue q = { s.queue q with sqHead := ((s.queue q).sqHead + 1) % (s.queue q).entries, fetchedN := (s.queue q).fetchedN + 1,
                                   fetched := (s.queue q).fetched ++ [{ ent := (s.queue q).fetchedN, op := op, pkt := p }] } ∧
      (∀ x : Fin 64, x ≠ q → t.queue x = s.queue x) ∧ Only [.host] s t := by
  refine ⟨_, by simp only [State.fetchOne, hf, State.readEntry, ha, hr, hl]; rfl, ?_, fun x hx => ?_, ?_⟩
  · simp only [State.queue_mapQueue]
  · rw [State.queue_mapQueue_ne _ hx, State.queue_mapQueue_ne _ hx]
  · exact State.mapQueue_only (State.mapQueue_only (.refl _ s) (by simp) q _) (by simp) q _

end

/-- Queue 0 halted, with ADMIN_HALTED set (R63). -/
def State.adminHaltedNow (s : State) : State :=
  (s.mapQueue 0 (fun x => { x with halted := true })).mapHost (fun h => { h with adminHalted := true })

theorem State.haltQueue_zero (s : State) : s.haltQueue 0 = s.adminHaltedNow.post .queueHalted 0 := rfl

theorem State.adminHaltedNow_queue (s : State) : s.adminHaltedNow.queue 0 = { s.queue 0 with halted := true } := by
  simp [State.adminHaltedNow, State.queue]

theorem State.adminHaltedNow_only {ps : List Part} {s t : State} (h : Only ps s t) (hh : Part.host ∈ ps) : Only ps s t.adminHaltedNow :=
  (h.host hh _).host hh _

end Sys2Proof.Machine

namespace Sys2Proof

open Machine

/-- Settles O6. -/
theorem commandFetchServesQueueZeroFirst : Obligations.CommandFetchServesQueueZeroFirst := by
  unfold Obligations.CommandFetchServesQueueZeroFirst
  intro s op p a k hready hf ha hl hr
  refine ⟨fun h => execCommandFetch_returning h _, fun hn => ?entry, fun hn => ?failed⟩
  case entry =>
    obtain ⟨t, run, zero, others, only⟩ := State.fetchOne_entry (s := s.serving) hf ha hr hl op p
    have parts := s.serving_only.trans (only.mono (by simp))
    have outcome := execCommandFetch_zero hready hn hf (.entry op p)
    rw [run] at outcome
    by_cases activate : op.toNat = Op.fwActivate.code
    · rw [if_pos ⟨rfl, activate⟩] at outcome
      obtain ⟨b, barred⟩ := Queue.barred_eq (t.queue 0)
      have queue := (t.setBarriers_queue 0).trans barred
      rw [zero] at queue
      refine ⟨_, outcome, ?_, ?_, ?_, fun h => absurd activate h, fun _ q hq live => ?_, State.setBarriers_only parts (by simp)⟩
      · rw [queue]; rfl
      · rw [queue]; rfl
      · rw [queue]; rfl
      · rw [State.setBarriers_queue, others q hq]
        exact Queue.barred_of_live live
    · rw [if_neg (fun h => activate h.2)] at outcome
      refine ⟨_, outcome, ?_, ?_, ?_, fun _ q hq => others q hq, fun h => absurd h activate, parts⟩
      · rw [zero]; rfl
      · rw [zero]; rfl
      · rw [zero]; rfl
  case failed =>
    have outcome := execCommandFetch_zero hready hn hf .failed
    rw [State.fetchOne_failed (s := s.serving) hf ha hr, State.haltQueue_zero] at outcome
    refine ⟨_, outcome, ?_, rfl, ?_, ?_, State.adminHaltedNow_only s.serving_only (by simp)⟩
    · rw [State.adminHaltedNow_queue]
    · rw [State.adminHaltedNow_queue]; rfl
    · rw [State.adminHaltedNow_queue]; rfl

end Sys2Proof
end

section
/-!
SUPPORT. The checks that every command goes through (R5, R35, R39), whatever its own rules are.
-/
namespace Sys2Proof.Machine

/-- Every operation of the queue interface runs behind the common checks. -/
theorem exec_eq_runCmd {i : Instr} {op : Op} {c : Cmd} (h : commandOf i = some (op, c)) (s : State) :
    ∃ body : Chk Done, exec i s = runCmd op c s body := by
  unfold commandOf at h
  split at h <;> cases h <;> exact ⟨_, (exec.eq_def _ _).trans rfl⟩

theorem adminOnly_iff (op : Op) : adminOnly op = true ↔ op.code / 256 = 0 ∨ op = .fwCommit ∨ op = .fwActivate := by
  simp [adminOnly, or_assoc]

/-- Queue 0 takes every command, and another queue those that are not queue 0's alone (R35). -/
def takes (op : Op) (c : Cmd) : Bool := !(adminOnly op && c.qid != 0)

theorem takes_eq_false {op : Op} {c : Cmd} : takes op c = false ↔ adminOnly op = true ∧ c.qid ≠ 0 := by
  simp [takes]

theorem takes_eq_true {op : Op} {c : Cmd} : takes op c = true ↔ (adminOnly op = true → c.qid = 0) := by
  cases h : adminOnly op <;> simp [takes, h]

variable {s : State} {op : Op} {c : Cmd}

theorem preflight_not_taken (h : takes op c = false) : preflight s op c = .error { status := .invalidOpcode, r0 := op.code, r1 := 0 } :=
  need_bind_false h ..

/-- Where a command may be on any queue, its queue is not checked. -/
theorem preflight_of_not_adminOnly (h : adminOnly op = false) (q : Fin 64) : preflight s op { c with qid := q } = preflight s op c := by
  simp only [preflight, h, Bool.false_and]
  rfl

section

variable (ht : takes op c = true) (hp : s.power.phase = .running)

include ht hp

theorem preflight_bad_field {off : Nat} (hf : firstBad (packetFields op c) = some off) : preflight s op c = .error (badPacket off) := by
  unfold preflight
  rw [need_bind_true (by exact ht), need_bind_true (by rw [hp]; rfl), hf]
  rfl

theorem preflight_bad_handle (hf : firstBad (packetFields op c) = none) (hh : handleOk s (opSpec op).h c.handle = false) :
    preflight s op c = .error (badHandle c.handle 0) := by
  unfold preflight
  rw [need_bind_true (by exact ht), need_bind_true (by rw [hp]; rfl), hf]
  exact need_bind_false hh ..

end

/-! ### The fields of a packet -/

/-- A list of checks with a failing one names an offset. -/
theorem firstBad_of_mem {l : List (Nat × Bool)} {off : Nat} (h : (off, false) ∈ l) : ∃ o, firstBad l = some o := by
  induction l with
  | nil => cases h
  | cons x l ih =>
    obtain ⟨o, ok⟩ := x
    cases ok with
    | false => exact ⟨o, rfl⟩
    | true => exact ih (by simpa using h)

/-- R39: a reserved bit or byte of a packet that is not 0 is a bad field. -/
theorem firstBad_packetFields (h : 8 ≤ c.flags.toNat ∨ c.rsvd03 ≠ 0 ∨ c.rsvd06 ≠ 0 ∨ c.rsvd1C ≠ 0) :
    ∃ off, firstBad (packetFields op c) = some off := by
  obtain flags | rsvd03 | rsvd06 | rsvd1C := h
  · have large : Nat.blt c.flags.toNat 8 = false := by
      rw [Bool.eq_false_iff, ne_eq, Nat.blt_eq]
      omega
    exact firstBad_of_mem (off := 0x02) (by simp [packetFields, large])
  · exact firstBad_of_mem (off := 0x03) (by simp [packetFields, show ¬ c.rsvd03 = 0#8 from rsvd03])
  · exact firstBad_of_mem (off := 0x06) (by simp [packetFields, show ¬ c.rsvd06 = 0#16 from rsvd06])
  · exact firstBad_of_mem (off := 0x1C) (by simp [packetFields, show ¬ c.rsvd1C = 0#30 from rsvd1C])

/-! ### A command that fails the common checks -/

theorem runCmd_preflight_error (hp : s.power.phase = .running ∨ s.power.phase = .recovery) {f : Fail} (hf : preflight s op c = .error f)
    (hs : f.status ≠ .accessViolation) (body : Chk Done) :
    runCmd op c s body = .next ((if op = .fwActivate then s.liftBarriers else s).complete (ref op c) f.status f.r0 f.r1 false) := by
  unfold runCmd
  rw [if_pos hp, hf]
  exact congrArg Host.Outcome.next (failCmd_eq op c hs s)

end Sys2Proof.Machine

namespace Sys2Proof

open Machine

/-- Settles O60: every command runs behind the common checks, and the first that fails ends it. -/
theorem adminCommandsOnlyOnQueueZeroAndBadPacketsFail : Obligations.AdminCommandsOnlyOnQueueZeroAndBadPacketsFail := by
  unfold Obligations.AdminCommandsOnlyOnQueueZeroAndBadPacketsFail
  intro i op c s h admin s'
  obtain ⟨body, run⟩ := exec_eq_runCmd h s
  rw [run]
  refine ⟨fun hp ha hq => ?elsewhere, fun ha q => ?anywhere, fun hp ht => ?taken⟩
  case elsewhere =>
    have refused := preflight_not_taken (s := s) (takes_eq_false.mpr ⟨(adminOnly_iff op).mpr ha, hq⟩)
    exact runCmd_preflight_error hp refused (by simp) body
  case anywhere =>
    exact preflight_of_not_adminOnly (Bool.eq_false_iff.mpr (mt (adminOnly_iff op).mp ha)) q
  case taken =>
    have taken := takes_eq_true.mpr fun ha => ht ((adminOnly_iff op).mp ha)
    refine ⟨fun bad => ?_, fun good dead => ?_⟩
    · obtain ⟨off, first⟩ := firstBad_packetFields (op := op) bad
      exact ⟨off, runCmd_preflight_error (.inl hp) (preflight_bad_field taken hp first) (by simp [badPacket]) body⟩
    · exact runCmd_preflight_error (.inl hp) (preflight_bad_handle taken hp good dead) (by simp [badHandle]) body

end Sys2Proof
end

section
/-!
SUPPORT. FW_ACTIVATE and the end of its drain (R57, R424): its own rules, and a host interface without a drain.
-/
namespace Sys2Proof.Machine

/-- No drain is in progress, and no queue has a barrier. -/
def State.undrained (s : State) : Prop := s.host.activation = none ∧ ∀ q : Fin 64, (s.queue q).barrier = none

theorem State.clearBarriers_undrained (s : State) : s.clearBarriers.undrained := by
  refine ⟨rfl, fun q => ?_⟩
  rw [State.clearBarriers_queue]

theorem State.undrained_of_host_eq {s t : State} (h : t.host = s.host) (hs : s.undrained) : t.undrained := by
  unfold State.undrained State.queue at *
  rwa [h]

theorem Ends.undrained {s t : State} (h : Ends s t) (hs : s.undrained) : t.undrained := by
  obtain ⟨activation, barrier⟩ := hs
  exact ⟨(congrArg HostSt.activation h.host).trans activation, fun q => (congrArg Queue.barrier (h.queues q)).trans (barrier q)⟩

theorem State.writeBootRecord_only {ps : List Part} {s t : State} (h : Only ps s t) (hm : Part.mgmt ∈ ps) (ho : Part.out ∈ ps) :
    Only ps s t.writeBootRecord := (h.mgmt hm _).out ho _

theorem State.queues_toList (s : State) : s.host.queues.toList = (List.finRange 64).map s.queue := by
  apply List.ext_getElem <;> simp [State.queue]

/-! ### The command -/

section

variable {c : Cmd} {s : State} (ha : Accepted .fwActivate c s) (hn : s.host.activation = none)

/-- The bank that an FW_ACTIVATE names can be tried: it is not the active one, not empty and not failed (R424). -/
@[reducible] def Firmware.usable (f : Firmware) (n : Nat) : Prop := n ≠ f.active ∧ (f.bank n).empty = false ∧ (f.bank n).failed = false

theorem Firmware.usable_iff (f : Firmware) (n : Nat) : (n != f.active && !(f.bank n).empty && !(f.bank n).failed) = true ↔ f.usable n := by
  simp [and_assoc]

/-- The state in which a drain for a bank begins. -/
def State.draining (s : State) (a : Activation) : State := (s.mapHost (fun h => { h with activation := some a })).setBarriers

theorem State.draining_queue (s : State) (a : Activation) (q : Fin 64) : (s.draining a).queue q = (s.queue q).barred := State.setBarriers_queue ..

include ha hn

theorem execFwActivate_usable (hu : s.mgmt.fw.usable (bitsOf (par c 0) 0 0)) :
    execFwActivate c s = .next ((s.draining { by_ := ref .fwActivate c, bank := bitsOf (par c 0) 0 0 }).keepInFlight (ref .fwActivate c)) := by
  refine runCmd_waits ha ?_
  rw [need_bind_true (by rw [hn]; rfl), if_neg (by rw [ha.1]; decide), need_bind_true ((Firmware.usable_iff ..).mpr hu)]
  rfl

theorem execFwActivate_not_usable (hu : ¬ s.mgmt.fw.usable (bitsOf (par c 0) 0 0)) :
    execFwActivate c s = .next (s.clearBarriers.complete (ref .fwActivate c) .notReady 0xE1 0 false) := by
  have failed := failCmd_eq .fwActivate c (f := notReady 0xE1) (by simp [notReady]) s
  rw [if_pos rfl, State.liftBarriers, hn] at failed
  refine (runCmd_fails ha (f := notReady 0xE1) ?_).trans (congrArg Host.Outcome.next failed)
  rw [need_bind_true (by rw [hn]; rfl), if_neg (by rw [ha.1]; decide),
    need_bind_false (Bool.eq_false_iff.mpr (mt (Firmware.usable_iff ..).mp hu))]

end

/-! ### The end of a drain -/

/-- The state after the bank of a drain became the active one, on trial (R424). -/
def State.tried (s : State) (n : Nat) : State :=
  (s.clearBarriers.mapFw (fun f => { f with active := n, trial := true, trialBank := n })).writeBootRecord

def State.triedAndLogged (s : State) (n : Nat) : State :=
  ((s.tried n).logEvent { source := 0x0E, unit := chandlerUnit, detail := [n] }).post .fwActivated (BitVec.ofNat 32 n)

theorem State.triedAndLogged_ends (s : State) (n : Nat) : Ends (s.tried n) (s.triedAndLogged n) := (Ends.logEvent _ _).trans (.post ..)

theorem State.tried_undrained (s : State) (n : Nat) : (s.tried n).undrained :=
  State.undrained_of_host_eq (s := s.clearBarriers) rfl s.clearBarriers_undrained

theorem State.tried_only {ps : List Part} {s t : State} (h : Only ps s t) (hh : Part.host ∈ ps) (hm : Part.mgmt ∈ ps) (ho : Part.out ∈ ps)
    (n : Nat) : Only ps s (t.tried n) := State.writeBootRecord_only ((State.clearBarriers_only h hh).mgmt hm _) hm ho

section

variable {s : State} {a : Activation} (ha : s.host.activation = some a)

include ha

theorem execActivationDrainTimeout_draining :
    execActivationDrainTimeout s = .next (s.clearBarriers.finish a.by_ .notReady 0x0D 0 false) := by
  unfold execActivationDrainTimeout
  rw [ha]

variable (hd : ∀ q : Fin 64, (s.queue q).drained a.by_ = true)

include hd

theorem execActivationDrained_rejected : execActivationDrained false s = .next (s.clearBarriers.finish a.by_ .firmwareRejected 5 0 false) := by
  have all : s.host.queues.toList.all (fun q => q.drained a.by_) = true := by simp [State.queues_toList, hd]
  simp only [execActivationDrained, ha, all, Bool.not_true, Bool.false_eq_true, if_false, Bool.not_false, if_true]

theorem execActivationDrained_taken : execActivationDrained true s =
    .next ((s.triedAndLogged a.bank).finish a.by_ .ok a.bank (s.mgmt.fw.bank a.bank).version false) := by
  have all : s.host.queues.toList.all (fun q => q.drained a.by_) = true := by simp [State.queues_toList, hd]
  have version : ((s.triedAndLogged a.bank).mgmt.fw.bank a.bank).version = (s.mgmt.fw.bank a.bank).version := by
    rw [(s.triedAndLogged_ends a.bank).fw]
    rfl
  rw [← version]
  simp only [execActivationDrained, ha, all, Bool.not_true, Bool.false_eq_true, if_false]
  rfl

end

theorem execTrialEnd_trial {s : State} (h : s.mgmt.fw.trial = true) :
    execTrialEnd s = .next (s.mapFw (fun f => { f with trial := false, bootBank := f.trialBank })).writeBootRecord := if_pos h

end Sys2Proof.Machine
end

section
/-!
SUPPORT. CHANDLER_RESTART (R425): every command in flight completes, queue by queue and oldest first.
-/
namespace Sys2Proof.Machine

/-! ### Completions of commands in flight -/

theorem State.pushReady_queue (s : State) (q : Fin 64) (r : Ready) :
    (s.pushReady q r).queue q = { s.queue q with ready := (s.queue q).ready ++ [r] } := by
  rw [State.pushReady, State.queue_mapHost _ _ _ rfl, State.queue_mapQueue]

theorem State.pushReady_queue_ne (s : State) {q x : Fin 64} (h : x ≠ q) (r : Ready) : (s.pushReady q r).queue x = s.queue x := by
  rw [State.pushReady, State.queue_mapHost _ _ _ rfl, State.queue_mapQueue_ne _ h]

/-- The completion of a queue's oldest command in flight, with no orphan running, moves it to the ready completions. -/
theorem State.finish_oldest {s : State} {f : Flying} {rest : List Flying} (ho : s.host.orphanRun = [])
    (hq : (s.queue f.ref.qid).inFlight = f :: rest) (st : Status) (r0 r1 : Nat) (lg : Bool) :
    (s.finish f.ref st r0 r1 lg).host.orphanRun = [] ∧
    ((s.finish f.ref st r0 r1 lg).queue f.ref.qid).inFlight = rest ∧
    ((s.finish f.ref st r0 r1 lg).queue f.ref.qid).ready.length = (s.queue f.ref.qid).ready.length + 1 ∧
    ∀ q : Fin 64, q ≠ f.ref.qid → (s.finish f.ref st r0 r1 lg).queue q = s.queue q := by
  have found : (s.queue f.ref.qid).inFlight.find? (Flying.is f.ref) = some f := by rw [hq]; simp [Flying.is]
  unfold State.finish
  simp only [ho, List.any_nil, Bool.false_eq_true, if_false, found]
  refine ⟨ho, ?_, ?_, fun q hn => ?_⟩
  · rw [State.pushReady_queue, State.queue_mapHost _ _ _ rfl, State.queue_mapQueue]
    split <;> simp [Queue.landed, Queue.countAborted, hq, dropFirst, Flying.is]
  · rw [State.pushReady_queue, State.queue_mapHost _ _ _ rfl, State.queue_mapQueue]
    split <;> simp [Queue.landed, Queue.countAborted]
  · rw [State.pushReady_queue_ne _ hn, State.queue_mapHost _ _ _ rfl, State.queue_mapQueue_ne _ hn]

/-- The commands in flight of every queue are those of a list that name it, in the list's order. -/
def State.fliesExactly (s : State) (l : List Flying) : Prop :=
  ∀ q : Fin 64, (s.queue q).inFlight = l.filter (fun f => f.ref.qid == q)

theorem State.finish_all (st : Status) (r0 r1 : Nat) (lg : Bool) : ∀ (l : List Flying) {s : State}, s.host.orphanRun = [] → s.fliesExactly l →
    ∀ q : Fin 64, ((l.foldl (fun u f => u.finish f.ref st r0 r1 lg) s).queue q).inFlight = [] ∧
      ((l.foldl (fun u f => u.finish f.ref st r0 r1 lg) s).queue q).ready.length = (s.queue q).ready.length + (s.queue q).inFlight.length
  | [], s, _, hl, q => by
    have none : (s.queue q).inFlight = [] := hl q
    exact ⟨none, by rw [none]; rfl⟩
  | f :: l, s, ho, hl, q => by
    have oldest : (s.queue f.ref.qid).inFlight = f :: l.filter (fun x => x.ref.qid == f.ref.qid) := by
      rw [hl]; exact List.filter_cons_of_pos (by simp)
    obtain ⟨orphans, flying, ready, others⟩ := State.finish_oldest ho oldest st r0 r1 lg
    have rest : (s.finish f.ref st r0 r1 lg).fliesExactly l := fun x => by
      by_cases hx : x = f.ref.qid
      · rw [hx, flying]
      · rw [others x hx, hl, List.filter_cons_of_neg (by simpa using Ne.symm hx)]
    obtain ⟨empty, count⟩ := State.finish_all st r0 r1 lg l orphans rest q
    refine ⟨empty, count.trans ?_⟩
    by_cases hx : q = f.ref.qid
    · rw [hx, ready, flying, oldest, List.length_cons]
      omega
    · rw [others q hx]

/-- Where every command in flight names its own queue, the queues' lists one after another are the commands in flight. -/
theorem State.fliesExactly_flatMap {s : State} (h : ∀ q : Fin 64, ∀ x ∈ (s.queue q).inFlight, x.ref.qid = q) :
    s.fliesExactly (s.host.queues.toList.flatMap Queue.inFlight) := by
  intro q
  have own (x : Fin 64) : (s.queue x).inFlight.filter (fun f => f.ref.qid == q) = if x = q then (s.queue q).inFlight else [] := by
    by_cases hx : x = q
    · rw [if_pos hx, hx, List.filter_eq_self]
      exact fun f hf => by simpa using h q f hf
    · rw [if_neg hx, List.filter_eq_nil_iff]
      exact fun f hf => by simpa [h x f hf] using hx
  obtain ⟨before, after, split⟩ := List.append_of_mem (List.mem_finRange q)
  have nodup := List.nodup_finRange 64
  rw [split, List.nodup_append, List.nodup_cons] at nodup
  obtain ⟨-, ⟨notAfter, -⟩, apart⟩ := nodup
  have nothing (l : List (Fin 64)) (hl : q ∉ l) : l.flatMap (fun x => if x = q then (s.queue q).inFlight else []) = [] :=
    List.flatMap_eq_nil_iff.mpr fun x hx => if_neg (ne_of_mem_of_not_mem hx hl)
  rw [State.queues_toList, List.flatMap_map, List.filter_flatMap]
  simp only [own]
  rw [split, List.flatMap_append, List.flatMap_cons, nothing before (fun hq => apart q hq q (by simp) rfl), nothing after notAfter]
  simp

/-! ### The end of a trial -/

theorem Firmware.bank_mapBank (f : Firmware) (n : Nat) (g : Bank → Bank) : (f.mapBank n g).bank n = g (f.bank n) := by
  unfold Firmware.mapBank Firmware.bank
  split <;> rfl

theorem Firmware.mapBank_restarts (f : Firmware) (n : Nat) (g : Bank → Bank) : (f.mapBank n g).restarts = f.restarts := by
  unfold Firmware.mapBank
  split <;> rfl

theorem State.post_queue_of_async_nil {s : State} (h : s.host.async = []) (ty : EvType) (d : Word) (q : Fin 64) : (s.post ty d).queue q = s.queue q := by
  unfold State.post
  rw [h]
  dsimp only
  split
  · rfl
  · split <;> rfl

theorem State.logErrorPost_async_nil {s : State} (h : s.host.async = []) (i : LogInfo) : (s.logErrorPost i).host.async = [] :=
  State.post_async_nil (s := s.logError i) h ..

theorem State.logErrorPost_queue_of_async_nil {s : State} (h : s.host.async = []) (i : LogInfo) (q : Fin 64) :
    (s.logErrorPost i).queue q = s.queue q := State.post_queue_of_async_nil (s := s.logError i) h ..

/-- The state after a restart that ends a trial: the bank on trial is failed, and the other one active (R425). -/
def State.revertBank (s : State) (n : Nat) : State :=
  (s.mapFw (fun f => { (f.mapBank n (fun b => { b with failed := true })) with trial := false, active := 1 - n })).writeBootRecord

theorem State.revertBank_queue (s : State) (n : Nat) (q : Fin 64) : (s.revertBank n).queue q = s.queue q := rfl

def State.reverted (s : State) (n : Nat) : State :=
  (s.revertBank n).logErrorPost { source := 0x0E, unit := chandlerUnit, detail := [n] }

theorem State.reverted_ends (s : State) (n : Nat) : Ends (s.revertBank n) (s.reverted n) := .logErrorPost ..

theorem State.reverted_undrained {s : State} (h : s.undrained) (n : Nat) : (s.reverted n).undrained :=
  (s.reverted_ends n).undrained (State.undrained_of_host_eq (s := s) rfl h)

theorem State.reverted_async_nil {s : State} (h : s.host.async = []) (n : Nat) : (s.reverted n).host.async = [] :=
  State.logErrorPost_async_nil (s := s.revertBank n) h _

theorem State.reverted_queue {s : State} (h : s.host.async = []) (n : Nat) (q : Fin 64) : (s.reverted n).queue q = s.queue q :=
  (State.logErrorPost_queue_of_async_nil (s := s.revertBank n) h _ q).trans (s.revertBank_queue n q)

theorem State.reverted_restarts (s : State) (n : Nat) : (s.reverted n).mgmt.fw.restarts = s.mgmt.fw.restarts := by
  rw [(s.reverted_ends n).fw]
  exact s.mgmt.fw.mapBank_restarts n _

theorem State.reverted_fw (s : State) (n : Nat) :
    (s.reverted n).mgmt.fw.trial = false ∧ (s.reverted n).mgmt.fw.active = 1 - n ∧ ((s.reverted n).mgmt.fw.bank n).failed = true := by
  rw [(s.reverted_ends n).fw]
  exact ⟨rfl, rfl, congrArg Bank.failed (s.mgmt.fw.bank_mapBank n fun b => { b with failed := true })⟩

theorem State.reverted_only {ps : List Part} {s t : State} (h : Only ps s t) (hh : Part.host ∈ ps) (hm : Part.mgmt ∈ ps) (ho : Part.out ∈ ps)
    (n : Nat) : Only ps s (t.reverted n) :=
  State.logErrorPost_only (State.writeBootRecord_only (h.mgmt hm _) hm ho) hh hm _

/-! ### The restart -/

/-- What the error log says of a restart (R425). -/
def restartInfo : LogInfo := { source := 0x0E, code := Status.hardwareFault.code, unit := chandlerUnit }

/-- The state in which the completions of a restart begin: it is logged and counted, and no drain, flush, reset or request is left. -/
def State.restarted (s : State) : State :=
  (((s.logError restartInfo).mapMgmt (fun m => { m with
    smb := { m.smb with fwRestarted := true }, fw := { m.fw with restarts := m.fw.restarts.satInc } })).clearBarriers).mapHost (fun h => { h with
      async := [],
      queues := vmapIdx h.queues (fun _ q => { q with flush := none, reset := q.reset.map (fun r => if r.done then r else { r with by_ := none }) }) })

/-- The state after the completions of a restart. -/
def State.restartedIdle (s : State) : State :=
  (s.host.queues.toList.flatMap Queue.inFlight).foldl
    (fun u f => u.finish f.ref .hardwareFault chandlerUnit.toNat (s.logError restartInfo).errSeq true)
    s.restarted

theorem execChandlerRestart_running {s : State} (h : s.power.phase = .running) : execChandlerRestart s = .next
    (if s.mgmt.fw.trial then s.restartedIdle.reverted s.mgmt.fw.trialBank else s.restartedIdle) := by
  unfold execChandlerRestart
  rw [if_neg (by rw [h]; decide)]
  dsimp only
  split <;> rfl

theorem State.restarted_queue (s : State) (q : Fin 64) : s.restarted.queue q = { s.queue q with
    barrier := none, flush := none, reset := (s.queue q).reset.map (fun r => if r.done then r else { r with by_ := none }) } := by
  simp only [State.restarted, State.queue, State.mapHost_host, vmapIdx_getElem, State.clearBarriers]
  rfl

theorem State.restarted_inFlight (s : State) (q : Fin 64) : (s.restarted.queue q).inFlight = (s.queue q).inFlight := by
  rw [State.restarted_queue]

theorem State.restarted_ready (s : State) (q : Fin 64) : (s.restarted.queue q).ready = (s.queue q).ready := by
  rw [State.restarted_queue]

theorem State.restarted_orphanRun (s : State) : s.restarted.host.orphanRun = s.host.orphanRun := by
  simp only [State.restarted, State.clearBarriers, State.mapHost_host]
  rfl

theorem State.restarted_undrained (s : State) : s.restarted.undrained := by
  refine ⟨rfl, fun q => ?_⟩
  rw [State.restarted_queue]

theorem State.restarted_only {ps : List Part} {s t : State} (h : Only ps s t) (hh : Part.host ∈ ps) (hm : Part.mgmt ∈ ps) :
    Only ps s t.restarted :=
  (State.clearBarriers_only ((State.logError_only h hm _).mgmt hm _) hh).host hh _

theorem State.restartedIdle_endsQuietly (s : State) : EndsQuietly s.restarted s.restartedIdle :=
  .foldl _ (fun _ _ => .finish ..) _

/-- After a restart no command is in flight, and each that was has a completion ready. -/
theorem State.restartedIdle_flown {s : State} (ho : s.host.orphanRun = []) (hq : ∀ q : Fin 64, ∀ x ∈ (s.queue q).inFlight, x.ref.qid = q) (q : Fin 64) :
    (s.restartedIdle.queue q).inFlight = [] ∧
      (s.restartedIdle.queue q).ready.length = (s.queue q).ready.length + (s.queue q).inFlight.length := by
  have flies : s.restarted.fliesExactly (s.host.queues.toList.flatMap Queue.inFlight) := fun x => by
    rw [State.restarted_inFlight, State.fliesExactly_flatMap hq x]
  have orphans : s.restarted.host.orphanRun = [] := s.restarted_orphanRun.trans ho
  rw [← s.restarted_inFlight q, ← s.restarted_ready q]
  exact State.finish_all _ _ _ _ _ orphans flies q

end Sys2Proof.Machine

namespace Sys2Proof

open Machine

/-- Settles O32: the firmware and the barriers are set first, and what is logged, posted and completed after that keeps them. -/
theorem activationDrainsAndTries : Obligations.ActivationDrainsAndTries := by
  unfold Obligations.ActivationDrainsAndTries
  intro c s f n usable open_
  refine ⟨fun ha hn => ⟨fun hu => ?try_, fun hu => ?refuse⟩, fun a ha => ⟨fun hd => ⟨?taken, ?rejected⟩, ?timeout⟩, fun ht => ?trialEnd,
    fun hp ho hq => ?restart⟩
  case try_ =>
    refine ⟨_, execFwActivate_usable ha hn hu, rfl, fun q live => ?_, State.setBarriers_only ((Only.refl _ s).host (by simp) _) (by simp)⟩
    rw [State.draining_queue, Queue.barred_of_live live]
  case refuse =>
    exact ⟨_, execFwActivate_not_usable ha hn hu, s.clearBarriers_undrained, State.clearBarriers_only (.refl _ s) (by simp)⟩
  case taken =>
    have ends := s.triedAndLogged_ends a.bank
    exact ⟨_, execActivationDrained_taken ha hd, ends.undrained (s.tried_undrained _), ends.fw,
      (State.tried_only (.refl _ s) (by simp) (by simp) (by simp) _).trans (ends.only.mono (by simp))⟩
  case rejected =>
    exact ⟨_, execActivationDrained_rejected ha hd, s.clearBarriers_undrained, State.clearBarriers_only (.refl _ s) (by simp)⟩
  case timeout =>
    exact ⟨_, execActivationDrainTimeout_draining ha, s.clearBarriers_undrained, State.clearBarriers_only (.refl _ s) (by simp)⟩
  case trialEnd =>
    exact ⟨_, execTrialEnd_trial ht, rfl, State.writeBootRecord_only ((Only.refl _ s).mgmt (by simp) _) (by simp) (by simp)⟩
  case restart =>
    have idle := s.restartedIdle_endsQuietly
    have noRequest : s.restartedIdle.host.async = [] := idle.async
    have restarts : s.restartedIdle.mgmt.fw.restarts = s.mgmt.fw.restarts.satInc := by rw [idle.ends.fw]; rfl
    have undrained := idle.ends.undrained s.restarted_undrained
    have parts : Only [.host, .mgmt, .out] s s.restartedIdle := (State.restarted_only (.refl _ s) (by simp) (by simp)).trans (idle.ends.only.mono (by simp))
    have flown := State.restartedIdle_flown ho hq
    have run := execChandlerRestart_running hp
    by_cases ht : f.trial = true
    · rw [if_pos ht] at run
      refine ⟨_, run, (s.restartedIdle.reverted_ends _).restarted.trans idle.ends.restarted, ?_, State.reverted_undrained undrained _,
        State.reverted_async_nil noRequest _, fun q => ?_, fun q => ?_, fun _ => s.restartedIdle.reverted_fw _, fun h => absurd ht (by simp [h]),
        State.reverted_only parts (by simp) (by simp) (by simp) _⟩
      · rw [State.reverted_restarts, restarts]
      · rw [State.reverted_queue noRequest, (flown q).1]
      · rw [State.reverted_queue noRequest, (flown q).2]
    · rw [if_neg ht] at run
      refine ⟨_, run, idle.ends.restarted, restarts, undrained, noRequest, fun q => (flown q).1, fun q => (flown q).2, fun h => absurd h ht,
        fun _ => ?_, parts⟩
      rw [idle.ends.fw]
      rfl

end Sys2Proof
end

section
/-!
SUPPORT. Lists and vectors of the model: an element of an updated vector, updated lists, the least element, the first index.
-/
namespace Sys2Proof.Machine

set_option Elab.async false

theorem vget_eq_getElem {α : Type} {n : Nat} (v : Vector α n) (d : α) {i : Nat} (h : i < n) : vget v d i = v[i] := dif_pos h

theorem vget_vmod {α : Type} {n : Nat} (v : Vector α n) (d : α) (i : Nat) (f : α → α) (j : Nat) :
    vget (vmod v i f) d j = if j = i ∧ i < n then f (vget v d j) else vget v d j := by
  by_cases hi : i < n
  · by_cases hj : j < n
    · by_cases e : j = i
      · subst e; simp [vget, vmod, hj]
      · simp [vget, vmod, hi, hj, e, Vector.getElem_set_ne _ _ (Ne.symm e)]
    · simp [vget, hj]; omega
  · simp [vget, vmod, hi]

theorem updWhere_map {α β : Type} {p : α → Bool} {f : α → α} {g : α → β} (h : ∀ x, g (f x) = g x) (l : List α) :
    (updWhere p f l).map g = l.map g := by
  simp only [updWhere, List.map_map]
  refine List.map_congr_left fun x _ => ?_
  simp only [Function.comp_apply]
  split
  · exact h x
  · rfl

theorem mem_updWhere {α : Type} {p : α → Bool} {f : α → α} {l : List α} {y : α} :
    y ∈ updWhere p f l ↔ ∃ x ∈ l, (if p x then f x else x) = y := List.mem_map

/-- The least element of a list is in it, and no key is below its own. -/
theorem minBy_spec {α : Type} {key : α → Nat} {l : List α} {x : α} (h : minBy key l = some x) : x ∈ l ∧ ∀ y ∈ l, key x ≤ key y := by
  induction l generalizing x with
  | nil => cases h
  | cons a l ih =>
    unfold minBy at h
    split at h
    next none_ =>
      cases h
      rw [(minBy_eq_none_iff key l).mp none_]
      simp
    next y least =>
      obtain ⟨mem, le⟩ := ih least
      split at h
      next lt =>
        cases h
        refine ⟨List.mem_cons_of_mem _ mem, fun z hz => ?_⟩
        rcases List.mem_cons.mp hz with rfl | hz
        · omega
        · exact le z hz
      next ge =>
        cases h
        refine ⟨List.mem_cons_self, fun z hz => ?_⟩
        rcases List.mem_cons.mp hz with rfl | hz
        · exact Nat.le_refl _
        · have := le z hz
          omega

theorem firstIdx_some {α : Type} {p : α → Bool} {l : List α} {i : Nat} (h : firstIdx p l = some i) : ∃ x, l[i]? = some x ∧ p x = true := by
  obtain ⟨⟨x, k⟩, found, rfl⟩ := Option.map_eq_some_iff.mp h
  exact ⟨x, List.mk_mem_zipIdx_iff_getElem?.mp (List.mem_of_find?_eq_some found), List.find?_some (p := fun y : α × Nat => p y.1) found⟩

end Sys2Proof.Machine
end

section
/-!
SUPPORT. One camera context: reads after updates, and what an update of a context leaves alone.
-/
namespace Sys2Proof.Machine

set_option Elab.async false

theorem State.cam_mapCam (s : State) (k : Nat) (f : CamCtx → CamCtx) (j : Nat) :
    (s.mapCam k f).cam j = if j = k ∧ k < 48 then f (s.cam j) else s.cam j := vget_vmod _ _ _ _ _

@[simp] theorem State.cam_mapCam_fin (s : State) (i : Fin 48) (f : CamCtx → CamCtx) : (s.mapCam i.val f).cam i.val = f (s.cam i.val) :=
  State.cam_mapCam_same i.isLt f

theorem State.cam_mapCam_ne (s : State) {j k : Nat} (h : j ≠ k) (f : CamCtx → CamCtx) : (s.mapCam k f).cam j = s.cam j := by
  rw [State.cam_mapCam, if_neg (fun e => h e.1)]

theorem State.cam_of_cams_eq {s t : State} (h : t.cams = s.cams) (j : Nat) : t.cam j = s.cam j := by rw [State.cam, State.cam, h]

/-- A function of the contexts that an update of one keeps has the same values in all of them. -/
theorem State.keep_mapCam {α : Type} {π : CamCtx → α} (s : State) (k : Nat) {f : CamCtx → CamCtx} (h : ∀ c, π (f c) = π c) (j : Nat) :
    π ((s.mapCam k f).cam j) = π (s.cam j) := by
  rw [State.cam_mapCam]
  split
  · exact h _
  · rfl

theorem State.ctx_mapCam_map {α : Type} {π : CamCtx → α} (s : State) (k : Nat) {f : CamCtx → CamCtx} (h : ∀ c, π (f c) = π c) :
    (s.mapCam k f).cams.ctx.toList.map π = s.cams.ctx.toList.map π := by
  refine List.ext_getElem (by simp) fun n h1 h2 => ?_
  simp only [State.mapCam, State.mapCams_cams, vmod]
  split
  · simp only [List.getElem_map, Vector.getElem_toList, Vector.getElem_set]
    split
    next e => subst e; exact h _
    · rfl
  · rfl

end Sys2Proof.Machine

namespace Sys2Proof

set_option Elab.async false

open Machine

theorem Only.cams_eq {ps : List Part} {s t : State} (h : Only ps s t) (hc : Part.cams ∉ ps) : t.cams = s.cams := h.same .cams hc

theorem Only.mgmt_eq {ps : List Part} {s t : State} (h : Only ps s t) (hc : Part.mgmt ∉ ps) : t.mgmt = s.mgmt := h.same .mgmt hc

/-- An update of one context among the parts that may change. -/
theorem Only.mapCam {ps : List Part} {s t : State} (h : Only ps s t) (hc : Part.cams ∈ ps) (k : Nat) (f : CamCtx → CamCtx) :
    Only ps s (t.mapCam k f) := h.cams hc _

end Sys2Proof
end

section
/-!
SUPPORT. What camera events do beside their own context: the hooks of the other subsystems, completions, log entries and events keep the core of every
context, the slices, the tables of units and the state of pair operation.
-/
namespace Sys2Proof.Machine

set_option Elab.async false

/-- A context without what the hooks of the other subsystems, applies and sensor jobs change in it: rings and fields with their holders, policies,
applies with their writes and counters, the queues of control cells, and the plan. -/
def CamCtx.core (c : CamCtx) : CamCtx :=
  { c with
    taps := Vector.replicate 2 Ring.absent, outs := Vector.replicate 4 Ring.absent, statRing := Ring.absent, consumers := Vector.replicate 4 [],
    fieldRing := Vector.replicate 16 FieldSlot.empty, policies := Vector.replicate 2 none, bindNext := Vector.replicate 2 none,
    applies := [], applyNext := 0, newestTg := 0, writes := [], pipe := PipeSet.reset, pipeApply := 0, early := [], seq := 0, unacked := [],
    waiting := [], sensor := [], otherWrites := [], plan := none,
    cnt := { c.cnt with applies := 0, adjusted := 0, limitHits := 0, policyMissed := 0 } }

/-- The slices, the tables of units, the state of pair operation and the part itself stay as they are. -/
structure Outside (s t : State) : Prop where
  slices : t.cams.slices = s.cams.slices
  units : t.mgmt.units = s.mgmt.units
  pair : t.mgmt.pair.state = s.mgmt.pair.state
  dev : t.dev = s.dev

/-- Besides, the core of every context stays as it is. -/
structure Aside (s t : State) : Prop extends Outside s t where
  core : ∀ j, (t.cam j).core = (s.cam j).core

variable {s t u : State}

theorem Outside.refl (s : State) : Outside s s := ⟨rfl, rfl, rfl, rfl⟩

theorem Outside.trans (h : Outside s t) (k : Outside t u) : Outside s u :=
  ⟨k.slices.trans h.slices, k.units.trans h.units, k.pair.trans h.pair, k.dev.trans h.dev⟩

theorem Outside.foldl {α : Type} (f : State → α → State) (hf : ∀ t a, Outside s t → Outside s (f t a)) (l : List α) (h : Outside s t) :
    Outside s (l.foldl f t) :=
  List.foldlRecOn (motive := Outside s) l f h fun t h a _ => hf t a h

theorem Outside.ite {c : Prop} [Decidable c] (ht : Outside s t) (hu : Outside s u) : Outside s (if c then t else u) := by split <;> assumption

/-- An update that reaches neither the slices nor Chandler nor the part. -/
theorem Outside.other (h : Outside s t) (hs : u.cams.slices = t.cams.slices := by rfl) (hm : u.mgmt = t.mgmt := by rfl)
    (hd : u.dev = t.dev := by rfl) : Outside s u := h.trans ⟨hs, by rw [hm], by rw [hm], hd⟩

theorem Aside.refl (s : State) : Aside s s := ⟨.refl s, fun _ => rfl⟩

theorem Aside.trans (h : Aside s t) (k : Aside t u) : Aside s u :=
  ⟨h.toOutside.trans k.toOutside, fun j => (k.core j).trans (h.core j)⟩

theorem Aside.foldl {α : Type} (f : State → α → State) (hf : ∀ t a, Aside s t → Aside s (f t a)) (l : List α) (h : Aside s t) :
    Aside s (l.foldl f t) :=
  List.foldlRecOn (motive := Aside s) l f h fun t h a _ => hf t a h

theorem Aside.ite {c : Prop} [Decidable c] (ht : Aside s t) (hu : Aside s u) : Aside s (if c then t else u) := by split <;> assumption

theorem Aside.of_cams (h : Aside s t) (hc : u.cams = t.cams) (ho : Outside t u) : Aside s u :=
  h.trans ⟨ho, fun j => by rw [State.cam_of_cams_eq hc]⟩

/-- An update that reaches neither the cameras nor Chandler nor the part. -/
theorem Aside.other (h : Aside s t) (hc : u.cams = t.cams := by rfl) (hm : u.mgmt = t.mgmt := by rfl) (hd : u.dev = t.dev := by rfl) :
    Aside s u :=
  h.of_cams hc ((Outside.refl t).other (by rw [hc]) hm hd)

theorem Aside.mapCam (h : Aside s t) {k : Nat} {f : CamCtx → CamCtx} (hf : ∀ c, (f c).core = c.core := by exact fun _ => rfl) :
    Aside s (t.mapCam k f) :=
  h.trans ⟨⟨rfl, rfl, rfl, rfl⟩, t.keep_mapCam k hf⟩

theorem Aside.countCam (h : Aside s t) {k : Nat} {f : CamCounters → CamCounters}
    (hf : ∀ c : CamCtx, ({ c with cnt := f c.cnt } : CamCtx).core = c.core := by exact fun _ => rfl) : Aside s (t.countCam k f) := h.mapCam hf

/-- A function of a context that the core decides has the same values. -/
theorem Aside.keep {α : Type} {π : CamCtx → α} (h : Aside s t) (blind : ∀ c : CamCtx, π c.core = π c) (j : Nat) : π (t.cam j) = π (s.cam j) := by
  rw [← blind (t.cam j), h.core, blind]

/-! ### Logs, completions and events -/

theorem Outside.logError (h : Outside s t) (i : LogInfo) : Outside s (t.logError i) := h.trans ⟨rfl, rfl, rfl, rfl⟩

theorem Outside.logEvent (h : Outside s t) (i : LogInfo) : Outside s (t.logEvent i) := h.trans ⟨rfl, rfl, rfl, rfl⟩

theorem Outside.addOrphan (h : Outside s t) (q : Fin 64) (op cid : Half) (st : Status) (r0 r1 : Word) (lg : Bool) :
    Outside s (t.addOrphan q op cid st r0 r1 lg) := by
  unfold State.addOrphan
  dsimp only
  split
  · exact h.other
  · exact h.other.logError _

theorem Outside.finish (h : Outside s t) (r : CmdRef) (st : Status) (r0 r1 : Nat) (lg : Bool) : Outside s (t.finish r st r0 r1 lg) := by
  unfold State.finish
  dsimp only
  split
  · exact h.other.addOrphan ..
  · split
    · exact h
    · exact h.other

theorem Outside.finishOpt (h : Outside s t) (r : Option CmdRef) (st : Status) (r0 r1 : Nat) (lg : Bool) : Outside s (t.finishOpt r st r0 r1 lg) := by
  cases r with
  | none => exact h
  | some r => exact h.finish r st r0 r1 lg

theorem Outside.post (h : Outside s t) (ty : EvType) (d : Word) : Outside s (t.post ty d) := by
  unfold State.post
  split
  · exact h.other
  · split
    · exact h.other.finish ..
    · split <;> exact h.other

theorem Outside.logErrorPost (h : Outside s t) (i : LogInfo) : Outside s (t.logErrorPost i) := (h.logError i).post ..

@[simp] theorem State.finish_cams (s : State) (r : CmdRef) (st : Status) (r0 r1 : Nat) (lg : Bool) : (s.finish r st r0 r1 lg).cams = s.cams :=
  (Ends.finish s r st r0 r1 lg).only.cams_eq (by simp)

@[simp] theorem State.finishOpt_cams (s : State) (r : Option CmdRef) (st : Status) (r0 r1 : Nat) (lg : Bool) :
    (s.finishOpt r st r0 r1 lg).cams = s.cams := by
  cases r with
  | none => rfl
  | some r => exact s.finish_cams r st r0 r1 lg

@[simp] theorem State.post_cams (s : State) (ty : EvType) (d : Word) : (s.post ty d).cams = s.cams := (Ends.post s ty d).only.cams_eq (by simp)

@[simp] theorem State.keepInFlight_cams (s : State) (r : CmdRef) : (s.keepInFlight r).cams = s.cams :=
  (Ends.keepInFlight s r).only.cams_eq (by simp)

theorem Aside.logError (h : Aside s t) (i : LogInfo) : Aside s (t.logError i) := h.of_cams rfl ((Outside.refl t).logError i)

theorem Aside.logEvent (h : Aside s t) (i : LogInfo) : Aside s (t.logEvent i) := h.of_cams rfl ((Outside.refl t).logEvent i)

theorem Aside.finish (h : Aside s t) (r : CmdRef) (st : Status) (r0 r1 : Nat) (lg : Bool) : Aside s (t.finish r st r0 r1 lg) :=
  h.of_cams (t.finish_cams r st r0 r1 lg) ((Outside.refl t).finish r st r0 r1 lg)

theorem Aside.finishOpt (h : Aside s t) (r : Option CmdRef) (st : Status) (r0 r1 : Nat) (lg : Bool) : Aside s (t.finishOpt r st r0 r1 lg) :=
  h.of_cams (t.finishOpt_cams r st r0 r1 lg) ((Outside.refl t).finishOpt r st r0 r1 lg)

theorem Aside.post (h : Aside s t) (ty : EvType) (d : Word) : Aside s (t.post ty d) := h.of_cams (t.post_cams ty d) ((Outside.refl t).post ty d)

theorem Aside.logErrorPost (h : Aside s t) (i : LogInfo) : Aside s (t.logErrorPost i) := (h.logError i).post ..

theorem Aside.keepInFlight (h : Aside s t) (r : CmdRef) : Aside s (t.keepInFlight r) := by
  unfold State.keepInFlight
  exact .ite h (h.other)

/-! ### Control cells -/

theorem Aside.emitCtrl (h : Aside s t) (k : Nat) (x : CtrlCell) : Aside s (t.emitCtrl k x) := by
  unfold State.emitCtrl
  split
  · exact h.other
  · split
    · exact h.other
    · exact h

theorem Aside.queueCtrl (h : Aside s t) (k : Nat) (x : CtrlCell) : Aside s (t.queueCtrl k x) := by
  unfold State.queueCtrl
  exact .ite (h.mapCam.emitCtrl ..) (h.mapCam)

theorem Aside.sendCtrl (h : Aside s t) (k op flags when_ arg : Nat) (es : List Byte) (why : CtrlWhy) :
    Aside s (t.sendCtrl k op flags when_ arg es why) := h.queueCtrl ..

theorem Aside.dropCtrl (h : Aside s t) (k seq : Nat) : Aside s (t.dropCtrl k seq) := by
  have dropped : Aside s (t.mapCam k (fun c => { c with unacked := c.unacked.filter (fun x => x.seq != seq) })) := h.mapCam
  unfold State.dropCtrl
  dsimp only
  split
  · exact dropped
  · exact .ite ((dropped.mapCam).emitCtrl ..) dropped

theorem Aside.dropWaiting (h : Aside s t) (k : Nat) (p : CtrlWhy → Bool) : Aside s (t.dropWaiting k p) := h.mapCam

/-! ### Applies and sensor jobs -/

theorem Aside.endApply (h : Aside s t) (k : Nat) (a : Apply) (st : Status) (r0 r1 : Nat) (lg : Bool) : Aside s (t.endApply k a st r0 r1 lg) := by
  unfold State.endApply
  dsimp only
  split
  · exact Aside.finish (h.mapCam.countCam) ..
  · exact h.mapCam.countCam

theorem Aside.dropApplies (h : Aside s t) (k : Nat) (p : Apply → Bool) : Aside s (t.dropApplies k p) := .foldl _ (fun _ _ h => h.endApply ..) _ h

theorem Aside.endJob (h : Aside s t) (k : Nat) (r : CmdRef) (st : Status) (r0 r1 : Nat) (lg : Bool) : Aside s (t.endJob k r st r0 r1 lg) :=
  Aside.finish (Aside.dropWaiting (h.mapCam) ..) ..

theorem Aside.sendApply (h : Aside s t) (k : Nat) (a : Apply) : Aside s (t.sendApply k a) :=
  .foldl _ (fun _ _ h => Aside.sendCtrl (h.mapCam) ..) _ h

theorem Aside.issueApply (h : Aside s t) (k : Nat) (b : Option CmdRef) (blk : List Byte) (target limited : Nat) (late atStart : Bool) :
    Aside s (t.issueApply k b blk target limited late atStart) := by
  unfold State.issueApply
  exact .ite (h.mapCam) (Aside.sendApply (h.mapCam) ..)

theorem Aside.landApplies (h : Aside s t) (k f : Nat) : Aside s (t.landApplies k f) :=
  .foldl _ (fun _ _ h => Aside.endApply (h.countCam) ..) _ h

theorem Aside.latchAt (h : Aside s t) (k fn : Nat) : Aside s (t.latchAt k fn).1 := by
  unfold State.latchAt
  dsimp only
  split
  · exact h.mapCam
  · exact (h.landApplies k fn).mapCam

theorem Aside.latchBefore (h : Aside s t) (k fn : Nat) : Aside s (t.latchBefore k fn) :=
  .foldl _ (fun _ _ h => Aside.mapCam (h.latchAt ..)) _ h

end Sys2Proof.Machine
end

section
/-!
SUPPORT. Checks of a command that pass, and CAM_CONFIGURE of a free context (R70, R73, R95).
-/
namespace Sys2Proof.Machine

set_option Elab.async false

variable {s t : State} {c : Cmd}

@[simp] theorem ok_bind {α β : Type} (x : α) (k : α → Chk β) : ((.ok x : Chk α) >>= k) = k x := rfl

theorem needFields_of_firstBad {l : List (Nat × Bool)} (h : firstBad l = none) : needFields l = .ok () := by
  unfold needFields
  rw [h]

theorem needBuffer_of_buffer {h : Handle} {b : Buffer} (ht : typeOf h = 1) (hb : s.buffer h = some b) (place : Nat) :
    needBuffer s h place = .ok b := by
  unfold needBuffer
  rw [if_pos ht, hb]
  rfl

theorem needCam_of_find {h : Handle} {k : Nat} (hf : s.cams.find h = some k) : needCam s h = .ok k := by
  unfold needCam
  rw [hf]
  rfl

/-- The context that CAM_CONFIGURE makes of an idle one (R70, R73). -/
def CamCtx.configured (x : CamCtx) (h : Handle) (p : List Byte) (b : Buffer) (buf : Handle) : CamCtx :=
  { CamCtx.idle x.run with
    seq := x.seq, state := .configured, handle := h, next := ParamSet.default p, last := ParamSet.default p,
    profile := p, degrade := 1, queueBase := b.base, queueLen := pfQueueBytes p, queueBuf := buf, limits := limitsDefault p, bound := false }

variable {i : Fin 48} (ha : Accepted .camConfigure c s) (h0 : c.handle = 0) (hi : par c 0 = i.val) (hr : s.reservedBy i.val = none)
include ha h0 hi hr

theorem execCamConfigure_taken (hx : (s.cam i.val).state ≠ .idle) :
    execCamConfigure c s = .next (s.complete (ref .camConfigure c) .conflict (s.cam i.val).handle.toNat (0x200 + i.val) false) := by
  unfold execCamConfigure
  refine runCmd_refuses (f := conflict (s.cam i.val).handle (0x200 + i.val)) ha (by simp) ?_ rfl
  have bound : Nat.blt i.val 48 = true := by simp [Nat.blt_eq]
  have idle : ((s.cam i.val).state == .idle) = false := by simpa using hx
  simp only [needPar0, h0, hi, hr, idle, bound, BEq.rfl, Bool.true_or, need_bind_true, if_true, ok_bind, need_bind_false]

/-- CAM_CONFIGURE of an idle context whose checks hold (R70, R73, R95). -/
theorem execCamConfigure_idle {p : List Byte} {b : Buffer} {span : Nat} (hx : (s.cam i.val).state = .idle) (hp : structBytes s c = .ok p)
    (fields : firstBad (profileFields p) = none) (relations : firstBad (profileRelations p) = none) (limit : firstBad (profileLimit p) = none)
    (ht : typeOf c.aux = 1) (hb : s.buffer c.aux = some b) (room : pfQueueBytes p ≤ b.size) (port : s.portHolder (pfSource p) i.val = none)
    (fits : s.admitRate p (some i.val) 1 = .inl span) :
    execCamConfigure c s =
      .next (((s.mapCam i.val (fun _ => (s.cam i.val).configured (s.nextHandle 2) p b c.aux)).issue 2).complete (ref .camConfigure c) .ok
        (s.nextHandle 2).toNat (pfQueueBytes p) false) := by
  unfold execCamConfigure
  refine runCmd_done ha ?_
  have bound : Nat.blt i.val 48 = true := by simp [Nat.blt_eq]
  have idle : ((s.cam i.val).state == .idle) = true := by simp [hx]
  have enough : decide (pfQueueBytes p ≤ b.size) = true := by simpa using room
  simp only [needPar0, h0, hi, hr, idle, bound, enough, BEq.rfl, Bool.true_or, need_bind_true, if_true, ok_bind, hp, needFields_of_firstBad fields,
    needFields_of_firstBad relations, needFields_of_firstBad limit, needBuffer_of_buffer ht hb, port, fits]
  rfl

omit ha h0 hi hr in
/-- What CAM_CONFIGURE makes of a state, but for its completion. -/
theorem only_configured (s : State) (k : Nat) (f : CamCtx → CamCtx) (ty : Nat) : Only [.cams, .issued] s ((s.mapCam k f).issue ty) :=
  ((Only.refl _ s).mapCam (by simp) k f).issued (by simp) _

end Sys2Proof.Machine
end

section
/-!
SUPPORT. The frame of the operations on a context: control cells, applies and sensor jobs that end, trigger plans.
-/
namespace Sys2Proof.Machine

set_option Elab.async false

variable {s t : State} {ps : List Part}

theorem State.emitCtrl_only (h : Only ps s t) (hs : [.lanes, .out] ⊆ ps) (k : Nat) (x : CtrlCell) : Only ps s (t.emitCtrl k x) := by
  unfold State.emitCtrl
  split
  · exact (h.lanes (hs (by simp)) _).out (hs (by simp)) _
  · split
    · exact h.out (hs (by simp)) _
    · exact h

theorem State.queueCtrl_only (h : Only ps s t) (hs : [.cams, .lanes, .out] ⊆ ps) (k : Nat) (x : CtrlCell) : Only ps s (t.queueCtrl k x) := by
  unfold State.queueCtrl
  exact .ite (State.emitCtrl_only (h.mapCam (hs (by simp)) ..) (fun _ hp => hs (List.mem_cons_of_mem _ hp)) ..) (h.mapCam (hs (by simp)) ..)

theorem State.sendCtrl_only (h : Only ps s t) (hs : [.cams, .lanes, .out] ⊆ ps) (k op flags when_ arg : Nat) (es : List Byte) (why : CtrlWhy) :
    Only ps s (t.sendCtrl k op flags when_ arg es why) := State.queueCtrl_only h hs ..

theorem State.dropCtrl_only (h : Only ps s t) (hs : [.cams, .lanes, .out] ⊆ ps) (k seq : Nat) : Only ps s (t.dropCtrl k seq) := by
  have hc := hs (a := .cams) (by simp)
  unfold State.dropCtrl
  dsimp only
  split
  · exact h.mapCam hc ..
  · exact .ite (State.emitCtrl_only ((h.mapCam hc ..).mapCam hc ..) (fun _ hp => hs (List.mem_cons_of_mem _ hp)) ..) (h.mapCam hc ..)

theorem State.endJob_only (h : Only ps s t) (hs : [.host, .mgmt, .cams] ⊆ ps) (k : Nat) (r : CmdRef) (st : Status) (r0 r1 : Nat) (lg : Bool) :
    Only ps s (t.endJob k r st r0 r1 lg) :=
  State.finish_only ((h.mapCam (hs (by simp)) ..).mapCam (hs (by simp)) ..) (hs (by simp)) (hs (by simp)) ..

theorem State.startFails_only (h : Only ps s t) (hs : [.host, .mgmt, .cams] ⊆ ps) (k : Nat) (st : Status) (r0 r1 : Nat) (lg : Bool) :
    Only ps s (t.startFails k st r0 r1 lg) := by
  have hc := hs (a := .cams) (by simp)
  unfold State.startFails
  dsimp only
  split
  · exact h
  · exact State.finishOpt_only (Only.foldl _ (fun _ _ h => State.endJob_only h hs ..) _ _ ((h.mapCam hc ..).mapCam hc ..)) (hs (by simp)) (hs (by simp)) ..

theorem State.dropPin_only (h : Only ps s t) (hs : [.time, .out] ⊆ ps) (x : CompareUnit) : Only ps s (t.dropPin x) := by
  unfold State.dropPin
  split
  · exact .ite (h.time (hs (by simp)) _) ((h.time (hs (by simp)) _).out (hs (by simp)) _)
  · exact (h.time (hs (by simp)) _).out (hs (by simp)) _

theorem State.releaseCompare_only (h : Only ps s t) (hs : [.time, .out] ⊆ ps) (u : Nat) : Only ps s (t.releaseCompare u) := by
  unfold State.releaseCompare
  split
  · exact h
  · exact .ite ((State.dropPin_only h hs _).time (hs (by simp)) _) ((State.dropPin_only h hs _).time (hs (by simp)) _)

theorem State.cutUnit_only (h : Only ps s t) (hs : [.time, .out] ⊆ ps) (u start stop : Nat) : Only ps s (t.cutUnit u start stop) := by
  unfold State.cutUnit
  split
  · exact h
  · exact .ite (State.releaseCompare_only h hs _) ((h.time (hs (by simp)) _).time (hs (by simp)) _)

theorem State.armPlan_only (h : Only ps s t) (ht : Part.time ∈ ps) (k : Nat) (p : TrigPlan) : Only ps s (t.armPlan k p) := by
  unfold State.armPlan
  split
  · exact h.time ht _
  · exact h

theorem State.beginPlan_only (h : Only ps s t) (hs : [.cams, .time] ⊆ ps) (k d : Nat) : Only ps s (t.beginPlan k d) := by
  unfold State.beginPlan
  split
  · exact h
  · exact State.armPlan_only (h.mapCam (hs (by simp)) ..) (hs (by simp)) ..

theorem State.cutPlan_only (h : Only ps s t) (hs : [.cams, .lanes, .time, .out] ⊆ ps) (k : Nat) : Only ps s (t.cutPlan k) := by
  have cut (p : TrigPlan) {u : State} (h : Only ps s u) (start stop : Nat) :
      Only ps s (match p.unit with | some n => u.cutUnit n start stop | none => u) := by
    split
    · exact State.cutUnit_only h (by grind) ..
    · exact h
  unfold State.cutPlan
  split
  · exact h
  · exact .ite (State.sendCtrl_only (cut _ (h.mapCam (hs (by simp)) ..) ..) (by grind) ..) (cut _ (h.mapCam (hs (by simp)) ..) ..)

end Sys2Proof.Machine
end

section
/-!
SUPPORT. What the operations on a context keep of it: cut and begun plans, failed starts, ended sensor jobs, and the settling of the engines.
-/
namespace Sys2Proof.Machine

set_option Elab.async false

variable {s t : State} {α : Type} {π : CamCtx → α}

@[simp] theorem State.armPlan_cams (s : State) (k : Nat) (p : TrigPlan) : (s.armPlan k p).cams = s.cams :=
  (State.armPlan_only (.refl [.time] s) (by simp) k p).cams_eq (by simp)

@[simp] theorem State.cutUnit_cams (s : State) (u start stop : Nat) : (s.cutUnit u start stop).cams = s.cams :=
  (State.cutUnit_only (.refl [.time, .out] s) (by simp) u start stop).cams_eq (by simp)

theorem Aside.armPlan (h : Aside s t) (k : Nat) (p : TrigPlan) : Aside s (t.armPlan k p) := by
  unfold State.armPlan
  split <;> exact h.other

theorem Aside.beginPlan (h : Aside s t) (k d : Nat) : Aside s (t.beginPlan k d) := by
  unfold State.beginPlan
  split
  · exact h
  · exact h.mapCam.armPlan ..

theorem Aside.dropPin (h : Aside s t) (x : CompareUnit) : Aside s (t.dropPin x) := by
  unfold State.dropPin
  split
  · exact .ite h.other h.other
  · exact h.other

theorem Aside.releaseCompare (h : Aside s t) (u : Nat) : Aside s (t.releaseCompare u) := by
  unfold State.releaseCompare
  split
  · exact h
  · exact .ite (h.dropPin _).other (h.dropPin _).other

theorem Aside.cutUnit (h : Aside s t) (u start stop : Nat) : Aside s (t.cutUnit u start stop) := by
  unfold State.cutUnit
  split
  · exact h
  · exact .ite (h.releaseCompare _) h.other

theorem State.keep_beginPlan (blind : ∀ c : CamCtx, π c.core = π c) (s : State) (k d j : Nat) : π ((s.beginPlan k d).cam j) = π (s.cam j) :=
  ((Aside.refl s).beginPlan k d).keep blind j

/-! ### Cells of a context -/

@[simp] theorem State.emitCtrl_cams (s : State) (k : Nat) (x : CtrlCell) : (s.emitCtrl k x).cams = s.cams :=
  (State.emitCtrl_only (.refl [.lanes, .out] s) (by simp) k x).cams_eq (by simp)

@[simp] theorem State.emitCtrl_cam (s : State) (k : Nat) (x : CtrlCell) (j : Nat) : (s.emitCtrl k x).cam j = s.cam j :=
  State.cam_of_cams_eq (s.emitCtrl_cams k x) j

section
variable (hπ : ∀ (c : CamCtx) q us ws, π { c with seq := q, unacked := us, waiting := ws } = π c)
include hπ

/-- What does not depend on the cells of a context outlives a cell that is sent. -/
theorem State.keep_sendCtrl (s : State) (k op flags when_ arg : Nat) (es : List Byte) (why : CtrlWhy) (j : Nat) :
    π ((s.sendCtrl k op flags when_ arg es why).cam j) = π (s.cam j) := by
  unfold State.sendCtrl State.queueCtrl
  dsimp only
  split
  · rw [State.emitCtrl_cam]
    exact s.keep_mapCam k (fun c => hπ c _ _ _) j
  · exact s.keep_mapCam k (fun c => hπ c _ _ _) j

/-- What does not depend on the cells of a context outlives a cell that has its answer. -/
theorem State.keep_dropCtrl (s : State) (k seq j : Nat) : π ((s.dropCtrl k seq).cam j) = π (s.cam j) := by
  have dropped : π ((s.mapCam k (fun c => { c with unacked := c.unacked.filter (fun x => x.seq != seq) })).cam j) = π (s.cam j) :=
    s.keep_mapCam k (fun c => hπ c _ _ _) j
  unfold State.dropCtrl
  dsimp only
  split
  · exact dropped
  · split
    · rw [State.emitCtrl_cam]
      exact (State.keep_mapCam _ k (fun c => hπ c _ _ _) j).trans dropped
    · exact dropped

end

/-! ### Plans -/

theorem State.cutPlan_of_plan_none {k : Nat} (h : (s.cam k).plan = none) : s.cutPlan k = s := by
  unfold State.cutPlan
  rw [h]

/-- The triggers that the cut of a plan at an index leaves (R72, R103). -/
def TrigPlan.cutTriggers (p : TrigPlan) (stop now : Nat) (ts : List Trigger) : List Trigger :=
  ts.filter (fun x => x.fn.isSome || x.time < now + 1000000) ++
    (List.range (stop - p.sent)).map (fun i => { index := p.sent + i, time := p.time (p.sent + i), period := p.period, fn := none, sent := false })

/-- Cutting a plan takes it from its context with some of the triggers, and may send the hub one cell. -/
theorem State.cutPlan_cases {k : Nat} {p : TrigPlan} (h : (s.cam k).plan = some p) :
    ∃ (u : State) (stop : Nat), u.cams = (s.mapCam k (fun c => { c with plan := none, triggers := p.cutTriggers stop s.ns c.triggers })).cams ∧
      (s.cutPlan k = u ∨ ∃ n, s.cutPlan k = u.sendCtrl k 0x04 0 0 n [] .cancel) := by
  have cut (o : Option Nat) (u : State) (start stop : Nat) : (match o with | some n => u.cutUnit n start stop | none => u).cams = u.cams := by
    split
    · exact State.cutUnit_cams ..
    · rfl
  unfold State.cutPlan
  rw [h]
  dsimp only
  generalize (if p.held = true then p.start else p.cutAt s.ns) = stop
  split
  · exact ⟨_, stop, cut .., .inr ⟨_, rfl⟩⟩
  · exact ⟨_, stop, cut .., .inl rfl⟩

/-- What depends neither on a context's plan and triggers nor on its cells outlives the cut of a plan. -/
theorem State.keep_cutPlan (hπ : ∀ (c : CamCtx) q us ws, π { c with seq := q, unacked := us, waiting := ws } = π c)
    (ht : ∀ (c : CamCtx) p ts, π { c with plan := p, triggers := ts } = π c) (s : State) (k j : Nat) :
    π ((s.cutPlan k).cam j) = π (s.cam j) := by
  cases h : (s.cam k).plan with
  | none => rw [State.cutPlan_of_plan_none h]
  | some p =>
    obtain ⟨u, stop, cams, e⟩ := State.cutPlan_cases h
    have kept : π (u.cam j) = π (s.cam j) := by
      rw [State.cam_of_cams_eq cams]
      exact s.keep_mapCam k (fun c => ht c _ _) j
    rcases e with e | ⟨n, e⟩ <;> rw [e]
    · exact kept
    · exact (State.keep_sendCtrl hπ ..).trans kept

theorem State.cutPlan_plan (s : State) (i : Fin 48) : ((s.cutPlan i.val).cam i.val).plan = none := by
  cases h : (s.cam i.val).plan with
  | none => rw [State.cutPlan_of_plan_none h, h]
  | some p =>
    obtain ⟨u, stop, cams, e⟩ := State.cutPlan_cases h
    have planless : (u.cam i.val).plan = none := by rw [State.cam_of_cams_eq cams, State.cam_mapCam_fin]
    rcases e with e | ⟨n, e⟩ <;> rw [e]
    · exact planless
    · exact (State.keep_sendCtrl (π := CamCtx.plan) (fun _ _ _ _ => rfl) ..).trans planless

/-! ### Sensor jobs and starts -/

theorem State.endJob_sensor (s : State) (i : Fin 48) (r : CmdRef) (st : Status) (r0 r1 : Nat) (lg : Bool) :
    ((s.endJob i.val r st r0 r1 lg).cam i.val).sensor = (s.cam i.val).sensor.filter (fun j => j.by_ != r) := by
  rw [State.endJob, State.cam_of_cams_eq (State.finish_cams ..), State.dropWaiting, State.cam_mapCam_fin, State.cam_mapCam_fin]

/-- Jobs that end leave the list of their context. -/
theorem State.endJobs_sensor (i : Fin 48) (js : List SensorJob) (f : State → SensorJob → State)
    (hf : ∀ u (j : SensorJob), ((f u j).cam i.val).sensor = (u.cam i.val).sensor.filter (fun x => x.by_ != j.by_)) (s : State) :
    ∀ x ∈ ((js.foldl f s).cam i.val).sensor, x ∈ (s.cam i.val).sensor ∧ ∀ j ∈ js, x.by_ ≠ j.by_ := by
  induction js generalizing s with
  | nil => exact fun x hx => ⟨hx, by simp⟩
  | cons j js ih =>
    intro x hx
    obtain ⟨mem, rest⟩ := ih (f s j) x hx
    rw [hf, List.mem_filter] at mem
    exact ⟨mem.1, List.forall_mem_cons.mpr ⟨by simpa using mem.2, rest⟩⟩

/-- A start that fails leaves the core of every context but for the mark of the start. -/
theorem Aside.startFails (s : State) (k : Nat) (st : Status) (r0 r1 : Nat) (lg : Bool) :
    Aside (s.mapCam k (fun c => { c with starting := none })) (s.startFails k st r0 r1 lg) := by
  unfold State.startFails
  dsimp only
  split
  next none_ =>
    refine ⟨⟨rfl, rfl, rfl, rfl⟩, fun j => ?_⟩
    rw [State.cam_mapCam]
    split
    next hj =>
      rw [hj.1]
      exact congrArg (fun x => ({ s.cam k with starting := x } : CamCtx).core) none_
    · rfl
  next r some_ =>
    refine Aside.finishOpt (Aside.foldl _ (fun _ _ h => h.endJob ..) _ (Aside.dropWaiting ?_ ..)) ..
    refine ⟨⟨rfl, rfl, rfl, rfl⟩, fun j => ?_⟩
    rw [State.cam_mapCam, State.cam_mapCam]
    split <;> rfl

/-- What depends neither on the core's blind spots nor on the mark of a start outlives a start that fails. -/
theorem State.keep_startFails (blind : ∀ c : CamCtx, π c.core = π c) (hs : ∀ (c : CamCtx) x, π { c with starting := x } = π c) (s : State)
    (k : Nat) (st : Status) (r0 r1 : Nat) (lg : Bool) (j : Nat) : π ((s.startFails k st r0 r1 lg).cam j) = π (s.cam j) :=
  ((Aside.startFails s k st r0 r1 lg).keep blind j).trans (s.keep_mapCam k (fun c => hs c _) j)

theorem State.startFails_starting (s : State) (i : Fin 48) (st : Status) (r0 r1 : Nat) (lg : Bool) :
    ((s.startFails i.val st r0 r1 lg).cam i.val).starting = none := by
  rw [(Aside.startFails s i.val st r0 r1 lg).keep (π := CamCtx.starting) (fun _ => rfl), State.cam_mapCam_fin]

/-! ### The end of a context -/

theorem Aside.mapJm (h : Aside s t) (f : JmSt → JmSt) : Aside s (t.mapJm f) := h.other

theorem Aside.jmSettle (h : Aside s t) : Aside s t.jmSettle := by
  have ended (o : Option CmdRef) {u : State} (h : Aside s u) (st : Status) (r0 : Nat) :
      Aside s (match o with | some r => u.finish r st r0 0 false | none => u) := by
    split
    · exact h.finish ..
    · exact h
  unfold State.jmSettle
  exact .foldl _ (fun _ _ h => ended _ h ..) _ (Aside.mapJm (.foldl _ (fun _ _ h => ended _ h ..) _ (h.mapJm _)) _)

theorem State.releaseCtx_state (s : State) (i : Fin 48) :
    ((s.releaseCtx i.val).cam i.val).state = .idle ∧ ((s.releaseCtx i.val).cam i.val).run = (s.cam i.val).run := by
  have ended : Aside s ((s.cam i.val).sensor.foldl (fun u j => u.endJob i.val j.by_ .notReady 0x01 0 false) (s.dropApplies i.val (fun _ => true))) :=
    .foldl _ (fun _ _ h => h.endJob ..) _ ((Aside.refl s).dropApplies ..)
  unfold State.releaseCtx
  dsimp only
  rw [State.cam_mapCam_fin]
  exact ⟨rfl, ended.keep (π := CamCtx.run) (fun _ => rfl) i.val⟩

end Sys2Proof.Machine
end

section
/-!
SUPPORT. The start of a run (R71, R95): admission leaves a context's own rate out, and a run that fits begins.
-/
namespace Sys2Proof.Machine

set_option Elab.async false

variable {s t : State} {i : Fin 48}

theorem filter_zipIdx_set_own {α : Type} (p : α → Bool) (l : List α) (y : α) (k n : Nat) :
    ((l.set k y).zipIdx n).filter (fun c => p c.1 && some c.2 != some (n + k)) = (l.zipIdx n).filter (fun c => p c.1 && some c.2 != some (n + k)) := by
  induction l generalizing k n with
  | nil => rfl
  | cons a l ih =>
    cases k with
    | zero => simp
    | succ k =>
      have shift : n + (k + 1) = n + 1 + k := by omega
      simp only [List.set_cons_succ, List.zipIdx_cons, List.filter_cons, shift, ih]

theorem CamsSt.admitted_own (x : CamsSt) (k : Nat) (f : CamCtx → CamCtx) : ({ x with ctx := vmod x.ctx k f }).admitted (some k) = x.admitted (some k) := by
  unfold CamsSt.admitted vmod
  split
  · have same := filter_zipIdx_set_own (fun c : CamCtx => c.state.counted) x.ctx.toList (f x.ctx[k]) k 0
    rw [Nat.zero_add] at same
    rw [Vector.toList_set, same]
  · rfl

/-- Admission of a context's own profile does not depend on the context (R95). -/
theorem State.admitRate_mapCam (s : State) (p : List Byte) (k : Nat) (f : CamCtx → CamCtx) (n : Nat) :
    (s.mapCam k f).admitRate p (some k) n = s.admitRate p (some k) n := by
  have others : (s.mapCam k f).cams.admitted (some k) = s.cams.admitted (some k) := CamsSt.admitted_own ..
  unfold State.admitRate
  rw [others]
  rfl

theorem State.admitRate_keepInFlight (s : State) (r : CmdRef) (p : List Byte) (own : Option Nat) (n : Nat) :
    (s.keepInFlight r).admitRate p own n = s.admitRate p own n := by
  unfold State.keepInFlight
  split <;> rfl

/-- The fields of a context that say how its run goes. -/
def CamCtx.runFields (c : CamCtx) : CamState × Nat × Nat × List CamFrame := (c.state, c.run, c.fnNext, c.frames)

theorem State.missedTriggers_only {ps : List Part} (h : Only ps s t) (hc : Part.cams ∈ ps) (k : Nat) : Only ps s (t.missedTriggers k) := h.mapCam hc ..

theorem State.keep_missedTriggers {α : Type} {π : CamCtx → α} (hπ : ∀ (c : CamCtx) x ts, π { c with takeFn := x, triggers := ts } = π c) (s : State)
    (k j : Nat) : π ((s.missedTriggers k).cam j) = π (s.cam j) := by
  refine s.keep_mapCam k (fun c => ?_) j
  split
  · exact hπ c ..
  · exact hπ c none c.triggers

theorem State.beginPlan_cam_ne (s : State) {j k : Nat} (h : j ≠ k) (d : Nat) : (s.beginPlan k d).cam j = s.cam j := by
  unfold State.beginPlan
  split
  · rfl
  · rw [State.cam_of_cams_eq (State.armPlan_cams ..), State.cam_mapCam_ne _ h]

/-- A start whose context fits begins its run (R71, R95). -/
theorem State.startRun_fits (s : State) (i : Fin 48) (r : CmdRef) {span : Nat}
    (fits : s.admitRate (s.cam i.val).profile (some i.val) (s.cam i.val).degrade = .inl span) :
    ∃ u : State, s.startRun i.val (some r) = u.finish r .ok (nextEpoch (s.cam i.val).run) span false ∧
      (u.cam i.val).runFields = (.running, nextEpoch (s.cam i.val).run, ((s.cam i.val).takeFn.map (·.1)).getD 0, []) ∧
      (∀ j : Fin 48, j ≠ i → u.cam j.val = s.cam j.val) ∧ Only [.cams, .time] s u := by
  unfold State.startRun
  dsimp only
  rw [fits]
  refine ⟨_, rfl, ?_, fun j hj => ?_, State.missedTriggers_only (State.beginPlan_only ((Only.refl _ s).mapCam (by simp) ..) (by simp) ..) (by simp) _⟩
  · rw [State.keep_missedTriggers (π := CamCtx.runFields) (fun _ _ _ => rfl), State.keep_beginPlan (π := CamCtx.runFields) (fun _ => rfl), State.cam_mapCam_fin]
    rfl
  · have ne : j.val ≠ i.val := Fin.val_ne_of_ne hj
    rw [State.missedTriggers, State.cam_mapCam_ne _ ne, State.beginPlan_cam_ne _ ne, State.cam_mapCam_ne _ ne]

theorem State.dropApplies_of_nil {k : Nat} (h : (s.cam k).applies = []) (p : Apply → Bool) : s.dropApplies k p = s := by
  unfold State.dropApplies
  rw [h]
  rfl

/-- With nothing staged for FN 0 the run begins at once. -/
theorem State.afterBind_of_nil (h : (s.cam i.val).applies = []) (r : Option CmdRef) :
    s.afterBind i.val r = (s.mapCam i.val (fun c => { c with writes := [] })).startRun i.val r := by
  unfold State.afterBind
  rw [State.dropApplies_of_nil h]
  simp only [State.cam_mapCam_fin, h]
  rfl

/-! ### CAM_START -/

section
variable {c : Cmd} {span : Nat} (ha : Accepted .camStart c s) (hf : s.cams.find c.handle = some i.val) (h0 : (s.cam i.val).starting = none)
  (hx : (s.cam i.val).state = .configured ∨ (s.cam i.val).state = .suspended)
  (fits : s.admitRate (s.cam i.val).profile (some i.val) (s.cam i.val).degrade = .inl span)

/-- The state in which a start waits. -/
def State.startWaits (s : State) (k : Nat) (r : CmdRef) : State := s.mapCam k (fun y => { y with starting := some (some r), startNs := s.ns })

include ha hf h0 hx fits

theorem execCamStart_eq :
    execCamStart c s =
      .next (if pfOzoth (s.cam i.val).profile then ((s.startWaits i.val (ref .camStart c)).keepInFlight (ref .camStart c)).sendBind i.val .bindStart
        else ((s.startWaits i.val (ref .camStart c)).keepInFlight (ref .camStart c)).afterBind i.val (some (ref .camStart c))) := by
  have ready : ((s.cam i.val).state == .configured || (s.cam i.val).state == .suspended) = true := by simpa using hx
  unfold execCamStart
  refine runCmd_waits ha ?_
  simp only [needCam_of_find hf, ok_bind, h0, Option.isNone_none, need_bind_true, ready, fits]
  split <;> rfl

/-- A start on a parallel port with nothing staged begins its run at once. -/
theorem execCamStart_parallel (hp : pfOzoth (s.cam i.val).profile = false) (hn : (s.cam i.val).applies = []) :
    ∃ u : State, execCamStart c s = .next (u.finish (ref .camStart c) .ok (nextEpoch (s.cam i.val).run) span false) ∧
      (u.cam i.val).runFields = (.running, nextEpoch (s.cam i.val).run, ((s.cam i.val).takeFn.map (·.1)).getD 0, []) ∧
      (∀ j : Fin 48, j ≠ i → u.cam j.val = s.cam j.val) ∧ Only [.host, .cams, .time] s u := by
  rw [execCamStart_eq ha hf h0 hx fits, hp, if_neg (by simp)]
  generalize ref .camStart c = r
  have waits (j : Nat) : ((s.startWaits i.val r).keepInFlight r).cam j = (s.startWaits i.val r).cam j :=
    State.cam_of_cams_eq (State.keepInFlight_cams ..) j
  have own : ((s.startWaits i.val r).keepInFlight r).cam i.val = { s.cam i.val with starting := some (some r), startNs := s.ns } := by
    rw [waits, State.startWaits, State.cam_mapCam_fin]
  rw [State.afterBind_of_nil (by rw [own]; exact hn)]
  obtain ⟨u, e, run, others, only⟩ := State.startRun_fits (span := span)
    (((s.startWaits i.val r).keepInFlight r).mapCam i.val (fun c => { c with writes := [] })) i r (by
      rw [State.admitRate_mapCam, State.admitRate_keepInFlight, State.startWaits, State.admitRate_mapCam, State.cam_mapCam_fin, ← State.startWaits, own]
      exact fits)
  rw [State.cam_mapCam_fin, own] at e run
  refine ⟨u, congrArg _ e, run, fun j hj => ?_, ?_⟩
  · have ne : j.val ≠ i.val := Fin.val_ne_of_ne hj
    rw [others j hj, State.cam_mapCam_ne _ ne, waits, State.startWaits, State.cam_mapCam_ne _ ne]
  · exact ((State.keepInFlight_only ((Only.refl _ s).mapCam (by simp) ..) (by simp) r).mapCam (by simp) ..).trans (only.mono (by simp))

end

/-! ### BIND_TIMEOUT -/

theorem State.countFail_only {ps : List Part} (h : Only ps s t) (hc : Part.cams ∈ ps) (k : Nat) : Only ps s (t.countFail k) :=
  (h.mapCam hc ..).mapCam hc ..

theorem State.keep_countFail {α : Type} {π : CamCtx → α} (hc : ∀ (c : CamCtx) n, π { c with cnt := { c.cnt with fails := n } } = π c)
    (hr : ∀ (c : CamCtx) n b, π { c with failRun := n, failed := b } = π c) (s : State) (k j : Nat) : π ((s.countFail k).cam j) = π (s.cam j) :=
  (State.keep_mapCam _ k (fun c => hr c _ _) j).trans (s.keep_mapCam k (fun c => hc c _) j)

/-- A BIND that is not acknowledged in time ends the start and the sensor writes that wait for it (R71, R82). -/
theorem execBindTimeout_ends {w : CtrlCell} (hw : (s.cam i.val).unacked.find? CtrlCell.isBind = some w) : ∃ t : State,
    execBindTimeout i s = .next t ∧ (t.cam i.val).state = (s.cam i.val).state ∧ (∀ j ∈ (t.cam i.val).sensor, j.sent ≠ 0) ∧
    (w.why = .bindStart → (t.cam i.val).starting = none) ∧ Only [.host, .mgmt, .cams, .lanes, .out] s t := by
  unfold execBindTimeout
  rw [hw]
  dsimp only
  generalize ha : s.dropCtrl i.val w.seq = a
  generalize hb : (if w.resends = 3 then a.countFail i.val else a) = b
  generalize hd : (if w.why == .bindStart then b.startFails i.val .notReady 0x03 0 false else b) = d
  have ends : Aside d (((d.cam i.val).sensor.filter (fun j => j.sent == 0)).foldl (fun u j => u.endJob i.val j.by_ .notReady 0x03 0 false) d) :=
    .foldl _ (fun _ _ h => h.endJob ..) _ (.refl d)
  have stateA : (a.cam i.val).state = (s.cam i.val).state := by
    rw [← ha]; exact State.keep_dropCtrl (π := CamCtx.state) (fun _ _ _ _ => rfl) ..
  have stateB : (b.cam i.val).state = (a.cam i.val).state := by
    rw [← hb]
    split
    · exact State.keep_countFail (π := CamCtx.state) (fun _ _ => rfl) (fun _ _ _ => rfl) ..
    · rfl
  have stateD : (d.cam i.val).state = (b.cam i.val).state := by
    rw [← hd]
    split
    · exact State.keep_startFails (π := CamCtx.state) (fun _ => rfl) (fun _ _ => rfl) ..
    · rfl
  refine ⟨_, rfl, ?_, fun j hj => ?_, fun start => ?_, ?_⟩
  · rw [ends.keep (π := CamCtx.state) (fun _ => rfl), stateD, stateB, stateA]
  · obtain ⟨mem, gone⟩ := State.endJobs_sensor i _ _ (fun u j => State.endJob_sensor ..) _ j hj
    intro unsent
    exact gone j (by simpa [unsent] using mem) rfl
  · rw [ends.keep (π := CamCtx.starting) (fun _ => rfl), ← hd, start]
    exact State.startFails_starting ..
  · refine Only.foldl _ (fun _ _ h => State.endJob_only h (by grind) ..) _ _ ?_
    have onlyB : Only [.host, .mgmt, .cams, .lanes, .out] s b := by
      rw [← hb, ← ha]
      exact .ite (State.countFail_only (State.dropCtrl_only (.refl _ s) (by grind) ..) (by simp) _) (State.dropCtrl_only (.refl _ s) (by grind) ..)
    rw [← hd]
    exact .ite (State.startFails_only onlyB (by grind) ..) onlyB

end Sys2Proof.Machine
end

section
/-!
SUPPORT. CAM_STOP (R72): of a context that is ready to start, and of one with frames in progress.
-/
namespace Sys2Proof.Machine

set_option Elab.async false

variable {s t : State} {i : Fin 48} {c : Cmd}

/-- A context with frames in progress goes on stopping. -/
theorem State.stopIfDone_of_frames {k : Nat} (h : (s.cam k).frames ≠ []) : s.stopIfDone k = s := by
  unfold State.stopIfDone
  dsimp only
  split
  · rfl
  · rw [if_pos (by simp [h])]

theorem State.stopIfDone_of_no_stop {k : Nat} (h : (s.cam k).stop = none) : s.stopIfDone k = s := by
  unfold State.stopIfDone
  dsimp only
  rw [h]

/-- The request that a CAM_STOP without DISCARD leaves in its context. -/
def CamCtx.stopBy (x : CamCtx) (r : CmdRef) (release : Bool) : StopReq :=
  { by_ := (x.stop.map StopReq.by_).getD [] ++ [r], release := release || (x.stop.map StopReq.release).getD false,
    discarded := (x.stop.map StopReq.discarded).getD 0 }

variable (ha : Accepted .camStop c s) (hf : s.cams.find c.handle = some i.val) (h0 : (s.cam i.val).starting = none)
include ha hf h0

theorem execCamStop_ready (hx : (s.cam i.val).state = .configured ∨ (s.cam i.val).state = .suspended) :
    execCamStop c s = .next ((if bitOf (par c 0) 0 then ((s.cutPlan i.val).releaseCtx i.val).jmSettle
      else (s.cutPlan i.val).mapCam i.val (fun y => { y with state := .configured })).complete (ref .camStop c) .ok 0xFFFFFFFF 0 false) := by
  have ready : ((s.cam i.val).state == .configured || (s.cam i.val).state == .suspended) = true := by simpa using hx
  unfold execCamStop
  refine runCmd_done ha ?_
  simp only [needCam_of_find hf, ok_bind, h0, Option.isNone_none, need_bind_true, ready, if_true]
  rfl

theorem execCamStop_running (hx : (s.cam i.val).state = .running ∨ (s.cam i.val).state = .stopping) (frames : (s.cam i.val).frames ≠ [])
    (hd : bitOf (par c 0) 1 = false) :
    execCamStop c s = .next (((s.cutPlan i.val).mapCam i.val (fun y => { y with
      state := .stopping, stop := some ((s.cam i.val).stopBy (ref .camStop c) (bitOf (par c 0) 0)) })).keepInFlight (ref .camStop c)) := by
  have ready : ((s.cam i.val).state == .configured || (s.cam i.val).state == .suspended) = false := by
    rcases hx with h | h <;> rw [h] <;> rfl
  have kept : ((s.cutPlan i.val).cam i.val).frames = (s.cam i.val).frames :=
    State.keep_cutPlan (π := CamCtx.frames) (fun _ _ _ _ => rfl) (fun _ _ _ => rfl) ..
  unfold execCamStop
  refine runCmd_waits ha ?_
  simp only [needCam_of_find hf, ok_bind, h0, Option.isNone_none, need_bind_true, ready, hd, Bool.false_eq_true, if_false, Nat.add_zero]
  rw [State.stopIfDone_of_frames]
  · rfl
  · rw [State.cam_of_cams_eq (State.keepInFlight_cams ..), State.cam_mapCam_fin, kept]
    exact frames

end Sys2Proof.Machine
end

namespace Sys2Proof

set_option Elab.async false

open Machine

/-- Settles O36: CAM_CONFIGURE and CAM_START run through their checks, the failing BIND and the stopping plan through what each operation leaves
of a context (log 27 for the 0xFFFFFFFF of a context without an accepted frame). -/
theorem camerasConfigureStartAndStop : Obligations.CamerasConfigureStartAndStop := by
  unfold Obligations.CamerasConfigureStartAndStop
  intro c s i
  refine ⟨fun ha h0 hi hr => ⟨execCamConfigure_taken ha h0 hi hr, ?_⟩, fun span ha hf h0 hx fits => ⟨fun ozoth => ?_, fun port none_ => ?_⟩,
    fun w hw => execBindTimeout_ends hw, fun ha hf h0 => ⟨fun hx => ?_, fun hx frames hd => ?_⟩⟩
  · intro p b span hx hp fields relations limit ht hb room port fits
    refine ⟨_, execCamConfigure_idle ha h0 hi hr hx hp fields relations limit ht hb room port fits, ?_⟩
    have own : ((s.mapCam i.val (fun _ => (s.cam i.val).configured (s.nextHandle 2) p b c.aux)).issue 2).cam i.val =
        (s.cam i.val).configured (s.nextHandle 2) p b c.aux := State.cam_mapCam_fin ..
    rw [own]
    exact ⟨rfl, rfl, rfl, rfl, rfl, rfl, rfl, fun j hj => State.cam_mapCam_ne _ (Fin.val_ne_of_ne hj) _, only_configured ..⟩
  · refine ⟨s.startWaits i.val (ref .camStart c), ?_, State.cam_mapCam_fin .., fun j hj => State.cam_mapCam_ne _ (Fin.val_ne_of_ne hj) _, State.mapCam_only ..⟩
    exact (execCamStart_eq ha hf h0 hx fits).trans (by rw [if_pos ozoth])
  · obtain ⟨u, e, run, others, only⟩ := execCamStart_parallel ha hf h0 hx fits port none_
    simp only [CamCtx.runFields, Prod.mk.injEq] at run
    obtain ⟨running, next, fn, frames⟩ := run
    exact ⟨u, e, running, next, fn, frames, others, only⟩
  · refine ⟨_, execCamStop_ready ha hf h0 hx, fun keep => ?_, fun release => ?_⟩
    · rw [if_neg (by simp [keep]), State.cam_mapCam_fin]
      exact ⟨rfl, State.cutPlan_plan s i, (State.cutPlan_only (.refl _ s) (by simp) _).mapCam (by simp) ..⟩
    · have settled := (Aside.refl ((s.cutPlan i.val).releaseCtx i.val)).jmSettle
      obtain ⟨idle, run⟩ := State.releaseCtx_state (s.cutPlan i.val) i
      rw [if_pos release, settled.keep (π := CamCtx.state) (fun _ => rfl), settled.keep (π := CamCtx.run) (fun _ => rfl), idle, run]
      exact ⟨rfl, State.keep_cutPlan (π := CamCtx.run) (fun _ _ _ _ => rfl) (fun _ _ _ => rfl) ..⟩
  · refine ⟨_, execCamStop_running ha hf h0 hx frames hd, ?_⟩
    rw [State.cam_mapCam_fin]
    exact ⟨rfl, State.cutPlan_plan s i, State.keep_cutPlan (π := CamCtx.frames) (fun _ _ _ _ => rfl) (fun _ _ _ => rfl) .., rfl,
      (State.cutPlan_only (.refl _ s) (by simp) _).mapCam (by simp) ..⟩

end Sys2Proof

section
/-!
SUPPORT. The hooks of the other subsystems on a frame that is accepted, dropped, closed or measured leave the core of every context, the slices,
the tables of units, pair operation and the part.
-/
namespace Sys2Proof.Machine

set_option Elab.async false

variable {s t : State}

/-! ### Writes -/

theorem Aside.mapMem (h : Aside s t) (f : MemSt → MemSt) : Aside s (t.mapMem f) := h.other

theorem Aside.writeMem (h : Aside s t) (a : Nat) (bs : List Byte) : Aside s (t.writeMem a bs) := h.other

theorem Aside.writes (h : Aside s t) (src : FabSrc) (role : FabRole) (k a n : Nat) : Aside s (t.writes src role k a n) := h.other

theorem Aside.putRecord (h : Aside s t) (r : LedgerRec) : Aside s (t.putRecord r) := (h.writeMem ..).writes ..

theorem Aside.putClean (h : Aside s t) (role : FabRole) (a : Nat) (bs : List Byte) : Aside s (t.putClean role a bs) := by
  unfold State.putClean
  exact ((h.writeMem ..).writes ..).mapMem _

/-! ### Kernels, hooked frames and rates -/

theorem Aside.mapBinds (h : Aside s t) (p : KBind → Bool) (f : KBind → KBind) : Aside s (t.mapBinds p f) := h.mapJm _

theorem Aside.mapHook (h : Aside s t) (x : HookFrame) (g : HookFrame → HookFrame) : Aside s (t.mapHook x g) := h.mapJm _

theorem Aside.dropHook (h : Aside s t) (x : HookFrame) : Aside s (t.dropHook x) := h.mapJm _

theorem Aside.abandonHook (h : Aside s t) (x : HookFrame) : Aside s (t.abandonHook x) := (h.mapBinds ..).dropHook _

theorem Aside.mapEncs (h : Aside s t) (p : EncSession → Bool) (f : EncSession → EncSession) : Aside s (t.mapEncs p f) := h.other

theorem Aside.finishMatch (h : Aside s t) (o : Option CmdRef) (st : Status) (r0 r1 : Nat) :
    Aside s (match o with | some r => t.finish r st r0 r1 false | none => t) := by
  split
  · exact h.finish ..
  · exact h

theorem Aside.rateOf (h : Aside s t) (e : EncSession) : Aside s (t.rateOf e) := by
  unfold State.rateOf
  exact Aside.mapEncs (.foldl _ (fun _ _ h => h.finishMatch ..) _ (h.mapJm _)) ..

theorem Aside.jmRates (h : Aside s t) : Aside s t.jmRates := .foldl _ (fun _ _ h => h.rateOf _) _ h

theorem Aside.putTile (h : Aside s t) (role : FabRole) (hd : List Byte) (f : HookFrame) (tx ty : Nat) (planes : List (List Nat)) :
    Aside s (t.putTile role hd f tx ty planes) := .foldl _ (fun _ _ h => .foldl _ (fun _ _ h => h.putClean ..) _ h) _ h

theorem Aside.voidTiles (h : Aside s t) (f : HookFrame) (ts : List (Nat × Nat)) : Aside s (t.voidTiles f ts) :=
  Aside.mapHook (.foldl _ (fun _ _ h => h.putTile ..) _ h) ..

theorem Aside.finishHook (h : Aside s t) (f : HookFrame) : Aside s (t.finishHook f) := by
  have bound (o : Option Nat) {u : State} (g : Nat → State) (h : Aside s u) (hg : ∀ i, Aside s (g i)) :
      Aside s (match o with | some i => g i | none => u) := by
    split
    · exact hg _
    · exact h
  unfold State.finishHook
  split
  · exact h
  · have written {u : State} (h : Aside s u) : Aside s u.tickFresh := h.other
    exact .ite h (Aside.dropHook (bound _ _ ((written ((h.putClean ..).putClean ..)).putClean ..)
      fun _ => ((written ((h.putClean ..).putClean ..)).putClean ..).mapBinds ..) _)

theorem Aside.queueTiles (h : Aside s t) (x : HookFrame) : Aside s (t.queueTiles x) := by
  unfold State.queueTiles
  dsimp only
  split
  · exact h
  · exact .ite h (((h.mapHook ..).voidTiles ..).finishHook _)

theorem Aside.stripeWritten (h : Aside s t) (k fn : Nat) : Aside s (t.stripeWritten k fn) := .foldl _ (fun _ _ h => h.queueTiles _) _ h

theorem Aside.latchHook (h : Aside s t) (k fn hook : Nat) : Aside s (t.latchHook k fn hook) := .foldl _ (fun _ _ h => h.finishMatch ..) _ (h.mapJm _)

theorem Aside.countKernel (h : Aside s t) (k : Handle) (f : KernelCounters → KernelCounters) : Aside s (t.countKernel k f) := by
  unfold State.countKernel State.mapKernel
  exact h.mapJm _

theorem Aside.hookFrame (h : Aside s t) (k hook : Nat) (f : CamFrame) : Aside s (t.hookFrame k hook f) := by
  have skip (b : KBind) : Aside s (t.countKernel b.kernel (fun n => { n with skips := n.skips.satInc })) := h.countKernel ..
  unfold State.hookFrame
  dsimp only
  split
  · exact h
  · refine .ite h (.ite (skip _) ?_)
    split
    · exact skip _
    · exact (h.mapBinds ..).mapJm _

theorem Aside.jmAccepted (h : Aside s t) (k : Nat) (f : CamFrame) : Aside s (t.jmAccepted k f) :=
  .foldl _ (fun _ _ h => (h.latchHook ..).hookFrame ..) _ h

/-! ### Displays and recordings -/

theorem Aside.mapSrcRing (h : Aside s t) (r : SrcRef) (f : Ring → Ring) : Aside s (t.mapSrcRing r f) := by
  unfold State.mapSrcRing
  split
  · split
    · exact h.mapCam
    · exact h
  · exact h.other
  · split
    · exact h.other
    · exact h
  · exact h

theorem Aside.trimLayer (h : Aside s t) (l : Handle) (r : SrcRef) (ns : Nat) : Aside s (t.trimLayer l r ns) := by
  unfold State.trimLayer
  split
  · exact h.mapSrcRing ..
  · exact h

theorem Aside.dispClosed (h : Aside s t) (k : Nat) (f : Option CamFrame) : Aside s (t.dispClosed k f) := by
  have shown (g : DispSt → DispSt) : Aside s (t.mapDisp g) := h.other
  exact .foldl _ (fun _ _ h => .foldl _ (fun _ _ h => h.trimLayer ..) _ h) _ (shown _)

theorem Aside.recOffer (h : Aside s t) (k : Nat) (hd : Handle) (i : Nat) (p : RecPend) : Aside s (t.recOffer k hd i p) := h.other

theorem Aside.recDropped (h : Aside s t) (k fn : Nat) : Aside s (t.recDropped k fn) := by
  refine .foldl _ (fun u i h => ?_) _ (h.recOffer ..)
  split
  · exact .ite (h.recOffer ..) h
  · exact h

theorem Aside.recClosed (h : Aside s t) (k : Nat) (f : CamFrame) (r : LedgerRec) : Aside s (t.recClosed k f r) := by
  refine .foldl _ (fun u i h => ?_) _ (h.recOffer ..)
  split
  · exact h.recOffer ..
  · exact .ite (h.recOffer ..) h
  · exact h

/-! ### Frames -/

theorem Aside.frameDropped (h : Aside s t) (k fn : Nat) : Aside s (t.frameDropped k fn) := by
  have dropped : Aside s (t.encDropped k fn) := h.mapEncs ..
  exact (Aside.foldl _ (fun _ _ h => h.abandonHook _) _ ((dropped.recDropped ..).dispClosed ..)).jmRates

theorem Aside.frameClosed (h : Aside s t) (k : Nat) (f : CamFrame) (r : LedgerRec) : Aside s (t.frameClosed k f r) := by
  have closed : Aside s (t.encClosed k f r) := h.mapEncs ..
  exact (Aside.foldl _ (fun _ _ h => (h.mapHook ..).finishHook _) _ ((closed.recClosed ..).dispClosed ..)).jmRates

theorem Aside.fieldComplete (h : Aside s t) (k : Nat) (f : CamFrame) : Aside s (t.fieldComplete k f) := (h.mapEncs ..).jmRates

theorem Aside.encAccepted (h : Aside s t) (k : Nat) (f : CamFrame) : Aside s (t.encAccepted k f) := by
  unfold State.encAccepted
  dsimp only
  split
  · exact (h.mapEncs ..).mapCam
  · exact (h.mapEncs ..).mapEncs ..

theorem Aside.frameAccepted (h : Aside s t) (k : Nat) (f : CamFrame) : Aside s (t.frameAccepted k f) := ((h.encAccepted ..).jmAccepted ..).jmRates

theorem Aside.latchPolicies (h : Aside s t) (k r0 : Nat) : Aside s (t.latchPolicies k r0) := by
  unfold State.latchPolicies
  exact Aside.mapJm (.foldl _ (fun _ _ h => h.finish ..) _ h.mapCam) _

theorem Aside.issueRound (h : Aside s t) (r : PolRound) : Aside s (t.issueRound r) := by
  unfold State.issueRound
  exact .ite (h.mapJm _) (Aside.issueApply (.ite (h.mapJm _) (h.mapJm _).countCam) ..)

theorem Aside.settleRounds (h : Aside s t) (k : Nat) : Aside s (t.settleRounds k) := .foldl _ (fun _ _ h => h.issueRound _) _ h

theorem Aside.statsClosed (h : Aside s t) (k : Nat) (f : CamFrame) (r : LedgerRec) : Aside s (t.statsClosed k f r) := by
  have settled : Aside s (((t.latchPolicies k (r.fn % 2 ^ 32)).mapJm (fun j => { j with
      jobs := j.jobs.map (fun q => if q.cam == k then { q with lost := true } else q) })).settleRounds k) :=
    ((h.latchPolicies ..).mapJm _).settleRounds _
  unfold State.statsClosed State.jmStats
  refine .ite settled ?_
  have asked {u : State} (jobs : List PolJob) (g : State → PolJob → State) (hg : ∀ u q, Aside s u → Aside s (g u q)) (h : Aside s u) :
      Aside s (jobs.foldl g u) := .foldl g hg jobs h
  refine .ite ((asked _ _ (fun _ _ h => h.mapCam) settled).mapJm _) ?_
  exact Aside.countCam ((((asked _ _ (fun _ _ h => h.mapCam) settled).mapJm _).putRecord _).writeMem ..)

end Sys2Proof.Machine
end

section
/-!
SUPPORT. Frame numbers that close without a frame (R86, R91): the record, the counters, and the end of a plan.
-/
namespace Sys2Proof.Machine

set_option Elab.async false

variable {s t : State}

theorem Aside.endPlan (h : Aside s t) (k : Nat) : Aside s (t.endPlan k) := by
  unfold State.endPlan
  dsimp only
  split
  · exact h
  · refine .ite h ?_
    split
    · exact (h.mapCam).releaseCompare _
    · exact h.mapCam

/-- The counters of a dropped frame number (Table 03-18). -/
def CamCounters.dropped (n : CamCounters) (cause : Nat) (unsure : Bool) : CamCounters :=
  { n with
    dropQueue := if cause = 1 then n.dropQueue.satInc else n.dropQueue,
    dropShed := if cause = 2 then n.dropShed.satInc else n.dropShed,
    dropMissing := if cause = 3 then n.dropMissing.satInc else n.dropMissing,
    uncertain := if unsure then n.uncertain.satInc else n.uncertain }

theorem State.mapCam_cams_congr (h : t.cams = s.cams) (k : Nat) (f : CamCtx → CamCtx) : (t.mapCam k f).cams = (s.mapCam k f).cams := by
  unfold State.mapCam State.mapCams
  rw [h]

/-- The same update of a context in two states with the same contexts. -/
theorem Aside.mapCam_congr (h : Aside s t) (hc : t.cams = s.cams) (k : Nat) (f : CamCtx → CamCtx) : Aside (s.mapCam k f) (t.mapCam k f) :=
  (Aside.refl (s.mapCam k f)).of_cams (State.mapCam_cams_congr hc k f) ⟨congrArg CamsSt.slices (State.mapCam_cams_congr hc k f), h.units, h.pair, h.dev⟩

@[simp] theorem State.putRecord_cams (s : State) (r : LedgerRec) : (s.putRecord r).cams = s.cams := by
  unfold State.putRecord State.writes State.requests State.mapFab State.writeMem State.mapMem
  rfl

/-- A frame number that closes without a frame changes the core of its context in the counters alone. -/
theorem Aside.closeDropped (s : State) (k : Nat) (r : LedgerRec) (cause : Nat) :
    Aside (s.countCam k (fun n => n.dropped cause (r.has 13))) (s.closeDropped k r cause) := by
  have counted (q : LedgerRec) (f : CamCounters → CamCounters) : Aside (s.countCam k f) ((s.putRecord q).countCam k f) :=
    ((Aside.refl s).putRecord q).mapCam_congr (s.putRecord_cams q) k _
  unfold State.closeDropped
  extract_lets q u
  have start : Aside (s.countCam k (fun n => n.dropped cause (r.has 13))) u := counted (q.flag 0) _
  exact ((start.frameDropped ..).post ..).endPlan _

/-! ### Triggers that have FNs -/

/-- Settling gives FNs to triggers and leaves their times and indices. -/
theorem CamCtx.settle_triggers (c : CamCtx) (before : Nat) :
    (c.settle before).triggers.map (fun t => (t.index, t.time)) = c.triggers.map (fun t => (t.index, t.time)) := by
  unfold CamCtx.settle
  refine List.foldlRecOn (motive := fun x : CamCtx => x.triggers.map (fun t => (t.index, t.time)) = c.triggers.map _) c.triggers _ rfl fun x hx t _ => ?_
  split
  · refine Eq.trans ?_ hx
    dsimp only
    exact updWhere_map (fun _ => by rfl) _
  · exact hx

/-- What does not depend on the triggers nor on the next FN outlives settling. -/
theorem CamCtx.keep_settle {α : Type} {π : CamCtx → α} (hπ : ∀ (c : CamCtx) n ts, π { c with fnNext := n, triggers := ts } = π c) (c : CamCtx)
    (before : Nat) : π (c.settle before) = π c := by
  unfold CamCtx.settle
  refine List.foldlRecOn (motive := fun x => π x = π c) c.triggers _ rfl fun x hx t _ => ?_
  split
  · exact (hπ x _ _).trans hx
  · exact hx

end Sys2Proof.Machine
end

section
/-!
SUPPORT. CAM_TRIGGER_PLAN (R102, R103, R104): the plan that a block describes, and the command on a context without a plan.
-/
namespace Sys2Proof.Machine

set_option Elab.async false

variable {s t : State} {i : Fin 48} {c : Cmd} {b : List Byte}

/-- The first time of the plan of a block (R102). -/
def planFirst (b : List Byte) : Nat :=
  if bitOf (f16 b 0) 0 then alignUp (fld b 0x08 6 * 1000000000 + f32 b 0x10) (f32 b 0x14) (f32 b 0x1C) else fld b 0x08 6 * 1000000000 + f32 b 0x10

/-- The index of the first trigger of a new plan: on a running context the earliest at least 1 ms ahead (R103). -/
def State.planIndex (s : State) (x : CamCtx) (b : List Byte) : Nat :=
  if x.state = .running ∧ planFirst b < s.ns + 1000000 then ceilDiv (s.ns + 1000000 - planFirst b) (f32 b 0x14) else 0

/-- The plan of a block (Table 03-16). -/
def CamCtx.planOf (x : CamCtx) (b : List Byte) (n : Nat) (pin unit : Option Nat) : TrigPlan :=
  { first := planFirst b, period := f32 b 0x14, stop := if f32 b 0x18 = 0 then none else some (f32 b 0x18), pin := pin, unit := unit,
    pulse := f32 b 0x04, held := x.state != .running, start := n, sent := n, align := bitOf (f16 b 0) 0 }

/-- The fields of a block that R102 and R103 limit whatever fires the triggers. -/
def goodPlan (p b : List Byte) : Prop :=
  f32 b 0x10 < 1000000000 ∧ pfPeriod p ≤ f32 b 0x14 ∧ f32 b 0x14 ≤ 4000000000 ∧ f32 b 0x1C < f32 b 0x14

theorem execCamTriggerPlan_cancel (ha : Accepted .camTriggerPlan c s) (hf : s.cams.find c.handle = some i.val) (hb : structBytes s c = .ok b)
    (hx : (s.cam i.val).state ≠ .stopping) (h2 : bitOf (f16 b 0) 2 = true) :
    execCamTriggerPlan c s = .next ((s.cutPlan i.val).complete (ref .camTriggerPlan c) .ok 0 0 false) := by
  have live : ((s.cam i.val).state != .stopping) = true := by simpa using hx
  unfold execCamTriggerPlan
  refine runCmd_done ha ?_
  simp only [needCam_of_find hf, ok_bind, hb, h2, if_true, live, need_bind_true]
  rfl

/-- What CAM_TRIGGER_PLAN does once its fields hold and its context is without a plan. -/
def State.takePlan (c : Cmd) (k : Nat) (b : List Byte) (n : Nat) (s : State) : Chk Done := do
  let pin := bitOf (f16 b 0) 1
  need (!(n != 0 && strict c)) (tooLate n)
  need (!pin || s.pinFree (f8 b 2) || (vget s.time.pins { owner := .free, level := false, release := false } (f8 b 2)).owner == .plan k)
    (conflict (s.pinHolder (f8 b 2)) (0x100 + f8 b 2))
  let u ← if pin then (needSome (firstIdx Option.isNone s.time.compare.toList) (notReady 0x10)).map some else .ok none
  let p := (s.cam k).planOf b n (if pin then some (f8 b 2) else none) u
  let t := (s.mapCam k (fun y => { y with plan := some p })).armPlan k p
  let t := if pin then t.ownPin (f8 b 2) (.plan k) else t
  if n = 0 then okDone 0 0 t else .ok (.done .okAdjusted (n % 2 ^ 32) 0 t)

section
variable (hf : s.cams.find c.handle = some i.val) (hb : structBytes s c = .ok b)
  (hx : (s.cam i.val).state ≠ .stopping) (h2 : bitOf (f16 b 0) 2 = false) (good : goodPlan (s.cam i.val).profile b) (h0 : (s.cam i.val).plan = none)
include hf hb hx h2 good h0

theorem execCamTriggerPlan_eq (hp : bitOf (f16 b 0) 1 = false → pfOzoth (s.cam i.val).profile = true ∧
      ¬ ((s.cam i.val).state = .running ∧ (s.cam i.val).failed = true))
    (hq : bitOf (f16 b 0) 1 = true → f8 b 2 ≤ 31 ∧ 100 ≤ f32 b 4 ∧ f32 b 4 ≤ 1000000) :
    execCamTriggerPlan c s = runCmd .camTriggerPlan c s (s.takePlan c i.val b (s.planIndex (s.cam i.val) b)) := by
  have live : ((s.cam i.val).state != .stopping) = true := by simpa using hx
  obtain ⟨nanos, least, most, phase⟩ := good
  have fields : firstBad [(0x00, pfOzoth (s.cam i.val).profile || bitOf (f16 b 0) 1), (0x02, !bitOf (f16 b 0) 1 || f8 b 0x02 ≤ 31),
        (0x04, !bitOf (f16 b 0) 1 || (100 ≤ f32 b 0x04 && f32 b 0x04 ≤ 1000000)), (0x10, Nat.blt (f32 b 0x10) 1000000000),
        (0x14, pfPeriod (s.cam i.val).profile ≤ f32 b 0x14 && f32 b 0x14 ≤ 4000000000), (0x1C, Nat.blt (f32 b 0x1C) (f32 b 0x14))] = none := by
    cases h1 : bitOf (f16 b 0) 1 <;> simp [firstBad, h1, Nat.blt_eq, nanos, least, most, phase, hp, hq]
  have hub : (!((s.cam i.val).state == .running && pfOzoth (s.cam i.val).profile && !bitOf (f16 b 0) 1 && (s.cam i.val).failed)) = true := by
    cases h1 : bitOf (f16 b 0) 1
    · have sound : (s.cam i.val).state = .running → (s.cam i.val).failed = false := by simpa using (hp h1).2
      simpa [(hp h1).1] using not_or_of_imp sound
    · simp
  have index : (if ((s.cam i.val).state == .running && decide (planFirst b < s.ns + 1000000)) = true then
      ceilDiv (s.ns + 1000000 - planFirst b) (f32 b 0x14) else 0) = s.planIndex (s.cam i.val) b := by
    simp [State.planIndex]
  have first : (if bitOf (f16 b 0) 0 = true then alignUp (fld b 0x08 6 * 1000000000 + f32 b 0x10) (f32 b 0x14) (f32 b 0x1C)
    else fld b 0x08 6 * 1000000000 + f32 b 0x10) = planFirst b := rfl
  unfold execCamTriggerPlan State.takePlan
  congr 1
  simp only [needCam_of_find hf, ok_bind, hb, h2, live, hub, need_bind_true, Bool.false_eq_true, if_false, needFields_of_firstBad fields, h0, first,
    index, State.cutPlan_of_plan_none h0]
  rfl

end

theorem State.takePlan_late (k : Nat) {n : Nat} (hn : n ≠ 0) (hs : strict c = true) : s.takePlan c k b n = .error (tooLate n) := by
  have late : (!(n != 0 && strict c)) = false := by simp [hn, hs]
  simp only [State.takePlan, late, need_bind_false]

theorem State.takePlan_hub (h1 : bitOf (f16 b 0) 1 = false) (k : Nat) {n : Nat} (hn : n = 0 ∨ strict c = false) :
    s.takePlan c k b n = .ok (.done (if n = 0 then .ok else .okAdjusted) (n % 2 ^ 32) 0
      (s.mapCam k (fun y => { y with plan := some ((s.cam k).planOf b n none none) }))) := by
  have soon : (!(n != 0 && strict c)) = true := by simpa using hn
  simp only [State.takePlan, soon, h1, need_bind_true, Bool.not_false, Bool.true_or, Bool.false_eq_true, if_false, ok_bind]
  split
  next e => rw [e]; rfl
  · rfl

theorem State.takePlan_pin (h1 : bitOf (f16 b 0) 1 = true) {k n u : Nat} (hn : n = 0 ∨ strict c = false) (free : s.pinFree (f8 b 2) = true)
    (unit : firstIdx Option.isNone s.time.compare.toList = some u) :
    s.takePlan c k b n = .ok (.done (if n = 0 then .ok else .okAdjusted) (n % 2 ^ 32) 0
      (((s.mapCam k (fun y => { y with plan := some ((s.cam k).planOf b n (some (f8 b 2)) (some u)) })).armPlan k
        ((s.cam k).planOf b n (some (f8 b 2)) (some u))).ownPin (f8 b 2) (.plan k))) := by
  have soon : (!(n != 0 && strict c)) = true := by simpa using hn
  simp only [State.takePlan, soon, h1, need_bind_true, free, Bool.or_true, Bool.true_or, if_true, unit]
  split
  next e => rw [e]; rfl
  · rfl

theorem State.ownPin_cam (s : State) (n : Nat) (o : PinOwner) (j : Nat) : (s.ownPin n o).cam j = s.cam j := rfl

theorem State.armPlan_cam (s : State) (k : Nat) (p : TrigPlan) (j : Nat) : (s.armPlan k p).cam j = s.cam j :=
  State.cam_of_cams_eq (s.armPlan_cams k p) j

/-- A pin that a plan owns is not free. -/
theorem State.pinFree_ownPin (s : State) {n : Nat} (hn : n ≤ 31) (k : Nat) : (s.ownPin n (.plan k)).pinFree n = false := by
  unfold State.pinFree State.ownPin
  rw [State.mapTime_time, vget_vmod, if_pos ⟨rfl, by omega⟩]
  rfl

/-- The compare unit that a plan arms is taken. -/
theorem State.compare_armPlan {u : Nat} (hu : u < 32) {p : TrigPlan} (unit : p.unit = some u) {n : Nat} (pin : p.pin = some n) (k : Nat) :
    (vget (s.armPlan k p).time.compare none u).isSome = true := by
  unfold State.armPlan
  rw [unit, pin]
  dsimp only
  rw [State.mapTime_time, vget_vmod, if_pos ⟨rfl, hu⟩]
  rfl

end Sys2Proof.Machine
end

section
/-!
SUPPORT. TRIGGER_SEND and TRIGGER_MISSING (R86, R103).
-/
namespace Sys2Proof.Machine

set_option Elab.async false

variable {s t : State} {i : Fin 48}

/-- The trigger that a plan sends next at a time. -/
def TrigPlan.nextTrigger (p : TrigPlan) (now : Nat) : Trigger :=
  { index := p.sent, time := p.time p.sent, period := p.period, fn := none, sent := decide (now + 1000000 ≤ p.time p.sent) }

theorem execTriggerSend_due {p : TrigPlan} (hx : (s.cam i.val).state = .running) (hp : (s.cam i.val).plan = some p) (held : p.held = false)
    (has : p.has p.sent = true) (due : p.time p.sent ≤ s.ns + 100000000) : ∃ t : State, execTriggerSend i s = .next t ∧
    (t.cam i.val).plan = some { p with sent := p.sent + 1 } ∧ (t.cam i.val).triggers = (s.cam i.val).triggers ++ [p.nextTrigger s.ns] ∧
    Only [.cams, .lanes, .out] s t := by
  have taken : ((s.cam i.val).state != .running || p.held || !p.has p.sent || decide (s.ns + 100000000 < p.time p.sent)) = false := by
    simp [hx, held, has, due]
  unfold execTriggerSend
  simp only [hp, taken, Bool.false_eq_true, if_false]
  refine ⟨_, rfl, ?_, ?_, .ite (State.sendCtrl_only ((Only.refl _ s).mapCam (by simp) ..) (by simp) ..) ((Only.refl _ s).mapCam (by simp) ..)⟩
  · split
    · rw [State.keep_sendCtrl (π := CamCtx.plan) (fun _ _ _ _ => rfl), State.cam_mapCam_fin]
    · rw [State.cam_mapCam_fin]
  · split
    · rw [State.keep_sendCtrl (π := CamCtx.triggers) (fun _ _ _ _ => rfl), State.cam_mapCam_fin]
      rfl
    · rw [State.cam_mapCam_fin]
      rfl

/-- Of the triggers of a context all but one are other than it. -/
theorem CamCtx.filter_other_length {c : CamCtx} {g : Trigger} {rest : List Trigger} (before : Nat) (hc : c.triggers = g :: rest)
    (others : ∀ u ∈ rest, g.same u = false) : ((c.settle before).triggers.filter (fun u => !g.same u)).length = rest.length := by
  have keyed (l : List Trigger) : (l.filter (fun u => !g.same u)).length =
      ((l.map (fun t => (t.index, t.time))).filter (fun k => !(k.1 == g.index && k.2 == g.time))).length := by
    rw [List.filter_map, List.length_map]
    rfl
  have self : g.same g = true := by simp [Trigger.same]
  rw [keyed, CamCtx.settle_triggers, ← keyed, hc, List.filter_cons_of_neg (by simp [self]), List.filter_eq_self.mpr]
  exact fun u hu => by simp [others u hu]

/-- The frame number of a trigger whose frame never comes closes MISSING (R86). -/
theorem execTriggerMissing_closes {g : Trigger} {rest : List Trigger} (hc : (s.cam i.val).triggers = g :: rest) (others : ∀ u ∈ rest, g.same u = false)
    (due : g.time + pfReadout (s.cam i.val).profile + g.period ≤ s.ns) (run : (s.cam i.val).stop = none) : ∃ t : State,
    execTriggerMissing i s = .next t ∧ (t.cam i.val).triggers.length = rest.length ∧
    (t.cam i.val).cnt.dropMissing = (s.cam i.val).cnt.dropMissing.satInc := by
  have found : (s.cam i.val).triggers.find? (fun t => t.time + pfReadout (s.cam i.val).profile + t.period ≤ s.ns) = some g := by
    rw [hc, List.find?_cons_of_pos (by simpa using due)]
  unfold execTriggerMissing
  simp only [found]
  generalize hc2 : ({ (s.cam i.val).settle (g.time + 1) with
    triggers := ((s.cam i.val).settle (g.time + 1)).triggers.filter (fun u => !g.same u) } : CamCtx) = c2
  generalize ((((s.cam i.val).settle (g.time + 1)).triggers.find? g.same).bind Trigger.fn).getD ((s.cam i.val).settle (g.time + 1)).fnNext = fn
  have latched : Aside (s.mapCam i.val (fun _ => c2)) (((s.mapCam i.val (fun _ => c2)).latchBefore i.val fn).latchAt i.val fn).1 :=
    ((Aside.refl _).latchBefore ..).latchAt ..
  generalize (((s.mapCam i.val (fun _ => c2)).latchBefore i.val fn).latchAt i.val fn).2 = l
  generalize (((s.mapCam i.val (fun _ => c2)).latchBefore i.val fn).latchAt i.val fn).1 = u at latched ⊢
  generalize (noiseWords _ _ _ _) = words
  generalize (((u.cam i.val).newRecord i.val fn 0 (g.time * 65536) (g.index % 2 ^ 32) 0 l words).flag 5) = r
  have closed := Aside.closeDropped u i.val r 3
  have stop : ((u.closeDropped i.val r 3).cam i.val).stop = none := by
    rw [closed.keep (π := CamCtx.stop) (fun _ => rfl), State.countCam, State.cam_mapCam_fin, latched.keep (π := CamCtx.stop) (fun _ => rfl),
      State.cam_mapCam_fin, ← hc2]
    exact (CamCtx.keep_settle (π := CamCtx.stop) (fun _ _ _ => rfl) ..).trans run
  refine ⟨_, rfl, ?_, ?_⟩ <;> rw [State.stopIfDone_of_no_stop stop]
  · rw [closed.keep (π := CamCtx.triggers) (fun _ => rfl), State.countCam, State.cam_mapCam_fin, latched.keep (π := CamCtx.triggers) (fun _ => rfl),
      State.cam_mapCam_fin, ← hc2]
    exact CamCtx.filter_other_length _ hc others
  · rw [closed.keep (π := fun c => c.cnt.dropMissing) (fun _ => rfl), State.countCam, State.cam_mapCam_fin]
    refine congrArg Word.satInc ?_
    rw [latched.keep (π := fun c => c.cnt.dropMissing) (fun _ => rfl), State.cam_mapCam_fin, ← hc2]
    exact CamCtx.keep_settle (π := fun c => c.cnt.dropMissing) (fun _ _ _ => rfl) ..

end Sys2Proof.Machine
end

namespace Sys2Proof

set_option Elab.async false

open Machine

/-- Settles O37: the block's fields pass, and what the plan, its unit and its pin become is read off the state; a trigger that is missing leaves its
context by what latching and closing keep (log 29 for a pin plan on any context and a trigger nearer than 1 ms). -/
theorem triggerPlansFire : Obligations.TriggerPlansFire := by
  unfold Obligations.TriggerPlansFire
  intro c s i
  refine ⟨fun b ha hf hb hx => ⟨fun cancel => ?_, fun h2 good h0 => ⟨fun h1 oz ok => ⟨fun hn hs => ?_, fun soon => ?_⟩,
      fun k h1 pin least most free unit soon => ?_⟩⟩,
    fun p hx hp held has due => execTriggerSend_due hx hp held has due, fun g rest hc others due run => execTriggerMissing_closes hc others due run⟩
  · exact ⟨_, execCamTriggerPlan_cancel ha hf hb hx cancel, State.cutPlan_plan s i, State.cutPlan_only (.refl _ s) (by simp) _⟩
  · have taken := execCamTriggerPlan_eq hf hb hx h2 good h0 (fun _ => ⟨oz, ok⟩) (fun h => absurd h (by simp [h1]))
    have late : s.takePlan c i.val b (s.planIndex (s.cam i.val) b) = .error (tooLate (s.planIndex (s.cam i.val) b)) := State.takePlan_late _ hn hs
    have refused := taken.trans (runCmd_refuses ha (by simp) late rfl)
    exact refused
  · have taken := execCamTriggerPlan_eq hf hb hx h2 good h0 (fun _ => ⟨oz, ok⟩) (fun h => absurd h (by simp [h1]))
    refine ⟨_, taken.trans (runCmd_done ha (State.takePlan_hub h1 _ soon)), ?_, State.mapCam_only ..⟩
    rw [State.cam_mapCam_fin]
    rfl
  · have taken := execCamTriggerPlan_eq hf hb hx h2 good h0 (fun h => absurd h (by simp [h1])) (fun _ => ⟨pin, least, most⟩)
    obtain ⟨x, there, -⟩ := firstIdx_some unit
    have inside : k < 32 := by simpa using (List.getElem?_eq_some_iff.mp there).1
    refine ⟨_, taken.trans (runCmd_done ha (State.takePlan_pin h1 soon free unit)), ?_, State.pinFree_ownPin _ pin _, ?_,
      (State.armPlan_only ((Only.refl _ s).mapCam (by simp) ..) (by simp) ..).time (by simp) _⟩
    · rw [State.ownPin_cam, State.armPlan_cam, State.cam_mapCam_fin]
      rfl
    · exact State.compare_armPlan inside rfl rfl _

end Sys2Proof

section
/-!
SUPPORT. The end of a run and a context that stops without a command leave the tables of units, pair operation's state and the part alone.
-/
namespace Sys2Proof.Machine

set_option Elab.async false

variable {s t : State}

theorem Outside.mapCam (h : Outside s t) (k : Nat) (f : CamCtx → CamCtx) : Outside s (t.mapCam k f) := h.other

theorem Outside.of_aside {u : State} (h : Outside s t) (k : Aside t u) : Outside s u := h.trans k.toOutside

theorem Outside.mapEncs (h : Outside s t) (p : EncSession → Bool) (f : EncSession → EncSession) : Outside s (t.mapEncs p f) := h.other

theorem Outside.mapJm (h : Outside s t) (f : JmSt → JmSt) : Outside s (t.mapJm f) := h.other

/-- An update of pair operation that keeps its state. -/
theorem Outside.mapPair (h : Outside s t) {f : PairSt → PairSt} (hf : ∀ p, (f p).state = p.state := by exact fun _ => rfl) : Outside s (t.mapPair f) :=
  h.trans ⟨rfl, rfl, hf _, rfl⟩

theorem Outside.sendCtrl (h : Outside s t) (k op flags when_ arg : Nat) (es : List Byte) (why : CtrlWhy) :
    Outside s (t.sendCtrl k op flags when_ arg es why) := h.of_aside ((Aside.refl t).sendCtrl ..)

theorem Outside.cutPlan (h : Outside s t) (k : Nat) : Outside s (t.cutPlan k) := by
  have cut (o : Option Nat) {u : State} (h : Outside s u) (start stop : Nat) :
      Outside s (match o with | some n => u.cutUnit n start stop | none => u) := by
    split
    · exact h.of_aside ((Aside.refl _).cutUnit ..)
    · exact h
  unfold State.cutPlan
  split
  · exact h
  · exact .ite ((cut _ (h.mapCam ..) ..).sendCtrl ..) (cut _ (h.mapCam ..) ..)

theorem Outside.closeDropped (h : Outside s t) (k : Nat) (r : LedgerRec) (cause : Nat) : Outside s (t.closeDropped k r cause) :=
  (h.mapCam k (fun c => { c with cnt := c.cnt.dropped cause (r.has 13) })).of_aside (Aside.closeDropped t k r cause)

theorem Outside.dropFrame (h : Outside s t) (k : Nat) (f : CamFrame) (cause : Nat) : Outside s (t.dropFrame k f cause) :=
  (h.mapCam ..).closeDropped ..

theorem Outside.discardFrames (h : Outside s t) (k : Nat) : Outside s (t.discardFrames k).1 := .foldl _ (fun _ _ h => h.dropFrame ..) _ h

theorem Outside.releaseCtx (h : Outside s t) (k : Nat) : Outside s (t.releaseCtx k) :=
  Outside.mapCam (h.of_aside (.foldl _ (fun _ _ h => h.endJob ..) _ ((Aside.refl t).dropApplies ..))) ..

/-! ### Sessions whose camera's run has ended -/

theorem Outside.recGone (h : Outside s t) (k : Nat) (hd : Handle) (i : Nat) : Outside s (t.recGone k hd i) := by
  unfold State.recGone
  exact .foldl _ (fun _ _ h => h.logErrorPost _) _ h.other

theorem Outside.putEncStat (h : Outside s t) (e : EncSession) (seq : Nat) (bs : List Byte) : Outside s (t.putEncStat e seq bs) := h.other

theorem Outside.encStopFrames (h : Outside s t) (hd : Handle) (discard : Bool) : Outside s (t.encStopFrames hd discard) := by
  unfold State.encStopFrames
  split
  · exact h
  · exact Outside.mapEncs (.foldl _ (fun _ _ h => h.putEncStat ..) _ (.foldl _ (fun _ _ h => h.mapCam ..) _ h)) ..

theorem Outside.encFinishClose (h : Outside s t) (hd : Handle) : Outside s (t.encFinishClose hd) := by
  unfold State.encFinishClose
  split
  · exact h
  next e _ =>
    have ended (l : List IdrTarget) {u : State} (h : Outside s u) (p : EncSession → Bool) (f : EncSession → EncSession) :
        Outside s ((if e.released then l.foldl (fun u x => u.finish x.by_ .notReady 0x61 0 false) u
          else (l.foldl (fun u x => u.finish x.by_ .notReady 0x61 0 false) u).recGone 1 hd 0).mapEncs p f) :=
      Outside.mapEncs (.ite (.foldl _ (fun _ _ h => h.finish ..) _ h) (Outside.recGone (.foldl _ (fun _ _ h => h.finish ..) _ h) ..)) ..
    have gone {u : State} (h : Outside s u) : Outside s { u with encs := u.encs.filter (fun x => x.handle != hd) } := h.other
    refine .ite h (.ite h (.ite ?_ (ended _ (h.mapCam ..) ..)))
    exact (gone (ended _ (h.mapCam ..) ..)).finishOpt ..

theorem Outside.runEnded (h : Outside s t) (k : Nat) : Outside s (t.runEnded k) := by
  have encs : Outside s (t.encRunEnded k) := .foldl _ (fun _ _ h => ((h.encStopFrames ..).mapEncs ..).encFinishClose _) _ h
  have recs : Outside s ((t.encRunEnded k).recRunEnded k) := ((encs.recGone ..).recGone ..).recGone ..
  have engines : Outside s (((t.encRunEnded k).recRunEnded k).jmRunEnded k) := .foldl _ (fun _ _ h => h.finish ..) _ (recs.mapJm _)
  exact engines.of_aside (Aside.refl _).jmSettle

theorem Outside.handOn (h : Outside s t) : Outside s t.handOn := by
  refine .foldl _ (fun u x h => ?_) _ h
  refine .ite h ?_
  split
  · exact h
  · exact Outside.of_aside (h.mapPair) ((Aside.refl _).queueCtrl ..)

theorem Outside.stopIfDone (h : Outside s t) (k : Nat) : Outside s (t.stopIfDone k) := by
  unfold State.stopIfDone
  dsimp only
  split
  · exact h
  · refine .ite h (.foldl _ (fun _ _ h => h.finish ..) _ (Outside.handOn (Outside.of_aside ?_ (Aside.refl _).jmSettle)))
    exact .ite ((h.runEnded k).releaseCtx k) ((h.runEnded k).mapCam ..)

theorem Outside.stopQuiet (h : Outside s t) (discard : Bool) (k : Nat) : Outside s (t.stopQuiet discard k) := by
  unfold State.stopQuiet
  refine .ite h (Outside.stopIfDone (Outside.mapCam ?_ ..) _)
  split
  · exact (h.cutPlan k).discardFrames k
  · exact h.cutPlan k

theorem Outside.stopHubs (l : List Nat) (h : Outside s t) :
    Outside s (l.foldl (fun (u : State) (i : Nat) => if pfOzoth (u.cam i).profile then u.stopQuiet true i else u) t) :=
  .foldl _ (fun _ _ h => .ite (h.stopQuiet ..) h) l h

/-- A part that is a KX-4896D and draws NAK reason 2 is FENCED (R437). -/
theorem State.pairFenced_state (hd : s.dev.isD = true) : s.pairFenced.mgmt.pair.state = .fenced := by
  unfold State.pairFenced
  split
  next out => simpa [hd] using out
  · have stopped (u : State) := (((Outside.refl u).stopHubs (List.range 48)).post .unitFenced (unitHandle 0x0E s.dev.inst)).pair
    dsimp only
    rw [stopped]
    rfl

end Sys2Proof.Machine
end

section
/-!
SUPPORT. The state of a hub control channel (R82, R83): what an answer, a start that goes on and the settling of jobs and applies leave of it.
-/
namespace Sys2Proof.Machine

set_option Elab.async false

variable {s t : State} {i : Fin 48}

/-- What a context records of its control channel: the run of failed cells, whether the channel is bound, and whether it has failed. -/
def CamCtx.link (c : CamCtx) : Nat × Bool × Bool := (c.failRun, c.bound, c.failed)

theorem CamCtx.link_core (c : CamCtx) : c.core.link = c.link := rfl

theorem Aside.sendEntries (h : Aside s t) (k : Nat) (j : SensorJob) : Aside s (t.sendEntries k j) :=
  Aside.mapCam (.foldl _ (fun _ _ h => h.sendCtrl ..) _ h)

theorem Aside.sendJobs (h : Aside s t) (k : Nat) : Aside s (t.sendJobs k) := .foldl _ (fun _ _ h => h.sendEntries ..) _ h

theorem Aside.jobSettles (h : Aside s t) (k : Nat) (r : CmdRef) : Aside s (t.jobSettles k r) := by
  unfold State.jobSettles
  dsimp only
  split
  · exact h
  · exact .ite (.ite h ((h.logError _).endJob ..)) (.ite (h.endJob ..) h)

theorem Aside.ackEntries (h : Aside s t) (k : Nat) (r : CmdRef) (n fc : Nat) (bs : List Byte) : Aside s (t.ackEntries k r n fc bs) :=
  Aside.jobSettles (h.mapCam) ..

theorem Aside.breakApply (h : Aside s t) (k id n : Nat) (gs : List Nat) : Aside s (t.breakApply k id n gs) := Aside.dropWaiting (h.mapCam) ..

theorem Aside.applySettles (h : Aside s t) (k id : Nat) : Aside s (t.applySettles k id) := by
  unfold State.applySettles
  dsimp only
  split
  · exact h
  · exact .ite h ((h.logError _).endApply ..)

theorem Aside.failApply (h : Aside s t) (k id : Nat) (gs : List Nat) (st : Status) (r0 r1 : Nat) : Aside s (t.failApply k id gs st r0 r1) := by
  unfold State.failApply
  dsimp only
  split
  · exact (h.breakApply ..).endApply ..
  · exact h.breakApply ..

/-! ### What a frame's record and a start keep -/

theorem State.keep_mapRecord {α : Type} {π : CamCtx → α} (hπ : ∀ (c : CamCtx) fs, π { c with frames := fs } = π c) (s : State) (k fn : Nat)
    (f : LedgerRec → LedgerRec) (j : Nat) : π ((s.mapRecord k fn f).cam j) = π (s.cam j) := by
  have kept : π ((s.mapFrame k fn (fun x => { x with rcd := f x.rcd })).cam j) = π (s.cam j) := s.keep_mapCam k (fun c => hπ c _) j
  unfold State.mapRecord
  dsimp only
  split
  · rwa [State.cam_of_cams_eq (State.putRecord_cams ..)]
  · exact kept

theorem State.link_startRun (s : State) (k : Nat) (r : Option CmdRef) (j : Nat) : ((s.startRun k r).cam j).link = (s.cam j).link := by
  unfold State.startRun
  dsimp only
  split
  · rw [State.cam_of_cams_eq (State.finishOpt_cams ..)]
    exact s.keep_mapCam (π := CamCtx.link) k (fun _ => by rfl) j
  · rw [State.cam_of_cams_eq (State.finishOpt_cams ..), State.keep_missedTriggers (π := CamCtx.link) (fun _ _ _ => rfl),
      State.keep_beginPlan CamCtx.link_core, State.cam_mapCam]
    split
    next own => rw [own.1]; rfl
    · rfl

theorem State.link_afterBind (s : State) (k : Nat) (r : Option CmdRef) (j : Nat) : ((s.afterBind k r).cam j).link = (s.cam j).link := by
  have dropped : Aside s ((s.dropApplies k (fun a => !a.atStart)).mapCam k (fun c => { c with writes := [] })) := Aside.mapCam ((Aside.refl s).dropApplies ..)
  unfold State.afterBind
  dsimp only
  split
  · rw [State.link_startRun, dropped.keep CamCtx.link_core]
  · exact (Aside.foldl _ (fun _ _ h => Aside.sendApply (h.mapCam) ..) _ dropped).keep CamCtx.link_core j

theorem State.link_startGoesOn (s : State) (k j : Nat) : ((s.startGoesOn k).cam j).link = (s.cam j).link := by
  unfold State.startGoesOn
  dsimp only
  split
  · split
    · split
      · exact (Aside.sendApply (Aside.mapCam (.refl s)) ..).keep CamCtx.link_core j
      · exact s.link_startRun ..
    · rfl
  · rfl

theorem State.link_ackApply (s : State) (k id : Nat) (gs : List Nat) (fc j : Nat) : ((s.ackApply k id gs fc).cam j).link = (s.cam j).link := by
  have flagged (ws : List GroupWrite) (n : GroupWrite → Nat) (u : State) :
      ((ws.foldl (fun u w => u.flagFrame k (n w) 18) u).cam j).link = (u.cam j).link :=
    List.foldlRecOn (motive := fun v : State => (v.cam j).link = (u.cam j).link) ws _ rfl fun v hv w _ =>
      (State.keep_mapRecord (π := CamCtx.link) (fun _ _ => rfl) ..).trans hv
  refine (flagged _ _ _).trans ?_
  exact (State.keep_mapCam _ (π := CamCtx.link) k (fun _ => by rfl) j).trans (s.keep_mapCam (π := CamCtx.link) k (fun _ => by rfl) j)

/-! ### Answers -/

theorem State.goodAnswer_link (s : State) (i : Fin 48) (w : CtrlCell) :
    ((s.goodAnswer i.val w).cam i.val).link = (0, (s.cam i.val).bound, (s.cam i.val).failed) := by
  unfold State.goodAnswer
  rw [State.cam_mapCam_fin]
  refine Prod.ext rfl (Prod.ext ?_ ?_)
  · exact State.keep_dropCtrl (π := CamCtx.bound) (fun _ _ _ _ => rfl) ..
  · exact State.keep_dropCtrl (π := CamCtx.failed) (fun _ _ _ _ => rfl) ..

/-- The context of a BIND that has been acknowledged. -/
def State.markBound (k : Nat) (s : State) : State := s.mapCam k (fun c => { c with bound := true, failed := false })

/-- After an answer the run of failed cells is over; a BIND's answer marks the channel bound and good. -/
theorem State.acked_link (s : State) (i : Fin 48) (w : CtrlCell) (fc : Nat) : ((s.acked i.val w fc).cam i.val).link =
    (0, if w.why = .bindStart ∨ w.why = .bindWrite then (true, false) else ((s.cam i.val).bound, (s.cam i.val).failed)) := by
  have answer := s.goodAnswer_link i w
  generalize ht : s.goodAnswer i.val w = t at answer
  have good : ((t.markBound i.val).cam i.val).link = (0, true, false) := by
    rw [State.markBound, State.cam_mapCam_fin]
    have run : (t.cam i.val).failRun = 0 := congrArg Prod.fst answer
    simp only [CamCtx.link, run]
  have jobs := ((Aside.refl (t.markBound i.val)).sendJobs i.val).keep CamCtx.link_core i.val
  unfold State.acked
  rw [ht]
  cases hw : w.why with
  | bindStart =>
    rw [if_pos (by simp)]
    dsimp only
    split
    · rw [State.link_afterBind]
      exact jobs.trans good
    · exact good
  | bindWrite =>
    rw [if_pos (by simp)]
    exact jobs.trans good
  | entries r first n =>
    rw [if_neg (by simp), ← answer]
    exact ((Aside.refl t).ackEntries ..).keep CamCtx.link_core i.val
  | apply id gs =>
    rw [if_neg (by simp), ← answer]
    dsimp only
    rw [State.link_startGoesOn, ((Aside.refl _).applySettles ..).keep CamCtx.link_core, State.link_ackApply]
  | trigger k => rw [if_neg (by simp), ← answer]
  | cancel => rw [if_neg (by simp), ← answer]
  | owner hub => rw [if_neg (by simp), ← answer]

end Sys2Proof.Machine
end

section
/-!
SUPPORT. Cells that fail (R81, R83, R437): what a NAK and a third resend without an answer count, and NAK reason 2.
-/
namespace Sys2Proof.Machine

set_option Elab.async false

variable {s t : State} {i : Fin 48}

/-- What a context counts of failed cells. -/
def CamCtx.failures (c : CamCtx) : Nat × Bool × Word := (c.failRun, c.failed, c.cnt.fails)

theorem CamCtx.failures_core (c : CamCtx) : c.core.failures = c.failures := rfl

theorem State.failures_countFail (s : State) (i : Fin 48) : ((s.countFail i.val).cam i.val).failures =
    ((s.cam i.val).failRun + 1, (s.cam i.val).failed || decide (3 ≤ (s.cam i.val).failRun + 1), (s.cam i.val).cnt.fails.satInc) := by
  unfold State.countFail State.countCam
  rw [State.cam_mapCam_fin, State.cam_mapCam_fin]
  rfl

theorem State.failures_startFails (s : State) (k : Nat) (st : Status) (r0 r1 : Nat) (lg : Bool) (j : Nat) :
    ((s.startFails k st r0 r1 lg).cam j).failures = (s.cam j).failures :=
  State.keep_startFails CamCtx.failures_core (fun _ _ => rfl) ..

/-- A failed cell counts once, whatever it was sent for. -/
theorem State.cellFails_failures (s : State) (i : Fin 48) (w : CtrlCell) (n : Nat) : ((s.cellFails i.val w n).cam i.val).failures =
    ((s.cam i.val).failRun + 1, (s.cam i.val).failed || decide (3 ≤ (s.cam i.val).failRun + 1), (s.cam i.val).cnt.fails.satInc) := by
  have dropped : ((s.dropCtrl i.val w.seq).cam i.val).failures = (s.cam i.val).failures :=
    State.keep_dropCtrl (π := CamCtx.failures) (fun _ _ _ _ => rfl) ..
  simp only [CamCtx.failures, Prod.mk.injEq] at dropped
  obtain ⟨run, failed, count⟩ := dropped
  have counted := (s.dropCtrl i.val w.seq).failures_countFail i
  rw [run, failed, count] at counted
  rw [← counted]
  generalize ht : (s.dropCtrl i.val w.seq).countFail i.val = t
  unfold State.cellFails
  rw [ht]
  dsimp only
  split
  case h_1 =>
    rw [State.failures_startFails]
    exact ((Aside.refl t).logError _).keep CamCtx.failures_core i.val
  case h_2 => exact (Aside.foldl _ (fun _ _ h => (h.logError _).endJob ..) _ (.refl t)).keep CamCtx.failures_core i.val
  case h_3 => exact (((Aside.refl t).dropWaiting ..).mapCam.jobSettles ..).keep CamCtx.failures_core i.val
  case h_4 id gs _ =>
    have settled := (((Aside.refl t).breakApply i.val id n gs).applySettles i.val id).keep CamCtx.failures_core i.val
    split
    · exact (State.failures_startFails ..).trans settled
    · exact settled
  all_goals exact ((Aside.refl t).logError _).keep CamCtx.failures_core i.val

theorem Outside.startFails (h : Outside s t) (k : Nat) (st : Status) (r0 r1 : Nat) (lg : Bool) : Outside s (t.startFails k st r0 r1 lg) :=
  (h.mapCam ..).of_aside (Aside.startFails t k st r0 r1 lg)

/-- A cell that draws NAK reason 2 fences a KX-4896D (R84, R437). -/
theorem State.cellFenced_state (hd : s.dev.isD = true) (k : Nat) (w : CtrlCell) : (s.cellFenced k w).mgmt.pair.state = .fenced := by
  have dropped (e : Nat) (me : Handle) : Outside s ((s.dropCtrl k w.seq).dropStale me e) := (((Aside.refl s).dropCtrl k w.seq).logError _).toOutside
  unfold State.cellFenced
  dsimp only
  apply State.pairFenced_state
  refine Eq.trans (congrArg Device.isD (Outside.dev ?_)) hd
  split
  case h_1 => exact (dropped ..).startFails ..
  case h_2 => exact .foldl _ (fun _ _ h => h.of_aside ((Aside.refl _).endJob ..)) _ (dropped ..)
  case h_3 => exact .ite ((dropped ..).of_aside ((Aside.refl _).endJob ..)) (dropped ..)
  case h_4 =>
    exact .ite (((dropped ..).of_aside ((Aside.refl _).failApply ..)).startFails ..) ((dropped ..).of_aside ((Aside.refl _).failApply ..))
  case h_5 => exact dropped ..

end Sys2Proof.Machine
end

section
/-!
SUPPORT. Sensor writes (R82): the command, the entries that are acknowledged, and the data that a cell has read.
-/
namespace Sys2Proof.Machine

set_option Elab.async false

variable {s t : State} {i : Fin 48}

theorem firstBad_of_all {l : List (Nat × Bool)} (h : ∀ x ∈ l, x.2 = true) : firstBad l = none := by
  induction l with
  | nil => rfl
  | cons x l ih =>
    unfold firstBad
    rw [if_pos (h x (by simp))]
    exact ih fun y hy => h y (List.mem_cons_of_mem _ hy)

/-! ### The command -/

section
variable {c : Cmd} {list : List Byte}

/-- The job of a CAM_SENSOR_WRITE. -/
def writeJob (c : Cmd) (list : List Byte) : SensorJob :=
  { by_ := ref .camSensorWrite c, ptr := c.ptr.toNat, inDev := c.ptrSpace == 1, list := list, sent := 0, acked := 0, broken := false }

/-- The state in which the job of a sensor write waits. -/
def State.addJob (k : Nat) (j : SensorJob) (s : State) : State := s.mapCam k (fun y => { y with sensor := y.sensor ++ [j] })

variable (ha : Accepted .camSensorWrite c s) (hf : s.cams.find c.handle = some i.val) (hl : structBytes s c = .ok list)
  (oz : pfOzoth (s.cam i.val).profile = true) (whole : c.ptrLen.toNat % 8 = 0) (some_ : 8 ≤ c.ptrLen.toNat) (most : c.ptrLen.toNat ≤ 2048)
  (entries : ∀ k, k < c.ptrLen.toNat / 8 →
    f8 (slice list (8 * k) 8) 0 ≤ 2 ∧ refusedEntry (s.cam i.val).profile (slice list (8 * k) 8) = false)
  (free : c.ptrSpace = 1 → needUnpinned s c.ptr.toNat c.ptrLen.toNat = .ok ())
include ha hf hl oz whole some_ most entries free

/-- A sensor write whose entries hold waits for a BIND, sends one, or sends its entries. -/
theorem execCamSensorWrite_eq (ready : (s.cam i.val).state = .configured ∨ (s.cam i.val).state = .suspended ∨ (s.cam i.val).failed = false) :
    execCamSensorWrite c s = .next (State.keepInFlight (ref .camSensorWrite c)
      (if ((s.cam i.val).unacked ++ (s.cam i.val).waiting).any (fun u => u.why == .bindStart) then s.addJob i.val (writeJob c list)
      else if ((s.cam i.val).state == .configured || (s.cam i.val).state == .suspended) && (!(s.cam i.val).bound || (s.cam i.val).failed) then
        if (s.cam i.val).unacked.any (fun u => u.why == .bindWrite) then s.addJob i.val (writeJob c list)
        else (s.addJob i.val (writeJob c list)).sendBind i.val .bindWrite
      else (s.addJob i.val (writeJob c list)).sendEntries i.val (writeJob c list))) := by
  have length : (c.ptrLen.toNat % 8 == 0 && decide (8 ≤ c.ptrLen.toNat) && decide (c.ptrLen.toNat ≤ 2048)) = true := by simp [whole, some_, most]
  have fields : firstBad (((List.range (c.ptrLen.toNat / 8)).map (fun k => (8 * k, slice list (8 * k) 8))).map
      (fun e => (e.1, decide (f8 e.2 0 ≤ 2) && !refusedEntry (s.cam i.val).profile e.2))) = none := by
    refine firstBad_of_all fun x hx => ?_
    simp only [List.map_map, List.mem_map, List.mem_range, Function.comp_apply] at hx
    obtain ⟨k, hk, rfl⟩ := hx
    simp [entries k hk]
  have unpinned (b : Bool) (k : Unit → Chk Done) :
      (if (decide (c.ptrSpace = 1) && b) = true then needUnpinned s c.ptr.toNat c.ptrLen.toNat >>= k else k ()) = k () := by
    split
    next h =>
      simp only [Bool.and_eq_true, decide_eq_true_eq] at h
      rw [free h.1]
      rfl
    · rfl
  have good : ((s.cam i.val).state == .configured || (s.cam i.val).state == .suspended || !(s.cam i.val).failed) = true := by
    rcases ready with h | h | h <;> simp [h]
  unfold execCamSensorWrite
  refine runCmd_waits ha ?_
  simp only [needCam_of_find hf, ok_bind, length, oz, need_bind_true, hl, needFields_of_firstBad fields, good]
  refine (unpinned _ _).trans ?_
  unfold waitDone State.addJob writeJob
  split
  · rfl
  · split
    · split <;> rfl
    · rfl

end

/-! ### Entries that are acknowledged -/

theorem State.goodAnswer_sensor (s : State) (i : Fin 48) (w : CtrlCell) : ((s.goodAnswer i.val w).cam i.val).sensor = (s.cam i.val).sensor := by
  unfold State.goodAnswer
  rw [State.cam_mapCam_fin]
  exact State.keep_dropCtrl (π := CamCtx.sensor) (fun _ _ _ _ => rfl) ..

theorem State.goodAnswer_only {ps : List Part} (h : Only ps s t) (hs : [.cams, .lanes, .out] ⊆ ps) (k : Nat) (w : CtrlCell) :
    Only ps s (t.goodAnswer k w) := (State.dropCtrl_only h hs ..).mapCam (hs (by simp)) ..

/-- With the last entry of a sensor write acknowledged its command completes (R82). -/
theorem State.acked_lastEntries {w : CtrlCell} {r : CmdRef} {first count fc : Nat} {j : SensorJob} (hw : w.why = .entries r first count)
    (hj : (s.cam i.val).sensor.find? (fun y => y.by_ == r) = some j) (sound : j.broken = false) (last : j.acked + count = j.list.length / 8) :
    ∃ u : State, s.acked i.val w fc = u.finish r .ok (j.acked + count) 0 false ∧ (∀ y ∈ (u.cam i.val).sensor, y.by_ ≠ r) ∧
      Only [.cams, .lanes, .out] s u := by
  have updated : (updWhere (fun j : SensorJob => j.by_ == r) (fun j => { j with acked := j.acked + count }) (s.cam i.val).sensor).find?
      (fun y => y.by_ == r) = some { j with acked := j.acked + count } := by
    rw [find?_updWhere (fun _ => by rfl), hj]
    rfl
  unfold State.acked State.ackEntries State.jobSettles
  simp only [hw, State.cam_mapCam_fin, State.goodAnswer_sensor, updated, sound, Bool.false_eq_true, if_false, last, if_true]
  refine ⟨_, rfl, fun y hy => ?_, ?_⟩
  · rw [State.dropWaiting, State.cam_mapCam_fin, State.cam_mapCam_fin] at hy
    simpa using (List.mem_filter.mp hy).2
  · exact (((State.goodAnswer_only (.refl _ s) (by simp) ..).mapCam (by simp) ..).mapCam (by simp) ..).mapCam (by simp) ..

/-! ### Data that a cell has read -/

/-- One entry of a cell goes back into the entry list of its job (R82): bytes 4 to 7 of a read entry. -/
def SensorJob.returnEntry (j : SensorJob) (first : Nat) (es : List Byte) (t : State) (k : Nat) : State :=
  if f8 j.list (8 * (first + k)) != 1 then t
  else if j.inDev then t.writeMem (j.ptr + 8 * (first + k) + 4) (slice es (8 * k + 4) 4)
  else t.emit (.hostWrite (j.ptr + 8 * (first + k) + 4) (slice es (8 * k + 4) 4))

theorem State.returnReads_eq {r : CmdRef} {j : SensorJob} (hj : (s.cam i.val).sensor.find? (fun y => y.by_ == r) = some j) (first count : Nat)
    (es : List Byte) : s.returnReads i.val r first count es = (List.range count).foldl (j.returnEntry first es) s := by
  unfold State.returnReads
  rw [hj]
  rfl

theorem SensorJob.returnEntry_only (j : SensorJob) (first : Nat) (es : List Byte) {ps : List Part} (h : Only ps s t) (hs : [.bytes, .out] ⊆ ps)
    (k : Nat) : Only ps s (j.returnEntry first es t k) :=
  .ite h (.ite (h.writeMem (hs (by simp)) ..) (h.out (hs (by simp)) _))

theorem SensorJob.returnEntry_inv (j : SensorJob) (first : Nat) (es : List Byte) (h : Inv t) (k : Nat) : Inv (j.returnEntry first es t k) := by
  unfold SensorJob.returnEntry
  split
  · exact h
  · split
    · exact h.writeMem ..
    · exact h.emit _

theorem Memory.read_write_of_apart {m : Memory} (h : m.wf = true) {a b n : Nat} {bs : List Byte} (apart : b + n ≤ a ∨ a + bs.length ≤ b) :
    (m.write a bs).read b n = m.read b n := by
  rw [Memory.read_eq, Memory.read_eq]
  refine List.map_congr_left fun k hk => ?_
  have := List.mem_range.mp hk
  rw [Memory.byte_write h, if_neg (by omega)]

/-- Where the entry list is in device memory, each read entry's bytes 4 to 7 hold what was read. -/
theorem SensorJob.returned_inDev (j : SensorJob) (dev : j.inDev = true) (first : Nat) (es : List Byte) (hs : Inv s) (n : Nat) (hn : 8 * n ≤ es.length) :
    ∀ k, k < n → f8 j.list (8 * (first + k)) = 1 →
      ((List.range n).foldl (j.returnEntry first es) s).readMem (j.ptr + 8 * (first + k) + 4) 4 = slice es (8 * k + 4) 4 := by
  induction n with
  | zero => exact fun k hk => absurd hk (by omega)
  | succ n ih =>
    intro k hk kind
    have inv : Inv ((List.range n).foldl (j.returnEntry first es) s) :=
      List.foldlRecOn (motive := Inv) _ _ hs fun t h k _ => j.returnEntry_inv first es h k
    have size (k : Nat) (hk : k < n + 1) : (slice es (8 * k + 4) 4).length = 4 := by simp [slice]; omega
    have before := ih (by omega) k
    rw [List.range_succ, List.foldl_append, List.foldl_cons, List.foldl_nil]
    generalize (List.range n).foldl (j.returnEntry first es) s = u at inv before ⊢
    rcases Nat.lt_succ_iff_lt_or_eq.mp hk with earlier | rfl
    · have before := before earlier kind
      unfold SensorJob.returnEntry
      split
      · exact before
      · refine Eq.trans ?_ before
        refine Memory.read_write_of_apart inv (.inl ?_)
        omega
    · unfold SensorJob.returnEntry
      rw [if_neg (by simp [kind]), if_pos dev]
      have back := Memory.read_write inv (j.ptr + 8 * (first + k) + 4) (slice es (8 * k + 4) 4)
      rw [size k hk] at back
      exact back

/-- Where it is in host memory, they are written there. -/
theorem SensorJob.returned_host (j : SensorJob) (host : j.inDev = false) (first : Nat) (es : List Byte) (n : Nat) :
    ∀ k, k < n → f8 j.list (8 * (first + k)) = 1 →
      .hostWrite (j.ptr + 8 * (first + k) + 4) (slice es (8 * k + 4) 4) ∈ ((List.range n).foldl (j.returnEntry first es) s).out := by
  induction n with
  | zero => exact fun k hk => absurd hk (by omega)
  | succ n ih =>
    intro k hk kind
    have before := ih k
    rw [List.range_succ, List.foldl_append, List.foldl_cons, List.foldl_nil]
    generalize (List.range n).foldl (j.returnEntry first es) s = u at before ⊢
    unfold SensorJob.returnEntry
    rcases Nat.lt_succ_iff_lt_or_eq.mp hk with earlier | rfl
    · have before := before earlier kind
      split
      · exact before
      · rw [if_neg (by simp [host])]
        exact List.mem_cons_of_mem _ before
    · rw [if_neg (by simp [kind]), if_neg (by simp [host])]
      exact List.mem_cons_self

/-- READ_DATA is the return of what was read and an acknowledgement (R82). -/
theorem execReadData_entries {seq fc first count : Nat} {w : CtrlCell} {r : CmdRef} {es : List Byte}
    (hfind : (s.cam i.val).unacked.find? (fun y => y.seq == seq) = some w) (hw : w.why = .entries r first count) :
    execReadData i seq fc es s = .next ((s.returnReads i.val r first count es).acked i.val w fc) := by
  unfold execReadData
  rw [hfind]
  dsimp only
  rw [hw]

end Sys2Proof.Machine
end

section
/-!
SUPPORT. The events of the control channel (R81, R82, R83): ACK, READ_DATA, NAK and CONTROL_CELL_RESEND of a cell that waits for its answer.
-/
namespace Sys2Proof.Machine

set_option Elab.async false

variable {s : State} {i : Fin 48} {seq fc : Nat} {w : CtrlCell}

theorem execReadData_link (hw : (s.cam i.val).unacked.find? (fun y => y.seq == seq) = some w) (es : List Byte) :
    ∃ t : State, execReadData i seq fc es s = .next t ∧ (t.cam i.val).failRun = 0 := by
  unfold execReadData
  rw [hw]
  dsimp only
  split
  · exact ⟨_, rfl, congrArg Prod.fst (State.acked_link ..)⟩
  · exact ⟨_, rfl, congrArg Prod.fst (State.acked_link ..)⟩

/-- A cell that has its answer leaves the list; the cell that takes its place was waiting. -/
theorem State.dropCtrl_unacked (s : State) (i : Fin 48) (n : Nat) :
    ∀ y ∈ ((s.dropCtrl i.val n).cam i.val).unacked, y.seq = n → y ∈ (s.cam i.val).waiting := by
  intro y hy same
  have gone : y ∉ (s.cam i.val).unacked.filter (fun x => x.seq != n) := fun h => by simpa [same] using (List.mem_filter.mp h).2
  unfold State.dropCtrl at hy
  simp only [State.cam_mapCam_fin] at hy
  split at hy
  · exact absurd (by simpa using hy) gone
  next x rest waits =>
    split at hy
    · simp only [State.emitCtrl_cam, State.cam_mapCam_fin, List.mem_append, List.mem_singleton] at hy
      rcases hy with hy | rfl
      · exact absurd hy gone
      · rw [waits]
        exact List.mem_cons_self
    · exact absurd (by simpa using hy) gone

/-- The acknowledgement of a trigger or of a cancel only drops its cell. -/
theorem State.acked_dropped (hw : (∃ k, w.why = .trigger k) ∨ w.why = .cancel) : s.acked i.val w fc = s.goodAnswer i.val w := by
  unfold State.acked
  rcases hw with ⟨k, e⟩ | e <;> simp only [e]

theorem execNak_trigger (hw : (s.cam i.val).unacked.find? (fun y => y.seq == seq) = some w) {k : Nat} (why : w.why = .trigger k) (n : Nat) :
    execNak i seq 3 n s = .next (s.dropCtrl i.val seq) := by
  unfold execNak
  rw [hw]
  simp [why]

theorem execNak_refused (hw : (s.cam i.val).unacked.find? (fun y => y.seq == seq) = some w) (n : Nat) :
    execNak i seq 1 n s = .next (s.cellFails i.val w n) := by
  unfold execNak
  rw [hw]
  dsimp only
  rw [if_neg (by simp), if_pos rfl]
  split
  next three => exact absurd three (by simp)
  · rfl

theorem execNak_fenced (hw : (s.cam i.val).unacked.find? (fun y => y.seq == seq) = some w) (n : Nat) :
    execNak i seq 2 n s = .next (s.cellFenced i.val w) := by
  unfold execNak
  rw [hw]
  rfl

/-! ### Resends -/

theorem isBind_iff (w : CtrlCell) : w.isBind = true ↔ w.why = .bindStart ∨ w.why = .bindWrite := by simp [CtrlCell.isBind]

theorem execControlCellResend_again (hw : (s.cam i.val).unacked.find? (fun y => y.seq == seq) = some w) (left : w.resends < 3) :
    execControlCellResend i seq s = .next (s.resendCell i.val w) := by
  unfold execControlCellResend
  rw [hw]
  exact if_pos left

theorem State.resendCell_counts (mem : w ∈ (s.cam i.val).unacked) : ((s.resendCell i.val w).cam i.val).cnt.resends = (s.cam i.val).cnt.resends.satInc ∧
    { w with resends := w.resends + 1 } ∈ ((s.resendCell i.val w).cam i.val).unacked ∧ Only [.cams, .lanes, .out] s (s.resendCell i.val w) := by
  unfold State.resendCell State.countCam
  dsimp only
  rw [State.emitCtrl_cam, State.cam_mapCam_fin, State.cam_mapCam_fin]
  exact ⟨rfl, mem_updWhere.mpr ⟨w, mem, by simp⟩, State.emitCtrl_only (((Only.refl _ s).mapCam (by simp) ..).mapCam (by simp) ..) (by simp) ..⟩

theorem execControlCellResend_fails (hw : (s.cam i.val).unacked.find? (fun y => y.seq == seq) = some w) (spent : 3 ≤ w.resends)
    (other : w.isBind = false) : execControlCellResend i seq s = .next (s.cellFails i.val w 0) := by
  unfold execControlCellResend
  rw [hw]
  dsimp only
  rw [if_neg (by omega), if_neg (by simp [other])]

/-- A BIND cell that has been resent three times counts as failed, and its command waits on. -/
theorem execControlCellResend_bind (hw : (s.cam i.val).unacked.find? (fun y => y.seq == seq) = some w) (spent : w.resends = 3)
    (bind : w.isBind = true) : ∃ t : State, execControlCellResend i seq s = .next t ∧ (t.cam i.val).failRun = (s.cam i.val).failRun + 1 ∧
    (t.cam i.val).starting = (s.cam i.val).starting ∧ Only [.cams] s t := by
  unfold execControlCellResend
  rw [hw]
  dsimp only
  rw [if_neg (by omega), if_pos bind, if_pos spent]
  refine ⟨_, rfl, ?_, ?_, State.countFail_only ((Only.refl _ s).mapCam (by simp) ..) (by simp) _⟩
  · refine (congrArg Prod.fst (State.failures_countFail ..)).trans ?_
    rw [State.cam_mapCam_fin]
  · rw [State.keep_countFail (π := CamCtx.starting) (fun _ _ => rfl) (fun _ _ _ => rfl), State.cam_mapCam_fin]

end Sys2Proof.Machine
end

namespace Sys2Proof

set_option Elab.async false

open Machine

/-- Settles O38: each answer of the hub is read through the state of the channel that it leaves, and the frame of the cells and jobs (log 23 for a
BIND that counts one failure while its command waits on). -/
theorem controlCellsAreAnswered : Obligations.ControlCellsAreAnswered := by
  unfold Obligations.ControlCellsAreAnswered
  intro c s i
  refine ⟨fun list ha hf hl oz whole least most entries free => ?_, fun seq fc w hw => ⟨?_, fun es => execReadData_link hw es, fun k why => ?_,
    fun r first count j why hj => ⟨fun sound last => ?_, fun es size inv => ?_⟩, fun n => ⟨fun k why => execNak_trigger hw why n, ?_, fun dev => ?_⟩,
    fun left => ?_, fun spent start write => ?_, fun spent bind => ?_⟩⟩
  · have command := execCamSensorWrite_eq ha hf hl oz whole least most entries free
    refine ⟨s.addJob i.val (writeJob c list), State.cam_mapCam_fin .., State.mapCam_only .., fun binding idle => ?_, fun unbound bound good => ?_,
      fun unbound idle fresh quiet => ?_⟩
    · exact (command (by tauto)).trans (by rw [if_pos (by simpa [or_and_right, exists_or] using binding)])
    · refine (command (.inr (.inr good))).trans ?_
      rw [if_neg (by simpa [or_and_right, exists_or] using unbound), if_neg (by simp [bound, good])]
      rfl
    · refine (command (by tauto)).trans ?_
      rw [if_neg (by simpa [or_and_right, exists_or] using unbound), if_pos (by simpa [fresh] using idle), if_neg (by simpa using quiet)]
  · have answered := State.acked_link s i w fc
    refine ⟨_, by simp only [exec_ack, execAck, hw], congrArg Prod.fst answered, fun bind => ?_⟩
    rw [if_pos bind] at answered
    exact ⟨congrArg (fun x => x.2.1) answered, congrArg (fun x => x.2.2) answered⟩
  · refine ⟨s.goodAnswer i.val w, by simp only [exec_ack, execAck, hw, State.acked_dropped (why.imp_left fun e => ⟨k, e⟩)], ?_,
      State.goodAnswer_only (.refl _ s) (by simp) ..⟩
    rw [State.goodAnswer, State.cam_mapCam_fin]
    exact State.dropCtrl_unacked s i w.seq
  · obtain ⟨u, e, done, only⟩ := State.acked_lastEntries (fc := fc) why hj sound last
    exact ⟨u, by simp only [exec_ack, execAck, hw, e], done, only⟩
  · have returned := State.returnReads_eq hj first count es
    have only : Only [.bytes, .out] s (s.returnReads i.val r first count es) := by
      rw [returned]
      exact Only.foldl _ (fun _ k h => j.returnEntry_only first es h (by simp) k) _ _ (.refl _ s)
    refine ⟨_, s.returnReads i.val r first count es, execReadData_entries hw why, ?_, only, fun k hk kind => ⟨fun dev => ?_, fun host => ?_⟩⟩
    · simp only [exec_ack, execAck, State.cam_of_cams_eq (only.cams_eq (by simp)), hw]
    · rw [returned]
      exact j.returned_inDev dev first es inv count (by omega) k hk kind
    · rw [returned]
      exact j.returned_host host first es count k hk kind
  · have counted := State.cellFails_failures s i w n
    refine ⟨_, execNak_refused hw n, congrArg Prod.fst counted, congrArg (fun x => x.2.2) counted, fun run => ?_⟩
    refine (congrArg (fun x => x.2.1) counted).trans ?_
    simp [show 3 ≤ (s.cam i.val).failRun + 1 by omega]
  · exact ⟨_, execNak_fenced hw n, State.cellFenced_state dev ..⟩
  · obtain ⟨resends, cell, only⟩ := State.resendCell_counts (List.mem_of_find?_eq_some hw)
    exact ⟨_, execControlCellResend_again hw left, resends, ⟨_, cell, rfl⟩, only⟩
  · have other : w.isBind = false := by simp [CtrlCell.isBind, start, write]
    exact ⟨_, execControlCellResend_fails hw spent other, congrArg Prod.fst (State.cellFails_failures s i w 0)⟩
  · exact execControlCellResend_bind hw spent ((isBind_iff w).mpr bind)

end Sys2Proof

section
/-!
SUPPORT. Lines and cells of a frame leave which frames a context holds, its next FN and its counts of accepted and dropped frames (R74, R76, R87).
-/
namespace Sys2Proof.Machine

set_option Elab.async false

variable {s t u : State}

/-- The next FN of a context, the frames that it holds with their slots, its counts of frames accepted and dropped by a full queue, and the cells held. -/
def CamCtx.arrivals (c : CamCtx) : Nat × List (Nat × Nat) × Word × Word × List HeldCell :=
  (c.fnNext, c.frames.map (fun f => (f.fn, f.slot)), c.cnt.accepted, c.cnt.dropQueue, c.held)

/-- The arrivals of every context stay as they are. -/
structure Arrives (s t : State) : Prop where
  same : ∀ j, (t.cam j).arrivals = (s.cam j).arrivals

theorem Arrives.refl (s : State) : Arrives s s := ⟨fun _ => rfl⟩

theorem Arrives.trans (h : Arrives s t) (k : Arrives t u) : Arrives s u := ⟨fun j => (k.same j).trans (h.same j)⟩

theorem Arrives.foldl {α : Type} (f : State → α → State) (hf : ∀ t a, Arrives s t → Arrives s (f t a)) (l : List α) (h : Arrives s t) :
    Arrives s (l.foldl f t) :=
  List.foldlRecOn (motive := Arrives s) l f h fun t h a _ => hf t a h

theorem Arrives.ite {c : Prop} [Decidable c] (ht : Arrives s t) (hu : Arrives s u) : Arrives s (if c then t else u) := by split <;> assumption

theorem Arrives.of_cams (h : Arrives s t) (hc : u.cams = t.cams) : Arrives s u := ⟨fun j => by rw [State.cam_of_cams_eq hc, h.same j]⟩

theorem Arrives.mapCam (h : Arrives s t) {k : Nat} {f : CamCtx → CamCtx} (hf : ∀ c, (f c).arrivals = c.arrivals := by exact fun _ => rfl) :
    Arrives s (t.mapCam k f) := h.trans ⟨t.keep_mapCam k hf⟩

theorem Arrives.countCam (h : Arrives s t) {k : Nat} {f : CamCounters → CamCounters}
    (hf : ∀ c : CamCtx, ({ c with cnt := f c.cnt } : CamCtx).arrivals = c.arrivals := by exact fun _ => rfl) : Arrives s (t.countCam k f) := h.mapCam hf

theorem Arrives.mapFrame (h : Arrives s t) {k fn : Nat} {g : CamFrame → CamFrame}
    (hg : ∀ f, ((g f).fn, (g f).slot) = (f.fn, f.slot) := by exact fun _ => rfl) : Arrives s (t.mapFrame k fn g) :=
  h.mapCam fun c => by simp only [CamCtx.arrivals, updWhere_map (g := fun f : CamFrame => (f.fn, f.slot)) hg]

theorem Arrives.mapRecord (h : Arrives s t) (k fn : Nat) (f : LedgerRec → LedgerRec) : Arrives s (t.mapRecord k fn f) := by
  unfold State.mapRecord
  dsimp only
  split
  · exact h.mapFrame.of_cams (State.putRecord_cams ..)
  · exact h.mapFrame

theorem Arrives.flagFrame (h : Arrives s t) (k fn n : Nat) : Arrives s (t.flagFrame k fn n) := h.mapRecord ..

/-! ### Lines -/

@[simp] theorem State.markMem_cams (s : State) (a n : Nat) : (s.markMem a n).cams = s.cams := by
  unfold State.markMem
  split <;> rfl

@[simp] theorem State.writes_cams (s : State) (src : FabSrc) (role : FabRole) (k a n : Nat) : (s.writes src role k a n).cams = s.cams := by
  unfold State.writes State.requests State.mapFab
  rfl

@[simp] theorem State.buildProxy_cams (s : State) (k fn b : Nat) : (s.buildProxy k fn b).cams = s.cams := by
  unfold State.buildProxy
  split
  · rfl
  · refine List.foldlRecOn (motive := fun u : State => u.cams = s.cams) _ _ rfl fun u hu y _ => ?_
    dsimp only
    split <;> simp [hu]

theorem Arrives.storeLine (h : Arrives s t) (k fn e line : Nat) (bs : List Byte) : Arrives s (t.storeLine k fn e line bs) := by
  have written (a n : Nat) (bs : List Byte) : Arrives s ((t.writeMem a bs).writes .bandWrite .ostler k a n) := h.of_cams (by simp)
  unfold State.storeLine
  dsimp only
  split
  · exact h
  · exact .ite ((written ..).mapFrame.of_cams (State.buildProxy_cams ..)) (written ..).mapFrame

theorem Arrives.repairLine (h : Arrives s t) (k fn e line : Nat) : Arrives s (t.repairLine k fn e line) := by
  unfold State.repairLine
  split
  · exact h
  · exact ((h.storeLine ..).flagFrame ..).countCam

theorem Arrives.repairTo (h : Arrives s t) (k fn e upTo : Nat) : Arrives s (t.repairTo k fn e upTo) := by
  unfold State.repairTo
  split
  · exact h
  · exact .foldl _ (fun _ _ h => h.repairLine ..) _ h

theorem Arrives.endArrival (h : Arrives s t) (k : Nat) (early : Bool) : Arrives s (t.endArrival k early) := by
  have repaired (l : List Nat) (fn n : Nat) : Arrives s (l.foldl (fun t e => t.repairTo k fn e n) t) := .foldl _ (fun _ _ h => h.repairTo ..) _ h
  unfold State.endArrival
  dsimp only
  split
  · exact h
  · exact .ite ((Arrives.flagFrame ((repaired ..).mapFrame.mapCam) ..).countCam) ((repaired ..).mapFrame.mapCam)

theorem Arrives.takeLine (h : Arrives s t) (k e line : Nat) (bs : List Byte) (bad : Bool) : Arrives s (t.takeLine k e line bs bad) := by
  unfold State.takeLine
  dsimp only
  split
  · exact h
  · exact .ite (.ite h (h.flagFrame ..).countCam) (.ite h (.ite ((h.repairTo ..).repairLine ..) ((h.repairTo ..).storeLine ..)))

theorem Arrives.flushLine (h : Arrives s t) (k : Nat) (bad : Bool) : Arrives s (t.flushLine k bad) := by
  unfold State.flushLine
  split
  · exact h
  · exact (h.mapCam).takeLine ..

/-! ### The rest of a cell -/

/-- What a cell does once its start of frame, if it is one, has been taken (R74, R87). -/
def State.fillCell (k : Nat) (h : HeldCell) (t : State) : State :=
  let x := h.cell
  if (t.cam k).dropping || (t.cam k).arriving.isNone then t
  else
    let t := match (t.cam k).asm with
      | some a => if x.sol || a.line != x.line || a.exp != x.exp then t.flushLine k true else t
      | none => t
    let t := match (t.cam k).asm with
      | some a => t.mapCam k (fun c => { c with asm := some { a with data := a.data ++ x.data, bad := a.bad || h.cut || x.offset != a.data.length } })
      | none => t.mapCam k (fun c => { c with asm := some { exp := x.exp, line := x.line, data := x.data, bad := h.cut || !x.sol || x.offset != 0 } })
    let t := if x.eol then t.flushLine k false else t
    if x.eof then (t.flushLine k true).endArrival k false else t

theorem State.placeCell_eq (s : State) (k : Nat) (h : HeldCell) (lost : Bool) : s.placeCell k h lost = State.fillCell k h
    (let t := if lost then s.mapCam k (fun c => { c with asm := c.asm.map (fun a => { a with bad := true }) }) else s
     if h.cell.sof then
       let u := (t.flushLine k true).endArrival k true
       if (u.cam k).state == .running then u.startFrame k h.at_ h.cell.hubFc else u.mapCam k (fun c => { c with dropping := true })
     else t) := rfl

theorem Arrives.fillCell (h : Arrives s t) (k : Nat) (x : HeldCell) : Arrives s (t.fillCell k x) := by
  have opened (o : Option LineAsm) : Arrives s (match o with
      | some a => if x.cell.sol || a.line != x.cell.line || a.exp != x.cell.exp then t.flushLine k true else t
      | none => t) := by
    split
    · exact .ite (h.flushLine ..) h
    · exact h
  have filled {u : State} (h : Arrives s u) (o : Option LineAsm) (f : LineAsm → LineAsm) (d : LineAsm) : Arrives s (match o with
      | some a => u.mapCam k (fun c => { c with asm := some (f a) })
      | none => u.mapCam k (fun c => { c with asm := some d })) := by
    split <;> exact h.mapCam
  have closed {u : State} (h : Arrives s u) : Arrives s (if x.cell.eol then u.flushLine k false else u) := .ite (h.flushLine ..) h
  unfold State.fillCell
  exact .ite h (.ite (((closed (filled (opened _) _ _ _)).flushLine ..).endArrival ..) (closed (filled (opened _) _ _ _)))

end Sys2Proof.Machine
end

section
/-!
SUPPORT. A start of frame (R86, R91, R94): the frame number that it takes, and the frame that joins or is dropped.
-/
namespace Sys2Proof.Machine

set_option Elab.async false

variable {s t u : State} {i : Fin 48}

theorem CamCtx.arrivals_core (c : CamCtx) : c.core.arrivals = c.arrivals := rfl

/-- What a start of frame reads of its context: the profile, the frames, the next FN, the counters of Table 03-18 that it advances, and the cells held. -/
def CamCtx.intake (c : CamCtx) : List Byte × List CamFrame × Nat × Word × Word × List HeldCell :=
  (c.profile, c.frames, c.fnNext, c.cnt.accepted, c.cnt.dropQueue, c.held)

theorem CamCtx.intake_core (c : CamCtx) : c.core.intake = c.intake := rfl

theorem CamCtx.freeSlot_of_intake {c d : CamCtx} (hp : c.profile = d.profile) (hf : c.frames = d.frames) : c.freeSlot = d.freeSlot := by
  unfold CamCtx.freeSlot
  rw [hp, hf]

/-! ### Acceptance -/

/-- The slots and the field place that a frame takes leave a context's frames, next FN, counters and held cells. -/
theorem CamCtx.intake_taken (c : CamCtx) (fn : Nat) (noRef : Bool) : ((c.latchRings.takeSlots fn).1.takeField fn noRef).1.intake = c.intake := by
  unfold CamCtx.takeField
  dsimp only
  split <;> rfl

/-- A frame that is accepted joins the frames of its context and is counted (R91). -/
theorem State.arrivals_acceptFrame (s : State) (i : Fin 48) (fn slot : Nat) (r : LedgerRec) : ((s.acceptFrame i.val fn slot r).cam i.val).arrivals =
    ((s.cam i.val).fnNext, (s.cam i.val).frames.map (fun f => (f.fn, f.slot)) ++ [(fn, slot)], (s.cam i.val).cnt.accepted.satInc,
      (s.cam i.val).cnt.dropQueue, (s.cam i.val).held) := by
  have taken := (s.cam i.val).intake_taken fn ((s.cam i.val).predOf fn).isNone
  simp only [CamCtx.intake, Prod.mk.injEq] at taken
  obtain ⟨-, frames, next, accepted, dropped, held⟩ := taken
  unfold State.acceptFrame
  dsimp only
  rw [((Aside.putRecord (.refl _) _).frameAccepted ..).keep CamCtx.arrivals_core, State.countCam, State.cam_mapCam_fin, State.cam_mapCam_fin]
  simp only [CamCtx.arrivals, List.map_append, frames, next, accepted, dropped, held]
  rfl

theorem CamCtx.settle_of_nil {c : CamCtx} (h : c.triggers = []) (before : Nat) : c.settle before = c := by
  unfold CamCtx.settle
  rw [h]
  rfl

/-! ### Start of frame -/

/-- With no trigger waiting a start of frame takes the next FN; it is dropped by a full queue or a shed class, or it is accepted. -/
theorem State.startFrame_cases (ht : (s.cam i.val).triggers = []) (sof fc : Nat) : ∃ (u : State) (r : LedgerRec),
    (u.cam i.val).intake = ((s.cam i.val).profile, (s.cam i.val).frames, (s.cam i.val).fnNext + 1, (s.cam i.val).cnt.accepted,
      (s.cam i.val).cnt.dropQueue, (s.cam i.val).held) ∧
    s.startFrame i.val sof fc = match (u.cam i.val).freeSlot with
      | none => (u.closeDropped i.val r 1).mapCam i.val (fun x => { x with dropping := true })
      | some slot =>
        if s.sheds (pfDropClass (s.cam i.val).profile) || ((s.cam i.val).plan.isNone && (s.cam i.val).fnNext % (s.cam i.val).degrade != 0) then
          (u.closeDropped i.val r 2).mapCam i.val (fun x => { x with dropping := true })
        else u.acceptFrame i.val (s.cam i.val).fnNext slot r := by
  have stamped (v : State) (n : Nat) : ((v.countCam i.val (fun x => { x with lastSof := n })).cam i.val).intake = (v.cam i.val).intake := by
    rw [State.countCam, State.cam_mapCam_fin]
    rfl
  have latched (v : State) (fn : Nat) : (((v.latchBefore i.val fn).latchAt i.val fn).1.cam i.val).intake = (v.cam i.val).intake :=
    (((Aside.refl v).latchBefore ..).latchAt ..).keep CamCtx.intake_core i.val
  unfold State.startFrame
  simp only [ht, List.filter_nil, minBy, CamCtx.settle_of_nil ht, Nat.add_sub_cancel]
  refine ⟨_, _, ?_, rfl⟩
  rw [stamped, latched, State.cam_mapCam_fin]
  rfl

/-- A context has taken a start of frame (R86, R91): its next FN, and the frame that a full queue drops or a free slot takes. -/
structure CamCtx.Started (c : CamCtx) (shed : Bool) (d : CamCtx) : Prop where
  next : d.fnNext = c.fnNext + 1
  held : d.held = c.held
  full : c.freeSlot = none → d.cnt.dropQueue = c.cnt.dropQueue.satInc
  accepted : ∀ k, c.freeSlot = some k → shed = false → (c.plan.isSome = true ∨ c.fnNext % c.degrade = 0) →
    d.cnt.accepted = c.cnt.accepted.satInc ∧ (c.fnNext, k) ∈ d.frames.map (fun f => (f.fn, f.slot))

theorem CamCtx.Started.arrives {c d e : CamCtx} {shed : Bool} (h : c.Started shed d) (same : e.arrivals = d.arrivals) : c.Started shed e := by
  simp only [CamCtx.arrivals, Prod.mk.injEq] at same
  obtain ⟨next, frames, accepted, dropped, held⟩ := same
  exact ⟨next.trans h.next, held.trans h.held, fun f => dropped.trans (h.full f), fun k f s p => by rw [accepted, frames]; exact h.accepted k f s p⟩

theorem State.startFrame_started (ht : (s.cam i.val).triggers = []) (sof fc : Nat) :
    (s.cam i.val).Started (s.sheds (pfDropClass (s.cam i.val).profile)) ((s.startFrame i.val sof fc).cam i.val) := by
  obtain ⟨u, r, intake, e⟩ := State.startFrame_cases ht sof fc
  simp only [CamCtx.intake, Prod.mk.injEq] at intake
  obtain ⟨profile, frames, next, accepted, dropped, held⟩ := intake
  have slot : (u.cam i.val).freeSlot = (s.cam i.val).freeSlot := CamCtx.freeSlot_of_intake profile frames
  have closed (cause : Nat) := (Aside.closeDropped u i.val r cause).keep CamCtx.intake_core i.val
  simp only [CamCtx.intake, State.countCam, State.cam_mapCam_fin, Prod.mk.injEq] at closed
  rw [e, slot]
  cases free : (s.cam i.val).freeSlot with
  | none =>
    obtain ⟨-, -, next1, -, dropped1, held1⟩ := closed 1
    dsimp only
    rw [State.cam_mapCam_fin]
    refine ⟨next1.trans next, held1.trans held, fun _ => dropped1.trans ?_, fun k f => absurd f (by simp [free])⟩
    rw [← dropped]
    rfl
  | some k =>
    dsimp only
    split
    next refused =>
      obtain ⟨-, -, next2, -, -, held2⟩ := closed 2
      rw [State.cam_mapCam_fin]
      refine ⟨next2.trans next, held2.trans held, fun f => absurd f (by simp [free]), fun k _ shed turn => absurd refused ?_⟩
      cases hp : (s.cam i.val).plan <;> simp_all
    · have joined := u.arrivals_acceptFrame i (s.cam i.val).fnNext k r
      simp only [CamCtx.arrivals, Prod.mk.injEq] at joined
      obtain ⟨next3, frames3, accepted3, -, held3⟩ := joined
      refine ⟨next3.trans next, held3.trans held, fun f => absurd f (by simp [free]), fun j f _ _ => ⟨by rw [accepted3, accepted], ?_⟩⟩
      rw [free] at f
      cases f
      rw [frames3]
      simp

end Sys2Proof.Machine
end

section
/-!
SUPPORT. PIXEL_CELL (R74, R75, R84, R85, R92): a cell that is next in the order of its context is placed at once.
-/
namespace Sys2Proof.Machine

set_option Elab.async false

variable {s t u : State} {i : Fin 48} {x : PixCell}

/-! ### Shedding -/

/-- The pixels that a context has accepted and not processed (R94). -/
def CamCtx.left (c : CamCtx) : Nat := sumNat (c.frames.map c.pixelsLeft)

theorem State.sheds_congr (hc : t.cams.ctx.toList.map CamCtx.left = s.cams.ctx.toList.map CamCtx.left) (hm : t.mgmt = s.mgmt) (hh : t.host = s.host)
    (cls : Nat) : t.sheds cls = s.sheds cls := by
  have left (u : State) : u.cams.ctx.toList.map (fun c => sumNat (c.frames.map c.pixelsLeft)) = u.cams.ctx.toList.map CamCtx.left := rfl
  unfold State.sheds State.backlog State.sliceRoles
  simp only [left, hc, hm, hh]

/-! ### A cell that is held -/

/-- A cell as it is held for its context: without its data where the line store has no room (R92). -/
def State.heldCell (s : State) (x : PixCell) : HeldCell :=
  let cut := decide (lineStoreSize < s.lineStore + x.data.length)
  { cell := if cut then { x with data := [] } else x, at_ := s.time.stamp, cut := cut }

theorem State.noteIngest_cam (s : State) (n j : Nat) : (s.noteIngest n).cam j = s.cam j := rfl

/-- The cell that a context takes next leaves the held ones. -/
def State.takeHeld (k q : Nat) (s : State) : State :=
  s.mapCam k (fun c => { c with nextSeq := some ((q + 1) % 65536), gap := false, held := c.held.filter (fun y => y.cell.cseq != q) })

/-- The counters of a context after a cell without room in the line store. -/
def CamCounters.cutCell (n : CamCounters) (cut : Bool) : CamCounters := if cut then { n with cellsLost := n.cellsLost.satInc } else n

theorem State.heldCell_cseq (s : State) (x : PixCell) : (s.heldCell x).cell.cseq = x.cseq := by
  unfold State.heldCell
  dsimp only
  split <;> rfl

/-- A cell is next in the order of its context: the one that the order names, or the start of frame that begins the order. -/
def CamCtx.takesNext (c : CamCtx) (x : PixCell) : Prop := c.held = [] ∧ (c.nextSeq = some x.cseq ∨ c.nextSeq = none ∧ x.sof = true)

theorem State.holdCell_cam (h : (s.cam i.val).takesNext x) : (s.holdCell i.val x).cam i.val =
    { s.cam i.val with cnt := (s.cam i.val).cnt.cutCell (s.heldCell x).cut, held := [s.heldCell x], nextSeq := some x.cseq } := by
  obtain ⟨held, order⟩ := h
  have alone (c : CamCtx) (hc : c.held = []) (hn : c.nextSeq = some x.cseq ∨ c.nextSeq = none ∧ x.sof = true) (y : HeldCell)
      (hy : y.cell.cseq = x.cseq) : (match c.nextSeq with
        | some _ => { c with held := c.held ++ [y] }
        | none => if x.sof = true then { c with nextSeq := some x.cseq, held := (c.held ++ [y]).filter (fun z => (z.cell.cseq + 65536 - x.cseq) % 65536 < 32768) }
                  else { c with held := (c.held ++ [y]).drop ((c.held ++ [y]).length - 64) } : CamCtx) =
      { c with held := [y], nextSeq := some x.cseq } := by
    rcases hn with hn | ⟨hn, sof⟩
    · rw [hn, hc]
      simp [← hn]
    · rw [hn, hc, if_pos sof]
      simp [hy]
  have same := s.heldCell_cseq x
  have counted : (if (s.heldCell x).cut then s.countCam i.val (fun k => { k with cellsLost := k.cellsLost.satInc }) else s).cam i.val =
      { s.cam i.val with cnt := (s.cam i.val).cnt.cutCell (s.heldCell x).cut } := by
    cases (s.heldCell x).cut
    · rfl
    · simp only [if_true, State.countCam, State.cam_mapCam_fin, CamCounters.cutCell]
  have held' : State.cam (s.holdCell i.val x) i.val = State.cam ((if (s.heldCell x).cut then
      s.countCam i.val (fun k => { k with cellsLost := k.cellsLost.satInc }) else s).mapCam i.val _) i.val := State.noteIngest_cam ..
  rw [held', State.cam_mapCam_fin, counted]
  exact alone { s.cam i.val with cnt := (s.cam i.val).cnt.cutCell (s.heldCell x).cut } held order _ same

/-! ### A cell that is placed -/

theorem State.drainCells_of_nil {k : Nat} (h : (s.cam k).held = []) (n : Nat) : s.drainCells k n = s := by
  cases n with
  | zero => rfl
  | succ n =>
    unfold State.drainCells
    dsimp only
    split
    · rfl
    · rw [h]
      rfl

/-- A lone cell in its order is placed. -/
theorem State.drainCells_single {y : HeldCell} (hq : (s.cam i.val).nextSeq = some y.cell.cseq) (hh : (s.cam i.val).held = [y]) (n : Nat)
    (quiet : (((s.takeHeld i.val y.cell.cseq).placeCell i.val y (s.cam i.val).gap).cam i.val).held = []) :
    s.drainCells i.val (n + 2) = (s.takeHeld i.val y.cell.cseq).placeCell i.val y (s.cam i.val).gap := by
  have found : [y].find? (fun x => x.cell.cseq == y.cell.cseq) = some y := by simp
  unfold State.drainCells
  dsimp only
  rw [hq]
  dsimp only
  rw [hh, found]
  exact State.drainCells_of_nil quiet _

/-- The state in which a cell that is next in its order is placed: earlier cells lost mark the line in assembly. -/
def State.nextCell (k : Nat) (x : PixCell) (s : State) : State :=
  let t := (s.holdCell k x).takeHeld k x.cseq
  if (s.cam k).gap then t.mapCam k (fun c => { c with asm := c.asm.map (fun a => { a with bad := true }) }) else t

theorem State.nextCell_cam (h : (s.cam i.val).takesNext x) : (s.nextCell i.val x).cam i.val =
    { s.cam i.val with
      cnt := (s.cam i.val).cnt.cutCell (s.heldCell x).cut, held := [], nextSeq := some ((x.cseq + 1) % 65536), gap := false,
      asm := if (s.cam i.val).gap then (s.cam i.val).asm.map (fun a => { a with bad := true }) else (s.cam i.val).asm } := by
  have alone : [s.heldCell x].filter (fun y => y.cell.cseq != x.cseq) = [] := by simp [State.heldCell_cseq]
  unfold State.nextCell State.takeHeld
  dsimp only
  split <;> simp only [State.cam_mapCam_fin, State.holdCell_cam h, alone]

theorem State.holdCell_only (s : State) (k : Nat) (x : PixCell) : Only [.cams] s (s.holdCell k x) := by
  have counted : Only [.cams] s (if (s.heldCell x).cut then s.countCam k (fun n => { n with cellsLost := n.cellsLost.satInc }) else s) :=
    .ite ((Only.refl _ s).mapCam (by simp) ..) (.refl _ s)
  exact ((counted.mapCam (by simp) ..).cams (by simp) _).cams (by simp) _

theorem State.nextCell_only (s : State) (k : Nat) (x : PixCell) : Only [.cams] s (s.nextCell k x) :=
  .ite (((s.holdCell_only k x).mapCam (by simp) ..).mapCam (by simp) ..) ((s.holdCell_only k x).mapCam (by simp) ..)

theorem State.holdCell_left (s : State) (k : Nat) (x : PixCell) :
    (s.holdCell k x).cams.ctx.toList.map CamCtx.left = s.cams.ctx.toList.map CamCtx.left := by
  have noted (u : State) (n : Nat) : (u.noteIngest n).cams.ctx = u.cams.ctx := rfl
  have counted (b : Bool) : (if b then s.countCam k (fun n => { n with cellsLost := n.cellsLost.satInc }) else s).cams.ctx.toList.map CamCtx.left =
      s.cams.ctx.toList.map CamCtx.left := by
    split
    · exact s.ctx_mapCam_map k (fun _ => by rfl)
    · rfl
  unfold State.holdCell
  dsimp only
  rw [noted, State.ctx_mapCam_map _ k (π := CamCtx.left)]
  · exact counted _
  · intro c
    split
    · rfl
    · split <;> rfl

theorem State.nextCell_sheds (s : State) (k : Nat) (x : PixCell) (cls : Nat) : (s.nextCell k x).sheds cls = s.sheds cls := by
  have taken : ((s.holdCell k x).takeHeld k x.cseq).cams.ctx.toList.map CamCtx.left = s.cams.ctx.toList.map CamCtx.left :=
    (State.ctx_mapCam_map _ k (fun _ => by rfl)).trans (s.holdCell_left k x)
  refine State.sheds_congr ?_ ((s.nextCell_only k x).mgmt_eq (by simp)) ((s.nextCell_only k x).same .host (by simp)) cls
  unfold State.nextCell
  dsimp only
  split
  · exact (State.ctx_mapCam_map _ k (fun _ => by rfl)).trans taken
  · exact taken

/-- A cell of a running context that is next in its order is placed. -/
theorem execPixelCell_placed {chan : Fin 32} (run : (s.cam i.val).state = .running) (may : s.mayArrive chan.val i.val = true)
    (h : (s.cam i.val).takesNext x)
    (quiet : (((s.nextCell i.val x).placeCell i.val (s.heldCell x) false).cam i.val).held = []) :
    execPixelCell chan (s.lanes.chan chan.val).epoch i.val x s = .next ((s.nextCell i.val x).placeCell i.val (s.heldCell x) false) := by
  have held := State.holdCell_cam h
  have ahead : (x.cseq + 65536 - (s.cam i.val).nextSeq.getD x.cseq) % 65536 = 0 := by
    rcases h.2 with e | ⟨e, -⟩ <;> simp [e]
  have placed : ((s.holdCell i.val x).takeHeld i.val (s.heldCell x).cell.cseq).placeCell i.val (s.heldCell x) ((s.holdCell i.val x).cam i.val).gap =
      (s.nextCell i.val x).placeCell i.val (s.heldCell x) false := by
    rw [held, State.heldCell_cseq, State.placeCell_eq, State.placeCell_eq]
    rfl
  have order := State.drainCells_single (s := s.holdCell i.val x) (y := s.heldCell x) (i := i) (by rw [held, State.heldCell_cseq]) (by rw [held]) 65598
    (by rw [placed]; exact quiet)
  unfold execPixelCell
  have live : (x.sof && CamState.running == .stopping) = false := by cases x.sof <;> rfl
  simp only [run, may, live, ahead, bne_self_eq_false, Bool.false_eq_true, if_false, BEq.rfl, Bool.true_or, Bool.not_true, Bool.or_self]
  exact congrArg Host.Outcome.next (order.trans placed)

end Sys2Proof.Machine
end

section
/-!
SUPPORT. Cells of a frame (R74, R77, R79, R84, R92): a start of frame, a cell that continues a line, a timing cell, and the frames of a parallel port.
-/
namespace Sys2Proof.Machine

set_option Elab.async false

variable {s t u : State} {i : Fin 48} {x : PixCell} {chan : Fin 32}

theorem State.flushLine_of_none {k : Nat} (h : (s.cam k).asm = none) (bad : Bool) : s.flushLine k bad = s := by
  unfold State.flushLine
  rw [h]

theorem State.endArrival_of_none {k : Nat} (h : (s.cam k).arriving = none) (early : Bool) : s.endArrival k early = s := by
  unfold State.endArrival
  dsimp only
  rw [h]

/-! ### Cells that reach no frame -/

theorem execPixelCell_stale {e : Nat} (h : e ≠ (s.lanes.chan chan.val).epoch) (cam : Nat) :
    execPixelCell chan e cam x s = .next (s.dropStale (unitHandle 0x0B chan.val) e) := by
  unfold execPixelCell
  dsimp only
  rw [if_pos (by simpa using h)]

theorem execPixelCell_stray (h : (s.cam i.val).state = .idle ∨ (s.cam i.val).state = .configured ∨ (s.cam i.val).state = .suspended ∨
      s.mayArrive chan.val i.val = false ∨ ((s.cam i.val).state = .stopping ∧ (s.cam i.val).arriving = none)) :
    execPixelCell chan (s.lanes.chan chan.val).epoch i.val x s = .next (s.discardCell chan.val) := by
  have taken : (!((s.cam i.val).state == .running || ((s.cam i.val).state == .stopping && (s.cam i.val).arriving.isSome)) ||
      !s.mayArrive chan.val i.val) = true := by
    rcases h with h | h | h | h | ⟨h, none_⟩
    · simp [h]
    · simp [h]
    · simp [h]
    · simp [h]
    · simp [h, none_]
  unfold execPixelCell
  dsimp only
  rw [if_neg (by simp), if_pos taken]

/-! ### A start of frame -/

theorem CamCtx.Started.of_same {c c' d : CamCtx} {shed : Bool} (h : c'.Started shed d) (same : c'.intake = c.intake) (hp : c'.plan = c.plan)
    (hd : c'.degrade = c.degrade) : c.Started shed d := by
  simp only [CamCtx.intake, Prod.mk.injEq] at same
  obtain ⟨profile, frames, next, accepted, dropped, held⟩ := same
  have slot : c'.freeSlot = c.freeSlot := CamCtx.freeSlot_of_intake profile frames
  refine ⟨by rw [h.next, next], by rw [h.held, held], fun f => by rw [h.full (slot.trans f), dropped], fun k f s p => ?_⟩
  rw [← accepted, ← next]
  exact h.accepted k (slot.trans f) s (by rwa [hp, hd, next])

theorem State.heldCell_sof (s : State) (x : PixCell) : (s.heldCell x).cell.sof = x.sof := by
  unfold State.heldCell
  dsimp only
  split <;> rfl

/-- A start of frame that is placed where no frame arrives is taken by its context, and its own line begins. -/
theorem State.placeCell_sof {y : HeldCell} (run : (s.cam i.val).state = .running) (sof : y.cell.sof = true)
    (arriving : (s.cam i.val).arriving = none) (asm : (s.cam i.val).asm = none) :
    s.placeCell i.val y false = (s.startFrame i.val y.at_ y.cell.hubFc).fillCell i.val y := by
  rw [State.placeCell_eq]
  simp only [Bool.false_eq_true, if_false, sof, if_true, State.flushLine_of_none asm, State.endArrival_of_none arriving, run, BEq.rfl]

/-- A cell with SOF that is next in its order, with no frame arriving and no trigger waiting, starts a frame. -/
theorem execPixelCell_started (run : (s.cam i.val).state = .running) (may : s.mayArrive chan.val i.val = true) (h : (s.cam i.val).takesNext x)
    (sof : x.sof = true) (arriving : (s.cam i.val).arriving = none) (asm : (s.cam i.val).asm = none) (ht : (s.cam i.val).triggers = []) :
    ∃ t : State, execPixelCell chan (s.lanes.chan chan.val).epoch i.val x s = .next t ∧
      (s.cam i.val).Started (s.sheds (pfDropClass (s.cam i.val).profile)) (t.cam i.val) := by
  have ctx := State.nextCell_cam h
  have shed := s.nextCell_sheds i.val x
  have intake : ((s.nextCell i.val x).cam i.val).intake = (s.cam i.val).intake := by
    rw [ctx]
    simp only [CamCtx.intake, CamCounters.cutCell, h.1]
    split <;> rfl
  have placed : (s.nextCell i.val x).placeCell i.val (s.heldCell x) false = _ :=
    State.placeCell_sof (by rw [ctx]; exact run) ((s.heldCell_sof x).trans sof) (by rw [ctx]; exact arriving) (by rw [ctx]; simp [asm])
  have started := State.startFrame_started (s := s.nextCell i.val x) (i := i) (by rw [ctx]; exact ht) (s.heldCell x).at_ (s.heldCell x).cell.hubFc
  have filled := started.arrives (((Arrives.refl _).fillCell i.val (s.heldCell x)).same i.val)
  rw [← placed] at filled
  have taken := filled.of_same intake (by rw [ctx]) (by rw [ctx])
  refine ⟨_, execPixelCell_placed run may h (taken.held.trans h.1), ?_⟩
  have profile : ((s.nextCell i.val x).cam i.val).profile = (s.cam i.val).profile := congrArg Prod.fst intake
  rwa [shed, profile] at taken

/-! ### A cell that continues a line -/

theorem State.placeCell_inside {k : Nat} {y : HeldCell} (sof : y.cell.sof = false) : s.placeCell k y false = s.fillCell k y := by
  rw [State.placeCell_eq]
  simp only [sof, Bool.false_eq_true, if_false]

/-- A line in assembly with the data of a cell that continues it. -/
def LineAsm.grown (a : LineAsm) (y : HeldCell) : LineAsm :=
  { a with data := a.data ++ y.cell.data, bad := a.bad || y.cut || y.cell.offset != a.data.length }

theorem State.heldCell_of_room (room : s.lineStore + x.data.length ≤ lineStoreSize) :
    s.heldCell x = { cell := x, at_ := s.time.stamp, cut := false } := by
  have fits : decide (lineStoreSize < s.lineStore + x.data.length) = false := by simpa using room
  unfold State.heldCell
  dsimp only
  rw [fits]
  rfl

theorem State.heldCell_of_full (full : lineStoreSize < s.lineStore + x.data.length) :
    s.heldCell x = { cell := { x with data := [] }, at_ := s.time.stamp, cut := true } := by
  have full' : decide (lineStoreSize < s.lineStore + x.data.length) = true := by simpa using full
  unfold State.heldCell
  dsimp only
  rw [full']
  rfl

theorem LineAsm.grown_of_room {a : LineAsm} (offset : a.data.length = x.offset) (room : s.lineStore + x.data.length ≤ lineStoreSize) :
    a.grown (s.heldCell x) = { a with data := a.data ++ x.data } := by
  simp [LineAsm.grown, State.heldCell_of_room room, offset]

theorem LineAsm.grown_of_full {a : LineAsm} (full : lineStoreSize < s.lineStore + x.data.length) :
    a.grown (s.heldCell x) = { a with bad := true } := by
  simp [LineAsm.grown, State.heldCell_of_full full]

theorem State.fillCell_continues {y : HeldCell} {a : LineAsm} {f : CamFrame} (dropping : (s.cam i.val).dropping = false)
    (arriving : (s.cam i.val).arriving = some f) (asm : (s.cam i.val).asm = some a)
    (same : (y.cell.sol || a.line != y.cell.line || a.exp != y.cell.exp) = false) (eol : y.cell.eol = false) (eof : y.cell.eof = false) :
    s.fillCell i.val y = s.mapCam i.val (fun c => { c with asm := some (a.grown y) }) := by
  unfold State.fillCell
  simp only [dropping, arriving, Option.isNone_some, Bool.or_self, Bool.false_eq_true, if_false, asm, same, eol, eof]
  rfl

/-- A cell inside a line continues the line in assembly; without room in the line store the line is marked for repair (R74, R92). -/
theorem execPixelCell_continues (run : (s.cam i.val).state = .running) (may : s.mayArrive chan.val i.val = true) (held : (s.cam i.val).held = [])
    {a : LineAsm} {f : CamFrame} (sof : x.sof = false) (sol : x.sol = false) (eol : x.eol = false) (eof : x.eof = false)
    (order : (s.cam i.val).nextSeq = some x.cseq) (arriving : (s.cam i.val).arriving = some f) (asm : (s.cam i.val).asm = some a)
    (line : a.line = x.line) (exp : a.exp = x.exp) (dropping : (s.cam i.val).dropping = false)
    (gap : (s.cam i.val).gap = false) : ∃ t : State, execPixelCell chan (s.lanes.chan chan.val).epoch i.val x s = .next t ∧ Only [.cams] s t ∧
      (t.cam i.val).asm = some (a.grown (s.heldCell x)) ∧ (t.cam i.val).cnt = (s.cam i.val).cnt.cutCell (s.heldCell x).cut := by
  have next : (s.cam i.val).takesNext x := ⟨held, .inl order⟩
  have ctx := State.nextCell_cam next
  obtain ⟨d, cell⟩ : ∃ d, (s.heldCell x).cell = { x with data := d } := by
    unfold State.heldCell
    dsimp only
    split
    · exact ⟨_, rfl⟩
    · exact ⟨x.data, rfl⟩
  have placed : (s.nextCell i.val x).placeCell i.val (s.heldCell x) false =
      (s.nextCell i.val x).mapCam i.val (fun c => { c with asm := some (a.grown (s.heldCell x)) }) := by
    rw [State.placeCell_inside ((s.heldCell_sof x).trans sof)]
    refine State.fillCell_continues (by rw [ctx]; exact dropping) (by rw [ctx]; exact arriving) (by rw [ctx]; simp [gap, asm]) ?_ ?_ ?_ <;>
      simp [cell, sol, eol, eof, line, exp]
  refine ⟨_, execPixelCell_placed run may next ?_, ?_, ?_, ?_⟩
  · rw [placed, State.cam_mapCam_fin, ctx]
  · rw [placed]
    exact (s.nextCell_only i.val x).mapCam (by simp) ..
  · rw [placed, State.cam_mapCam_fin]
  · rw [placed, State.cam_mapCam_fin, ctx]

/-! ### Timing cells -/

theorem State.mapRecord_only {ps : List Part} (h : Only ps s t) (hs : [.cams, .bytes, .fabric] ⊆ ps) (k fn : Nat) (f : LedgerRec → LedgerRec) :
    Only ps s (t.mapRecord k fn f) := by
  have changed : Only ps s (t.mapFrame k fn (fun x => { x with rcd := f x.rcd })) := h.mapCam (hs (by simp)) ..
  unfold State.mapRecord
  dsimp only
  split
  · exact State.requests_only (changed.writeMem (hs (by simp)) ..) (hs (by simp)) _
  · exact changed

/-- A timing cell of exposure 0 of a context that runs or stops records its count and stamp (R77). -/
theorem execTimingCell_recorded (live : (s.cam i.val).state = .running ∨ (s.cam i.val).state = .stopping)
    (may : s.mayArrive chan.val i.val = true) (fc stamp : Nat) : ∃ t : State,
    execTimingCell chan (s.lanes.chan chan.val).epoch i.val 0 fc stamp s = .next t ∧
    (t.cam i.val).timing = ((fc, stamp) :: (s.cam i.val).timing).take 8 ∧ Only [.cams, .bytes, .fabric] s t := by
  have taken : ((s.cam i.val).state != .running && (s.cam i.val).state != .stopping || !s.mayArrive chan.val i.val) = false := by
    rcases live with h | h <;> simp [h, may]
  unfold execTimingCell
  simp only [bne_self_eq_false, Bool.false_eq_true, if_false, taken]
  split
  · refine ⟨_, rfl, ?_, ((Only.refl _ s).mapCam (by simp) ..).mapCam (by simp) ..⟩
    rw [State.cam_mapCam_fin, State.cam_mapCam_fin]
    split
    · split <;> rfl
    · rfl
  · refine ⟨_, rfl, ?_, (State.mapRecord_only ((Only.refl _ s).mapCam (by simp) ..) (by simp) ..).mapCam (by simp) ..⟩
    rw [State.cam_mapCam_fin]
    dsimp only
    rw [State.keep_mapRecord (π := CamCtx.timing) (fun _ _ => rfl), State.cam_mapCam_fin]

/-! ### Parallel ports -/

theorem execPcpStartOfFrame_started {port : Fin 2} (hp : s.portCam port.val = some i.val) (run : (s.cam i.val).state = .running)
    (arriving : (s.cam i.val).arriving = none) (ht : (s.cam i.val).triggers = []) : ∃ t : State, execPcpStartOfFrame port s = .next t ∧
      (s.cam i.val).Started (s.sheds (pfDropClass (s.cam i.val).profile)) (t.cam i.val) := by
  unfold execPcpStartOfFrame
  simp only [hp, State.endArrival_of_none arriving, run, BEq.rfl, if_true]
  exact ⟨_, rfl, State.startFrame_started ht ..⟩

end Sys2Proof.Machine
end

section
/-!
SUPPORT. PCP_LINE (R74, R79): a line of a parallel port is stored as the next line of its exposure, and the last one ends the frame's arrival.
-/
namespace Sys2Proof.Machine

set_option Elab.async false

variable {s t : State} {i : Fin 48} {f : CamFrame} {e : Nat} {ps : List Part}

/-! ### What the lines of a frame change -/

theorem State.writes_only (h : Only ps s t) (hf : Part.fabric ∈ ps) (src : FabSrc) (role : FabRole) (k a n : Nat) :
    Only ps s (t.writes src role k a n) := State.requests_only h hf _

theorem State.markMem_only (h : Only ps s t) (hb : Part.bytes ∈ ps) (a n : Nat) : Only ps s (t.markMem a n) :=
  .ite h (h.bytes hb _)

theorem State.buildProxy_only (h : Only ps s t) (hs : [.bytes, .fabric] ⊆ ps) (k fn b : Nat) : Only ps s (t.buildProxy k fn b) := by
  have written {u : State} (h : Only ps s u) (a : Nat) (bs : List Byte) (n : Nat) : Only ps s ((u.writeMem a bs).writes .motion .motion k a n) :=
    State.writes_only (h.writeMem (hs (by simp)) ..) (hs (by simp)) ..
  unfold State.buildProxy
  split
  · exact h
  · exact Only.foldl _ (fun _ _ h => .ite (State.markMem_only (written h ..) (hs (by simp)) ..) (written h ..)) _ _ h

theorem State.storeLine_only (h : Only ps s t) (hs : [.cams, .bytes, .fabric] ⊆ ps) (k fn e line : Nat) (bs : List Byte) :
    Only ps s (t.storeLine k fn e line bs) := by
  have stored (a n : Nat) (bs : List Byte) (g : CamFrame → CamFrame) :
      Only ps s (((t.writeMem a bs).writes .bandWrite .ostler k a n).mapFrame k fn g) :=
    (State.writes_only (h.writeMem (hs (by simp)) ..) (hs (by simp)) ..).mapCam (hs (by simp)) ..
  unfold State.storeLine
  dsimp only
  split
  · exact h
  · exact .ite (State.buildProxy_only (stored ..) (fun _ hp => hs (List.mem_cons_of_mem _ hp)) ..) (stored ..)

theorem State.repairLine_only (h : Only ps s t) (hs : [.cams, .bytes, .fabric] ⊆ ps) (k fn e line : Nat) : Only ps s (t.repairLine k fn e line) := by
  unfold State.repairLine
  split
  · exact h
  · exact (State.mapRecord_only (State.storeLine_only h hs ..) hs ..).mapCam (hs (by simp)) ..

theorem State.repairTo_only (h : Only ps s t) (hs : [.cams, .bytes, .fabric] ⊆ ps) (k fn e upTo : Nat) : Only ps s (t.repairTo k fn e upTo) := by
  unfold State.repairTo
  split
  · exact h
  · exact Only.foldl _ (fun _ _ h => State.repairLine_only h hs ..) _ _ h

theorem State.endArrival_only (h : Only ps s t) (hs : [.cams, .bytes, .fabric] ⊆ ps) (k : Nat) (early : Bool) : Only ps s (t.endArrival k early) := by
  have hc := hs (a := .cams) (by simp)
  have repaired (l : List Nat) (fn n : Nat) : Only ps s (l.foldl (fun t e => t.repairTo k fn e n) t) :=
    Only.foldl _ (fun _ _ h => State.repairTo_only h hs ..) _ _ h
  unfold State.endArrival
  dsimp only
  split
  · exact h
  · exact .ite ((State.mapRecord_only (((repaired ..).mapCam hc ..).mapCam hc ..) hs ..).mapCam hc ..) (((repaired ..).mapCam hc ..).mapCam hc ..)

/-! ### The frame that arrives -/

/-- An update that keeps a test, made to the element that the test finds, is made to the element found. -/
theorem find?_updWhere_other {α : Type} {p q : α → Bool} {g : α → α} {l : List α} {x : α} (found : l.find? p = some x) (hx : q x = true)
    (keeps : ∀ y, p (g y) = p y) : (updWhere q g l).find? p = some (g x) := by
  have same : (p ∘ fun y => if q y = true then g y else y) = p := by
    funext y
    simp only [Function.comp_apply]
    split
    · exact keeps y
    · rfl
  unfold updWhere
  rw [List.find?_map, same, found, Option.map_some, if_pos hx]

theorem CamCtx.frame_of_arriving {c : CamCtx} (h : c.arriving = some f) (only : ∀ g ∈ c.frames, g.fn = f.fn → g = f) : c.frame f.fn = some f := by
  have mem : f ∈ c.frames := List.mem_of_find?_eq_some h
  unfold CamCtx.frame
  obtain ⟨g, found⟩ := Option.isSome_iff_exists.mp (List.find?_isSome.mpr ⟨f, mem, BEq.rfl⟩ : (c.frames.find? (fun x => x.fn == f.fn)).isSome = true)
  rw [found, only g (List.mem_of_find?_eq_some found) (by simpa using List.find?_some found)]

/-- A frame with one more line of an exposure. -/
def CamFrame.withLine (f : CamFrame) (e line : Nat) : CamFrame := { f with stored := vmod f.stored e (fun _ => line + 1) }

theorem CamFrame.stored_withLine (f : CamFrame) (e : Fin 3) (line : Nat) : vget (f.withLine e.val line).stored 0 e.val = line + 1 := by
  unfold CamFrame.withLine
  rw [vget_vmod, if_pos ⟨rfl, e.isLt⟩]

/-- A line that is stored is counted in its frame (R79). -/
theorem State.storeLine_frames (h : (s.cam i.val).frame f.fn = some f) (line : Nat) (bs : List Byte) :
    (s.storeLine i.val f.fn e line bs).cam i.val =
      { s.cam i.val with frames := updWhere (fun x => x.fn == f.fn) (fun x => x.withLine e line) (s.cam i.val).frames } := by
  have stored (a n : Nat) (bs : List Byte) : (((s.writeMem a bs).writes .bandWrite .ostler i.val a n).mapFrame i.val f.fn
      (fun x => x.withLine e line)).cam i.val =
        { s.cam i.val with frames := updWhere (fun x => x.fn == f.fn) (fun x => x.withLine e line) (s.cam i.val).frames } := by
    rw [State.mapFrame, State.cam_mapCam_fin, State.cam_of_cams_eq (State.writes_cams ..)]
    rfl
  unfold State.storeLine
  dsimp only
  rw [h]
  dsimp only
  split
  · rw [State.cam_of_cams_eq (State.buildProxy_cams ..)]
    exact stored ..
  · exact stored ..

/-- A line that ends no band of the frame is written to its place and nowhere else. -/
theorem State.storeLine_mem {k : Nat} (h : (s.cam k).frame f.fn = some f) {line : Nat} (band : line % 64 ≠ 63)
    (last : line + 1 ≠ pfH (s.cam k).profile) (bs : List Byte) : (s.storeLine k f.fn e line bs).mem =
      (s.writeMem ((s.cam k).lineAddr f.slot e line) (padTo (pfStride (s.cam k).profile) bs)).mem := by
  have inside : (decide (e + 1 = pfNexp (s.cam k).profile) && (line % 64 == 63 || line + 1 == pfH (s.cam k).profile)) = false := by
    simp [band, last]
  unfold State.storeLine
  dsimp only
  rw [h]
  dsimp only
  rw [inside]
  rfl

/-! ### Lines in order -/

theorem foldl_fixed {α : Type} {g : State → α → State} {l : List α} (h : ∀ x ∈ l, g s x = s) : l.foldl g s = s :=
  List.foldlRecOn (motive := (· = s)) l g rfl fun t ht x hx => by rw [ht]; exact h x hx

theorem State.repairTo_stored {k fn n : Nat} (h : (s.cam k).frame fn = some f) (full : n ≤ vget f.stored 0 e) : s.repairTo k fn e n = s := by
  unfold State.repairTo
  rw [h]
  dsimp only
  rw [Nat.sub_eq_zero_of_le full]
  rfl

/-- A whole line that is the next of its exposure is stored (R74). -/
theorem State.takeLine_next {k : Nat} (arriving : (s.cam k).arriving = some f) (frame : (s.cam k).frame f.fn = some f)
    (room : vget f.stored 0 e < pfH (s.cam k).profile) (exp : e < pfNexp (s.cam k).profile) {bs : List Byte}
    (whole : pfLineBytes (s.cam k).profile ≤ bs.length) :
    s.takeLine k e (vget f.stored 0 e) bs false =
      s.storeLine k f.fn e (vget f.stored 0 e) (bs.take (pfLineBytes (s.cam k).profile)) := by
  unfold State.takeLine
  dsimp only
  rw [arriving]
  dsimp only
  rw [if_neg (Nat.not_le.mpr room), if_neg (by simp [exp]), State.repairTo_stored frame (Nat.le_refl _), if_neg (by simp [whole])]

/-- The arrival of a frame that has all its lines ends with nothing to repair (R79). -/
theorem State.endArrival_full {k : Nat} (arriving : (s.cam k).arriving = some f) (frame : (s.cam k).frame f.fn = some f)
    (full : ∀ e < pfNexp (s.cam k).profile, pfH (s.cam k).profile ≤ vget f.stored 0 e) : s.endArrival k false =
      (s.mapFrame k f.fn (fun x => { x with arrived := true, short := false })).mapCam k (fun c => { c with asm := none }) := by
  have whole : (List.range (pfNexp (s.cam k).profile)).any (fun e => Nat.blt (vget f.stored 0 e) (pfH (s.cam k).profile)) = false := by
    rw [List.any_eq_false]
    intro e he
    simpa using full e (List.mem_range.mp he)
  have repaired : (List.range (pfNexp (s.cam k).profile)).foldl (fun t e => t.repairTo k f.fn e (pfH (s.cam k).profile)) s = s :=
    foldl_fixed fun e he => State.repairTo_stored frame (full e (List.mem_range.mp he))
  unfold State.endArrival
  dsimp only
  rw [arriving]
  dsimp only
  rw [whole, repaired]
  rfl

/-! ### PCP_LINE -/

/-- The state after a line of a parallel port, but for the end of the arrival. -/
def State.withLine (k : Nat) (f : CamFrame) (e : Nat) (codes : List Byte) (s : State) : State :=
  (s.storeLine k f.fn e (vget f.stored 0 e) (codes.take (pfLineBytes (s.cam k).profile))).noteIngest codes.length

section
variable {port : Fin 2} {e : Fin 3} {pixels : List Nat} {codes : List Byte} (hp : s.portCam port.val = some i.val)
  (arriving : (s.cam i.val).arriving = some f) (only : ∀ g ∈ (s.cam i.val).frames, g.fn = f.fn → g = f)
include arriving only

theorem State.withLine_cam (codes : List Byte) : (s.withLine i.val f e.val codes).cam i.val = { s.cam i.val with
    frames := updWhere (fun x => x.fn == f.fn) (fun x => x.withLine e.val (vget f.stored 0 e.val)) (s.cam i.val).frames } :=
  State.storeLine_frames (CamCtx.frame_of_arriving arriving only) _ _

theorem State.withLine_frame (codes : List Byte) :
    ((s.withLine i.val f e.val codes).cam i.val).frame f.fn = some (f.withLine e.val (vget f.stored 0 e.val)) := by
  have found : (s.cam i.val).frames.find? (fun x => x.fn == f.fn) = some f := CamCtx.frame_of_arriving arriving only
  rw [State.withLine_cam arriving only]
  exact find?_updWhere_other found BEq.rfl fun _ => rfl

theorem State.withLine_arriving (codes : List Byte) :
    ((s.withLine i.val f e.val codes).cam i.val).arriving = some (f.withLine e.val (vget f.stored 0 e.val)) := by
  rw [State.withLine_cam arriving only]
  exact find?_updWhere_other arriving BEq.rfl fun _ => rfl

include hp

/-- A line of the right length is stored; the last line of the last exposure ends the arrival. -/
theorem execPcpLine_stored (length : pixels.length = pfW (s.cam i.val).profile) (exp : e.val < pfNexp (s.cam i.val).profile)
    (room : vget f.stored 0 e.val < pfH (s.cam i.val).profile)
    (hc : packCodes (s.cam i.val).profile false (pixels.map (· % 2 ^ pfDepth (s.cam i.val).profile)) = codes)
    (whole : pfLineBytes (s.cam i.val).profile ≤ codes.length) : execPcpLine port e.val pixels s = .next (
      if (List.range (pfNexp (s.cam i.val).profile)).all
          (fun x => pfH (s.cam i.val).profile ≤ vget (f.withLine e.val (vget f.stored 0 e.val)).stored 0 x) then
        (s.withLine i.val f e.val codes).endArrival i.val false else s.withLine i.val f e.val codes) := by
  have fixed : pixels.take (pfW (s.cam i.val).profile) ++ List.replicate (pfW (s.cam i.val).profile - pixels.length) (pixels.getLast?.getD 0) = pixels := by
    rw [← length]
    simp
  have frame := CamCtx.frame_of_arriving arriving only
  unfold execPcpLine
  rw [hp]
  dsimp only
  rw [arriving]
  dsimp only
  rw [fixed, hc, State.takeLine_next arriving frame room exp whole, if_pos length, ← State.withLine, State.withLine_frame arriving only]

/-- A line of the right length is in its frame, and in memory where it ends no band. -/
theorem execPcpLine_taken (length : pixels.length = pfW (s.cam i.val).profile) (exp : e.val < pfNexp (s.cam i.val).profile)
    (room : vget f.stored 0 e.val < pfH (s.cam i.val).profile)
    (hc : packCodes (s.cam i.val).profile false (pixels.map (· % 2 ^ pfDepth (s.cam i.val).profile)) = codes)
    (whole : pfLineBytes (s.cam i.val).profile ≤ codes.length) (hi : Inv s) : ∃ t : State, execPcpLine port e.val pixels s = .next t ∧
      (∃ g ∈ (t.cam i.val).frames, g.fn = f.fn ∧ vget f.stored 0 e.val < vget g.stored 0 e.val) ∧
      (vget f.stored 0 e.val % 64 ≠ 63 → vget f.stored 0 e.val + 1 ≠ pfH (s.cam i.val).profile →
        t.readMem ((s.cam i.val).lineAddr f.slot e.val (vget f.stored 0 e.val)) (pfStride (s.cam i.val).profile) =
          padTo (pfStride (s.cam i.val).profile) (codes.take (pfLineBytes (s.cam i.val).profile))) ∧
      Only [.cams, .bytes, .fabric] s t := by
  have frame := CamCtx.frame_of_arriving arriving only
  have arriving' := State.withLine_arriving (e := e) arriving only codes
  have frame' := State.withLine_frame (e := e) arriving only codes
  have profile : ((s.withLine i.val f e.val codes).cam i.val).profile = (s.cam i.val).profile := by rw [State.withLine_cam arriving only]
  have stored := f.stored_withLine e (vget f.stored 0 e.val)
  have changed : Only [.cams, .bytes, .fabric] s (s.withLine i.val f e.val codes) :=
    (((State.storeLine_only (.refl _ s) (by simp) ..).cams (by simp) _).cams (by simp) _)
  have written (band : vget f.stored 0 e.val % 64 ≠ 63) (last : vget f.stored 0 e.val + 1 ≠ pfH (s.cam i.val).profile) :
      (s.withLine i.val f e.val codes).readMem ((s.cam i.val).lineAddr f.slot e.val (vget f.stored 0 e.val)) (pfStride (s.cam i.val).profile) =
        padTo (pfStride (s.cam i.val).profile) (codes.take (pfLineBytes (s.cam i.val).profile)) := by
    have mem : (s.withLine i.val f e.val codes).mem = _ := State.storeLine_mem frame band last _
    have back := Memory.read_write (m := s.mem.mem) hi ((s.cam i.val).lineAddr f.slot e.val (vget f.stored 0 e.val))
      (padTo (pfStride (s.cam i.val).profile) (codes.take (pfLineBytes (s.cam i.val).profile)))
    rw [padTo_length] at back
    rw [State.readMem, mem]
    exact back
  rw [execPcpLine_stored hp arriving only length exp room hc whole]
  refine ⟨_, rfl, ?_, ?_, ?_⟩
  · split
    next all =>
      have full (x : Nat) (hx : x < pfNexp ((s.withLine i.val f e.val codes).cam i.val).profile) :
          pfH ((s.withLine i.val f e.val codes).cam i.val).profile ≤ vget (f.withLine e.val (vget f.stored 0 e.val)).stored 0 x := by
        rw [profile] at hx ⊢
        simpa using List.all_eq_true.mp all x (List.mem_range.mpr hx)
      rw [State.endArrival_full arriving' frame' full, State.cam_mapCam_fin, State.mapFrame, State.cam_mapCam_fin]
      refine ⟨_, mem_updWhere.mpr ⟨_, List.mem_of_find?_eq_some arriving', rfl⟩, ?_⟩
      rw [if_pos BEq.rfl]
      exact ⟨rfl, by rw [stored]; exact Nat.lt_succ_self _⟩
    · exact ⟨_, List.mem_of_find?_eq_some arriving', rfl, by rw [stored]; exact Nat.lt_succ_self _⟩
  · intro band last
    split
    next all =>
      have full := List.all_eq_true.mp all e.val (List.mem_range.mpr exp)
      rw [stored] at full
      simp only [decide_eq_true_eq] at full
      omega
    · exact written band last
  · exact .ite (State.endArrival_only changed (by simp) ..) changed

end

end Sys2Proof.Machine
end

section
namespace Sys2Proof

set_option Elab.async false

open Machine

/-- Settles O39: a cell reaches a frame only as the next of its context's order, and a start of frame takes the next FN before it is dropped or
joins; a cell of a channel outside the mask is discarded by the reading of log 27. -/
theorem framesAndLinesArrive : Obligations.FramesAndLinesArrive := by
  unfold Obligations.FramesAndLinesArrive
  intro s i chan x
  dsimp only
  have joined {t : State} (h : (s.cam i.val).Started (s.sheds (pfDropClass (s.cam i.val).profile)) (t.cam i.val)) :
      (t.cam i.val).fnNext = (s.cam i.val).fnNext + 1 ∧
      ((s.cam i.val).freeSlot = none → (t.cam i.val).cnt.dropQueue = (s.cam i.val).cnt.dropQueue.satInc) ∧
      (∀ k, (s.cam i.val).freeSlot = some k → s.sheds (pfDropClass (s.cam i.val).profile) = false →
        ((s.cam i.val).plan.isSome = true ∨ (s.cam i.val).fnNext % (s.cam i.val).degrade = 0) →
        (t.cam i.val).cnt.accepted = (s.cam i.val).cnt.accepted.satInc ∧ ∃ f ∈ (t.cam i.val).frames, f.fn = (s.cam i.val).fnNext ∧ f.slot = k) := by
    refine ⟨h.next, h.full, fun k free shed turn => ?_⟩
    obtain ⟨accepted, mem⟩ := h.accepted k free shed turn
    obtain ⟨f, hf, e⟩ := List.mem_map.mp mem
    exact ⟨accepted, f, hf, congrArg Prod.fst e, congrArg Prod.snd e⟩
  refine ⟨fun e cam stale => execPixelCell_stale stale cam, execPixelCell_stray, fun run may held => ⟨?_, ?_⟩, fun fc stamp live may =>
    execTimingCell_recorded live may fc stamp, fun port hp => ⟨?_, ?_⟩⟩
  · intro sof arriving asm triggers order
    have next : (s.cam i.val).takesNext x := by
      refine ⟨held, ?_⟩
      cases h : (s.cam i.val).nextSeq with
      | none => exact .inr ⟨rfl, sof⟩
      | some q => rw [order q h]; exact .inl rfl
    obtain ⟨t, step, h⟩ := execPixelCell_started run may next sof arriving asm triggers
    exact ⟨t, step, joined h⟩
  · intro a f sof sol eol eof order arriving asm line exp offset dropping gap
    obtain ⟨t, step, only, grown, cnt⟩ := execPixelCell_continues run may held sof sol eol eof order arriving asm line exp dropping gap
    refine ⟨t, step, only, fun room => ?_, fun full => ⟨?_, ?_⟩⟩
    · rw [grown, LineAsm.grown_of_room offset room]
    · rw [grown, LineAsm.grown_of_full full]
    · rw [cnt, State.heldCell_of_full full]
      rfl
  · intro run arriving triggers
    obtain ⟨t, step, h⟩ := execPcpStartOfFrame_started hp run arriving triggers
    exact ⟨t, step, joined h⟩
  · intro e pixels f arriving only length exp room whole inv
    exact execPcpLine_taken hp arriving only length exp room rfl whole inv

end Sys2Proof
end

section
/-!
SUPPORT. Slices take a stripe and are replaced (R98, R99, R101): the dispatch of the first eligible stripe, and the watchdog.
-/
namespace Sys2Proof.Machine

set_option Elab.async false

variable {s t : State} {ps : List Part}

@[simp] theorem State.mapRecord_slices (s : State) (k fn : Nat) (f : LedgerRec → LedgerRec) : (s.mapRecord k fn f).cams.slices = s.cams.slices := by
  unfold State.mapRecord
  dsimp only
  split
  · rw [State.putRecord_cams]
    rfl
  · rfl

@[simp] theorem State.flagFrame_slices (s : State) (k fn n : Nat) : (s.flagFrame k fn n).cams.slices = s.cams.slices := s.mapRecord_slices ..

theorem State.flagFrame_only (h : Only ps s t) (hs : [.cams, .bytes, .fabric] ⊆ ps) (k fn n : Nat) : Only ps s (t.flagFrame k fn n) :=
  State.mapRecord_only h hs ..

/-- A role that is free takes the first eligible stripe under its own epoch (R98, R99, R101). -/
theorem execSliceDispatch_takes {r : Fin 16} {x : Nat × SliceJob} (unit : (s.mgmt.units.unitOf .sliceU r.val).isSome = true)
    (free : s.cams.slices[r] = none) (first : minBy (fun y => y.1) s.eligibles = some x) : ∃ t : State, execSliceDispatch r s = .next t ∧
      t.cams.slices[r] = some { x.2 with epoch := s.mgmt.units.epochOf .sliceU r.val } ∧ Only [.cams, .bytes, .fabric] s t := by
  have ready : ((s.mgmt.units.unitOf .sliceU r.val).isNone || (s.cams.slices[r]).isSome) = false := by
    rw [free, Option.isNone_eq_false_iff.mpr unit]
    rfl
  have flagged {u : State} (lost : Bool) (k fn : Nat) (h : Only [.cams, .bytes, .fabric] s u) :
      (if lost then u.flagFrame k fn 7 else u).cams.slices = u.cams.slices ∧
        Only [.cams, .bytes, .fabric] s (if lost then u.flagFrame k fn 7 else u) := by
    split
    · exact ⟨State.flagFrame_slices .., State.flagFrame_only h (by simp) ..⟩
    · exact ⟨rfl, h⟩
  have taken (v : Vector (Option SliceJob) 16) : Only [.cams, .bytes, .fabric] s (s.mapCams (fun y => { y with slices := v })) :=
    (Only.refl _ s).cams (by simp) _
  unfold execSliceDispatch
  rw [if_neg (by rw [ready]; exact Bool.false_ne_true), first]
  refine ⟨_, rfl, ?_, State.requests_only (flagged _ _ _ (taken _)).2 (by simp) _⟩
  have slices (u : State) (rs : List FabReq) : (u.requests rs).cams.slices = u.cams.slices := rfl
  rw [slices, (flagged _ _ _ (taken _)).1]
  exact Vector.getElem_set_self r.isLt

/-! ### Units and roles -/

theorem getElem?_toList_vmod {α : Type} {n : Nat} (v : Vector α n) (i : Nat) (f : α → α) (j : Nat) :
    (vmod v i f).toList[j]? = if j = i then v.toList[j]?.map f else v.toList[j]? := by
  unfold vmod
  split
  next hi =>
    rw [Vector.toList_set, List.getElem?_set]
    split
    next e =>
      subst e
      rw [if_pos rfl]
      simp [hi]
    next ne => rw [if_neg (Ne.symm ne)]
  next hi =>
    split
    next e =>
      subst e
      simp [hi]
    · rfl

namespace UnitTable

variable (u : UnitTable) (k : UnitKind) (i : Nat)

theorem phys_mapPhys (f : PhysUnit → PhysUnit) (j : Nat) :
    ((u.mapPhys k i f).phys k)[j]? = if j = i then ((u.phys k)[j]?).map f else (u.phys k)[j]? := by
  cases k <;> exact getElem?_toList_vmod ..

theorem roles_mapRole (f : Role → Role) (j : Nat) :
    ((u.mapRole k i f).roles k)[j]? = if j = i then ((u.roles k)[j]?).map f else (u.roles k)[j]? := by
  cases k <;> exact getElem?_toList_vmod ..

@[simp] theorem roles_mapPhys (f : PhysUnit → PhysUnit) : (u.mapPhys k i f).roles k = u.roles k := by cases k <;> rfl

@[simp] theorem phys_mapRole (f : Role → Role) : (u.mapRole k i f).phys k = u.phys k := by cases k <;> rfl

end UnitTable

/-- The table of units once the unit p of a role has died, before a spare is looked for (R408). -/
def UnitTable.death (u : UnitTable) (k : UnitKind) (r p : Nat) : UnitTable :=
  (u.mapRole k r (fun x => { x with epoch := nextEpoch (u.epochOf k r), unit := none })).mapPhys k p
    (fun x => { x with state := .fenced, role := none, deaths := min (x.deaths + 1) 255 })

/-- The table of units once the spare n has taken a role. -/
def UnitTable.takeover (u : UnitTable) (k : UnitKind) (r n e : Nat) : UnitTable :=
  (u.mapRole k r (fun x => { x with unit := some n })).mapPhys k n (fun x => { x with state := .active, role := some r, epoch := e })

/-- A unit that fills a role dies: a spare takes the role, or nothing does. -/
theorem State.replaceUnit_units {k : UnitKind} {r p : Nat} (filled : s.mgmt.units.unitOf k r = some p) (code : Nat) :
    (s.replaceUnit k r code).mgmt.units = match firstIdx (fun x => x.state == .spare) ((s.mgmt.units.death k r p).phys k) with
      | some n => (s.mgmt.units.death k r p).takeover k r n (nextEpoch (s.mgmt.units.epochOf k r))
      | none => s.mgmt.units.death k r p := by
  unfold State.replaceUnit
  rw [filled]
  dsimp only
  change _ = match firstIdx (fun x => x.state == .spare) ((s.mgmt.units.death k r p).phys k) with | some n => _ | none => _
  split
  next n spare =>
    rw [((Outside.refl _).post ..).units, ((Outside.refl _).logError _).units]
    have spare' : firstIdx (fun x => x.state == .spare) ((s.mgmt.units.death k r p).phys k) = some n := spare
    rw [spare']
    rfl
  next none_ =>
    rw [((Outside.refl _).logErrorPost _).units]
    have none' : firstIdx (fun x => x.state == .spare) ((s.mgmt.units.death k r p).phys k) = none := none_
    rw [none']
    rfl

theorem UnitTable.unitOf_some {u : UnitTable} {k : UnitKind} {r p : Nat} (h : u.unitOf k r = some p) : ∃ x, (u.roles k)[r]? = some x := by
  obtain ⟨x, found, -⟩ := Option.bind_eq_some_iff.mp h
  exact ⟨x, found⟩

theorem UnitTable.roleOf_some {u : UnitTable} {k : UnitKind} {r p : Nat} (h : u.roleOf k p = some r) : ∃ x, (u.phys k)[p]? = some x := by
  obtain ⟨x, found, -⟩ := Option.bind_eq_some_iff.mp h
  exact ⟨x, found⟩

/-- The unit of a role that is declared dead is fenced, and the role's epoch advances (R408, R410). -/
theorem State.replaceUnit_fences {k : UnitKind} {r p : Nat} (filled : s.mgmt.units.unitOf k r = some p)
    (holds : s.mgmt.units.roleOf k p = some r) (code : Nat) : ((s.replaceUnit k r code).mgmt.units.unit k p).state = .fenced ∧
      (s.replaceUnit k r code).mgmt.units.epochOf k r = nextEpoch (s.mgmt.units.epochOf k r) := by
  obtain ⟨x, role⟩ := UnitTable.unitOf_some filled
  obtain ⟨y, unit⟩ := UnitTable.roleOf_some holds
  have dead : ((s.mgmt.units.death k r p).phys k)[p]? = some { y with state := .fenced, role := none, deaths := min (y.deaths + 1) 255 } := by
    unfold UnitTable.death
    rw [UnitTable.phys_mapPhys, if_pos rfl, UnitTable.phys_mapRole, unit]
    rfl
  have next : ((s.mgmt.units.death k r p).roles k)[r]? = some { x with epoch := nextEpoch (s.mgmt.units.epochOf k r), unit := none } := by
    unfold UnitTable.death
    rw [UnitTable.roles_mapPhys, UnitTable.roles_mapRole, if_pos rfl, role]
    rfl
  rw [State.replaceUnit_units filled]
  unfold UnitTable.unit UnitTable.epochOf
  split
  next n spare =>
    obtain ⟨z, found, free⟩ := firstIdx_some spare
    have other : p ≠ n := by
      rintro rfl
      rw [dead] at found
      cases found
      cases free
    unfold UnitTable.takeover
    rw [UnitTable.phys_mapPhys, if_neg other, UnitTable.phys_mapRole, dead, UnitTable.roles_mapPhys, UnitTable.roles_mapRole, if_pos rfl, next]
    exact ⟨rfl, rfl⟩
  · rw [dead, next]
    exact ⟨rfl, rfl⟩

/-- A slice that holds a stripe without output is fenced, and its role keeps the stripe (R101, R408). -/
theorem execSliceWatchdog_fences {r : Fin 16} {q : SliceJob} {p : Nat} (job : s.cams.slices[r] = some q)
    (filled : s.mgmt.units.unitOf .sliceU r.val = some p) (holds : s.mgmt.units.roleOf .sliceU p = some r.val) :
    ∃ t : State, execSliceWatchdog r s = .next t ∧ (t.mgmt.units.unit .sliceU p).state = .fenced ∧
      t.mgmt.units.epochOf .sliceU r.val = nextEpoch (s.mgmt.units.epochOf .sliceU r.val) ∧ t.cams.slices[r] = some q ∧
      Only [.cams, .bytes, .mgmt, .host, .fabric] s t := by
  have dead := State.replaceUnit_fences filled holds Status.hardwareFault.code
  have replaced := State.replaceUnit_only (.refl [.mgmt, .host] s) (by simp) (by simp) .sliceU r.val Status.hardwareFault.code
  have flagged := State.flagFrame_only (.refl [.cams, .bytes, .fabric] (s.declareDead .sliceU r.val Status.hardwareFault.code)) (by simp) q.cam q.fn 7
  have kept : ((s.declareDead .sliceU r.val Status.hardwareFault.code).flagFrame q.cam q.fn 7).cams.slices = s.cams.slices :=
    (State.flagFrame_slices ..).trans (congrArg CamsSt.slices (replaced.cams_eq (by simp)))
  have whole : Only [.cams, .bytes, .mgmt, .host, .fabric] s ((s.declareDead .sliceU r.val Status.hardwareFault.code).flagFrame q.cam q.fn 7) :=
    State.flagFrame_only (State.replaceUnit_only (.refl _ s) (by simp) (by simp) ..) (by simp) ..
  have units : ((s.declareDead .sliceU r.val Status.hardwareFault.code).flagFrame q.cam q.fn 7).mgmt.units =
      (s.replaceUnit .sliceU r.val Status.hardwareFault.code).mgmt.units := congrArg MgmtSt.units (flagged.mgmt_eq (by simp))
  unfold execSliceWatchdog
  rw [job]
  dsimp only
  rw [filled, if_neg (by simp)]
  refine ⟨_, rfl, ?_⟩
  generalize (s.declareDead .sliceU r.val Status.hardwareFault.code).flagFrame q.cam q.fn 7 = d at kept whole units ⊢
  have ends {u : State} (h : Outside d u) (only : Only [.cams, .bytes, .mgmt, .host, .fabric] s u) :
      (u.mgmt.units.unit .sliceU p).state = .fenced ∧ u.mgmt.units.epochOf .sliceU r.val = nextEpoch (s.mgmt.units.epochOf .sliceU r.val) ∧
        u.cams.slices[r] = some q ∧ Only [.cams, .bytes, .mgmt, .host, .fabric] s u := by
    rw [h.units, units]
    exact ⟨dead.1, dead.2, (congrArg (fun v : Vector (Option SliceJob) 16 => v[r]) (h.slices.trans kept)).trans job, only⟩
  split
  · exact ends (.refl d) whole
  · exact ends (Outside.refl d).other (State.requests_only whole (by simp) _)

end Sys2Proof.Machine
end

section
/-!
SUPPORT. The end of a stripe (R100, R101, R107, R163): what its writes keep, the frame that gets the stripe, and the frame that closes.
-/
namespace Sys2Proof.Machine

set_option Elab.async false

variable {s t u : State}

/-! ### Progress of the frames of a context -/

/-- The stripes of a frame that are done. -/
def CamFrame.work (f : CamFrame) : Nat × List (Nat × Nat) := (f.fn, f.stripes)

/-- What the end of a stripe reads and changes of a context: its profile and span, a stop that is in progress, the last frame done, the count of frames,
and which stripes of its frames are done. -/
def CamCtx.progress (c : CamCtx) : List Byte × Nat × Option StopReq × Option Nat × Word × List (Nat × List (Nat × Nat)) :=
  (c.profile, c.span, c.stop, c.lastDone, c.cnt.frames, c.frames.map CamFrame.work)

theorem CamCtx.progress_core (c : CamCtx) : c.core.progress = c.progress := rfl

theorem CamCtx.stripes_frame (c : CamCtx) (fn : Nat) :
    (c.frame fn).map CamFrame.stripes = ((c.frames.map CamFrame.work).find? (fun x => x.1 == fn)).map Prod.snd := by
  rw [List.find?_map, Option.map_map]
  rfl

theorem CamCtx.frame_of_progress {c d : CamCtx} {fn : Nat} {f : CamFrame} (h : d.progress = c.progress) (hf : c.frame fn = some f) :
    ∃ g, d.frame fn = some g ∧ g.stripes = f.stripes := by
  simp only [CamCtx.progress, Prod.mk.injEq] at h
  obtain ⟨-, -, -, -, -, frames⟩ := h
  have same := c.stripes_frame fn
  rw [← frames, ← CamCtx.stripes_frame, hf] at same
  exact Option.map_eq_some_iff.mp same.symm

theorem CamCtx.frameDoneAll_congr {c d : CamCtx} {f g : CamFrame} (h : d.progress = c.progress) (stripes : g.stripes = f.stripes) :
    d.frameDoneAll g = c.frameDoneAll f := by
  simp only [CamCtx.progress, Prod.mk.injEq] at h
  obtain ⟨profile, span, -⟩ := h
  unfold CamCtx.frameDoneAll CamCtx.bandDone
  rw [profile, span, stripes]

/-- The progress of every context stays as it is, and so does what `Outside` names. -/
structure Steady (s t : State) : Prop extends Outside s t where
  same : ∀ j, (t.cam j).progress = (s.cam j).progress

theorem Steady.refl (s : State) : Steady s s := ⟨.refl s, fun _ => rfl⟩

theorem Steady.trans (h : Steady s t) (k : Steady t u) : Steady s u := ⟨h.toOutside.trans k.toOutside, fun j => (k.same j).trans (h.same j)⟩

theorem Steady.of_aside (h : Steady s t) (k : Aside t u) : Steady s u := h.trans ⟨k.toOutside, k.keep CamCtx.progress_core⟩

theorem Steady.ite {c : Prop} [Decidable c] (ht : Steady s t) (hu : Steady s u) : Steady s (if c then t else u) := by split <;> assumption

theorem Steady.mapCam (h : Steady s t) {k : Nat} {f : CamCtx → CamCtx} (hf : ∀ c, (f c).progress = c.progress := by exact fun _ => rfl) :
    Steady s (t.mapCam k f) := h.trans ⟨(Outside.refl t).other, t.keep_mapCam k hf⟩

theorem Steady.mapRecord (h : Steady s t) (k fn : Nat) (f : LedgerRec → LedgerRec) : Steady s (t.mapRecord k fn f) := by
  have changed : Steady s (t.mapFrame k fn (fun x => { x with rcd := f x.rcd })) := h.mapCam fun c => by
    have kept (x : CamFrame) : CamFrame.work { x with rcd := f x.rcd } = x.work := rfl
    simp only [CamCtx.progress, updWhere_map kept]
  unfold State.mapRecord
  dsimp only
  split
  · exact changed.of_aside ((Aside.refl _).putRecord _)
  · exact changed

theorem Steady.flagFrame (h : Steady s t) (k fn n : Nat) : Steady s (t.flagFrame k fn n) := h.mapRecord ..

/-! ### The writes of a stripe -/

theorem Aside.putRow (h : Aside s t) (r : PlaneRow) (x0 : Nat) (bs : List Byte) (bad : Nat → Nat → Bool) : Aside s (t.putRow r x0 bs bad) :=
  .foldl _ (fun _ _ h => h.mapMem _) _ (h.writeMem ..)

theorem Aside.markRow (h : Aside s t) (r : PlaneRow) (x0 x1 : Nat) (bad : Nat → Nat → Bool) : Aside s (t.markRow r x0 x1 bad) :=
  .foldl _ (fun _ _ h => .ite (h.mapMem _) h) _ h

theorem Aside.writeTap (h : Aside s t) (v : Env) (ok : Bool) (rows : List Nat) (x0 x1 i : Nat) : Aside s (t.writeTap v ok rows x0 x1 i) := by
  unfold State.writeTap
  split
  · exact h
  · refine .foldl _ (fun _ _ h => ?_) _ h
    split <;> exact h.putRow ..

theorem Aside.writeOut (h : Aside s t) (v : Env) (ok : Bool) (rows : List Nat) (x0 x1 i : Nat) : Aside s (t.writeOut v ok rows x0 x1 i) := by
  unfold State.writeOut
  split
  · exact h
  · exact .foldl _ (fun _ _ h => h.putRow ..) _ h

theorem Aside.writeRef (h : Aside s t) (v : Env) (ok : Bool) (rows : List Nat) (x0 x1 : Nat) : Aside s (t.writeRef v ok rows x0 x1) :=
  .foldl _ (fun _ _ h => h.putRow ..) _ h

theorem Aside.markBefore (h : Aside s t) (v : Env) (k x0 x1 : Nat) : Aside s (t.markBefore v k x0 x1) := by
  have rows {u : State} (h : Aside s u) (l : List PlaneRow) (g : State → PlaneRow → State) (hg : ∀ u r, Aside s u → Aside s (g u r)) :
      Aside s (l.foldl g u) := .foldl g hg l h
  unfold State.markBefore
  refine .ite (rows (.foldl _ (fun _ _ h => rows h _ _ fun _ _ h => h.markRow ..) _ (.foldl _ (fun u i h => ?_) _ h)) _ _ fun _ _ h => h.markRow ..) h
  split
  · exact .ite h (rows h _ _ fun _ _ h => h.markRow ..)
  · exact h

/-! ### The frame that gets a stripe -/

/-- A frame with one more stripe done. -/
def CamFrame.withStripe (f : CamFrame) (band stripe : Nat) : CamFrame := { f with stripes := f.stripes ++ [(band, stripe)] }

theorem updWhere_map_congr {α β : Type} {p : α → Bool} {f g : α → α} {π : α → β} (h : ∀ x, π (f x) = π (g x)) (l : List α) :
    (updWhere p f l).map π = (updWhere p g l).map π := by
  simp only [updWhere, List.map_map]
  refine List.map_congr_left fun x _ => ?_
  simp only [Function.comp_apply]
  split
  · exact h x
  · rfl

/-- Two updates of a frame that add the same stripe leave the same progress, in states that differ aside from it. -/
theorem Steady.mapFrame_congr (h : Aside s t) {k fn : Nat} {f g : CamFrame → CamFrame} (hs : ∀ x, (f x).work = (g x).work) :
    Steady (s.mapFrame k fn g) (t.mapFrame k fn f) := by
  refine ⟨(Outside.refl _).trans ⟨h.slices, h.units, h.pair, h.dev⟩, fun j => ?_⟩
  have same := h.keep CamCtx.progress_core j
  have frames := h.keep (π := CamCtx.frames) (fun _ => rfl) j
  simp only [CamCtx.progress, Prod.mk.injEq] at same
  obtain ⟨profile, span, stop, lastDone, count, -⟩ := same
  unfold State.mapFrame
  rw [State.cam_mapCam, State.cam_mapCam]
  split <;> simp only [CamCtx.progress, profile, span, stop, lastDone, count, frames, updWhere_map_congr hs]

/-- A stripe that ends joins its frame, which closes once it has all of them (R100, R107). -/
theorem State.finishStripe_cases {q : SliceJob} {f : CamFrame} (h : (s.cam q.cam).frame q.fn = some f) (bad : List (Nat × Nat)) : ∃ u : State,
    Steady (s.mapFrame q.cam q.fn (fun x => x.withStripe q.band q.stripe)) u ∧ s.finishStripe q bad = match (u.cam q.cam).frame q.fn with
      | some g => if (u.cam q.cam).frameDoneAll g then u.closeFrame q.cam q.fn else u
      | none => u := by
  unfold State.finishStripe
  dsimp only
  rw [h]
  have counted {v u : State} {c : Prop} [Decidable c] (h : Steady v u) (k fn : Nat) (f : LedgerRec → LedgerRec) :
      Steady v (if c then u else u.mapRecord k fn f) := .ite h (h.mapRecord ..)
  have spared {v u : State} {c : Prop} [Decidable c] (h : Steady v u) (k fn n : Nat) : Steady v (if c then u else u.flagFrame k fn n) :=
    .ite h (h.flagFrame ..)
  have flagged {v u : State} {c : Prop} [Decidable c] (h : Steady v u) (k fn n : Nat) : Steady v (if c then u.flagFrame k fn n else u) :=
    .ite (h.flagFrame ..) h
  refine ⟨_, ?_, rfl⟩
  refine Steady.of_aside ?_ ((Aside.refl _).stripeWritten ..)
  refine flagged (spared (counted ?_ ..) ..) ..
  refine Steady.mapCam ?_
  refine Steady.mapFrame_congr ?_ fun _ => rfl
  exact Aside.writeRef (.foldl _ (fun _ _ h => h.writeOut ..) _ (.foldl _ (fun _ _ h => h.writeTap ..) _ ((Aside.refl s).markBefore ..))) ..

end Sys2Proof.Machine
end

section
/-!
SUPPORT. STRIPE_DONE (R100, R101, R107): the frame that closes leaves its context's list, and the role is free.
-/
namespace Sys2Proof.Machine

set_option Elab.async false

variable {s t u : State}

/-! ### The frame that closes -/

/-- A context whose frame fn has closed (R100, R163): it leaves the frames, is the last one done, and is counted. -/
structure CamCtx.Closed (c : CamCtx) (fn : Nat) (d : CamCtx) : Prop where
  stop : d.stop = c.stop
  frames : d.frames = c.frames.filter (fun x => x.fn != fn)
  last : d.lastDone = some fn
  count : d.cnt.frames = c.cnt.frames.satInc

theorem CamCtx.Closed.aside {c : CamCtx} {fn k : Nat} (h : c.Closed fn (t.cam k)) (a : Aside t u) : c.Closed fn (u.cam k) :=
  ⟨(a.keep (π := CamCtx.stop) (fun _ => rfl) k).trans h.stop, (a.keep (π := CamCtx.frames) (fun _ => rfl) k).trans h.frames,
    (a.keep (π := CamCtx.lastDone) (fun _ => rfl) k).trans h.last, (a.keep (π := fun c => c.cnt.frames) (fun _ => rfl) k).trans h.count⟩

/-- A frame that closes does so before a stop that waits for it ends. -/
theorem State.closeFrame_cases {k fn : Nat} {f : CamFrame} (hk : k < 48) (h : (s.cam k).frame fn = some f) : ∃ u : State, Outside s u ∧
    (s.cam k).Closed fn (u.cam k) ∧ s.closeFrame k fn = (u.stopIfDone k).jmSettle := by
  unfold State.closeFrame
  extract_lets c p done left
  rw [show c.frame fn = some f from h]
  dsimp -zeta only
  extract_lets v late took stat skipped r0 r1 r2 r3 r g t1 t2 t3 t4 t5 t6 t7 t8 t9
  clear_value stat
  have written : Aside s t4 := by
    refine .foldl _ (fun t i h => ?_) _ (.foldl _ (fun t i h => ?_) _ (Aside.putRecord ?_ _))
    · split
      · exact h.writeMem ..
      · exact h
    · split
      · exact h.writeMem ..
      · exact h
    · unfold t1
      split
      · exact ((Aside.refl s).writeMem ..).writes ..
      · exact .refl s
  have closed : c.Closed fn (t6.cam k) := by
    have count := written.keep (π := fun c => c.cnt.frames) (fun _ => rfl) k
    have stop := written.keep (π := CamCtx.stop) (fun _ => rfl) k
    unfold t6 t5
    rw [State.countCam, State.cam_mapCam_same hk, State.cam_mapCam_same hk]
    exact ⟨stop, rfl, rfl, congrArg Word.satInc count⟩
  have rest : Aside t6 (t9.endPlan k) := by
    have posted : Aside t6 t7 := .ite (((Aside.refl _).logEvent _).post ..) (.refl _)
    have hooked : Aside t6 t9 := by
      unfold t9
      split
      · exact (posted.frameClosed ..).statsClosed ..
      · exact posted.frameClosed ..
    exact hooked.endPlan k
  exact ⟨_, (written.toOutside.other : Outside s t6).of_aside rest, closed.aside rest, rfl⟩

/-! ### SRAM errors -/

theorem foldl_cams {α : Type} {g : State → α → State} (hg : ∀ t x, (g t x).cams = t.cams) (l : List α) (s : State) : (l.foldl g s).cams = s.cams :=
  List.foldlRecOn (motive := fun t : State => t.cams = s.cams) l g rfl fun t h x _ => (hg t x).trans h

@[simp] theorem State.replaceUnit_cams (s : State) (k : UnitKind) (r code : Nat) : (s.replaceUnit k r code).cams = s.cams :=
  (State.replaceUnit_only (.refl [.mgmt, .host] s) (by simp) (by simp) k r code).cams_eq (by simp)

@[simp] theorem State.rerunRole_cams (s : State) (r : Nat) : (s.rerunRole r).cams = s.cams := by
  have marked (l : List Invoc) : (l.foldl (fun (t : State) (i : Invoc) => match i.kind with
      | .tile cam hook run fn _ _ => t.mapJm (fun j => { j with hooks := updWhere (fun f => f.is cam hook run fn) (fun f => { f with reprocessed := true }) j.hooks })
      | _ => t) s).cams = s.cams := foldl_cams (fun t i => by split <;> rfl) ..
  unfold State.rerunRole
  dsimp only
  split
  · split <;> exact marked _
  · exact (foldl_cams (fun t i => by split <;> rfl) ..).trans (marked _)

@[simp] theorem State.declareDead_cams (s : State) (k : UnitKind) (r code : Nat) : (s.declareDead k r code).cams = s.cams := by
  cases k
  case siteU => exact (State.rerunRole_cams ..).trans (s.replaceUnit_cams ..)
  all_goals exact s.replaceUnit_cams ..

@[simp] theorem State.postTally_cams (s : State) (n : Nat) : (s.postTally n).cams = s.cams := State.post_cams ..

@[simp] theorem State.logErrorPost_cams (s : State) (i : LogInfo) : (s.logErrorPost i).cams = s.cams := State.post_cams ..

@[simp] theorem State.pcDead_cams (s : State) (p : Fin 128) : (s.pcDead p).cams = s.cams := by
  unfold State.pcDead
  split
  · rfl
  · split
    · exact State.post_cams ..
    · rfl

@[simp] theorem State.sramError_cams (s : State) (e : SramError) : (s.sramError e).cams = s.cams := by
  have tallied (b : Bool) (n : Nat) (t : State) : (if b then t.postTally n else t).cams = t.cams := by
    split
    · exact t.postTally_cams n
    · rfl
  have first (b : Bool) (n : Nat) (t : State) : (if b then t else t.postTally n).cams = t.cams := by
    split
    · rfl
    · exact t.postTally_cams n
  have dead (o : Option Nat) (k : UnitKind) (t : State) :
      (match o with | some r => t.declareDead k r Status.hardwareFault.code | none => t).cams = t.cams := by
    split
    · exact t.declareDead_cams ..
    · rfl
  unfold State.sramError
  split
  · rfl
  · dsimp only
    split
    · rfl
    · split
      · split
        · exact tallied ..
        · split
          case h_4 =>
            split
            · exact (State.pcDead_cams ..).trans ((State.logErrorPost_cams ..).trans (first ..))
            · exact (State.logErrorPost_cams ..).trans (first ..)
          case h_5 => exact (State.logErrorPost_cams ..).trans (first ..)
          all_goals exact (dead ..).trans (first ..)
      · exact tallied ..

@[simp] theorem State.sramErrors_cams (s : State) (es : List SramError) : (s.sramErrors es).cams = s.cams := foldl_cams State.sramError_cams es s

end Sys2Proof.Machine
end

section
/-!
SUPPORT. STRIPE_DONE (R100, R101, R107): what the end of a stripe makes of its frame and of its role.
-/
namespace Sys2Proof.Machine

set_option Elab.async false

variable {s t u : State} {q : SliceJob} {f : CamFrame}

theorem Outside.closeFrame {k fn : Nat} (hk : k < 48) (h : (s.cam k).frame fn = some f) : Outside s (s.closeFrame k fn) := by
  obtain ⟨u, outside, -, e⟩ := State.closeFrame_cases hk h
  rw [e]
  exact (outside.stopIfDone k).of_aside (Aside.refl _).jmSettle

/-- With no stop in progress a context has closed the frame once CLOSED is written. -/
theorem State.closeFrame_closed {k fn : Nat} (hk : k < 48) (h : (s.cam k).frame fn = some f) (stop : (s.cam k).stop = none) :
    (s.cam k).Closed fn ((s.closeFrame k fn).cam k) := by
  obtain ⟨u, -, closed, e⟩ := State.closeFrame_cases hk h
  rw [e, State.stopIfDone_of_no_stop (closed.stop.trans stop)]
  exact closed.aside (Aside.refl u).jmSettle

theorem CamCtx.Closed.gone {c d : CamCtx} {fn : Nat} (h : c.Closed fn d) : ∀ x ∈ d.frames, x.fn ≠ fn := by
  intro x hx
  rw [h.frames] at hx
  simpa using (List.mem_filter.mp hx).2

/-- What the end of the stripe q makes of the frame f: it has the stripe, or it has closed with its last one. -/
structure Finished (s : State) (q : SliceJob) (f : CamFrame) (t : State) : Prop where
  open_ : (s.cam q.cam).frameDoneAll (f.withStripe q.band q.stripe) = false →
    ∃ h, (t.cam q.cam).frame q.fn = some h ∧ h.stripes = f.stripes ++ [(q.band, q.stripe)]
  closed : (s.cam q.cam).frameDoneAll (f.withStripe q.band q.stripe) = true → (s.cam q.cam).stop = none →
    (∀ h ∈ (t.cam q.cam).frames, h.fn ≠ q.fn) ∧ (t.cam q.cam).lastDone = some q.fn ∧
      (t.cam q.cam).cnt.frames = (s.cam q.cam).cnt.frames.satInc

theorem State.finishStripe_ends (hk : q.cam < 48) (hf : (s.cam q.cam).frame q.fn = some f) (bad : List (Nat × Nat)) :
    Outside s (s.finishStripe q bad) ∧ Finished s q f (s.finishStripe q bad) := by
  obtain ⟨u, steady, e⟩ := State.finishStripe_cases hf bad
  have base : (s.mapFrame q.cam q.fn (fun x => x.withStripe q.band q.stripe)).cam q.cam = { s.cam q.cam with
      frames := updWhere (fun x => x.fn == q.fn) (fun x => x.withStripe q.band q.stripe) (s.cam q.cam).frames } := State.cam_mapCam_same hk _
  have got : ((s.mapFrame q.cam q.fn (fun x => x.withStripe q.band q.stripe)).cam q.cam).frame q.fn = some (f.withStripe q.band q.stripe) := by
    rw [base]
    have found : (s.cam q.cam).frames.find? (fun x => x.fn == q.fn) = some f := hf
    exact find?_updWhere_other found (List.find?_some (p := fun x : CamFrame => x.fn == q.fn) found) fun _ => rfl
  obtain ⟨g, found, stripes⟩ := CamCtx.frame_of_progress (steady.same q.cam) got
  have done : (u.cam q.cam).frameDoneAll g = (s.cam q.cam).frameDoneAll (f.withStripe q.band q.stripe) := by
    rw [CamCtx.frameDoneAll_congr (steady.same q.cam) stripes, base]
    rfl
  have same := steady.same q.cam
  rw [base] at same
  simp only [CamCtx.progress, Prod.mk.injEq] at same
  obtain ⟨-, -, stop, -, count, -⟩ := same
  have outside : Outside s u := ((Outside.refl s).mapCam ..).trans steady.toOutside
  rw [e, found]
  dsimp only
  rw [done]
  cases all : (s.cam q.cam).frameDoneAll (f.withStripe q.band q.stripe) with
  | false => exact ⟨outside, fun _ => ⟨g, found, stripes⟩, fun yes => absurd (all.symm.trans yes) (by simp)⟩
  | true =>
    refine ⟨outside.trans (.closeFrame hk found), fun no => absurd (all.symm.trans no) (by simp), fun _ quiet => ?_⟩
    have closed := State.closeFrame_closed hk found (stop.trans quiet)
    exact ⟨closed.gone, closed.last, closed.count.trans (congrArg Word.satInc count)⟩

/-- The end of a stripe in two states of the same progress. -/
theorem Finished.of_progress {g : CamFrame} (h : Finished u q g t) (same : (u.cam q.cam).progress = (s.cam q.cam).progress)
    (stripes : g.stripes = f.stripes) : Finished s q f t := by
  have done : (u.cam q.cam).frameDoneAll (g.withStripe q.band q.stripe) = (s.cam q.cam).frameDoneAll (f.withStripe q.band q.stripe) :=
    CamCtx.frameDoneAll_congr same (congrArg (· ++ [(q.band, q.stripe)]) stripes)
  simp only [CamCtx.progress, Prod.mk.injEq] at same
  obtain ⟨-, -, stop, -, count, -⟩ := same
  refine ⟨fun no => ?_, fun yes quiet => ?_⟩
  · rw [← stripes]
    exact h.open_ (done.trans no)
  · rw [← count]
    exact h.closed (done.trans yes) (stop.trans quiet)

/-- A role in service that holds a stripe ends it and is free (R101, R107). -/
theorem execStripeDone_ends {r : Fin 16} (es : List SramError) (bad : List (Nat × Nat)) (job : s.cams.slices[r] = some q)
    (unit : (s.mgmt.units.unitOf .sliceU r.val).isSome = true) (hk : q.cam < 48) (hf : (s.cam q.cam).frame q.fn = some f) :
    ∃ t : State, execStripeDone r es bad s = .next t ∧ t.cams.slices[r] = none ∧ Finished s q f t := by
  have flagged : Steady s (if q.epoch = s.mgmt.units.epochOf .sliceU r.val then s else s.flagFrame q.cam q.fn 7) :=
    .ite (.refl s) ((Steady.refl s).flagFrame ..)
  unfold execStripeDone
  rw [job]
  dsimp only
  rw [if_neg (by simpa using Option.isSome_iff_ne_none.mp unit)]
  generalize (if q.epoch = s.mgmt.units.epochOf .sliceU r.val then s else s.flagFrame q.cam q.fn 7) = v at flagged ⊢
  generalize hw : (v.mapCams (fun x => { x with slices := x.slices.set r none })).settleTraffic (.slice r.val) = w
  have cams : w.cams = { v.cams with slices := v.cams.slices.set r none } := by
    rw [← hw]
    rfl
  have same : (w.cam q.cam).progress = (s.cam q.cam).progress := by
    rw [← flagged.same q.cam, State.cam, cams]
    rfl
  obtain ⟨g, found, stripes⟩ := CamCtx.frame_of_progress same hf
  obtain ⟨outside, finished⟩ := State.finishStripe_ends hk found bad
  refine ⟨_, rfl, ?_, ?_⟩
  · have free : ((w.finishStripe q bad).sramErrors es).cams.slices = v.cams.slices.set r none := by
      rw [State.sramErrors_cams, outside.slices, cams]
    exact (congrArg (fun v : Vector (Option SliceJob) 16 => v[r]) free).trans (Vector.getElem_set_self r.isLt)
  · have ended := finished.of_progress same stripes
    have kept (j : Nat) : ((w.finishStripe q bad).sramErrors es).cam j = (w.finishStripe q bad).cam j :=
      State.cam_of_cams_eq (State.sramErrors_cams ..) j
    refine ⟨?_, ?_⟩ <;> rw [kept]
    · exact ended.open_
    · exact ended.closed

end Sys2Proof.Machine
end

section
/-!
SUPPORT. The motion engine (R189, R190): the band that it takes, the frames that it has searched, and its death.
-/
namespace Sys2Proof.Machine

set_option Elab.async false

variable {s t u : State} {ps : List Part}

/-! ### The bands in their order -/

/-- A band that can be written is one of a frame that its context holds. -/
theorem State.mem_motionBands {x : Nat × Nat × CamFrame} (h : x ∈ s.motionBands) : x.2.1 < 48 ∧ x.2.2 ∈ (s.cam x.2.1).frames ++ (s.cam x.2.1).trail := by
  obtain ⟨⟨c, k⟩, mem, hx⟩ := List.mem_flatMap.mp h
  obtain ⟨f, hf, e⟩ := List.mem_filterMap.mp hx
  have at_ : s.cams.ctx.toList[k]? = some c := List.mk_mem_zipIdx_iff_getElem?.mp mem
  obtain ⟨hk, hc⟩ := List.getElem?_eq_some_iff.mp at_
  have hk' : k < 48 := by simpa using hk
  have cam : s.cam k = c := by
    rw [State.cam, vget_eq_getElem _ _ hk']
    exact hc
  dsimp only at e
  split at e
  · cases e
    exact ⟨hk', by rw [cam]; exact hf⟩
  · cases e

/-! ### The band that is written -/

theorem Aside.endField (h : Aside s t) (k : Nat) (f : CamFrame) (i : Nat) (sums : List (Nat × Nat)) : Aside s (t.endField k f i sums) :=
  (h.writeMem ..).writeMem ..

/-- Two updates of a context that leave the same core. -/
theorem Aside.mapCam_core {f g : CamCtx → CamCtx} (h : ∀ c, (g c).core = (f c).core) (s : State) (k : Nat) : Aside (s.mapCam k f) (s.mapCam k g) := by
  refine ⟨(Outside.refl _).other, fun j => ?_⟩
  rw [State.cam_mapCam, State.cam_mapCam]
  split
  · exact h _
  · rfl

/-- What a written band makes of a context's frames: those of the FN have one more band of their field, which is missing where lost says so, and a
closed one with its last band is forgotten. -/
structure CamCtx.Searched (c : CamCtx) (f : CamFrame) (lost : Bool) (d : CamCtx) : Prop where
  each : ∀ g ∈ d.frames ++ d.trail, g.fn = f.fn → g.fields = f.fields + 1 ∧ (lost = true → f.fields ∈ g.fieldBad)
  kept : f ∈ c.frames ++ c.trail → f ∈ c.frames ∨ f.fields + 1 < pfBands c.profile → ∃ g ∈ d.frames ++ d.trail, g.fn = f.fn

theorem CamCtx.searched_of_updWhere {c d : CamCtx} {f : CamFrame} {lost last : Bool} {G : CamFrame → CamFrame} (fn : ∀ x, (G x).fn = x.fn)
    (fields : ∀ x, (G x).fields = f.fields + 1) (bad : lost = true → ∀ x, f.fields ∈ (G x).fieldBad)
    (hl : f.fields + 1 < pfBands c.profile → last = false) (frames : d.frames = updWhere (fun x => x.fn == f.fn) G c.frames)
    (trail : d.trail = if last then (updWhere (fun x => x.fn == f.fn) G c.trail).filter (fun x => x.fn != f.fn)
      else updWhere (fun x => x.fn == f.fn) G c.trail) : c.Searched f lost d := by
  have mapped {l : List CamFrame} {g : CamFrame} (hg : g ∈ updWhere (fun x => x.fn == f.fn) G l) (same : g.fn = f.fn) :
      g.fields = f.fields + 1 ∧ (lost = true → f.fields ∈ g.fieldBad) := by
    obtain ⟨x, -, rfl⟩ := mem_updWhere.mp hg
    split at same
    next hx =>
      rw [if_pos hx]
      exact ⟨fields x, fun h => bad h x⟩
    next hx => exact absurd (beq_iff_eq.mpr same) hx
  have image {l : List CamFrame} (hf : f ∈ l) : G f ∈ updWhere (fun x => x.fn == f.fn) G l := mem_updWhere.mpr ⟨f, hf, if_pos BEq.rfl⟩
  refine ⟨fun g hg same => ?_, fun held some_ => ?_⟩
  · rcases List.mem_append.mp hg with hg | hg
    · rw [frames] at hg
      exact mapped hg same
    · rw [trail] at hg
      split at hg
      · exact mapped (List.mem_filter.mp hg).1 same
      · exact mapped hg same
  · by_cases own : f ∈ c.frames
    · exact ⟨G f, List.mem_append_left _ (by rw [frames]; exact image own), fn f⟩
    · have closed : f ∈ c.trail := (List.mem_append.mp held).resolve_left own
      refine ⟨G f, List.mem_append_right _ ?_, fn f⟩
      rw [trail, hl (some_.resolve_left own)]
      exact image closed

/-- The engine writes the next band of a frame (R189, R190). -/
theorem State.writeBand_searched {k : Nat} (hk : k < 48) (f : CamFrame) (lost : Bool) :
    (s.cam k).Searched f lost ((s.writeBand k f lost).cam k) ∧ Outside s (s.writeBand k f lost) := by
  unfold State.writeBand
  extract_lets c p n missing last w kind rows t1 done after t2
  have written : Aside s t1 := by
    unfold t1
    split
    · exact .refl s
    · have banded {v : State} (l : List Nat) (C : Nat → Prop) [DecidablePred C] (a : Nat → Nat) (bs : Nat → List Byte) (h : Aside s v) :
          Aside s (l.foldl (fun t r => if C r then t.writeMem (a r) (bs r) else t) v) :=
        .foldl _ (fun _ _ h => .ite (h.writeMem ..) h) _ h
      exact .ite (Aside.endField (banded _ _ _ _ (.refl s)).mapCam ..) (banded _ _ _ _ (.refl s)).mapCam
  have own : (t2.cam k).frames = updWhere (fun x => x.fn == f.fn) after (s.cam k).frames ∧
      (t2.cam k).trail = updWhere (fun x => x.fn == f.fn) after (s.cam k).trail := by
    have at_ : t2.cam k = { t1.cam k with frames := updWhere (fun x => x.fn == f.fn) after (t1.cam k).frames,
                                          trail := updWhere (fun x => x.fn == f.fn) after (t1.cam k).trail } := State.cam_mapCam_same hk _
    rw [at_, written.keep (π := CamCtx.frames) (fun _ => rfl), written.keep (π := CamCtx.trail) (fun _ => rfl)]
    exact ⟨rfl, rfl⟩
  have outside : Outside s t2 := written.toOutside.other
  have lostBand : lost = true → ∀ x, f.fields ∈ (after x).fieldBad := by
    intro h x
    have gone : missing = true := by simp [missing, h]
    simp [after, gone, n]
  have open_ (h : f.fields + 1 < pfBands (s.cam k).profile) : last = false := by
    simp only [last, n, p, c, beq_eq_false_iff_ne]
    omega
  split
  next all =>
    have released (v : State) : Aside (v.mapCam k (fun c => { c with trail := c.trail.filter (fun x => x.fn != f.fn) }))
        ((v.mapCam k (fun c => { c.releaseRef f with trail := c.trail.filter (fun x => x.fn != f.fn) })).fieldComplete k (after f)) := by
      refine (Aside.mapCam_core (fun c => ?_) v k).fieldComplete ..
      unfold CamCtx.releaseRef
      split <;> rfl
    have trimmed : (t2.mapCam k (fun c => { c with trail := c.trail.filter (fun x => x.fn != f.fn) })).cam k = _ := State.cam_mapCam_same hk _
    refine ⟨CamCtx.searched_of_updWhere (last := last) (G := after) (fun _ => rfl) (fun _ => rfl) lostBand open_ ?_ ?_,
      (outside.mapCam ..).of_aside (released t2)⟩
    · rw [(released t2).keep (π := CamCtx.frames) (fun _ => rfl), trimmed]
      exact own.1
    · rw [(released t2).keep (π := CamCtx.trail) (fun _ => rfl), trimmed, all, if_pos rfl, ← own.2]
  next more =>
    exact ⟨CamCtx.searched_of_updWhere (last := last) (G := after) (fun _ => rfl) (fun _ => rfl) lostBand open_ own.1 (by rw [if_neg more]; exact own.2),
      outside⟩

/-! ### The engine dies -/

theorem State.rateOf_only (h : Only ps s t) (hs : [.host, .mgmt, .encs, .jm] ⊆ ps) (e : EncSession) : Only ps s (t.rateOf e) := by
  have ended {v : State} (h : Only ps s v) (o : Option CmdRef) (r0 : Nat) :
      Only ps s (match o with | some r => v.finish r .ok r0 0 false | none => v) := by
    split
    · exact State.finish_only h (hs (by simp)) (hs (by simp)) ..
    · exact h
  unfold State.rateOf
  exact Only.encs (Only.foldl _ (fun _ _ h => ended h ..) _ _ (h.jm (hs (by simp)) _)) (hs (by simp)) _

theorem State.fieldComplete_only (h : Only ps s t) (hs : [.host, .mgmt, .encs, .jm] ⊆ ps) (k : Nat) (f : CamFrame) : Only ps s (t.fieldComplete k f) :=
  Only.foldl _ (fun _ _ h => State.rateOf_only h hs _) _ _ (h.encs (hs (by simp)) _)

theorem State.writeBand_only (h : Only ps s t) (hs : [.cams, .bytes, .mgmt, .host, .fabric, .encs, .jm] ⊆ ps) (k : Nat) (f : CamFrame) (lost : Bool) :
    Only ps s (t.writeBand k f lost) := by
  have hc := hs (a := .cams) (by simp)
  have hb := hs (a := .bytes) (by simp)
  unfold State.writeBand
  extract_lets c p n missing last w kind rows t1 done after t2
  have written : Only ps s t1 := by
    unfold t1
    split
    · exact h
    · have banded {v : State} (l : List Nat) (C : Nat → Prop) [DecidablePred C] (a : Nat → Nat) (bs : Nat → List Byte) (h : Only ps s v) :
          Only ps s (l.foldl (fun t r => if C r then t.writeMem (a r) (bs r) else t) v) :=
        Only.foldl _ (fun _ _ h => .ite (h.writeMem hb ..) h) _ _ h
      exact .ite ((((banded _ _ _ _ h).mapCam hc ..).writeMem hb ..).writeMem hb ..) ((banded _ _ _ _ h).mapCam hc ..)
  have searched : Only ps s t2 := State.requests_only (written.mapCam hc ..) (hs (by simp)) _
  exact .ite (State.fieldComplete_only (searched.mapCam hc ..) (by grind) ..) searched

/-- The only motion engine dies: its role is vacant (R190). -/
theorem State.motionDead_vacant (filled : s.mgmt.units.unitOf .motionU 0 = some 0) (code : Nat) :
    (s.declareDead .motionU 0 code).mgmt.units.unitOf .motionU 0 = none := by
  have units : (s.declareDead .motionU 0 code).mgmt.units = _ := State.replaceUnit_units filled code
  have alone : firstIdx (fun x => x.state == .spare) ((s.mgmt.units.death .motionU 0 0).phys .motionU) = none := by
    cases found : firstIdx (fun x => x.state == .spare) ((s.mgmt.units.death .motionU 0 0).phys .motionU) with
    | none => rfl
    | some n =>
      obtain ⟨x, at_, spare⟩ := firstIdx_some found
      unfold UnitTable.death at at_
      rw [UnitTable.phys_mapPhys] at at_
      split at at_
      · obtain ⟨y, -, rfl⟩ := Option.map_eq_some_iff.mp at_
        cases spare
      next other =>
        obtain ⟨hn, -⟩ := List.getElem?_eq_some_iff.mp at_
        simp [UnitTable.phys] at hn
        omega
  rw [units, alone]
  unfold UnitTable.unitOf UnitTable.death
  dsimp only
  rw [UnitTable.roles_mapPhys, UnitTable.roles_mapRole, if_pos rfl]
  cases (s.mgmt.units.roles .motionU)[0]? <;> rfl

/-! ### The events of the engine -/

variable {x : Nat × Nat × CamFrame}

theorem execMotionBand_takes (es : List SramError) (first : minBy (fun y => y.1) s.motionBands = some x) :
    execMotionBand es s = .next ((s.writeBand x.2.1 x.2.2 (es.any SramError.uncorr)).sramErrors es) := by
  unfold execMotionBand
  rw [first]

/-- The watchdog vacates the engine's role and writes the band that it held as missing (R190, R408). -/
theorem execMotionWatchdog_vacates (first : minBy (fun y => y.1) s.motionBands = some x) (hk : x.2.1 < 48)
    (filled : s.mgmt.units.unitOf .motionU 0 = some 0) : ∃ t : State, execMotionWatchdog s = .next t ∧ t.mgmt.units.unitOf .motionU 0 = none ∧
      (∀ g ∈ (t.cam x.2.1).frames ++ (t.cam x.2.1).trail, g.fn = x.2.2.fn → g.fields = x.2.2.fields + 1 ∧ x.2.2.fields ∈ g.fieldBad) ∧
      Only [.cams, .bytes, .mgmt, .host, .fabric, .encs, .jm] s t := by
  have dead : Only [.cams, .bytes, .mgmt, .host, .fabric, .encs, .jm] s (s.declareDead .motionU 0 Status.hardwareFault.code) :=
    State.replaceUnit_only (.refl _ s) (by simp) (by simp) ..
  obtain ⟨searched, outside⟩ := (s.declareDead .motionU 0 Status.hardwareFault.code).writeBand_searched hk x.2.2 true
  unfold execMotionWatchdog
  rw [first]
  dsimp only
  rw [filled, if_neg (by simp)]
  refine ⟨_, rfl, ?_, fun g hg same => ?_, State.writeBand_only dead (by simp) ..⟩
  · rw [outside.units]
    exact State.motionDead_vacant filled _
  · obtain ⟨fields, bad⟩ := searched.each g hg same
    exact ⟨fields, bad rfl⟩

end Sys2Proof.Machine
end

section
namespace Sys2Proof

set_option Elab.async false

open Machine

/-- Settles O40: the end of a stripe keeps the progress of every frame but its own, a dead slice leaves its stripe to its role, and with the only
motion engine dead the band that it held is written as missing. -/
theorem slicesAndMotionWork : Obligations.SlicesAndMotionWork := by
  unfold Obligations.SlicesAndMotionWork
  intro s
  dsimp only
  refine ⟨fun r x unit free first => ?_, fun r q f es bad job unit hk hf => ?_, fun r q p job filled holds => execSliceWatchdog_fences job filled holds,
    fun x es first => ?_⟩
  · obtain ⟨mem, least⟩ := minBy_spec first
    exact ⟨mem, least, execSliceDispatch_takes unit free first⟩
  · obtain ⟨t, step, free, ended⟩ := execStripeDone_ends es bad job unit hk hf
    exact ⟨t, step, free, ended.open_, ended.closed⟩
  · obtain ⟨hk, held⟩ := State.mem_motionBands (minBy_spec first).1
    refine ⟨held, ?_, fun filled => ?_⟩
    · obtain ⟨searched, -⟩ := s.writeBand_searched hk x.2.2 (es.any SramError.uncorr)
      refine ⟨(s.writeBand x.2.1 x.2.2 (es.any SramError.uncorr)).sramErrors es, ?_, ?_⟩
      · exact (execMotionBand_takes es first)
      · rw [State.cam_of_cams_eq (State.sramErrors_cams ..)]
        exact ⟨searched.each, searched.kept held⟩
    · exact execMotionWatchdog_vacates first hk filled

end Sys2Proof
end

section
/-!
SUPPORT. Commands on one camera context: what completes them with one context replaced, and the checks of a staged set (R110, R145).
-/
namespace Sys2Proof.Machine

set_option Elab.async false

variable {op : Op} {c : Cmd} {s : State} {i : Fin 48}

/-- Replaces a context. -/
def State.putCam (k : Nat) (y : CamCtx) (s : State) : State := s.mapCam k (fun _ => y)

theorem vmod_eq_const {α : Type} {n : Nat} (v : Vector α n) (d : α) (k : Nat) (f : α → α) : vmod v k f = vmod v k (fun _ => f (vget v d k)) := by
  unfold vmod vget
  split <;> rfl

theorem State.mapCam_eq_putCam (s : State) (k : Nat) (f : CamCtx → CamCtx) : s.mapCam k f = s.putCam k (f (s.cam k)) :=
  congrArg (fun v => s.mapCams (fun x => { x with ctx := v })) (vmod_eq_const s.cams.ctx (CamCtx.idle 0) k f)

/-- A command on a camera completes with OK and two results, and the context is another; nothing else of the state changes. -/
def CamCommand (op : Op) (c : Cmd) (s : State) (i : Fin 48) (o : Host.Outcome State Fault Refusal) (r0 r1 : Nat) (y : CamCtx) : Prop :=
  ∃ u : State, o = .next (u.complete (ref op c) .ok r0 r1 false) ∧ u.cam i.val = y ∧ (∀ j : Fin 48, j ≠ i → u.cam j.val = s.cam j.val) ∧ Only [.cams] s u

theorem runCmd_putCam (ha : Accepted op c s) {body : Chk Done} {r0 r1 : Nat} {y : CamCtx} (e : body = okDone r0 r1 (s.putCam i.val y)) :
    CamCommand op c s i (runCmd op c s body) r0 r1 y :=
  ⟨_, runCmd_done ha e, State.cam_mapCam_fin .., fun _ hj => State.cam_mapCam_ne _ (Fin.val_ne_of_ne hj) _, State.mapCam_only ..⟩

theorem needSet_of_nil {p : List Byte} {x : ParamSet} {k : ClrOp} (h : s.setFaults p x k = []) : needSet s p x k = .ok () := by
  unfold needSet
  rw [h]

theorem ne_zero_of_typeOf {h : Handle} {n : Nat} (ht : typeOf h = n) (hn : n ≠ 0) : h ≠ 0 := by
  rintro rfl
  exact hn ht.symm

end Sys2Proof.Machine
end

section
/-!
SUPPORT. The staging commands (R110, R113, R144, R151): each replaces its part of the staged set.
-/
namespace Sys2Proof.Machine

set_option Elab.async false

variable {c : Cmd} {s : State} {i : Fin 48}

/-- A command stages a set on a context and reports the frame that takes it (R110). -/
abbrev Stages (op : Op) (c : Cmd) (s : State) (i : Fin 48) (o : Host.Outcome State Fault Refusal) (r1 : Nat) (set : ParamSet) : Prop :=
  CamCommand op c s i o (s.cam i.val).stagedFn r1 { s.cam i.val with next := set }

/-! ### RAW_SET_STAGE -/

/-- A set with the ENABLE and the block of a stage, and with TNR_RESET where it is the temporal noise reduction (R112, R127). -/
def ParamSet.withStage (x : ParamSet) (n : Nat) (on reset : Bool) (b : List Byte) : ParamSet :=
  { x with stages := vmod x.stages n (fun _ => { on := on, blk := b }), tnrReset := if n = 5 then reset else x.tnrReset }

section
variable {n : Nat} {on reset : Bool} {b : List Byte} (ha : Accepted .rawSetStage c s) (hf : s.cams.find c.handle = some i.val)
  (hn : bitsOf (par c 0) 3 0 = n) (ho : bitOf (par c 0) 8 = on) (hr : bitOf (par c 0) 9 = reset)
  (hb : structFor s c (.read (stageSize n)) = .ok b) (fields : firstBad (stageFields (s.cam i.val).profile b n) = none)
  (has : stageNeeds (s.cam i.val).next (s.cam i.val).profile b n on = none)
include ha hf hn ho hr hb fields has

theorem execRawSetStage_plain (listed : n ≤ 8) (aux : c.aux = 0) (may : on = true ∨ n ∈ [2, 3, 4, 5, 6]) (once : reset = true → n = 5)
    (plain : n = 5 → on = false) : Stages .rawSetStage c s i (execRawSetStage c s) 0 ((s.cam i.val).next.withStage n on reset b) := by
  have noAux : (n == 5 || c.aux == 0) = true := by simp [aux]
  have switch : (on || !([0, 1, 7, 8].contains n)) = true := by
    rcases may with rfl | h
    · rfl
    · fin_cases h <;> simp
  have good : (decide (n ≤ 8) && (on || !([0, 1, 7, 8].contains n)) && (!reset || n == 5)) = true := by
    rw [switch, decide_eq_true listed]
    cases reset
    · rfl
    · simpa using once rfl
  have keeps : ¬ (decide (n = 5) && on) = true := by simpa using plain
  unfold execRawSetStage
  refine runCmd_putCam ha ?_
  simp only [needCam_of_find hf, ok_bind, hn, ho, hr, noAux, need_bind_true, needPar0, good, hb, needFields_of_firstBad fields, has, if_neg keeps,
    State.mapCam_eq_putCam]
  rfl

theorem execRawSetStage_denoise {y : Buffer} (five : n = 5) (enabled : on = true) (ht : typeOf c.aux = 1) (hy : s.buffer c.aux = some y)
    (room : 2 * (pfH (s.cam i.val).profile * stride16 (s.cam i.val).profile) ≤ y.size)
    (free : needRing s c.handle 0x420 y.base (2 * (pfH (s.cam i.val).profile * stride16 (s.cam i.val).profile)) = .ok ()) :
    Stages .rawSetStage c s i (execRawSetStage c s) 0 { (s.cam i.val).next.withStage n on reset b with tnrBuf := y.base } := by
  have given : (c.aux != 0) = true := by simpa using ne_zero_of_typeOf ht (by decide)
  have mayAux : (n == 5 || c.aux == 0) = true := by simp [five]
  have good : (decide (n ≤ 8) && (on || !([0, 1, 7, 8].contains n)) && (!reset || n == 5)) = true := by simp [five, enabled]
  have takes : (decide (n = 5) && on) = true := by simp [five, enabled]
  unfold execRawSetStage
  refine runCmd_putCam ha ?_
  simp only [needCam_of_find hf, ok_bind, hn, ho, hr, mayAux, need_bind_true, needPar0, good, hb, needFields_of_firstBad fields, has, if_pos takes,
    given, needBuffer_of_buffer ht hy, decide_eq_true room, free, State.mapCam_eq_putCam]
  rfl

end

/-! ### The files of RAW_LOAD_TABLE, CLR_LOAD_LUT3D and CLR_LOAD_CURVE -/

/-- The file of a load command where it stays. -/
def loadedFile (c : Cmd) : Loaded := { addr := c.ptr.toNat, len := c.ptrLen.toNat }

section
variable {t : List Byte} (ha : Accepted .rawLoadTable c s) (hf : s.cams.find c.handle = some i.val) (least : 1 ≤ par c 0) (most : par c 0 ≤ 5)
  (ht : tableBytes s c 32 (fun t => 32 + f32 t 8) = .ok t)
include ha hf least most ht

theorem execRawLoadTable_mismatch (crc : crc32c (t.drop 32) ≠ f32 t 0x0C) :
    execRawLoadTable c s = .next (s.complete (ref .rawLoadTable c) .checkMismatch (crc32c (t.drop 32)) (f32 t 0x0C) false) := by
  have kind : (decide (1 ≤ par c 0) && decide (par c 0 ≤ 5)) = true := by simp [least, most]
  unfold execRawLoadTable
  refine runCmd_refuses (f := mismatch (crc32c (t.drop 32)) (f32 t 0x0C)) ha (by simp) ?_ rfl
  simp only [needCam_of_find hf, ok_bind, needPar0, kind, need_bind_true, ht, need_bind_false (beq_eq_false_iff_ne.mpr crc)]

theorem execRawLoadTable_stages (crc : crc32c (t.drop 32) = f32 t 0x0C) (fields : firstBad (tableFields (s.cam i.val).profile t (par c 0)) = none) :
    Stages .rawLoadTable c s i (execRawLoadTable c s)
      ((s.cam i.val).lastUse (vget (s.cam i.val).next.tables none (par c 0)) (vget (s.cam i.val).last.tables none (par c 0)))
      { (s.cam i.val).next with tables := vmod (s.cam i.val).next.tables (par c 0) (fun _ => some (loadedFile c)) } := by
  have kind : (decide (1 ≤ par c 0) && decide (par c 0 ≤ 5)) = true := by simp [least, most]
  unfold execRawLoadTable
  refine runCmd_putCam ha ?_
  simp only [needCam_of_find hf, ok_bind, needPar0, kind, need_bind_true, ht, beq_iff_eq.mpr crc, needFields_of_firstBad fields, State.mapCam_eq_putCam]
  rfl

end

section
variable {t : List Byte} (ha : Accepted .clrLoadLut3d c s) (hf : s.cams.find c.handle = some i.val)
include ha hf

theorem execClrLoadLut3d_unloads (aux : c.aux = 0) (hb : structFor s c .none = .ok [])
    (set : s.setFaults (s.cam i.val).profile { (s.cam i.val).next with look := none } .other = []) :
    Stages .clrLoadLut3d c s i (execClrLoadLut3d c s) ((s.cam i.val).lastUse (s.cam i.val).next.look (s.cam i.val).last.look)
      { (s.cam i.val).next with look := none } := by
  unfold execClrLoadLut3d
  refine runCmd_putCam ha ?_
  simp only [needCam_of_find hf, ok_bind, if_pos aux, hb, needSet_of_nil set, stageSet, State.mapCam_eq_putCam]

variable (aux : c.aux ≠ 0) (ht : tableBytes s c 64 (fun t => f32 t 0x1C) = .ok t)
include aux ht

theorem execClrLoadLut3d_mismatch (crc : crc32c (t.drop 64) ≠ f32 t 0x20) :
    execClrLoadLut3d c s = .next (s.complete (ref .clrLoadLut3d c) .checkMismatch (crc32c (t.drop 64)) (f32 t 0x20) false) := by
  unfold execClrLoadLut3d
  refine runCmd_refuses (f := mismatch (crc32c (t.drop 64)) (f32 t 0x20)) ha (by simp) ?_ rfl
  simp only [needCam_of_find hf, ok_bind, if_neg aux, ht, need_bind_false (beq_eq_false_iff_ne.mpr crc)]

theorem execClrLoadLut3d_loads (crc : crc32c (t.drop 64) = f32 t 0x20) (fields : firstBad (lookFields t) = none)
    (set : s.setFaults (s.cam i.val).profile { (s.cam i.val).next with look := some (loadedFile c) } .look = []) :
    Stages .clrLoadLut3d c s i (execClrLoadLut3d c s) ((s.cam i.val).lastUse (s.cam i.val).next.look (s.cam i.val).last.look)
      { (s.cam i.val).next with look := some (loadedFile c) } := by
  unfold loadedFile at set ⊢
  unfold execClrLoadLut3d
  refine runCmd_putCam ha ?_
  simp only [needCam_of_find hf, ok_bind, if_neg aux, ht, need_bind_true, beq_iff_eq.mpr crc, needFields_of_firstBad fields, needSet_of_nil set, stageSet,
    State.mapCam_eq_putCam]

end

/-- A set with the curve of an output, or with none (R150). -/
def ParamSet.withCurve (x : ParamSet) (n : Nat) (o : Option Loaded) : ParamSet := { x with curves := vmod x.curves n (fun _ => o) }

section
variable {t : List Byte} (ha : Accepted .clrLoadCurve c s) (hf : s.cams.find c.handle = some i.val)
include ha hf

theorem execClrLoadCurve_unloads (aux : c.aux = 0) (hb : structFor s c .none = .ok [])
    (set : s.setFaults (s.cam i.val).profile ((s.cam i.val).next.withCurve (par c 0) none) .other = []) :
    Stages .clrLoadCurve c s i (execClrLoadCurve c s)
      ((s.cam i.val).lastUse (vget (s.cam i.val).next.curves none (par c 0)) (vget (s.cam i.val).last.curves none (par c 0)))
      ((s.cam i.val).next.withCurve (par c 0) none) := by
  unfold ParamSet.withCurve at set ⊢
  unfold execClrLoadCurve
  refine runCmd_putCam ha ?_
  simp only [needCam_of_find hf, ok_bind, if_pos aux, hb, needSet_of_nil set, stageSet, State.mapCam_eq_putCam]

variable (aux : c.aux ≠ 0) (ht : tableBytes s c 16 (fun t => 16 + 8192 * f8 t 1) = .ok t)
include aux ht

theorem execClrLoadCurve_mismatch (crc : crc32c (t.drop 16) ≠ f32 t 4) :
    execClrLoadCurve c s = .next (s.complete (ref .clrLoadCurve c) .checkMismatch (crc32c (t.drop 16)) (f32 t 4) false) := by
  unfold execClrLoadCurve
  refine runCmd_refuses (f := mismatch (crc32c (t.drop 16)) (f32 t 4)) ha (by simp) ?_ rfl
  simp only [needCam_of_find hf, ok_bind, if_neg aux, ht, need_bind_false (beq_eq_false_iff_ne.mpr crc)]

theorem execClrLoadCurve_loads (crc : crc32c (t.drop 16) = f32 t 4)
    (fields : firstBad (curveFields t 0 (par c 0 != 3 && !pfMono (s.cam i.val).profile)) = none)
    (set : s.setFaults (s.cam i.val).profile ((s.cam i.val).next.withCurve (par c 0) (some (loadedFile c))) .other = []) :
    Stages .clrLoadCurve c s i (execClrLoadCurve c s)
      ((s.cam i.val).lastUse (vget (s.cam i.val).next.curves none (par c 0)) (vget (s.cam i.val).last.curves none (par c 0)))
      ((s.cam i.val).next.withCurve (par c 0) (some (loadedFile c))) := by
  unfold ParamSet.withCurve loadedFile at set ⊢
  unfold execClrLoadCurve
  refine runCmd_putCam ha ?_
  simp only [needCam_of_find hf, ok_bind, if_neg aux, ht, need_bind_true, beq_iff_eq.mpr crc, needFields_of_firstBad fields, needSet_of_nil set, stageSet,
    State.mapCam_eq_putCam]

end

/-! ### CLR_SET_MATRIX and CLR_SET_SPECTRAL -/

theorem execClrSetMatrix_stages (ha : Accepted .clrSetMatrix c s) (hf : s.cams.find c.handle = some i.val) {b : List Byte} (hb : structBytes s c = .ok b)
    (fields : firstBad (matrixFields (s.cam i.val).profile b) = none) :
    Stages .clrSetMatrix c s i (execClrSetMatrix c s) 0 { (s.cam i.val).next with matrix := b } := by
  unfold execClrSetMatrix
  refine runCmd_putCam ha ?_
  simp only [needCam_of_find hf, ok_bind, hb, needFields_of_firstBad fields, stageSet, State.mapCam_eq_putCam]

theorem execClrSetSpectral_stages (ha : Accepted .clrSetSpectral c s) (hf : s.cams.find c.handle = some i.val) {b : List Byte} (hb : structBytes s c = .ok b)
    (weights : ∀ u ch, u < 4 → ch < 4 → ch ∈ pfChannels (s.cam i.val).profile ∨ f16 b (0x30 + 10 * u + 2 * ch) = 0)
    (set : s.setFaults (s.cam i.val).profile { (s.cam i.val).next with spectral := b } .other = []) :
    Stages .clrSetSpectral c s i (execClrSetSpectral c s) 0 { (s.cam i.val).next with spectral := b } := by
  have fields : firstBad ((List.range 4).flatMap (fun u => (List.range 4).map (fun ch =>
      (0x30 + 10 * u + 2 * ch, (pfChannels (s.cam i.val).profile).contains ch || f16 b (0x30 + 10 * u + 2 * ch) == 0)))) = none := by
    refine firstBad_of_all fun x hx => ?_
    simp only [List.mem_flatMap, List.mem_map, List.mem_range] at hx
    obtain ⟨u, hu, ch, hch, rfl⟩ := hx
    simpa using weights u ch hu hch
  unfold execClrSetSpectral
  refine runCmd_putCam ha ?_
  simp only [needCam_of_find hf, ok_bind, hb, needFields_of_firstBad fields, needSet_of_nil set, stageSet, State.mapCam_eq_putCam]

end Sys2Proof.Machine

namespace Sys2Proof

set_option Elab.async false

open Machine

/-- Settles O41: each command runs through its checks to the one context that it replaces (log 55 for FN_NEXT). -/
theorem stagingCommandsReplaceTheStagedSet : Obligations.StagingCommandsReplaceTheStagedSet := by
  unfold Obligations.StagingCommandsReplaceTheStagedSet
  intro c s i hf x p staged loaded
  refine ⟨fun b ha hb fields has => ⟨fun listed aux may once plain => ?_, fun y five enabled ht hy room free => ?_⟩,
    fun t ha least most ht => ⟨fun crc => ?_, fun crc fields => ?_⟩, fun b ha hb fields => ?_, fun b ha hb weights set => ?_,
    fun ha => ⟨fun aux hb set => ?_, fun t aux ht => ⟨fun crc => ?_, fun crc fields set => ?_⟩⟩,
    fun ha => ⟨fun aux hb set => ?_, fun t aux ht => ⟨fun crc => ?_, fun crc fields set => ?_⟩⟩⟩
  · exact execRawSetStage_plain ha hf rfl rfl rfl hb fields has listed aux may once plain
  · exact execRawSetStage_denoise ha hf rfl rfl rfl hb fields has five enabled ht hy room free
  · exact execRawLoadTable_mismatch ha hf least most ht crc
  · exact execRawLoadTable_stages ha hf least most ht crc fields
  · exact execClrSetMatrix_stages ha hf hb fields
  · exact execClrSetSpectral_stages ha hf hb weights set
  · exact execClrLoadLut3d_unloads ha hf aux hb set
  · exact execClrLoadLut3d_mismatch ha hf aux ht crc
  · exact execClrLoadLut3d_loads ha hf aux ht crc fields set
  · exact execClrLoadCurve_unloads ha hf aux hb set
  · exact execClrLoadCurve_mismatch ha hf aux ht crc
  · exact execClrLoadCurve_loads ha hf aux ht crc fields set

end Sys2Proof
end

section
/-!
SUPPORT. The commands on the rings of taps, outputs and statistics (R134, R156, R174), and EXP_SET_LIMITS (R176).
-/
namespace Sys2Proof.Machine

set_option Elab.async false

variable {op : Op} {c : Cmd} {s : State} {i : Fin 48}

theorem CamCommand.became {o : Host.Outcome State Fault Refusal} {r0 r1 : Nat} {y : CamCtx} (h : CamCommand op c s i o r0 r1 y) :
    ∃ u : State, o = .next (u.complete (ref op c) .ok r0 r1 false) ∧ u.cam i.val = y ∧ Only [.cams] s u := by
  obtain ⟨u, e, own, -, only⟩ := h
  exact ⟨u, e, own, only⟩

/-- A set with the configuration of a tap, or with none. -/
def ParamSet.withTap (x : ParamSet) (n : Nat) (o : Option TapCfg) : ParamSet := { x with taps := vmod x.taps n (fun _ => o) }

/-- A set with the configuration of an output, or with none. -/
def ParamSet.withOut (x : ParamSet) (n : Nat) (o : Option OutCfg) : ParamSet := { x with outs := vmod x.outs n (fun _ => o) }

/-- A context that stages a ring under a new configuration number. -/
def CamCtx.configures (x : CamCtx) (set : ParamSet) : CamCtx := { x with cfgCount := x.cfgCount + 1, next := set }

/-! ### RAW_TAP -/

section
variable {tap : Nat} (ha : Accepted .rawTap c s) (hf : s.cams.find c.handle = some i.val) (hk : bitsOf (par c 0) 4 4 = tap)
  (free : vget (s.cam i.val).tapOwner 0 tap = 0)
include ha hf hk free

theorem execRawTap_configures {point format size : Nat} {b : Buffer} (ho : bitsOf (par c 0) 1 0 = 0) (hp : bitsOf (par c 0) 10 8 = point)
    (hm : bitsOf (par c 0) 15 12 = format) (hs : tapSlotSize (s.cam i.val).profile point format = size) (listed : point ≤ 4)
    (fits : tapFormatOk (s.cam i.val).profile point format = true) (least : 1 ≤ par c 1) (most : par c 1 ≤ 64) (every : 1 ≤ par c 2)
    (ht : typeOf c.aux = 1) (hb : s.buffer c.aux = some b) (room : par c 1 * size ≤ b.size)
    (apart : needRing s c.handle (0x410 + tap) b.base (par c 1 * size) = .ok ()) :
    CamCommand .rawTap c s i (execRawTap c s) (s.cam i.val).stagedFn size ((s.cam i.val).configures ((s.cam i.val).next.withTap tap (some {
      id := (s.cam i.val).cfgCount + 1, point := point, format := format, slots := par c 1, every := par c 2, base := b.base, slotSize := size }))) := by
  have shape : (decide (point ≤ 4) && tapFormatOk (s.cam i.val).profile point format) = true := by simp [listed, fits]
  have slots : (decide (1 ≤ par c 1) && decide (par c 1 ≤ 64)) = true := by simp [least, most]
  have known : Nat.blt 0 3 = true := rfl
  unfold execRawTap
  refine runCmd_putCam ha ?_
  simp only [needCam_of_find hf, ok_bind, needPar0, ho, hk, hp, hm, hs, known, BEq.rfl, Bool.true_or, beq_iff_eq.mpr free, shape, slots, decide_eq_true every,
    decide_eq_true room, needBuffer_of_buffer ht hb, apart, need_bind_true, State.mapCam_eq_putCam]
  rfl

variable (aux : c.aux = 0)
include aux

/-- R136: the host's slots up to an FN of the run are let go, and their number is reported. -/
theorem execRawTap_releases (ho : bitsOf (par c 0) 1 0 = 1) : CamCommand .rawTap c s i (execRawTap c s)
    ((vget (s.cam i.val).taps Ring.absent tap).slots.filter
      (fun q => (q.used && q.upTo (s.cam i.val).run (par c 3)) && q.holders.contains 0)).length 0
    { s.cam i.val with taps := vmod (s.cam i.val).taps tap (fun r => r.release 0 (fun q => q.used && q.upTo (s.cam i.val).run (par c 3))) } := by
  have known : Nat.blt 1 3 = true := rfl
  unfold execRawTap
  refine runCmd_putCam ha ?_
  simp only [needCam_of_find hf, ok_bind, needPar0, ho, hk, known, beq_iff_eq.mpr aux, Bool.or_true, beq_iff_eq.mpr free, need_bind_true, if_true,
    State.mapCam_eq_putCam]

theorem execRawTap_removes (ho : bitsOf (par c 0) 1 0 = 2) :
    Stages .rawTap c s i (execRawTap c s) 0 ((s.cam i.val).next.withTap tap none) := by
  have known : Nat.blt 2 3 = true := rfl
  unfold execRawTap
  refine runCmd_putCam ha ?_
  simp only [needCam_of_find hf, ok_bind, needPar0, ho, hk, known, beq_iff_eq.mpr aux, Bool.or_true, beq_iff_eq.mpr free, need_bind_true, State.mapCam_eq_putCam]
  rfl

end
/-! ### CLR_SET_OUTPUT -/

/-- The settings of an output ring from its block: output 3 has its own layout (Tables 05-8 and 05-14). -/
def outCfg (x : CamCtx) (n : Nat) (b : List Byte) (base : Nat) : OutCfg :=
  { id := x.cfgCount + 1, blk := b, slots := if n = 3 then f8 b 1 else f8 b 3, every := if n = 3 then f8 b 2 else f8 b 8,
    hostRead := if n = 3 then bitOf (f8 b 3) 0 else bitOf (f8 b 9) 0, base := base, slotSize := outSlotSize x.profile n b }

section
variable {n : Nat} (ha : Accepted .clrSetOutput c s) (hf : s.cams.find c.handle = some i.val) (hn : bitsOf (par c 0) 1 0 = n)
include ha hf hn

theorem execClrSetOutput_configures {b : List Byte} {y : Buffer} (ho : bitsOf (par c 0) 9 8 = 0) (hb : structFor s c (.read 32) = .ok b)
    (idle : vget (s.cam i.val).consumers [] n = [])
    (fields : firstBad (if n = 3 then indexFields b else outputFields (s.cam i.val).profile b) = none) (ht : typeOf c.aux = 1)
    (hy : s.buffer c.aux = some y) (room : (if n = 3 then f8 b 1 else f8 b 3) * outSlotSize (s.cam i.val).profile n b ≤ y.size)
    (apart : needRing s c.handle (0x520 + n) y.base ((if n = 3 then f8 b 1 else f8 b 3) * outSlotSize (s.cam i.val).profile n b) = .ok ())
    (good : s.setFaults (s.cam i.val).profile ((s.cam i.val).next.withOut n (some (outCfg (s.cam i.val) n b y.base))) (.output n) = []) :
    CamCommand .clrSetOutput c s i (execClrSetOutput c s) (s.cam i.val).stagedFn (outSlotSize (s.cam i.val).profile n b)
      ((s.cam i.val).configures ((s.cam i.val).next.withOut n (some (outCfg (s.cam i.val) n b y.base)))) := by
  have known : Nat.blt 0 3 = true := rfl
  unfold ParamSet.withOut outCfg at good ⊢
  unfold execClrSetOutput
  refine runCmd_putCam ha ?_
  simp only [needCam_of_find hf, ok_bind, needPar0, ho, hn, known, BEq.rfl, Bool.true_or, if_true, hb, idle, List.head?_nil, needFields_of_firstBad fields,
    needBuffer_of_buffer ht hy, decide_eq_true room, apart, needSet_of_nil good, need_bind_true, State.mapCam_eq_putCam]
  rfl

variable (aux : c.aux = 0) (hb : structFor s c .none = .ok [])
include aux hb

/-- R156: the host's slots up to an FN of the run are let go, and the number of slots that this frees is reported. -/
theorem execClrSetOutput_releases (ho : bitsOf (par c 0) 9 8 = 1) : CamCommand .clrSetOutput c s i (execClrSetOutput c s)
    ((vget (s.cam i.val).outs Ring.absent n).inUse -
      ((vget (s.cam i.val).outs Ring.absent n).release 0 (fun q => q.upTo (s.cam i.val).run (par c 1))).inUse) 0
    { s.cam i.val with outs := vmod (s.cam i.val).outs n (fun r => r.release 0 (fun q => q.upTo (s.cam i.val).run (par c 1))) } := by
  have known : Nat.blt 1 3 = true := rfl
  unfold execClrSetOutput
  refine runCmd_putCam ha ?_
  rw [vmod_eq_const _ Ring.absent n]
  simp only [needCam_of_find hf, ok_bind, needPar0, ho, hn, known, beq_iff_eq.mpr aux, Bool.or_true, if_true, Nat.succ_ne_zero, if_false, hb, need_bind_true,
    State.mapCam_eq_putCam]

theorem execClrSetOutput_removes (ho : bitsOf (par c 0) 9 8 = 2) (idle : vget (s.cam i.val).consumers [] n = [])
    (good : s.setFaults (s.cam i.val).profile ((s.cam i.val).next.withOut n none) (.output n) = []) :
    Stages .clrSetOutput c s i (execClrSetOutput c s) 0 ((s.cam i.val).next.withOut n none) := by
  have known : Nat.blt 2 3 = true := rfl
  unfold ParamSet.withOut at good ⊢
  unfold execClrSetOutput
  refine runCmd_putCam ha ?_
  simp only [needCam_of_find hf, ok_bind, needPar0, ho, hn, known, beq_iff_eq.mpr aux, Bool.or_true, if_true, Nat.succ_ne_zero, if_false, hb, idle, List.head?_nil,
    needSet_of_nil good, need_bind_true, stageSet, State.mapCam_eq_putCam]
  rfl

end

/-! ### STAT_CONFIGURE -/

section
variable (ha : Accepted .statConfigure c s) (hf : s.cams.find c.handle = some i.val)
include ha hf

theorem execStatConfigure_configures {b : List Byte} {y : Buffer} (ho : par c 0 = 0) (hb : structFor s c (.read 32) = .ok b)
    (fields : firstBad (statFields (s.cam i.val).profile b) = none) (ht : typeOf c.aux = 1) (hy : s.buffer c.aux = some y)
    (room : f8 b 1 * statSlotSize b ≤ y.size) (apart : needRing s c.handle 0x530 y.base (f8 b 1 * statSlotSize b) = .ok ()) :
    CamCommand .statConfigure c s i (execStatConfigure c s) (s.cam i.val).stagedFn (statSlotSize b) ((s.cam i.val).configures { (s.cam i.val).next with
      stats := some { id := (s.cam i.val).cfgCount + 1, blk := b, slots := f8 b 1, hostRead := bitOf (f8 b 0) 4, base := y.base, slotSize := statSlotSize b } }) := by
  have known : Nat.blt 0 3 = true := rfl
  unfold execStatConfigure
  refine runCmd_putCam ha ?_
  simp only [needCam_of_find hf, ok_bind, needPar0, ho, known, BEq.rfl, Bool.true_or, if_true, hb, needFields_of_firstBad fields,
    needBuffer_of_buffer ht hy, decide_eq_true room, apart, need_bind_true, State.mapCam_eq_putCam]
  rfl

variable (aux : c.aux = 0) (hb : structFor s c .none = .ok [])
include aux hb

/-- R174: the host's slots up to an FN of the run are let go, and the number of slots that this frees is reported. -/
theorem execStatConfigure_releases (ho : par c 0 = 1) : CamCommand .statConfigure c s i (execStatConfigure c s)
    ((s.cam i.val).statRing.inUse - ((s.cam i.val).statRing.release 0 (fun q => q.upTo (s.cam i.val).run (par c 1))).inUse) 0
    { s.cam i.val with statRing := (s.cam i.val).statRing.release 0 (fun q => q.upTo (s.cam i.val).run (par c 1)) } := by
  have known : Nat.blt 1 3 = true := rfl
  unfold execStatConfigure
  refine runCmd_putCam ha ?_
  simp only [needCam_of_find hf, ok_bind, needPar0, ho, known, beq_iff_eq.mpr aux, Bool.or_true, if_true, Nat.succ_ne_zero, if_false, hb, need_bind_true,
    State.mapCam_eq_putCam]

theorem execStatConfigure_removes (ho : par c 0 = 2) :
    Stages .statConfigure c s i (execStatConfigure c s) 0 { (s.cam i.val).next with stats := none } := by
  have known : Nat.blt 2 3 = true := rfl
  unfold execStatConfigure
  refine runCmd_putCam ha ?_
  simp only [needCam_of_find hf, ok_bind, needPar0, ho, known, beq_iff_eq.mpr aux, Bool.or_true, Nat.succ_ne_zero, if_false, hb, need_bind_true,
    State.mapCam_eq_putCam]
  rfl

end

/-! ### EXP_SET_LIMITS -/

theorem execExpSetLimits_replaces (ha : Accepted .expSetLimits c s) (hf : s.cams.find c.handle = some i.val) {b : List Byte} (hb : structBytes s c = .ok b)
    (fields : firstBad (limitFields (s.cam i.val).profile b) = none) :
    CamCommand .expSetLimits c s i (execExpSetLimits c s) 0 0 { s.cam i.val with limits := b } := by
  unfold execExpSetLimits
  refine runCmd_putCam ha ?_
  simp only [needCam_of_find hf, ok_bind, hb, needFields_of_firstBad fields, State.mapCam_eq_putCam]

end Sys2Proof.Machine
end

section
/-!
SUPPORT. EXP_APPLY (R168 to R173): the apply that it issues, and the target that it takes.
-/
namespace Sys2Proof.Machine

set_option Elab.async false

variable {c : Cmd} {s t : State} {i : Fin 48}

/-! ### Issue -/

/-- What depends neither on the writes nor on the cells of a context outlives the cells of an apply. -/
theorem State.keep_sendApply {α : Type} {π : CamCtx → α} (writes : ∀ (c : CamCtx) ws, π { c with writes := ws } = π c)
    (cells : ∀ (c : CamCtx) q us ws, π { c with seq := q, unacked := us, waiting := ws } = π c) (s : State) (k : Nat) (a : Apply) (j : Nat) :
    π ((s.sendApply k a).cam j) = π (s.cam j) := by
  unfold State.sendApply
  refine List.foldlRecOn (motive := fun t : State => π (t.cam j) = π (s.cam j)) _ _ rfl fun t kept x _ => ?_
  exact (State.keep_sendCtrl cells ..).trans ((t.keep_mapCam k (fun c => writes c _) j).trans kept)

theorem State.sendApply_only {ps : List Part} (h : Only ps s t) (hs : [.cams, .lanes, .out] ⊆ ps) (k : Nat) (a : Apply) : Only ps s (t.sendApply k a) :=
  Only.foldl _ (fun _ _ h => State.sendCtrl_only (h.mapCam (hs (by simp)) ..) hs ..) _ _ h

/-- The apply that a command issues on a context, under its next APPLY_ID (R168). -/
def CamCtx.newApply (x : CamCtx) (r : CmdRef) (b : List Byte) (target limited : Nat) (late atStart : Bool) : Apply :=
  { id := x.applyNext, by_ := some r, target := target, blk := b, limited := limited, asked := target, atStart := atStart, sentAll := !atStart,
    failed := false, partial_ := 0, late := late }

/-- A context with one apply more. -/
def CamCtx.withApply (x : CamCtx) (a : Apply) : CamCtx :=
  { x with applyNext := x.applyNext + 1, applies := x.applies ++ [a], newestTg := if apExp a.blk then apTg a.blk else x.newestTg }

theorem State.issueApply_eq (s : State) (k : Nat) (r : CmdRef) (b : List Byte) (target limited : Nat) (late atStart : Bool) :
    s.issueApply k (some r) b target limited late atStart =
      let a := (s.cam k).newApply r b target limited late atStart
      if atStart then s.putCam k ((s.cam k).withApply a) else (s.putCam k ((s.cam k).withApply a)).sendApply k a := by
  unfold State.issueApply
  dsimp only
  rw [State.mapCam_eq_putCam]
  rfl

/-- A command issues an apply with a block and a target: it takes the next APPLY_ID of its context (R168). -/
def Issued (s : State) (i : Fin 48) (r : CmdRef) (b : List Byte) (u : State) (target : Nat) : Prop :=
  ∃ a : Apply, (u.cam i.val).applies = (s.cam i.val).applies ++ [a] ∧ a.id = (s.cam i.val).applyNext ∧ a.blk = b ∧ a.target = target ∧ a.by_ = some r ∧
    (u.cam i.val).applyNext = (s.cam i.val).applyNext + 1 ∧ Only [.cams, .lanes, .out] s u

theorem State.putCam_issued (s : State) (i : Fin 48) (r : CmdRef) (b : List Byte) (target limited : Nat) (late atStart : Bool) :
    Issued s i r b (s.putCam i.val ((s.cam i.val).withApply ((s.cam i.val).newApply r b target limited late atStart))) target := by
  refine ⟨(s.cam i.val).newApply r b target limited late atStart, ?_, rfl, rfl, rfl, rfl, ?_, (State.mapCam_only ..).mono (by simp)⟩
  · exact congrArg CamCtx.applies (State.cam_mapCam_fin ..)
  · exact congrArg CamCtx.applyNext (State.cam_mapCam_fin ..)

theorem Issued.sendApply {r : CmdRef} {b : List Byte} {target : Nat} (h : Issued s i r b t target) (a : Apply) :
    Issued s i r b (t.sendApply i.val a) target := by
  obtain ⟨y, applies, id, blk, for_, by_, next, only⟩ := h
  refine ⟨y, ?_, id, blk, for_, by_, ?_, State.sendApply_only only (by simp) ..⟩
  · exact (State.keep_sendApply (π := CamCtx.applies) (fun _ _ => rfl) (fun _ _ _ _ => rfl) ..).trans applies
  · exact (State.keep_sendApply (π := CamCtx.applyNext) (fun _ _ => rfl) (fun _ _ _ _ => rfl) ..).trans next

theorem State.issueApply_issued (s : State) (i : Fin 48) (r : CmdRef) (b : List Byte) (target limited : Nat) (late atStart : Bool) :
    Issued s i r b (s.issueApply i.val (some r) b target limited late atStart) target := by
  have put := s.putCam_issued i r b target limited late atStart
  rw [State.issueApply_eq]
  dsimp only
  split
  · exact put
  · exact put.sendApply _

/-- R173: an apply that waits for CAM_START sends nothing. -/
theorem State.issueApply_atStart_only (s : State) (k : Nat) (r : CmdRef) (b : List Byte) (target limited : Nat) (late : Bool) :
    Only [.cams] s (s.issueApply k (some r) b target limited late true) := State.mapCam_only ..

/-! ### The command -/

/-- Frames are coming: a STOPPING context is taken as a RUNNING one (log 30). -/
def CamCtx.runs (x : CamCtx) : Bool := x.state == .running || x.state == .stopping

theorem CamCtx.runs_iff (x : CamCtx) : x.runs = true ↔ x.state = .running ∨ x.state = .stopping := by simp [CamCtx.runs]

/-- The distance of the FN that a command names from FN_NEXT, modulo 2^32 (R168). -/
def applyAhead (c : Cmd) (s : State) (x : CamCtx) : Nat := (par c 0 + 2 ^ 32 - x.fnNextAt s.ns % 2 ^ 32) % 2 ^ 32

/-- A command waits for the apply that it issues. -/
def State.applyWaits (s : State) (k : Nat) (c : Cmd) (b : List Byte) (target : Nat) (late atStart : Bool) : Chk Done :=
  waitDone .expApply c (s.issueApply k (some (ref .expApply c)) b target 0 late atStart)

theorem runCmd_applyWaits (ha : Accepted .expApply c s) (b : List Byte) (target : Nat) (late atStart : Bool) :
    runCmd .expApply c s (s.applyWaits i.val c b target late atStart) =
      .next ((s.issueApply i.val (some (ref .expApply c)) b target 0 late atStart).keepInFlight (ref .expApply c)) := runCmd_waits ha rfl

section
variable {b : List Byte} (ha : Accepted .expApply c s) (hf : s.cams.find c.handle = some i.val) (hb : structBytes s c = .ok b)
  (fields : firstBad (applyFields (s.cam i.val).profile (s.cam i.val).limits b) = none) (roles : needRoles s (s.cam i.val) b = .ok ())
  (room : (s.cam i.val).applies.length < 16) (good : ¬ ((s.cam i.val).failed = true ∧ apGroups b ≠ []))
include hf hb fields roles room good

/-- EXP_APPLY whose checks hold, by the state of its context, NEXT, and whether the target that it names is achievable (R168, R170, R173). -/
theorem execExpApply_eq
    (named : bitOf (par c 1) 0 = true ∨ if (s.cam i.val).runs then applyAhead c s (s.cam i.val) ≤ 64 else par c 0 = 0) :
    execExpApply c s = runCmd .expApply c s (
      let x := s.cam i.val
      let first := x.firstTarget s.ns s.host.feat.guard b
      let want := x.fnNextAt s.ns + applyAhead c s x
      if !x.runs then s.applyWaits i.val c b 0 false true
      else if bitOf (par c 1) 0 then s.applyWaits i.val c b first false false
      else if x.achievable s.ns s.host.feat.guard b want then s.applyWaits i.val c b want false false
      else if strict c then .ok (.done .tooLate (first % 2 ^ 32) 0 (s.countCam i.val (fun n => { n with tooLate := n.tooLate.satInc })))
      else s.applyWaits i.val c b first true false) := by
  have channel : (!((s.cam i.val).failed && apGroups b != [])) = true := by simpa [or_iff_not_imp_left] using good
  have target : (bitOf (par c 1) 0 || if (s.cam i.val).runs then decide (applyAhead c s (s.cam i.val) ≤ 64) else par c 0 == 0) = true := by
    rcases named with next | near
    · simp [next]
    · split at near
      next run => simp [run, near]
      next idle => simp [idle, near]
  unfold CamCtx.runs applyAhead at *
  unfold execExpApply
  refine congrArg (runCmd .expApply c s) ?_
  simp only [needCam_of_find hf, ok_bind, hb, needFields_of_firstBad fields, roles, needPar0, target, (Nat.blt_eq).mpr room, channel, need_bind_true]
  rfl

include ha

/-- R173: a context that does not run keeps the apply for its CAM_START. -/
theorem execExpApply_idle (idle : ¬ ((s.cam i.val).state = .running ∨ (s.cam i.val).state = .stopping)) (named : bitOf (par c 1) 0 = true ∨ par c 0 = 0) :
    execExpApply c s = .next ((s.issueApply i.val (some (ref .expApply c)) b 0 0 false true).keepInFlight (ref .expApply c)) := by
  have still : (s.cam i.val).runs = false := Bool.eq_false_iff.mpr (mt (s.cam i.val).runs_iff.mp idle)
  rw [execExpApply_eq hf hb fields roles room good (by simpa [still] using named)]
  dsimp only
  rw [still, if_pos (by rfl), runCmd_applyWaits ha]

variable (run : (s.cam i.val).state = .running ∨ (s.cam i.val).state = .stopping)
include run

/-- NEXT takes the first achievable frame (R170). -/
theorem execExpApply_next (next : bitOf (par c 1) 0 = true) :
    execExpApply c s = .next ((s.issueApply i.val (some (ref .expApply c)) b ((s.cam i.val).firstTarget s.ns s.host.feat.guard b) 0 false false).keepInFlight
      (ref .expApply c)) := by
  rw [execExpApply_eq hf hb fields roles room good (.inl next)]
  dsimp only
  rw [(s.cam i.val).runs_iff.mpr run, if_neg (by decide), if_pos next, runCmd_applyWaits ha]

variable {want : Nat} (next : bitOf (par c 1) 0 = false) (near : applyAhead c s (s.cam i.val) ≤ 64)
  (hw : (s.cam i.val).fnNextAt s.ns + applyAhead c s (s.cam i.val) = want)
include next near hw

/-- An achievable target is taken as it is named (R170). -/
theorem execExpApply_target (can : (s.cam i.val).achievable s.ns s.host.feat.guard b want = true) :
    execExpApply c s = .next ((s.issueApply i.val (some (ref .expApply c)) b want 0 false false).keepInFlight (ref .expApply c)) := by
  have runs := (s.cam i.val).runs_iff.mpr run
  rw [execExpApply_eq hf hb fields roles room good (.inr (by rwa [if_pos runs]))]
  dsimp only
  rw [runs, if_neg (by decide), next, if_neg (by decide), hw, if_pos can, runCmd_applyWaits ha]

variable (cannot : (s.cam i.val).achievable s.ns s.host.feat.guard b want = false)
include cannot

/-- Without STRICT the first achievable target takes the place of one that is not (R170). -/
theorem execExpApply_adjusted (lax : strict c = false) :
    execExpApply c s = .next ((s.issueApply i.val (some (ref .expApply c)) b ((s.cam i.val).firstTarget s.ns s.host.feat.guard b) 0 true false).keepInFlight
      (ref .expApply c)) := by
  have runs := (s.cam i.val).runs_iff.mpr run
  rw [execExpApply_eq hf hb fields roles room good (.inr (by rwa [if_pos runs]))]
  dsimp only
  rw [runs, if_neg (by decide), next, if_neg (by decide), hw, cannot, if_neg (by decide), lax, if_neg (by decide), runCmd_applyWaits ha]

/-- STRICT refuses a target that is not achievable, with the first that is, and counts it (R170). -/
theorem execExpApply_tooLate (exact_ : strict c = true) :
    execExpApply c s = .next ((s.countCam i.val (fun n => { n with tooLate := n.tooLate.satInc })).complete (ref .expApply c) .tooLate
      ((s.cam i.val).firstTarget s.ns s.host.feat.guard b % 2 ^ 32) 0 false) := by
  have runs := (s.cam i.val).runs_iff.mpr run
  rw [execExpApply_eq hf hb fields roles room good (.inr (by rwa [if_pos runs]))]
  dsimp only
  rw [runs, if_neg (by decide), next, if_neg (by decide), hw, cannot, if_neg (by decide), if_pos exact_, runCmd_done ha rfl]

end

end Sys2Proof.Machine

namespace Sys2Proof

set_option Elab.async false

open Machine

/-- Settles O42: the ring commands run through their checks to the one context that they replace, EXP_APPLY to the apply that it issues (log 30
for a STOPPING context, log 24 for a SUSPENDED one). -/
theorem ringsAndAppliesAreConfigured : Obligations.RingsAndAppliesAreConfigured := by
  unfold Obligations.RingsAndAppliesAreConfigured
  intro c s i hf
  refine ⟨fun ha free => ⟨fun b op listed fits least most every ht hb room apart => ?_, fun op aux => ?_, fun op aux => ?_⟩,
    fun ha => ⟨fun b y op hb idle fields ht hy room apart good => ?_, fun op aux hb => ?_, fun op aux hb idle good => ?_⟩,
    fun ha => ⟨fun b y op hb fields ht hy room apart => ?_, fun op aux hb => ?_, fun op aux hb => ?_⟩,
    fun b ha hb fields roles room good => ?_, fun b ha hb fields => ?_⟩
  · exact (execRawTap_configures ha hf rfl free op rfl rfl rfl listed fits least most every ht hb room apart).became
  · exact ⟨_, (execRawTap_releases ha hf rfl free aux op).became⟩
  · exact (execRawTap_removes ha hf rfl free aux op).became
  · exact (execClrSetOutput_configures ha hf rfl op hb idle fields ht hy room apart good).became
  · exact ⟨_, (execClrSetOutput_releases ha hf rfl aux hb op).became⟩
  · exact (execClrSetOutput_removes ha hf rfl aux hb op idle good).became
  · exact (execStatConfigure_configures ha hf op hb fields ht hy room apart).became
  · exact ⟨_, (execStatConfigure_releases ha hf aux hb op).became⟩
  · exact (execStatConfigure_removes ha hf aux hb op).became
  · refine ⟨fun idle named => ?_, fun run next => ?_, fun run next near => ⟨fun can => ?_, fun cannot lax => ?_, fun cannot exact_ => ?_⟩⟩
    · exact ⟨_, execExpApply_idle ha hf hb fields roles room good idle named, s.issueApply_issued .., s.issueApply_atStart_only ..⟩
    · exact ⟨_, execExpApply_next ha hf hb fields roles room good run next, s.issueApply_issued ..⟩
    · exact ⟨_, execExpApply_target ha hf hb fields roles room good run next near rfl can, s.issueApply_issued ..⟩
    · exact ⟨_, execExpApply_adjusted ha hf hb fields roles room good run next near rfl cannot lax, s.issueApply_issued ..⟩
    · exact ⟨_, execExpApply_tooLate ha hf hb fields roles room good run next near rfl cannot exact_, State.cam_mapCam_fin .., State.mapCam_only ..⟩
  · exact (execExpSetLimits_replaces ha hf hb fields).became

end Sys2Proof
end

section
/-!
SUPPORT. Journeyman's state under completions and at its settling, and the checks of a kernel that pass (R312, R313).
-/
namespace Sys2Proof.Machine

set_option Elab.async false

variable {s t : State} {k : Kernel}

@[simp] theorem State.finish_jm (s : State) (r : CmdRef) (st : Status) (r0 r1 : Nat) (lg : Bool) : (s.finish r st r0 r1 lg).jm = s.jm :=
  (Ends.finish s r st r0 r1 lg).only.same .jm (by simp)

@[simp] theorem State.keepInFlight_jm (s : State) (r : CmdRef) : (s.keepInFlight r).jm = s.jm := (Ends.keepInFlight s r).only.same .jm (by simp)

@[simp] theorem State.finishOpt_jm (s : State) (r : Option CmdRef) (st : Status) (r0 r1 : Nat) (lg : Bool) : (s.finishOpt r st r0 r1 lg).jm = s.jm := by
  cases r with
  | none => rfl
  | some r => exact s.finish_jm r st r0 r1 lg

theorem State.mapJm_only (s : State) (f : JmSt → JmSt) : Only [.jm] s (s.mapJm f) := (Only.refl _ s).jm (by simp) _

/-- A command that a binding or a kernel may have waiting ends. -/
theorem State.finishMatch_only {ps : List Part} (h : Only ps s t) (hs : [.host, .mgmt] ⊆ ps) (o : Option CmdRef) (st : Status) (r0 r1 : Nat) :
    Only ps s (match o with | some r => t.finish r st r0 r1 false | none => t) := by
  split
  · exact State.finish_only h (hs (by simp)) (hs (by simp)) ..
  · exact h

theorem State.jmSettle_only {ps : List Part} (h : Only ps s t) (hs : [.host, .mgmt, .jm] ⊆ ps) : Only ps s t.jmSettle := by
  have ended : [.host, .mgmt] ⊆ ps := List.Subset.trans (by simp) hs
  have jm : Part.jm ∈ ps := hs (by simp)
  unfold State.jmSettle
  exact Only.foldl _ (fun _ _ h => State.finishMatch_only h ended ..) _ _
    ((Only.foldl _ (fun _ _ h => State.finishMatch_only h ended ..) _ _ (h.jm jm _)).jm jm _)

@[simp] theorem State.jmSettle_cams (s : State) : s.jmSettle.cams = s.cams :=
  (State.jmSettle_only (.refl [.host, .mgmt, .jm] s) (by simp)).cams_eq (by simp)

theorem needKernel_of_kernel {h : Handle} (hk : s.kernel h = some k) (place : Nat) : needKernel s h place = .ok k := by
  unfold needKernel
  rw [hk]
  rfl

theorem needPar0_of_range {lo n hi : Nat} (least : lo ≤ n) (most : n ≤ hi) : needPar0 (lo ≤ n && n ≤ hi) = .ok () := by
  simp [needPar0, need, least, most]

theorem needBindable_of_sound (stays : k.unload = none) (sound : k.faulted = false) : needBindable k = .ok () := by
  unfold needBindable
  rw [stays, sound]
  rfl

theorem vget_vmapIdx {α β : Type} {n : Nat} (v : Vector α n) (d : α) (e : β) (f : Nat → α → β) {i : Nat} (h : i < n) :
    vget (vmapIdx v f) e i = f i (vget v d i) := by
  simp [vget, vmapIdx, h]

theorem CamsSt.find_lt {x : CamsSt} {h : Handle} {cam : Nat} (hf : x.find h = some cam) : cam < 48 := by
  obtain ⟨y, at_, -⟩ := firstIdx_some hf
  simpa using (List.getElem?_eq_some_iff.mp at_).1

end Sys2Proof.Machine
end

section
/-!
SUPPORT. JM_LOAD_KERNEL of a whole image in its buffer (R295, R297, R298, R299).
-/
namespace Sys2Proof.Machine

set_option Elab.async false

variable {c : Cmd} {s : State} {keyOk sigOk : Bool} {img : List Byte}

/-- The roles that a load may give away: a site fills them, and no kernel owns them (R295). -/
def State.freeKernelRoles (s : State) : List Nat :=
  (List.range 128).filter (fun r => (s.mgmt.units.unitOf .siteU r).isSome && s.jm.kernels.all (fun k => !k.roles.contains r))

/-- The kernel that a load of an image on a number of roles makes. -/
def State.newKernel (s : State) (img : List Byte) (n : Nat) : Kernel :=
  { handle := s.nextHandle 8, head := img.take 256, body := img.drop 256, roles := s.freeKernelRoles.take n, faulted := false, unload := none, consec := 0,
    lastTrap := 0, cnt := KernelCounters.zero }

/-- A state with a kernel more, its image read as bulk traffic (R297). -/
def State.loadKernel (s : State) (c : Cmd) (k : Kernel) : State :=
  ((if c.ptrSpace = 1 then s.reads .journeyman .queueEngine noCam c.ptr.toNat c.ptrLen.toNat else s).issue 8).mapJm
    (fun j => { j with kernels := j.kernels ++ [k] })

theorem State.loadKernel_kernels (s : State) (c : Cmd) (k : Kernel) : (s.loadKernel c k).jm.kernels = s.jm.kernels ++ [k] := by
  unfold State.loadKernel
  split <;> rfl

theorem State.loadKernel_only (s : State) (c : Cmd) (k : Kernel) : Only [.jm, .issued, .fabric] s (s.loadKernel c k) := by
  have read : Only [.jm, .issued, .fabric] s (if c.ptrSpace = 1 then s.reads .journeyman .queueEngine noCam c.ptr.toNat c.ptrLen.toNat else s) :=
    .ite (State.requests_only (.refl _ s) (by simp) _) (.refl _ s)
  exact (read.issued (by simp) _).jm (by simp) _

section
variable (ha : Accepted .jmLoadKernel c s) (least : 1 ≤ par c 0) (most : par c 0 ≤ 128) (hb : tableBytes s c 256 (fun _ => c.ptrLen.toNat) = .ok img)
include ha least most hb

/-- R297: the header is checked before anything else of the image. -/
theorem execJmLoadKernel_badHeader (bad : imageOk (img.take 256) = false) :
    execJmLoadKernel c keyOk sigOk s = .next (s.complete (ref .jmLoadKernel c) .firmwareRejected 1 0 false) := by
  unfold execJmLoadKernel
  refine runCmd_refuses (f := rejected 1) ha (by simp) ?_ rfl
  simp only [needPar0_of_range least most, hb, ok_bind, need_bind_false bad]

variable (good : imageOk (img.take 256) = true) (whole : img.length = 256 + khLen (img.take 256) + khState (img.take 256))
include good whole

theorem execJmLoadKernel_badSignature {n : Nat} (bad : signatureFault s.mgmt.fw.ownerKey.isSome (khSigner (img.take 256)) keyOk sigOk = some n) :
    execJmLoadKernel c keyOk sigOk s = .next (s.complete (ref .jmLoadKernel c) .firmwareRejected n 0 false) := by
  unfold execJmLoadKernel
  refine runCmd_refuses (f := rejected n) ha (by simp) ?_ rfl
  simp only [needPar0_of_range least most, need_bind_true, hb, ok_bind, good, beq_iff_eq.mpr whole, bad]

variable (signed : signatureFault s.mgmt.fw.ownerKey.isSome (khSigner (img.take 256)) keyOk sigOk = none)
include signed

theorem execJmLoadKernel_noRoles (few : s.freeKernelRoles.length < par c 0) :
    execJmLoadKernel c keyOk sigOk s = .next (s.complete (ref .jmLoadKernel c) .notReady 0xA0 0 false) := by
  have short : decide (par c 0 ≤ s.freeKernelRoles.length) = false := decide_eq_false (Nat.not_le.mpr few)
  unfold State.freeKernelRoles at short
  unfold execJmLoadKernel
  refine runCmd_refuses (f := notReady 0xA0) ha (by simp) ?_ rfl
  simp only [needPar0_of_range least most, need_bind_true, hb, ok_bind, good, beq_iff_eq.mpr whole, signed, need_bind_false short]

theorem execJmLoadKernel_loads (enough : par c 0 ≤ s.freeKernelRoles.length) :
    execJmLoadKernel c keyOk sigOk s = .next ((s.loadKernel c (s.newKernel img (par c 0))).complete (ref .jmLoadKernel c) .ok (s.nextHandle 8).toNat
      (s.capacity (s.newKernel img (par c 0))) false) := by
  unfold State.newKernel State.loadKernel
  unfold State.freeKernelRoles at enough ⊢
  unfold execJmLoadKernel
  refine runCmd_done ha ?_
  simp only [needPar0_of_range least most, need_bind_true, hb, ok_bind, good, beq_iff_eq.mpr whole, signed, decide_eq_true enough]
  rfl

end

end Sys2Proof.Machine
end

section
/-!
SUPPORT. JM_BIND_STAGE (R299, R309 to R311): what each operation does to the bindings.
-/
namespace Sys2Proof.Machine

set_option Elab.async false

variable {c : Cmd} {s : State} {k : Kernel}

/-- The rules of an operation of JM_BIND_STAGE; OP 0 goes by the class of the kernel. -/
def bindStageOp (c : Cmd) (k : Kernel) (s : State) (op : Nat) : Chk Done :=
  match op with
  | 0 => match khClass k.head with
    | 0 => bindTile c k s
    | 1 => .error (badParam 0)
    | _ => bindRate c k s
  | 1 => releaseHooks c k s
  | 2 => unbindStage c k s
  | _ => setParams c k s

theorem execJmBindStage_eq (hk : s.kernel c.handle = some k) (ht : typeOf c.aux = if khClass k.head = 2 then 3 else 2) (live : s.liveHandle c.aux = true)
    {op : Nat} (ho : par c 0 % 4 = op) (zero : op = 1 ∨ par c 1 = 0) :
    execJmBindStage c s = runCmd .jmBindStage c s (bindStageOp c k s op) := by
  have target : (typeOf c.aux == (if khClass k.head = 2 then 3 else 2) && s.liveHandle c.aux) = true := by simp [ht, live]
  have word : (op == 1 || par c 1 == 0) = true := by simpa using zero
  unfold execJmBindStage
  refine congrArg (runCmd .jmBindStage c s) ?_
  simp only [needKernel_of_kernel hk, ok_bind, target, ho, word, need_bind_true]
  rfl

/-! ### OP 0 -/

/-- A state with one binding more. -/
def State.addBind (s : State) (y : KBind) : State := s.mapJm (fun j => { j with binds := j.binds ++ [y] })

/-- The TILE binding that a block asks for, its ring in a buffer (R309). -/
def tileBind (c : Cmd) (k : Kernel) (s : State) (cam : Nat) (b : List Byte) (buf : Buffer) : KBind :=
  { newBind s k c.aux (f8 b 0 % 2) with
    blk := b, ring := Ring.fresh 0 (buf.base + f32 b 8) (hookSlotSize k.head (pfW (s.cam cam).profile) (pfH (s.cam cam).profile)) (f8 b 1),
    charge := tileCharge (s.cam cam).profile (f8 b 2), by_ := some (ref .jmBindStage c) }

/-- The RATE binding of a session. -/
def rateBind (c : Cmd) (k : Kernel) (s : State) (e : EncSession) : KBind :=
  { newBind s k c.aux 3 with by_ := some (ref .jmBindStage c), fromSeq := s.seqFrom e }

section
variable (stays : k.unload = none) (sound : k.faulted = false) (slots : (s.bindsOf k.handle).length < 8)
include stays sound slots

/-- A TILE binding whose checks hold is charged against what the kernel's other bindings leave (R299). -/
theorem bindTile_eq {cam : Nat} {b : List Byte} {buf : Buffer} (hf : s.cams.find c.aux = some cam)
    (state : (s.cam cam).state = .configured ∨ (s.cam cam).state = .running) (hb : structFor s c (.read 32) = .ok b)
    (fields : firstBad (bindFields k.head b) = none) (hy : typeOf (BitVec.ofNat 32 (f32 b 4)) = 1) (hbuf : s.buffer (BitVec.ofNat 32 (f32 b 4)) = some buf)
    (room : f32 b 8 + f8 b 1 * hookSlotSize k.head (pfW (s.cam cam).profile) (pfH (s.cam cam).profile) ≤ buf.size) :
    bindTile c k s = (do
      need (tileCharge (s.cam cam).profile (f8 b 2) ≤ s.capacity k - s.charged k.handle)
        (overBudget (tileCharge (s.cam cam).profile (f8 b 2)) (s.capacity k - s.charged k.handle))
      needRing s c.aux (0xA20 + f8 b 0 % 2) (buf.base + f32 b 8) (f8 b 1 * hookSlotSize k.head (pfW (s.cam cam).profile) (pfH (s.cam cam).profile))
      waitDone .jmBindStage c (s.addBind (tileBind c k s cam b buf))) := by
  have taken : ((s.cam cam).state == .configured || (s.cam cam).state == .running) = true := by simpa using state
  unfold bindTile
  simp only [needBindable_of_sound stays sound, ok_bind, Nat.blt_eq.mpr slots, hf, needSome_bind_some, taken, hb, needFields_of_firstBad fields,
    needBuffer_of_buffer hy hbuf, decide_eq_true room, need_bind_true]
  rfl

theorem bindRate_waits {e : EncSession} (he : s.enc c.aux = some e) (closing : e.closing = false) (ended : e.ended = false) (faulted : e.faulted = false)
    (hb : structFor s c .none = .ok []) : bindRate c k s = waitDone .jmBindStage c (s.addBind (rateBind c k s e)) := by
  have well : (!e.faulted) = true := by simp [faulted]
  have open_ : (!e.closing && !e.ended) = true := by simp [closing, ended]
  unfold bindRate
  simp only [needBindable_of_sound stays sound, ok_bind, Nat.blt_eq.mpr slots, he, needSome_bind_some, well, open_, hb, need_bind_true]
  rfl

end

/-! ### OP 1 to 3 -/

section
variable {b : KBind} (hn : s.bindNamed k c = some b)
include hn

/-- R156, R309: the slots up to an FN of the run are let go, and the number that this frees is reported. -/
theorem releaseHooks_done (sound : k.faulted = false) (hb : structFor s c .none = .ok []) : ∃ (n : Nat) (new : Ring),
    releaseHooks c k s = okDone n 0 (s.mapBinds (fun y => y == b) (fun y => { y with ring := new })) := by
  have well : (!k.faulted) = true := by simp [sound]
  unfold releaseHooks
  simp only [hb, ok_bind, well, need_bind_true, hn, needSome_bind_some]
  exact ⟨_, _, rfl⟩

theorem setParams_done {q : List Byte} (sound : k.faulted = false) (len : c.ptrLen.toNat = khParam k.head)
    (hq : structFor s c (if khParam k.head = 0 then .none else .read (khParam k.head)) = .ok q) :
    setParams c k s = okDone 0 0 (s.mapBinds (fun y => y == b) (fun y =>
      if khClass k.head = 0 && y.live then { y with nextParams := some q } else { y with params := q })) := by
  have well : (!k.faulted) = true := by simp [sound]
  unfold setParams
  simp only [well, need_bind_true, beq_iff_eq.mpr len, hq, ok_bind, hn, needSome_bind_some]

variable (hb : structFor s c .none = .ok [])
include hb

/-- R310: a binding in force leaves at its next boundary. -/
theorem unbindStage_live (other : khClass k.head ≠ 1) (live : b.live = true) : unbindStage c k s =
    okDone 0 0 (s.mapBinds (fun y => y == b) (fun y => { y with leaving := true, fromSeq := ((s.enc c.aux).map s.seqFrom).getD 0 })) := by
  unfold unbindStage
  simp only [hb, ok_bind, hn, needSome_bind_some]
  split
  · contradiction
  · rw [if_pos live]

/-- A staged binding goes at once, and the command that waits for it ends (log 45). -/
theorem unbindStage_staged (other : khClass k.head ≠ 1) (live : b.live = false) : unbindStage c k s =
    okDone 0 0 ((s.mapJm (fun j => { j with binds := j.binds.filter (fun y => y != b) })).finishOpt b.by_ .notReady 0xA5 0 false) := by
  unfold unbindStage State.finishOpt
  simp only [hb, ok_bind, hn, needSome_bind_some]
  split
  · contradiction
  · rw [live]
    exact if_neg (by decide)

/-- What OP 2 makes of a role at the next statistics close: the kernel leaves it (log 45). -/
def CamCtx.unbindPolicy (x : CamCtx) (h : Handle) (i : Nat) (o : Option (Option Handle)) : Option (Option Handle) :=
  if o.getD (vget x.policies none i) == some h then some none else o

theorem unbindStage_policy {cam : Nat} (policy : khClass k.head = 1) (hf : s.cams.find c.aux = some cam) (stats : (s.cam cam).next.stats.isSome = true) :
    unbindStage c k s =
      okDone 0 0 (s.mapCam cam (fun y => { y with bindNext := vmapIdx y.bindNext ((s.cam cam).unbindPolicy k.handle) })) := by
  unfold unbindStage
  simp only [hb, ok_bind, hn, needSome_bind_some, policy, hf, stats, if_true]
  rfl

end

/-! ### The command -/

/-- JM_BIND_STAGE stages a binding of a kernel on a hook of its target, and waits for its latch (R310). -/
def StagesBind (c : Cmd) (k : Kernel) (s : State) (hook : Nat) (y : KBind) : Prop :=
  y.kernel = k.handle ∧ y.target = c.aux ∧ y.hook = hook ∧ y.by_ = some (ref .jmBindStage c) ∧ y.live = false ∧
    ∃ u : State, execJmBindStage c s = .next (u.keepInFlight (ref .jmBindStage c)) ∧ u.jm.binds = s.jm.binds ++ [y] ∧ Only [.jm] s u

section
variable (ha : Accepted .jmBindStage c s) (hk : s.kernel c.handle = some k) (ht : typeOf c.aux = if khClass k.head = 2 then 3 else 2)
  (live : s.liveHandle c.aux = true)
include ha hk ht live

section
variable (ho : par c 0 % 4 = 0) (one : par c 1 = 0) (stays : k.unload = none) (sound : k.faulted = false) (slots : (s.bindsOf k.handle).length < 8)
include ho one stays sound slots

section
variable {cam : Nat} {b : List Byte} {buf : Buffer} (tile : khClass k.head = 0) (hf : s.cams.find c.aux = some cam)
  (state : (s.cam cam).state = .configured ∨ (s.cam cam).state = .running) (hb : structFor s c (.read 32) = .ok b)
  (fields : firstBad (bindFields k.head b) = none) (hy : typeOf (BitVec.ofNat 32 (f32 b 4)) = 1) (hbuf : s.buffer (BitVec.ofNat 32 (f32 b 4)) = some buf)
  (room : f32 b 8 + f8 b 1 * hookSlotSize k.head (pfW (s.cam cam).profile) (pfH (s.cam cam).profile) ≤ buf.size)
include tile hf state hb fields hy hbuf room

theorem execJmBindStage_overBudget (beyond : s.capacity k - s.charged k.handle < tileCharge (s.cam cam).profile (f8 b 2)) :
    execJmBindStage c s = .next (s.complete (ref .jmBindStage c) .budgetExceeded (tileCharge (s.cam cam).profile (f8 b 2))
      (s.capacity k - s.charged k.handle) false) := by
  rw [execJmBindStage_eq hk ht live ho (.inr one)]
  refine runCmd_refuses (f := overBudget (tileCharge (s.cam cam).profile (f8 b 2)) (s.capacity k - s.charged k.handle)) ha (by simp) ?_ rfl
  simp only [bindStageOp, tile]
  rw [bindTile_eq stays sound slots hf state hb fields hy hbuf room, need_bind_false (decide_eq_false (Nat.not_le.mpr beyond))]

theorem execJmBindStage_bindsTile (fits : tileCharge (s.cam cam).profile (f8 b 2) ≤ s.capacity k - s.charged k.handle)
    (apart : needRing s c.aux (0xA20 + f8 b 0 % 2) (buf.base + f32 b 8)
      (f8 b 1 * hookSlotSize k.head (pfW (s.cam cam).profile) (pfH (s.cam cam).profile)) = .ok ()) :
    StagesBind c k s (f8 b 0 % 2) (tileBind c k s cam b buf) := by
  refine ⟨rfl, rfl, rfl, rfl, rfl, s.addBind (tileBind c k s cam b buf), ?_, rfl, s.mapJm_only _⟩
  rw [execJmBindStage_eq hk ht live ho (.inr one)]
  refine runCmd_waits ha ?_
  simp only [bindStageOp, tile]
  rw [bindTile_eq stays sound slots hf state hb fields hy hbuf room, need_bind_true (decide_eq_true fits), apart]
  rfl

end

theorem execJmBindStage_bindsRate {e : EncSession} (rate : khClass k.head = 2) (he : s.enc c.aux = some e) (closing : e.closing = false)
    (ended : e.ended = false) (faulted : e.faulted = false) (hb : structFor s c .none = .ok []) : StagesBind c k s 3 (rateBind c k s e) := by
  refine ⟨rfl, rfl, rfl, rfl, rfl, s.addBind (rateBind c k s e), ?_, rfl, s.mapJm_only _⟩
  rw [execJmBindStage_eq hk ht live ho (.inr one)]
  refine runCmd_waits ha ?_
  simp only [bindStageOp, rate]
  exact bindRate_waits stays sound slots he closing ended faulted hb

end

/-- An operation that completes at once. -/
theorem execJmBindStage_done {op n : Nat} {t : State} (ho : par c 0 % 4 = op) (zero : op = 1 ∨ par c 1 = 0) (done : bindStageOp c k s op = okDone n 0 t) :
    execJmBindStage c s = .next (t.complete (ref .jmBindStage c) .ok n 0 false) :=
  (execJmBindStage_eq hk ht live ho zero).trans (runCmd_done ha done)

end

/-! ### The bindings after a change of one -/

theorem State.mapBinds_binds (s : State) (b : KBind) (f : KBind → KBind) :
    (s.mapBinds (fun y => y == b) f).jm.binds = s.jm.binds.map (fun y => if y = b then f y else y) := by
  simp [State.mapBinds, updWhere]

theorem vget_of_getElem? {α : Type} {n i : Nat} {v : Vector α n} {x : α} (h : v.toList[i]? = some x) (d : α) : vget v d i = x := by
  obtain ⟨lt, rfl⟩ := List.getElem?_eq_some_iff.mp h
  exact vget_eq_getElem v d (by simpa using lt)

theorem CamCtx.unbindPolicy_held {x : CamCtx} {h : Handle} {i : Nat} (held : vget x.policies none i = some h) : x.unbindPolicy h i none = some none := by
  simp [CamCtx.unbindPolicy, held]

end Sys2Proof.Machine
end

section
/-!
SUPPORT. JM_UNLOAD (R312) and EXP_POLICY_BIND (R178): a kernel that ends with its bindings, and the roles of a camera.
-/
namespace Sys2Proof.Machine

set_option Elab.async false

variable {c : Cmd} {s t : State} {k : Kernel} {i : Fin 48}

/-! ### JM_UNLOAD -/

/-- A kernel takes no further binding: a command waits for its end (R312). -/
def State.unloading (s : State) (h : Handle) (r : CmdRef) : State := s.mapKernel h (fun k => { k with unload := some r })

theorem State.unloading_only (s : State) (h : Handle) (r : CmdRef) : Only [.jm] s (s.unloading h r) := (Only.refl _ s).jm (by simp) _

theorem State.unloading_kernels {h : Handle} {r : CmdRef} {y : Kernel} (hy : y ∈ (s.unloading h r).jm.kernels) (own : y.handle = h) : y.unload = some r := by
  obtain ⟨x, -, rfl⟩ := mem_updWhere.mp hy
  by_cases e : x.handle = h
  · simp [e]
  · exact absurd own (by simp [e])

section
variable (ha : Accepted .jmUnload c s) (hk : s.kernel c.handle = some k) (stays : k.unload = none)
include ha hk stays

theorem execJmUnload_waits (all : ∀ b ∈ s.bindsOf k.handle, s.superseded b = true) :
    execJmUnload c s = .next (((s.unloading k.handle (ref .jmUnload c)).keepInFlight (ref .jmUnload c)).jmSettle) := by
  have none_ : (s.bindsOf k.handle).find? (fun b => !s.superseded b) = none := List.find?_eq_none.mpr fun b hb => by simp [all b hb]
  unfold execJmUnload
  refine runCmd_waits ha ?_
  simp only [needKernel_of_kernel hk, ok_bind, stays, Option.isNone_none, need_bind_true, none_]
  rfl

theorem execJmUnload_conflict {b : KBind} (hb : (s.bindsOf k.handle).find? (fun b => !s.superseded b) = some b) :
    execJmUnload c s = .next (s.complete (ref .jmUnload c) .conflict b.target.toNat (0xA00 + khClass k.head) false) := by
  unfold execJmUnload
  refine runCmd_refuses (f := conflict b.target (0xA00 + khClass k.head)) ha (by simp) ?_ rfl
  simp only [needKernel_of_kernel hk, ok_bind, stays, Option.isNone_none, need_bind_true, hb]

end

/-! ### What EXP_POLICY_BIND stages -/

/-- A role of a camera changes hands at the next statistics close. -/
def State.stagePolicy (s : State) (cam role : Nat) (new : Option Handle) : State :=
  s.mapCam cam (fun y => { y with bindNext := vmod y.bindNext role (fun _ => some new) })

/-- A kernel is staged for a role, in a binding to the camera that it has or gets. -/
def State.bindPolicy (s : State) (cam role : Nat) (h : Handle) (k : Kernel) : State :=
  if (s.bindsOf k.handle).any (fun b => b.target == h) then s.stagePolicy cam role (some k.handle)
  else (s.stagePolicy cam role (some k.handle)).addBind (newBind s k h 2)

/-- A role's next holder is staged and nothing has changed hands: the camera's context, the bindings and commands in flight are all that may differ. -/
def PolicyStaged (s t : State) (i : Fin 48) (role : Nat) (new : Option Handle) : Prop :=
  vget (t.cam i.val).bindNext none role = some new ∧ (t.cam i.val).policies = (s.cam i.val).policies ∧ Only [.host, .cams, .jm] s t

theorem State.stagePolicy_staged (s : State) (i : Fin 48) {role : Nat} (hr : role < 2) (new : Option Handle) :
    PolicyStaged s (s.stagePolicy i.val role new) i role new := by
  unfold State.stagePolicy PolicyStaged
  rw [State.cam_mapCam_fin]
  exact ⟨by rw [vget_vmod, if_pos ⟨rfl, hr⟩], rfl, (State.mapCam_only ..).mono (by simp)⟩

theorem PolicyStaged.mapJm {role : Nat} {new : Option Handle} (h : PolicyStaged s t i role new) (f : JmSt → JmSt) : PolicyStaged s (t.mapJm f) i role new :=
  ⟨h.1, h.2.1, h.2.2.jm (by simp) _⟩

theorem PolicyStaged.keepInFlight {role : Nat} {new : Option Handle} (h : PolicyStaged s t i role new) (r : CmdRef) :
    PolicyStaged s (t.keepInFlight r) i role new := by
  obtain ⟨next, held, only⟩ := h
  have same : (t.keepInFlight r).cam i.val = t.cam i.val := State.cam_of_cams_eq (t.keepInFlight_cams r) _
  exact ⟨by rw [same, next], by rw [same, held], State.keepInFlight_only only (by simp) r⟩

theorem State.bindPolicy_staged (s : State) (i : Fin 48) {role : Nat} (hr : role < 2) (h : Handle) (k : Kernel) :
    PolicyStaged s (s.bindPolicy i.val role h k) i role (some k.handle) := by
  unfold State.bindPolicy
  split
  · exact s.stagePolicy_staged i hr _
  · exact (s.stagePolicy_staged i hr _).mapJm _

theorem State.stagePolicy_polBy (s : State) (cam role : Nat) (new : Option Handle) : (s.stagePolicy cam role new).jm.polBy = s.jm.polBy := rfl

theorem State.bindPolicy_polBy (s : State) (cam role : Nat) (h : Handle) (k : Kernel) : (s.bindPolicy cam role h k).jm.polBy = s.jm.polBy := by
  unfold State.bindPolicy
  split <;> rfl

/-- Where the roles latch, a role that was let go is empty (R178). -/
theorem State.latchPolicies_unbinds {role : Nat} (hr : role < 2) (r0 : Nat) (next : vget (s.cam i.val).bindNext none role = some none) :
    vget ((s.latchPolicies i.val r0).cam i.val).policies none role = none := by
  have finished (l : List (Nat × CmdRef)) (u : State) : (l.foldl (fun (v : State) (x : Nat × CmdRef) => v.finish x.2 .ok r0 0 false) u).cams = u.cams :=
    List.foldlRecOn (motive := fun v : State => v.cams = u.cams) l _ rfl fun v h x _ => (v.finish_cams ..).trans h
  unfold State.latchPolicies
  dsimp only
  rw [State.cam_of_cams_eq (State.mapJm_cams ..), State.cam_of_cams_eq (finished _ _), State.cam_mapCam_fin, vget_vmapIdx _ none _ _ hr, next]
  rfl

/-! ### EXP_POLICY_BIND -/

/-- How EXP_POLICY_BIND ends once its change is staged: on a context that runs it waits for the statistics close, on any other it does not; without
statistics there is no close, and the roles latch at once (log 45). -/
def policyEnd (c : Cmd) (s : State) (cam : Nat) (t : State) : Chk Done :=
  if (s.cam cam).state == .running && (s.cam cam).next.stats.isSome then
    .ok (.waits ((t.keepInFlight (ref .expPolicyBind c)).mapJm (fun j => { j with polBy := j.polBy ++ [(cam, ref .expPolicyBind c)] })))
  else okDone 0 0 (if (s.cam cam).next.stats.isSome then t else (t.latchPolicies cam 0).jmSettle)

section
variable (hf : s.cams.find c.handle = some i.val) (hr : par c 0 < 2)
include hf hr

theorem execExpPolicyBind_unbinds (aux : c.aux = 0) :
    execExpPolicyBind c s = runCmd .expPolicyBind c s (policyEnd c s i.val (s.stagePolicy i.val (par c 0) none)) := by
  unfold execExpPolicyBind
  refine congrArg (runCmd .expPolicyBind c s) ?_
  simp only [needCam_of_find hf, ok_bind, needPar0, Nat.blt_eq.mpr hr, need_bind_true, if_pos aux]
  rfl

theorem execExpPolicyBind_binds (ht : typeOf c.aux = 8) (hk : s.kernel c.aux = some k) (policy : khClass k.head = 1) (stays : k.unload = none)
    (sound : k.faulted = false) (stats : (s.cam i.val).next.stats.isSome = true) (slots : (s.bindsOf k.handle).length < 8) :
    execExpPolicyBind c s = runCmd .expPolicyBind c s (policyEnd c s i.val (s.bindPolicy i.val (par c 0) c.handle k)) := by
  have room : ((s.bindsOf k.handle).any (fun b => b.target == c.handle) || Nat.blt (s.bindsOf k.handle).length 8) = true := by
    simp [Nat.blt_eq.mpr slots]
  unfold execExpPolicyBind
  refine congrArg (runCmd .expPolicyBind c s) ?_
  simp only [needCam_of_find hf, ok_bind, needPar0, Nat.blt_eq.mpr hr, need_bind_true, if_neg (ne_zero_of_typeOf ht (by decide)), needKernel_of_kernel hk,
    beq_iff_eq.mpr policy, needBindable_of_sound stays sound, room, need_bind_true stats, pure_bind]
  rfl

end

section
variable (ha : Accepted .expPolicyBind c s)
include ha

theorem policyEnd_idle (idle : (s.cam i.val).state ≠ .running) (stats : (s.cam i.val).next.stats.isSome = true) (t : State) :
    runCmd .expPolicyBind c s (policyEnd c s i.val t) = .next (t.complete (ref .expPolicyBind c) .ok 0 0 false) := by
  refine runCmd_done ha ?_
  simp [policyEnd, okDone, idle, stats]

theorem policyEnd_running (run : (s.cam i.val).state = .running) (stats : (s.cam i.val).next.stats.isSome = true) (t : State) :
    runCmd .expPolicyBind c s (policyEnd c s i.val t) =
      .next ((t.keepInFlight (ref .expPolicyBind c)).mapJm (fun j => { j with polBy := j.polBy ++ [(i.val, ref .expPolicyBind c)] })) := by
  refine runCmd_waits ha ?_
  simp [policyEnd, run, stats]

/-- With statistics configured the change waits for the next close of theirs (R178). -/
theorem policyEnd_stages {o : Host.Outcome State Fault Refusal} {new : Option Handle} (ho : o = runCmd .expPolicyBind c s (policyEnd c s i.val t))
    (staged : PolicyStaged s t i (par c 0) new) (waits : t.jm.polBy = s.jm.polBy) (stats : (s.cam i.val).next.stats.isSome = true) :
    ((s.cam i.val).state ≠ .running → ∃ u : State, o = .next (u.complete (ref .expPolicyBind c) .ok 0 0 false) ∧ PolicyStaged s u i (par c 0) new) ∧
    ((s.cam i.val).state = .running → ∃ u : State, o = .next u ∧ u.jm.polBy = s.jm.polBy ++ [(i.val, ref .expPolicyBind c)] ∧
      PolicyStaged s u i (par c 0) new) := by
  refine ⟨fun idle => ⟨t, ho.trans (policyEnd_idle ha idle stats t), staged⟩,
    fun run => ⟨_, ho.trans (policyEnd_running ha run stats t), ?_, (staged.keepInFlight _).mapJm _⟩⟩
  rw [State.mapJm_jm, State.keepInFlight_jm, waits]

theorem policyEnd_bare (bare : (s.cam i.val).next.stats = none) (t : State) :
    runCmd .expPolicyBind c s (policyEnd c s i.val t) =
      .next (((t.latchPolicies i.val 0).jmSettle).complete (ref .expPolicyBind c) .ok 0 0 false) := by
  refine runCmd_done ha ?_
  simp [policyEnd, okDone, bare]

end

end Sys2Proof.Machine

namespace Sys2Proof

set_option Elab.async false

open Machine

/-- Settles O43: each command runs through its checks to the kernels, bindings or roles that it changes (log 45 for a staged binding that OP 2 drops,
and for EXP_POLICY_BIND on a context that does not run). -/
theorem kernelsAreLoadedAndBound : Obligations.KernelsAreLoadedAndBound := by
  unfold Obligations.KernelsAreLoadedAndBound
  intro c s
  refine ⟨fun keyOk sigOk img ha least most hb => ⟨fun bad => ?_, fun good whole => ⟨fun n bad => ?_, fun signed => ⟨fun few => ?_, fun enough => ?_⟩⟩⟩,
    fun k ha hk ht live => ⟨fun cam b buf bind one tile ⟨stays, sound, slots⟩ hf state hb fields hy hbuf room => ⟨fun beyond => ?_, fun fits apart => ?_⟩,
      fun e bind one rate ⟨stays, sound, slots⟩ he closing ended faulted hb => ?_,
      fun b hn => ⟨fun release sound hb => ?_, fun unbind one hb other => ⟨fun inForce => ?_, fun staged => ?_⟩,
        fun cam unbind one hb policy hf stats => ?_, fun q set one sound len hq => ?_⟩⟩,
    fun k ha hk stays => ⟨fun all => ?_, fun b hb => ?_⟩,
    fun i k ha hf hr => ⟨fun ⟨ht, hk, policy, stays, sound, stats, slots⟩ => ?_, fun aux stats => ?_, fun aux bare => ?_⟩⟩
  · exact execJmLoadKernel_badHeader ha least most hb bad
  · exact execJmLoadKernel_badSignature ha least most hb good whole bad
  · exact execJmLoadKernel_noRoles ha least most hb good whole signed few
  · exact ⟨_, s.newKernel img (par c 0), execJmLoadKernel_loads ha least most hb good whole signed enough, s.loadKernel_kernels c _, rfl, rfl, rfl, rfl, rfl,
      s.loadKernel_only c _⟩
  · exact execJmBindStage_overBudget ha hk ht live bind one stays sound slots tile hf state hb fields hy hbuf room beyond
  · exact ⟨_, rfl, rfl, execJmBindStage_bindsTile ha hk ht live bind one stays sound slots tile hf state hb fields hy hbuf room fits apart⟩
  · exact ⟨_, rfl, execJmBindStage_bindsRate ha hk ht live bind one stays sound slots rate he closing ended faulted hb⟩
  · obtain ⟨n, new, freed⟩ := releaseHooks_done hn sound hb
    refine ⟨_, n, execJmBindStage_done ha hk ht live release (.inl rfl) freed, rfl, ?_, s.mapJm_only _⟩
    rw [State.mapBinds_binds, List.length_map]
  · exact ⟨_, execJmBindStage_done ha hk ht live unbind (.inr one) (unbindStage_live hn hb other inForce), s.mapJm_only _, s.mapBinds_binds ..⟩
  · refine ⟨_, execJmBindStage_done ha hk ht live unbind (.inr one) (unbindStage_staged hn hb other staged), ?_,
      State.finishOpt_only ((s.mapJm_only _).mono (by simp)) (by simp) (by simp) ..⟩
    rw [State.finishOpt_jm, State.mapJm_jm]
  · refine ⟨_, execJmBindStage_done ha hk ht live unbind (.inr one) (unbindStage_policy hn hb policy hf stats), s.mapCam_only .., fun i lt next held => ?_⟩
    rw [State.cam_mapCam_same (CamsSt.find_lt hf), vget_vmapIdx _ none _ _ lt, vget_of_getElem? next, CamCtx.unbindPolicy_held held]
  · refine ⟨_, execJmBindStage_done ha hk ht live set (.inr one) (setParams_done hn sound len hq), s.mapJm_only _, ?_⟩
    simp only [State.mapBinds_binds, Bool.and_eq_true, decide_eq_true_eq]
  · exact ⟨_, execJmUnload_waits ha hk stays all, fun _ => State.unloading_kernels, s.unloading_only ..⟩
  · exact execJmUnload_conflict ha hk stays hb
  · exact policyEnd_stages ha (execExpPolicyBind_binds hf hr ht hk policy stays sound stats slots) (s.bindPolicy_staged i hr ..) (s.bindPolicy_polBy ..) stats
  · exact policyEnd_stages ha (execExpPolicyBind_unbinds hf hr aux) (s.stagePolicy_staged i hr _) rfl stats
  · refine ⟨_, (execExpPolicyBind_unbinds hf hr aux).trans (policyEnd_bare ha bare _), ?_⟩
    rw [State.cam_of_cams_eq (State.jmSettle_cams _)]
    exact State.latchPolicies_unbinds hr 0 (s.stagePolicy_staged i hr none).1

end Sys2Proof
end

section
/-!
SUPPORT. Encode sessions under the updates of the state: the session of a handle, what the rate bindings change in one (R211), and what the end of a picture
or of a session leaves of it (R201, R217).
-/
namespace Sys2Proof

set_option Elab.async false

open Machine

theorem Only.encs_eq {ps : List Part} {s t : State} (h : Only ps s t) (he : Part.encs ∉ ps) : t.encs = s.encs := h.same .encs he

end Sys2Proof

namespace Sys2Proof.Machine

set_option Elab.async false

variable {s t u : State} {h : Handle} {e : EncSession} {ps : List Part}

/-! ### The session of a handle -/

theorem State.handle_of_enc (he : s.enc h = some e) : e.handle = h := by
  simpa using List.find?_some he

theorem State.mem_of_enc (he : s.enc h = some e) : e ∈ s.encs := List.mem_of_find?_eq_some he

theorem State.enc_mapEnc {f : EncSession → EncSession} (he : s.enc h = some e) (keeps : ∀ x, (f x).handle = x.handle := by exact fun _ => rfl) :
    (s.mapEnc e.handle f).enc h = some (f e) := by
  have found : (s.mapEnc h f).enc h = (s.enc h).map f := find?_updWhere (p := fun x : EncSession => x.handle == h) (fun x => by rw [keeps]) s.encs
  rw [State.handle_of_enc he, found, he]
  rfl

theorem State.mem_mapEnc {f : EncSession → EncSession} {x : EncSession} (hx : x ∈ (s.mapEnc h f).encs) (own : x.handle = h) :
    ∃ y ∈ s.encs, y.handle = h ∧ x = f y := by
  obtain ⟨y, hy, rfl⟩ := mem_updWhere.mp hx
  by_cases same : y.handle = h
  · exact ⟨y, hy, same, by simp [same]⟩
  · exact absurd own (by simp [same])

theorem State.mem_mapEnc_of_mem (f : EncSession → EncSession) (he : e ∈ s.encs) (own : e.handle = h) : f e ∈ (s.mapEnc h f).encs :=
  mem_updWhere.mpr ⟨e, he, by simp [own]⟩

theorem State.mapEnc_encs_congr (same : t.encs = s.encs) (h : Handle) (f : EncSession → EncSession) : (t.mapEnc h f).encs = (s.mapEnc h f).encs := by
  unfold State.mapEnc State.mapEncs
  rw [same]

theorem State.mapEnc_only (s : State) (h : Handle) (f : EncSession → EncSession) : Only [.encs] s (s.mapEnc h f) := (Only.refl _ s).encs (by simp) _

theorem State.releaseEncFrame_encs (s : State) (e : EncSession) (fn : Nat) : (s.releaseEncFrame e fn).encs = s.encs := State.mapCams_encs ..

/-! ### Rate bindings -/

/-- A session but for whether a RATE kernel is bound to it. -/
def EncSession.unbound (e : EncSession) : EncSession := { e with rateBound := false }

theorem State.rateOf_encs (s : State) (e : EncSession) : (s.rateOf e).encs.map EncSession.unbound = s.encs.map EncSession.unbound := by
  unfold State.rateOf
  extract_lets mine ready due staged last gone t1 t2 on
  have same : t2.encs = s.encs :=
    (Only.foldl _ (fun _ _ h => State.finishMatch_only h (by simp) ..) _ _ ((s.mapJm_only _).mono (qs := [.host, .mgmt, .jm]) (by simp))).encs_eq (by simp)
  rw [State.mapEnc_encs_congr same]
  exact updWhere_map (g := EncSession.unbound) (f := fun x => { x with rateBound := on }) (fun _ => rfl) s.encs

theorem State.jmRates_encs (s : State) : s.jmRates.encs.map EncSession.unbound = s.encs.map EncSession.unbound :=
  List.foldlRecOn (motive := fun t : State => t.encs.map EncSession.unbound = s.encs.map EncSession.unbound) _ _ rfl
    fun t same e _ => (t.rateOf_encs e).trans same

theorem State.jmRates_only (h : Only ps s t) (hs : [.host, .mgmt, .encs, .jm] ⊆ ps) : Only ps s t.jmRates :=
  Only.foldl _ (fun _ _ h => State.rateOf_only h hs _) _ _ h

theorem State.enc_unbound (s : State) (h : Handle) :
    (s.enc h).map EncSession.unbound = (s.encs.map EncSession.unbound).find? (fun e => e.handle == h) := by
  rw [List.find?_map]
  rfl

theorem State.enc_jmRates (s : State) (h : Handle) : (s.jmRates.enc h).map EncSession.unbound = (s.enc h).map EncSession.unbound := by
  rw [State.enc_unbound, State.jmRates_encs, State.enc_unbound]

/-! ### What outlives the end of a picture or of a session -/

/-- A session but for its rate binding, and for what goes when it lets its camera go (R217). -/
def EncSession.lasting (e : EncSession) : EncSession := { e with rateBound := false, released := false, frames := [], gop := [], targets := [] }

/-- A session follows another where it is the same but for that, with no frame that the other lacks. -/
structure EncSession.Follows (y x : EncSession) : Prop where
  lasting : x.lasting = y.lasting
  frames : x.frames ⊆ y.frames

theorem EncSession.Follows.refl (x : EncSession) : x.Follows x := ⟨rfl, List.Subset.refl _⟩

theorem EncSession.Follows.trans {x y z : EncSession} (h : z.Follows y) (k : y.Follows x) : z.Follows x :=
  ⟨k.lasting.trans h.lasting, List.Subset.trans k.frames h.frames⟩

/-- What does not depend on what a session may lose is the same in the one that follows. -/
theorem EncSession.Follows.keep {α : Type} {π : EncSession → α} {x y : EncSession} (h : y.Follows x)
    (blind : ∀ e : EncSession, π e.lasting = π e := by exact fun _ => rfl) : π x = π y := by
  rw [← blind x, h.lasting, blind]

theorem EncSession.Follows.of_unbound {x y : EncSession} (same : x.unbound = y.unbound) : y.Follows x := by
  have lasting := congrArg EncSession.lasting same
  have frames := congrArg EncSession.frames same
  exact ⟨lasting, fun f hf => (show x.frames = y.frames from frames) ▸ hf⟩

/-- Every session of a second state follows one of the first. -/
def State.EncsFollow (s t : State) : Prop := ∀ x ∈ t.encs, ∃ y ∈ s.encs, y.Follows x

theorem State.EncsFollow.of_eq (same : t.encs = s.encs) : s.EncsFollow t := fun x hx => ⟨x, same ▸ hx, .refl x⟩

theorem State.EncsFollow.trans (h : s.EncsFollow t) (k : t.EncsFollow u) : s.EncsFollow u := fun x hx => by
  obtain ⟨y, hy, near⟩ := k x hx
  obtain ⟨z, hz, far⟩ := h y hy
  exact ⟨z, hz, far.trans near⟩

/-- A session that follows one of an updated handle follows its update. -/
theorem State.EncsFollow.of_mapEnc {f : EncSession → EncSession} {x : EncSession} (k : (s.mapEnc h f).EncsFollow t) (hx : x ∈ t.encs) (own : x.handle = h) :
    ∃ y ∈ s.encs, y.handle = h ∧ (f y).Follows x := by
  obtain ⟨y, hy, follows⟩ := k x hx
  obtain ⟨z, hz, same, rfl⟩ := State.mem_mapEnc hy ((follows.keep (π := EncSession.handle)).symm.trans own)
  exact ⟨z, hz, same, follows⟩

theorem State.encsFollow_jmRates (s : State) : s.EncsFollow s.jmRates := fun x hx => by
  have mem : x.unbound ∈ s.encs.map EncSession.unbound := s.jmRates_encs ▸ List.mem_map_of_mem hx
  obtain ⟨y, hy, same⟩ := List.mem_map.mp mem
  exact ⟨y, hy, .of_unbound same.symm⟩

theorem State.encsFollow_jmSettle (s : State) : s.EncsFollow s.jmSettle :=
  .of_eq ((State.jmSettle_only (.refl [.host, .mgmt, .jm] s) (by simp)).encs_eq (by simp))

theorem State.recGone_only (h : Only ps s t) (hs : [.recs, .host, .mgmt] ⊆ ps) (k : Nat) (hd : Handle) (i : Nat) : Only ps s (t.recGone k hd i) :=
  Only.foldl _ (fun _ _ h => State.logErrorPost_only h (hs (by simp)) (hs (by simp)) _) _ _ (h.recs (hs (by simp)) _)

theorem State.encsFollow_encFinishClose (s : State) (h : Handle) : s.EncsFollow (s.encFinishClose h) := by
  unfold State.encFinishClose
  split
  · exact .of_eq rfl
  next e _ =>
    split
    · exact .of_eq rfl
    extract_lets left t1 t2 t3 t4
    split
    · exact .of_eq rfl
    have ended : Only [.cams, .host, .mgmt] s t2 :=
      Only.foldl _ (fun _ _ h => State.finish_only h (by simp) (by simp) ..) _ _ ((s.mapCam_only ..).mono (by simp))
    have gone : Only [.cams, .host, .mgmt, .recs] s t3 := .ite (ended.mono (by simp)) (State.recGone_only (ended.mono (by simp)) (by simp) ..)
    have released : s.EncsFollow t4 := fun x hx => by
      rw [State.mapEnc_encs_congr (gone.encs_eq (by simp))] at hx
      obtain ⟨y, hy, rfl⟩ := mem_updWhere.mp hx
      refine ⟨y, hy, ?_⟩
      split
      · exact ⟨rfl, List.nil_subset _⟩
      · exact .refl y
    split
    · have completed (v : State) : (v.finishOpt e.closeBy .ok e.cnt.pictures.toNat (e.discarded + left.length) false).encs = v.encs :=
        (State.finishOpt_only (.refl [.host, .mgmt] v) (by simp) (by simp) ..).encs_eq (by simp)
      exact fun x hx => released x (List.mem_of_mem_filter (completed _ ▸ hx))
    · exact released

end Sys2Proof.Machine
end

section
/-!
SUPPORT. ENC_SESSION_OPEN and ENC_SESSION_CLOSE (R194 to R197, R217).
-/
namespace Sys2Proof.Machine

set_option Elab.async false

variable {c : Cmd} {s : State}

/-! ### ENC_SESSION_OPEN -/

/-- The least pool of a session's block (R197). -/
def encPoolNeed (p b : List Byte) : Nat :=
  4096 + sbSlots b * (encKcs (sbProfile b) (profileDepth (sbProfile b)) (sbCrop p b).2.2.1 (sbCrop p b).2.2.2).bound

/-- The least ring of a session's block (R197). -/
def encRingNeed (p b : List Byte) : Nat := 64 + 2 * largestReservation b (b.drop 0x40) (sbCrop p b).2.2.1 (sbCrop p b).2.2.2

/-- The session that a block opens on an output of a camera, its areas in a buffer. -/
def newEncSession (s : State) (c : Cmd) (cam : Nat) (b : List Byte) (o : OutCfg) (y : Buffer) : EncSession :=
  let x := s.cam cam
  let every := Nat.max 1 o.every
  let first := roundUp (if x.state == .running then x.fnNext else 0) every
  { handle := s.nextHandle 3, cam := cam, run := x.run, blk := b.take 0x40, rate := b.drop 0x40, rateNext := none, src := o, buf := c.aux, base := y.base,
    period := x.period, profile := x.profile, charge := encCharge x.profile b every, first := first, gopNext := first, frames := [], gop := [], coded := [],
    anchor := 0, anchorDue := false, idrDue := true, idrNext := false, targets := [], lastIdr := first, refs := [], pics := [], seqNext := 0,
    alphas := Vector.replicate 3 none, qpLast := Vector.replicate 4 none, devs := [], overs := 0, pool := 0, cpb := rbFill (b.drop 0x40), filled := false,
    elapsed := 0, wr := { off := 0, wraps := 0 }, rd := s.readPos (y.base + sbRingOff b), gaps := [], answer := .none, answerFn := 0,
    rateBound := false, discarded := 0, closing := false, closeBy := none, ended := false, released := false, faulted := false,
    cnt := EncCounters.zero }

/-- A new session joins and consumes an output of its camera. -/
def State.addEnc (s : State) (src : Nat) (e : EncSession) : State :=
  let t := (s.issue 3).mapCam e.cam (fun x => { x with consumers := vmod x.consumers src (· ++ [e.handle]) })
  { t with encs := t.encs ++ [e] }

theorem State.addEnc_only (s : State) (src : Nat) (e : EncSession) : Only [.encs, .cams, .issued] s (s.addEnc src e) :=
  (((Only.refl _ s).issued (by simp) _).mapCam (by simp) ..).encs (by simp) _

theorem State.addEnc_encs (s : State) (src : Nat) (e : EncSession) : (s.addEnc src e).encs = s.encs ++ [e] := rfl

theorem State.addEnc_consumers (s : State) {src : Nat} (hs : src < 4) {e : EncSession} (hc : e.cam < 48) :
    vget ((s.addEnc src e).cam e.cam).consumers [] src = vget (s.cam e.cam).consumers [] src ++ [e.handle] := by
  have added : (s.addEnc src e).cam e.cam = _ := State.cam_mapCam_same (s := s.issue 3) hc _
  rw [added, vget_vmod, if_pos ⟨rfl, hs⟩]
  rfl

/-- ENC_SESSION_OPEN of a block that is not a query: its areas in the buffer, and its session (R197). -/
def placeEncSession (s : State) (c : Cmd) (cam : Nat) (b : List Byte) (o : OutCfg) : Chk Done := do
  let p := (s.cam cam).profile
  let y ← needBuffer s c.aux 1
  let sl := 64 * sbStatSlots b
  need (encRingNeed p b ≤ sbRingLen b && sbRingOff b + sbRingLen b ≤ y.size) (badStruct 0x1C)
  need (sbStatOff b + sl ≤ y.size && !meets (sbRingOff b) (sbRingLen b) (sbStatOff b) sl) (badStruct 0x24)
  need (encPoolNeed p b ≤ sbPoolLen b && sbPoolOff b + sbPoolLen b ≤ y.size && !meets (sbRingOff b) (sbRingLen b) (sbPoolOff b) (sbPoolLen b)
    && !meets (sbStatOff b) sl (sbPoolOff b) (sbPoolLen b)) (badStruct 0x2C)
  needUnpinned s y.base y.size
  let e := newEncSession s c cam b o y
  okDone (s.nextHandle 3).toNat (e.first % 2 ^ 32) (s.addEnc (sbSrc b) e)

section
variable {cam : Nat} {b : List Byte} {o : OutCfg} (ha : Accepted .encSessionOpen c s) (hf : s.cams.find c.handle = some cam) (hb : structBytes s c = .ok b)
  (fields : firstBad (sessionFields (s.cam cam).profile b) = none) (few : s.encs.length < 96)
  (state : (s.cam cam).state = .configured ∨ (s.cam cam).state = .running) (out : vget (s.cam cam).next.outs none (sbSrc b) = some o)
  (takes : profileTakes (sbProfile b) o.blk = true) (slots : sbG b + 2 ≤ o.slots) (idr : sbIdrPeriod b % (sbG b * Nat.max 1 o.every) = 0)
  (size : sizeLimits (s.cam cam).profile b (Nat.max 1 o.every) = true) (rate : firstBad (rateLimits b (b.drop 0x40)) = none)
  (unit : encCharge (s.cam cam).profile b (Nat.max 1 o.every) ≤ 3200)
  (budget : encCharge (s.cam cam).profile b (Nat.max 1 o.every) + sumNat ((s.encs.filter (fun e => !e.released)).map EncSession.charge) ≤
    3200 * s.mgmt.units.filled .encU)
include hf hb fields few state out takes slots idr size rate unit budget

/-- The checks that a query and an opening share hold (R195, R196). -/
theorem execEncSessionOpen_eq (query : bitOf (f8 b 3) 1 = true → c.aux = 0) :
    execEncSessionOpen c s = runCmd .encSessionOpen c s (if bitOf (f8 b 3) 1 then
      okDone (encPoolNeed (s.cam cam).profile b % 2 ^ 32) (encRingNeed (s.cam cam).profile b % 2 ^ 32) s else placeEncSession s c cam b o) := by
  have queried : (!bitOf (f8 b 3) 1 || c.aux == 0) = true := by
    cases q : bitOf (f8 b 3) 1
    · rfl
    · simp [query q]
  have ready : ((s.cam cam).state == .configured || (s.cam cam).state == .running) = true := by simpa using state
  have level : (sizeLimits (s.cam cam).profile b (Nat.max 1 o.every) && (firstBad (rateLimits b (b.drop 0x40))).isNone) = true := by simp [size, rate]
  have fits : (decide (encCharge (s.cam cam).profile b (Nat.max 1 o.every) ≤ 3200) && decide (encCharge (s.cam cam).profile b (Nat.max 1 o.every) +
      sumNat ((s.encs.filter (fun e => !e.released)).map EncSession.charge) ≤ 3200 * s.mgmt.units.filled .encU)) = true := by simp [unit, budget]
  unfold execEncSessionOpen
  refine congrArg (runCmd .encSessionOpen c s) ?_
  simp only [hf, hb, out, needSome_bind_some, ok_bind, queried, needFields_of_firstBad fields, Nat.blt_eq.mpr few, ready, takes, decide_eq_true slots,
    beq_iff_eq.mpr idr, level, fits, need_bind_true]
  rfl

include ha

theorem execEncSessionOpen_query (query : bitOf (f8 b 3) 1 = true) (aux : c.aux = 0) :
    execEncSessionOpen c s = .next (s.complete (ref .encSessionOpen c) .ok (encPoolNeed (s.cam cam).profile b % 2 ^ 32)
      (encRingNeed (s.cam cam).profile b % 2 ^ 32) false) := by
  rw [execEncSessionOpen_eq hf hb fields few state out takes slots idr size rate unit budget (fun _ => aux), if_pos query]
  exact runCmd_done ha rfl

theorem execEncSessionOpen_opens {y : Buffer} (opens : bitOf (f8 b 3) 1 = false) (ht : typeOf c.aux = 1) (hy : s.buffer c.aux = some y)
    (ring : encRingNeed (s.cam cam).profile b ≤ sbRingLen b) (ringIn : sbRingOff b + sbRingLen b ≤ y.size)
    (statIn : sbStatOff b + 64 * sbStatSlots b ≤ y.size) (pool : encPoolNeed (s.cam cam).profile b ≤ sbPoolLen b) (poolIn : sbPoolOff b + sbPoolLen b ≤ y.size)
    (ringStat : meets (sbRingOff b) (sbRingLen b) (sbStatOff b) (64 * sbStatSlots b) = false)
    (ringPool : meets (sbRingOff b) (sbRingLen b) (sbPoolOff b) (sbPoolLen b) = false)
    (statPool : meets (sbStatOff b) (64 * sbStatSlots b) (sbPoolOff b) (sbPoolLen b) = false) (free : needUnpinned s y.base y.size = .ok ()) :
    execEncSessionOpen c s = .next ((s.addEnc (sbSrc b) (newEncSession s c cam b o y)).complete (ref .encSessionOpen c) .ok (s.nextHandle 3).toNat
      ((newEncSession s c cam b o y).first % 2 ^ 32) false) := by
  rw [execEncSessionOpen_eq hf hb fields few state out takes slots idr size rate unit budget (fun q => by simp [opens] at q), if_neg (by simp [opens])]
  refine runCmd_done ha ?_
  simp only [placeEncSession, needBuffer_of_buffer ht hy, ok_bind, ring, ringIn, statIn, pool, poolIn, ringStat, ringPool, statPool, free, decide_true,
    Bool.not_false, Bool.and_self, need_bind_true]
  rfl

end

/-! ### ENC_SESSION_CLOSE -/

theorem needEnc_of_enc {h : Handle} {e : EncSession} (he : s.enc h = some e) : needEnc s h = .ok e := by
  unfold needEnc
  rw [he]
  rfl

theorem execEncSessionClose_again {e : EncSession} (ha : Accepted .encSessionClose c s) (he : s.enc c.handle = some e) (closing : e.closing = true) :
    execEncSessionClose c s = .next (s.complete (ref .encSessionClose c) .notReady 0x61 0 false) := by
  unfold execEncSessionClose
  refine runCmd_refuses (f := notReady 0x61) ha (by simp) ?_ rfl
  rw [needEnc_of_enc he, ok_bind, need_bind_false (by simp [closing])]

theorem execEncSessionClose_closes {e : EncSession} (ha : Accepted .encSessionClose c s) (he : s.enc c.handle = some e) (open_ : e.closing = false) :
    ∃ t : State, execEncSessionClose c s = .next t ∧ ∀ x ∈ t.encs, x.handle = e.handle → x.closing = true := by
  unfold execEncSessionClose
  refine ⟨_, runCmd_waits ha (by rw [needEnc_of_enc he, ok_bind, need_bind_true (by simp [open_])]), fun x hx own => ?_⟩
  have kept (u : State) (r : CmdRef) : u.EncsFollow (u.keepInFlight r) := .of_eq ((State.keepInFlight_only (.refl [.host] u) (by simp) r).encs_eq (by simp))
  obtain ⟨y, -, -, follows⟩ :=
    (((kept _ _).trans (State.encsFollow_encFinishClose _ e.handle)).trans (State.encsFollow_jmSettle _)).of_mapEnc hx own
  exact follows.keep (π := EncSession.closing)

end Sys2Proof.Machine
end

section
/-!
SUPPORT. The commands that steer a session: ENC_SET_RATE (R212), ENC_FORCE_IDR (R200) and ENC_REF_MARK (R205).
-/
namespace Sys2Proof.Machine

set_option Elab.async false

variable {c : Cmd} {s : State} {e : EncSession} (he : s.enc c.handle = some e) (sound : e.faulted = false) (open_ : e.closing = false) (runs : e.ended = false)
include he sound open_ runs

theorem execEncSetRate_stages {r : List Byte} (ha : Accepted .encSetRate c s) (hr : structBytes s c = .ok r)
    (fields : firstBad (rateFields r 0 ++ rateLimits e.blk r) = none) : ∃ u : State,
    execEncSetRate c s = .next (u.complete (ref .encSetRate c) .ok (e.seqNext % 2 ^ 32) 0 false) ∧ Only [.encs, .jm, .host, .mgmt] s u ∧
      ∃ y, u.enc c.handle = some y ∧ { y with rateBound := e.rateBound } = { e with rateNext := some r } := by
  have staged : ((s.mapEnc e.handle (fun x => { x with rateNext := some r })).enc c.handle) = some { e with rateNext := some r } :=
    State.enc_mapEnc he
  obtain ⟨y, hy, same⟩ := Option.map_eq_some_iff.mp ((State.enc_jmRates _ c.handle).trans (congrArg (Option.map EncSession.unbound) staged))
  refine ⟨_, ?_, State.jmRates_only ((s.mapEnc_only ..).mono (by simp)) (by simp), y, hy,
    congrArg (fun x : EncSession => { x with rateBound := e.rateBound }) same⟩
  unfold execEncSetRate
  refine runCmd_done ha ?_
  rw [needEnc_of_enc he, ok_bind, hr, ok_bind, needFields_of_firstBad fields, ok_bind, need_bind_true (by simp [sound]),
    need_bind_true (by simp [open_, runs])]
  rfl

/-- The target of a forced IDR: the frame given, or the soonest where that has passed or the next is asked for (R200). -/
def idrTarget (c : Cmd) (e : EncSession) : IdrTarget :=
  { fn := if bitOf (par c 1) 0 = true ∨ (bitOf (par c 1) 0 = false ∧ par c 0 < e.gopNext) then roundUp e.gopNext e.every else par c 0,
    by_ := ref .encForceIdr c, adjusted := decide (bitOf (par c 1) 0 = false ∧ par c 0 < e.gopNext) }

theorem execEncForceIdr_targets (ha : Accepted .encForceIdr c s) (may : ¬ ((bitOf (par c 1) 0 = false ∧ par c 0 < e.gopNext) ∧ strict c = true)) : ∃ u : State,
    execEncForceIdr c s = .next (u.keepInFlight (ref .encForceIdr c)) ∧ Only [.encs] s u ∧
      u.enc c.handle = some { e with targets := e.targets ++ [idrTarget c e] } := by
  have late : (!bitOf (par c 1) 0 && Nat.blt (par c 0) e.gopNext) = decide (bitOf (par c 1) 0 = false ∧ par c 0 < e.gopNext) := by
    rw [Bool.eq_iff_iff]
    simp [Nat.blt_eq]
  refine ⟨s.mapEnc e.handle (fun x => { x with targets := x.targets ++ [idrTarget c e] }), ?_, s.mapEnc_only .., State.enc_mapEnc he⟩
  unfold execEncForceIdr
  refine runCmd_waits ha ?_
  simp only [needEnc_of_enc he, ok_bind, sound, open_, runs, late, Bool.not_false, Bool.or_self, need_bind_true]
  have allowed : (!(decide (bitOf (par c 1) 0 = false ∧ par c 0 < e.gopNext) && strict c)) = true := by
    by_contra refused
    exact may (by simpa using refused)
  rw [need_bind_true allowed]
  simp only [Bool.or_eq_true, decide_eq_true_eq]
  rfl

theorem execEncForceIdr_tooLate (ha : Accepted .encForceIdr c s) (late : bitOf (par c 1) 0 = false ∧ par c 0 < e.gopNext) (exact_ : strict c = true) :
    execEncForceIdr c s = .next (s.complete (ref .encForceIdr c) .tooLate (roundUp e.gopNext e.every % 2 ^ 32) 0 false) := by
  unfold execEncForceIdr
  refine runCmd_refuses (f := tooLate (roundUp e.gopNext e.every % 2 ^ 32)) ha (by simp) ?_ rfl
  rw [needEnc_of_enc he, ok_bind, need_bind_true (by simp [sound]), need_bind_true (by simp [open_, runs])]
  exact need_bind_false (by simp [late, exact_, Nat.blt_eq]) _ _

/-- The references of a session after a mark of one of them. -/
def EncSession.marked (e : EncSession) (p : RefPic) (op n : Nat) : List RefPic :=
  match op with
  | 0 => e.refs.map (fun r => if r.fn = p.fn then { r with long := some n } else if r.long = some n then { r with long := none } else r)
  | 1 => e.refs.map (fun r => if r.fn = p.fn then { r with long := none } else r)
  | _ => e.refs.filter (fun r => Nat.blt r.fn p.fn)

theorem execEncRefMark_marks {p : RefPic} {op n : Nat} {refs : List RefPic} (ha : Accepted .encRefMark c s) (hp : e.refs.find? (fun r => r.fn % 2 ^ 32 == par c 0) = some p)
    (ho : bitsOf (par c 1) 1 0 = op) (hn : bitsOf (par c 1) 5 4 = n) (known : op ≠ 3) (inside : op = 0 → n < sbLtr e.blk) (new : e.marked p op n = refs) :
    ∃ u : State, execEncRefMark c s = .next (u.complete (ref .encRefMark c) .ok 0 0 false) ∧ u.enc c.handle = some { e with refs := refs }.trim ∧ Only [.encs] s u := by
  have some_ : (!(op == 0 && sbLtr e.blk == 0)) = true := by
    by_cases zero : op = 0
    · have := inside zero
      simp [zero]
      omega
    · simp [zero]
  have index : (op != 0 || Nat.blt n (sbLtr e.blk)) = true := by
    by_cases zero : op = 0
    · simp [Nat.blt_eq.mpr (inside zero)]
    · simp [zero]
  subst new
  refine ⟨s.mapEnc e.handle (fun x => { x with refs := e.marked p op n }.trim), ?_, State.enc_mapEnc he, s.mapEnc_only ..⟩
  unfold execEncRefMark
  refine runCmd_done ha ?_
  simp only [needEnc_of_enc he, ok_bind, ho, hn, bne_iff_ne.mpr known, sound, open_, runs, some_, index, hp, needSome_bind_some, Bool.not_false, Bool.or_self,
    need_bind_true, updWhere, beq_iff_eq]
  rfl

end Sys2Proof.Machine
end

section
/-!
SUPPORT. The pictures of a session (R201, R216): the next one, its start on a role, and a picture that an encoder core has lost.
-/
namespace Sys2Proof.Machine

set_option Elab.async false

variable {s : State} {e : EncSession} {r : Fin 8}

/-! ### The next picture -/

/-- A mini-GOP that is formed keeps what the session is and its rate block. -/
theorem EncSession.form_keeps (n : Nat) (e : EncSession) : ((e.form n).handle, (e.form n).rate) = (e.handle, e.rate) := by
  induction n generalizing e with
  | zero => rfl
  | succ n ih =>
    unfold EncSession.form
    split
    · rfl
    · split
      · rfl
      · exact ih _
      · rfl
      · rfl

theorem EncSession.formed_handle (e : EncSession) : e.formed.handle = e.handle := congrArg Prod.fst (EncSession.form_keeps _ e)

theorem EncSession.formed_rate (e : EncSession) : e.formed.rate = e.rate := congrArg Prod.snd (EncSession.form_keeps _ e)

/-- The session that a free role takes a picture of is one of the state, as its next picture finds it (R201). -/
theorem State.encPick_some (pick : s.encPick = some e) : ∃ x ∈ s.encs, e = s.encView x ∧ e.codable.isSome = true := by
  obtain ⟨⟨d, y⟩, least, rfl⟩ := Option.map_eq_some_iff.mp pick
  obtain ⟨x, hx, found⟩ := List.mem_filterMap.mp (minBy_spec least).1
  obtain ⟨d', codable, pair⟩ := Option.map_eq_some_iff.mp found
  cases pair
  exact ⟨x, hx, rfl, by rw [codable]; rfl⟩

theorem EncSession.next_of_codable (codable : e.codable.isSome = true) (fresh : e.orphan = none) : ∃ n, e.formed.next = some n := by
  unfold EncSession.codable at codable
  rw [fresh] at codable
  dsimp only at codable
  split at codable
  · cases codable
  · split at codable
    · cases codable
    next n next => exact ⟨n, next⟩

/-! ### Its start -/

theorem EncSession.start_next {n : EncNext} (next : e.formed.next = some n) (role epoch now : Nat) : (e.start role epoch now).handle = e.handle ∧
    (e.start role epoch now).seqNext = e.formed.seqNext + 1 ∧ ∃ q, (e.start role epoch now).pics = e.formed.pics ++ [q] ∧ q.fn = n.frame.fn ∧ q.type = n.type ∧
      q.layer = n.layer ∧ q.budget = n.plan.1 ∧ q.qpBase = n.plan.2.2 ∧ q.role = some role ∧ q.epoch = epoch ∧ q.startNs = now ∧ q.rate = e.rate ∧
      q.seq = e.formed.seqNext := by
  unfold EncSession.start
  dsimp only
  rw [next]
  exact ⟨e.formed_handle, rfl, _, rfl, rfl, rfl, rfl, rfl, rfl, rfl, rfl, rfl, e.formed_rate, rfl⟩

section
variable (unit : (s.mgmt.units.unitOf .encU r.val).isSome = true) (free : s.encBusy r.val = false) (pick : s.encPick = some e)
include unit free pick

theorem execEncPictureStart_next (fresh : e.orphan = none) (clean : s.mem.mem.poisonIn (e.base + sbPoolOff e.blk) 4096 = none) :
    ∃ (t : State) (x : EncSession) (n : EncNext) (q : EncPic), execEncPictureStart r s = .next t ∧ e.formed.next = some n ∧ x ∈ t.encs ∧ x.handle = e.handle ∧
      x.pics = e.formed.pics ++ [q] ∧ q.fn = n.frame.fn ∧ q.type = n.type ∧ q.layer = n.layer ∧ q.budget = n.plan.1 ∧ q.qpBase = n.plan.2.2 ∧
      q.role = some r.val ∧ q.epoch = s.mgmt.units.epochOf .encU r.val ∧ q.startNs = s.ns ∧ q.rate = e.rate ∧ q.seq = e.formed.seqNext ∧
      x.seqNext = e.formed.seqNext + 1 ∧ Only [.encs, .fabric] s t := by
  obtain ⟨y, hy, view, codable⟩ := State.encPick_some pick
  have own : y.handle = e.handle := by rw [view]; rfl
  obtain ⟨n, next⟩ := EncSession.next_of_codable codable fresh
  obtain ⟨handle, seqNext, q, pics, fn, type, layer, budget, qpBase, role, epoch, startNs, rate, seq⟩ :=
    EncSession.start_next next r.val (s.mgmt.units.epochOf .encU r.val) s.ns
  unfold execEncPictureStart
  rw [if_neg (by simp [Option.isSome_iff_ne_none.mp unit, free]), pick]
  dsimp only
  rw [fresh, clean]
  dsimp only
  rw [if_neg (show ¬ (none : Option Nat).isSome = true by simp)]
  exact ⟨_, _, n, q, rfl, next, State.mem_mapEnc_of_mem _ hy own, handle, pics, fn, type, layer, budget, qpBase, role, epoch, startNs, rate, seq, seqNext,
    State.requests_only ((s.mapEnc_only ..).mono (by simp)) (by simp) _⟩

theorem execEncPictureStart_again {q : EncPic} (orphan : e.orphan = some q) : ∃ t : State, execEncPictureStart r s = .next t ∧
    (∃ x ∈ t.encs, x.handle = e.handle ∧ ∀ p ∈ x.pics, p.seq = q.seq → p.role = some r.val ∧ p.epoch = s.mgmt.units.epochOf .encU r.val) ∧
      Only [.encs, .fabric] s t := by
  obtain ⟨y, hy, view, -⟩ := State.encPick_some pick
  have own : y.handle = e.handle := by rw [view]; rfl
  unfold execEncPictureStart
  rw [if_neg (by simp [Option.isSome_iff_ne_none.mp unit, free]), pick]
  dsimp only
  rw [orphan]
  refine ⟨_, rfl, ⟨_, State.mem_mapEnc_of_mem _ hy own, own, fun p hp same => ?_⟩, State.requests_only ((s.mapEnc_only ..).mono (by simp)) (by simp) _⟩
  obtain ⟨x, -, rfl⟩ := List.mem_map.mp hp
  by_cases mine : x.seq = q.seq
  · simp [mine]
  · exact absurd same (by simp [mine])

end

/-! ### The death of its core -/

/-- A core that holds its picture too long is fenced, and every picture of its role is coded again (R216). -/
theorem execEncWatchdog_fences {p : Nat} (busy : s.encBusy r.val = true) (filled : s.mgmt.units.unitOf .encU r.val = some p)
    (holds : s.mgmt.units.roleOf .encU p = some r.val) : ∃ t : State, execEncWatchdog r s = .next t ∧ (t.mgmt.units.unit .encU p).state = .fenced ∧
      t.mgmt.units.epochOf .encU r.val = nextEpoch (s.mgmt.units.epochOf .encU r.val) ∧
      (∀ x ∈ t.encs, ∀ q ∈ x.pics, q.role = some r.val → q.redone = true ∧ q.epoch = t.mgmt.units.epochOf .encU r.val) ∧
      Only [.encs, .mgmt, .host] s t := by
  obtain ⟨fenced, epoch⟩ := State.replaceUnit_fences filled holds Status.hardwareFault.code
  refine ⟨_, if_pos busy, fenced, epoch, fun x hx q hq mine => ?_, (State.replaceUnit_only (.refl _ s) (by simp) (by simp) ..).encs (by simp) _⟩
  obtain ⟨y, -, rfl⟩ := List.mem_map.mp hx
  obtain ⟨q0, -, rfl⟩ := List.mem_map.mp hq
  by_cases lost : q0.role = some r.val
  · simp only [lost, BEq.rfl, if_true]
    exact ⟨trivial, rfl⟩
  · exact absurd mine (by simp [lost])

end Sys2Proof.Machine
end

section
/-!
SUPPORT. The end of a picture (R202, R206 to R210, R213 to R215): its commit, the poll of the rings, and a picture that is dropped for want of room.
-/
namespace Sys2Proof.Machine

set_option Elab.async false

variable {s t : State} {e : EncSession} {r : Fin 8} {ps : List Part}

/-! ### Commit -/

theorem State.ringPut_only (h : Only ps s t) (hb : Part.bytes ∈ ps) (ring area : Nat) (pos : RingPos) (bs : List Byte) :
    Only ps s (t.ringPut ring area pos bs).1 := by
  unfold State.ringPut
  split
  · exact h.writeMem hb ..
  · exact (h.writeMem hb ..).writeMem hb ..

theorem State.ringPuts_only (h : Only ps s t) (hb : Part.bytes ∈ ps) (ring area : Nat) (pos : RingPos) (rs : List (List Byte)) :
    Only ps s (t.ringPuts ring area pos rs).1 :=
  List.foldlRecOn (motive := fun a : State × RingPos => Only ps s a.1) rs _ h fun _ h _ _ => State.ringPut_only h hb ..

theorem State.writeKcs_only (h : Only ps s t) (hb : Part.bytes ∈ ps) (k : KcsInfo) (a : Nat) (pic : Nat → Nat → Nat → Nat) :
    Only ps s (t.writeKcs k a pic) :=
  Only.foldl _ (fun _ _ h => h.writeMem hb ..) _ _ ((h.writeMem hb ..).writeMem hb ..)

/-- The commit of a picture changes its session as R203, R206, R208 and R210 say; what ends after it leaves no session that does not follow. -/
theorem State.encCommit_follows (s : State) (e : EncSession) (q : EncPic) (f : EncFrame) (role : Nat) (au : List Byte) (n : PicResult)
    (recon : List (List Nat)) : ∃ (late : Bool) (wr rd : RingPos),
    (s.mapEnc e.handle (fun x => x.commit q f n late wr rd)).EncsFollow (s.encCommit e q f role au n recon) := by
  unfold State.encCommit
  extract_lets late flags rec_ g w off t1 stat t2 pic t3 t4 t5 due t6
  refine ⟨late, w.2, t4.readPos e.ringAddr, ?_⟩
  have ring : Only [.bytes, .fabric] s w.1 := State.ringPut_only (State.ringPuts_only (.refl _ s) (by simp) ..) (by simp) ..
  have recorded : Only [.bytes, .fabric] s t2 := (ring.writeMem (by simp) ..).writeMem (by simp) ..
  have rebuilt : Only [.bytes, .fabric] s t3 := by
    unfold t3
    split
    · exact State.writeKcs_only recorded (by simp) ..
    · exact recorded
  have written : Only [.bytes, .fabric] s t4 := State.writes_only (State.settleTraffic_only rebuilt (by simp) _) (by simp) ..
  have forced : t6.encs = t5.encs :=
    (Only.foldl _ (fun _ _ h => State.finish_only h (by simp) (by simp) ..) _ _ (.refl [.host, .mgmt] t5)).encs_eq (by simp)
  have committed : t6.encs = (s.mapEnc e.handle (fun x => x.commit q f n late w.2 (t4.readPos e.ringAddr))).encs :=
    forced.trans (State.mapEnc_encs_congr (written.encs_eq (by simp)) ..)
  exact (((State.EncsFollow.of_eq committed).trans (t6.encsFollow_encFinishClose e.handle)).trans (State.encsFollow_jmRates _)).trans
    (State.encsFollow_jmSettle _)

theorem execEncPictureCommit_stale {epoch : Nat} (stale : epoch ≠ s.mgmt.units.epochOf .encU r.val) (bs : List Byte) (cs : List EncCtu)
    (recon : List (List Nat)) : execEncPictureCommit r bs { epoch := epoch, ctus := cs } recon s = .next (s.dropStale (unitHandle 0x05 r.val) epoch) :=
  if_pos (by simpa using stale)

theorem execEncPictureCommit_commits {epoch : Nat} {bs : List Byte} {cs : List EncCtu} {recon : List (List Nat)} {q : EncPic} {f : EncFrame} {n : PicResult}
    (now : epoch = s.mgmt.units.epochOf .encU r.val) (session : s.encs.find? (fun e => (e.onRole r.val).isSome) = some e) (pic : e.onRole r.val = some q)
    (turn : (e.pics.head?).map EncPic.seq = some q.seq) (frame : e.frames.find? (fun f => f.fn == q.fn) = some f)
    (result : s.picResult e q f (8 * (e.auHead q.type q.layer).length) cs = some n) (bits : n.bits = 8 * (e.auHead q.type q.layer ++ bs).length)
    (slices : e.slicesOk q.type q.layer bs = true)
    (room : e.roomFor (s.readPos e.ringAddr) (e.gapRecords ++ [e.auRecord q f (picFlags q f n (Nat.blt q.deadline s.ns)) (e.auHead q.type q.layer ++ bs)]) = true) :
    execEncPictureCommit r bs { epoch := epoch, ctus := cs } recon s = .next (s.encCommit e q f r.val (e.auHead q.type q.layer ++ bs) n recon) := by
  obtain ⟨first, head, seq⟩ := Option.map_eq_some_iff.mp turn
  unfold execEncPictureCommit
  rw [if_neg (by simp [now]), session]
  simp only [head, pic, Option.bind_some, frame, result]
  rw [if_pos (by simp only [seq, bits, slices, room, BEq.rfl, Bool.and_self])]

/-- No picture of a session that follows the commit has its SEQ, and the picture is counted (R215). -/
theorem State.encCommit_ends (s : State) (e : EncSession) (q : EncPic) (f : EncFrame) (role : Nat) (au : List Byte) (n : PicResult)
    (recon : List (List Nat)) {x : EncSession} (hx : x ∈ (s.encCommit e q f role au n recon).encs) (own : x.handle = e.handle) :
    (∀ p ∈ x.pics, p.seq ≠ q.seq) ∧ ∃ y ∈ s.encs, y.handle = e.handle ∧ x.cnt.pictures = y.cnt.pictures.satInc := by
  obtain ⟨late, wr, rd, follows⟩ := s.encCommit_follows e q f role au n recon
  obtain ⟨y, hy, same, near⟩ := follows.of_mapEnc hx own
  refine ⟨fun p hp => ?_, y, hy, same, near.keep (π := fun e => e.cnt.pictures)⟩
  rw [near.keep (π := EncSession.pics)] at hp
  simpa using (List.mem_filter.mp hp).2

/-! ### The rings, and a picture without room -/

theorem execEncRingPoll_reads (s : State) : ∃ t : State, execEncRingPoll s = .next t ∧ Only [.encs] s t ∧
    t.encs = s.encs.map (fun e => if e.released then e else { e with rd := s.readPos e.ringAddr }) := by
  refine ⟨_, rfl, (Only.refl _ s).encs (by simp) _, List.map_congr_left fun e _ => ?_⟩
  cases free : e.released <;> simp [free]

/-- A session v, formed as g, after its next picture is dropped: with the mini-GOP not begun its frame is as absent, else the frame leaves and is listed
(R214). -/
def EncSession.dropped (v g : EncSession) (fn : Nat) : EncSession :=
  { (if g.anchorDue then { v with frames := v.frames.map (fun f => if f.fn == fn then { f with present := some false, dropped := true } else f) }
     else { g with gop := g.gop.filter (· != fn), frames := g.frames.filter (fun f => f.fn != fn), gaps := g.gaps ++ [(fn, 2)], elapsed := g.elapsed + 1 }) with
    seqNext := v.seqNext + 1, answer := .none, cnt := { v.cnt with ringDrops := v.cnt.ringDrops.satInc } }

theorem EncSession.dropped_absent {v g : EncSession} (due : g.anchorDue = true) {fn : Nat} {f : EncFrame} (hf : f ∈ (v.dropped g fn).frames)
    (own : f.fn = fn) : f.dropped = true ∧ f.present = some false := by
  simp only [EncSession.dropped, due, if_true] at hf
  obtain ⟨g, -, rfl⟩ := List.mem_map.mp hf
  by_cases same : g.fn = fn
  · simp [same]
  · exact absurd own (by simp [same])

theorem EncSession.dropped_gap {v g : EncSession} (begun : g.anchorDue = false) (fn : Nat) : (fn, 2) ∈ (v.dropped g fn).gaps := by
  simp [EncSession.dropped, begun]

section
variable {h : Handle} {n : EncNext} (he : s.enc h = some e) (sound : e.faulted = false) (next : (s.encView e).formed.next = some n)
  (full : (s.encView e).formed.fits n.space = false) (due : n.deadline ≤ s.ns)
include he sound next full due

theorem execEncPictureDrop_drops : ∃ t : State, execEncPictureDrop h s = .next t ∧
    (s.mapEnc h (fun _ => (s.encView e).dropped (s.encView e).formed n.frame.fn)).EncsFollow t := by
  unfold execEncPictureDrop
  rw [he]
  dsimp only
  generalize (s.encView e).formed = g at next full ⊢
  generalize s.encView e = v
  rw [next]
  dsimp only
  rw [if_neg (by simp [sound, full, due])]
  refine ⟨_, rfl, ?_⟩
  refine ((State.EncsFollow.of_eq ?_).trans (State.encsFollow_encFinishClose _ h)).trans ((State.encsFollow_jmRates _).trans (State.encsFollow_jmSettle _))
  unfold EncSession.dropped
  exact State.mapEnc_encs_congr ((State.releaseEncFrame_encs ..).trans (State.writeMem_encs ..)) ..

/-- The drop is counted, and the frame is as absent or listed as a gap (R213, R214). -/
theorem execEncPictureDrop_counts : ∃ t : State, execEncPictureDrop h s = .next t ∧
    ∀ x ∈ t.encs, x.handle = h → x.seqNext = (s.encView e).seqNext + 1 ∧ x.cnt.ringDrops = (s.encView e).cnt.ringDrops.satInc ∧
      ((s.encView e).formed.anchorDue = true → ∀ f ∈ x.frames, f.fn = n.frame.fn → f.dropped = true ∧ f.present = some false) ∧
      ((s.encView e).formed.anchorDue = false → (n.frame.fn, 2) ∈ x.gaps) := by
  obtain ⟨t, step, follows⟩ := execEncPictureDrop_drops he sound next full due
  generalize (s.encView e).formed = g at follows ⊢
  generalize s.encView e = v at follows ⊢
  refine ⟨t, step, fun x hx own => ?_⟩
  obtain ⟨y, -, -, near⟩ := follows.of_mapEnc hx own
  refine ⟨near.keep (π := EncSession.seqNext), near.keep (π := fun e => e.cnt.ringDrops),
    fun absent f hf => EncSession.dropped_absent absent (near.frames hf), fun begun => ?_⟩
  rw [near.keep (π := EncSession.gaps)]
  exact EncSession.dropped_gap begun _

end

end Sys2Proof.Machine

namespace Sys2Proof

set_option Elab.async false

open Machine

/-- Settles O45: each command runs through its checks to the one session that it changes, each event of an encoder role to its picture; what a picture's or a
session's end sets off keeps what is said of the sessions (log 36 for what the core reports). -/
theorem encodeSessionsAndPictures : Obligations.EncodeSessionsAndPictures := by
  unfold Obligations.EncodeSessionsAndPictures
  intro c s
  refine ⟨fun cam b o ha hf hb fields few state out takes slots idr size rate unit budget => ⟨fun query aux => ?_,
      fun y opens ht hy ring ringIn statIn pool poolIn ringStat ringPool statPool free => ?_⟩,
    fun e he => ⟨fun ha => ⟨fun again => ?_, fun open_ => ?_⟩, fun sound open_ runs => ⟨fun r ha hr fields => ?_,
      fun ha => ⟨fun late exact_ => ?_, fun may => ?_⟩, fun p ha hp => ⟨fun long inside => ?_, fun short => ?_, fun excluded => ?_⟩⟩⟩,
    fun r e unit free pick => ⟨fun fresh clean => ?_, fun q orphan => ?_⟩,
    fun r epoch bs cs recon => ⟨fun stale => ?_, fun e q f n now session pic turn frame result bits slices room => ?_⟩, ?_,
    fun h e n he sound next full due => ?_, fun r p busy filled holds => ?_⟩
  · exact execEncSessionOpen_query ha hf hb fields few state out takes slots idr size rate unit budget query aux
  · refine ⟨_, newEncSession s c cam b o y, execEncSessionOpen_opens ha hf hb fields few state out takes slots idr size rate unit budget opens ht hy ring ringIn
      statIn pool poolIn ringStat ringPool statPool free, s.addEnc_encs .., rfl, rfl, rfl, rfl, rfl, rfl, ?_, fun lt => ?_, s.addEnc_only ..⟩
    · simp [newEncSession]
    · exact s.addEnc_consumers (Nat.mod_lt _ (by decide)) lt
  · exact execEncSessionClose_again ha he again
  · exact execEncSessionClose_closes ha he open_
  · exact execEncSetRate_stages he sound open_ runs ha hr fields
  · exact execEncForceIdr_tooLate he sound open_ runs ha late exact_
  · exact execEncForceIdr_targets he sound open_ runs ha may
  · exact execEncRefMark_marks he sound open_ runs ha hp long rfl (by decide) (fun _ => inside) rfl
  · exact execEncRefMark_marks he sound open_ runs ha hp short rfl (by decide) (by simp) rfl
  · exact execEncRefMark_marks he sound open_ runs ha hp excluded rfl (by decide) (by simp) rfl
  · exact execEncPictureStart_next unit free pick fresh clean
  · exact execEncPictureStart_again unit free pick orphan
  · exact execEncPictureCommit_stale stale bs cs recon
  · exact ⟨_, execEncPictureCommit_commits now session pic turn frame result bits slices room, fun x hx own => s.encCommit_ends e q f r.val _ n recon hx own⟩
  · exact execEncRingPoll_reads s
  · exact execEncPictureDrop_counts he sound next full due
  · exact execEncWatchdog_fences busy filled holds

end Sys2Proof
end

section
/-!
SUPPORT. Decode sessions under the updates of the state: the session of a handle, and what the ends of streams and the end of a closing session leave of one
(R222, R237).
-/
namespace Sys2Proof

set_option Elab.async false

open Machine

theorem Only.dec_eq {ps : List Part} {s t : State} (h : Only ps s t) (hd : Part.dec ∉ ps) : t.dec = s.dec := h.same .dec hd

end Sys2Proof

namespace Sys2Proof.Machine

set_option Elab.async false

variable {s t u : State} {h k : Handle} {e x y z : DecSession} {ps : List Part}

/-! ### The session of a handle -/

theorem State.handle_of_decSession (he : s.decSession h = some e) : e.handle = h := by
  simpa using List.find?_some he

theorem needDec_of_decSession (he : s.decSession h = some e) : needDec s h = .ok e := by
  unfold needDec
  rw [he]
  rfl

theorem State.decSession_congr (same : t.dec = s.dec) (h : Handle) : t.decSession h = s.decSession h := by
  unfold State.decSession
  rw [same]

theorem State.decSession_mapDec {f : DecSession → DecSession} (keeps : ∀ x, (f x).handle = x.handle) (s : State) (h : Handle) :
    (s.mapDec h f).decSession h = (s.decSession h).map f :=
  find?_updWhere (p := fun x : DecSession => x.handle == h) (fun x => by rw [keeps]) s.dec.sessions

theorem State.decSession_mapDec_some {f : DecSession → DecSession} (he : s.decSession h = some e) (own : k = h)
    (keeps : ∀ x, (f x).handle = x.handle := by exact fun _ => rfl) : (s.mapDec k f).decSession h = some (f e) := by
  rw [own, State.decSession_mapDec keeps, he]
  rfl

theorem State.mem_mapDec {f : DecSession → DecSession} (hx : x ∈ (s.mapDec h f).dec.sessions) :
    ∃ y ∈ s.dec.sessions, (y.handle = h ∧ x = f y) ∨ (y.handle ≠ h ∧ x = y) := by
  obtain ⟨y, hy, rfl⟩ := mem_updWhere.mp hx
  by_cases own : y.handle = h
  · exact ⟨y, hy, .inl ⟨own, by simp [own]⟩⟩
  · exact ⟨y, hy, .inr ⟨own, by simp [own]⟩⟩

theorem State.mem_mapDec_of_mem (f : DecSession → DecSession) (he : e ∈ s.dec.sessions) : f e ∈ (s.mapDec e.handle f).dec.sessions :=
  mem_updWhere.mpr ⟨e, he, by simp⟩

theorem State.mapDec_dec_congr (same : t.dec = s.dec) (h : Handle) (f : DecSession → DecSession) : (t.mapDec h f).dec = (s.mapDec h f).dec := by
  unfold State.mapDec
  rw [same]

theorem State.mapDec_mapDec {f : DecSession → DecSession} (keeps : ∀ x, (f x).handle = x.handle) (s : State) (h : Handle) (g : DecSession → DecSession) :
    (s.mapDec h f).mapDec h g = s.mapDec h (g ∘ f) := by
  have twice : updWhere (fun e => e.handle == h) g (updWhere (fun e => e.handle == h) f s.dec.sessions) =
      updWhere (fun e => e.handle == h) (g ∘ f) s.dec.sessions := by
    unfold updWhere
    rw [List.map_map]
    refine List.map_congr_left fun x _ => ?_
    by_cases own : x.handle = h <;> simp [own, keeps]
  unfold State.mapDec
  dsimp only
  rw [twice]

theorem State.mapDec_only (hs : Only ps s t) (hd : Part.dec ∈ ps) (h : Handle) (f : DecSession → DecSession) : Only ps s (t.mapDec h f) := hs.dec hd _

/-! ### What the ends of streams keep -/

/-- A session but for its ring, and for what changes when the ends of its streams are reached and its drains complete (R222). -/
def DecSession.lasting (e : DecSession) : DecSession :=
  { e with waiting := [], drains := [], outs := [], pushed := 0, lastOut := none, pool := [], headSince := none, ring := Ring.absent }

/-- A session follows another where it is the same but for that, and puts out the same pictures unless something waited in the other. -/
structure DecSession.Follows (y x : DecSession) : Prop where
  lasting : x.lasting = y.lasting
  still : y.waiting = [] → x.waiting = [] ∧ x.outs = y.outs

theorem DecSession.Follows.refl (x : DecSession) : x.Follows x := ⟨rfl, fun none_ => ⟨none_, rfl⟩⟩

theorem DecSession.Follows.trans (h : z.Follows y) (k : y.Follows x) : z.Follows x := by
  refine ⟨k.lasting.trans h.lasting, fun none_ => ?_⟩
  obtain ⟨waits, outs⟩ := h.still none_
  obtain ⟨waits', outs'⟩ := k.still waits
  exact ⟨waits', outs'.trans outs⟩

/-- What does not depend on what a session may lose is the same in the one that follows. -/
theorem DecSession.Follows.keep {α : Type} {π : DecSession → α} (h : y.Follows x)
    (blind : ∀ e : DecSession, π e.lasting = π e := by exact fun _ => rfl) : π x = π y := by
  rw [← blind x, h.lasting, blind]

theorem DecSession.lasting_bump (more : DecSession → Bool) (n : Nat) (e : DecSession) : (DecSession.bump more n e).lasting = e.lasting := by
  induction n generalizing e with
  | zero => rfl
  | succ n ih =>
    unfold DecSession.bump
    split
    · split
      · exact ih _
      · rfl
    · rfl

theorem DecSession.lasting_flushAll (e : DecSession) : e.flushAll.lasting = e.lasting := DecSession.lasting_bump ..

theorem DecSession.follows_advance (ns : Nat) (e : DecSession) : e.Follows (e.advance ns) := by
  unfold DecSession.advance
  extract_lets lead f x
  have same : x.lasting = e.lasting := by
    unfold x
    split
    · rfl
    · exact e.lasting_flushAll
  refine ⟨same, fun none_ => ?_⟩
  have stays : x = e := if_pos (by simp [lead, none_])
  exact ⟨(congrArg DecSession.waiting stays).trans none_, show x.outs = e.outs by rw [stays]⟩

/-- A session whose stream's ends have been reached and whose completed drains have gone. -/
def DecSession.advanced (ns : Nat) (left : DecDrain → Bool) (e : DecSession) : DecSession :=
  { e.advance ns with drains := (e.advance ns).drains.filter left }

theorem DecSession.follows_advanced (ns : Nat) (left : DecDrain → Bool) (e : DecSession) : e.Follows (e.advanced ns left) :=
  (e.follows_advance ns).trans ⟨rfl, fun none_ => ⟨none_, rfl⟩⟩

/-! ### The state after them -/

/-- The sessions but for those of a handle. -/
def DecSt.without (d : DecSt) (h : Handle) : DecSt := { d with sessions := d.sessions.filter (fun x => x.handle != h) }

/-- The sessions of a handle advance; they end only where the session of that handle was closing. -/
theorem State.decAdvance_dec (h : Handle) (s : State) : ∃ left : DecDrain → Bool,
    (s.decAdvance h).dec = (s.mapDec h (DecSession.advanced s.ns left)).dec ∨
    (∃ e, s.decSession h = some e ∧ e.closing ≠ none) ∧ (s.decAdvance h).dec = (s.mapDec h (DecSession.advanced s.ns left)).dec.without h := by
  have handle (x : DecSession) : (x.advance s.ns).handle = x.handle := (x.follows_advance s.ns).keep (π := DecSession.handle)
  unfold State.decAdvance
  extract_lets t
  split
  next none_ =>
    have absent : s.decSession h = none := by simpa [t, State.decSession_mapDec handle] using none_
    refine ⟨fun _ => true, .inl ?_⟩
    have all : DecSession.advanced s.ns (fun _ => true) = DecSession.advance s.ns := by
      funext x
      simp [DecSession.advanced]
    rw [all]
  next e found =>
    extract_lets over_ t1 t2
    have finished : t1.dec = t.dec :=
      (Only.foldl _ (fun _ _ h => State.finish_only h (by simp) (by simp) ..) _ _ (.refl [.host, .mgmt] t)).dec_eq (by simp)
    have settled : t2.dec = (s.mapDec h (DecSession.advanced s.ns (fun d => !over_ d))).dec :=
      (State.mapDec_dec_congr finished ..).trans (congrArg State.dec (State.mapDec_mapDec handle s h _))
    refine ⟨fun d => !over_ d, ?_⟩
    split
    · exact .inl settled
    next r closing =>
      split
      · obtain ⟨x, hx, rfl⟩ := Option.map_eq_some_iff.mp ((State.decSession_mapDec handle s h).symm.trans found)
        have open_ : (x.advance s.ns).closing = x.closing := (x.follows_advance s.ns).keep (π := DecSession.closing)
        refine .inr ⟨⟨x, hx, by rw [← open_, closing]; simp⟩, ?_⟩
        exact ((State.finishOpt_only (.refl [.host, .mgmt] _) (by simp) (by simp) ..).dec_eq (by simp)).trans
          (congrArg (fun d : DecSt => d.without h) settled)
      · exact .inl settled

theorem State.decAdvance_only (hs : Only ps s t) (parts : [.dec, .host, .mgmt] ⊆ ps) (h : Handle) : Only ps s (t.decAdvance h) := by
  have hd := parts (a := .dec) (by simp)
  unfold State.decAdvance
  extract_lets t0
  have advanced : Only ps s t0 := State.mapDec_only hs hd ..
  split
  · exact advanced
  · extract_lets over_ t1 t2
    have drained : Only ps s t2 :=
      State.mapDec_only (Only.foldl _ (fun _ _ k => State.finish_only k (parts (by simp)) (parts (by simp)) ..) _ _ advanced) hd ..
    split
    · exact drained
    · exact .ite (State.finishOpt_only (drained.dec hd _) (parts (by simp)) (parts (by simp)) ..) drained

/-- Every session of a second state follows one of the first. -/
def State.DecsFollow (s t : State) : Prop := ∀ x ∈ t.dec.sessions, ∃ y ∈ s.dec.sessions, y.Follows x

theorem State.DecsFollow.of_eq (same : t.dec = s.dec) : s.DecsFollow t := fun x hx => ⟨x, same ▸ hx, .refl x⟩

theorem State.DecsFollow.trans (h : s.DecsFollow t) (k : t.DecsFollow u) : s.DecsFollow u := fun x hx => by
  obtain ⟨y, hy, near⟩ := k x hx
  obtain ⟨z, hz, far⟩ := h y hy
  exact ⟨z, hz, far.trans near⟩

theorem State.DecsFollow.mapDec {f : DecSession → DecSession} (follows : ∀ x : DecSession, x.Follows (f x)) (s : State) (h : Handle) :
    s.DecsFollow (s.mapDec h f) :=
  fun x hx => by
    obtain ⟨y, hy, ⟨-, rfl⟩ | ⟨-, rfl⟩⟩ := State.mem_mapDec hx
    · exact ⟨y, hy, follows y⟩
    · exact ⟨x, hy, .refl x⟩

theorem State.decsFollow_keepInFlight (r : CmdRef) (s : State) : s.DecsFollow (s.keepInFlight r) :=
  .of_eq ((State.keepInFlight_only (.refl [.host] s) (by simp) r).dec_eq (by simp))

/-- A session that follows one of an updated handle follows its update. -/
theorem State.DecsFollow.of_mapDec {f : DecSession → DecSession} (k : (s.mapDec h f).DecsFollow t)
    (hx : x ∈ t.dec.sessions) (own : x.handle = h) : ∃ y ∈ s.dec.sessions, y.handle = h ∧ (f y).Follows x := by
  obtain ⟨y, hy, follows⟩ := k x hx
  have same : y.handle = h := (follows.keep (π := DecSession.handle)).symm.trans own
  obtain ⟨z, hz, ⟨mine, rfl⟩ | ⟨other, rfl⟩⟩ := State.mem_mapDec hy
  · exact ⟨z, hz, mine, follows⟩
  · exact absurd same other

theorem State.decsFollow_decAdvance (h : Handle) (s : State) : s.DecsFollow (s.decAdvance h) := by
  obtain ⟨left, all | ⟨-, rest⟩⟩ := s.decAdvance_dec h
  · exact (State.DecsFollow.mapDec (DecSession.follows_advanced s.ns left) s h).trans (.of_eq all)
  · intro x hx
    rw [rest] at hx
    exact State.DecsFollow.mapDec (DecSession.follows_advanced s.ns left) s h x (List.mem_of_mem_filter hx)

/-- The session of a handle that is not closing stays, advanced. -/
theorem State.decSession_decAdvance (he : s.decSession h = some e) (own : k = h) (open_ : e.closing = none) :
    ∃ x, (s.decAdvance k).decSession h = some x ∧ e.Follows x := by
  subst own
  obtain ⟨left, all | ⟨⟨y, hy, closing⟩, -⟩⟩ := s.decAdvance_dec k
  · have handle (x : DecSession) : (x.advanced s.ns left).handle = x.handle := (x.follows_advanced s.ns left).keep (π := DecSession.handle)
    exact ⟨e.advanced s.ns left, (State.decSession_congr all k).trans (State.decSession_mapDec_some he rfl handle), e.follows_advanced ..⟩
  · rw [he] at hy
    cases hy
    exact absurd open_ closing

theorem State.decAdvance_arrivals (h : Handle) (s : State) : (s.decAdvance h).dec.arrivals = s.dec.arrivals := by
  obtain ⟨left, all | ⟨-, rest⟩⟩ := s.decAdvance_dec h
  · rw [all]
    rfl
  · rw [rest]
    rfl

end Sys2Proof.Machine
end

section
/-!
SUPPORT. DEC_SESSION_OPEN and DEC_SESSION_CLOSE (R219, R220, R237).
-/
namespace Sys2Proof.Machine

set_option Elab.async false

variable {c : Cmd} {s : State}

/-! ### DEC_SESSION_OPEN -/

/-- The session that a block opens, its areas in a buffer. -/
def newDecSession (s : State) (c : Cmd) (b : List Byte) (y : Buffer) : DecSession :=
  { handle := s.nextHandle 4, blk := b, buf := c.aux, base := y.base, charge := decCharge b, zeros := 0, inHeader := none, open_ := false, offset := 0,
    begun := 0, found := [], discont := false, sets := [], started := false, waitIrap := false, rasl := 0, waiting := [], curs := [], pool := [],
    alias_ := [], seqNo := 0, decSeq := 0, outs := [], pushed := 0, headSince := none, lastOut := none, outSeq := 0,
    ring := Ring.fresh 0 (y.base + f32 b 0x24) (dbSlotSize b) (dbSlots b), consumers := [], attrs := [], drains := [], closing := none, discarded := 0,
    written := 0, faulted := false, cnt := DecCounters.zero }

/-- A new session joins. -/
def State.addDec (s : State) (e : DecSession) : State := { s.issue 4 with dec := { s.dec with sessions := s.dec.sessions ++ [e] } }

theorem State.addDec_only (s : State) (e : DecSession) : Only [.dec, .issued] s (s.addDec e) := ((Only.refl _ s).issued (by simp) _).dec (by simp) _

/-- DEC_SESSION_OPEN of a block whose areas lie in the buffer: its charge and its session (R219, R220). -/
def placeDecSession (s : State) (c : Cmd) (b : List Byte) (y : Buffer) : Chk Done := do
  let budget := 2400 * s.mgmt.units.filled .decU
  let used := sumNat (s.dec.sessions.map DecSession.charge)
  need (decCharge b ≤ 2400 && decCharge b + used ≤ budget) (overBudget (decCharge b) (budget - used))
  needUnpinned s y.base y.size
  okDone (s.nextHandle 4).toNat (dbSlotSize b) (s.addDec (newDecSession s c b y))

section
variable {b : List Byte} {y : Buffer} (hb : structBytes s c = .ok b) (fields : firstBad (decFields b) = none) (few : s.dec.sessions.length < 16)
  (ht : typeOf c.aux = 1) (hy : s.buffer c.aux = some y) (pool : 4096 + (dbDpb b + 1) * dbBound b ≤ f32 b 0x20)
  (poolIn : f32 b 0x1C + f32 b 0x20 ≤ y.size) (ring : dbSlots b * dbSlotSize b ≤ f32 b 0x28) (ringIn : f32 b 0x24 + f32 b 0x28 ≤ y.size)
  (apart : meets (f32 b 0x1C) (f32 b 0x20) (f32 b 0x24) (f32 b 0x28) = false)
include hb fields few ht hy pool poolIn ring ringIn apart

theorem execDecSessionOpen_eq : execDecSessionOpen c s = runCmd .decSessionOpen c s (placeDecSession s c b y) := by
  unfold execDecSessionOpen
  refine congrArg (runCmd .decSessionOpen c s) ?_
  simp only [hb, ok_bind, needFields_of_firstBad fields, Nat.blt_eq.mpr few, needBuffer_of_buffer ht hy, pool, poolIn, ring, ringIn, apart, decide_true,
    Bool.not_false, Bool.and_self, need_bind_true]
  rfl

variable (ha : Accepted .decSessionOpen c s)
include ha

theorem execDecSessionOpen_overBudget
    (exceeds : ¬ (decCharge b ≤ 2400 ∧ decCharge b + sumNat (s.dec.sessions.map DecSession.charge) ≤ 2400 * s.mgmt.units.filled .decU)) :
    execDecSessionOpen c s = .next (s.complete (ref .decSessionOpen c) .budgetExceeded (decCharge b)
      (2400 * s.mgmt.units.filled .decU - sumNat (s.dec.sessions.map DecSession.charge)) false) := by
  rw [execDecSessionOpen_eq hb fields few ht hy pool poolIn ring ringIn apart]
  exact runCmd_refuses (f := overBudget (decCharge b) (2400 * s.mgmt.units.filled .decU - sumNat (s.dec.sessions.map DecSession.charge))) ha (by simp)
    (need_bind_false (by simpa using exceeds) _ _) rfl

theorem execDecSessionOpen_opens
    (fits : decCharge b ≤ 2400 ∧ decCharge b + sumNat (s.dec.sessions.map DecSession.charge) ≤ 2400 * s.mgmt.units.filled .decU)
    (free : needUnpinned s y.base y.size = .ok ()) :
    execDecSessionOpen c s = .next ((s.addDec (newDecSession s c b y)).complete (ref .decSessionOpen c) .ok (s.nextHandle 4).toNat (dbSlotSize b) false) := by
  rw [execDecSessionOpen_eq hb fields few ht hy pool poolIn ring ringIn apart]
  refine runCmd_done ha ?_
  unfold placeDecSession
  rw [need_bind_true (by simpa using fits), free, ok_bind]
  rfl

end

/-! ### DEC_SESSION_CLOSE -/

/-- A session that nothing shows and no drain awaits closes (R237). -/
theorem execDecSessionClose_closes {e : DecSession} (ha : Accepted .decSessionClose c s) (he : s.decSession c.handle = some e) (open_ : e.closing = none)
    (unbound : s.layerOn e.handle = none) (idle : e.pending = 0) : ∃ t : State, execDecSessionClose c s = .next t ∧
      (∀ x ∈ t.dec.sessions, x.handle = e.handle → x.closing = some (some (ref .decSessionClose c))) ∧ Only [.dec, .host, .mgmt] s t := by
  unfold execDecSessionClose
  refine ⟨?after, runCmd_waits ha ?rules, fun x hx own => ?closing, ?frame⟩
  case rules =>
    rw [needDec_of_decSession he, ok_bind, unbound]
    dsimp only
    rw [need_bind_true (by simp [open_]), need_bind_true (by simp [idle])]
  case closing =>
    obtain ⟨y, -, -, follows⟩ := ((State.decsFollow_keepInFlight _ _).trans (State.decsFollow_decAdvance e.handle _)).of_mapDec hx own
    rw [follows.keep (π := DecSession.closing)]
    split
    · rfl
    · split <;> rfl
  case frame => exact State.decAdvance_only (State.keepInFlight_only (State.mapDec_only (.refl _ s) (by simp) ..) (by simp) _) (by simp) _

end Sys2Proof.Machine
end

section
/-!
SUPPORT. DEC_SUBMIT OP 1 and OP 2 (R222, R234): slots are let go, and a stream ends.
-/
namespace Sys2Proof.Machine

set_option Elab.async false

variable {c : Cmd} {s : State} {e : DecSession} (ha : Accepted .decSubmit c s) (he : s.decSession c.handle = some e) (sound : e.faulted = false)
  (open_ : e.closing = none)
include ha he sound open_

omit ha he sound open_ in
theorem firstBad_ptrFields_none (ptr : c.ptr = 0) (len : c.ptrLen = 0) (space : c.ptrSpace = 0) : firstBad (ptrFields .none c) = none := by
  simp [ptrFields, firstBad, ptr, len, space]

section
variable (aux : c.aux = 0) (ptr : c.ptr = 0) (len : c.ptrLen = 0) (space : c.ptrSpace = 0) (items : List DecItem)
include aux ptr len space

theorem execDecSubmit_releases (op : par c 0 = 1) : ∃ (u : State) (n : Nat),
    execDecSubmit c items s = .next (u.complete (ref .decSubmit c) .ok n 0 false) ∧
      u.decSession c.handle = some { e with ring := e.ring.release 0 (fun q => q.fn % 2 ^ 32 ≤ par c 1) } ∧ Only [.dec] s u := by
  let ring := e.ring.release 0 (fun q => q.fn % 2 ^ 32 ≤ par c 1)
  refine ⟨s.mapDec e.handle (fun x => { x with ring := ring }), e.ring.inUse - ring.inUse, ?_, ?_, State.mapDec_only (.refl _ s) (by simp) ..⟩
  · unfold execDecSubmit
    refine runCmd_done ha ?_
    simp only [needDec_of_decSession he, ok_bind, op, aux, firstBad_ptrFields_none ptr len space, sound, open_]
    rfl
  · exact State.decSession_mapDec_some he (State.handle_of_decSession he)

theorem execDecSubmit_drains (op : par c 0 = 2) (zero : par c 1 = 0) (runs : s.stopping (ref .decSubmit c) = false) (few : e.pending < 64) : ∃ t : State,
    execDecSubmit c items s = .next t ∧ (∀ x ∈ t.dec.sessions, x.handle = e.handle → x.waitIrap = true) ∧ Only [.dec, .host, .mgmt] s t := by
  refine ⟨((s.mapDec e.handle (fun x => x.endStream (some (ref .decSubmit c, x.written)))).keepInFlight (ref .decSubmit c)).decAdvance e.handle, ?_,
    fun x hx own => ?_, State.decAdvance_only (State.keepInFlight_only (State.mapDec_only (.refl _ s) (by simp) ..) (by simp) _) (by simp) _⟩
  · unfold execDecSubmit
    refine runCmd_waits ha ?_
    simp only [needDec_of_decSession he, ok_bind, op, zero, aux, firstBad_ptrFields_none ptr len space, sound, open_, runs, Nat.blt_eq.mpr few]
    rfl
  · obtain ⟨y, -, -, follows⟩ := ((State.decsFollow_keepInFlight _ _).trans (State.decsFollow_decAdvance e.handle _)).of_mapDec hx own
    exact follows.keep (π := DecSession.waitIrap)

end

end Sys2Proof.Machine
end

section
/-!
SUPPORT. The parser of a session (R221, R222, R226): how a chunk moves the session's place in its stream, and the pictures that begin in it.
-/
namespace Sys2Proof.Machine

set_option Elab.async false

variable {e x y : DecSession} {items : List DecItem}

/-! ### The findings in their order -/

/-- Whether a picture begins at a finding. -/
def itemBegins : DecItem → Bool
  | .begin_ _ _ _ _ => true
  | .lost _ => true
  | _ => false

/-- The findings are in the order of their places. -/
def ItemsSorted (items : List DecItem) : Prop := items.Pairwise (fun a b => itemAt a ≤ itemAt b)

theorem lt_itemAt_of_mem_dropWhile {i : Nat} (sorted : ItemsSorted items) {t : DecItem} (ht : t ∈ items.dropWhile (fun t => Nat.ble (itemAt t) i)) :
    i < itemAt t := by
  induction items with
  | nil => cases ht
  | cons a l ih =>
    obtain ⟨least, rest⟩ := List.pairwise_cons.mp sorted
    by_cases early : itemAt a ≤ i
    · exact ih rest (by simpa [List.dropWhile_cons, Nat.ble_eq.mpr early] using ht)
    · have all : t ∈ a :: l := by simpa [List.dropWhile_cons, early] using ht
      rcases List.mem_cons.mp all with rfl | later
      · omega
      · have := least t later
        omega

/-! ### The place in the stream -/

/-- A session has parsed a number of bytes in which a number of pictures begin. -/
structure DecSession.Parsed (n k : Nat) (e x : DecSession) : Prop where
  handle : x.handle = e.handle
  closing : x.closing = e.closing
  offset : x.offset = e.offset + n
  begun : x.begun = e.begun + k

theorem DecSession.Parsed.trans {n k m j : Nat} (a : DecSession.Parsed n k e x) (b : DecSession.Parsed m j x y) : DecSession.Parsed (n + m) (k + j) e y :=
  ⟨b.handle.trans a.handle, b.closing.trans a.closing, by rw [b.offset, a.offset, Nat.add_assoc], by rw [b.begun, a.begun, Nat.add_assoc]⟩

/-- Counting moves nothing. -/
theorem DecSession.Parsed.count {n k : Nat} (h : DecSession.Parsed n k e x) (f : DecCounters → DecCounters) : DecSession.Parsed n k e (x.count f) :=
  ⟨h.handle, h.closing, h.offset, h.begun⟩

theorem DecSession.Parsed.detected {n k : Nat} (h : DecSession.Parsed n k e x) (cls : Nat) : DecSession.Parsed n k e (x.detected cls) :=
  ⟨h.handle, h.closing, h.offset, h.begun⟩

theorem DecSession.cut_parsed (e : DecSession) : DecSession.Parsed 0 0 e e.cut := by
  unfold DecSession.cut
  extract_lets x
  have found : DecSession.Parsed 0 0 e x := .detected ⟨rfl, rfl, rfl, rfl⟩ 6
  have shut : DecSession.Parsed 0 0 e (if x.open_ then x.discardNal else x) := by
    split
    · exact found.count _
    · exact found
  exact ⟨shut.handle, shut.closing, shut.offset, shut.begun⟩

theorem DecSession.header_parsed (e : DecSession) (b0 b1 : Nat) : DecSession.Parsed 0 0 e (e.header b0 b1) := by
  unfold DecSession.header
  dsimp only
  split
  · exact ⟨rfl, rfl, rfl, rfl⟩
  · split
    · exact ⟨rfl, rfl, rfl, rfl⟩
    · split
      · exact ⟨rfl, rfl, rfl, rfl⟩
      · split <;> exact ⟨rfl, rfl, rfl, rfl⟩

theorem DecSession.byte_parsed (e : DecSession) (b : Nat) : DecSession.Parsed 0 0 e (e.byte b) := by
  unfold DecSession.byte
  split
  · exact ⟨rfl, rfl, rfl, rfl⟩
  · exact e.header_parsed ..
  · split <;> exact ⟨rfl, rfl, rfl, rfl⟩

theorem DecSession.paramSet_parsed (e : DecSession) (k : DecSetKind) (id : Nat) (damaged : Bool) (x : DecSps) :
    DecSession.Parsed 0 0 e (e.paramSet k id damaged x) := by
  unfold DecSession.paramSet
  dsimp only
  split
  · split <;> exact ⟨rfl, rfl, rfl, rfl⟩
  · split <;> exact ⟨rfl, rfl, rfl, rfl⟩

/-- A picture begins at its first slice segment, whatever becomes of it (R227). -/
theorem DecSession.begin_parsed (e : DecSession) (arrival sps pps : Nat) (p : DecPicInfo) : DecSession.Parsed 0 1 e (e.begin arrival sps pps p) := by
  unfold DecSession.begin
  extract_lets src e1
  have next : DecSession.Parsed 0 1 e e1 := ⟨rfl, rfl, rfl, rfl⟩
  have lost : DecSession.Parsed 0 1 e e1.losePicture := next.count _
  have unknown : DecSession.Parsed 0 1 e (e1.detected 3).discardNal.losePicture := ((next.detected 3).count _).count _
  clear_value e1
  split
  · split
    · exact unknown
    · split
      · exact ⟨lost.handle, lost.closing, lost.offset, lost.begun⟩
      · dsimp only
        split
        · exact next.count _
        · split
          · exact next.count _
          · split
            · exact lost
            · exact ⟨next.handle, next.closing, next.offset, next.begun⟩
  · exact unknown

theorem DecSession.item_parsed (arrival : Nat) (e : DecSession) (i : DecItem) :
    DecSession.Parsed 0 (if itemBegins i then 1 else 0) e (DecSession.item arrival e i) := by
  cases i with
  | detect a cls =>
    unfold DecSession.item
    dsimp only
    rw [if_neg (by simp [itemBegins])]
    split
    · exact ⟨rfl, rfl, rfl, rfl⟩
    · split <;> exact ⟨rfl, rfl, rfl, rfl⟩
  | set a k id damaged sps => exact e.paramSet_parsed ..
  | begin_ a sps pps p => exact e.begin_parsed ..
  | lost a => exact ⟨rfl, rfl, rfl, rfl⟩

theorem DecSession.items_parsed (arrival : Nat) (items : List DecItem) (e : DecSession) :
    DecSession.Parsed 0 (items.countP itemBegins) e (items.foldl (DecSession.item arrival) e) := by
  induction items generalizing e with
  | nil => exact ⟨rfl, rfl, rfl, rfl⟩
  | cons i items ih =>
    have whole := (DecSession.item_parsed arrival e i).trans (ih _)
    rwa [Nat.zero_add, Nat.add_comm, ← List.countP_cons] at whole

/-- A chunk moves the place by its bytes; with its findings in order and inside it, each picture that begins in it is counted once. -/
theorem DecSession.chunk_parsed (m : Memory) (arrival n a i : Nat) (items : List DecItem) (e : DecSession) :
    ∃ k, DecSession.Parsed n k e (DecSession.chunk m arrival n a i items e) ∧
      (ItemsSorted items → (∀ t ∈ items, i ≤ itemAt t ∧ itemAt t < i + n) → k = items.countP itemBegins) := by
  induction n generalizing a i items e with
  | zero =>
    refine ⟨0, ⟨rfl, rfl, rfl, rfl⟩, fun _ inside => ?_⟩
    have none_ : items = [] := List.eq_nil_iff_forall_not_mem.mpr fun t ht => by
      have := inside t ht
      omega
    rw [none_]
    rfl
  | succ n ih =>
    unfold DecSession.chunk
    extract_lets here x src y now
    have cut : DecSession.Parsed 0 0 e x := by
      unfold x
      split <;> exact ⟨rfl, rfl, rfl, rfl⟩
    have read : DecSession.Parsed 0 0 x (if here then x else x.byte (m.byte a).toNat) := by
      split
      · exact ⟨rfl, rfl, rfl, rfl⟩
      · exact x.byte_parsed _
    have moved : DecSession.Parsed 1 0 e y :=
      ⟨read.handle.trans cut.handle, read.closing.trans cut.closing, congrArg (· + 1) cut.offset, read.begun.trans cut.begun⟩
    obtain ⟨k, rest, counted⟩ := ih (a + 1) (i + 1) (items.drop now.length) (now.foldl (DecSession.item arrival) y)
    have whole := (moved.trans (DecSession.items_parsed arrival now y)).trans rest
    refine ⟨_, by simpa [Nat.add_comm] using whole, fun sorted inside => ?_⟩
    have parts : now ++ items.drop now.length = items := List.prefix_iff_eq_append.mp (List.takeWhile_prefix _)
    have later : items.drop now.length = items.dropWhile (fun t => Nat.ble (itemAt t) i) :=
      List.append_cancel_left (parts.trans List.takeWhile_append_dropWhile.symm)
    have left := counted (sorted.sublist (List.drop_sublist ..)) fun t ht => by
      have := lt_itemAt_of_mem_dropWhile sorted (later ▸ ht)
      have := inside t (List.mem_of_mem_drop ht)
      omega
    rw [left, Nat.add_comm, ← List.countP_append, parts]

end Sys2Proof.Machine
end

section
/-!
SUPPORT. DEC_SUBMIT OP 0 (R221, R223): a session consumes a chunk, or the part of it that a reset of the queue leaves.
-/
namespace Sys2Proof.Machine

set_option Elab.async false

variable {c : Cmd} {s t : State} {h : Handle} {e : DecSession} {ps : List Part}

/-- A session as a chunk finds it: under DISCONT, and after a chunk that was left, an open NAL unit is discarded (R222, R223). -/
def DecSession.resumed (cut : Bool) (e : DecSession) : DecSession := if cut || e.discont then { e with discont := false }.cut else e

theorem DecSession.resumed_parsed (cut : Bool) (e : DecSession) : DecSession.Parsed 0 0 e (e.resumed cut) := by
  unfold DecSession.resumed
  split
  · have shut := DecSession.cut_parsed { e with discont := false }
    exact ⟨shut.handle, shut.closing, shut.offset, shut.begun⟩
  · exact ⟨rfl, rfl, rfl, rfl⟩

/-- A chunk moves its session's place (R221). -/
theorem State.decSession_parseChunk (he : s.decSession h = some e) (a n : Nat) (cut : Bool) (items : List DecItem) : ∃ (k : Nat) (x : DecSession),
    (s.parseChunk e.handle a n cut items).decSession h = some x ∧ DecSession.Parsed n k e x ∧
      (ItemsSorted items → (∀ t ∈ items, itemAt t < n) → k = items.countP itemBegins) := by
  have parsed (y : DecSession) : ∃ k, DecSession.Parsed n k y (DecSession.chunk s.mem.mem s.dec.arrivals n a 0 items (y.resumed cut)) ∧
      (ItemsSorted items → (∀ t ∈ items, 0 ≤ itemAt t ∧ itemAt t < 0 + n) → k = items.countP itemBegins) := by
    obtain ⟨k, moved, counted⟩ := DecSession.chunk_parsed s.mem.mem s.dec.arrivals n a 0 items (y.resumed cut)
    exact ⟨k, by simpa using (y.resumed_parsed cut).trans moved, counted⟩
  obtain ⟨k, moved, counted⟩ := parsed e
  exact ⟨k, _, State.decSession_mapDec_some he (State.handle_of_decSession he) fun y => (parsed y).elim fun _ p => p.1.handle, moved,
    fun sorted inside => counted sorted (by simpa using inside)⟩

theorem State.parseChunk_only (hs : Only ps s t) (hd : Part.dec ∈ ps) (hf : Part.fabric ∈ ps) (h : Handle) (a n : Nat) (cut : Bool) (items : List DecItem) :
    Only ps s (t.parseChunk h a n cut items) := State.requests_only ((hs.dec hd _).dec hd _) hf _

/-- A reset of the queue stops a chunk where a NAL unit ends (R223). -/
theorem State.stopsAt_mem (s : State) (a n : Nat) : s.stopsAt a n ∈ nalEnds (s.readMem a n) := by
  unfold State.stopsAt
  extract_lets ends
  have some_ : 0 < ends.length := by simp [ends, nalEnds]
  rw [List.getElem?_eq_getElem (Nat.mod_lt _ some_)]
  exact List.getElem_mem _

/-- A session after a chunk that is parsed whole; EOS in the command ends the stream behind it (R222). -/
def State.feed (c : Cmd) (e : DecSession) (items : List DecItem) (s : State) : State :=
  let t := s.parseChunk e.handle c.ptr.toNat c.ptrLen.toNat (bitOf (par c 0) 8) items
  if bitOf (par c 0) 9 then t.mapDec e.handle (fun x => x.endStream none) else t

/-- The pictures that begin in a chunk, as the command returns them (R221). -/
def State.begunIn (c : Cmd) (e : DecSession) (items : List DecItem) (s : State) : Nat :=
  (((s.parseChunk e.handle c.ptr.toNat c.ptrLen.toNat (bitOf (par c 0) 8) items).decSession e.handle).map (fun x => x.begun - e.begun)).getD 0

/-- A session after the part of a chunk that a reset of the queue leaves (R223). -/
def State.feedPart (c : Cmd) (e : DecSession) (items : List DecItem) (k : Nat) (s : State) : State :=
  (s.tickFresh.parseChunk e.handle c.ptr.toNat k (bitOf (par c 0) 8) items).mapDec e.handle (fun x => { x with discont := true })

theorem State.feed_only (hs : Only ps s t) (hd : Part.dec ∈ ps) (hf : Part.fabric ∈ ps) (c : Cmd) (e : DecSession) (items : List DecItem) :
    Only ps s (t.feed c e items) :=
  have parsed := State.parseChunk_only hs hd hf ..
  .ite (State.mapDec_only parsed hd ..) parsed

theorem State.feed_arrivals (c : Cmd) (e : DecSession) (items : List DecItem) (s : State) : (s.feed c e items).dec.arrivals = s.dec.arrivals + 1 := by
  unfold State.feed
  dsimp only
  split <;> rfl

theorem State.decSession_feed (he : s.decSession h = some e) (c : Cmd) (items : List DecItem) : ∃ (k : Nat) (x : DecSession),
    (s.feed c e items).decSession h = some x ∧ DecSession.Parsed c.ptrLen.toNat k e x ∧
      (ItemsSorted items → (∀ t ∈ items, itemAt t < c.ptrLen.toNat) → k = items.countP itemBegins) ∧ s.begunIn c e items = k := by
  have own := State.handle_of_decSession he
  obtain ⟨k, x, hx, parsed, counted⟩ := State.decSession_parseChunk he c.ptr.toNat c.ptrLen.toNat (bitOf (par c 0) 8) items
  have begun : s.begunIn c e items = k := by
    unfold State.begunIn
    rw [(congrArg _ own).trans hx, Option.map_some, Option.getD_some, parsed.begun]
    omega
  unfold State.feed
  dsimp only
  split
  · exact ⟨k, _, State.decSession_mapDec_some hx own, ⟨parsed.handle, parsed.closing, parsed.offset, parsed.begun⟩, counted, begun⟩
  · exact ⟨k, x, hx, parsed, counted, begun⟩

/-- DEC_SUBMIT OP 0 of a range in its buffer (R221, R223). -/
def feedChunk (s : State) (c : Cmd) (e : DecSession) (items : List DecItem) : Chk Done :=
  if s.stopping (ref .decSubmit c) then
    .ok (.done .aborted (s.stopsAt c.ptr.toNat c.ptrLen.toNat) 0 ((s.feedPart c e items (s.stopsAt c.ptr.toNat c.ptrLen.toNat)).decAdvance e.handle))
  else
    okDone c.ptrLen.toNat (s.begunIn c e items) ((s.feed c e items).decAdvance e.handle)

section
variable {y : Buffer} (he : s.decSession c.handle = some e) (sound : e.faulted = false) (open_ : e.closing = none) (op : par c 0 % 4 = 0)
  (zero : par c 1 = 0) (space : c.ptrSpace = 1) (ht : typeOf c.aux = 1) (hy : s.buffer c.aux = some y)
  (range : rangeFault s c.ptr.toNat c.ptrLen.toNat (some (y.base, y.size)) = none) (items : List DecItem)
include he sound open_ op zero space ht hy range

theorem execDecSubmit_feed_eq : execDecSubmit c items s = runCmd .decSubmit c s (feedChunk s c e items) := by
  have num : bitsOf (par c 0) 1 0 = 0 := by simp [bitsOf, op]
  have inside : needRange s c.ptr.toNat c.ptrLen.toNat (some (y.base, y.size)) = .ok () := by
    unfold needRange
    rw [range]
  unfold execDecSubmit feedChunk
  refine congrArg (runCmd .decSubmit c s) ?_
  simp only [needDec_of_decSession he, ok_bind, num, zero, needPar0, space, sound, open_, needBuffer_of_buffer ht hy, inside]
  rfl

variable (ha : Accepted .decSubmit c s)
include ha

theorem execDecSubmit_stops (stop : s.stopping (ref .decSubmit c) = true) : ∃ (u : State) (k : Nat) (x : DecSession),
    execDecSubmit c items s = .next (u.complete (ref .decSubmit c) .aborted k 0 false) ∧ k ∈ nalEnds (s.readMem c.ptr.toNat c.ptrLen.toNat) ∧
      u.decSession c.handle = some x ∧ x.discont = true := by
  have own := State.handle_of_decSession he
  obtain ⟨_, x, hx, parsed, -⟩ := State.decSession_parseChunk (s := s.tickFresh) he c.ptr.toNat (s.stopsAt c.ptr.toNat c.ptrLen.toNat)
    (bitOf (par c 0) 8) items
  obtain ⟨x', hx', follows⟩ := State.decSession_decAdvance (State.decSession_mapDec_some (f := fun x => { x with discont := true }) hx own) own
    (parsed.closing.trans open_)
  rw [execDecSubmit_feed_eq he sound open_ op zero space ht hy range]
  exact ⟨_, _, x', runCmd_done ha (if_pos stop), s.stopsAt_mem .., hx', follows.keep (π := DecSession.discont)⟩

theorem execDecSubmit_feeds (runs : s.stopping (ref .decSubmit c) = false) : ∃ (u : State) (k : Nat) (x : DecSession),
    execDecSubmit c items s = .next (u.complete (ref .decSubmit c) .ok c.ptrLen.toNat k false) ∧ u.dec.arrivals = s.dec.arrivals + 1 ∧
      u.decSession c.handle = some x ∧ x.begun = e.begun + k ∧ x.offset = e.offset + c.ptrLen.toNat ∧
      (ItemsSorted items → (∀ i ∈ items, itemAt i < c.ptrLen.toNat) → k = items.countP itemBegins) ∧ Only [.dec, .host, .mgmt, .fabric] s u := by
  have own := State.handle_of_decSession he
  obtain ⟨k, x, hx, parsed, counted, begun⟩ := State.decSession_feed he c items
  obtain ⟨x', hx', follows⟩ := State.decSession_decAdvance hx own (parsed.closing.trans open_)
  rw [execDecSubmit_feed_eq he sound open_ op zero space ht hy range]
  refine ⟨_, k, x', runCmd_done ha ?_, (State.decAdvance_arrivals ..).trans (State.feed_arrivals ..), hx',
    (follows.keep (π := DecSession.begun)).trans parsed.begun, (follows.keep (π := DecSession.offset)).trans parsed.offset, counted,
    State.decAdvance_only (State.feed_only (.refl _ s) (by simp) (by simp) ..) (by simp) _⟩
  unfold feedChunk
  rw [if_neg (by simp [runs]), begun]
  rfl

end

end Sys2Proof.Machine
end

section
/-!
SUPPORT. DEC_PICTURE_START (R224, R229, R232) and DEC_CORE_FAULT (R225): a free core takes a picture, and a failed one gives its picture back.
-/
namespace Sys2Proof.Machine

set_option Elab.async false

variable {s : State} {e : DecSession} {k : Fin 2}

/-! ### The start of a picture -/

/-- A picture in decoding that no core decodes and that has not ended. -/
def DecCur.free (q : DecCur) : Bool := q.core.isNone && q.ended.isNone

/-- The session that a free core serves is one of the state (R224). -/
theorem State.mem_of_decPick (pick : s.decPick = some e) : e ∈ s.dec.sessions := by
  obtain ⟨⟨n, y⟩, least, rfl⟩ := Option.map_eq_some_iff.mp pick
  obtain ⟨x, hx, found⟩ := List.mem_filterMap.mp (minBy_spec least).1
  obtain ⟨_, -, pair⟩ := Option.map_eq_some_iff.mp found
  cases pair
  exact hx

section
variable (unit : (s.mgmt.units.unitOf .decU k.val).isSome = true) (idle : s.decBusy k.val = false) (pick : s.decPick = some e)
include unit idle pick

theorem execDecPictureStart_again (waits : e.curs.any DecCur.free = true) : ∃ t : State, execDecPictureStart k s = .next t ∧
    { e with curs := updWhere DecCur.free (fun q => { q with core := some k.val }) e.curs } ∈ t.dec.sessions ∧ Only [.dec] s t := by
  refine ⟨_, ?_, State.mem_mapDec_of_mem (fun x => { x with curs := updWhere DecCur.free (fun q => { q with core := some k.val }) x.curs })
    (State.mem_of_decPick pick), State.mapDec_only (.refl _ s) (by simp) ..⟩
  unfold execDecPictureStart
  rw [if_neg (by simp [Option.isSome_iff_ne_none.mp unit, idle]), pick]
  exact if_pos waits

/-- A session whose next picture a core takes into a slot, with the references that it uses (R229, R232). -/
def DecSession.withStart (e y : DecSession) (core : Nat) (p : DecPicInfo) (used : List DecHeld) (slot : Nat) : DecSession :=
  { y with
    waiting := y.waiting.drop 1, decSeq := y.decSeq + 1,
    curs := y.curs ++ [{ info := p, decSeq := y.decSeq, seqNo := e.seqOf p, slot := slot, core := some core, flags := y.refFlags p used,
                         refs := used.map DecHeld.poc, ended := none }] }

theorem execDecPictureStart_next {p : DecPicInfo} {n : Nat} {w : Bool} {rest : List DecWait} {y : DecSession} {used : List DecHeld} {slot : Nat}
    {grey : List Nat} (fresh : e.curs.any DecCur.free = false) (next : e.waiting = .pic p n w :: rest)
    (clean : s.mem.mem.poisonIn (e.base + f32 e.blk 0x1C) 4096 = none) (takes : e.takes p = some (y, used, slot, grey)) : ∃ t : State,
    execDecPictureStart k s = .next t ∧ e.withStart y k.val p used slot ∈ t.dec.sessions ∧ Only [.dec, .bytes, .fabric] s t := by
  have painted (z : DecSession) (t : State) : Only [.bytes] t (grey.foldl (fun (u : State) (i : Nat) => u.writeGrey z p i) t) :=
    Only.foldl _ (fun _ _ h => State.writeKcs_only h (by simp) ..) _ _ (.refl _ t)
  have joined : Only [.dec, .bytes, .fabric] s (s.mapDec e.handle (fun _ => e.withStart y k.val p used slot)) := State.mapDec_only (.refl _ s) (by simp) ..
  have started : ¬ (e.curs.any fun q => q.core.isNone && q.ended.isNone) = true := Bool.eq_false_iff.mp fresh
  unfold execDecPictureStart
  rw [if_neg (by simp [Option.isSome_iff_ne_none.mp unit, idle]), pick]
  dsimp only
  rw [if_neg started, next]
  dsimp only [List.head?_cons]
  rw [clean, if_neg (show ¬ (none : Option Nat).isSome = true by simp), takes]
  refine ⟨_, rfl, ?_, State.requests_only (joined.trans ((painted ..).mono (by simp))) (by simp) _⟩
  exact ((painted ..).dec_eq (by simp)).symm ▸ State.mem_mapDec_of_mem _ (State.mem_of_decPick pick)

end

/-! ### The death of a core -/

/-- A unit that stands for its own role is retired: it is fenced, and no unit fills the role (R225, R241). -/
theorem State.retireUnit_fences {u : UnitKind} {i p : Nat} {x : PhysUnit} (filled : s.mgmt.units.unitOf u i = some p)
    (unit : (s.mgmt.units.phys u)[i]? = some x) :
    ((s.retireUnit u i).mgmt.units.unit u i).state = .fenced ∧ (s.retireUnit u i).mgmt.units.unitOf u i = none := by
  obtain ⟨r, role⟩ := UnitTable.unitOf_some filled
  unfold State.retireUnit
  rw [((Outside.refl _).logErrorPost _).units, State.mapMgmt_mgmt]
  unfold UnitTable.unit UnitTable.unitOf
  dsimp only
  rw [UnitTable.phys_mapPhys, if_pos rfl, UnitTable.phys_mapRole, unit, UnitTable.roles_mapPhys, UnitTable.roles_mapRole, if_pos rfl, role]
  exact ⟨rfl, rfl⟩

/-- A decoder core that fails is retired, and no picture is left on it (R225). -/
theorem execDecCoreFault_retires {p : Nat} (filled : s.mgmt.units.unitOf .decU k.val = some p) : ∃ t : State, execDecCoreFault k s = .next t ∧
    (t.mgmt.units.unit .decU k.val).state = .fenced ∧ t.mgmt.units.unitOf .decU k.val = none ∧
      (∀ x ∈ t.dec.sessions, ∀ q ∈ x.curs, q.core ≠ some k.val) ∧ Only [.dec, .mgmt, .host] s t := by
  have unit : (s.mgmt.units.phys .decU)[k.val]? = some s.mgmt.units.decs[k] := by simp [UnitTable.phys]
  obtain ⟨fenced, empty⟩ := State.retireUnit_fences filled unit
  have retired : Only [.dec, .mgmt, .host] s (s.retireUnit .decU k.val) := State.logErrorPost_only ((Only.refl _ s).mgmt (by simp) _) (by simp) (by simp) _
  unfold execDecCoreFault
  rw [filled]
  refine ⟨_, rfl, fenced, empty, fun x hx q hq => ?_, retired.dec (by simp) _⟩
  obtain ⟨y, -, rfl⟩ := List.mem_map.mp hx
  obtain ⟨q0, -, rfl⟩ := List.mem_map.mp hq
  have other : 1 - k.val ≠ k.val := by omega
  split
  · dsimp only
    split
    · simpa using other
    · simp
  · assumption

end Sys2Proof.Machine
end

section
/-!
SUPPORT. The output of pictures (R233, R234, R237): the oldest picture due is written into the ring, or given up.
-/
namespace Sys2Proof.Machine

set_option Elab.async false

variable {s t : State} {h : Handle} {e : DecSession} {o : DecOut} {rest : List DecOut}

/-! ### The layers that show a session -/

theorem State.decsFollow_foldl {α : Type} {f : State → α → State} (step : ∀ t a, State.DecsFollow t (f t a)) (l : List α) (s : State) :
    s.DecsFollow (l.foldl f s) :=
  List.foldlRecOn (motive := s.DecsFollow) l f (.of_eq rfl) fun t follows a _ => follows.trans (step t a)

theorem State.decsFollow_mapSrcRing (r : SrcRef) (f : Ring → Ring) (s : State) : s.DecsFollow (s.mapSrcRing r f) := by
  unfold State.mapSrcRing
  split
  · split <;> exact .of_eq rfl
  · exact State.DecsFollow.mapDec (f := fun e => { e with ring := f e.ring }) (fun _ => ⟨rfl, fun none_ => ⟨none_, rfl⟩⟩) s r.handle
  · split <;> exact .of_eq rfl
  · exact .of_eq rfl

theorem State.decsFollow_trimLayer (lh : Handle) (r : SrcRef) (ns : Nat) (s : State) : s.DecsFollow (s.trimLayer lh r ns) := by
  unfold State.trimLayer
  split
  · exact State.decsFollow_mapSrcRing r _ s
  · exact .of_eq rfl

/-- What layers let go of changes a session's ring alone (R270). -/
theorem State.decsFollow_trimSource (r : SrcRef) (s : State) : s.DecsFollow (s.trimSource r) :=
  State.decsFollow_foldl (fun t (l : DispLayer) => State.decsFollow_trimLayer l.handle r s.ns t) _ s

/-! ### The oldest picture due -/

/-- A session that has written its oldest picture due (R233, R235). -/
def DecSession.wrote (ring : Ring) (number attr : Nat) (late : Bool) (x : DecSession) : DecSession :=
  { x with
    outs := x.outs.drop 1, outSeq := x.outSeq + 1, written := x.written + 1, ring := ring, attrs := ((number, attr) :: x.attrs).take 64,
    cnt := { x.cnt with out := x.cnt.out.satInc, late := if late then x.cnt.late.satInc else x.cnt.late } }

theorem State.putDecOut_follows (e : DecSession) (o : DecOut) (s : State) : ∃ (ring : Ring) (late : Bool),
    (s.mapDec e.handle (DecSession.wrote ring e.outSeq o.pic.info.attr late)).DecsFollow (s.putDecOut e o) := by
  unfold State.putDecOut
  extract_lets b p a k code qs cut t1 late flags planes head taken ring t2
  have drawn : Only [.bytes] s t1 := by
    unfold t1
    split
    · exact State.writeKcs_only (.refl _ s) (by simp) ..
    · exact Only.foldl _ (fun _ _ h => Only.foldl _ (fun _ _ h => h.writeMem (by simp) ..) _ _ h) _ _ (.refl _ s)
  have written : Only [.bytes, .fabric] s ((t1.writeMem a head).writes .decoder (.decoder 0) noCam a e.ring.slotSize) :=
    State.writes_only ((drawn.mono (by simp)).writeMem (by simp) ..) (by simp) ..
  exact ⟨ring, late, (State.DecsFollow.of_eq (State.mapDec_dec_congr (written.dec_eq (by simp)) ..)).trans (State.decsFollow_trimSource _ t2)⟩

theorem execDecPictureOutput_decoded {k : Fin 2} {q : DecCur} (he : s.decSession h = some e)
    (mine : e.curs.find? (fun q => q.core == some k.val) = some q) (r : DecReport) :
    execDecPictureOutput h (some (k, r)) s = execDecPictureOutput h none ((s.decEnd e q r).decAdvance h) := by
  unfold execDecPictureOutput
  dsimp only
  rw [he]
  dsimp only
  rw [mine]

section
variable (he : s.decSession h = some e) (due : e.outs = o :: rest)
include he due

theorem execDecPictureOutput_writes (free : e.ringHeld = false) (sound : e.faulted = false) : ∃ t : State, execDecPictureOutput h none s = .next t ∧
    ∀ x ∈ t.dec.sessions, x.handle = h → ∃ y ∈ s.dec.sessions, y.handle = h ∧ x.outSeq = y.outSeq + 1 ∧ x.written = y.written + 1 ∧
      x.cnt.out = y.cnt.out.satInc := by
  have own := State.handle_of_decSession he
  obtain ⟨ring, late, put⟩ := State.putDecOut_follows e o s
  refine ⟨(s.putDecOut e o).decAdvance h, ?_, fun x hx mine => ?_⟩
  · unfold execDecPictureOutput
    dsimp only
    rw [he]
    dsimp only
    rw [due]
    exact if_neg (by simp [free, sound])
  · obtain ⟨y, hy, same, follows⟩ := (put.trans (State.decsFollow_decAdvance h _)).of_mapDec hx (mine.trans own.symm)
    exact ⟨y, hy, same.trans own, follows.keep (π := DecSession.outSeq), follows.keep (π := DecSession.written), follows.keep (π := fun e => e.cnt.out)⟩

theorem execDecOutputSkip_skips (held : e.ringHeld = true) (paced : dbPaced e.blk = true) (open_ : e.closing = none) (sound : e.faulted = false)
    (late : o.pts + dbPeriod e.blk ≤ s.ns) : ∃ t : State, execDecOutputSkip h s = .next t ∧
    (∀ x ∈ t.dec.sessions, x.handle = h → ∃ y ∈ s.dec.sessions, y.handle = h ∧ x.cnt.skips = y.cnt.skips.satInc ∧
      (y.waiting = [] → x.outs = y.outs.drop 1)) ∧ Only [.dec, .host, .mgmt] s t := by
  unfold execDecOutputSkip
  rw [he]
  dsimp only
  rw [due]
  dsimp only [List.head?_cons]
  rw [if_neg (by simp [held, paced, open_, sound, late])]
  refine ⟨_, rfl, fun x hx mine => ?_, State.decAdvance_only (State.mapDec_only (.refl _ s) (by simp) ..) (by simp) _⟩
  obtain ⟨y, hy, same, follows⟩ := (State.decsFollow_decAdvance h _).of_mapDec hx mine
  exact ⟨y, hy, same, follows.keep (π := fun e => e.cnt.skips), fun none_ => (follows.still none_).2⟩

theorem execDecCloseSlotTimeout_discards (held : e.ringHeld = true) (closes : e.closing ≠ none)
    (late : ((e.headSince.map (·.2)).getD 0) + 1000000000 ≤ s.ns) : ∃ t : State, execDecCloseSlotTimeout h s = .next t ∧
    (∀ x ∈ t.dec.sessions, x.handle = h → ∃ y ∈ s.dec.sessions, y.handle = h ∧
      (y.waiting = [] → x.outs = y.outs.drop 1 ∧ x.discarded = y.discarded + 1)) ∧ Only [.dec, .host, .mgmt] s t := by
  unfold execDecCloseSlotTimeout
  rw [he]
  dsimp only
  rw [if_neg (by simp [held, closes, due, late])]
  refine ⟨_, rfl, fun x hx mine => ?_, State.decAdvance_only (State.mapDec_only (.refl _ s) (by simp) ..) (by simp) _⟩
  obtain ⟨y, hy, same, follows⟩ := (State.decsFollow_decAdvance h _).of_mapDec hx mine
  exact ⟨y, hy, same, fun none_ => ⟨(follows.still none_).2, follows.keep (π := DecSession.discarded)⟩⟩

end

end Sys2Proof.Machine

namespace Sys2Proof

set_option Elab.async false

open Machine

/-- Settles O46: each command runs through its checks to the one session that it changes, and each event of a decoder core to its picture; the parser's findings
and a core's report are operands (log 38), and what the ends of streams set off keeps what is said of the sessions. -/
theorem decodeSessionsAndCores : Obligations.DecodeSessionsAndCores := by
  unfold Obligations.DecodeSessionsAndCores
  intro c s
  refine ⟨fun b y ha hb fields few ht hy pool poolIn ring ringIn apart => ⟨fun over_ => ?_, fun fits free => ?_⟩,
    fun e items he sound open_ => ⟨fun ha => ⟨fun y op zero space ht hy range => ⟨fun runs => ?_, fun stop => ?_⟩, fun op aux ptr len space => ?_,
      fun op zero aux ptr len space runs few => ?_⟩, fun ha unbound idle => ?_⟩,
    fun k e unit idle pick => ⟨fun waits => ?_, fun p n w rest y used slot grey fresh next clean takes => ?_⟩,
    fun h e he => ⟨fun k q r mine => ?_, fun o rest due => ⟨fun free sound => ?_, fun held paced open_ sound late => ?_, fun held closes late => ?_⟩⟩,
    fun k filled => ?_⟩
  · exact execDecSessionOpen_overBudget hb fields few ht hy pool poolIn ring ringIn apart ha over_
  · exact ⟨_, newDecSession s c b y, execDecSessionOpen_opens hb fields few ht hy pool poolIn ring ringIn apart ha fits free, rfl, rfl, rfl, rfl, rfl, rfl,
      rfl, s.addDec_only _⟩
  · obtain ⟨u, k, x, step, arrivals, found, begun, offset, counted, only⟩ := execDecSubmit_feeds he sound open_ op zero space ht hy range items ha runs
    refine ⟨u, k, x, step, arrivals, found, begun, offset, fun sorted inside => ?_, only⟩
    rw [counted sorted inside, List.countP_eq_length_filter]
    refine congrArg List.length (List.filter_congr fun i _ => ?_)
    cases i <;> rfl
  · exact execDecSubmit_stops he sound open_ op zero space ht hy range items ha stop
  · exact execDecSubmit_releases ha he sound open_ aux ptr len space items op
  · exact execDecSubmit_drains ha he sound open_ aux ptr len space items op zero runs few
  · exact execDecSessionClose_closes ha he open_ unbound idle
  · obtain ⟨t, step, mem, only⟩ := execDecPictureStart_again unit idle pick waits
    exact ⟨t, step, ⟨_, mem, rfl⟩, only⟩
  · obtain ⟨t, step, mem, only⟩ := execDecPictureStart_next unit idle pick fresh next clean takes
    exact ⟨t, _, _, step, mem, rfl, rfl, rfl, rfl, rfl, rfl, rfl, rfl, rfl, only⟩
  · exact execDecPictureOutput_decoded he mine r
  · exact execDecPictureOutput_writes he due free sound
  · exact execDecOutputSkip_skips he due held paced open_ sound late
  · exact execDecCloseSlotTimeout_discards he due held closes late
  · exact execDecCoreFault_retires filled

end Sys2Proof
end

section
/-!
SUPPORT. Fields of bytes that are put one after the other (R7), sums, and a range of device memory in parts.
-/
namespace Sys2Proof.Machine

set_option Elab.async false

theorem leNat_leBytes (n v : Nat) : leNat (leBytes n v) = v % 256 ^ n := by
  induction n generalizing v with
  | zero => simp [leBytes, leNat, Nat.mod_one]
  | succ n ih =>
    rw [leBytes, leNat, ih, Nat.pow_succ', Nat.mod_mul]
    simp

/-- A field at the start of a structure. -/
@[simp] theorem fld_leBytes_append (k v : Nat) (post : List Byte) : fld (leBytes k v ++ post) 0 k = v % 256 ^ k := by
  rw [← leNat_leBytes]
  simp [fld]

/-- A field behind another one. -/
@[simp] theorem fld_behind {n off : Nat} (h : n ≤ off) (v : Nat) (post : List Byte) (k : Nat) : fld (leBytes n v ++ post) off k = fld post (off - n) k := by
  unfold fld
  rw [List.drop_append, List.drop_eq_nil_of_le (by simpa using h), List.nil_append, leBytes_length]

/-- A slice that begins after a first part and has the length of the next is that part. -/
theorem slice_append {pre mid post : List Byte} {off n : Nat} (ho : off = pre.length) (hn : n = mid.length) : slice (pre ++ (mid ++ post)) off n = mid := by
  subst ho hn
  simp [slice]

theorem sumNat_eq_sum (l : List Nat) : sumNat l = l.sum := List.sum_eq_foldl.symm

theorem crc32c_lt (bs : List Byte) : crc32c bs < 2 ^ 32 := BitVec.isLt _

theorem le_roundUp {m : Nat} (hm : 0 < m) (x : Nat) : x ≤ roundUp x m := by
  have := Nat.div_add_mod (x + m - 1) m
  have := Nat.mod_lt (x + m - 1) hm
  rw [Nat.mul_comm] at *
  unfold roundUp
  omega

theorem le_ceilDiv_mul {m : Nat} (hm : 0 < m) (x : Nat) : x ≤ ceilDiv x m * m := le_roundUp hm x

/-- What is padded begins with the bytes that are padded. -/
theorem padTo_eq {n : Nat} {bs : List Byte} (h : bs.length ≤ n) : padTo n bs = bs ++ zeros (n - bs.length) := by
  unfold padTo zeros
  rw [List.take_append, List.take_of_length_le h, List.take_replicate, Nat.min_eq_left (by omega)]

theorem Memory.read_add (m : Memory) (a n k : Nat) : m.read a (n + k) = m.read a n ++ m.read (a + n) k := by
  simp [Memory.read_eq, List.range_add, Nat.add_assoc]

end Sys2Proof.Machine
end

section
/-!
SUPPORT. Framed blocks (R243, R247, Table 09-3): what the header of one says, that one parses and expands to its bytes, and that the blocks of a source do.
-/
namespace Sys2Proof.Machine

set_option Elab.async false

/-! ### The header -/

/-- The fields of a block's header before its CRC, in their order. -/
def cooperHeaderFields (mode : Nat) (raw poisoned : Bool) (log2 orig pay crc index zeroed : Nat) : List Byte :=
  leBytes 2 0x4B43 ++ (leBytes 1 (mode + 2 * bit01 raw + 4 * bit01 poisoned) ++ (leBytes 1 log2 ++ (leBytes 4 orig ++ (leBytes 4 pay ++
    (leBytes 4 crc ++ (leBytes 4 index ++ (leBytes 4 zeroed ++ zeros 12)))))))

section
variable (mode : Nat) (raw poisoned : Bool) (log2 orig pay crc index zeroed : Nat)

theorem cooperHeaderFields_length : (cooperHeaderFields mode raw poisoned log2 orig pay crc index zeroed).length = 36 := by
  simp [cooperHeaderFields, zeros]

theorem cooperHeader_eq : cooperHeader mode raw poisoned log2 orig pay crc index zeroed =
    cooperHeaderFields mode raw poisoned log2 orig pay crc index zeroed ++
      leBytes 4 (crc32c (cooperHeaderFields mode raw poisoned log2 orig pay crc index zeroed)) := by
  simp [cooperHeader, cooperHeaderFields, layout, patch, leBytes, zeros]

theorem cooperHeader_length : (cooperHeader mode raw poisoned log2 orig pay crc index zeroed).length = 40 := by
  simp [cooperHeader_eq, cooperHeaderFields_length]

theorem cooperHeader_fields : let h := cooperHeader mode raw poisoned log2 orig pay crc index zeroed
    f16 h 0 = 0x4B43 ∧ f8 h 2 = (mode + 2 * bit01 raw + 4 * bit01 poisoned) % 256 ∧ f8 h 3 = log2 % 256 ∧ f32 h 4 = orig % 2 ^ 32 ∧
      f32 h 8 = pay % 2 ^ 32 ∧ f32 h 0xC = crc % 2 ^ 32 := by
  simp [cooperHeader_eq, cooperHeaderFields, f8, f16, f32, List.append_assoc]

theorem cooperHeader_crc : let h := cooperHeader mode raw poisoned log2 orig pay crc index zeroed
    f32 h 0x24 = crc32c (h.take 36) := by
  have len := cooperHeaderFields_length mode raw poisoned log2 orig pay crc index zeroed
  rw [cooperHeader_eq]
  intro h
  have first : h.take 36 = cooperHeaderFields mode raw poisoned log2 orig pay crc index zeroed := by simp [h, ← len]
  have last : slice h 0x24 4 = leBytes 4 (crc32c (h.take 36)) := by
    rw [first]
    simpa [h] using slice_append (post := []) len.symm (leBytes_length 4 _).symm
  exact (congrArg leNat last).trans ((leNat_leBytes ..).trans (Nat.mod_eq_of_lt (crc32c_lt _)))

/-- What a parser reads from a header whose values have room in their fields. -/
theorem cooperHeader_reads (hm : mode < 2) (hl : log2 < 256) (ho : orig < 2 ^ 32) (hp : pay < 2 ^ 32) (hc : crc < 2 ^ 32) :
    let h := cooperHeader mode raw false log2 orig pay crc index zeroed
    f16 h 0 = 0x4B43 ∧ f8 h 2 % 2 = mode ∧ bitOf (f8 h 2) 1 = raw ∧ f8 h 3 = log2 ∧ f32 h 4 = orig ∧ f32 h 8 = pay ∧ f32 h 0xC = crc := by
  obtain ⟨magic, flags, size, orig', pay', crc'⟩ := cooperHeader_fields mode raw false log2 orig pay crc index zeroed
  refine ⟨magic, ?_, ?_, size.trans (Nat.mod_eq_of_lt hl), orig'.trans (Nat.mod_eq_of_lt ho), pay'.trans (Nat.mod_eq_of_lt hp),
    crc'.trans (Nat.mod_eq_of_lt hc)⟩
  · rw [flags]
    cases raw <;> simp [bit01] <;> omega
  · rw [flags]
    cases raw <;> simp [bitOf, bit01] <;> omega

end

/-! ### One block -/

/-- A framed block without lost lines: a payload behind the header of what it stands for. -/
def cooperBlock (mode log2 index : Nat) (raw : Bool) (pay bytes : List Byte) : List Byte :=
  cooperHeader mode raw false log2 bytes.length pay.length (crc32c bytes) index 0 ++ padTo (roundUp pay.length 8) pay

/-- A payload that stands for bytes: no longer than they are, as long where it is raw, and what decodes to them. -/
structure Frames (mode : Nat) (raw : Bool) (pay bytes : List Byte) : Prop where
  short : pay.length ≤ bytes.length
  plain : raw = true → pay.length = bytes.length
  expands : expandPayload mode raw pay bytes.length = some bytes

/-- A block is coded only where that is shorter and decodes to its bytes (R243). -/
theorem cooperFrame_frames (mode level log2 index : Nat) (bytes : List Byte) : ∃ (raw : Bool) (pay : List Byte),
    cooperFrame mode level log2 index false 0 bytes = cooperBlock mode log2 index raw pay bytes ∧ Frames mode raw pay bytes := by
  unfold cooperFrame
  extract_lets code coded pay
  refine ⟨!coded, pay, rfl, ?_⟩
  cases hc : coded with
  | false =>
    have own : pay = bytes := by simp [pay, hc]
    rw [own]
    exact ⟨Nat.le_refl _, fun _ => rfl, by simp [expandPayload]⟩
  | true =>
    have own : pay = code := by simp [pay, hc]
    obtain ⟨shorter, decodes⟩ : code.length < bytes.length ∧ expandPayload mode false code bytes.length = some bytes := by simpa [coded] using hc
    rw [own]
    exact ⟨shorter.le, by simp, decodes⟩

theorem cooperBlock_length (mode log2 index : Nat) (raw : Bool) (pay bytes : List Byte) :
    (cooperBlock mode log2 index raw pay bytes).length = 40 + roundUp pay.length 8 := by
  simp [cooperBlock, cooperHeader_length]

section
variable {mode log2 : Nat} {raw : Bool} {pay bytes : List Byte} (framed : Frames mode raw pay bytes) (pre post : List Byte) (index : Nat)
include framed

/-- A good block at a place of a sequence is parsed, and the parse goes on behind it (R247). -/
theorem cooperHeads_block (hm : mode < 2) (h16 : 16 ≤ log2) (h24 : log2 ≤ 24) (some_ : 0 < bytes.length) (fits : bytes.length ≤ 2 ^ log2)
    {src : List Byte} (hs : src = pre ++ (cooperBlock mode log2 index raw pay bytes ++ post)) {n : Nat} {rest : List CooperHead}
    (more : cooperHeads src n (pre ++ cooperBlock mode log2 index raw pay bytes).length = .ok rest) :
    cooperHeads src (n + 1) pre.length =
      .ok ({ off := pre.length, mode := mode, raw := raw, orig := bytes.length, pay := pay.length, crc := crc32c bytes } :: rest) := by
  have len := cooperBlock_length mode log2 index raw pay bytes
  have small : (2 : Nat) ^ log2 ≤ 2 ^ 24 := Nat.pow_le_pow_right (by decide) h24
  have short := framed.short
  obtain ⟨magic, kind, plain, size, orig, payLen, crc⟩ := cooperHeader_reads mode raw log2 bytes.length pay.length (crc32c bytes) index 0 hm (by omega)
    (by omega) (by omega) (crc32c_lt bytes)
  have check := cooperHeader_crc mode raw false log2 bytes.length pay.length (crc32c bytes) index 0
  have header : slice src pre.length 40 = cooperHeader mode raw false log2 bytes.length pay.length (crc32c bytes) index 0 := by
    rw [hs, cooperBlock, List.append_assoc]
    exact slice_append rfl (cooperHeader_length ..).symm
  have total : src.length = pre.length + 40 + roundUp pay.length 8 + post.length := by
    simp [hs, len]
    omega
  have next : (pre ++ cooperBlock mode log2 index raw pay bytes).length = pre.length + 40 + roundUp pay.length 8 := by
    simp [len]
    omega
  have whole : (raw && pay.length != bytes.length) = false := by
    cases raw
    · rfl
    · simp [framed.plain rfl]
  rw [next] at more
  rw [cooperHeads, if_neg (by omega), header]
  simp only [magic, kind, plain, size, orig, payLen, crc, check, whole, more]
  rw [if_neg]
  simp [List.ne_nil_of_length_pos some_, h16, h24, fits, short]
  omega

/-- The bytes of a good block come before those of what follows it (R247). -/
theorem expandAll_block {src : List Byte} (hs : src = pre ++ (cooperBlock mode log2 index raw pay bytes ++ post)) {rest : List CooperHead} {more : List Byte}
    (expands : expandAll src rest = .ok more) :
    expandAll src ({ off := pre.length, mode := mode, raw := raw, orig := bytes.length, pay := pay.length, crc := crc32c bytes } :: rest) = .ok (bytes ++ more) := by
  have payload : slice src (pre.length + 40) pay.length = pay := by
    rw [hs, cooperBlock, padTo_eq (le_roundUp (by decide) _), List.append_assoc, List.append_assoc, ← List.append_assoc pre]
    exact slice_append (by simp [cooperHeader_length]) rfl
  rw [expandAll]
  simp [payload, framed.expands, expands]

end

/-! ### A sequence of blocks -/

/-- Framed blocks, each of some bytes that its header's BLOCK_LOG2 holds, parse one by one and expand to those bytes in order. -/
theorem cooperHeads_frames {mode log2 : Nat} (level : Nat) (hm : mode < 2) (h16 : 16 ≤ log2) (h24 : log2 ≤ 24) :
    ∀ {parts : List (Nat × List Byte)}, (∀ x ∈ parts, 0 < x.2.length ∧ x.2.length ≤ 2 ^ log2) → ∀ (pre : List Byte) {n : Nat}, parts.length < n →
      let src := pre ++ (parts.map (fun x => cooperFrame mode level log2 x.1 false 0 x.2)).flatten
      ∃ hs, cooperHeads src n pre.length = .ok hs ∧ hs.map CooperHead.orig = parts.map (fun x => x.2.length) ∧
        expandAll src hs = .ok (parts.map Prod.snd).flatten
  | [], _, pre, n + 1, _ => ⟨[], by simp [cooperHeads], rfl, rfl⟩
  | x :: rest, each, pre, n + 1, fuel => by
    obtain ⟨some_, fits⟩ := each x List.mem_cons_self
    obtain ⟨raw, pay, frame, framed⟩ := cooperFrame_frames mode level log2 x.1 x.2
    intro src
    have here : src = pre ++ (cooperBlock mode log2 x.1 raw pay x.2 ++ (rest.map (fun x => cooperFrame mode level log2 x.1 false 0 x.2)).flatten) := by
      simp [src, frame]
    obtain ⟨hs, heads, lens, bytes⟩ := cooperHeads_frames level hm h16 h24 (fun y hy => each y (List.mem_cons_of_mem _ hy))
      (pre ++ cooperBlock mode log2 x.1 raw pay x.2) (Nat.lt_of_succ_lt_succ fuel)
    rw [List.append_assoc, ← here] at heads bytes
    exact ⟨_, cooperHeads_block framed pre _ x.1 hm h16 h24 some_ fits here heads, by simp [lens], by simpa using expandAll_block framed pre _ x.1 here bytes⟩

theorem cooperFrame_length_pos (mode level log2 index : Nat) (bytes : List Byte) : 0 < (cooperFrame mode level log2 index false 0 bytes).length := by
  obtain ⟨raw, pay, frame, -⟩ := cooperFrame_frames mode level log2 index bytes
  rw [frame, cooperBlock_length]
  omega

theorem length_le_frames (mode level log2 : Nat) (parts : List (Nat × List Byte)) :
    parts.length ≤ (parts.map (fun x => cooperFrame mode level log2 x.1 false 0 x.2)).flatten.length := by
  induction parts with
  | nil => exact Nat.le_refl 0
  | cons x rest ih =>
    have := cooperFrame_length_pos mode level log2 x.1 x.2
    simp only [List.map_cons, List.flatten_cons, List.length_append, List.length_cons]
    omega

/-! ### The blocks of a source -/

/-- The bytes of each block of a source, with its number. -/
def sourceParts (m : Memory) (size src len : Nat) : List (Nat × List Byte) :=
  (List.range (ceilDiv len size)).map (fun i => (i, m.read (src + i * size) (min size (len - i * size))))

theorem cooperBlocks_eq (m : Memory) (mode level log2 src len : Nat) : cooperBlocks m mode level log2 false false src len =
    (sourceParts m (2 ^ log2) src len).map (fun x => cooperFrame mode level log2 x.1 false 0 x.2) := by
  simp [cooperBlocks, sourceParts, Memory.read_eq]

theorem sourceParts_each (m : Memory) {size : Nat} (hs : 0 < size) (src len : Nat) : ∀ x ∈ sourceParts m size src len, 0 < x.2.length ∧ x.2.length ≤ size := by
  intro x hx
  obtain ⟨i, hi, rfl⟩ := List.mem_map.mp hx
  have before : i * size < len := by
    have := (Nat.le_div_iff_mul_le hs).mp (Nat.succ_le_of_lt (List.mem_range.mp hi))
    rw [Nat.succ_mul] at this
    omega
  rw [Memory.read_length]
  exact ⟨Nat.lt_min.mpr ⟨hs, by omega⟩, Nat.min_le_left ..⟩

/-- The blocks up to one hold the source up to its end. -/
theorem flatten_read_blocks (m : Memory) (size src len k : Nat) :
    ((List.range k).map (fun i => m.read (src + i * size) (min size (len - i * size)))).flatten = m.read src (min (k * size) len) := by
  induction k with
  | zero => simp [Memory.read]
  | succ k ih =>
    have split : min ((k + 1) * size) len = min (k * size) len + min size (len - k * size) := by
      rw [Nat.succ_mul]
      omega
    rw [List.range_succ, List.map_append, List.flatten_append, ih, split, Memory.read_add]
    rcases Nat.le_total (k * size) len with inside | beyond
    · simp [Nat.min_eq_left inside]
    · simp [Nat.sub_eq_zero_of_le beyond, Memory.read]

theorem sourceParts_flatten (m : Memory) {size : Nat} (hs : 0 < size) (src len : Nat) :
    ((sourceParts m size src len).map Prod.snd).flatten = m.read src len := by
  have all := flatten_read_blocks m size src len (ceilDiv len size)
  rw [Nat.min_eq_right (le_ceilDiv_mul hs len)] at all
  simpa [sourceParts, Function.comp_def] using all

end Sys2Proof.Machine
end

section
namespace Sys2Proof

set_option Elab.async false

open Machine

/-- Settles O48: each framed block parses at its place and expands to its bytes, since a payload is coded only where it decodes to them, and the blocks of a
source hold its bytes in order. -/
theorem compressedBlocksExpandToTheSource : Obligations.CompressedBlocksExpandToTheSource := by
  unfold Obligations.CompressedBlocksExpandToTheSource
  intro m mode level log2 src len hm h16 h24 _ out
  have size : 0 < 2 ^ log2 := Nat.two_pow_pos log2
  have blocks : out = ((sourceParts m (2 ^ log2) src len).map (fun x => cooperFrame mode level log2 x.1 false 0 x.2)).flatten :=
    congrArg List.flatten (cooperBlocks_eq ..)
  have fuel : (sourceParts m (2 ^ log2) src len).length < out.length + 1 := by
    rw [blocks]
    exact Nat.lt_succ_of_le (length_le_frames ..)
  obtain ⟨hs, heads, lens, bytes⟩ := cooperHeads_frames level hm h16 h24 (sourceParts_each m size src len) [] fuel
  rw [List.nil_append, ← blocks] at heads bytes
  rw [sourceParts_flatten m size] at bytes
  refine ⟨hs, heads, ?_, ?_, bytes⟩
  · simpa [sourceParts] using congrArg List.length lens
  · calc sumNat (hs.map CooperHead.orig) = ((sourceParts m (2 ^ log2) src len).map Prod.snd).flatten.length := by
          simp [lens, sumNat_eq_sum, Function.comp_def]
      _ = len := by rw [sourceParts_flatten m size, Memory.read_length]

end Sys2Proof
end

section
/-!
SUPPORT. Cooper jobs (R239, R240, R241, R243, R247): a job that is submitted, the next one that an engine takes, the end of one, and a failed engine.
-/
namespace Sys2Proof

set_option Elab.async false

open Machine

theorem Only.cmp_eq {ps : List Part} {s t : State} (h : Only ps s t) (hc : Part.cmp ∉ ps) : t.cmp = s.cmp := h.same .cmp hc

end Sys2Proof

namespace Sys2Proof.Machine

set_option Elab.async false

variable {s : State}

/-! ### Submission -/

/-- The job of a descriptor between two places (Table 09-2). -/
def jobOf (op : Op) (expand : Bool) (c : Cmd) (b : List Byte) (src dst : Nat) : CmpJob :=
  { why := .command (ref op c) expand, src := src, srcLen := f32 b 0x18, dst := dst, dstLen := f32 b 0x1C, mode := f8 b 0 % 2,
    level := if f8 b 0 / 16 = 0 then 5 else f8 b 0 / 16, log2 := f8 b 1 }

/-- A job joins the queue (R240). -/
def State.queueJob (s : State) (j : CmpJob) : State := { s with cmp := { s.cmp with queue := s.cmp.queue ++ [j] } }

theorem State.queueJob_only (s : State) (j : CmpJob) : Only [.cmp] s (s.queueJob j) := (Only.refl _ s).cmp (by simp) _

theorem cmpSubmit_queues {c : Cmd} {op : Op} {expand : Bool} {x y : Buffer} {b : List Byte} {src dst : Nat} (hx : typeOf c.handle = 1)
    (bx : s.buffer c.handle = some x) (hy : typeOf c.aux = 1) (by_ : s.buffer c.aux = some y) (hb : structBytes s c = .ok b)
    (fields : firstBad (jobFields b expand) = none) (from_ : needInBuffer s x (fld b 8 5) (f32 b 0x18) = .ok src)
    (dest : needInBuffer s y (fld b 0x10 5) (f32 b 0x1C) = .ok dst) (apart : c.handle = c.aux → meets src (f32 b 0x18) dst (f32 b 0x1C) = false)
    (free : needUnpinned s dst (f32 b 0x1C) = .ok ()) (runs : s.stopping (ref op c) = false) :
    cmpSubmit op expand c s = waitDone op c (s.queueJob (jobOf op expand c b src dst)) := by
  have disjoint : (c.handle != c.aux || !meets src (f32 b 0x18) dst (f32 b 0x1C)) = true := by
    by_cases same : c.handle = c.aux
    · simp [apart same]
    · simp [same]
  unfold cmpSubmit
  simp only [needBuffer_of_buffer hx bx, needBuffer_of_buffer hy by_, hb, needFields_of_firstBad fields, from_, dest, free, runs, ok_bind,
    need_bind_true disjoint]
  rfl

/-! ### Dispatch -/

/-- The engines with what one of them holds replaced. -/
def State.setEngine (s : State) (i : Fin 4) (o : Option CmpJob) (queue : List CmpJob) : State :=
  { s with cmp := { queue := queue, engines := vmod s.cmp.engines i.val (fun _ => o) } }

@[simp] theorem State.setEngine_same (s : State) (i : Fin 4) (o : Option CmpJob) (queue : List CmpJob) : (s.setEngine i o queue).cmp.engines[i] = o := by
  simp [State.setEngine, vmod]

@[simp] theorem State.setEngine_mem (s : State) (i : Fin 4) (o : Option CmpJob) (queue : List CmpJob) : (s.setEngine i o queue).mem = s.mem := rfl

@[simp] theorem State.setEngine_stopping (s : State) (i : Fin 4) (o : Option CmpJob) (queue : List CmpJob) (r : CmdRef) :
    (s.setEngine i o queue).stopping r = s.stopping r := rfl

@[simp] theorem State.setEngine_readMem (s : State) (i : Fin 4) (o : Option CmpJob) (queue : List CmpJob) (a n : Nat) :
    (s.setEngine i o queue).readMem a n = s.readMem a n := rfl

theorem State.setEngine_only (s : State) (i : Fin 4) (o : Option CmpJob) (queue : List CmpJob) : Only [.cmp] s (s.setEngine i o queue) :=
  (Only.refl _ s).cmp (by simp) _

theorem State.requests_cmp (s : State) (rs : List FabReq) : (s.requests rs).cmp = s.cmp := rfl

variable {i : Fin 4} {j : CmpJob}

/-- A free engine in service takes the first queue job where no session job is ready (R240). -/
theorem execCmpEngineDispatch_takes (done : Bool) {rest : List CmpJob} (idle : s.cmp.engines[i] = none)
    (unit : (s.mgmt.units.unitOf .cmpU i.val).isSome = true) (none_ : s.tapJobs = []) (queue : s.cmp.queue = j :: rest) : ∃ t : State,
    execCmpEngineDispatch i done s = .next t ∧ t.cmp.engines[i] = some j ∧ t.cmp.queue = rest ∧ Only [.cmp, .fabric] s t := by
  have none' : vget s.cmp.engines none i.val = none := (vget_eq_getElem _ _ i.isLt).trans idle
  have ready : ((vget s.cmp.engines none i.val).isSome || (s.mgmt.units.unitOf .cmpU i.val).isNone) = false := by
    rw [none', Option.isNone_eq_false_iff.mpr unit]
    rfl
  have takes : s.cmpTake i.val = (s.setEngine i (some j) rest).reads .cooper (.cooper i.val) noCam j.src j.srcLen := by
    unfold State.cmpTake
    rw [if_neg (by simp [ready]), none_, queue]
    rfl
  unfold execCmpEngineDispatch
  rw [none']
  dsimp only
  rw [takes]
  exact ⟨_, rfl, s.setEngine_same i (some j) rest, rfl, State.requests_only ((s.setEngine_only ..).mono (by simp)) (by simp) _⟩

/-! ### The end of a job -/

/-- An engine is free again and its output is written (R243). -/
def State.jobOutput (s : State) (i : Fin 4) (j : CmpJob) (out : List Byte) : State :=
  ((s.setEngine i none s.cmp.queue).writeMem j.dst out).writes .cooper (.cooper i.val) noCam j.dst out.length

theorem State.jobOutput_only (s : State) (i : Fin 4) (j : CmpJob) (out : List Byte) : Only [.cmp, .bytes, .fabric] s (s.jobOutput i j out) :=
  State.writes_only (((s.setEngine_only ..).mono (by simp)).writeMem (by simp) ..) (by simp) ..

theorem State.jobOutput_cmp (s : State) (i : Fin 4) (j : CmpJob) (out : List Byte) :
    (s.jobOutput i j out).cmp.engines[i] = none ∧ (s.jobOutput i j out).cmp.queue = s.cmp.queue := ⟨s.setEngine_same i none s.cmp.queue, rfl⟩

/-- The destination holds the output, and every byte outside is as before. -/
theorem State.jobOutput_bytes (inv : Inv s) (i : Fin 4) (j : CmpJob) (out : List Byte) : (s.jobOutput i j out).readMem j.dst out.length = out ∧
    ∀ a, a < j.dst ∨ j.dst + out.length ≤ a → (s.jobOutput i j out).mem.mem.byte a = s.mem.mem.byte a :=
  ⟨Memory.read_write inv _ out, fun a ha => (Memory.byte_write inv _ a out).trans (if_neg (by omega))⟩

theorem execCmpEngineDispatch_ends (holds : s.cmp.engines[i] = some j) :
    execCmpEngineDispatch i true s = .next (((s.setEngine i none s.cmp.queue).endCmp i.val j).cmpTake i.val) := by
  unfold execCmpEngineDispatch
  rw [vget_eq_getElem _ _ i.isLt, show s.cmp.engines[i.val] = some j from holds]
  rfl

section
variable {r : CmdRef} (runs : s.stopping r = false) (clean : s.mem.mem.poisonIn j.src j.srcLen = none)
include runs clean

/-- A compression of an unmarked source whose blocks fit ends with them, and with the CRC of the source (R243). -/
theorem State.endCompress_ends (why : j.why = .command r false) {out : List Byte}
    (blocks : out = (cooperBlocks s.mem.mem j.mode j.level j.log2 false false j.src j.srcLen).flatten) (fits : out.length ≤ j.dstLen) :
    (s.setEngine i none s.cmp.queue).endCmp i.val j =
      (s.jobOutput i j out).finish r .ok (out.length % 2 ^ 32) (crc32c (s.readMem j.src j.srcLen)) false := by
  simp only [State.endCmp, why, State.endCompress, State.setEngine_stopping, State.setEngine_mem, State.setEngine_readMem, runs, clean, ← blocks]
  rw [if_neg (by simp), if_neg (by omega)]
  rfl

/-- An expansion of good blocks that fit ends with the original bytes, and with the number of blocks (R247). -/
theorem State.endExpand_ends (why : j.why = .command r true) {hs : List CooperHead} {out : List Byte}
    (heads : cooperHeads (s.readMem j.src j.srcLen) ((s.readMem j.src j.srcLen).length + 1) 0 = .ok hs)
    (fits : sumNat (hs.map CooperHead.orig) ≤ j.dstLen) (expands : expandAll (s.readMem j.src j.srcLen) hs = .ok out) :
    (s.setEngine i none s.cmp.queue).endCmp i.val j = (s.jobOutput i j out).finish r .ok (out.length % 2 ^ 32) (hs.length % 2 ^ 32) false := by
  simp only [State.endCmp, why, State.endExpand, State.setEngine_stopping, State.setEngine_mem, State.setEngine_readMem, runs, clean, heads, expands]
  rw [if_neg (by omega), if_neg (by simp)]
  rfl

end

/-! ### A failed engine -/

theorem State.retireUnit_only (s : State) (u : UnitKind) (i : Nat) : Only [.mgmt, .host] s (s.retireUnit u i) :=
  State.logErrorPost_only ((Only.refl _ s).mgmt (by simp) _) (by simp) (by simp) _

/-- A failed engine is retired, and the job of a command is the next that another engine takes (R241). -/
theorem execCmpEngineFault_retires {p : Nat} (filled : s.mgmt.units.unitOf .cmpU i.val = some p) : ∃ t : State, execCmpEngineFault i s = .next t ∧
    t.cmp.engines[i] = none ∧ (t.mgmt.units.unit .cmpU i.val).state = .fenced ∧ t.mgmt.units.unitOf .cmpU i.val = none ∧
      (∀ j r ex, s.cmp.engines[i] = some j → j.why = .command r ex → t.cmp.queue = j :: s.cmp.queue) ∧
      (s.cmp.engines[i] = none → t.cmp.queue = s.cmp.queue) ∧ Only [.cmp, .mgmt, .host] s t := by
  have unit : (s.mgmt.units.phys .cmpU)[i.val]? = some s.mgmt.units.cmps[i] := by simp [UnitTable.phys]
  unfold execCmpEngineFault
  rw [filled, if_neg (by simp), vget_eq_getElem _ _ i.isLt]
  extract_lets back
  have retired := (s.setEngine i none (back ++ s.cmp.queue)).retireUnit_only .cmpU i.val
  obtain ⟨fenced, empty⟩ := State.retireUnit_fences (s := s.setEngine i none (back ++ s.cmp.queue)) filled unit
  have cmp := retired.cmp_eq (by simp)
  refine ⟨(s.setEngine i none (back ++ s.cmp.queue)).retireUnit .cmpU i.val, rfl, ?_, fenced, empty, fun j r ex holds why => ?_, fun idle => ?_, ?_⟩
  · rw [cmp]
    exact s.setEngine_same i none (back ++ s.cmp.queue)
  · have own : back = [j] := by simp [back, show s.cmp.engines[i.val] = some j from holds, why]
    rw [cmp]
    simp [State.setEngine, own]
  · have none_ : back = [] := by simp [back, show s.cmp.engines[i.val] = none from idle]
    rw [cmp]
    simp [State.setEngine, none_]
  · exact ((s.setEngine_only ..).mono (by simp)).trans (retired.mono (by simp))

end Sys2Proof.Machine
end

section
namespace Sys2Proof

set_option Elab.async false

open Machine

/-- Settles O47: a descriptor whose checks hold is queued as it says, an engine takes the first queue job, what ends a job writes only its destination, and a
failed engine's job goes to the front. -/
theorem cooperJobsRun : Obligations.CooperJobsRun := by
  unfold Obligations.CooperJobsRun
  intro c s inv
  refine ⟨fun op x y b hop ha hx bx hy by_ hb fields => ?_, fun i d j rest idle unit none_ queue => ?_, fun i j r ex holds why runs clean => ?_,
    fun i filled => ?_⟩
  · intro src dst n m from_ dest apart free runs
    refine ⟨s.queueJob (jobOf op (op == .cmpExpand) c b src dst), ?_, rfl, rfl, s.queueJob_only _⟩
    have queues := cmpSubmit_queues hx bx hy by_ hb fields from_ dest apart free runs
    rcases hop with rfl | rfl
    · exact runCmd_waits ha queues
    · exact runCmd_waits ha queues
  · exact execCmpEngineDispatch_takes d idle unit none_ queue
  · intro src ends
    have out_ {out : List Byte} {r1 : Nat} (fin : out.length ≤ j.dstLen → (s.setEngine i none s.cmp.queue).endCmp i.val j =
        (s.jobOutput i j out).finish r .ok (out.length % 2 ^ 32) r1 false) : ends out r1 := fun fits => by
      obtain ⟨holds_, frame⟩ := s.jobOutput_bytes inv i j out
      obtain ⟨free, queue⟩ := s.jobOutput_cmp i j out
      exact ⟨s.jobOutput i j out, by rw [exec_cmpEngineDispatch, execCmpEngineDispatch_ends holds, fin fits], holds_, frame, free, queue,
        s.jobOutput_only i j out⟩
    refine ⟨fun hex => out_ (State.endCompress_ends runs clean (hex ▸ why) rfl), fun hs out hex heads fits expands => out_ fun _ => ?_⟩
    exact State.endExpand_ends runs clean (hex ▸ why) heads fits expands
  · exact execCmpEngineFault_retires filled

end Sys2Proof
end

section
/-!
SUPPORT. A continuous session that holds an event window whose start has come. REC_MARK_EVENT gives windows to event sessions only (R260), so no command makes
such a session, but the state can hold one: a record that it takes opens the window first, and the window's description goes before the record (R251).
-/
namespace Sys2Proof.Machine

set_option Elab.async false

/-- A ledger source (Table 09-5) whose oldest frame, FN 1, has no record in the ledger any more. -/
def ledgerSource : RecSrc :=
  { entry := layout 16 [(0, 1, 3)], pend := [.ledger 0 1 1 0], head := [], reached := 0, lastFn := none, filledTo := 0, gone := false, rtpSeq := 0,
    packets := 0, octets := 0 }

/-- A KXR session with the DEVICE sink and without EVENT, and yet with a window that starts at time 0. -/
def windowedSession : RecSession :=
  { handle := 0x50000001, blk := layout 128 [(2, 1, 1), (0xC, 4, 0x400000)], buf := 0x10000001, base := Config.heapBase, openNs := 0,
    sources := [ledgerSource], backlog := [], wr := { off := 0, wraps := 0 }, rd := { off := 0, wraps := 0 }, staged := [], seq := 0, armed := true,
    sinkWr := { off := 0, wraps := 0 }, sinkRd := { off := 0, wraps := 0 }, ethSeq := 0, storeOff := 0, store := [],
    windows := [{ start := 0, stop := 1, opened := false }], events := 0, frag := [], fragFrom := 0, marks := [], lastInit := 0, waitFrom := none,
    closing := none, cnt := RecCounters.zero }

/-- The part after reset, with that session. -/
def windowedState : State := { State.reset with recs := [windowedSession] }

/-- The sequence numbers that the sessions of a next state have come to, by handle. -/
def nextSeqs : Host.Outcome State Fault Refusal → List (Handle × Nat)
  | .next t => t.recs.map (fun e => (e.handle, e.seq))
  | _ => []

/-- The record that the source gives: a GAP for the lost frame. -/
theorem windowedState_front : windowedState.srcFront 0 ledgerSource = some (recGap 0 1 1 5 1 0) := by decide +kernel

theorem windowedState_fits : windowedState.recFits windowedSession (recGap 0 1 1 5 1 0).len = true := by decide +kernel

/-- The session takes three sequence numbers: for its SESSION record, its STREAM record and the GAP. -/
theorem windowedState_takes : nextSeqs (exec (.recSourceRecord 0x50000001 0) windowedState) = [(0x50000001, 3)] := by decide +kernel

end Sys2Proof.Machine
end

section
namespace Sys2Proof

set_option Elab.async false

open Machine

/-- Refutes O49: REC_SOURCE_RECORD is to stage one record of a session without EVENT under the next sequence number, and nothing in the statement keeps such a
session from holding an event window. One whose start has come opens first, so that the record has the third number, behind the description. -/
theorem not_recordingSessionsRun : ¬ Obligations.RecordingSessionsRun := by
  unfold Obligations.RecordingSessionsRun
  intro holds
  obtain ⟨-, -, sessions⟩ := holds
    { flags := 0, rsvd03 := 0, cid := 0, rsvd06 := 0, handle := 0, aux := 0, ptr := 0, ptrLen := 0, ptrSpace := 0, rsvd1C := 0,
      param := Vector.replicate 8 0, qid := 0, host := .failed } windowedState
  obtain ⟨records, -⟩ := sessions 0x50000001 windowedSession (by decide +kernel)
  obtain ⟨fits, -⟩ := records 0 ledgerSource (recGap 0 1 1 5 1 0) 0 1 1 0 [] State.reset_wf rfl rfl (by decide) rfl windowedState_front (by decide) (by decide)
    (by decide) rfl (by decide) (by decide)
  obtain ⟨t, step, -, next, -⟩ := fits windowedState_fits
  have taken : t.recs.map (fun e => (e.handle, e.seq)) = [(0x50000001, 3)] := by
    have := windowedState_takes
    rwa [step] at this
  obtain ⟨y, hy, e⟩ := List.mem_map.mp (taken ▸ List.mem_singleton_self (0x50000001, 3))
  obtain ⟨own, third⟩ := Prod.mk.inj e
  obtain ⟨z, hz, -, one, -⟩ := next y hy own
  obtain rfl := List.mem_singleton.mp hz
  exact absurd (third.symm.trans one) (by decide)

end Sys2Proof
end

section
/-!
SUPPORT. The heads and layers of the display: reads after updates, and the checks of a display command that pass.
-/
namespace Sys2Proof

set_option Elab.async false

open Machine

theorem Only.disp_eq {ps : List Part} {s t : State} (h : Only ps s t) (hd : Part.disp ∉ ps) : t.disp = s.disp := h.same .disp hd

end Sys2Proof

namespace Sys2Proof.Machine

set_option Elab.async false

variable {s t : State} {c : Cmd} {i : Nat} {h : DispHead} {ps : List Part}

/-! ### The head of a number -/

theorem State.head_lt (hh : s.head i = some h) : i < 4 := by
  by_contra out
  simp [State.head, vget, out] at hh

theorem State.head_congr (same : t.disp = s.disp) (i : Nat) : t.head i = s.head i := by
  unfold State.head
  rw [same]

theorem State.head_mapHead (s : State) (i : Nat) (f : DispHead → DispHead) (j : Nat) :
    (s.mapHead i f).head j = if j = i then (s.head j).map f else s.head j := by
  refine (vget_vmod s.disp.heads none i (Option.map f) j).trans ?_
  by_cases lt : i < 4
  · simp [lt, State.head]
  · by_cases own : j = i
    · simp [State.head, vget, own, lt]
    · simp [State.head, own]

theorem State.head_mapHead_some (hh : s.head i = some h) (f : DispHead → DispHead) : (s.mapHead i f).head i = some (f h) := by
  rw [State.head_mapHead, if_pos rfl, hh]
  rfl

/-- What holds in the place of a head is replaced. -/
def State.putHead (i : Nat) (o : Option DispHead) (s : State) : State := s.mapDisp (fun d => { d with heads := vmod d.heads i (fun _ => o) })

theorem State.head_putHead (lt : i < 4) (o : Option DispHead) (s : State) : (s.putHead i o).head i = o :=
  (vget_vmod s.disp.heads none i (fun _ => o) i).trans (if_pos ⟨rfl, lt⟩)

theorem State.mapDisp_only (hs : Only ps s t) (hd : Part.disp ∈ ps) (f : DispSt → DispSt) : Only ps s (t.mapDisp f) := hs.disp hd _

theorem State.mapHead_only (hs : Only ps s t) (hd : Part.disp ∈ ps) (i : Nat) (f : DispHead → DispHead) : Only ps s (t.mapHead i f) := hs.disp hd _

/-! ### Checks -/

theorem needHead_of_head (hi : s.disp.headOf c.handle = some i) (hh : s.head i = some h) : needHead s c = .ok (i, h) := by
  unfold needHead
  rw [hi, needSome_bind_some, hh]
  rfl

theorem needNoClones_of_nil (alone : s.cloneTargets i = []) : needNoClones s i = .ok () := by
  unfold needNoClones
  rw [alone]
  rfl

/-! ### Commands that end, and commands that wait -/

theorem State.foldl_finish_only {α : Type} (hs : Only ps s t) (hh : Part.host ∈ ps) (hm : Part.mgmt ∈ ps) (l : List α) (r : α → CmdRef)
    (st : α → Status) (r0 r1 : α → Nat) : Only ps s (l.foldl (fun u a => u.finish (r a) (st a) (r0 a) (r1 a) false) t) :=
  Only.foldl _ (fun _ _ k => State.finish_only k hh hm ..) l t hs

theorem State.keepInFlight_disp (s : State) (r : CmdRef) : (s.keepInFlight r).disp = s.disp :=
  (State.keepInFlight_only (ps := [.host]) (.refl _ s) (by simp) r).disp_eq (by simp)

/-! ### A head that stops -/

/-- A head that has stopped (R290). -/
def DispHead.stopped (x : DispHead) : DispHead :=
  { x with
    run := .off, hold := none, next := none, modeRefs := [], stops := [], blankLeft := 0, blankNow := false, locked := false, lockRun := 0,
    line := tbH x.blk, wb := x.wb.abandon x.wbSlot, wbSlot := none, cloneOf := none, cloneNext := none, cloneRef := none }

/-- A head that stops keeps nothing that waits for its raster, and only the commands that waited and the loads of banks change beside it. -/
theorem State.stopHead_stops (hh : s.head i = some h) : (s.stopHead i).head i = some h.stopped ∧ Only [.disp, .host, .mgmt] s (s.stopHead i) := by
  unfold State.stopHead
  split
  case h_1 off => exact absurd (off.symm.trans hh) (by simp)
  case h_2 x found =>
  obtain rfl := Option.some.inj (hh.symm.trans found)
  extract_lets t1 t2 gone t3 done t4
  have one : Only [.disp] s t1 := State.mapHead_only (.refl _ s) (by simp) ..
  have two : Only [.host, .mgmt] t1 t2 := State.foldl_finish_only (.refl _ _) (by simp) (by simp) h.stops id (fun _ => .ok) (fun _ => 0) (fun _ => 0)
  have three : Only [.host, .mgmt] t1 t3 := State.foldl_finish_only two (by simp) (by simp) gone id (fun _ => .notReady) (fun _ => 0x90) (fun _ => 0)
  have four : Only [.disp, .host, .mgmt] s t4 := State.mapDisp_only ((one.mono (by simp)).trans (three.mono (by simp))) (by simp) _
  have last (u : State) (k : Only [.host, .mgmt] t4 u) : u.head i = some h.stopped := by
    rw [State.head_congr (k.disp_eq (by simp))]
    show t3.head i = some h.stopped
    rw [State.head_congr (three.disp_eq (by simp))]
    exact State.head_mapHead_some hh _
  have five := State.foldl_finish_only (.refl [.host, .mgmt] t4) (by simp) (by simp) done BankLoad.by_ (fun _ => .ok) (fun _ => 0) (fun _ => 0)
  exact ⟨last _ five, four.trans (five.mono (by simp))⟩

end Sys2Proof.Machine
end

section
/-!
SUPPORT. DISP_SET_TIMING by its operation (R265, R266, R279, R290, R291).
-/
namespace Sys2Proof.Machine

set_option Elab.async false

variable {c : Cmd} {s : State} {b : List Byte} {i : Nat} {h : DispHead}

/-- The rules of each operation of DISP_SET_TIMING. -/
def dispSetTimingOp (op : Nat) (c : Cmd) (s : State) : Chk Done :=
  match op with
  | 0 => dispTiming c s
  | 1 => dispAttributes c s
  | 2 => dispStop c s
  | 3 => dispRelease c s
  | 4 => dispWbRelease c s
  | _ => .error (badParam 0)

/-- Behind the checks of the words that the operation takes, its own rules run. -/
theorem execDispSetTiming_runs {op : Nat} (hop : par c 0 % 8 = op) (whole : op = 0 ∨ par c 0 < 8) (ring : op = 4 ∨ par c 1 = 0)
    (buf : op = 1 ∨ c.aux = 0) : execDispSetTiming c s = runCmd .dispSetTiming c s (dispSetTimingOp op c s) := by
  have first : (op == 0 || decide (par c 0 < 8)) = true := by simpa using whole
  have second : (op == 4 || par c 1 == 0) = true := by simpa using ring
  have third : (op == 1 || c.aux == 0) = true := by simpa using buf
  unfold execDispSetTiming
  simp only [hop, need_bind_true first, need_bind_true second, need_bind_true third]
  rfl

/-! ### A timing (R266, R267, R290) -/

/-- A lane whose quad is for egress adds nothing to the checks of the block. -/
theorem timingFields_on_egress {egress : Bool} (on : egress = true) :
    (timingFields b).map (fun f => if f.1 = 0x12 then (f.1, f.2 && egress) else f) = timingFields b := by
  rw [on]
  exact (List.map_congr_left fun f _ => by simp).trans (List.map_id _)

/-- A head just claimed waits for its first frame start. -/
def claimedHead (c : Cmd) (s : State) (b : List Byte) : DispHead :=
  { DispHead.fresh (s.nextHandle 6) b with
    next := some b, modeRefs := [(ref .dispSetTiming c, true)], run := .waiting, hold := some (startHold b s.ns) }

section
variable (hb : structFor s c (.read 64) = .ok b) (fields : firstBad (timingFields b) = none) (chan : isChannel (tbLane b) = true)
  (egress : (s.lanes.quad (tbLane b / 4)).role = .egress) (free : s.laneHolder (tbLane b) (some i) = none)
include hb fields chan egress free

theorem dispTiming_claims (h0 : c.handle = 0) (own : i = bitsOf (par c 0) 9 8) (none_ : s.head i = none) :
    dispTiming c s = waitDone .dispSetTiming c ((s.issue 6).putHead i (some (claimedHead c s b))) := by
  have on : (isChannel (tbLane b) && (s.lanes.quad (tbLane b / 4)).role == .egress) = true := by simp [chan, egress]
  subst own
  unfold dispTiming
  simp only [hb, ok_bind, h0, if_true, need_bind_true (b := (0 : Handle) == 0 || _) rfl,
    timingFields_on_egress on, needFields_of_firstBad fields, none_, free, Option.map_none]
  rfl

theorem dispTiming_retimes (h0 : c.handle ≠ 0) (op : par c 0 = 0) (hi : s.disp.headOf c.handle = some i) (hh : s.head i = some h)
    (leads : h.cloning = false) : ∃ x : DispHead, dispTiming c s = waitDone .dispSetTiming c (s.putHead i (some x)) ∧
    x.next = some b ∧ x.modeRefs = h.modeRefs ++ [(ref .dispSetTiming c, false)] ∧ x.blk = h.blk ∧ x.count = h.count := by
  have on : (isChannel (tbLane b) && (s.lanes.quad (tbLane b / 4)).role == .egress) = true := by simp [chan, egress]
  have small : (c.handle == 0 || decide (par c 0 < 8)) = true := by simp [op]
  unfold dispTiming
  simp only [hb, ok_bind, if_neg h0, needHead_of_head hi hh, Except.map, need_bind_true small, timingFields_on_egress on, needFields_of_firstBad fields, free,
    Option.map_some, Option.getD_some, leads, Bool.not_false, need_bind_true, Option.isNone_some]
  refine ⟨_, rfl, ?_⟩
  cases h.run with
  | off | waiting => exact ⟨rfl, rfl, rfl, rfl⟩
  | running => cases h.hold.isSome && h.next.isSome <;> exact ⟨rfl, rfl, rfl, rfl⟩

variable (ha : Accepted .dispSetTiming c s) (op : par c 0 % 8 = 0) (p1 : par c 1 = 0) (aux : c.aux = 0)
include ha op p1 aux

theorem execDispSetTiming_claims (h0 : c.handle = 0) (own : i = bitsOf (par c 0) 9 8) (none_ : s.head i = none) : ∃ (u : State) (h : DispHead),
    execDispSetTiming c s = .next (u.keepInFlight (ref .dispSetTiming c)) ∧ u.head i = some h ∧ h.handle = s.nextHandle 6 ∧ h.next = some b ∧
      h.run = .waiting ∧ h.hold = some (startHold b s.ns) ∧ h.count = 0 ∧ h.modeRefs = [(ref .dispSetTiming c, true)] ∧ Only [.disp, .issued] s u := by
  have lt : i < 4 := by
    simp [own, bitsOf]
    omega
  refine ⟨(s.issue 6).putHead i (some (claimedHead c s b)), claimedHead c s b, ?_, State.head_putHead lt .., rfl, rfl, rfl, rfl, rfl, rfl,
    State.mapDisp_only ((Only.refl _ s).issued (by simp) _) (by simp) _⟩
  rw [execDispSetTiming_runs op (.inl rfl) (.inr p1) (.inr aux)]
  exact runCmd_waits ha (dispTiming_claims hb fields chan egress free h0 own none_)

theorem execDispSetTiming_retimes (h0 : c.handle ≠ 0) (whole : par c 0 = 0) (hi : s.disp.headOf c.handle = some i) (hh : s.head i = some h)
    (leads : h.cloning = false) : ∃ (u : State) (x : DispHead), execDispSetTiming c s = .next (u.keepInFlight (ref .dispSetTiming c)) ∧ u.head i = some x ∧
      x.next = some b ∧ x.modeRefs = h.modeRefs ++ [(ref .dispSetTiming c, false)] ∧ x.blk = h.blk ∧ x.count = h.count ∧ Only [.disp] s u := by
  obtain ⟨x, runs, next, refs, blk, count⟩ := dispTiming_retimes hb fields chan egress free h0 whole hi hh leads
  refine ⟨s.putHead i (some x), x, ?_, State.head_putHead (State.head_lt hh) .., next, refs, blk, count, State.mapDisp_only (.refl _ s) (by simp) _⟩
  rw [execDispSetTiming_runs op (.inl rfl) (.inr p1) (.inr aux)]
  exact runCmd_waits ha runs

end

/-! ### Attributes, stop, release and the writeback ring (R279, R290, R291) -/

/-- The head with the command that waits for its stop. -/
def State.addStop (i : Nat) (r : CmdRef) (s : State) : State := (s.keepInFlight r).mapHead i (fun h => { h with stops := h.stops ++ [r] })

theorem State.head_addStop (hh : s.head i = some h) (r : CmdRef) : (s.addStop i r).head i = some { h with stops := h.stops ++ [r] } :=
  State.head_mapHead_some ((State.head_congr (s.keepInFlight_disp r) i).trans hh) _

theorem State.addStop_only (s : State) (i : Nat) (r : CmdRef) : Only [.disp, .host] s (s.addStop i r) :=
  State.mapHead_only (State.keepInFlight_only (.refl _ s) (by simp) r) (by simp) ..

section
variable (ha : Accepted .dispSetTiming c s) (hi : s.disp.headOf c.handle = some i) (hh : s.head i = some h)
include ha hi hh

omit hi in
/-- DISP_SET_TIMING completes with OK, and one head is another. -/
theorem execDispSetTiming_maps {op r0 : Nat} {f : DispHead → DispHead}
    (runs : execDispSetTiming c s = runCmd .dispSetTiming c s (dispSetTimingOp op c s)) (body : dispSetTimingOp op c s = okDone r0 0 (s.mapHead i f)) :
    ∃ u : State, execDispSetTiming c s = .next (u.complete (ref .dispSetTiming c) .ok r0 0 false) ∧ u.head i = some (f h) ∧ Only [.disp] s u :=
  ⟨s.mapHead i f, runs.trans (runCmd_done ha body), State.head_mapHead_some hh f, State.mapHead_only (.refl _ s) (by simp) ..⟩

section
variable (op : par c 0 = 1) (p1 : par c 1 = 0) (hb : structFor s c (.read 32) = .ok b) (fields : firstBad (attrFields b) = none)
include op p1 hb fields

theorem execDispSetTiming_attributes (off : abEn b = false) (aux : c.aux = 0) : ∃ u : State,
    execDispSetTiming c s = .next (u.complete (ref .dispSetTiming c) .ok 0 0 false) ∧
      u.head i = some { h with attrNext := { blk := b, buf := 0, base := 0, len := 0 } } ∧ Only [.disp] s u := by
  have free : (c.aux == 0) = true := by simp [aux]
  refine execDispSetTiming_maps ha hh (f := fun h => { h with attrNext := { blk := b, buf := 0, base := 0, len := 0 } })
    (execDispSetTiming_runs (op := 1) (by omega) (by omega) (.inr p1) (.inl rfl)) ?_
  unfold dispSetTimingOp dispAttributes
  simp only [hb, needHead_of_head hi hh, needFields_of_firstBad fields, ok_bind, off, need_bind_true free]
  rfl

theorem execDispSetTiming_writeback {y : Buffer} (on : abEn b = true) (ht : typeOf c.aux = 1) (hy : s.buffer c.aux = some y)
    (room : abSlots b * wbSlotSize (h.next.getD h.blk) b ≤ y.size)
    (free : needRing s h.handle (0x950 + i) y.base (abSlots b * wbSlotSize (h.next.getD h.blk) b) = .ok ()) : ∃ u : State,
    execDispSetTiming c s = .next (u.complete (ref .dispSetTiming c) .ok 0 0 false) ∧
      u.head i = some { h with attrNext := { blk := b, buf := c.aux, base := y.base, len := y.size } } ∧ Only [.disp] s u := by
  have fits : decide (abSlots b * wbSlotSize (h.next.getD h.blk) b ≤ y.size) = true := by simpa using room
  refine execDispSetTiming_maps ha hh (f := fun h => { h with attrNext := { blk := b, buf := c.aux, base := y.base, len := y.size } })
    (execDispSetTiming_runs (op := 1) (by omega) (by omega) (.inr p1) (.inl rfl)) ?_
  unfold dispSetTimingOp dispAttributes
  simp only [hb, needHead_of_head hi hh, needFields_of_firstBad fields, ok_bind, on, if_true, needBuffer_of_buffer ht hy, need_bind_true fits, free]

end

variable (bare : structFor s c .none = .ok []) (aux : c.aux = 0)
include bare aux

theorem execDispSetTiming_wbRelease (op : par c 0 = 4) :
    let ring := h.wb.release 0 (fun q => decide (sext 32 (2 ^ 32 + q.fn % 2 ^ 32 - par c 1) ≤ 0))
    ∃ u : State, execDispSetTiming c s = .next (u.complete (ref .dispSetTiming c) .ok (h.wb.inUse - ring.inUse) 0 false) ∧
      u.head i = some { h with wb := ring } ∧ Only [.disp] s u := by
  intro ring
  refine execDispSetTiming_maps ha hh (f := fun h => { h with wb := ring })
    (execDispSetTiming_runs (op := 4) (by omega) (by omega) (.inl rfl) (.inr aux)) ?_
  unfold dispSetTimingOp dispWbRelease
  simp only [bare, needHead_of_head hi hh, ok_bind, ring]

variable (p1 : par c 1 = 0) (alone : s.cloneTargets i = [])
include p1 alone

section
variable (op : par c 0 = 2)
include op

theorem execDispSetTiming_stopOff (off : h.run = .off) :
    execDispSetTiming c s = .next (s.complete (ref .dispSetTiming c) .notReady 0x90 0 false) := by
  have idle : (h.run != .off) = false := by simp [off]
  rw [execDispSetTiming_runs (op := 2) (by omega) (by omega) (.inr p1) (.inr aux)]
  refine runCmd_refuses ha (by decide) (f := notReady 0x90) ?_ rfl
  unfold dispSetTimingOp dispStop
  simp only [bare, needHead_of_head hi hh, needNoClones_of_nil alone, ok_bind, need_bind_false idle]

theorem execDispSetTiming_stopWaiting (waits : h.run = .waiting) : ∃ (t : State) (x : DispHead), execDispSetTiming c s = .next t ∧ t.head i = some x ∧
    x.run = .off ∧ Only [.disp, .host, .mgmt] s t := by
  obtain ⟨head, only⟩ := State.stopHead_stops (State.head_addStop hh (ref .dispSetTiming c))
  refine ⟨_, _, ?_, head, rfl, ((s.addStop_only ..).mono (by simp)).trans only⟩
  rw [execDispSetTiming_runs (op := 2) (by omega) (by omega) (.inr p1) (.inr aux)]
  refine runCmd_waits ha ?_
  unfold dispSetTimingOp dispStop
  simp only [bare, needHead_of_head hi hh, needNoClones_of_nil alone, ok_bind, waits, if_true]
  rfl

theorem execDispSetTiming_stopRunning (runs : h.run = .running) : ∃ t : State, execDispSetTiming c s = .next t ∧
    t.head i = some { h with stops := h.stops ++ [ref .dispSetTiming c] } ∧ Only [.disp, .host] s t := by
  refine ⟨s.addStop i (ref .dispSetTiming c), ?_, State.head_addStop hh _, s.addStop_only ..⟩
  rw [execDispSetTiming_runs (op := 2) (by omega) (by omega) (.inr p1) (.inr aux)]
  refine runCmd_waits ha ?_
  unfold dispSetTimingOp dispStop
  simp only [bare, needHead_of_head hi hh, needNoClones_of_nil alone, ok_bind, runs]
  rfl

end

variable (op : par c 0 = 3) (off : h.run = .off)
include op off

theorem execDispSetTiming_releaseLayered (layers : s.layersOf i ≠ []) :
    execDispSetTiming c s = .next (s.complete (ref .dispSetTiming c) .notReady 0x92 0 false) := by
  have idle : (h.run == .off) = true := by simp [off]
  have held : (s.layersOf i).isEmpty = false := by simpa using layers
  rw [execDispSetTiming_runs (op := 3) (by omega) (by omega) (.inr p1) (.inr aux)]
  refine runCmd_refuses ha (by decide) (f := notReady 0x92) ?_ rfl
  unfold dispSetTimingOp dispRelease
  simp only [bare, needHead_of_head hi hh, needNoClones_of_nil alone, ok_bind, need_bind_true idle, need_bind_false held]

/-- A released head leaves nothing behind: what its armed sets waited for ends, and its place is free. -/
theorem execDispSetTiming_releases (none_ : s.layersOf i = []) : ∃ u : State,
    execDispSetTiming c s = .next (u.complete (ref .dispSetTiming c) .ok 0 0 false) ∧ u.head i = none ∧ Only [.disp, .host, .mgmt] s u := by
  have idle : (h.run == .off) = true := by simp [off]
  have layerless : (s.layersOf i).isEmpty = true := by simp [none_]
  have ended := State.foldl_finish_only (.refl [.disp, .host, .mgmt] s) (by simp) (by simp) h.armed ArmedSet.by_ (fun _ => .notReady)
    (fun _ => 0x90) (fun _ => 0)
  refine ⟨State.putHead i none _, ?_, State.head_putHead (State.head_lt hh) none _, State.mapDisp_only ended (by simp) _⟩
  rw [execDispSetTiming_runs (op := 3) (by omega) (by omega) (.inr p1) (.inr aux)]
  refine runCmd_done ha ?_
  unfold dispSetTimingOp dispRelease
  simp only [bare, needHead_of_head hi hh, needNoClones_of_nil alone, ok_bind, need_bind_true idle, need_bind_true layerless]
  rfl

end

end Sys2Proof.Machine
end

section
/-!
SUPPORT. DISP_COMMIT, DISP_LOAD_COEF, DISP_CRC_SET and DISP_CLONE (R271, R274, R279, R292, R293).
-/
namespace Sys2Proof.Machine

set_option Elab.async false

variable {c : Cmd} {s : State} {i : Nat} {h : DispHead}

/-! ### DISP_COMMIT -/

/-- How far the target of a DISP_COMMIT lies ahead of a head's frame count (R279). -/
def commitAhead (c : Cmd) (h : DispHead) : Int := sext 32 (2 ^ 32 + par c 0 - h.count % 2 ^ 32)

/-- The set that a head has staged. -/
def State.stagedSet (s : State) (i : Nat) : List (Handle × List Byte) := (s.layersOf i).filterMap (fun l => l.next.map (fun b => (l.handle, b)))

/-- Whether the target of a DISP_COMMIT has passed. -/
def commitLate (c : Cmd) (s : State) (h : DispHead) : Bool :=
  !bitOf (par c 1) 0 && decide ((h.count : Int) + commitAhead c h < (h.earliest s.time.stamp : Int))

section
variable (hi : s.disp.headOf c.handle = some i) (hh : s.head i = some h) (begun : h.run ≠ .off) (room : h.armed.length < 4)
  (near : bitOf (par c 1) 0 = true ∨ commitAhead c h + 1 ≤ 64)
  (rate : ∀ l ∈ s.stagedSet i, lbVisible l.2 = true → lbDelete l.2 = false → lbKind l.2 ≠ 0 → pipeRate (h.next.getD h.blk) l.2 ≤ 2400000000)
  (ready : ∀ l ∈ s.stagedSet i, lbDelete l.2 = false → ∀ r, lbBind l.2 = some r → s.srcReady r = true)
include hi hh begun room near rate ready

/-- The rules of DISP_COMMIT where the budget holds and every source is ready. -/
theorem execDispCommit_runs : execDispCommit c s = runCmd .dispCommit c s (do
    need (!(commitLate c s h && strict c)) (tooLate (h.earliest s.time.stamp % 2 ^ 32))
    waitDone .dispCommit c (s.mapHead i (fun y => { y with
      armed := y.armed ++ [{
        target := if bitOf (par c 1) 0 || commitLate c s h then h.earliest s.time.stamp else ((h.count : Int) + commitAhead c h).toNat,
        by_ := ref .dispCommit c, late := commitLate c s h, attr := y.attrNext, layers := s.stagedSet i }] }))) := by
  have on : (h.run != .off) = true := by simpa using begun
  have free : Nat.blt h.armed.length 4 = true := by simpa [Nat.blt_eq] using room
  have close : (bitOf (par c 1) 0 || decide (commitAhead c h + 1 ≤ 64)) = true := by simpa using near
  have within_ : (s.stagedSet i).find? (fun l => lbVisible l.2 && !lbDelete l.2 && lbKind l.2 != 0 &&
      decide (2400000000 < pipeRate (h.next.getD h.blk) l.2)) = none := by
    refine List.find?_eq_none.mpr fun l hl over_ => ?_
    simp only [Bool.and_eq_true, Bool.not_eq_true', bne_iff_ne, decide_eq_true_eq] at over_
    obtain ⟨⟨⟨visible, kept⟩, kind⟩, fast⟩ := over_
    exact absurd fast (not_lt.mpr (rate l hl visible kept kind))
  have sound : (s.stagedSet i).all (fun l => lbDelete l.2 || ((lbBind l.2).map s.srcReady).getD true) = true := by
    refine List.all_eq_true.mpr fun l hl => ?_
    cases kept : lbDelete l.2 with
    | true => rfl
    | false =>
      cases bound : lbBind l.2 with
      | none => rfl
      | some r => exact ready l hl kept r bound
  unfold commitAhead at close
  unfold State.stagedSet at within_ sound
  unfold execDispCommit commitLate commitAhead State.stagedSet
  simp only [needHead_of_head hi hh, ok_bind, need_bind_true on, need_bind_true free, need_bind_true close, within_, need_bind_true sound]

theorem execDispCommit_tooLate (ha : Accepted .dispCommit c s) (late : commitLate c s h = true) (firm : strict c = true) :
    execDispCommit c s = .next (s.complete (ref .dispCommit c) .tooLate (h.earliest s.time.stamp % 2 ^ 32) 0 false) := by
  rw [execDispCommit_runs hi hh begun room near rate ready]
  exact runCmd_refuses ha (by decide) (f := tooLate (h.earliest s.time.stamp % 2 ^ 32)) (need_bind_false (by simp [late, firm]) ..) rfl

theorem execDispCommit_arms (ha : Accepted .dispCommit c s) (may : ¬ (commitLate c s h = true ∧ strict c = true)) : ∃ u : State,
    execDispCommit c s = .next (u.keepInFlight (ref .dispCommit c)) ∧ Only [.disp] s u ∧
      u.head i = some { h with armed := h.armed ++ [{
        target := if bitOf (par c 1) 0 || commitLate c s h then h.earliest s.time.stamp else ((h.count : Int) + commitAhead c h).toNat,
        by_ := ref .dispCommit c, late := commitLate c s h, attr := h.attrNext, layers := s.stagedSet i }] } := by
  have passes : (!(commitLate c s h && strict c)) = true := by rwa [Bool.not_eq_true', ← Bool.not_eq_true, Bool.and_eq_true]
  rw [execDispCommit_runs hi hh begun room near rate ready, need_bind_true passes]
  exact ⟨_, runCmd_waits ha rfl, State.mapHead_only (.refl _ s) (by simp) .., State.head_mapHead_some hh _⟩

end

/-! ### DISP_LOAD_COEF -/

/-- A bank with a new content. -/
def State.setBank (k : Nat) (b : List Byte) (s : State) : State := s.mapDisp (fun d => { d with banks := vmod d.banks k (fun _ => b) })

theorem State.setBank_bank {k : Nat} (lt : k < 16) (b : List Byte) (s : State) : vget (s.setBank k b).disp.banks [] k = b :=
  (vget_vmod s.disp.banks [] k (fun _ => b) k).trans (if_pos ⟨rfl, lt⟩)

/-- A load that waits for heads to latch its bank. -/
def State.addLoad (l : BankLoad) (s : State) : State := s.mapDisp (fun d => { d with loads := d.loads ++ [l] })

section
variable {b : List Byte} (ha : Accepted .dispLoadCoef c s) (dev : c.ptrSpace = 1) (low : 1 ≤ par c 0) (high : par c 0 < 16) (hb : structBytes s c = .ok b)
  (sound : badPhase b = none)
include dev low hb sound

/-- The rules of DISP_LOAD_COEF for a bank whose phases are sound. -/
theorem execDispLoadCoef_runs : execDispLoadCoef c s = runCmd .dispLoadCoef c s
    (if (s.bankUsers (par c 0)).isEmpty then okDone 0 0 (s.setBank (par c 0) b)
    else waitDone .dispLoadCoef c ((s.setBank (par c 0) b).addLoad { by_ := ref .dispLoadCoef c, heads := s.bankUsers (par c 0) })) := by
  have local_ : (c.ptrSpace == 1) = true := by simp [dev]
  have other : (par c 0 != 0) = true := by simpa using Nat.ne_of_gt low
  unfold execDispLoadCoef
  simp only [needPar0, need_bind_true local_, need_bind_true other, hb, ok_bind, sound]
  rfl

include ha high

theorem execDispLoadCoef_unused (none_ : s.bankUsers (par c 0) = []) : ∃ u : State,
    execDispLoadCoef c s = .next (u.complete (ref .dispLoadCoef c) .ok 0 0 false) ∧ vget u.disp.banks [] (par c 0) = b ∧ Only [.disp] s u := by
  refine ⟨s.setBank (par c 0) b, ?_, State.setBank_bank high b s, State.mapDisp_only (.refl _ s) (by simp) _⟩
  rw [execDispLoadCoef_runs dev low hb sound, none_]
  exact runCmd_done ha rfl

theorem execDispLoadCoef_used (some_ : s.bankUsers (par c 0) ≠ []) : ∃ u : State, execDispLoadCoef c s = .next (u.keepInFlight (ref .dispLoadCoef c)) ∧
    vget u.disp.banks [] (par c 0) = b ∧ u.disp.loads = s.disp.loads ++ [{ by_ := ref .dispLoadCoef c, heads := s.bankUsers (par c 0) }] ∧ Only [.disp] s u := by
  refine ⟨(s.setBank (par c 0) b).addLoad { by_ := ref .dispLoadCoef c, heads := s.bankUsers (par c 0) }, ?_, State.setBank_bank high b s, rfl,
    State.mapDisp_only (State.mapDisp_only (.refl _ s) (by simp) _) (by simp) _⟩
  rw [execDispLoadCoef_runs dev low hb sound, if_neg (by simpa using some_)]
  exact runCmd_waits ha rfl

end

/-! ### DISP_CRC_SET -/

/-- The rectangle that a DISP_CRC_SET gives (Table 10-17). -/
def crcRectOf (c : Cmd) : CrcRect :=
  { en := bitOf (par c 0) 8, check := bitOf (par c 0) 9, x := par c 1 % 65536, y := par c 1 / 65536, w := par c 2 % 65536, h := par c 2 / 65536,
    expect := par c 3 }

theorem execDispCrcSet_stages (ha : Accepted .dispCrcSet c s) (hi : s.disp.headOf c.handle = some i) (hh : s.head i = some h)
    (inside : (crcRectOf c).en = true → (crcRectOf c).x < tbW h.blk ∧ (crcRectOf c).y < tbH h.blk ∧ 1 ≤ (crcRectOf c).w ∧ 1 ≤ (crcRectOf c).h ∧
      (crcRectOf c).x + (crcRectOf c).w ≤ tbW h.blk ∧ (crcRectOf c).y + (crcRectOf c).h ≤ tbH h.blk) :
    ∃ (u : State) (x : DispHead), execDispCrcSet c s = .next (u.complete (ref .dispCrcSet c) .ok (h.count % 2 ^ 32) 0 false) ∧ u.head i = some x ∧
      vget x.rectNext CrcRect.off (par c 0 % 16) = crcRectOf c ∧ x.rects = h.rects ∧ Only [.disp] s u := by
  have place : (!(crcRectOf c).en || (decide ((crcRectOf c).x < tbW h.blk) && decide ((crcRectOf c).y < tbH h.blk))) = true := by
    cases on : (crcRectOf c).en with
    | false => rfl
    | true =>
      obtain ⟨hx, hy, -⟩ := inside on
      simp [hx, hy]
  have size : (!(crcRectOf c).en || (decide (1 ≤ (crcRectOf c).w) && decide (1 ≤ (crcRectOf c).h) &&
      decide ((crcRectOf c).x + (crcRectOf c).w ≤ tbW h.blk) && decide ((crcRectOf c).y + (crcRectOf c).h ≤ tbH h.blk))) = true := by
    cases on : (crcRectOf c).en with
    | false => rfl
    | true =>
      obtain ⟨-, -, hw, hht, right, bottom⟩ := inside on
      simp [hw, hht, right, bottom]
  refine ⟨s.mapHead i (fun x => { x with rectNext := vmod x.rectNext (par c 0 % 16) (fun _ => crcRectOf c) }), _, ?_, State.head_mapHead_some hh _,
    (vget_vmod ..).trans (if_pos ⟨rfl, Nat.mod_lt _ (by decide)⟩), rfl, State.mapHead_only (.refl _ s) (by simp) ..⟩
  unfold execDispCrcSet
  refine runCmd_done ha ?_
  simp only [needHead_of_head hi hh, ok_bind]
  exact (need_bind_true place ..).trans (need_bind_true size ..)

/-! ### DISP_CLONE -/

/-- What a DISP_CLONE leaves to a frame start: an earlier one that waits ends, and this one takes its place (R292). -/
def State.armClone (i : Nat) (h : DispHead) (r : CmdRef) (src : Option Nat) (s : State) : State :=
  (s.finishOpt (h.cloneNext.map (·.1)) .notReady 0x91 0 false).mapHead i (fun x => { x with cloneNext := some (r, src) })

theorem State.head_armClone (hh : s.head i = some h) (r : CmdRef) (src : Option Nat) :
    (s.armClone i h r src).head i = some { h with cloneNext := some (r, src) } := by
  have same := (State.finishOpt_only (ps := [.host, .mgmt]) (.refl _ s) (by simp) (by simp) (h.cloneNext.map (·.1)) .notReady 0x91 0 false).disp_eq (by simp)
  exact State.head_mapHead_some ((State.head_congr same i).trans hh) _

theorem State.armClone_only (s : State) (i : Nat) (h : DispHead) (r : CmdRef) (src : Option Nat) : Only [.disp, .host, .mgmt] s (s.armClone i h r src) :=
  State.mapHead_only (State.finishOpt_only (.refl _ s) (by simp) (by simp) ..) (by simp) ..

section
variable (hi : s.disp.headOf c.handle = some i) (hh : s.head i = some h) (ha : Accepted .dispClone c s)
include hi hh ha

theorem execDispClone_still (none_ : c.aux = 0) (leads : h.cloning = false) :
    execDispClone c s = .next (s.complete (ref .dispClone c) .ok (h.count % 2 ^ 32) 0 false) := by
  unfold execDispClone
  refine runCmd_done ha ?_
  simp only [needHead_of_head hi hh, ok_bind, none_, if_true, leads]
  rfl

theorem execDispClone_ends (none_ : c.aux = 0) (follows : h.cloning = true) :
    execDispClone c s = .next ((s.armClone i h (ref .dispClone c) none).keepInFlight (ref .dispClone c)) := by
  unfold execDispClone
  refine runCmd_waits ha ?_
  simp only [needHead_of_head hi hh, ok_bind, none_, if_true, follows]
  unfold State.armClone
  cases h.cloneNext <;> rfl

theorem execDispClone_follows {j : Nat} {x : DispHead} (some_ : c.aux ≠ 0) (hj : s.disp.headOf c.aux = some j) (hx : s.head j = some x)
    (alone : s.cloneTargets i = []) (other : j ≠ i) (leads : x.cloning = false) (bare : s.layersOf i = []) (begun : x.run ≠ .off) :
    execDispClone c s = .next ((s.armClone i h (ref .dispClone c) (some j)).keepInFlight (ref .dispClone c)) := by
  have first : (s.cloneTargets i).isEmpty = true := by simp [alone]
  have second : (j != i && !x.cloning) = true := by simp [other, leads]
  have third : (s.layersOf i).isEmpty = true := by simp [bare]
  have fourth : (x.run != .off) = true := by simpa using begun
  unfold execDispClone
  refine runCmd_waits ha ?_
  simp only [needHead_of_head hi hh, ok_bind, some_, if_false, hj, hx, needSome_bind_some, need_bind_true first, need_bind_true second, need_bind_true third,
    need_bind_true fourth]
  unfold State.armClone
  cases h.cloneNext <;> rfl

end

end Sys2Proof.Machine
end

section
/-!
SUPPORT. DISP_LAYER_SET (R265, R269, R270): a new layer on a free pipe, or the next block of one, and the binding of its source.
-/
namespace Sys2Proof.Machine

set_option Elab.async false

variable {c : Cmd} {s t : State} {b : List Byte} {i : Nat} {h : DispHead} {l : DispLayer} {lh : Handle} {ps : List Part}

/-! ### Layers and their sources -/

theorem State.layer_mapLayer {f : DispLayer → DispLayer} (hl : s.layer lh = some l)
    (keeps : ∀ x, (f x).handle = x.handle := by exact fun _ => rfl) : (s.mapLayer lh f).layer lh = some (f l) := by
  refine (find?_updWhere (p := fun l : DispLayer => l.handle == lh) (fun x => by rw [keeps]) s.disp.layers).trans ?_
  unfold State.layer at hl
  rw [hl]
  rfl

theorem State.mapConsumers_only (hs : Only ps s t) (parts : [.cams, .dec] ⊆ ps) (r : SrcRef) (f : List Handle → List Handle) :
    Only ps s (t.mapConsumers r f) := by
  unfold State.mapConsumers
  split
  · split
    · exact hs.mapCam (parts (by simp)) ..
    · exact hs
  · exact hs.dec (parts (by simp)) _
  · exact hs

theorem State.mapConsumers_disp (s : State) (r : SrcRef) (f : List Handle → List Handle) : (s.mapConsumers r f).disp = s.disp :=
  (State.mapConsumers_only (.refl [.cams, .dec] s) (fun _ => id) r f).disp_eq (by simp)

/-- A layer is bound to the source of its block, where that has one. -/
def State.bindBlock (lh : Handle) (b : List Byte) (s : State) : State :=
  match lbBind b with
  | some r => s.bindLayer lh r
  | none => s

/-- Binding changes the bindings of the layer, and the consumers of the source. -/
theorem State.bindBlock_binds (s : State) (lh : Handle) (b : List Byte) : ∃ f : DispLayer → DispLayer, (∀ x, ∃ binds, f x = { x with binds := binds }) ∧
    (s.bindBlock lh b).disp.layers = updWhere (fun l => l.handle == lh) f s.disp.layers ∧ Only [.disp, .cams, .dec] s (s.bindBlock lh b) := by
  have still : s.disp.layers = updWhere (fun l => l.handle == lh) id s.disp.layers := by simp [updWhere]
  unfold State.bindBlock
  split
  case h_2 => exact ⟨id, fun x => ⟨x.binds, rfl⟩, still, .refl _ s⟩
  case h_1 r _ =>
    unfold State.bindLayer
    split
    · exact ⟨id, fun x => ⟨x.binds, rfl⟩, still, .refl _ s⟩
    · refine ⟨fun l => { l with binds := l.binds ++ [r] }, fun x => ⟨_, rfl⟩, ?_,
        State.mapDisp_only (State.mapConsumers_only (.refl _ s) (by simp) r _) (by simp) _⟩
      show updWhere _ _ (s.mapConsumers r _).disp.layers = _
      rw [State.mapConsumers_disp]

theorem State.bindBlock_layer (hl : s.layer lh = some l) (b : List Byte) : ∃ binds : List SrcRef,
    (s.bindBlock lh b).layer lh = some { l with binds := binds } ∧ Only [.disp, .cams, .dec] s (s.bindBlock lh b) := by
  obtain ⟨f, keeps, layers, only⟩ := s.bindBlock_binds lh b
  obtain ⟨binds, eq⟩ := keeps l
  have handle (x : DispLayer) : (f x).handle = x.handle := by
    obtain ⟨_, eq⟩ := keeps x
    rw [eq]
  refine ⟨binds, ?_, only⟩
  rw [← eq]
  unfold State.layer at hl ⊢
  rw [layers, find?_updWhere fun x => by rw [handle], hl]
  rfl

/-! ### The command -/

/-- A layer just created, with its block staged (R265). -/
def newLayer (lh : Handle) (i pipe : Nat) (b : List Byte) : DispLayer :=
  { handle := lh, head := i, pipe := pipe, next := some b, blk := none, binds := [], shown := none, prev := none, segs := [], fetched := 0, live := false,
    offPath := false, lateNow := false, lateRun := 0, goodRun := 0, fresh := true, hidden := false }

/-- The state with a layer more, under the next handle. -/
def State.addLayer (i pipe : Nat) (b : List Byte) (s : State) : State :=
  (s.issue 7).mapDisp (fun d => { d with layers := d.layers ++ [newLayer (s.nextHandle 7) i pipe b] })

section
variable (ha : Accepted .dispLayerSet c s) (hb : structBytes s c = .ok b) (fields : firstBad (layerFields b) = none) (leads : h.cloning = false)
include ha hb fields leads

theorem execDispLayerSet_creates (h0 : c.handle = 0) (hi : s.disp.headOf c.aux = some i) (hh : s.head i = some h)
    (free : ∀ l ∈ s.disp.layers, l.pipe ≠ par c 0 % 32) (source : needLayerSource s b i = .ok ()) :
    ∃ (u : State) (l : DispLayer), execDispLayerSet c s = .next (u.complete (ref .dispLayerSet c) .ok (s.nextHandle 7).toNat 0 false) ∧ l ∈ u.disp.layers ∧
      l.handle = s.nextHandle 7 ∧ l.head = i ∧ l.pipe = par c 0 % 32 ∧ l.next = some b ∧ l.blk = none ∧ Only [.disp, .issued, .cams, .dec] s u := by
  have free_ : s.disp.layers.find? (fun l => l.pipe == par c 0 % 32) = none := List.find?_eq_none.mpr fun l hl => by simpa using free l hl
  have alone : (!h.cloning) = true := by simp [leads]
  obtain ⟨f, keeps, layers, bound⟩ := (s.addLayer i (par c 0 % 32) b).bindBlock_binds (s.nextHandle 7) b
  obtain ⟨binds, eq⟩ := keeps (newLayer (s.nextHandle 7) i (par c 0 % 32) b)
  have mem : f (newLayer (s.nextHandle 7) i (par c 0 % 32) b) ∈ ((s.addLayer i (par c 0 % 32) b).bindBlock (s.nextHandle 7) b).disp.layers := by
    rw [layers]
    exact mem_updWhere.mpr ⟨_, List.mem_append_right _ (List.mem_singleton_self _), if_pos (by simp [newLayer])⟩
  have added : Only [.disp, .issued, .cams, .dec] s (s.addLayer i (par c 0 % 32) b) := State.mapDisp_only ((Only.refl _ s).issued (by simp) _) (by simp) _
  refine ⟨_, { newLayer (s.nextHandle 7) i (par c 0 % 32) b with binds := binds }, ?_, eq ▸ mem, rfl, rfl, rfl, rfl, rfl, added.trans (bound.mono (by simp))⟩
  unfold execDispLayerSet
  refine runCmd_done ha ?_
  simp only [hb, ok_bind, h0, if_true, BEq.rfl, Bool.true_or, need_bind_true, hi, hh, needSome_bind_some, needFields_of_firstBad fields, need_bind_true alone,
    free_, source]
  rfl

theorem execDispLayerSet_stages (h0 : c.handle ≠ 0) (aux : c.aux = 0) (op : par c 0 = 0) (hl : s.layer c.handle = some l) (hh : s.head l.head = some h)
    (source : needLayerSource s b l.head = .ok ()) :
    ∃ u : State, execDispLayerSet c s = .next (u.complete (ref .dispLayerSet c) .ok c.handle.toNat 0 false) ∧
      (∃ x, u.layer c.handle = some x ∧ x.next = some b ∧ x.blk = l.blk ∧ x.shown = l.shown) ∧ Only [.disp, .cams, .dec] s u := by
  have alone : (!h.cloning) = true := by simp [leads]
  obtain ⟨binds, found, bound⟩ := State.bindBlock_layer (State.layer_mapLayer (f := fun l => { l with next := some b }) hl) b
  refine ⟨_, ?_, ⟨_, found, rfl, rfl, rfl⟩, (State.mapDisp_only (.refl _ s) (by simp) _).trans bound⟩
  unfold execDispLayerSet
  refine runCmd_done ha ?_
  simp only [hb, ok_bind, if_neg h0, hl, aux, op, Option.isSome_some, BEq.rfl, Bool.or_true, need_bind_true, hh, needSome_bind_some,
    needFields_of_firstBad fields, need_bind_true alone, source]
  rfl

end

end Sys2Proof.Machine
end

section
namespace Sys2Proof

set_option Elab.async false

open Machine

/-- Settles O50: each command runs through its checks to the head, layer, bank or load that it changes; a head that waits stops at once, one that is off cannot
stop, and a bank that no head uses is loaded at once (log 43). -/
theorem displayCommandsStageTheirEffect : Obligations.DisplayCommandsStageTheirEffect := by
  unfold Obligations.DisplayCommandsStageTheirEffect
  intro c s
  refine ⟨fun b ha op p1 aux hb fields chan egress => ⟨fun h0 none_ free => ?_, fun i h h0 whole hi hh leads free => ?_⟩,
    fun i h hi hh => ⟨fun b ha op p1 hb fields => ⟨fun off aux => ?_, fun y on ht hy room free => ?_⟩,
      fun ha op p1 aux bare alone => ⟨fun off => ?_, fun waits => ?_, fun runs => ?_⟩,
      fun ha op p1 aux bare alone off => ⟨fun layers => ?_, fun none_ => ?_⟩, fun ha op aux bare => ?_,
      fun ha begun room => ?_, fun ha inside => ?_,
      fun ha => ⟨fun none_ leads => ?_, fun none_ follows => ?_, fun j x some_ hj hx alone other leads bare begun => ?_⟩⟩,
    fun b ha hb fields => ⟨fun i h h0 hi hh leads free source => ?_, fun l h h0 aux op hl hh leads source => ?_⟩,
    fun b ha dev low high hb sound => ⟨fun none_ => ?_, fun some_ => ?_⟩⟩
  · exact execDispSetTiming_claims hb fields chan egress free ha op p1 aux h0 rfl none_
  · exact execDispSetTiming_retimes hb fields chan egress free ha op p1 aux h0 whole hi hh leads
  · exact execDispSetTiming_attributes ha hi hh op p1 hb fields off aux
  · exact execDispSetTiming_writeback ha hi hh op p1 hb fields on ht hy room free
  · exact execDispSetTiming_stopOff ha hi hh bare aux p1 alone op off
  · exact execDispSetTiming_stopWaiting ha hi hh bare aux p1 alone op waits
  · exact execDispSetTiming_stopRunning ha hi hh bare aux p1 alone op runs
  · exact execDispSetTiming_releaseLayered ha hi hh bare aux p1 alone op off layers
  · exact execDispSetTiming_releases ha hi hh bare aux p1 alone op off none_
  · exact execDispSetTiming_wbRelease ha hi hh bare aux op
  · intro nxt ahead set first late near rate ready
    have late_iff : late ↔ commitLate c s h = true := by
      unfold commitLate
      rw [Bool.and_eq_true, Bool.not_eq_true', decide_eq_true_iff]
      exact Iff.rfl
    refine ⟨fun gone firm => execDispCommit_tooLate hi hh begun room near rate ready ha (late_iff.mp gone) firm, fun may => ?_⟩
    rw [late_iff] at may
    rw [if_congr (show nxt = true ∨ late ↔ (bitOf (par c 1) 0 || commitLate c s h) = true by rw [late_iff, Bool.or_eq_true]) rfl rfl,
      show decide late = commitLate c s h by rw [Bool.eq_iff_iff, decide_eq_true_iff, late_iff]]
    exact execDispCommit_arms hi hh begun room near rate ready ha may
  · exact execDispCrcSet_stages ha hi hh inside
  · exact execDispClone_still hi hh ha none_ leads
  · exact ⟨_, _, execDispClone_ends hi hh ha none_ follows, State.head_armClone hh .., rfl, s.armClone_only ..⟩
  · exact ⟨_, _, execDispClone_follows hi hh ha some_ hj hx alone other leads bare begun, State.head_armClone hh .., rfl, s.armClone_only ..⟩
  · exact execDispLayerSet_creates ha hb fields leads h0 hi hh free source
  · exact execDispLayerSet_stages ha hb fields leads h0 aux op hl hh source
  · exact execDispLoadCoef_unused ha dev low high hb sound none_
  · exact execDispLoadCoef_used ha dev low high hb sound some_

end Sys2Proof
end

section
/-!
SUPPORT. What happens within a frame leaves a head's raster where it stands: the cells it sends, the slots and sources that its layers take and let go, and the
commands that end (R268, R270, R279, R286, R291).
-/
namespace Sys2Proof.Machine

set_option Elab.async false

variable {ps : List Part} {k : Nat} {s t u : State}

/-! ### The raster of a head -/

/-- Where the raster of a head stands (R281, R288, R290), with the number of its aborted frames. -/
structure Raster where
  run     : HeadRun
  blk     : List Byte
  next    : Option (List Byte)
  hold    : Option Nat
  count   : Nat
  start   : Nat
  line    : Nat
  aborted : Bool
  aborts  : Word

/-- The raster of a head. -/
def DispHead.raster (x : DispHead) : Raster :=
  { run := x.run, blk := x.blk, next := x.next, hold := x.hold, count := x.count, start := x.start, line := x.line, aborted := x.aborted,
    aborts := x.cnt.aborts }

/-- The raster of a head stands where it stood, the registers of the heads are the same, and only the parts of a list change. -/
structure KeepsRaster (ps : List Part) (k : Nat) (s t : State) : Prop where
  raster : (t.head k).map DispHead.raster = (s.head k).map DispHead.raster
  regs   : t.disp.regs = s.disp.regs
  only   : Only ps s t

theorem KeepsRaster.refl (ps : List Part) (k : Nat) (s : State) : KeepsRaster ps k s s := ⟨rfl, rfl, .refl ps s⟩

theorem KeepsRaster.head {x : DispHead} (h : KeepsRaster ps k s t) (hx : s.head k = some x) : ∃ y, t.head k = some y ∧ y.raster = x.raster :=
  Option.map_eq_some_iff.mp (h.raster.trans (congrArg _ hx))

theorem KeepsRaster.beside {qs : List Part} (h : KeepsRaster ps k s t) (o : Only qs t u) (sub : qs ⊆ ps) (hd : Part.disp ∉ qs) : KeepsRaster ps k s u := by
  have same := o.disp_eq hd
  exact ⟨(congrArg _ (State.head_congr same k)).trans h.raster, (congrArg DispSt.regs same).trans h.regs, h.only.trans (o.mono sub)⟩

theorem KeepsRaster.mapDisp {f : DispSt → DispSt} (h : KeepsRaster ps k s t) (hd : Part.disp ∈ ps)
    (heads : (vget (f t.disp).heads none k).map DispHead.raster = (t.head k).map DispHead.raster) (regs : (f t.disp).regs = t.disp.regs) :
    KeepsRaster ps k s (t.mapDisp f) := ⟨heads.trans h.raster, regs.trans h.regs, State.mapDisp_only h.only hd f⟩

/-- An update of the display that leaves the heads and their registers alone. -/
theorem KeepsRaster.mapRest {f : DispSt → DispSt} (h : KeepsRaster ps k s t) (hd : Part.disp ∈ ps) (heads : (f t.disp).heads = t.disp.heads := by exact rfl)
    (regs : (f t.disp).regs = t.disp.regs := by exact rfl) : KeepsRaster ps k s (t.mapDisp f) :=
  h.mapDisp hd (congrArg (fun v => (vget v none k).map DispHead.raster) heads) regs

theorem KeepsRaster.mapHead {f : DispHead → DispHead} (h : KeepsRaster ps k s t) (hd : Part.disp ∈ ps) (j : Nat)
    (keeps : ∀ x, (f x).raster = x.raster := by intro x; simp only [DispHead.raster]) : KeepsRaster ps k s (t.mapHead j f) := by
  refine h.mapDisp hd ?_ rfl
  show ((t.mapHead j f).head k).map DispHead.raster = _
  rw [State.head_mapHead]
  split
  · rw [Option.map_map]
    exact congrArg (fun g => (t.head k).map g) (funext keeps)
  · rfl

theorem KeepsRaster.mapLayer {f : DispLayer → DispLayer} (h : KeepsRaster ps k s t) (hd : Part.disp ∈ ps) (lh : Handle) : KeepsRaster ps k s (t.mapLayer lh f) :=
  h.mapRest hd

theorem KeepsRaster.countHead {f : HeadCounters → HeadCounters} (h : KeepsRaster ps k s t) (hd : Part.disp ∈ ps) (j : Nat)
    (keeps : ∀ n, (f n).aborts = n.aborts := by exact fun _ => rfl) : KeepsRaster ps k s (t.countHead j f) :=
  h.mapHead hd j fun x => by simp [DispHead.raster, keeps]

theorem KeepsRaster.ite {c : Prop} [Decidable c] (ht : KeepsRaster ps k s t) (hu : KeepsRaster ps k s u) : KeepsRaster ps k s (if c then t else u) := by
  split <;> assumption

theorem KeepsRaster.foldl {α : Type} (f : State → α → State)
    (step : ∀ t a, KeepsRaster ps k s t → KeepsRaster ps k s (f t a)) (l : List α) (h : KeepsRaster ps k s t) :
    KeepsRaster ps k s (l.foldl f t) := List.foldlRecOn l f h fun t ht a _ => step t a ht

/-! ### Commands that end, events and logs -/

section
variable (hs : [.host, .mgmt] ⊆ ps)
include hs

theorem KeepsRaster.finish (h : KeepsRaster ps k s t) (r : CmdRef) (st : Status) (r0 r1 : Nat) (lg : Bool) : KeepsRaster ps k s (t.finish r st r0 r1 lg) :=
  h.beside (State.finish_only (.refl _ t) (by simp) (by simp) ..) hs (by simp)

theorem KeepsRaster.post (h : KeepsRaster ps k s t) (ty : EvType) (d : Word) : KeepsRaster ps k s (t.post ty d) :=
  h.beside (State.post_only (.refl _ t) (by simp) (by simp) ..) hs (by simp)

theorem KeepsRaster.logErrorPost (h : KeepsRaster ps k s t) (i : LogInfo) : KeepsRaster ps k s (t.logErrorPost i) :=
  h.beside (State.logErrorPost_only (.refl _ t) (by simp) (by simp) _) hs (by simp)

end

/-! ### Cells (R268) -/

theorem State.sendHead_only (s : State) (i kind : Nat) (p : List Byte) : Only [.lanes, .out] s (s.sendHead i kind p) := by
  unfold State.sendHead
  split
  · exact .refl _ s
  · exact .ite (.ite ((Only.refl _ s).lanes (by simp) _) (((Only.refl _ s).lanes (by simp) _).out (by simp) _)) (.refl _ s)

section
variable (hs : [.disp, .lanes, .out] ⊆ ps)
include hs

theorem KeepsRaster.sendHead (h : KeepsRaster ps k s t) (i kind : Nat) (p : List Byte) : KeepsRaster ps k s (t.sendHead i kind p) :=
  h.beside (t.sendHead_only i kind p) (List.Subset.trans (by simp) hs) (by simp)

theorem KeepsRaster.sendMode (h : KeepsRaster ps k s t) (i : Nat) : KeepsRaster ps k s (t.sendMode i) := by
  unfold State.sendMode
  split
  · exact h
  · exact (h.sendHead hs ..).mapHead (hs (by simp)) i

theorem KeepsRaster.sendFrameTime (h : KeepsRaster ps k s t) (i : Nat) : KeepsRaster ps k s (t.sendFrameTime i) := by
  unfold State.sendFrameTime
  split
  · exact h
  · exact h.sendHead hs ..

theorem KeepsRaster.sendPixels (h : KeepsRaster ps k s t) (i flags off : Nat) (data : List Byte) : KeepsRaster ps k s (t.sendPixels i flags off data) := by
  unfold State.sendPixels
  split
  · exact h
  · exact (h.sendHead hs ..).mapHead (hs (by simp)) i

theorem KeepsRaster.sendLine (h : KeepsRaster ps k s t) (i : Nat) (data : List Byte) : KeepsRaster ps k s (t.sendLine i data) := by
  refine .foldl _ (fun t n h => ?_) _ h
  split
  · exact h
  · exact h.sendPixels hs ..

end

/-! ### The sources of layers (R270, R286) -/

section
variable (hs : [.disp, .cams, .dec] ⊆ ps)
include hs

theorem KeepsRaster.mapConsumers (h : KeepsRaster ps k s t) (r : SrcRef) (f : List Handle → List Handle) : KeepsRaster ps k s (t.mapConsumers r f) :=
  h.beside (State.mapConsumers_only (.refl [.cams, .dec] t) (fun _ => id) r f) (by grind) (by simp)

theorem KeepsRaster.mapSrcRing (h : KeepsRaster ps k s t) (r : SrcRef) (f : Ring → Ring) : KeepsRaster ps k s (t.mapSrcRing r f) := by
  unfold State.mapSrcRing
  split
  · split
    · exact h.beside (State.mapCam_only ..) (by grind) (by simp)
    · exact h
  · exact h.beside ((Only.refl [.dec] t).dec (by simp) _) (by grind) (by simp)
  · split
    · exact h.mapHead (hs (by simp)) _
    · exact h
  · exact h

theorem KeepsRaster.unbindLayer (h : KeepsRaster ps k s t) (lh : Handle) (r : SrcRef) : KeepsRaster ps k s (t.unbindLayer lh r) :=
  ((h.mapConsumers hs ..).mapSrcRing hs ..).mapLayer (hs (by simp)) lh

theorem KeepsRaster.trimLayer (h : KeepsRaster ps k s t) (lh : Handle) (r : SrcRef) (ns : Nat) : KeepsRaster ps k s (t.trimLayer lh r ns) := by
  unfold State.trimLayer
  split
  · exact h.mapSrcRing hs ..
  · exact h

theorem KeepsRaster.trimSource (h : KeepsRaster ps k s t) (r : SrcRef) : KeepsRaster ps k s (t.trimSource r) := .foldl _ (fun _ _ h => h.trimLayer hs ..) _ h

end

end Sys2Proof.Machine
end

section
/-!
SUPPORT. A frame that begins (R267, R279, R281, R286, R290, R291): what latches and what is chosen at the start leaves the raster where the start has put it.
-/
namespace Sys2Proof.Machine

set_option Elab.async false

variable {ps : List Part} {k : Nat} {s t : State}

/-! ### The latch (R274, R279) -/

section
variable (hs : [.disp, .host, .mgmt, .cams, .dec] ⊆ ps)
include hs

theorem KeepsRaster.latchLayer (h : KeepsRaster ps k s t) (armed : List ArmedSet) (x : Handle × List Byte) : KeepsRaster ps k s (t.latchLayer armed x) := by
  have hd := hs (a := .disp) (by simp)
  have unbound (l : DispLayer) (rs : List SrcRef) : KeepsRaster ps k s (rs.foldl (fun u r => u.unbindLayer l.handle r) t) :=
    .foldl _ (fun _ _ h => h.unbindLayer (by grind) ..) rs h
  unfold State.latchLayer
  split
  · exact h
  · exact .ite ((unbound ..).mapRest hd) ((unbound ..).mapLayer hd _)

theorem KeepsRaster.latchSets (h : KeepsRaster ps k s t) (i : Nat) : KeepsRaster ps k s (t.latchSets i) := by
  unfold State.latchSets
  split
  · exact h
  · dsimp only
    split
    · exact h
    · exact .foldl _ (fun _ _ h => h.finish (by grind) ..) _ (.foldl _ (fun _ _ h => h.latchLayer hs ..) _ (h.mapHead (hs (by simp)) i))

theorem KeepsRaster.latchBanks (h : KeepsRaster ps k s t) (i : Nat) : KeepsRaster ps k s (t.latchBanks i) := by
  have hd := hs (a := .disp) (by simp)
  have latched : KeepsRaster ps k s ((t.mapHead i (fun x => { x with banks := t.disp.banks, rects := x.rectNext })).mapDisp (fun d => { d with
      loads := d.loads.map (fun l => { l with heads := l.heads.filter (· != i) }) })) := (h.mapHead hd i).mapRest hd
  exact .foldl _ (fun _ _ h => h.finish (by grind) ..) _ (latched.mapRest hd)

theorem KeepsRaster.recheckLayer (h : KeepsRaster ps k s t) (b : List Byte) (lh : Handle) : KeepsRaster ps k s (t.recheckLayer b lh) := by
  unfold State.recheckLayer
  split
  · exact h
  · split
    · exact h
    · exact .ite ((h.mapLayer (hs (by simp)) _).logErrorPost (by grind) _) h

/-! ### What layers show (R284 to R287) -/

theorem KeepsRaster.flagRepeated (h : KeepsRaster ps k s t) (i : Nat) (l : DispLayer) : KeepsRaster ps k s (t.flagRepeated i l) :=
  (h.mapHead (hs (by simp)) i).countHead (hs (by simp)) i

theorem KeepsRaster.chooseBuffered (h : KeepsRaster ps k s t) (i : Nat) (l : DispLayer) (r : SrcRef) : KeepsRaster ps k s (t.chooseBuffered i l r) := by
  have hd := hs (a := .disp) (by simp)
  have taken (f : DispLayer → DispLayer) : KeepsRaster ps k s ((t.mapLayer l.handle f).trimLayer l.handle r t.ns) :=
    (h.mapLayer hd _).trimLayer (by grind) ..
  unfold State.chooseBuffered
  exact .ite (.ite ((taken _).flagRepeated hs ..) (taken _)) (.ite ((h.mapLayer hd _).flagRepeated hs ..) (.ite (h.flagRepeated hs ..) h))

theorem KeepsRaster.chooseLive (h : KeepsRaster ps k s t) (i : Nat) (l : DispLayer) (r : SrcRef) : KeepsRaster ps k s (t.chooseLive i l r) := by
  have hd := hs (a := .disp) (by simp)
  unfold State.chooseLive
  split
  · exact h
  · have marked := h.mapHead (f := fun x => { x with live := Nat.lor x.live (2 ^ l.pipe) }) hd i
    refine .ite marked ?_
    split
    · exact (marked.mapLayer hd _).trimLayer (by grind) ..
    · exact .ite (marked.flagRepeated hs ..) marked

theorem KeepsRaster.liveEvent (h : KeepsRaster ps k s t) (i : Nat) (lh : Handle) (back : Bool) : KeepsRaster ps k s (t.liveEvent i lh back) :=
  .ite (h.post (by grind) ..) ((h.countHead (hs (by simp)) i).post (by grind) ..)

theorem KeepsRaster.liveMode (h : KeepsRaster ps k s t) (i : Nat) (x : DispHead) (l : DispLayer) (b : List Byte) :
    KeepsRaster ps k s (t.liveMode i x l b) := by
  have moved (f : DispLayer → DispLayer) : KeepsRaster ps k s (t.mapLayer l.handle f) := h.mapLayer (hs (by simp)) _
  exact .ite (.ite (moved _) ((moved _).liveEvent hs ..)) (.ite ((moved _).liveEvent hs ..) (.ite ((moved _).liveEvent hs ..) (moved _)))

theorem KeepsRaster.chooseLayer (h : KeepsRaster ps k s t) (i : Nat) (lh : Handle) : KeepsRaster ps k s (t.chooseLayer i lh) := by
  have hd := hs (a := .disp) (by simp)
  unfold State.chooseLayer
  split
  case h_2 => exact h
  case h_1 x l0 _ _ =>
    split
    case h_1 => exact h
    case h_2 b _ =>
      extract_lets l u mode v
      have fetched : KeepsRaster ps k s u := h.mapLayer hd _
      have moded : KeepsRaster ps k s mode := fetched.liveMode hs i x l b
      have shown : KeepsRaster ps k s v := by
        unfold v
        split
        · split <;> exact fetched.mapLayer hd _
        · exact fetched.mapLayer hd _
        · refine .ite ?_ ((fetched.mapLayer hd _).chooseBuffered hs ..)
          split
          · exact .ite (moded.chooseLive hs ..) (moded.chooseBuffered hs ..)
          · exact moded
        · exact (fetched.mapLayer hd _).chooseBuffered hs ..
        · exact fetched.mapLayer hd _
      exact .ite shown (shown.mapLayer hd _)

theorem KeepsRaster.wbTake (h : KeepsRaster ps k s t) (i : Nat) : KeepsRaster ps k s (t.wbTake i) := by
  have hd := hs (a := .disp) (by simp)
  unfold State.wbTake
  split
  · exact h
  · refine .ite (h.mapHead hd i) ?_
    dsimp only
    split
    · exact (h.mapHead hd i).countHead hd i
    · exact (h.mapHead hd i).mapHead hd i

theorem KeepsRaster.showFrame (h : KeepsRaster ps k s t) (i : Nat) (first : Bool) : KeepsRaster ps k s (t.showFrame i first) := by
  have hr : [.host, .mgmt] ⊆ ps := by grind
  unfold State.showFrame
  split
  case h_1 => exact h
  case h_2 x _ =>
    extract_lets fc last t1 t2 t3 t4 ls t5 t6
    have ended : KeepsRaster ps k s t2 := .foldl _ (fun _ _ h => h.finish hr ..) _ (h.mapHead (hs (by simp)) i)
    have cloned : KeepsRaster ps k s t3 := by
      unfold t3
      split
      · exact ended.finish hr ..
      · exact ended
    have latched : KeepsRaster ps k s t4 := cloned.latchSets hs i
    have checked : KeepsRaster ps k s t5 := .ite (.foldl _ (fun _ _ h => h.recheckLayer hs ..) _ latched) latched
    exact (KeepsRaster.foldl _ (fun _ _ h => h.chooseLayer hs ..) ls checked).wbTake hs i

end

/-! ### The start (R281, R290) -/

/-- A head whose frame begins: a timing that it waits for takes effect, and the raster is at its first line. -/
def DispHead.begun (h : DispHead) (stamp : Nat) : DispHead :=
  { h with
    blk := h.next.getD h.blk, next := none, run := .running, hold := none, count := h.count + 1, start := stamp,
    blankNow := h.next.isSome || h.blankLeft != 0, blankLeft := if h.next.isSome then 1 else h.blankLeft - 1,
    div := match h.next with | some b => tbDiv b | none => h.div, locked := h.locked && !h.next.isSome, lockRun := if h.next.isSome then 0 else h.lockRun,
    line := 0, aborted := false, prevLine := [], repeated := 0, concealed := 0, live := 0, late := 0, wb := h.wb.abandon h.wbSlot, wbSlot := none,
    crc := vmapIdx h.crc (fun _ c => { c with acc := BitVec.allOnes 32 }) }

theorem State.beginFrame_begins {i : Nat} {h : DispHead} (hs : [.disp, .host, .mgmt, .cams, .dec, .lanes, .out] ⊆ ps) (hh : s.head i = some h) :
    KeepsRaster ps i (s.mapHead i (fun _ => h.begun s.time.stamp)) (s.beginFrame i) := by
  unfold State.beginFrame
  split
  case h_1 off => exact absurd (off.symm.trans hh) (by simp)
  case h_2 x found =>
    obtain rfl := Option.some.inj (hh.symm.trans found)
    extract_lets mode blank first new t1 t2 t3
    have latched : KeepsRaster ps i (s.mapHead i (fun _ => h.begun s.time.stamp)) t1 := (KeepsRaster.refl ..).latchBanks (by grind) i
    have timed : KeepsRaster ps i (s.mapHead i (fun _ => h.begun s.time.stamp)) t2 := latched.sendFrameTime (by grind) i
    have sent : KeepsRaster ps i (s.mapHead i (fun _ => h.begun s.time.stamp)) t3 := .ite (timed.sendMode (by grind) i) timed
    exact .ite sent (sent.showFrame (by grind) ..)

end Sys2Proof.Machine
end

section
/-!
SUPPORT. HEAD_FRAME_START (R267, R281, R290): a head stops, holds for its grid, or begins its next frame.
-/
namespace Sys2Proof.Machine

set_option Elab.async false

variable {s : State} {i : Fin 4} {h : DispHead}

theorem startHold_free {b : List Byte} (free : tbPtp b = false) (ns : Nat) : startHold b ns = ns := by
  unfold startHold
  rw [free]
  rfl

/-- Whether a head holds blank at a time. -/
def DispHead.holds (h : DispHead) (ns : Nat) : Bool :=
  match h.hold with
  | some n => ns < n
  | none => false

theorem DispHead.holds_eq_false {ns : Nat} (due : ∀ n, h.hold = some n → n ≤ ns) : h.holds ns = false := by
  unfold DispHead.holds
  split
  · simpa using due _ ‹_›
  · rfl

/-- The time before which the raster of a head does not go on under its next timing. -/
def DispHead.grid (h : DispHead) (ns : Nat) : Nat :=
  match h.next with
  | some b => startHold b ns
  | none => ns

/-- A head whose hold is past, or which has none under a free-running timing, neither holds for a grid nor is steered to one. -/
theorem DispHead.goes_on {ns : Nat} (free : (∃ n, h.hold = some n ∧ n ≤ ns) ∨ (h.hold = none ∧ tbPtp (h.next.getD h.blk) = false)) :
    h.holds ns = false ∧ (h.hold.isNone && decide (ns < h.grid ns)) = false ∧ (tbPtp h.blk && h.next.isNone && h.hold.isNone) = false := by
  obtain ⟨n, held, past⟩ | ⟨none_, own⟩ := free
  · exact ⟨DispHead.holds_eq_false fun m hm => Option.some.inj (held.symm.trans hm) ▸ past, by simp [held], by simp [held]⟩
  · refine ⟨DispHead.holds_eq_false fun m hm => absurd (none_.symm.trans hm) (by simp), ?_⟩
    unfold DispHead.grid
    cases next : h.next with
    | some b =>
      rw [next] at own
      simp [startHold_free (b := b) own]
    | none =>
      rw [next] at own
      simp [show tbPtp h.blk = false from own]

/-- A DISP_CLONE that ends the clone of a head ends at its frame start (R292). -/
def State.endClone (i : Nat) (h : DispHead) (s : State) : State :=
  match h.cloneNext with
  | some (r, none) => (s.mapHead i (fun x => { x with cloneNext := none })).finish r .ok (h.count % 2 ^ 32) 0 false
  | _ => s

theorem KeepsRaster.endClone {ps : List Part} {k : Nat} {t : State} (hs : [.disp, .host, .mgmt] ⊆ ps) (kept : KeepsRaster ps k s t) (i : Nat)
    (h : DispHead) : KeepsRaster ps k s (t.endClone i h) := by
  unfold State.endClone
  split
  · exact (kept.mapHead (hs (by simp)) i).finish (by grind) ..
  · exact kept

section
variable (hh : s.head i.val = some h) (on : h.run ≠ .off) (leads : h.follows = none)
include hh on leads

theorem execHeadFrameStart_stops (stops : h.stops ≠ []) (due : ∀ n, h.hold = some n → n ≤ s.ns) : ∃ (t : State) (x : DispHead),
    execHeadFrameStart i s = .next t ∧ t.head i.val = some x ∧ x.run = .off ∧ x.stops = [] ∧ Only [.disp, .host, .mgmt] s t := by
  obtain ⟨head, only⟩ := State.stopHead_stops hh
  have ready : ¬ (h.run = .off ∨ h.follows.isSome = true ∨ h.holds s.ns = true) := by simp [on, leads, DispHead.holds_eq_false due]
  refine ⟨_, _, ?_, head, rfl, rfl, only⟩
  unfold execHeadFrameStart
  rw [hh]
  exact (if_neg ready).trans (if_pos (by simpa using stops))

theorem execHeadFrameStart_holds {b : List Byte} (goes : h.stops = []) (free : h.hold = none) (hb : h.next = some b) (early : s.ns < startHold b s.ns) :
    ∃ (t : State) (x : DispHead), execHeadFrameStart i s = .next t ∧ t.head i.val = some x ∧ x.hold = some (startHold b s.ns) ∧ x.count = h.count ∧
      x.blk = h.blk ∧ Only [.disp] s t := by
  have ready : ¬ (h.run = .off ∨ h.follows.isSome = true ∨ h.holds s.ns = true) := by
    simp [on, leads, DispHead.holds_eq_false (h := h) (ns := s.ns) (by simp [free])]
  refine ⟨s.mapHead i.val (fun x => { x with hold := some (startHold b s.ns), line := tbH x.blk }), _, ?_, State.head_mapHead_some hh _, rfl, rfl, rfl,
    State.mapHead_only (.refl _ s) (by simp) ..⟩
  unfold execHeadFrameStart
  rw [hh]
  refine (if_neg ready).trans ((if_neg (by simp [goes])).trans ?_)
  rw [hb]
  exact if_pos (by simp [free, early])

theorem execHeadFrameStart_begins (goes : h.stops = []) (alone : s.cloneTargets i.val = [])
    (free : (∃ n, h.hold = some n ∧ n ≤ s.ns) ∨ (h.hold = none ∧ tbPtp (h.next.getD h.blk) = false)) : ∃ (t : State) (x : DispHead),
    execHeadFrameStart i s = .next t ∧ t.head i.val = some x ∧ x.raster = (h.begun s.time.stamp).raster ∧
      Only [.disp, .host, .mgmt, .cams, .dec, .lanes, .out, .fresh] s t := by
  obtain ⟨idle, ahead, steady⟩ := DispHead.goes_on free
  have ready : ¬ (h.run = .off ∨ h.follows.isSome = true ∨ h.holds s.ns = true) := by simp [on, leads, idle]
  have kept : KeepsRaster [.disp, .host, .mgmt, .cams, .dec, .lanes, .out, .fresh] i.val (s.mapHead i.val (fun _ => h.begun s.time.stamp))
      ((s.beginFrame i.val).endClone i.val h) := (State.beginFrame_begins (by simp) hh).endClone (by simp) ..
  obtain ⟨x, hx, raster⟩ := kept.head (State.head_mapHead_some hh _)
  refine ⟨(s.beginFrame i.val).endClone i.val h, x, ?_, hx, raster, (State.mapHead_only (.refl _ s) (by simp) ..).trans kept.only⟩
  unfold execHeadFrameStart
  rw [hh]
  refine (if_neg ready).trans ((if_neg (by simp [goes])).trans ((if_neg (ne_true_of_eq_false ahead)).trans ?_))
  simp only [alone, steady, Bool.false_and, Bool.false_eq_true, if_false, List.foldl_nil]
  rfl

end

end Sys2Proof.Machine
end

section
/-!
SUPPORT. HEAD_LINE_SEND and DISPLAY_MODE (R268, R288, R289, R291, R293): what a line reads, sends and writes leaves the raster where it stands but for its line, and
a line that is late aborts the frame.
-/
namespace Sys2Proof.Machine

set_option Elab.async false

variable {ps : List Part} {k : Nat} {s t u : State}

/-! ### What a line reads and writes -/

theorem KeepsRaster.requests (h : KeepsRaster ps k s t) (hf : Part.fabric ∈ ps) (rs : List FabReq) : KeepsRaster ps k s (t.requests rs) :=
  h.beside (State.requests_only (.refl [.fabric] t) (by simp) rs) (by simpa using hf) (by simp)

theorem KeepsRaster.writeMem (h : KeepsRaster ps k s t) (hb : Part.bytes ∈ ps) (a : Nat) (bs : List Byte) : KeepsRaster ps k s (t.writeMem a bs) :=
  h.beside ((Only.refl [.bytes] t).writeMem (by simp) a bs) (by simpa using hb) (by simp)

/-- A slot that is complete has its header, and readers let go of older ones (R291). -/
theorem KeepsRaster.wbFinish (hs : [.disp, .cams, .dec, .bytes] ⊆ ps) (h : KeepsRaster ps k s t) (i : Nat) : KeepsRaster ps k s (t.wbFinish i) := by
  unfold State.wbFinish
  split
  · exact h
  · split
    · exact h
    · exact ((h.writeMem (hs (by simp)) ..).mapHead (hs (by simp)) i).trimSource (by grind) _

theorem KeepsRaster.wbLine (hs : [.disp, .bytes, .fabric] ⊆ ps) (h : KeepsRaster ps k s t) (i y : Nat) (line : List (Nat × Nat × Nat)) :
    KeepsRaster ps k s (t.wbLine i y line) := by
  have hb := hs (a := .bytes) (by simp)
  unfold State.wbLine
  split
  case h_1 => exact h
  case h_2 =>
    split
    case h_1 => exact h
    case h_2 =>
      extract_lets ab b a qs at_ w luma two c written
      refine KeepsRaster.mapHead (KeepsRaster.requests ?_ (hs (by simp)) _) (hs (by simp)) i
      unfold written
      split
      · exact .ite ((h.writeMem hb ..).writeMem hb ..) (h.writeMem hb ..)
      · exact h.writeMem hb ..
      · exact .foldl _ (fun _ _ h => h.writeMem hb ..) _ h

section
variable (hs : [.disp, .fabric] ⊆ ps)
include hs

theorem KeepsRaster.fetchLayer (h : KeepsRaster ps k s t) (i y : Nat) (lh : Handle) : KeepsRaster ps k s (t.fetchLayer i y lh) := by
  have hd := hs (a := .disp) (by simp)
  unfold State.fetchLayer
  split
  · exact h
  · split
    · exact h
    · exact .ite h (.ite (h.mapLayer hd _) (.ite (h.mapLayer hd _) (((h.mapLayer hd _).mapHead hd i).countHead hd i)))

theorem KeepsRaster.readLayer (h : KeepsRaster ps k s t) (i y : Nat) (lh : Handle) : KeepsRaster ps k s (t.readLayer i y lh) := by
  have fetched := h.fetchLayer hs i y lh
  unfold State.readLayer
  dsimp only
  split
  · exact fetched.requests (hs (by simp)) _
  · exact fetched

theorem KeepsRaster.concealLayer (h : KeepsRaster ps k s t) (i y : Nat) (lh : Handle) : KeepsRaster ps k s (t.concealLayer i y lh) := by
  have hd := hs (a := .disp) (by simp)
  unfold State.concealLayer
  split
  · exact h
  · split
    · exact h
    · exact .ite ((h.mapHead hd i).countHead hd i) h

end

/-- What the layers of a head read for a line, and conceal in it (R282, R285, R289). -/
def State.readLine (i y : Nat) (s : State) : State :=
  let ls := (s.layersOf i).map DispLayer.handle
  ls.foldl (fun u l => u.concealLayer i y l) (ls.foldl (fun u l => u.readLayer i y l) s)

theorem State.readLine_keeps (s : State) (i y : Nat) : KeepsRaster [.disp, .fabric] i s (s.readLine i y) :=
  .foldl _ (fun _ _ h => h.concealLayer (fun _ => id) ..) _ (.foldl _ (fun _ _ h => h.readLayer (fun _ => id) ..) _ (.refl ..))

theorem KeepsRaster.crcResults (hs : [.disp, .host, .mgmt] ⊆ ps) (h : KeepsRaster ps k s t) (i : Nat) : KeepsRaster ps k s (t.crcResults i) := by
  unfold State.crcResults
  split
  · exact h
  · exact .foldl _ (fun _ _ h => h.logErrorPost (by grind) _) _ (h.mapHead (hs (by simp)) i)

/-! ### One line -/

/-- A change of a head between operations that keep its raster changes the raster alike. -/
theorem KeepsRaster.moved {x : DispHead} {f : DispHead → DispHead} {g : Raster → Raster} (hd : Part.disp ∈ ps) (before : KeepsRaster ps k s t)
    (hx : s.head k = some x) (after : KeepsRaster ps k (t.mapHead k f) u) (moves : ∀ y, (f y).raster = g y.raster := by exact fun _ => rfl) :
    ∃ z, u.head k = some z ∧ z.raster = g x.raster ∧ Only ps s u := by
  obtain ⟨y, hy, same⟩ := before.head hx
  obtain ⟨z, hz, eq⟩ := after.head (State.head_mapHead_some hy f)
  exact ⟨z, hz, by rw [eq, moves, same], (State.mapHead_only before.only hd ..).trans after.only⟩

/-- The raster at its next line. -/
def Raster.nextLine (r : Raster) : Raster := { r with line := r.line + 1 }

theorem State.putBlank_moves {x : DispHead} (hs : [.disp, .lanes, .out] ⊆ ps) (hx : s.head k = some x) :
    ∃ z, (s.putBlank k).head k = some z ∧ z.raster = x.raster.nextLine ∧ Only ps s (s.putBlank k) := by
  unfold State.putBlank
  split
  case h_1 off => exact absurd (off.symm.trans hx) (by simp)
  case h_2 => exact ((KeepsRaster.refl ps k s).sendPixels hs ..).moved (hs (by simp)) hx (.refl ..)

theorem State.putLine_moves {x : DispHead} (hs : [.disp, .host, .mgmt, .cams, .dec, .lanes, .out, .bytes, .fabric] ⊆ ps) (hx : s.head k = some x)
    (line : List (Nat × Nat × Nat)) (behind : Bool) :
    ∃ z, (s.putLine k line behind).head k = some z ∧ z.raster = x.raster.nextLine ∧ Only ps s (s.putLine k line behind) := by
  have hd := hs (a := .disp) (by simp)
  unfold State.putLine
  split
  case h_1 off => exact absurd (off.symm.trans hx) (by simp)
  case h_2 y found =>
    obtain rfl := Option.some.inj (hx.symm.trans found)
    extract_lets n t1 t2 t3 t4
    have sent : KeepsRaster ps k s t2 := ((KeepsRaster.refl ps k s).sendLine (List.Subset.trans (by simp) hs) ..).mapHead hd k
    have written : KeepsRaster ps k s t3 :=
      .ite sent (.ite ((sent.mapHead hd k).countHead hd k) (sent.wbLine (List.Subset.trans (by simp) hs) ..))
    have ended : KeepsRaster ps k t4 (if n + 1 = tbH x.blk then (t4.crcResults k).wbFinish k else t4) :=
      .ite (((KeepsRaster.refl ps k t4).crcResults (List.Subset.trans (by simp) hs) k).wbFinish (List.Subset.trans (by simp) hs) k) (.refl ..)
    exact written.moved (g := fun r => { r with line := x.line + 1 }) hd hx ended

/-- A frame that is aborted (R288). -/
def Raster.abort (r : Raster) : Raster := { r with aborted := true, aborts := r.aborts.satInc }

theorem State.abortFrame_aborts {x : DispHead} (hs : [.disp, .cams, .dec, .lanes, .out, .bytes] ⊆ ps) (hx : s.head k = some x) :
    ∃ z, (s.abortFrame k).head k = some z ∧ z.raster = x.raster.abort ∧ (vget (s.abortFrame k).disp.regs HeadRegs.reset k).aborted = true ∧
      Only ps s (s.abortFrame k) := by
  unfold State.abortFrame
  extract_lets t1 t2 t3
  have hd := hs (a := .disp) (by simp)
  have sent : KeepsRaster ps k s t1 := (KeepsRaster.refl ps k s).sendPixels (List.Subset.trans (by simp) hs) ..
  obtain ⟨y, hy, same⟩ := sent.head hx
  have ended : KeepsRaster ps k t3 (t3.wbFinish k) := (KeepsRaster.refl ps k t3).wbFinish (List.Subset.trans (by simp) hs) k
  have late : t3.head k = some { y with
      aborted := true, crc := vmapIdx y.crc (fun _ c => { c with valid := false, mismatch := false }), cnt := { y.cnt with aborts := y.cnt.aborts.satInc } } :=
    State.head_mapHead_some (State.head_mapHead_some hy _) _
  obtain ⟨z, hz, eq⟩ := ended.head late
  refine ⟨z, hz, ?_, ?_, (State.mapDisp_only (State.mapHead_only (State.mapHead_only sent.only hd ..) hd ..) hd _).trans ended.only⟩
  · rw [eq, ← same]
    rfl
  · rw [ended.regs]
    refine congrArg HeadRegs.aborted ((vget_vmod ..).trans (if_pos ⟨rfl, State.head_lt hx⟩))

/-! ### A control cell -/

/-- The next cell of a channel does not change whether the channel carries anything. -/
theorem State.silent_mapChan {f : Channel → Channel} (keeps : ∀ x, (f x).lane = x.lane) (s : State) (n : Nat) : (s.mapChan n f).silent n = s.silent n := by
  have same : ((s.mapChan n f).lanes.chan n).lane = (s.lanes.chan n).lane := by
    show (vget (vmod s.lanes.channels n f) _ n).lane = _
    rw [vget_vmod]
    split
    · exact keeps _
    · rfl
  unfold State.silent
  rw [same]
  rfl

/-- A cell of a head leaves on its lane while the lane is in service and does not calibrate in place (R268, R357). -/
theorem State.sendHead_out {x : DispHead} (hx : s.head k = some x) (kind : Nat) (p : List Byte) : (s.sendHead k kind p).out =
    if s.inService (tbLane x.blk) && !s.silent (tbLane x.blk) then .egressCell (tbLane x.blk) (0x80 + k) kind p :: s.out else s.out := by
  unfold State.sendHead
  split
  case h_1 off => exact absurd (off.symm.trans hx) (by simp)
  case h_2 y found =>
    obtain rfl := Option.some.inj (hx.symm.trans found)
    unfold State.emitOn
    rw [State.silent_mapChan (f := fun x => { x with lseq := x.lseq + 1 }) fun _ => rfl]
    cases s.inService (tbLane x.blk) <;> cases s.silent (tbLane x.blk) <;> rfl

/-! ### The events -/

theorem DispHead.aborted_of_sending {x : DispHead} (sends : x.sending = true) : x.aborted = false := by
  simp only [DispHead.sending, Bool.and_eq_true, Bool.not_eq_true'] at sends
  obtain ⟨⟨-, whole⟩, -⟩ := sends
  exact whole

section
variable {i : Fin 4} {h : DispHead} (hh : s.head i.val = some h)
include hh

section
variable (sends : h.sending = true) (leads : h.cloneOf = none) (alone : ∀ j t, s.head j = some t → t.cloneOf ≠ some i.val) (ready behind : Bool)
include sends leads alone

omit hh sends leads in
/-- No other head sends the lines of one that no head clones. -/
theorem cloneLines_nil : (List.range 4).filter (fun j => ((s.head j).map (fun t => t.cloneOf == some i.val && t.sending)).getD false) = [] := by
  refine List.filter_eq_nil_iff.mpr fun j _ => ?_
  cases hj : s.head j with
  | none => simp
  | some t => simp [alone j t hj]

theorem execHeadLineSend_sends (goes : h.blankNow = true ∨ ready = true) : ∃ (t : State) (x : DispHead), execHeadLineSend i ready behind s = .next t ∧
    t.head i.val = some x ∧ x.raster = h.raster.nextLine ∧ Only [.disp, .host, .mgmt, .cams, .dec, .lanes, .out, .bytes, .fabric] s t := by
  cases shown : h.blankNow with
  | true =>
    obtain ⟨x, hx, raster, only⟩ := State.putBlank_moves (ps := [.disp, .lanes, .out]) (by simp) hh
    refine ⟨s.putBlank i.val, x, ?_, hx, raster, only.mono (by simp)⟩
    unfold execHeadLineSend
    rw [hh]
    simp only [sends, leads, cloneLines_nil alone, shown]
    rfl
  | false =>
    have ready_ : ready = true := goes.resolve_left (by simp [shown])
    have read := s.readLine_keeps i.val h.line
    obtain ⟨y, hy, same⟩ := read.head hh
    obtain ⟨x, hx, raster, only⟩ := State.putLine_moves (ps := [.disp, .host, .mgmt, .cams, .dec, .lanes, .out, .bytes, .fabric]) (by simp) hy
      ((s.readLine i.val h.line).composeLine i.val h h.line) behind
    refine ⟨_, x, ?_, hx, raster.trans (congrArg _ same), (read.only.mono (by simp)).trans only⟩
    unfold execHeadLineSend
    rw [hh]
    simp only [sends, leads, cloneLines_nil alone, shown, ready_]
    rfl

theorem execHeadLineSend_aborts (shown : h.blankNow = false) (late : ready = false) : ∃ (t : State) (x : DispHead),
    execHeadLineSend i ready behind s = .next t ∧ t.head i.val = some x ∧ x.raster = h.raster.abort ∧
      (vget t.disp.regs HeadRegs.reset i.val).aborted = true ∧ Only [.disp, .cams, .dec, .lanes, .out, .bytes, .fabric] s t := by
  obtain ⟨x, hx, raster, regs, only⟩ := State.abortFrame_aborts (ps := [.disp, .cams, .dec, .lanes, .out, .bytes, .fabric]) (by simp) hh
  refine ⟨s.abortFrame i.val, x, ?_, hx, raster, regs, only⟩
  unfold execHeadLineSend
  rw [hh]
  simp only [sends, leads, cloneLines_nil alone, shown, late]
  rfl

end

/-- A running head sends its timing block, and its lane loses it while it calibrates in place (R268, R357). -/
theorem execDisplayMode_sends (runs : h.run = .running) : ∃ (t : State) (x : DispHead), execDisplayMode i s = .next t ∧ t.head i.val = some x ∧
    x.ctrlSeq = h.ctrlSeq + 1 ∧
    t.out = (if s.inService (tbLane h.blk) && !s.silent (tbLane h.blk) then
      .egressCell (tbLane h.blk) (0x80 + i.val) 2 (ctrlPayload 0x30 0 (h.ctrlSeq % 65536) s.ownEpoch i.val 0 0 h.blk) :: s.out else s.out) ∧
    Only [.disp, .lanes, .out] s t := by
  have sent := s.sendHead_only i.val 2 (ctrlPayload 0x30 0 (h.ctrlSeq % 65536) s.ownEpoch i.val 0 0 h.blk)
  refine ⟨_, _, ?_, State.head_mapHead_some ((State.head_congr (sent.disp_eq (by simp)) _).trans hh) (fun x => { x with ctrlSeq := x.ctrlSeq + 1 }), rfl,
    State.sendHead_out hh .., State.mapHead_only (sent.mono (by simp)) (by simp) ..⟩
  unfold execDisplayMode State.sendMode
  rw [hh]
  exact if_pos runs

end

end Sys2Proof.Machine
end

section
namespace Sys2Proof

set_option Elab.async false

open Machine

/-- Settles O51: a frame start stops a head, lets it hold for its grid, or puts its raster at line 0, where everything that latches and is chosen there leaves it; a
line moves it by one or aborts the frame. A head counts its control cells in SEQ by itself, in service or not (log 43). -/
theorem headsStartFramesAndSendLines : Obligations.HeadsStartFramesAndSendLines := by
  unfold Obligations.HeadsStartFramesAndSendLines
  intro i s h hh
  refine ⟨fun on leads => ⟨fun stops due => ?_, fun goes alone free => ?_, fun b goes free hb early => ?_⟩,
    fun sends leads alone ready behind => ⟨fun goes => ?_, fun shown late => ?_⟩, fun runs => ?_⟩
  · exact execHeadFrameStart_stops hh on leads stops due
  · obtain ⟨t, x, step, hx, raster, only⟩ := execHeadFrameStart_begins hh on leads goes alone free
    exact ⟨t, x, step, hx, congrArg Raster.run raster, congrArg Raster.blk raster, congrArg Raster.next raster, congrArg Raster.count raster,
      congrArg Raster.start raster, congrArg Raster.line raster, congrArg Raster.hold raster, congrArg Raster.aborted raster, only⟩
  · exact execHeadFrameStart_holds hh on leads goes free hb early
  · obtain ⟨t, x, step, hx, raster, only⟩ := execHeadLineSend_sends hh sends leads alone ready behind goes
    exact ⟨t, x, step, hx, congrArg Raster.line raster, congrArg Raster.count raster,
      (congrArg Raster.aborted raster).trans (DispHead.aborted_of_sending sends), only⟩
  · obtain ⟨t, x, step, hx, raster, regs, only⟩ := execHeadLineSend_aborts hh sends leads alone ready behind shown late
    exact ⟨t, x, step, hx, congrArg Raster.aborted raster, congrArg Raster.aborts raster, regs, only⟩
  · exact execDisplayMode_sends hh runs

end Sys2Proof
end

section
/-!
SUPPORT. What the engines lose as an invocation ends (R313): threads come free and kernels may leave, but the run of traps and the counts of every kernel that
stays, and the tables of units, are as they were.
-/
namespace Sys2Proof.Machine

set_option Elab.async false

variable {s t u : State} {i : Invoc}

/-- What a kernel has made of its invocations. -/
structure KernelTally where
  handle      : Handle
  consec      : Nat
  lastTrap    : Nat
  invocations : Word
  traps       : Word

/-- The tally of a kernel. -/
def Kernel.tally (k : Kernel) : KernelTally :=
  { handle := k.handle, consec := k.consec, lastTrap := k.lastTrap, invocations := k.cnt.invocations, traps := k.cnt.traps }

/-- Every kernel of a second state has the tally of one of the first. -/
def KernelsKeep (s t : State) : Prop := ∀ k' ∈ t.jm.kernels, ∃ k ∈ s.jm.kernels, k'.tally = k.tally

theorem KernelsKeep.of_eq (same : t.jm.kernels = s.jm.kernels) : KernelsKeep s t := fun k' hk => ⟨k', same ▸ hk, rfl⟩

theorem KernelsKeep.trans (h : KernelsKeep s t) (k : KernelsKeep t u) : KernelsKeep s u := fun x hx => by
  obtain ⟨y, hy, same⟩ := k x hx
  obtain ⟨z, hz, same'⟩ := h y hy
  exact ⟨z, hz, same.trans same'⟩

/-- The engines have lost work and gained none, no kernel's tally has changed, and no unit has. -/
structure JmWanes (s t : State) : Prop where
  kernels : KernelsKeep s t
  running : t.jm.running ⊆ s.jm.running
  units : t.mgmt.units = s.mgmt.units

theorem JmWanes.refl (s : State) : JmWanes s s := ⟨.of_eq rfl, List.Subset.refl _, rfl⟩

theorem JmWanes.trans (h : JmWanes s t) (k : JmWanes t u) : JmWanes s u :=
  ⟨h.kernels.trans k.kernels, List.Subset.trans k.running h.running, k.units.trans h.units⟩

theorem JmWanes.foldl {α : Type} (f : State → α → State) (hf : ∀ t a, JmWanes s t → JmWanes s (f t a)) (l : List α) (h : JmWanes s t) :
    JmWanes s (l.foldl f t) :=
  List.foldlRecOn (motive := JmWanes s) l f h fun t h a _ => hf t a h

theorem JmWanes.ite {c : Prop} [Decidable c] (ht : JmWanes s t) (hu : JmWanes s u) : JmWanes s (if c then t else u) := by split <;> assumption

/-- An update of the rest of the engines, or of the rest of the part. -/
theorem JmWanes.other (h : JmWanes s t) (hk : u.jm.kernels = t.jm.kernels := by rfl) (hr : u.jm.running = t.jm.running := by rfl)
    (hu : u.mgmt.units = t.mgmt.units := by rfl) : JmWanes s u :=
  h.trans ⟨.of_eq hk, hr ▸ List.Subset.refl _, hu⟩

theorem JmWanes.beside (h : JmWanes s t) (same : u.jm = t.jm) (o : Outside t u) : JmWanes s u := h.other (by rw [same]) (by rw [same]) o.units

/-! ### Kernels and threads -/

theorem JmWanes.mapKernel (h : JmWanes s t) (hd : Handle) {f : Kernel → Kernel} (hf : ∀ k, (f k).tally = k.tally := by exact fun _ => rfl) :
    JmWanes s (t.mapKernel hd f) := by
  refine h.trans ⟨fun x hx => ?_, List.Subset.refl _, rfl⟩
  obtain ⟨y, hy, rfl⟩ := mem_updWhere.mp hx
  refine ⟨y, hy, ?_⟩
  split
  · exact hf y
  · rfl

theorem JmWanes.freeThread (h : JmWanes s t) (i : Invoc) : JmWanes s (t.freeThread i) := h.trans ⟨.of_eq rfl, fun _ hi => List.mem_of_mem_filter hi, rfl⟩

theorem JmWanes.finishMatch (h : JmWanes s t) (o : Option CmdRef) (st : Status) (r0 r1 : Nat) :
    JmWanes s (match o with | some r => t.finish r st r0 r1 false | none => t) := by
  split
  · exact h.beside (t.finish_jm ..) ((Outside.refl t).finish ..)
  · exact h

theorem JmWanes.jmSettle (h : JmWanes s t) : JmWanes s t.jmSettle := by
  unfold State.jmSettle
  extract_lets dead out t1 t2 idle t3
  have unbound : JmWanes s t2 := .foldl _ (fun _ _ h => h.finishMatch ..) _ h.other
  have left : JmWanes t2 t3 := ⟨fun k hk => ⟨k, List.mem_of_mem_filter hk, rfl⟩, List.Subset.refl _, rfl⟩
  exact .foldl _ (fun _ _ h => h.finishMatch ..) _ (unbound.trans left)

theorem JmWanes.rateOf (h : JmWanes s t) (e : EncSession) : JmWanes s (t.rateOf e) := by
  unfold State.rateOf
  extract_lets mine ready due staged last gone t1 t2 on
  have latched : JmWanes s t2 := .foldl _ (fun _ _ h => h.finishMatch ..) _ h.other
  exact latched.other

theorem JmWanes.jmRates (h : JmWanes s t) : JmWanes s t.jmRates := .foldl _ (fun _ _ h => h.rateOf _) _ h

/-! ### Hooked frames -/

@[simp] theorem State.putClean_jm (s : State) (role : FabRole) (a : Nat) (bs : List Byte) : (s.putClean role a bs).jm = s.jm := rfl

theorem foldl_jm {α : Type} {g : State → α → State} (hg : ∀ t x, (g t x).jm = t.jm) (l : List α) (s : State) : (l.foldl g s).jm = s.jm :=
  List.foldlRecOn (motive := fun t : State => t.jm = s.jm) l g rfl fun t h x _ => (hg t x).trans h

@[simp] theorem State.putTile_jm (s : State) (role : FabRole) (hd : List Byte) (f : HookFrame) (tx ty : Nat) (planes : List (List Nat)) :
    (s.putTile role hd f tx ty planes).jm = s.jm := foldl_jm (fun _ _ => foldl_jm (fun _ _ => State.putClean_jm ..) ..) ..

theorem State.voidTiles_jm (s : State) (f : HookFrame) (ts : List (Nat × Nat)) : (s.voidTiles f ts).jm = { s.jm with
    hooks := updWhere (fun x => x.is f.cam f.hook f.run f.fn) (fun x => { x with
      bad := x.bad ++ ts, queued := x.queued.filter (fun q => !ts.contains q), started := x.started.filter (fun q => !ts.contains q) }) s.jm.hooks } := by
  unfold State.voidTiles State.mapHook
  rw [State.mapJm_jm, foldl_jm fun _ _ => State.putTile_jm ..]

/-- The end of a hooked frame changes its ring, and the frame leaves (R309). -/
theorem State.finishHook_jm (s : State) (f : HookFrame) : ∃ bs hs, hs ⊆ s.jm.hooks ∧ (s.finishHook f).jm = { s.jm with binds := bs, hooks := hs } := by
  unfold State.finishHook
  split
  · exact ⟨_, _, List.Subset.refl _, rfl⟩
  next x _ =>
    split
    · exact ⟨_, _, List.Subset.refl _, rfl⟩
    · extract_lets hd red t1 t2 t3 t4
      have bitmap : t1.jm = s.jm := s.putClean_jm ..
      have words : t2.jm = t1.jm := t1.putClean_jm ..
      have header : t3.jm = t2.jm := t2.tickFresh.putClean_jm ..
      have written : t3.jm = s.jm := header.trans (words.trans bitmap)
      have ring : ∃ bs, t4.jm = { s.jm with binds := bs } := by
        unfold t4
        rw [← written]
        split
        · exact ⟨_, rfl⟩
        · exact ⟨_, rfl⟩
      obtain ⟨bs, ring⟩ := ring
      refine ⟨bs, s.jm.hooks.filter (fun y => !y.is x.cam x.hook x.run x.fn), List.filter_subset_self _, ?_⟩
      rw [State.dropHook, State.mapJm_jm, ring]

/-- An update of the bindings and hooked frames. -/
theorem JmWanes.hooked (h : JmWanes s t) {bs : List KBind} {hs : List HookFrame} (same : u.jm = { t.jm with binds := bs, hooks := hs }) (a : Aside t u) :
    JmWanes s u := h.other (by rw [same]) (by rw [same]) a.units

theorem JmWanes.voidTiles (h : JmWanes s t) (f : HookFrame) (ts : List (Nat × Nat)) : JmWanes s (t.voidTiles f ts) :=
  h.hooked (t.voidTiles_jm f ts) ((Aside.refl t).voidTiles ..)

theorem JmWanes.finishHook (h : JmWanes s t) (f : HookFrame) : JmWanes s (t.finishHook f) := by
  obtain ⟨_, _, -, same⟩ := t.finishHook_jm f
  exact h.hooked same ((Aside.refl t).finishHook f)

theorem JmWanes.endTile (h : JmWanes s t) (role : Nat) (f : HookFrame) (tx ty : Nat) (planes : List (List Nat)) (reds : List (JmRed × Nat × Nat)) :
    JmWanes s (t.endTile role f tx ty planes reds) := by
  have written : JmWanes s (t.putTile (.site role) (t.khead f.kernel) f tx ty planes) :=
    h.beside (State.putTile_jm ..) ((Aside.refl t).putTile ..).toOutside
  exact JmWanes.finishHook written.other f

/-! ### Policies and rates -/

@[simp] theorem State.issueApply_jm (s : State) (k : Nat) (r : Option CmdRef) (b : List Byte) (target limited : Nat) (late atStart : Bool) :
    (s.issueApply k r b target limited late atStart).jm = s.jm := by
  have taken (f : CamCtx → CamCtx) : Only [.cams, .lanes, .out] s (s.mapCam k f) := (State.mapCam_only ..).mono (by simp)
  have only : Only [.cams, .lanes, .out] s (s.issueApply k r b target limited late atStart) :=
    .ite (taken _) (State.sendApply_only (taken _) (by simp) ..)
  exact only.same .jm (by simp)

theorem JmWanes.issueRound (h : JmWanes s t) (r : PolRound) : JmWanes s (t.issueRound r) := by
  have issued {v : State} (h : JmWanes s v) (b : List Byte) (target limited : Nat) : JmWanes s (v.issueApply r.cam none b target limited false false) :=
    h.beside (State.issueApply_jm ..) ((Aside.refl v).issueApply ..).toOutside
  unfold State.issueRound
  exact .ite h.other (issued (.ite h.other h.other) ..)

theorem JmWanes.settleRounds (h : JmWanes s t) (k : Nat) : JmWanes s (t.settleRounds k) := .foldl _ (fun _ _ h => h.issueRound _) _ h

theorem JmWanes.endJobOf (h : JmWanes s t) (q : PolJob) : JmWanes s (t.endJobOf q) := by
  have released : JmWanes s (t.releaseJob q) := by
    unfold State.releaseJob
    extract_lets mine hd v
    have let_go : JmWanes s v := .ite h h.other
    exact let_go.other
  exact JmWanes.settleRounds released.other _

theorem JmWanes.endPolicy (h : JmWanes s t) (i : Invoc) (cam run fn valid : Nat) (req : List Byte) :
    JmWanes s (t.endPolicy i cam run fn valid req) := by
  unfold State.endPolicy
  split
  · exact h
  · exact JmWanes.endJobOf (.ite h.other h) _

/-! ### Traps -/

theorem JmWanes.endsEmpty (h : JmWanes s t) (i : Invoc) : JmWanes s (t.endsEmpty i) := by
  unfold State.endsEmpty
  split
  · split
    · exact (h.voidTiles ..).finishHook _
    · exact h
  · split
    · exact h.endJobOf _
    · exact h
  · exact h.other

theorem JmWanes.faultKernel (h : JmWanes s t) (hd : Handle) : JmWanes s (t.faultKernel hd) := by
  unfold State.faultKernel
  extract_lets t1 t2 t3 lost t4 t5
  have abandoned : JmWanes s t2 := .foldl _ (fun _ _ h => h.other) _ (h.mapKernel hd)
  have ended : JmWanes s t3 := .foldl _ (fun _ _ h => h.endJobOf _) _ abandoned
  have settled : JmWanes s t5 := .foldl _ (fun _ _ h => h.settleRounds _) _ ended.other
  exact settled.jmRates

end Sys2Proof.Machine
end

section
/-!
SUPPORT. The death of a site (R314, R315): its unit is fenced, and its invocations run again under another epoch.
-/
namespace Sys2Proof.Machine

set_option Elab.async false

variable {s t u : State} {i : Invoc}

theorem nextEpoch_ne (e : Nat) : nextEpoch e ≠ e := by
  unfold nextEpoch
  split <;> omega

/-- The epoch of a role advances with the death of its unit, whatever the unit says of itself (R408). -/
theorem State.replaceUnit_epochOf {k : UnitKind} {r p : Nat} (filled : s.mgmt.units.unitOf k r = some p) (code : Nat) :
    (s.replaceUnit k r code).mgmt.units.epochOf k r = nextEpoch (s.mgmt.units.epochOf k r) := by
  obtain ⟨x, role⟩ := UnitTable.unitOf_some filled
  have next : ((s.mgmt.units.death k r p).roles k)[r]? = some { x with epoch := nextEpoch (s.mgmt.units.epochOf k r), unit := none } := by
    unfold UnitTable.death
    rw [UnitTable.roles_mapPhys, UnitTable.roles_mapRole, if_pos rfl, role]
    rfl
  rw [State.replaceUnit_units filled]
  unfold UnitTable.epochOf
  split
  · unfold UnitTable.takeover
    rw [UnitTable.roles_mapPhys, UnitTable.roles_mapRole, if_pos rfl, next]
    rfl
  · rw [next]
    rfl

@[simp] theorem State.replaceUnit_jm (s : State) (k : UnitKind) (r code : Nat) : (s.replaceUnit k r code).jm = s.jm :=
  (State.replaceUnit_only (.refl [.mgmt, .host] s) (by simp) (by simp) k r code).same .jm (by simp)

/-- What of a role's work goes on: the threads of other roles, and its own under the role's epoch. -/
structure Reruns (s : State) (role : Nat) (t : State) : Prop where
  kernels : KernelsKeep s t
  running : ∀ i ∈ t.jm.running, i ∈ s.jm.running ∨ i.epoch = s.mgmt.units.epochOf .siteU role
  only : Only [.jm] s t

theorem Reruns.refl (s : State) (role : Nat) : Reruns s role s := ⟨.of_eq rfl, fun _ h => .inl h, .refl _ s⟩

theorem Reruns.mapJm {role : Nat} {f : JmSt → JmSt} (h : Reruns s role t) (hk : KernelsKeep t (t.mapJm f))
    (hr : ∀ i ∈ (f t.jm).running, i ∈ t.jm.running ∨ i.epoch = s.mgmt.units.epochOf .siteU role) : Reruns s role (t.mapJm f) :=
  ⟨h.kernels.trans hk, fun i hi => (hr i hi).elim (h.running i) .inr, h.only.jm (by simp) _⟩

/-- An update of the rest of the engines. -/
theorem Reruns.rest {role : Nat} {f : JmSt → JmSt} (h : Reruns s role t) (hk : (f t.jm).kernels = t.jm.kernels := by rfl)
    (hr : (f t.jm).running = t.jm.running := by rfl) : Reruns s role (t.mapJm f) :=
  h.mapJm (.of_eq hk) fun _ hi => .inl (hr ▸ hi)

theorem State.rerunRole_reruns (s : State) (role : Nat) : Reruns s role (s.rerunRole role) := by
  unfold State.rerunRole
  extract_lets here mark owner e t1
  clear_value owner
  have marked : Reruns s role mark := by
    refine List.foldlRecOn (motive := Reruns s role) here _ (.refl s role) fun t h i _ => ?_
    split
    · exact h.rest
    · exact h
  split
  · have moved : Reruns s role t1 := marked.mapJm (.of_eq rfl) fun i hi => by
      obtain ⟨x, hx, rfl⟩ := mem_updWhere.mp hi
      split
      · exact .inr rfl
      · exact .inl hx
    split
    · exact moved.mapJm (((JmWanes.refl t1).mapKernel _).kernels) fun _ hi => .inl hi
    · exact moved
  · refine List.foldlRecOn (motive := Reruns s role) here _ marked fun t h i _ => ?_
    have freed : Reruns s role (t.freeThread i) := h.mapJm (.of_eq rfl) fun _ hi => .inl (List.mem_of_mem_filter hi)
    dsimp only
    split
    · exact freed.rest
    · exact freed.rest
    · exact freed

theorem State.siteDead_kernels (s : State) (role : Nat) : KernelsKeep s (s.siteDead role) :=
  (KernelsKeep.of_eq (congrArg JmSt.kernels (s.replaceUnit_jm ..))).trans (State.rerunRole_reruns ..).kernels

/-- An invocation of a role that is over does not come back with the role's other work, which runs under the next epoch (R315). -/
theorem State.siteDead_not_mem_running {role p : Nat} (filled : s.mgmt.units.unitOf .siteU role = some p) (current : i.epoch = s.mgmt.units.epochOf .siteU role)
    (gone : i ∉ s.jm.running) : i ∉ (s.siteDead role).jm.running := by
  intro hi
  rcases (State.rerunRole_reruns ..).running i hi with still | again
  · exact gone (s.replaceUnit_jm .siteU role _ ▸ still)
  · rw [State.replaceUnit_epochOf filled, ← current] at again
    exact nextEpoch_ne _ again.symm

theorem State.siteDead_fences {role p : Nat} (filled : s.mgmt.units.unitOf .siteU role = some p) (holds : s.mgmt.units.roleOf .siteU p = some role) :
    ((s.siteDead role).mgmt.units.unit .siteU p).state = .fenced ∧
      (s.siteDead role).mgmt.units.epochOf .siteU role = nextEpoch (s.mgmt.units.epochOf .siteU role) := by
  have mgmt : (s.siteDead role).mgmt = (s.replaceUnit .siteU role Status.hardwareFault.code).mgmt := (State.rerunRole_reruns ..).only.mgmt_eq (by simp)
  rw [mgmt]
  exact State.replaceUnit_fences filled holds _

end Sys2Proof.Machine
end

section
/-!
SUPPORT. The start and the ends of an invocation (R296, R304, R307, R313, R314).
-/
namespace Sys2Proof.Machine

set_option Elab.async false

variable {s t : State} {i : Invoc}

/-! ### JM_INVOCATION_START -/

/-- The invocation that a thread of a role takes from the pending ones of a kernel (R304). -/
def State.taken (s : State) (k : Kernel) (x : Nat × Nat × JobKind) (role thread : Nat) (poisoned : Bool) : Invoc :=
  { kernel := k.handle, slot := x.2.1, kind := x.2.2, role := role, thread := thread, epoch := s.mgmt.units.epochOf .siteU role, startNs := s.ns,
    wasReset := poisoned && khClass k.head != 0 }

/-- The state block of an invocation is reset, and its tile or its policy starts: Journeyman alone changes, and no other thread does. -/
theorem execJmInvocationStart_runs {role : Fin 128} {k : Kernel} {x : Nat × Nat × JobKind} {n : Nat} (poisoned : Bool)
    (owner : s.jmRates.jm.kernels.find? (fun k => k.roles.contains role.val) = some k) (unit : (s.jmRates.mgmt.units.unitOf .siteU role.val).isSome = true)
    (free : (List.range 4).find? (fun t => s.jmRates.jm.running.all (fun i => !(i.role == role.val && i.thread == t))) = some n)
    (sound : k.faulted = false) (first : minBy (fun x => x.1) (s.jmRates.pendings k) = some x) : ∃ t : State,
    execJmInvocationStart role poisoned s = .next t ∧ t.jm.running = s.jmRates.jm.running ++ [s.jmRates.taken k x role.val n poisoned] ∧
      Only [.jm] s.jmRates t := by
  obtain ⟨p, filled⟩ := Option.isSome_iff_exists.mp unit
  unfold execJmInvocationStart
  generalize s.jmRates = v at owner filled free first ⊢
  simp only [owner, filled, free, sound, first, Bool.false_eq_true, if_false]
  refine ⟨_, rfl, ?_⟩
  generalize hw : (if (poisoned && khClass k.head != 0) = true then _ else _ : State) = w
  have base : w.jm.running = v.jm.running ++ [v.taken k x role.val n poisoned] ∧ Only [.jm] v w := by
    rw [← hw]
    split
    · exact ⟨rfl, ((v.mapJm_only _).jm (by simp) _).jm (by simp) _⟩
    · exact ⟨rfl, v.mapJm_only _⟩
  obtain ⟨running, only⟩ := base
  split
  · exact ⟨running, only.jm (by simp) _⟩
  · exact ⟨running, (only.jm (by simp) _).jm (by simp) _⟩
  · exact ⟨running, only⟩

/-! ### Ends -/

/-- A kernel of a handle whose kernels have been updated has the tally of an update. -/
theorem KernelsKeep.of_mapKernel {h : Handle} {f : Kernel → Kernel} (keep : KernelsKeep (s.mapKernel h f) t)
    {k' : Kernel} (hk : k' ∈ t.jm.kernels) (own : k'.handle = h) : ∃ k ∈ s.jm.kernels, k.handle = h ∧ k'.tally = (f k).tally := by
  obtain ⟨y, hy, same⟩ := keep k' hk
  obtain ⟨k, hk, rfl⟩ := mem_updWhere.mp hy
  have handle := (congrArg KernelTally.handle same).symm.trans own
  by_cases e : k.handle = h
  · exact ⟨k, hk, e, by simpa [e] using same⟩
  · rw [if_neg (by simpa using e)] at handle
    exact absurd handle e

theorem State.freeThread_not_mem (s : State) (i : Invoc) : i ∉ (s.freeThread i).jm.running := by simp [State.freeThread]

/-- An invocation has ended well: its thread is free, it has counted, and its kernel's run of traps is broken. -/
def State.Ended (s : State) (i : Invoc) (t : State) : Prop := i ∉ t.jm.running ∧ ∀ k' ∈ t.jm.kernels, k'.handle = i.kernel → k'.consec = 0 ∧
  ∃ k ∈ s.jm.kernels, k.handle = i.kernel ∧ k'.cnt.invocations = k.cnt.invocations.satInc ∧ k'.cnt.traps = k.cnt.traps

/-- An invocation has trapped: its thread is free, and its kernel has counted the trap and has its code. -/
def State.Trapped (s : State) (i : Invoc) (code : Nat) (t : State) : Prop := i ∉ t.jm.running ∧ ∀ k' ∈ t.jm.kernels, k'.handle = i.kernel →
  k'.lastTrap = code ∧ ∃ k ∈ s.jm.kernels, k.handle = i.kernel ∧ k'.cnt.traps = k.cnt.traps.satInc

theorem State.ended_of_wanes (h : JmWanes (s.endsWell i) t) : s.Ended i t := by
  refine ⟨fun hi => s.freeThread_not_mem i (h.running hi), fun k' hk own => ?_⟩
  obtain ⟨k, mem, handle, same⟩ := h.kernels.of_mapKernel hk own
  exact ⟨congrArg KernelTally.consec same, k, mem, handle, congrArg KernelTally.invocations same, congrArg KernelTally.traps same⟩

/-- The thread of an invocation that traps is free, and its kernel counts the trap and keeps its code (R313). -/
def State.trapCounted (s : State) (i : Invoc) (code : Nat) : State :=
  (s.freeThread i).mapKernel i.kernel (fun k => { k with
    consec := Nat.min 255 (k.consec + 1), lastTrap := code,
    cnt := { k.cnt with invocations := k.cnt.invocations.satInc, traps := k.cnt.traps.satInc } })

theorem State.trapped_of_keeps {code : Nat} (gone : i ∉ t.jm.running) (h : KernelsKeep (s.trapCounted i code) t) : s.Trapped i code t := by
  refine ⟨gone, fun k' hk own => ?_⟩
  obtain ⟨k, mem, handle, same⟩ := h.of_mapKernel hk own
  exact ⟨congrArg KernelTally.lastTrap same, k, mem, handle, congrArg KernelTally.traps same⟩

/-- A trap is logged and its invocation given up. With three FETCH traps the site dies, and what the role still runs goes on under its next epoch (R314). -/
theorem State.jmTrap_trapped {code : Nat} (current : code = 2 → i.epoch = s.mgmt.units.epochOf .siteU i.role) : s.Trapped i code (s.jmTrap i code) := by
  unfold State.jmTrap
  extract_lets t1 entry fault t2 t3 t4 t5
  have logged : JmWanes t1 t2 := by
    unfold t2
    split
    · exact (JmWanes.refl t1).beside ((State.logErrorPost_only (.refl [.host, .mgmt] t1) (by simp) (by simp) entry).same .jm (by simp))
        ((Outside.refl t1).logErrorPost entry)
    · exact (JmWanes.refl t1).other
  have given : JmWanes t1 t4 := .ite ((logged.endsEmpty i).faultKernel _) (logged.endsEmpty i)
  have gone : i ∉ t4.jm.running := fun hi => s.freeThread_not_mem i (given.running hi)
  have ended : i ∉ t5.jm.running ∧ KernelsKeep t1 t5 := by
    unfold t5
    split
    next site filled =>
      dsimp only
      split
      · have filled' : t4.mgmt.units.unitOf .siteU i.role = some site := by
          rw [given.units]
          exact filled
        have current' : i.epoch = t4.mgmt.units.epochOf .siteU i.role := by
          rw [given.units]
          exact current rfl
        exact ⟨State.siteDead_not_mem_running (s := t4.mapJm _) filled' current' gone, given.kernels.trans (State.siteDead_kernels (t4.mapJm _) _)⟩
      · exact ⟨gone, given.kernels⟩
    · exact ⟨gone, given.kernels⟩
  have settled := (JmWanes.refl t5).jmSettle
  exact State.trapped_of_keeps (fun hi => ended.1 (settled.running hi)) (ended.2.trans settled.kernels)

/-! ### JM_INVOCATION_END -/

section
variable {role : Fin 128} {th : Fin 4} (hi : s.invocation role.val th.val = some i)
include hi

theorem State.role_of_invocation : i.role = role.val := by
  have found := List.find?_some hi
  simp only [Bool.and_eq_true, beq_iff_eq] at found
  exact found.1

theorem State.mem_of_invocation : i ∈ s.jm.running := List.mem_of_find?_eq_some hi

/-- An end under another epoch than the role's is that of a site that is dead (R24). -/
theorem execJmInvocationEnd_stale (stale : i.epoch ≠ s.mgmt.units.epochOf .siteU role.val) (res : JmResult) :
    execJmInvocationEnd role th res s = .next (s.dropStale (unitHandle 0x03 role.val) i.epoch) := by
  unfold execJmInvocationEnd
  simp only [hi]
  rw [if_pos (by simpa using stale)]

section
variable (current : i.epoch = s.mgmt.units.epochOf .siteU role.val)
include current

theorem execJmInvocationEnd_policy {cam run fn : Nat} (kind : i.kind = .policy cam run fn) (valid : Nat) (req st : List Byte) : ∃ t : State,
    execJmInvocationEnd role th (.policy valid req st) s = .next t ∧ s.Ended i t := by
  unfold execJmInvocationEnd
  simp only [hi, current, bne_self_eq_false, Bool.false_eq_true, if_false, kind]
  have stored : JmWanes (s.endsWell i) ((s.endsWell i).keepState i st) := (JmWanes.refl _).other
  exact ⟨_, rfl, State.ended_of_wanes (stored.endPolicy ..).jmSettle⟩

theorem execJmInvocationEnd_rate {h : Handle} {seq fn : Nat} (kind : i.kind = .rate h seq fn) (valid bits qp : Nat) (st : List Byte) : ∃ t : State,
    execJmInvocationEnd role th (.rate valid bits qp st) s = .next t ∧ s.Ended i t := by
  unfold execJmInvocationEnd
  simp only [hi, current, bne_self_eq_false, Bool.false_eq_true, if_false, kind]
  exact ⟨_, rfl, State.ended_of_wanes (JmWanes.refl _).other.jmSettle⟩

theorem execJmInvocationEnd_tile {cam hook run fn tx ty : Nat} (kind : i.kind = .tile cam hook run fn tx ty) (planes : List (List Nat))
    {reds : List (JmRed × Nat × Nat)} (allowed : reds.all (redOk (s.khead i.kernel)) = true) : ∃ t : State,
    execJmInvocationEnd role th (.tile planes reds) s = .next t ∧ s.Ended i t := by
  unfold execJmInvocationEnd
  simp only [hi, current, bne_self_eq_false, Bool.false_eq_true, if_false, kind, allowed, Bool.not_true]
  refine ⟨_, rfl, State.ended_of_wanes (JmWanes.jmSettle ?_)⟩
  split
  · exact .ite ((JmWanes.refl _).endTile ..) (.refl _)
  · exact .refl _

theorem execJmInvocationEnd_trap {code : Nat} (least : 1 ≤ code) (most : code ≤ 5) : ∃ t : State,
    execJmInvocationEnd role th (.trap code) s = .next t ∧ s.Trapped i code t := by
  unfold execJmInvocationEnd
  simp only [hi, current, bne_self_eq_false, Bool.false_eq_true, if_false, least, most, decide_true, Bool.and_self, if_true]
  exact ⟨_, rfl, State.jmTrap_trapped fun _ => by rw [State.role_of_invocation hi, current]⟩

theorem execJmInvocationEnd_fault : execJmInvocationEnd role th .fault s = .next (s.siteDead role.val) := by
  unfold execJmInvocationEnd
  simp only [hi, current, bne_self_eq_false, Bool.false_eq_true, if_false]

end

/-! ### Limits -/

theorem execOverrun_traps {cam hook run fn tx ty : Nat} (kind : i.kind = .tile cam hook run fn tx ty) : ∃ t : State,
    execOverrun role th s = .next t ∧ s.Trapped i 6 t := by
  unfold execOverrun
  simp only [hi, kind]
  exact ⟨_, rfl, State.jmTrap_trapped (by simp)⟩

theorem execWatchdog_traps {cam run fn : Nat} (kind : i.kind = .policy cam run fn) : ∃ t : State,
    execWatchdog role th s = .next t ∧ s.Trapped i 7 t := by
  unfold execWatchdog
  simp only [hi, kind]
  exact ⟨_, rfl, State.jmTrap_trapped (by simp)⟩

theorem execSiteStall_dead : execSiteStall role s = .next (s.siteDead role.val) := by
  have held : s.jm.running.any (fun i => i.role == role.val) = true :=
    List.any_eq_true.mpr ⟨i, State.mem_of_invocation hi, by simpa using State.role_of_invocation hi⟩
  unfold execSiteStall
  rw [if_pos held]

end

/-! ### RATE_KERNEL_TIMEOUT -/

/-- A session's running invocation is stopped without a trap. -/
def State.stopRate (h : Handle) (s : State) : State :=
  match s.jm.running.find? (fun i => match i.kind with | .rate x _ _ => x == h | _ => false) with
  | some i => (s.freeThread i).countKernel i.kernel (fun n => { n with timeouts := n.timeouts.satInc })
  | none => s

theorem State.stopRate_eq (h : Handle) (s : State) : ∃ f, s.stopRate h = s.mapJm f := by
  unfold State.stopRate
  split
  next i _ => exact ⟨fun _ => ((s.freeThread i).countKernel i.kernel (fun n => { n with timeouts := n.timeouts.satInc })).jm, rfl⟩
  · exact ⟨id, rfl⟩

/-- The answer for the picture that a session waits with is the session's. -/
theorem State.answerRate_waiting {h : Handle} {e : EncSession} {n : EncNext} (he : s.enc h = some e) (bound : e.rateBound = true)
    (waits : s.rateWaits e = true) (ready : s.readyPic e = some n) (a : RateAnswer) :
    (s.answerRate h e.seqNext n.frame.fn a).enc h = some { e with answer := a, answerFn := n.frame.fn } := by
  obtain rfl := State.handle_of_enc he
  unfold State.answerRate
  rw [State.enc_mapEnc he fun x => by split <;> rfl]
  simp [bound, waits, ready]

/-- The session of a kernel that does not answer in time goes on without: its answer counts as missed (R211). -/
theorem execRateKernelTimeout_misses {h : Handle} {e : EncSession} (he : s.enc h = some e) (bound : e.rateBound = true) (waits : s.rateWaits e = true) :
    ∃ (t : State) (e' : EncSession), execRateKernelTimeout h s = .next t ∧ t.enc h = some e' ∧ e'.answer = .missed := by
  obtain ⟨n, ready⟩ : ∃ n, s.readyPic e = some n := by
    unfold State.rateWaits at waits
    split at waits
    next n ready => exact ⟨n, ready⟩
    · cases waits
  have step : execRateKernelTimeout h s = .next (((s.stopRate h).answerRate h e.seqNext n.frame.fn .missed).jmSettle) := by
    unfold execRateKernelTimeout
    simp only [he, bound, waits, ready, Bool.not_true, Bool.or_self, Bool.false_eq_true, if_false]
    rfl
  obtain ⟨f, stopped⟩ := State.stopRate_eq h s
  rw [stopped] at step
  have kept (v : State) : v.jmSettle.encs = v.encs := (State.jmSettle_only (.refl [.host, .mgmt, .jm] v) (by simp)).encs_eq (by simp)
  refine ⟨_, { e with answer := .missed, answerFn := n.frame.fn }, step, ?_, rfl⟩
  rw [State.enc, kept]
  exact State.answerRate_waiting (s := s.mapJm f) he bound waits ready .missed

end Sys2Proof.Machine
end

section
/-!
SUPPORT. TILE_DEADLINE (R307): a frame whose tiles are given up one frame after the other.
-/
namespace Sys2Proof.Machine

set_option Elab.async false

variable {s t u v : State}

/-- Whether an invocation is on a tile of a hooked frame. -/
def HookFrame.runs (f : HookFrame) (i : Invoc) : Bool := match i.kind with | .tile c h r n _ _ => f.is c h r n | _ => false

/-- The running tiles of a frame are stopped without a trap. -/
def State.stopTiles (f : HookFrame) (s : State) : State := s.mapJm (fun j => { j with running := j.running.filter (fun i => !f.runs i) })

/-- The tiles of a frame that are left are given up at its deadline. -/
def State.giveUp (s : State) (f : HookFrame) : State :=
  (((s.stopTiles f).voidTiles f f.left).countKernel f.kernel (fun k => { k with abandoned := satAdd k.abandoned f.left.length })).finishHook f

theorem execTileDeadline_eq (cam : Fin 48) (fn : Nat) (s : State) :
    execTileDeadline cam fn s = .next ((s.jm.hooks.filter (fun f => f.cam == cam.val && f.fn == fn)).foldl State.giveUp s).jmSettle := rfl

/-- A frame as it was before some of its tiles became invalid. -/
structure HookFrame.Before (x y : HookFrame) : Prop where
  is : ∀ cam hook run fn, y.is cam hook run fn = x.is cam hook run fn
  shape : y.shape = x.shape
  good : y.good = x.good
  bad : x.bad ⊆ y.bad

theorem HookFrame.Before.refl (x : HookFrame) : x.Before x := ⟨fun _ _ _ _ => rfl, rfl, rfl, List.Subset.refl _⟩

theorem HookFrame.Before.trans {x y z : HookFrame} (h : x.Before y) (k : y.Before z) : x.Before z :=
  ⟨fun _ _ _ _ => (k.is ..).trans (h.is ..), k.shape.trans h.shape, k.good.trans h.good, List.Subset.trans h.bad k.bad⟩

theorem HookFrame.is_iff {f : HookFrame} {cam hook run fn : Nat} :
    f.is cam hook run fn = true ↔ f.cam = cam ∧ f.hook = hook ∧ f.run = run ∧ f.fn = fn := by
  simp [HookFrame.is, and_assoc]

theorem HookFrame.is_self (f : HookFrame) : f.is f.cam f.hook f.run f.fn = true := HookFrame.is_iff.mpr ⟨rfl, rfl, rfl, rfl⟩

/-- A frame whose tiles that were left are invalid has none left. -/
theorem HookFrame.Before.left_nil {x y : HookFrame} (h : x.Before y) (void : x.left ⊆ y.bad) : y.left = [] := by
  refine List.filter_eq_nil_iff.mpr fun q hq free => ?_
  simp only [Bool.and_eq_true, Bool.not_eq_true', List.contains_eq_mem, decide_eq_false_iff_not, h.good] at free
  obtain ⟨notGood, notBad⟩ := free
  have tile : q ∈ x.tiles := by
    unfold HookFrame.tiles at hq ⊢
    rwa [h.shape] at hq
  have left : q ∈ x.left := List.mem_filter.mpr ⟨tile, by simpa using ⟨notGood, fun was => notBad (h.bad was)⟩⟩
  exact notBad (void left)

/-- Some frames have been given up: what was left of them is invalid, and nothing runs on them. -/
structure GivenUp (l : List HookFrame) (s t : State) : Prop where
  hooks : ∀ y ∈ t.jm.hooks, ∃ x ∈ s.jm.hooks, x.Before y ∧ ∀ f ∈ l, y.is f.cam f.hook f.run f.fn = true → f.left ⊆ y.bad
  running : ∀ i ∈ t.jm.running, i ∈ s.jm.running ∧ ∀ f ∈ l, f.runs i = false

theorem State.finishHook_hooks (s : State) (f : HookFrame) : (s.finishHook f).jm.hooks ⊆ s.jm.hooks := by
  obtain ⟨_, hs, sub, same⟩ := s.finishHook_jm f
  rw [same]
  exact sub

theorem State.jmSettle_hooks (s : State) : s.jmSettle.jm.hooks = s.jm.hooks := by
  have ended (o : Option CmdRef) (v : State) (st : Status) (r0 : Nat) : (match o with | some r => v.finish r st r0 0 false | none => v).jm = v.jm := by
    split
    · exact v.finish_jm ..
    · rfl
  unfold State.jmSettle
  extract_lets dead out t1 t2 idle t3
  have unbound : t2.jm.hooks = t1.jm.hooks := congrArg JmSt.hooks (foldl_jm (fun v (b : KBind) => ended b.by_ v _ _) out t1)
  refine (congrArg JmSt.hooks (foldl_jm ?_ _ t3)).trans unbound
  exact fun v k => ended ..

theorem State.giveUp_givenUp (t : State) (f : HookFrame) : GivenUp [f] t (t.giveUp f) := by
  have wanes : JmWanes (t.stopTiles f) (t.giveUp f) := (((JmWanes.refl _).voidTiles f f.left).mapKernel f.kernel).finishHook f
  refine ⟨fun y hy => ?_, fun i hi => ?_⟩
  · have mem : y ∈ ((t.stopTiles f).voidTiles f f.left).jm.hooks := State.finishHook_hooks (((t.stopTiles f).voidTiles f f.left).countKernel f.kernel _) f hy
    rw [State.voidTiles_jm] at mem
    obtain ⟨x, hx, rfl⟩ := mem_updWhere.mp mem
    refine ⟨x, hx, ?_⟩
    split
    · exact ⟨⟨fun _ _ _ _ => rfl, rfl, rfl, List.subset_append_left ..⟩, by simp⟩
    next other => exact ⟨.refl x, by simpa using fun its => absurd its other⟩
  · have kept := List.mem_filter.mp (wanes.running hi)
    exact ⟨kept.1, by simpa using kept.2⟩

theorem State.foldl_giveUp_givenUp (l : List HookFrame) (t : State) : GivenUp l t (l.foldl State.giveUp t) := by
  induction l generalizing t with
  | nil => exact ⟨fun y hy => ⟨y, hy, .refl y, by simp⟩, fun i hi => ⟨hi, by simp⟩⟩
  | cons f l ih =>
    have first := t.giveUp_givenUp f
    have rest := ih (t.giveUp f)
    refine ⟨fun y hy => ?_, fun i hi => ?_⟩
    · obtain ⟨x, hx, before, void⟩ := rest.hooks y hy
      obtain ⟨w, hw, before', void'⟩ := first.hooks x hx
      refine ⟨w, hw, before'.trans before, List.forall_mem_cons.mpr ⟨fun its => ?_, void⟩⟩
      exact List.Subset.trans (void' f (by simp) ((before.is ..).symm.trans its)) before.bad
    · obtain ⟨held, quiet⟩ := rest.running i hi
      obtain ⟨held', quiet'⟩ := first.running i held
      exact ⟨held', List.forall_mem_cons.mpr ⟨quiet' f (by simp), quiet⟩⟩

theorem execTileDeadline_resolves (cam : Fin 48) (fn : Nat) (s : State) : ∃ t : State, execTileDeadline cam fn s = .next t ∧
    (∀ f ∈ t.jm.hooks, f.cam = cam.val → f.fn = fn → f.left = []) ∧
    (∀ f ∈ s.jm.hooks, f.cam = cam.val → f.fn = fn → ∀ i ∈ t.jm.running, ∀ tx ty, i.kind ≠ .tile f.cam f.hook f.run f.fn tx ty) := by
  have given := State.foldl_giveUp_givenUp (s.jm.hooks.filter (fun f => f.cam == cam.val && f.fn == fn)) s
  refine ⟨_, execTileDeadline_eq cam fn s, fun y hy hc hf => ?_, fun f mem hc hf i hi tx ty kind => ?_⟩
  · rw [State.jmSettle_hooks] at hy
    obtain ⟨x, hx, before, void⟩ := given.hooks y hy
    have its : y.is x.cam x.hook x.run x.fn = true := (before.is ..).trans x.is_self
    obtain ⟨cam_, -, -, fn_⟩ := HookFrame.is_iff.mp its
    refine before.left_nil (void x (List.mem_filter.mpr ⟨hx, ?_⟩) its)
    simp [← cam_, ← fn_, hc, hf]
  · have quiet := (given.running i ((JmWanes.refl _).jmSettle.running hi)).2 f (List.mem_filter.mpr ⟨mem, by simp [hc, hf]⟩)
    unfold HookFrame.runs at quiet
    rw [kind] at quiet
    exact absurd (f.is_self.symm.trans quiet) (by simp)

end Sys2Proof.Machine
end

section
namespace Sys2Proof

set_option Elab.async false

open Machine

/-- Settles O44: whatever the end of an invocation does besides, no kernel's tally changes but by the end itself, and no thread gets it back: even where a
third FETCH trap kills the site, the role's other work runs on under the next epoch. -/
theorem invocationsRunAndEnd : Obligations.InvocationsRunAndEnd := by
  unfold Obligations.InvocationsRunAndEnd
  intro s role th
  refine ⟨fun k x n poisoned owner unit free sound first => execJmInvocationStart_runs poisoned owner unit free sound first,
    fun i hi => ⟨fun stale res => execJmInvocationEnd_stale hi stale res, fun current => ⟨?_, ?_, ?_, ?_, ?_⟩, ?_, ?_, ?_⟩,
    fun h e he bound waits => execRateKernelTimeout_misses he bound waits, fun cam fn => execTileDeadline_resolves cam fn s⟩
  · exact fun valid req st _ _ _ kind => execJmInvocationEnd_policy hi current kind valid req st
  · exact fun valid bits qp st _ _ _ kind => execJmInvocationEnd_rate hi current kind valid bits qp st
  · exact fun planes _ _ _ _ _ _ _ kind allowed => execJmInvocationEnd_tile hi current kind planes allowed
  · exact fun _ least most => execJmInvocationEnd_trap hi current least most
  · exact ⟨_, execJmInvocationEnd_fault hi current, fun _ filled holds => State.siteDead_fences filled holds⟩
  · exact fun _ _ _ _ _ _ kind => execOverrun_traps hi kind
  · exact fun _ _ _ kind => execWatchdog_traps hi kind
  · exact ⟨_, execSiteStall_dead hi, fun _ filled holds => State.siteDead_fences filled holds⟩

end Sys2Proof
end

section
/-!
SUPPORT. The place of a new buffer (R320): the lowest address that fits.
-/
namespace Sys2Proof.Machine

theorem roundUp_mod (x m : Nat) : roundUp x m % m = 0 := Nat.mul_mod_left _ _

/-- Rounding up gives the least multiple that is not below. -/
theorem roundUp_le {x m y : Nat} (hm : 0 < m) (hxy : x ≤ y) (hy : y % m = 0) : roundUp x m ≤ y := by
  obtain ⟨k, rfl⟩ := Nat.dvd_of_mod_eq_zero hy
  have below : (x + m - 1) / m < k + 1 := by
    rw [Nat.div_lt_iff_lt_mul hm, Nat.add_mul, Nat.mul_comm k m]
    omega
  calc roundUp x m ≤ k * m := Nat.mul_le_mul_right m (Nat.lt_succ_iff.mp below)
    _ = m * k := Nat.mul_comm k m

theorem overlaps_eq_false_iff (a n b m : Nat) : overlaps a n b m = false ↔ b + m ≤ a ∨ a + n ≤ b := by
  rw [← Bool.not_eq_true, overlaps, Bool.and_eq_true, decide_eq_true_eq, decide_eq_true_eq]
  omega

/-- An address where a buffer of a size can lie, at an alignment: aligned, in the heap, and clear of every blocked range (R317, R320). -/
@[reducible] def MemSt.fits (m : MemSt) (size align a : Nat) : Prop :=
  a % align = 0 ∧ Config.heapBase ≤ a ∧ a + size ≤ Config.heapEnd ∧ ∀ b ∈ m.blocked, overlaps a size b.1 b.2 = false

theorem MemSt.free_iff (m : MemSt) (a n : Nat) :
    m.free a n = true ↔ Config.heapBase ≤ a ∧ a + n ≤ Config.heapEnd ∧ ∀ b ∈ m.blocked, overlaps a n b.1 b.2 = false := by
  simp [MemSt.free, and_assoc]

/-- The addresses that the search tries: the heap's base and the end of each blocked range, rounded up. -/
def MemSt.places (m : MemSt) (align : Nat) : List Nat :=
  (Config.heapBase :: m.blocked.map (fun b => b.1 + b.2)).map (fun a => roundUp a align)

theorem MemSt.lowestFree_eq (m : MemSt) (size align : Nat) :
    m.lowestFree size align = minBy id ((m.places align).filter (fun a => m.free a size)) := rfl

/-- What the search tries and finds free fits. -/
theorem MemSt.fits_of_place {m : MemSt} {size align a : Nat} (h : a ∈ (m.places align).filter (fun a => m.free a size)) :
    m.fits size align a := by
  obtain ⟨place, free⟩ := List.mem_filter.mp h
  obtain ⟨x, -, rfl⟩ := List.mem_map.mp place
  exact ⟨roundUp_mod x align, (m.free_iff _ _).mp free⟩

/-- Below every address that fits, the search tries one that fits: the last end of a blocked range up to it, rounded up. -/
theorem MemSt.exists_place_le {m : MemSt} {size align x : Nat} (ha : 0 < align) (h : m.fits size align x) :
    ∃ a ∈ (m.places align).filter (fun a => m.free a size), a ≤ x := by
  obtain ⟨aligned, above, below, clear⟩ := h
  let starts := Config.heapBase :: m.blocked.map (fun b => b.1 + b.2)
  let e := Nat.findGreatest (· ∈ starts) x
  have start : e ∈ starts := Nat.findGreatest_spec (P := (· ∈ starts)) above (by simp [starts])
  have last {y : Nat} (hy : y ∈ starts) (hx : y ≤ x) : y ≤ e := Nat.le_findGreatest hx hy
  have up := le_roundUp ha e
  have low : roundUp e align ≤ x := roundUp_le ha (Nat.findGreatest_le x) aligned
  refine ⟨roundUp e align, List.mem_filter.mpr ⟨List.mem_map_of_mem start, (m.free_iff _ _).mpr ⟨?_, by omega, fun b hb => ?_⟩⟩, low⟩
  · exact (last (by simp [starts]) above).trans up
  · rcases (overlaps_eq_false_iff ..).mp (clear b hb) with before | after
    · have := last (List.mem_cons_of_mem _ (List.mem_map_of_mem hb)) before
      exact (overlaps_eq_false_iff ..).mpr (.inl (this.trans up))
    · exact (overlaps_eq_false_iff ..).mpr (.inr (by omega))

theorem MemSt.lowestFree_some {m : MemSt} {size align a : Nat} (ha : 0 < align) (h : m.lowestFree size align = some a) :
    m.fits size align a ∧ ∀ x, m.fits size align x → a ≤ x := by
  rw [MemSt.lowestFree_eq] at h
  obtain ⟨place, least⟩ := minBy_spec h
  refine ⟨MemSt.fits_of_place place, fun x hx => ?_⟩
  obtain ⟨y, hy, le⟩ := MemSt.exists_place_le ha hx
  exact (least y hy).trans le

theorem MemSt.lowestFree_none {m : MemSt} {size align : Nat} (ha : 0 < align) (h : m.lowestFree size align = none) (x : Nat) :
    ¬ m.fits size align x := by
  rw [MemSt.lowestFree_eq, minBy_eq_none_iff] at h
  intro hx
  obtain ⟨y, hy, -⟩ := MemSt.exists_place_le ha hx
  exact List.ne_nil_of_mem hy h

end Sys2Proof.Machine

namespace Sys2Proof

open Machine

/-- Settles O17: the search tries only the heap's base and the ends of blocked ranges, and one of these lies at or below every address that fits. -/
theorem bufferPlacementIsTheLowestFreeRange : Obligations.BufferPlacementIsTheLowestFreeRange := by
  unfold Obligations.BufferPlacementIsTheLowestFreeRange
  exact fun m size align _ ha => ⟨fun a h => MemSt.lowestFree_some ha h, fun h => MemSt.lowestFree_none ha h⟩

end Sys2Proof
end

section
/-!
SUPPORT. What an accepted command's handle fields name (R5).
-/
namespace Sys2Proof

open Machine

variable {op : Op} {c : Cmd} {s : State}

theorem need_bind_ok {α : Type} {b : Bool} {f : Fail} {k : Unit → Chk α} {x : α} (h : (need b f >>= k) = .ok x) : b = true ∧ k () = .ok x := by
  cases b with
  | true => exact ⟨rfl, h⟩
  | false => cases h

/-- The common checks hold a command's handle fields to what they take. -/
theorem Accepted.handles (h : Accepted op c s) : handleOk s (opSpec op).h c.handle = true ∧ handleOk s (opSpec op).a c.aux = true := by
  have pass := h.2
  unfold preflight at pass
  obtain ⟨-, pass⟩ := need_bind_ok pass
  obtain ⟨-, pass⟩ := need_bind_ok pass
  cases hb : firstBad (packetFields op c) with
  | some off => rw [hb] at pass; cases pass
  | none =>
    rw [hb] at pass
    obtain ⟨hh, pass⟩ := need_bind_ok pass
    exact ⟨hh, (need_bind_ok pass).1⟩

theorem Accepted.handle_type (h : Accepted op c s) {ty : Nat} (hs : (opSpec op).h = .must ty) : typeOf c.handle = ty := by
  have := Accepted.handles h
  rw [hs] at this
  exact eq_of_beq (Bool.and_eq_true_iff.mp this.1).1

theorem Accepted.aux_type (h : Accepted op c s) {ty : Nat} (hs : (opSpec op).a = .must ty) : typeOf c.aux = ty := by
  have := Accepted.handles h
  rw [hs] at this
  exact eq_of_beq (Bool.and_eq_true_iff.mp this.2).1

end Sys2Proof
end

section
/-!
SUPPORT. BUF_ALLOC and BUF_FREE (R320, R321).
-/
namespace Sys2Proof.Machine

variable {c : Cmd} {s : State}

theorem blockBytes_le (k n : Nat) : blockBytes k n ≤ n := Nat.min_le_left ..

/-- A range of bytes reads zero from now on. -/
def State.zeroMem (s : State) (a n : Nat) : State := s.mapMem (fun m => { m with mem := m.mem.zero a n })

theorem State.zeroMem_only {ps : List Part} {t : State} (h : Only ps s t) (hb : Part.bytes ∈ ps) (a n : Nat) : Only ps s (t.zeroMem a n) := h.bytes hb _

theorem State.zeroMem_byte (s : State) (a n x : Nat) : (s.zeroMem a n).mem.mem.byte x = if a ≤ x ∧ x < a + n then 0 else s.mem.mem.byte x :=
  Memory.byte_zero ..

/-- A new buffer takes the next handle. -/
def State.addBuffer (s : State) (a n : Nat) : State :=
  (s.mapMem (fun m => { m with buffers := m.buffers ++ [{ handle := s.nextHandle 1, base := a, size := n }] })).issue 1

theorem State.addBuffer_only (s : State) (a n : Nat) : Only [.memory, .issued] s (s.addBuffer a n) :=
  Only.issued ((Only.refl _ s).memory (by simp) _ rfl) (by simp) _

theorem State.writes_bytes (s : State) (src : FabSrc) (role : FabRole) (k a n : Nat) : (s.writes src role k a n).mem = s.mem := rfl

section

variable (ha : Accepted .bufAlloc c s) (h1 : 1 ≤ par64 c 0) (h2 : par64 c 0 ≤ 0x2060000000)
  (hal : par c 2 % 32 = 0 ∨ (12 ≤ par c 2 % 32 ∧ par c 2 % 32 ≤ 30)) (room : s.mem.buffers.length < 65536) {a : Nat}
  (place : s.mem.lowestFree (roundUp (par64 c 0) 4096) (2 ^ (if par c 2 % 32 = 0 then 12 else par c 2 % 32)) = some a)

include ha h1 h2 hal room place

omit ha in
/-- BUF_ALLOC with its checks past: it stops at the end of a block of the fill, or makes its buffer. -/
theorem execBufAlloc_eq : execBufAlloc c s = runCmd .bufAlloc c s (
    let n := roundUp (par64 c 0) 4096
    if s.stopping (ref .bufAlloc c) then
      let z := blockBytes (if bitOf (par c 2) 8 then s.blocksDone n else 0) n
      .ok (.done .aborted 0 0 ((s.tickFresh.zeroMem a z).writes .bufCmd .queueEngine noCam a z))
    else okDone (s.nextHandle 1).toNat (a / 4096)
      (if bitOf (par c 2) 8 then ((s.addBuffer a n).zeroMem a n).writes .bufCmd .queueEngine noCam a n else s.addBuffer a n)) := by
  have size : (decide (1 ≤ par64 c 0) && decide (par64 c 0 ≤ Config.heapEnd - Config.heapBase)) = true := by
    simp only [Bool.and_eq_true, decide_eq_true_eq]
    exact ⟨h1, h2⟩
  have low5 : bitsOf (par c 2) 4 0 = par c 2 % 32 := by simp [bitsOf]
  have align : (par c 2 % 32 == 0 || (decide (12 ≤ par c 2 % 32) && decide (par c 2 % 32 ≤ 30))) = true := by simpa using hal
  unfold execBufAlloc
  simp only [size, low5, align, decide_eq_true room, need_bind_true, place, needSome_bind_some]
  rfl

theorem execBufAlloc_stops (stops : s.stopping (ref .bufAlloc c) = true) :
    ∃ z, z ≤ roundUp (par64 c 0) 4096 ∧ execBufAlloc c s =
      .next (((s.tickFresh.zeroMem a z).writes .bufCmd .queueEngine noCam a z).complete (ref .bufAlloc c) .aborted 0 0 false) := by
  rw [execBufAlloc_eq h1 h2 hal room place]
  exact ⟨_, blockBytes_le .., runCmd_done ha (if_pos stops)⟩

theorem execBufAlloc_done (runs : s.stopping (ref .bufAlloc c) = false) :
    execBufAlloc c s = .next (State.complete (ref .bufAlloc c) .ok (s.nextHandle 1).toNat (a / 4096) false
      (let n := roundUp (par64 c 0) 4096
       if bitOf (par c 2) 8 then ((s.addBuffer a n).zeroMem a n).writes .bufCmd .queueEngine noCam a n else s.addBuffer a n)) := by
  rw [execBufAlloc_eq h1 h2 hal room place]
  exact runCmd_done ha (if_neg (by simp [runs]))

end

theorem State.startPending_nil {s : State} (h : s.mem.pendingRet = []) : s.startPending = s := by
  unfold State.startPending
  rw [h]
  rfl

section

variable (ha : Accepted .bufFree c s) {b : Buffer} (hb : s.buffer c.handle = some b)
include ha hb

/-- A buffer that is not in use is removed. -/
theorem execBufFree_frees (idle : s.bufferInUse b = false) (none_ : s.mem.pendingRet = []) : execBufFree c s =
    .next (({ s with mem := { s.mem with buffers := s.mem.buffers.filter (fun x => x.handle != c.handle) } } : State).complete
      (ref .bufFree c) .ok 0 0 false) := by
  refine runCmd_done ha ?_
  simp only [needBuffer_of_buffer (Accepted.handle_type ha rfl) hb, ok_bind, idle, Bool.not_false, need_bind_true]
  rw [State.startPending_nil (by exact none_)]
  rfl

theorem execBufFree_inUse (used : s.bufferInUse b = true) : execBufFree c s = .next (s.complete (ref .bufFree c) .notReady 0x30 0 false) := by
  refine runCmd_refuses ha (by decide) (f := notReady 0x30) ?_ rfl
  simp only [needBuffer_of_buffer (Accepted.handle_type ha rfl) hb, ok_bind, used, Bool.not_true, need_bind_false]

end

end Sys2Proof.Machine

namespace Sys2Proof

open Machine

/-- Settles O18: what the fill clears lies in the buffer, and nothing else of the command touches a byte. -/
theorem bufAllocAndBufFree : Obligations.BufAllocAndBufFree := by
  unfold Obligations.BufAllocAndBufFree
  intro c s n al h
  refine ⟨fun ha h1 h2 hal room a place => ⟨fun stops => ?stops, fun runs => ?done⟩, fun ha b hb => ⟨execBufFree_frees ha hb, execBufFree_inUse ha hb⟩⟩
  case stops =>
    obtain ⟨z, le, stopped⟩ := execBufAlloc_stops ha h1 h2 hal room place stops
    refine ⟨_, stopped, rfl, fun x hx => ?_, State.writes_only (State.zeroMem_only ((Only.refl _ s).fresh (by simp) _) (by simp) a z) (by simp) ..⟩
    exact (State.zeroMem_byte ..).trans (if_neg (by omega))
  case done =>
    have frame : Only [.memory, .bytes, .issued, .fabric] s (s.addBuffer a n) := (s.addBuffer_only a n).mono (by simp)
    refine ⟨_, execBufAlloc_done ha h1 h2 hal room place runs, ?_⟩
    dsimp only
    split
    next zero =>
      have set8 : par c 2 / 256 % 2 = 1 := by simpa [bitOf] using zero
      refine ⟨rfl, fun _ x low high => ?_, fun clear => by omega, fun x hx => ?_,
        State.writes_only (State.zeroMem_only frame (by simp) a n) (by simp) ..⟩
      · exact (State.zeroMem_byte ..).trans (if_pos ⟨low, high⟩)
      · exact (State.zeroMem_byte ..).trans (if_neg (by omega))
    next plain =>
      have clear8 : par c 2 / 256 % 2 ≠ 1 := by simpa [bitOf] using plain
      exact ⟨rfl, fun set_ => absurd set_ clear8, fun _ => rfl, fun _ _ => rfl, frame⟩

end Sys2Proof
end

section
/-!
SUPPORT. What writes and marks do to the marks of whole lines (R323, R332).
-/
namespace Sys2Proof.Machine

theorem mem_addMark_iff (ls : List Nat) (l d : Nat) : d ∈ addMark ls l ↔ d = l ∨ d ∈ ls := by
  induction ls with
  | nil => simp [addMark]
  | cons x rest ih =>
    unfold addMark
    split
    · rw [List.mem_cons, ih, List.mem_cons]
      exact or_left_comm
    · split
      next same => simp [same]
      · simp

theorem Memory.mem_markAll_iff (m : Memory) (ls : List Nat) (d : Nat) : d ∈ (m.markAll ls).marks ↔ d ∈ ls ∨ d ∈ m.marks := by
  induction ls generalizing m with
  | nil => simp [Memory.markAll]
  | cons l ls ih =>
    have rest := ih (m.mark l)
    rw [Memory.mark, mem_addMark_iff] at rest
    rw [List.mem_cons, or_assoc, or_left_comm]
    exact rest

theorem Memory.marked_line (m : Memory) (l : Nat) : m.marked (l * 64) = true ↔ l ∈ m.marks := by
  simp [Memory.marked]

/-- A line written whole loses its mark. -/
theorem Memory.not_mem_write {m : Memory} {a l : Nat} {bs : List Byte} (h : coversLine a bs.length l = true) : l ∉ (m.write a bs).marks := by
  simp [Memory.write, h]

theorem mem_linesOf {a n l : Nat} (h : coversLine a n l = true) : l ∈ linesOf a n := by
  simp only [coversLine, Bool.and_eq_true, decide_eq_true_eq] at h
  unfold linesOf
  rw [if_neg (by omega)]
  exact List.mem_map.mpr ⟨l - a / 64, List.mem_range.mpr (by omega), by omega⟩

end Sys2Proof.Machine
end

section
/-!
SUPPORT. BUF_COPY, BUF_FILL and BUF_CHECK (R322, R323).
-/
namespace Sys2Proof.Machine

variable {c : Cmd} {s : State}

/-! ### Where a reset of its queue stops a command -/

theorem State.blocksDone_le (s : State) (n : Nat) : s.blocksDone n ≤ ceilDiv n 0x100000 := Nat.lt_succ_iff.mp (Nat.mod_lt _ (Nat.succ_pos _))

/-- The whole blocks before a place in a range are no more than the range's. -/
theorem State.blocksDone_prefix_le (s : State) {m n : Nat} (h : m ≤ n) : s.blocksDone (m / 2 ^ 20 * 2 ^ 20) ≤ ceilDiv n 0x100000 := by
  refine (s.blocksDone_le _).trans ?_
  unfold ceilDiv
  omega

/-! ### The bytes and marks that a copy and a fill leave -/

theorem Memory.copy_byte {m : Memory} (h : m.wf = true) (sa da n x : Nat) :
    (m.copy sa da n).byte x = if da ≤ x ∧ x < da + n then (m.read sa n).getD (x - da) 0 else m.byte x := by
  rw [Memory.copy, Memory.byte_markAll, Memory.byte_write h, Memory.read_length]

theorem Memory.copy_read {m : Memory} (h : m.wf = true) (sa da n : Nat) : (m.copy sa da n).read da n = m.read sa n := by
  have written := Memory.read_write h da (m.read sa n)
  rw [Memory.read_length] at written
  rw [← written, Memory.read_eq, Memory.read_eq _ da]
  exact List.map_congr_left fun i _ => Memory.byte_markAll ..

/-- A destination line written whole carries a mark exactly where a source line that supplies it did (R323). -/
theorem Memory.copy_marked {m : Memory} {sa da n l : Nat} (h : coversLine da n l = true) :
    (m.copy sa da n).marked (l * 64) = true ↔ suppliesMark m sa da n l = true := by
  have clean : l ∉ (m.write da (m.read sa n)).marks := Memory.not_mem_write (by rwa [Memory.read_length])
  rw [Memory.marked_line, Memory.copy, Memory.mem_markAll_iff, List.mem_filter]
  simp [clean, mem_linesOf h]

@[simp] theorem patternBytes_length (p n : Nat) : (patternBytes p n).length = n := by simp [patternBytes]

theorem patternBytes_getD (p : Nat) {n i : Nat} (h : i < n) : (patternBytes p n).getD i 0 = BitVec.ofNat 8 (p / 256 ^ (i % 4)) := by
  simp [patternBytes, h]

/-- A range holds a pattern from its start, and every byte outside is as before. -/
theorem Memory.write_pattern {m : Memory} (h : m.wf = true) (a p n : Nat) :
    (∀ i, i < n → (m.write a (patternBytes p n)).byte (a + i) = BitVec.ofNat 8 (p / 256 ^ (i % 4))) ∧
    (∀ k, k < a ∨ a + n ≤ k → (m.write a (patternBytes p n)).byte k = m.byte k) := by
  refine ⟨fun i hi => ?_, fun k hk => ?_⟩
  · rw [Memory.byte_write h, patternBytes_length, if_pos ⟨by omega, by omega⟩, Nat.add_sub_cancel_left, patternBytes_getD p hi]
  · rw [Memory.byte_write h, patternBytes_length, if_neg (by omega)]

/-! ### BUF_COPY -/

theorem State.reads_only {ps : List Part} {t : State} (h : Only ps s t) (hf : Part.fabric ∈ ps) (src : FabSrc) (role : FabRole) (k a n : Nat) :
    Only ps s (t.reads src role k a n) := State.requests_only h hf _

/-- A copy of a range, with the accesses that carry it. -/
def State.copied (s : State) (sa da n : Nat) : State :=
  ((s.mapMem (fun x => { x with mem := s.mem.mem.copy sa da n })).reads .bufCmd .queueEngine noCam sa n).writes .bufCmd .queueEngine noCam da n

theorem State.copied_only {ps : List Part} {t : State} (h : Only ps s t) (hs : [.bytes, .fabric] ⊆ ps) (sa da n : Nat) : Only ps s (t.copied sa da n) :=
  State.writes_only (State.reads_only (h.bytes (hs (by simp)) _) (hs (by simp)) ..) (hs (by simp)) ..

section

variable (ha : Accepted .bufCopy c s) {x y : Buffer} {sa da : Nat} (hx : s.buffer c.handle = some x) (hy : s.buffer c.aux = some y)
  (from_ : needInBuffer s x (par64 c 0) (par64 c 4) = .ok sa) (dest : needInBuffer s y (par64 c 2) (par64 c 4) = .ok da)
  (apart : ¬ (c.handle = c.aux ∧ par64 c 4 ≠ 0 ∧ overlaps sa (par64 c 4) da (par64 c 4) = true)) (free : needUnpinned s da (par64 c 4) = .ok ())
include ha hx hy from_ dest apart free

theorem execBufCopy_eq : execBufCopy c s = runCmd .bufCopy c s (
    if s.stopping (ref .bufCopy c) then
      .ok (.done .aborted (s.blocksDone (par64 c 4)) 0 (s.tickFresh.copied sa da (blockBytes (s.blocksDone (par64 c 4)) (par64 c 4))))
    else okDone (par64 c 4 % 2 ^ 32) ((s.copied sa da (par64 c 4)).mem.mem.marksIn da (par64 c 4)).length (s.copied sa da (par64 c 4))) := by
  have ok : (!(c.handle == c.aux && par64 c 4 != 0 && overlaps sa (par64 c 4) da (par64 c 4))) = true := by
    rw [Bool.not_eq_true', ← Bool.not_eq_true]
    simpa [and_assoc] using apart
  unfold execBufCopy
  simp only [needBuffer_of_buffer (Accepted.handle_type ha rfl) hx, needBuffer_of_buffer (Accepted.aux_type ha rfl) hy, from_, dest, ok_bind, ok,
    need_bind_true, free]
  rfl

theorem execBufCopy_stops (stops : s.stopping (ref .bufCopy c) = true) : execBufCopy c s =
    .next ((s.tickFresh.copied sa da (blockBytes (s.blocksDone (par64 c 4)) (par64 c 4))).complete (ref .bufCopy c) .aborted
      (s.blocksDone (par64 c 4)) 0 false) := by
  rw [execBufCopy_eq ha hx hy from_ dest apart free]
  exact runCmd_done ha (if_pos stops)

theorem execBufCopy_done (runs : s.stopping (ref .bufCopy c) = false) : execBufCopy c s =
    .next ((s.copied sa da (par64 c 4)).complete (ref .bufCopy c) .ok (par64 c 4 % 2 ^ 32)
      ((s.copied sa da (par64 c 4)).mem.mem.marksIn da (par64 c 4)).length false) := by
  rw [execBufCopy_eq ha hx hy from_ dest apart free]
  exact runCmd_done ha (if_neg (by simp [runs]))

end

/-! ### BUF_FILL -/

/-- A range filled with a pattern, with the accesses that carry it. -/
def State.filled (s : State) (a p n : Nat) : State := (s.writeMem a (patternBytes p n)).writes .bufCmd .queueEngine noCam a n

theorem State.filled_only {ps : List Part} {t : State} (h : Only ps s t) (hs : [.bytes, .fabric] ⊆ ps) (a p n : Nat) : Only ps s (t.filled a p n) :=
  State.writes_only (h.writeMem (hs (by simp)) ..) (hs (by simp)) ..

section

variable (ha : Accepted .bufFill c s) {x : Buffer} {a : Nat} (hx : s.buffer c.handle = some x) (offset : par64 c 0 % 4 = 0) (length : par64 c 2 % 4 = 0)
  (range : needInBuffer s x (par64 c 0) (par64 c 2) = .ok a) (free : needUnpinned s a (par64 c 2) = .ok ())
include ha hx offset length range free

theorem execBufFill_eq : execBufFill c s = runCmd .bufFill c s (
    if s.stopping (ref .bufFill c) then
      .ok (.done .aborted (s.blocksDone (par64 c 2)) 0 (s.tickFresh.filled a (par c 4) (blockBytes (s.blocksDone (par64 c 2)) (par64 c 2))))
    else okDone (par64 c 2 % 2 ^ 32) 0 (s.filled a (par c 4) (par64 c 2))) := by
  unfold execBufFill
  simp only [needBuffer_of_buffer (Accepted.handle_type ha rfl) hx, offset, length, BEq.rfl, range, ok_bind, need_bind_true, free]
  rfl

theorem execBufFill_stops (stops : s.stopping (ref .bufFill c) = true) : execBufFill c s =
    .next ((s.tickFresh.filled a (par c 4) (blockBytes (s.blocksDone (par64 c 2)) (par64 c 2))).complete (ref .bufFill c) .aborted
      (s.blocksDone (par64 c 2)) 0 false) := by
  rw [execBufFill_eq ha hx offset length range free]
  exact runCmd_done ha (if_pos stops)

theorem execBufFill_done (runs : s.stopping (ref .bufFill c) = false) : execBufFill c s =
    .next ((s.filled a (par c 4) (par64 c 2)).complete (ref .bufFill c) .ok (par64 c 2 % 2 ^ 32) 0 false) := by
  rw [execBufFill_eq ha hx offset length range free]
  exact runCmd_done ha (if_neg (by simp [runs]))

end

/-! ### BUF_CHECK -/

/-- The first marked line of a range begins no later than the range's end. -/
theorem Memory.poisonIn_le {m : Memory} {a n l : Nat} (h : m.poisonIn a n = some l) : l - a ≤ n := by
  obtain ⟨k, first, rfl⟩ := Option.map_eq_some_iff.mp h
  have mem := List.mem_of_head? first
  unfold Memory.marksIn at mem
  split at mem
  · cases mem
  · have last := (List.mem_filter.mp mem).2
    simp only [Bool.and_eq_true, decide_eq_true_eq] at last
    omega

/-- A check that stops at the end of a block before a place. -/
def State.checkStopped (s : State) (a n place : Nat) : State :=
  s.tickFresh.reads .bufCmd .queueEngine noCam a (blockBytes (s.blocksDone (place / 2 ^ 20 * 2 ^ 20)) n)

theorem State.checkStopped_only (s : State) (a n place : Nat) : Only [.fresh, .fabric] s (s.checkStopped a n place) :=
  State.reads_only ((Only.refl _ s).fresh (by simp) _) (by simp) ..

section

variable (ha : Accepted .bufCheck c s) {x : Buffer} {a : Nat} (hx : s.buffer c.handle = some x) (range : needInBuffer s x (par64 c 0) (par64 c 2) = .ok a)
include ha hx range

theorem execBufCheck_stops (stops : s.stopping (ref .bufCheck c) = true) :
    ∃ (u : State) (k : Nat), execBufCheck c s = .next (u.complete (ref .bufCheck c) .aborted k 0 false) ∧ k ≤ ceilDiv (par64 c 2) 0x100000 ∧
      Only [.fresh, .fabric] s u := by
  have stop {clean : Nat} (le : clean ≤ par64 c 2) := And.intro (s.blocksDone_prefix_le le) (s.checkStopped_only a (par64 c 2) clean)
  cases bad : s.mem.mem.poisonIn a (par64 c 2) with
  | none =>
    refine ⟨_, _, runCmd_done ha ?_, stop (Nat.le_refl _)⟩
    simp only [needBuffer_of_buffer (Accepted.handle_type ha rfl) hx, range, ok_bind, stops, if_true, bad]
    rfl
  | some l =>
    refine ⟨_, _, runCmd_done ha ?_, stop (Memory.poisonIn_le bad)⟩
    simp only [needBuffer_of_buffer (Accepted.handle_type ha rfl) hx, range, ok_bind, stops, if_true, bad]
    rfl

variable (runs : s.stopping (ref .bufCheck c) = false)
include runs

theorem execBufCheck_poisoned {l : Nat} (bad : s.mem.mem.poisonIn a (par64 c 2) = some l) :
    execBufCheck c s = .next (s.complete (ref .bufCheck c) .dataPoisoned (l % 2 ^ 32) (l / 2 ^ 32) false) := by
  refine runCmd_refuses ha (by decide) (f := poisonedAt l) ?_ rfl
  simp only [needBuffer_of_buffer (Accepted.handle_type ha rfl) hx, range, ok_bind, runs, bad]
  rfl

variable (clean : s.mem.mem.poisonIn a (par64 c 2) = none)
include clean

/-- The CRC of an unmarked range is the result where nothing is compared or it agrees. -/
theorem execBufCheck_agrees (same : par c 5 % 2 = 0 ∨ crc32c (s.readMem a (par64 c 2)) = par c 4) :
    execBufCheck c s = .next ((s.reads .bufCmd .queueEngine noCam a (par64 c 2)).complete (ref .bufCheck c) .ok
      (crc32c (s.readMem a (par64 c 2))) 0 false) := by
  have ok : (bitOf (par c 5) 0 && crc32c (s.readMem a (par64 c 2)) != par c 4) = false := by
    rcases same with off | same
    · simp [bitOf, off]
    · simp [same]
  refine runCmd_done ha ?_
  simp only [needBuffer_of_buffer (Accepted.handle_type ha rfl) hx, range, ok_bind, runs, clean, ok, Bool.false_eq_true, if_false]
  rfl

theorem execBufCheck_differs (compare : par c 5 % 2 = 1) (other : crc32c (s.readMem a (par64 c 2)) ≠ par c 4) :
    execBufCheck c s = .next ((s.reads .bufCmd .queueEngine noCam a (par64 c 2)).complete (ref .bufCheck c) .checkMismatch
      (crc32c (s.readMem a (par64 c 2))) (par c 4) false) := by
  have bad : (bitOf (par c 5) 0 && crc32c (s.readMem a (par64 c 2)) != par c 4) = true := by simp [bitOf, compare, other]
  refine runCmd_done ha ?_
  simp only [needBuffer_of_buffer (Accepted.handle_type ha rfl) hx, range, ok_bind, runs, clean, bad, Bool.false_eq_true, if_false, if_true]
  rfl

end

end Sys2Proof.Machine

namespace Sys2Proof

open Machine

/-- Settles O19: a copy writes what it read before, and a line written whole has only the marks that the copy carries. -/
theorem bufCopyAndBufFillStoreTheirBytes : Obligations.BufCopyAndBufFillStoreTheirBytes := by
  unfold Obligations.BufCopyAndBufFillStoreTheirBytes
  intro c s inv
  refine ⟨fun ha x y sa da hx hy from_ dest apart free => ⟨fun stops => ?copyStops, fun runs => ?copy⟩,
    fun ha x a hx offset length range free => ⟨fun stops => ?fillStops, fun runs => ?fill⟩⟩
  case copyStops =>
    exact ⟨_, _, execBufCopy_stops ha hx hy from_ dest apart free stops, s.blocksDone_le _, Memory.copy_read inv ..,
      fun k hk => (Memory.copy_byte inv ..).trans (if_neg fun h => hk.elim h.1.not_gt h.2.not_ge),
      State.copied_only ((Only.refl _ s).fresh (by simp) _) (by simp) ..⟩
  case copy =>
    exact ⟨_, execBufCopy_done ha hx hy from_ dest apart free runs, Memory.copy_read inv ..,
      fun k hk => (Memory.copy_byte inv ..).trans (if_neg (by omega)), fun l whole => Memory.copy_marked whole,
      State.copied_only (Only.refl _ s) (by simp) ..⟩
  case fillStops =>
    obtain ⟨inside, outside⟩ := Memory.write_pattern inv a (par c 4) (blockBytes (s.blocksDone (par64 c 2)) (par64 c 2))
    exact ⟨_, _, execBufFill_stops ha hx offset length range free stops, s.blocksDone_le _, inside, outside,
      State.filled_only ((Only.refl _ s).fresh (by simp) _) (by simp) ..⟩
  case fill =>
    obtain ⟨inside, outside⟩ := Memory.write_pattern inv a (par c 4) (par64 c 2)
    refine ⟨_, execBufFill_done ha hx offset length range free runs, inside, outside, fun l whole => ?_, State.filled_only (Only.refl _ s) (by simp) ..⟩
    rw [← Bool.not_eq_true, Memory.marked_line]
    exact Memory.not_mem_write (by rwa [patternBytes_length])

/-- Settles O20: only the first marked line, COMPARE and the CRC decide how the command ends. -/
theorem bufCheckComparesTheCrc : Obligations.BufCheckComparesTheCrc := by
  unfold Obligations.BufCheckComparesTheCrc
  intro c s ha x a n crc hx range
  have frame : Only [.fabric] s (s.reads .bufCmd .queueEngine noCam a n) := State.reads_only (.refl _ s) (by simp) ..
  exact ⟨execBufCheck_stops ha hx range, fun runs => ⟨fun l bad => execBufCheck_poisoned ha hx range runs bad,
    fun clean same => ⟨_, execBufCheck_agrees ha hx range runs clean same, frame⟩,
    fun clean compare other => ⟨_, execBufCheck_differs ha hx range runs clean compare other, frame⟩⟩⟩

end Sys2Proof
end

section
/-!
SUPPORT. Changes of the memory speed (R328, R329).
-/
namespace Sys2Proof.Machine

theorem vmod_getElem {α : Type} {n : Nat} (v : Vector α n) (i : Nat) (f : α → α) (j : Fin n) :
    (vmod v i f)[j] = if j.val = i then f v[j] else v[j] := by
  unfold vmod
  split
  · by_cases h : j.val = i
    · subst h; simp
    · simp [Vector.getElem_set_ne, h, Ne.symm h]
  next out => rw [if_neg (by omega)]

/-! ### MEM_SET_SPEED -/

/-- Every stack runs at a speed. -/
def MemSt.allAt (m : MemSt) (v : Nat) : Bool := m.speeds.toList.all (· == v)

theorem MemSt.allAt_iff (m : MemSt) (v : Nat) : m.allAt v = true ↔ ∀ i : Fin 4, m.speeds[i] = v := by
  unfold MemSt.allAt
  rw [List.all_eq_true]
  refine ⟨fun h i => by simpa using h _ (Vector.mem_toList_iff.mpr (Vector.getElem_mem i.isLt)), fun h x hx => ?_⟩
  obtain ⟨i, hi, rfl⟩ := Vector.mem_iff_getElem.mp (Vector.mem_toList_iff.mp hx)
  simpa using h ⟨i, hi⟩

theorem State.startSpeed_begins {s : State} {target : Nat} {w : Bool} {by_ : List CmdRef} (other : s.mem.allAt target = false)
    (none_ : s.mem.change = none) : s.startSpeed target w by_ =
      s.mapMem (fun m => { m with change := some { target := target, next := 0, waived := w, by_ := by_ } }) := by
  unfold State.startSpeed
  rw [if_neg (by rw [Bool.and_eq_true]; exact fun h => absurd h.1 (Bool.eq_false_iff.mp other)), none_]
  rfl

section

variable {c : Cmd} {s : State} (ha : Accepted .memSetSpeed c s) (hv : par c 0 % 4 ≠ 3) (hc : s.mem.change = none) (hm : s.power.moving = none)
  (hr : ∀ r ∈ s.mem.retired, r.copying = false) (ht : s.power.throttled = false)
include ha hv hc hm hr ht

omit ha in
/-- MEM_SET_SPEED whose checks hold completes where no stack has to move, else a change starts. -/
theorem execMemSetSpeed_eq : execMemSetSpeed c s = runCmd .memSetSpeed c s (
    let target := speedFor s.power.cur (par c 0 % 4)
    let t := s.mapMem (fun m => { m with setSpeed := par c 0 % 4 })
    if s.mem.allAt target then okDone target 0 t else waitDone .memSetSpeed c (t.startSpeed target false [ref .memSetSpeed c])) := by
  have speed : (par c 0 % 4 != 3) = true := by simpa using hv
  have still : s.mem.retired.any Retired.copying = false := by simpa using hr
  unfold execMemSetSpeed
  simp only [bitsOf_low2, speed, hc, hm, still, ht, Option.isNone_none, Bool.and_self, Bool.not_false, Bool.or_true, need_bind_true, Bool.false_eq_true,
    if_false]
  rfl

theorem execMemSetSpeed_inForce (at_ : ∀ i : Fin 4, s.mem.speeds[i] = speedFor s.power.cur (par c 0 % 4)) : execMemSetSpeed c s =
    .next (({ s with mem := { s.mem with setSpeed := par c 0 % 4 } } : State).complete (ref .memSetSpeed c) .ok
      (speedFor s.power.cur (par c 0 % 4)) 0 false) := by
  rw [execMemSetSpeed_eq hv hc hm hr ht]
  exact runCmd_done ha (if_pos ((s.mem.allAt_iff _).mpr at_))

theorem execMemSetSpeed_starts (other : ∃ i : Fin 4, s.mem.speeds[i] ≠ speedFor s.power.cur (par c 0 % 4)) : execMemSetSpeed c s =
    let ch : SpeedChange := { target := speedFor s.power.cur (par c 0 % 4), next := 0, waived := false, by_ := [ref .memSetSpeed c] }
    .next (({ s with mem := { s.mem with setSpeed := par c 0 % 4, change := some ch } } : State).keepInFlight (ref .memSetSpeed c)) := by
  have notAll : s.mem.allAt (speedFor s.power.cur (par c 0 % 4)) = false := by
    rw [← Bool.not_eq_true, MemSt.allAt_iff]
    exact fun all => other.elim fun i hi => hi (all i)
  rw [execMemSetSpeed_eq hv hc hm hr ht]
  refine runCmd_waits ha ((if_neg (by simp [notAll])).trans ?_)
  have begins := (s.mapMem fun m => { m with setSpeed := par c 0 % 4 }).startSpeed_begins (w := false) (by_ := [ref .memSetSpeed c]) notAll hc
  rw [begins]
  rfl

end

/-! ### STACK_SPEED_CHANGE -/

/-- The stack whose turn it is runs at the new speed; after the last the change is over. -/
def State.stackMoved (s : State) (ch : SpeedChange) : State := s.mapMem (fun m => { m with
  speeds := vmod m.speeds ch.next (fun _ => ch.target),
  pcs := vmapIdx m.pcs (fun i p => if i / 32 = ch.next then { p with postponed := 0 } else p),
  change := if ch.next + 1 < 4 then some { ch with next := ch.next + 1 } else none })

theorem State.stackMoved_only (s : State) (ch : SpeedChange) : Only [.memory] s (s.stackMoved ch) := (Only.refl _ s).memory (by simp) _ rfl

theorem State.stackMoved_speeds (s : State) (ch : SpeedChange) (i : Fin 4) :
    (s.stackMoved ch).mem.speeds[i] = if i.val = ch.next then ch.target else s.mem.speeds[i] := vmod_getElem ..

theorem State.stackMoved_postponed (s : State) (ch : SpeedChange) (p : Fin 128) :
    ((s.stackMoved ch).mem.pcs[p]).postponed = if p.val / 32 = ch.next then 0 else (s.mem.pcs[p]).postponed := by
  simp only [State.stackMoved, State.mapMem_mem, vmapIdx_getElem]
  split <;> rfl

/-- The change is over: PWR_SET_STATE and MEM_SET_SPEED commands that wait for it finish. -/
def State.speedReached (s : State) (ch : SpeedChange) : State :=
  ch.by_.foldl (fun u r => u.finish r .ok (if r.op = .pwrSetState then s.power.cur.code else ch.target) 0 false)
    (s.mapPower (fun w => { w with moving := none }))

theorem State.speedReached_ends (s : State) (ch : SpeedChange) : Ends (s.mapPower (fun w => { w with moving := none })) (s.speedReached ch) :=
  .foldl _ (fun t _ => .finish t ..) _

section

variable {s : State} {ch : SpeedChange} {k : Fin 4} (hc : s.mem.change = some ch)
include hc

theorem execStackSpeedChange_moves (hk : ch.next = k.val) (may : ch.waived = true ∨ 25000 ≤ s.slack) : execStackSpeedChange k s =
    .next (if ch.next + 1 < 4 then s.stackMoved ch else (s.stackMoved ch).speedReached ch) := by
  have turn : (ch.next == k.val && (ch.waived || decide (25000 ≤ s.slack))) = true := by simpa [hk] using may
  unfold execStackSpeedChange
  rw [hc]
  exact (if_pos turn).trans (apply_ite Host.Outcome.next ..).symm

theorem execStackSpeedChange_waits (plain : ch.waived = false) (tight : s.slack < 25000) : execStackSpeedChange k s = .next s := by
  unfold execStackSpeedChange
  rw [hc]
  exact if_neg (by simp [plain]; omega)

end

end Sys2Proof.Machine

namespace Sys2Proof

open Machine

/-- Settles O21: the change holds which stack is next, and only that one moves. -/
theorem speedChangesMoveTheStacksInOrder : Obligations.SpeedChangesMoveTheStacksInOrder := by
  unfold Obligations.SpeedChangesMoveTheStacksInOrder
  refine ⟨fun c s ha hv hc hm hr ht => ⟨execMemSetSpeed_inForce ha hv hc hm hr ht, execMemSetSpeed_starts ha hv hc hm hr ht⟩,
    fun s ch k hc hk => ⟨fun may => ?moves, fun plain tight => ⟨s, execStackSpeedChange_waits hc plain tight, rfl, rfl, .refl _ s⟩⟩⟩
  have step := execStackSpeedChange_moves hc hk may
  have below := k.isLt
  by_cases last : ch.next = 3
  · rw [if_neg (by omega)] at step
    have ends := (s.stackMoved ch).speedReached_ends ch
    have mem : ((s.stackMoved ch).speedReached ch).mem = (s.stackMoved ch).mem := ends.mem
    have frame := ((s.stackMoved_only ch).mono (qs := [.memory, .power, .host, .mgmt]) (by simp)).power (by simp) { s.power with moving := none }
    refine ⟨_, step, fun i => ?_, fun p => ?_, fun early => absurd last (by omega), fun _ => ⟨?_, frame.trans (ends.only.mono (by simp))⟩⟩
    · rw [mem]; exact s.stackMoved_speeds ch i
    · rw [mem]; exact s.stackMoved_postponed ch p
    · rw [mem]; exact if_neg (by omega)
  · rw [if_pos (by omega)] at step
    exact ⟨_, step, s.stackMoved_speeds ch, s.stackMoved_postponed ch, fun _ => ⟨if_pos (by omega), s.stackMoved_only ch⟩, fun h => absurd h last⟩

end Sys2Proof
end

section
/-!
SUPPORT. Lost lines (R332, R343): what a line that could not be read leaves of the memory, canonical or not.
-/
namespace Sys2Proof.Machine

/-- A write of one byte leaves every other byte of the cells, whatever their order. -/
theorem getCell_setCell_ne (cs : List Host.Cell) {a x : Nat} (h : x ≠ a) (b : Byte) : getCell (setCell cs a b) x = getCell cs x := by
  induction cs with
  | nil =>
    unfold setCell
    split
    · rfl
    · simp [getCell, Ne.symm h]
  | cons c rest ih =>
    obtain ⟨u, v⟩ := c
    unfold setCell
    split
    · simp only [getCell, ih]
    · split
      next same =>
        subst same
        split <;> simp [getCell, Ne.symm h]
      · split
        · rfl
        · simp [getCell, Ne.symm h]

theorem getCell_setCells_ne (bs : List Byte) (cs : List Host.Cell) {a x : Nat} (h : x < a ∨ a + bs.length ≤ x) : getCell (setCells cs a bs) x = getCell cs x := by
  induction bs generalizing cs a with
  | nil => rfl
  | cons b bs ih =>
    rw [List.length_cons] at h
    exact (ih _ (by omega)).trans (getCell_setCell_ne cs (by omega) b)

/-- What a line that could not be read holds: nothing states it. -/
def State.lostBytes (s : State) : List Byte := (List.range 64).map (fun i => Config.freeByte s.fresh i)

theorem State.lostBytes_length (s : State) : s.lostBytes.length = 64 := by simp only [State.lostBytes, List.length_map, List.length_range]

theorem State.loseLine_eq (l : Nat) (s : State) : s.loseLine l =
    ((s.writeMem (l * 64) s.lostBytes).tickFresh).mapMem (fun m => { m with mem := m.mem.mark l }) := rfl

/-- A lost line, and no other, is written and marked. -/
structure LosesLine (l : Nat) (s t : State) : Prop where
  marked : l ∈ t.mem.mem.marks
  marks : ∀ k ∈ s.mem.mem.marks, k ∈ t.mem.mem.marks
  bytes : ∀ a, a < l * 64 ∨ l * 64 + 64 ≤ a → t.mem.mem.byte a = s.mem.mem.byte a
  only : Only [.bytes, .fresh] s t

theorem State.loseLine_loses (l : Nat) (s : State) : LosesLine l s (s.loseLine l) := by
  have length := s.lostBytes_length
  rw [State.loseLine_eq]
  generalize s.lostBytes = bs at length
  refine ⟨(mem_addMark_iff ..).mpr (.inl rfl), fun k hk => (mem_addMark_iff ..).mpr ?_, fun a ha => getCell_setCells_ne _ _ (by omega),
    (((Only.refl _ s).writeMem (by simp) ..).fresh (by simp) _).bytes (by simp) _⟩
  by_cases same : k = l
  · exact .inl same
  · refine .inr (List.mem_filter.mpr ⟨hk, ?_⟩)
    simp only [coversLine, length, Bool.not_eq_true', Bool.and_eq_false_iff, decide_eq_false_iff_not]
    omega

theorem Memory.read_one (m : Memory) (a : Nat) : m.read a 1 = [m.byte a] := rfl

theorem LosesLine.cnt {l : Nat} {s t : State} (h : LosesLine l s t) : t.mem.cnt = s.mem.cnt :=
  (congrArg MemSt.cnt (h.only.same .memory (by simp)) :)

theorem LosesLine.readMem {l : Nat} {s t : State} (h : LosesLine l s t) {a : Nat} (ha : a < l * 64 ∨ l * 64 + 64 ≤ a) : t.readMem a 1 = s.readMem a 1 :=
  congrArg (fun b => [b]) (h.bytes a ha)

/-- Lost lines, one after another. -/
def State.loseLines (ls : List Nat) (s : State) : State := ls.foldl (fun t l => t.loseLine l) s

theorem State.loseLines_cons (l : Nat) (ls : List Nat) (s : State) : s.loseLines (l :: ls) = (s.loseLine l).loseLines ls := List.foldl_cons ..

theorem State.loseLines_only (ls : List Nat) (s : State) : Only [.bytes, .fresh] s (s.loseLines ls) :=
  Only.foldl _ (fun t l h => h.trans (t.loseLine_loses l).only) ls s (.refl _ s)

theorem State.loseLines_marks (ls : List Nat) (s : State) {k : Nat} (h : k ∈ ls ∨ k ∈ s.mem.mem.marks) : k ∈ (s.loseLines ls).mem.mem.marks := by
  induction ls generalizing s with
  | nil => exact h.resolve_left List.not_mem_nil
  | cons l ls ih =>
    rw [State.loseLines_cons]
    rw [List.mem_cons, or_assoc] at h
    have first := s.loseLine_loses l
    rcases h with rfl | h | h
    · exact ih _ (.inr first.marked)
    · exact ih _ (.inl h)
    · exact ih _ (.inr (first.marks k h))

theorem State.loseLines_byte (ls : List Nat) (s : State) {a : Nat} (h : ∀ l ∈ ls, a < l * 64 ∨ l * 64 + 64 ≤ a) :
    (s.loseLines ls).mem.mem.byte a = s.mem.mem.byte a := by
  induction ls generalizing s with
  | nil => rfl
  | cons l ls ih =>
    rw [State.loseLines_cons, ih _ fun k hk => h k (List.mem_cons_of_mem _ hk)]
    exact (s.loseLine_loses l).bytes a (h l List.mem_cons_self)

end Sys2Proof.Machine
end

section
/-!
SUPPORT. Tallies and scrub reads (R330, R332, R335, R336).
-/
namespace Sys2Proof.Machine

/-! ### What tallies, candidates and a death leave -/

/-- Tallies, repair candidates and deaths change the memory system, the logs and the events, and not the count of uncorrectable errors. -/
structure Tallies (s t : State) : Prop where
  uncorrectable : t.mem.cnt.uncorrectable = s.mem.cnt.uncorrectable
  only : Only [.memory, .mgmt, .host] s t

theorem Tallies.refl (s : State) : Tallies s s := ⟨rfl, .refl _ s⟩

theorem Tallies.trans {s t u : State} (h : Tallies s t) (k : Tallies t u) : Tallies s u :=
  ⟨k.uncorrectable.trans h.uncorrectable, h.only.trans k.only⟩

theorem Tallies.mapPc (s : State) (p : Fin 128) (f : PseudoChannel → PseudoChannel) : Tallies s (s.mapPc p f) :=
  ⟨rfl, State.mapPc_only (.refl _ s) (by simp) p f⟩

theorem Tallies.of_ends {s t : State} (h : Ends s t) : Tallies s t := ⟨by rw [h.mem], h.only.mono (by simp)⟩

theorem Tallies.mem {s t : State} (h : Tallies s t) : t.mem.mem = s.mem.mem := h.only.same .bytes (by simp)

theorem State.pcDead_tallies (p : Fin 128) (s : State) : Tallies s (s.pcDead p) := by
  unfold State.pcDead
  split
  · exact .refl s
  · split
    · exact .of_ends (.logErrorPost ..)
    · exact (Tallies.mapPc s p _).trans ⟨rfl, State.logError_only ((Only.refl _ _).memory (by simp) _ rfl) (by simp) _⟩

theorem State.postTally_tallies (n : Nat) (s : State) : Tallies s (s.postTally n) := by
  have counted : Tallies s ((s.mapMemCnt (fun n => { n with overflows := n.overflows.satInc })).mapMgmt
      (fun m => { m with smb := { m.smb with tallyOvf := true } })) :=
    ⟨rfl, (State.mapMemCnt_only (.refl _ s) (by simp) _).mgmt (by simp) _⟩
  exact counted.trans (.of_ends (.post ..))

theorem State.tally_tallies (p : Fin 128) (region n : Nat) (s : State) : Tallies s (s.tally p region n) := by
  have beyond (f g : PseudoChannel → PseudoChannel) (k : Nat) : Tallies s (((s.mapPc p f).mapPc p g).postTally k) :=
    ((Tallies.mapPc s p f).trans (.mapPc _ p g)).trans (State.postTally_tallies ..)
  unfold State.tally
  dsimp only
  split
  · split
    · exact (beyond ..).trans (State.pcDead_tallies ..)
    · exact beyond ..
  · exact .mapPc s p _

theorem State.candidate_tallies (p : Fin 128) (row bank : Nat) (s : State) : Tallies s (s.candidate p row bank) := by
  unfold State.candidate
  split
  · exact .refl s
  · dsimp only
    split
    · exact (Tallies.mapPc s p _).trans (State.pcDead_tallies ..)
    · exact .mapPc s p _

/-! ### One region's count -/

/-- A region's count. -/
def State.count (s : State) (p : Fin 128) (region : Nat) : Nat := (vget (s.mem.pcs[p]).tallies Tally.zero region).count

/-- A region's tally of a pseudo-channel is replaced. -/
def PseudoChannel.setTally (region : Nat) (f : Tally → Tally) (y : PseudoChannel) : PseudoChannel := { y with tallies := vmod y.tallies region f }

theorem State.count_setTally (s : State) (p : Fin 128) {region : Nat} (h : region < 64) (f : Tally → Tally) :
    (s.mapPc p (PseudoChannel.setTally region f)).count p region = (f (vget (s.mem.pcs[p]).tallies Tally.zero region)).count := by
  simp [State.count, PseudoChannel.setTally, vget_vmod, h]

/-- A count that stays within the capacity is all that a tally changes (R335). -/
theorem State.tally_within {s : State} {p : Fin 128} {region n : Nat} (h : s.count p region + n ≤ s.mgmt.policy.tallyCap) :
    s.tally p region n = s.mapPc p (PseudoChannel.setTally region (fun _ =>
      { vget (s.mem.pcs[p]).tallies Tally.zero region with count := s.count p region + n })) := by
  have add : (vget (s.pc p).tallies Tally.zero region).add s.mgmt.policy.tallyCap n =
      ({ vget (s.mem.pcs[p]).tallies Tally.zero region with count := s.count p region + n }, false) := if_neg (Nat.not_lt.mpr h)
  unfold State.tally
  simp only [add]
  rfl

theorem execTallyLeak_leaks (q : Fin 128) {region : Nat} (h : region < 64) (s : State) : execTallyLeak q region s =
    .next (s.mapPc q (PseudoChannel.setTally region (fun t => t.leak s.mgmt.policy.tallyCap))) := if_pos h

theorem execOnDieEccPoll_one (q : Fin 128) {region : Nat} (h : region < 64) (n : Nat) (s : State) :
    execOnDieEccPoll [(q, region, n)] s = .next (s.tally q region n) := by
  unfold execOnDieEccPoll
  rw [List.foldl_cons, List.foldl_nil, Nat.mod_eq_of_lt h]

/-! ### Scrub reads -/

/-- The pseudo-channel of a line. -/
def State.lineHome (s : State) (line : Nat) : Fin 128 := Fin.ofNat 128 (s.pcOf (line * 64))

/-- A patrol read of a line. -/
def State.patrol (s : State) (line : Nat) : State :=
  s.requests [{ s.access .patrol (.channel (s.lineHome line).val) noCam (line * 64) 64 false with pc := some (s.lineHome line).val }]

theorem State.patrol_only (s : State) (line : Nat) : Only [.fabric] s (s.patrol line) := State.requests_only (.refl _ s) (by simp) _

/-- A patrol read of an unmarked line in service, by its result. -/
theorem execScrubRead_eq {s : State} {line row bank region : Nat} (result : Nat) (hg : region < 64) (hr : (s.mem.pcs[s.lineHome line]).state ≠ .retired)
    (h2 : s.power.cur ≠ .ps2) (h3 : s.power.cur ≠ .ps3) (hm : line ∉ s.mem.mem.marks) : execScrubRead line row bank region result false s =
      .next (if result = 1 then (s.patrol line).corrected (s.lineHome line) region row bank
        else if 2 ≤ result then (s.patrol line).uncorrectable (s.lineHome line) region row bank line else s.patrol line) := by
  have off : ((s.pc (s.lineHome line)).state == .retired || s.selfRefreshing) = false := Bool.eq_false_iff.mpr (State.pc_inService hr h2 h3)
  have clean : s.mem.mem.marks.contains line = false := by simpa using hm
  have reads : execScrubRead line row bank region result false s = .next (
      if ((s.patrol line).pc (s.lineHome line)).state == .retired || (s.patrol line).selfRefreshing || (s.patrol line).mem.mem.marks.contains line
      then s.patrol line
      else if result = 1 then (s.patrol line).corrected (s.lineHome line) (region % 64) row bank
      else if 2 ≤ result then (s.patrol line).uncorrectable (s.lineHome line) (region % 64) row bank line else s.patrol line) := by
    unfold execScrubRead
    change ((s.pc (Fin.ofNat 128 (s.pcOf (line * 64)))).state == .retired || s.selfRefreshing) = false at off
    simp only [off, Bool.not_false, if_true, Bool.false_eq_true, if_false]
    rfl
  rw [reads, Nat.mod_eq_of_lt hg]
  refine congrArg _ (if_neg ?_)
  change ¬ ((s.pc (s.lineHome line)).state == .retired || s.selfRefreshing || s.mem.mem.marks.contains line) = true
  rw [off, clean]
  exact Bool.false_ne_true

/-- An uncorrectable line is lost, counted once, and otherwise changes tallies, candidates and the log (R332, R335, R339). -/
theorem State.uncorrectable_loses (s : State) (p : Fin 128) (region row bank line : Nat) :
    let t := s.uncorrectable p region row bank line
    (∀ a, a < line * 64 ∨ line * 64 + 64 ≤ a → t.readMem a 1 = s.readMem a 1) ∧ line ∈ t.mem.mem.marks ∧
    t.mem.cnt.uncorrectable = s.mem.cnt.uncorrectable.satInc ∧ Only [.memory, .bytes, .mgmt, .host, .fresh] s t := by
  have lost := s.loseLine_loses line
  let u := (s.loseLine line).mapMemCnt (fun n => { n with uncorrectable := n.uncorrectable.satInc })
  have rest : Tallies u (s.uncorrectable p region row bank line) :=
    ((State.tally_tallies ..).trans (State.candidate_tallies ..)).trans (.of_ends (.logError ..))
  refine ⟨fun a ha => ?_, ?_, ?_, ?_⟩
  · refine Eq.trans ?_ (lost.readMem ha)
    exact congrArg (fun m : Memory => m.read a 1) rest.mem
  · rw [rest.mem]
    exact lost.marked
  · rw [rest.uncorrectable]
    exact congrArg (fun n : MemCounters => n.uncorrectable.satInc) lost.cnt
  · exact (State.mapMemCnt_only (lost.only.mono (by simp)) (by simp) _).trans (rest.only.mono (by simp))

/-- A corrected error of a row that is not watched counts once and stores nothing (R335, R336). -/
theorem State.corrected_counts {s : State} {p : Fin 128} {region row bank : Nat} (hg : region < 64)
    (fresh : (s.mem.pcs[p]).watch.find? (fun w => w.row == row && w.bank == bank) = none) (room : s.count p region + 1 ≤ s.mgmt.policy.tallyCap) :
    let t := s.corrected p region row bank
    t.mem.cnt.corrected = s.mem.cnt.corrected.satInc ∧ t.count p region = s.count p region + 1 ∧ Only [.memory, .mgmt] s t := by
  let u := (s.mapPc p (fun y => { y with watch := watchRow y.watch row bank s.time.ticks true, corrAt := y.corrAt ++ [s.time.ticks] })).mapMemCnt
    (fun n => { n with corrected := n.corrected.satInc })
  have own : u.mem.pcs[p].tallies = s.mem.pcs[p].tallies := by simp [u]
  have same : u.count p region = s.count p region := congrArg (fun v => (vget v Tally.zero region).count) own
  have counted : u.tally p region 1 = _ := State.tally_within (by rw [same]; exact room)
  have frame : Only [.memory, .mgmt] s (u.tally p region 1) := by
    rw [counted]
    exact State.mapPc_only (State.mapMemCnt_only (State.mapPc_only (.refl _ s) (by simp) ..) (by simp) _) (by simp) ..
  have one : (u.tally p region 1).count p region = s.count p region + 1 := by
    rw [counted, State.count_setTally _ _ hg, ← same]
  have cnt : (u.tally p region 1).mem.cnt.corrected = s.mem.cnt.corrected.satInc := by
    rw [counted]
    rfl
  have seen : (s.pc p).watch.find? (fun w => w.row == row && w.bank == bank) = none := fresh
  unfold State.corrected
  simp only [seen, if_true, Bool.false_eq_true, if_false]
  split
  · exact ⟨cnt, one, State.logEvent_only (frame.memory (by simp) _ rfl) (by simp) _⟩
  · exact ⟨cnt, one, frame⟩

end Sys2Proof.Machine

namespace Sys2Proof

open Machine

/-- Settles O24: past its patrol read a scrub read does what the line's result says, and within its capacity a tally only counts. -/
theorem scrubAndTallies : Obligations.ScrubAndTallies := by
  unfold Obligations.ScrubAndTallies
  intro s line row bank region p x cap hg
  refine ⟨fun hr h2 h3 hm => ?scrub, fun q => ?leak, fun q n room => ?poll⟩
  case scrub =>
    have read (result : Nat) := execScrubRead_eq (row := row) (bank := bank) result hg hr h2 h3 hm
    have patrol := s.patrol_only line
    refine ⟨⟨_, read 0, patrol⟩, ?_, fun fresh room => ?_⟩
    · obtain ⟨bytes, mark, count, only⟩ := (s.patrol line).uncorrectable_loses (s.lineHome line) region row bank line
      exact ⟨_, read 2, mark, bytes, count, (patrol.mono (by simp)).trans (only.mono (by simp))⟩
    · obtain ⟨count, tally, only⟩ := State.corrected_counts (s := s.patrol line) (p := s.lineHome line) hg fresh room
      exact ⟨_, read 1, count, tally, (patrol.mono (by simp)).trans (only.mono (by simp))⟩
  case leak =>
    exact ⟨_, execTallyLeak_leaks q hg s, s.count_setTally q hg _, fun r hr => s.mapPc_pcs_ne hr _, State.mapPc_only (.refl _ s) (by simp) ..⟩
  case poll =>
    refine ⟨_, (execOnDieEccPoll_one q hg n s).trans (congrArg _ (State.tally_within room)), s.count_setTally q hg _, fun r hr => s.mapPc_pcs_ne hr _,
      State.mapPc_only (.refl _ s) (by simp) ..⟩

end Sys2Proof
end

section
/-!
SUPPORT. Retirement (R343, R344).
-/
namespace Sys2Proof.Machine

variable {s : State} {p : Fin 128}

theorem vmod_pc_same (s : State) (p : Fin 128) (f : PseudoChannel → PseudoChannel) : (vmod s.mem.pcs p.val f)[p] = f s.mem.pcs[p] := by
  rw [vmod_getElem, if_pos rfl]

/-- The range that the next retirement takes (R343). -/
def State.nextRange (s : State) : Nat := 0x2400000000 - 0x48000000 * (s.mem.retired.length + 1)

section

variable (hc : s.mem.change = none) (hd : p.val ∈ s.mem.deadPcs) (hn : p.val ∉ s.mem.pendingRet)
include hc hd

theorem execPcRetirement_starts : execPcRetirement p s = .next (s.startRetirement p.val) := if_pos (by simp [hc, hd])

/-- A retirement whose range holds no buffer takes it, and its copy starts. -/
theorem execPcRetirement_copies (empty : ∀ b ∈ s.mem.buffers, overlaps s.nextRange 0x48000000 b.base b.size = false) :
    ∃ t : State, execPcRetirement p s = .next t ∧ t.mem.retired = s.mem.retired ++ [{ pc := p.val, base := s.nextRange, copying := true }] ∧
      (t.mem.pcs[p]).state = .retiring ∧ Only [.memory, .fabric] s t := by
  have free : s.mem.buffers.any (fun b => overlaps (retiredBase s.mem.retiredCount) Config.retiredSize b.base b.size) = false :=
    List.any_eq_false.mpr fun b hb => Bool.eq_false_iff.mp (empty b hb)
  have starts : ∃ rs, s.startRetirement p.val = State.requests rs (s.mapMem (fun m => { m with
      deadPcs := m.deadPcs.filter (· != p.val), pendingRet := m.pendingRet.filter (· != p.val),
      retired := m.retired ++ [{ pc := p.val, base := s.nextRange, copying := true }],
      pcs := vmod m.pcs p.val (fun x => { x with state := .retiring }) })) := ⟨_, if_neg (by rw [free]; exact Bool.false_ne_true)⟩
  obtain ⟨rs, starts⟩ := starts
  refine ⟨_, (execPcRetirement_starts hc hd).trans (congrArg _ starts), rfl, ?_, State.requests_only ((Only.refl _ s).memory (by simp) _ rfl) (by simp) _⟩
  exact congrArg PseudoChannel.state (vmod_pc_same s p _)

include hn

/-- A retirement whose range holds a buffer waits, and no range is retired (R344). -/
theorem execPcRetirement_waits (held : ∃ b ∈ s.mem.buffers, overlaps s.nextRange 0x48000000 b.base b.size = true) :
    ∃ t : State, execPcRetirement p s = .next t ∧ t.mem.retired = s.mem.retired ∧ (t.mem.pcs[p]).state = .retirePending ∧ p.val ∈ t.mem.pendingRet ∧
      Only [.memory, .mgmt, .host] s t := by
  let u := s.mapMem (fun m => { m with
    deadPcs := m.deadPcs.filter (· != p.val), pendingRet := m.pendingRet ++ [p.val],
    pcs := vmod m.pcs p.val (fun x => { x with state := .retirePending }) })
  have busy : s.mem.buffers.any (fun b => overlaps (retiredBase s.mem.retiredCount) Config.retiredSize b.base b.size) = true :=
    List.any_eq_true.mpr held
  have waits : s.startRetirement p.val = u.logErrorPost { source := 0x01, unit := unitHandle 0x0D p.val } :=
    (if_pos busy).trans (if_neg (by simpa using hn))
  have ends : Ends u (u.logErrorPost { source := 0x01, unit := unitHandle 0x0D p.val }) := .logErrorPost ..
  refine ⟨_, (execPcRetirement_starts hc hd).trans (congrArg _ waits), by rw [ends.mem]; rfl, ?_, ?_,
    ((Only.refl _ s).memory (by simp) _ rfl).trans (ends.only.mono (by simp))⟩
  · rw [ends.mem]
    exact congrArg PseudoChannel.state (vmod_pc_same s p _)
  · rw [ends.mem]
    exact List.mem_append_right _ List.mem_cons_self

end

/-- A retirement is over: its copy has ended, and the pseudo-channel is RETIRED. -/
def State.copyEnded (s : State) (p : Fin 128) : State :=
  (s.mapMem (fun m => { m with
    retired := updWhere (fun r => r.pc == p.val) (fun r => { r with copying := false }) m.retired,
    pcs := vmod m.pcs p.val (fun x => { x with state := .retired }) })).mapFab (FabSt.endCopy p.val)

theorem execRetirementCopyDone_ends (lost : List Nat) (copies : ∃ r ∈ s.mem.retired, r.pc = p.val ∧ r.copying = true) : execRetirementCopyDone p lost s =
    .next (((s.loseLines lost).copyEnded p).logErrorPost { source := 0x01, unit := unitHandle 0x0D p.val }) :=
  if_pos (by simpa using copies)

theorem State.copyEnded_copying (s : State) (p : Fin 128) : ∀ r ∈ (s.copyEnded p).mem.retired, r.pc = p.val → r.copying = false := by
  intro r hr
  obtain ⟨x, -, rfl⟩ := List.mem_map.mp hr
  split
  · exact fun _ => rfl
  next other => exact fun e => absurd (beq_iff_eq.mpr e) other

end Sys2Proof.Machine

namespace Sys2Proof

open Machine

/-- Settles O25: the base is counted down from the device's end by the retirements before, and a lost line is written whole and marked. -/
theorem retirementTakesTheHighestRange : Obligations.RetirementTakesTheHighestRange := by
  unfold Obligations.RetirementTakesTheHighestRange
  intro s p base
  refine ⟨fun hc hd hn => ⟨execPcRetirement_copies hc hd, execPcRetirement_waits hc hd hn⟩, fun lost copies => ?_⟩
  let u := s.loseLines lost
  have ends : Ends (u.copyEnded p) ((u.copyEnded p).logErrorPost { source := 0x01, unit := unitHandle 0x0D p.val }) := .logErrorPost ..
  have frame : Only [.memory, .bytes, .mgmt, .host, .fabric, .fresh] s (u.copyEnded p) :=
    (((s.loseLines_only lost).mono (by simp)).memory (by simp) _ rfl).fabric (by simp) _
  refine ⟨_, execRetirementCopyDone_ends lost copies, ?_, ?_, ?_, ?_, frame.trans (ends.only.mono (by simp))⟩
  · rw [ends.mem]
    exact u.copyEnded_copying p
  · rw [ends.mem]
    exact congrArg PseudoChannel.state (vmod_pc_same u p _)
  · rw [ends.mem]
    exact fun l hl => s.loseLines_marks lost (.inl hl)
  · intro a ha
    rw [State.readMem, ends.mem]
    exact congrArg (fun b => [b]) (s.loseLines_byte lost ha)

end Sys2Proof
end

section
/-!
SUPPORT. The invariant as a rule per shape of a meaning: what a command's own rules end with, what a step answers, and the folds and choices that
states are made by.
-/
namespace Sys2Proof

open Machine

/-- What a command's own rules end with keeps the invariant. -/
def DoneKeeps : Done → Prop
  | .done _ _ _ t => Inv t
  | .waits t => Inv t

/-- A command's own rules, where they pass, keep the invariant. -/
def RulesKeep (body : Chk Done) : Prop := ∀ d, body = .ok d → DoneKeeps d

/-- A step answers a next state that keeps the invariant. -/
def StepKeeps (o : Host.Outcome State Fault Refusal) : Prop := ∃ t, o = .next t ∧ Inv t

variable {s t : State}

theorem Inv.ite {c : Prop} [Decidable c] (hs : Inv s) (ht : Inv t) : Inv (if c then s else t) := by split <;> assumption

/-- An update of the memory system that keeps its bytes. -/
theorem Inv.mapMem {f : MemSt → MemSt} (i : Inv s) (h : (f s.mem).mem = s.mem.mem) : Inv (s.mapMem f) := i.of_bytes h

/-- An update of the memory system that leaves its bytes in the canonical form. -/
theorem Inv.mapMem_wf {f : MemSt → MemSt} (h : (f s.mem).mem.wf = true) : Inv (s.mapMem f) := h

theorem Memory.wf_ite {c : Prop} [Decidable c] {m n : Memory} (hm : m.wf = true) (hn : n.wf = true) : (if c then m else n).wf = true := by
  split <;> assumption

theorem Inv.foldl {α : Type} {f : State → α → State} (i : Inv s) (hf : ∀ t a, Inv t → Inv (f t a)) (l : List α) : Inv (l.foldl f s) :=
  List.foldlRecOn l f i fun t h a _ => hf t a h

theorem StepKeeps.next (i : Inv t) : StepKeeps (.next t) := ⟨t, rfl, i⟩

theorem StepKeeps.ite {c : Prop} [Decidable c] {a b : Host.Outcome State Fault Refusal} (ha : StepKeeps a) (hb : StepKeeps b) :
    StepKeeps (if c then a else b) := by split <;> assumption

theorem RulesKeep.error {f : Fail} : RulesKeep (.error f) := fun _ h => nomatch h

theorem RulesKeep.done {st : Status} {r0 r1 : Nat} (i : Inv t) : RulesKeep (.ok (.done st r0 r1 t)) := fun _ h => by cases h; exact i

theorem RulesKeep.waits (i : Inv t) : RulesKeep (.ok (.waits t)) := fun _ h => by cases h; exact i

theorem RulesKeep.okDone (i : Inv t) {r0 r1 : Nat} : RulesKeep (okDone r0 r1 t) := .done i

/-- Checks before the rest of the rules change nothing. -/
theorem RulesKeep.bind {α : Type} {x : Chk α} {k : α → Chk Done} (h : ∀ a, RulesKeep (k a)) : RulesKeep (x >>= k) := by
  cases x with
  | error f => exact .error
  | ok a => exact h a

theorem RulesKeep.ite {c : Prop} [Decidable c] {a b : Chk Done} (ha : RulesKeep a) (hb : RulesKeep b) : RulesKeep (if c then a else b) := by
  split <;> assumption

theorem Inv.keepInFlight (i : Inv s) (r : CmdRef) : Inv (s.keepInFlight r) := (State.keepInFlight_only (.refl [.host] s) (by simp) r).inv (by simp) i

theorem RulesKeep.waitDone (i : Inv t) {op : Op} {c : Cmd} : RulesKeep (waitDone op c t) := .waits (i.keepInFlight _)

/-- How a queue's reset stops a command in flight keeps the invariant. -/
def AbortKeeps (a : Abort) : Prop := ∀ t r0, a = .stops t r0 → Inv t

theorem AbortKeeps.stops (i : Inv t) {n : Nat} : AbortKeeps (.stops t n) := fun _ _ h => by cases h; exact i

theorem AbortKeeps.atSafePoint : AbortKeeps .atSafePoint := fun _ _ h => nomatch h

theorem AbortKeeps.lost : AbortKeeps .lost := fun _ _ h => nomatch h

theorem AbortKeeps.runsOn : AbortKeeps .runsOn := fun _ _ h => nomatch h

theorem AbortKeeps.ite {c : Prop} [Decidable c] {a b : Abort} (ha : AbortKeeps a) (hb : AbortKeeps b) : AbortKeeps (if c then a else b) := by
  split <;> assumption

/-- A command keeps the invariant where its own rules do: it fails the common checks or its own, completes, or waits. -/
theorem StepKeeps.runCmd (i : Inv s) {op : Op} {c : Cmd} {body : Chk Done} (h : RulesKeep body) : StepKeeps (runCmd op c s body) := by
  rcases runCmd_cases op c s body with e | ⟨f, e⟩ | ⟨st, r0, r1, t, ok, e⟩ | ⟨t, ok, e⟩
  · exact ⟨_, e, i⟩
  · exact ⟨_, e, i.failCmd op c f⟩
  · exact ⟨_, e, Inv.complete (h _ ok) ..⟩
  · exact ⟨_, e, h _ ok⟩

end Sys2Proof
end

section
/-!
SUPPORT. What keeps the invariant: the state, the host interface, the fabric, the units, the lanes and the objects that the chapters share. One lemma
per function, after its own branches; a function whose parts are known not to hold the bytes (its `_only` lemma) needs no more than that.
-/
namespace Sys2Proof

open Machine

variable {s : State}

/-! ### The functions of Machine/State -/

theorem Inv.reset : Inv .reset := State.reset_wf

/-! ### The functions of Machine/Ops -/

theorem Inv.tickFresh (i : Inv s) : Inv s.tickFresh := i.of_bytes rfl

theorem Inv.undefine (i : Inv s) (a n : Nat) : Inv (s.undefine a n) := (i.writeMem ..).tickFresh

theorem Inv.logError (i : Inv s) (info : LogInfo) : Inv (s.logError info) :=
  (State.logError_only (.refl [.mgmt] s) (by simp) ..).inv (by simp) i

theorem Inv.logEvent (i : Inv s) (info : LogInfo) : Inv (s.logEvent info) :=
  (State.logEvent_only (.refl [.mgmt] s) (by simp) ..).inv (by simp) i

theorem Inv.mapQueue (i : Inv s) (q : Fin 64) (f : Queue → Queue) : Inv (s.mapQueue q f) :=
  (State.mapQueue_only (.refl [.host] s) (by simp) ..).inv (by simp) i

theorem Inv.pushReady (i : Inv s) (q : Fin 64) (r : Ready) : Inv (s.pushReady q r) := (i.mapQueue ..).mapHost ..

theorem Inv.finish (i : Inv s) (r : CmdRef) (st : Status) (r0 r1 : Nat) (logged : Bool) : Inv (s.finish r st r0 r1 logged) :=
  (State.finish_only (.refl [.host, .mgmt] s) (by simp) (by simp) ..).inv (by simp) i

theorem Inv.finishOpt (i : Inv s) (r : Option CmdRef) (st : Status) (r0 r1 : Nat) (logged : Bool) : Inv (s.finishOpt r st r0 r1 logged) :=
  (State.finishOpt_only (.refl [.host, .mgmt] s) (by simp) (by simp) ..).inv (by simp) i

theorem Inv.post (i : Inv s) (ty : EvType) (detail : Word) : Inv (s.post ty detail) :=
  (State.post_only (.refl [.host, .mgmt] s) (by simp) (by simp) ..).inv (by simp) i

theorem Inv.logErrorPost (i : Inv s) (info : LogInfo) : Inv (s.logErrorPost info) :=
  (State.logErrorPost_only (.refl [.host, .mgmt] s) (by simp) (by simp) ..).inv (by simp) i

theorem Inv.signal (i : Inv s) (v : Nat) : Inv (s.signal v) :=
  (State.signal_only (.refl [.host, .out] s) (by simp) (by simp) ..).inv (by simp) i

theorem Inv.replaceUnit (i : Inv s) (k : UnitKind) (r code : Nat) : Inv (s.replaceUnit k r code) :=
  (State.replaceUnit_only (.refl [.host, .mgmt] s) (by simp) (by simp) ..).inv (by simp) i

theorem Inv.retireUnit (i : Inv s) (k : UnitKind) (idx : Nat) : Inv (s.retireUnit k idx) := (i.mapMgmt ..).logErrorPost ..

theorem Inv.dropStale (i : Inv s) (unit : Handle) (epoch : Nat) : Inv (s.dropStale unit epoch) :=
  (State.dropStale_only (.refl [.mgmt] s) (by simp) ..).inv (by simp) i

/-! ### The functions of Machine/Fabric -/

theorem Inv.mapFab (i : Inv s) (f : FabSt → FabSt) : Inv (s.mapFab f) := i.of_bytes rfl

theorem Inv.requests (i : Inv s) (rs : List FabReq) : Inv (s.requests rs) :=
  (State.requests_only (.refl [.fabric] s) (by simp) ..).inv (by simp) i

theorem Inv.reads (i : Inv s) (src : FabSrc) (role : FabRole) (cam addr len : Nat) : Inv (s.reads src role cam addr len) :=
  (State.reads_only (.refl [.fabric] s) (by simp) ..).inv (by simp) i

theorem Inv.writes (i : Inv s) (src : FabSrc) (role : FabRole) (cam addr len : Nat) : Inv (s.writes src role cam addr len) :=
  (State.writes_only (.refl [.fabric] s) (by simp) ..).inv (by simp) i

theorem Inv.settleTraffic (i : Inv s) (role : FabRole) : Inv (s.settleTraffic role) :=
  (State.settleTraffic_only (.refl [.fabric] s) (by simp) ..).inv (by simp) i

theorem Inv.fabTick (i : Inv s) (home : Nat → Nat) : Inv (s.fabTick home) :=
  (State.fabTick_only (.refl [.fabric, .mgmt] s) (by simp) (by simp) ..).inv (by simp) i

/-! ### The functions of Machine/Units -/

theorem Inv.mapJm (i : Inv s) (f : JmSt → JmSt) : Inv (s.mapJm f) := i.of_bytes rfl

theorem Inv.mapKernel (i : Inv s) (h : Handle) (f : Kernel → Kernel) : Inv (s.mapKernel h f) := i.mapJm ..

theorem Inv.countKernel (i : Inv s) (h : Handle) (f : KernelCounters → KernelCounters) : Inv (s.countKernel h f) := i.mapKernel ..

theorem Inv.freeThread (i : Inv s) (inv : Invoc) : Inv (s.freeThread inv) := i.mapJm ..

theorem Inv.recode (i : Inv s) (role : Nat) : Inv (s.recode role) := i.of_bytes rfl

theorem Inv.rerunRole (i : Inv s) (role : Nat) : Inv (s.rerunRole role) := by
  unfold State.rerunRole
  extract_lets _ mark owner _ t
  have hmark : Inv mark := by
    unfold mark
    refine i.foldl (fun _ _ h => ?_) _
    split
    · exact h.mapJm ..
    · exact h
  have ht : Inv t := hmark.mapJm ..
  split
  · clear_value owner
    split
    · exact ht.countKernel ..
    · exact ht
  · refine hmark.foldl (fun _ _ h => ?_) _
    extract_lets t1
    have ht1 : Inv t1 := h.freeThread ..
    split
    · exact ht1.mapJm ..
    · exact ht1.mapJm ..
    · exact ht1

theorem Inv.declareDead (i : Inv s) (k : UnitKind) (r code : Nat) : Inv (s.declareDead k r code) := by
  unfold State.declareDead
  extract_lets t
  have ht : Inv t := i.replaceUnit ..
  split
  · exact ht.recode ..
  · exact ht.rerunRole ..
  · exact ht
  · exact ht
  · exact ht
  · exact ht

theorem Inv.siteDead (i : Inv s) (role : Nat) : Inv (s.siteDead role) := i.declareDead ..

/-! ### The functions of Machine/LaneOps -/

theorem Inv.mapLanes (i : Inv s) (f : LanesSt → LanesSt) : Inv (s.mapLanes f) := i.of_bytes rfl

theorem Inv.mapLane (i : Inv s) (l : Nat) (f : Lane → Lane) : Inv (s.mapLane l f) :=
  (State.mapLane_only (.refl [.lanes] s) (by simp) ..).inv (by simp) i

theorem Inv.mapChan (i : Inv s) (c : Nat) (f : Channel → Channel) : Inv (s.mapChan c f) := i.mapLanes ..

theorem Inv.mapQuad (i : Inv s) (q : Nat) (f : Quad → Quad) : Inv (s.mapQuad q f) := i.mapLanes ..

theorem Inv.mapEth (i : Inv s) (p : Nat) (f : EthPort → EthPort) : Inv (s.mapEth p f) := i.mapLanes ..

theorem Inv.ethQueue (i : Inv s) (p prio : Nat) (data : List Byte) : Inv (s.ethQueue p prio data) := i.mapEth ..

theorem Inv.emitOn (i : Inv s) (c : Nat) (o : Out) : Inv (s.emitOn c o) := .ite i (i.emit ..)

theorem Inv.sendCell (i : Inv s) (c kind : Nat) (payload : List Byte) : Inv (s.sendCell c kind payload) := (i.mapChan ..).emitOn ..

theorem Inv.train (i : Inv s) (l kind rates chan toLane epoch lseq : Nat) : Inv (s.train l kind rates chan toLane epoch lseq) := i.emit ..

theorem Inv.laneVerified (i : Inv s) (l : Nat) : Inv (s.laneVerified l) := by
  unfold State.laneVerified
  extract_lets _ t t1
  have ht : Inv t := i.mapLane ..
  have ht1 : Inv t1 := by
    unfold t1
    split
    · exact ht.finish ..
    · exact ht
  split
  · exact ht1
  · split
    · exact ht1.finish ..
    · exact ht1.finish ..

theorem Inv.laneDown (i : Inv s) (l : Nat) : Inv (s.laneDown l) := i.laneVerified ..

theorem Inv.laneUp (i : Inv s) (l : Nat) : Inv (s.laneUp l) := by
  unfold State.laneUp
  refine .laneVerified ?_ ..
  split
  · exact (i.mapLane ..).mapChan ..
  · exact (i.mapLane ..).mapQuad ..

theorem Inv.bringUp (i : Inv s) (l : Nat) (record : List Byte) (restored : Bool) : Inv (s.bringUp l record restored) := (i.mapLane ..).train ..

theorem Inv.lanesOn (i : Inv s) : Inv s.lanesOn :=
  (State.lanesOn_only (.refl [.lanes, .out] s) (by simp) (by simp)).inv (by simp) i

theorem Inv.bootLanes (i : Inv s) (answered : List (Nat × Nat)) : Inv (s.bootLanes answered) :=
  ((i.mapLanes ..).lanesOn).foldl (fun _ _ h => .ite ((h.mapLane ..).laneUp ..) h) _

theorem Inv.sendLtSync (i : Inv s) (frac c : Nat) : Inv (s.sendLtSync frac c) := .ite i ((i.mapTime ..).sendCell ..)

theorem Inv.sendLtSyncs (i : Inv s) (frac : Nat) : Inv (s.sendLtSyncs frac) := i.foldl (fun _ _ h => h.sendLtSync ..) _

/-! ### The functions of Machine/CamOps -/

theorem Inv.mapCams (i : Inv s) (f : CamsSt → CamsSt) : Inv (s.mapCams f) := i.of_bytes rfl

theorem Inv.mapCam (i : Inv s) (cam : Nat) (f : CamCtx → CamCtx) : Inv (s.mapCam cam f) := i.mapCams ..

theorem Inv.mapFrame (i : Inv s) (cam fn : Nat) (f : CamFrame → CamFrame) : Inv (s.mapFrame cam fn f) := i.mapCam ..

theorem Inv.countCam (i : Inv s) (cam : Nat) (f : CamCounters → CamCounters) : Inv (s.countCam cam f) := i.mapCam ..

theorem Inv.putRecord (i : Inv s) (r : LedgerRec) : Inv (s.putRecord r) := (i.writeMem ..).writes ..

theorem Inv.mapRecord (i : Inv s) (cam fn : Nat) (f : LedgerRec → LedgerRec) : Inv (s.mapRecord cam fn f) := by
  unfold State.mapRecord
  extract_lets t
  have ht : Inv t := i.mapFrame ..
  split
  · exact ht.putRecord ..
  · exact ht

theorem Inv.flagFrame (i : Inv s) (cam fn n : Nat) : Inv (s.flagFrame cam fn n) := i.mapRecord ..

theorem Inv.emitCtrl (i : Inv s) (cam : Nat) (x : CtrlCell) : Inv (s.emitCtrl cam x) :=
  (State.emitCtrl_only (.refl [.lanes, .out] s) (by simp) ..).inv (by simp) i

theorem Inv.queueCtrl (i : Inv s) (cam : Nat) (x : CtrlCell) : Inv (s.queueCtrl cam x) :=
  (State.queueCtrl_only (.refl [.cams, .lanes, .out] s) (by simp) ..).inv (by simp) i

theorem Inv.sendCtrl (i : Inv s) (cam op flags when_ arg : Nat) (entries : List Byte) (why : CtrlWhy) :
    Inv (s.sendCtrl cam op flags when_ arg entries why) :=
  (State.sendCtrl_only (.refl [.cams, .lanes, .out] s) (by simp) ..).inv (by simp) i

theorem Inv.dropCtrl (i : Inv s) (cam seq : Nat) : Inv (s.dropCtrl cam seq) :=
  (State.dropCtrl_only (.refl [.cams, .lanes, .out] s) (by simp) ..).inv (by simp) i

theorem Inv.sendBind (i : Inv s) (cam : Nat) (why : CtrlWhy) : Inv (s.sendBind cam why) := i.sendCtrl ..

theorem Inv.sendHub (i : Inv s) (cam op arg epoch hub : Nat) (entries : List Byte) : Inv (s.sendHub cam op arg epoch hub entries) := i.queueCtrl ..

theorem Inv.mapPair (i : Inv s) (f : PairSt → PairSt) : Inv (s.mapPair f) := i.mapMgmt ..

theorem Inv.resendCell (i : Inv s) (cam : Nat) (x : CtrlCell) : Inv (s.resendCell cam x) := ((i.mapCam ..).countCam ..).emitCtrl ..

theorem Inv.resendAll (i : Inv s) (cam : Nat) : Inv (s.resendAll cam) := i.foldl (fun _ _ h => h.resendCell ..) _

theorem Inv.dropWaiting (i : Inv s) (cam : Nat) (p : CtrlWhy → Bool) : Inv (s.dropWaiting cam p) := i.mapCam ..

/-! ### The functions of Machine/DispBlk -/

theorem Inv.mapDisp (i : Inv s) (f : DispSt → DispSt) : Inv (s.mapDisp f) :=
  (State.mapDisp_only (.refl [.disp] s) (by simp) ..).inv (by simp) i

theorem Inv.mapHead (i : Inv s) (idx : Nat) (f : DispHead → DispHead) : Inv (s.mapHead idx f) :=
  (State.mapHead_only (.refl [.disp] s) (by simp) ..).inv (by simp) i

theorem Inv.countHead (i : Inv s) (idx : Nat) (f : HeadCounters → HeadCounters) : Inv (s.countHead idx f) := i.mapHead ..

theorem Inv.mapRegs (i : Inv s) (idx : Nat) (f : HeadRegs → HeadRegs) : Inv (s.mapRegs idx f) := i.mapDisp ..

theorem Inv.mapLayer (i : Inv s) (h : Handle) (f : DispLayer → DispLayer) : Inv (s.mapLayer h f) := i.mapDisp ..

/-! ### The functions of Machine/Objects -/

theorem Inv.issue (i : Inv s) (ty : Nat) : Inv (s.issue ty) := i.of_bytes rfl

theorem Inv.noteIngest (i : Inv s) (n : Nat) : Inv (s.noteIngest n) := by
  unfold State.noteIngest
  extract_lets _ t
  have ht : Inv t := i.mapCams ..
  exact ht.mapCams ..

theorem Inv.disarmSinks (i : Inv s) : Inv s.disarmSinks :=
  (State.disarmSinks_only (.refl [.recs] s) (by simp)).inv (by simp) i

/-! ### The functions of Machine/Preflight -/

theorem Inv.writePtr (i : Inv s) (c : Cmd) (bs : List Byte) : Inv (s.writePtr c bs) := .ite (i.writeMem ..) (i.emit ..)

theorem Inv.setBarriers (i : Inv s) : Inv s.setBarriers :=
  (State.setBarriers_only (.refl [.host] s) (by simp)).inv (by simp) i

theorem Inv.clearBarriers (i : Inv s) : Inv s.clearBarriers :=
  (State.clearBarriers_only (.refl [.host] s) (by simp)).inv (by simp) i

theorem Inv.liftBarriers (i : Inv s) : Inv s.liftBarriers :=
  (State.liftBarriers_only (.refl [.host] s) (by simp)).inv (by simp) i

end Sys2Proof
end

section
/-!
SUPPORT. What keeps the invariant: the exposure, encode, display, recording and Journeyman operations that other chapters call. One lemma per
function, after its own branches; a function whose parts are known not to hold the bytes (its `_only` lemma) needs no more than that.
-/
namespace Sys2Proof

open Machine

variable {s : State}

/-! ### The functions of Machine/ExpOps -/

theorem Inv.sendApply (i : Inv s) (cam : Nat) (a : Apply) : Inv (s.sendApply cam a) :=
  (State.sendApply_only (.refl [.cams, .lanes, .out] s) (by simp) ..).inv (by simp) i

theorem Inv.issueApply (i : Inv s) (cam : Nat) (by_ : Option CmdRef) (blk : List Byte) (target limited : Nat) (late atStart : Bool) :
    Inv (s.issueApply cam by_ blk target limited late atStart) := by
  unfold State.issueApply
  extract_lets _ _ t
  have ht : Inv t := i.mapCam ..
  exact .ite ht (ht.sendApply ..)

theorem Inv.endApply (i : Inv s) (cam : Nat) (a : Apply) (st : Status) (r0 r1 : Nat) (logged : Bool) : Inv (s.endApply cam a st r0 r1 logged) := by
  unfold State.endApply
  extract_lets t t1
  have ht : Inv t := i.mapCam ..
  have ht1 : Inv t1 := ht.countCam ..
  split
  · exact ht1.finish ..
  · exact ht1

theorem Inv.landApplies (i : Inv s) (cam f : Nat) : Inv (s.landApplies cam f) := i.foldl (fun _ _ h => (h.countCam ..).endApply ..) _

theorem Inv.latchAt (i : Inv s) (cam fn : Nat) : Inv (s.latchAt cam fn).1 := by
  unfold State.latchAt
  extract_lets
  split
  · exact i.mapCam ..
  · exact (i.landApplies ..).mapCam ..

theorem Inv.latchBefore (i : Inv s) (cam fn : Nat) : Inv (s.latchBefore cam fn) := by
  unfold State.latchBefore
  refine i.foldl (fun _ _ h => ?_) _
  extract_lets x
  have hx : Inv x.1 := h.latchAt ..
  exact hx.mapCam ..

theorem Inv.ackApply (i : Inv s) (cam id : Nat) (groups : List Nat) (hubFc : Nat) : Inv (s.ackApply cam id groups hubFc) :=
  ((i.mapCam ..).countCam ..).foldl (fun _ _ h => h.flagFrame ..) _

theorem Inv.breakApply (i : Inv s) (cam id executed : Nat) (groups : List Nat) : Inv (s.breakApply cam id executed groups) :=
  (i.mapCam ..).dropWaiting ..

theorem Inv.failApply (i : Inv s) (cam id : Nat) (groups : List Nat) (st : Status) (r0 r1 : Nat) : Inv (s.failApply cam id groups st r0 r1) := by
  unfold State.failApply
  extract_lets t
  have ht : Inv t := i.breakApply ..
  split
  · exact ht.endApply ..
  · exact ht

theorem Inv.applySettles (i : Inv s) (cam id : Nat) : Inv (s.applySettles cam id) := by
  unfold State.applySettles
  extract_lets
  split
  · exact i
  · refine .ite i ?_
    extract_lets _ t
    have ht : Inv t := i.logError ..
    exact ht.endApply ..

theorem Inv.dropApplies (i : Inv s) (cam : Nat) (p : Apply → Bool) : Inv (s.dropApplies cam p) := i.foldl (fun _ _ h => h.endApply ..) _

theorem Inv.endJob (i : Inv s) (cam : Nat) (r : CmdRef) (st : Status) (r0 r1 : Nat) (logged : Bool) : Inv (s.endJob cam r st r0 r1 logged) :=
  (State.endJob_only (.refl [.host, .mgmt, .cams] s) (by simp) ..).inv (by simp) i

theorem Inv.releaseCtx (i : Inv s) (cam : Nat) : Inv (s.releaseCtx cam) := ((i.dropApplies ..).foldl (fun _ _ h => h.endJob ..) _).mapCam ..

/-! ### The functions of Machine/Kcs -/

theorem Inv.writeKcs (i : Inv s) (k : KcsInfo) (a : Nat) (pic : Nat → Nat → Nat → Nat) : Inv (s.writeKcs k a pic) :=
  ((i.writeMem ..).writeMem ..).foldl (fun _ _ h => h.writeMem ..) _

/-! ### The functions of Machine/RecHooks -/

theorem Inv.mapRec (i : Inv s) (h : Handle) (f : RecSession → RecSession) : Inv (s.mapRec h f) := i.of_bytes rfl

theorem Inv.recOffer (i : Inv s) (k : Nat) (h : Handle) (idx : Nat) (p : RecPend) : Inv (s.recOffer k h idx p) := i.of_bytes rfl

theorem Inv.recGone (i : Inv s) (k : Nat) (h : Handle) (idx : Nat) : Inv (s.recGone k h idx) :=
  (State.recGone_only (.refl [.recs, .host, .mgmt] s) (by simp) ..).inv (by simp) i

theorem Inv.recClosed (i : Inv s) (cam : Nat) (f : CamFrame) (r : LedgerRec) : Inv (s.recClosed cam f r) := by
  unfold State.recClosed
  refine (i.recOffer ..).foldl (fun _ _ h => ?_) _
  split
  · exact h.recOffer ..
  · exact .ite (h.recOffer ..) h
  · exact h

theorem Inv.recDropped (i : Inv s) (cam fn : Nat) : Inv (s.recDropped cam fn) := by
  unfold State.recDropped
  refine (i.recOffer ..).foldl (fun _ _ h => ?_) _
  split
  · exact .ite (h.recOffer ..) h
  · exact h

theorem Inv.recRunEnded (i : Inv s) (cam : Nat) : Inv (s.recRunEnded cam) := ((i.recGone ..).recGone ..).recGone ..

/-! ### The functions of Machine/EncOps -/

theorem Inv.mapEncs (i : Inv s) (p : EncSession → Bool) (f : EncSession → EncSession) : Inv (s.mapEncs p f) := i.of_bytes rfl

theorem Inv.mapEnc (i : Inv s) (h : Handle) (f : EncSession → EncSession) : Inv (s.mapEnc h f) := i.mapEncs ..

theorem Inv.releaseEncFrame (i : Inv s) (e : EncSession) (fn : Nat) : Inv (s.releaseEncFrame e fn) := i.mapCam ..

theorem Inv.encAccepted (i : Inv s) (cam : Nat) (f : CamFrame) : Inv (s.encAccepted cam f) := by
  unfold State.encAccepted
  extract_lets _ _ _ _ _ t
  have ht : Inv t := i.mapEncs ..
  split
  · exact ht.mapCam ..
  · exact ht.mapEncs ..

theorem Inv.encDropped (i : Inv s) (cam fn : Nat) : Inv (s.encDropped cam fn) := i.mapEncs ..

theorem Inv.encClosed (i : Inv s) (cam : Nat) (f : CamFrame) (r : LedgerRec) : Inv (s.encClosed cam f r) := i.mapEncs ..

theorem Inv.encFinishClose (i : Inv s) (h : Handle) : Inv (s.encFinishClose h) := by
  unfold State.encFinishClose
  split
  · exact i
  · refine .ite i ?_
    extract_lets left t t1 t2 t3
    refine .ite i ?_
    have ht : Inv t := i.mapCam ..
    have ht1 : Inv t1 := ht.foldl (fun _ _ h => h.finish ..) _
    have ht2 : Inv t2 := .ite ht1 (ht1.recGone ..)
    have ht3 : Inv t3 := ht2.mapEnc ..
    have hu : Inv { t3 with encs := t3.encs.filter (fun x => x.handle != h) } := ht3.of_bytes rfl
    exact .ite (hu.finishOpt ..) ht3

theorem Inv.putEncStat (i : Inv s) (e : EncSession) (seq : Nat) (bytes : List Byte) : Inv (s.putEncStat e seq bytes) := i.writeMem ..

theorem Inv.encStopFrames (i : Inv s) (h : Handle) (discard : Bool) : Inv (s.encStopFrames h discard) := by
  unfold State.encStopFrames
  split
  · exact i
  · exact ((i.foldl (fun _ _ h1 => h1.releaseEncFrame ..) _).foldl (fun _ _ h1 => h1.putEncStat ..) _).mapEnc ..

theorem Inv.encRunEnded (i : Inv s) (cam : Nat) : Inv (s.encRunEnded cam) :=
  i.foldl (fun _ _ h => ((h.encStopFrames ..).mapEnc ..).encFinishClose ..) _

/-! ### The functions of Machine/DispOps -/

theorem Inv.mapSrcRing (i : Inv s) (r : SrcRef) (f : Machine.Ring → Machine.Ring) : Inv (s.mapSrcRing r f) := by
  unfold State.mapSrcRing
  split
  · split
    · exact i.mapCam ..
    · exact i
  · exact i.of_bytes rfl
  · split
    · exact i.mapHead ..
    · exact i
  · exact i

theorem Inv.mapConsumers (i : Inv s) (r : SrcRef) (f : List Handle → List Handle) : Inv (s.mapConsumers r f) :=
  (State.mapConsumers_only (.refl [.cams, .dec] s) (by simp) ..).inv (by simp) i

theorem Inv.bindLayer (i : Inv s) (lh : Handle) (r : SrcRef) : Inv (s.bindLayer lh r) := .ite i ((i.mapConsumers ..).mapLayer ..)

theorem Inv.unbindLayer (i : Inv s) (lh : Handle) (r : SrcRef) : Inv (s.unbindLayer lh r) := ((i.mapConsumers ..).mapSrcRing ..).mapLayer ..

theorem Inv.trimLayer (i : Inv s) (lh : Handle) (r : SrcRef) (ns : Nat) : Inv (s.trimLayer lh r ns) := by
  unfold State.trimLayer
  split
  · exact i.mapSrcRing ..
  · exact i

theorem Inv.trimSource (i : Inv s) (r : SrcRef) : Inv (s.trimSource r) := i.foldl (fun _ _ h => h.trimLayer ..) _

theorem Inv.dispClosed (i : Inv s) (cam : Nat) (f : Option CamFrame) : Inv (s.dispClosed cam f) :=
  (i.mapDisp ..).foldl (fun _ _ h => h.trimSource ..) _

/-! ### The functions of Machine/JmOps -/

theorem Inv.mapBinds (i : Inv s) (p : KBind → Bool) (f : KBind → KBind) : Inv (s.mapBinds p f) := i.mapJm ..

theorem Inv.putClean (i : Inv s) (role : FabRole) (a : Nat) (bs : List Byte) : Inv (s.putClean role a bs) :=
  .mapMem_wf (Memory.unmarkAll_wf ((i.writeMem ..).writes ..) _)

theorem Inv.putTile (i : Inv s) (role : FabRole) (hd : List Byte) (f : HookFrame) (tx ty : Nat) (planes : List (List Nat)) :
    Inv (s.putTile role hd f tx ty planes) :=
  i.foldl (fun _ _ h => h.foldl (fun _ _ h1 => h1.putClean ..) _) _

theorem Inv.mapHook (i : Inv s) (f : HookFrame) (g : HookFrame → HookFrame) : Inv (s.mapHook f g) := i.mapJm ..

theorem Inv.dropHook (i : Inv s) (f : HookFrame) : Inv (s.dropHook f) := i.mapJm ..

theorem Inv.finishHook (i : Inv s) (f0 : HookFrame) : Inv (s.finishHook f0) := by
  unfold State.finishHook
  split
  · exact i
  · refine .ite i ?_
    extract_lets _ _ t t1 t2 t3
    have ht : Inv t := i.putClean ..
    have ht1 : Inv t1 := ht.putClean ..
    have ht2 : Inv t2 := ht1.tickFresh.putClean ..
    have ht3 : Inv t3 := by
      unfold t3
      split
      · exact ht2.mapBinds ..
      · exact ht2
    exact ht3.dropHook ..

theorem Inv.voidTiles (i : Inv s) (f : HookFrame) (ts : List (Nat × Nat)) : Inv (s.voidTiles f ts) :=
  (i.foldl (fun _ _ h => h.putTile ..) _).mapHook ..

theorem Inv.abandonHook (i : Inv s) (f : HookFrame) : Inv (s.abandonHook f) := (i.mapBinds ..).dropHook ..

theorem Inv.latchHook (i : Inv s) (cam fn hook : Nat) : Inv (s.latchHook cam fn hook) := by
  unfold State.latchHook
  refine (i.mapJm ..).foldl (fun _ _ h => ?_) _
  split
  · exact h.finish ..
  · exact h

theorem Inv.hookFrame (i : Inv s) (cam hook : Nat) (f : CamFrame) : Inv (s.hookFrame cam hook f) := by
  unfold State.hookFrame
  extract_lets
  split
  · exact i
  · refine .ite i ?_
    extract_lets skip
    have hskip : Inv skip := i.countKernel ..
    refine .ite hskip ?_
    split
    · exact hskip
    · exact (i.mapBinds ..).mapJm ..

theorem Inv.jmAccepted (i : Inv s) (cam : Nat) (f : CamFrame) : Inv (s.jmAccepted cam f) := i.foldl (fun _ _ h => (h.latchHook ..).hookFrame ..) _

theorem Inv.queueTiles (i : Inv s) (x : HookFrame) : Inv (s.queueTiles x) := by
  unfold State.queueTiles
  extract_lets
  split
  · exact i
  · exact .ite i (((i.mapHook ..).voidTiles ..).finishHook ..)

theorem Inv.jmStripe (i : Inv s) (cam fn : Nat) : Inv (s.jmStripe cam fn) := i.foldl (fun _ _ h => h.queueTiles ..) _

theorem Inv.jmClosed (i : Inv s) (cam : Nat) (r : LedgerRec) : Inv (s.jmClosed cam r) := i.foldl (fun _ _ h => (h.mapHook ..).finishHook ..) _

theorem Inv.jmDropped (i : Inv s) (cam fn : Nat) : Inv (s.jmDropped cam fn) := i.foldl (fun _ _ h => h.abandonHook ..) _

theorem Inv.latchPolicies (i : Inv s) (cam r0 : Nat) : Inv (s.latchPolicies cam r0) := by
  unfold State.latchPolicies
  extract_lets _ t t1
  have ht : Inv t := i.mapCam ..
  have ht1 : Inv t1 := ht.foldl (fun _ _ h => h.finish ..) _
  exact ht1.mapJm ..

theorem Inv.issueRound (i : Inv s) (r : PolRound) : Inv (s.issueRound r) := by
  unfold State.issueRound
  extract_lets _ t _ t1
  have ht : Inv t := i.mapJm ..
  have ht1 : Inv t1 := .ite ht (ht.countCam ..)
  exact .ite ht (ht1.issueApply ..)

theorem Inv.settleRounds (i : Inv s) (cam : Nat) : Inv (s.settleRounds cam) := i.foldl (fun _ _ h => h.issueRound ..) _

theorem Inv.releaseJob (i : Inv s) (q : PolJob) : Inv (s.releaseJob q) := .mapBinds (.ite i (i.mapCam ..)) ..

theorem Inv.endJobOf (i : Inv s) (q : PolJob) : Inv (s.endJobOf q) := ((i.releaseJob ..).mapJm ..).settleRounds ..

theorem Inv.jmStats (i : Inv s) (cam : Nat) (f : CamFrame) (r : LedgerRec) : Inv (s.jmStats cam f r) := by
  unfold State.jmStats
  extract_lets _ t _ _ _ _ _ _ field _ _ t1 t2
  have ht : Inv t := ((i.latchPolicies ..).mapJm ..).settleRounds ..
  have ht1 : Inv t1 := ht.foldl (fun _ _ h => h.mapCam ..) _
  have ht2 : Inv t2 := ht1.mapJm ..
  exact .ite ht (.ite ht2 (((ht2.putRecord ..).writeMem ..).countCam ..))

theorem Inv.jmRunEnded (i : Inv s) (cam : Nat) : Inv (s.jmRunEnded cam) := (i.mapJm ..).foldl (fun _ _ h => h.finish ..) _

theorem Inv.jmRates (i : Inv s) : Inv s.jmRates :=
  (State.jmRates_only (.refl [.host, .mgmt, .encs, .jm] s) (by simp)).inv (by simp) i

theorem Inv.jmSettle (i : Inv s) : Inv s.jmSettle :=
  (State.jmSettle_only (.refl [.host, .mgmt, .jm] s) (by simp)).inv (by simp) i

theorem Inv.answerRate (i : Inv s) (h : Handle) (seq fn : Nat) (a : RateAnswer) : Inv (s.answerRate h seq fn a) := i.mapEnc ..

theorem Inv.endsEmpty (i : Inv s) (inv : Invoc) : Inv (s.endsEmpty inv) := by
  unfold State.endsEmpty
  split
  · split
    · exact (i.voidTiles ..).finishHook ..
    · exact i
  · split
    · exact i.endJobOf ..
    · exact i
  · exact i.answerRate ..

theorem Inv.faultKernel (i : Inv s) (h : Handle) : Inv (s.faultKernel h) := by
  unfold State.faultKernel
  extract_lets t t1 t2 _ t3 t4
  have ht : Inv t := i.mapKernel ..
  have ht1 : Inv t1 := ht.foldl (fun _ _ h1 => h1.abandonHook ..) _
  have ht2 : Inv t2 := ht1.foldl (fun _ _ h1 => h1.endJobOf ..) _
  have ht3 : Inv t3 := ht2.mapJm ..
  have ht4 : Inv t4 := ht3.foldl (fun _ _ h1 => h1.settleRounds ..) _
  exact ht4.jmRates

theorem Inv.jmTrap (i : Inv s) (inv : Invoc) (code : Nat) : Inv (s.jmTrap inv code) := by
  unfold State.jmTrap
  extract_lets t _ _ t1 t2 t3 t4
  have ht : Inv t := (i.freeThread ..).mapKernel ..
  have ht1 : Inv t1 := .ite (ht.logErrorPost ..) (ht.logError ..)
  have ht2 : Inv t2 := ht1.endsEmpty ..
  have ht3 : Inv t3 := .ite (ht2.faultKernel ..) ht2
  have ht4 : Inv t4 := by
    unfold t4
    split
    · extract_lets _ u
      have hu : Inv u := ht3.mapJm ..
      exact .ite (hu.siteDead ..) hu
    · exact ht3
  exact ht4.jmSettle

/-! ### The functions of Machine/Hooks -/

theorem Inv.frameAccepted (i : Inv s) (cam : Nat) (f : CamFrame) : Inv (s.frameAccepted cam f) := ((i.encAccepted ..).jmAccepted ..).jmRates

theorem Inv.fieldComplete (i : Inv s) (cam : Nat) (f : CamFrame) : Inv (s.fieldComplete cam f) :=
  (State.fieldComplete_only (.refl [.host, .mgmt, .encs, .jm] s) (by simp) ..).inv (by simp) i

theorem Inv.frameClosed (i : Inv s) (cam : Nat) (f : CamFrame) (r : LedgerRec) : Inv (s.frameClosed cam f r) :=
  ((((i.encClosed ..).recClosed ..).dispClosed ..).jmClosed ..).jmRates

theorem Inv.frameDropped (i : Inv s) (cam fn : Nat) : Inv (s.frameDropped cam fn) :=
  ((((i.encDropped ..).recDropped ..).dispClosed ..).jmDropped ..).jmRates

theorem Inv.statsClosed (i : Inv s) (cam : Nat) (f : CamFrame) (r : LedgerRec) : Inv (s.statsClosed cam f r) := i.jmStats ..

theorem Inv.stripeWritten (i : Inv s) (cam fn : Nat) : Inv (s.stripeWritten cam fn) := i.jmStripe ..

theorem Inv.runEnded (i : Inv s) (cam : Nat) : Inv (s.runEnded cam) := (((i.encRunEnded ..).recRunEnded ..).jmRunEnded ..).jmSettle

theorem Inv.handOn (i : Inv s) : Inv s.handOn := by
  unfold State.handOn
  refine i.foldl (fun _ _ h => .ite h ?_) _
  split
  · exact h
  · exact (h.mapPair ..).sendHub ..

end Sys2Proof
end

section
/-!
SUPPORT. What keeps the invariant: the queues, the memory commands and the time base. One lemma per function, after its own branches; a function
whose parts are known not to hold the bytes (its `_only` lemma) needs no more than that.
-/
namespace Sys2Proof

open Machine

variable {s : State}

/-! ### The functions of Machine/HostQueues -/

theorem Inv.startSpeed (i : Inv s) (target : Nat) (waived : Bool) (by_ : List CmdRef) : Inv (s.startSpeed target waived by_) :=
  (State.startSpeed_only (.refl [.memory] s) (by simp) ..).inv (by simp) i

theorem Inv.setPower (i : Inv s) (p : PowerState) : Inv (s.setPower p) :=
  (State.setPower_only (.refl [.host, .mgmt, .power, .memory, .lanes, .out] s) (by simp) ..).inv (by simp) i

theorem Inv.wake (i : Inv s) : Inv s.wake :=
  (State.wake_only (.refl [.host, .mgmt, .power, .memory, .lanes, .out] s) (by simp)).inv (by simp) i

theorem Inv.signalFor (i : Inv s) (q : Fin 64) (r : Ready) : Inv (s.signalFor q r) :=
  (State.signalFor_only (.refl [.host, .out] s) (by simp) (by simp) ..).inv (by simp) i

theorem Inv.releaseLocks (i : Inv s) (q : Fin 64) (cid : Half) : Inv (s.releaseLocks q cid) :=
  (State.releaseLocks_only (.refl [.host] s) (by simp) ..).inv (by simp) i

theorem Inv.haltQueue (i : Inv s) (q : Fin 64) : Inv (s.haltQueue q) :=
  (State.haltQueue_only (.refl [.host, .mgmt] s) (by simp) (by simp) ..).inv (by simp) i

theorem Inv.writeEntry (i : Inv s) (q : Fin 64) (r : Ready) : Inv (s.writeEntry q r) := by
  unfold State.writeEntry
  refine .mapQueue ?_ ..
  split
  · exact i.writeMem ..
  · exact i.emit ..

theorem Inv.popReady (i : Inv s) (q : Fin 64) (r : Ready) : Inv (s.popReady q r) :=
  (State.popReady_only (.refl [.host] s) (by simp) ..).inv (by simp) i

theorem Inv.progress (i : Inv s) (q : Fin 64) : Inv (s.progress q) :=
  (State.progress_only (.refl [.host, .mgmt] s) (by simp) (by simp) ..).inv (by simp) i

theorem Inv.pushAll (i : Inv s) (q : Fin 64) (rs : List Ready) : Inv (s.pushAll q rs) := i.foldl (fun _ _ h => h.pushReady ..) _

theorem abortWrite_keeps (i : Inv s) (r : CmdRef) : AbortKeeps (s.abortWrite r) := by
  unfold State.abortWrite
  split
  · exact .stops i
  · exact .stops ((i.mapCam ..).dropWaiting ..)

theorem abortApply_keeps (i : Inv s) (r : CmdRef) : AbortKeeps (s.abortApply r) := by
  unfold State.abortApply
  split
  · exact .stops i
  · split
    · exact .stops i
    · extract_lets
      exact .ite (.stops (i.mapCam ..)) (.stops ((i.mapCam ..).dropWaiting ..))

theorem abortSubmit_keeps (i : Inv s) (r : CmdRef) : AbortKeeps (s.abortSubmit r) := .ite (.stops (by exact i.of_bytes rfl)) .atSafePoint

theorem abort_keeps (i : Inv s) (r : CmdRef) : AbortKeeps (s.abort r) := by
  unfold State.abort
  split
  case h_1 => exact .stops i
  case h_2 => exact .stops i
  case h_3 => exact .atSafePoint
  case h_4 => exact .atSafePoint
  case h_5 => exact .atSafePoint
  case h_6 => exact .atSafePoint
  case h_7 => exact .lost
  case h_8 => exact .lost
  case h_9 => exact .stops (i.mapCams ..)
  case h_10 => exact abortWrite_keeps i r
  case h_11 => exact abortApply_keeps i r
  case h_12 => exact .stops (by exact i.of_bytes rfl)
  case h_13 => exact abortSubmit_keeps i r
  case h_14 => exact .stops (by exact i.of_bytes rfl)
  case h_15 => exact .ite (.stops (by exact i.of_bytes rfl)) .atSafePoint
  case h_16 => exact .ite (.stops (by exact i.of_bytes rfl)) .atSafePoint
  case h_17 => exact .stops (by exact i.of_bytes rfl)
  case h_18 => exact .stops (by exact i.of_bytes rfl)
  case h_19 => exact .stops (by exact i.of_bytes rfl)
  case h_20 => exact .ite (.stops (i.mapMgmt _)) .runsOn
  case h_21 => exact .runsOn

theorem Inv.stopFlying (i : Inv s) (q : Fin 64) (f : Flying) : Inv (s.stopFlying q f) := by
  unfold State.stopFlying
  split
  · exact i
  · exact i.mapQueue ..
  · exact i.mapQueue ..
  · next t r0 e =>
    have ht : Inv t := abort_keeps i f.ref t r0 e
    exact (ht.mapQueue ..).pushReady ..

theorem Inv.startReset (i : Inv s) (q : Fin 64) (by_ : Option CmdRef) : Inv (s.startReset q by_) := by
  unfold State.startReset
  extract_lets _ s0 s1 s2 _ s3 s4
  have hs0 : Inv s0 := by
    unfold s0
    split
    · exact i.finish ..
    · exact i
  have hs1 : Inv s1 := hs0.mapQueue ..
  have hs2 : Inv s2 := hs1.foldl (fun _ _ h => h.stopFlying ..) _
  have hs3 : Inv s3 := hs2.mapHost ..
  have hs4 : Inv s4 := (hs3.mapQueue ..).pushAll ..
  exact hs4.progress ..

theorem Inv.hostReset (i : Inv s) (cause : HostResetCause) : Inv (s.hostReset cause) :=
  (((i.mapHost ..).foldl (fun _ _ h => h.logError ..) _).foldl (fun _ _ h => h.finish ..) _).disarmSinks

theorem execHostEnable_keeps (i : Inv s) : StepKeeps (execHostEnable s) :=
  .ite (.next i) (.ite (.next i) (.ite (.next (i.mapHost ..)) (.next (((i.mapHost ..).mapQueue ..).issue ..))))

theorem execHostDisable_keeps (i : Inv s) : StepKeeps (execHostDisable s) := .ite (.next (i.hostReset ..)) (.next i)

theorem execHostInterfaceReset_keeps (i : Inv s) (cause : HostResetCause) : StepKeeps (execHostInterfaceReset cause s) := by
  unfold execHostInterfaceReset
  extract_lets t
  have ht : Inv t := i.hostReset ..
  exact .next (.ite (ht.mapPower ..) ht)

theorem execAdminReset_keeps (i : Inv s) : StepKeeps (execAdminReset s) := .ite (.next (i.startReset ..)) (.next i)

theorem Inv.badDoorbell (i : Inv s) (q : Fin 64) (isCq : Bool) : Inv (s.badDoorbell q isCq) := (i.mapHost ..).post ..

theorem execSqDoorbell_keeps (i : Inv s) (q : Fin 64) (v : Word) : StepKeeps (execSqDoorbell q v s) :=
  .ite (.next i) (.ite (.next ((i.mapQueue ..).wake)) (.next (i.badDoorbell ..)))

theorem Inv.completeOne (i : Inv s) (q : Fin 64) (writeOk : Bool) : Inv (s.completeOne q writeOk) := by
  unfold State.completeOne
  extract_lets
  split
  · exact i
  · extract_lets s1 t
    have hs1 : Inv s1 := i.releaseLocks ..
    have ht : Inv t := ((hs1.popReady ..).mapQueue ..).logError ..
    refine .ite ((hs1.popReady ..).logError ..) (.ite ?_ (.ite (((hs1.popReady ..).logError ..).haltQueue ..) ((((hs1.writeEntry ..).popReady
      ..).signalFor ..).progress ..)))
    split
    · exact .progress (.ite ht (ht.post ..)) ..
    · exact hs1.mapQueue ..

theorem execCommandComplete_keeps (i : Inv s) (q : Fin 64) (writeOk : Bool) : StepKeeps (execCommandComplete q writeOk s) := .next (i.completeOne ..)

theorem Inv.releaseHeld (i : Inv s) (q : Fin 64) (writeOk : Bool) (n : Nat) : Inv (s.releaseHeld q writeOk n) := by
  induction n generalizing s with
  | zero => exact i
  | succ n ih =>
    unfold State.releaseHeld
    extract_lets k
    split
    · exact .ite (ih (i.completeOne ..)) i
    · exact i

theorem execCqDoorbell_keeps (i : Inv s) (q : Fin 64) (v : Word) (writesOk : Bool) : StepKeeps (execCqDoorbell q v writesOk s) := by
  unfold execCqDoorbell
  refine .ite (.next i) (.ite ?_ (.next (i.badDoorbell ..)))
  extract_lets t
  have ht : Inv t := (i.mapQueue ..).wake
  exact .next (ht.releaseHeld ..)

theorem execCoalescingTimeout_keeps (i : Inv s) (q : Fin 64) : StepKeeps (execCoalescingTimeout q s) :=
  .ite (.next ((i.mapQueue ..).signal ..)) (.next i)

theorem Inv.fetchOne (i : Inv s) (q : Fin 64) (r : EntryRead) : Inv (s.fetchOne q r) := by
  unfold State.fetchOne
  refine .ite i ?_
  extract_lets _ _ t
  have ht : Inv t := i.mapQueue ..
  split
  · exact .ite (((i.mapQueue ..).logError ..).progress ..) (i.haltQueue ..)
  · split
    · exact ((ht.mapQueue ..).pushReady ..).progress ..
    · exact (ht.mapQueue ..).pushReady ..
    · extract_lets t1
      have ht1 : Inv t1 := ht.mapQueue ..
      exact .ite ht1.setBarriers ht1

theorem execCommandFetch_keeps (i : Inv s) (reads : List EntryRead) : StepKeeps (execCommandFetch reads s) := by
  unfold execCommandFetch
  refine .ite (.next i) ?_
  split
  · exact .next i
  · exact .next (((i.mapHost ..).mapPower ..).foldl (fun _ _ h => h.fetchOne ..) _)

theorem execCommandDispatch_keeps (i : Inv s) (q : Fin 64) (host : HostRead) : StepKeeps (execCommandDispatch q host s) := by
  unfold execCommandDispatch
  extract_lets
  split
  · exact .next i
  · refine .ite (.next i) ?_
    extract_lets t early
    have ht : Inv t := i.mapQueue ..
    have hearly : ∀ x0 x1 x2 x3 u4 (_ : Inv u4), Inv (early x0 x1 x2 x3 u4) := by
      intro x0 x1 x2 x3 u4 hu4
      unfold early
      exact .pushReady (.ite hu4.liftBarriers hu4) ..
    split
    · exact .next (hearly _ _ _ _ _ ht)
    · split
      · exact .ite (.next (hearly _ _ _ _ _ (ht.logError ..))) (.next (hearly _ _ _ _ _ ht))
      · exact .ite (.next ((ht.mapHost ..).mapQueue ..)) (.next i)

theorem execQueueCreate_keeps (i : Inv s) (c : Cmd) : StepKeeps (execQueueCreate c s) := by
  unfold execQueueCreate
  exact .runCmd i (.bind fun _ => .bind fun _ => .bind fun _ => .bind fun _ => .bind fun _ => .bind fun _ => .okDone ((i.mapHost ..).issue ..))

theorem execQueueDelete_keeps (i : Inv s) (c : Cmd) : StepKeeps (execQueueDelete c s) :=
  .runCmd i (.bind fun _ => .bind fun _ => .bind fun _ => .bind fun _ => .okDone (i.mapHost ..))

theorem execQueueFlush_keeps (i : Inv s) (c : Cmd) : StepKeeps (execQueueFlush c s) := by
  unfold execQueueFlush
  exact .runCmd i (.bind fun _ => .bind fun _ => .bind fun _ => .bind fun _ => .waits ((((i.mapQueue ..).pushAll ..).keepInFlight ..).progress ..))

theorem execQueueReset_keeps (i : Inv s) (c : Cmd) : StepKeeps (execQueueReset c s) :=
  .runCmd i (.bind fun _ => .bind fun _ => .bind fun _ => .waits ((i.keepInFlight ..).startReset ..))

theorem execAsyncEventRequest_keeps (i : Inv s) (c : Cmd) : StepKeeps (execAsyncEventRequest c s) := by
  unfold execAsyncEventRequest
  refine .runCmd i (.bind fun _ => ?_)
  split
  · exact .okDone (i.mapHost ..)
  · exact .waitDone (i.mapHost ..)

/-! ### The functions of Machine/MemoryCmds -/

theorem execBufAlloc_keeps (i : Inv s) (c : Cmd) : StepKeeps (execBufAlloc c s) := by
  unfold execBufAlloc
  refine .runCmd i (.bind fun _ => .bind fun _ => .bind fun _ => .bind fun _ => .ite (.done (.writes (.mapMem_wf (Memory.zero_wf i.tickFresh ..))
    ..)) ?_)
  extract_lets _ t
  have ht : Inv t := (i.mapMem rfl).issue ..
  exact .okDone (.ite (.writes (.mapMem_wf (Memory.zero_wf ht ..)) ..) ht)

theorem Inv.startRetirement (i : Inv s) (p : Nat) : Inv (s.startRetirement p) := by
  unfold State.startRetirement
  refine .ite (.ite i ((i.mapMem rfl).logErrorPost ..)) ?_
  extract_lets t
  have ht : Inv t := i.mapMem rfl
  exact ht.requests ..

theorem Inv.startPending (i : Inv s) : Inv s.startPending := i.foldl (fun _ _ h => .ite h (h.startRetirement ..)) _

theorem execBufFree_keeps (i : Inv s) (c : Cmd) : StepKeeps (execBufFree c s) :=
  .runCmd i (.bind fun _ => .bind fun _ => .okDone ((i.mapMem rfl).startPending))

theorem execBufCopy_keeps (i : Inv s) (c : Cmd) : StepKeeps (execBufCopy c s) := by
  unfold execBufCopy
  exact .runCmd i (.bind fun _ => .bind fun _ => .bind fun _ => .bind fun _ => .bind fun _ => .bind fun _ => .ite (.done (.writes (.reads (.mapMem_wf
    (Memory.copy_wf i ..)) ..) ..)) (.okDone (.writes (.reads (.mapMem_wf (Memory.copy_wf i ..)) ..) ..)))

theorem execBufFill_keeps (i : Inv s) (c : Cmd) : StepKeeps (execBufFill c s) := by
  unfold execBufFill
  exact .runCmd i (.bind fun _ => .bind fun _ => .bind fun _ => .bind fun _ => .bind fun _ => .ite (.done ((i.tickFresh.writeMem ..).writes ..))
    (.okDone ((i.writeMem ..).writes ..)))

theorem execBufCheck_keeps (i : Inv s) (c : Cmd) : StepKeeps (execBufCheck c s) := by
  unfold execBufCheck
  refine .runCmd i (.bind fun _ => .bind fun _ => .ite (.done (i.tickFresh.reads ..)) ?_)
  split
  · exact .error
  · extract_lets _ t
    have ht : Inv t := i.reads ..
    exact .ite (.done ht) (.okDone ht)

theorem execMemSetSpeed_keeps (i : Inv s) (c : Cmd) : StepKeeps (execMemSetSpeed c s) := by
  unfold execMemSetSpeed
  refine .runCmd i (.bind fun _ => .bind fun _ => .bind fun _ => .ite (.okDone (i.mapPower ..)) ?_)
  extract_lets _ t
  have ht : Inv t := i.mapMem rfl
  exact .ite (.okDone ht) (.waitDone (ht.startSpeed ..))

theorem execStackSpeedChange_keeps (i : Inv s) (stack : Fin 4) : StepKeeps (execStackSpeedChange stack s) := by
  unfold execStackSpeedChange
  split
  · exact .next i
  · refine .ite ?_ (.next i)
    extract_lets t end_
    have ht : Inv t := i.mapMem rfl
    have hend_ : ∀ u1 (_ : Inv u1) x1, Inv (end_ u1 x1) := by
      intro u1 hu1 x1
      unfold end_
      exact hu1.finish ..
    exact .ite (.next ht) (.next ((ht.mapPower ..).foldl (fun _ _ h => hend_ _ h _) _))

theorem execBar2Read_keeps (i : Inv s) (off len : Nat) : StepKeeps (execBar2Read off len s) := by
  unfold execBar2Read
  refine .ite (.next i) ?_
  split
  · exact .next (.emit (.ite (i.emit ..) i) ..)
  · extract_lets t
    have ht : Inv t := i.reads ..
    exact .ite (.next ((ht.emit ..).emit ..)) (.next (ht.emit ..))

theorem execBar2Write_keeps (i : Inv s) (off : Nat) (data : List Byte) : StepKeeps (execBar2Write off data s) := by
  unfold execBar2Write
  refine .ite (.next i) ?_
  split
  · exact .next (.emit (.ite (i.emit ..) i) ..)
  · refine .ite ?_ (.next ((i.writeMem ..).writes ..))
    extract_lets t
    have ht : Inv t := i.mapMem rfl
    exact .ite (.next ((ht.mapMem rfl).logError ..)) (.next ht)

theorem Inv.mapPc (i : Inv s) (p : Fin 128) (f : PseudoChannel → PseudoChannel) : Inv (s.mapPc p f) :=
  (State.mapPc_only (.refl [.memory] s) (by simp) ..).inv (by simp) i

theorem Inv.mapMemCnt (i : Inv s) (f : MemCounters → MemCounters) : Inv (s.mapMemCnt f) :=
  (State.mapMemCnt_only (.refl [.memory] s) (by simp) ..).inv (by simp) i

theorem execRefreshDue_keeps (i : Inv s) (stack : Fin 4) (n : Fin 32) : StepKeeps (execRefreshDue stack n s) :=
  .ite (.next i) (.ite (.ite (.next ((i.mapPc ..).mapMemCnt ..)) (.next (i.mapMemCnt ..))) (.next (i.mapPc ..)))

theorem execMakeUpBurst_keeps (i : Inv s) (stack : Fin 4) (n : Fin 32) : StepKeeps (execMakeUpBurst stack n s) :=
  .ite (.next ((i.mapPc ..).mapMemCnt ..)) (.next i)

theorem Inv.pcDead (i : Inv s) (p : Fin 128) : Inv (s.pcDead p) := .ite i (.ite (i.logErrorPost ..) (((i.mapPc ..).mapMem rfl).logError ..))

theorem Inv.retrain (i : Inv s) (p : Fin 128) (eyeOk : Bool) : Inv (s.retrain p eyeOk) := by
  unfold State.retrain
  refine .ite (i.mapPc ..) ?_
  extract_lets t
  have ht : Inv t := i.mapPc ..
  exact .ite (ht.pcDead ..) ht

theorem execRetrainingSlot_keeps (i : Inv s) (stack : Fin 4) (n : Fin 32) (eyeOk : Bool) : StepKeeps (execRetrainingSlot stack n eyeOk s) := by
  unfold execRetrainingSlot
  refine .ite (.next i) ?_
  extract_lets t s2
  have ht : Inv t := (i.mapPc ..).mapMemCnt ..
  have hs2 : Inv s2 := .ite (.ite (ht.logErrorPost ..) ht) i
  refine .ite (.next ((hs2.mapPc ..).mapMemCnt ..)) ?_
  split
  · refine .ite ?_ (.next (hs2.retrain ..))
    extract_lets t1 _ _ t2
    have ht1 : Inv t1 := hs2.mapPc ..
    have ht2 : Inv t2 := ht1.requests ..
    exact .next (((ht2.mapMemCnt ..).logEvent ..).emit ..)
  · exact .next (hs2.retrain ..)

theorem execRetrainRetry_keeps (i : Inv s) (stack : Fin 4) (n : Fin 32) (eyeOk : Bool) : StepKeeps (execRetrainRetry stack n eyeOk s) :=
  .ite (.next (i.retrain ..)) (.next i)

theorem Inv.postTally (i : Inv s) (idx : Nat) : Inv (s.postTally idx) := ((i.mapMemCnt ..).mapMgmt ..).post ..

theorem Inv.tally (i : Inv s) (p : Fin 128) (region n : Nat) : Inv (s.tally p region n) := by
  unfold State.tally
  extract_lets _ _ t t1
  have ht : Inv t := i.mapPc ..
  have ht1 : Inv t1 := (ht.mapPc ..).postTally ..
  exact .ite (.ite (ht1.pcDead ..) ht1) ht

theorem Inv.candidate (i : Inv s) (p : Fin 128) (row bank : Nat) : Inv (s.candidate p row bank) := by
  unfold State.candidate
  refine .ite i ?_
  extract_lets t
  have ht : Inv t := i.mapPc ..
  exact .ite (ht.pcDead ..) ht

theorem Inv.corrected (i : Inv s) (p : Fin 128) (region row bank : Nat) : Inv (s.corrected p region row bank) := by
  unfold State.corrected
  extract_lets _ _ _ _ _ t t1 t2
  have ht : Inv t := (i.mapPc ..).mapMemCnt ..
  have ht1 : Inv t1 := .ite (ht.tally ..) ht
  have ht2 : Inv t2 := .ite (ht1.candidate ..) ht1
  exact .ite ((ht2.mapMem rfl).logEvent ..) ht2

theorem Inv.loseLine (i : Inv s) (line : Nat) : Inv (s.loseLine line) := by
  have h : Inv (s.undefine (line * 64) 64) := i.undefine ..
  exact .mapMem_wf (Memory.mark_wf (m := (s.undefine (line * 64) 64).mem.mem) h line)

theorem Inv.uncorrectable (i : Inv s) (p : Fin 128) (region row bank line : Nat) : Inv (s.uncorrectable p region row bank line) :=
  ((((i.loseLine ..).mapMemCnt ..).tally ..).candidate ..).logError ..

theorem execScrubRead_keeps (i : Inv s) (line row bank region result : Nat) (last : Bool) :
    StepKeeps (execScrubRead line row bank region result last s) := by
  unfold execScrubRead
  extract_lets _ _ _ _ s1 t _ t1
  have hs1 : Inv s1 := .ite (i.requests ..) i
  have ht : Inv t := .ite hs1 (.ite (hs1.corrected ..) (.ite (hs1.uncorrectable ..) hs1))
  have ht1 : Inv t1 := ht.mapMem rfl
  exact .ite (.next (.ite (ht1.logErrorPost ..) ht1)) (.next ht)

theorem execTallyLeak_keeps (i : Inv s) (p : Fin 128) (region : Nat) : StepKeeps (execTallyLeak p region s) :=
  .ite (.next (i.mapPc ..)) (.next (i.mapMem rfl))

theorem execOnDieEccPoll_keeps (i : Inv s) (reports : List (Fin 128 × Nat × Nat)) : StepKeeps (execOnDieEccPoll reports s) :=
  .next (i.foldl (fun _ _ h => h.tally ..) _)

theorem Inv.sramError (i : Inv s) (e : SramError) : Inv (s.sramError e) := by
  unfold State.sramError
  split
  · exact i
  · extract_lets _ put _ _ overs t t1 dead u
    have hput : ∀ x0 u1 (_ : Inv u1), Inv (put x0 u1) := by
      intro x0 u1 hu1
      unfold put
      exact hu1.mapMem rfl
    have hovers : ∀ u1 (_ : Inv u1), Inv (overs u1) := by
      intro u1 hu1
      unfold overs
      exact .ite (hu1.postTally ..) hu1
    have ht : Inv t := hput _ _ i
    have ht1 : Inv t1 := .ite ht (ht.postTally ..)
    have hdead : ∀ x0, Inv (dead x0) := by
      intro x0
      unfold dead
      split
      · exact ht1.declareDead ..
      · exact ht1
    have hu : Inv u := ht1.logErrorPost ..
    refine .ite i (.ite (.ite (hovers _ (hput _ _ i)) ?_) (hovers _ (hput _ _ i)))
    split
    · exact hdead _
    · exact hdead _
    · exact hdead _
    · exact .ite (hu.pcDead ..) hu
    · exact ht1.logErrorPost ..

theorem Inv.sramErrors (i : Inv s) (es : List SramError) : Inv (s.sramErrors es) := i.foldl (fun _ _ h => h.sramError ..) _

theorem execPcRetirement_keeps (i : Inv s) (p : Fin 128) : StepKeeps (execPcRetirement p s) := .ite (.next (i.startRetirement ..)) (.next i)

theorem execRetirementCopyDone_keeps (i : Inv s) (p : Fin 128) (lost : List Nat) : StepKeeps (execRetirementCopyDone p lost s) :=
  .ite (.next ((((i.foldl (fun _ _ h => h.loseLine ..) _).mapMem rfl).mapFab ..).logErrorPost ..)) (.next i)

/-! ### The functions of Machine/TimeBase -/

theorem execTimeNowRead_keeps (i : Inv s) (wide : Bool) : StepKeeps (execTimeNowRead wide s) := .next ((i.mapTime ..).emit ..)

theorem execTimeAsymWrite_keeps (i : Inv s) (p : Fin 4) (v : Word) : StepKeeps (execTimeAsymWrite p v s) :=
  .ite (.next (i.mapTime ..)) (.next (i.mapTime ..))

theorem execTimeLinkAsymWrite_keeps (i : Inv s) (n : Fin 32) (v : Word) : StepKeeps (execTimeLinkAsymWrite n v s) :=
  .ite (.next (i.mapTime ..)) (.next (i.mapTime ..))

theorem Inv.ownPin (i : Inv s) (n : Nat) (o : PinOwner) : Inv (s.ownPin n o) := i.mapTime ..

theorem Inv.drivePin (i : Inv s) (n : Nat) (level : Bool) : Inv (s.drivePin n level) := (i.mapTime ..).emit ..

theorem Inv.freePin (i : Inv s) (n : Nat) : Inv (s.freePin n) := (i.mapTime ..).emit ..

theorem Inv.mapCompare (i : Inv s) (u : Nat) (f : CompareUnit → CompareUnit) : Inv (s.mapCompare u f) := i.mapTime ..

theorem Inv.fire (i : Inv s) (u : Nat) : Inv (s.fire u) := by
  unfold State.fire
  split
  · exact i
  · exact (i.mapCompare ..).drivePin ..

theorem execCompareEvent_keeps (i : Inv s) (u : Fin 32) : StepKeeps (execCompareEvent u s) := by
  unfold execCompareEvent
  split
  · exact .next i
  · exact .ite (.next (i.fire ..)) (.next i)

theorem execPulseEnd_keeps (i : Inv s) (u : Fin 32) : StepKeeps (execPulseEnd u s) := by
  unfold execPulseEnd
  split
  · exact .next i
  · split
    · exact .next i
    · refine .ite (.next i) ?_
      extract_lets _ t t1
      have ht : Inv t := (i.mapCompare ..).drivePin ..
      have ht1 : Inv t1 := .ite (ht.freePin ..) ht
      exact .next (.ite (ht1.mapTime ..) ht1)

theorem Inv.dropPin (i : Inv s) (x : CompareUnit) : Inv (s.dropPin x) :=
  (State.dropPin_only (.refl [.time, .out] s) (by simp) ..).inv (by simp) i

theorem Inv.releaseCompare (i : Inv s) (u : Nat) : Inv (s.releaseCompare u) :=
  (State.releaseCompare_only (.refl [.time, .out] s) (by simp) ..).inv (by simp) i

theorem execEvtOutputSet_keeps (i : Inv s) (c : Cmd) : StepKeeps (execEvtOutputSet c s) := by
  unfold execEvtOutputSet
  refine .runCmd i (.bind fun _ => .bind fun _ => .ite ?_ (.bind fun _ => ?_))
  · split
    · exact .error
    · exact .okDone (i.releaseCompare ..)
  · extract_lets cur _ _ _ _ t _ _ rest rest1
    have ht : Inv t := by
      unfold t
      clear_value cur
      split
      · exact .ite i (i.dropPin ..)
      · exact i.issue ..
    have hrest : ∀ x0, RulesKeep (rest x0) := by
      intro x0
      unfold rest
      refine .bind fun _ => ?_
      extract_lets t1 t2 t3 t4 t5
      have ht1 : Inv t1 := ht.mapTime ..
      have ht2 : Inv t2 := .ite ht1 (ht1.ownPin ..)
      have ht3 : Inv t3 := .ite ht2 (ht2.drivePin ..)
      have ht4 : Inv t4 := ht3.logEvent ..
      have ht5 : Inv t5 := .ite ht4 (ht4.mapTime ..)
      exact .ite (.done ht5) (.okDone ht3)
    have hrest1 : ∀ x0, RulesKeep (rest1 x0) := by
      intro x0
      unfold rest1
      split
      · exact .bind fun _ => hrest _
      · exact .bind fun _ => hrest _
    exact .ite (.bind fun _ => hrest1 ()) (.bind fun _ => hrest1 ())

theorem execEvtCaptureSet_keeps (i : Inv s) (c : Cmd) : StepKeeps (execEvtCaptureSet c s) := by
  unfold execEvtCaptureSet
  refine .runCmd i (.bind fun _ => .bind fun _ => .ite ?_ (.bind fun _ => .bind fun _ => .bind fun _ => .bind fun _ => ?_))
  · split
    · exact .bind fun _ => .okDone ((i.mapTime ..).freePin ..)
    · exact .error
  · extract_lets _ _ t rest rest1
    have ht : Inv t := by
      unfold t
      split
      · exact .ite i (i.freePin ..)
      · exact i.issue ..
    have hrest : ∀ x0, RulesKeep (rest x0) := by
      intro x0
      unfold rest
      extract_lets t1
      have ht1 : Inv t1 := ht.mapTime ..
      exact .okDone (.ite ht1 (ht1.ownPin ..))
    have hrest1 : ∀ x0, RulesKeep (rest1 x0) := by
      intro x0
      unfold rest1
      split
      · exact .bind fun _ => hrest _
      · exact .bind fun _ => hrest _
    exact .ite (.bind fun _ => hrest1 ()) (.bind fun _ => hrest1 ())

theorem execCaptureEdge_keeps (i : Inv s) (n : Fin 32) (rising : Bool) : StepKeeps (execCaptureEdge n rising s) := by
  unfold execCaptureEdge
  split
  · split
    · exact .next i
    · extract_lets _ put
      have hput : ∀ x0 u1 (_ : Inv u1), Inv (put x0 u1) := by
        intro x0 u1 hu1
        unfold put
        exact hu1.mapTime ..
      refine .ite (.next i) (.ite (.next (hput _ _ i)) ?_)
      split
      · exact .next i
      · exact .next ((hput _ _ i).writeMem ..)
  · exact .next i

theorem Inv.stepCompare (i : Inv s) (old new u : Nat) : Inv (s.stepCompare old new u) := by
  unfold State.stepCompare
  split
  · exact i
  · exact .ite (.mapTime (.ite (i.fire ..) i) ..) (.ite i ((i.mapCompare ..).mapTime ..))

theorem Inv.stepTo (i : Inv s) (v : Nat) : Inv (s.stepTo v) := by
  unfold State.stepTo
  extract_lets _ _ t t1
  have ht : Inv t := i.mapTime ..
  have ht1 : Inv t1 := ht.logEvent ..
  exact ((ht1.foldl (fun _ _ h => h.stepCompare ..) _).tickFresh).sendLtSyncs ..

theorem execTimeStep_keeps (i : Inv s) (c : Cmd) : StepKeeps (execTimeStep c s) := by
  unfold execTimeStep
  refine .runCmd i (.bind fun _ => .bind fun _ => .bind fun _ => .bind fun _ => ?_)
  extract_lets t
  have ht : Inv t := i.stepTo ..
  exact .okDone ht

theorem execTimeAdjustRate_keeps (i : Inv s) (c : Cmd) : StepKeeps (execTimeAdjustRate c s) :=
  .runCmd i (.bind fun _ => .bind fun _ => .bind fun _ => .okDone (i.mapTime ..))

theorem execRateRestore_keeps (i : Inv s) : StepKeeps (execRateRestore s) := by
  unfold execRateRestore
  split
  · exact .next i
  · exact .ite (.next (i.mapTime ..)) (.next i)

theorem execTimeWriteIncrement_keeps (i : Inv s) (c : Cmd) : StepKeeps (execTimeWriteIncrement c s) :=
  .runCmd i (.bind fun _ => .bind fun _ => .okDone (i.mapTime ..))

theorem execTimeSetMode_keeps (i : Inv s) (c : Cmd) : StepKeeps (execTimeSetMode c s) :=
  .runCmd i (.bind fun _ => .bind fun _ => .okDone (i.mapTime ..))

theorem Inv.mapPort (i : Inv s) (p : Fin 4) (f : PtpPort → PtpPort) : Inv (s.mapPort p f) := i.mapTime ..

theorem Inv.eventMsg {handle : State → State} (i : Inv s) (hhandle : ∀ t (_ : Inv t), Inv (handle t)) (p : Fin 4) (domain : Nat) :
    Inv (s.eventMsg p domain handle) := by
  unfold State.eventMsg
  refine .ite i (.ite (i.mapPort ..) ?_)
  extract_lets _ t
  have ht : Inv t := i.mapPort ..
  exact .ite (hhandle _ ht) ht

theorem Inv.loseLock (i : Inv s) : Inv s.loseLock := .ite ((i.mapTime ..).logEvent ..) (i.mapTime ..)

theorem Inv.lockStep (i : Inv s) (o : Int) : Inv (s.lockStep o) :=
  .ite i.loseLock (.ite (.ite ((i.mapTime ..).logEvent ..) (i.mapTime ..)) (i.mapTime ..))

theorem Inv.servo (i : Inv s) (o : Int) : Inv (s.servo o) := .ite ((i.stepTo ..).mapTime ..) (i.mapTime ..)

theorem Inv.measure (i : Inv s) (o : Int) : Inv (s.measure o) := by
  unfold State.measure
  extract_lets t
  have ht : Inv t := (i.mapTime ..).lockStep ..
  exact .ite (ht.servo ..) ht

theorem Inv.syncMeasured (i : Inv s) (p : Fin 4) (t1 t2 corr : Int) : Inv (s.syncMeasured p t1 t2 corr) :=
  .ite (((i.mapPort ..).mapTime ..).measure ..) i

theorem execSync_keeps (i : Inv s) (p : Fin 4) (domain seq : Nat) (twoStep : Bool) (t1 corr : Int) (frac : Half) :
    StepKeeps (execSync p domain seq twoStep t1 corr frac s) := by
  unfold execSync
  refine .next (i.eventMsg (fun _ h => ?_) ..)
  extract_lets _ t
  have ht : Inv t := h.mapPort ..
  exact .ite (ht.mapPort ..) (ht.syncMeasured ..)

theorem execFollowUp_keeps (i : Inv s) (p : Fin 4) (domain seq : Nat) (t1 corr : Int) : StepKeeps (execFollowUp p domain seq t1 corr s) := by
  unfold execFollowUp
  refine .ite (.next i) (.ite (.next (i.mapPort ..)) ?_)
  split
  · exact .ite (.next ((i.mapPort ..).syncMeasured ..)) (.next i)
  · exact .next i

theorem execDelayReq_keeps (i : Inv s) (p : Fin 4) (domain seq : Nat) (corr : Int) (frac : Half) :
    StepKeeps (execDelayReq p domain seq corr frac s) := by
  unfold execDelayReq
  refine .next (i.eventMsg (fun _ h => ?_) ..)
  extract_lets _ t
  have ht : Inv t := h.mapPort ..
  exact .ite (ht.emit ..) ht

theorem execDelayResp_keeps (i : Inv s) (p : Fin 4) (domain seq : Nat) (t4 corr : Int) : StepKeeps (execDelayResp p domain seq t4 corr s) := by
  unfold execDelayResp
  refine .ite (.next i) (.ite (.next (i.mapPort ..)) ?_)
  split
  · exact .ite (.next ((i.mapPort ..).mapTime ..)) (.next i)
  · exact .next i

theorem execPdelayReq_keeps (i : Inv s) (p : Fin 4) (domain seq : Nat) (corr : Int) (frac : Half) :
    StepKeeps (execPdelayReq p domain seq corr frac s) := by
  unfold execPdelayReq
  refine .next (i.eventMsg (fun _ h => ?_) ..)
  extract_lets _ t t1
  have ht : Inv t := h.mapPort ..
  have ht1 : Inv t1 := ht.emit ..
  exact .ite ht1 (ht1.emit ..)

theorem execPdelayResp_keeps (i : Inv s) (p : Fin 4) (domain seq : Nat) (twoStep : Bool) (rxPeer corr : Int) (frac : Half) :
    StepKeeps (execPdelayResp p domain seq twoStep rxPeer corr frac s) := by
  unfold execPdelayResp
  refine .next (i.eventMsg (fun _ h => ?_) ..)
  split
  · exact .ite (.ite (h.mapPort ..) (h.mapPort ..)) h
  · exact h

theorem execPdelayRespFollowUp_keeps (i : Inv s) (p : Fin 4) (domain seq : Nat) (txPeer corr : Int) :
    StepKeeps (execPdelayRespFollowUp p domain seq txPeer corr s) := by
  unfold execPdelayRespFollowUp
  refine .ite (.next i) (.ite (.next (i.mapPort ..)) ?_)
  split
  · split
    · exact .ite (.next (i.mapPort ..)) (.next i)
    · exact .next i
  · exact .next i

theorem Inv.ptpDecide (i : Inv s) : Inv s.ptpDecide := i.mapTime ..

theorem execAnnounce_keeps (i : Inv s) (p : Fin 4) (domain : Nat) (a : Announce) : StepKeeps (execAnnounce p domain a s) :=
  .ite (.next i) (.ite (.next (i.mapPort ..)) (.next ((i.mapPort ..).ptpDecide)))

theorem execPtpMessageInterval_keeps (i : Inv s) (p : Fin 4) (kind : Nat) (frac : Half) : StepKeeps (execPtpMessageInterval p kind frac s) := by
  unfold execPtpMessageInterval
  refine .ite (.next i) (.ite (.ite ?_ (.next i)) (.ite (.ite (.next (i.emit ..)) (.next i)) (.ite (.next i) (.ite (.next ((i.mapPort ..).emit ..))
    (.next i)))))
  extract_lets t
  have ht : Inv t := (i.mapPort ..).emit ..
  exact .next (.ite ht (ht.emit ..))

theorem execAnnounceTimeout_keeps (i : Inv s) (p : Fin 4) : StepKeeps (execAnnounceTimeout p s) :=
  .ite (.next (((i.loseLock.mapTime ..).mapPort ..).ptpDecide)) (.ite (.next ((i.mapPort ..).ptpDecide)) (.next i))

end Sys2Proof
end

section
/-!
SUPPORT. What keeps the invariant: the cameras, audio, Chandler, recording, Cooper and the slices. One lemma per function, after its own branches; a
function whose parts are known not to hold the bytes (its `_only` lemma) needs no more than that.
-/
namespace Sys2Proof

open Machine

variable {s : State}

/-! ### The functions of Machine/Ingest -/

theorem Inv.endPlan (i : Inv s) (cam : Nat) : Inv (s.endPlan cam) := by
  unfold State.endPlan
  extract_lets _ t
  have ht : Inv t := i.mapCam ..
  split
  · exact i
  · refine .ite i ?_
    split
    · exact ht.releaseCompare ..
    · exact ht

theorem Inv.stopIfDone (i : Inv s) (cam : Nat) : Inv (s.stopIfDone cam) := by
  unfold State.stopIfDone
  extract_lets _ _ t
  have ht : Inv t := i.runEnded ..
  split
  · exact i
  · exact .ite i (.foldl (.handOn (.jmSettle (.ite (ht.releaseCtx ..) (ht.mapCam ..)))) (fun _ _ h => h.finish ..) _)

theorem Inv.closeDropped (i : Inv s) (cam : Nat) (r : LedgerRec) (cause : Nat) : Inv (s.closeDropped cam r cause) :=
  ((((i.putRecord ..).countCam ..).frameDropped ..).post ..).endPlan ..

theorem Inv.dropFrame (i : Inv s) (cam : Nat) (f : CamFrame) (cause : Nat) : Inv (s.dropFrame cam f cause) := (i.mapCam ..).closeDropped ..

theorem Inv.acceptFrame (i : Inv s) (cam fn slot : Nat) (r : LedgerRec) : Inv (s.acceptFrame cam fn slot r) :=
  (((i.mapCam ..).countCam ..).putRecord ..).frameAccepted ..

theorem Inv.startFrame (i : Inv s) (cam sof fc : Nat) : Inv (s.startFrame cam sof fc) := by
  unfold State.startFrame
  extract_lets _ _ _ _ _ _ _ _ _ _ _ _ x _ _ _ _ _ _ t
  have hx : Inv x.1 := ((i.mapCam ..).latchBefore ..).latchAt ..
  have ht : Inv t := hx.countCam ..
  split
  · exact (ht.closeDropped ..).mapCam ..
  · exact .ite ((ht.closeDropped ..).mapCam ..) (ht.acceptFrame ..)

theorem Inv.buildProxy (i : Inv s) (cam fn k : Nat) : Inv (s.buildProxy cam fn k) := by
  unfold State.buildProxy
  split
  · exact i
  · refine i.foldl (fun _ _ h => ?_) _
    extract_lets _ _ _ _ t
    have ht : Inv t := (h.writeMem ..).writes ..
    exact .ite (ht.markMem ..) ht

theorem Inv.storeLine (i : Inv s) (cam fn e line : Nat) (bytes : List Byte) : Inv (s.storeLine cam fn e line bytes) := by
  unfold State.storeLine
  extract_lets
  split
  · exact i
  · extract_lets _ t t1
    have ht : Inv t := (i.writeMem ..).writes ..
    have ht1 : Inv t1 := ht.mapFrame ..
    exact .ite (ht1.buildProxy ..) ht1

theorem Inv.repairLine (i : Inv s) (cam fn e line : Nat) : Inv (s.repairLine cam fn e line) := by
  unfold State.repairLine
  split
  · exact i
  · exact ((i.storeLine ..).flagFrame ..).countCam ..

theorem Inv.repairTo (i : Inv s) (cam fn e upTo : Nat) : Inv (s.repairTo cam fn e upTo) := by
  unfold State.repairTo
  split
  · exact i
  · exact i.foldl (fun _ _ h => h.repairLine ..) _

theorem Inv.endArrival (i : Inv s) (cam : Nat) (early : Bool) : Inv (s.endArrival cam early) := by
  unfold State.endArrival
  extract_lets
  split
  · exact i
  · extract_lets _ t t1 t2
    have ht : Inv t := i.foldl (fun _ _ h => h.repairTo ..) _
    have ht1 : Inv t1 := ht.mapFrame ..
    have ht2 : Inv t2 := ht1.mapCam ..
    exact .ite ((ht2.flagFrame ..).countCam ..) ht2

theorem Inv.takeLine (i : Inv s) (cam e line : Nat) (bytes : List Byte) (bad : Bool) : Inv (s.takeLine cam e line bytes bad) := by
  unfold State.takeLine
  extract_lets
  split
  · exact i
  · refine .ite (.ite i ((i.flagFrame ..).countCam ..)) (.ite i ?_)
    extract_lets t
    have ht : Inv t := i.repairTo ..
    exact .ite (ht.repairLine ..) (ht.storeLine ..)

theorem Inv.flushLine (i : Inv s) (cam : Nat) (bad : Bool) : Inv (s.flushLine cam bad) := by
  unfold State.flushLine
  split
  · exact i
  · exact (i.mapCam ..).takeLine ..

theorem Inv.placeCell (i : Inv s) (cam : Nat) (h : HeldCell) (lost : Bool) : Inv (s.placeCell cam h lost) := by
  unfold State.placeCell
  extract_lets _ t u t1 t2 t3 t4
  have ht : Inv t := .ite (i.mapCam ..) i
  have hu : Inv u := (ht.flushLine ..).endArrival ..
  have ht1 : Inv t1 := .ite (.ite (hu.startFrame ..) (hu.mapCam ..)) ht
  have ht2 : Inv t2 := by
    unfold t2
    split
    · exact .ite (ht1.flushLine ..) ht1
    · exact ht1
  have ht3 : Inv t3 := by
    unfold t3
    split
    · exact ht2.mapCam ..
    · exact ht2.mapCam ..
  have ht4 : Inv t4 := .ite (ht3.flushLine ..) ht3
  exact .ite ht1 (.ite ((ht4.flushLine ..).endArrival ..) ht4)

theorem Inv.drainCells (i : Inv s) (cam n : Nat) : Inv (s.drainCells cam n) := by
  induction n generalizing s with
  | zero => exact i
  | succ n ih =>
    unfold State.drainCells
    extract_lets c
    split
    · exact i
    · split
      · exact ih ((i.mapCam ..).placeCell ..)
      · exact .ite (ih ((i.mapCam ..).countCam ..)) i

theorem Inv.discardCell (i : Inv s) (chan : Nat) : Inv (s.discardCell chan) := by
  unfold State.discardCell
  split
  · exact i.mapLane ..
  · exact i

theorem Inv.holdCell (i : Inv s) (cam : Nat) (x : PixCell) : Inv (s.holdCell cam x) := .noteIngest (.mapCam (.ite (i.countCam ..) i) ..) ..

theorem execPixelCell_keeps (i : Inv s) (chan : Fin 32) (epoch cam : Nat) (x : PixCell) : StepKeeps (execPixelCell chan epoch cam x s) := by
  unfold execPixelCell
  refine .ite (.next (i.dropStale ..)) (.ite (.next (i.discardCell ..)) ?_)
  extract_lets s1
  have hs1 : Inv s1 := .ite (i.discardCell ..) i
  exact .ite (.next hs1) (.next ((hs1.holdCell ..).drainCells ..))

theorem execTimingCell_keeps (i : Inv s) (chan : Fin 32) (epoch cam exp hubFc stamp : Nat) :
    StepKeeps (execTimingCell chan epoch cam exp hubFc stamp s) := by
  unfold execTimingCell
  refine .ite (.next (i.dropStale ..)) (.ite (.next (i.discardCell ..)) (.ite (.next i) ?_))
  extract_lets t
  have ht : Inv t := i.mapCam ..
  split
  · exact .next (ht.mapCam ..)
  · exact .next ((ht.mapRecord ..).mapCam ..)

theorem execPcpStartOfFrame_keeps (i : Inv s) (port : Fin 2) : StepKeeps (execPcpStartOfFrame port s) := by
  unfold execPcpStartOfFrame
  split
  · exact .next i
  · extract_lets t
    have ht : Inv t := i.endArrival ..
    exact .ite (.next (ht.startFrame ..)) (.next (ht.mapCam ..))

theorem execPcpLine_keeps (i : Inv s) (port : Fin 2) (exp : Nat) (pixels : List Nat) : StepKeeps (execPcpLine port exp pixels s) := by
  unfold execPcpLine
  split
  · exact .next i
  · extract_lets
    split
    · refine .next ?_
      split
      · exact .ite i ((i.flagFrame ..).countCam ..)
      · exact i
    · extract_lets _ t t1
      have ht : Inv t := (i.takeLine ..).noteIngest ..
      have ht1 : Inv t1 := .ite ht ((ht.flagFrame ..).countCam ..)
      exact .next (.ite (ht1.endArrival ..) ht1)

theorem execTriggerMissing_keeps (i : Inv s) (cam : Fin 48) : StepKeeps (execTriggerMissing cam s) := by
  unfold execTriggerMissing
  extract_lets
  split
  · exact .next i
  · extract_lets _ _ _ u
    have hu : Inv u.1 := ((i.mapCam ..).latchBefore ..).latchAt ..
    exact .next ((hu.closeDropped ..).stopIfDone ..)

/-! ### The functions of Machine/EncCmds -/

theorem execEncSessionOpen_keeps (i : Inv s) (c : Cmd) : StepKeeps (execEncSessionOpen c s) := by
  unfold execEncSessionOpen
  refine .runCmd i (.bind fun _ => .bind fun _ => .bind fun _ => .bind fun _ => .bind fun _ => .bind fun _ => .bind fun _ => .bind fun _ => .bind fun
    _ => .bind fun _ => .bind fun _ => .bind fun _ => .ite (.okDone i) (.bind fun _ => .bind fun _ => .bind fun _ => .bind fun _ => .bind fun _ =>
    ?_))
  extract_lets _ _ _ t
  have ht : Inv t := (i.issue ..).mapCam ..
  refine .okDone ?_
  exact ht.of_bytes rfl

theorem execEncSessionClose_keeps (i : Inv s) (c : Cmd) : StepKeeps (execEncSessionClose c s) := by
  unfold execEncSessionClose
  exact .runCmd i (.bind fun _ => .bind fun _ => .waits (((((i.encStopFrames ..).mapEnc ..).keepInFlight ..).encFinishClose ..).jmSettle))

theorem execEncSetRate_keeps (i : Inv s) (c : Cmd) : StepKeeps (execEncSetRate c s) := by
  unfold execEncSetRate
  exact .runCmd i (.bind fun _ => .bind fun _ => .bind fun _ => .bind fun _ => .bind fun _ => .okDone ((i.mapEnc ..).jmRates))

theorem execEncForceIdr_keeps (i : Inv s) (c : Cmd) : StepKeeps (execEncForceIdr c s) :=
  .runCmd i (.bind fun _ => .bind fun _ => .bind fun _ => .bind fun _ => .waitDone (i.mapEnc ..))

theorem execEncRefMark_keeps (i : Inv s) (c : Cmd) : StepKeeps (execEncRefMark c s) := by
  unfold execEncRefMark
  exact .runCmd i (.bind fun _ => .bind fun _ => .bind fun _ => .bind fun _ => .bind fun _ => .bind fun _ => .bind fun _ => .okDone (i.mapEnc ..))

theorem execEncPictureStart_keeps (i : Inv s) (role : Fin 8) : StepKeeps (execEncPictureStart role s) := by
  unfold execEncPictureStart
  refine .ite (.next i) ?_
  split
  · exact .next i
  · extract_lets
    split
    · exact .next ((i.mapEnc ..).requests ..)
    · exact .ite (.next ((i.mapEnc ..).logErrorPost ..)) (.next ((i.mapEnc ..).requests ..))

theorem Inv.ringPut (i : Inv s) (ring area : Nat) (pos : RingPos) (rec_ : List Byte) : Inv (s.ringPut ring area pos rec_).1 := by
  unfold State.ringPut
  split
  · exact i.writeMem ..
  · extract_lets t
    have ht : Inv t := i.writeMem ..
    exact ht.writeMem ..

theorem Inv.ringPuts (i : Inv s) (ring area : Nat) (pos : RingPos) (rs : List (List Byte)) : Inv (s.ringPuts ring area pos rs).1 :=
  List.foldlRecOn (motive := fun a : State × RingPos => Inv a.1) rs _ i fun _ h _ _ => h.ringPut ..

theorem Inv.encCommit (i : Inv s) (e : EncSession) (q : EncPic) (f : EncFrame) (role : Nat) (au : List Byte) (n : PicResult) (recon : List (List
    Nat)) :
    Inv (s.encCommit e q f role au n recon) := by
  unfold State.encCommit
  extract_lets _ _ _ g w _ t _ t1 _ t2 t3 t4 _ t5
  have hg : Inv g.1 := i.ringPuts ..
  have hw : Inv w.1 := hg.ringPut ..
  have ht : Inv t := hw.writeMem ..
  have ht1 : Inv t1 := ht.putEncStat ..
  have ht2 : Inv t2 := by
    unfold t2
    split
    · exact ht1.writeKcs ..
    · exact ht1
  have ht3 : Inv t3 := (ht2.settleTraffic ..).writes ..
  have ht4 : Inv t4 := (ht3.mapEnc ..).releaseEncFrame ..
  have ht5 : Inv t5 := ht4.foldl (fun _ _ h => h.finish ..) _
  exact ((ht5.encFinishClose ..).jmRates).jmSettle

theorem execEncPictureCommit_keeps (i : Inv s) (role : Fin 8) (payload : List Byte) (report : EncReport) (recon : List (List Nat)) :
    StepKeeps (execEncPictureCommit role payload report recon s) := by
  unfold execEncPictureCommit
  refine .ite (.next (i.dropStale ..)) ?_
  split
  · exact .next i
  · split
    · extract_lets
      split
      · exact .next i
      · exact .next (.ite (i.encCommit ..) i)
    · exact .next i

theorem execEncRingPoll_keeps (i : Inv s) : StepKeeps (execEncRingPoll s) := .next (i.mapEncs ..)

theorem execEncPictureDrop_keeps (i : Inv s) (h : Handle) : StepKeeps (execEncPictureDrop h s) := by
  unfold execEncPictureDrop
  split
  · exact .next i
  · extract_lets
    split
    · exact .ite (.next i) (.next ((((((i.putEncStat ..).releaseEncFrame ..).mapEnc ..).encFinishClose ..).jmRates).jmSettle))
    · exact .next i

theorem execEncWatchdog_keeps (i : Inv s) (role : Fin 8) : StepKeeps (execEncWatchdog role s) := .ite (.next (i.declareDead ..)) (.next i)

/-! ### The functions of Machine/AudOps -/

theorem Inv.mapAud (i : Inv s) (f : AudSt → AudSt) : Inv (s.mapAud f) := i.of_bytes rfl

theorem Inv.setPort (i : Inv s) (p : Nat) (x : Option AudPort) : Inv (s.setPort p x) := i.mapAud ..

theorem Inv.mapAport (i : Inv s) (p : Nat) (f : AudPort → AudPort) : Inv (s.mapAport p f) := i.mapAud ..

theorem Inv.putAudio (i : Inv s) (p : Nat) (y : AudBlock) (filled stop : Bool) : Inv (s.putAudio p y filled stop) := by
  unfold State.putAudio
  split
  · exact i
  · refine .ite (i.mapAport ..) ?_
    extract_lets _ _ _ _ t t1 t2
    have ht : Inv t := ((i.writeMem ..).writeMem ..).writeMem ..
    have ht1 : Inv t1 := ht.writes ..
    have ht2 : Inv t2 := ht1.mapAport ..
    exact .ite (ht2.recOffer ..) ht2

theorem Inv.closeAudio (i : Inv s) (p : Nat) (stop : Bool) : Inv (s.closeAudio p stop) := by
  unfold State.closeAudio
  split
  · exact i
  · exact (i.putAudio ..).mapAport ..

theorem Inv.captureFrame (i : Inv s) (p : Nat) (rx : List Int) : Inv (s.captureFrame p rx) := by
  unfold State.captureFrame
  split
  · exact i
  · refine .mapAport ?_ ..
    split
    · exact .ite i (i.closeAudio ..)
    · exact i

theorem Inv.playFrame (i : Inv s) (p : Nat) : Inv (s.playFrame p) := by
  unfold State.playFrame
  split
  · exact i
  · exact .ite i ((((i.emit ..).writeMem ..).reads ..).mapAport ..)

theorem Inv.endFade (i : Inv s) (p last : Nat) : Inv (s.endFade p last) := by
  unfold State.endFade
  split
  · exact i
  · split
    · exact .ite ((i.mapAport ..).foldl (fun _ _ h => h.finish ..) _) i
    · exact i

/-! ### The functions of Machine/AudCmds -/

theorem Inv.dropSlots (i : Inv s) (p : Nat) : Inv (s.dropSlots p) := i.foldl (fun _ _ h => h.finish ..) _

theorem audConfigurePort_keeps (i : Inv s) (c : Cmd) : RulesKeep (audConfigurePort c s) := by
  unfold audConfigurePort
  extract_lets _ rest
  have hrest : ∀ x0, RulesKeep (rest x0) := by
    intro x0
    unfold rest
    extract_lets rest1
    have hrest1 : ∀ x01, RulesKeep (rest1 x01) := by
      intro x01
      unfold rest1
      refine .bind fun _ => .bind fun _ => ?_
      extract_lets rest2
      have hrest2 : ∀ x02, RulesKeep (rest2 x02) := by
        intro x02
        unfold rest2
        exact .bind fun _ => .bind fun _ => .bind fun _ => .bind fun _ => .bind fun _ => .okDone (.setPort (.ite (i.issue ..) (i.dropSlots ..)) ..)
      exact .ite (.bind fun _ => .bind fun _ => hrest2 ()) (.bind fun _ => hrest2 ())
    exact .ite (.bind fun _ => hrest1 ()) (.bind fun _ => hrest1 ())
  exact .ite (.bind fun _ => hrest _) (.bind fun _ => hrest _)

theorem audConfigureClock_keeps (i : Inv s) (c : Cmd) : RulesKeep (audConfigureClock c s) := by
  unfold audConfigureClock
  extract_lets _ rest
  have hrest : ∀ x0, RulesKeep (rest x0) := by
    intro x0
    unfold rest
    extract_lets old rest1
    have hrest1 : ∀ x01, RulesKeep (rest1 x01) := by
      intro x01
      unfold rest1
      exact .bind fun _ => .bind fun _ => .bind fun _ => .bind fun _ => .bind fun _ => .okDone (.mapAud (.ite (i.issue ..) i) ..)
    exact .ite (.bind fun _ => hrest1 ()) (.bind fun _ => hrest1 ())
  exact .ite (.bind fun _ => hrest _) (.bind fun _ => hrest _)

theorem audRelease_keeps (i : Inv s) (c : Cmd) : RulesKeep (audRelease c s) := by
  unfold audRelease
  refine .bind fun _ => .bind fun _ => .bind fun _ => ?_
  split
  · exact .bind fun _ => .okDone (((i.dropSlots ..).recGone ..).setPort ..)
  · exact .bind fun _ => .okDone (i.mapAud ..)
  · exact .error

theorem execAudPortConfigure_keeps (i : Inv s) (c : Cmd) : StepKeeps (execAudPortConfigure c s) := by
  unfold execAudPortConfigure
  refine .runCmd i ?_
  split
  · exact audConfigurePort_keeps i _
  · exact audConfigureClock_keeps i _
  · exact audRelease_keeps i _
  · exact .error

theorem execAudStart_keeps (i : Inv s) (c : Cmd) : StepKeeps (execAudStart c s) := by
  unfold execAudStart
  exact .runCmd i (.bind fun _ => .bind fun _ => .bind fun _ => .bind fun _ => .bind fun _ => .bind fun _ => .waitDone (i.setPort ..))

theorem execAudStop_keeps (i : Inv s) (c : Cmd) : StepKeeps (execAudStop c s) :=
  .runCmd i (.bind fun _ => .bind fun _ => .ite (.waitDone (i.setPort ..)) (.okDone i))

theorem execAudSetSlots_keeps (i : Inv s) (c : Cmd) : StepKeeps (execAudSetSlots c s) :=
  .runCmd i (.bind fun _ => .bind fun _ => .waitDone (i.setPort ..))

theorem Inv.frameMasks (i : Inv s) (p : Nat) : Inv (s.frameMasks p) := by
  unfold State.frameMasks
  split
  · exact i
  · exact .foldl (.mapAport (.ite (i.closeAudio ..) i) ..) (fun _ _ h => h.finish ..) _

theorem Inv.dropStart (i : Inv s) (frameNo : Nat) (w : AudWait) : Inv (s.dropStart frameNo w) := by
  unfold State.dropStart
  split
  · exact i.finish ..
  · exact i

theorem Inv.frameStop (i : Inv s) (p : Nat) (y : AudStop) : Inv (s.frameStop p y) := by
  unfold State.frameStop
  split
  · exact i
  · extract_lets t done
    have ht : Inv t := by
      unfold t
      refine .ite ?_ i
      split
      · exact (i.dropStart ..).mapAport ..
      · exact (i.closeAudio ..).mapAport ..
      · exact i
    have hdone : ∀ u1 (_ : Inv u1), Inv (done u1) := by
      intro u1 hu1
      unfold done
      exact hu1.finish ..
    refine .ite ?_ (hdone _ ht)
    split
    · exact hdone _ ((ht.dropStart ..).mapAport ..)
    · exact ht.mapAport ..
    · exact ht.mapAport ..
    · exact hdone _ ht

theorem Inv.frameStart (i : Inv s) (p : Nat) : Inv (s.frameStart p) := by
  unfold State.frameStart
  split
  · exact i
  · extract_lets fin _ t
    have hfin : ∀ x0 u1 (_ : Inv u1), Inv (fin x0 u1) := by
      intro x0 u1 hu1
      unfold fin
      split
      · exact hu1.finish ..
      · exact hu1
    have ht : Inv t := by
      unfold t
      split
      · exact .ite (hfin _ _ (i.mapAport ..)) i
      · exact i
    split
    · exact .ite (hfin _ _ (ht.mapAport ..)) ht
    · exact ht

theorem Inv.frameCapture (i : Inv s) (p : Nat) (rx : List Int) : Inv (s.frameCapture p rx) := by
  unfold State.frameCapture
  split
  · exact i
  · refine .ite i ?_
    split
    · exact .ite (.ite ((i.mapAport ..).captureFrame ..) i) (.ite (i.mapAport ..) i)
    · exact i.captureFrame ..

theorem execAudioFrame_keeps (i : Inv s) (p : Fin 8) (rx : List Int) (ppm : Int) : StepKeeps (execAudioFrame p rx ppm s) := by
  unfold execAudioFrame
  split
  · exact .next i
  · exact .ite (.next i) (.next ((((((((((i.mapAport ..).frameMasks ..).mapAport ..).foldl (fun _ _ h => h.frameStop ..) _).frameStart
      ..).frameCapture ..).endFade ..).playFrame ..).endFade ..).mapAport ..))

theorem execAudioClockLoss_keeps (i : Inv s) (p : Fin 8) : StepKeeps (execAudioClockLoss p s) := by
  unfold execAudioClockLoss
  split
  · exact .next i
  · exact .ite (.next i) (.next (((i.closeAudio ..).mapAport ..).logEvent ..))

theorem execFilledBlock_keeps (i : Inv s) (p : Fin 8) : StepKeeps (execFilledBlock p s) := by
  unfold execFilledBlock
  split
  · exact .next i
  · split
    · exact .next i
    · exact .ite (.next i) (.next (.mapAport (.ite i ((i.putAudio ..).mapAport ..)) ..))

theorem execMediaClockUpdate_keeps (i : Inv s) (k : Fin 2) : StepKeeps (execMediaClockUpdate k s) := by
  unfold execMediaClockUpdate
  split
  · exact .next i
  · exact .next ((i.mapAud ..).tickFresh)

theorem execPlaybackPoll_keeps (i : Inv s) (p : Fin 8) : StepKeeps (execPlaybackPoll p s) := by
  unfold execPlaybackPoll
  split
  · exact .next i
  · exact .ite (.next i) (.next (i.mapAport ..))

/-! ### The functions of Machine/Camera -/

theorem execCamConfigure_keeps (i : Inv s) (c : Cmd) : StepKeeps (execCamConfigure c s) := by
  unfold execCamConfigure
  refine .runCmd i (.bind fun _ => ?_)
  extract_lets _ rest
  have hrest : ∀ x0, RulesKeep (rest x0) := by
    intro x0
    unfold rest
    refine .bind fun _ => ?_
    extract_lets _ _ rest1
    have hrest1 : ∀ x01, RulesKeep (rest1 x01) := by
      intro x01
      unfold rest1
      refine .bind fun _ => .bind fun _ => .bind fun _ => .bind fun _ => .bind fun _ => .bind fun _ => ?_
      split
      · exact .error
      · split
        · exact .error
        · extract_lets _ _ _ t t1
          have ht : Inv t := i.mapCam ..
          have ht1 : Inv t1 := .ite (ht.issue ..) ht
          exact .okDone ht1
    refine .ite ?_ (.ite (.bind fun _ => hrest1 ()) (.bind fun _ => hrest1 ()))
    split
    · exact .bind fun _ => hrest1 ()
    · exact .bind fun _ => hrest1 ()
  exact .ite (.bind fun _ => hrest _) (.bind fun _ => hrest _)

theorem Inv.cutPlan (i : Inv s) (cam : Nat) : Inv (s.cutPlan cam) :=
  (State.cutPlan_only (.refl [.cams, .lanes, .time, .out] s) (by simp) ..).inv (by simp) i

theorem Inv.armPlan (i : Inv s) (cam : Nat) (p : TrigPlan) : Inv (s.armPlan cam p) :=
  (State.armPlan_only (.refl [.time] s) (by simp) ..).inv (by simp) i

theorem Inv.beginPlan (i : Inv s) (cam dispatch : Nat) : Inv (s.beginPlan cam dispatch) :=
  (State.beginPlan_only (.refl [.cams, .time] s) (by simp) ..).inv (by simp) i

theorem execCamTriggerPlan_keeps (i : Inv s) (c : Cmd) : StepKeeps (execCamTriggerPlan c s) := by
  unfold execCamTriggerPlan
  refine .runCmd i (.bind fun _ => .bind fun _ => .ite (.bind fun _ => .okDone (i.cutPlan ..)) (.bind fun _ => .bind fun _ => .bind fun _ => .bind
    fun _ => ?_))
  extract_lets t _ rest
  have ht : Inv t := i.cutPlan ..
  have hrest : ∀ x0, RulesKeep (rest x0) := by
    intro x0
    unfold rest
    extract_lets _ t1 t2
    have ht1 : Inv t1 := (ht.mapCam ..).armPlan ..
    have ht2 : Inv t2 := .ite (ht1.ownPin ..) ht1
    exact .ite (.okDone ht2) (.done ht2)
  exact .bind fun _ => .ite (.bind fun _ => hrest _) (.bind fun _ => hrest _)

theorem execTriggerSend_keeps (i : Inv s) (cam : Fin 48) : StepKeeps (execTriggerSend cam s) := by
  unfold execTriggerSend
  extract_lets
  split
  · exact .next i
  · refine .ite (.next i) ?_
    extract_lets _ u
    have hu : Inv u := i.mapCam ..
    exact .next (.ite (hu.sendCtrl ..) hu)

theorem Inv.missedTriggers (i : Inv s) (cam : Nat) : Inv (s.missedTriggers cam) :=
  (State.missedTriggers_only (.refl [.cams] s) (by simp) ..).inv (by simp) i

theorem Inv.startRun (i : Inv s) (cam : Nat) (r : Option CmdRef) : Inv (s.startRun cam r) := by
  unfold State.startRun
  extract_lets
  split
  · exact (i.mapCam ..).finishOpt ..
  · exact (((i.mapCam ..).beginPlan ..).missedTriggers ..).finishOpt ..

theorem Inv.afterBind (i : Inv s) (cam : Nat) (r : Option CmdRef) : Inv (s.afterBind cam r) := by
  unfold State.afterBind
  extract_lets t t1
  have ht : Inv t := i.dropApplies ..
  have ht1 : Inv t1 := ht.mapCam ..
  exact .ite (ht1.startRun ..) (ht1.foldl (fun _ _ h => (h.mapCam ..).sendApply ..) _)

theorem Inv.startGoesOn (i : Inv s) (cam : Nat) : Inv (s.startGoesOn cam) := by
  unfold State.startGoesOn
  extract_lets
  split
  · refine .ite ?_ i
    split
    · exact (i.mapCam ..).sendApply ..
    · exact i.startRun ..
  · exact i

theorem Inv.startFails (i : Inv s) (cam : Nat) (st : Status) (r0 r1 : Nat) (logged : Bool) : Inv (s.startFails cam st r0 r1 logged) :=
  (State.startFails_only (.refl [.host, .mgmt, .cams] s) (by simp) ..).inv (by simp) i

theorem execCamStart_keeps (i : Inv s) (c : Cmd) : StepKeeps (execCamStart c s) := by
  unfold execCamStart
  refine .runCmd i (.bind fun _ => .bind fun _ => .bind fun _ => ?_)
  split
  · exact .error
  · extract_lets _ t
    have ht : Inv t := (i.mapCam ..).keepInFlight ..
    exact .ite (.waits (ht.sendBind ..)) (.waits (ht.afterBind ..))

theorem Inv.discardFrames (i : Inv s) (cam : Nat) : Inv (s.discardFrames cam).1 := by
  unfold State.discardFrames
  extract_lets _ _ t
  have ht : Inv t := i.foldl (fun _ _ h => h.dropFrame ..) _
  exact ht

theorem execCamStop_keeps (i : Inv s) (c : Cmd) : StepKeeps (execCamStop c s) := by
  unfold execCamStop
  refine .runCmd i (.bind fun _ => .bind fun _ => ?_)
  extract_lets t t1 _ d _ _ _ t2
  have ht : Inv t := i.cutPlan ..
  have ht1 : Inv t1 := .ite ((ht.releaseCtx ..).jmSettle) (ht.mapCam ..)
  have hd : Inv d.1 := by
    unfold d
    split
    · exact ht.discardFrames ..
    · exact ht
  have ht2 : Inv t2 := ((hd.mapCam ..).keepInFlight ..).stopIfDone ..
  exact .ite (.okDone ht1) (.waits ht2)

theorem Inv.sendEntries (i : Inv s) (cam : Nat) (j : SensorJob) : Inv (s.sendEntries cam j) := (i.foldl (fun _ _ h => h.sendCtrl ..) _).mapCam ..

theorem execCamSensorWrite_keeps (i : Inv s) (c : Cmd) : StepKeeps (execCamSensorWrite c s) := by
  unfold execCamSensorWrite
  refine .runCmd i (.bind fun _ => .bind fun _ => .bind fun _ => .bind fun _ => .bind fun _ => ?_)
  extract_lets _ _ t rest
  have ht : Inv t := i.mapCam ..
  have hrest : ∀ x0, RulesKeep (rest x0) := by
    intro x0
    unfold rest
    exact .bind fun _ => .ite (.waitDone ht) (.ite (.ite (.waitDone ht) (.waitDone (ht.sendBind ..))) (.waitDone (ht.sendEntries ..)))
  exact .ite (.bind fun _ => hrest ()) (.bind fun _ => hrest ())

theorem Inv.sendJobs (i : Inv s) (cam : Nat) : Inv (s.sendJobs cam) := i.foldl (fun _ _ h => h.sendEntries ..) _

theorem Inv.jobSettles (i : Inv s) (cam : Nat) (r : CmdRef) : Inv (s.jobSettles cam r) := by
  unfold State.jobSettles
  extract_lets
  split
  · exact i
  · refine .ite (.ite i ?_) (.ite (i.endJob ..) i)
    extract_lets _ t
    have ht : Inv t := i.logError ..
    exact ht.endJob ..

theorem Inv.ackEntries (i : Inv s) (cam : Nat) (r : CmdRef) (count hubFc : Nat) (bytes : List Byte) : Inv (s.ackEntries cam r count hubFc bytes) :=
  (i.mapCam ..).jobSettles ..

theorem Inv.returnReads (i : Inv s) (cam : Nat) (r : CmdRef) (first count : Nat) (entries : List Byte) :
    Inv (s.returnReads cam r first count entries) := by
  unfold State.returnReads
  split
  · exact i
  · exact i.foldl (fun _ _ h => .ite h (.ite (h.writeMem ..) (h.emit ..))) _

theorem Inv.goodAnswer (i : Inv s) (cam : Nat) (x : CtrlCell) : Inv (s.goodAnswer cam x) :=
  (State.goodAnswer_only (.refl [.cams, .lanes, .out] s) (by simp) ..).inv (by simp) i

theorem Inv.acked (i : Inv s) (cam : Nat) (x : CtrlCell) (hubFc : Nat) : Inv (s.acked cam x hubFc) := by
  unfold State.acked
  extract_lets t bound
  have ht : Inv t := i.goodAnswer ..
  have hbound : ∀ u1 (_ : Inv u1), Inv (bound u1) := by
    intro u1 hu1
    unfold bound
    exact hu1.mapCam ..
  split
  · split
    · exact ((hbound _ ht).sendJobs ..).afterBind ..
    · exact hbound _ ht
  · exact (hbound _ ht).sendJobs ..
  · exact ht.ackEntries ..
  · exact ((ht.ackApply ..).applySettles ..).startGoesOn ..
  · exact ht
  · exact ht
  · exact ht

theorem execAck_keeps (i : Inv s) (cam : Fin 48) (seq hubFc : Nat) : StepKeeps (execAck cam seq hubFc s) := by
  unfold execAck
  split
  · exact .next i
  · exact .next (i.acked ..)

theorem execReadData_keeps (i : Inv s) (cam : Fin 48) (seq hubFc : Nat) (entries : List Byte) : StepKeeps (execReadData cam seq hubFc entries s) := by
  unfold execReadData
  split
  · exact .next i
  · split
    · exact .next ((i.returnReads ..).acked ..)
    · exact .next (i.acked ..)

theorem Inv.countFail (i : Inv s) (cam : Nat) : Inv (s.countFail cam) :=
  (State.countFail_only (.refl [.cams] s) (by simp) ..).inv (by simp) i

theorem Inv.cellFails (i : Inv s) (cam : Nat) (x : CtrlCell) (executed : Nat) : Inv (s.cellFails cam x executed) := by
  unfold State.cellFails
  extract_lets _ t _ t1
  have ht : Inv t := (i.dropCtrl ..).countFail ..
  have ht1 : Inv t1 := ht.logError ..
  split
  · exact ht1.startFails ..
  · refine ht.foldl (fun _ _ h => ?_) _
    extract_lets u
    have hu : Inv u := h.logError ..
    exact hu.endJob ..
  · exact ((ht.dropWaiting ..).mapCam ..).jobSettles ..
  · extract_lets u
    have hu : Inv u := (ht.breakApply ..).applySettles ..
    exact .ite (hu.startFails ..) hu
  · exact ht.logError ..
  · exact ht.logError ..
  · exact ht.logError ..

theorem Inv.stopQuiet (i : Inv s) (discard : Bool) (cam : Nat) : Inv (s.stopQuiet discard cam) := by
  unfold State.stopQuiet
  refine .ite i ?_
  extract_lets t d
  have ht : Inv t := i.cutPlan ..
  have hd : Inv d.1 := by
    unfold d
    split
    · exact ht.discardFrames ..
    · exact ht
  exact (hd.mapCam ..).stopIfDone ..

theorem Inv.pairFenced (i : Inv s) : Inv s.pairFenced := .ite i (((i.mapPair ..).foldl (fun _ _ h => .ite (h.stopQuiet ..) h) _).post ..)

theorem Inv.cellFenced (i : Inv s) (cam : Nat) (x : CtrlCell) : Inv (s.cellFenced cam x) := by
  unfold State.cellFenced
  extract_lets _ _ t t1
  have ht : Inv t := (i.dropCtrl ..).dropStale ..
  have ht1 : Inv t1 := by
    unfold t1
    split
    · exact ht.startFails ..
    · exact ht.foldl (fun _ _ h => h.endJob ..) _
    · exact .ite (ht.endJob ..) ht
    · extract_lets u
      have hu : Inv u := ht.failApply ..
      exact .ite (hu.startFails ..) hu
    · exact ht
  exact ht1.pairFenced

theorem execNak_keeps (i : Inv s) (cam : Fin 48) (seq reason executed : Nat) : StepKeeps (execNak cam seq reason executed s) := by
  unfold execNak
  split
  · exact .next i
  · refine .ite (.next (i.cellFenced ..)) ?_
    split
    · exact .next (i.dropCtrl ..)
    · exact .next (i.cellFails ..)

theorem execControlCellResend_keeps (i : Inv s) (cam : Fin 48) (seq : Nat) : StepKeeps (execControlCellResend cam seq s) := by
  unfold execControlCellResend
  split
  · exact .next i
  · exact .ite (.next (i.resendCell ..)) (.ite (.ite (.next ((i.mapCam ..).countFail ..)) (.next i)) (.next (i.cellFails ..)))

theorem execBindTimeout_keeps (i : Inv s) (cam : Fin 48) : StepKeeps (execBindTimeout cam s) := by
  unfold execBindTimeout
  split
  · exact .next i
  · extract_lets t t1 t2
    have ht : Inv t := i.dropCtrl ..
    have ht1 : Inv t1 := .ite (ht.countFail ..) ht
    have ht2 : Inv t2 := .ite (ht1.startFails ..) ht1
    exact .next (ht2.foldl (fun _ _ h => h.endJob ..) _)

/-! ### The functions of Machine/Chandler -/

theorem Inv.mapFw (i : Inv s) (g : Firmware → Firmware) : Inv (s.mapFw g) := i.mapMgmt ..

theorem Inv.writeBootRecord (i : Inv s) : Inv s.writeBootRecord :=
  (State.writeBootRecord_only (.refl [.mgmt, .out] s) (by simp) (by simp)).inv (by simp) i

theorem execFwDownload_keeps (i : Inv s) (c : Cmd) : StepKeeps (execFwDownload c s) := by
  unfold execFwDownload
  exact .runCmd i (.bind fun _ => .bind fun _ => .bind fun _ => .bind fun _ => .bind fun _ => .okDone ((i.writeMem ..).mapFw ..))

theorem execFwCommit_keeps (i : Inv s) (c : Cmd) (sigOk verified : Bool) : StepKeeps (execFwCommit c sigOk verified s) := by
  unfold execFwCommit
  refine .runCmd i ?_
  extract_lets _ _ _ _ _ t t1
  have ht : Inv t := (i.mapFw ..).writeBootRecord
  have ht1 : Inv t1 := ht.logError ..
  split
  · exact .bind fun _ => .bind fun _ => .bind fun _ => .bind fun _ => .bind fun _ => .bind fun _ => .bind fun _ => .bind fun _ => .ite (.okDone
      (((i.mapFw ..).emit ..).writeBootRecord)) (.done ht1)
  · exact .bind fun _ => .bind fun _ => .bind fun _ => .okDone (i.mapFw ..)
  · exact .bind fun _ => .bind fun _ => .okDone (i.mapFw ..)
  · exact .error

theorem execFwActivate_keeps (i : Inv s) (c : Cmd) : StepKeeps (execFwActivate c s) := by
  unfold execFwActivate
  exact .runCmd i (.bind fun _ => .ite (.bind fun _ => .okDone ((((((i.mapFw ..).writeBootRecord).bootLanes ..).mapPower ..).clearBarriers).mapMgmt
    ..)) (.bind fun _ => .waitDone ((i.mapHost ..).setBarriers)))

theorem execActivationDrained_keeps (i : Inv s) (accepts : Bool) : StepKeeps (execActivationDrained accepts s) := by
  unfold execActivationDrained
  split
  · exact .next i
  · refine .ite (.next i) ?_
    extract_lets t t1 t2 t3
    have ht : Inv t := i.clearBarriers
    have ht1 : Inv t1 := (ht.mapFw ..).writeBootRecord
    have ht2 : Inv t2 := ht1.logEvent ..
    have ht3 : Inv t3 := ht2.post ..
    exact .ite (.next (ht.finish ..)) (.next (ht3.finish ..))

theorem execActivationDrainTimeout_keeps (i : Inv s) : StepKeeps (execActivationDrainTimeout s) := by
  unfold execActivationDrainTimeout
  split
  · exact .next i
  · exact .next (i.clearBarriers.finish ..)

theorem execTrialEnd_keeps (i : Inv s) : StepKeeps (execTrialEnd s) := .ite (.next ((i.mapFw ..).writeBootRecord)) (.next i)

theorem execChandlerRestart_keeps (i : Inv s) : StepKeeps (execChandlerRestart s) := by
  unfold execChandlerRestart
  refine .ite (.next i) ?_
  extract_lets t t1 _ _ t2 t3 _ t4
  have ht : Inv t := i.logError ..
  have ht1 : Inv t1 := ht.mapMgmt ..
  have ht2 : Inv t2 := ht1.clearBarriers.mapHost ..
  have ht3 : Inv t3 := ht2.foldl (fun _ _ h => h.finish ..) _
  have ht4 : Inv t4 := (ht3.mapFw ..).writeBootRecord
  exact .ite (.next (ht4.logErrorPost ..)) (.next ht3)

theorem Inv.sampleOne (i : Inv s) (n : Nat) (v : Int) : Inv (s.sampleOne n v) := by
  unfold State.sampleOne
  extract_lets _ _ t t1
  have ht : Inv t := i.mapMgmt ..
  have ht1 : Inv t1 := .ite (ht.logEvent ..) ht
  exact .ite (ht1.logError ..) ht1

theorem Inv.watchCore (i : Inv s) : Inv s.watchCore := by
  unfold State.watchCore
  extract_lets _ _ _ _ t t1
  have ht : Inv t := i.mapMgmt ..
  have ht1 : Inv t1 := ht.mapMgmt ..
  exact .ite (.ite (ht1.logError ..) ht1) ht

theorem execMonitorSample_keeps (i : Inv s) (values : List Int) : StepKeeps (execMonitorSample values s) :=
  .next ((i.foldl (fun _ _ h => h.sampleOne ..) _).watchCore)

theorem execHistPeriodExpiry_keeps (i : Inv s) (n : Fin 72) : StepKeeps (execHistPeriodExpiry n s) := .ite (.next i) (.next (i.mapMgmt ..))

theorem execMonConfigure_keeps (i : Inv s) (c : Cmd) : StepKeeps (execMonConfigure c s) :=
  .runCmd i (.bind fun _ => .bind fun _ => .ite (.okDone (i.mapMgmt ..)) (.bind fun _ => .okDone (i.mapMgmt ..)))

theorem execErrPolicySet_keeps (i : Inv s) (c : Cmd) : StepKeeps (execErrPolicySet c s) :=
  .runCmd i (.bind fun _ => .bind fun _ => .okDone (((i.mapMgmt ..).mapMem rfl).emit ..))

theorem execHealthRecordUpdate_keeps (i : Inv s) (powerDw : Nat) : StepKeeps (execHealthRecordUpdate powerDw s) := by
  unfold execHealthRecordUpdate
  refine .ite (.next i) ?_
  extract_lets t
  have ht : Inv t := i.mapPower ..
  exact .next (ht.mapMgmt ..)

theorem execHealthQuery_keeps (i : Inv s) (c : Cmd) : StepKeeps (execHealthQuery c s) := by
  unfold execHealthQuery
  refine .runCmd i (.bind fun _ => .bind fun _ => ?_)
  extract_lets rest
  have hrest : ∀ x0, RulesKeep (rest x0) := by
    intro x0
    unfold rest
    exact .okDone (i.writePtr ..)
  exact .ite (.bind fun _ => .bind fun _ => .bind fun _ => hrest ()) (.bind fun _ => hrest ())

theorem Inv.smbusWrite (i : Inv s) (code val : Nat) : Inv (s.smbusWrite code val) := by
  unfold State.smbusWrite
  extract_lets
  split
  · exact i.mapMgmt ..
  · exact i.mapMgmt ..
  · exact .ite (i.mapMgmt ..) i
  · exact i.mapMgmt ..
  · exact i

theorem execAlertResponse_keeps (i : Inv s) : StepKeeps (execAlertResponse s) := .ite (.next (i.emit ..)) (.next i)

theorem Inv.mctpAnswer (i : Inv s) (bs : List Byte) : Inv (s.mctpAnswer bs) := .ite (i.emit ..) i

theorem execSetEndpointId_keeps (i : Inv s) (eid : Byte) : StepKeeps (execSetEndpointId eid s) :=
  .ite (.next ((i.mapMgmt ..).mctpAnswer ..)) (.next i)

theorem execGetEndpointId_keeps (i : Inv s) : StepKeeps (execGetEndpointId s) := .next (i.mctpAnswer ..)

theorem execGetMctpVersionSupport_keeps (i : Inv s) : StepKeeps (execGetMctpVersionSupport s) := .next (i.mctpAnswer ..)

theorem execGetMessageTypeSupport_keeps (i : Inv s) : StepKeeps (execGetMessageTypeSupport s) := .next (i.mctpAnswer ..)

theorem execMctpHealthRequest_keeps (i : Inv s) : StepKeeps (execMctpHealthRequest s) := .next (i.mctpAnswer ..)

theorem execMctpMonitorRequest_keeps (i : Inv s) (n : Nat) : StepKeeps (execMctpMonitorRequest n s) := .next (i.mctpAnswer ..)

theorem execMctpLogRequest_keeps (i : Inv s) (seq : Nat) : StepKeeps (execMctpLogRequest seq s) := .next (i.mctpAnswer ..)

/-! ### The functions of Machine/RecOps -/

theorem Inv.mapSrc (i : Inv s) (h : Handle) (k : Nat) (f : RecSrc → RecSrc) : Inv (s.mapSrc h k f) := i.mapRec ..

theorem Inv.countRec (i : Inv s) (h : Handle) (f : RecCounters → RecCounters) : Inv (s.countRec h f) := i.mapRec ..

theorem Inv.hostCommit (i : Inv s) (h : Handle) : Inv (s.hostCommit h).1 := by
  unfold State.hostCommit
  split
  · exact i
  · split
    · exact i
    · extract_lets _ _ _ _ t t1
      have ht : Inv t := .ite (i.emit ..) i
      have ht1 : Inv t1 := (ht.emit ..).emit ..
      split
      · exact i
      · exact ht1.mapRec ..

theorem Inv.recDatagram (i : Inv s) (h : Handle) (dport : Nat) (data : List Byte) : Inv (s.recDatagram h dport data) := by
  unfold State.recDatagram
  split
  · exact i
  · exact ((i.ethQueue ..).tickFresh).countRec ..

theorem Inv.kxrSend (i : Inv s) (h : Handle) (bytes : List Byte) : Inv (s.kxrSend h bytes) := by
  unfold State.kxrSend
  split
  · exact i
  · exact i.foldl (fun _ _ h1 => (h1.recDatagram ..).mapRec ..) _

theorem Inv.rtpSend (i : Inv s) (h : Handle) (r : RecOut) : Inv (s.rtpSend h r) := by
  unfold State.rtpSend
  split
  · exact i
  · exact i.foldl (fun _ _ h1 => (h1.recDatagram ..).mapSrc ..) _

theorem Inv.ethDrain (i : Inv s) (h : Handle) : Inv (s.ethDrain h) := by
  unfold State.ethDrain
  split
  · exact i
  · exact i.foldl (fun _ _ h1 => .mapRec (.ite (h1.rtpSend ..) (h1.kxrSend ..)) ..) _

theorem Inv.hostDrain (i : Inv s) (h : Handle) (n : Nat) : Inv (s.hostDrain h n) := by
  induction n generalizing s with
  | zero => exact i
  | succ n ih => exact .ite (ih (i.hostCommit h)) i

theorem Inv.recDrain (i : Inv s) (h : Handle) : Inv (s.recDrain h) := by
  unfold State.recDrain
  split
  · exact i
  · split
    · exact i.hostDrain ..
    · exact i.ethDrain ..
    · exact i

theorem Inv.recStage (i : Inv s) (h : Handle) (r : RecOut) : Inv (s.recStage h r) := by
  unfold State.recStage
  split
  · exact i
  · extract_lets _ _ _ _ _ t t1 t2
    have ht : Inv t := .ite (i.writeMem ..) i
    have ht1 : Inv t1 := (ht.writeMem ..).writes ..
    have ht2 : Inv t2 := .ite (ht1.writeMem ..) ht1
    exact ht2.mapRec ..

theorem Inv.recWaits (i : Inv s) (h : Handle) : Inv (s.recWaits h) := i.mapRec ..

theorem Inv.recPump (i : Inv s) (h : Handle) (n : Nat) : Inv (s.recPump h n) := by
  induction n generalizing s with
  | zero => exact i.recDrain h
  | succ n ih =>
    unfold State.recPump
    extract_lets t
    have ht : Inv t := i.recDrain h
    split
    · exact ht
    · split
      · exact ht
      · exact .ite (ih ((ht.recStage ..).mapRec ..)) (ht.recWaits ..)

theorem Inv.recQueue (i : Inv s) (h : Handle) (rs : List RecOut) : Inv (s.recQueue h rs) := by
  unfold State.recQueue
  split
  · exact i
  · exact (i.mapRec ..).recPump ..

theorem Inv.recStore (i : Inv s) (h : Handle) (r : RecOut) (sent : Bool) : Inv (s.recStore h r sent) := by
  unfold State.recStore
  split
  · exact i
  · exact .ite i (((i.writeMem ..).writes ..).mapRec ..)

theorem Inv.recDescribe (i : Inv s) (h : Handle) : Inv (s.recDescribe h) := by
  unfold State.recDescribe
  split
  · exact i
  · exact .ite ((i.recQueue ..).mapRec ..) (i.recQueue ..)

theorem Inv.copyStore (i : Inv s) (h : Handle) (start stop : Nat) : Inv (s.copyStore h start stop) := by
  unfold State.copyStore
  split
  · exact i
  · exact (i.mapRec ..).recQueue ..

theorem Inv.openDue (i : Inv s) (h : Handle) : Inv (s.openDue h) := by
  unfold State.openDue
  split
  · exact i
  · exact (i.mapRec ..).foldl (fun _ _ h1 => (h1.recDescribe ..).copyStore ..) _

theorem Inv.recPut (i : Inv s) (h : Handle) (r : RecOut) : Inv (s.recPut h r) := by
  unfold State.recPut
  extract_lets s1
  have hs1 : Inv s1 := i.openDue ..
  split
  · exact hs1
  · extract_lets _ t
    have ht : Inv t := .ite (hs1.recStore ..) hs1
    exact .ite (ht.recQueue ..) ht

theorem Inv.closeFrag (i : Inv s) (h : Handle) : Inv (s.closeFrag h) := by
  unfold State.closeFrag
  split
  · exact i
  · exact (i.mapRec ..).foldl (fun _ _ h1 => h1.recPut ..) _

/-! ### The functions of Machine/CmpCmds -/

theorem cmpSubmit_keeps (i : Inv s) (op : Op) (expand : Bool) (c : Cmd) : RulesKeep (cmpSubmit op expand c s) := by
  unfold cmpSubmit
  refine .bind fun _ => .bind fun _ => .bind fun _ => .bind fun _ => .bind fun _ => .bind fun _ => .bind fun _ => .bind fun _ => .ite (.done i)
    (.waitDone ?_)
  exact i.of_bytes rfl

theorem execCmpJob_keeps (i : Inv s) (c : Cmd) : StepKeeps (execCmpJob c s) := .runCmd i (cmpSubmit_keeps i _ _ _)

theorem execCmpExpand_keeps (i : Inv s) (c : Cmd) : StepKeeps (execCmpExpand c s) := .runCmd i (cmpSubmit_keeps i _ _ _)

theorem Inv.stopJob (i : Inv s) (idx : Nat) (j : CmpJob) (r : CmdRef) (parts : List (List Byte)) : Inv (s.stopJob idx j r parts) :=
  ((i.tickFresh.writeMem ..).writes ..).finish ..

theorem Inv.endCompress (i : Inv s) (idx : Nat) (j : CmpJob) (r : CmdRef) : Inv (s.endCompress idx j r) := by
  unfold State.endCompress
  refine .ite (i.stopJob ..) ?_
  split
  · exact (i.undefine ..).finish ..
  · exact .ite ((i.undefine ..).finish ..) (((i.writeMem ..).writes ..).finish ..)

theorem Inv.endExpand (i : Inv s) (idx : Nat) (j : CmpJob) (r : CmdRef) : Inv (s.endExpand idx j r) := by
  unfold State.endExpand
  extract_lets fail
  have hfail : ∀ x0 x1 x2, Inv (fail x0 x1 x2) := by
    intro x0 x1 x2
    unfold fail
    exact (i.undefine ..).finish ..
  split
  · exact hfail _ _ _
  · split
    · exact hfail _ _ _
    · refine .ite (hfail _ _ _) (.ite (i.stopJob ..) ?_)
      split
      · exact hfail _ _ _
      · exact ((i.writeMem ..).writes ..).finish ..

theorem Inv.freeTapAt (i : Inv s) (h : Handle) (src : Nat) : Inv (s.freeTapAt h src) := i.of_bytes rfl

theorem Inv.mapTapPend (i : Inv s) (h : Handle) (k fn : Nat) (f : Option (List Byte) → Nat → Option (List Byte) × Nat) :
    Inv (s.mapTapPend h k fn f) :=
  i.mapSrc ..

theorem Inv.endTap (i : Inv s) (j : CmpJob) (h : Handle) (k fn attempt : Nat) : Inv (s.endTap j h k fn attempt) := by
  unfold State.endTap
  split
  · exact i.freeTapAt ..
  · exact .ite ((i.mapTapPend ..).countRec ..) (i.mapTapPend ..)

theorem Inv.endCmp (i : Inv s) (idx : Nat) (j : CmpJob) : Inv (s.endCmp idx j) := by
  unfold State.endCmp
  split
  · exact i.endCompress ..
  · exact i.endExpand ..
  · exact i.endTap ..

theorem Inv.cmpTake (i : Inv s) (idx : Nat) : Inv (s.cmpTake idx) := by
  unfold State.cmpTake
  extract_lets set
  have hset : ∀ x0 x1, Inv (set x0 x1) := by
    intro x0 x1
    unfold set
    refine .reads ?_ ..
    exact i.of_bytes rfl
  refine .ite i ?_
  split
  · exact hset _ _
  · exact hset _ _
  · exact i

theorem execCmpEngineDispatch_keeps (i : Inv s) (k : Fin 4) (done : Bool) : StepKeeps (execCmpEngineDispatch k done s) := by
  unfold execCmpEngineDispatch
  extract_lets _ t
  have ht : Inv t := by
    unfold t
    split
    · refine .ite (Inv.endCmp ?_ ..) i
      exact i.of_bytes rfl
    · exact i
  exact .next (ht.cmpTake _)

theorem execCmpEngineFault_keeps (i : Inv s) (idx : Fin 4) : StepKeeps (execCmpEngineFault idx s) := by
  unfold execCmpEngineFault
  refine .ite (.next i) (.next (.retireUnit ?_ ..))
  exact i.of_bytes rfl

/-! ### The functions of Machine/Slices -/

theorem Inv.setMark (i : Inv s) (l : Nat) (b : Bool) : Inv (s.setMark l b) := .mapMem_wf (Memory.wf_ite (Memory.mark_wf i ..) (Memory.unmark_wf i ..))

theorem Inv.putRow (i : Inv s) (r : PlaneRow) (x0 : Nat) (bytes : List Byte) (bad : Nat → Nat → Bool) : Inv (s.putRow r x0 bytes bad) :=
  (i.writeMem ..).foldl (fun _ _ h => h.setMark ..) _

theorem Inv.markRow (i : Inv s) (r : PlaneRow) (x0 x1 : Nat) (bad : Nat → Nat → Bool) : Inv (s.markRow r x0 x1 bad) :=
  i.foldl (fun _ _ h => .ite (h.setMark ..) h) _

theorem Inv.writeTap (i : Inv s) (v : Env) (ok : Bool) (rows : List Nat) (x0 x1 idx : Nat) : Inv (s.writeTap v ok rows x0 x1 idx) := by
  unfold State.writeTap
  split
  · exact i
  · refine i.foldl (fun _ _ h => ?_) _
    split
    · exact h.putRow ..
    · exact h.putRow ..
    · exact h.putRow ..

theorem Inv.writeOut (i : Inv s) (v : Env) (ok : Bool) (rows : List Nat) (x0 x1 idx : Nat) : Inv (s.writeOut v ok rows x0 x1 idx) := by
  unfold State.writeOut
  split
  · exact i
  · exact i.foldl (fun _ _ h => h.putRow ..) _

theorem Inv.writeRef (i : Inv s) (v : Env) (ok : Bool) (rows : List Nat) (x0 x1 : Nat) : Inv (s.writeRef v ok rows x0 x1) :=
  i.foldl (fun _ _ h => h.putRow ..) _

theorem Inv.markBefore (i : Inv s) (v : Env) (k x0 x1 : Nat) : Inv (s.markBefore v k x0 x1) := by
  unfold State.markBefore
  refine .ite (((i.foldl (fun _ _ h => ?_) _).foldl (fun _ _ h => h.foldl (fun _ _ h1 => h1.markRow ..) _) _).foldl (fun _ _ h => h.markRow ..) _) i
  split
  · exact .ite h (h.foldl (fun _ _ h1 => h1.markRow ..) _)
  · exact h

theorem execSliceDispatch_keeps (i : Inv s) (role : Fin 16) : StepKeeps (execSliceDispatch role s) := by
  unfold execSliceDispatch
  refine .ite (.next i) ?_
  split
  · exact .next i
  · extract_lets _ _ _ _ _ t t1
    have ht : Inv t := i.mapCams ..
    have ht1 : Inv t1 := .ite (ht.flagFrame ..) ht
    exact .next (ht1.requests ..)

theorem execSliceWatchdog_keeps (i : Inv s) (role : Fin 16) : StepKeeps (execSliceWatchdog role s) := by
  unfold execSliceWatchdog
  split
  · exact .next i
  · refine .ite (.next i) ?_
    extract_lets t
    have ht : Inv t := (i.declareDead ..).flagFrame ..
    exact .next (.ite ht (ht.requests ..))

theorem Inv.closeFrame (i : Inv s) (cam fn : Nat) : Inv (s.closeFrame cam fn) := by
  unfold State.closeFrame
  extract_lets
  split
  · exact i
  · extract_lets _ _ _ stat _ _ _ _ _ _ _ t t1 t2 t3 t4 t5 t6 t7 t8
    have ht : Inv t := by
      unfold t
      clear_value stat
      split
      · exact (i.writeMem ..).writes ..
      · exact i
    have ht1 : Inv t1 := ht.putRecord ..
    have ht2 : Inv t2 := by
      unfold t2
      refine ht1.foldl (fun _ _ h => ?_) _
      split
      · exact h.writeMem ..
      · exact h
    have ht3 : Inv t3 := by
      unfold t3
      refine ht2.foldl (fun _ _ h => ?_) _
      split
      · exact h.writeMem ..
      · exact h
    have ht4 : Inv t4 := ht3.mapCam ..
    have ht5 : Inv t5 := ht4.countCam ..
    have ht6 : Inv t6 := .ite ((ht5.logEvent ..).post ..) ht5
    have ht7 : Inv t7 := ht6.frameClosed ..
    have ht8 : Inv t8 := by
      unfold t8
      clear_value stat
      split
      · exact ht7.statsClosed ..
      · exact ht7
    exact ((ht8.endPlan ..).stopIfDone ..).jmSettle

theorem Inv.finishStripe (i : Inv s) (q : SliceJob) (poisoned : List (Nat × Nat)) : Inv (s.finishStripe q poisoned) := by
  unfold State.finishStripe
  extract_lets
  split
  · exact i
  · extract_lets _ _ _ _ _ _ _ _ _ _ _ _ _ _ t t1 t2 t3 _ _ _ _ _ _ _ _ t4 t5 t6 t7 t8 t9
    have ht : Inv t := i.markBefore ..
    have ht1 : Inv t1 := ht.foldl (fun _ _ h => h.writeTap ..) _
    have ht2 : Inv t2 := ht1.foldl (fun _ _ h => h.writeOut ..) _
    have ht3 : Inv t3 := ht2.writeRef ..
    have ht4 : Inv t4 := ht3.mapFrame ..
    have ht5 : Inv t5 := ht4.countCam ..
    have ht6 : Inv t6 := .ite ht5 (ht5.mapRecord ..)
    have ht7 : Inv t7 := .ite ht6 (ht6.flagFrame ..)
    have ht8 : Inv t8 := .ite (ht7.flagFrame ..) ht7
    have ht9 : Inv t9 := ht8.stripeWritten ..
    split
    · exact .ite (ht9.closeFrame ..) ht9
    · exact ht9

theorem execStripeDone_keeps (i : Inv s) (role : Fin 16) (errors : List SramError) (poisoned : List (Nat × Nat)) :
    StepKeeps (execStripeDone role errors poisoned s) := by
  unfold execStripeDone
  split
  · exact .next i
  · exact .ite (.next i) (.next (.sramErrors (.finishStripe (.settleTraffic (.mapCams (.ite i (i.flagFrame ..)) ..) ..) ..) ..))

end Sys2Proof
end

section
/-!
SUPPORT. What keeps the invariant: the processing, decode, display, lane calibration, Ethernet and Journeyman commands. One lemma per function, after
its own branches; a function whose parts are known not to hold the bytes (its `_only` lemma) needs no more than that.
-/
namespace Sys2Proof

open Machine

variable {s : State}

/-! ### The functions of Machine/RawCmds -/

theorem execRawSetStage_keeps (i : Inv s) (c : Cmd) : StepKeeps (execRawSetStage c s) := by
  unfold execRawSetStage
  refine .runCmd i (.bind fun _ => .bind fun _ => .bind fun _ => .bind fun _ => .bind fun _ => ?_)
  split
  · exact .error
  · extract_lets _ rest
    have hrest : ∀ x0, RulesKeep (rest x0) := by
      intro x0
      unfold rest
      exact .okDone (i.mapCam ..)
    exact .ite (.bind fun _ => .bind fun _ => .bind fun _ => .bind fun _ => .bind fun _ => hrest _) (.bind fun _ => hrest _)

theorem execRawLoadTable_keeps (i : Inv s) (c : Cmd) : StepKeeps (execRawLoadTable c s) :=
  .runCmd i (.bind fun _ => .bind fun _ => .bind fun _ => .bind fun _ => .bind fun _ => .okDone (i.mapCam ..))

theorem execRawTap_keeps (i : Inv s) (c : Cmd) : StepKeeps (execRawTap c s) := by
  unfold execRawTap
  exact .runCmd i (.bind fun _ => .bind fun _ => .bind fun _ => .bind fun _ => .ite (.okDone (i.mapCam ..)) (.ite (.okDone (i.mapCam ..)) (.bind fun
    _ => .bind fun _ => .bind fun _ => .bind fun _ => .bind fun _ => .bind fun _ => .okDone (i.mapCam ..))))

theorem execStatConfigure_keeps (i : Inv s) (c : Cmd) : StepKeeps (execStatConfigure c s) := by
  unfold execStatConfigure
  exact .runCmd i (.bind fun _ => .bind fun _ => .bind fun _ => .bind fun _ => .ite (.okDone (i.mapCam ..)) (.ite (.okDone (i.mapCam ..)) (.bind fun
    _ => .bind fun _ => .bind fun _ => .bind fun _ => .okDone (i.mapCam ..))))

/-! ### The functions of Machine/ColourCmds -/

theorem stageSet_keeps (i : Inv s) (cam : Nat) (x : CamCtx) (set : ParamSet) (r1 : Nat) : RulesKeep (stageSet s cam x set r1) := .okDone (i.mapCam ..)

theorem execClrSetMatrix_keeps (i : Inv s) (c : Cmd) : StepKeeps (execClrSetMatrix c s) :=
  .runCmd i (.bind fun _ => .bind fun _ => .bind fun _ => stageSet_keeps i _ _ _ _)

theorem execClrSetSpectral_keeps (i : Inv s) (c : Cmd) : StepKeeps (execClrSetSpectral c s) :=
  .runCmd i (.bind fun _ => .bind fun _ => .bind fun _ => .bind fun _ => stageSet_keeps i _ _ _ _)

theorem execClrLoadLut3d_keeps (i : Inv s) (c : Cmd) : StepKeeps (execClrLoadLut3d c s) := by
  unfold execClrLoadLut3d
  exact .runCmd i (.bind fun _ => .ite (.bind fun _ => .bind fun _ => stageSet_keeps i _ _ _ _) (.bind fun _ => .bind fun _ => .bind fun _ => .bind
    fun _ => stageSet_keeps i _ _ _ _))

theorem execClrLoadCurve_keeps (i : Inv s) (c : Cmd) : StepKeeps (execClrLoadCurve c s) := by
  unfold execClrLoadCurve
  exact .runCmd i (.bind fun _ => .ite (.bind fun _ => .bind fun _ => stageSet_keeps i _ _ _ _) (.bind fun _ => .bind fun _ => .bind fun _ => .bind
    fun _ => stageSet_keeps i _ _ _ _))

theorem execClrSetOutput_keeps (i : Inv s) (c : Cmd) : StepKeeps (execClrSetOutput c s) := by
  unfold execClrSetOutput
  refine .runCmd i (.bind fun _ => .bind fun _ => .bind fun _ => .bind fun _ => .ite (.okDone (i.mapCam ..)) ?_)
  split
  · exact .error
  · exact .ite (.bind fun _ => stageSet_keeps i _ _ _ _) (.bind fun _ => .bind fun _ => .bind fun _ => .bind fun _ => .bind fun _ => .okDone
      (i.mapCam ..))

/-! ### The functions of Machine/DecOps -/

theorem Inv.mapDec (i : Inv s) (h : Handle) (f : DecSession → DecSession) : Inv (s.mapDec h f) :=
  (State.mapDec_only (.refl [.dec] s) (by simp) ..).inv (by simp) i

theorem Inv.putDecOut (i : Inv s) (e : DecSession) (o : DecOut) : Inv (s.putDecOut e o) := by
  unfold State.putDecOut
  exact .trimSource (.mapDec (.writes (.writeMem (.ite (i.writeKcs ..) (i.foldl (fun _ _ h => h.foldl (fun _ _ h1 => h1.writeMem ..) _) _)) ..) ..)
    ..) ..

theorem Inv.decAdvance (i : Inv s) (h : Handle) : Inv (s.decAdvance h) :=
  (State.decAdvance_only (.refl [.dec, .host, .mgmt] s) (by simp) ..).inv (by simp) i

theorem Inv.decHalt (i : Inv s) (e : DecSession) : Inv (s.decHalt e) :=
  (((i.mapDec ..).logErrorPost ..).foldl (fun _ _ h => h.finish ..) _).decAdvance ..

/-! ### The functions of Machine/DecCmds -/

theorem execDecSessionOpen_keeps (i : Inv s) (c : Cmd) : StepKeeps (execDecSessionOpen c s) := by
  unfold execDecSessionOpen
  refine .runCmd i (.bind fun _ => .bind fun _ => .bind fun _ => .bind fun _ => .bind fun _ => .bind fun _ => .bind fun _ => .bind fun _ => .okDone
    ?_)
  extract_lets src
  have hsrc : Inv src := i.issue ..
  exact hsrc.of_bytes rfl

theorem Inv.parseChunk (i : Inv s) (h : Handle) (a n : Nat) (cut : Bool) (items : List DecItem) : Inv (s.parseChunk h a n cut items) :=
  (State.parseChunk_only (.refl [.dec, .fabric] s) (by simp) (by simp) ..).inv (by simp) i

theorem execDecSubmit_keeps (i : Inv s) (c : Cmd) (items : List DecItem) : StepKeeps (execDecSubmit c items s) := by
  unfold execDecSubmit
  refine .runCmd i (.bind fun _ => .bind fun _ => .bind fun _ => .bind fun _ => ?_)
  extract_lets _ _ _ t _ _ t1 t2 _ t3 rest
  have ht : Inv t := i.mapDec ..
  have ht1 : Inv t1 := (i.tickFresh.parseChunk ..).mapDec ..
  have ht2 : Inv t2 := i.parseChunk ..
  have ht3 : Inv t3 := .ite (ht2.mapDec ..) ht2
  have hrest : ∀ x0, RulesKeep (rest x0) := by
    intro x0
    unfold rest
    exact .bind fun _ => .bind fun _ => .ite (.okDone (i.mapDec ..)) (.ite (.ite (.done i) (.bind fun _ => .waits ((ht.keepInFlight ..).decAdvance
      ..))) (.bind fun _ => .bind fun _ => .ite (.done (ht1.decAdvance ..)) (.okDone (ht3.decAdvance ..))))
  refine .ite (.bind fun _ => hrest ()) ?_
  split
  · exact .bind fun _ => hrest ()
  · exact .bind fun _ => hrest ()

theorem execDecSessionClose_keeps (i : Inv s) (c : Cmd) : StepKeeps (execDecSessionClose c s) := by
  unfold execDecSessionClose
  refine .runCmd i (.bind fun _ => ?_)
  split
  · exact .error
  · exact .bind fun _ => .bind fun _ => .waits (((i.mapDec ..).keepInFlight ..).decAdvance ..)

theorem Inv.writeGrey (i : Inv s) (e : DecSession) (p : DecPicInfo) (slot : Nat) : Inv (s.writeGrey e p slot) := i.writeKcs ..

theorem execDecPictureStart_keeps (i : Inv s) (core : Fin 2) : StepKeeps (execDecPictureStart core s) := by
  unfold execDecPictureStart
  refine .ite (.next i) ?_
  split
  · exact .next i
  · refine .ite (.next (i.mapDec ..)) ?_
    split
    · refine .ite (.next (i.decHalt ..)) ?_
      split
      · exact .next i
      · extract_lets _ _ _ t t1
        have ht : Inv t := i.mapDec ..
        have ht1 : Inv t1 := ht.foldl (fun _ _ h => h.writeGrey ..) _
        exact .next (ht1.requests ..)
    · exact .next i

theorem Inv.decEnd (i : Inv s) (e : DecSession) (q : DecCur) (r : DecReport) : Inv (s.decEnd e q r) :=
  .ite (i.mapDec ..) (((i.writeKcs ..).writes ..).mapDec ..)

theorem execDecPictureOutput_keeps (i : Inv s) (h : Handle) (done : Option (Fin 2 × DecReport)) : StepKeeps (execDecPictureOutput h done s) := by
  unfold execDecPictureOutput
  extract_lets t
  have ht : Inv t := by
    unfold t
    split
    · split
      · exact (i.decEnd ..).decAdvance ..
      · exact i
    · exact i
  split
  · exact .next ht
  · split
    · exact .next ht
    · exact .ite (.next ht) (.next ((ht.putDecOut ..).decAdvance ..))

theorem execDecOutputSkip_keeps (i : Inv s) (h : Handle) : StepKeeps (execDecOutputSkip h s) := by
  unfold execDecOutputSkip
  split
  · exact .next i
  · split
    · exact .next i
    · exact .ite (.next i) (.next ((i.mapDec ..).decAdvance ..))

theorem execDecCloseSlotTimeout_keeps (i : Inv s) (h : Handle) : StepKeeps (execDecCloseSlotTimeout h s) := by
  unfold execDecCloseSlotTimeout
  split
  · exact .next i
  · exact .ite (.next i) (.next ((i.mapDec ..).decAdvance ..))

theorem execDecCoreFault_keeps (i : Inv s) (core : Fin 2) : StepKeeps (execDecCoreFault core s) := by
  unfold execDecCoreFault
  split
  · exact .next i
  · extract_lets _ t
    have ht : Inv t := i.retireUnit ..
    exact .next (ht.of_bytes rfl)

/-! ### The functions of Machine/DispCmds -/

theorem dispTiming_keeps (i : Inv s) (c : Cmd) : RulesKeep (dispTiming c s) := by
  unfold dispTiming
  refine .bind fun _ => .bind fun _ => .bind fun _ => .bind fun _ => ?_
  extract_lets holder _ _ _ _ _ t
  have ht : Inv t := .ite (i.issue ..) i
  split
  · clear_value holder
    split
    · exact .error
    · exact .bind fun _ => .error
  · clear_value holder
    split
    · exact .error
    · exact .bind fun _ => .waitDone (ht.mapDisp ..)

theorem dispAttributes_keeps (i : Inv s) (c : Cmd) : RulesKeep (dispAttributes c s) := by
  unfold dispAttributes
  exact .bind fun _ => .bind fun _ => .bind fun _ => .ite (.bind fun _ => .bind fun _ => .bind fun _ => .okDone (i.mapHead ..)) (.bind fun _ =>
    .okDone (i.mapHead ..))

theorem Inv.stopHead (i : Inv s) (idx : Nat) : Inv (s.stopHead idx) := by
  unfold State.stopHead
  split
  · exact i
  · extract_lets t t1 _ t2 _ t3
    have ht : Inv t := i.mapHead ..
    have ht1 : Inv t1 := ht.foldl (fun _ _ h => h.finish ..) _
    have ht2 : Inv t2 := ht1.foldl (fun _ _ h => h.finish ..) _
    have ht3 : Inv t3 := ht2.mapDisp ..
    exact ht3.foldl (fun _ _ h => h.finish ..) _

theorem dispStop_keeps (i : Inv s) (c : Cmd) : RulesKeep (dispStop c s) := by
  unfold dispStop
  refine .bind fun _ => .bind fun _ => .bind fun _ => .bind fun _ => ?_
  extract_lets _ t
  have ht : Inv t := (i.keepInFlight ..).mapHead ..
  exact .waits (.ite (ht.stopHead ..) ht)

theorem dispRelease_keeps (i : Inv s) (c : Cmd) : RulesKeep (dispRelease c s) := by
  unfold dispRelease
  exact .bind fun _ => .bind fun _ => .bind fun _ => .bind fun _ => .bind fun _ => .okDone ((i.foldl (fun _ _ h => h.finish ..) _).mapDisp ..)

theorem dispWbRelease_keeps (i : Inv s) (c : Cmd) : RulesKeep (dispWbRelease c s) := .bind fun _ => .bind fun _ => .okDone (i.mapHead ..)

theorem execDispSetTiming_keeps (i : Inv s) (c : Cmd) : StepKeeps (execDispSetTiming c s) := by
  unfold execDispSetTiming
  refine .runCmd i (.bind fun _ => .bind fun _ => .bind fun _ => ?_)
  split
  · exact dispTiming_keeps i _
  · exact dispAttributes_keeps i _
  · exact dispStop_keeps i _
  · exact dispRelease_keeps i _
  · exact dispWbRelease_keeps i _
  · exact .error

theorem execDispLayerSet_keeps (i : Inv s) (c : Cmd) : StepKeeps (execDispLayerSet c s) := by
  unfold execDispLayerSet
  refine .runCmd i (.bind fun _ => .bind fun _ => .bind fun _ => .bind fun _ => .bind fun _ => .bind fun _ => .bind fun _ => .bind fun _ => ?_)
  extract_lets _ _ t
  have ht : Inv t := .ite ((i.issue ..).mapDisp ..) (i.mapLayer ..)
  split
  · exact .error
  · refine .bind fun _ => .okDone ?_
    split
    · exact ht.bindLayer ..
    · exact ht

theorem execDispCommit_keeps (i : Inv s) (c : Cmd) : StepKeeps (execDispCommit c s) := by
  unfold execDispCommit
  refine .runCmd i (.bind fun _ => .bind fun _ => .bind fun _ => .bind fun _ => ?_)
  extract_lets
  split
  · exact .error
  · exact .bind fun _ => .bind fun _ => .waitDone (i.mapHead ..)

theorem execDispLoadCoef_keeps (i : Inv s) (c : Cmd) : StepKeeps (execDispLoadCoef c s) := by
  unfold execDispLoadCoef
  refine .runCmd i (.bind fun _ => .bind fun _ => .bind fun _ => ?_)
  split
  · exact .error
  · extract_lets t
    have ht : Inv t := i.mapDisp ..
    exact .ite (.okDone ht) (.waitDone (ht.mapDisp ..))

theorem execDispCrcSet_keeps (i : Inv s) (c : Cmd) : StepKeeps (execDispCrcSet c s) :=
  .runCmd i (.bind fun _ => .bind fun _ => .bind fun _ => .okDone (i.mapHead ..))

theorem execDispClone_keeps (i : Inv s) (c : Cmd) : StepKeeps (execDispClone c s) := by
  unfold execDispClone
  refine .runCmd i (.bind fun _ => ?_)
  extract_lets _ t arm
  have ht : Inv t := by
    unfold t
    split
    · exact i.finish ..
    · exact i
  have harm : ∀ x0, RulesKeep (arm x0) := by
    intro x0
    unfold arm
    exact .waitDone (ht.mapHead ..)
  exact .ite (.ite (harm _) (.okDone i)) (.bind fun _ => .bind fun _ => .bind fun _ => .bind fun _ => .bind fun _ => .bind fun _ => harm _)

/-! ### The functions of Machine/DispHeads -/

theorem Inv.sendHead (i : Inv s) (idx kind : Nat) (payload : List Byte) : Inv (s.sendHead idx kind payload) := by
  unfold State.sendHead
  split
  · exact i
  · exact .ite ((i.mapChan ..).emitOn ..) i

theorem Inv.sendMode (i : Inv s) (idx : Nat) : Inv (s.sendMode idx) := by
  unfold State.sendMode
  split
  · exact i
  · exact (i.sendHead ..).mapHead ..

theorem Inv.sendFrameTime (i : Inv s) (idx : Nat) : Inv (s.sendFrameTime idx) := by
  unfold State.sendFrameTime
  split
  · exact i
  · exact i.sendHead ..

theorem Inv.sendPixels (i : Inv s) (idx flags off : Nat) (data : List Byte) : Inv (s.sendPixels idx flags off data) := by
  unfold State.sendPixels
  split
  · exact i
  · exact (i.sendHead ..).mapHead ..

theorem Inv.sendLine (i : Inv s) (idx : Nat) (data : List Byte) : Inv (s.sendLine idx data) := by
  unfold State.sendLine
  refine i.foldl (fun _ _ h => ?_) _
  split
  · exact h
  · exact h.sendPixels ..

theorem Inv.wbFinish (i : Inv s) (idx : Nat) : Inv (s.wbFinish idx) := by
  unfold State.wbFinish
  split
  · exact i
  · split
    · exact i
    · exact ((i.writeMem ..).mapHead ..).trimSource ..

theorem Inv.wbLine (i : Inv s) (idx y : Nat) (line : List (Nat × Nat × Nat)) : Inv (s.wbLine idx y line) := by
  unfold State.wbLine
  split
  · exact i
  · split
    · exact i
    · extract_lets _ _ _ _ _ _ t _ _ t1
      have ht : Inv t := i.writeMem ..
      have ht1 : Inv t1 := by
        unfold t1
        split
        · exact .ite (ht.writeMem ..) ht
        · exact i.writeMem ..
        · exact i.foldl (fun _ _ h => h.writeMem ..) _
      exact (ht1.requests ..).mapHead ..

theorem Inv.wbTake (i : Inv s) (idx : Nat) : Inv (s.wbTake idx) := by
  unfold State.wbTake
  split
  · exact i
  · extract_lets t
    have ht : Inv t := i.mapHead ..
    refine .ite ht ?_
    split
    · exact ht.countHead ..
    · exact ht.mapHead ..

theorem Inv.latchLayer (i : Inv s) (armed : List ArmedSet) (x : Handle × List Byte) : Inv (s.latchLayer armed x) := by
  unfold State.latchLayer
  split
  · exact i
  · exact .ite ((i.foldl (fun _ _ h => h.unbindLayer ..) _).mapDisp ..) ((i.foldl (fun _ _ h => h.unbindLayer ..) _).mapLayer ..)

theorem Inv.latchSets (i : Inv s) (idx : Nat) : Inv (s.latchSets idx) := by
  unfold State.latchSets
  split
  · exact i
  · extract_lets
    split
    · exact i
    · exact ((i.mapHead ..).foldl (fun _ _ h => h.latchLayer ..) _).foldl (fun _ _ h => h.finish ..) _

theorem Inv.liveEvent (i : Inv s) (idx : Nat) (lh : Handle) (back : Bool) : Inv (s.liveEvent idx lh back) :=
  .ite (i.post ..) ((i.countHead ..).post ..)

theorem Inv.flagRepeated (i : Inv s) (idx : Nat) (l : DispLayer) : Inv (s.flagRepeated idx l) := (i.mapHead ..).countHead ..

theorem Inv.chooseBuffered (i : Inv s) (idx : Nat) (l : DispLayer) (r : SrcRef) : Inv (s.chooseBuffered idx l r) := by
  unfold State.chooseBuffered
  refine .ite ?_ (.ite ((i.mapLayer ..).flagRepeated ..) (.ite (i.flagRepeated ..) i))
  extract_lets _ new new1
  have hnew : Inv new := i.mapLayer ..
  have hnew1 : Inv new1 := hnew.trimLayer ..
  exact .ite (hnew1.flagRepeated ..) hnew1

theorem Inv.chooseLive (i : Inv s) (idx : Nat) (l : DispLayer) (r : SrcRef) : Inv (s.chooseLive idx l r) := by
  unfold State.chooseLive
  split
  · exact i
  · extract_lets _ _ _ slot cfg s1
    have hs1 : Inv s1 := i.mapHead ..
    refine .ite hs1 ?_
    clear_value slot cfg
    split
    · exact (hs1.mapLayer ..).trimLayer ..
    · exact .ite (hs1.flagRepeated ..) hs1

theorem Inv.liveMode (i : Inv s) (idx : Nat) (h : DispHead) (l : DispLayer) (b : List Byte) : Inv (s.liveMode idx h l b) := by
  unfold State.liveMode
  extract_lets _ _ _ _ _ t
  have ht : Inv t := i.mapLayer ..
  exact .ite (.ite ht (ht.liveEvent ..)) (.ite (ht.liveEvent ..) (.ite (ht.liveEvent ..) ht))

theorem Inv.chooseLayer (i : Inv s) (idx : Nat) (lh : Handle) : Inv (s.chooseLayer idx lh) := by
  unfold State.chooseLayer
  split
  · split
    · exact i
    · extract_lets _ s1 t t1
      have hs1 : Inv s1 := i.mapLayer ..
      have ht : Inv t := hs1.liveMode ..
      have ht1 : Inv t1 := by
        unfold t1
        split
        · split
          · exact hs1.mapLayer ..
          · exact hs1.mapLayer ..
        · exact hs1.mapLayer ..
        · refine .ite ?_ ((hs1.mapLayer ..).chooseBuffered ..)
          split
          · exact .ite (ht.chooseLive ..) (ht.chooseBuffered ..)
          · exact ht
        · exact (hs1.mapLayer ..).chooseBuffered ..
        · exact hs1.mapLayer ..
      exact .ite ht1 (ht1.mapLayer ..)
  · exact i

theorem Inv.recheckLayer (i : Inv s) (t : List Byte) (lh : Handle) : Inv (s.recheckLayer t lh) := by
  unfold State.recheckLayer
  split
  · exact i
  · split
    · exact i
    · exact .ite ((i.mapLayer ..).logErrorPost ..) i

theorem Inv.showFrame (i : Inv s) (idx : Nat) (first : Bool) : Inv (s.showFrame idx first) := by
  unfold State.showFrame
  split
  · exact i
  · extract_lets _ _ t t1 t2 t3 _ t4 t5
    have ht : Inv t := i.mapHead ..
    have ht1 : Inv t1 := ht.foldl (fun _ _ h => h.finish ..) _
    have ht2 : Inv t2 := by
      unfold t2
      split
      · exact ht1.finish ..
      · exact ht1
    have ht3 : Inv t3 := ht2.latchSets ..
    have ht4 : Inv t4 := .ite (ht3.foldl (fun _ _ h => h.recheckLayer ..) _) ht3
    have ht5 : Inv t5 := ht4.foldl (fun _ _ h => h.chooseLayer ..) _
    exact ht5.wbTake ..

theorem Inv.measureHead (i : Inv s) (idx : Nat) (err : Int) : Inv (s.measureHead idx err) := by
  unfold State.measureHead
  split
  · exact i
  · extract_lets _ _ _ _ _ t t1
    have ht : Inv t := i.mapHead ..
    have ht1 : Inv t1 := .ite (ht.countHead ..) ht
    exact .ite (ht1.logEvent ..) ht1

theorem Inv.latchBanks (i : Inv s) (idx : Nat) : Inv (s.latchBanks idx) := by
  unfold State.latchBanks
  extract_lets t _ t1
  have ht : Inv t := i.mapDisp ..
  have ht1 : Inv t1 := ht.mapDisp ..
  exact ht1.foldl (fun _ _ h => h.finish ..) _

theorem Inv.beginFrame (i : Inv s) (idx : Nat) : Inv (s.beginFrame idx) := by
  unfold State.beginFrame
  split
  · exact i
  · extract_lets _ _ _ _ t t1 t2
    have ht : Inv t := (i.mapHead ..).latchBanks ..
    have ht1 : Inv t1 := ht.sendFrameTime ..
    have ht2 : Inv t2 := .ite (ht1.sendMode ..) ht1
    exact .ite ht2 (ht2.showFrame ..)

theorem Inv.beginTarget (i : Inv s) (src : Nat) (timing : List Byte) (mode locked : Bool) (idx : Nat) :
    Inv (s.beginTarget src timing mode locked idx) := by
  unfold State.beginTarget
  split
  · exact i
  · refine .ite (i.stopHead ..) ?_
    extract_lets _ t t1 t2
    have ht : Inv t := i.mapHead ..
    have ht1 : Inv t1 := (i.mapHead ..).beginFrame ..
    have ht2 : Inv t2 := by
      unfold t2
      split
      · exact ht1.finish ..
      · exact ht1
    split
    · exact .ite ((i.mapHead ..).beginFrame ..) ((ht.beginFrame ..).mapHead ..)
    · exact ht2.finish ..
    · exact (ht.beginFrame ..).mapHead ..

theorem execHeadFrameStart_keeps (i : Inv s) (idx : Fin 4) : StepKeeps (execHeadFrameStart idx s) := by
  unfold execHeadFrameStart
  split
  · exact .next i
  · refine .ite (.next i) (.ite (.next (i.stopHead ..)) (.ite (.next (i.mapHead ..)) (.ite (.next ((i.measureHead ..).mapHead ..)) ?_)))
    extract_lets t _ t1 t2
    have ht : Inv t := .ite (i.measureHead ..) i
    have ht1 : Inv t1 := ht.beginFrame ..
    have ht2 : Inv t2 := by
      unfold t2
      split
      · exact (ht1.mapHead ..).finish ..
      · exact ht1
    exact .next (ht2.foldl (fun _ _ h => h.beginTarget ..) _)

theorem Inv.fetchLayer (i : Inv s) (idx y : Nat) (lh : Handle) : Inv (s.fetchLayer idx y lh) := by
  unfold State.fetchLayer
  split
  · exact i
  · split
    · exact i
    · exact .ite i (.ite (i.mapLayer ..) (.ite (i.mapLayer ..) (((i.mapLayer ..).mapHead ..).countHead ..)))

theorem Inv.concealLayer (i : Inv s) (idx y : Nat) (lh : Handle) : Inv (s.concealLayer idx y lh) := by
  unfold State.concealLayer
  split
  · exact i
  · split
    · exact i
    · exact .ite ((i.mapHead ..).countHead ..) i

theorem Inv.readLayer (i : Inv s) (idx y : Nat) (lh : Handle) : Inv (s.readLayer idx y lh) := by
  unfold State.readLayer
  extract_lets t
  have ht : Inv t := i.fetchLayer ..
  split
  · exact ht.requests ..
  · exact ht

theorem Inv.crcResults (i : Inv s) (idx : Nat) : Inv (s.crcResults idx) := by
  unfold State.crcResults
  split
  · exact i
  · exact (i.mapHead ..).foldl (fun _ _ h => h.logErrorPost ..) _

theorem Inv.putLine (i : Inv s) (idx : Nat) (line : List (Nat × Nat × Nat)) (behind : Bool) : Inv (s.putLine idx line behind) := by
  unfold State.putLine
  split
  · exact i
  · extract_lets _ t t1 t2 t3
    have ht : Inv t := i.sendLine ..
    have ht1 : Inv t1 := ht.mapHead ..
    have ht2 : Inv t2 := .ite ht1 (.ite ((ht1.mapHead ..).countHead ..) (ht1.wbLine ..))
    have ht3 : Inv t3 := ht2.mapHead ..
    exact .ite ((ht3.crcResults ..).wbFinish ..) ht3

theorem Inv.putBlank (i : Inv s) (idx : Nat) : Inv (s.putBlank idx) := by
  unfold State.putBlank
  split
  · exact i
  · exact (i.sendPixels ..).mapHead ..

theorem Inv.abortFrame (i : Inv s) (idx : Nat) : Inv (s.abortFrame idx) := ((((i.sendPixels ..).mapHead ..).countHead ..).mapRegs ..).wbFinish ..

theorem execHeadLineSend_keeps (i : Inv s) (k : Fin 4) (ready behind : Bool) : StepKeeps (execHeadLineSend k ready behind s) := by
  unfold execHeadLineSend
  split
  · exact .next i
  · refine .ite (.next i) ?_
    extract_lets targets each
    have heach : ∀ f u, (∀ j v, Inv v → Inv (f j v)) → Inv u → Inv (each f u) := fun f u hf hu =>
      hu.foldl (fun v j hv => .ite (hv.putBlank _) (hf j v hv)) _
    refine .ite (.next (heach _ _ (fun _ _ h => h.putBlank _) (i.putBlank _))) (.ite (.next (heach _ _ (fun _ _ h => h.abortFrame _) (i.abortFrame
      _))) ?_)
    exact .next (heach _ _ (fun _ _ h => h.putLine ..)
      (((i.foldl (fun _ _ h => h.readLayer ..) _).foldl (fun _ _ h => h.concealLayer ..) _).putLine ..))

theorem execLiveAddrWrite_keeps (i : Inv s) (idx : Fin 4) (k : Fin 8) (half : Option Bool) (v : DWord) :
    StepKeeps (execLiveAddrWrite idx k half v s) :=
  .ite (.next (i.mapRegs ..)) (.next ((i.mapRegs ..).countHead ..))

theorem execFrameCountRead_keeps (i : Inv s) (idx : Fin 4) : StepKeeps (execFrameCountRead idx s) := by
  unfold execFrameCountRead
  split
  · exact .next (i.emit ..)
  · exact .next ((i.mapRegs ..).emit ..)

theorem execDisplayMode_keeps (i : Inv s) (idx : Fin 4) : StepKeeps (execDisplayMode idx s) := by
  unfold execDisplayMode
  split
  · exact .next i
  · exact .ite (.next (i.sendMode ..)) (.next i)

/-! ### The functions of Machine/LaneCal -/

theorem Inv.laneMargin (i : Inv s) (l : Nat) : Inv (s.laneMargin l) := (i.mapLane ..).post ..

theorem Inv.deferCal (i : Inv s) (l : Nat) : Inv (s.deferCal l) := .ite i ((i.mapLane ..).laneMargin ..)

theorem Inv.rotate (i : Inv s) (c src dst : Nat) (dead : Bool) : Inv (s.rotate c src dst dead) := by
  unfold State.rotate
  extract_lets t t1
  have ht : Inv t := i.mapQuad ..
  have ht1 : Inv t1 := ht.mapLane ..
  exact (ht1.train ..).train ..

theorem Inv.carry (i : Inv s) (c l : Nat) : Inv (s.carry c l) := ((i.mapChan ..).mapLane ..).mapTime ..

theorem Inv.retryDeferred (i : Inv s) (q : Nat) : Inv (s.retryDeferred q) := by
  unfold State.retryDeferred
  split
  · exact i
  · refine .ite i ?_
    extract_lets
    split
    · exact i
    · split
      · exact i.rotate ..
      · exact i

theorem Inv.failLaneCmds (i : Inv s) (l : Nat) : Inv (s.failLaneCmds l) := by
  unfold State.failLaneCmds
  extract_lets _ t _ t1
  have ht : Inv t := i.mapLane ..
  have ht1 : Inv t1 := by
    unfold t1
    split
    · exact ht.finish ..
    · exact ht
  split
  · exact ht1.finish ..
  · exact ht1

theorem Inv.camerasOff (i : Inv s) (c : Nat) : Inv (s.camerasOff c) := i.foldl (fun _ _ h => .ite (h.resendAll ..) h) _

theorem Inv.cancelRotation (i : Inv s) (q : Nat) : Inv (s.cancelRotation q) := by
  unfold State.cancelRotation
  split
  · exact i
  · exact (i.mapQuad ..).deferCal ..

theorem Inv.rehome (i : Inv s) (c dead : Nat) : Inv (s.rehome c dead) := by
  unfold State.rehome
  extract_lets _ t t1 t2 t3 t4
  have ht : Inv t := i.mapChan ..
  have ht1 : Inv t1 := (ht.mapQuad ..).mapLane ..
  have ht2 : Inv t2 := (ht.mapChan ..).mapLane ..
  have ht3 : Inv t3 := ht2.mapLanes ..
  have ht4 : Inv t4 := ht3.mapMgmt ..
  split
  · exact ((ht.rotate ..).mapMgmt ..).post ..
  · exact (((ht1.carry ..).laneVerified ..).mapMgmt ..).post ..
  · exact (ht4.logErrorPost ..).camerasOff ..

theorem Inv.overlapEnd (i : Inv s) (q : Nat) : Inv (s.overlapEnd q) := by
  unfold State.overlapEnd
  split
  · exact i
  · exact ((i.carry ..).mapLane ..).mapQuad ..

theorem Inv.laneDead (i : Inv s) (l code : Nat) : Inv (s.laneDead l code) := by
  unfold State.laneDead
  extract_lets _ _ rot _ t t1 spareLost
  have ht : Inv t := (i.mapLane ..).logError ..
  have ht1 : Inv t1 := ht.failLaneCmds ..
  have hspareLost : ∀ u (_ : Inv u), Inv (spareLost u) := by
    intro u hu
    unfold spareLost
    exact hu.mapQuad ..
  split
  · split
    · clear_value rot
      split
      · exact ht1.rehome ..
      · exact .ite (.ite (ht1.mapQuad ..) ((((ht1.mapChan ..).rotate ..).mapMgmt ..).post ..)) (.ite ((hspareLost _ ht1).cancelRotation ..) ht1)
    · clear_value rot
      split
      · exact ht1.rehome ..
      · exact .ite (.ite (ht1.mapQuad ..) ((((ht1.mapChan ..).rotate ..).mapMgmt ..).post ..)) (.ite ((hspareLost _ ht1).cancelRotation ..) (.ite
          ((ht1.cancelRotation ..).rehome ..) (.ite ((ht1.overlapEnd ..).rehome ..) (ht1.rehome ..))))
  · split
    · clear_value rot
      split
      · exact hspareLost _ ht1
      · exact .ite (.ite (ht1.mapQuad ..) ((((ht1.mapChan ..).rotate ..).mapMgmt ..).post ..)) (.ite ((hspareLost _ ht1).cancelRotation ..) ht1)
    · clear_value rot
      split
      · exact hspareLost _ ht1
      · exact .ite (.ite (ht1.mapQuad ..) ((((ht1.mapChan ..).rotate ..).mapMgmt ..).post ..)) (.ite ((hspareLost _ ht1).cancelRotation ..) (.ite
          ((ht1.cancelRotation ..).rehome ..) (.ite ((ht1.overlapEnd ..).rehome ..) (ht1.rehome ..))))

theorem execLaneDeath_keeps (i : Inv s) (n : Fin 32) : StepKeeps (execLaneDeath n s) := .ite (.next (i.laneDead ..)) (.next i)

theorem Inv.askRate (i : Inv s) (l rate : Nat) : Inv (s.askRate l rate) := (i.mapLane ..).train ..

theorem execCapability_keeps (i : Inv s) (n : Fin 32) (rates role : Nat) : StepKeeps (execCapability n rates role s) := by
  unfold execCapability
  refine .ite (.next i) (.ite (.next (i.logError ..)) ?_)
  extract_lets _ t
  have ht : Inv t := i.mapLane ..
  exact .ite (.next ht) (.next (ht.askRate ..))

theorem execCapabilityInterval_keeps (i : Inv s) (n : Fin 32) : StepKeeps (execCapabilityInterval n s) := .ite (.next (i.train ..)) (.next i)

theorem Inv.adapt (i : Inv s) (l rate : Nat) : Inv (s.adapt l rate) := i.mapLane ..

theorem execRateRequest_keeps (i : Inv s) (n : Fin 32) (rate : Nat) : StepKeeps (execRateRequest n rate s) :=
  .ite (.next ((i.train ..).adapt ..)) (.next i)

theorem execRateAck_keeps (i : Inv s) (n : Fin 32) (rate : Nat) : StepKeeps (execRateAck n rate s) := .ite (.next (i.adapt ..)) (.next i)

theorem Inv.measured (i : Inv s) (l : Nat) (m : LaneMeasure) : Inv (s.measured l m) := i.mapLane ..

theorem Inv.stepFailed (i : Inv s) (l : Nat) : Inv (s.stepFailed l) := by
  unfold State.stepFailed
  extract_lets _ t t1
  have ht : Inv t := i.mapLane ..
  have ht1 : Inv t1 := by
    unfold t1
    split
    · exact ht.finish ..
    · exact ht
  split
  · exact ((ht1.logError ..).mapLane ..).failLaneCmds ..
  · exact ht1

theorem execRateStepVerified_keeps (i : Inv s) (n : Fin 32) (ber : Word) (uncorr snr eye : Nat) (values : List Byte) :
    StepKeeps (execRateStepVerified n ber uncorr snr eye values s) := by
  unfold execRateStepVerified
  extract_lets _ _ t
  have ht : Inv t := (i.mapLane ..).laneMargin ..
  split
  · refine .ite ?_ (.ite (.next (ht.stepFailed ..)) (.next ((ht.laneUp ..).retryDeferred ..)))
    extract_lets t1
    have ht1 : Inv t1 := (i.mapLane ..).measured ..
    exact .ite (.next (ht1.askRate ..)) (.next ((ht1.laneUp ..).retryDeferred ..))
  · exact .next i

theorem execRotate_keeps (i : Inv s) (n : Fin 32) (chan toLane : Nat) : StepKeeps (execRotate n chan toLane s) := by
  unfold execRotate
  split
  · exact .next i
  · exact .ite (.next (i.train ..)) (.next i)

theorem execRotateAck_keeps (i : Inv s) (n : Fin 32) (chan : Nat) : StepKeeps (execRotateAck n chan s) := by
  unfold execRotateAck
  split
  · exact .next i
  · exact .ite (.next (i.mapQuad ..)) (.next i)

theorem execRotationOverlapEnd_keeps (i : Inv s) (q : Fin 8) (frac : Half) : StepKeeps (execRotationOverlapEnd q frac s) := by
  unfold execRotationOverlapEnd
  split
  · exact .ite (.next ((i.overlapEnd ..).sendLtSync ..)) (.next i)
  · exact .next i

theorem Inv.calInPlace (i : Inv s) (l : Nat) : Inv (s.calInPlace l) := i.mapLane ..

theorem execCalibrationDue_keeps (i : Inv s) (n : Fin 32) : StepKeeps (execCalibrationDue n s) := by
  unfold execCalibrationDue
  refine .ite (.next i) ?_
  split
  · exact .next (.ite (i.calInPlace ..) i)
  · exact .next (.ite (i.calInPlace ..) (i.deferCal ..))
  · split
    · exact .ite (.next i) (.next (i.rotate ..))
    · exact .next (i.deferCal ..)
  · exact .next i

theorem Inv.calibrated (i : Inv s) (l : Nat) (m : LaneMeasure) : Inv (s.calibrated l m) := by
  unfold State.calibrated
  extract_lets _ _ _ t t1
  have ht : Inv t := (i.measured ..).mapLane ..
  have ht1 : Inv t1 := .ite (ht.mapQuad ..) ht
  exact (ht1.laneVerified ..).retryDeferred ..

theorem execCalibrationDone_keeps (i : Inv s) (n : Fin 32) (ber : Word) (uncorr snr eye : Nat) (values : List Byte) :
    StepKeeps (execCalibrationDone n ber uncorr snr eye values s) := by
  unfold execCalibrationDone
  exact .ite (.next i) (.ite (.next (i.calibrated ..)) (.ite (.next (i.mapLane ..)) (.next ((i.mapLane ..).laneDead ..))))

theorem execInplaceDeferralExpiry_keeps (i : Inv s) (n : Fin 32) : StepKeeps (execInplaceDeferralExpiry n s) :=
  .ite (.next (i.calInPlace ..)) (.next i)

theorem execLaneQualityUpdate_keeps (i : Inv s) (n : Fin 32) (snr eye : Nat) (ber : Word) (corr uncorr : Nat) :
    StepKeeps (execLaneQualityUpdate n snr eye ber corr uncorr s) := by
  unfold execLaneQualityUpdate
  refine .ite (.next i) ?_
  extract_lets _ t
  have ht : Inv t := i.mapLane ..
  exact .next (.ite (ht.laneMargin ..) ht)

theorem execCodewordLock_keeps (i : Inv s) (n : Fin 32) : StepKeeps (execCodewordLock n s) := .ite (.next i) (.next (i.mapLane ..))

theorem execCodewordLockLoss_keeps (i : Inv s) (n : Fin 32) (cells : Nat) : StepKeeps (execCodewordLockLoss n cells s) :=
  .ite (.next (i.mapLane ..)) (.next i)

theorem execCellLock_keeps (i : Inv s) (n : Fin 32) : StepKeeps (execCellLock n s) := .ite (.next i) (.next (i.mapLane ..))

theorem execCellLockLoss_keeps (i : Inv s) (n : Fin 32) (cells : Nat) : StepKeeps (execCellLockLoss n cells s) :=
  .ite (.next (i.mapLane ..)) (.next i)

theorem execCalValWrite_keeps (i : Inv s) (n : Fin 32) (word : Fin 128) (wide : Bool) (v : DWord) : StepKeeps (execCalValWrite n word wide v s) :=
  .next (i.mapLane ..)

theorem Inv.applyRecord (i : Inv s) (l : Nat) (record : List Byte) : Inv (s.applyRecord l record) := by
  unfold State.applyRecord
  extract_lets t
  have ht : Inv t := i.mapLane ..
  exact .ite (ht.bringUp ..) ht

theorem execLaneApply_keeps (i : Inv s) (n : Fin 32) : StepKeeps (execLaneApply n s) := .ite (.next (i.applyRecord ..)) (.next (i.mapLane ..))

theorem execFecCorrRead_keeps (i : Inv s) (n : Fin 32) : StepKeeps (execFecCorrRead n s) := .next ((i.mapLane ..).emit ..)

theorem execFecUncorrRead_keeps (i : Inv s) (n : Fin 32) : StepKeeps (execFecUncorrRead n s) := .next ((i.mapLane ..).emit ..)

theorem execLtSync_keeps (i : Inv s) (frac : Half) : StepKeeps (execLtSync frac s) := .next (i.sendLtSyncs ..)

theorem execLtDelayReq_keeps (i : Inv s) (chan : Fin 32) (epoch : Nat) (seq frac : Half) : StepKeeps (execLtDelayReq chan epoch seq frac s) :=
  .ite (.next (i.dropStale ..)) (.ite (.next (i.sendCell ..)) (.next i))

/-! ### The functions of Machine/Ether -/

theorem Inv.ethDown (i : Inv s) (p : Fin 4) : Inv (s.ethDown p) := (((i.mapEth ..).mapLane ..).mapPort ..).ptpDecide

theorem execEthPortConfigure_keeps (i : Inv s) (c : Cmd) : StepKeeps (execEthPortConfigure c s) := by
  unfold execEthPortConfigure
  refine .runCmd i (.bind fun _ => .bind fun _ => ?_)
  extract_lets _ _ _ _ _ _ t t1 t2 t3
  have ht : Inv t := i.mapEth ..
  have ht1 : Inv t1 := ht.mapLane ..
  have ht2 : Inv t2 := .ite ht1 (ht1.ethDown ..)
  have ht3 : Inv t3 := (ht2.foldl (fun _ _ h => h.finish ..) _).mapEth ..
  exact .ite (.okDone ht3) (.ite (.okDone ht2) (.waitDone (ht2.mapEth ..)))

theorem execEthLinkUp_keeps (i : Inv s) (p : Fin 4) : StepKeeps (execEthLinkUp p s) :=
  .ite (.next i) (.next (((i.mapEth ..).mapLane ..).foldl (fun _ _ h => h.finish ..) _))

theorem execEthLinkTimeout_keeps (i : Inv s) (p : Fin 4) : StepKeeps (execEthLinkTimeout p s) := by
  unfold execEthLinkTimeout
  refine .ite (.next i) (.next ((i.mapEth ..).foldl (fun _ _ h => ?_) _))
  extract_lets t
  have ht : Inv t := h.logError ..
  exact ht.finish ..

theorem execEthLinkDown_keeps (i : Inv s) (p : Fin 4) : StepKeeps (execEthLinkDown p s) := .ite (.next i) (.next (i.ethDown ..))

theorem Inv.sendFrame (i : Inv s) (p : Nat) : Inv (s.sendFrame p) := by
  unfold State.sendFrame
  refine .ite i ?_
  split
  · exact i
  · extract_lets t t1
    have ht : Inv t := i.mapEth ..
    have ht1 : Inv t1 := ht.mapTime ..
    split
    · exact ht.emit ..
    · refine .ite (.ite ((ht1.mapTime ..).emit ..) (ht1.emit ..)) ?_
      extract_lets
      split
      · exact (ht.mapTime ..).emit ..
      · exact ht.emit ..

theorem Inv.sendFrames (i : Inv s) : Inv s.sendFrames := i.foldl (fun _ _ h => h.sendFrame ..) _

theorem Inv.learn (i : Inv s) (inp src vid : Nat) : Inv (s.learn inp src vid) := .ite i (.ite (i.mapLanes ..) (.ite (i.mapLanes ..) i))

theorem execBridgeFrame_keeps (i : Inv s) (p : Fin 4) (data : List Byte) (frac : Half) : StepKeeps (execBridgeFrame p data frac s) := by
  unfold execBridgeFrame
  refine .ite (.next i) ?_
  extract_lets _ t v _ t1
  have ht : Inv t := i.learn ..
  have ht1 : Inv t1 := by
    unfold t1
    clear_value v
    split
    · exact ht.mapTime ..
    · exact ht
  exact .ite (.next (.ite ht1 (ht1.mapLanes ..))) (.ite (.next ht1) (.next (ht1.foldl (fun _ _ h => h.mapEth ..) _)))

theorem execAddressAgeing_keeps (i : Inv s) (mac vid : Nat) : StepKeeps (execAddressAgeing mac vid s) := .next (i.mapLanes ..)

theorem execTcHoldTimeout_keeps (i : Inv s) (port domain seq : Nat) : StepKeeps (execTcHoldTimeout port domain seq s) :=
  .ite (.next ((i.mapEth ..).mapTime ..)) (.next i)

/-! ### The functions of Machine/ExpCmds -/

theorem execExpApply_keeps (i : Inv s) (c : Cmd) : StepKeeps (execExpApply c s) := by
  unfold execExpApply
  exact .runCmd i (.bind fun _ => .bind fun _ => .bind fun _ => .bind fun _ => .bind fun _ => .bind fun _ => .bind fun _ => .ite (.waitDone
    (i.issueApply ..)) (.ite (.waitDone (i.issueApply ..)) (.ite (.waitDone (i.issueApply ..)) (.ite (.done (i.countCam ..)) (.waitDone (i.issueApply
    ..))))))

theorem execExpSetLimits_keeps (i : Inv s) (c : Cmd) : StepKeeps (execExpSetLimits c s) :=
  .runCmd i (.bind fun _ => .bind fun _ => .bind fun _ => .okDone (i.mapCam ..))

/-! ### The functions of Machine/Features -/

theorem Inv.mapFeat (i : Inv s) (f : Features → Features) : Inv (s.mapFeat f) := i.mapHost ..

theorem setNumber_keeps (i : Inv s) (c : Cmd) (lo hi : Nat) (f : Nat → Features → Features) : RulesKeep (setNumber c lo hi f s) :=
  .bind fun _ => .bind fun _ => .bind fun _ => .okDone (i.mapFeat ..)

theorem setWeights_keeps (i : Inv s) (c : Cmd) : RulesKeep (setWeights c s) := .bind fun _ => .bind fun _ => .bind fun _ => .okDone (i.mapFeat ..)

theorem setShedding_keeps (i : Inv s) (c : Cmd) : RulesKeep (setShedding c s) :=
  .bind fun _ => .bind fun _ => .bind fun _ => .bind fun _ => .okDone (i.mapFeat ..)

theorem setMotion_keeps (i : Inv s) (c : Cmd) : RulesKeep (setMotion c s) := .bind fun _ => .bind fun _ => .bind fun _ => .okDone (i.mapCam ..)

theorem setFrameDone_keeps (i : Inv s) (c : Cmd) : RulesKeep (setFrameDone c s) := .bind fun _ => .bind fun _ => .bind fun _ => .okDone (i.mapCam ..)

theorem execSetFeature_keeps (i : Inv s) (c : Cmd) : StepKeeps (execSetFeature c s) := by
  unfold execSetFeature
  refine .runCmd i ?_
  split
  · exact setWeights_keeps i _
  · exact setNumber_keeps i _ _ _ _
  · exact setShedding_keeps i _
  · exact setNumber_keeps i _ _ _ _
  · exact setMotion_keeps i _
  · exact setFrameDone_keeps i _
  · exact setNumber_keeps i _ _ _ _
  · exact setNumber_keeps i _ _ _ _
  · exact .error

theorem execGetFeature_keeps (i : Inv s) (c : Cmd) : StepKeeps (execGetFeature c s) := .runCmd i (.bind fun _ => .okDone (i.writePtr ..))

/-! ### The functions of Machine/JmCmds -/

theorem execJmLoadKernel_keeps (i : Inv s) (c : Cmd) (keyOk sigOk : Bool) : StepKeeps (execJmLoadKernel c keyOk sigOk s) := by
  unfold execJmLoadKernel
  refine .runCmd i (.bind fun _ => .bind fun _ => .bind fun _ => .bind fun _ => ?_)
  split
  · exact .error
  · exact .bind fun _ => .okDone (.mapJm (.issue (.ite (i.reads ..) i) ..) ..)

theorem bindTile_keeps (i : Inv s) (c : Cmd) (k : Kernel) : RulesKeep (bindTile c k s) := by
  unfold bindTile
  exact .bind fun _ => .bind fun _ => .bind fun _ => .bind fun _ => .bind fun _ => .bind fun _ => .bind fun _ => .bind fun _ => .bind fun _ => .bind
    fun _ => .waitDone (i.mapJm ..)

theorem bindRate_keeps (i : Inv s) (c : Cmd) (k : Kernel) : RulesKeep (bindRate c k s) :=
  .bind fun _ => .bind fun _ => .bind fun _ => .bind fun _ => .bind fun _ => .bind fun _ => .waitDone (i.mapJm ..)

theorem releaseHooks_keeps (i : Inv s) (c : Cmd) (k : Kernel) : RulesKeep (releaseHooks c k s) :=
  .bind fun _ => .bind fun _ => .bind fun _ => .okDone (i.mapBinds ..)

theorem unbindStage_keeps (i : Inv s) (c : Cmd) (k : Kernel) : RulesKeep (unbindStage c k s) := by
  unfold unbindStage
  refine .bind fun _ => .bind fun _ => ?_
  split
  · extract_lets _ _ t
    have ht : Inv t := i.mapCam ..
    exact .okDone (.ite ht (ht.latchPolicies ..))
  · refine .ite (.okDone (i.mapBinds ..)) ?_
    extract_lets t
    have ht : Inv t := i.mapJm ..
    refine .okDone ?_
    split
    · exact ht.finish ..
    · exact ht

theorem setParams_keeps (i : Inv s) (c : Cmd) (k : Kernel) : RulesKeep (setParams c k s) :=
  .bind fun _ => .bind fun _ => .bind fun _ => .bind fun _ => .okDone (i.mapBinds ..)

theorem execJmBindStage_keeps (i : Inv s) (c : Cmd) : StepKeeps (execJmBindStage c s) := by
  unfold execJmBindStage
  refine .runCmd i (.bind fun _ => .bind fun _ => .bind fun _ => ?_)
  split
  · split
    · exact bindTile_keeps i _ _
    · exact .error
    · exact bindRate_keeps i _ _
  · exact releaseHooks_keeps i _ _
  · exact unbindStage_keeps i _ _
  · exact setParams_keeps i _ _

theorem execJmUnload_keeps (i : Inv s) (c : Cmd) : StepKeeps (execJmUnload c s) := by
  unfold execJmUnload
  refine .runCmd i (.bind fun _ => .bind fun _ => ?_)
  split
  · exact .error
  · exact .waits (((i.mapKernel ..).keepInFlight ..).jmSettle)

theorem execExpPolicyBind_keeps (i : Inv s) (c : Cmd) : StepKeeps (execExpPolicyBind c s) := by
  unfold execExpPolicyBind
  refine .runCmd i (.bind fun _ => .bind fun _ => ?_)
  extract_lets _ rest
  have hrest : ∀ x0, RulesKeep (rest x0) := by
    intro x0
    unfold rest
    extract_lets t t1
    have ht : Inv t := i.mapCam ..
    have ht1 : Inv t1 := by
      unfold t1
      split
      · exact .ite ht (ht.mapJm ..)
      · exact ht
    exact .ite (.waits ((ht1.keepInFlight ..).mapJm ..)) (.okDone (.ite ht1 ((ht1.latchPolicies ..).jmSettle)))
  exact .ite (.bind fun _ => hrest _) (.bind fun _ => .bind fun _ => .bind fun _ => .bind fun _ => .bind fun _ => .bind fun _ => hrest _)

theorem Inv.resetBlock (i : Inv s) (k : Kernel) (slot : Nat) : Inv (s.resetBlock k slot) := (i.mapBinds ..).countKernel ..

theorem Inv.startPolicy (i : Inv s) (h : Handle) (cam run fn : Nat) : Inv (s.startPolicy h cam run fn) := (i.mapJm ..).mapBinds ..

theorem Inv.startTile (i : Inv s) (cam hook run fn tx ty : Nat) : Inv (s.startTile cam hook run fn tx ty) := i.mapJm ..

theorem execJmInvocationStart_keeps (i : Inv s) (role : Fin 128) (statePoisoned : Bool) : StepKeeps (execJmInvocationStart role statePoisoned s) := by
  unfold execJmInvocationStart
  extract_lets s1
  have hs1 : Inv s1 := i.jmRates
  split
  · refine .ite (.next hs1) ?_
    split
    · exact .next hs1
    · extract_lets _ _ t t1
      have ht : Inv t := hs1.mapJm ..
      have ht1 : Inv t1 := .ite (ht.resetBlock ..) ht
      refine .next ?_
      split
      · exact ht1.startTile ..
      · exact ht1.startPolicy ..
      · exact ht1
  · exact .next hs1

theorem Inv.endTile (i : Inv s) (role : Nat) (f : HookFrame) (tx ty : Nat) (planes : List (List Nat)) (reds : List (JmRed × Nat × Nat)) :
    Inv (s.endTile role f tx ty planes reds) :=
  ((i.putTile ..).mapHook ..).finishHook ..

theorem Inv.keepState (i : Inv s) (inv : Invoc) (st : List Byte) : Inv (s.keepState inv st) := i.mapBinds ..

theorem Inv.endPolicy (i : Inv s) (inv : Invoc) (cam run fn valid : Nat) (req : List Byte) : Inv (s.endPolicy inv cam run fn valid req) := by
  unfold State.endPolicy
  split
  · exact i
  · exact .endJobOf (.ite (i.mapJm ..) i) ..

theorem Inv.endsWell (i : Inv s) (inv : Invoc) : Inv (s.endsWell inv) := (i.freeThread ..).mapKernel ..

theorem execJmInvocationEnd_keeps (i : Inv s) (role : Fin 128) (thread : Fin 4) (result : JmResult) :
    StepKeeps (execJmInvocationEnd role thread result s) := by
  unfold execJmInvocationEnd
  split
  · exact .next i
  · refine .ite (.next (i.dropStale ..)) ?_
    split
    · exact .ite (.next (i.jmTrap ..)) (.next i)
    · exact .next (i.siteDead ..)
    · refine .ite (.next (i.jmTrap ..)) ?_
      extract_lets t
      have ht : Inv t := i.endsWell ..
      refine .next (.jmSettle ?_)
      split
      · exact .ite (ht.endTile ..) ht
      · exact ht
    · exact .next ((((i.endsWell ..).keepState ..).endPolicy ..).jmSettle)
    · exact .next ((((i.endsWell ..).keepState ..).answerRate ..).jmSettle)
    · exact .next i

theorem execOverrun_keeps (i : Inv s) (role : Fin 128) (thread : Fin 4) : StepKeeps (execOverrun role thread s) := by
  unfold execOverrun
  split
  · exact .next i
  · split
    · exact .next (i.jmTrap ..)
    · exact .next i

theorem execWatchdog_keeps (i : Inv s) (role : Fin 128) (thread : Fin 4) : StepKeeps (execWatchdog role thread s) := by
  unfold execWatchdog
  split
  · exact .next i
  · split
    · exact .next (i.jmTrap ..)
    · exact .next i

theorem execRateKernelTimeout_keeps (i : Inv s) (h : Handle) : StepKeeps (execRateKernelTimeout h s) := by
  unfold execRateKernelTimeout
  split
  · exact .next i
  · refine .ite (.next i) (.next (.jmSettle (.answerRate ?_ ..)))
    split
    · exact (i.freeThread ..).countKernel ..
    · exact i

theorem execTileDeadline_keeps (i : Inv s) (cam : Fin 48) (fn : Nat) : StepKeeps (execTileDeadline cam fn s) :=
  .next ((i.foldl (fun _ _ h => (((h.mapJm ..).voidTiles ..).countKernel ..).finishHook ..) _).jmSettle)

theorem execSiteStall_keeps (i : Inv s) (role : Fin 128) : StepKeeps (execSiteStall role s) := .ite (.next (i.siteDead ..)) (.next i)

end Sys2Proof
end

section
/-!
SUPPORT. What keeps the invariant: the lane, motion, pair, power, recording and stream commands, the registers and the tick. One lemma per function,
after its own branches; a function whose parts are known not to hold the bytes (its `_only` lemma) needs no more than that.
-/
namespace Sys2Proof

open Machine

variable {s : State}

/-! ### The functions of Machine/LaneCmds -/

theorem trainCalibrate_keeps (i : Inv s) (c : Cmd) (l : Nat) (force : Bool) : RulesKeep (trainCalibrate c l force s) := by
  unfold trainCalibrate
  refine .bind fun _ => ?_
  extract_lets _ by_ rest
  have hby_ : ∀ u (_ : Inv u), Inv (by_ u) := by
    intro u hu
    unfold by_
    exact hu.mapLane ..
  have hrest : ∀ x0, RulesKeep (rest x0) := by
    intro x0
    unfold rest
    exact .waitDone (hby_ _ (i.calInPlace ..))
  split
  · exact .bind fun _ => .waitDone (hby_ _ (i.calInPlace ..))
  · exact .bind fun _ => .waitDone (hby_ _ (i.calInPlace ..))
  · refine .ite ?_ (.bind fun _ => .bind fun _ => .bind fun _ => .waitDone (hby_ _ (i.rotate ..)))
    split
    · exact .bind fun _ => hrest ()
    · exact .bind fun _ => hrest ()
  · exact .bind fun _ => .error

theorem execLaneTrain_keeps (i : Inv s) (c : Cmd) : StepKeeps (execLaneTrain c s) := by
  unfold execLaneTrain
  refine .runCmd i (.bind fun _ => .ite (trainCalibrate_keeps i _ _ _) (.bind fun _ => .bind fun _ => .bind fun _ => .bind fun _ => .ite (.waitDone
    (.mapLane (.bringUp ?_ ..) ..)) (.okDone (.mapQuad (.mapLane ?_ ..) ..))))
  · split
    · exact i.finish ..
    · exact i
  · split
    · exact i.finish ..
    · exact i

theorem execLaneBitslip_keeps (i : Inv s) (c : Cmd) (good cw : Nat) : StepKeeps (execLaneBitslip c good cw s) :=
  .runCmd i (.bind fun _ => .bind fun _ => .okDone (i.mapLane ..))

theorem execLaneCalSave_keeps (i : Inv s) (c : Cmd) : StepKeeps (execLaneCalSave c s) :=
  .runCmd i (.bind fun _ => .bind fun _ => .bind fun _ => .bind fun _ => .bind fun _ => .okDone (i.writeMem ..))

theorem execLaneCalRestore_keeps (i : Inv s) (c : Cmd) : StepKeeps (execLaneCalRestore c s) := by
  unfold execLaneCalRestore
  exact .runCmd i (.bind fun _ => .bind fun _ => .bind fun _ => .bind fun _ => .bind fun _ => .bind fun _ => .bind fun _ => .bind fun _ => .okDone
    (i.foldl (fun _ _ h => h.applyRecord ..) _))

/-! ### The functions of Machine/Motion -/

theorem Inv.endField (i : Inv s) (cam : Nat) (f : CamFrame) (idx : Nat) (sums : List (Nat × Nat)) : Inv (s.endField cam f idx sums) :=
  (i.writeMem ..).writeMem ..

theorem Inv.mapSearched (i : Inv s) (cam fn : Nat) (g : CamFrame → CamFrame) : Inv (s.mapSearched cam fn g) := i.mapCam ..

theorem Inv.writeBand (i : Inv s) (cam : Nat) (f : CamFrame) (lost : Bool) : Inv (s.writeBand cam f lost) := by
  unfold State.writeBand
  extract_lets _ _ _ _ _ _ _ _ t _ _ t1
  have ht : Inv t := by
    unfold t
    split
    · exact i
    · extract_lets _ t2 t3
      have ht2 : Inv t2 := i.foldl (fun _ _ h => .ite (h.writeMem ..) h) _
      have ht3 : Inv t3 := ht2.mapCam ..
      exact .ite (ht3.endField ..) ht3
  have ht1 : Inv t1 := (ht.mapSearched ..).requests ..
  exact .ite ((ht1.mapCam ..).fieldComplete ..) ht1

theorem execMotionBand_keeps (i : Inv s) (errors : List SramError) : StepKeeps (execMotionBand errors s) := by
  unfold execMotionBand
  split
  · exact .next i
  · exact .next ((i.writeBand ..).sramErrors ..)

theorem execMotionWatchdog_keeps (i : Inv s) : StepKeeps (execMotionWatchdog s) := by
  unfold execMotionWatchdog
  split
  · exact .next i
  · exact .ite (.next i) (.next ((i.declareDead ..).writeBand ..))

/-! ### The functions of Machine/LogPages -/

theorem execGetLogPage_keeps (i : Inv s) (c : Cmd) : StepKeeps (execGetLogPage c s) := by
  unfold execGetLogPage
  refine .runCmd i (.bind fun _ => ?_)
  split
  · exact .okDone ((i.writePtr ..).tickFresh)
  · exact .bind fun _ => .okDone ((i.writePtr ..).tickFresh)

theorem execIdentify_keeps (i : Inv s) (c : Cmd) : StepKeeps (execIdentify c s) := .runCmd i (.okDone (i.writePtr ..))

/-! ### The functions of Machine/Pair -/

theorem Inv.standby (i : Inv s) (mapped : Vector (Option Nat) 48) (peers : List (Nat × Nat × Nat)) (hub : Nat) :
    Inv (s.standby mapped peers hub) := by
  unfold State.standby
  extract_lets mine
  clear_value mine
  split
  · exact i
  · exact i.sendHub ..

theorem pairConfigure_keeps (i : Inv s) (c : Cmd) (peers : List (Nat × Nat × Nat)) : RulesKeep (pairConfigure c peers s) := by
  unfold pairConfigure
  exact .bind fun _ => .bind fun _ => .ite (.okDone (i.mapPair ..)) (.bind fun _ => .bind fun _ => .bind fun _ => .bind fun _ => .waits (((i.mapPair
    ..).keepInFlight ..).foldl (fun _ _ h => h.standby ..) _))

theorem pairHandOver_keeps (i : Inv s) (c : Cmd) : RulesKeep (pairHandOver c s) := by
  unfold pairHandOver
  exact .bind fun _ => .bind fun _ => .waits ((((i.mapPair ..).keepInFlight ..).foldl (fun _ _ h => h.stopQuiet ..) _).handOn)

theorem execPairConfigure_keeps (i : Inv s) (c : Cmd) (peers : List (Nat × Nat × Nat)) : StepKeeps (execPairConfigure c peers s) := by
  unfold execPairConfigure
  refine .runCmd i (.bind fun _ => .bind fun _ => .bind fun _ => ?_)
  split
  · exact pairConfigure_keeps i _ _
  · exact .bind fun _ => pairHandOver_keeps i _
  · exact .bind fun _ => .bind fun _ => .okDone i

theorem Inv.mirrorOut (i : Inv s) : Inv s.mirrorOut := .ite i ((i.mapPair ..).foldl (fun _ _ h => h.emit ..) _)

theorem execHeartbeatSend_keeps (i : Inv s) : StepKeeps (execHeartbeatSend s) := by
  unfold execHeartbeatSend
  split
  · exact .next i
  · refine .ite (.next i) ?_
    extract_lets t
    have ht : Inv t := i.mirrorOut
    exact .next ((ht.mapPair ..).sendCell ..)

theorem execShadowUpdate_keeps (i : Inv s) (cell : ShadowCell) (m : Option Mirror) (used : Nat) (full : Bool) :
    StepKeeps (execShadowUpdate cell m used full s) := by
  unfold execShadowUpdate
  refine .ite (.next i) (.ite (.next (i.dropStale ..)) ?_)
  extract_lets _ _ t t1
  have ht : Inv t := by
    unfold t
    split
    · exact i.tickFresh.writeMem ..
    · exact i
  have ht1 : Inv t1 := ht.mapPair ..
  exact .next (.ite (ht1.foldl (fun _ _ h => h.finish ..) _) ht1)

theorem Inv.declareTwin (i : Inv s) : Inv s.declareTwin := by
  unfold State.declareTwin
  refine (((i.mapPair ..).mapMgmt ..).post ..).foldl (fun _ _ h => ?_) _
  split
  · exact h.sendHub ..
  · exact h

theorem Inv.placeFiles (i : Inv s) (idx : Nat) (m : Mirror) : Inv (s.placeFiles idx m) := by
  unfold State.placeFiles
  extract_lets put t t1
  have hput : ∀ x0 x1 u2 (_ : Inv u2), Inv (put x0 x1 u2) := by
    intro x0 x1 u2 hu2
    unfold put
    exact hu2.writeMem ..
  have ht : Inv t := i.foldl (fun _ _ h => hput _ _ _ h) _
  have ht1 : Inv t1 := ht.foldl (fun _ _ h => hput _ _ _ h) _
  split
  · exact hput _ _ _ ht1
  · exact ht1

theorem Inv.takeKernel (i : Inv s) (cam : Nat) (x : Nat × Nat × List Byte) : Inv (s.takeKernel cam x) := .ite i (((i.issue ..).mapJm ..).mapCam ..)

theorem Inv.takeOver (i : Inv s) (x : Nat × Nat × Mirror) : Inv (s.takeOver x) := by
  unfold State.takeOver
  refine .ite i ?_
  extract_lets _ _ _ _ _ _ plan _ _ _ _ t t1 t2 t3 t4
  have ht : Inv t := ((i.placeFiles ..).mapCam ..).issue ..
  have ht1 : Inv t1 := ht.mapPair ..
  have ht2 : Inv t2 := by
    unfold t2
    clear_value plan
    split
    · split
      · exact (ht1.armPlan ..).ownPin ..
      · exact ht1
    · exact ht1
  have ht3 : Inv t3 := ht2.foldl (fun _ _ h => h.takeKernel ..) _
  have ht4 : Inv t4 := by
    unfold t4
    split
    · exact ht3.issueApply ..
    · exact ht3
  exact .ite (ht4.logErrorPost ..) ((ht4.mapCam ..).sendBind ..)

theorem execOwnerAck_keeps (i : Inv s) (hub epoch hubFc lost : Nat) : StepKeeps (execOwnerAck hub epoch hubFc lost s) := by
  unfold execOwnerAck
  extract_lets _ _ _ settled _ t t1
  have hsettled : ∀ u (_ : Inv u), Inv (settled u) := by
    intro u hu
    unfold settled
    exact (hu.mapCams ..).mapPair ..
  have ht : Inv t := (hsettled _ i).mapPair ..
  have ht1 : Inv t1 := (hsettled _ i).mapPair ..
  split
  · exact .ite (.next i) (.next (((ht.foldl (fun _ _ h => h.releaseCtx ..) _).jmSettle).finish ..))
  · exact .ite (.next i) (.next (ht1.foldl (fun _ _ h => h.takeOver ..) _))

theorem execHeartbeat_keeps (i : Inv s) (payload : List Byte) : StepKeeps (execHeartbeat payload s) := by
  unfold execHeartbeat
  refine .ite (.next i) (.ite (.next (i.dropStale ..)) ?_)
  extract_lets _ _ t t1 t2
  have ht : Inv t := i.mapPair ..
  have ht1 : Inv t1 := .ite (ht.mapMgmt ..) ht
  have ht2 : Inv t2 := .ite (ht1.foldl (fun _ _ h => .ite (h.releaseCtx ..) h) _) ht1
  exact .next (.jmSettle (.ite ht2.pairFenced ht2))

theorem execHeartbeatMiss_keeps (i : Inv s) (toggles chandler : Bool) : StepKeeps (execHeartbeatMiss toggles chandler s) := by
  unfold execHeartbeatMiss
  refine .ite (.next i) ?_
  extract_lets _ t
  have ht : Inv t := i.mapPair ..
  exact .ite (.next ht) (.ite (.next ht.declareTwin) (.ite (.next (((ht.mapPair ..).mapMgmt ..).logErrorPost ..)) (.next ht)))

/-! ### The functions of Machine/Power -/

theorem execPwrSetState_keeps (i : Inv s) (c : Cmd) : StepKeeps (execPwrSetState c s) := by
  unfold execPwrSetState
  refine .runCmd i (.bind fun _ => .bind fun _ => .bind fun _ => .ite (.okDone (i.mapPower ..)) ?_)
  extract_lets t
  have ht : Inv t := (i.mapPower ..).setPower ..
  exact .ite (.waitDone ((ht.mapMem rfl).mapPower ..)) (.okDone ht)

theorem execPwrSetIdleTimers_keeps (i : Inv s) (c : Cmd) : StepKeeps (execPwrSetIdleTimers c s) :=
  .runCmd i (.bind fun _ => .bind fun _ => .bind fun _ => .okDone (i.mapPower ..))

theorem Inv.enterIdle (i : Inv s) : Inv s.enterIdle := .ite (i.setPower ..) (.ite (i.setPower ..) (.ite (i.setPower ..) i))

theorem execIdleTimerExpiry_keeps (i : Inv s) (n : Fin 3) : StepKeeps (execIdleTimerExpiry n s) := .ite (.next i) (.next ((i.mapHost ..).enterIdle))

theorem Inv.watchIdle (i : Inv s) : Inv s.watchIdle := .ite i (.ite (i.mapHost ..) (.enterIdle (.ite (i.mapHost ..) i)))

theorem execThermalThrottle_keeps (i : Inv s) (sensor : Fin 24) : StepKeeps (execThermalThrottle sensor s) := by
  unfold execThermalThrottle
  refine .ite (.next i) ?_
  extract_lets t t1 t2
  have ht : Inv t := i.mapPower ..
  have ht1 : Inv t1 := .ite ht (ht.startSpeed ..)
  have ht2 : Inv t2 := ht1.mapMgmt ..
  exact .next (ht2.post ..)

theorem execThrottleEnd_keeps (i : Inv s) : StepKeeps (execThrottleEnd s) := by
  unfold execThrottleEnd
  refine .ite (.next i) ?_
  extract_lets _ t t1 t2 t3 t4
  have ht : Inv t := i.mapPower ..
  have ht1 : Inv t1 := ht.mapMgmt ..
  have ht2 : Inv t2 := by
    unfold t2
    split
    · exact ht1.mapMem rfl
    · exact ht1
  have ht3 : Inv t3 := by
    unfold t3
    split
    · exact (ht2.mapPower ..).setPower ..
    · exact ht2
  have ht4 : Inv t4 := .ite ht3 (ht3.startSpeed ..)
  exact .next (ht4.post ..)

theorem Inv.coreDown (i : Inv s) : Inv s.coreDown := i.mapPower ..

theorem Memory.empty_wf : (Memory.mk [] []).wf = true := rfl

theorem execThermalTrip_keeps (i : Inv s) (sensor : Fin 24) : StepKeeps (execThermalTrip sensor s) :=
  .ite (.next i) (.next (((Inv.mapMgmt (Inv.mapMem_wf Memory.empty_wf) _).logError _).emit _))

theorem execVddCoreFailure_keeps (i : Inv s) : StepKeeps (execVddCoreFailure s) := by
  unfold execVddCoreFailure
  refine .ite (.next i) ?_
  extract_lets t t1 t2
  have ht : Inv t := i.coreDown.mapMgmt ..
  have ht1 : Inv t1 := ht.logError ..
  have ht2 : Inv t2 := ht1.emit ..
  exact .next (.ite (ht2.emit ..) ht2)

theorem Inv.cold (_ : Inv s) (phase : Phase) (time : TimeSt) : Inv (s.cold phase time) := State.reset_wf

theorem execPowerUp_keeps (i : Inv s) : StepKeeps (execPowerUp s) := .next (i.cold ..)

theorem execPowerDown_keeps (i : Inv s) : StepKeeps (execPowerDown s) := .next (i.cold ..)

theorem execDeviceReset_keeps (i : Inv s) : StepKeeps (execDeviceReset s) := .ite (.next i) (.next (i.cold ..))

theorem execTapReset_keeps (i : Inv s) : StepKeeps (execTapReset s) := .next i

theorem execPcieLinkTraining_keeps (i : Inv s) (rate width : Nat) : StepKeeps (execPcieLinkTraining rate width s) := by
  unfold execPcieLinkTraining
  refine .ite (.next i) ?_
  extract_lets t
  have ht : Inv t := i.mapPower ..
  exact .next (.ite (ht.emit ..) ht)

theorem Inv.bootFail (i : Inv s) (k : UnitKind) (idx : Nat) : Inv (s.bootFail k idx) := by
  unfold State.bootFail
  split
  · exact i.declareDead ..
  · exact i.mapMgmt ..

theorem Inv.bootRetire (i : Inv s) (p : Nat) : Inv (s.bootRetire p) := i.mapMem rfl

theorem execBoot_keeps (i : Inv s) (flashOk : Bool) (checkA checkB : Nat) (units : List (UnitKind × Nat)) (pcs : List Nat) (remaps : List (Nat ×
    Nat)) (answered : List (Nat × Nat)) :
    StepKeeps (execBoot flashOk checkA checkB units pcs remaps answered s) := by
  unfold execBoot
  refine .ite (.next i) ?_
  extract_lets t t1 t2 t3 t4 t5
  have ht : Inv t := i.mapPower ..
  have ht1 : Inv t1 := ht.mapMem rfl
  have ht2 : Inv t2 := ht1.foldl (fun _ _ h => h.bootFail ..) _
  have ht3 : Inv t3 := ht2.foldl (fun _ _ h => h.bootRetire ..) _
  have ht4 : Inv t4 := .ite ((ht3.mapFw ..).writeBootRecord) ht3
  have ht5 : Inv t5 := ht3.bootLanes ..
  split
  · exact .next (ht4.mapPower ..)
  · extract_lets t6 t7 t8 t9
    have ht6 : Inv t6 := ht5.mapFw ..
    have ht7 : Inv t7 := .ite ht6.writeBootRecord ht6
    have ht8 : Inv t8 := by
      unfold t8
      split
      · exact ht7.logError ..
      · exact ht7
    have ht9 : Inv t9 := ht8.mapPower ..
    exact .next (ht9.mapMgmt ..)

/-! ### The functions of Machine/RecCmds -/

theorem Inv.srcRelease (i : Inv s) (h : Handle) (x : RecSrc) : Inv (s.srcRelease h x) := by
  unfold State.srcRelease
  refine .ite ?_ ?_
  · split
    · exact i
    · split
      · exact i
      · exact (i.writeMem ..).mapEnc ..
  · split
    · split
      · exact i.mapCam ..
      · exact i
    · split
      · exact i.writeMem ..
      · exact i
    · exact i

theorem Inv.srcReads (i : Inv s) (x : RecSrc) (r : RecOut) : Inv (s.srcReads x r) := by
  unfold State.srcReads
  refine .ite ?_ ?_
  · split
    · exact i.reads ..
    · exact i
  · split
    · exact i.reads ..
    · exact i.reads ..
    · exact i.reads ..
    · exact i

theorem Inv.srcTaken (i : Inv s) (h : Handle) (k : Nat) (r : RecOut) : Inv (s.srcTaken h k r) := i.mapSrc ..

theorem Inv.fragTake (i : Inv s) (h : Handle) (r : RecOut) : Inv (s.fragTake h r) := by
  unfold State.fragTake
  split
  · exact i
  · exact .mapRec (.ite (i.closeFrag ..) i) ..

theorem execRecSourceRecord_keeps (i : Inv s) (h : Handle) (k : Nat) : StepKeeps (execRecSourceRecord h k s) := by
  unfold execRecSourceRecord
  extract_lets s1
  have hs1 : Inv s1 := by
    unfold s1
    split
    · exact i.recPump ..
    · exact i
  split
  · exact .next hs1
  · refine .ite (.next hs1) ?_
    split
    · exact .next hs1
    · split
      · exact .next hs1
      · refine .ite (.next hs1) (.ite (.ite (.next (hs1.recWaits ..)) ?_) (.ite (.next ((((hs1.srcReads ..).srcRelease ..).srcTaken ..).countRec ..))
          (.ite (.next (hs1.recWaits ..)) (.next (((((hs1.srcReads ..).srcRelease ..).srcTaken ..).countRec ..).recPut ..)))))
        extract_lets t
        have ht : Inv t := hs1.srcReads ..
        exact .next (.srcTaken (.srcRelease (.ite (ht.fragTake ..) (ht.countRec ..)) ..) ..)

theorem execAlignWaitExpiry_keeps (i : Inv s) (h : Handle) (k : Nat) : StepKeeps (execAlignWaitExpiry h k s) := by
  unfold execAlignWaitExpiry
  split
  · exact .next i
  · split
    · exact .next i
    · refine .ite (.next i) (.ite ?_ (.ite (.next i) ?_))
      · split
        · exact .next i
        · exact .ite (.next i) (.next ((i.mapSrc ..).recPut ..))
      · extract_lets _ _ _ _ t
        have ht : Inv t := i.mapSrc ..
        exact .next (.ite (ht.recPut ..) (ht.countRec ..))

theorem execStreamDescriptionRefresh_keeps (i : Inv s) (h : Handle) : StepKeeps (execStreamDescriptionRefresh h s) := by
  unfold execStreamDescriptionRefresh
  split
  · exact .next i
  · exact .ite (.next i) (.next (i.recDescribe ..))

theorem Inv.recEnd (i : Inv s) (h : Handle) : Inv (s.recEnd h) := by
  unfold State.recEnd
  split
  · exact i
  · extract_lets _ t
    have ht : Inv t := i.of_bytes rfl
    split
    · exact ht.finishOpt ..
    · exact ht

theorem Inv.recClosedOut (i : Inv s) (h : Handle) : Inv (s.recClosedOut h) := by
  unfold State.recClosedOut
  split
  · exact i
  · exact .ite (i.recEnd ..) i

theorem Inv.recLetGo (i : Inv s) (h : Handle) : Inv (s.recLetGo h) := by
  unfold State.recLetGo
  split
  · exact i
  · refine i.foldl (fun _ _ h1 => .ite ?_ h1) _
    split
    · exact h1
    · exact h1.mapCam ..

theorem execRecSessionClose_keeps (i : Inv s) (c : Cmd) : StepKeeps (execRecSessionClose c s) := by
  unfold execRecSessionClose
  refine .runCmd i (.bind fun _ => .bind fun _ => ?_)
  extract_lets _ _ t t1 t2 t3
  have ht : Inv t := i.keepInFlight ..
  have ht1 : Inv t1 := .ite (ht.closeFrag ..) ht
  have ht2 : Inv t2 := ht1.recLetGo ..
  have ht3 : Inv t3 := ht2.mapRec ..
  exact .ite (.waits (ht3.recEnd ..)) (.waits ((ht3.recPump ..).recClosedOut ..))

theorem execRecCloseDrainTimeout_keeps (i : Inv s) (h : Handle) : StepKeeps (execRecCloseDrainTimeout h s) := by
  unfold execRecCloseDrainTimeout
  split
  · exact .next i
  · exact .ite (.next (i.recEnd ..)) (.next i)

theorem execHostRingPoll_keeps (i : Inv s) (h : Handle) (rdOff rdWraps : Nat) : StepKeeps (execHostRingPoll h rdOff rdWraps s) := by
  unfold execHostRingPoll
  split
  · exact .next i
  · exact .ite (.next i) (.next (((i.mapRec ..).recPump ..).recClosedOut ..))

theorem execSenderReport_keeps (i : Inv s) (h : Handle) : StepKeeps (execSenderReport h s) := by
  unfold execSenderReport
  split
  · exact .next i
  · exact .ite (.next i) (.next (i.foldl (fun _ _ h1 => h1.recDatagram ..) _))

theorem execEventWindowClose_keeps (i : Inv s) (h : Handle) : StepKeeps (execEventWindowClose h s) := .next ((i.openDue ..).mapRec ..)

theorem Inv.openMark (i : Inv s) (h : Handle) (start stop : Nat) : Inv (s.openMark h start stop) := by
  unfold State.openMark
  split
  · exact i
  · extract_lets _ t t1
    have ht : Inv t := (i.mapRec ..).openDue ..
    have ht1 : Inv t1 := .ite ht (ht.copyStore ..)
    exact ht1.mapRec ..

theorem execRecMarkEvent_keeps (i : Inv s) (c : Cmd) : StepKeeps (execRecMarkEvent c s) := by
  unfold execRecMarkEvent
  refine .runCmd i (.bind fun _ => .bind fun _ => .bind fun _ => .bind fun _ => .bind fun _ => .bind fun _ => .bind fun _ => ?_)
  extract_lets _ t t1
  have ht : Inv t := i.mapRec ..
  have ht1 : Inv t1 := .ite (ht.mapRec ..) (ht.recQueue ..)
  exact .done (.ite (ht1.openMark ..) ht1)

theorem recRearm_keeps (i : Inv s) (c : Cmd) (b : List Byte) : RulesKeep (recRearm c b s) := by
  unfold recRearm
  exact .bind fun _ => .bind fun _ => .bind fun _ => .bind fun _ => .bind fun _ => .okDone (((i.mapRec ..).recPump ..).recDescribe ..)

theorem execRecSessionOpen_keeps (i : Inv s) (c : Cmd) : StepKeeps (execRecSessionOpen c s) := by
  unfold execRecSessionOpen
  refine .runCmd i (.bind fun _ => .bind fun _ => .bind fun _ => .ite (recRearm_keeps i _ _) (.bind fun _ => .bind fun _ => .bind fun _ => .bind fun
    _ => ?_))
  extract_lets dup _ _ _ own src t
  have hown : ∀ u (_ : Inv u) x1, Inv (own u x1) := by
    intro u hu x1
    unfold own
    refine .ite ?_ hu
    split
    · exact hu.mapCam ..
    · exact hu
  have hsrc : Inv src := i.issue ..
  have ht : Inv t := hsrc.of_bytes rfl
  clear_value dup
  split
  · exact .error
  · exact .bind fun _ => .okDone ((ht.foldl (fun _ _ h => hown _ h _) _).recDescribe ..)

/-! ### The functions of Machine/Registers -/

theorem Inv.setBar2 (i : Inv s) (v : Nat) : Inv (s.setBar2 v) := .ite (i.mapHost ..) (i.mapHost ..)

theorem Inv.unmask (i : Inv s) (v : Nat) : Inv (s.unmask v) := .ite ((i.mapHost ..).emit ..) i

theorem Inv.setMsix (i : Inv s) (v word val : Nat) : Inv (s.setMsix v word val) := (i.mapHost ..).unmask ..

theorem Inv.bar0Word (i : Inv s) (off val : Nat) : Inv (s.bar0Word off val) := by
  unfold State.bar0Word
  exact .ite (i.mapHost ..) (.ite (i.mapHost ..) (.ite (i.mapHost ..) (.ite (i.mapHost ..) (.ite (i.mapHost ..) (.ite (i.mapHost ..) (.ite (i.setBar2
    ..) (.ite (i.setBar2 ..) (.ite (i.setMsix ..) (.ite (i.mapTime ..) (.ite (i.of_bytes rfl) (.ite (i.mapLane ..) i)))))))))))

theorem Inv.bar0Write (i : Inv s) (off : Nat) (wide : Bool) (val : Nat) : Inv (s.bar0Write off wide val) :=
  .ite (.ite i (.ite (i.setBar2 ..) ((i.bar0Word ..).bar0Word ..))) (.ite i (i.bar0Word ..))

theorem execRegisterWrite_keeps (i : Inv s) (t : RegTarget) : StepKeeps (execRegisterWrite t s) := by
  unfold execRegisterWrite
  split
  · exact .next (.ite (i.bar0Write ..) i)
  · exact .next (.ite (i.mapHost ..) i)
  · exact .next (.ite (i.smbusWrite ..) i)

theorem execBar0BadAccess_keeps (i : Inv s) (isRead : Bool) : StepKeeps (execBar0BadAccess isRead s) := .next (.ite (i.emit ..) i)

/-! ### The functions of Machine/Streams -/

theorem Inv.mapStream (i : Inv s) (h : Handle) (f : Machine.Stream → Machine.Stream) : Inv (s.mapStream h f) := i.mapLanes ..

theorem Inv.sendStream (i : Inv s) (x : Machine.Stream) (kind : Nat) (payload : List Byte) : Inv (s.sendStream x kind payload) :=
  .ite ((i.mapChan ..).emitOn ..) i

theorem Inv.sendStreamCtrl (i : Inv s) (h : Handle) (op cam arg : Nat) (entries : List Byte) : Inv (s.sendStreamCtrl h op cam arg entries) := by
  unfold State.sendStreamCtrl
  split
  · exact i
  · exact (i.sendStream ..).mapStream ..

theorem Inv.sendDesc (i : Inv s) (h : Handle) : Inv (s.sendDesc h) := by
  unfold State.sendDesc
  split
  · exact i
  · split
    · exact i
    · exact i.sendStreamCtrl ..

theorem Inv.streamDone (i : Inv s) (x : Machine.Stream) (cam : Nat) : Inv (s.streamDone x cam) := by
  unfold State.streamDone
  extract_lets t t1
  have ht : Inv t := by
    unfold t
    split
    · exact i.mapCam ..
    · exact i
  have ht1 : Inv t1 := ht.mapCam ..
  exact .ite (ht1.mapLanes ..) (ht.mapStream ..)

theorem Inv.streamFrame (i : Inv s) (x : Machine.Stream) (cam : Nat) : Inv (s.streamFrame x cam) :=
  (((i.mapStream ..).sendStream ..).sendStreamCtrl ..).sendStreamCtrl ..

theorem Inv.streamLine (i : Inv s) (x : Machine.Stream) (cam : Nat) (f : StreamFrame) : Inv (s.streamLine x cam f) := by
  unfold State.streamLine
  extract_lets
  split
  · exact i
  · extract_lets _ _ _ _ _ _ _ _ send t _ t1
    have hsend : ∀ u (_ : Inv u) x1, Inv (send u x1) := by
      intro u hu x1
      unfold send
      exact hu.sendStream ..
    have ht : Inv t := i.foldl (fun _ _ h => hsend _ h _) _
    have ht1 : Inv t1 := ht.reads ..
    exact .ite (ht1.streamDone ..) (ht1.mapStream ..)

theorem execEgressStreamSend_keeps (i : Inv s) (chan : Fin 32) : StepKeeps (execEgressStreamSend chan s) := by
  unfold execEgressStreamSend
  extract_lets
  split
  · exact .next i
  · split
    · exact .next i
    · extract_lets
      split
      · exact .next (i.streamFrame ..)
      · exact .next (i.streamLine ..)
      · exact .next (i.streamDone ..)

theorem execStreamDesc_keeps (i : Inv s) (h : Handle) : StepKeeps (execStreamDesc h s) := by
  unfold execStreamDesc
  split
  · exact .ite (.next i) (.next (i.sendDesc ..))
  · exact .next i

theorem laneSettings_keeps (i : Inv s) (c : Cmd) : RulesKeep (laneSettings c s) := by
  unfold laneSettings
  refine .bind fun _ => .bind fun _ => .bind fun _ => .bind fun _ => .bind fun _ => ?_
  extract_lets t t1 rest
  have ht : Inv t := i.mapLane ..
  have ht1 : Inv t1 := .ite ((ht.mapLane ..).mapQuad ..) (.ite (ht.mapLane ..) ht)
  have hrest : ∀ x0, RulesKeep (rest x0) := by
    intro x0
    unfold rest
    exact .okDone ht1
  exact .ite (.bind fun _ => hrest ()) (.bind fun _ => hrest ())

theorem quadSettings_keeps (i : Inv s) (c : Cmd) : RulesKeep (quadSettings c s) := by
  unfold quadSettings
  refine .bind fun _ => .bind fun _ => .bind fun _ => ?_
  extract_lets t _ t1
  have ht : Inv t := i.mapQuad ..
  have ht1 : Inv t1 := ht.mapQuad ..
  exact .ite (.okDone ht) (.ite (.okDone (ht1.foldl (fun _ _ h => .ite (h.bringUp ..) h) _)) (.okDone (ht1.foldl (fun _ _ h => ((h.mapLane
    ..).mapChan ..).laneDown ..) _)))

theorem streamOpen_keeps (i : Inv s) (c : Cmd) : RulesKeep (streamOpen c s) := by
  unfold streamOpen
  refine .bind fun _ => .bind fun _ => ?_
  extract_lets holder
  clear_value holder
  split
  · exact .error
  · exact .bind fun _ => .bind fun _ => .okDone ((((i.issue ..).mapCam ..).mapLanes ..).sendDesc ..)

theorem streamClose_keeps (i : Inv s) (c : Cmd) : RulesKeep (streamClose c s) := by
  unfold streamClose
  refine .bind fun _ => .bind fun _ => ?_
  extract_lets t
  have ht : Inv t := i.mapStream ..
  split
  · exact .okDone (ht.mapLanes ..)
  · exact .okDone (.ite (ht.streamDone ..) ht)

theorem execLaneConfigure_keeps (i : Inv s) (c : Cmd) : StepKeeps (execLaneConfigure c s) := by
  unfold execLaneConfigure
  refine .runCmd i ?_
  split
  · exact laneSettings_keeps i _
  · exact quadSettings_keeps i _
  · exact streamOpen_keeps i _
  · exact streamClose_keeps i _
  · exact .error

/-! ### The functions of Machine/UnitCmds -/

theorem Inv.unitBack (i : Inv s) (k : UnitKind) (idx : Nat) (r : CmdRef) : Inv (s.unitBack k idx r) := by
  unfold State.unitBack
  extract_lets
  split
  · exact (i.mapMgmt ..).finish ..
  · exact (i.mapMgmt ..).finish ..

theorem rejoinUnit_keeps (i : Inv s) (c : Cmd) (k : UnitKind) (idx : Nat) : RulesKeep (rejoinUnit c k idx s) :=
  .bind fun _ => .bind fun _ => .waitDone (i.mapMgmt ..)

theorem rejoinLane_keeps (i : Inv s) (c : Cmd) (l : Nat) : RulesKeep (rejoinLane c l s) :=
  .bind fun _ => .bind fun _ => .waitDone ((i.mapLane ..).bringUp ..)

theorem rejoinTwin_keeps (i : Inv s) (idx : Nat) : RulesKeep (rejoinTwin idx s) := .bind fun _ => .bind fun _ => .okDone ((i.mapPair ..).mapMgmt ..)

theorem rejoin_keeps (i : Inv s) (c : Cmd) : RulesKeep (rejoin c s) := by
  unfold rejoin
  extract_lets k
  split
  · exact rejoinUnit_keeps i _ _ _
  · clear_value k
    split
    · exact rejoinLane_keeps i _ _
    · exact .bind fun _ => .okDone (i.mapMem rfl)
    · exact rejoinTwin_keeps i _
    · exact .error

theorem fenceUnit_keeps (i : Inv s) (c : Cmd) : RulesKeep (fenceUnit c s) := by
  unfold fenceUnit
  extract_lets k _ table
  have htable : ∀ x0, RulesKeep (table x0) := by
    intro x0
    unfold table
    split
    · exact .okDone (i.declareDead ..)
    · exact .error
  clear_value k
  split
  · exact htable _
  · exact htable _
  · exact htable _
  · exact .ite (.okDone (i.laneDead ..)) .error
  · exact .error

theorem execUnitRejoin_keeps (i : Inv s) (c : Cmd) : StepKeeps (execUnitRejoin c s) := by
  unfold execUnitRejoin
  refine .runCmd i (.bind fun _ => ?_)
  split
  · exact rejoin_keeps i _
  · exact fenceUnit_keeps i _
  · exact .error

theorem execSelfTestDone_keeps (i : Inv s) (h : Handle) (ok : Bool) : StepKeeps (execSelfTestDone h ok s) := by
  unfold execSelfTestDone
  extract_lets
  split
  · extract_lets
    split
    · exact .next i
    · refine .ite (.next (i.unitBack ..)) ?_
      extract_lets t
      have ht : Inv t := (i.mapMgmt ..).logError ..
      exact .next (ht.finish ..)
  · exact .ite (.next (i.laneDead ..)) (.next i)

/-! ### The functions of Machine/Tick -/

theorem Inv.idleTick (i : Inv s) : Inv s.idleTick := by
  unfold State.idleTick
  extract_lets t
  have ht : Inv t := (i.mapTime ..).sendFrames
  exact (ht.fabTick ..).watchIdle

end Sys2Proof
end

section
/-!
O58: every step keeps the memory in its canonical form.
-/
namespace Sys2Proof

open Machine

variable {s : State}

/-- Whatever command or event takes effect, the state it answers keeps the invariant. -/
theorem exec_keeps (i : Inv s) (c : Instr) : StepKeeps (exec c s) :=
  match c with
  | .hostEnable => execHostEnable_keeps i
  | .hostDisable => execHostDisable_keeps i
  | .adminReset => execAdminReset_keeps i
  | .sqDoorbell _ _ => execSqDoorbell_keeps i ..
  | .cqDoorbell _ _ _ => execCqDoorbell_keeps i ..
  | .registerWrite _ => execRegisterWrite_keeps i ..
  | .bar0BadAccess _ => execBar0BadAccess_keeps i ..
  | .bar2Read _ _ => execBar2Read_keeps i ..
  | .bar2Write _ _ => execBar2Write_keeps i ..
  | .timeNowRead _ => execTimeNowRead_keeps i ..
  | .timeAsymWrite _ _ => execTimeAsymWrite_keeps i ..
  | .timeLinkAsymWrite _ _ => execTimeLinkAsymWrite_keeps i ..
  | .liveAddrWrite _ _ _ _ => execLiveAddrWrite_keeps i ..
  | .frameCountRead _ => execFrameCountRead_keeps i ..
  | .calValWrite _ _ _ _ => execCalValWrite_keeps i ..
  | .laneApply _ => execLaneApply_keeps i ..
  | .fecCorrRead _ => execFecCorrRead_keeps i ..
  | .fecUncorrRead _ => execFecUncorrRead_keeps i ..
  | .alertResponse => execAlertResponse_keeps i
  | .setEndpointId _ => execSetEndpointId_keeps i ..
  | .getEndpointId => execGetEndpointId_keeps i
  | .getMctpVersionSupport => execGetMctpVersionSupport_keeps i
  | .getMessageTypeSupport => execGetMessageTypeSupport_keeps i
  | .mctpHealthRequest => execMctpHealthRequest_keeps i
  | .mctpMonitorRequest _ => execMctpMonitorRequest_keeps i ..
  | .mctpLogRequest _ => execMctpLogRequest_keeps i ..
  | .commandFetch _ => execCommandFetch_keeps i ..
  | .commandDispatch _ _ => execCommandDispatch_keeps i ..
  | .commandComplete _ _ => execCommandComplete_keeps i ..
  | .coalescingTimeout _ => execCoalescingTimeout_keeps i ..
  | .identify _ => execIdentify_keeps i ..
  | .getLogPage _ => execGetLogPage_keeps i ..
  | .setFeature _ => execSetFeature_keeps i ..
  | .getFeature _ => execGetFeature_keeps i ..
  | .queueCreate _ => execQueueCreate_keeps i ..
  | .queueDelete _ => execQueueDelete_keeps i ..
  | .queueFlush _ => execQueueFlush_keeps i ..
  | .queueReset _ => execQueueReset_keeps i ..
  | .asyncEventRequest _ => execAsyncEventRequest_keeps i ..
  | .bufAlloc _ => execBufAlloc_keeps i ..
  | .bufFree _ => execBufFree_keeps i ..
  | .bufCopy _ => execBufCopy_keeps i ..
  | .bufFill _ => execBufFill_keeps i ..
  | .bufCheck _ => execBufCheck_keeps i ..
  | .memSetSpeed _ => execMemSetSpeed_keeps i ..
  | .pwrSetState _ => execPwrSetState_keeps i ..
  | .pwrSetIdleTimers _ => execPwrSetIdleTimers_keeps i ..
  | .idleTimerExpiry _ => execIdleTimerExpiry_keeps i ..
  | .hostInterfaceReset _ => execHostInterfaceReset_keeps i ..
  | .pcieLinkTraining _ _ => execPcieLinkTraining_keeps i ..
  | .powerUp => execPowerUp_keeps i
  | .deviceReset => execDeviceReset_keeps i
  | .boot _ _ _ _ _ _ _ => execBoot_keeps i ..
  | .tapReset => execTapReset_keeps i
  | .vddCoreFailure => execVddCoreFailure_keeps i
  | .thermalThrottle _ => execThermalThrottle_keeps i ..
  | .throttleEnd => execThrottleEnd_keeps i
  | .thermalTrip _ => execThermalTrip_keeps i ..
  | .camConfigure _ => execCamConfigure_keeps i ..
  | .camStart _ => execCamStart_keeps i ..
  | .bindTimeout _ => execBindTimeout_keeps i ..
  | .camStop _ => execCamStop_keeps i ..
  | .camSensorWrite _ => execCamSensorWrite_keeps i ..
  | .camTriggerPlan _ => execCamTriggerPlan_keeps i ..
  | .triggerSend _ => execTriggerSend_keeps i ..
  | .triggerMissing _ => execTriggerMissing_keeps i ..
  | .pixelCell _ _ _ _ => execPixelCell_keeps i ..
  | .timingCell _ _ _ _ _ _ => execTimingCell_keeps i ..
  | .pcpStartOfFrame _ => execPcpStartOfFrame_keeps i ..
  | .pcpLine _ _ _ => execPcpLine_keeps i ..
  | .ack _ _ _ => execAck_keeps i ..
  | .nak _ _ _ _ => execNak_keeps i ..
  | .readData _ _ _ _ => execReadData_keeps i ..
  | .controlCellResend _ _ => execControlCellResend_keeps i ..
  | .sliceDispatch _ => execSliceDispatch_keeps i ..
  | .stripeDone _ _ _ => execStripeDone_keeps i ..
  | .sliceWatchdog _ => execSliceWatchdog_keeps i ..
  | .motionBand _ => execMotionBand_keeps i ..
  | .motionWatchdog => execMotionWatchdog_keeps i
  | .rawSetStage _ => execRawSetStage_keeps i ..
  | .rawLoadTable _ => execRawLoadTable_keeps i ..
  | .rawTap _ => execRawTap_keeps i ..
  | .clrSetMatrix _ => execClrSetMatrix_keeps i ..
  | .clrLoadLut3d _ => execClrLoadLut3d_keeps i ..
  | .clrLoadCurve _ => execClrLoadCurve_keeps i ..
  | .clrSetOutput _ => execClrSetOutput_keeps i ..
  | .clrSetSpectral _ => execClrSetSpectral_keeps i ..
  | .expApply _ => execExpApply_keeps i ..
  | .expSetLimits _ => execExpSetLimits_keeps i ..
  | .statConfigure _ => execStatConfigure_keeps i ..
  | .expPolicyBind _ => execExpPolicyBind_keeps i ..
  | .jmInvocationStart _ _ => execJmInvocationStart_keeps i ..
  | .jmInvocationEnd _ _ _ => execJmInvocationEnd_keeps i ..
  | .overrun _ _ => execOverrun_keeps i ..
  | .watchdog _ _ => execWatchdog_keeps i ..
  | .rateKernelTimeout _ => execRateKernelTimeout_keeps i ..
  | .tileDeadline _ _ => execTileDeadline_keeps i ..
  | .siteStall _ => execSiteStall_keeps i ..
  | .jmLoadKernel _ _ _ => execJmLoadKernel_keeps i ..
  | .jmBindStage _ => execJmBindStage_keeps i ..
  | .jmUnload _ => execJmUnload_keeps i ..
  | .encSessionOpen _ => execEncSessionOpen_keeps i ..
  | .encSessionClose _ => execEncSessionClose_keeps i ..
  | .encSetRate _ => execEncSetRate_keeps i ..
  | .encForceIdr _ => execEncForceIdr_keeps i ..
  | .encRefMark _ => execEncRefMark_keeps i ..
  | .encPictureStart _ => execEncPictureStart_keeps i ..
  | .encPictureCommit _ _ _ _ => execEncPictureCommit_keeps i ..
  | .encRingPoll => execEncRingPoll_keeps i
  | .encPictureDrop _ => execEncPictureDrop_keeps i ..
  | .encWatchdog _ => execEncWatchdog_keeps i ..
  | .decSessionOpen _ => execDecSessionOpen_keeps i ..
  | .decSubmit _ _ => execDecSubmit_keeps i ..
  | .decSessionClose _ => execDecSessionClose_keeps i ..
  | .decPictureStart _ => execDecPictureStart_keeps i ..
  | .decPictureOutput _ _ => execDecPictureOutput_keeps i ..
  | .decCloseSlotTimeout _ => execDecCloseSlotTimeout_keeps i ..
  | .decCoreFault _ => execDecCoreFault_keeps i ..
  | .cmpJob _ => execCmpJob_keeps i ..
  | .cmpExpand _ => execCmpExpand_keeps i ..
  | .cmpEngineDispatch _ _ => execCmpEngineDispatch_keeps i ..
  | .cmpEngineFault _ => execCmpEngineFault_keeps i ..
  | .recSessionOpen _ => execRecSessionOpen_keeps i ..
  | .recSessionClose _ => execRecSessionClose_keeps i ..
  | .recMarkEvent _ => execRecMarkEvent_keeps i ..
  | .recSourceRecord _ _ => execRecSourceRecord_keeps i ..
  | .alignWaitExpiry _ _ => execAlignWaitExpiry_keeps i ..
  | .streamDescriptionRefresh _ => execStreamDescriptionRefresh_keeps i ..
  | .hostRingPoll _ _ _ => execHostRingPoll_keeps i ..
  | .senderReport _ => execSenderReport_keeps i ..
  | .eventWindowClose _ => execEventWindowClose_keeps i ..
  | .recCloseDrainTimeout _ => execRecCloseDrainTimeout_keeps i ..
  | .dispSetTiming _ => execDispSetTiming_keeps i ..
  | .dispLayerSet _ => execDispLayerSet_keeps i ..
  | .dispCommit _ => execDispCommit_keeps i ..
  | .dispLoadCoef _ => execDispLoadCoef_keeps i ..
  | .dispCrcSet _ => execDispCrcSet_keeps i ..
  | .dispClone _ => execDispClone_keeps i ..
  | .headFrameStart _ => execHeadFrameStart_keeps i ..
  | .headLineSend _ _ _ => execHeadLineSend_keeps i ..
  | .displayMode _ => execDisplayMode_keeps i ..
  | .laneConfigure _ => execLaneConfigure_keeps i ..
  | .laneTrain _ => execLaneTrain_keeps i ..
  | .laneBitslip _ _ _ => execLaneBitslip_keeps i ..
  | .laneCalSave _ => execLaneCalSave_keeps i ..
  | .laneCalRestore _ => execLaneCalRestore_keeps i ..
  | .ethPortConfigure _ => execEthPortConfigure_keeps i ..
  | .capability _ _ _ => execCapability_keeps i ..
  | .capabilityInterval _ => execCapabilityInterval_keeps i ..
  | .rateRequest _ _ => execRateRequest_keeps i ..
  | .rateAck _ _ => execRateAck_keeps i ..
  | .rateStepVerified _ _ _ _ _ _ => execRateStepVerified_keeps i ..
  | .rotate _ _ _ => execRotate_keeps i ..
  | .rotateAck _ _ => execRotateAck_keeps i ..
  | .calibrationDue _ => execCalibrationDue_keeps i ..
  | .calibrationDone _ _ _ _ _ _ => execCalibrationDone_keeps i ..
  | .inplaceDeferralExpiry _ => execInplaceDeferralExpiry_keeps i ..
  | .laneQualityUpdate _ _ _ _ _ _ => execLaneQualityUpdate_keeps i ..
  | .codewordLockLoss _ _ => execCodewordLockLoss_keeps i ..
  | .cellLockLoss _ _ => execCellLockLoss_keeps i ..
  | .laneDeath _ => execLaneDeath_keeps i ..
  | .ltSync _ => execLtSync_keeps i ..
  | .ltDelayReq _ _ _ _ => execLtDelayReq_keeps i ..
  | .egressStreamSend _ => execEgressStreamSend_keeps i ..
  | .streamDesc _ => execStreamDesc_keeps i ..
  | .bridgeFrame _ _ _ => execBridgeFrame_keeps i ..
  | .addressAgeing _ _ => execAddressAgeing_keeps i ..
  | .ethLinkUp _ => execEthLinkUp_keeps i ..
  | .ethLinkTimeout _ => execEthLinkTimeout_keeps i ..
  | .timeSetMode _ => execTimeSetMode_keeps i ..
  | .timeStep _ => execTimeStep_keeps i ..
  | .timeAdjustRate _ => execTimeAdjustRate_keeps i ..
  | .timeWriteIncrement _ => execTimeWriteIncrement_keeps i ..
  | .rateRestore => execRateRestore_keeps i
  | .sync _ _ _ _ _ _ _ => execSync_keeps i ..
  | .followUp _ _ _ _ _ => execFollowUp_keeps i ..
  | .delayReq _ _ _ _ _ => execDelayReq_keeps i ..
  | .delayResp _ _ _ _ _ => execDelayResp_keeps i ..
  | .pdelayReq _ _ _ _ _ => execPdelayReq_keeps i ..
  | .pdelayResp _ _ _ _ _ _ _ => execPdelayResp_keeps i ..
  | .pdelayRespFollowUp _ _ _ _ _ => execPdelayRespFollowUp_keeps i ..
  | .announce _ _ _ => execAnnounce_keeps i ..
  | .ptpMessageInterval _ _ _ => execPtpMessageInterval_keeps i ..
  | .announceTimeout _ => execAnnounceTimeout_keeps i ..
  | .tcHoldTimeout _ _ _ => execTcHoldTimeout_keeps i ..
  | .evtOutputSet _ => execEvtOutputSet_keeps i ..
  | .evtCaptureSet _ => execEvtCaptureSet_keeps i ..
  | .compareEvent _ => execCompareEvent_keeps i ..
  | .pulseEnd _ => execPulseEnd_keeps i ..
  | .captureEdge _ _ => execCaptureEdge_keeps i ..
  | .audPortConfigure _ => execAudPortConfigure_keeps i ..
  | .audStart _ => execAudStart_keeps i ..
  | .audStop _ => execAudStop_keeps i ..
  | .audSetSlots _ => execAudSetSlots_keeps i ..
  | .audioFrame _ _ _ => execAudioFrame_keeps i ..
  | .audioClockLoss _ => execAudioClockLoss_keeps i ..
  | .filledBlock _ => execFilledBlock_keeps i ..
  | .mediaClockUpdate _ => execMediaClockUpdate_keeps i ..
  | .playbackPoll _ => execPlaybackPoll_keeps i ..
  | .fwDownload _ => execFwDownload_keeps i ..
  | .fwCommit _ _ _ => execFwCommit_keeps i ..
  | .fwActivate _ => execFwActivate_keeps i ..
  | .activationDrained _ => execActivationDrained_keeps i ..
  | .activationDrainTimeout => execActivationDrainTimeout_keeps i
  | .trialEnd => execTrialEnd_keeps i
  | .chandlerRestart => execChandlerRestart_keeps i
  | .healthQuery _ => execHealthQuery_keeps i ..
  | .monConfigure _ => execMonConfigure_keeps i ..
  | .unitRejoin _ => execUnitRejoin_keeps i ..
  | .selfTestDone _ _ => execSelfTestDone_keeps i ..
  | .pairConfigure _ _ => execPairConfigure_keeps i ..
  | .errPolicySet _ => execErrPolicySet_keeps i ..
  | .monitorSample _ => execMonitorSample_keeps i ..
  | .histPeriodExpiry _ => execHistPeriodExpiry_keeps i ..
  | .healthRecordUpdate _ => execHealthRecordUpdate_keeps i ..
  | .heartbeatSend => execHeartbeatSend_keeps i
  | .heartbeat _ => execHeartbeat_keeps i ..
  | .heartbeatMiss _ _ => execHeartbeatMiss_keeps i ..
  | .ownerAck hub epoch hubFc lost => execOwnerAck_keeps i hub epoch hubFc lost
  | .refreshDue _ _ => execRefreshDue_keeps i ..
  | .makeUpBurst _ _ => execMakeUpBurst_keeps i ..
  | .retrainingSlot _ _ _ => execRetrainingSlot_keeps i ..
  | .retrainRetry _ _ _ => execRetrainRetry_keeps i ..
  | .stackSpeedChange _ => execStackSpeedChange_keeps i ..
  | .scrubRead _ _ _ _ _ _ => execScrubRead_keeps i ..
  | .tallyLeak _ _ => execTallyLeak_keeps i ..
  | .onDieEccPoll _ => execOnDieEccPoll_keeps i ..
  | .pcRetirement _ => execPcRetirement_keeps i ..
  | .retirementCopyDone _ _ => execRetirementCopyDone_keeps i ..
  | .codewordLock _ => execCodewordLock_keeps i ..
  | .cellLock _ => execCellLock_keeps i ..
  | .ethLinkDown _ => execEthLinkDown_keeps i ..
  | .powerDown => execPowerDown_keeps i
  | .shadowUpdate _ _ _ _ => execShadowUpdate_keeps i ..
  | .rotationOverlapEnd _ _ => execRotationOverlapEnd_keeps i ..
  | .decOutputSkip _ => execDecOutputSkip_keeps i ..

theorem step_keeps (i : Inv s) : StepKeeps (step s) := by
  unfold step
  split
  · exact .next i.idleTick
  · next c rest _ =>
    have taken : Inv { s with pending := rest } := i.of_bytes rfl
    exact exec_keeps taken c

/-- Settles O58: every function that a step calls changes the memory only by operations that keep its canonical form, or not at all. -/
theorem everyStepKeepsTheInvariant : Obligations.EveryStepKeepsTheInvariant := fun _ i => step_keeps i

end Sys2Proof
end
